-- ==== Sys2Proof/Word.lean ====
section
/-! DEFINITION. Word types of the Baszu: bytes, 32-bit words, and the widest register image (TCM_CMD, 768 bits). -/

namespace Sys2Proof

/-- One byte of a packet, a cell or an image (00_scope.md: B means byte). -/
abbrev Byte := BitVec 8
/-- A word is 32 bits (00_scope.md). -/
abbrev Word := BitVec 32
/-- A register image: the widest register, TCM_CMD, has 768 bits (06_tcam_burl.md). -/
abbrev Img := BitVec 768
/-- Byte sequences as they stand on the wire or in memory, byte 0 first (R7). -/
abbrev Bytes := List Byte

end Sys2Proof
end

