-- ==== Sys2Proof/Syntax.lean ====
section
/-! DEFINITION. The commands of the Baszu: one constructor for each row of spec/opcode_table.json, with its operands.
Observations that come from outside the device (a received frame, a temperature, words read from host memory by DMA)
are operands; everything the device itself holds is read from the State. An operand with a default is an observation that the
ordinary case lacks. -/

namespace Sys2Proof

/-- A requester of register accesses, in the same-cycle order of R51. [DESIGN CHOICE: log 7] -/
inductive Requester where
  | spindle | service | pcie | dma (k : Fin 16) | i3c
  deriving DecidableEq, Repr

/-- A register page of the page map (R29). -/
inductive Page where
  | glb | hif | evt | aon | spn | mgt | hwd | vlt | svc | clk
  | lpg (g : Fin 32) | hds (i : Fin 4) | lpm (i : Fin 4) | xm | nht | tcm | brl | lrn
  | eng (c : Fin 64) | epc | mdl | tls | chk | d2d | hbm (s : Fin 4) | tms (i : Fin 8) | mtr
  | fab (f : Fin 21) | fct | cnt | mem
  deriving DecidableEq, Repr

/-- A register with the layout and protocol of FP_OWNER that guards a shared resource (R49, R559). -/
inductive OwnerReg where
  | face (p : Page)        -- FP_OWNER of a page whose FP_CAPS.OWNER is 1
  | slice (k : Fin 16)     -- TCM_SLICEk_OWNER
  | mirror (k : Fin 16)    -- TMS_MIRk_OWNER
  | syncOut                -- SPN_SYNC_OUT_OWNER
  deriving DecidableEq, Repr

/-- A table lock (R135). -/
inductive LockReg where
  | lpm (t : Fin 2) | xm (n : Fin 8) | nht
  deriving DecidableEq, Repr

/-- What an integrity-protected memory read found (R131, R157, R208, R257): good, one corrected bit, or uncorrectable. [DESIGN CHOICE: log 8] -/
inductive EccSeen where
  | clean | corrected | uncorrectable
  deriving DecidableEq, Repr

/-- What the DEVICE_ID read of a memory stack found (R271): no stack, a failed read, or the banks and rows of each of its
pseudo-channels. [DESIGN CHOICE: log 8] -/
inductive StackId where
  | absent | failed
  | device (banks : BitVec 7) (rows : BitVec 20)
  deriving DecidableEq, Repr

/-- How a DMA read fails (R435): Unsupported Request, Completer Abort, a poisoned completion, or no completion in so many ns
after the request (R434). [DESIGN CHOICE: log 8] -/
inductive ReadEnd where
  | unsupported | aborted | poisoned
  | timeout (ns : BitVec 48)
  deriving DecidableEq, Repr

/-- How the read of a memory block ends (R280): it comes back with these of its 2,176 bits turned on the way, or not in time.
[DESIGN CHOICE: log 8] -/
inductive BlockRead where
  | back (flips : List (Fin 2176))
  | late
  deriving DecidableEq, Repr

/-- A word of a forwarding-table memory (R131, R133). [DESIGN CHOICE: log 30] -/
inductive TableWord where
  | lpm (stage : Fin 16) (word : Nat)
  | xmSlot (half : Fin 2) (bucket : Nat) (way : Fin 4)
  | xmStash (i : Fin 64)
  | nht (tbl : Fin 4) (index : Nat)
  | prof (bank : Fin 2) (i : Fin 64)
  | tmpl (bank : Fin 2) (i : Fin 64)
  deriving DecidableEq, Repr

/-- A memory of the forwarding tables, as the scrubber names it. -/
inductive TableMem where
  | lpm | xm | stash | nht | prof | tmpl
  deriving DecidableEq, Repr

/-- The SecTAG of a received frame, the outcome of its ICV check and the frame that is left once SecTAG and ICV are removed and
the secure data decrypted, under IEEE 802.1AE (R73): the packet number is the whole one, recovered with XPN. [DESIGN CHOICE: log 8, 18] -/
structure SecTag where
  sci   : BitVec 64
  an    : BitVec 2
  pn    : BitVec 64
  enc   : Bool
  icvOk : Bool
  plain : Bytes
  deriving DecidableEq, Repr

/-- Who caused a bank wake (R498). -/
inductive WakeBy where
  | software | dma | processor
  deriving DecidableEq, Repr

/-- A Spindle time of the register layouts: SEC, NS and FRAC (R329). -/
structure TimeVal where
  sec  : BitVec 48
  ns   : BitVec 30
  frac : BitVec 16
  deriving DecidableEq, Repr

/-- A reference clock input (R518). -/
inductive RefClk where
  | sys | pcie | line (k : Fin 4) | fab (k : Fin 4)
  deriving DecidableEq, Repr

/-- What the host writes to hold or let go of MSI-X messages (R454). -/
inductive MaskBit where
  | vector (v : Fin 512)
  | function
  | enable
  deriving DecidableEq, Repr

/-- A place that holds banks which may be retained (R24, R497): a memory region, or another page. -/
inductive BankPlace where
  | region (r : Fin 88)
  | page (p : Page)
  deriving DecidableEq, Repr

/-- Parties that release a reference of a Chuck chain, in the fixed order of R255. -/
inductive FreeParty where
  | tm | fabric | egress | hbm | host | verdictPath | software
  deriving DecidableEq, Repr

/-- A port of the Chuck allocator asking for a cell: the pool and the tag (R244). -/
structure CellReq where
  port : Fin 32
  pool : Fin 16
  tag  : BitVec 12
  deriving DecidableEq, Repr

/-- A release of one reference: the party, the first cell's handle and the tag presented (R252). -/
structure ChainFree where
  party  : FreeParty
  handle : BitVec 22
  tag    : BitVec 12
  deriving DecidableEq, Repr

/-- A learning record of a fabric LEARN cell (R383). -/
structure LearnRec where
  table : Fin 8
  dev   : BitVec 6
  port  : BitVec 8
  time  : BitVec 48
  key   : BitVec 160
  deriving DecidableEq, Repr

/-- A STATUS record (R388). -/
structure StatusRec where
  dev       : Fin 64
  role      : BitVec 2
  cand      : Bool
  handoff   : Bool
  term      : BitVec 16
  stbyValid : Bool
  stbyDev   : Fin 64
  bank      : BitVec 1
  seq       : BitVec 16
  spnState  : BitVec 2
  deriving DecidableEq, Repr

/-- A fabric cell as received on a link: the header fields of R365, the payload and the trailer of R366. -/
structure Cell where
  ctype   : BitVec 4
  lseq    : BitVec 12
  retx    : Bool
  bcast   : Bool
  srcDev  : Fin 64
  dstDev  : Fin 64
  sseq    : BitVec 20
  first   : BitVec 9
  fill    : BitVec 8
  kind    : BitVec 4
  count   : BitVec 6
  sgen    : BitVec 4
  payload : Bytes
  ack     : BitVec 12
  ackv    : Bool
  nakv    : Bool
  nak     : BitVec 12
  crcOk   : Bool
  deriving DecidableEq, Repr

/-- A HELLO payload (R369). -/
structure Hello where
  magic   : BitVec 32
  version : BitVec 16
  role    : BitVec 8
  id      : BitVec 8
  link    : BitVec 8
  seen    : Bool
  deriving DecidableEq, Repr

/-- The flow key of an IPFIX sample (R406). -/
structure FlowKey where
  ingPort : BitVec 8
  v6      : Bool
  src     : BitVec 128
  dst     : BitVec 128
  proto   : BitVec 8
  sport   : BitVec 16
  dport   : BitVec 16
  deriving DecidableEq, Repr

/-- A command of the Baszu: a row of spec/opcode_table.json. -/
inductive Instr where
  /-- REGISTER_WRITE (R4). A write to a register that has no row of its own stores the value according to its access type, after the shared checks. -/
  | registerWrite (req : Requester) (addr : BitVec 28) (v : BitVec 32)
  /-- STAGED_WORD_WRITE (R54). A write to a non-highest word of a multi-word register is held in the requester's staging copy. -/
  | stagedWordWrite (req : Requester) (addr : BitVec 28) (v : BitVec 32)
  /-- LOWEST_WORD_READ (R55). A read of the lowest word of a multi-word register returns it live and captures the other words into the requester's snapshot. -/
  | lowestWordRead (req : Requester) (addr : BitVec 28)
  /-- UNMAPPED_ACCESS (R30). An access to an address in no page reads 0, ignores the write and counts a bad access. -/
  | unmappedAccess (req : Requester) (addr : BitVec 28) (v : Option (BitVec 32))
  /-- PARTIAL_WRITE (R33). A write without full byte enables is discarded and counted as a bad access. -/
  | partialWrite (req : Requester) (addr : BitVec 28)
  /-- OVERSIZE_REQUEST (R34). A PCIe request longer than 16 words or crossing a page is discarded or reads 0 and counts as one bad access. -/
  | oversizeRequest (addr : BitVec 28) (write : Bool) (words : BitVec 10)
  /-- FP_CTRL_WRITE (R41). A write to FP_CTRL sets BLK_EN and LOWPWR_ALLOW and sets or clears EXPERT under the key state. -/
  | fpCtrlWrite (req : Requester) (page : Page) (w : BitVec 32)
  /-- BLK_RST (R38). A write of BLK_RST 1 while BLK_EN was 0 starts a block reset, otherwise records BAD_ARG. -/
  | blkRst (req : Requester) (page : Page) (w : BitVec 32)
  /-- BLK_RST_DONE (R38). A block reset completes, BUSY and BLK_RST return to 0 and a pending BLK_EN of 1 takes effect. -/
  | blkRstDone (page : Page)
  /-- FP_KEY_WRITE (R42). A write to FP_KEY advances the expert key machine between IDLE, ARMED and UNLOCKED. -/
  | fpKeyWrite (req : Requester) (page : Page) (w : BitVec 32)
  /-- KEY_WINDOW_EXPIRE (R42). A write brings the key WINDOW to 0 and the key machine returns to IDLE. -/
  | keyWindowExpire (req : Requester) (addr : BitVec 28) (v : BitVec 32)
  /-- EVT_MASK_SET (R45). A write to FP_EVT_MASK_SET masks the named host-class sources. -/
  | evtMaskSet (req : Requester) (page : Page) (w : BitVec 32)
  /-- EVT_MASK_CLR (R45). A write to FP_EVT_MASK_CLR unmasks the named host-class sources. -/
  | evtMaskClr (req : Requester) (page : Page) (w : BitVec 32)
  /-- EVT_PEND_CLR (R5). A write to FP_EVT_PEND_CLR clears the named pending bits, losing to a same-cycle hardware event. -/
  | evtPendClr (req : Requester) (page : Page) (w : BitVec 32)
  /-- EVT_PEND_FORCE (R46). A write to FP_EVT_PEND_FORCE fires the named service-class sources and refuses host-class bits. -/
  | evtPendForce (req : Requester) (page : Page) (w : BitVec 32)
  /-- ERR_CODE_CLEAR (R48). A write of 0x00 to FP_ERR_CODE clears the error register unless a recording meets it. -/
  | errCodeClear (req : Requester) (page : Page) (w : BitVec 32)
  /-- OWNER_CLAIM (R49). A CAS claim of a shared resource succeeds if it is free or already held by the claimant, otherwise records OWNER_BUSY. -/
  | ownerClaim (req : Requester) (r : OwnerReg) (id : BitVec 16)
  /-- OWNER_RELEASE (R49). A CAS release frees a resource held by the presented ID, otherwise records NOT_OWNER. -/
  | ownerRelease (req : Requester) (r : OwnerReg) (id : BitVec 16)
  /-- OVERRUN_CLEAR (R40). A write of 0 to FP_BUDGET.OVERRUN clears it, with a same-cycle overrun counted after. -/
  | overrunClear (req : Requester) (page : Page) (w : BitVec 32)
  /-- CLOCK_GATE (R24). An idle island gates its own clock while LOWPWR_ALLOW is 1. -/
  | clockGate (isl : Fin 128)
  /-- CLOCK_UNGATE (R515). A gated island restarts its clock on the first arrival. -/
  | clockUngate (isl : Fin 128)
  /-- BANK_RETAIN (R497). An idle or unowned SRAM bank enters retention at 0.55 V. -/
  | bankRetain (place : BankPlace) (bank : Fin 16)
  /-- BANK_WAKE (R25). An access wakes a retained bank within 200 ns and then completes, recording RETENTION_WAKE where required. -/
  | bankWake (place : BankPlace) (bank : Fin 16) (cause : WakeBy)
  /-- POWER_SAMPLE (R26). Every 1 ms the device measures total and per-rail power and updates the GLB registers. -/
  | powerSample (total : BitVec 24) (rails : List (BitVec 24))
  /-- GLB_TEMP_SAMPLE (R578). Every 1 ms the hottest die sensors are read and a 105 °C crossing fires THERM. -/
  | glbTempSample (fe : BitVec 8) (tm : BitVec 8)
  /-- PWR_PEAK_WRITE (R26). A write to GLB_PWR_PEAK sets it to the current total power. -/
  | pwrPeakWrite (req : Requester) (w : BitVec 32)
  /-- LPG_MODE_WRITE (R57). A write to LPG_MODE sets the group mode under the 1.6TbE pairing and enabled-port rules. -/
  | lpgModeWrite (req : Requester) (g : Fin 32) (w : BitVec 32)
  /-- PORT_ENABLE (R60). Writing EN 1 takes a port from DISABLED to AN, TRAIN or ALIGN and wakes its transmitter. -/
  | portEnable (req : Requester) (port : Fin 128) (w : BitVec 32)
  /-- PORT_DISABLE (R60). Writing EN 0 sends the port to DISABLED, idles the transmitter and truncates frames in progress. -/
  | portDisable (req : Requester) (port : Fin 128) (w : BitVec 32)
  /-- AN_RESOLVED (R60). Auto-negotiation resolves a common ability and the port moves to TRAIN or ALIGN. -/
  | anResolved (port : Fin 128)
  /-- AN_TIMEOUT (R60). Auto-negotiation fails or runs 3 s and is scheduled to restart. -/
  | anTimeout (port : Fin 128)
  /-- AN_RESTART (R60). After 100 ms auto-negotiation restarts. -/
  | anRestart (port : Fin 128)
  /-- LINK_TRAINED (R60). Both ends report trained and the port moves to ALIGN with coefficients frozen. -/
  | linkTrained (port : Fin 128)
  /-- LINK_TRAIN_TIMEOUT (R60). Link training runs 3 s and returns to AN or restarts. -/
  | linkTrainTimeout (port : Fin 128)
  /-- CLEAN_LOCK (R60). A clean lock in ALIGN takes the port UP and fires LINK_CHG. -/
  | cleanLock (port : Fin 128)
  /-- ALIGN_TIMEOUT (R60). No clean lock within 50 ms of ALIGN returns the port to AN, TRAIN or ALIGN. -/
  | alignTimeout (port : Fin 128)
  /-- LINK_FAULT (R60). A fault, loss of lock or HI_SER takes an UP port to FAULT and truncates the frame in transmission. -/
  | linkFault (port : Fin 128) (loc : Bool) (rem : Bool) (ser : Bool)
  /-- FAULT_RECOVER (R60). A clean lock held for 10 ms in FAULT takes the port UP. -/
  | faultRecover (port : Fin 128)
  /-- FAULT_TIMEOUT (R60). 500 ms in FAULT with no clean lock running returns the port to AN or ALIGN. -/
  | faultTimeout (port : Fin 128)
  /-- FAULT_LOCK_BREAK (R60). After 500 ms in FAULT a running clean lock breaks and the port returns to AN or ALIGN. -/
  | faultLockBreak (port : Fin 128)
  /-- FRAME_RECEIVE (R63). The MAC receives a frame whole, applies the discard checks and passes it toward the Headstock or drops it. -/
  | frameReceive (port : Fin 128) (bytes : Bytes) (fcsOk : Bool) (sec : Option SecTag) (ts : TimeVal) (frags : Nat) (corrected : Nat) (uncorrectable : Nat) (smd : Nat := 0)
  /-- FRAME_TX_START (R62). The MAC starts a frame when link, gate, MACsec and preemption allow, encrypting and stamping it. -/
  | frameTxStart (port : Fin 128) (ts : TimeVal) (pred : TimeVal)
  /-- TS_FIFO_POP (R67). A read of LPG_PORTn_TS_FIFO word +0x24 pops the head entry into the read snapshot. -/
  | tsFifoPop (req : Requester) (port : Fin 128)
  /-- SA_INSTALL (R70). SA command INSTALL writes an SA's fields and copies its key from the vault. -/
  | saInstall (req : Requester) (g : Fin 32) (w : BitVec 32)
  /-- SA_REMOVE (R70). SA command REMOVE invalidates an SA and erases its key. -/
  | saRemove (req : Requester) (g : Fin 32) (w : BitVec 32)
  /-- SA_READ (R70). SA command READ returns an SA's fields except the key into LPG_SA_DATA. -/
  | saRead (req : Requester) (g : Fin 32) (w : BitVec 32)
  /-- SA_SET_CURRENT (R70). SA command SET_CURRENT makes a valid SA its SC's current transmit SA. -/
  | saSetCurrent (req : Requester) (g : Fin 32) (w : BitVec 32)
  /-- SA_SWITCH (R72). At the frame boundary after PN exhaustion the SC moves to its next AN, or frames are discarded. -/
  | saSwitch (port : Fin 128) (sc : Fin 16)
  /-- VERIFY_SEND (R75). Every VERIFY_TIME the port sends a preemption verify frame. -/
  | verifySend (port : Fin 128)
  /-- VERIFY_RESPONSE (R75). A verify response activates preemption on the port. -/
  | verifyResponse (port : Fin 128)
  /-- VERIFY_GIVE_UP (R75). After 3 unanswered attempts verification gives up and VERIFY_FAIL fires. -/
  | verifyGiveUp (port : Fin 128)
  /-- PARSE_START (R83). A granted Headstock slot starts the parse of a pass, writes slots, anchors, keys, hash and PCX fields, or drops the packet. -/
  | parseStart (fifo : Fin 34)
  /-- LOOKUP_ISSUE (R150). The pass's lookups issue together once every named TCAM group and Burl replica is free. -/
  | lookupIssue (pass : Nat) (tcamWait : Bool) (burlWait : Bool) (corr : Fin 17 := 0)
  /-- BURL_REREAD (R168). After an uncorrectable Burl word the walker re-reads it from another replica and repairs it, or stops the scan. -/
  | burlReread (replica : Fin 24) (word : BitVec 16)
  /-- NHT_LOOKUP (R129). When its source result returns, the NHT lookup resolves next hop, ECMP member and QID. -/
  | nhtLookup (pass : Nat)
  /-- ENGINE_DISPATCH (R177). A pass waiting before dispatch is given to the cluster with the most free contexts once its reorder queue has room. -/
  | engineDispatch (pass : Nat)
  /-- PROFILE_COMMIT (R95). A write of word 7 commits a lookup profile after the kind, count and key-width checks. -/
  | profileCommit (req : Requester) (bank : Fin 2) (ix : Fin 64) (w : BitVec 32)
  /-- TEMPLATE_COMMIT (R109). A write of word 16 commits a key template after the source and key-width checks. -/
  | templateCommit (req : Requester) (bank : Fin 2) (ix : Fin 64) (w : BitVec 32)
  /-- DEEP_PARSE_WRITE (R106). A write to HDS_DPk_CFG sets or clears a deep-parse entry under its refusal checks. -/
  | deepParseWrite (req : Requester) (k : Fin 16) (w : BitVec 32)
  /-- HDS_TRACE_ARM (R111). A write of ARM arms the parse trace for the next first pass from PORT. -/
  | hdsTraceArm (req : Requester) (w : BitVec 32)
  /-- LPM_INSERT (R121). LPM command INSERT adds a prefix by building nodes and swinging one word. -/
  | lpmInsert (req : Requester) (w : BitVec 32)
  /-- LPM_UPDATE (R121). LPM command UPDATE changes a prefix's next hop. -/
  | lpmUpdate (req : Requester) (w : BitVec 32)
  /-- LPM_DELETE (R121). LPM command DELETE removes a prefix. -/
  | lpmDelete (req : Requester) (w : BitVec 32)
  /-- LPM_FIND (R121). LPM command FIND reports whether a prefix is present and its next hop. -/
  | lpmFind (req : Requester) (w : BitVec 32)
  /-- LPM_LOOKUP (R121). LPM command LOOKUP returns the longest match for a key. -/
  | lpmLookup (req : Requester) (w : BitVec 32)
  /-- LPM_REPAIR (R133). LPM command REPAIR removes a damaged node's subtree and returns the covered path. -/
  | lpmRepair (req : Requester) (w : BitVec 32)
  /-- LPM_WORD_FREE (R120). 1 µs after a swing the words left behind are freed. -/
  | lpmWordFree
  /-- XM_INSERT (R126). XM command INSERT places an entry in a bucket, by a move chain, or in the stash. -/
  | xmInsert (req : Requester) (w : BitVec 32)
  /-- XM_UPDATE (R127). XM command UPDATE rewrites RESULT and STATIC in place. -/
  | xmUpdate (req : Requester) (w : BitVec 32)
  /-- XM_DELETE (R144). XM command DELETE removes a key's entry. -/
  | xmDelete (req : Requester) (w : BitVec 32)
  /-- XM_FIND (R144). XM command FIND reports a key's entry and location. -/
  | xmFind (req : Requester) (w : BitVec 32)
  /-- XM_INVALIDATE (R133). XM command INVALIDATE clears a named slot. -/
  | xmInvalidate (req : Requester) (w : BitVec 32)
  /-- STASH_REINSERT (R126). When a slot frees, the engine moves stash entries back into their buckets. -/
  | stashReinsert
  /-- NHT_WRITE (R128). NHT_ACC write stores one entry of a next-hop table with computed parity. -/
  | nhtWrite (req : Requester) (w : BitVec 32)
  /-- NHT_READ (R128). NHT_ACC read returns one entry of a next-hop table. -/
  | nhtRead (req : Requester) (w : BitVec 32)
  /-- ECC_WRITEBACK (R131). A corrected single-bit table word is written back within 1 µs. -/
  | eccWriteback (word : TableWord)
  /-- TABLE_SCRUB (R132). The background scrubber reads a table word in an idle cycle and handles its errors. -/
  | tableScrub (mem : TableMem) (unit : Fin 16) (word : Nat) (way : Fin 4) (seen : EccSeen)
  /-- LOCK_CLAIM (R135). A claim of a table lock sets HOLDER if it is free. -/
  | lockClaim (req : Requester) (lock : LockReg) (id : BitVec 16)
  /-- LOCK_RELEASE (R135). A release of a table lock by its holder frees it. -/
  | lockRelease (req : Requester) (lock : LockReg) (id : BitVec 16)
  /-- LOCK_TIMEOUT (R136). A lock held longer than LOCK_TMO is released and LOCK_TMO fires. -/
  | lockTimeout (lock : LockReg)
  /-- LOCK_TMO_WRITE (R136). A write of LOCK_TMO applies at once to a held lock, possibly releasing it. -/
  | lockTmoWrite (req : Requester) (lock : LockReg) (w : BitVec 32)
  /-- LEARN_ARBITRATE (R139). A queued learning event is dequeued and arbitrated against the cache and table. -/
  | learnArbitrate (slow : Bool)
  /-- FLAP_HOLD_END (R140). A key's flap hold ends and its FLAPPING and move count clear. -/
  | flapHoldEnd (tbl : Fin 8) (key : BitVec 160)
  /-- AGE_SCAN_VISIT (R142). The aging scanner visits an entry, clearing HIT, advancing AGE or removing it. -/
  | ageScanVisit (slot : BitVec 23)
  /-- LRN_LOG_POP (R55). A read of LRN_LOG word 0x0200 pops the head log entry into the read snapshot. -/
  | lrnLogPop (req : Requester)
  /-- TCAM_GROUP_WRITE (R147). A write to TCM_GRPAn or TCM_GRPBn binds a search group under its checks. -/
  | tcamGroupWrite (req : Requester) (bank : Fin 2) (n : Fin 16) (w : BitVec 32)
  /-- TCAM_WRITE (R155). TCAM command WRITE replaces an entry in three steps in all replicas. -/
  | tcamWrite (req : Requester) (w : BitVec 32)
  /-- TCAM_INVALIDATE (R156). TCAM command INVALIDATE clears an entry's VALID in all replicas. -/
  | tcamInvalidate (req : Requester) (w : BitVec 32)
  /-- TCAM_READ (R156). TCAM command READ returns an entry from replica 0. -/
  | tcamRead (req : Requester) (w : BitVec 32)
  /-- TCAM_SEARCH (R156). TCAM command SEARCH searches a group with a software key. -/
  | tcamSearch (req : Requester) (w : BitVec 32)
  /-- TCAM_SCRUB_VISIT (R157). The scrubber compares an entry with its shadow and repairs or reports a mismatch or shadow loss. -/
  | tcamScrubVisit (slice : Fin 16) (entry : Fin 8192) (shadowLost : Bool)
  /-- TCAM_INJECT (R157). TCM_INJECT GO flips one bit of a TCAM cell leaving the shadow intact. -/
  | tcamInject (req : Requester) (w : BitVec 32)
  /-- EGRESS_TCAM_SEARCH (R201). After a SEND the egress search runs on a free replica and applies PERMIT, DENY or MIRROR. -/
  | egressTcamSearch (waited : Bool := false)
  /-- BRL_ASSIGN (R165). Burl command ASSIGN moves replicas to a bank, retiring verified ones. -/
  | brlAssign (req : Requester) (w : BitVec 32)
  /-- BRL_VERIFY (R166). Burl command VERIFY checks a loading replica's image and makes it VERIFIED or EMPTY. -/
  | brlVerify (req : Requester) (w : BitVec 32)
  /-- BRL_CLONE (R167). Burl command CLONE copies a verified replica to EMPTY targets. -/
  | brlClone (req : Requester) (w : BitVec 32)
  /-- BRL_CLEAR (R165). Burl command CLEAR empties replicas, zeroing their memory. -/
  | brlClear (req : Requester) (w : BitVec 32)
  /-- REPLICA_RETIRED (R165). The last walk on a RETIRING replica ends and it becomes EMPTY. -/
  | replicaRetired (replica : Fin 24)
  /-- BURL_SCRUB (R167). The scrubber visits a word of a verified replica and corrects or repairs it. -/
  | burlScrub (replica : Fin 24) (word : BitVec 16) (seen : EccSeen)
  /-- BUNDLE_ISSUE (R189). An engine issues one bundle, executing its A0, A1, M and C slots. -/
  | bundleIssue (c : Fin 64) (e : Fin 16) (corr : Fin 5 := 0)
  /-- SCRATCH_LOAD_LAND (R189). A pending scratch load or ATADD result lands in its register, ending any stall on it. -/
  | scratchLoadLand (c : Fin 64) (e : Fin 16)
  /-- BUDGET_STOP (R203). Bundle 24 passes without a verdict and the pass is stopped, forcing a Mandrel pass or a drop. -/
  | budgetStop (c : Fin 64) (e : Fin 16)
  /-- VERDICT_RELEASE (R178). A reorder queue releases a completed verdict in dispatch order. -/
  | verdictRelease (queue : BitVec 13)
  /-- CLUSTER_DRAINED (R175). A disabled cluster's last verdict leaves and its BUSY returns to 0. -/
  | clusterDrained (c : Fin 64)
  /-- IMEM_WRITE (R206). A write of ENG_IMEM_DATA word 0x012C commits a bundle, optionally broadcast, and advances BUNDLE. -/
  | imemWrite (req : Requester) (c : Fin 64) (w : BitVec 32)
  /-- IMEM_READ (R206). A read of ENG_IMEM_DATA word 0x0120 fetches the addressed bundle into the snapshot. -/
  | imemRead (req : Requester) (c : Fin 64)
  /-- ENG_TRACE_ARM (R212). A write of ARM arms the engine pass trace for the next pass on ENGINE. -/
  | engTraceArm (req : Requester) (c : Fin 64) (w : BitVec 32)
  /-- ENG_SCRUB (R208). The scrubber visits an instruction or scratch word in an idle cycle. -/
  | engScrub (c : Fin 64) (scratch : Bool) (half : Fin 2) (word : BitVec 15) (seen : EccSeen)
  /-- EGRESS_DISPATCH (R214). The Tailstock takes a released egress packet, reads its adjacency, binds the epoch and dispatches the egress pass or bypasses it. -/
  | egressDispatch
  /-- SWITCH_NOW (R220). EPC command SWITCH_NOW switches the current bank in the next cycle after its checks. -/
  | switchNow (req : Requester) (w : BitVec 32)
  /-- SWITCH_AT (R223). EPC command SWITCH_AT arms a timed switch, or switches late or refuses it. -/
  | switchAt (req : Requester) (w : BitVec 32)
  /-- EPOCH_CANCEL (R224). EPC command CANCEL releases an ARMED switch before its instant. -/
  | epochCancel (req : Requester) (w : BitVec 32)
  /-- CHASSIS_SWITCH (R228). EPC command CHASSIS_SWITCH on the manager checks itself and broadcasts PREPARE. -/
  | chassisSwitch (req : Requester) (w : BitVec 32)
  /-- EPOCH_SWITCH (R221). The switch instant is reached and the idle bank becomes current with the new EPOCH_SEQ. -/
  | epochSwitch
  /-- DRAIN_COMPLETE (R225). The old bank's in-flight count reaches 0 and the EPC returns to STABLE. -/
  | drainComplete
  /-- DRAIN_FORCE (R227). After 49 µs of draining, waiting old-bank packets are dropped with EPOCH_STALE. -/
  | drainForce
  /-- PREPARE_TIMEOUT (R220). 10 ms in PREPARED without COMMIT returns a worker to STABLE. -/
  | prepareTimeout
  /-- READY_TIMEOUT (R228). The manager's 1 ms window for READY ends and it commits or aborts. -/
  | readyTimeout
  /-- FW_TAKEOVER (R230). After the running image's round the new firmware image takes over state, rings and mailboxes. -/
  | fwTakeover
  /-- FW_SWITCH_TIMEOUT (R230). A new image not ready within 100 ms is abandoned for the old one. -/
  | fwSwitchTimeout
  /-- FW_READY (R230). A started firmware image reports ready. -/
  | fwReady
  /-- MANDREL_REENTER (R231). The oldest Mandrel pass takes a granted Headstock slot and re-enters as port 248. -/
  | mandrelReenter (borrowed : Bool)
  /-- ALLOC_CYCLE (R244). The Chuck allocator applies the cycle's frees and grants, falls back or refuses its requests. -/
  | allocCycle (adds : List (BitVec 22 × BitVec 12)) (frees : List ChainFree) (reqs : List CellReq)
  /-- CACHE_REFILL (R246). A pool cache refills from its in-memory free list. -/
  | cacheRefill (pool : Fin 16)
  /-- HEAD_CACHE_REQUEST (R248). The Chuck requests first cells for a short source cache when its pool has free cells. -/
  | headCacheRequest (src : Fin 130)
  /-- HANDLES_RECORD (R248). A HANDLES control record delivers first-cell handles to a source cache. -/
  | handlesRecord
  /-- BODY_RECORD (R262). A BODY record delivers body bytes that the Chuck writes into linked cells. -/
  | bodyRecord
  /-- VERDICT_RECORD (R262). A VERDICT record with its rebuilt head arrives at the Chuck. -/
  | verdictRecord
  /-- VERDICT_APPLY (R249). Once the body has ended the Chuck writes the head, adds references and passes descriptors on, or frees the chain. -/
  | verdictApply
  /-- FREE_CHAIN (R252). A party presents a handle and tag to release a reference, freeing the chain at zero or logging a bad free. -/
  | freeChain (x : ChainFree)
  /-- POOL_CFG_WRITE (R241). A write of CHK_POOLn_CFG enables, changes or disables a pool under its checks. -/
  | poolCfgWrite (req : Requester) (pool : Fin 16) (w : BitVec 32)
  /-- POOL_MIN_RESET (R256). A write to CHK_POOLn_MIN sets MIN to the current FREE. -/
  | poolMinReset (req : Requester) (pool : Fin 16) (w : BitVec 32)
  /-- CELL_READ (R268). Cell command READ returns a cell's metadata. -/
  | cellRead (req : Requester) (w : BitVec 32)
  /-- CELL_ALLOC (R268). Cell command ALLOC grants one cell with a software tag. -/
  | cellAlloc (req : Requester) (w : BitVec 32)
  /-- CELL_FREE (R268). Cell command FREE releases a chain under the free checks. -/
  | cellFree (req : Requester) (w : BitVec 32)
  /-- CELL_FORCE_FREE (R268). Cell command FORCE_FREE releases one named cell whatever its tag, in expert mode. -/
  | cellForceFree (req : Requester) (w : BitVec 32)
  /-- BADFREE_LOG_POP (R253). A read of CHK_BADFREE_LOG word 0x0900 pops the head entry into the snapshot. -/
  | badfreeLogPop (req : Requester)
  /-- MARCH_START (R258). A GO of CHK_MARCH_CTRL starts a destructive or preserving march test. -/
  | marchStart (req : Requester) (w : BitVec 32)
  /-- MARCH_DONE (R259). The march test ends with PASS or FAIL, retiring failing cells. -/
  | marchDone (fails : List (BitVec 22))
  /-- CHK_SCRUB (R257). The scrubber visits a cell metadata word in an idle cycle. -/
  | chkScrub (granule : BitVec 22) (seen : EccSeen)
  /-- CHK_INJECT (R257). CHK_INJECT GO flips one stored bit of the packet buffer. -/
  | chkInject (req : Requester) (w : BitVec 32)
  /-- FLIT_RECEIVE (R264). A D2D flit arrives, is checked, acknowledged or NAKed and its records parsed. -/
  | flitReceive (toTm : Bool) (sent : List (BitVec 8)) (flips : List (Fin 3072) := [])
  /-- REPLAY_TIMEOUT (R264). No acknowledgement within REPLAY_TMO and the sender resends from the oldest unacknowledged flit. -/
  | replayTimeout (toTm : Bool)
  /-- FLIT_LOST (R264). A flit exceeds REPLAY_LIMIT, its records are reissued as drops or aborts and the link resyncs. -/
  | flitLost (toTm : Bool)
  /-- WIRE_CAL (R265). Every CAL_MS a D2D wire is moved to a spare, tested, and returned or retired. -/
  | wireCal (toTm : Bool) (pass : Bool)
  /-- D2D_REG_WR (R263). A REG_WR control record writes a TM-die register. -/
  | d2dRegWr (req : Requester) (addr : BitVec 28) (v : BitVec 32)
  /-- D2D_REG_RD (R263). A REG_RD control record reads a TM-die register. -/
  | d2dRegRd (req : Requester) (tag : BitVec 8) (addr : BitVec 28)
  /-- D2D_REG_RSP (R263). A REG_RSP control record returns read data to the FE die. -/
  | d2dRegRsp
  /-- EVENT_RECORD (R446). An EVENT control record reports a TM-die page's pending bits to the EVT. -/
  | eventRecord (page : Page)
  /-- DONE_RECORD (R254). A DONE control record reports egress packets finished so their references are released. -/
  | doneRecord
  /-- TIME_RECORD (R332). A TIME control record delivers the next marker label and RATE_ADJ. -/
  | timeRecord
  /-- EPOCH_RECORD (R263). An EPOCH control record delivers the bank and EPOCH_SEQ to the TM die. -/
  | epochRecord
  /-- RESET_RECORD (R519). A RESET control record carries a control or chip reset to the TM die. -/
  | resetRecord
  /-- ABORT_RECORD (R264). An ABORT control record reports a stream whose frame was cut off. -/
  | abortRecord (toTm : Bool) (stream : BitVec 8)
  /-- EGRESS_RECORD (R262). An EGRESS record delivers a frame's egress context and data to the FE die. -/
  | egressRecord
  /-- HBM_TRAIN_DONE (R288). Training of a stack ends, marking failures and firing TRAIN_DONE. -/
  | hbmTrainDone (st : Fin 4) (last : Fin 8) (id : StackId) (mask : BitVec 32) (failStep : Fin 8)
  /-- HBM_FREQ_WRITE (R289). A write to HBM_FREQ.REQ latches a frequency request. -/
  | hbmFreqWrite (req : Requester) (st : Fin 4) (w : BitVec 32)
  /-- FREQ_SWITCH (R289). With queues drained and no step running, the stack enters self-refresh, changes clock and retrains. -/
  | freqSwitch (st : Fin 4)
  /-- FREQ_DONE (R289). A frequency change completes and pseudo-channels reopen. -/
  | freqDone (st : Fin 4) (last : Fin 8) (mask : BitVec 32)
  /-- RETRAIN (R291). A pseudo-channel is retrained by period or temperature change. -/
  | retrain (st : Fin 4) (k : Fin 32)
  /-- RETRAIN_DONE (R291). Retraining ends, reopening the pseudo-channel or failing it. -/
  | retrainDone (st : Fin 4) (ok : Bool)
  /-- HBM_TEMP_SAMPLE (R286). Every 1 ms a stack's temperature is read and HOT2X or NOALLOC set or released. -/
  | hbmTempSample (st : Fin 4) (t : BitVec 8)
  /-- HBM_TEMP_MAX_WRITE (R286). A write to HBM_TEMP.MAX sets it to the current reading. -/
  | hbmTempMaxWrite (req : Requester) (st : Fin 4) (w : BitVec 32)
  /-- SPILL_WRITE (R276). The spill writer reserves blocks and writes a packet record into its queue's stream, or drops with HBM_FULL. -/
  | spillWrite (lists : List BlockRead := [])
  /-- HBM_READ_ISSUE (R279). The reader issues the reads of a stream in SEQ order within its outstanding limits. -/
  | hbmReadIssue (q : BitVec 19)
  /-- BLOCK_RETURN (R280). A read block returns, is checked, parsed into packets and freed, re-read or poisoned. -/
  | blockReturn (h : BitVec 30) (flips : List (Fin 2176))
  /-- HBM_READ_TIMEOUT (R280). A block not returned within READ_TMO is treated as a CRC failure. -/
  | hbmReadTimeout (h : BitVec 30)
  /-- RETURN_RETRY (R279). A returning packet refused by the Chuck asks again when its pool has free cells. -/
  | returnRetry (q : BitVec 19)
  /-- PC_SLOW_WINDOW (R292). At each 10 µs window a pseudo-channel is marked SLOW or returned to OPEN. -/
  | pcSlowWindow (st : Fin 4) (k : Fin 32) (latNs : BitVec 32) (rereads : BitVec 16)
  /-- HBM_SCRUB (R293). The scrubber reads a block and reports persistent failures. -/
  | hbmScrub (h : BitVec 30) (reads : List (List (Fin 2176)))
  /-- HBM_INJECT (R296). HBM_X_INJECT GO arms a bit flip of the next block written to a pseudo-channel. -/
  | hbmInject (req : Requester) (st : Fin 4) (w : BitVec 32)
  /-- ADMIT (R304). An arriving descriptor is queued, metered and admitted, spilled or dropped. -/
  | admitPacket
  /-- Q_WRITE (R299). Queue command WRITE sets a queue's fields under its checks. -/
  | qWrite (req : Requester) (w : BitVec 32)
  /-- Q_READ (R299). Queue command READ returns a queue's state. -/
  | qRead (req : Requester) (w : BitVec 32)
  /-- Q_FLUSH (R325). Queue command FLUSH drops every packet of a disabled queue and frees its stream. -/
  | qFlush (req : Requester) (w : BitVec 32)
  /-- Q_CLEAR_HWM (R321). Queue command CLEAR_HWM sets a queue's SOJ_HWM to 0. -/
  | qClearHwm (req : Requester) (w : BitVec 32)
  /-- NODE_WRITE (R317). Node command WRITE sets a scheduler node's fields under its checks. -/
  | nodeWrite (req : Requester) (w : BitVec 32)
  /-- NODE_READ (R317). Node command READ returns a node's state. -/
  | nodeRead (req : Requester) (w : BitVec 32)
  /-- NODE_CLEAR_HWM (R321). Node command CLEAR_HWM sets a node's SOJ_HWM to 0. -/
  | nodeClearHwm (req : Requester) (w : BitVec 32)
  /-- METER_WRITE (R307). Meter command WRITE sets EN and PROFILE with full buckets. -/
  | meterWrite (req : Requester) (w : BitVec 32)
  /-- METER_READ (R307). Meter command READ returns a meter's state. -/
  | meterRead (req : Requester) (w : BitVec 32)
  /-- VOQ_DECIDE (R316). An ingress pipeline chooses one eligible VOQ and sends its packet to the fabric or hairpins it. -/
  | voqDecide (pipe : Fin 16)
  /-- EGRESS_DECIDE (R319). An egress pipeline chooses a port and selects down to a queue, dequeuing and charging the path. -/
  | egressDecide (pipe : Fin 16)
  /-- CREDIT_GENERATE (R314). A port's credit generator issues a grant to a requesting VOQ at its rate. -/
  | creditGenerate (port : Fin 128)
  /-- REQ_TIMEOUT (R313). An ON VOQ with no credit for REQ_TMO sends ON again. -/
  | reqTimeout (q : BitVec 17)
  /-- TIME_MARKER (R331). At each multiple of 1,000 ns the master sends a marker that resets every island's copy. -/
  | timeMarker
  /-- TIME_SET (R333). SPN_ADJ command SET requests an absolute time at the next marker. -/
  | timeSet (req : Requester) (w : BitVec 32)
  /-- TIME_STEP (R333). SPN_ADJ command STEP requests a signed offset at the next marker. -/
  | timeStep (req : Requester) (w : BitVec 32)
  /-- TIME_SLEW (R333). SPN_ADJ command SLEW requests a gradual offset from the next marker. -/
  | timeSlew (req : Requester) (w : BitVec 32)
  /-- TIME_ADJ_APPLY (R334). At the marker a waiting SET, STEP or SLEW takes effect in every island. -/
  | timeAdjApply
  /-- SLEW_END (R333). A slew has absorbed its whole offset and the rate returns. -/
  | slewEnd
  /-- RATE_WRITE (R333). A write to SPN_RATE takes effect at the next marker. -/
  | rateWrite (req : Requester) (w : BitVec 32)
  /-- SRC_WRITE (R339). A write of SPN_CFG.SRC starts or stops the servo. -/
  | srcWrite (req : Requester) (w : BitVec 32)
  /-- PPS_IN_EDGE (R337). A rising edge at PPS_IN is captured and fed to the servo. -/
  | ppsInEdge
  /-- HOLDOVER_ENTRY (R339). Without a PPS edge for 1.1 s or a SYNC pulse for 10 ms the servo enters HOLDOVER. -/
  | holdoverEntry
  /-- SYNC_IN_EDGE (R341). A SYNC_IN edge is captured and fed to the servo. -/
  | syncInEdge
  /-- SYNC_LABEL (R387). A SYNC record arrives and its label is compared, possibly setting the time. -/
  | syncLabel (sec : BitVec 48) (ms : BitVec 10) (term : BitVec 16)
  /-- SYNC_PULSE_OUT (R340). At each whole millisecond the manager drives a SYNC_OUT pulse and sends a sync cell. -/
  | syncPulseOut
  /-- PPS_OUT_PULSE (R542). At each whole second PPS_OUT pulses while enabled and owned. -/
  | ppsOutPulse
  /-- ACT_ARM (R345). Action command ARM writes a timed-action entry for its owner, possibly late. -/
  | actArm (req : Requester) (w : BitVec 32)
  /-- ACT_CANCEL (R345). Action command CANCEL frees an entry held by its owner. -/
  | actCancel (req : Requester) (w : BitVec 32)
  /-- ACT_READ (R345). Action command READ returns an entry. -/
  | actRead (req : Requester) (w : BitVec 32)
  /-- ACTION_DUE (R346). A timed action falls due and is performed or deferred. -/
  | actionDue
  /-- TIMER_FIFO_POP (R344). A read of SPN_TIMER_FIFO pops the head entry. -/
  | timerFifoPop (req : Requester)
  /-- GCL_WRITE (R352). A write of SPN_GCL_DATA high word commits a gate entry to the idle bank and advances ENTRY. -/
  | gclWrite (req : Requester) (w : BitVec 32)
  /-- GCL_READ (R352). A read of SPN_GCL_DATA low word fetches the addressed entry into the snapshot. -/
  | gclRead (req : Requester)
  /-- GATE_COMMIT (R352). Gate command COMMIT makes a list pending for its checked base time. -/
  | gateCommit (req : Requester) (port : Fin 128) (w : BitVec 32)
  /-- GATE_COMMIT_OPEN (R352). Gate command COMMIT_OPEN makes all gates open pending at the base time. -/
  | gateCommitOpen (req : Requester) (port : Fin 128) (w : BitVec 32)
  /-- GATE_CANCEL (R352). Gate command CANCEL discards a pending commit. -/
  | gateCancel (req : Requester) (port : Fin 128) (w : BitVec 32)
  /-- GATE_SWITCH (R352). Local time reaches BASE and the pending list or open state takes over. -/
  | gateSwitch (port : Fin 128)
  /-- GATE_INTERVAL (R354). A gate list entry's interval ends and the next entry's gate states apply. -/
  | gateInterval (port : Fin 128)
  /-- FAB_LINK_ENABLE (R371). Writing a link's EN 1 starts SerDes adaptation in TRAIN. -/
  | fabLinkEnable (req : Requester) (l : Fin 168) (w : BitVec 32)
  /-- FAB_LINK_DISABLE (R371). Writing a link's EN 0 takes it DOWN and re-sprays its held cells. -/
  | fabLinkDisable (req : Requester) (l : Fin 168) (w : BitVec 32)
  /-- CELL_LOCK (R363). A receiver gains cell lock and the link enters HELLO. -/
  | cellLock (l : Fin 168)
  /-- CELL_LOCK_LOSS (R371). Cell lock lost for 1 ms fails an ACTIVE link. -/
  | cellLockLoss (l : Fin 168)
  /-- FAB_TRAIN_TIMEOUT (R371). 100 ms without cell lock restarts adaptation. -/
  | fabTrainTimeout (l : Fin 168)
  /-- HELLO_SEND (R369). Every 1 µs a link in HELLO sends a HELLO cell. -/
  | helloSend (l : Fin 168)
  /-- HELLO_RECEIVE (R370). A valid HELLO sets SEEN, moves the link to ACTIVE or SPARE, or returns it to HELLO. -/
  | helloReceive (l : Fin 168) (h : Hello)
  /-- HELLO_TIMEOUT (R371). 10 ms in HELLO without a valid HELLO with SEEN 1 returns the link to TRAIN. -/
  | helloTimeout (l : Fin 168)
  /-- FAILED_RETRY (R371). 100 ms after failing, a link returns to TRAIN. -/
  | failedRetry (l : Fin 168)
  /-- SPARE_RELEASE (R371). A substituting spare returns to SPARE once its working link is ACTIVE and its replay buffer empty. -/
  | spareRelease (l : Fin 168)
  /-- CELL_RECEIVE (R368). A fabric cell arrives, its trailer acknowledges or NAKs, and it is accepted or discarded. -/
  | cellReceive (l : Fin 168) (bytes : List (BitVec 8)) (corrected : Nat) (uncorrectable : Nat)
  /-- CELL_REPLAY_TIMEOUT (R369). A held cell's replay timer expires and it is retransmitted. -/
  | cellReplayTimeout (l : Fin 168) (lseq : BitVec 12)
  /-- LINK_REPLAY_FAIL (R369). A cell exceeds REPLAY_LIMIT, the link fails and its cells are re-sprayed. -/
  | linkReplayFail (l : Fin 168)
  /-- REACH_RECEIVE (R369). A REACH cell replaces the link's reach mask. -/
  | reachReceive (l : Fin 168) (mask : BitVec 64)
  /-- CELL_SPRAY (R372). A ready cell is sent on the next link chosen by weight and reach. -/
  | cellSpray
  /-- UNREACHABLE_TIMEOUT (R372). 1 ms with no link to a device drops its held packets with FAB_UNREACHABLE. -/
  | unreachableTimeout (dev : Fin 64)
  /-- LAG_CHECK (R373). At each INT_US interval each ACTIVE link's weight is halved, restored or the link failed. -/
  | lagCheck
  /-- DATA_CELL_RECEIVE (R377). An accepted DATA cell is checked against its stream and entered in the reorder tracker. -/
  | dataCellReceive (c : Cell)
  /-- HOLE_TIMEOUT (R378). A hole at EXP reaches REORDER_NS and its records are dropped. -/
  | holeTimeout (dev : Fin 64)
  /-- CREDIT_REQ_ON (R382). A REQ_ON credit record turns on a VOQ's request at a generator. -/
  | creditReqOn (port : BitVec 7) (cls : Fin 16) (dev : Fin 64) (seq : BitVec 16)
  /-- CREDIT_REQ_OFF (R382). A REQ_OFF credit record turns off a VOQ's request. -/
  | creditReqOff (port : BitVec 7) (cls : Fin 16) (dev : Fin 64) (seq : BitVec 16)
  /-- CREDIT_GRANT (R381). A GRANT credit record adds credit to a VOQ's balance. -/
  | creditGrant (q : BitVec 17) (n : BitVec 4)
  /-- LEARN_MSG (R384). A LEARN record reaches the manager and is arbitrated. -/
  | learnMsg (src : Fin 64) (r : LearnRec)
  /-- DECIDE_MSG (R384). A DECIDE record is applied to the local table and cache. -/
  | decideMsg (src : Fin 64) (r : LearnRec)
  /-- AGE_MSG (R384). An AGE record makes the manager remove the key and broadcast REMOVE. -/
  | ageMsg (src : Fin 64) (r : LearnRec)
  /-- REMOVE_MSG (R384). A REMOVE record removes a learned key. -/
  | removeMsg (src : Fin 64) (r : LearnRec)
  /-- EPOCH_PREPARE (R228). A worker receives PREPARE, checks itself and returns READY or NOT_READY. -/
  | epochPrepare (src : Fin 64) (seq : BitVec 16)
  /-- EPOCH_READY (R228). The manager receives READY from a worker. -/
  | epochReady (src : Fin 64) (seq : BitVec 16)
  /-- EPOCH_NOT_READY (R228). The manager receives NOT_READY and aborts the switch. -/
  | epochNotReady (src : Fin 64) (seq : BitVec 16) (cause : BitVec 2)
  /-- EPOCH_COMMIT (R223). A worker receives COMMIT and arms for T or switches late. -/
  | epochCommit (src : Fin 64) (seq : BitVec 16) (sec : BitVec 48) (ns : BitVec 30)
  /-- EPOCH_ABORT (R220). A worker receives ABORT and returns to STABLE. -/
  | epochAbort (src : Fin 64) (seq : BitVec 16)
  /-- STATUS_BEACON (R388). Every 100 µs a device broadcasts its STATUS record. -/
  | statusBeacon
  /-- STATUS_RECEIVE (R389). A STATUS record updates membership and roles, possibly demoting a manager or naming a standby. -/
  | statusReceive (r : StatusRec)
  /-- MEMBER_TIMEOUT (R388). A device unheard for MGR_TMO leaves FCT_MEMBERS. -/
  | memberTimeout (dev : Fin 64)
  /-- MGR_TIMEOUT (R390). The standby hears no manager for MGR_TMO and takes over. -/
  | mgrTimeout
  /-- MANAGER_ELECTION (R389). With no manager or standby heard for 2 × MGR_TMO the lowest candidate becomes manager. -/
  | managerElection
  /-- LEARN_HOLD_EXPIRE (R385). The standby discards a held learning record after 2 × MGR_TMO. -/
  | learnHoldExpire
  /-- HANDOVER (R391). A write of FCT_MGR_CMD.HANDOVER hands the manager role to the standby. -/
  | handover (req : Requester) (w : BitVec 32)
  /-- BFD_RECEIVE (R403). A BFD packet from service queue 0 is checked and restarts its session's detection timer. -/
  | bfdReceive
  /-- ND_REQUEST (R405). An ARP request or NS from service queue 1 is answered or dropped. -/
  | ndRequest
  /-- IPFIX_SAMPLE (R406). A sample from service queue 2 updates the flow cache, evicting if full. -/
  | ipfixSample
  /-- BFD_TRANSMIT (R402). A session's wheel slot sends its BFD control packet. -/
  | bfdTransmit (ix : BitVec 15)
  /-- BFD_DETECT_TIMEOUT (R403). A session's detection timer expires and the session goes Down. -/
  | bfdDetectTimeout (ix : BitVec 15)
  /-- WHEEL_TICK (R401). A software-held wheel slot pushes a TICK entry every PERIOD. -/
  | wheelTick (slot : BitVec 16)
  /-- IPFIX_IDLE_EXPORT (R406). A flow idle for IDLE_S is exported. -/
  | ipfixIdleExport (k : FlowKey)
  /-- IPFIX_ACTIVE_EXPORT (R406). An active flow is exported every ACTIVE_S. -/
  | ipfixActiveExport (k : FlowKey)
  /-- IPFIX_TEMPLATE_SEND (R407). Every TEMPLATE_S the IPFIX templates are sent. -/
  | ipfixTemplateSend
  /-- BFD_ADD (R410). Mailbox command BFD_ADD creates a session and claims a wheel slot. -/
  | bfdAdd (req : Requester) (w : BitVec 32)
  /-- BFD_MOD (R410). Mailbox command BFD_MOD changes a session through a Poll sequence. -/
  | bfdMod (req : Requester) (w : BitVec 32)
  /-- BFD_DEL (R410). Mailbox command BFD_DEL starts AdminDown for a session. -/
  | bfdDel (req : Requester) (w : BitVec 32)
  /-- BFD_DEL_FINISH (R410). After MULT AdminDown intervals the session and its slot are freed. -/
  | bfdDelFinish (ix : BitVec 15)
  /-- BFD_READ (R409). Mailbox command BFD_READ returns a session's state. -/
  | bfdRead (req : Requester) (w : BitVec 32)
  /-- ND_ADD (R410). Mailbox command ND_ADD installs a responder entry. -/
  | ndAdd (req : Requester) (w : BitVec 32)
  /-- ND_DEL (R410). Mailbox command ND_DEL removes a responder entry. -/
  | ndDel (req : Requester) (w : BitVec 32)
  /-- IPFIX_CFG (R410). Mailbox command IPFIX_CFG configures flow export. -/
  | ipfixCfg (req : Requester) (w : BitVec 32)
  /-- IPFIX_FLUSH (R410). Mailbox command IPFIX_FLUSH exports and empties the flow cache. -/
  | ipfixFlush (req : Requester) (w : BitVec 32)
  /-- RING_DRAIN (R411). When the event ring has room, buffered entries are written and HEAD advances. -/
  | ringDrain
  /-- FW_VERIFY (R412). Firmware command VERIFY checks a slot's signature. -/
  | fwVerify (req : Requester) (w : BitVec 32)
  /-- FW_START (R412). Firmware command START starts a verified slot or begins a switch-over. -/
  | fwStart (req : Requester) (w : BitVec 32)
  /-- WHEEL_CLAIM (R401). A wheel command claims a slot for software. -/
  | wheelClaim (req : Requester) (w : BitVec 32)
  /-- WHEEL_RELEASE (R401). A wheel command releases a slot held by the presented owner. -/
  | wheelRelease (req : Requester) (w : BitVec 32)
  /-- RING_ENABLE (R421). Writing a ring's EN 1 enables it with HEAD and TAIL at 0. -/
  | ringEnable (req : Requester) (n : Fin 144) (w : BitVec 32)
  /-- RING_DISABLE (R421). Writing a ring's EN 0 disables it after the work in progress. -/
  | ringDisable (req : Requester) (n : Fin 144) (w : BitVec 32)
  /-- RING_DOORBELL (R421). A write of a ring's TAIL makes entries valid and starts the ring. -/
  | ringDoorbell (req : Requester) (n : Fin 144) (w : BitVec 32)
  /-- CQ_ENABLE (R421). Writing a CQ's EN 1 resets HEAD, TAIL and PHASE. -/
  | cqEnable (req : Requester) (n : Fin 144) (w : BitVec 32)
  /-- CQ_DISABLE (R421). Writing a CQ's EN 0 disables it if its ring is disabled. -/
  | cqDisable (req : Requester) (n : Fin 144) (w : BitVec 32)
  /-- CQ_HEAD_WRITE (R428). A write of HIF_CQn_HEAD consumes entries and optionally re-arms the CQ. -/
  | cqHeadWrite (req : Requester) (n : Fin 144) (w : BitVec 32)
  /-- CQ_NOTIFY (R427). An armed CQ meets its count, idle or maximum trigger and requests its vector. -/
  | cqNotify (n : Fin 144)
  /-- PUNT_DMA (R423). A punt packet is written to host buffers with its completion entry. -/
  | puntDma (q : Fin 64) (bufs : List (BitVec 64))
  /-- INJECT_FETCH (R426). The inject engine fetches a whole packet from a ring and enters it as port 240. -/
  | injectFetch (ring : Fin 64) (descs : List (BitVec 256)) (bytes : Bytes)
  /-- DMA_REC (R430). Table DMA operation REC executes command records and writes results. -/
  | dmaRec (k : Fin 16) (desc : BitVec 256) (data : List (BitVec 32))
  /-- DMA_REG_RD (R430). Table DMA operation REG_RD reads register words into host memory. -/
  | dmaRegRd (k : Fin 16) (desc : BitVec 256)
  /-- DMA_REG_WR (R430). Table DMA operation REG_WR writes register words from host memory. -/
  | dmaRegWr (k : Fin 16) (desc : BitVec 256) (data : List (BitVec 32))
  /-- DMA_MEM_WR (R430). Table DMA operation MEM_WR writes a Burl replica, scratch or firmware slot. -/
  | dmaMemWr (k : Fin 16) (desc : BitVec 256) (data : List (BitVec 32))
  /-- DMA_MEM_RD (R430). Table DMA operation MEM_RD reads scratch into host memory. -/
  | dmaMemRd (k : Fin 16) (desc : BitVec 256)
  /-- DMA_WATCHDOG (R433). A descriptor running WDOG_MS is stopped and its channel halts. -/
  | dmaWatchdog (k : Fin 16) (desc : BitVec 256) (done : BitVec 32) (data : List (BitVec 32))
  /-- HOST_ERROR (R435). A DMA read ends in error or timeout and its ring or channel halts. -/
  | hostError (ring : Fin 144) (descs : List (BitVec 256)) (done : BitVec 32) (data : List (BitVec 32)) (cause : ReadEnd := .unsupported)
  /-- PCIE_FLR (R417). A Function Level Reset performs a control reset. -/
  | pcieFlr
  /-- PCIE_HOT_RESET (R417). A hot reset performs a control reset. -/
  | pcieHotReset
  /-- PCIE_LINK_DOWN (R417). A PCIe link-down performs a control reset. -/
  | pcieLinkDown
  /-- PCIE_LINK_UP (R415). PCIe link training ends and the link comes up at its speed and width. -/
  | pcieLinkUp (speed : Fin 4) (width : Fin 9)
  /-- DSTATE_CHANGE (R419). The function enters D3hot or returns to D0, stopping or resuming DMA. -/
  | dstateChange (d3 : Bool) (pmeEn : Bool)
  /-- BME_CHANGE (R419). Bus Master Enable changes, stopping or resuming DMA; a write of Device Control 2 may come with it (R434). [DESIGN CHOICE: log 8] -/
  | bmeChange (on : Bool) (cto : Option (Fin 32) := none)
  /-- MSIX_MASK_WRITE (R454). A write to an MSI-X mask, Function Mask or Enable changes vector sendability. -/
  | msixMaskWrite (what : MaskBit) (on : Bool)
  /-- I3C_WRITE (R437). An I3C private write of OP 0x01 writes register words. -/
  | i3cWrite (bytes : Bytes)
  /-- I3C_SET_ADDR (R437). An I3C private write of OP 0x02 sets the read address. -/
  | i3cSetAddr (addr : BitVec 32)
  /-- I3C_READ (R437). An I3C private read returns status and register words. -/
  | i3cRead (n : BitVec 8)
  /-- CCC_ENEC (R436). CCC ENEC enables in-band interrupts. -/
  | cccEnec (ev : BitVec 8)
  /-- CCC_DISEC (R436). CCC DISEC disables in-band interrupts. -/
  | cccDisec (ev : BitVec 8)
  /-- CCC_RSTDAA (R436). CCC RSTDAA resets the dynamic address. -/
  | cccRstdaa
  /-- CCC_ENTDAA (R436). CCC ENTDAA assigns a dynamic address. -/
  | cccEntdaa (da : BitVec 7)
  /-- CCC_SETDASA (R436). CCC SETDASA sets the dynamic address from the static one. -/
  | cccSetdasa (da : BitVec 7)
  /-- CCC_SETNEWDA (R436). CCC SETNEWDA changes the dynamic address. -/
  | cccSetnewda (da : BitVec 7)
  /-- CCC_SETMWL (R436). CCC SETMWL lowers the maximum write length. -/
  | cccSetmwl (n : BitVec 16)
  /-- CCC_SETMRL (R436). CCC SETMRL lowers the maximum read length. -/
  | cccSetmrl (n : BitVec 16)
  /-- CCC_GETMWL (R436). CCC GETMWL returns the maximum write length. -/
  | cccGetmwl
  /-- CCC_GETMRL (R436). CCC GETMRL returns the maximum read length. -/
  | cccGetmrl
  /-- CCC_GETPID (R436). CCC GETPID returns the provisioned ID. -/
  | cccGetpid
  /-- CCC_GETBCR (R436). CCC GETBCR returns the BCR. -/
  | cccGetbcr
  /-- CCC_GETDCR (R436). CCC GETDCR returns the DCR. -/
  | cccGetdcr
  /-- CCC_GETSTATUS (R436). CCC GETSTATUS returns the target status. -/
  | cccGetstatus
  /-- CCC_RSTACT (R440). CCC RSTACT configures the reset action. -/
  | cccRstact (db : BitVec 8)
  /-- CCC_GET_RSTACT (R440). A direct GET RSTACT returns the configured action and recovery times. -/
  | cccGetRstact
  /-- RSTACT_PATTERN (R440). The target reset pattern runs the configured peripheral or control reset. -/
  | rstactPattern
  /-- IBI_RETRY (R439). A NACKed IBI is raised again when the bus is next free. -/
  | ibiRetry
  /-- MGT_RST_REQ (R440). A write of 0xC7 to MGT_RST_REQ requests a control reset while RST_EN is 1. -/
  | mgtRstReq (req : Requester)
  /-- MSIX_DELIVER (R453). Each host cycle the EVT sends at most one MSI-X message for a sendable requested vector. -/
  | msixDeliver
  /-- GAP_EXPIRE (R449). A group's gap elapses and a raised group requests its vector. -/
  | gapExpire (g : Fin 64)
  /-- EOI (R449). A write of EVT_EOI returns a group to IDLE. -/
  | eoi (req : Requester) (w : BitVec 32)
  /-- QUERY_WRITE (R450). A write of EVT_QUERY sets the requester's cursor to a group. -/
  | queryWrite (req : Requester) (w : BitVec 32)
  /-- QUERY_READ (R450). A read of EVT_QUERY returns the next raised page and advances the cursor. -/
  | queryRead (req : Requester)
  /-- I3C_GROUP_REPEAT (R456). A group still raised re-raises its in-band interrupt every 1 ms. -/
  | i3cGroupRepeat (g : Fin 64)
  /-- AON_DEADLINE (R459). A watched vector's deadline passes undelivered and the AON wakes the host as its state allows. -/
  | aonDeadline (k : Fin 64)
  /-- PME_STATUS_CLEAR (R459). Software clears PME_Status and WAKE_N is released. -/
  | pmeStatusClear
  /-- CNT_READ (R468). Counter command READ returns a pair. -/
  | cntRead (req : Requester) (w : BitVec 32) (pkts : EccSeen) (bytes : EccSeen)
  /-- CNT_WRITE (R468). Counter command WRITE sets a pair. -/
  | cntWrite (req : Requester) (w : BitVec 32) (pkts : EccSeen) (bytes : EccSeen)
  /-- CNT_READ_CLEAR (R468). Counter command READ_CLEAR returns a pair and zeroes it. -/
  | cntReadClear (req : Requester) (w : BitVec 32) (pkts : EccSeen) (bytes : EccSeen)
  /-- SNAP_CMD (R471). A CNT_SNAP_CMD starts a capture 1 µs after acceptance. -/
  | snapCmd (req : Requester) (w : BitVec 32)
  /-- SNAP_CAPTURE_DONE (R471). The snapshot walker finishes, CNT_SNAP_STAT is written and SNAP_DONE fires. -/
  | snapCaptureDone
  /-- PC_CLEAR (R475). PC_CTL CLEAR zeroes every performance count and OVF. -/
  | pcClear (req : Requester) (page : Page) (w : BitVec 32)
  /-- PC_CAPTURE (R475). PC_CTL CAPTURE copies every count into PC_CAPi. -/
  | pcCapture (req : Requester) (page : Page) (w : BitVec 32)
  /-- PC_VAL_WRITE (R475). A write of PC_VALi sets a count, with a same-cycle count added after. -/
  | pcValWrite (req : Requester) (page : Page) (ix : Fin 8) (w : BitVec 32)
  /-- TOTALS_FLUSH (R479). Every 1 s the AON writes the totals to the next slot. -/
  | totalsFlush
  /-- HWD_FLUSH (R479). A GO of HWD_FLUSH writes a totals slot now. -/
  | hwdFlush (req : Requester) (w : BitVec 32)
  /-- LEDGER_TEMP_SAMPLE (R481). Every 1 s the hottest die temperatures enter the ledger histograms. -/
  | ledgerTempSample (fe : BitVec 8) (tm : BitVec 8) (hbm : BitVec 8)
  /-- HOURLY_CLOSE (R481). An hourly ledger record closes. -/
  | hourlyClose
  /-- DAILY_CLOSE (R481). A daily ledger record closes. -/
  | dailyClose
  /-- UTC_SET (R483). A write of HWD_UTC sets the calendar and logs UTC_SET. -/
  | utcSet (req : Requester) (w : BitVec 32)
  /-- AGE_MEASURE (R484). The firmware measures each island's delay monitor and records drift. -/
  | ageMeasure (isl : Fin 128) (delay : BitVec 32)
  /-- MRAM_SCAN (R486). Daily the firmware reads every MRAM block, remapping worn ones. -/
  | mramScan (block : Fin 1024) (corrected : BitVec 16) (bad : Option (Fin 512))
  /-- HWD_WIN_READ (R487). A read of HWD_WIN_DATA low word fetches a ledger word and advances BYTE. -/
  | hwdWinRead (req : Requester)
  /-- HWD_WIN_WRITE (R487). A write of HWD_WIN_DATA high word writes the calendar or asset tag, or records WIN_RO. -/
  | hwdWinWrite (req : Requester) (w : BitVec 32)
  /-- GRANT_WRITE (R492). A compare-and-set write of MEM_GRANTr changes a region's owner. -/
  | grantWrite (req : Requester) (r : Fin 88) (w : BitVec 32)
  /-- GRANT_HANDOVER_DONE (R492). The old owner's accesses end and the new owner gains the region. -/
  | grantHandoverDone (r : Fin 88)
  /-- MEM_TEST_START (R499). A GO of MEM_TEST_CTRL starts the background test of a region range. -/
  | memTestStart (req : Requester) (w : BitVec 32)
  /-- MEM_TEST_DONE (R501). The background test ends and fires TEST_DONE and TEST_FAIL. -/
  | memTestDone (fails : BitVec 32) (first : Option (Fin 88 × BitVec 15))
  /-- VAULT_IMPORT (R504). Vault command IMPORT starts reading a key object from host memory. -/
  | vaultImport (req : Requester) (w : BitVec 32)
  /-- IMPORT_READ_DONE (R504). The import read completes and the object is unwrapped, checked and stored. -/
  | importReadDone (bytes : Bytes)
  /-- VAULT_REMOVE (R505). Vault command REMOVE zeroes a slot and frees its handle. -/
  | vaultRemove (req : Requester) (w : BitVec 32)
  /-- VAULT_QUERY (R505). Vault command QUERY returns a slot's object type. -/
  | vaultQuery (req : Requester) (w : BitVec 32)
  /-- LC_CHANGE (R507). A VLT_LC GO with the key blows lifecycle fuses and wipes the vault. -/
  | lcChange (req : Requester) (w : BitVec 32)
  /-- TAMPER_ASSERT (R546). TAMPER_N asserts past the glitch filter and TAMPER fires. -/
  | tamperAssert
  /-- TAMPER_WIPE (R509). TAMPER_N held 1 µs wipes the vault and counts a tamper. -/
  | tamperWipe
  /-- ISL_STOP (R516). A write of CLK_ISLn.STOP 1 stops an idle island. -/
  | islStop (req : Requester) (isl : Fin 128) (w : BitVec 32)
  /-- ISL_START (R516). A write of CLK_ISLn.STOP 0 returns the island to RUN. -/
  | islStart (req : Requester) (isl : Fin 128) (w : BitVec 32)
  /-- ISL_RESTOP (R516). 1 µs after its last access a stopped island returns to STOPPED. -/
  | islRestop (isl : Fin 128)
  /-- ISLAND_LOCK_LOSS (R517). An island generator loses lock and the island becomes FAILED. -/
  | islandLockLoss (isl : Fin 128)
  /-- ISLAND_RELOCK (R517). A failed island relocks and returns to RUN. -/
  | islandRelock (isl : Fin 128)
  /-- REF_CLK_LOSS (R518). A reference clock is missing or off frequency and REF_LOSS fires. -/
  | refClkLoss (c : RefClk)
  /-- REF_CLK_RETURN (R518). A flagged reference clock returns within range. -/
  | refClkReturn (c : RefClk)
  /-- POR_N_ASSERT (R519). POR_N is asserted and the device enters power-on reset. -/
  | porNAssert
  /-- POR_N_RELEASE (R525). POR_N is released and the start-up sequence runs from step 1. -/
  | porNRelease
  /-- AON_BROWNOUT (R573). VDD_AON falls below its threshold and forces a power-on reset. -/
  | aonBrownout
  /-- RAIL_LOSS (R572). A core rail leaves its range while POR_N is released. -/
  | railLoss
  /-- CHIP_RST_N_ASSERT (R519). CHIP_RST_N is asserted. -/
  | chipRstNAssert
  /-- CHIP_RST_N_RELEASE (R522). CHIP_RST_N is released and a chip reset starts. -/
  | chipRstNRelease
  /-- GLB_RST_CONTROL (R519). A keyed GLB_RST write with SCOPE 1 requests a control reset. -/
  | glbRstControl (req : Requester)
  /-- GLB_RST_CHIP (R519). A keyed GLB_RST write with SCOPE 2 starts a chip reset. -/
  | glbRstChip (req : Requester)
  /-- THERMAL_TRIP (R522). A die sensor reaches 125 °C and the device is held in chip reset. -/
  | thermalTrip
  /-- TRIP_RELEASE (R522). 10 ms after a trip with every sensor below 115 °C the chip reset starts. -/
  | tripRelease (hottest : BitVec 8)
  /-- CTL_RST_N_ASSERT (R523). CTL_RST_N is asserted and a control reset starts. -/
  | ctlRstNAssert
  /-- CTL_RST_N_RELEASE (R523). CTL_RST_N is released, allowing the control reset to complete. -/
  | ctlRstNRelease
  /-- CONTROL_RESET_DONE (R523). A control reset completes, held requests are served and CTL_RST_DONE fires. -/
  | controlResetDone
  /-- SRAM_INIT_DONE (R526). SRAM repair and clearing end and FE-die pages become READY. -/
  | sramInitDone (bad : List Page)
  /-- D2D_TRAIN_DONE (R526). D2D training and calibration end, or fail and skip the TM steps. -/
  | d2dTrainDone (ok : Bool)
  /-- SERDES_CAL_DONE (R526). SerDes lane calibration ends, marking failed lanes. -/
  | serdesCalDone (badLine : BitVec 128) (badFab : BitVec 168)
  /-- BOOT_DONE (R525). Every start-up step has ended and GLB_BOOT.PHASE becomes DONE. -/
  | bootDone
  /-- JTAG_EXTEST (R551). Loading EXTEST puts the pins under boundary scan and stops traffic. -/
  | jtagExtest
  /-- JTAG_IDCODE (R550). Loading IDCODE selects the identification register. -/
  | jtagIdcode
  /-- JTAG_SAMPLE_PRELOAD (R549). Loading SAMPLE/PRELOAD samples the pins without affecting operation. -/
  | jtagSamplePreload
  /-- JTAG_EXTEST_PULSE (R551). Loading EXTEST_PULSE puts lanes under boundary scan and stops traffic. -/
  | jtagExtestPulse
  /-- JTAG_EXTEST_TRAIN (R551). Loading EXTEST_TRAIN puts lanes under boundary scan and stops traffic. -/
  | jtagExtestTrain
  /-- JTAG_CLAMP (R551). Loading CLAMP holds pins from the boundary register and stops traffic. -/
  | jtagClamp
  /-- JTAG_HIGHZ (R551). Loading HIGHZ puts every output high-impedance and stops traffic. -/
  | jtagHighz
  /-- JTAG_BYPASS (R549). Loading BYPASS or an unlisted opcode selects the bypass register. -/
  | jtagBypass
  /-- JTAG_TAP_RESET (R551). TRST_N or five TMS ones return the TAP to Test-Logic-Reset. -/
  | jtagTapReset
  /-- FUSE_LOAD_DONE (R526). Fuse load and strap sampling end, either passing on toward CLOCKS or stopping the sequence in phase FUSE. -/
  | fuseLoadDone (ok : Bool) (serial : BitVec 64) (lc : BitVec 2) (digest : Bytes) (straps : BitVec 16 × BitVec 16 × BitVec 16)
  /-- CLOCKS_LOCKED (R525). Every island generator locks, the islands leave RESET and phase INIT begins. -/
  | clocksLocked
  /-- FRAME_TX_END (R62). The MAC finishes transmitting a frame, counts it and becomes free to start the next. -/
  | frameTxEnd (port : Fin 128)
  /-- VDD_IO_LOSS (R541). VDD_IO falls below its threshold and POR_N reads asserted, forcing a power-on reset. -/
  | vddIoLoss
  /-- VDD_IO_RETURN (R541). VDD_IO returns above its threshold and POR_N reads its ball again, ending power-on reset if the ball is released. -/
  | vddIoReturn
  /-- VDD_AON_RETURN (R573). VDD_AON rises above 0.74 V, ending the power-on reset that its brownout caused. -/
  | vddAonReturn
  /-- TAMPER_RELEASE (R509). TAMPER_N is released, VLT_STAT.TAMPER clears and IMPORTs are no longer refused with TAMPERED. -/
  | tamperRelease
  /-- ASPM_L1_ENTRY (R459). The idle PCIe link enters L1 or an L1 substate by ASPM, setting HIF_LINK.LP. -/
  | aspmL1Entry
  /-- ASPM_L1_EXIT (R459). The PCIe link leaves L1 and reaches L0, allowing a held PM_PME or message to be sent. -/
  | aspmL1Exit
  /-- HBM_REFRESH_DUE (R285). A bank's refresh interval expires and the controller refreshes it, closing its open row, or postpones it past a training step. -/
  | hbmRefreshDue (st : Fin 4) (k : Fin 32) (bank : BitVec 7)
  deriving DecidableEq, Repr

end Sys2Proof
end

