-- ==== Sys2Proof/Decode.lean ====
section
/-! DEFINITION. Decoding of table words. The block has no instruction words: spec/opcode_table.json gives its rows no fields and
no bits, so no word spells a command. -/

namespace Sys2Proof

/-- The command that a word of the opcode table spells: none, for every width and word. [DESIGN CHOICE: log 11] -/
def decodeTableWord (_nbits _w : Nat) : Option Instr := none

end Sys2Proof
end

