-- ==== Sys2Proof/Config.lean ====
section
/-! DEFINITION. What the spec leaves open or leaves to a published cryptographic standard whose keys no rule gives: opaque
functions without a body, so that nothing can be proved of their values. Each is named in the assumption log. -/

namespace Sys2Proof.Config

/-- A fresh free value, applied to the counter `freeCtr` of the state, which the step reads and advances. [DESIGN CHOICE: log 10] -/
opaque freeValue : Nat → BitVec 64

/-- Whether a firmware image carries a public key with the given SHA-384 digest and a good ECDSA P-384 signature over the
image (R502): a function of the image's bytes by offset and the 64 bytes of vault slot 0. [DESIGN CHOICE: log 80] -/
opaque fwSigned : List (Nat × Nat) → Bytes → Bool

/-- The AES key unwrap with padding of a wrapped object (R504) under the device's fused import key: none where the integrity
check fails. [DESIGN CHOICE: log 99] -/
opaque unwrap : Bytes → Option Bytes

/-- A word of the ledger's header block outside the asset tag: where the serial number, the aging baselines and the CRC lie in it
the spec does not say. A function of the word, the baselines by island and the words of the asset tag. [DESIGN CHOICE: log 129] -/
opaque headerWord : Nat → List (Nat × Nat) → List Nat → BitVec 64

end Sys2Proof.Config
end

