-- ==== Sys2Proof/Machine/RegMap.lean ====
section
/-! DEFINITION. The register map: every register of the spec's chapters with its page, offset, stride, count, words and
fields (R29, R53; the field tables of each chapter), its access types (R4) and reset values. The Faceplate and the performance
counters are not in this map: they are the structures Face (R37) and Perf (R473) of the state. The names are the manual's own. -/

namespace Sys2Proof.Machine

/-- Access types of R4. The map uses no W1S field, since no field table of the spec has one. -/
inductive Acc where
  | rw | ro | wo | w1c | sc | rwx
  deriving DecidableEq, Repr

/-- Clock of island n in MHz (R14, R514). -/
def islandMHz (n : Nat) : Nat :=
  if n ≤ 31 then 1600 else if n = 32 then 2500 else if n ≤ 96 then 2000 else if n = 97 then 2500
  else if n = 98 then 1500 else if n = 99 then 1000 else if n = 100 then 25 else if n ≤ 102 then 2500 else 1600

/-- The registers of the map, by the manual's names. -/
inductive Reg where
  | LPG_PORTn_CFG
  | LPG_PORTn_STAT
  | LPG_PORTn_TS_ING_CORR
  | LPG_PORTn_TS_EGR_CORR
  | LPG_PORTn_PREEMPT
  | LPG_PORTn_MSEC
  | LPG_PORTn_REPLAY_WIN
  | LPG_PORTn_PN_NEAR
  | LPG_PORTn_TS_FIFO
  | LPG_PORTn_TS_CNT
  | LPG_MODE
  | LPG_LANE_MAP
  | LPG_SA_CMD
  | LPG_SA_DATA
  | HDS_CFG
  | HDS_UDP_PORTS
  | HDS_UDP_PORTS1
  | HDS_PORTn_CFG
  | HDS_PORTn_META
  | HDS_DPk_CFG
  | HDS_PROFA
  | HDS_PROFB
  | HDS_TMPLA
  | HDS_TMPLB
  | HDS_TRACE_CTRL
  | HDS_TRACE_DATA
  | LPM_MISS_NHt
  | LPM_CMD
  | LPM_CMD_RES
  | LPM_LOCKt
  | LPM_LOCK_TMO
  | LPM_UNITS
  | LPM_PFX0
  | LPM_PFX1
  | LPM_ECC_ADDR
  | LPM_STAGE_FREEk
  | LPM_MEM_ADDR
  | LPM_MEM_DATA
  | XM_TBLn_CFG
  | XM_TBLn_SEED
  | XM_TBLn_LRN
  | XM_TBLn_DATA
  | XM_CMD
  | XM_CMD_RES
  | XM_LOCKn
  | XM_LOCK_TMO
  | XM_COUNTn
  | XM_STASH
  | XM_ECC_ADDR
  | XM_INS_CFG
  | NHT_ACC
  | NHT_LOCK
  | NHT_LOCK_TMO
  | NHT_ECC_ADDR
  | LRN_CFG
  | LRN_PORT_MASKk
  | LRN_FLAP
  | LRN_STAT
  | LRN_LOG_STAT
  | LRN_LOG
  | TCM_SLICEk_OWNER
  | TCM_GRPAn
  | TCM_GRPBn
  | TCM_CMD
  | TCM_RD
  | TCM_SHADOW_ADDR
  | TCM_SCRUB_CFG
  | TCM_INJECT
  | BRL_REPLr
  | BRL_CMD
  | BRL_BANKA_STAT
  | BRL_BANKB_STAT
  | BRL_BANKA_CRC
  | BRL_BANKB_CRC
  | BRL_ECC_ADDR
  | BRL_MEM_ADDR
  | BRL_MEM_DATA
  | ENG_CFG
  | ENG_STAT
  | ENG_IMEM_ADDR
  | ENG_IMEM_DATA
  | ENG_ECC_ADDR
  | ENG_ILL_ADDR
  | ENG_DISP_CFG
  | ENG_DISP_STAT
  | ENG_DISP_X
  | ENG_TRACE_CTRL
  | ENG_TRACE_DATA
  | TLS_PORTn_CFG
  | EPC_CFG
  | EPC_STAT
  | EPC_SWITCH
  | EPC_LAST
  | EPC_INFLIGHTA
  | EPC_INFLIGHTB
  | EPC_DRAIN_TIME
  | EPC_X_CFG
  | MDL_CFG
  | MDL_STAT
  | CHK_POOLn_CFG
  | CHK_POOLn_SPILL
  | CHK_POOLn_ADMIT
  | CHK_POOLn_STAT
  | CHK_POOLn_MIN
  | CHK_POOLn_RETIRED
  | CHK_SRCs_CFG
  | CHK_CELL_CMD
  | CHK_CELL_RES
  | CHK_BADFREE_LOG
  | CHK_MARCH_CTRL
  | CHK_MARCH_STAT
  | CHK_MARCH_ERR
  | CHK_ECC_ADDR
  | CHK_ALLOC_X
  | CHK_INJECT
  | D2D_CFG
  | D2D_STAT
  | D2D_X_CAL
  | HBM_ID
  | HBM_FREQ
  | HBM_TRAIN_STAT
  | HBM_RETRAIN
  | HBM_TEMP
  | HBM_SCRUB
  | HBM_ERR_ADDR
  | HBM_PCk_STAT
  | HBM_FREE_TOTAL
  | HBM_X_WQ
  | HBM_X_SLOW
  | HBM_X_READ_TMO
  | HBM_X_INJECT
  | TMS_CFG
  | TMS_PORTn_CFG
  | TMS_PORTn_EQ
  | TMS_MIRk
  | TMS_MIRk_OWNER
  | TMS_X_TIE
  | TMS_Q_CMD
  | TMS_Q_RES
  | TMS_QPROFp
  | TMS_NODE_CMD
  | TMS_NODE_RES
  | TMS_WREDk
  | TMS_CR_CFG
  | TMS_CR_CLASSc
  | TMS_CR_PORTn
  | MTR_CMD
  | MTR_RES
  | MTR_PROFp
  | SPN_TIME
  | SPN_ADJ
  | SPN_RATE
  | SPN_CFG
  | SPN_SERVO
  | SPN_STAT
  | SPN_ERR
  | SPN_PPS_IN_CORR
  | SPN_SYNC_IN_CORR
  | SPN_PPS_OUT_CORR
  | SPN_SYNC_OUT_CORR
  | SPN_PPS_CAP
  | SPN_PPS_OUT
  | SPN_SYNC_OUT_OWNER
  | SPN_ACT_FAIL
  | SPN_TIMER_FIFO
  | SPN_ACT_CMD
  | SPN_ACT_RES
  | SPN_GCL_ADDR
  | SPN_GCL_DATA
  | SPN_GATEn_ADMIN
  | SPN_GATEn_STAT
  | SPN_GATEn_ADJ_BASE
  | SPN_X_CFG
  | FAB_LANE_EN
  | FAB_POLARITY
  | FAB_LINKk_STAT
  | FAB_LINKk_FAR
  | FAB_LINKk_REACH
  | FAB_LINKk_LAG
  | FCT_CFG
  | FCT_MGR_CFG
  | FCT_MGR_CMD
  | FCT_MGR_STAT
  | FCT_MEMBERS
  | FCT_REACH
  | FCT_SPARE
  | FCT_X_LINK
  | FCT_X_LAG
  | FCT_X_LAG1
  | SVC_DIVERTk
  | SVC_RING_BASE
  | SVC_RING_CFG
  | SVC_RING_HEAD
  | SVC_RING_TAIL
  | SVC_FW_CMD
  | SVC_FW_STAT
  | SVC_WHEEL_CMD
  | SVC_WHEEL_FREE
  | SVC_MBOX_CMD
  | SVC_MBOX_RES
  | HIF_LINK
  | HIF_RINGn_BASE
  | HIF_RINGn_CFG
  | HIF_RINGn_TAIL
  | HIF_RINGn_HEAD
  | HIF_RINGn_STAT
  | HIF_CQn_BASE
  | HIF_CQn_CFG
  | HIF_CQn_MOD
  | HIF_CQn_HEAD
  | HIF_CQn_TAIL
  | HIF_CQn_STAT
  | MGT_CFG
  | MGT_STAT
  | MGT_RST_REQ
  | EVT_GRPg_CFG
  | EVT_GRP_ACTIVE
  | EVT_GRP_RAISED
  | EVT_EOI
  | EVT_QUERY
  | EVT_ALERT
  | EVT_VEC_HELDw
  | AON_CFG
  | AON_STAT
  | AON_WATCHk
  | CNT_ACC
  | CNT_ACC_RES
  | CNT_CFG
  | CNT_SNAP_CFG
  | CNT_SNAP_CMD
  | CNT_SNAP_STAT
  | CNT_ECC_ADDR
  | HWD_STAT
  | HWD_UTC
  | HWD_WIN_ADDR
  | HWD_WIN_DATA
  | HWD_PTR
  | HWD_PTR1
  | HWD_AGE_ALARM
  | HWD_FLUSH
  | HWD_TOTALS
  | MEM_CFG
  | MEM_GRANTr
  | MEM_TEST_CTRL
  | MEM_TEST_STAT
  | MEM_TEST_ERR
  | VLT_STAT
  | VLT_ADDR
  | VLT_CMD
  | VLT_RES
  | VLT_LC
  | GLB_ID
  | GLB_SERIAL
  | GLB_STRAP
  | GLB_BOOT
  | GLB_RST
  | GLB_RST_CAUSE
  | GLB_BAD_ACCESS
  | GLB_BAD_ADDR
  | GLB_TEMP
  | GLB_PWR_TOTAL
  | GLB_PWR_RAILk
  | GLB_PWR_PEAK
  | CLK_REF_STAT
  | CLK_ISLn
  | CLK_X_ISLn
  deriving DecidableEq, Repr

/-- Where a register lies: its first page and how many pages hold it, its offset, and for an indexed register the stride
and the count; and how many words it has (R53). -/
structure Lay where
  page : Nat
  npg : Nat
  ofs : Nat
  stride : Nat
  n : Nat
  words : Nat
  deriving DecidableEq, Repr

/-- One field of a field table: lowest bit, width, access type, and the reset value of instance g, index i. -/
structure FieldD where
  lo : Nat
  w : Nat
  acc : Acc
  rst : Nat → Nat → Nat

/-- A field named by the manual: register, lowest bit and width. -/
structure Fld where
  reg : Reg
  lo : Nat
  w : Nat
  deriving DecidableEq, Repr

/-- The place of each register, from its introduction line in the spec. -/
def Reg.lay : Reg → Lay
  | .LPG_PORTn_CFG => ⟨0x10, 32, 0x200, 0x40, 4, 1⟩
  | .LPG_PORTn_STAT => ⟨0x10, 32, 0x204, 0x40, 4, 1⟩
  | .LPG_PORTn_TS_ING_CORR => ⟨0x10, 32, 0x208, 0x40, 4, 1⟩
  | .LPG_PORTn_TS_EGR_CORR => ⟨0x10, 32, 0x20C, 0x40, 4, 1⟩
  | .LPG_PORTn_PREEMPT => ⟨0x10, 32, 0x210, 0x40, 4, 1⟩
  | .LPG_PORTn_MSEC => ⟨0x10, 32, 0x214, 0x40, 4, 1⟩
  | .LPG_PORTn_REPLAY_WIN => ⟨0x10, 32, 0x218, 0x40, 4, 1⟩
  | .LPG_PORTn_PN_NEAR => ⟨0x10, 32, 0x21C, 0x40, 4, 2⟩
  | .LPG_PORTn_TS_FIFO => ⟨0x10, 32, 0x224, 0x40, 4, 4⟩
  | .LPG_PORTn_TS_CNT => ⟨0x10, 32, 0x234, 0x40, 4, 1⟩
  | .LPG_MODE => ⟨0x10, 32, 0x100, 0x0, 1, 1⟩
  | .LPG_LANE_MAP => ⟨0x10, 32, 0x104, 0x0, 1, 1⟩
  | .LPG_SA_CMD => ⟨0x10, 32, 0x400, 0x0, 1, 1⟩
  | .LPG_SA_DATA => ⟨0x10, 32, 0x404, 0x0, 1, 8⟩
  | .HDS_CFG => ⟨0x30, 1, 0x100, 0x0, 1, 1⟩
  | .HDS_UDP_PORTS => ⟨0x30, 1, 0x104, 0x0, 1, 1⟩
  | .HDS_UDP_PORTS1 => ⟨0x30, 1, 0x108, 0x0, 1, 1⟩
  | .HDS_PORTn_CFG => ⟨0x30, 1, 0x400, 0x8, 250, 1⟩
  | .HDS_PORTn_META => ⟨0x30, 1, 0x404, 0x8, 250, 1⟩
  | .HDS_DPk_CFG => ⟨0x30, 1, 0xC00, 0x4, 16, 1⟩
  | .HDS_PROFA => ⟨0x31, 1, 0x100, 0x20, 64, 8⟩
  | .HDS_PROFB => ⟨0x31, 1, 0x1100, 0x20, 64, 8⟩
  | .HDS_TMPLA => ⟨0x32, 1, 0x100, 0x80, 64, 17⟩
  | .HDS_TMPLB => ⟨0x32, 1, 0x4100, 0x80, 64, 17⟩
  | .HDS_TRACE_CTRL => ⟨0x33, 1, 0x8000, 0x0, 1, 1⟩
  | .HDS_TRACE_DATA => ⟨0x33, 1, 0x8010, 0x0, 1, 6⟩
  | .LPM_MISS_NHt => ⟨0x34, 1, 0x100, 0x4, 2, 1⟩
  | .LPM_CMD => ⟨0x34, 1, 0x120, 0x0, 1, 8⟩
  | .LPM_CMD_RES => ⟨0x34, 1, 0x140, 0x0, 1, 8⟩
  | .LPM_LOCKt => ⟨0x34, 1, 0x160, 0x4, 2, 1⟩
  | .LPM_LOCK_TMO => ⟨0x34, 1, 0x170, 0x0, 1, 1⟩
  | .LPM_UNITS => ⟨0x34, 1, 0x180, 0x0, 1, 1⟩
  | .LPM_PFX0 => ⟨0x34, 1, 0x184, 0x0, 1, 1⟩
  | .LPM_PFX1 => ⟨0x34, 1, 0x188, 0x0, 1, 1⟩
  | .LPM_ECC_ADDR => ⟨0x34, 1, 0x190, 0x0, 1, 1⟩
  | .LPM_STAGE_FREEk => ⟨0x34, 1, 0x200, 0x4, 16, 1⟩
  | .LPM_MEM_ADDR => ⟨0x35, 1, 0x8000, 0x0, 1, 1⟩
  | .LPM_MEM_DATA => ⟨0x35, 1, 0x8010, 0x0, 1, 8⟩
  | .XM_TBLn_CFG => ⟨0x38, 1, 0x100, 0x10, 8, 1⟩
  | .XM_TBLn_SEED => ⟨0x38, 1, 0x104, 0x10, 8, 1⟩
  | .XM_TBLn_LRN => ⟨0x38, 1, 0x108, 0x10, 8, 1⟩
  | .XM_TBLn_DATA => ⟨0x38, 1, 0x10C, 0x10, 8, 1⟩
  | .XM_CMD => ⟨0x38, 1, 0x200, 0x0, 1, 8⟩
  | .XM_CMD_RES => ⟨0x38, 1, 0x220, 0x0, 1, 8⟩
  | .XM_LOCKn => ⟨0x38, 1, 0x300, 0x4, 8, 1⟩
  | .XM_LOCK_TMO => ⟨0x38, 1, 0x320, 0x0, 1, 1⟩
  | .XM_COUNTn => ⟨0x38, 1, 0x340, 0x4, 8, 1⟩
  | .XM_STASH => ⟨0x38, 1, 0x360, 0x0, 1, 1⟩
  | .XM_ECC_ADDR => ⟨0x38, 1, 0x364, 0x0, 1, 1⟩
  | .XM_INS_CFG => ⟨0x38, 1, 0x8000, 0x0, 1, 1⟩
  | .NHT_ACC => ⟨0x39, 1, 0x100, 0x0, 1, 4⟩
  | .NHT_LOCK => ⟨0x39, 1, 0x120, 0x0, 1, 1⟩
  | .NHT_LOCK_TMO => ⟨0x39, 1, 0x124, 0x0, 1, 1⟩
  | .NHT_ECC_ADDR => ⟨0x39, 1, 0x128, 0x0, 1, 1⟩
  | .LRN_CFG => ⟨0x3C, 1, 0x100, 0x0, 1, 1⟩
  | .LRN_PORT_MASKk => ⟨0x3C, 1, 0x110, 0x4, 4, 1⟩
  | .LRN_FLAP => ⟨0x3C, 1, 0x120, 0x0, 1, 1⟩
  | .LRN_STAT => ⟨0x3C, 1, 0x140, 0x0, 1, 1⟩
  | .LRN_LOG_STAT => ⟨0x3C, 1, 0x144, 0x0, 1, 1⟩
  | .LRN_LOG => ⟨0x3C, 1, 0x200, 0x0, 1, 8⟩
  | .TCM_SLICEk_OWNER => ⟨0x3A, 1, 0x100, 0x4, 16, 1⟩
  | .TCM_GRPAn => ⟨0x3A, 1, 0x200, 0x4, 16, 1⟩
  | .TCM_GRPBn => ⟨0x3A, 1, 0x240, 0x4, 16, 1⟩
  | .TCM_CMD => ⟨0x3A, 1, 0x400, 0x0, 1, 24⟩
  | .TCM_RD => ⟨0x3A, 1, 0x500, 0x0, 1, 24⟩
  | .TCM_SHADOW_ADDR => ⟨0x3A, 1, 0x600, 0x0, 1, 1⟩
  | .TCM_SCRUB_CFG => ⟨0x3A, 1, 0x8000, 0x0, 1, 1⟩
  | .TCM_INJECT => ⟨0x3A, 1, 0x8004, 0x0, 1, 1⟩
  | .BRL_REPLr => ⟨0x3B, 1, 0x100, 0x4, 24, 1⟩
  | .BRL_CMD => ⟨0x3B, 1, 0x200, 0x0, 1, 2⟩
  | .BRL_BANKA_STAT => ⟨0x3B, 1, 0x300, 0x0, 1, 1⟩
  | .BRL_BANKB_STAT => ⟨0x3B, 1, 0x304, 0x0, 1, 1⟩
  | .BRL_BANKA_CRC => ⟨0x3B, 1, 0x308, 0x0, 1, 1⟩
  | .BRL_BANKB_CRC => ⟨0x3B, 1, 0x30C, 0x0, 1, 1⟩
  | .BRL_ECC_ADDR => ⟨0x3B, 1, 0x310, 0x0, 1, 1⟩
  | .BRL_MEM_ADDR => ⟨0x3B, 1, 0x8000, 0x0, 1, 1⟩
  | .BRL_MEM_DATA => ⟨0x3B, 1, 0x8010, 0x0, 1, 2⟩
  | .ENG_CFG => ⟨0x40, 64, 0x100, 0x0, 1, 1⟩
  | .ENG_STAT => ⟨0x40, 64, 0x104, 0x0, 1, 1⟩
  | .ENG_IMEM_ADDR => ⟨0x40, 64, 0x110, 0x0, 1, 1⟩
  | .ENG_IMEM_DATA => ⟨0x40, 64, 0x120, 0x0, 1, 4⟩
  | .ENG_ECC_ADDR => ⟨0x40, 64, 0x130, 0x0, 1, 1⟩
  | .ENG_ILL_ADDR => ⟨0x40, 64, 0x134, 0x0, 1, 1⟩
  | .ENG_DISP_CFG => ⟨0x40, 1, 0x800, 0x0, 1, 1⟩
  | .ENG_DISP_STAT => ⟨0x40, 1, 0x804, 0x0, 1, 1⟩
  | .ENG_DISP_X => ⟨0x40, 1, 0x8800, 0x0, 1, 1⟩
  | .ENG_TRACE_CTRL => ⟨0x40, 64, 0x8000, 0x0, 1, 1⟩
  | .ENG_TRACE_DATA => ⟨0x40, 64, 0x8010, 0x0, 1, 2⟩
  | .TLS_PORTn_CFG => ⟨0x82, 1, 0x400, 0x4, 128, 1⟩
  | .EPC_CFG => ⟨0x80, 1, 0x100, 0x0, 1, 1⟩
  | .EPC_STAT => ⟨0x80, 1, 0x104, 0x0, 1, 1⟩
  | .EPC_SWITCH => ⟨0x80, 1, 0x110, 0x0, 1, 4⟩
  | .EPC_LAST => ⟨0x80, 1, 0x120, 0x0, 1, 4⟩
  | .EPC_INFLIGHTA => ⟨0x80, 1, 0x140, 0x0, 1, 1⟩
  | .EPC_INFLIGHTB => ⟨0x80, 1, 0x144, 0x0, 1, 1⟩
  | .EPC_DRAIN_TIME => ⟨0x80, 1, 0x148, 0x0, 1, 1⟩
  | .EPC_X_CFG => ⟨0x80, 1, 0x8000, 0x0, 1, 1⟩
  | .MDL_CFG => ⟨0x81, 1, 0x100, 0x0, 1, 1⟩
  | .MDL_STAT => ⟨0x81, 1, 0x104, 0x0, 1, 1⟩
  | .CHK_POOLn_CFG => ⟨0x90, 1, 0x100, 0x20, 16, 2⟩
  | .CHK_POOLn_SPILL => ⟨0x90, 1, 0x108, 0x20, 16, 1⟩
  | .CHK_POOLn_ADMIT => ⟨0x90, 1, 0x10C, 0x20, 16, 1⟩
  | .CHK_POOLn_STAT => ⟨0x90, 1, 0x110, 0x20, 16, 1⟩
  | .CHK_POOLn_MIN => ⟨0x90, 1, 0x114, 0x20, 16, 1⟩
  | .CHK_POOLn_RETIRED => ⟨0x90, 1, 0x118, 0x20, 16, 1⟩
  | .CHK_SRCs_CFG => ⟨0x90, 1, 0x400, 0x4, 132, 1⟩
  | .CHK_CELL_CMD => ⟨0x90, 1, 0x800, 0x0, 1, 2⟩
  | .CHK_CELL_RES => ⟨0x90, 1, 0x808, 0x0, 1, 2⟩
  | .CHK_BADFREE_LOG => ⟨0x90, 1, 0x900, 0x0, 1, 2⟩
  | .CHK_MARCH_CTRL => ⟨0x90, 1, 0xA00, 0x0, 1, 1⟩
  | .CHK_MARCH_STAT => ⟨0x90, 1, 0xA04, 0x0, 1, 1⟩
  | .CHK_MARCH_ERR => ⟨0x90, 1, 0xA08, 0x0, 1, 2⟩
  | .CHK_ECC_ADDR => ⟨0x90, 1, 0xA10, 0x0, 1, 1⟩
  | .CHK_ALLOC_X => ⟨0x90, 1, 0x8000, 0x0, 1, 1⟩
  | .CHK_INJECT => ⟨0x90, 1, 0x8004, 0x0, 1, 2⟩
  | .D2D_CFG => ⟨0x91, 1, 0x100, 0x0, 1, 1⟩
  | .D2D_STAT => ⟨0x91, 1, 0x104, 0x0, 1, 1⟩
  | .D2D_X_CAL => ⟨0x91, 1, 0x8000, 0x0, 1, 1⟩
  | .HBM_ID => ⟨0xA0, 4, 0x100, 0x0, 1, 1⟩
  | .HBM_FREQ => ⟨0xA0, 4, 0x104, 0x0, 1, 1⟩
  | .HBM_TRAIN_STAT => ⟨0xA0, 4, 0x108, 0x0, 1, 1⟩
  | .HBM_RETRAIN => ⟨0xA0, 4, 0x10C, 0x0, 1, 1⟩
  | .HBM_TEMP => ⟨0xA0, 4, 0x110, 0x0, 1, 1⟩
  | .HBM_SCRUB => ⟨0xA0, 4, 0x114, 0x0, 1, 1⟩
  | .HBM_ERR_ADDR => ⟨0xA0, 4, 0x118, 0x0, 1, 2⟩
  | .HBM_PCk_STAT => ⟨0xA0, 4, 0x200, 0x4, 32, 1⟩
  | .HBM_FREE_TOTAL => ⟨0xA0, 1, 0x400, 0x0, 1, 1⟩
  | .HBM_X_WQ => ⟨0xA0, 4, 0x8000, 0x0, 1, 1⟩
  | .HBM_X_SLOW => ⟨0xA0, 4, 0x8004, 0x0, 1, 1⟩
  | .HBM_X_READ_TMO => ⟨0xA0, 4, 0x8008, 0x0, 1, 1⟩
  | .HBM_X_INJECT => ⟨0xA0, 4, 0x800C, 0x0, 1, 2⟩
  | .TMS_CFG => ⟨0xB0, 1, 0x100, 0x0, 1, 1⟩
  | .TMS_PORTn_CFG => ⟨0xB0, 1, 0x400, 0x4, 130, 1⟩
  | .TMS_PORTn_EQ => ⟨0xB0, 1, 0x800, 0x4, 130, 1⟩
  | .TMS_MIRk => ⟨0xB0, 1, 0xC00, 0x8, 16, 2⟩
  | .TMS_MIRk_OWNER => ⟨0xB0, 1, 0xC80, 0x4, 16, 1⟩
  | .TMS_X_TIE => ⟨0xB0, 1, 0x8000, 0x0, 1, 1⟩
  | .TMS_Q_CMD => ⟨0xB1, 1, 0x100, 0x0, 1, 4⟩
  | .TMS_Q_RES => ⟨0xB1, 1, 0x110, 0x0, 1, 8⟩
  | .TMS_QPROFp => ⟨0xB1, 1, 0x1000, 0x20, 512, 8⟩
  | .TMS_NODE_CMD => ⟨0xB2, 1, 0x100, 0x0, 1, 8⟩
  | .TMS_NODE_RES => ⟨0xB2, 1, 0x120, 0x0, 1, 8⟩
  | .TMS_WREDk => ⟨0xB3, 1, 0x100, 0x20, 64, 8⟩
  | .TMS_CR_CFG => ⟨0xB4, 1, 0x100, 0x0, 1, 1⟩
  | .TMS_CR_CLASSc => ⟨0xB4, 1, 0x110, 0x4, 16, 1⟩
  | .TMS_CR_PORTn => ⟨0xB4, 1, 0x200, 0x4, 128, 1⟩
  | .MTR_CMD => ⟨0xB8, 1, 0x100, 0x0, 1, 2⟩
  | .MTR_RES => ⟨0xB8, 1, 0x110, 0x0, 1, 4⟩
  | .MTR_PROFp => ⟨0xB8, 1, 0x2000, 0x10, 1024, 4⟩
  | .SPN_TIME => ⟨0x4, 1, 0x100, 0x0, 1, 3⟩
  | .SPN_ADJ => ⟨0x4, 1, 0x110, 0x0, 1, 4⟩
  | .SPN_RATE => ⟨0x4, 1, 0x120, 0x0, 1, 1⟩
  | .SPN_CFG => ⟨0x4, 1, 0x124, 0x0, 1, 1⟩
  | .SPN_SERVO => ⟨0x4, 1, 0x128, 0x0, 1, 1⟩
  | .SPN_STAT => ⟨0x4, 1, 0x12C, 0x0, 1, 1⟩
  | .SPN_ERR => ⟨0x4, 1, 0x130, 0x0, 1, 1⟩
  | .SPN_PPS_IN_CORR => ⟨0x4, 1, 0x134, 0x0, 1, 1⟩
  | .SPN_SYNC_IN_CORR => ⟨0x4, 1, 0x138, 0x0, 1, 1⟩
  | .SPN_PPS_OUT_CORR => ⟨0x4, 1, 0x13C, 0x0, 1, 1⟩
  | .SPN_SYNC_OUT_CORR => ⟨0x4, 1, 0x140, 0x0, 1, 1⟩
  | .SPN_PPS_CAP => ⟨0x4, 1, 0x150, 0x0, 1, 3⟩
  | .SPN_PPS_OUT => ⟨0x4, 1, 0x160, 0x0, 1, 1⟩
  | .SPN_SYNC_OUT_OWNER => ⟨0x4, 1, 0x164, 0x0, 1, 1⟩
  | .SPN_ACT_FAIL => ⟨0x4, 1, 0x170, 0x0, 1, 1⟩
  | .SPN_TIMER_FIFO => ⟨0x4, 1, 0x174, 0x0, 1, 1⟩
  | .SPN_ACT_CMD => ⟨0x4, 1, 0x200, 0x0, 1, 8⟩
  | .SPN_ACT_RES => ⟨0x4, 1, 0x220, 0x0, 1, 8⟩
  | .SPN_GCL_ADDR => ⟨0x4, 1, 0x400, 0x0, 1, 1⟩
  | .SPN_GCL_DATA => ⟨0x4, 1, 0x408, 0x0, 1, 2⟩
  | .SPN_GATEn_ADMIN => ⟨0x4, 1, 0x2000, 0x40, 128, 4⟩
  | .SPN_GATEn_STAT => ⟨0x4, 1, 0x2010, 0x40, 128, 1⟩
  | .SPN_GATEn_ADJ_BASE => ⟨0x4, 1, 0x2018, 0x40, 128, 3⟩
  | .SPN_X_CFG => ⟨0x4, 1, 0x8000, 0x0, 1, 1⟩
  | .FAB_LANE_EN => ⟨0xC0, 21, 0x100, 0x0, 1, 1⟩
  | .FAB_POLARITY => ⟨0xC0, 21, 0x104, 0x0, 1, 1⟩
  | .FAB_LINKk_STAT => ⟨0xC0, 21, 0x200, 0x20, 8, 1⟩
  | .FAB_LINKk_FAR => ⟨0xC0, 21, 0x204, 0x20, 8, 1⟩
  | .FAB_LINKk_REACH => ⟨0xC0, 21, 0x208, 0x20, 8, 2⟩
  | .FAB_LINKk_LAG => ⟨0xC0, 21, 0x210, 0x20, 8, 1⟩
  | .FCT_CFG => ⟨0xD8, 1, 0x100, 0x0, 1, 1⟩
  | .FCT_MGR_CFG => ⟨0xD8, 1, 0x104, 0x0, 1, 1⟩
  | .FCT_MGR_CMD => ⟨0xD8, 1, 0x108, 0x0, 1, 1⟩
  | .FCT_MGR_STAT => ⟨0xD8, 1, 0x10C, 0x0, 1, 1⟩
  | .FCT_MEMBERS => ⟨0xD8, 1, 0x110, 0x0, 1, 2⟩
  | .FCT_REACH => ⟨0xD8, 1, 0x118, 0x0, 1, 2⟩
  | .FCT_SPARE => ⟨0xD8, 1, 0x120, 0x0, 1, 1⟩
  | .FCT_X_LINK => ⟨0xD8, 1, 0x8000, 0x0, 1, 1⟩
  | .FCT_X_LAG => ⟨0xD8, 1, 0x8004, 0x0, 1, 1⟩
  | .FCT_X_LAG1 => ⟨0xD8, 1, 0x8008, 0x0, 1, 1⟩
  | .SVC_DIVERTk => ⟨0x8, 1, 0x110, 0x4, 3, 1⟩
  | .SVC_RING_BASE => ⟨0x8, 1, 0x120, 0x0, 1, 2⟩
  | .SVC_RING_CFG => ⟨0x8, 1, 0x128, 0x0, 1, 1⟩
  | .SVC_RING_HEAD => ⟨0x8, 1, 0x12C, 0x0, 1, 1⟩
  | .SVC_RING_TAIL => ⟨0x8, 1, 0x130, 0x0, 1, 1⟩
  | .SVC_FW_CMD => ⟨0x8, 1, 0x140, 0x0, 1, 1⟩
  | .SVC_FW_STAT => ⟨0x8, 1, 0x144, 0x0, 1, 1⟩
  | .SVC_WHEEL_CMD => ⟨0x8, 1, 0x180, 0x0, 1, 2⟩
  | .SVC_WHEEL_FREE => ⟨0x8, 1, 0x188, 0x0, 1, 1⟩
  | .SVC_MBOX_CMD => ⟨0x8, 1, 0x200, 0x0, 1, 16⟩
  | .SVC_MBOX_RES => ⟨0x8, 1, 0x240, 0x0, 1, 16⟩
  | .HIF_LINK => ⟨0x1, 1, 0x100, 0x0, 1, 1⟩
  | .HIF_RINGn_BASE => ⟨0x1, 1, 0x2000, 0x20, 144, 2⟩
  | .HIF_RINGn_CFG => ⟨0x1, 1, 0x2008, 0x20, 144, 1⟩
  | .HIF_RINGn_TAIL => ⟨0x1, 1, 0x200C, 0x20, 144, 1⟩
  | .HIF_RINGn_HEAD => ⟨0x1, 1, 0x2010, 0x20, 144, 1⟩
  | .HIF_RINGn_STAT => ⟨0x1, 1, 0x2014, 0x20, 144, 1⟩
  | .HIF_CQn_BASE => ⟨0x1, 1, 0x3400, 0x20, 144, 2⟩
  | .HIF_CQn_CFG => ⟨0x1, 1, 0x3408, 0x20, 144, 1⟩
  | .HIF_CQn_MOD => ⟨0x1, 1, 0x340C, 0x20, 144, 1⟩
  | .HIF_CQn_HEAD => ⟨0x1, 1, 0x3410, 0x20, 144, 1⟩
  | .HIF_CQn_TAIL => ⟨0x1, 1, 0x3414, 0x20, 144, 1⟩
  | .HIF_CQn_STAT => ⟨0x1, 1, 0x3418, 0x20, 144, 1⟩
  | .MGT_CFG => ⟨0x5, 1, 0x100, 0x0, 1, 1⟩
  | .MGT_STAT => ⟨0x5, 1, 0x104, 0x0, 1, 1⟩
  | .MGT_RST_REQ => ⟨0x5, 1, 0x108, 0x0, 1, 1⟩
  | .EVT_GRPg_CFG => ⟨0x2, 1, 0x100, 0x4, 64, 1⟩
  | .EVT_GRP_ACTIVE => ⟨0x2, 1, 0x400, 0x0, 1, 2⟩
  | .EVT_GRP_RAISED => ⟨0x2, 1, 0x408, 0x0, 1, 2⟩
  | .EVT_EOI => ⟨0x2, 1, 0x410, 0x0, 1, 1⟩
  | .EVT_QUERY => ⟨0x2, 1, 0x420, 0x0, 1, 1⟩
  | .EVT_ALERT => ⟨0x2, 1, 0x440, 0x0, 1, 1⟩
  | .EVT_VEC_HELDw => ⟨0x2, 1, 0x600, 0x4, 16, 1⟩
  | .AON_CFG => ⟨0x3, 1, 0x100, 0x0, 1, 1⟩
  | .AON_STAT => ⟨0x3, 1, 0x104, 0x0, 1, 1⟩
  | .AON_WATCHk => ⟨0x3, 1, 0x200, 0x4, 64, 1⟩
  | .CNT_ACC => ⟨0xE0, 1, 0x100, 0x0, 1, 8⟩
  | .CNT_ACC_RES => ⟨0xE0, 1, 0x120, 0x0, 1, 4⟩
  | .CNT_CFG => ⟨0xE0, 1, 0x140, 0x0, 1, 1⟩
  | .CNT_SNAP_CFG => ⟨0xE0, 1, 0x200, 0x0, 1, 4⟩
  | .CNT_SNAP_CMD => ⟨0xE0, 1, 0x210, 0x0, 1, 1⟩
  | .CNT_SNAP_STAT => ⟨0xE0, 1, 0x220, 0x0, 1, 4⟩
  | .CNT_ECC_ADDR => ⟨0xE0, 1, 0x240, 0x0, 1, 1⟩
  | .HWD_STAT => ⟨0x6, 1, 0x100, 0x0, 1, 1⟩
  | .HWD_UTC => ⟨0x6, 1, 0x108, 0x0, 1, 2⟩
  | .HWD_WIN_ADDR => ⟨0x6, 1, 0x110, 0x0, 1, 1⟩
  | .HWD_WIN_DATA => ⟨0x6, 1, 0x118, 0x0, 1, 2⟩
  | .HWD_PTR => ⟨0x6, 1, 0x120, 0x0, 1, 1⟩
  | .HWD_PTR1 => ⟨0x6, 1, 0x124, 0x0, 1, 1⟩
  | .HWD_AGE_ALARM => ⟨0x6, 1, 0x130, 0x0, 1, 1⟩
  | .HWD_FLUSH => ⟨0x6, 1, 0x140, 0x0, 1, 1⟩
  | .HWD_TOTALS => ⟨0x6, 1, 0x200, 0x8, 4, 2⟩
  | .MEM_CFG => ⟨0xF0, 1, 0x100, 0x0, 1, 1⟩
  | .MEM_GRANTr => ⟨0xF0, 1, 0x104, 0x4, 88, 1⟩
  | .MEM_TEST_CTRL => ⟨0xF0, 1, 0x400, 0x0, 1, 1⟩
  | .MEM_TEST_STAT => ⟨0xF0, 1, 0x404, 0x0, 1, 1⟩
  | .MEM_TEST_ERR => ⟨0xF0, 1, 0x408, 0x0, 1, 2⟩
  | .VLT_STAT => ⟨0x7, 1, 0x100, 0x0, 1, 1⟩
  | .VLT_ADDR => ⟨0x7, 1, 0x108, 0x0, 1, 2⟩
  | .VLT_CMD => ⟨0x7, 1, 0x110, 0x0, 1, 1⟩
  | .VLT_RES => ⟨0x7, 1, 0x114, 0x0, 1, 1⟩
  | .VLT_LC => ⟨0x7, 1, 0x8000, 0x0, 1, 1⟩
  | .GLB_ID => ⟨0x0, 1, 0x100, 0x0, 1, 1⟩
  | .GLB_SERIAL => ⟨0x0, 1, 0x104, 0x0, 1, 2⟩
  | .GLB_STRAP => ⟨0x0, 1, 0x110, 0x0, 1, 1⟩
  | .GLB_BOOT => ⟨0x0, 1, 0x114, 0x0, 1, 1⟩
  | .GLB_RST => ⟨0x0, 1, 0x120, 0x0, 1, 1⟩
  | .GLB_RST_CAUSE => ⟨0x0, 1, 0x124, 0x0, 1, 1⟩
  | .GLB_BAD_ACCESS => ⟨0x0, 1, 0x130, 0x0, 1, 1⟩
  | .GLB_BAD_ADDR => ⟨0x0, 1, 0x134, 0x0, 1, 1⟩
  | .GLB_TEMP => ⟨0x0, 1, 0x140, 0x0, 1, 1⟩
  | .GLB_PWR_TOTAL => ⟨0x0, 1, 0x200, 0x0, 1, 1⟩
  | .GLB_PWR_RAILk => ⟨0x0, 1, 0x210, 0x4, 10, 1⟩
  | .GLB_PWR_PEAK => ⟨0x0, 1, 0x240, 0x0, 1, 1⟩
  | .CLK_REF_STAT => ⟨0x9, 1, 0x100, 0x0, 1, 1⟩
  | .CLK_ISLn => ⟨0x9, 1, 0x200, 0x4, 128, 1⟩
  | .CLK_X_ISLn => ⟨0x9, 1, 0x8200, 0x4, 128, 1⟩

/-- The fields of each register, from its field table; the bits of no field are res and read 0 (R3). -/
def Reg.fields : Reg → List FieldD
  | .LPG_PORTn_CFG => [⟨16, 14, .rw, fun _ _ => 9216⟩, ⟨7, 1, .rw, fun _ _ => 0⟩, ⟨6, 1, .rw, fun _ _ => 1⟩, ⟨5, 1, .rw, fun _ _ => 1⟩, ⟨3, 2, .rw, fun _ _ => 0⟩, ⟨2, 1, .rw, fun _ _ => 1⟩, ⟨0, 1, .rw, fun _ _ => 0⟩]
  | .LPG_PORTn_STAT => [⟨9, 1, .ro, fun _ _ => 0⟩, ⟨8, 1, .ro, fun _ _ => 0⟩, ⟨7, 1, .ro, fun _ _ => 0⟩, ⟨6, 1, .ro, fun _ _ => 0⟩, ⟨5, 1, .ro, fun _ _ => 0⟩, ⟨4, 1, .ro, fun _ _ => 0⟩, ⟨0, 3, .ro, fun _ _ => 0⟩]
  | .LPG_PORTn_TS_ING_CORR => [⟨0, 32, .rw, fun _ _ => 0⟩]
  | .LPG_PORTn_TS_EGR_CORR => [⟨0, 32, .rw, fun _ _ => 0⟩]
  | .LPG_PORTn_PREEMPT => [⟨18, 2, .rw, fun _ _ => 0⟩, ⟨10, 8, .rw, fun _ _ => 10⟩, ⟨9, 1, .rw, fun _ _ => 1⟩, ⟨8, 1, .rw, fun _ _ => 0⟩, ⟨0, 8, .rw, fun _ _ => 0⟩]
  | .LPG_PORTn_MSEC => [⟨7, 2, .rw, fun _ _ => 0⟩, ⟨6, 1, .rw, fun _ _ => 1⟩, ⟨5, 1, .rw, fun _ _ => 0⟩, ⟨4, 1, .rw, fun _ _ => 1⟩, ⟨2, 2, .rw, fun _ _ => 2⟩, ⟨1, 1, .rw, fun _ _ => 0⟩, ⟨0, 1, .rw, fun _ _ => 0⟩]
  | .LPG_PORTn_REPLAY_WIN => [⟨0, 32, .rw, fun _ _ => 0⟩]
  | .LPG_PORTn_PN_NEAR => [⟨0, 64, .rw, fun _ _ => 3221225472⟩]
  | .LPG_PORTn_TS_FIFO => [⟨127, 1, .ro, fun _ _ => 0⟩, ⟨96, 16, .ro, fun _ _ => 0⟩, ⟨80, 16, .ro, fun _ _ => 0⟩, ⟨32, 48, .ro, fun _ _ => 0⟩, ⟨0, 30, .ro, fun _ _ => 0⟩]
  | .LPG_PORTn_TS_CNT => [⟨16, 16, .rw, fun _ _ => 0⟩, ⟨0, 7, .ro, fun _ _ => 0⟩]
  | .LPG_MODE => [⟨0, 4, .rw, fun _ _ => 0⟩]
  | .LPG_LANE_MAP => [⟨12, 4, .rw, fun _ _ => 0⟩, ⟨8, 4, .rw, fun _ _ => 0⟩, ⟨0, 8, .rw, fun _ _ => 228⟩]
  | .LPG_SA_CMD => [⟨31, 1, .sc, fun _ _ => 0⟩, ⟨30, 1, .rw, fun _ _ => 0⟩, ⟨28, 2, .rw, fun _ _ => 0⟩, ⟨8, 2, .rw, fun _ _ => 0⟩, ⟨0, 6, .rw, fun _ _ => 0⟩]
  | .LPG_SA_DATA => [⟨192, 1, .ro, fun _ _ => 0⟩, ⟨176, 16, .rw, fun _ _ => 0⟩, ⟨144, 32, .rw, fun _ _ => 0⟩, ⟨128, 2, .ro, fun _ _ => 0⟩, ⟨64, 64, .rw, fun _ _ => 1⟩, ⟨0, 64, .rw, fun _ _ => 0⟩]
  | .HDS_CFG => [⟨17, 1, .rw, fun _ _ => 1⟩, ⟨16, 1, .rw, fun _ _ => 0⟩, ⟨0, 16, .rw, fun _ _ => 37120⟩]
  | .HDS_UDP_PORTS => [⟨16, 16, .rw, fun _ _ => 6081⟩, ⟨0, 16, .rw, fun _ _ => 4789⟩]
  | .HDS_UDP_PORTS1 => [⟨0, 16, .rw, fun _ _ => 2152⟩]
  | .HDS_PORTn_CFG => [⟨26, 6, .rw, fun _ _ => 0⟩, ⟨20, 6, .rw, fun _ _ => 1⟩, ⟨16, 4, .rw, fun _ _ => 0⟩, ⟨14, 2, .rw, fun _ _ => 0⟩, ⟨13, 1, .rw, fun _ _ => 1⟩, ⟨12, 1, .rw, fun _ _ => 1⟩, ⟨11, 1, .rw, fun _ _ => 0⟩, ⟨10, 1, .rw, fun _ _ => 0⟩]
  | .HDS_PORTn_META => [⟨0, 32, .rw, fun _ _ => 0⟩]
  | .HDS_DPk_CFG => [⟨31, 1, .rw, fun _ _ => 0⟩, ⟨23, 8, .rw, fun _ _ => 0⟩, ⟨21, 2, .rw, fun _ _ => 0⟩, ⟨18, 3, .rw, fun _ _ => 0⟩, ⟨15, 3, .rw, fun _ _ => 0⟩, ⟨13, 2, .rw, fun _ _ => 0⟩, ⟨10, 3, .rw, fun _ _ => 0⟩]
  | .HDS_PROFA => [⟨29, 3, .rw, fun _ _ => 0⟩, ⟨23, 6, .rw, fun _ _ => 0⟩, ⟨0, 16, .rw, fun _ _ => 0⟩, ⟨61, 3, .rw, fun _ _ => 0⟩, ⟨55, 6, .rw, fun _ _ => 0⟩, ⟨32, 16, .rw, fun _ _ => 0⟩, ⟨93, 3, .rw, fun _ _ => 0⟩, ⟨87, 6, .rw, fun _ _ => 0⟩, ⟨64, 16, .rw, fun _ _ => 0⟩, ⟨125, 3, .rw, fun _ _ => 0⟩, ⟨119, 6, .rw, fun _ _ => 0⟩, ⟨96, 16, .rw, fun _ _ => 0⟩, ⟨157, 3, .rw, fun _ _ => 0⟩, ⟨151, 6, .rw, fun _ _ => 0⟩, ⟨128, 16, .rw, fun _ _ => 0⟩, ⟨189, 3, .rw, fun _ _ => 0⟩, ⟨183, 6, .rw, fun _ _ => 0⟩, ⟨160, 16, .rw, fun _ _ => 0⟩, ⟨192, 32, .rw, fun _ _ => 0⟩, ⟨255, 1, .rw, fun _ _ => 0⟩, ⟨254, 1, .rw, fun _ _ => 0⟩, ⟨251, 3, .rw, fun _ _ => 0⟩]
  | .HDS_PROFB => [⟨29, 3, .rw, fun _ _ => 0⟩, ⟨23, 6, .rw, fun _ _ => 0⟩, ⟨0, 16, .rw, fun _ _ => 0⟩, ⟨61, 3, .rw, fun _ _ => 0⟩, ⟨55, 6, .rw, fun _ _ => 0⟩, ⟨32, 16, .rw, fun _ _ => 0⟩, ⟨93, 3, .rw, fun _ _ => 0⟩, ⟨87, 6, .rw, fun _ _ => 0⟩, ⟨64, 16, .rw, fun _ _ => 0⟩, ⟨125, 3, .rw, fun _ _ => 0⟩, ⟨119, 6, .rw, fun _ _ => 0⟩, ⟨96, 16, .rw, fun _ _ => 0⟩, ⟨157, 3, .rw, fun _ _ => 0⟩, ⟨151, 6, .rw, fun _ _ => 0⟩, ⟨128, 16, .rw, fun _ _ => 0⟩, ⟨189, 3, .rw, fun _ _ => 0⟩, ⟨183, 6, .rw, fun _ _ => 0⟩, ⟨160, 16, .rw, fun _ _ => 0⟩, ⟨192, 32, .rw, fun _ _ => 0⟩, ⟨255, 1, .rw, fun _ _ => 0⟩, ⟨254, 1, .rw, fun _ _ => 0⟩, ⟨251, 3, .rw, fun _ _ => 0⟩]
  | .HDS_TMPLA => [⟨28, 4, .rw, fun _ _ => 0⟩, ⟨20, 8, .rw, fun _ _ => 0⟩, ⟨17, 3, .rw, fun _ _ => 0⟩, ⟨16, 1, .rw, fun _ _ => 0⟩, ⟨8, 8, .rw, fun _ _ => 0⟩, ⟨60, 4, .rw, fun _ _ => 0⟩, ⟨52, 8, .rw, fun _ _ => 0⟩, ⟨49, 3, .rw, fun _ _ => 0⟩, ⟨48, 1, .rw, fun _ _ => 0⟩, ⟨40, 8, .rw, fun _ _ => 0⟩, ⟨92, 4, .rw, fun _ _ => 0⟩, ⟨84, 8, .rw, fun _ _ => 0⟩, ⟨81, 3, .rw, fun _ _ => 0⟩, ⟨80, 1, .rw, fun _ _ => 0⟩, ⟨72, 8, .rw, fun _ _ => 0⟩, ⟨124, 4, .rw, fun _ _ => 0⟩, ⟨116, 8, .rw, fun _ _ => 0⟩, ⟨113, 3, .rw, fun _ _ => 0⟩, ⟨112, 1, .rw, fun _ _ => 0⟩, ⟨104, 8, .rw, fun _ _ => 0⟩, ⟨156, 4, .rw, fun _ _ => 0⟩, ⟨148, 8, .rw, fun _ _ => 0⟩, ⟨145, 3, .rw, fun _ _ => 0⟩, ⟨144, 1, .rw, fun _ _ => 0⟩, ⟨136, 8, .rw, fun _ _ => 0⟩, ⟨188, 4, .rw, fun _ _ => 0⟩, ⟨180, 8, .rw, fun _ _ => 0⟩, ⟨177, 3, .rw, fun _ _ => 0⟩, ⟨176, 1, .rw, fun _ _ => 0⟩, ⟨168, 8, .rw, fun _ _ => 0⟩, ⟨220, 4, .rw, fun _ _ => 0⟩, ⟨212, 8, .rw, fun _ _ => 0⟩, ⟨209, 3, .rw, fun _ _ => 0⟩, ⟨208, 1, .rw, fun _ _ => 0⟩, ⟨200, 8, .rw, fun _ _ => 0⟩, ⟨252, 4, .rw, fun _ _ => 0⟩, ⟨244, 8, .rw, fun _ _ => 0⟩, ⟨241, 3, .rw, fun _ _ => 0⟩, ⟨240, 1, .rw, fun _ _ => 0⟩, ⟨232, 8, .rw, fun _ _ => 0⟩, ⟨284, 4, .rw, fun _ _ => 0⟩, ⟨276, 8, .rw, fun _ _ => 0⟩, ⟨273, 3, .rw, fun _ _ => 0⟩, ⟨272, 1, .rw, fun _ _ => 0⟩, ⟨264, 8, .rw, fun _ _ => 0⟩, ⟨316, 4, .rw, fun _ _ => 0⟩, ⟨308, 8, .rw, fun _ _ => 0⟩, ⟨305, 3, .rw, fun _ _ => 0⟩, ⟨304, 1, .rw, fun _ _ => 0⟩, ⟨296, 8, .rw, fun _ _ => 0⟩, ⟨348, 4, .rw, fun _ _ => 0⟩, ⟨340, 8, .rw, fun _ _ => 0⟩, ⟨337, 3, .rw, fun _ _ => 0⟩, ⟨336, 1, .rw, fun _ _ => 0⟩, ⟨328, 8, .rw, fun _ _ => 0⟩, ⟨380, 4, .rw, fun _ _ => 0⟩, ⟨372, 8, .rw, fun _ _ => 0⟩, ⟨369, 3, .rw, fun _ _ => 0⟩, ⟨368, 1, .rw, fun _ _ => 0⟩, ⟨360, 8, .rw, fun _ _ => 0⟩, ⟨412, 4, .rw, fun _ _ => 0⟩, ⟨404, 8, .rw, fun _ _ => 0⟩, ⟨401, 3, .rw, fun _ _ => 0⟩, ⟨400, 1, .rw, fun _ _ => 0⟩, ⟨392, 8, .rw, fun _ _ => 0⟩, ⟨444, 4, .rw, fun _ _ => 0⟩, ⟨436, 8, .rw, fun _ _ => 0⟩, ⟨433, 3, .rw, fun _ _ => 0⟩, ⟨432, 1, .rw, fun _ _ => 0⟩, ⟨424, 8, .rw, fun _ _ => 0⟩, ⟨476, 4, .rw, fun _ _ => 0⟩, ⟨468, 8, .rw, fun _ _ => 0⟩, ⟨465, 3, .rw, fun _ _ => 0⟩, ⟨464, 1, .rw, fun _ _ => 0⟩, ⟨456, 8, .rw, fun _ _ => 0⟩, ⟨508, 4, .rw, fun _ _ => 0⟩, ⟨500, 8, .rw, fun _ _ => 0⟩, ⟨497, 3, .rw, fun _ _ => 0⟩, ⟨496, 1, .rw, fun _ _ => 0⟩, ⟨488, 8, .rw, fun _ _ => 0⟩, ⟨512, 32, .rw, fun _ _ => 0⟩]
  | .HDS_TMPLB => [⟨28, 4, .rw, fun _ _ => 0⟩, ⟨20, 8, .rw, fun _ _ => 0⟩, ⟨17, 3, .rw, fun _ _ => 0⟩, ⟨16, 1, .rw, fun _ _ => 0⟩, ⟨8, 8, .rw, fun _ _ => 0⟩, ⟨60, 4, .rw, fun _ _ => 0⟩, ⟨52, 8, .rw, fun _ _ => 0⟩, ⟨49, 3, .rw, fun _ _ => 0⟩, ⟨48, 1, .rw, fun _ _ => 0⟩, ⟨40, 8, .rw, fun _ _ => 0⟩, ⟨92, 4, .rw, fun _ _ => 0⟩, ⟨84, 8, .rw, fun _ _ => 0⟩, ⟨81, 3, .rw, fun _ _ => 0⟩, ⟨80, 1, .rw, fun _ _ => 0⟩, ⟨72, 8, .rw, fun _ _ => 0⟩, ⟨124, 4, .rw, fun _ _ => 0⟩, ⟨116, 8, .rw, fun _ _ => 0⟩, ⟨113, 3, .rw, fun _ _ => 0⟩, ⟨112, 1, .rw, fun _ _ => 0⟩, ⟨104, 8, .rw, fun _ _ => 0⟩, ⟨156, 4, .rw, fun _ _ => 0⟩, ⟨148, 8, .rw, fun _ _ => 0⟩, ⟨145, 3, .rw, fun _ _ => 0⟩, ⟨144, 1, .rw, fun _ _ => 0⟩, ⟨136, 8, .rw, fun _ _ => 0⟩, ⟨188, 4, .rw, fun _ _ => 0⟩, ⟨180, 8, .rw, fun _ _ => 0⟩, ⟨177, 3, .rw, fun _ _ => 0⟩, ⟨176, 1, .rw, fun _ _ => 0⟩, ⟨168, 8, .rw, fun _ _ => 0⟩, ⟨220, 4, .rw, fun _ _ => 0⟩, ⟨212, 8, .rw, fun _ _ => 0⟩, ⟨209, 3, .rw, fun _ _ => 0⟩, ⟨208, 1, .rw, fun _ _ => 0⟩, ⟨200, 8, .rw, fun _ _ => 0⟩, ⟨252, 4, .rw, fun _ _ => 0⟩, ⟨244, 8, .rw, fun _ _ => 0⟩, ⟨241, 3, .rw, fun _ _ => 0⟩, ⟨240, 1, .rw, fun _ _ => 0⟩, ⟨232, 8, .rw, fun _ _ => 0⟩, ⟨284, 4, .rw, fun _ _ => 0⟩, ⟨276, 8, .rw, fun _ _ => 0⟩, ⟨273, 3, .rw, fun _ _ => 0⟩, ⟨272, 1, .rw, fun _ _ => 0⟩, ⟨264, 8, .rw, fun _ _ => 0⟩, ⟨316, 4, .rw, fun _ _ => 0⟩, ⟨308, 8, .rw, fun _ _ => 0⟩, ⟨305, 3, .rw, fun _ _ => 0⟩, ⟨304, 1, .rw, fun _ _ => 0⟩, ⟨296, 8, .rw, fun _ _ => 0⟩, ⟨348, 4, .rw, fun _ _ => 0⟩, ⟨340, 8, .rw, fun _ _ => 0⟩, ⟨337, 3, .rw, fun _ _ => 0⟩, ⟨336, 1, .rw, fun _ _ => 0⟩, ⟨328, 8, .rw, fun _ _ => 0⟩, ⟨380, 4, .rw, fun _ _ => 0⟩, ⟨372, 8, .rw, fun _ _ => 0⟩, ⟨369, 3, .rw, fun _ _ => 0⟩, ⟨368, 1, .rw, fun _ _ => 0⟩, ⟨360, 8, .rw, fun _ _ => 0⟩, ⟨412, 4, .rw, fun _ _ => 0⟩, ⟨404, 8, .rw, fun _ _ => 0⟩, ⟨401, 3, .rw, fun _ _ => 0⟩, ⟨400, 1, .rw, fun _ _ => 0⟩, ⟨392, 8, .rw, fun _ _ => 0⟩, ⟨444, 4, .rw, fun _ _ => 0⟩, ⟨436, 8, .rw, fun _ _ => 0⟩, ⟨433, 3, .rw, fun _ _ => 0⟩, ⟨432, 1, .rw, fun _ _ => 0⟩, ⟨424, 8, .rw, fun _ _ => 0⟩, ⟨476, 4, .rw, fun _ _ => 0⟩, ⟨468, 8, .rw, fun _ _ => 0⟩, ⟨465, 3, .rw, fun _ _ => 0⟩, ⟨464, 1, .rw, fun _ _ => 0⟩, ⟨456, 8, .rw, fun _ _ => 0⟩, ⟨508, 4, .rw, fun _ _ => 0⟩, ⟨500, 8, .rw, fun _ _ => 0⟩, ⟨497, 3, .rw, fun _ _ => 0⟩, ⟨496, 1, .rw, fun _ _ => 0⟩, ⟨488, 8, .rw, fun _ _ => 0⟩, ⟨512, 32, .rw, fun _ _ => 0⟩]
  | .HDS_TRACE_CTRL => [⟨31, 1, .rwx, fun _ _ => 0⟩, ⟨0, 8, .rwx, fun _ _ => 0⟩]
  | .HDS_TRACE_DATA => [⟨128, 64, .ro, fun _ _ => 0⟩, ⟨80, 48, .ro, fun _ _ => 0⟩, ⟨71, 9, .ro, fun _ _ => 0⟩, ⟨32, 32, .ro, fun _ _ => 0⟩, ⟨4, 14, .ro, fun _ _ => 0⟩, ⟨0, 4, .ro, fun _ _ => 0⟩]
  | .LPM_MISS_NHt => [⟨0, 21, .rw, fun _ _ => 0⟩]
  | .LPM_CMD => [⟨255, 1, .sc, fun _ _ => 0⟩, ⟨252, 3, .rw, fun _ _ => 0⟩, ⟨251, 1, .rw, fun _ _ => 0⟩, ⟨240, 8, .rw, fun _ _ => 0⟩, ⟨224, 16, .rw, fun _ _ => 0⟩, ⟨192, 21, .rw, fun _ _ => 0⟩, ⟨178, 4, .rw, fun _ _ => 0⟩, ⟨160, 18, .rw, fun _ _ => 0⟩, ⟨0, 144, .rw, fun _ _ => 0⟩]
  | .LPM_CMD_RES => [⟨255, 1, .ro, fun _ _ => 0⟩, ⟨240, 8, .ro, fun _ _ => 0⟩, ⟨192, 21, .ro, fun _ _ => 0⟩, ⟨0, 144, .ro, fun _ _ => 0⟩]
  | .LPM_LOCKt => [⟨31, 1, .wo, fun _ _ => 0⟩, ⟨30, 1, .wo, fun _ _ => 0⟩, ⟨0, 16, .rw, fun _ _ => 0⟩]
  | .LPM_LOCK_TMO => [⟨0, 16, .rw, fun _ _ => 1000⟩]
  | .LPM_UNITS => [⟨0, 25, .ro, fun _ _ => 0⟩]
  | .LPM_PFX0 => [⟨0, 25, .ro, fun _ _ => 0⟩]
  | .LPM_PFX1 => [⟨0, 25, .ro, fun _ _ => 0⟩]
  | .LPM_ECC_ADDR => [⟨31, 1, .w1c, fun _ _ => 0⟩, ⟨18, 4, .ro, fun _ _ => 0⟩, ⟨0, 18, .ro, fun _ _ => 0⟩]
  | .LPM_STAGE_FREEk => [⟨0, 18, .ro, fun _ i => if i = 0 then 196606 else 196608⟩]
  | .LPM_MEM_ADDR => [⟨18, 4, .rwx, fun _ _ => 0⟩, ⟨0, 18, .rwx, fun _ _ => 0⟩]
  | .LPM_MEM_DATA => [⟨0, 256, .ro, fun _ _ => 0⟩]
  | .XM_TBLn_CFG => [⟨31, 1, .rw, fun _ _ => 0⟩, ⟨30, 1, .rw, fun _ _ => 0⟩, ⟨24, 5, .rw, fun _ _ => 0⟩, ⟨0, 19, .rw, fun _ _ => 0⟩]
  | .XM_TBLn_SEED => [⟨0, 32, .rw, fun _ _ => 0⟩]
  | .XM_TBLn_LRN => [⟨31, 1, .rw, fun _ _ => 0⟩, ⟨30, 1, .rw, fun _ _ => 0⟩, ⟨29, 1, .rw, fun _ _ => 1⟩, ⟨0, 16, .rw, fun _ _ => 300⟩]
  | .XM_TBLn_DATA => [⟨0, 17, .rw, fun _ _ => 0⟩]
  | .XM_CMD => [⟨255, 1, .sc, fun _ _ => 0⟩, ⟨252, 3, .rw, fun _ _ => 0⟩, ⟨249, 3, .rw, fun _ _ => 0⟩, ⟨248, 1, .rw, fun _ _ => 0⟩, ⟨232, 16, .rw, fun _ _ => 0⟩, ⟨192, 31, .rw, fun _ _ => 0⟩, ⟨160, 23, .rw, fun _ _ => 0⟩, ⟨0, 160, .rw, fun _ _ => 0⟩]
  | .XM_CMD_RES => [⟨255, 1, .ro, fun _ _ => 0⟩, ⟨254, 1, .ro, fun _ _ => 0⟩, ⟨253, 1, .ro, fun _ _ => 0⟩, ⟨251, 2, .ro, fun _ _ => 0⟩, ⟨192, 31, .ro, fun _ _ => 0⟩, ⟨160, 23, .ro, fun _ _ => 0⟩, ⟨0, 160, .ro, fun _ _ => 0⟩]
  | .XM_LOCKn => [⟨31, 1, .wo, fun _ _ => 0⟩, ⟨30, 1, .wo, fun _ _ => 0⟩, ⟨0, 16, .rw, fun _ _ => 0⟩]
  | .XM_LOCK_TMO => [⟨0, 16, .rw, fun _ _ => 1000⟩]
  | .XM_COUNTn => [⟨0, 23, .ro, fun _ _ => 0⟩]
  | .XM_STASH => [⟨0, 7, .ro, fun _ _ => 0⟩]
  | .XM_ECC_ADDR => [⟨31, 1, .w1c, fun _ _ => 0⟩, ⟨22, 1, .ro, fun _ _ => 0⟩, ⟨21, 1, .ro, fun _ _ => 0⟩, ⟨2, 19, .ro, fun _ _ => 0⟩, ⟨0, 2, .ro, fun _ _ => 0⟩]
  | .XM_INS_CFG => [⟨3, 1, .rwx, fun _ _ => 1⟩, ⟨0, 3, .rwx, fun _ _ => 4⟩]
  | .NHT_ACC => [⟨127, 1, .sc, fun _ _ => 0⟩, ⟨126, 1, .rw, fun _ _ => 0⟩, ⟨124, 2, .rw, fun _ _ => 0⟩, ⟨96, 21, .rw, fun _ _ => 0⟩, ⟨64, 16, .rw, fun _ _ => 0⟩, ⟨0, 64, .rw, fun _ _ => 0⟩]
  | .NHT_LOCK => [⟨31, 1, .wo, fun _ _ => 0⟩, ⟨30, 1, .wo, fun _ _ => 0⟩, ⟨0, 16, .rw, fun _ _ => 0⟩]
  | .NHT_LOCK_TMO => [⟨0, 16, .rw, fun _ _ => 1000⟩]
  | .NHT_ECC_ADDR => [⟨31, 1, .w1c, fun _ _ => 0⟩, ⟨21, 2, .ro, fun _ _ => 0⟩, ⟨0, 21, .ro, fun _ _ => 0⟩]
  | .LRN_CFG => [⟨16, 16, .rw, fun _ _ => 100⟩, ⟨1, 1, .rw, fun _ _ => 0⟩, ⟨0, 1, .rw, fun _ _ => 0⟩]
  | .LRN_PORT_MASKk => [⟨0, 32, .rw, fun _ _ => 4294967295⟩]
  | .LRN_FLAP => [⟨24, 8, .rw, fun _ _ => 4⟩, ⟨16, 8, .rw, fun _ _ => 10⟩, ⟨0, 16, .rw, fun _ _ => 1000⟩]
  | .LRN_STAT => [⟨16, 13, .ro, fun _ _ => 0⟩, ⟨0, 13, .ro, fun _ _ => 0⟩]
  | .LRN_LOG_STAT => [⟨0, 9, .ro, fun _ _ => 0⟩]
  | .LRN_LOG => [⟨255, 1, .ro, fun _ _ => 0⟩, ⟨252, 3, .ro, fun _ _ => 0⟩, ⟨249, 3, .ro, fun _ _ => 0⟩, ⟨243, 6, .ro, fun _ _ => 0⟩, ⟨235, 8, .ro, fun _ _ => 0⟩, ⟨229, 6, .ro, fun _ _ => 0⟩, ⟨221, 8, .ro, fun _ _ => 0⟩, ⟨160, 48, .ro, fun _ _ => 0⟩, ⟨0, 160, .ro, fun _ _ => 0⟩]
  | .TCM_SLICEk_OWNER => [⟨31, 1, .wo, fun _ _ => 0⟩, ⟨30, 1, .wo, fun _ _ => 0⟩, ⟨0, 16, .rw, fun _ _ => 0⟩]
  | .TCM_GRPAn => [⟨31, 1, .rw, fun _ _ => 0⟩, ⟨30, 1, .rw, fun _ _ => 0⟩, ⟨12, 16, .rw, fun _ _ => 0⟩, ⟨8, 4, .rw, fun _ _ => 0⟩, ⟨4, 4, .rw, fun _ _ => 0⟩, ⟨0, 4, .rw, fun _ _ => 0⟩]
  | .TCM_GRPBn => [⟨31, 1, .rw, fun _ _ => 0⟩, ⟨30, 1, .rw, fun _ _ => 0⟩, ⟨12, 16, .rw, fun _ _ => 0⟩, ⟨8, 4, .rw, fun _ _ => 0⟩, ⟨4, 4, .rw, fun _ _ => 0⟩, ⟨0, 4, .rw, fun _ _ => 0⟩]
  | .TCM_CMD => [⟨767, 1, .sc, fun _ _ => 0⟩, ⟨764, 3, .rw, fun _ _ => 0⟩, ⟨763, 1, .rw, fun _ _ => 0⟩, ⟨759, 4, .rw, fun _ _ => 0⟩, ⟨742, 17, .rw, fun _ _ => 0⟩, ⟨720, 16, .rw, fun _ _ => 0⟩, ⟨704, 16, .rw, fun _ _ => 0⟩, ⟨320, 320, .rw, fun _ _ => 0⟩, ⟨0, 320, .rw, fun _ _ => 0⟩]
  | .TCM_RD => [⟨767, 1, .ro, fun _ _ => 0⟩, ⟨766, 1, .ro, fun _ _ => 0⟩, ⟨720, 17, .ro, fun _ _ => 0⟩, ⟨704, 16, .ro, fun _ _ => 0⟩, ⟨320, 320, .ro, fun _ _ => 0⟩, ⟨0, 320, .ro, fun _ _ => 0⟩]
  | .TCM_SHADOW_ADDR => [⟨31, 1, .w1c, fun _ _ => 0⟩, ⟨13, 4, .ro, fun _ _ => 0⟩, ⟨0, 13, .ro, fun _ _ => 0⟩]
  | .TCM_SCRUB_CFG => [⟨0, 1, .rwx, fun _ _ => 1⟩]
  | .TCM_INJECT => [⟨31, 1, .sc, fun _ _ => 0⟩, ⟨30, 1, .rwx, fun _ _ => 0⟩, ⟨21, 9, .rwx, fun _ _ => 0⟩, ⟨17, 4, .rwx, fun _ _ => 0⟩, ⟨4, 13, .rwx, fun _ _ => 0⟩]
  | .BRL_REPLr => [⟨30, 2, .ro, fun _ _ => 0⟩, ⟨29, 1, .ro, fun _ _ => 0⟩]
  | .BRL_CMD => [⟨63, 1, .sc, fun _ _ => 0⟩, ⟨60, 3, .rw, fun _ _ => 0⟩, ⟨59, 1, .rw, fun _ _ => 0⟩, ⟨48, 5, .rw, fun _ _ => 0⟩, ⟨0, 24, .rw, fun _ _ => 0⟩]
  | .BRL_BANKA_STAT => [⟨31, 1, .ro, fun _ _ => 0⟩, ⟨0, 5, .ro, fun _ _ => 0⟩]
  | .BRL_BANKB_STAT => [⟨31, 1, .ro, fun _ _ => 0⟩, ⟨0, 5, .ro, fun _ _ => 0⟩]
  | .BRL_BANKA_CRC => [⟨0, 32, .ro, fun _ _ => 0⟩]
  | .BRL_BANKB_CRC => [⟨0, 32, .ro, fun _ _ => 0⟩]
  | .BRL_ECC_ADDR => [⟨31, 1, .w1c, fun _ _ => 0⟩, ⟨16, 5, .ro, fun _ _ => 0⟩, ⟨0, 16, .ro, fun _ _ => 0⟩]
  | .BRL_MEM_ADDR => [⟨16, 5, .rwx, fun _ _ => 0⟩, ⟨0, 16, .rwx, fun _ _ => 0⟩]
  | .BRL_MEM_DATA => [⟨0, 64, .ro, fun _ _ => 0⟩]
  | .ENG_CFG => [⟨0, 1, .rw, fun g _ => if g < 32 then 0 else 1⟩]
  | .ENG_STAT => [⟨16, 6, .ro, fun _ _ => 0⟩, ⟨0, 5, .ro, fun _ _ => 0⟩]
  | .ENG_IMEM_ADDR => [⟨31, 1, .rw, fun _ _ => 0⟩, ⟨16, 1, .rw, fun _ _ => 0⟩, ⟨0, 11, .rw, fun _ _ => 0⟩]
  | .ENG_IMEM_DATA => [⟨0, 128, .rw, fun _ _ => 0⟩]
  | .ENG_ECC_ADDR => [⟨31, 1, .w1c, fun _ _ => 0⟩, ⟨30, 1, .ro, fun _ _ => 0⟩, ⟨29, 1, .ro, fun _ _ => 0⟩, ⟨0, 15, .ro, fun _ _ => 0⟩]
  | .ENG_ILL_ADDR => [⟨31, 1, .w1c, fun _ _ => 0⟩, ⟨16, 1, .ro, fun _ _ => 0⟩, ⟨12, 4, .ro, fun _ _ => 0⟩, ⟨0, 11, .ro, fun _ _ => 0⟩]
  | .ENG_DISP_CFG => [⟨8, 7, .rw, fun _ _ => 64⟩, ⟨1, 1, .rw, fun _ _ => 1⟩, ⟨0, 1, .rw, fun _ _ => 1⟩]
  | .ENG_DISP_STAT => [⟨16, 14, .ro, fun _ _ => 0⟩, ⟨0, 14, .ro, fun _ _ => 0⟩]
  | .ENG_DISP_X => [⟨0, 1, .rwx, fun _ _ => 0⟩]
  | .ENG_TRACE_CTRL => [⟨31, 1, .rwx, fun _ _ => 0⟩, ⟨0, 4, .rwx, fun _ _ => 0⟩]
  | .ENG_TRACE_DATA => [⟨61, 3, .ro, fun _ _ => 0⟩, ⟨53, 8, .ro, fun _ _ => 0⟩, ⟨48, 5, .ro, fun _ _ => 0⟩, ⟨32, 16, .ro, fun _ _ => 0⟩, ⟨21, 11, .ro, fun _ _ => 0⟩, ⟨10, 11, .ro, fun _ _ => 0⟩]
  | .TLS_PORTn_CFG => [⟨31, 1, .rw, fun _ _ => 0⟩, ⟨0, 6, .rw, fun _ _ => 0⟩]
  | .EPC_CFG => [⟨0, 1, .rw, fun _ _ => 0⟩]
  | .EPC_STAT => [⟨30, 2, .ro, fun _ _ => 0⟩, ⟨28, 2, .ro, fun _ _ => 0⟩, ⟨16, 1, .ro, fun _ _ => 0⟩, ⟨0, 16, .ro, fun _ _ => 0⟩]
  | .EPC_SWITCH => [⟨127, 1, .sc, fun _ _ => 0⟩, ⟨124, 3, .rw, fun _ _ => 0⟩, ⟨96, 16, .rw, fun _ _ => 0⟩, ⟨30, 48, .rw, fun _ _ => 0⟩, ⟨0, 30, .rw, fun _ _ => 0⟩]
  | .EPC_LAST => [⟨127, 1, .ro, fun _ _ => 0⟩, ⟨126, 1, .ro, fun _ _ => 0⟩, ⟨125, 1, .ro, fun _ _ => 0⟩, ⟨96, 16, .ro, fun _ _ => 0⟩, ⟨30, 48, .ro, fun _ _ => 0⟩, ⟨0, 30, .ro, fun _ _ => 0⟩]
  | .EPC_INFLIGHTA => [⟨0, 24, .ro, fun _ _ => 0⟩]
  | .EPC_INFLIGHTB => [⟨0, 24, .ro, fun _ _ => 0⟩]
  | .EPC_DRAIN_TIME => [⟨0, 16, .ro, fun _ _ => 0⟩]
  | .EPC_X_CFG => [⟨16, 16, .rwx, fun _ _ => 100⟩, ⟨0, 1, .rwx, fun _ _ => 0⟩]
  | .MDL_CFG => [⟨16, 16, .rw, fun _ _ => 0⟩, ⟨11, 1, .rw, fun _ _ => 1⟩, ⟨0, 11, .rw, fun _ _ => 48⟩]
  | .MDL_STAT => [⟨0, 13, .ro, fun _ _ => 0⟩]
  | .CHK_POOLn_CFG => [⟨63, 1, .rw, fun _ _ => 0⟩, ⟨61, 2, .rw, fun _ _ => 0⟩, ⟨60, 1, .rw, fun _ _ => 0⟩, ⟨56, 4, .rw, fun _ _ => 0⟩, ⟨32, 22, .rw, fun _ _ => 0⟩, ⟨0, 22, .rw, fun _ _ => 0⟩]
  | .CHK_POOLn_SPILL => [⟨0, 22, .rw, fun _ _ => 0⟩]
  | .CHK_POOLn_ADMIT => [⟨0, 22, .rw, fun _ _ => 0⟩]
  | .CHK_POOLn_STAT => [⟨30, 2, .ro, fun _ _ => 3⟩, ⟨0, 22, .ro, fun _ _ => 0⟩]
  | .CHK_POOLn_MIN => [⟨0, 22, .rw, fun _ _ => 0⟩]
  | .CHK_POOLn_RETIRED => [⟨0, 22, .ro, fun _ _ => 0⟩]
  | .CHK_SRCs_CFG => [⟨28, 4, .rw, fun _ _ => 0⟩, ⟨24, 4, .rw, fun _ _ => 0⟩, ⟨16, 5, .rw, fun _ _ => 8⟩]
  | .CHK_CELL_CMD => [⟨63, 1, .sc, fun _ _ => 0⟩, ⟨60, 3, .rw, fun _ _ => 0⟩, ⟨56, 4, .rw, fun _ _ => 0⟩, ⟨44, 12, .rw, fun _ _ => 0⟩, ⟨0, 22, .rw, fun _ _ => 0⟩]
  | .CHK_CELL_RES => [⟨0, 64, .ro, fun _ _ => 0⟩]
  | .CHK_BADFREE_LOG => [⟨63, 1, .ro, fun _ _ => 0⟩, ⟨61, 2, .ro, fun _ _ => 0⟩, ⟨57, 4, .ro, fun _ _ => 0⟩, ⟨44, 12, .ro, fun _ _ => 0⟩, ⟨32, 12, .ro, fun _ _ => 0⟩, ⟨0, 22, .ro, fun _ _ => 0⟩]
  | .CHK_MARCH_CTRL => [⟨31, 1, .sc, fun _ _ => 0⟩, ⟨30, 1, .rw, fun _ _ => 0⟩, ⟨29, 1, .rw, fun _ _ => 1⟩]
  | .CHK_MARCH_STAT => [⟨30, 2, .ro, fun _ _ => 0⟩, ⟨0, 16, .ro, fun _ _ => 0⟩]
  | .CHK_MARCH_ERR => [⟨32, 22, .ro, fun _ _ => 0⟩, ⟨0, 32, .ro, fun _ _ => 0⟩]
  | .CHK_ECC_ADDR => [⟨31, 1, .w1c, fun _ _ => 0⟩, ⟨30, 1, .ro, fun _ _ => 0⟩, ⟨0, 22, .ro, fun _ _ => 0⟩]
  | .CHK_ALLOC_X => [⟨0, 1, .rwx, fun _ _ => 0⟩]
  | .CHK_INJECT => [⟨63, 1, .sc, fun _ _ => 0⟩, ⟨62, 1, .rwx, fun _ _ => 0⟩, ⟨48, 10, .rwx, fun _ _ => 0⟩, ⟨0, 22, .rwx, fun _ _ => 0⟩]
  | .D2D_CFG => [⟨16, 16, .rw, fun _ _ => 60⟩, ⟨0, 4, .rw, fun _ _ => 8⟩]
  | .D2D_STAT => [⟨24, 8, .ro, fun _ _ => 64⟩, ⟨16, 8, .ro, fun _ _ => 64⟩, ⟨1, 1, .ro, fun _ _ => 0⟩, ⟨0, 1, .ro, fun _ _ => 0⟩]
  | .D2D_X_CAL => [⟨0, 16, .rwx, fun _ _ => 1⟩]
  | .HBM_ID => [⟨29, 3, .ro, fun _ _ => 0⟩, ⟨27, 2, .ro, fun _ _ => 0⟩, ⟨20, 7, .ro, fun _ _ => 0⟩, ⟨0, 20, .ro, fun _ _ => 0⟩]
  | .HBM_FREQ => [⟨31, 1, .ro, fun _ _ => 0⟩, ⟨16, 3, .ro, fun _ _ => 2⟩, ⟨0, 3, .rw, fun _ _ => 2⟩]
  | .HBM_TRAIN_STAT => [⟨28, 4, .ro, fun _ _ => 0⟩, ⟨24, 4, .ro, fun _ _ => 0⟩, ⟨16, 8, .ro, fun _ _ => 0⟩]
  | .HBM_RETRAIN => [⟨16, 16, .rw, fun _ _ => 1000⟩, ⟨0, 8, .rw, fun _ _ => 10⟩]
  | .HBM_TEMP => [⟨31, 1, .ro, fun _ _ => 0⟩, ⟨30, 1, .ro, fun _ _ => 0⟩, ⟨8, 8, .rw, fun _ _ => 0⟩, ⟨0, 8, .ro, fun _ _ => 0⟩]
  | .HBM_SCRUB => [⟨31, 1, .rw, fun _ _ => 1⟩, ⟨0, 8, .rw, fun _ _ => 1⟩]
  | .HBM_ERR_ADDR => [⟨63, 1, .w1c, fun _ _ => 0⟩, ⟨61, 2, .ro, fun _ _ => 0⟩, ⟨0, 30, .ro, fun _ _ => 0⟩]
  | .HBM_PCk_STAT => [⟨30, 2, .ro, fun _ _ => 2⟩, ⟨23, 6, .ro, fun _ _ => 0⟩, ⟨0, 23, .ro, fun _ _ => 0⟩]
  | .HBM_FREE_TOTAL => [⟨0, 30, .ro, fun _ _ => 0⟩]
  | .HBM_X_WQ => [⟨8, 8, .rwx, fun _ _ => 48⟩, ⟨0, 8, .rwx, fun _ _ => 16⟩]
  | .HBM_X_SLOW => [⟨16, 16, .rwx, fun _ _ => 800⟩, ⟨8, 8, .rwx, fun _ _ => 10⟩, ⟨0, 8, .rwx, fun _ _ => 4⟩]
  | .HBM_X_READ_TMO => [⟨0, 16, .rwx, fun _ _ => 10⟩]
  | .HBM_X_INJECT => [⟨63, 1, .sc, fun _ _ => 0⟩, ⟨32, 5, .rwx, fun _ _ => 0⟩, ⟨0, 12, .rwx, fun _ _ => 0⟩]
  | .TMS_CFG => [⟨16, 16, .rw, fun _ _ => 32⟩, ⟨0, 1, .rw, fun _ _ => 1⟩]
  | .TMS_PORTn_CFG => [⟨16, 4, .rw, fun _ n => if n ≤ 127 then n / 8 else if n = 128 then 14 else 15⟩, ⟨8, 8, .rw, fun _ _ => 24⟩, ⟨0, 1, .rw, fun _ _ => 0⟩]
  | .TMS_PORTn_EQ => [⟨0, 19, .rw, fun _ _ => 0⟩]
  | .TMS_MIRk => [⟨48, 16, .rw, fun _ _ => 0⟩, ⟨47, 1, .rw, fun _ _ => 0⟩, ⟨0, 19, .rw, fun _ _ => 0⟩]
  | .TMS_MIRk_OWNER => [⟨31, 1, .wo, fun _ _ => 0⟩, ⟨30, 1, .wo, fun _ _ => 0⟩, ⟨0, 16, .rw, fun _ _ => 0⟩]
  | .TMS_X_TIE => [⟨1, 1, .rwx, fun _ _ => 0⟩, ⟨0, 1, .rwx, fun _ _ => 0⟩]
  | .TMS_Q_CMD => [⟨127, 1, .sc, fun _ _ => 0⟩, ⟨124, 3, .rw, fun _ _ => 0⟩, ⟨104, 19, .rw, fun _ _ => 0⟩, ⟨103, 1, .rw, fun _ _ => 0⟩, ⟨94, 9, .rw, fun _ _ => 0⟩, ⟨78, 16, .rw, fun _ _ => 0⟩, ⟨76, 2, .rw, fun _ _ => 0⟩, ⟨73, 3, .rw, fun _ _ => 0⟩, ⟨57, 16, .rw, fun _ _ => 0⟩]
  | .TMS_Q_RES => [⟨255, 1, .ro, fun _ _ => 0⟩, ⟨254, 1, .ro, fun _ _ => 0⟩, ⟨192, 32, .ro, fun _ _ => 0⟩, ⟨160, 32, .ro, fun _ _ => 0⟩, ⟨128, 32, .ro, fun _ _ => 0⟩, ⟨96, 32, .ro, fun _ _ => 0⟩, ⟨64, 32, .ro, fun _ _ => 0⟩, ⟨16, 48, .ro, fun _ _ => 0⟩]
  | .TMS_QPROFp => [⟨255, 1, .rw, fun _ _ => 0⟩, ⟨192, 32, .rw, fun _ _ => 0⟩, ⟨160, 24, .rw, fun _ _ => 0⟩, ⟨128, 32, .rw, fun _ _ => 0⟩, ⟨96, 24, .rw, fun _ _ => 0⟩, ⟨95, 1, .rw, fun _ _ => 0⟩, ⟨88, 4, .rw, fun _ _ => 0⟩, ⟨79, 1, .rw, fun _ _ => 0⟩, ⟨64, 6, .rw, fun _ _ => 0⟩, ⟨32, 24, .rw, fun _ _ => 0⟩, ⟨0, 24, .rw, fun _ _ => 0⟩]
  | .TMS_NODE_CMD => [⟨255, 1, .sc, fun _ _ => 0⟩, ⟨252, 3, .rw, fun _ _ => 0⟩, ⟨250, 2, .rw, fun _ _ => 0⟩, ⟨249, 1, .rw, fun _ _ => 0⟩, ⟨233, 16, .rw, fun _ _ => 0⟩, ⟨217, 16, .rw, fun _ _ => 0⟩, ⟨215, 2, .rw, fun _ _ => 0⟩, ⟨199, 16, .rw, fun _ _ => 0⟩, ⟨160, 32, .rw, fun _ _ => 0⟩, ⟨128, 32, .rw, fun _ _ => 0⟩, ⟨96, 24, .rw, fun _ _ => 0⟩, ⟨64, 24, .rw, fun _ _ => 0⟩]
  | .TMS_NODE_RES => [⟨255, 1, .ro, fun _ _ => 0⟩, ⟨254, 1, .ro, fun _ _ => 0⟩, ⟨253, 1, .ro, fun _ _ => 0⟩, ⟨192, 32, .ro, fun _ _ => 0⟩, ⟨160, 32, .ro, fun _ _ => 0⟩, ⟨128, 32, .ro, fun _ _ => 0⟩, ⟨80, 48, .ro, fun _ _ => 0⟩]
  | .TMS_WREDk => [⟨224, 4, .rw, fun _ _ => 0⟩, ⟨208, 8, .rw, fun _ _ => 0⟩, ⟨200, 8, .rw, fun _ _ => 0⟩, ⟨192, 8, .rw, fun _ _ => 0⟩, ⟨160, 24, .rw, fun _ _ => 1⟩, ⟨128, 24, .rw, fun _ _ => 0⟩, ⟨96, 24, .rw, fun _ _ => 1⟩, ⟨64, 24, .rw, fun _ _ => 0⟩, ⟨32, 24, .rw, fun _ _ => 1⟩, ⟨0, 24, .rw, fun _ _ => 0⟩]
  | .TMS_CR_CFG => [⟨16, 16, .rw, fun _ _ => 20⟩, ⟨0, 2, .rw, fun _ _ => 1⟩]
  | .TMS_CR_CLASSc => [⟨16, 2, .rw, fun _ _ => 0⟩, ⟨0, 16, .rw, fun _ _ => 4096⟩]
  | .TMS_CR_PORTn => [⟨24, 6, .rw, fun _ _ => 3⟩, ⟨0, 24, .rw, fun _ _ => 4096⟩]
  | .MTR_CMD => [⟨63, 1, .sc, fun _ _ => 0⟩, ⟨60, 3, .rw, fun _ _ => 0⟩, ⟨59, 1, .rw, fun _ _ => 0⟩, ⟨49, 10, .rw, fun _ _ => 0⟩, ⟨0, 19, .rw, fun _ _ => 0⟩]
  | .MTR_RES => [⟨127, 1, .ro, fun _ _ => 0⟩, ⟨96, 10, .ro, fun _ _ => 0⟩, ⟨32, 32, .ro, fun _ _ => 0⟩, ⟨0, 32, .ro, fun _ _ => 0⟩]
  | .MTR_PROFp => [⟨127, 1, .rw, fun _ _ => 0⟩, ⟨126, 1, .rw, fun _ _ => 0⟩, ⟨125, 1, .rw, fun _ _ => 0⟩, ⟨124, 1, .rw, fun _ _ => 1⟩, ⟨112, 8, .rw, fun _ _ => 0⟩, ⟨88, 24, .rw, fun _ _ => 0⟩, ⟨64, 24, .rw, fun _ _ => 0⟩, ⟨32, 32, .rw, fun _ _ => 0⟩, ⟨0, 32, .rw, fun _ _ => 0⟩]
  | .SPN_TIME => [⟨48, 48, .ro, fun _ _ => 0⟩, ⟨16, 30, .ro, fun _ _ => 0⟩, ⟨0, 16, .ro, fun _ _ => 0⟩]
  | .SPN_ADJ => [⟨127, 1, .sc, fun _ _ => 0⟩, ⟨124, 3, .rw, fun _ _ => 0⟩, ⟨123, 1, .rw, fun _ _ => 0⟩, ⟨64, 48, .rw, fun _ _ => 0⟩, ⟨32, 30, .rw, fun _ _ => 0⟩, ⟨16, 16, .rw, fun _ _ => 0⟩]
  | .SPN_RATE => [⟨0, 32, .rw, fun _ _ => 0⟩]
  | .SPN_CFG => [⟨16, 12, .rw, fun _ _ => 100⟩, ⟨12, 4, .rw, fun _ _ => 3⟩, ⟨8, 4, .rw, fun _ _ => 1⟩, ⟨2, 2, .rw, fun _ _ => 0⟩, ⟨0, 2, .rw, fun _ _ => 0⟩]
  | .SPN_SERVO => [⟨16, 8, .rw, fun _ _ => 4⟩, ⟨0, 16, .rw, fun _ _ => 1000⟩]
  | .SPN_STAT => [⟨30, 2, .ro, fun _ _ => 0⟩]
  | .SPN_ERR => [⟨0, 32, .ro, fun _ _ => 0⟩]
  | .SPN_PPS_IN_CORR => [⟨0, 32, .rw, fun _ _ => 0⟩]
  | .SPN_SYNC_IN_CORR => [⟨0, 32, .rw, fun _ _ => 0⟩]
  | .SPN_PPS_OUT_CORR => [⟨0, 32, .rw, fun _ _ => 0⟩]
  | .SPN_SYNC_OUT_CORR => [⟨0, 32, .rw, fun _ _ => 0⟩]
  | .SPN_PPS_CAP => [⟨48, 48, .ro, fun _ _ => 0⟩, ⟨16, 30, .ro, fun _ _ => 0⟩, ⟨0, 16, .ro, fun _ _ => 0⟩]
  | .SPN_PPS_OUT => [⟨16, 16, .rw, fun _ _ => 0⟩, ⟨15, 1, .rw, fun _ _ => 0⟩, ⟨0, 9, .rw, fun _ _ => 100⟩]
  | .SPN_SYNC_OUT_OWNER => [⟨31, 1, .wo, fun _ _ => 0⟩, ⟨30, 1, .wo, fun _ _ => 0⟩, ⟨0, 16, .rw, fun _ _ => 0⟩]
  | .SPN_ACT_FAIL => [⟨31, 1, .w1c, fun _ _ => 0⟩, ⟨28, 3, .ro, fun _ _ => 0⟩, ⟨0, 12, .ro, fun _ _ => 0⟩]
  | .SPN_TIMER_FIFO => [⟨31, 1, .ro, fun _ _ => 0⟩, ⟨0, 12, .ro, fun _ _ => 0⟩]
  | .SPN_ACT_CMD => [⟨255, 1, .sc, fun _ _ => 0⟩, ⟨252, 3, .rw, fun _ _ => 0⟩, ⟨240, 12, .rw, fun _ _ => 0⟩, ⟨224, 16, .rw, fun _ _ => 0⟩, ⟨221, 3, .rw, fun _ _ => 0⟩, ⟨160, 48, .rw, fun _ _ => 0⟩, ⟨128, 30, .rw, fun _ _ => 0⟩, ⟨96, 30, .rw, fun _ _ => 0⟩, ⟨68, 28, .rw, fun _ _ => 0⟩, ⟨32, 32, .rw, fun _ _ => 0⟩, ⟨0, 2, .rw, fun _ _ => 0⟩]
  | .SPN_ACT_RES => [⟨255, 1, .ro, fun _ _ => 0⟩, ⟨0, 252, .ro, fun _ _ => 0⟩]
  | .SPN_GCL_ADDR => [⟨16, 7, .rw, fun _ _ => 0⟩, ⟨10, 1, .rw, fun _ _ => 0⟩, ⟨0, 10, .rw, fun _ _ => 0⟩]
  | .SPN_GCL_DATA => [⟨0, 64, .rw, fun _ _ => 0⟩]
  | .SPN_GATEn_ADMIN => [⟨127, 1, .sc, fun _ _ => 0⟩, ⟨125, 2, .rw, fun _ _ => 0⟩, ⟨114, 11, .rw, fun _ _ => 0⟩, ⟨78, 30, .rw, fun _ _ => 0⟩, ⟨30, 48, .rw, fun _ _ => 0⟩, ⟨0, 30, .rw, fun _ _ => 0⟩]
  | .SPN_GATEn_STAT => [⟨31, 1, .ro, fun _ _ => 0⟩, ⟨30, 1, .ro, fun _ _ => 0⟩, ⟨29, 1, .ro, fun _ _ => 0⟩, ⟨21, 8, .ro, fun _ _ => 255⟩, ⟨11, 10, .ro, fun _ _ => 0⟩]
  | .SPN_GATEn_ADJ_BASE => [⟨95, 1, .ro, fun _ _ => 0⟩, ⟨30, 48, .ro, fun _ _ => 0⟩, ⟨0, 30, .ro, fun _ _ => 0⟩]
  | .SPN_X_CFG => [⟨1, 1, .rwx, fun _ _ => 0⟩, ⟨0, 1, .rwx, fun _ _ => 0⟩]
  | .FAB_LANE_EN => [⟨0, 8, .rw, fun _ _ => 0⟩]
  | .FAB_POLARITY => [⟨8, 8, .rw, fun _ _ => 0⟩, ⟨0, 8, .rw, fun _ _ => 0⟩]
  | .FAB_LINKk_STAT => [⟨29, 3, .ro, fun _ _ => 0⟩, ⟨28, 1, .ro, fun _ _ => 0⟩, ⟨21, 7, .ro, fun _ _ => 0⟩, ⟨20, 1, .ro, fun _ _ => 0⟩, ⟨12, 8, .ro, fun _ _ => 0⟩, ⟨0, 10, .ro, fun _ _ => 0⟩]
  | .FAB_LINKk_FAR => [⟨31, 1, .ro, fun _ _ => 0⟩, ⟨30, 1, .ro, fun _ _ => 0⟩, ⟨16, 8, .ro, fun _ _ => 0⟩, ⟨8, 8, .ro, fun _ _ => 0⟩]
  | .FAB_LINKk_REACH => [⟨0, 64, .ro, fun _ _ => 0⟩]
  | .FAB_LINKk_LAG => [⟨16, 16, .ro, fun _ _ => 0⟩, ⟨0, 16, .ro, fun _ _ => 0⟩]
  | .FCT_CFG => [⟨1, 1, .rw, fun _ _ => 1⟩, ⟨0, 1, .rw, fun _ _ => 0⟩]
  | .FCT_MGR_CFG => [⟨16, 16, .rw, fun _ _ => 1000⟩]
  | .FCT_MGR_CMD => [⟨31, 1, .sc, fun _ _ => 0⟩]
  | .FCT_MGR_STAT => [⟨30, 2, .ro, fun _ _ => 0⟩, ⟨29, 1, .ro, fun _ _ => 0⟩, ⟨23, 6, .ro, fun _ _ => 0⟩, ⟨22, 1, .ro, fun _ _ => 0⟩, ⟨16, 6, .ro, fun _ _ => 0⟩, ⟨0, 16, .ro, fun _ _ => 0⟩]
  | .FCT_MEMBERS => [⟨0, 64, .ro, fun _ _ => 0⟩]
  | .FCT_REACH => [⟨0, 64, .ro, fun _ _ => 0⟩]
  | .FCT_SPARE => [⟨0, 4, .ro, fun _ _ => 0⟩]
  | .FCT_X_LINK => [⟨20, 12, .rwx, fun _ _ => 1500⟩, ⟨16, 4, .rwx, fun _ _ => 3⟩, ⟨0, 16, .rwx, fun _ _ => 8000⟩]
  | .FCT_X_LAG => [⟨16, 16, .rwx, fun _ _ => 1000⟩, ⟨0, 16, .rwx, fun _ _ => 1000⟩]
  | .FCT_X_LAG1 => [⟨16, 16, .rwx, fun _ _ => 100⟩, ⟨8, 8, .rwx, fun _ _ => 10⟩, ⟨0, 8, .rwx, fun _ _ => 100⟩]
  | .SVC_DIVERTk => [⟨31, 1, .rw, fun _ _ => 0⟩, ⟨0, 6, .rw, fun _ _ => 0⟩]
  | .SVC_RING_BASE => [⟨4, 60, .rw, fun _ _ => 0⟩]
  | .SVC_RING_CFG => [⟨0, 5, .rw, fun _ _ => 8⟩]
  | .SVC_RING_HEAD => [⟨0, 16, .ro, fun _ _ => 0⟩]
  | .SVC_RING_TAIL => [⟨0, 16, .rw, fun _ _ => 0⟩]
  | .SVC_FW_CMD => [⟨31, 1, .sc, fun _ _ => 0⟩, ⟨30, 1, .rw, fun _ _ => 0⟩, ⟨29, 1, .rw, fun _ _ => 0⟩]
  | .SVC_FW_STAT => [⟨30, 2, .ro, fun _ _ => 0⟩, ⟨28, 2, .ro, fun _ _ => 0⟩, ⟨26, 2, .ro, fun _ _ => 0⟩, ⟨25, 1, .ro, fun _ _ => 0⟩, ⟨0, 16, .ro, fun _ _ => 0⟩]
  | .SVC_WHEEL_CMD => [⟨63, 1, .sc, fun _ _ => 0⟩, ⟨62, 1, .rw, fun _ _ => 0⟩, ⟨32, 16, .rw, fun _ _ => 0⟩, ⟨16, 16, .rw, fun _ _ => 0⟩, ⟨0, 16, .rw, fun _ _ => 0⟩]
  | .SVC_WHEEL_FREE => [⟨0, 17, .ro, fun _ _ => 65536⟩]
  | .SVC_MBOX_CMD => [⟨511, 1, .sc, fun _ _ => 0⟩, ⟨504, 7, .rw, fun _ _ => 0⟩, ⟨0, 504, .rw, fun _ _ => 0⟩]
  | .SVC_MBOX_RES => [⟨504, 8, .ro, fun _ _ => 0⟩, ⟨0, 504, .ro, fun _ _ => 0⟩]
  | .HIF_LINK => [⟨11, 1, .ro, fun _ _ => 0⟩, ⟨10, 1, .ro, fun _ _ => 0⟩, ⟨8, 2, .ro, fun _ _ => 0⟩, ⟨4, 4, .ro, fun _ _ => 0⟩, ⟨0, 2, .ro, fun _ _ => 0⟩]
  | .HIF_RINGn_BASE => [⟨6, 58, .rw, fun _ _ => 0⟩]
  | .HIF_RINGn_CFG => [⟨31, 1, .rw, fun _ _ => 0⟩, ⟨24, 5, .rw, fun _ _ => 10⟩, ⟨20, 4, .rw, fun _ _ => 11⟩, ⟨19, 1, .rw, fun _ _ => 0⟩, ⟨0, 16, .rw, fun _ _ => 1000⟩]
  | .HIF_RINGn_TAIL => [⟨0, 16, .rw, fun _ _ => 0⟩]
  | .HIF_RINGn_HEAD => [⟨0, 16, .ro, fun _ _ => 0⟩]
  | .HIF_RINGn_STAT => [⟨30, 2, .ro, fun _ _ => 0⟩, ⟨0, 8, .ro, fun _ _ => 0⟩]
  | .HIF_CQn_BASE => [⟨6, 58, .rw, fun _ _ => 0⟩]
  | .HIF_CQn_CFG => [⟨31, 1, .rw, fun _ _ => 0⟩, ⟨24, 5, .rw, fun _ _ => 10⟩, ⟨0, 9, .rw, fun _ _ => 0⟩]
  | .HIF_CQn_MOD => [⟨16, 16, .rw, fun _ _ => 100⟩, ⟨8, 8, .rw, fun _ _ => 16⟩, ⟨0, 8, .rw, fun _ _ => 8⟩]
  | .HIF_CQn_HEAD => [⟨31, 1, .wo, fun _ _ => 0⟩, ⟨0, 16, .rw, fun _ _ => 0⟩]
  | .HIF_CQn_TAIL => [⟨31, 1, .ro, fun _ _ => 1⟩, ⟨0, 16, .ro, fun _ _ => 0⟩]
  | .HIF_CQn_STAT => [⟨31, 1, .ro, fun _ _ => 1⟩, ⟨0, 16, .ro, fun _ _ => 0⟩]
  | .MGT_CFG => [⟨0, 1, .rw, fun _ _ => 1⟩]
  | .MGT_STAT => [⟨31, 1, .ro, fun _ _ => 0⟩, ⟨24, 7, .ro, fun _ _ => 0⟩, ⟨17, 7, .ro, fun _ _ => 0x60⟩, ⟨16, 1, .ro, fun _ _ => 0⟩, ⟨8, 8, .ro, fun _ _ => 0⟩]
  | .MGT_RST_REQ => [⟨0, 8, .wo, fun _ _ => 0⟩]
  | .EVT_GRPg_CFG => [⟨31, 1, .rw, fun _ _ => 0⟩, ⟨30, 1, .rw, fun _ _ => 0⟩, ⟨29, 1, .rw, fun _ _ => 0⟩, ⟨16, 8, .rw, fun _ _ => 0⟩, ⟨0, 9, .rw, fun _ _ => 0⟩]
  | .EVT_GRP_ACTIVE => [⟨0, 64, .ro, fun _ _ => 0⟩]
  | .EVT_GRP_RAISED => [⟨0, 64, .ro, fun _ _ => 0⟩]
  | .EVT_EOI => [⟨0, 6, .wo, fun _ _ => 0⟩]
  | .EVT_QUERY => [⟨31, 1, .ro, fun _ _ => 0⟩, ⟨16, 12, .ro, fun _ _ => 0⟩, ⟨0, 6, .rw, fun _ _ => 0⟩]
  | .EVT_ALERT => [⟨16, 16, .rw, fun _ _ => 0⟩, ⟨0, 1, .rw, fun _ _ => 0⟩]
  | .EVT_VEC_HELDw => [⟨0, 32, .ro, fun _ _ => 0⟩]
  | .AON_CFG => [⟨0, 1, .rw, fun _ _ => 1⟩]
  | .AON_STAT => [⟨31, 1, .ro, fun _ _ => 0⟩, ⟨30, 1, .ro, fun _ _ => 0⟩, ⟨0, 6, .ro, fun _ _ => 0⟩]
  | .AON_WATCHk => [⟨31, 1, .rw, fun _ _ => 0⟩, ⟨0, 9, .rw, fun _ _ => 0⟩]
  | .CNT_ACC => [⟨255, 1, .sc, fun _ _ => 0⟩, ⟨253, 2, .rw, fun _ _ => 0⟩, ⟨224, 21, .rw, fun _ _ => 0⟩, ⟨64, 64, .rw, fun _ _ => 0⟩, ⟨0, 64, .rw, fun _ _ => 0⟩]
  | .CNT_ACC_RES => [⟨64, 64, .ro, fun _ _ => 0⟩, ⟨0, 64, .ro, fun _ _ => 0⟩]
  | .CNT_CFG => [⟨8, 8, .rw, fun _ _ => 0⟩, ⟨0, 8, .rw, fun _ _ => 0⟩]
  | .CNT_SNAP_CFG => [⟨127, 1, .rw, fun _ _ => 0⟩, ⟨126, 1, .rw, fun _ _ => 0⟩, ⟨86, 21, .rw, fun _ _ => 0⟩, ⟨64, 22, .rw, fun _ _ => 0⟩, ⟨32, 21, .rw, fun _ _ => 0⟩, ⟨0, 21, .rw, fun _ _ => 0⟩]
  | .CNT_SNAP_CMD => [⟨31, 1, .sc, fun _ _ => 0⟩, ⟨0, 2, .rw, fun _ _ => 0⟩]
  | .CNT_SNAP_STAT => [⟨126, 2, .ro, fun _ _ => 0⟩, ⟨124, 2, .ro, fun _ _ => 0⟩, ⟨96, 16, .ro, fun _ _ => 0⟩, ⟨30, 48, .ro, fun _ _ => 0⟩, ⟨0, 30, .ro, fun _ _ => 0⟩]
  | .CNT_ECC_ADDR => [⟨31, 1, .w1c, fun _ _ => 0⟩, ⟨21, 1, .ro, fun _ _ => 0⟩, ⟨0, 21, .ro, fun _ _ => 0⟩]
  | .HWD_STAT => [⟨30, 2, .ro, fun _ _ => 0⟩, ⟨29, 1, .ro, fun _ _ => 0⟩, ⟨10, 10, .ro, fun _ _ => 577⟩, ⟨0, 10, .ro, fun _ _ => 0⟩]
  | .HWD_UTC => [⟨0, 64, .rw, fun _ _ => 0⟩]
  | .HWD_WIN_ADDR => [⟨0, 22, .rw, fun _ _ => 0⟩]
  | .HWD_WIN_DATA => [⟨0, 64, .rw, fun _ _ => 0⟩]
  | .HWD_PTR => [⟨16, 10, .ro, fun _ _ => 0⟩, ⟨0, 13, .ro, fun _ _ => 0⟩]
  | .HWD_PTR1 => [⟨0, 13, .ro, fun _ _ => 0⟩]
  | .HWD_AGE_ALARM => [⟨0, 16, .rw, fun _ _ => 30000⟩]
  | .HWD_FLUSH => [⟨31, 1, .sc, fun _ _ => 0⟩]
  | .HWD_TOTALS => [⟨0, 64, .ro, fun _ _ => 0⟩]
  | .MEM_CFG => [⟨0, 16, .rw, fun _ _ => 10⟩]
  | .MEM_GRANTr => [⟨31, 1, .ro, fun _ _ => 0⟩, ⟨30, 1, .ro, fun _ _ => 0⟩, ⟨16, 3, .wo, fun _ _ => 0⟩, ⟨8, 3, .rw, fun _ _ => 0⟩, ⟨0, 3, .rw, fun _ r => if r ≤ 63 then 1 else 0⟩]
  | .MEM_TEST_CTRL => [⟨31, 1, .sc, fun _ _ => 0⟩, ⟨8, 2, .rw, fun _ _ => 0⟩, ⟨0, 7, .rw, fun _ _ => 0⟩]
  | .MEM_TEST_STAT => [⟨30, 2, .ro, fun _ _ => 0⟩, ⟨0, 12, .ro, fun _ _ => 0⟩]
  | .MEM_TEST_ERR => [⟨57, 7, .ro, fun _ _ => 0⟩, ⟨37, 15, .ro, fun _ _ => 0⟩, ⟨0, 32, .ro, fun _ _ => 0⟩]
  | .VLT_STAT => [⟨30, 2, .ro, fun _ _ => 0⟩, ⟨29, 1, .ro, fun _ _ => 0⟩, ⟨28, 1, .ro, fun _ _ => 0⟩, ⟨0, 15, .ro, fun _ _ => 0⟩]
  | .VLT_ADDR => [⟨3, 61, .rw, fun _ _ => 0⟩]
  | .VLT_CMD => [⟨31, 1, .sc, fun _ _ => 0⟩, ⟨29, 2, .rw, fun _ _ => 0⟩, ⟨28, 1, .rw, fun _ _ => 0⟩, ⟨0, 15, .rw, fun _ _ => 0⟩]
  | .VLT_RES => [⟨24, 8, .ro, fun _ _ => 0⟩, ⟨16, 8, .ro, fun _ _ => 0⟩, ⟨0, 15, .ro, fun _ _ => 0⟩]
  | .VLT_LC => [⟨31, 1, .sc, fun _ _ => 0⟩, ⟨16, 2, .rwx, fun _ _ => 0⟩, ⟨0, 16, .wo, fun _ _ => 0⟩]
  | .GLB_ID => [⟨16, 16, .ro, fun _ _ => 10240⟩, ⟨8, 8, .ro, fun _ _ => 1⟩, ⟨0, 8, .ro, fun _ _ => 1⟩]
  | .GLB_SERIAL => [⟨0, 64, .ro, fun _ _ => 0⟩]
  | .GLB_STRAP => [⟨8, 6, .ro, fun _ _ => 0⟩, ⟨4, 3, .ro, fun _ _ => 0⟩, ⟨0, 1, .ro, fun _ _ => 0⟩]
  | .GLB_BOOT => [⟨28, 4, .ro, fun _ _ => 0⟩, ⟨8, 6, .ro, fun _ _ => 0⟩]
  | .GLB_RST => [⟨16, 16, .wo, fun _ _ => 0⟩, ⟨0, 2, .wo, fun _ _ => 0⟩]
  | .GLB_RST_CAUSE => [⟨30, 2, .ro, fun _ _ => 0⟩, ⟨28, 2, .ro, fun _ _ => 0⟩, ⟨27, 1, .w1c, fun _ _ => 0⟩]
  | .GLB_BAD_ACCESS => [⟨0, 32, .ro, fun _ _ => 0⟩]
  | .GLB_BAD_ADDR => [⟨31, 1, .w1c, fun _ _ => 0⟩, ⟨0, 28, .ro, fun _ _ => 0⟩]
  | .GLB_TEMP => [⟨8, 8, .ro, fun _ _ => 0⟩, ⟨0, 8, .ro, fun _ _ => 0⟩]
  | .GLB_PWR_TOTAL => [⟨24, 8, .ro, fun _ _ => 0⟩, ⟨0, 24, .ro, fun _ _ => 0⟩]
  | .GLB_PWR_RAILk => [⟨0, 24, .ro, fun _ _ => 0⟩]
  | .GLB_PWR_PEAK => [⟨0, 24, .rw, fun _ _ => 0⟩]
  | .CLK_REF_STAT => [⟨9, 1, .ro, fun _ _ => 0⟩, ⟨8, 1, .ro, fun _ _ => 0⟩, ⟨4, 4, .ro, fun _ _ => 0⟩, ⟨0, 4, .ro, fun _ _ => 0⟩]
  | .CLK_ISLn => [⟨31, 1, .rw, fun _ _ => 0⟩, ⟨8, 12, .ro, fun _ n => islandMHz n⟩, ⟨0, 4, .ro, fun _ _ => 0⟩]
  | .CLK_X_ISLn => [⟨0, 1, .rwx, fun _ _ => 0⟩]

def LPG_PORTn_CFG.MAX_FRAME : Fld := ⟨.LPG_PORTn_CFG, 16, 14⟩
def LPG_PORTn_CFG.DOWN_DISCARD : Fld := ⟨.LPG_PORTn_CFG, 7, 1⟩
def LPG_PORTn_CFG.LT_EN : Fld := ⟨.LPG_PORTn_CFG, 6, 1⟩
def LPG_PORTn_CFG.AN_EN : Fld := ⟨.LPG_PORTn_CFG, 5, 1⟩
def LPG_PORTn_CFG.MEDIA : Fld := ⟨.LPG_PORTn_CFG, 3, 2⟩
def LPG_PORTn_CFG.SPEED200 : Fld := ⟨.LPG_PORTn_CFG, 2, 1⟩
def LPG_PORTn_CFG.EN : Fld := ⟨.LPG_PORTn_CFG, 0, 1⟩
def LPG_PORTn_STAT.PREEMPT_ACTIVE : Fld := ⟨.LPG_PORTn_STAT, 9, 1⟩
def LPG_PORTn_STAT.HI_SER : Fld := ⟨.LPG_PORTn_STAT, 8, 1⟩
def LPG_PORTn_STAT.AN_DONE : Fld := ⟨.LPG_PORTn_STAT, 7, 1⟩
def LPG_PORTn_STAT.REMOTE_FAULT : Fld := ⟨.LPG_PORTn_STAT, 6, 1⟩
def LPG_PORTn_STAT.LOCAL_FAULT : Fld := ⟨.LPG_PORTn_STAT, 5, 1⟩
def LPG_PORTn_STAT.LINK_UP : Fld := ⟨.LPG_PORTn_STAT, 4, 1⟩
def LPG_PORTn_STAT.LINK_STATE : Fld := ⟨.LPG_PORTn_STAT, 0, 3⟩
def LPG_PORTn_TS_ING_CORR.CORR : Fld := ⟨.LPG_PORTn_TS_ING_CORR, 0, 32⟩
def LPG_PORTn_TS_EGR_CORR.CORR : Fld := ⟨.LPG_PORTn_TS_EGR_CORR, 0, 32⟩
def LPG_PORTn_PREEMPT.ADD_FRAG : Fld := ⟨.LPG_PORTn_PREEMPT, 18, 2⟩
def LPG_PORTn_PREEMPT.VERIFY_TIME : Fld := ⟨.LPG_PORTn_PREEMPT, 10, 8⟩
def LPG_PORTn_PREEMPT.VERIFY_EN : Fld := ⟨.LPG_PORTn_PREEMPT, 9, 1⟩
def LPG_PORTn_PREEMPT.EN : Fld := ⟨.LPG_PORTn_PREEMPT, 8, 1⟩
def LPG_PORTn_PREEMPT.PMASK : Fld := ⟨.LPG_PORTn_PREEMPT, 0, 8⟩
def LPG_PORTn_MSEC.CONF_OFS : Fld := ⟨.LPG_PORTn_MSEC, 7, 2⟩
def LPG_PORTn_MSEC.INCLUDE_SCI : Fld := ⟨.LPG_PORTn_MSEC, 6, 1⟩
def LPG_PORTn_MSEC.TX_NEXT_ARM : Fld := ⟨.LPG_PORTn_MSEC, 5, 1⟩
def LPG_PORTn_MSEC.REPLAY : Fld := ⟨.LPG_PORTn_MSEC, 4, 1⟩
def LPG_PORTn_MSEC.VALIDATE : Fld := ⟨.LPG_PORTn_MSEC, 2, 2⟩
def LPG_PORTn_MSEC.XPN : Fld := ⟨.LPG_PORTn_MSEC, 1, 1⟩
def LPG_PORTn_MSEC.EN : Fld := ⟨.LPG_PORTn_MSEC, 0, 1⟩
def LPG_PORTn_REPLAY_WIN.WINDOW : Fld := ⟨.LPG_PORTn_REPLAY_WIN, 0, 32⟩
def LPG_PORTn_PN_NEAR.PN_NEAR : Fld := ⟨.LPG_PORTn_PN_NEAR, 0, 64⟩
def LPG_PORTn_TS_FIFO.VALID : Fld := ⟨.LPG_PORTn_TS_FIFO, 127, 1⟩
def LPG_PORTn_TS_FIFO.TAG : Fld := ⟨.LPG_PORTn_TS_FIFO, 96, 16⟩
def LPG_PORTn_TS_FIFO.FRAC : Fld := ⟨.LPG_PORTn_TS_FIFO, 80, 16⟩
def LPG_PORTn_TS_FIFO.SEC : Fld := ⟨.LPG_PORTn_TS_FIFO, 32, 48⟩
def LPG_PORTn_TS_FIFO.NS : Fld := ⟨.LPG_PORTn_TS_FIFO, 0, 30⟩
def LPG_PORTn_TS_CNT.OVF : Fld := ⟨.LPG_PORTn_TS_CNT, 16, 16⟩
def LPG_PORTn_TS_CNT.LEVEL : Fld := ⟨.LPG_PORTn_TS_CNT, 0, 7⟩
def LPG_MODE.MODE : Fld := ⟨.LPG_MODE, 0, 4⟩
def LPG_LANE_MAP.TX_INV : Fld := ⟨.LPG_LANE_MAP, 12, 4⟩
def LPG_LANE_MAP.RX_INV : Fld := ⟨.LPG_LANE_MAP, 8, 4⟩
def LPG_LANE_MAP.LANE_SEL : Fld := ⟨.LPG_LANE_MAP, 0, 8⟩
def LPG_SA_CMD.GO : Fld := ⟨.LPG_SA_CMD, 31, 1⟩
def LPG_SA_CMD.DIR : Fld := ⟨.LPG_SA_CMD, 30, 1⟩
def LPG_SA_CMD.OP : Fld := ⟨.LPG_SA_CMD, 28, 2⟩
def LPG_SA_CMD.PORT : Fld := ⟨.LPG_SA_CMD, 8, 2⟩
def LPG_SA_CMD.SA : Fld := ⟨.LPG_SA_CMD, 0, 6⟩
def LPG_SA_DATA.VALID : Fld := ⟨.LPG_SA_DATA, 192, 1⟩
def LPG_SA_DATA.KEY_HANDLE : Fld := ⟨.LPG_SA_DATA, 176, 16⟩
def LPG_SA_DATA.SSCI : Fld := ⟨.LPG_SA_DATA, 144, 32⟩
def LPG_SA_DATA.AN : Fld := ⟨.LPG_SA_DATA, 128, 2⟩
def LPG_SA_DATA.NEXT_PN : Fld := ⟨.LPG_SA_DATA, 64, 64⟩
def LPG_SA_DATA.SCI : Fld := ⟨.LPG_SA_DATA, 0, 64⟩
def HDS_CFG.TPID3_EN : Fld := ⟨.HDS_CFG, 17, 1⟩
def HDS_CFG.MPLS_CW_ETH : Fld := ⟨.HDS_CFG, 16, 1⟩
def HDS_CFG.TPID3 : Fld := ⟨.HDS_CFG, 0, 16⟩
def HDS_UDP_PORTS.GENEVE : Fld := ⟨.HDS_UDP_PORTS, 16, 16⟩
def HDS_UDP_PORTS.VXLAN : Fld := ⟨.HDS_UDP_PORTS, 0, 16⟩
def HDS_UDP_PORTS1.GTPU : Fld := ⟨.HDS_UDP_PORTS1, 0, 16⟩
def HDS_PORTn_CFG.PROFILE : Fld := ⟨.HDS_PORTn_CFG, 26, 6⟩
def HDS_PORTn_CFG.START_TYPE : Fld := ⟨.HDS_PORTn_CFG, 20, 6⟩
def HDS_PORTn_CFG.CLASS_DEFAULT : Fld := ⟨.HDS_PORTn_CFG, 16, 4⟩
def HDS_PORTn_CFG.CLASS_SRC : Fld := ⟨.HDS_PORTn_CFG, 14, 2⟩
def HDS_PORTn_CFG.CHK_CSUM : Fld := ⟨.HDS_PORTn_CFG, 13, 1⟩
def HDS_PORTn_CFG.CHK_HDR : Fld := ⟨.HDS_PORTn_CFG, 12, 1⟩
def HDS_PORTn_CFG.LIMIT_DROP : Fld := ⟨.HDS_PORTn_CFG, 11, 1⟩
def HDS_PORTn_CFG.TRUNC_DROP : Fld := ⟨.HDS_PORTn_CFG, 10, 1⟩
def HDS_PORTn_META.META : Fld := ⟨.HDS_PORTn_META, 0, 32⟩
def HDS_DPk_CFG.VALID : Fld := ⟨.HDS_DPk_CFG, 31, 1⟩
def HDS_DPk_CFG.PORT : Fld := ⟨.HDS_DPk_CFG, 23, 8⟩
def HDS_DPk_CFG.DEPTH : Fld := ⟨.HDS_DPk_CFG, 21, 2⟩
def HDS_DPk_CFG.TAGS : Fld := ⟨.HDS_DPk_CFG, 18, 3⟩
def HDS_DPk_CFG.LABELS : Fld := ⟨.HDS_DPk_CFG, 15, 3⟩
def HDS_DPk_CFG.TUNNELS : Fld := ⟨.HDS_DPk_CFG, 13, 2⟩
def HDS_DPk_CFG.WIN_SLOT : Fld := ⟨.HDS_DPk_CFG, 10, 3⟩
def HDS_TRACE_CTRL.ARM : Fld := ⟨.HDS_TRACE_CTRL, 31, 1⟩
def HDS_TRACE_CTRL.PORT : Fld := ⟨.HDS_TRACE_CTRL, 0, 8⟩
def HDS_TRACE_DATA.OFS : Fld := ⟨.HDS_TRACE_DATA, 128, 64⟩
def HDS_TRACE_DATA.TYPE : Fld := ⟨.HDS_TRACE_DATA, 80, 48⟩
def HDS_TRACE_DATA.PSTART : Fld := ⟨.HDS_TRACE_DATA, 71, 9⟩
def HDS_TRACE_DATA.HASH : Fld := ⟨.HDS_TRACE_DATA, 32, 32⟩
def HDS_TRACE_DATA.PKT_LEN : Fld := ⟨.HDS_TRACE_DATA, 4, 14⟩
def HDS_TRACE_DATA.CLASS : Fld := ⟨.HDS_TRACE_DATA, 0, 4⟩
def LPM_MISS_NHt.NH : Fld := ⟨.LPM_MISS_NHt, 0, 21⟩
def LPM_CMD.GO : Fld := ⟨.LPM_CMD, 255, 1⟩
def LPM_CMD.OP : Fld := ⟨.LPM_CMD, 252, 3⟩
def LPM_CMD.TRIE : Fld := ⟨.LPM_CMD, 251, 1⟩
def LPM_CMD.LEN : Fld := ⟨.LPM_CMD, 240, 8⟩
def LPM_CMD.LOCK_ID : Fld := ⟨.LPM_CMD, 224, 16⟩
def LPM_CMD.NH : Fld := ⟨.LPM_CMD, 192, 21⟩
def LPM_CMD.STAGE : Fld := ⟨.LPM_CMD, 178, 4⟩
def LPM_CMD.WORD : Fld := ⟨.LPM_CMD, 160, 18⟩
def LPM_CMD.KEY : Fld := ⟨.LPM_CMD, 0, 144⟩
def LPM_CMD_RES.FOUND : Fld := ⟨.LPM_CMD_RES, 255, 1⟩
def LPM_CMD_RES.LEN : Fld := ⟨.LPM_CMD_RES, 240, 8⟩
def LPM_CMD_RES.NH : Fld := ⟨.LPM_CMD_RES, 192, 21⟩
def LPM_CMD_RES.KEY : Fld := ⟨.LPM_CMD_RES, 0, 144⟩
def LPM_LOCKt.CAS : Fld := ⟨.LPM_LOCKt, 31, 1⟩
def LPM_LOCKt.RELEASE : Fld := ⟨.LPM_LOCKt, 30, 1⟩
def LPM_LOCKt.HOLDER : Fld := ⟨.LPM_LOCKt, 0, 16⟩
def LPM_LOCK_TMO.MS : Fld := ⟨.LPM_LOCK_TMO, 0, 16⟩
def LPM_UNITS.COUNT : Fld := ⟨.LPM_UNITS, 0, 25⟩
def LPM_PFX0.COUNT : Fld := ⟨.LPM_PFX0, 0, 25⟩
def LPM_PFX1.COUNT : Fld := ⟨.LPM_PFX1, 0, 25⟩
def LPM_ECC_ADDR.VALID : Fld := ⟨.LPM_ECC_ADDR, 31, 1⟩
def LPM_ECC_ADDR.STAGE : Fld := ⟨.LPM_ECC_ADDR, 18, 4⟩
def LPM_ECC_ADDR.WORD : Fld := ⟨.LPM_ECC_ADDR, 0, 18⟩
def LPM_STAGE_FREEk.FREE : Fld := ⟨.LPM_STAGE_FREEk, 0, 18⟩
def LPM_MEM_ADDR.STAGE : Fld := ⟨.LPM_MEM_ADDR, 18, 4⟩
def LPM_MEM_ADDR.WORD : Fld := ⟨.LPM_MEM_ADDR, 0, 18⟩
def LPM_MEM_DATA.DATA : Fld := ⟨.LPM_MEM_DATA, 0, 256⟩
def XM_TBLn_CFG.EN : Fld := ⟨.XM_TBLn_CFG, 31, 1⟩
def XM_TBLn_CFG.WIDE : Fld := ⟨.XM_TBLn_CFG, 30, 1⟩
def XM_TBLn_CFG.SIZE_LOG2 : Fld := ⟨.XM_TBLn_CFG, 24, 5⟩
def XM_TBLn_CFG.BASE : Fld := ⟨.XM_TBLn_CFG, 0, 19⟩
def XM_TBLn_SEED.SEED : Fld := ⟨.XM_TBLn_SEED, 0, 32⟩
def XM_TBLn_LRN.LEARN : Fld := ⟨.XM_TBLn_LRN, 31, 1⟩
def XM_TBLn_LRN.AGE_EN : Fld := ⟨.XM_TBLn_LRN, 30, 1⟩
def XM_TBLn_LRN.HIT_FIRST : Fld := ⟨.XM_TBLn_LRN, 29, 1⟩
def XM_TBLn_LRN.AGE_TIME : Fld := ⟨.XM_TBLn_LRN, 0, 16⟩
def XM_TBLn_DATA.LEARN_DATA : Fld := ⟨.XM_TBLn_DATA, 0, 17⟩
def XM_CMD.GO : Fld := ⟨.XM_CMD, 255, 1⟩
def XM_CMD.OP : Fld := ⟨.XM_CMD, 252, 3⟩
def XM_CMD.TABLE : Fld := ⟨.XM_CMD, 249, 3⟩
def XM_CMD.STATIC : Fld := ⟨.XM_CMD, 248, 1⟩
def XM_CMD.LOCK_ID : Fld := ⟨.XM_CMD, 232, 16⟩
def XM_CMD.RESULT : Fld := ⟨.XM_CMD, 192, 31⟩
def XM_CMD.SLOT : Fld := ⟨.XM_CMD, 160, 23⟩
def XM_CMD.KEY : Fld := ⟨.XM_CMD, 0, 160⟩
def XM_CMD_RES.FOUND : Fld := ⟨.XM_CMD_RES, 255, 1⟩
def XM_CMD_RES.STATIC : Fld := ⟨.XM_CMD_RES, 254, 1⟩
def XM_CMD_RES.HIT : Fld := ⟨.XM_CMD_RES, 253, 1⟩
def XM_CMD_RES.AGE : Fld := ⟨.XM_CMD_RES, 251, 2⟩
def XM_CMD_RES.RESULT : Fld := ⟨.XM_CMD_RES, 192, 31⟩
def XM_CMD_RES.SLOT : Fld := ⟨.XM_CMD_RES, 160, 23⟩
def XM_CMD_RES.KEY : Fld := ⟨.XM_CMD_RES, 0, 160⟩
def XM_LOCKn.CAS : Fld := ⟨.XM_LOCKn, 31, 1⟩
def XM_LOCKn.RELEASE : Fld := ⟨.XM_LOCKn, 30, 1⟩
def XM_LOCKn.HOLDER : Fld := ⟨.XM_LOCKn, 0, 16⟩
def XM_LOCK_TMO.MS : Fld := ⟨.XM_LOCK_TMO, 0, 16⟩
def XM_COUNTn.COUNT : Fld := ⟨.XM_COUNTn, 0, 23⟩
def XM_STASH.LEVEL : Fld := ⟨.XM_STASH, 0, 7⟩
def XM_ECC_ADDR.VALID : Fld := ⟨.XM_ECC_ADDR, 31, 1⟩
def XM_ECC_ADDR.STASH : Fld := ⟨.XM_ECC_ADDR, 22, 1⟩
def XM_ECC_ADDR.HALF : Fld := ⟨.XM_ECC_ADDR, 21, 1⟩
def XM_ECC_ADDR.BUCKET : Fld := ⟨.XM_ECC_ADDR, 2, 19⟩
def XM_ECC_ADDR.WAY : Fld := ⟨.XM_ECC_ADDR, 0, 2⟩
def XM_INS_CFG.STASH_EN : Fld := ⟨.XM_INS_CFG, 3, 1⟩
def XM_INS_CFG.MAX_DEPTH : Fld := ⟨.XM_INS_CFG, 0, 3⟩
def NHT_ACC.GO : Fld := ⟨.NHT_ACC, 127, 1⟩
def NHT_ACC.OP : Fld := ⟨.NHT_ACC, 126, 1⟩
def NHT_ACC.TBL : Fld := ⟨.NHT_ACC, 124, 2⟩
def NHT_ACC.INDEX : Fld := ⟨.NHT_ACC, 96, 21⟩
def NHT_ACC.LOCK_ID : Fld := ⟨.NHT_ACC, 64, 16⟩
def NHT_ACC.DATA : Fld := ⟨.NHT_ACC, 0, 64⟩
def NHT_LOCK.CAS : Fld := ⟨.NHT_LOCK, 31, 1⟩
def NHT_LOCK.RELEASE : Fld := ⟨.NHT_LOCK, 30, 1⟩
def NHT_LOCK.HOLDER : Fld := ⟨.NHT_LOCK, 0, 16⟩
def NHT_LOCK_TMO.MS : Fld := ⟨.NHT_LOCK_TMO, 0, 16⟩
def NHT_ECC_ADDR.VALID : Fld := ⟨.NHT_ECC_ADDR, 31, 1⟩
def NHT_ECC_ADDR.TBL : Fld := ⟨.NHT_ECC_ADDR, 21, 2⟩
def NHT_ECC_ADDR.INDEX : Fld := ⟨.NHT_ECC_ADDR, 0, 21⟩
def LRN_CFG.ARB_WIN : Fld := ⟨.LRN_CFG, 16, 16⟩
def LRN_CFG.CHASSIS : Fld := ⟨.LRN_CFG, 1, 1⟩
def LRN_CFG.LOG_AGE : Fld := ⟨.LRN_CFG, 0, 1⟩
def LRN_PORT_MASKk.MASK : Fld := ⟨.LRN_PORT_MASKk, 0, 32⟩
def LRN_FLAP.MOVES : Fld := ⟨.LRN_FLAP, 24, 8⟩
def LRN_FLAP.HOLD : Fld := ⟨.LRN_FLAP, 16, 8⟩
def LRN_FLAP.WIN : Fld := ⟨.LRN_FLAP, 0, 16⟩
def LRN_STAT.CACHE : Fld := ⟨.LRN_STAT, 16, 13⟩
def LRN_STAT.QUEUE : Fld := ⟨.LRN_STAT, 0, 13⟩
def LRN_LOG_STAT.LEVEL : Fld := ⟨.LRN_LOG_STAT, 0, 9⟩
def LRN_LOG.VALID : Fld := ⟨.LRN_LOG, 255, 1⟩
def LRN_LOG.KIND : Fld := ⟨.LRN_LOG, 252, 3⟩
def LRN_LOG.TABLE : Fld := ⟨.LRN_LOG, 249, 3⟩
def LRN_LOG.OLD_DEV : Fld := ⟨.LRN_LOG, 243, 6⟩
def LRN_LOG.OLD_PORT : Fld := ⟨.LRN_LOG, 235, 8⟩
def LRN_LOG.NEW_DEV : Fld := ⟨.LRN_LOG, 229, 6⟩
def LRN_LOG.NEW_PORT : Fld := ⟨.LRN_LOG, 221, 8⟩
def LRN_LOG.TIME : Fld := ⟨.LRN_LOG, 160, 48⟩
def LRN_LOG.KEY : Fld := ⟨.LRN_LOG, 0, 160⟩
def TCM_SLICEk_OWNER.CAS : Fld := ⟨.TCM_SLICEk_OWNER, 31, 1⟩
def TCM_SLICEk_OWNER.RELEASE : Fld := ⟨.TCM_SLICEk_OWNER, 30, 1⟩
def TCM_SLICEk_OWNER.OWNER : Fld := ⟨.TCM_SLICEk_OWNER, 0, 16⟩
def TCM_GRPAn.VALID : Fld := ⟨.TCM_GRPAn, 31, 1⟩
def TCM_GRPAn.DIR : Fld := ⟨.TCM_GRPAn, 30, 1⟩
def TCM_GRPAn.OWNER : Fld := ⟨.TCM_GRPAn, 12, 16⟩
def TCM_GRPAn.BASE : Fld := ⟨.TCM_GRPAn, 8, 4⟩
def TCM_GRPAn.DEPTH_M1 : Fld := ⟨.TCM_GRPAn, 4, 4⟩
def TCM_GRPAn.REPL_M1 : Fld := ⟨.TCM_GRPAn, 0, 4⟩
def TCM_GRPBn.VALID : Fld := ⟨.TCM_GRPBn, 31, 1⟩
def TCM_GRPBn.DIR : Fld := ⟨.TCM_GRPBn, 30, 1⟩
def TCM_GRPBn.OWNER : Fld := ⟨.TCM_GRPBn, 12, 16⟩
def TCM_GRPBn.BASE : Fld := ⟨.TCM_GRPBn, 8, 4⟩
def TCM_GRPBn.DEPTH_M1 : Fld := ⟨.TCM_GRPBn, 4, 4⟩
def TCM_GRPBn.REPL_M1 : Fld := ⟨.TCM_GRPBn, 0, 4⟩
def TCM_CMD.GO : Fld := ⟨.TCM_CMD, 767, 1⟩
def TCM_CMD.OP : Fld := ⟨.TCM_CMD, 764, 3⟩
def TCM_CMD.BANK : Fld := ⟨.TCM_CMD, 763, 1⟩
def TCM_CMD.GROUP : Fld := ⟨.TCM_CMD, 759, 4⟩
def TCM_CMD.INDEX : Fld := ⟨.TCM_CMD, 742, 17⟩
def TCM_CMD.OWNER_ID : Fld := ⟨.TCM_CMD, 720, 16⟩
def TCM_CMD.ACTION : Fld := ⟨.TCM_CMD, 704, 16⟩
def TCM_CMD.KEY : Fld := ⟨.TCM_CMD, 320, 320⟩
def TCM_CMD.MASK : Fld := ⟨.TCM_CMD, 0, 320⟩
def TCM_RD.VALID : Fld := ⟨.TCM_RD, 767, 1⟩
def TCM_RD.MULTI : Fld := ⟨.TCM_RD, 766, 1⟩
def TCM_RD.IDX : Fld := ⟨.TCM_RD, 720, 17⟩
def TCM_RD.ACTION : Fld := ⟨.TCM_RD, 704, 16⟩
def TCM_RD.KEY : Fld := ⟨.TCM_RD, 320, 320⟩
def TCM_RD.MASK : Fld := ⟨.TCM_RD, 0, 320⟩
def TCM_SHADOW_ADDR.VALID : Fld := ⟨.TCM_SHADOW_ADDR, 31, 1⟩
def TCM_SHADOW_ADDR.SLICE : Fld := ⟨.TCM_SHADOW_ADDR, 13, 4⟩
def TCM_SHADOW_ADDR.ENTRY : Fld := ⟨.TCM_SHADOW_ADDR, 0, 13⟩
def TCM_SCRUB_CFG.REPAIR_EN : Fld := ⟨.TCM_SCRUB_CFG, 0, 1⟩
def TCM_INJECT.GO : Fld := ⟨.TCM_INJECT, 31, 1⟩
def TCM_INJECT.PLANE : Fld := ⟨.TCM_INJECT, 30, 1⟩
def TCM_INJECT.BIT : Fld := ⟨.TCM_INJECT, 21, 9⟩
def TCM_INJECT.SLICE : Fld := ⟨.TCM_INJECT, 17, 4⟩
def TCM_INJECT.ENTRY : Fld := ⟨.TCM_INJECT, 4, 13⟩
def BRL_REPLr.STATE : Fld := ⟨.BRL_REPLr, 30, 2⟩
def BRL_REPLr.BANK : Fld := ⟨.BRL_REPLr, 29, 1⟩
def BRL_CMD.GO : Fld := ⟨.BRL_CMD, 63, 1⟩
def BRL_CMD.OP : Fld := ⟨.BRL_CMD, 60, 3⟩
def BRL_CMD.BANK : Fld := ⟨.BRL_CMD, 59, 1⟩
def BRL_CMD.SRC : Fld := ⟨.BRL_CMD, 48, 5⟩
def BRL_CMD.MASK : Fld := ⟨.BRL_CMD, 0, 24⟩
def BRL_BANKA_STAT.HDR_VALID : Fld := ⟨.BRL_BANKA_STAT, 31, 1⟩
def BRL_BANKA_STAT.VERIFIED : Fld := ⟨.BRL_BANKA_STAT, 0, 5⟩
def BRL_BANKB_STAT.HDR_VALID : Fld := ⟨.BRL_BANKB_STAT, 31, 1⟩
def BRL_BANKB_STAT.VERIFIED : Fld := ⟨.BRL_BANKB_STAT, 0, 5⟩
def BRL_BANKA_CRC.CRC : Fld := ⟨.BRL_BANKA_CRC, 0, 32⟩
def BRL_BANKB_CRC.CRC : Fld := ⟨.BRL_BANKB_CRC, 0, 32⟩
def BRL_ECC_ADDR.VALID : Fld := ⟨.BRL_ECC_ADDR, 31, 1⟩
def BRL_ECC_ADDR.REPL : Fld := ⟨.BRL_ECC_ADDR, 16, 5⟩
def BRL_ECC_ADDR.WORD : Fld := ⟨.BRL_ECC_ADDR, 0, 16⟩
def BRL_MEM_ADDR.REPL : Fld := ⟨.BRL_MEM_ADDR, 16, 5⟩
def BRL_MEM_ADDR.WORD : Fld := ⟨.BRL_MEM_ADDR, 0, 16⟩
def BRL_MEM_DATA.DATA : Fld := ⟨.BRL_MEM_DATA, 0, 64⟩
def ENG_CFG.DIR : Fld := ⟨.ENG_CFG, 0, 1⟩
def ENG_STAT.CTX_USED : Fld := ⟨.ENG_STAT, 16, 6⟩
def ENG_STAT.RUNNING : Fld := ⟨.ENG_STAT, 0, 5⟩
def ENG_IMEM_ADDR.BCAST : Fld := ⟨.ENG_IMEM_ADDR, 31, 1⟩
def ENG_IMEM_ADDR.HALF : Fld := ⟨.ENG_IMEM_ADDR, 16, 1⟩
def ENG_IMEM_ADDR.BUNDLE : Fld := ⟨.ENG_IMEM_ADDR, 0, 11⟩
def ENG_IMEM_DATA.BUNDLE : Fld := ⟨.ENG_IMEM_DATA, 0, 128⟩
def ENG_ECC_ADDR.VALID : Fld := ⟨.ENG_ECC_ADDR, 31, 1⟩
def ENG_ECC_ADDR.MEM : Fld := ⟨.ENG_ECC_ADDR, 30, 1⟩
def ENG_ECC_ADDR.HALF : Fld := ⟨.ENG_ECC_ADDR, 29, 1⟩
def ENG_ECC_ADDR.WORD : Fld := ⟨.ENG_ECC_ADDR, 0, 15⟩
def ENG_ILL_ADDR.VALID : Fld := ⟨.ENG_ILL_ADDR, 31, 1⟩
def ENG_ILL_ADDR.HALF : Fld := ⟨.ENG_ILL_ADDR, 16, 1⟩
def ENG_ILL_ADDR.ENGINE : Fld := ⟨.ENG_ILL_ADDR, 12, 4⟩
def ENG_ILL_ADDR.PC : Fld := ⟨.ENG_ILL_ADDR, 0, 11⟩
def ENG_DISP_CFG.RQ_DEPTH : Fld := ⟨.ENG_DISP_CFG, 8, 7⟩
def ENG_DISP_CFG.EG_ORDER : Fld := ⟨.ENG_DISP_CFG, 1, 1⟩
def ENG_DISP_CFG.ING_ORDER : Fld := ⟨.ENG_DISP_CFG, 0, 1⟩
def ENG_DISP_STAT.EG_HELD : Fld := ⟨.ENG_DISP_STAT, 16, 14⟩
def ENG_DISP_STAT.ING_HELD : Fld := ⟨.ENG_DISP_STAT, 0, 14⟩
def ENG_DISP_X.TIE : Fld := ⟨.ENG_DISP_X, 0, 1⟩
def ENG_TRACE_CTRL.ARM : Fld := ⟨.ENG_TRACE_CTRL, 31, 1⟩
def ENG_TRACE_CTRL.ENGINE : Fld := ⟨.ENG_TRACE_CTRL, 0, 4⟩
def ENG_TRACE_DATA.KIND : Fld := ⟨.ENG_TRACE_DATA, 61, 3⟩
def ENG_TRACE_DATA.CODE : Fld := ⟨.ENG_TRACE_DATA, 53, 8⟩
def ENG_TRACE_DATA.BUNDLES : Fld := ⟨.ENG_TRACE_DATA, 48, 5⟩
def ENG_TRACE_DATA.STALLS : Fld := ⟨.ENG_TRACE_DATA, 32, 16⟩
def ENG_TRACE_DATA.ENTRY : Fld := ⟨.ENG_TRACE_DATA, 21, 11⟩
def ENG_TRACE_DATA.LAST : Fld := ⟨.ENG_TRACE_DATA, 10, 11⟩
def TLS_PORTn_CFG.BYPASS : Fld := ⟨.TLS_PORTn_CFG, 31, 1⟩
def TLS_PORTn_CFG.EPROF : Fld := ⟨.TLS_PORTn_CFG, 0, 6⟩
def EPC_CFG.CHASSIS : Fld := ⟨.EPC_CFG, 0, 1⟩
def EPC_STAT.STATE : Fld := ⟨.EPC_STAT, 30, 2⟩
def EPC_STAT.NR_CAUSE : Fld := ⟨.EPC_STAT, 28, 2⟩
def EPC_STAT.BANK : Fld := ⟨.EPC_STAT, 16, 1⟩
def EPC_STAT.SEQ : Fld := ⟨.EPC_STAT, 0, 16⟩
def EPC_SWITCH.GO : Fld := ⟨.EPC_SWITCH, 127, 1⟩
def EPC_SWITCH.OP : Fld := ⟨.EPC_SWITCH, 124, 3⟩
def EPC_SWITCH.SEQ : Fld := ⟨.EPC_SWITCH, 96, 16⟩
def EPC_SWITCH.SEC : Fld := ⟨.EPC_SWITCH, 30, 48⟩
def EPC_SWITCH.NS : Fld := ⟨.EPC_SWITCH, 0, 30⟩
def EPC_LAST.VALID : Fld := ⟨.EPC_LAST, 127, 1⟩
def EPC_LAST.LATE : Fld := ⟨.EPC_LAST, 126, 1⟩
def EPC_LAST.BANK : Fld := ⟨.EPC_LAST, 125, 1⟩
def EPC_LAST.SEQ : Fld := ⟨.EPC_LAST, 96, 16⟩
def EPC_LAST.SEC : Fld := ⟨.EPC_LAST, 30, 48⟩
def EPC_LAST.NS : Fld := ⟨.EPC_LAST, 0, 30⟩
def EPC_INFLIGHTA.COUNT : Fld := ⟨.EPC_INFLIGHTA, 0, 24⟩
def EPC_INFLIGHTB.COUNT : Fld := ⟨.EPC_INFLIGHTB, 0, 24⟩
def EPC_DRAIN_TIME.TIME : Fld := ⟨.EPC_DRAIN_TIME, 0, 16⟩
def EPC_X_CFG.LEAD : Fld := ⟨.EPC_X_CFG, 16, 16⟩
def EPC_X_CFG.STRICT : Fld := ⟨.EPC_X_CFG, 0, 1⟩
def MDL_CFG.OWNER_ID : Fld := ⟨.MDL_CFG, 16, 16⟩
def MDL_CFG.BORROW : Fld := ⟨.MDL_CFG, 11, 1⟩
def MDL_CFG.SHARE : Fld := ⟨.MDL_CFG, 0, 11⟩
def MDL_STAT.LEVEL : Fld := ⟨.MDL_STAT, 0, 13⟩
def CHK_POOLn_CFG.EN : Fld := ⟨.CHK_POOLn_CFG, 63, 1⟩
def CHK_POOLn_CFG.SIZE : Fld := ⟨.CHK_POOLn_CFG, 61, 2⟩
def CHK_POOLn_CFG.FB_EN : Fld := ⟨.CHK_POOLn_CFG, 60, 1⟩
def CHK_POOLn_CFG.FALLBACK : Fld := ⟨.CHK_POOLn_CFG, 56, 4⟩
def CHK_POOLn_CFG.BASE : Fld := ⟨.CHK_POOLn_CFG, 32, 22⟩
def CHK_POOLn_CFG.COUNT : Fld := ⟨.CHK_POOLn_CFG, 0, 22⟩
def CHK_POOLn_SPILL.CELLS : Fld := ⟨.CHK_POOLn_SPILL, 0, 22⟩
def CHK_POOLn_ADMIT.CELLS : Fld := ⟨.CHK_POOLn_ADMIT, 0, 22⟩
def CHK_POOLn_STAT.STATE : Fld := ⟨.CHK_POOLn_STAT, 30, 2⟩
def CHK_POOLn_STAT.FREE : Fld := ⟨.CHK_POOLn_STAT, 0, 22⟩
def CHK_POOLn_MIN.MIN : Fld := ⟨.CHK_POOLn_MIN, 0, 22⟩
def CHK_POOLn_RETIRED.COUNT : Fld := ⟨.CHK_POOLn_RETIRED, 0, 22⟩
def CHK_SRCs_CFG.HEAD_POOL : Fld := ⟨.CHK_SRCs_CFG, 28, 4⟩
def CHK_SRCs_CFG.BODY_POOL : Fld := ⟨.CHK_SRCs_CFG, 24, 4⟩
def CHK_SRCs_CFG.CACHE : Fld := ⟨.CHK_SRCs_CFG, 16, 5⟩
def CHK_CELL_CMD.GO : Fld := ⟨.CHK_CELL_CMD, 63, 1⟩
def CHK_CELL_CMD.OP : Fld := ⟨.CHK_CELL_CMD, 60, 3⟩
def CHK_CELL_CMD.POOL : Fld := ⟨.CHK_CELL_CMD, 56, 4⟩
def CHK_CELL_CMD.OWNER : Fld := ⟨.CHK_CELL_CMD, 44, 12⟩
def CHK_CELL_CMD.HANDLE : Fld := ⟨.CHK_CELL_CMD, 0, 22⟩
def CHK_CELL_RES.META : Fld := ⟨.CHK_CELL_RES, 0, 64⟩
def CHK_BADFREE_LOG.VALID : Fld := ⟨.CHK_BADFREE_LOG, 63, 1⟩
def CHK_BADFREE_LOG.KIND : Fld := ⟨.CHK_BADFREE_LOG, 61, 2⟩
def CHK_BADFREE_LOG.SRC : Fld := ⟨.CHK_BADFREE_LOG, 57, 4⟩
def CHK_BADFREE_LOG.CELL_OWNER : Fld := ⟨.CHK_BADFREE_LOG, 44, 12⟩
def CHK_BADFREE_LOG.PRESENTED : Fld := ⟨.CHK_BADFREE_LOG, 32, 12⟩
def CHK_BADFREE_LOG.HANDLE : Fld := ⟨.CHK_BADFREE_LOG, 0, 22⟩
def CHK_MARCH_CTRL.GO : Fld := ⟨.CHK_MARCH_CTRL, 31, 1⟩
def CHK_MARCH_CTRL.MODE : Fld := ⟨.CHK_MARCH_CTRL, 30, 1⟩
def CHK_MARCH_CTRL.RETIRE : Fld := ⟨.CHK_MARCH_CTRL, 29, 1⟩
def CHK_MARCH_STAT.STATE : Fld := ⟨.CHK_MARCH_STAT, 30, 2⟩
def CHK_MARCH_STAT.REGION : Fld := ⟨.CHK_MARCH_STAT, 0, 16⟩
def CHK_MARCH_ERR.GRANULE : Fld := ⟨.CHK_MARCH_ERR, 32, 22⟩
def CHK_MARCH_ERR.FAILS : Fld := ⟨.CHK_MARCH_ERR, 0, 32⟩
def CHK_ECC_ADDR.VALID : Fld := ⟨.CHK_ECC_ADDR, 31, 1⟩
def CHK_ECC_ADDR.KIND : Fld := ⟨.CHK_ECC_ADDR, 30, 1⟩
def CHK_ECC_ADDR.GRANULE : Fld := ⟨.CHK_ECC_ADDR, 0, 22⟩
def CHK_ALLOC_X.TIE : Fld := ⟨.CHK_ALLOC_X, 0, 1⟩
def CHK_INJECT.GO : Fld := ⟨.CHK_INJECT, 63, 1⟩
def CHK_INJECT.PLANE : Fld := ⟨.CHK_INJECT, 62, 1⟩
def CHK_INJECT.BIT : Fld := ⟨.CHK_INJECT, 48, 10⟩
def CHK_INJECT.GRANULE : Fld := ⟨.CHK_INJECT, 0, 22⟩
def D2D_CFG.REPLAY_TMO : Fld := ⟨.D2D_CFG, 16, 16⟩
def D2D_CFG.REPLAY_LIMIT : Fld := ⟨.D2D_CFG, 0, 4⟩
def D2D_STAT.SPARE_FT : Fld := ⟨.D2D_STAT, 24, 8⟩
def D2D_STAT.SPARE_TF : Fld := ⟨.D2D_STAT, 16, 8⟩
def D2D_STAT.UP_TF : Fld := ⟨.D2D_STAT, 1, 1⟩
def D2D_STAT.UP_FT : Fld := ⟨.D2D_STAT, 0, 1⟩
def D2D_X_CAL.CAL_MS : Fld := ⟨.D2D_X_CAL, 0, 16⟩
def HBM_ID.STATE : Fld := ⟨.HBM_ID, 29, 3⟩
def HBM_ID.CAP : Fld := ⟨.HBM_ID, 27, 2⟩
def HBM_ID.BANKS : Fld := ⟨.HBM_ID, 20, 7⟩
def HBM_ID.ROWS : Fld := ⟨.HBM_ID, 0, 20⟩
def HBM_FREQ.PEND : Fld := ⟨.HBM_FREQ, 31, 1⟩
def HBM_FREQ.CUR : Fld := ⟨.HBM_FREQ, 16, 3⟩
def HBM_FREQ.REQ : Fld := ⟨.HBM_FREQ, 0, 3⟩
def HBM_TRAIN_STAT.STEP : Fld := ⟨.HBM_TRAIN_STAT, 28, 4⟩
def HBM_TRAIN_STAT.FAIL_STEP : Fld := ⟨.HBM_TRAIN_STAT, 24, 4⟩
def HBM_TRAIN_STAT.DISCARDS : Fld := ⟨.HBM_TRAIN_STAT, 16, 8⟩
def HBM_RETRAIN.PERIOD_MS : Fld := ⟨.HBM_RETRAIN, 16, 16⟩
def HBM_RETRAIN.DELTA_C : Fld := ⟨.HBM_RETRAIN, 0, 8⟩
def HBM_TEMP.HOT2X : Fld := ⟨.HBM_TEMP, 31, 1⟩
def HBM_TEMP.NOALLOC : Fld := ⟨.HBM_TEMP, 30, 1⟩
def HBM_TEMP.MAX : Fld := ⟨.HBM_TEMP, 8, 8⟩
def HBM_TEMP.TEMP : Fld := ⟨.HBM_TEMP, 0, 8⟩
def HBM_SCRUB.EN : Fld := ⟨.HBM_SCRUB, 31, 1⟩
def HBM_SCRUB.HOURS : Fld := ⟨.HBM_SCRUB, 0, 8⟩
def HBM_ERR_ADDR.VALID : Fld := ⟨.HBM_ERR_ADDR, 63, 1⟩
def HBM_ERR_ADDR.KIND : Fld := ⟨.HBM_ERR_ADDR, 61, 2⟩
def HBM_ERR_ADDR.HANDLE : Fld := ⟨.HBM_ERR_ADDR, 0, 30⟩
def HBM_PCk_STAT.STATE : Fld := ⟨.HBM_PCk_STAT, 30, 2⟩
def HBM_PCk_STAT.OUTST : Fld := ⟨.HBM_PCk_STAT, 23, 6⟩
def HBM_PCk_STAT.FREE : Fld := ⟨.HBM_PCk_STAT, 0, 23⟩
def HBM_FREE_TOTAL.FREE : Fld := ⟨.HBM_FREE_TOTAL, 0, 30⟩
def HBM_X_WQ.WR_HIGH : Fld := ⟨.HBM_X_WQ, 8, 8⟩
def HBM_X_WQ.WR_LOW : Fld := ⟨.HBM_X_WQ, 0, 8⟩
def HBM_X_SLOW.SLOW_NS : Fld := ⟨.HBM_X_SLOW, 16, 16⟩
def HBM_X_SLOW.HOLD_MS : Fld := ⟨.HBM_X_SLOW, 8, 8⟩
def HBM_X_SLOW.REREADS : Fld := ⟨.HBM_X_SLOW, 0, 8⟩
def HBM_X_READ_TMO.US : Fld := ⟨.HBM_X_READ_TMO, 0, 16⟩
def HBM_X_INJECT.GO : Fld := ⟨.HBM_X_INJECT, 63, 1⟩
def HBM_X_INJECT.PC : Fld := ⟨.HBM_X_INJECT, 32, 5⟩
def HBM_X_INJECT.BIT : Fld := ⟨.HBM_X_INJECT, 0, 12⟩
def TMS_CFG.PREFETCH : Fld := ⟨.TMS_CFG, 16, 16⟩
def TMS_CFG.SPILL_EN : Fld := ⟨.TMS_CFG, 0, 1⟩
def TMS_PORTn_CFG.PIPE : Fld := ⟨.TMS_PORTn_CFG, 16, 4⟩
def TMS_PORTn_CFG.LEN_ADJ : Fld := ⟨.TMS_PORTn_CFG, 8, 8⟩
def TMS_PORTn_CFG.EQSEL : Fld := ⟨.TMS_PORTn_CFG, 0, 1⟩
def TMS_PORTn_EQ.EQ_BASE : Fld := ⟨.TMS_PORTn_EQ, 0, 19⟩
def TMS_MIRk.OWNER_ID : Fld := ⟨.TMS_MIRk, 48, 16⟩
def TMS_MIRk.EN : Fld := ⟨.TMS_MIRk, 47, 1⟩
def TMS_MIRk.QID : Fld := ⟨.TMS_MIRk, 0, 19⟩
def TMS_MIRk_OWNER.CAS : Fld := ⟨.TMS_MIRk_OWNER, 31, 1⟩
def TMS_MIRk_OWNER.RELEASE : Fld := ⟨.TMS_MIRk_OWNER, 30, 1⟩
def TMS_MIRk_OWNER.OWNER : Fld := ⟨.TMS_MIRk_OWNER, 0, 16⟩
def TMS_X_TIE.VOQ_TIE : Fld := ⟨.TMS_X_TIE, 1, 1⟩
def TMS_X_TIE.WFQ_TIE : Fld := ⟨.TMS_X_TIE, 0, 1⟩
def TMS_Q_CMD.GO : Fld := ⟨.TMS_Q_CMD, 127, 1⟩
def TMS_Q_CMD.OP : Fld := ⟨.TMS_Q_CMD, 124, 3⟩
def TMS_Q_CMD.QID : Fld := ⟨.TMS_Q_CMD, 104, 19⟩
def TMS_Q_CMD.EN : Fld := ⟨.TMS_Q_CMD, 103, 1⟩
def TMS_Q_CMD.QPROF : Fld := ⟨.TMS_Q_CMD, 94, 9⟩
def TMS_Q_CMD.PARENT : Fld := ⟨.TMS_Q_CMD, 78, 16⟩
def TMS_Q_CMD.PRIO : Fld := ⟨.TMS_Q_CMD, 76, 2⟩
def TMS_Q_CMD.TC : Fld := ⟨.TMS_Q_CMD, 73, 3⟩
def TMS_Q_CMD.WEIGHT : Fld := ⟨.TMS_Q_CMD, 57, 16⟩
def TMS_Q_RES.EN : Fld := ⟨.TMS_Q_RES, 255, 1⟩
def TMS_Q_RES.SPILLED : Fld := ⟨.TMS_Q_RES, 254, 1⟩
def TMS_Q_RES.PKTS : Fld := ⟨.TMS_Q_RES, 192, 32⟩
def TMS_Q_RES.BYTES : Fld := ⟨.TMS_Q_RES, 160, 32⟩
def TMS_Q_RES.SPILL_BYTES : Fld := ⟨.TMS_Q_RES, 128, 32⟩
def TMS_Q_RES.SOJ_HWM : Fld := ⟨.TMS_Q_RES, 96, 32⟩
def TMS_Q_RES.HEAD_AGE : Fld := ⟨.TMS_Q_RES, 64, 32⟩
def TMS_Q_RES.FT_BAL : Fld := ⟨.TMS_Q_RES, 16, 48⟩
def TMS_QPROFp.VALID : Fld := ⟨.TMS_QPROFp, 255, 1⟩
def TMS_QPROFp.AGE_ALARM : Fld := ⟨.TMS_QPROFp, 192, 32⟩
def TMS_QPROFp.SPILL_PRESS : Fld := ⟨.TMS_QPROFp, 160, 24⟩
def TMS_QPROFp.SPILL_NS : Fld := ⟨.TMS_QPROFp, 128, 32⟩
def TMS_QPROFp.SPILL_BYTES : Fld := ⟨.TMS_QPROFp, 96, 24⟩
def TMS_QPROFp.DT_EN : Fld := ⟨.TMS_QPROFp, 95, 1⟩
def TMS_QPROFp.ALPHA : Fld := ⟨.TMS_QPROFp, 88, 4⟩
def TMS_QPROFp.WRED_EN : Fld := ⟨.TMS_QPROFp, 79, 1⟩
def TMS_QPROFp.WRED : Fld := ⟨.TMS_QPROFp, 64, 6⟩
def TMS_QPROFp.GUAR : Fld := ⟨.TMS_QPROFp, 32, 24⟩
def TMS_QPROFp.MAX : Fld := ⟨.TMS_QPROFp, 0, 24⟩
def TMS_NODE_CMD.GO : Fld := ⟨.TMS_NODE_CMD, 255, 1⟩
def TMS_NODE_CMD.OP : Fld := ⟨.TMS_NODE_CMD, 252, 3⟩
def TMS_NODE_CMD.LEVEL : Fld := ⟨.TMS_NODE_CMD, 250, 2⟩
def TMS_NODE_CMD.EN : Fld := ⟨.TMS_NODE_CMD, 249, 1⟩
def TMS_NODE_CMD.INDEX : Fld := ⟨.TMS_NODE_CMD, 233, 16⟩
def TMS_NODE_CMD.PARENT : Fld := ⟨.TMS_NODE_CMD, 217, 16⟩
def TMS_NODE_CMD.PRIO : Fld := ⟨.TMS_NODE_CMD, 215, 2⟩
def TMS_NODE_CMD.WEIGHT : Fld := ⟨.TMS_NODE_CMD, 199, 16⟩
def TMS_NODE_CMD.CIR : Fld := ⟨.TMS_NODE_CMD, 160, 32⟩
def TMS_NODE_CMD.PIR : Fld := ⟨.TMS_NODE_CMD, 128, 32⟩
def TMS_NODE_CMD.CBS : Fld := ⟨.TMS_NODE_CMD, 96, 24⟩
def TMS_NODE_CMD.PBS : Fld := ⟨.TMS_NODE_CMD, 64, 24⟩
def TMS_NODE_RES.EN : Fld := ⟨.TMS_NODE_RES, 255, 1⟩
def TMS_NODE_RES.ELIGIBLE : Fld := ⟨.TMS_NODE_RES, 254, 1⟩
def TMS_NODE_RES.COMMITTED : Fld := ⟨.TMS_NODE_RES, 253, 1⟩
def TMS_NODE_RES.TC : Fld := ⟨.TMS_NODE_RES, 192, 32⟩
def TMS_NODE_RES.TP : Fld := ⟨.TMS_NODE_RES, 160, 32⟩
def TMS_NODE_RES.SOJ_HWM : Fld := ⟨.TMS_NODE_RES, 128, 32⟩
def TMS_NODE_RES.FT : Fld := ⟨.TMS_NODE_RES, 80, 48⟩
def TMS_WREDk.W : Fld := ⟨.TMS_WREDk, 224, 4⟩
def TMS_WREDk.PMAX_R : Fld := ⟨.TMS_WREDk, 208, 8⟩
def TMS_WREDk.PMAX_Y : Fld := ⟨.TMS_WREDk, 200, 8⟩
def TMS_WREDk.PMAX_G : Fld := ⟨.TMS_WREDk, 192, 8⟩
def TMS_WREDk.MAX_R : Fld := ⟨.TMS_WREDk, 160, 24⟩
def TMS_WREDk.MIN_R : Fld := ⟨.TMS_WREDk, 128, 24⟩
def TMS_WREDk.MAX_Y : Fld := ⟨.TMS_WREDk, 96, 24⟩
def TMS_WREDk.MIN_Y : Fld := ⟨.TMS_WREDk, 64, 24⟩
def TMS_WREDk.MAX_G : Fld := ⟨.TMS_WREDk, 32, 24⟩
def TMS_WREDk.MIN_G : Fld := ⟨.TMS_WREDk, 0, 24⟩
def TMS_CR_CFG.REQ_TMO : Fld := ⟨.TMS_CR_CFG, 16, 16⟩
def TMS_CR_CFG.UNIT : Fld := ⟨.TMS_CR_CFG, 0, 2⟩
def TMS_CR_CLASSc.PRIO : Fld := ⟨.TMS_CR_CLASSc, 16, 2⟩
def TMS_CR_CLASSc.WEIGHT : Fld := ⟨.TMS_CR_CLASSc, 0, 16⟩
def TMS_CR_PORTn.SPEEDUP : Fld := ⟨.TMS_CR_PORTn, 24, 6⟩
def TMS_CR_PORTn.HOLD : Fld := ⟨.TMS_CR_PORTn, 0, 24⟩
def MTR_CMD.GO : Fld := ⟨.MTR_CMD, 63, 1⟩
def MTR_CMD.OP : Fld := ⟨.MTR_CMD, 60, 3⟩
def MTR_CMD.EN : Fld := ⟨.MTR_CMD, 59, 1⟩
def MTR_CMD.PROFILE : Fld := ⟨.MTR_CMD, 49, 10⟩
def MTR_CMD.METER : Fld := ⟨.MTR_CMD, 0, 19⟩
def MTR_RES.EN : Fld := ⟨.MTR_RES, 127, 1⟩
def MTR_RES.PROFILE : Fld := ⟨.MTR_RES, 96, 10⟩
def MTR_RES.TC : Fld := ⟨.MTR_RES, 32, 32⟩
def MTR_RES.TP : Fld := ⟨.MTR_RES, 0, 32⟩
def MTR_PROFp.VALID : Fld := ⟨.MTR_PROFp, 127, 1⟩
def MTR_PROFp.MODE : Fld := ⟨.MTR_PROFp, 126, 1⟩
def MTR_PROFp.AWARE : Fld := ⟨.MTR_PROFp, 125, 1⟩
def MTR_PROFp.RED_DROP : Fld := ⟨.MTR_PROFp, 124, 1⟩
def MTR_PROFp.LEN_ADJ : Fld := ⟨.MTR_PROFp, 112, 8⟩
def MTR_PROFp.CBS : Fld := ⟨.MTR_PROFp, 88, 24⟩
def MTR_PROFp.PBS : Fld := ⟨.MTR_PROFp, 64, 24⟩
def MTR_PROFp.PIR : Fld := ⟨.MTR_PROFp, 32, 32⟩
def MTR_PROFp.CIR : Fld := ⟨.MTR_PROFp, 0, 32⟩
def SPN_TIME.SEC : Fld := ⟨.SPN_TIME, 48, 48⟩
def SPN_TIME.NS : Fld := ⟨.SPN_TIME, 16, 30⟩
def SPN_TIME.FRAC : Fld := ⟨.SPN_TIME, 0, 16⟩
def SPN_ADJ.GO : Fld := ⟨.SPN_ADJ, 127, 1⟩
def SPN_ADJ.OP : Fld := ⟨.SPN_ADJ, 124, 3⟩
def SPN_ADJ.NEG : Fld := ⟨.SPN_ADJ, 123, 1⟩
def SPN_ADJ.SEC : Fld := ⟨.SPN_ADJ, 64, 48⟩
def SPN_ADJ.NS : Fld := ⟨.SPN_ADJ, 32, 30⟩
def SPN_ADJ.FRAC : Fld := ⟨.SPN_ADJ, 16, 16⟩
def SPN_RATE.RATE_ADJ : Fld := ⟨.SPN_RATE, 0, 32⟩
def SPN_CFG.SLEW_PPM : Fld := ⟨.SPN_CFG, 16, 12⟩
def SPN_CFG.KI_SHIFT : Fld := ⟨.SPN_CFG, 12, 4⟩
def SPN_CFG.KP_SHIFT : Fld := ⟨.SPN_CFG, 8, 4⟩
def SPN_CFG.MGR_SRC : Fld := ⟨.SPN_CFG, 2, 2⟩
def SPN_CFG.SRC : Fld := ⟨.SPN_CFG, 0, 2⟩
def SPN_SERVO.LOCK_NS : Fld := ⟨.SPN_SERVO, 16, 8⟩
def SPN_SERVO.STEP_NS : Fld := ⟨.SPN_SERVO, 0, 16⟩
def SPN_STAT.STATE : Fld := ⟨.SPN_STAT, 30, 2⟩
def SPN_ERR.E : Fld := ⟨.SPN_ERR, 0, 32⟩
def SPN_PPS_IN_CORR.CORR : Fld := ⟨.SPN_PPS_IN_CORR, 0, 32⟩
def SPN_SYNC_IN_CORR.CORR : Fld := ⟨.SPN_SYNC_IN_CORR, 0, 32⟩
def SPN_PPS_OUT_CORR.CORR : Fld := ⟨.SPN_PPS_OUT_CORR, 0, 32⟩
def SPN_SYNC_OUT_CORR.CORR : Fld := ⟨.SPN_SYNC_OUT_CORR, 0, 32⟩
def SPN_PPS_CAP.SEC : Fld := ⟨.SPN_PPS_CAP, 48, 48⟩
def SPN_PPS_CAP.NS : Fld := ⟨.SPN_PPS_CAP, 16, 30⟩
def SPN_PPS_CAP.FRAC : Fld := ⟨.SPN_PPS_CAP, 0, 16⟩
def SPN_PPS_OUT.OWNER_ID : Fld := ⟨.SPN_PPS_OUT, 16, 16⟩
def SPN_PPS_OUT.EN : Fld := ⟨.SPN_PPS_OUT, 15, 1⟩
def SPN_PPS_OUT.WIDTH : Fld := ⟨.SPN_PPS_OUT, 0, 9⟩
def SPN_SYNC_OUT_OWNER.CAS : Fld := ⟨.SPN_SYNC_OUT_OWNER, 31, 1⟩
def SPN_SYNC_OUT_OWNER.RELEASE : Fld := ⟨.SPN_SYNC_OUT_OWNER, 30, 1⟩
def SPN_SYNC_OUT_OWNER.OWNER : Fld := ⟨.SPN_SYNC_OUT_OWNER, 0, 16⟩
def SPN_ACT_FAIL.VALID : Fld := ⟨.SPN_ACT_FAIL, 31, 1⟩
def SPN_ACT_FAIL.CAUSE : Fld := ⟨.SPN_ACT_FAIL, 28, 3⟩
def SPN_ACT_FAIL.INDEX : Fld := ⟨.SPN_ACT_FAIL, 0, 12⟩
def SPN_TIMER_FIFO.VALID : Fld := ⟨.SPN_TIMER_FIFO, 31, 1⟩
def SPN_TIMER_FIFO.INDEX : Fld := ⟨.SPN_TIMER_FIFO, 0, 12⟩
def SPN_ACT_CMD.GO : Fld := ⟨.SPN_ACT_CMD, 255, 1⟩
def SPN_ACT_CMD.OP : Fld := ⟨.SPN_ACT_CMD, 252, 3⟩
def SPN_ACT_CMD.INDEX : Fld := ⟨.SPN_ACT_CMD, 240, 12⟩
def SPN_ACT_CMD.OWNER_ID : Fld := ⟨.SPN_ACT_CMD, 224, 16⟩
def SPN_ACT_CMD.KIND : Fld := ⟨.SPN_ACT_CMD, 221, 3⟩
def SPN_ACT_CMD.SEC : Fld := ⟨.SPN_ACT_CMD, 160, 48⟩
def SPN_ACT_CMD.NS : Fld := ⟨.SPN_ACT_CMD, 128, 30⟩
def SPN_ACT_CMD.PERIOD : Fld := ⟨.SPN_ACT_CMD, 96, 30⟩
def SPN_ACT_CMD.ADDR : Fld := ⟨.SPN_ACT_CMD, 68, 28⟩
def SPN_ACT_CMD.DATA : Fld := ⟨.SPN_ACT_CMD, 32, 32⟩
def SPN_ACT_CMD.SET : Fld := ⟨.SPN_ACT_CMD, 0, 2⟩
def SPN_ACT_RES.VALID : Fld := ⟨.SPN_ACT_RES, 255, 1⟩
def SPN_ACT_RES.ENTRY : Fld := ⟨.SPN_ACT_RES, 0, 252⟩
def SPN_GCL_ADDR.PORT : Fld := ⟨.SPN_GCL_ADDR, 16, 7⟩
def SPN_GCL_ADDR.BANK : Fld := ⟨.SPN_GCL_ADDR, 10, 1⟩
def SPN_GCL_ADDR.ENTRY : Fld := ⟨.SPN_GCL_ADDR, 0, 10⟩
def SPN_GCL_DATA.ENTRY : Fld := ⟨.SPN_GCL_DATA, 0, 64⟩
def SPN_GATEn_ADMIN.GO : Fld := ⟨.SPN_GATEn_ADMIN, 127, 1⟩
def SPN_GATEn_ADMIN.OP : Fld := ⟨.SPN_GATEn_ADMIN, 125, 2⟩
def SPN_GATEn_ADMIN.LENGTH : Fld := ⟨.SPN_GATEn_ADMIN, 114, 11⟩
def SPN_GATEn_ADMIN.CYCLE : Fld := ⟨.SPN_GATEn_ADMIN, 78, 30⟩
def SPN_GATEn_ADMIN.BASE_SEC : Fld := ⟨.SPN_GATEn_ADMIN, 30, 48⟩
def SPN_GATEn_ADMIN.BASE_NS : Fld := ⟨.SPN_GATEn_ADMIN, 0, 30⟩
def SPN_GATEn_STAT.STATE : Fld := ⟨.SPN_GATEn_STAT, 31, 1⟩
def SPN_GATEn_STAT.PEND : Fld := ⟨.SPN_GATEn_STAT, 30, 1⟩
def SPN_GATEn_STAT.BANK : Fld := ⟨.SPN_GATEn_STAT, 29, 1⟩
def SPN_GATEn_STAT.GATES : Fld := ⟨.SPN_GATEn_STAT, 21, 8⟩
def SPN_GATEn_STAT.ENTRY : Fld := ⟨.SPN_GATEn_STAT, 11, 10⟩
def SPN_GATEn_ADJ_BASE.LATE : Fld := ⟨.SPN_GATEn_ADJ_BASE, 95, 1⟩
def SPN_GATEn_ADJ_BASE.SEC : Fld := ⟨.SPN_GATEn_ADJ_BASE, 30, 48⟩
def SPN_GATEn_ADJ_BASE.NS : Fld := ⟨.SPN_GATEn_ADJ_BASE, 0, 30⟩
def SPN_X_CFG.OVERSIZE_SEND : Fld := ⟨.SPN_X_CFG, 1, 1⟩
def SPN_X_CFG.STRICT : Fld := ⟨.SPN_X_CFG, 0, 1⟩
def FAB_LANE_EN.EN : Fld := ⟨.FAB_LANE_EN, 0, 8⟩
def FAB_POLARITY.TX_INV : Fld := ⟨.FAB_POLARITY, 8, 8⟩
def FAB_POLARITY.RX_INV : Fld := ⟨.FAB_POLARITY, 0, 8⟩
def FAB_LINKk_STAT.STATE : Fld := ⟨.FAB_LINKk_STAT, 29, 3⟩
def FAB_LINKk_STAT.LAGGING : Fld := ⟨.FAB_LINKk_STAT, 28, 1⟩
def FAB_LINKk_STAT.WEIGHT : Fld := ⟨.FAB_LINKk_STAT, 21, 7⟩
def FAB_LINKk_STAT.SUB : Fld := ⟨.FAB_LINKk_STAT, 20, 1⟩
def FAB_LINKk_STAT.SUB_LINK : Fld := ⟨.FAB_LINKk_STAT, 12, 8⟩
def FAB_LINKk_STAT.USED : Fld := ⟨.FAB_LINKk_STAT, 0, 10⟩
def FAB_LINKk_FAR.VALID : Fld := ⟨.FAB_LINKk_FAR, 31, 1⟩
def FAB_LINKk_FAR.ROLE : Fld := ⟨.FAB_LINKk_FAR, 30, 1⟩
def FAB_LINKk_FAR.FAR_ID : Fld := ⟨.FAB_LINKk_FAR, 16, 8⟩
def FAB_LINKk_FAR.FAR_LINK : Fld := ⟨.FAB_LINKk_FAR, 8, 8⟩
def FAB_LINKk_REACH.REACH : Fld := ⟨.FAB_LINKk_REACH, 0, 64⟩
def FAB_LINKk_LAG.RETX_PPM : Fld := ⟨.FAB_LINKk_LAG, 16, 16⟩
def FAB_LINKk_LAG.LAT_NS : Fld := ⟨.FAB_LINKk_LAG, 0, 16⟩
def FCT_CFG.AUTO_SPARE : Fld := ⟨.FCT_CFG, 1, 1⟩
def FCT_CFG.NO_CAND : Fld := ⟨.FCT_CFG, 0, 1⟩
def FCT_MGR_CFG.MGR_TMO : Fld := ⟨.FCT_MGR_CFG, 16, 16⟩
def FCT_MGR_CMD.HANDOVER : Fld := ⟨.FCT_MGR_CMD, 31, 1⟩
def FCT_MGR_STAT.ROLE : Fld := ⟨.FCT_MGR_STAT, 30, 2⟩
def FCT_MGR_STAT.MGR_VALID : Fld := ⟨.FCT_MGR_STAT, 29, 1⟩
def FCT_MGR_STAT.MGR_DEV : Fld := ⟨.FCT_MGR_STAT, 23, 6⟩
def FCT_MGR_STAT.STBY_VALID : Fld := ⟨.FCT_MGR_STAT, 22, 1⟩
def FCT_MGR_STAT.STBY_DEV : Fld := ⟨.FCT_MGR_STAT, 16, 6⟩
def FCT_MGR_STAT.TERM : Fld := ⟨.FCT_MGR_STAT, 0, 16⟩
def FCT_MEMBERS.SET : Fld := ⟨.FCT_MEMBERS, 0, 64⟩
def FCT_REACH.SET : Fld := ⟨.FCT_REACH, 0, 64⟩
def FCT_SPARE.FREE : Fld := ⟨.FCT_SPARE, 0, 4⟩
def FCT_X_LINK.REPLAY_TMO : Fld := ⟨.FCT_X_LINK, 20, 12⟩
def FCT_X_LINK.REPLAY_LIMIT : Fld := ⟨.FCT_X_LINK, 16, 4⟩
def FCT_X_LINK.REORDER_NS : Fld := ⟨.FCT_X_LINK, 0, 16⟩
def FCT_X_LAG.LAG_NS : Fld := ⟨.FCT_X_LAG, 16, 16⟩
def FCT_X_LAG.RETX_PPM : Fld := ⟨.FCT_X_LAG, 0, 16⟩
def FCT_X_LAG1.INT_US : Fld := ⟨.FCT_X_LAG1, 16, 16⟩
def FCT_X_LAG1.RECOVER : Fld := ⟨.FCT_X_LAG1, 8, 8⟩
def FCT_X_LAG1.SUB_INT : Fld := ⟨.FCT_X_LAG1, 0, 8⟩
def SVC_DIVERTk.EN : Fld := ⟨.SVC_DIVERTk, 31, 1⟩
def SVC_DIVERTk.HOSTQ : Fld := ⟨.SVC_DIVERTk, 0, 6⟩
def SVC_RING_BASE.BASE : Fld := ⟨.SVC_RING_BASE, 4, 60⟩
def SVC_RING_CFG.SIZE_LOG2 : Fld := ⟨.SVC_RING_CFG, 0, 5⟩
def SVC_RING_HEAD.HEAD : Fld := ⟨.SVC_RING_HEAD, 0, 16⟩
def SVC_RING_TAIL.TAIL : Fld := ⟨.SVC_RING_TAIL, 0, 16⟩
def SVC_FW_CMD.GO : Fld := ⟨.SVC_FW_CMD, 31, 1⟩
def SVC_FW_CMD.OP : Fld := ⟨.SVC_FW_CMD, 30, 1⟩
def SVC_FW_CMD.SLOT : Fld := ⟨.SVC_FW_CMD, 29, 1⟩
def SVC_FW_STAT.RUN : Fld := ⟨.SVC_FW_STAT, 30, 2⟩
def SVC_FW_STAT.STATE_A : Fld := ⟨.SVC_FW_STAT, 28, 2⟩
def SVC_FW_STAT.STATE_B : Fld := ⟨.SVC_FW_STAT, 26, 2⟩
def SVC_FW_STAT.SWITCHING : Fld := ⟨.SVC_FW_STAT, 25, 1⟩
def SVC_FW_STAT.VERSION : Fld := ⟨.SVC_FW_STAT, 0, 16⟩
def SVC_WHEEL_CMD.GO : Fld := ⟨.SVC_WHEEL_CMD, 63, 1⟩
def SVC_WHEEL_CMD.RELEASE : Fld := ⟨.SVC_WHEEL_CMD, 62, 1⟩
def SVC_WHEEL_CMD.SLOT : Fld := ⟨.SVC_WHEEL_CMD, 32, 16⟩
def SVC_WHEEL_CMD.OWNER_ID : Fld := ⟨.SVC_WHEEL_CMD, 16, 16⟩
def SVC_WHEEL_CMD.PERIOD : Fld := ⟨.SVC_WHEEL_CMD, 0, 16⟩
def SVC_WHEEL_FREE.FREE : Fld := ⟨.SVC_WHEEL_FREE, 0, 17⟩
def SVC_MBOX_CMD.GO : Fld := ⟨.SVC_MBOX_CMD, 511, 1⟩
def SVC_MBOX_CMD.OP : Fld := ⟨.SVC_MBOX_CMD, 504, 7⟩
def SVC_MBOX_CMD.ARG : Fld := ⟨.SVC_MBOX_CMD, 0, 504⟩
def SVC_MBOX_RES.STATUS : Fld := ⟨.SVC_MBOX_RES, 504, 8⟩
def SVC_MBOX_RES.DATA : Fld := ⟨.SVC_MBOX_RES, 0, 504⟩
def HIF_LINK.BME : Fld := ⟨.HIF_LINK, 11, 1⟩
def HIF_LINK.LP : Fld := ⟨.HIF_LINK, 10, 1⟩
def HIF_LINK.DSTATE : Fld := ⟨.HIF_LINK, 8, 2⟩
def HIF_LINK.WIDTH : Fld := ⟨.HIF_LINK, 4, 4⟩
def HIF_LINK.SPEED : Fld := ⟨.HIF_LINK, 0, 2⟩
def HIF_RINGn_BASE.BASE : Fld := ⟨.HIF_RINGn_BASE, 6, 58⟩
def HIF_RINGn_CFG.EN : Fld := ⟨.HIF_RINGn_CFG, 31, 1⟩
def HIF_RINGn_CFG.SIZE_LOG2 : Fld := ⟨.HIF_RINGn_CFG, 24, 5⟩
def HIF_RINGn_CFG.BUF_LOG2 : Fld := ⟨.HIF_RINGn_CFG, 20, 4⟩
def HIF_RINGn_CFG.NOBUF_DROP : Fld := ⟨.HIF_RINGn_CFG, 19, 1⟩
def HIF_RINGn_CFG.WDOG_MS : Fld := ⟨.HIF_RINGn_CFG, 0, 16⟩
def HIF_RINGn_TAIL.TAIL : Fld := ⟨.HIF_RINGn_TAIL, 0, 16⟩
def HIF_RINGn_HEAD.HEAD : Fld := ⟨.HIF_RINGn_HEAD, 0, 16⟩
def HIF_RINGn_STAT.STATE : Fld := ⟨.HIF_RINGn_STAT, 30, 2⟩
def HIF_RINGn_STAT.CODE : Fld := ⟨.HIF_RINGn_STAT, 0, 8⟩
def HIF_CQn_BASE.BASE : Fld := ⟨.HIF_CQn_BASE, 6, 58⟩
def HIF_CQn_CFG.EN : Fld := ⟨.HIF_CQn_CFG, 31, 1⟩
def HIF_CQn_CFG.SIZE_LOG2 : Fld := ⟨.HIF_CQn_CFG, 24, 5⟩
def HIF_CQn_CFG.VECTOR : Fld := ⟨.HIF_CQn_CFG, 0, 9⟩
def HIF_CQn_MOD.MAX_US : Fld := ⟨.HIF_CQn_MOD, 16, 16⟩
def HIF_CQn_MOD.CNT : Fld := ⟨.HIF_CQn_MOD, 8, 8⟩
def HIF_CQn_MOD.TIME_US : Fld := ⟨.HIF_CQn_MOD, 0, 8⟩
def HIF_CQn_HEAD.ARM : Fld := ⟨.HIF_CQn_HEAD, 31, 1⟩
def HIF_CQn_HEAD.HEAD : Fld := ⟨.HIF_CQn_HEAD, 0, 16⟩
def HIF_CQn_TAIL.PHASE : Fld := ⟨.HIF_CQn_TAIL, 31, 1⟩
def HIF_CQn_TAIL.TAIL : Fld := ⟨.HIF_CQn_TAIL, 0, 16⟩
def HIF_CQn_STAT.ARMED : Fld := ⟨.HIF_CQn_STAT, 31, 1⟩
def HIF_CQn_STAT.UNANN : Fld := ⟨.HIF_CQn_STAT, 0, 16⟩
def MGT_CFG.RST_EN : Fld := ⟨.MGT_CFG, 0, 1⟩
def MGT_STAT.DA_VALID : Fld := ⟨.MGT_STAT, 31, 1⟩
def MGT_STAT.DA : Fld := ⟨.MGT_STAT, 24, 7⟩
def MGT_STAT.STATIC : Fld := ⟨.MGT_STAT, 17, 7⟩
def MGT_STAT.ENINT : Fld := ⟨.MGT_STAT, 16, 1⟩
def MGT_STAT.RSTACT : Fld := ⟨.MGT_STAT, 8, 8⟩
def MGT_RST_REQ.KEY : Fld := ⟨.MGT_RST_REQ, 0, 8⟩
def EVT_GRPg_CFG.MSIX : Fld := ⟨.EVT_GRPg_CFG, 31, 1⟩
def EVT_GRPg_CFG.I3C : Fld := ⟨.EVT_GRPg_CFG, 30, 1⟩
def EVT_GRPg_CFG.ALERT : Fld := ⟨.EVT_GRPg_CFG, 29, 1⟩
def EVT_GRPg_CFG.GAP_US : Fld := ⟨.EVT_GRPg_CFG, 16, 8⟩
def EVT_GRPg_CFG.VECTOR : Fld := ⟨.EVT_GRPg_CFG, 0, 9⟩
def EVT_GRP_ACTIVE.ACTIVE : Fld := ⟨.EVT_GRP_ACTIVE, 0, 64⟩
def EVT_GRP_RAISED.RAISED : Fld := ⟨.EVT_GRP_RAISED, 0, 64⟩
def EVT_EOI.GROUP : Fld := ⟨.EVT_EOI, 0, 6⟩
def EVT_QUERY.VALID : Fld := ⟨.EVT_QUERY, 31, 1⟩
def EVT_QUERY.PAGE : Fld := ⟨.EVT_QUERY, 16, 12⟩
def EVT_QUERY.GROUP : Fld := ⟨.EVT_QUERY, 0, 6⟩
def EVT_ALERT.OWNER_ID : Fld := ⟨.EVT_ALERT, 16, 16⟩
def EVT_ALERT.EN : Fld := ⟨.EVT_ALERT, 0, 1⟩
def EVT_VEC_HELDw.HELD : Fld := ⟨.EVT_VEC_HELDw, 0, 32⟩
def AON_CFG.WAKE_PIN : Fld := ⟨.AON_CFG, 0, 1⟩
def AON_STAT.WAKE_ASSERTED : Fld := ⟨.AON_STAT, 31, 1⟩
def AON_STAT.LAST_VALID : Fld := ⟨.AON_STAT, 30, 1⟩
def AON_STAT.LAST_ENTRY : Fld := ⟨.AON_STAT, 0, 6⟩
def AON_WATCHk.EN : Fld := ⟨.AON_WATCHk, 31, 1⟩
def AON_WATCHk.VECTOR : Fld := ⟨.AON_WATCHk, 0, 9⟩
def CNT_ACC.GO : Fld := ⟨.CNT_ACC, 255, 1⟩
def CNT_ACC.OP : Fld := ⟨.CNT_ACC, 253, 2⟩
def CNT_ACC.INDEX : Fld := ⟨.CNT_ACC, 224, 21⟩
def CNT_ACC.PKTS : Fld := ⟨.CNT_ACC, 64, 64⟩
def CNT_ACC.BYTES : Fld := ⟨.CNT_ACC, 0, 64⟩
def CNT_ACC_RES.PKTS : Fld := ⟨.CNT_ACC_RES, 64, 64⟩
def CNT_ACC_RES.BYTES : Fld := ⟨.CNT_ACC_RES, 0, 64⟩
def CNT_CFG.ING_ADJ : Fld := ⟨.CNT_CFG, 8, 8⟩
def CNT_CFG.EG_ADJ : Fld := ⟨.CNT_CFG, 0, 8⟩
def CNT_SNAP_CFG.EN : Fld := ⟨.CNT_SNAP_CFG, 127, 1⟩
def CNT_SNAP_CFG.PORT_EN : Fld := ⟨.CNT_SNAP_CFG, 126, 1⟩
def CNT_SNAP_CFG.PORT_DEST : Fld := ⟨.CNT_SNAP_CFG, 86, 21⟩
def CNT_SNAP_CFG.COUNT : Fld := ⟨.CNT_SNAP_CFG, 64, 22⟩
def CNT_SNAP_CFG.DEST : Fld := ⟨.CNT_SNAP_CFG, 32, 21⟩
def CNT_SNAP_CFG.FIRST : Fld := ⟨.CNT_SNAP_CFG, 0, 21⟩
def CNT_SNAP_CMD.GO : Fld := ⟨.CNT_SNAP_CMD, 31, 1⟩
def CNT_SNAP_CMD.SET : Fld := ⟨.CNT_SNAP_CMD, 0, 2⟩
def CNT_SNAP_STAT.STATE : Fld := ⟨.CNT_SNAP_STAT, 126, 2⟩
def CNT_SNAP_STAT.SET : Fld := ⟨.CNT_SNAP_STAT, 124, 2⟩
def CNT_SNAP_STAT.SEQ : Fld := ⟨.CNT_SNAP_STAT, 96, 16⟩
def CNT_SNAP_STAT.SEC : Fld := ⟨.CNT_SNAP_STAT, 30, 48⟩
def CNT_SNAP_STAT.NS : Fld := ⟨.CNT_SNAP_STAT, 0, 30⟩
def CNT_ECC_ADDR.VALID : Fld := ⟨.CNT_ECC_ADDR, 31, 1⟩
def CNT_ECC_ADDR.WORD : Fld := ⟨.CNT_ECC_ADDR, 21, 1⟩
def CNT_ECC_ADDR.INDEX : Fld := ⟨.CNT_ECC_ADDR, 0, 21⟩
def HWD_STAT.STATE : Fld := ⟨.HWD_STAT, 30, 2⟩
def HWD_STAT.CAL_VALID : Fld := ⟨.HWD_STAT, 29, 1⟩
def HWD_STAT.SPARES : Fld := ⟨.HWD_STAT, 10, 10⟩
def HWD_STAT.REMAPPED : Fld := ⟨.HWD_STAT, 0, 10⟩
def HWD_UTC.SECONDS : Fld := ⟨.HWD_UTC, 0, 64⟩
def HWD_WIN_ADDR.BYTE : Fld := ⟨.HWD_WIN_ADDR, 0, 22⟩
def HWD_WIN_DATA.DATA : Fld := ⟨.HWD_WIN_DATA, 0, 64⟩
def HWD_PTR.HOURLY_NEXT : Fld := ⟨.HWD_PTR, 16, 10⟩
def HWD_PTR.DAILY_NEXT : Fld := ⟨.HWD_PTR, 0, 13⟩
def HWD_PTR1.LOG_NEXT : Fld := ⟨.HWD_PTR1, 0, 13⟩
def HWD_AGE_ALARM.PPM : Fld := ⟨.HWD_AGE_ALARM, 0, 16⟩
def HWD_FLUSH.GO : Fld := ⟨.HWD_FLUSH, 31, 1⟩
def HWD_TOTALS.TOTAL : Fld := ⟨.HWD_TOTALS, 0, 64⟩
def MEM_CFG.RET_IDLE_US : Fld := ⟨.MEM_CFG, 0, 16⟩
def MEM_GRANTr.PENDING : Fld := ⟨.MEM_GRANTr, 31, 1⟩
def MEM_GRANTr.TESTING : Fld := ⟨.MEM_GRANTr, 30, 1⟩
def MEM_GRANTr.EXPECT : Fld := ⟨.MEM_GRANTr, 16, 3⟩
def MEM_GRANTr.CORE : Fld := ⟨.MEM_GRANTr, 8, 3⟩
def MEM_GRANTr.OWNER : Fld := ⟨.MEM_GRANTr, 0, 3⟩
def MEM_TEST_CTRL.GO : Fld := ⟨.MEM_TEST_CTRL, 31, 1⟩
def MEM_TEST_CTRL.COUNT_M1 : Fld := ⟨.MEM_TEST_CTRL, 8, 2⟩
def MEM_TEST_CTRL.FIRST : Fld := ⟨.MEM_TEST_CTRL, 0, 7⟩
def MEM_TEST_STAT.STATE : Fld := ⟨.MEM_TEST_STAT, 30, 2⟩
def MEM_TEST_STAT.CHUNKS : Fld := ⟨.MEM_TEST_STAT, 0, 12⟩
def MEM_TEST_ERR.REGION : Fld := ⟨.MEM_TEST_ERR, 57, 7⟩
def MEM_TEST_ERR.WORD : Fld := ⟨.MEM_TEST_ERR, 37, 15⟩
def MEM_TEST_ERR.FAILS : Fld := ⟨.MEM_TEST_ERR, 0, 32⟩
def VLT_STAT.LC : Fld := ⟨.VLT_STAT, 30, 2⟩
def VLT_STAT.TAMPER : Fld := ⟨.VLT_STAT, 29, 1⟩
def VLT_STAT.WIPING : Fld := ⟨.VLT_STAT, 28, 1⟩
def VLT_STAT.USED : Fld := ⟨.VLT_STAT, 0, 15⟩
def VLT_ADDR.ADDR : Fld := ⟨.VLT_ADDR, 3, 61⟩
def VLT_CMD.GO : Fld := ⟨.VLT_CMD, 31, 1⟩
def VLT_CMD.OP : Fld := ⟨.VLT_CMD, 29, 2⟩
def VLT_CMD.FORMAT : Fld := ⟨.VLT_CMD, 28, 1⟩
def VLT_CMD.HANDLE : Fld := ⟨.VLT_CMD, 0, 15⟩
def VLT_RES.STATUS : Fld := ⟨.VLT_RES, 24, 8⟩
def VLT_RES.TYPE : Fld := ⟨.VLT_RES, 16, 8⟩
def VLT_RES.HANDLE : Fld := ⟨.VLT_RES, 0, 15⟩
def VLT_LC.GO : Fld := ⟨.VLT_LC, 31, 1⟩
def VLT_LC.TARGET : Fld := ⟨.VLT_LC, 16, 2⟩
def VLT_LC.KEY : Fld := ⟨.VLT_LC, 0, 16⟩
def GLB_ID.PART : Fld := ⟨.GLB_ID, 16, 16⟩
def GLB_ID.FE_REV : Fld := ⟨.GLB_ID, 8, 8⟩
def GLB_ID.TM_REV : Fld := ⟨.GLB_ID, 0, 8⟩
def GLB_SERIAL.SERIAL : Fld := ⟨.GLB_SERIAL, 0, 64⟩
def GLB_STRAP.DEV_ID : Fld := ⟨.GLB_STRAP, 8, 6⟩
def GLB_STRAP.I3C_ADDR : Fld := ⟨.GLB_STRAP, 4, 3⟩
def GLB_STRAP.MGR_SEL : Fld := ⟨.GLB_STRAP, 0, 1⟩
def GLB_BOOT.PHASE : Fld := ⟨.GLB_BOOT, 28, 4⟩
def GLB_BOOT.FAIL : Fld := ⟨.GLB_BOOT, 8, 6⟩
def GLB_RST.KEY : Fld := ⟨.GLB_RST, 16, 16⟩
def GLB_RST.SCOPE : Fld := ⟨.GLB_RST, 0, 2⟩
def GLB_RST_CAUSE.CHIP_CAUSE : Fld := ⟨.GLB_RST_CAUSE, 30, 2⟩
def GLB_RST_CAUSE.CTL_SRC : Fld := ⟨.GLB_RST_CAUSE, 28, 2⟩
def GLB_RST_CAUSE.CTL_SEEN : Fld := ⟨.GLB_RST_CAUSE, 27, 1⟩
def GLB_BAD_ACCESS.COUNT : Fld := ⟨.GLB_BAD_ACCESS, 0, 32⟩
def GLB_BAD_ADDR.VALID : Fld := ⟨.GLB_BAD_ADDR, 31, 1⟩
def GLB_BAD_ADDR.ADDR : Fld := ⟨.GLB_BAD_ADDR, 0, 28⟩
def GLB_TEMP.TM : Fld := ⟨.GLB_TEMP, 8, 8⟩
def GLB_TEMP.FE : Fld := ⟨.GLB_TEMP, 0, 8⟩
def GLB_PWR_TOTAL.SEQ : Fld := ⟨.GLB_PWR_TOTAL, 24, 8⟩
def GLB_PWR_TOTAL.MW : Fld := ⟨.GLB_PWR_TOTAL, 0, 24⟩
def GLB_PWR_RAILk.MW : Fld := ⟨.GLB_PWR_RAILk, 0, 24⟩
def GLB_PWR_PEAK.MW : Fld := ⟨.GLB_PWR_PEAK, 0, 24⟩
def CLK_REF_STAT.SYSCLK_OK : Fld := ⟨.CLK_REF_STAT, 9, 1⟩
def CLK_REF_STAT.PCIE_OK : Fld := ⟨.CLK_REF_STAT, 8, 1⟩
def CLK_REF_STAT.LINE_OK : Fld := ⟨.CLK_REF_STAT, 4, 4⟩
def CLK_REF_STAT.FAB_OK : Fld := ⟨.CLK_REF_STAT, 0, 4⟩
def CLK_ISLn.STOP : Fld := ⟨.CLK_ISLn, 31, 1⟩
def CLK_ISLn.MHZ : Fld := ⟨.CLK_ISLn, 8, 12⟩
def CLK_ISLn.STATE : Fld := ⟨.CLK_ISLn, 0, 4⟩
def CLK_X_ISLn.FORCE_ON : Fld := ⟨.CLK_X_ISLn, 0, 1⟩

/-- The profile and template registers of bank b (0: A, 1: B). -/
def profReg (b : Nat) : Reg := if b = 0 then .HDS_PROFA else .HDS_PROFB
def tmplReg (b : Nat) : Reg := if b = 0 then .HDS_TMPLA else .HDS_TMPLB
def HDS_PROF.KIND (b k : Nat) : Fld := ⟨profReg b, 32 * k + 29, 3⟩
def HDS_PROF.TEMPLATE (b k : Nat) : Fld := ⟨profReg b, 32 * k + 23, 6⟩
def HDS_PROF.ARG (b k : Nat) : Fld := ⟨profReg b, 32 * k, 16⟩
def HDS_PROF.SEED (b : Nat) : Fld := ⟨profReg b, 192, 32⟩
def HDS_PROF.VALID (b : Nat) : Fld := ⟨profReg b, 255, 1⟩
def HDS_PROF.HASH_INNER (b : Nat) : Fld := ⟨profReg b, 254, 1⟩
def HDS_PROF.NLOOK (b : Nat) : Fld := ⟨profReg b, 251, 3⟩
def HDS_TMPL.SRC (b k : Nat) : Fld := ⟨tmplReg b, 32 * k + 28, 4⟩
def HDS_TMPL.OFS (b k : Nat) : Fld := ⟨tmplReg b, 32 * k + 20, 8⟩
def HDS_TMPL.BITOFS (b k : Nat) : Fld := ⟨tmplReg b, 32 * k + 17, 3⟩
def HDS_TMPL.ABSENT_ZERO (b k : Nat) : Fld := ⟨tmplReg b, 32 * k + 16, 1⟩
def HDS_TMPL.LEN (b k : Nat) : Fld := ⟨tmplReg b, 32 * k + 8, 8⟩
def HDS_TMPL.CONST (b : Nat) : Fld := ⟨tmplReg b, 512, 32⟩

/-- The registers whose places may lie in page p, beside the Faceplate and the performance counters that every page has (R32). -/
def regsOfPage (p : Nat) : List Reg :=
  if p = 0x0 then [.GLB_ID, .GLB_SERIAL, .GLB_STRAP, .GLB_BOOT, .GLB_RST, .GLB_RST_CAUSE, .GLB_BAD_ACCESS, .GLB_BAD_ADDR, .GLB_TEMP, .GLB_PWR_TOTAL, .GLB_PWR_RAILk, .GLB_PWR_PEAK]
  else if p = 0x1 then [.HIF_LINK, .HIF_RINGn_BASE, .HIF_RINGn_CFG, .HIF_RINGn_TAIL, .HIF_RINGn_HEAD, .HIF_RINGn_STAT, .HIF_CQn_BASE, .HIF_CQn_CFG, .HIF_CQn_MOD, .HIF_CQn_HEAD, .HIF_CQn_TAIL, .HIF_CQn_STAT]
  else if p = 0x2 then [.EVT_GRPg_CFG, .EVT_GRP_ACTIVE, .EVT_GRP_RAISED, .EVT_EOI, .EVT_QUERY, .EVT_ALERT, .EVT_VEC_HELDw]
  else if p = 0x3 then [.AON_CFG, .AON_STAT, .AON_WATCHk]
  else if p = 0x4 then [.SPN_TIME, .SPN_ADJ, .SPN_RATE, .SPN_CFG, .SPN_SERVO, .SPN_STAT, .SPN_ERR, .SPN_PPS_IN_CORR, .SPN_SYNC_IN_CORR, .SPN_PPS_OUT_CORR, .SPN_SYNC_OUT_CORR, .SPN_PPS_CAP, .SPN_PPS_OUT, .SPN_SYNC_OUT_OWNER, .SPN_ACT_FAIL, .SPN_TIMER_FIFO, .SPN_ACT_CMD, .SPN_ACT_RES, .SPN_GCL_ADDR, .SPN_GCL_DATA, .SPN_GATEn_ADMIN, .SPN_GATEn_STAT, .SPN_GATEn_ADJ_BASE, .SPN_X_CFG]
  else if p = 0x5 then [.MGT_CFG, .MGT_STAT, .MGT_RST_REQ]
  else if p = 0x6 then [.HWD_STAT, .HWD_UTC, .HWD_WIN_ADDR, .HWD_WIN_DATA, .HWD_PTR, .HWD_PTR1, .HWD_AGE_ALARM, .HWD_FLUSH, .HWD_TOTALS]
  else if p = 0x7 then [.VLT_STAT, .VLT_ADDR, .VLT_CMD, .VLT_RES, .VLT_LC]
  else if p = 0x8 then [.SVC_DIVERTk, .SVC_RING_BASE, .SVC_RING_CFG, .SVC_RING_HEAD, .SVC_RING_TAIL, .SVC_FW_CMD, .SVC_FW_STAT, .SVC_WHEEL_CMD, .SVC_WHEEL_FREE, .SVC_MBOX_CMD, .SVC_MBOX_RES]
  else if p = 0x9 then [.CLK_REF_STAT, .CLK_ISLn, .CLK_X_ISLn]
  else if 0x10 ≤ p ∧ p < 0x30 then [.LPG_PORTn_CFG, .LPG_PORTn_STAT, .LPG_PORTn_TS_ING_CORR, .LPG_PORTn_TS_EGR_CORR, .LPG_PORTn_PREEMPT, .LPG_PORTn_MSEC, .LPG_PORTn_REPLAY_WIN, .LPG_PORTn_PN_NEAR, .LPG_PORTn_TS_FIFO, .LPG_PORTn_TS_CNT, .LPG_MODE, .LPG_LANE_MAP, .LPG_SA_CMD, .LPG_SA_DATA]
  else if p = 0x30 then [.HDS_CFG, .HDS_UDP_PORTS, .HDS_UDP_PORTS1, .HDS_PORTn_CFG, .HDS_PORTn_META, .HDS_DPk_CFG]
  else if p = 0x31 then [.HDS_PROFA, .HDS_PROFB]
  else if p = 0x32 then [.HDS_TMPLA, .HDS_TMPLB]
  else if p = 0x33 then [.HDS_TRACE_CTRL, .HDS_TRACE_DATA]
  else if p = 0x34 then [.LPM_MISS_NHt, .LPM_CMD, .LPM_CMD_RES, .LPM_LOCKt, .LPM_LOCK_TMO, .LPM_UNITS, .LPM_PFX0, .LPM_PFX1, .LPM_ECC_ADDR, .LPM_STAGE_FREEk]
  else if p = 0x35 then [.LPM_MEM_ADDR, .LPM_MEM_DATA]
  else if p = 0x38 then [.XM_TBLn_CFG, .XM_TBLn_SEED, .XM_TBLn_LRN, .XM_TBLn_DATA, .XM_CMD, .XM_CMD_RES, .XM_LOCKn, .XM_LOCK_TMO, .XM_COUNTn, .XM_STASH, .XM_ECC_ADDR, .XM_INS_CFG]
  else if p = 0x39 then [.NHT_ACC, .NHT_LOCK, .NHT_LOCK_TMO, .NHT_ECC_ADDR]
  else if p = 0x3A then [.TCM_SLICEk_OWNER, .TCM_GRPAn, .TCM_GRPBn, .TCM_CMD, .TCM_RD, .TCM_SHADOW_ADDR, .TCM_SCRUB_CFG, .TCM_INJECT]
  else if p = 0x3B then [.BRL_REPLr, .BRL_CMD, .BRL_BANKA_STAT, .BRL_BANKB_STAT, .BRL_BANKA_CRC, .BRL_BANKB_CRC, .BRL_ECC_ADDR, .BRL_MEM_ADDR, .BRL_MEM_DATA]
  else if p = 0x3C then [.LRN_CFG, .LRN_PORT_MASKk, .LRN_FLAP, .LRN_STAT, .LRN_LOG_STAT, .LRN_LOG]
  else if 0x40 ≤ p ∧ p < 0x80 then [.ENG_CFG, .ENG_STAT, .ENG_IMEM_ADDR, .ENG_IMEM_DATA, .ENG_ECC_ADDR, .ENG_ILL_ADDR, .ENG_TRACE_CTRL, .ENG_TRACE_DATA, .ENG_DISP_CFG, .ENG_DISP_STAT, .ENG_DISP_X]
  else if p = 0x80 then [.EPC_CFG, .EPC_STAT, .EPC_SWITCH, .EPC_LAST, .EPC_INFLIGHTA, .EPC_INFLIGHTB, .EPC_DRAIN_TIME, .EPC_X_CFG]
  else if p = 0x81 then [.MDL_CFG, .MDL_STAT]
  else if p = 0x82 then [.TLS_PORTn_CFG]
  else if p = 0x90 then [.CHK_POOLn_CFG, .CHK_POOLn_SPILL, .CHK_POOLn_ADMIT, .CHK_POOLn_STAT, .CHK_POOLn_MIN, .CHK_POOLn_RETIRED, .CHK_SRCs_CFG, .CHK_CELL_CMD, .CHK_CELL_RES, .CHK_BADFREE_LOG, .CHK_MARCH_CTRL, .CHK_MARCH_STAT, .CHK_MARCH_ERR, .CHK_ECC_ADDR, .CHK_ALLOC_X, .CHK_INJECT]
  else if p = 0x91 then [.D2D_CFG, .D2D_STAT, .D2D_X_CAL]
  else if 0xA0 ≤ p ∧ p < 0xA4 then [.HBM_ID, .HBM_FREQ, .HBM_TRAIN_STAT, .HBM_RETRAIN, .HBM_TEMP, .HBM_SCRUB, .HBM_ERR_ADDR, .HBM_PCk_STAT, .HBM_X_WQ, .HBM_X_SLOW, .HBM_X_READ_TMO, .HBM_X_INJECT, .HBM_FREE_TOTAL]
  else if p = 0xB0 then [.TMS_CFG, .TMS_PORTn_CFG, .TMS_PORTn_EQ, .TMS_MIRk, .TMS_MIRk_OWNER, .TMS_X_TIE]
  else if p = 0xB1 then [.TMS_Q_CMD, .TMS_Q_RES, .TMS_QPROFp]
  else if p = 0xB2 then [.TMS_NODE_CMD, .TMS_NODE_RES]
  else if p = 0xB3 then [.TMS_WREDk]
  else if p = 0xB4 then [.TMS_CR_CFG, .TMS_CR_CLASSc, .TMS_CR_PORTn]
  else if p = 0xB8 then [.MTR_CMD, .MTR_RES, .MTR_PROFp]
  else if 0xC0 ≤ p ∧ p < 0xD5 then [.FAB_LANE_EN, .FAB_POLARITY, .FAB_LINKk_STAT, .FAB_LINKk_FAR, .FAB_LINKk_REACH, .FAB_LINKk_LAG]
  else if p = 0xD8 then [.FCT_CFG, .FCT_MGR_CFG, .FCT_MGR_CMD, .FCT_MGR_STAT, .FCT_MEMBERS, .FCT_REACH, .FCT_SPARE, .FCT_X_LINK, .FCT_X_LAG, .FCT_X_LAG1]
  else if p = 0xE0 then [.CNT_ACC, .CNT_ACC_RES, .CNT_CFG, .CNT_SNAP_CFG, .CNT_SNAP_CMD, .CNT_SNAP_STAT, .CNT_ECC_ADDR]
  else if p = 0xF0 then [.MEM_CFG, .MEM_GRANTr, .MEM_TEST_CTRL, .MEM_TEST_STAT, .MEM_TEST_ERR]
  else []

/-- Whether index i of a register exists: HDS_PORTn exists for n = 0–127, 240 and 249 only (04_headstock_parse.md). -/
def Reg.hasIndex (r : Reg) (i : Nat) : Bool :=
  match r with
  | .HDS_PORTn_CFG | .HDS_PORTn_META => i < 128 || i == 240 || i == 249
  | _ => true

/-- Byte address of word 0 of register r, instance g, index i. -/
def Reg.addr (r : Reg) (g i : Nat) : Nat := (r.lay.page + g) * 65536 + r.lay.ofs + r.lay.stride * i

/-- The place found at an address: the register, its instance, its index and the word. -/
structure Place where
  reg : Reg
  g : Nat
  i : Nat
  word : Nat
  deriving DecidableEq, Repr

/-- The word of r that lies at offset o of page p, if any. -/
def Reg.at? (r : Reg) (p o : Nat) : Option Place :=
  let l := r.lay
  if p < l.page ∨ l.page + l.npg ≤ p ∨ o < l.ofs then none
  else
    let d := o - l.ofs
    let i := if l.stride = 0 then 0 else d / l.stride
    let rem := if l.stride = 0 then d else d % l.stride
    if i < l.n ∧ rem < 4 * l.words ∧ r.hasIndex i then some ⟨r, p - l.page, i, rem / 4⟩ else none

/-- The register word at offset o of page p (R29, R32, R53). -/
def placeAt (p o : Nat) : Option Place :=
  (regsOfPage p).findSome? (·.at? p o)

/-- The 64-bit counters of each page: offset of the first and how many follow at stride 8
(R76, R110, R146, R172, R173, R213, R215, R238, R239, R269, R270, R297, R327, R328, R361, R396, R397, R414, R444, R445,
R463, R464, R488, R489, R512, R513, R528, R529). -/
def counterRuns (p : Nat) : List (Nat × Nat) :=
  if p = 0 then [(0x1000, 5)] else if p = 1 then [(0x1000, 12)] else if p = 2 then [(0x1000, 8)] else if p = 3 then [(0x1000, 4)]
  else if p = 4 then [(0x1000, 14), (0x4000, 256)] else if p = 5 then [(0x1000, 6)] else if p = 6 then [(0x1000, 6)]
  else if p = 7 then [(0x1000, 5)] else if p = 8 then [(0x1000, 8)] else if p = 9 then [(0x1000, 3)]
  else if 0x10 ≤ p ∧ p < 0x30 then [(0x1000, 32), (0x1400, 32), (0x1800, 32), (0x1C00, 32)]
  else if p = 0x30 then [(0x1000, 8)] else if p = 0x34 ∨ p = 0x38 ∨ p = 0x39 ∨ p = 0x3C then [(0x1000, 10)]
  else if p = 0x3A then [(0x1000, 8), (0x1100, 16)] else if p = 0x3B then [(0x1000, 8)]
  else if p = 0x40 then [(0x1000, 14)] else if 0x41 ≤ p ∧ p < 0x80 then [(0x1000, 12)]
  else if p = 0x80 then [(0x1000, 4)] else if p = 0x81 then [(0x1000, 8)] else if p = 0x82 then [(0x1000, 8)]
  else if p = 0x90 then [(0x1000, 12)] else if p = 0x91 then [(0x1000, 16)] else if 0xA0 ≤ p ∧ p < 0xA4 then [(0x1000, 12)]
  else if p = 0xB0 then [(0x1000, 14)] else if p = 0xB8 then [(0x1000, 4)]
  else if 0xC0 ≤ p ∧ p < 0xD5 then [(0x1000, 64)] else if p = 0xD8 then [(0x1000, 16)]
  else if p = 0xE0 then [(0x1000, 7)] else if p = 0xF0 then [(0x1000, 5)] else []

/-- Whether offset o of page p is a word of a 64-bit counter. -/
def isCounter (p o : Nat) : Bool :=
  o % 4 == 0 && (counterRuns p).any fun r => decide (r.1 ≤ o ∧ o < r.1 + 8 * r.2)

/-- Block type code of page p, 0 where no page exists (R29). -/
def typeCode (p : Nat) : Nat :=
  if p ≤ 9 then p + 1 else if 0x10 ≤ p ∧ p < 0x30 then 0x10 else if 0x30 ≤ p ∧ p < 0x34 then 0x20
  else if 0x34 ≤ p ∧ p < 0x38 then 0x21 else if p = 0x38 then 0x22 else if p = 0x39 then 0x23 else if p = 0x3A then 0x24
  else if p = 0x3B then 0x25 else if p = 0x3C then 0x26 else if 0x40 ≤ p ∧ p < 0x80 then 0x30 else if p = 0x80 then 0x31
  else if p = 0x81 then 0x32 else if p = 0x82 then 0x33 else if p = 0x90 then 0x40 else if p = 0x91 then 0x41
  else if 0xA0 ≤ p ∧ p < 0xA4 then 0x50 else if 0xB0 ≤ p ∧ p < 0xB8 then 0x60 else if p = 0xB8 then 0x61
  else if 0xC0 ≤ p ∧ p < 0xD5 then 0x70 else if p = 0xD8 then 0x71 else if p = 0xE0 then 0x80 else if p = 0xF0 then 0x81 else 0

/-- Whether page p exists (R29, R30). -/
def pageExists (p : Nat) : Bool := typeCode p != 0

/-- Every page of the page map (R29). -/
def allPages : List Nat :=
  List.range 10 ++ (List.range 32).map (· + 0x10) ++ (List.range 13).map (· + 0x30) ++ (List.range 64).map (· + 0x40) ++
  [0x80, 0x81, 0x82, 0x90, 0x91] ++ (List.range 4).map (· + 0xA0) ++ (List.range 9).map (· + 0xB0) ++
  (List.range 21).map (· + 0xC0) ++ [0xD8, 0xE0, 0xF0]

/-- FP_ID.INSTANCE (R31, R37): g, c, s or f of a repeated page; the index within a multi-page block; otherwise 0. -/
def instanceOf (p : Nat) : Nat :=
  if 0x10 ≤ p ∧ p < 0x30 then p - 0x10 else if 0x30 ≤ p ∧ p < 0x34 then p - 0x30 else if 0x34 ≤ p ∧ p < 0x38 then p - 0x34
  else if 0x40 ≤ p ∧ p < 0x80 then p - 0x40 else if 0xA0 ≤ p ∧ p < 0xA4 then p - 0xA0
  else if 0xB0 ≤ p ∧ p < 0xB8 then p - 0xB0 else if 0xC0 ≤ p ∧ p < 0xD5 then p - 0xC0 else 0

/-- The page that governs FP_CTRL and FP_KEY of page p: page 0 of HDS, LPM and TMS (R31). -/
def governor (p : Nat) : Nat :=
  if 0x30 ≤ p ∧ p < 0x34 then 0x30 else if 0x34 ≤ p ∧ p < 0x38 then 0x34 else if 0xB0 ≤ p ∧ p < 0xB8 then 0xB0 else p

/-- Island that holds page p (R14, R514). -/
def islandOf (p : Nat) : Nat :=
  if 0x10 ≤ p ∧ p < 0x30 then p - 0x10 else if (0x30 ≤ p ∧ p ≤ 0x3C) ∨ p = 0x81 then 32
  else if 0x40 ≤ p ∧ p < 0x80 then 33 + (p - 0x40) else if p = 0x82 then 97 else if p = 7 ∨ p = 8 then 98
  else if p = 3 ∨ p = 6 then 100 else if p = 0x90 ∨ p = 0x91 then 101
  else if (0xB0 ≤ p ∧ p ≤ 0xB8) ∨ p = 0xD8 ∨ p = 0xE0 then 102 else if 0xA0 ≤ p ∧ p < 0xA4 then 103 + (p - 0xA0)
  else if 0xC0 ≤ p ∧ p < 0xD5 then 107 + (p - 0xC0) else 99

/-- Whether page p is on the TM die (R29). -/
def onTmDie (p : Nat) : Bool := decide (0x90 ≤ p ∧ p ≤ 0xE0)

/-- FP_CAPS.EXPERT_REGS: the page has registers at 0x8000 and above (R32, and VLT, HIF as their chapters say). -/
def hasExpert (p : Nat) : Bool := (regsOfPage p).any fun r => decide (0x8000 ≤ r.lay.ofs ∧ (r.lay.page ≤ p ∧ p < r.lay.page + r.lay.npg))

/-- FP_CAPS.OWNER: MDL, SPN and EVT guard one resource with FP_OWNER (R559 and the pages' chapters). -/
def hasOwner (p : Nat) : Bool := p == 0x81 || p == 4 || p == 2

/-- FP_BUDGET.ALLOW of page p; 0 where FP_CAPS.BUDGET is 0 (R20 and the pages' chapters). -/
def allowOf (p : Nat) : Nat :=
  if p = 0x30 then 6 else if p = 0x34 then 16 else if p = 0x38 then 2 else if p = 0x39 then 4 else if p = 0x3C then 200
  else if p = 0x3A then 1 else if 0x40 ≤ p ∧ p < 0x80 then 24 else if p = 0x81 then 4 else if p = 0x82 then 2
  else if p = 0x90 then 1 else if 0xA0 ≤ p ∧ p < 0xA4 then 1 else if p = 0xB0 then 1 else if p = 4 then 8
  else if 0xC0 ≤ p ∧ p < 0xD5 then 1 else if p = 0xD8 then 1 else if p = 2 then 1 else if p = 0xE0 then 2 else if p = 0x3B then 16 else 0

/-- FP_CAPS.BLOCK of page p (the pages' chapters). -/
def blockCaps (p : Nat) : Nat :=
  if 0x10 ≤ p ∧ p < 0x30 then 7 else if p = 0x30 ∨ p = 0x3A then 3 else if p = 0x38 ∨ p = 0x3C then 1
  else if 0x40 ≤ p ∧ p < 0x80 then 1 else if p = 0x82 ∨ p = 0x80 ∨ p = 0x90 ∨ p = 0xB0 then 1 else if p = 0xB8 ∨ p = 0xD8 ∨ p = 7 then 3
  else if p = 4 ∨ p = 8 then 7 else if p = 0xD4 ∨ p = 0xE0 ∨ p = 0xF0 then 1 else 0

/-- The event sources of page p that exist (the pages' event tables). -/
def evtSources (p : Nat) : Nat :=
  if p = 0 then 0x7 else if p = 1 then 0x1F else if p = 3 then 0x3 else if p = 4 then 0x3FF else if p = 5 then 0x7
  else if p = 6 then 0x7 else if p = 7 then 0x7 else if p = 8 then 0xF else if p = 9 then 0x3
  else if 0x10 ≤ p ∧ p < 0x30 then 0x0FFFFFFF else if p = 0x30 then 0xF else if p = 0x34 then 0x7 else if p = 0x38 then 0x1F
  else if p = 0x39 then 0x3 else if p = 0x3C then 0x3F else if p = 0x3A then 0xF else if p = 0x3B then 0x7
  else if 0x40 ≤ p ∧ p < 0x80 then 0xF else if p = 0x80 then 0x1F else if p = 0x81 then 0x3 else if p = 0x90 then 0x3F
  else if p = 0x91 then 0x7 else if p = 0xA0 then 0x1FF else if 0xA1 ≤ p ∧ p < 0xA4 then 0xFF else if p = 0xB0 then 0x7
  else if p = 0xB1 ∨ p = 0xB2 ∨ p = 0xB8 then 0x1 else if 0xC0 ≤ p ∧ p < 0xD5 then 0xFFFFFF else if p = 0xD8 then 0x7F
  else if p = 0xE0 then 0x7 else if p = 0xF0 then 0x3 else 0

/-- The service-class sources of page p (R44): TRACE_DONE of HDS page 0 and ENG, FW_READY of SVC, all of HWD and the
service-class sources of the other pages' tables. -/
def evtService (p : Nat) : Nat :=
  if p = 0x30 ∨ (0x40 ≤ p ∧ p < 0x80) ∨ p = 8 then 8 else if p = 6 then 7 else 0

end Sys2Proof.Machine
end

