-- ==== Sys2Proof/Machine/Tbl.lean ====
section
/-! DEFINITION. Sparse tables as plain data: a list of key and value pairs with strictly rising keys. A table that has a
default value lists no entry equal to it, so that equal contents are equal data. -/

namespace Sys2Proof.Machine

/-- A sparse table: entries in strictly rising order of key. [DESIGN CHOICE: log 13] -/
abbrev Tbl (α : Type) := List (Nat × α)

/-- The entry at key k, if one is listed. -/
def find? {α : Type} : Tbl α → Nat → Option α
  | [], _ => none
  | (k, v) :: t, x => if x = k then some v else find? t x

/-- The value at key k, d where none is listed. [DESIGN CHOICE: log 13] -/
def look {α : Type} (t : Tbl α) (k : Nat) (d : α) : α := (find? t k).getD d

/-- Remove key k. -/
def del {α : Type} (t : Tbl α) (k : Nat) : Tbl α := t.filter fun x => x.1 != k

/-- Set key k to v, keeping the order. -/
def ins {α : Type} : Tbl α → Nat → α → Tbl α
  | [], x, v => [(x, v)]
  | (k, w) :: t, x, v => if x < k then (x, v) :: (k, w) :: t else if x = k then (x, v) :: t else (k, w) :: ins t x v

/-- Set key k to v in a table whose unlisted keys read as d: writing d removes the entry. [DESIGN CHOICE: log 13] -/
def put {α : Type} [DecidableEq α] (t : Tbl α) (k : Nat) (d v : α) : Tbl α := if v = d then del t k else ins t k v

/-- Whether key k is listed. -/
def has {α : Type} (t : Tbl α) (k : Nat) : Bool := (find? t k).isSome

/-- The keys listed. -/
def keys {α : Type} (t : Tbl α) : List Nat := t.map (·.1)

/-- The canonical order: keys strictly rise. -/
def Tbl.wf {α : Type} : Tbl α → Bool
  | [] => true
  | [_] => true
  | (a, _) :: (b, w) :: t => decide (a < b) && Tbl.wf ((b, w) :: t)

/-- The lowest key not listed, of the keys from a to a + n - 1. -/
def lowestFree {α : Type} (t : Tbl α) (a : Nat) : Nat → Option Nat
  | 0 => none
  | n + 1 => if has t a then lowestFree t (a + 1) n else some a

/-- Bit n of a bitmap kept as a number. -/
def bit (m n : Nat) : Bool := m.testBit n
/-- The bitmap with bit n set. -/
def setBit (m n : Nat) : Nat := m ||| (1 <<< n)
/-- The bitmap with bit n cleared. -/
def clrBit (m n : Nat) : Nat := if m.testBit n then m - (1 <<< n) else m
/-- The bitmap with the bits of x cleared. -/
def clrBits (m x : Nat) : Nat := m ^^^ (m &&& x)
/-- The bits set among 0 to w - 1, in rising order. -/
def bitsOf (w m : Nat) : List Nat := (List.range w).filter (m.testBit ·)
/-- Bits hi down to lo of a number. -/
def bits (v hi lo : Nat) : Nat := (v >>> lo) % 2 ^ (hi + 1 - lo)
/-- A Bool as a bit. -/
def b2n (b : Bool) : Nat := if b then 1 else 0

/-- A w-bit number read as two's complement. -/
def signed (w v : Nat) : Int := if v % 2 ^ w < 2 ^ (w - 1) then (v % 2 ^ w : Nat) else (v % 2 ^ w : Nat) - (2 ^ w : Int)
/-- The w-bit two's complement of an integer. -/
def toBits (w : Nat) (x : Int) : Nat := (x % (2 ^ w : Int)).toNat

/-- Bytes of a number, lowest byte first (R6). -/
def leBytes : Nat → Nat → Bytes
  | 0, _ => []
  | n + 1, v => BitVec.ofNat 8 v :: leBytes n (v / 256)
/-- The number whose bytes are given lowest first (R6). -/
def ofLe : Bytes → Nat
  | [] => 0
  | b :: t => b.toNat + 256 * ofLe t
/-- Bytes of a number, highest byte first (R7). -/
def beBytes (n v : Nat) : Bytes := (leBytes n v).reverse
/-- The number whose bytes are given highest first (R7). -/
def ofBe (bs : Bytes) : Nat := bs.foldl (fun a b => a * 256 + b.toNat) 0
/-- Byte i of a sequence, 0 past its end. -/
def byteAt (bs : Bytes) (i : Nat) : Nat := (bs.getD i 0).toNat
/-- n bytes from offset i, highest first; bytes past the end read as 0. -/
def beAt (bs : Bytes) (i n : Nat) : Nat := (List.range n).foldl (fun a k => a * 256 + byteAt bs (i + k)) 0
/-- Replace the element at i of a list. -/
def setAt {α : Type} (l : List α) (i : Nat) (v : α) : List α := l.set i v

/-- One bit step of the CRC-32C of R274 (reflected polynomial of 0x1EDC6F41). -/
def crcBit (c : Nat) : Nat := if c % 2 = 1 then (c / 2) ^^^ 0x82F63B78 else c / 2
/-- Eight bit steps after a byte enters. -/
def crcByte (c b : Nat) : Nat := Nat.repeat crcBit 8 (c ^^^ b)
/-- CRC-32C over bytes in order, initial value and final complement all ones. -/
def crc32c (bs : Bytes) : Nat := (bs.foldl (fun c b => crcByte c b.toNat) 0xFFFFFFFF) ^^^ 0xFFFFFFFF

end Sys2Proof.Machine
end

