-- ==== Sys2Proof/Machine/State.lean ====
section
/-! DEFINITION. The state of the Baszu as plain data, at its reset values: the state right after power-on reset is entered,
before start-up runs. A register of the register map that is not named as a field below stands in `flds`, one entry per
field that differs from its reset value. -/

namespace Sys2Proof.Machine

/-- Why a command stops. No command of the table stops: no rule of the spec halts the block. The one constructor names an
access to a place that the spec gives no address to; no meaning raises it. Safe. [DEDUCED: log 12] -/
inductive Fault where
  /-- Raised by nobody: the spec names no access that halts the block. Safe. -/
  | noSuchPlace
  deriving DecidableEq, Repr

/-- Why a command is not run. [DEDUCED: log 12] -/
inductive Refusal where
  /-- A row of the opcode table that has no meaning yet; raised by Dispatch only. Safe. -/
  | notModelled (mnemonic : String)
  deriving DecidableEq, Repr

/-- KEY_STATE of a page's expert key machine (R42). -/
inductive KeyState where
  | idle | armed | unlocked
  deriving DecidableEq, Repr

/-- The Faceplate of one page (R37). -/
structure Face where
  en : Bool                    -- FP_CTRL.BLK_EN
  expert : Bool := false       -- FP_CTRL.EXPERT
  blkRst : Bool := false       -- FP_CTRL.BLK_RST: a block reset runs (R38)
  enPend : Bool := false       -- a BLK_EN of 1 waits for the block reset's end (R38)
  lowpwr : Bool := true        -- FP_CTRL.LOWPWR_ALLOW
  key : KeyState := .idle      -- FP_KEY.KEY_STATE
  window : Nat := 0            -- FP_KEY.WINDOW, 0–64
  busy : Bool := false         -- FP_STAT.BUSY for a started action other than a block reset
  ready : Bool := false        -- FP_STAT.READY
  pend : Nat := 0              -- FP_EVT_PEND, 32 bits
  mask : Nat := 0xFFFFFFFF     -- FP_EVT_MASK, 32 bits
  vgroup : Nat := 0            -- FP_EVT_ROUTE.VGROUP
  errOvf : Bool := false       -- FP_ERR_CODE.OVERFLOW
  errOfs : Nat := 0            -- FP_ERR_CODE.WORD_OFS
  errCode : Nat := 0           -- FP_ERR_CODE.CODE
  owner : Nat := 0             -- FP_OWNER.OWNER
  overrun : Nat := 0           -- FP_BUDGET.OVERRUN, saturating at 0xFFFF
  deriving DecidableEq, Repr

/-- The Faceplate of page p at chip reset: BLK_EN is 1 for GLB, HIF, EVT, AON, MGT and CLK (field table of FP_CTRL). [DESIGN CHOICE: log 1] -/
def Face.reset (p : Nat) : Face := { en := p == 0 || p == 1 || p == 2 || p == 3 || p == 5 || p == 9 }

/-- One performance counter (R473 to R477). -/
structure PerfCtr where
  en : Bool := false
  level : Bool := false        -- PC_CFGi.MODE
  ovf : Bool := false
  sel : Nat := 0
  count : Nat := 0             -- 48 bits
  cap : Nat := 0               -- PC_CAPi
  deriving DecidableEq, Repr

/-- The eight performance counters of a page. -/
structure Perf where
  run : Bool := false
  ctrs : List PerfCtr := List.replicate 8 {}
  deriving DecidableEq, Repr

/-- A staging copy (R54) or read snapshot (R55) of one requester in one page: the register's base address and its words. -/
structure Staged where
  base : Nat := 0
  words : Tbl Nat := []
  deriving DecidableEq, Repr

/-- Things that leave the device, in the order in which they leave. [DESIGN CHOICE: log 9] -/
inductive Out where
  | readReply (req : Requester) (addr : Nat) (v : Nat)
  | hostWrite (addr : Nat) (bytes : Bytes)
  | msix (vector : Nat) (addr data : Nat)
  | pmPme
  | cellGrant (port : Nat) (cell : Option Nat) -- answer of the Chuck allocator to a request port
  | i3cReply (bytes : List Nat)
  | i3cNack
  | ibi (bytes : List Nat)
  | frame (port : Nat) (bytes : Bytes) (sectag : Option (Nat × Nat × Nat)) (start : Nat)
  | frameAbort (port : Nat)
  | verifyFrame (port : Nat)
  | pulse (ppsOut : Bool) (sec ns width : Nat)
  | cellOut (link : Nat) (bytes : Bytes) -- a fabric cell handed to its lane
  | codeword (link : Nat) (symbols : List Nat) -- what a fabric lane carries (R362)
  | regRsp (tag v : Nat)
  | jtag (v : Nat)
  deriving DecidableEq, Repr

/-- The event controller's own state (R446 to R457). -/
structure Evt where
  active : Nat := 0            -- EVT_GRP_ACTIVE
  req : Nat := 0               -- groups whose message is requested and has not left
  gap : Nat := 0               -- groups whose gap timer runs
  raised : Nat := 0            -- groups raised at the last evaluation (R456 looks for the turn)
  pba : Nat := 0               -- pending bit array, 512 bits
  held : Nat := 0              -- EVT_VEC_HELD, 512 bits
  cqWait : Nat := 0            -- vectors for which a CQ notification waits (R452)
  lastVec : Nat := 511         -- last vector sent (R453)
  cursors : Tbl (Nat × Nat) := [] -- per requester: group queried and next page to look at
  alertN : Bool := false       -- ALERT_N asserted
  tmPend : Tbl Nat := []       -- the EVT's copy of the pending bits of each TM-die page (R446, R581)
  vmask : Nat := 2 ^ 512 - 1   -- vector mask bits of the MSI-X table
  msixTbl : Tbl Nat := []      -- address and data words of the MSI-X table, keyed by word
  msixEn : Bool := false       -- MSI-X Enable
  fmask : Bool := false        -- Function Mask
  gapAt : Tbl Nat := []        -- per group: monotonic ns at which its last message left (R449)
  i3cAt : Tbl Nat := []        -- per group: monotonic ns at which it last asked for an in-band interrupt (R456)
  decided : Option Nat := none -- AON ns of the host cycle whose delivery has been decided (R453)
  deriving DecidableEq, Repr

/-- The always-on watcher (R458 to R464) and the power-management bits it acts on. -/
structure Aon where
  deadline : Tbl Nat := []     -- per watch entry: deadline in ns of the AON's own time
  wakeN : Bool := false        -- WAKE_N asserted
  wakeVec : Option Nat := none -- vector whose message releases WAKE_N in D0 (R459)
  pmeEn : Bool := false        -- PME_En
  pmeStatus : Bool := false    -- PME_Status
  pmeWait : Bool := false      -- PM_PME waits for the link to reach L0
  deriving DecidableEq, Repr

/-- A queued packet as the host interface sees it (R423). -/
structure CqState where
  first : Nat := 0             -- time of the first unannounced entry, ns
  last : Nat := 0              -- time of the last entry, ns
  deriving DecidableEq, Repr

/-- A REC descriptor of table DMA whose record waits for GO to read 0 (R430), with what has come of it so far. -/
structure DmaProg where
  desc : Nat
  i : Nat                      -- index of the record in flight
  at_ : Nat                    -- BAR0 address of the word that committed it
  code : Nat := 0              -- first error code recorded for it
  done : Nat := 0
  refused : Nat := 0
  status : Nat := 0
  type : Nat := 2
  deriving DecidableEq, Repr

/-- The host interface beside its registers. -/
structure HostIf where
  cqs : Tbl CqState := []
  injNext : Nat := 0           -- rotation of the inject engine (R426)
  ctlHeld : List (Nat × Option Nat × Nat) := [] -- PCIe accesses held during a control reset: address, written value if a write, requester
  cto : Nat := 0               -- completion-timeout value that software left in Device Control 2 (R434)
  dmaNs : Nat := 0             -- ns for which DMA has been allowed: the watchdogs' clock (R419, R433)
  chAt : Tbl Nat := []         -- that clock when the present descriptor of a channel may first have started
  prog : Tbl DmaProg := []     -- channels whose REC record waits for GO
  deriving DecidableEq, Repr

/-- The I3C target (R436 to R440). -/
structure I3c where
  mwl : Nat := 69
  mrl : Nat := 65
  readAddr : Nat := 0
  ibi : List (List Nat) := []  -- the in-band interrupt raised last
  ibiAt : Nat := 0             -- monotonic ns at which it was last raised
  deriving DecidableEq, Repr

/-- A snapshot capture (R471). -/
structure Capture where
  set : Nat
  t : Nat                      -- instant T, in units of 2^-32 ns
  byCmd : Bool := false        -- started by CNT_SNAP_CMD, whose GO reads 1 until its end
  frozen : Bool := false       -- T has been reached
  copied : List Nat := []      -- source pairs already copied
  ports : Tbl Nat := []        -- port counters as they stood at T
  deriving DecidableEq, Repr

/-- Statistics counters (R465 to R472). -/
structure Cnt where
  words : Tbl Nat := []        -- 2i: packet count of pair i, 2i + 1: byte count
  bad : List Nat := []         -- words with an uncorrectable error
  caps : List Capture := []
  deriving DecidableEq, Repr

/-- Running totals of the ledger (R479). -/
structure Totals where
  seq : Nat := 0
  powerOnS : Nat := 0
  aonOnS : Nat := 0
  chipResets : Nat := 0
  porCount : Nat := 0
  ctlResets : Nat := 0
  tampers : Nat := 0
  hist : Tbl Nat := []         -- 16 × die + bin: seconds; die 0 FE, 1 TM, 2 hottest HBM stack
  drift : Tbl Nat := []        -- island: signed 16-bit ppm
  energyUJ : Nat := 0          -- microjoules; ENERGY_J is this ÷ 10^6
  logTotal : Nat := 0
  logDropped : Nat := 0
  deriving DecidableEq, Repr

/-- What accumulates for the open hourly or daily record (R481). -/
structure LedgerAcc where
  seq : Nat := 0
  samples : Nat := 0
  powerSum : Nat := 0          -- mW summed over the samples
  powerPeak : Nat := 0         -- mW
  tmax : List Int := [-128, -128, -128]
  secs : Nat := 0
  chip : Nat := 0
  ctl : Nat := 0
  hist : Tbl Nat := []         -- 16 × die + bin: seconds
  logs : Nat := 0
  eccs : Nat := 0
  deriving DecidableEq, Repr

/-- The Heartwood ledger (R478 to R487). -/
structure Hwd where
  mram : Tbl Nat := []         -- physical word: 64 bits
  remap : Tbl Nat := []        -- logical block: physical block
  corrected : Tbl Nat := []    -- logical block: corrected reads
  nextSpare : Nat := 447
  tot : Totals := {}
  slot : Nat := 0              -- next totals slot
  hour : LedgerAcc := {}
  day : LedgerAcc := {}
  aonNs : Nat := 0             -- AON time in ns since the ledger was first used
  logSec : Nat := 0            -- second in which entries were last counted
  logInSec : Nat := 0
  baseline : Tbl Nat := []     -- islands whose baseline is recorded
  lastSec : Nat := 0           -- AON ns of the last whole second of the totals (R479)
  tempAt : Nat := 0            -- AON ns of the last temperature sample (R481)
  pwrAt : Nat := 0             -- AON ns of the last power measurement (R26)
  hourDue : Bool := false      -- the end of an hour has been reached and its record has not closed (R481)
  dayDue : Bool := false
  hourAt : Nat := 0            -- AON_ON_S when the last hourly record closed
  dayAt : Nat := 0
  deriving DecidableEq, Repr

/-- Memory regions (R490 to R501). -/
structure MemBanks where
  retained : Tbl Nat := []     -- banks in retention as a bitmap: region r under r, the banks of another page p under 256 + p
  testFirst : Nat := 0
  testCount : Nat := 0
  service : Tbl Nat := []      -- bytes of service memory, regions 64–87, by byte offset from region 64
  used : Tbl Nat := []         -- bank b of a place k, under 16 k + b: monotonic ns of its last access (R497)
  deriving DecidableEq, Repr

/-- The vault (R502 to R509). -/
structure Vault where
  slots : Tbl Bytes := []      -- slot: its 64 bytes
  importing : Option Bool := none -- format of the IMPORT whose read runs
  digest : Bytes := []         -- fused content of slot 0
  deriving DecidableEq, Repr

/-- Clocks, resets, pins and start-up (R514 to R526, R540, R549, R573). -/
structure Sys where
  porPin : Bool := true        -- POR_N asserted at its ball
  vddIo : Bool := true         -- VDD_IO above its threshold
  vddAon : Bool := true        -- VDD_AON above its threshold
  rails : Bool := true         -- every core rail in range
  chipPin : Bool := false      -- CHIP_RST_N asserted
  ctlPin : Bool := false       -- CTL_RST_N asserted
  tamperPin : Bool := false    -- TAMPER_N asserted past the glitch filter
  tamperAt : Nat := 0          -- AON ns of that assertion
  tamperDone : Bool := false   -- its wipe has taken place
  trip : Bool := false         -- a thermal trip holds the device
  chipHold : Bool := true      -- the device is held in power-on or chip reset
  ctlRun : Option Nat := none  -- source of the control reset that runs (R485)
  chipCause : Nat := 0         -- cause of the chip reset that runs
  hotFe : Bool := false        -- FE die above 105 °C at the last sample
  hotTm : Bool := false
  serial : Nat := 0            -- fused serial number
  lc : Nat := 0                -- lifecycle fuses
  steps : Nat := 0             -- start-up steps that have ended: bit n for step n of R525
  jtag : Nat := 0x01           -- selected JTAG instruction
  jtagStop : Bool := false     -- stopped by a boundary-scan instruction until a chip reset (R551)
  isl1us : List Nat := []      -- stopped islands that run for an access (R516)
  islAt : Tbl Nat := []        -- per such island: AON ns of its last access
  tripAt : Nat := 0            -- AON ns of the last thermal trip (R522)
  dieAt : Nat := 0             -- AON ns of the last sample of the die sensors
  resetRec : Option Nat := none -- scope of a RESET record on its way to the TM die (R519)
  refs : Nat := 0x3FF          -- reference clocks present and in range, in the order of CLK_REF_STAT's bits 9 to 0
  badLine : Nat := 0           -- line lanes that failed calibration, lane 4g + k of group g (R526)
  badFab : Nat := 0            -- fabric lanes that failed calibration
  badPages : List Nat := []    -- pages with an SRAM bank that could not be repaired
  deriving DecidableEq, Repr

/-- A security association of a port (R68 to R72). -/
structure Sa where
  valid : Bool := false
  handle : Nat := 0
  ssci : Nat := 0
  nextPn : Nat := 1
  sci : Nat := 0
  key : Bytes := []            -- key material copied from the vault; empty where erased
  nearFired : Bool := false    -- PN_NEAR has fired for this SA
  deriving DecidableEq, Repr

/-- A frame on its way out of a port (R61, R62, R66, R67). -/
structure TxFrame where
  bytes : Bytes := []          -- without FCS
  cls : Nat := 0               -- traffic class
  sc : Nat := 0                -- MACsec transmit SC
  pktTime : Nat := 0           -- PKT_TIME, 48 bits
  tso : Option (Nat × Nat × Option Nat) := none -- one-step: mode, offset, checksum offset (R66)
  tst : Option Nat := none     -- two-step: tag (R67)
  fragment : Bool := false     -- the rest of a preempted frame
  cuts : Nat := 0              -- non-final fragments sent (R75)
  msec : Nat := 0              -- bytes that the SecTAG and the ICV add on the wire
  bad : Bool := false          -- it ends with a bad FCS (R257)
  deriving DecidableEq, Repr

/-- A line port beside its registers (R60 to R75). -/
structure PortSt where
  idle : Bool := true          -- transmitter in electrical idle
  clean : Bool := false        -- a clean lock runs in FAULT
  expired : Bool := false      -- 500 ms have passed in FAULT
  anWait : Bool := false       -- auto-negotiation waits 100 ms for its restart
  attempts : Nat := 0          -- verify frames sent
  verAt : Nat := 0             -- monotonic ns of the last one (R75)
  verified : Bool := false
  rx : Tbl Sa := []            -- receive SAs
  tx : Tbl Sa := []            -- transmit SAs
  cur : Tbl Nat := []          -- per transmit SC: its current SA
  exh : List Nat := []         -- transmit SCs that are exhausted until software makes an SA current (R72)
  cmd : Option (Nat × Nat) := none -- SA command that waits for the frame boundary (R71): LPG_SA_CMD and LPG_SA_DATA as committed
  fifo : List (Nat × Nat × Nat × Nat) := [] -- two-step entries, oldest first: tag, SEC, NS, FRAC
  txNow : Option TxFrame := none  -- frame in transmission
  txWait : List TxFrame := []  -- frames handed to the MAC and not started, oldest first
  txPre : Option TxFrame := none  -- preempted frame whose fragments remain
  deriving DecidableEq, Repr

/-- A gate list entry (R351). -/
structure GateEnt where
  gates : Nat := 0             -- bit c: class c open
  op : Nat := 0                -- 0 SET, 1 SET_HOLD, 2 SET_RELEASE
  iv : Nat := 0                -- interval in ns
  bad : Bool := true           -- a res bit, a reserved OP or an interval out of range
  deriving DecidableEq, Repr

/-- A gate list in force or pending (R352 to R354). -/
structure GateList where
  base : Nat                   -- ns
  cycle : Nat := 1             -- ns
  list : List GateEnt := []    -- empty: every gate open
  bank : Nat := 0
  deriving DecidableEq, Repr

/-- The gates of a port (R352). -/
structure GatePort where
  bank0 : Tbl Nat := []        -- entries as written
  bank1 : Tbl Nat := []
  running : Option GateList := none -- none: OPEN
  pend : Option GateList := none
  lastBank : Nat := 0          -- bank last written through SPN_GCL_ADDR
  deriving DecidableEq, Repr

/-- A timed-action entry (R344). -/
structure Act where
  owner : Nat
  kind : Nat
  t : Nat                      -- ns
  period : Nat := 0
  addr : Nat := 0
  data : Nat := 0
  set : Nat := 0
  switchSeq : Nat := 0         -- KIND 3: SEQ of the switch
  due : Bool := false          -- to be performed in the next host cycle as late (R347)
  deriving DecidableEq, Repr

/-- A time command that waits for its marker (R333). -/
inductive AdjCmd where
  | set (t : Nat)              -- time in 2^-32 ns
  | step (neg : Bool) (dt : Nat)
  | slew (neg : Bool) (dt : Nat)
  deriving DecidableEq, Repr

/-- A slew under way (R333, R338): what remains, and the rate in 2^-32 ns per ns. -/
structure Slew where
  neg : Bool
  left : Nat                   -- 2^-32 ns
  rate : Nat
  deriving DecidableEq, Repr

/-- The Spindle (R329 to R361). -/
structure Spn where
  time : Nat := 0              -- the master counter, in units of 2^-32 ns
  monoU : Nat := 0             -- the monotonic count of R308, in units of 2^-32 ns; `mono` of the device is its whole ns
  adj : Option AdjCmd := none  -- waits for the marker
  servoStep : Option Int := none -- a servo step that waits for the marker, 2^-32 ns
  labelSet : Option (Nat × Nat) := none -- a label SET that waits for the marker: label and capture's monotonic count, 2^-32 ns (R341)
  rate : Int := 0              -- RATE_ADJ in force
  slew : Option Slew := none
  good : Nat := 0
  rates : List Int := []       -- RATE_ADJ at the last 16 references, newest first
  lastPps : Option Nat := none -- monotonic ns of the last accepted PPS edge
  lastRef : Option Nat := none -- monotonic ns of the last reference
  lastSync : Option (Nat × Nat) := none -- last SYNC capture: Spindle time captured and monotonic count, 2^-32 ns
  srcAt : Nat := 0             -- monotonic ns at which SRC last changed
  lastMs : Option Nat := none  -- the millisecond and the second of the last pulses of SYNC_OUT and PPS_OUT
  lastSec : Option Nat := none
  loose : List (Nat × Act) := [] -- due actions whose entries an ARM has taken: index and action (R348)
  acts : Tbl Act := []
  deferred : List Nat := []    -- due entries put off, in order (R346)
  timerFifo : List Nat := []
  gates : Tbl GatePort := []
  syncFrom : Nat := 0          -- first instant at which a new manager drives SYNC_OUT, ns (R342)
  deriving DecidableEq, Repr

/-- A frame or injected packet in an ingress FIFO in front of the Headstock (R81). -/
structure InFrame where
  port : Nat                   -- ING_PORT: a line port, 240 or 249
  bytes : Bytes
  pktTime : Nat := 0
  user : Nat := 0              -- PCX USER of the first pass (R181)
  deriving DecidableEq, Repr

/-- Where a pass stands on the FE die. -/
inductive Stage where
  | parsed        -- its lookups have not been issued (R150)
  | nht           -- its NHT lookup waits for its source result (R96)
  | ready         -- it waits before dispatch (R177)
  | running       -- an engine holds it
  | held          -- its verdict waits in its reorder queue (R178)
  | egressTcam    -- after a SEND, its egress search runs (R201)
  | mandrel       -- it waits in the Mandrel queue (R231)
  deriving DecidableEq, Repr

/-- A verdict of an engine pass (R195, R197). -/
inductive Verdict where
  | fwd (qid nh : Nat)
  | drop (code : Nat)
  | recirc (prof : Nat)
  | punt (hq : Nat)
  | send (adj : Bool)
  deriving DecidableEq, Repr

/-- Actions that a pass has issued and that take effect at its verdict (R198). The last of each kind stands. -/
structure Acts where
  learn : Option Nat := none         -- slot
  cnt0 : Option Nat := none
  cnt1 : Option Nat := none
  mtr : Option Nat := none
  tso : Option (Nat × Nat × Option Nat) := none -- mode, window offset, checksum window offset
  tst : Option Nat := none
  msc : Option Nat := none
  etc : Option (Nat × Nat) := none   -- group, 320-bit key
  deriving DecidableEq, Repr

/-- What one XM lookup of a pass was, for learning (R137, R198). -/
structure XmLook where
  tbl : Nat
  key : Nat                          -- 160 bits
  issued : Bool
  deriving DecidableEq, Repr

/-- A pass: a packet on the FE die between parse and verdict (R79 to R219). -/
structure Pass where
  egress : Bool := false
  stage : Stage := .parsed
  bytes : Bytes := []                -- the packet at the start of the pass, without FCS
  pcx : Nat := 0                     -- the PCX, 512 bits, byte 0 most significant (R181)
  ctx : Nat := 0                     -- the egress context, 256 bits (R186)
  prof : Nat := 0                    -- Headstock profile, or egress profile
  src : Nat := 0                     -- CHK_SRCs_CFG of its source when the frame started
  deep : Bool := false               -- from a deep-parse port (R84)
  winBase : Nat := 0                 -- R90
  bodyLen : Nat := 0                 -- bytes streamed to the Chuck (R247)
  pstart : Nat := 0                  -- payload start (R85)
  keys : List (Option Nat) := []     -- key of each lookup slot; none where R99 issues no lookup
  xm : List XmLook := []             -- the XM slots in profile order
  waited : Bool := false             -- counted as waiting for a TCAM group (R150)
  cluster : Nat := 0
  engine : Nat := 0
  load : Nat := 0                    -- order of loading into a context (R176)
  regs : Tbl Nat := []               -- g0 to g31
  win : Bytes := []                  -- the 256 B header window
  hstart : Nat := 0
  hend : Nat := 0
  bodyOfs : Nat := 0
  l0 : Nat := 0                      -- HEND − HSTART at the start (R183)
  entry : Nat := 0
  pc : Nat := 0
  last : Nat := 0                    -- bundle last issued
  issued : Nat := 0                  -- bundles issued
  stalls : Nat := 0
  pend : List (Nat × Nat) := []      -- pending scratch results: register and value (R189)
  acts : Acts := {}
  verdict : Option Verdict := none
  forced : Bool := false             -- stopped at the budget (R203)
  traced : Bool := false             -- captured by the engine trace (R212)
  ordered : Bool := true             -- dispatched with its direction's ORDER bit 1 (R178)
  tag : Nat := 0                     -- egress: owner tag of the chain
  tc : Nat := 0                      -- egress: traffic class of the queue left
  adjOk : Bool := false              -- g1's adjacency entry was VALID at dispatch
  bad : Bool := false                -- egress: its frame ends with a bad FCS (R257)
  deriving DecidableEq, Repr

/-- The Mandrel's slots in a window of 64 Headstock cycles (R232): the settings of MDL_CFG that the window started with. -/
structure MdlWin where
  win : Nat := 0                     -- number of the window
  used : Nat := 0                    -- slots taken within SHARE
  share : Nat := 48
  borrow : Bool := true
  deriving DecidableEq, Repr

/-- The Headstock's own state beside its registers. -/
structure Head where
  fifos : Tbl (List InFrame) := []   -- 0–31 line port groups, 32 port 240, 33 port 249
  slotUsed : Tbl Nat := []           -- pass slots each FIFO has taken in this round (R80)
  mdl : MdlWin := {}                 -- the Mandrel's share of the window (R232)
  passes : Tbl Pass := []            -- passes on the FE die, by number in order of creation
  nextPass : Nat := 0
  mandrel : List Nat := []           -- passes in the Mandrel queue, oldest first (R231)
  badWords : List Nat := []          -- profile and template words with an uncorrectable error (R107)
  deriving DecidableEq, Repr

/-- A verdict record with its rebuilt head on its way to the Chuck (R262). -/
structure Verd where
  kind : Nat := 1                    -- 0 FWD, 1 DROP, 2 PUNT
  qid : Nat := 0
  nh : Nat := 0
  hostq : Nat := 0
  copyHost : Bool := false
  mirror : Option Nat := none
  cnt0 : Option Nat := none
  cnt1 : Option Nat := none
  meter : Option Nat := none
  len : Nat := 0                     -- PKT_LEN
  cell : Nat := 0                    -- CELL_HEAD
  carry : Nat := 0
  time : Nat := 0
  port : Nat := 0
  hash : Nat := 0
  cls : Nat := 0
  color : Nat := 0
  code : Nat := 0                    -- DROP_CODE of a DROP
  src : Nat := 0                     -- CHK_SRCs_CFG of its source when the frame started
  head : Bytes := []
  deriving DecidableEq, Repr

/-- A BODY record on its way to the Chuck (R262): the frame's first cell and ingress port, its bytes and whether they end the
frame. -/
structure BodyRec where
  cell : Nat
  port : Nat := 0
  src : Nat                          -- CHK_SRCs_CFG of its source when the frame started
  bytes : Bytes
  last : Bool
  deriving DecidableEq, Repr

/-- A frame that the egress scheduler released, on its way to the Tailstock (R262): its egress context and bytes. -/
structure EgrRec where
  port : Nat
  ctx : Nat                          -- 256 bits (R186), without the epoch binding
  bytes : Bytes
  tc : Nat := 0
  cell : Nat := 0                    -- first cell and tag of the chain
  tag : Nat := 0
  off : Nat := 0                     -- bytes that have crossed
  bad : Bool := false                -- its read failed after its transmission had started (R257)
  deriving DecidableEq, Repr

/-- A flit in a sender's replay buffer (R264). -/
structure HeldFlit where
  seq : Nat
  words : List Nat             -- its 44 payload words
  first : Nat := 63            -- its FIRST and RESYNC fields
  resync : Bool := false
  recs : List (List Nat) := [] -- the records that end in it, whole
  tries : Nat := 0             -- times resent
  at_ : Nat := 0               -- monotonic ns at which it was last sent
  deriving DecidableEq, Repr

/-- One direction of the D2D link (R260 to R265). -/
structure D2dDir where
  next : Nat := 0              -- sender: next SEQ
  held : List HeldFlit := []   -- sender: replay buffer, oldest first
  resync : Bool := false       -- sender: the next TRAFFIC flit carries RESYNC
  tail : List Nat := []        -- sender: words sent of a record that goes on in the next flit
  exp : Nat := 0               -- receiver: SEQ expected
  got : Bool := false          -- receiver: a flit has been accepted, so ACKV is 1
  bad : Bool := false          -- receiver: it sends NAK and discards until the resend
  part : List Nat := []        -- receiver: words of a record that goes on in the next flit
  skip : Bool := false         -- receiver: parsing starts at FIRST
  wire : Nat := 0              -- the wire whose test comes next (R265)
  retired : List Nat := []     -- wires whose spare carries their traffic
  calAt : Nat := 0             -- monotonic ns of the last wire test
  deriving DecidableEq, Repr

/-- The D2D link beside its registers: FE to TM and TM to FE. -/
structure D2d where
  ft : D2dDir := {}
  tf : D2dDir := {}
  rsp : List (Nat × Nat) := [] -- read responses on their way to the FE die: TAG and data
  bank : Nat := 0              -- BANK and EPOCH_SEQ as the TM die knows them
  seq : Nat := 0
  label : Nat := 0             -- last marker label, in 2^-16 ns, and RATE_ADJ that a TIME record delivered
  rate : Nat := 0
  echo : Nat := 0              -- the label that the TM die echoed at the calibration of the link (R332)
  deriving DecidableEq, Repr

/-- What crosses between the dies. -/
structure Cross where
  bodies : List BodyRec := []        -- FE to TM, oldest first
  verdicts : List Verd := []
  handles : List (Nat × List Nat) := [] -- TM to FE: source and first cells (R248)
  dones : List (Nat × Nat) := []     -- FE to TM: egress stream and packets finished
  egress : List EgrRec := []         -- TM to FE, on the D2D
  arrived : List EgrRec := []        -- frames that have reached the Tailstock
  deriving DecidableEq, Repr



/-- An exact-match entry: the fields of R124, at its first way. -/
structure XmEnt where
  tbl : Nat
  wide : Bool
  static : Bool
  hit : Bool := false
  age : Nat := 0
  learned : Bool := false
  result : Nat
  key : Nat                    -- 160 bits; a narrow key in [159:80]
  deriving DecidableEq, Repr

/-- A learning event (R137). -/
structure LrnEv where
  tbl : Nat
  key : Nat
  dev : Nat
  port : Nat
  time : Nat                   -- PKT_TIME, 48 bits
  deriving DecidableEq, Repr

/-- An entry of the recent-learn cache (R139, R140). -/
structure LrnCache where
  valid : Bool := false
  t : Nat := 0
  pair : Nat := 0
  winStart : Nat := 0          -- ns of the monotonic count
  moves : Nat := 0
  flapping : Bool := false
  flapAt : Nat := 0            -- ns of the monotonic count at which it began to flap
  deriving DecidableEq, Repr

/-- The forwarding tables and the learning engine (R112 to R146). -/
structure Tables where
  lpm : Tbl Nat := []          -- (trie × 2^8 + length) × 2^144 + key: next hop
  lpmMem : Tbl Nat := []       -- words of the tries, stage × 2^18 + word: 256 bits (R116 to R118)
  lpmBad : List Nat := []      -- trie words with an uncorrectable error (R131)
  lpmLeft : List (List Nat) := [] -- words left behind by each swing and not freed, oldest first (R120)
  lpmVague : Bool := false     -- the engine's layout of the stored prefixes is not known
  xm : Tbl XmEnt := []         -- half × 2^21 + bucket × 4 + way
  stash : Tbl XmEnt := []
  xm2 : Tbl Nat := []          -- slots that hold the second way of a wide entry, 128 bits (R124)
  xmBad : List Nat := []       -- damaged slots; stash entry i as 2^22 + i
  nht : Tbl Nat := []          -- table × 2^21 + index: stored entry
  nhtBad : List Nat := []
  lockAt : Tbl Nat := []       -- address of a held lock: monotonic ns of its claim (R136)
  lrnQ : List LrnEv := []      -- learning queue, oldest first
  lrnRecent : List (LrnEv × Nat) := [] -- the last 64 events raised, newest first, with their times (R137)
  lrnCache : Tbl LrnCache := [] -- table × 2^160 + key
  lrnLog : List Nat := []      -- log entries, oldest first
  ageAt : Tbl Nat := []        -- per place: monotonic ns of the aging scanner's last visit (R142)
  deriving DecidableEq, Repr

/-- A TCAM entry or its shadow copy (R151). -/
structure TcamEnt where
  valid : Bool := false
  key : Nat := 0
  mask : Nat := 0
  action : Nat := 0
  deriving DecidableEq, Repr

/-- A Burl replica (R160 to R168). -/
structure Replica where
  mem : Tbl Nat := []          -- 64-bit words
  hdr : Bytes := []            -- its header buffer, 2 KiB once loaded
  bad : List Nat := []         -- words with an uncorrectable error
  retireBank : Nat := 0        -- bank on becoming EMPTY
  retireClear : Bool := false  -- zero the memory on becoming EMPTY
  deriving DecidableEq, Repr

/-- The TCAM and the Burl. -/
structure Search where
  tcam : Tbl TcamEnt := []     -- slice × 8192 + entry
  shadow : Tbl TcamEnt := []
  shadowBad : List Nat := []
  tcamNext : Tbl Nat := []     -- bank × 16 + group: next replica
  replicas : Tbl Replica := []
  burlNext : Tbl Nat := []     -- bank: replica after the last one used
  hdrs : Tbl Bytes := []       -- bank: header of its image
  deriving DecidableEq, Repr

/-- An engine cluster's memories (R187, R205). -/
structure Cluster where
  imem : Tbl Nat := []         -- half × 2048 + bundle: 128 bits
  scratch : Tbl Nat := []      -- 32,768 words of 64 bits
  badImem : List Nat := []     -- 64-bit words with an uncorrectable error: half × 4096 + word of the half
  badScratch : List Nat := []
  deriving DecidableEq, Repr

/-- Dispatch and flow order (R177, R178). -/
structure Disp where
  clusters : Tbl Cluster := []
  queues : Tbl (List Nat) := [] -- direction × 4096 + queue: passes dispatched and not released, in order
  last : Tbl Nat := []         -- direction: 1 + the cluster chosen last
  loads : Nat := 0             -- contexts loaded so far, which orders those of one engine (R176)
  deriving DecidableEq, Repr

/-- The epoch controller beside its registers (R220 to R229). -/
structure Epc where
  drainAt : Nat := 0           -- monotonic ns of the last switch
  prepSeq : Nat := 0           -- SEQ of a PREPARE in force
  prepAt : Nat := 0            -- monotonic ns at which PREPARED was entered (R220)
  mgrSeq : Option Nat := none  -- the manager waits for READY for this SEQ
  mgrAt : Nat := 0             -- monotonic ns at which its PREPARE was sent (R228)
  workers : List Nat := []     -- the members that its PREPARE went to (R386)
  ready : List Nat := []       -- devices that returned READY
  seen : Option Nat := none    -- SEQ of a chassis switch whose PREPARE has been seen and whose COMMIT or ABORT has not (R229)
  deriving DecidableEq, Repr

/-- The metadata of a cell (R242) with the bytes that it holds. A cell without an entry has never been used. -/
structure CellMeta where
  alloc : Bool := false
  owner : Nat := 0
  pool : Nat := 0
  refs : Nat := 0
  last : Bool := false
  abort : Bool := false
  next : Nat := 0
  data : Bytes := []           -- FILL is its length minus 1
  deriving DecidableEq, Repr

/-- The free cells of an enabled pool (R246). -/
structure Pool where
  cache : List Nat := []       -- pool cache, oldest first
  list : List Nat := []        -- freed cells of the in-memory free list, head first
  fresh : Nat := 0             -- cells from this index on have never been taken from the list
  deriving DecidableEq, Repr

/-- The frame of a first cell until its verdict is applied (R247 to R250). -/
structure Build where
  tag : Nat                    -- tag of the chain
  last : Nat                   -- last cell linked
  stored : Nat := 0            -- body bytes stored
  open_ : Bool := false        -- body bytes have arrived and the body has not ended
  abort : Bool := false
  code : Nat := 0x61           -- aborted: the code its packet is dropped with
  deriving DecidableEq, Repr

/-- A packet descriptor (R16, R186, R300): the chain with the fields that travel with the packet. -/
structure Desc where
  head : Nat := 0
  tag : Nat := 0
  len : Nat := 0
  qid : Nat := 0               -- VOQ that it is bound for or has left; the egress queue once there
  nh : Nat := 0
  carry : Nat := 0
  time : Nat := 0
  port : Nat := 0
  hash : Nat := 0
  cls : Nat := 0
  color : Nat := 0
  srcDev : Nat := 0
  copy : Bool := false         -- a COPY_HOST copy (R423)
  rebuilt : Option Bytes := none -- the packet of a copy made on egress, as rebuilt there (R198)
  deriving DecidableEq, Repr

/-- Where a descriptor is to be queued (R300). -/
inductive Dest where
  | voq                        -- FWD verdict: the VOQ of its QID
  | host (hq : Nat)            -- PUNT verdict, or a copy to the host
  | mirror (k : Nat)
  | egress (port : Nat)        -- from the fabric, or moved by the hairpin path
  deriving DecidableEq, Repr

/-- A descriptor on its way to admission with its meter, if the verdict carries one (R304, R307). -/
structure Arrival where
  desc : Desc
  dest : Dest
  meter : Option Nat := none
  orig : Bool := true          -- the verdict's own descriptor; its copies follow it
  deriving DecidableEq, Repr

/-- The Chuck beside its registers (R240 to R259). -/
structure Chk where
  cells : Tbl CellMeta := []   -- by handle
  pools : Tbl Pool := []
  ptr : Nat := 0               -- port at which the allocator starts
  held : List (Nat × Nat × Nat) := [] -- requests held for their pool's cache: port, pool, tag
  tags : Tbl Nat := []         -- tags taken per source: 0–129 the ingress sources, 130 + d fabric device d
  builds : Tbl Build := []     -- by first cell
  waiting : List Verd := []    -- verdicts that have arrived, oldest first
  badLog : List Nat := []
  flips : List (Nat × Nat × Nat) := [] -- flipped stored bits: granule, plane, bit
  badData : List Nat := []     -- granules with an uncorrectable data word
  badMeta : List Nat := []     -- granules with an uncorrectable metadata word
  badGran : List Nat := []     -- granules that failed a march test with RETIRE 1
  march : Option (Bool × Bool) := none -- a running march test: whether it preserves contents, and its RETIRE (R258, R259)
  starved : List Nat := []     -- sources whose refill was refused for want of a free cell (R248)
  sent : Tbl (List (Nat × Nat)) := [] -- per egress stream: chains sent and not reported finished
  deriving DecidableEq, Repr

/-- A VOQ or an egress queue (R298, R299, R312, R318). -/
structure Queue where
  en : Bool := false
  qprof : Nat := 0
  parent : Nat := 0
  prio : Nat := 0
  tc : Nat := 0
  weight : Nat := 0
  pkts : List Desc := []       -- packets on chip, oldest first
  bytes : Nat := 0             -- bytes queued, spilled included
  spilled : Bool := false
  spillPkts : Nat := 0
  spillBytes : Nat := 0
  asked : Nat := 0             -- bytes asked of the reader and not yet returned (R311)
  avg : Int := 0
  bal : Int := 0
  ft : Nat := 0
  hwm : Nat := 0               -- SOJ_HWM, ns
  alarmed : Bool := false      -- SOJ_ALARM has fired since SOJ_HWM was cleared
  reqOn : Bool := false        -- ON has been sent (R313)
  reqSeq : Nat := 0            -- REQ_SEQ of the last request (R382)
  reqAt : Nat := 0             -- monotonic ns of its last ON or credit (R313)
  elig : Bool := false         -- eligible at its parent when last seen (R318)
  deriving DecidableEq, Repr

/-- A scheduler node (R317, R318, R320). Buckets are kept in 8,000,000ths of a byte. -/
structure Node where
  en : Bool := false
  parent : Nat := 0
  prio : Nat := 0
  weight : Nat := 0
  cir : Nat := 0
  pir : Nat := 0
  cbs : Nat := 0
  pbs : Nat := 0
  tc : Int := 0
  tp : Int := 0
  last : Nat := 0              -- monotonic ns of the last refill
  ft : Nat := 0
  v : List Nat := [0, 0, 0, 0]
  hwm : Nat := 0
  rot : Nat := 0               -- child after the last one chosen
  elig : Bool := false
  deriving DecidableEq, Repr

/-- A meter (R308). Buckets are kept in 8,000,000ths of a byte. -/
structure Meter where
  en : Bool := false
  prof : Nat := 0
  tc : Nat := 0
  tp : Nat := 0
  last : Nat := 0
  deriving DecidableEq, Repr

/-- What a credit generator keeps of a requesting device (R382). -/
structure Req where
  on : Bool := false
  seq : Nat := 0
  seen : Bool := false         -- a request has been kept
  deriving DecidableEq, Repr

/-- The arbitration of a credit generator over the 16 classes (R314). -/
structure GenPort where
  ft : Tbl Nat := []
  v : List Nat := [0, 0, 0, 0]
  rot : Nat := 0
  dev : Tbl Nat := []          -- per class: device after the last one served
  elig : Nat := 0              -- classes eligible when last seen
  nextPs : Nat := 0            -- monotonic ps at which its rate lets it issue again (R314)
  deriving DecidableEq, Repr

/-- The traffic manager and the meters beside their registers (R298 to R328). -/
structure Tm where
  input : List Arrival := []   -- descriptors in front of admission, oldest first
  queues : Tbl Queue := []     -- by QID
  nodes : Tbl Node := []       -- level × 2^16 + index
  meters : Tbl Meter := []
  reqs : Tbl Req := []         -- (port × 16 + class) × 64 + device
  gens : Tbl GenPort := []
  voqRot : Tbl Nat := []       -- per ingress pipeline: QID after the last one served
  portRot : Tbl Nat := []      -- per egress pipeline: port after the last one chosen
  spillIn : List (Nat × Desc) := [] -- packets handed to the spill writer: QID and descriptor, oldest first
  hostOut : List (Nat × Desc) := [] -- packets of port 240 on their way to the host: queue and descriptor
  svcOut : List (Nat × Desc) := []  -- packets of port 249 on their way to the services
  deriving DecidableEq, Repr

/-- A stored block: its 256 data bytes and its 128-bit trailer (R274). -/
structure BlkImg where
  data : Bytes
  trailer : Nat
  deriving DecidableEq, Repr

/-- A block on its way to its stack (R283): a DATA block with the chains that it releases once it is issued (R276), or a LIST block. -/
structure WrCmd where
  handle : Nat
  img : BlkImg
  list : Bool := false
  rel : List (Nat × Nat) := [] -- head and tag
  deriving DecidableEq, Repr

/-- The free blocks of a pseudo-channel (R277). -/
structure PcFree where
  hwm : Nat := 0
  cache : List Nat := []       -- handles, oldest first
  lists : List (Nat × List Nat) := [] -- LIST blocks, head first: handle and the handles it holds
  deriving DecidableEq, Repr

/-- Where a block of a stream stands (R276, R279, R280). -/
inductive BlkAt where
  | filling | written | reading | returned | poisoned
  deriving DecidableEq, Repr

/-- A DATA block of a stream: its place and the stream bytes it holds (R274, R275). -/
structure Blk where
  handle : Nat
  seq : Nat
  ofs : Nat                    -- stream offset of its first byte
  used : Nat
  first : Nat := 0x1FF         -- FIRST (R274)
  data : Bytes := []           -- in the return buffer: the bytes that came back (R279)
  at_ : BlkAt := .filling
  tries : Nat := 0             -- re-reads
  deriving DecidableEq, Repr

/-- A spilled packet: its record in the stream (R275). -/
structure SpillRec where
  desc : Desc
  start : Nat                  -- stream offset of its header
  deriving DecidableEq, Repr

/-- The spill stream of a queue (R275 to R281). -/
structure Stream where
  recs : List SpillRec := []   -- records not yet delivered or dropped, oldest first
  blocks : List Blk := []      -- blocks not yet freed, in SEQ order
  buf : Bytes := []            -- bytes of the block being filled
  pre : List Nat := []         -- blocks allocated in advance, the next one first
  wpos : Nat := 0              -- stream bytes written
  seq : Nat := 0               -- SEQ of the next block
  unrel : List (Nat × Nat × Nat) := [] -- chains whose last block has not been written: head, tag, end offset
  stalled : Bool := false      -- a returning packet waits for cells (R279)
  deriving DecidableEq, Repr

/-- The HBM controllers beside their registers (R271 to R297). -/
structure Hbm where
  pcs : Tbl PcFree := []
  ptr : Nat := 0
  streams : Tbl Stream := []   -- by QID
  mem : Tbl BlkImg := []       -- contents of the blocks that have been written, by handle
  wq : Tbl (List WrCmd) := []  -- write queue of each pseudo-channel, oldest first (R283)
  wwait : List WrCmd := []     -- writes that met a full queue
  strays : List (Nat × Bool) := [] -- reads outstanding of streams that have ended, and whether the block is leaked
  okWin : Tbl Nat := []        -- per pseudo-channel: windows within both limits since it turned SLOW
  retrain : Tbl (Nat × Nat) := [] -- per stack: pseudo-channel in retraining and its state before
  trTemp : Tbl Nat := []       -- per pseudo-channel: temperature at its last retraining
  trAt : Tbl Nat := []         -- per pseudo-channel: monotonic ns of its last retraining
  rows : Tbl Nat := []         -- per bank: open row plus 1
  postponed : Tbl Nat := []    -- per bank: refresh intervals postponed
  readAt : Tbl Nat := []       -- per handle: monotonic ns at which its read was issued (R280)
  deriving DecidableEq, Repr

/-- A control message that waits for its cell (R380): a destination, or every device; KIND and record (8 B of a CREDIT record
or 32 B of another). -/
structure Ctl where
  dst : Option Nat
  kind : Nat
  rec_ : Nat
  deriving DecidableEq, Repr

/-- A cell held for acknowledgement (R367). -/
structure Held where
  cell : Cell
  tries : Nat := 0             -- retransmissions
  first : Nat := 0             -- monotonic ns of its first transmission
  at_ : Nat := 0               -- monotonic ns of its latest transmission
  deriving DecidableEq, Repr

/-- A fabric link beside its registers (R363 to R373). -/
structure FabLink where
  seen : Bool := false
  lseq : Nat := 0              -- next LSEQ to send
  held : List Held := []       -- replay buffer, oldest first
  next : Nat := 0              -- NEXT of the receiver
  map : List Nat := []         -- LSEQs received above NEXT
  ackv : Bool := false
  asked : List Nat := []       -- LSEQs asked for by NAK
  nakQ : List Nat := []        -- LSEQs to be asked for, lowest first
  locked : Bool := false       -- cell lock
  goods : Nat := 0             -- cells in a row that passed their CRC while the link had no lock (R363)
  bads : Nat := 0              -- cells in a row that failed it
  since : Nat := 0             -- monotonic ns at which it entered its state
  lane : List Bool := []       -- bits of the codeword that its lane is filling (R362)
  tok : Nat := 0
  clean : Nat := 0
  zero : Nat := 0
  sent : Nat := 0              -- cells sent in the interval
  resent : Nat := 0            -- retransmissions in the interval
  latSum : Nat := 0            -- ns summed over the acknowledged cells of the interval
  latN : Nat := 0
  helloAt : Option Nat := none -- monotonic ns of the last HELLO with SEEN 1 sent as an answer (R370)
  deriving DecidableEq, Repr

/-- A record on its way into a cell stream (R375): what remains of it and its chain. -/
structure TxRec where
  bytes : Bytes
  started : Bool := false      -- its first byte has left
  head : Nat := 0
  tag : Nat := 0
  deriving DecidableEq, Repr

/-- The stream toward a peer device (R375). -/
structure TxStream where
  sseq : Nat := 0
  recs : List TxRec := []
  deriving DecidableEq, Repr

/-- A DATA cell in the reorder tracker (R377). -/
structure RxCell where
  first : Nat
  payload : Bytes
  cells : List Nat := []       -- staging cells of source 130's BODY_POOL
  deriving DecidableEq, Repr

/-- The stream from a source device (R377 to R379). -/
structure RxStream where
  started : Bool := false
  exp : Nat := 0
  sgen : Nat := 0
  cells : Tbl RxCell := []     -- by (SSEQ − EXP) mod 2^20 at arrival, kept as SSEQ
  part : Bytes := []           -- bytes of the record being parsed
  resync : Bool := false       -- parsing waits for the next FIRST
  holeAt : Option Nat := none  -- monotonic ns at which the hole at EXP opened
  deriving DecidableEq, Repr

/-- What was last heard of a device (R388, R389). -/
structure Heard where
  at_ : Nat := 0               -- monotonic ns
  role : Nat := 0
  cand : Bool := false
  term : Nat := 0
  deriving DecidableEq, Repr

/-- The fabric and the chassis beside their registers (R362 to R397). -/
structure Fab where
  links : Tbl FabLink := []
  ptr : Nat := 0
  tx : Tbl TxStream := []
  rx : Tbl RxStream := []
  heard : Tbl Heard := []
  maxTerm : Nat := 0           -- highest TERM heard
  heldLrn : List (Nat × Nat × Nat) := [] -- learning records held by the standby, oldest first: record, sender and monotonic ns of arrival
  again : List Cell := []      -- cells of failed links that wait to be sprayed again (R369), oldest first
  dataRot : Nat := 0           -- device after the last one whose stream was served
  waiting : List (Nat × Nat) := [] -- learning records whose table is locked, oldest first: sender and record (R141)
  cutOff : Tbl Nat := []       -- devices that an ACTIVE link reached before: monotonic ns at which none did any more (R372)
  lagAt : Nat := 0             -- monotonic ns of the last end of an interval of INT_US (R373)
  upAt : Nat := 0              -- monotonic ns of the last chip reset (R389)
  deriving DecidableEq, Repr

/-- A BFD session (R402 to R404, R410), with the state variables that RFC 5880 gives it. -/
structure BfdSess where
  mhop : Bool := false
  v6 : Bool := false
  auth : Nat := 0              -- 0 none, 1 Keyed SHA1, 2 Meticulous Keyed SHA1
  keyId : Nat := 0
  key : Option Bytes := none   -- key material; none where AUTH is 0 or a wipe lost it (R508)
  mult : Nat := 0
  txUs : Nat := 0
  rxUs : Nat := 0
  nh : Nat := 0
  disc : Nat := 0              -- LOCAL_DISC
  src : Nat := 0
  dst : Nat := 0
  slot : Nat := 0              -- its wheel slot
  st : Nat := 1                -- 0 AdminDown, 1 Down, 2 Init, 3 Up
  diag : Nat := 0
  rDisc : Nat := 0
  rTx : Nat := 0               -- remote Desired Min TX Interval
  rRx : Nat := 1               -- remote Required Min RX Interval
  rMult : Nat := 0
  rSt : Nat := 1
  rDemand : Bool := false
  rxPkts : Nat := 0
  txPkts : Nat := 0
  poll : Bool := false         -- a Poll Sequence runs
  detRx : Nat := 0             -- RX_US that the detection time uses: the old one until a Poll Sequence ends
  lastRx : Option Nat := none  -- monotonic ns of the last valid packet
  rcvSeq : Option Nat := none  -- authentication sequence number last received
  xmitSeq : Nat := 0
  deleting : Bool := false
  curTx : Nat := 0             -- TX_US that the transmit interval uses: an increase waits for the end of a Poll Sequence
  lastTx : Option Nat := none  -- monotonic ns of the last control packet of its slot
  delAt : Nat := 0             -- monotonic ns of BFD_DEL
  deriving DecidableEq, Repr

/-- A responder entry (R405). -/
structure NdEnt where
  v6 : Bool
  ovr : Bool
  ingPort : Nat
  mac : Nat
  addr : Nat
  deriving DecidableEq, Repr

/-- The flow-export settings (R407, R409). -/
structure IpfixCfg where
  en : Bool := false
  v6 : Bool := false
  domain : Nat := 0
  sampling : Nat := 0
  activeS : Nat := 0
  idleS : Nat := 0
  templateS : Nat := 0
  mtu : Nat := 0
  nh : Nat := 0
  sport : Nat := 0
  dport : Nat := 0
  src : Nat := 0
  dst : Nat := 0
  deriving DecidableEq, Repr

/-- A flow of the cache: counts of its samples and Spindle times in milliseconds (R406). -/
structure Flow where
  pkts : Nat := 0
  octets : Nat := 0
  first : Nat := 0
  last : Nat := 0
  since : Nat := 0             -- monotonic ns at which the flow or its present export interval began
  seen : Nat := 0              -- monotonic ns of its last sample
  deriving DecidableEq, Repr

/-- The services beside their registers (R398 to R413). -/
structure Svc where
  sess : Tbl BfdSess := []
  nd : Tbl NdEnt := []
  ipfix : IpfixCfg := {}
  flows : Tbl Flow := []       -- by flow key (R406)
  msgSeq : Nat := 0            -- sequence number of the export messages
  rateSec : Nat := 0           -- second in which samples were last counted
  rateN : Nat := 0
  wheel : Tbl (Nat × Nat) := [] -- slot: owner and PERIOD
  wheelDue : Tbl Nat := []     -- monotonic ns of the next TICK of a slot that software holds
  lastTpl : Nat := 0           -- monotonic ns of the last sending of the templates
  switchAt : Nat := 0          -- monotonic ns at which the last image was started
  ringBuf : List (Nat × Nat × Nat) := [] -- entries that wait for the ring, oldest first: words 0, 1 and 2–3
  held : Option Nat := none    -- mailbox command held during a switch-over
  starting : Bool := false     -- a started image has not reported ready
  old : Option Nat := none     -- slot of the old image during a switch-over
  deriving DecidableEq, Repr

/-- The device. -/
structure Dev where
  faces : Tbl Face := []       -- Faceplates that differ from their reset value
  flds : Tbl Nat := []         -- register fields that differ from their reset value
  ctrs : Tbl Nat := []         -- 64-bit page counters, by address
  drops : Tbl Nat := []        -- drops per code (R18)
  perf : Tbl Perf := []        -- performance counters per page
  staged : Tbl Staged := []    -- staging copies, by requester and page (R54)
  snaps : Tbl Staged := []     -- read snapshots, by requester and page (R55)
  out : List Out := []         -- what has left the device, newest first
  freeCtr : Nat := 0           -- the model's own: counter of the free values drawn
  lastErr : Option (Nat × Nat) := none -- the model's own: page and code of the last recording since it was cleared, for R349 and R430
  mono : Nat := 0              -- monotonic time in ns since power-on (R320)
  evt : Evt := {}
  aon : Aon := {}
  hif : HostIf := {}
  i3c : I3c := {}
  cnt : Cnt := {}
  hwd : Hwd := {}
  banks : MemBanks := {}
  vlt : Vault := {}
  sys : Sys := {}
  ports : Tbl PortSt := []
  head : Head := {}
  cross : Cross := {}
  d2d : D2d := {}
  srcCache : Tbl (List Nat) := [] -- first cells cached per ingress source, oldest first (R248)
  tab : Tables := {}
  srch : Search := {}
  spn : Spn := {}
  disp : Disp := {}
  epc : Epc := {}
  chk : Chk := {}
  tm : Tm := {}
  ctlQ : List Ctl := []        -- control messages that wait for a cell, oldest first
  hbm : Hbm := {}
  fab : Fab := {}
  svc : Svc := {}
  deriving DecidableEq, Repr

/-- The state of the block: the device and the queue of the commands that wait, first in, first out. -/
structure State where
  dev : Dev
  pending : List Instr
  deriving DecidableEq, Repr

/-- The machine right after power-on reset is entered, with no command waiting. -/
def State.reset : State := { dev := {}, pending := [] }

end Sys2Proof.Machine
end

