-- ==== Sys2Proof/Machine/Ops.lean ====
section
/-! DEFINITION. The named operations over the device that every block uses: register fields, the Faceplate, error codes,
counters, events and the outbox. -/

namespace Sys2Proof.Machine

/-! Page numbers: bits 31 to 16 of a page's base (R29). -/
abbrev Pg.GLB := 0x00
abbrev Pg.HIF := 0x01
abbrev Pg.EVT := 0x02
abbrev Pg.AON := 0x03
abbrev Pg.SPN := 0x04
abbrev Pg.MGT := 0x05
abbrev Pg.HWD := 0x06
abbrev Pg.VLT := 0x07
abbrev Pg.SVC := 0x08
abbrev Pg.CLK := 0x09
abbrev Pg.LPG := 0x10
abbrev Pg.HDS := 0x30
abbrev Pg.LPM := 0x34
abbrev Pg.XM := 0x38
abbrev Pg.NHT := 0x39
abbrev Pg.TCM := 0x3A
abbrev Pg.BRL := 0x3B
abbrev Pg.LRN := 0x3C
abbrev Pg.ENG := 0x40
abbrev Pg.EPC := 0x80
abbrev Pg.MDL := 0x81
abbrev Pg.TLS := 0x82
abbrev Pg.CHK := 0x90
abbrev Pg.D2D := 0x91
abbrev Pg.HBM := 0xA0
abbrev Pg.TMS := 0xB0
abbrev Pg.MTR := 0xB8
abbrev Pg.FAB := 0xC0
abbrev Pg.FCT := 0xD8
abbrev Pg.CNT := 0xE0
abbrev Pg.MEM := 0xF0

/-! The shared error codes of R47. -/
abbrev Err.EXPERT_LOCKED := 0x01
abbrev Err.OWNER_BUSY := 0x02
abbrev Err.EPOCH_BUSY := 0x03
abbrev Err.TIME_PAST := 0x04
abbrev Err.BAD_ARG := 0x05
abbrev Err.LOCK_HELD := 0x06
abbrev Err.NOT_OWNER := 0x07
abbrev Err.DOUBLE_FREE := 0x08
abbrev Err.NOT_READY := 0x09
abbrev Err.RESOURCE_FULL := 0x0A
abbrev Err.RETENTION_WAKE := 0x0B

/-! Register fields. -/

/-- The key under which a field of instance g, index i stands in `flds`. -/
def Fld.key (f : Fld) (g i : Nat) : Nat := f.reg.addr g i * 1024 + f.lo
/-- The reset value of a field (R4; the field tables). -/
def Fld.rst (f : Fld) (g i : Nat) : Nat :=
  match f.reg.fields.find? (fun x => x.lo == f.lo) with
  | some x => x.rst g i
  | none => 0

/-- The value of a register field. -/
def rget (f : Fld) (g i : Nat) (d : Dev) : Nat := look d.flds (f.key g i) (f.rst g i)
/-- Whether a one-bit field is 1. -/
def flag (f : Fld) (g i : Nat) (d : Dev) : Bool := rget f g i d != 0
/-- Set a register field, within its width. -/
def rset (f : Fld) (g i v : Nat) (d : Dev) : Dev :=
  { d with flds := put d.flds (f.key g i) (f.rst g i) (v % 2 ^ f.w) }

/-- The field of register r that starts at bit lo. -/
def FieldD.fld (r : Reg) (x : FieldD) : Fld := ⟨r, x.lo, x.w⟩
/-- What a read of the whole register returns: its fields in place, WO fields and res bits as 0 (R3, R4). -/
def regImg (r : Reg) (g i : Nat) (d : Dev) : Nat :=
  r.fields.foldl (fun a x => if x.acc = .wo then a else a ||| (rget (x.fld r) g i d <<< x.lo)) 0

/-- Store a committed register image by access type: RW stores, RWX stores while EXPERT is 1, W1C clears the bits written 1;
RO, WO and SC fields keep their values (R4). -/
def storeFields (expert : Bool) (r : Reg) (g i img : Nat) (d : Dev) : Dev :=
  r.fields.foldl (fun s x =>
    let v := bits img (x.lo + x.w - 1) x.lo
    match x.acc with
    | .rw => rset (x.fld r) g i v s
    | .rwx => if expert then rset (x.fld r) g i v s else s
    | .w1c => rset (x.fld r) g i (clrBits (rget (x.fld r) g i s) v) s
    | _ => s) d

/-- Set every field of a register from an image, whatever its type: what the hardware does to a result register. -/
def loadImg (r : Reg) (g i img : Nat) (d : Dev) : Dev :=
  r.fields.foldl (fun s x => rset (x.fld r) g i (bits img (x.lo + x.w - 1) x.lo) s) d

/-- A field of an image. -/
def Fld.of (f : Fld) (img : Nat) : Nat := bits img (f.lo + f.w - 1) f.lo
/-- A one-bit field of an image. -/
def Fld.on (f : Fld) (img : Nat) : Bool := f.of img != 0

/-! The Faceplate. -/

/-- The Faceplate of page p. -/
def face (p : Nat) (d : Dev) : Face := look d.faces p (Face.reset p)
/-- Set the Faceplate of page p. -/
def setFace (p : Nat) (f : Face) (d : Dev) : Dev := { d with faces := put d.faces p (Face.reset p) f }
/-- BLK_EN of the block that page p belongs to (R31, R39). -/
def blkEn (p : Nat) (d : Dev) : Bool := (face (governor p) d).en
/-- FP_CTRL.EXPERT that governs page p (R31). -/
def expertOf (p : Nat) (d : Dev) : Bool := (face (governor p) d).expert
/-- FP_STAT.BUSY of page p: a block reset or another started action runs: a march, a background test, an import, a mailbox
command, a snapshot, a time command or an SA command. -/
def busyOf (p : Nat) (d : Dev) : Bool :=
  (face p d).blkRst || (face p d).busy || (p == Pg.CHK && rget CHK_MARCH_STAT.STATE 0 0 d == 1) ||
    (p == Pg.MEM && rget MEM_TEST_STAT.STATE 0 0 d == 1) || (p == Pg.VLT && flag VLT_CMD.GO 0 0 d) ||
    (p == Pg.SVC && flag SVC_MBOX_CMD.GO 0 0 d) || (p == Pg.CNT && !d.cnt.caps.isEmpty) ||
    (p == Pg.SPN && flag SPN_ADJ.GO 0 0 d) || (decide (0x10 ≤ p ∧ p < 0x30) && flag LPG_SA_CMD.GO (p - 0x10) 0 d)

/-- A record of table DMA that is still being executed takes the first code that its register records (R430). -/
def DmaProg.note (a code : Nat) (x : DmaProg) : DmaProg := if x.at_ = a ∧ x.code = 0 then { x with code := code } else x
/-- Record an error code with the word offset of the access (R48). -/
def err (p code ofs : Nat) (d : Dev) : Dev :=
  let f := face p d
  setFace p { f with errOvf := f.errOvf || f.errCode != 0, errCode := code, errOfs := (ofs / 4) % 2 ^ 14 }
    { d with lastErr := some (p, code), hif := { d.hif with prog := d.hif.prog.map fun e => (e.1, e.2.note (p * 65536 + ofs) code) } }

/-- Whether the Baszu may write and read host memory (R419): D0, Bus Master Enable, and the link up. -/
def dmaOn (d : Dev) : Bool := flag HIF_LINK.BME 0 0 d && rget HIF_LINK.DSTATE 0 0 d == 0 && rget HIF_LINK.SPEED 0 0 d != 0
/-- The time for which DMA has been allowed goes on to the monotonic instant t: the watchdogs of R433 count in it (R419). -/
def dmaPass (t : Nat) (d : Dev) : Dev := if dmaOn d then { d with hif := { d.hif with dmaNs := d.hif.dmaNs + (t - d.mono) } } else d

/-- Byte offset of word w of a register within its page. -/
def Reg.ofs (r : Reg) (i w : Nat) : Nat := r.lay.ofs + r.lay.stride * i + 4 * w
/-- Record an error at the word that commits register r: its highest word (R54, R582). -/
def errAt (code : Nat) (r : Reg) (g i : Nat) (d : Dev) : Dev :=
  err (r.lay.page + g) code (r.ofs i (r.lay.words - 1)) d

/-! Performance counters (R473 to R475). -/

/-- The performance counters of page p. -/
def perfOf (p : Nat) (d : Dev) : Perf := look d.perf p {}
/-- Set the performance counters of page p. -/
def setPerf (p : Nat) (x : Perf) (d : Dev) : Dev := { d with perf := put d.perf p {} x }

/-- Add to the counters of a list whose selector is sel, chaining wraps into counters with SEL 0xFF (R474). [DEDUCED: log 55] -/
def perfAdd (sel edge level : Nat) : Nat → List PerfCtr → List PerfCtr
  | _, [] => []
  | carry, c :: t =>
    let n := (if c.en && c.sel == sel && sel != 0 then (if c.level then level else edge) else 0) +
      (if c.en && c.sel == 0xFF then carry else 0)
    let total := c.count + n
    let wraps := total / 2 ^ 48
    { c with count := total % 2 ^ 48, ovf := c.ovf || wraps != 0 } :: perfAdd sel edge level wraps t

/-- Count the condition sel of page p: edge times in edge mode, level cycles in level mode. [DEDUCED: log 55] -/
def perfCount (p sel edge level : Nat) (d : Dev) : Dev :=
  let x := perfOf p d
  if x.run then setPerf p { x with ctrs := perfAdd sel edge level 0 x.ctrs } d else d

/-! 64-bit counters. -/

/-- The counter at offset o of page p. -/
def ctr (p o : Nat) (d : Dev) : Nat := look d.ctrs (p * 65536 + o) 0
/-- Set the counter at offset o of page p. -/
def setCtr (p o v : Nat) (d : Dev) : Dev := { d with ctrs := put d.ctrs (p * 65536 + o) 0 (v % 2 ^ 64) }
/-- Add n to the counter at offset o of page p; it wraps at 2^64. -/
def incAt (p o n : Nat) (d : Dev) : Dev := setCtr p o (ctr p o d + n) d
/-- Add n to counter k of page p, at 0x1000 + 8k, seen by the selector 0x40 + k (R473). -/
def incBy (p k n : Nat) (d : Dev) : Dev :=
  let d := incAt p (0x1000 + 8 * k) n d
  if k < 64 ∧ n ≠ 0 then perfCount p (0x40 + k) n 1 d else d
/-- Count once in counter k of page p. -/
def inc (p k : Nat) (d : Dev) : Dev := incBy p k 1 d
/-- Count a drop under its code (R18); code 0 marks no drop and is never counted (R92). The host's codes count in the HIF as
well (R442, R444). -/
def drop (code : Nat) (d : Dev) : Dev :=
  if code = 0 then d
  else
    let d := { d with drops := put d.drops code 0 (look d.drops code 0 + 1) }
    if 0xF0 ≤ code then inc Pg.HIF 4 d else d
/-- A drop counted under a code counts no longer: another code takes its place (R250). -/
def undrop (code : Nat) (d : Dev) : Dev := { d with drops := put d.drops code 0 (look d.drops code 0 - 1) }
/-- Count an overrun of page p, saturating at 0xFFFF (R19). -/
def overrun (p : Nat) (d : Dev) : Dev :=
  let f := face p d
  perfCount p 0x06 1 1 (setFace p { f with overrun := min (f.overrun + 1) 0xFFFF } d)

/-- Something leaves the device. The newest stands first. [DESIGN CHOICE: log 9] -/
def emit (o : Out) (d : Dev) : Dev := { d with out := o :: d.out }

/-- A fresh free value and the device after drawing it. [DESIGN CHOICE: log 10] -/
def draw (d : Dev) : Nat × Dev := ((Config.freeValue d.freeCtr).toNat, { d with freeCtr := d.freeCtr + 1 })

/-! Events (R446 to R457). -/

/-- The pending bits of page p that the EVT sees: a TM-die page's as last reported (R446, R581). -/
def evtPend (p : Nat) (d : Dev) : Nat := if onTmDie p then look d.evt.tmPend p 0 else (face p d).pend
/-- Whether page p is raised (R446). -/
def pageRaised (p : Nat) (d : Dev) : Bool := clrBits (evtPend p d) (face p d).mask != 0
/-- The raised groups as a bitmap (R446). -/
def raisedGroups (d : Dev) : Nat :=
  (keys d.faces).foldl (fun m p => if pageRaised p d then setBit m (face p d).vgroup else m) 0

/-- Vector that group g names. -/
def grpVector (g : Nat) (d : Dev) : Nat := rget EVT_GRPg_CFG.VECTOR 0 g d
/-- Whether a vector is requested by a group or a waiting CQ notification (R452). -/
def vecRequested (v : Nat) (d : Dev) : Bool :=
  bit d.evt.cqWait v || (bitsOf 64 d.evt.req).any fun g => grpVector g d == v

/-- AON time rounded up to its 40 ns resolution (R458). -/
def aonRound (t : Nat) : Nat := (t + 39) / 40 * 40
/-- Set the deadline of every enabled watch entry for vector v to t unless an earlier one stands (R458). -/
def aonWatch (v t : Nat) (d : Dev) : Dev :=
  (List.range 64).foldl (fun s k =>
    if flag AON_WATCHk.EN 0 k s && rget AON_WATCHk.VECTOR 0 k s == v then
      let t' := aonRound t
      let new := match find? s.aon.deadline k with | some o => min o t' | none => t'
      { s with aon := { s.aon with deadline := ins s.aon.deadline k new } }
    else s) d

/-- A request for vector v falls away: with no other requester its PBA and held bits clear (R454). -/
def vecWithdraw (v : Nat) (d : Dev) : Dev :=
  let d := inc Pg.EVT 5 d
  if vecRequested v d then d
  else { d with evt := { d.evt with pba := clrBit d.evt.pba v, held := clrBit d.evt.held v } }

/-- Raise an in-band interrupt with its bytes while a dynamic address is held and ENINT is 1 (R439). -/
def ibiRaise (bytes : List Nat) (d : Dev) : Dev :=
  if flag MGT_STAT.DA_VALID 0 0 d && flag MGT_STAT.ENINT 0 0 d then
    inc Pg.MGT 3 (emit (.ibi bytes) { d with i3c := { d.i3c with ibi := [bytes], ibiAt := d.mono } })
  else d

/-- What one group does when the raised groups are evaluated (R449, R456). -/
def groupUpdate (old now : Nat) (d : Dev) (g : Nat) : Dev :=
  let d := if bit now g && !bit old g && flag EVT_GRPg_CFG.I3C 0 g d then
      ibiRaise [0x00, g] (inc Pg.EVT 4 { d with evt := { d.evt with i3cAt := ins d.evt.i3cAt g d.mono } }) else d
  if bit now g then
    if flag EVT_GRPg_CFG.MSIX 0 g d && !bit d.evt.active g && !bit d.evt.gap g && !bit d.evt.req g then
      aonWatch (grpVector g d) d.hwd.aonNs { d with evt := { d.evt with req := setBit d.evt.req g } }
    else d
  else if bit d.evt.req g then
    vecWithdraw (grpVector g d) { d with evt := { d.evt with req := clrBit d.evt.req g } }
  else d

/-- Evaluate the groups after a change: requests, withdrawals, in-band interrupts and ALERT_N (R449, R454, R456, R457). -/
def evtUpdate (d : Dev) : Dev :=
  let now := raisedGroups d
  let old := d.evt.raised
  let d := (bitsOf 64 (now ||| old ||| d.evt.req)).foldl (groupUpdate old now) d
  let alert := flag EVT_ALERT.EN 0 0 d && (bitsOf 64 now).any fun g => flag EVT_GRPg_CFG.ALERT 0 g d
  { d with evt := { d.evt with raised := now, alertN := alert } }

/-- Source n of page p fires: its pending bit is set (R446). A TM-die page reaches the EVT by an EVENT record. -/
def fire (p n : Nat) (d : Dev) : Dev :=
  let f := face p d
  let d := perfCount p (0x08 + n) 1 0 (setFace p { f with pend := setBit f.pend n } d)
  if onTmDie p then d else evtUpdate d

/-- Apply a clear or mask of page p at the EVT in the cycle of the write (R581). -/
def evtClearCopy (p m : Nat) (d : Dev) : Dev :=
  if onTmDie p then
    { d with evt := { d.evt with tmPend := put d.evt.tmPend p 0 (clrBits (look d.evt.tmPend p 0) m) } }
  else d

/-! Control messages of the fabric (R380 to R388). -/

/-- The learning record of R383: OP 0 LEARN, 1 DECIDE, 2 AGE, 3 REMOVE. -/
def learnRec (op tbl dev port time key : Nat) : Nat :=
  op * 2 ^ 252 + tbl % 8 * 2 ^ 249 + dev % 64 * 2 ^ 243 + port % 256 * 2 ^ 235 + time % 2 ^ 48 * 2 ^ 160 + key % 2 ^ 160
/-- The epoch record of R386: OP 0 PREPARE, 1 READY, 2 NOT_READY, 3 COMMIT, 4 ABORT; t in ns. -/
def epochRec (op seq nr t : Nat) : Nat :=
  op * 2 ^ 252 + seq % 2 ^ 16 * 2 ^ 236 + nr % 4 * 2 ^ 234 + t / 1000000000 % 2 ^ 48 * 2 ^ 30 + t % 1000000000
/-- The sync record of R387. -/
def syncRec (sec ms term : Nat) : Nat := sec % 2 ^ 48 * 2 ^ 208 + ms * 2 ^ 198 + term % 2 ^ 16 * 2 ^ 182
/-- A control message waits for its cell; none is sent while the FCT block is not enabled (R39). -/
def sendCtl (dst : Option Nat) (kind rec_ : Nat) (d : Dev) : Dev :=
  if blkEn Pg.FCT d then { d with ctlQ := d.ctlQ ++ [{ dst := dst, kind := kind, rec_ := rec_ }] } else d

/-! Times. -/

/-- One second in units of 2^-32 ns. -/
def unitNs : Nat := 2 ^ 32
/-- A Spindle time from seconds and nanoseconds, in units of 2^-32 ns. -/
def mkTime (sec ns : Nat) : Nat := (sec * 1000000000 + ns) * 2 ^ 32
/-- Whole nanoseconds of a Spindle time. -/
def timeNsOf (t : Nat) : Nat := t / 2 ^ 32
/-- Seconds of a Spindle time. -/
def secOf (t : Nat) : Nat := t / 2 ^ 32 / 1000000000
/-- Nanoseconds within the second of a Spindle time. -/
def nsOf (t : Nat) : Nat := t / 2 ^ 32 % 1000000000
/-- The 16 fraction bits of a Spindle time that the register layouts show (R329). -/
def fracOf (t : Nat) : Nat := t / 2 ^ 16 % 2 ^ 16

/-! The Heartwood log (R485), which several blocks write. -/

/-- Physical block of a logical block (R486). -/
def hwdBlock (b : Nat) (d : Dev) : Nat := look d.hwd.remap b b
/-- Write one MRAM word, at a logical word address. -/
def mramWrite (w v : Nat) (d : Dev) : Dev :=
  let phys := hwdBlock (w / 512) d * 512 + w % 512
  inc Pg.HWD 0 { d with hwd := { d.hwd with mram := put d.hwd.mram phys 0 (v % 2 ^ 64) } }
/-- Read one MRAM word, at a logical word address. -/
def mramRead (w : Nat) (d : Dev) : Nat := look d.hwd.mram (hwdBlock (w / 512) d * 512 + w % 512) 0
/-- The bytes of 64-bit words, most significant byte first, over which a record's CRC runs. -/
def wordsBytes (ws : List Nat) : Bytes := ws.flatMap (beBytes 8)
/-- Write consecutive MRAM words. -/
def mramWrites (w : Nat) (vs : List Nat) (d : Dev) : Dev :=
  (vs.zipIdx).foldl (fun s (x : Nat × Nat) => mramWrite (w + x.2) x.1 s) d

/-- Append an entry to the event log: at most 1,000 per second, the rest counted as dropped (R485). -/
def hwdLog (kind type inst code data : Nat) (d : Dev) : Dev :=
  let sec := d.hwd.aonNs / 1000000000
  let n := if d.hwd.logSec = sec then d.hwd.logInSec else 0
  if 1000 ≤ n then
    inc Pg.HWD 4 { d with hwd := { d.hwd with logSec := sec, tot := { d.hwd.tot with logDropped := (d.hwd.tot.logDropped + 1) % 2 ^ 32 } } }
  else
    let next := rget HWD_PTR1.LOG_NEXT 0 0 d
    let w0 := d.hwd.aonNs / 1000 % 2 ^ 64
    let utc := rget HWD_UTC.SECONDS 0 0 d % 2 ^ 32
    let w1 := utc * 2 ^ 32 + kind * 2 ^ 16
    let w2 := type * 2 ^ 48 + inst * 2 ^ 40 + code * 2 ^ 32 + data % 2 ^ 32
    let seqHi := d.hwd.tot.logTotal % 2 ^ 32 * 2 ^ 32
    let crc := crc32c (wordsBytes [w0, w1, w2] ++ beBytes 4 (d.hwd.tot.logTotal % 2 ^ 32))
    let d := mramWrites (383 * 512 + 4 * next) [w0, w1, w2, seqHi + crc] d
    let d := rset HWD_PTR1.LOG_NEXT 0 0 ((next + 1) % 8192) d
    let tot := { d.hwd.tot with logTotal := (d.hwd.tot.logTotal + 1) % 2 ^ 32 }
    let hour := { d.hwd.hour with logs := d.hwd.hour.logs + 1 }
    let day := { d.hwd.day with logs := d.hwd.day.logs + 1 }
    { d with hwd := { d.hwd with logSec := sec, logInSec := n + 1, tot := tot, hour := hour, day := day } }

/-- An uncorrectable error enters the log when a latch register turns VALID (R556). -/
def eccLog (p addr : Nat) (d : Dev) : Dev :=
  let d := hwdLog 5 (typeCode p) (instanceOf p) 0 addr d
  { d with hwd := { d.hwd with day := { d.hwd.day with eccs := d.hwd.day.eccs + 1 } } }

/-! Retained memory banks (R24, R25, R497). -/

/-- Retained banks of a place, as a bitmap. -/
def retainedAt (k : Nat) (d : Dev) : Nat := look d.banks.retained k 0
/-- Set the retained banks of a place. -/
def setRetained (k v : Nat) (d : Dev) : Dev := { d with banks := { d.banks with retained := put d.banks.retained k 0 v } }
/-- Bank b of a place is accessed: it leaves retention, and its idle time starts again (R25, R497). -/
def bankAwake (k b : Nat) (d : Dev) : Dev :=
  let d := setRetained k (clrBit (retainedAt k d) b) d
  { d with banks := { d.banks with used := put d.banks.used (16 * k + b) 0 d.mono } }

end Sys2Proof.Machine
end

