-- ==== Sys2Proof/Machine/LinePorts.lean ====
section
/-! DEFINITION. Line ports (03_line_ports.md): group modes, the link machine, security associations, preemption and
timestamps. A port is named by its number n; its page is LPG n ÷ 4 and its place there is n mod 4. -/

namespace Sys2Proof.Machine

/-- The port's own state. -/
def port (n : Nat) (d : Dev) : PortSt := look d.ports n {}
/-- Set the port's own state. -/
def setPort (n : Nat) (x : PortSt) (d : Dev) : Dev := { d with ports := put d.ports n {} x }
/-- A field of a per-port register. -/
def pget (f : Fld) (n : Nat) (d : Dev) : Nat := rget f (n / 4) (n % 4) d
/-- A one-bit field of a per-port register. -/
def pflag (f : Fld) (n : Nat) (d : Dev) : Bool := pget f n d != 0
/-- Set a field of a per-port register. -/
def pset (f : Fld) (n v : Nat) (d : Dev) : Dev := rset f (n / 4) (n % 4) v d
/-- Count in the port counter at offset o of R76. -/
def portInc (n o k : Nat) (d : Dev) : Dev := incAt (Pg.LPG + n / 4) (0x1000 + 0x400 * (n % 4) + o) k d
/-- Fire the port's bit of an LPG source whose lowest bit is b (R77). -/
def portFire (n b : Nat) (d : Dev) : Dev := fire (Pg.LPG + n / 4) (b + n % 4) d

/-- MODE of group g. -/
def lpgMode (g : Nat) (d : Dev) : Nat := rget LPG_MODE.MODE g 0 d
/-- Whether the group's mode creates port n (R56). -/
def portExists (n : Nat) (d : Dev) : Bool :=
  let p := n % 4
  match lpgMode (n / 4) d with
  | 1 => true
  | 2 => p == 0 || p == 2
  | 3 => p == 0 || p == 2 || p == 3
  | 4 => p == 0
  | 5 => p == 0
  | _ => false
/-- The line lanes of port n under its group's mode, lane 4g + k of group g (R56). -/
def portLanes (n : Nat) (d : Dev) : List Nat :=
  let b := n / 4 * 4
  match lpgMode (n / 4) d with
  | 1 => [n]
  | 2 => [n, n + 1]
  | 3 => if n % 4 = 0 then [n, n + 1] else [n]
  | 4 => [b, b + 1, b + 2, b + 3]
  | 5 => (List.range 8).map (b + ·)
  | _ => []
/-- The physical lane that carries a logical lane of its group (R58). -/
def physLane (l : Nat) (d : Dev) : Nat := l / 4 * 4 + bits (rget LPG_LANE_MAP.LANE_SEL (l / 4) 0 d) (2 * (l % 4) + 1) (2 * (l % 4))
/-- Whether a port of group g has EN set. -/
def groupEn (g : Nat) (d : Dev) : Bool := (List.range 4).any fun p => flag LPG_PORTn_CFG.EN g p d

/-- Whether a write of a mode to LPG_MODE of group g is accepted (R57). -/
def lpgModeOk (g mode : Nat) (d : Dev) : Bool :=
  let even := g % 2 == 0
  let partner := if even then g + 1 else g - 1
  let cur := lpgMode g d
  let pm := lpgMode partner d
  let wide (m : Nat) : Bool := m == 5 || m == 6
  let pairing := wide mode || wide cur || wide pm
  !groupEn g d && !(pairing && groupEn partner d) &&
    (if mode = 6 then !even && (pm == 0 || pm == 5)
     else if mode = 5 then even && pm == 6
     else decide (mode ≤ 4) && !(!even && pm == 5))

/-- A write of LPG_MODE (R56, R57). -/
def lpgModeWrite (g img : Nat) (d : Dev) : Dev :=
  if lpgModeOk g (LPG_MODE.MODE.of img) d then storeFields false .LPG_MODE g 0 img d
  else errAt Err.BAD_ARG .LPG_MODE g 0 d

/-- A write of LPG_LANE_MAP: no physical lane twice (field table of LPG_LANE_MAP). -/
def laneMapWrite (g img : Nat) (d : Dev) : Dev :=
  let sel := LPG_LANE_MAP.LANE_SEL.of img
  let lanes := (List.range 4).map fun k => bits sel (2 * k + 1) (2 * k)
  if lanes.Nodup then storeFields false .LPG_LANE_MAP g 0 img d else errAt Err.BAD_ARG .LPG_LANE_MAP g 0 d

/-! The link machine (R60). State codes: 0 DISABLED, 1 AN, 2 TRAIN, 3 ALIGN, 4 UP, 5 FAULT. -/

/-- LINK_STATE of the port. -/
def linkState (n : Nat) (d : Dev) : Nat := pget LPG_PORTn_STAT.LINK_STATE n d
/-- AN_EN as the link machine takes it: 0 while MEDIA is 0 (R59). -/
def anEn (n : Nat) (d : Dev) : Bool := pflag LPG_PORTn_CFG.AN_EN n d && pget LPG_PORTn_CFG.MEDIA n d != 0
/-- LT_EN as the link machine takes it: 0 while MEDIA is 0 (R59). -/
def ltEn (n : Nat) (d : Dev) : Bool := pflag LPG_PORTn_CFG.LT_EN n d && pget LPG_PORTn_CFG.MEDIA n d != 0

/-- Set LINK_UP; each change fires LINK_CHG (R60). -/
def setLinkUp (n : Nat) (up : Bool) (d : Dev) : Dev :=
  if pflag LPG_PORTn_STAT.LINK_UP n d == up then d
  else portFire n 0 (pset LPG_PORTn_STAT.LINK_UP n (b2n up) d)
/-- Enter a state of the link machine. -/
def linkTo (n st : Nat) (d : Dev) : Dev :=
  let x := port n d
  pset LPG_PORTn_STAT.LINK_STATE n st (setPort n { x with clean := false, expired := false, anWait := false } d)
/-- The state that follows where the table says AN if AN_EN, else TRAIN if LT_EN, else ALIGN. -/
def linkFirst (n : Nat) (d : Dev) : Nat := if anEn n d then 1 else if ltEn n d then 2 else 3

/-- Frames that wait at a port that is not UP are discarded while DOWN_DISCARD is 1 (R61): those handed to the MAC. -/
def downDiscard (n : Nat) (d : Dev) : Dev :=
  let x := port n d
  if pflag LPG_PORTn_CFG.DOWN_DISCARD n d && linkState n d != 4 then
    x.txWait.foldl (fun s _ => drop 0x09 s) (setPort n { x with txWait := [] } d)
  else d

/-- The port leaves DISABLED, while its block works (R39, R60) and no physical lane that it uses failed calibration (R58, R526). -/
def linkStart (n : Nat) (d : Dev) : Dev :=
  if blkEn (Pg.LPG + n / 4) d && pflag LPG_PORTn_CFG.EN n d && linkState n d == 0 && !(portLanes n d).any (fun l => bit d.sys.badLine (physLane l d)) then
    linkTo n (linkFirst n d) (setPort n { port n d with idle := false } d)
  else d
/-- PREEMPT_ACTIVE after a change of the preemption settings or of verification (R75). [DESIGN CHOICE: log 14] -/
def preemptUpdate (n : Nat) (d : Dev) : Dev :=
  let on := pflag LPG_PORTn_PREEMPT.EN n d && (!pflag LPG_PORTn_PREEMPT.VERIFY_EN n d || (port n d).verified)
  pset LPG_PORTn_STAT.PREEMPT_ACTIVE n (b2n on) d

/-- Auto-negotiation resolves. -/
def linkAnResolved (n : Nat) (d : Dev) : Dev :=
  if linkState n d == 1 then linkTo n (if ltEn n d then 2 else 3) (pset LPG_PORTn_STAT.AN_DONE n 1 d) else d
/-- The port goes UP. [DEDUCED: log 24] -/
def linkGoUp (n : Nat) (d : Dev) : Dev :=
  let d := pset LPG_PORTn_STAT.LOCAL_FAULT n 0 (pset LPG_PORTn_STAT.REMOTE_FAULT n 0 (pset LPG_PORTn_STAT.HI_SER n 0 d))
  setLinkUp n true (linkTo n 4 d)
/-- A clean lock that runs in FAULT breaks: after the 500 ms the port leaves FAULT, before them it stays there without one (R60). -/
def lockGone (n : Nat) (d : Dev) : Dev :=
  let x := port n d
  if x.clean && x.expired then linkTo n (if anEn n d then 1 else 3) d else setPort n { x with clean := false } d

/-! Register writes of the LPG page. -/

/-- A write of LPG_PORTn_PREEMPT (R74, R75). In MODE 4 and 5 the refusal of EN holds at every port number of the group. [DESIGN CHOICE: log 111] -/
def preemptWrite (g p img : Nat) (d : Dev) : Dev :=
  let n := 4 * g + p
  let vt := LPG_PORTn_PREEMPT.VERIFY_TIME.of img
  let wide := lpgMode g d == 4 || lpgMode g d == 5
  if vt < 1 ∨ 128 < vt ∨ (LPG_PORTn_PREEMPT.EN.on img ∧ wide) then errAt Err.BAD_ARG .LPG_PORTn_PREEMPT g p d
  else
    let was := flag LPG_PORTn_PREEMPT.EN g p d
    let d := storeFields false .LPG_PORTn_PREEMPT g p img d
    let d := if was && LPG_PORTn_PREEMPT.EN.on img then d else setPort n { port n d with attempts := 0, verified := false } d
    preemptUpdate n d

/-- A write of LPG_PORTn_MSEC: XPN does not change while EN was 1; VALIDATE 3 and CONF_OFS 3 are refused. -/
def msecWrite (g p img : Nat) (d : Dev) : Dev :=
  let changes := LPG_PORTn_MSEC.XPN.of img != rget LPG_PORTn_MSEC.XPN g p d
  if LPG_PORTn_MSEC.VALIDATE.of img = 3 ∨ LPG_PORTn_MSEC.CONF_OFS.of img = 3 ∨ (changes ∧ flag LPG_PORTn_MSEC.EN g p d) then
    errAt Err.BAD_ARG .LPG_PORTn_MSEC g p d
  else storeFields false .LPG_PORTn_MSEC g p img d

/-- A write of LPG_PORTn_TS_CNT: a write of 0 clears OVF; other values leave it. [DESIGN CHOICE: log 112] -/
def tsCntWrite (g p img : Nat) (d : Dev) : Dev :=
  if LPG_PORTn_TS_CNT.OVF.of img = 0 then rset LPG_PORTn_TS_CNT.OVF g p 0 d else d

/-! Security associations (R68 to R72). -/

/-- An SA of port n: transmit or receive. -/
def saOf (n : Nat) (tx : Bool) (i : Nat) (d : Dev) : Sa :=
  if tx then look (port n d).tx i {} else look (port n d).rx i {}
/-- Set an SA of port n. -/
def setSa (n : Nat) (tx : Bool) (i : Nat) (s : Sa) (d : Dev) : Dev :=
  let x := port n d
  if tx then setPort n { x with tx := put x.tx i {} s } d else setPort n { x with rx := put x.rx i {} s } d
/-- Whether SA i is the current transmit SA of its SC i ÷ 4 (R68). -/
def saIsCurrent (n i : Nat) (d : Dev) : Bool := find? (port n d).cur (i / 4) == some i
/-- The vault object of a handle, if it is a key of the size that the port needs (R503): TYPE 2 with XPN, TYPE 1 without. -/
def saKey (n h : Nat) (d : Dev) : Option Bytes :=
  let want := if pflag LPG_PORTn_MSEC.XPN n d then 2 else 1
  match find? d.vlt.slots h with
  | some o => if h ≠ 0 ∧ byteAt o 0 = want then some ((o.drop 4).take (byteAt o 1)) else none
  | none => none
/-- The last packet number (R72). -/
def lastPn (n : Nat) (d : Dev) : Nat := if pflag LPG_PORTn_MSEC.XPN n d then 2 ^ 64 - 1 else 2 ^ 32 - 1

/-- INSTALL (R70), with LPG_SA_DATA as it stood at the commit. -/
def saInstall (n : Nat) (tx : Bool) (i dat : Nat) (d : Dev) : Dev :=
  let g := n / 4
  let h := LPG_SA_DATA.KEY_HANDLE.of dat
  if tx && saIsCurrent n i d then errAt 0x21 .LPG_SA_CMD g 0 d
  else match saKey n h d with
    | none => errAt 0x20 .LPG_SA_CMD g 0 d
    | some k =>
      setSa n tx i { valid := true, handle := h, ssci := LPG_SA_DATA.SSCI.of dat, nextPn := LPG_SA_DATA.NEXT_PN.of dat,
                     sci := LPG_SA_DATA.SCI.of dat, key := k, nearFired := false } d
/-- REMOVE (R70): the SA becomes invalid and its key is erased. -/
def saRemove (n : Nat) (tx : Bool) (i : Nat) (d : Dev) : Dev :=
  if tx && saIsCurrent n i d then errAt 0x21 .LPG_SA_CMD (n / 4) 0 d
  else setSa n tx i { saOf n tx i d with valid := false, key := [] } d
/-- READ (R70): every field except the key into LPG_SA_DATA. -/
def saRead (n : Nat) (tx : Bool) (i : Nat) (d : Dev) : Dev :=
  let s := saOf n tx i d
  let g := n / 4
  rset LPG_SA_DATA.VALID g 0 (b2n s.valid) <| rset LPG_SA_DATA.KEY_HANDLE g 0 s.handle <| rset LPG_SA_DATA.SSCI g 0 s.ssci <|
    rset LPG_SA_DATA.AN g 0 (i % 4) <| rset LPG_SA_DATA.NEXT_PN g 0 s.nextPn <| rset LPG_SA_DATA.SCI g 0 s.sci d
/-- SET_CURRENT (R70): a valid transmit SA becomes its SC's current one, which ends an exhaustion (R72). A receive SA is in no
SC: BAD_ARG. [DESIGN CHOICE: log 23] -/
def saSetCurrent (n : Nat) (tx : Bool) (i : Nat) (d : Dev) : Dev :=
  if !tx then errAt Err.BAD_ARG .LPG_SA_CMD (n / 4) 0 d
  else if !(saOf n true i d).valid then errAt Err.NOT_READY .LPG_SA_CMD (n / 4) 0 d
  else setPort n { port n d with cur := ins (port n d).cur (i / 4) i, exh := (port n d).exh.filter (· != i / 4) } d
/-- Run an SA command of group g to its end (R70). -/
def saRun (g img dat : Nat) (d : Dev) : Dev :=
  let n := 4 * g + LPG_SA_CMD.PORT.of img
  let tx := LPG_SA_CMD.DIR.on img
  let i := LPG_SA_CMD.SA.of img
  match LPG_SA_CMD.OP.of img with
  | 0 => saInstall n tx i dat d
  | 1 => saRemove n tx i d
  | 2 => saRead n tx i d
  | _ => saSetCurrent n tx i d
/-- A write of LPG_SA_CMD (R70, R71): with GO 1 the command takes effect at the frame boundary, so one for a transmit SA waits
with GO at 1 while the port sends a frame. A GO meanwhile is refused, and a write with GO 0 only stores its fields. [DESIGN CHOICE: log 5] -/
def saCmdWrite (g img : Nat) (d : Dev) : Dev :=
  let n := 4 * g + LPG_SA_CMD.PORT.of img
  let dat := regImg .LPG_SA_DATA g 0 d
  if flag LPG_SA_CMD.GO g 0 d && LPG_SA_CMD.GO.on img then errAt Err.BAD_ARG .LPG_SA_CMD g 0 d
  else
    let d := storeFields false .LPG_SA_CMD g 0 img d
    if !LPG_SA_CMD.GO.on img then d
    else if LPG_SA_CMD.DIR.on img && (port n d).txNow.isSome then
      rset LPG_SA_CMD.GO g 0 1 (setPort n { port n d with cmd := some (img, dat) } d)
    else saRun g img dat d
/-- The frame boundary at which a waiting SA command of the port runs and its GO returns to 0 (R71). -/
def saResume (n : Nat) (d : Dev) : Dev :=
  match (port n d).cmd with
  | none => d
  | some (img, dat) => saRun (n / 4) img dat (rset LPG_SA_CMD.GO (n / 4) 0 0 (setPort n { port n d with cmd := none } d))

/-- The current transmit SA of an SC, if it is valid, not at its last PN, and the SC not exhausted. -/
def saUsable (n sc : Nat) (d : Dev) : Option Nat :=
  match find? (port n d).cur sc with
  | some i => let s := saOf n true i d; if s.valid ∧ s.nextPn < lastPn n d ∧ !(port n d).exh.contains sc then some i else none
  | none => none
/-- At a frame boundary: an SC whose current SA stands at its last PN moves to its next AN if that SA is valid and
TX_NEXT_ARM is 1; otherwise SA_EXHAUSTED fires and the SC stays exhausted until software makes an SA current (R72).
[DESIGN CHOICE: log 17] -/
def saSwitch (n sc : Nat) (d : Dev) : Dev :=
  match find? (port n d).cur sc with
  | some i =>
    let s := saOf n true i d
    if s.valid ∧ lastPn n d ≤ s.nextPn ∧ !(port n d).exh.contains sc then
      let j := 4 * sc + (i + 1) % 4
      if (saOf n true j d).valid && pflag LPG_PORTn_MSEC.TX_NEXT_ARM n d then
        portFire n 16 (setPort n { port n d with cur := ins (port n d).cur sc j } d)
      else portFire n 20 (setPort n { port n d with exh := sc :: (port n d).exh } d)
    else d
  | none => d
/-- A transmit SA takes the next packet number for a frame; PN_NEAR fires once per SA, at the first frame that finds or leaves
NEXT_PN at or above the threshold (R72). [DESIGN CHOICE: log 113] -/
def saTakePn (n i : Nat) (d : Dev) : Dev :=
  let s := saOf n true i d
  let next := s.nextPn + 1
  let near := pget LPG_PORTn_PN_NEAR.PN_NEAR n d
  if near ≤ next ∧ !s.nearFired then portFire n 12 (setSa n true i { s with nextPn := next, nearFired := true } d)
  else setSa n true i { s with nextPn := next } d

/-- Erase the key of every SA and make those SAs invalid: the part of a vault wipe in the LPG key stores (R508). -/
def saWipe (d : Dev) : Dev :=
  let wipe (t : Tbl Sa) : Tbl Sa := t.map fun x => (x.1, { x.2 with valid := false, key := [] })
  { d with ports := d.ports.map fun x => (x.1, { x.2 with rx := wipe x.2.rx, tx := wipe x.2.tx }) }

/-! What ends frames in progress. -/

/-- Frames in transmission, and a preempted one whose fragments remain, are truncated with a bad FCS and are not sent again
(R60, R61); a waiting SA command meets its frame boundary (R71). -/
def truncateTx (n : Nat) (d : Dev) : Dev :=
  let x := port n d
  let cut (f : Option TxFrame) (d : Dev) : Dev := if f.isSome then emit (.frameAbort n) d else d
  saResume n (cut x.txPre (cut x.txNow (setPort n { x with txNow := none, txPre := none } d)))
/-- The port goes to DISABLED: the transmitter idles and frames in progress are truncated (R60). [DESIGN CHOICE: log 14] -/
def linkStop (n : Nat) (d : Dev) : Dev :=
  let d := truncateTx n d
  let d := setLinkUp n false (linkTo n 0 (pset LPG_PORTn_STAT.AN_DONE n 0 d))
  downDiscard n (preemptUpdate n (setPort n { port n d with idle := true, verified := false, attempts := 0 } d))
/-- The port leaves UP for FAULT (R60, R61), or a lock in FAULT is lost; the fault bits show what was seen. A verification
survives. [DESIGN CHOICE: log 14; DEDUCED: log 24] -/
def linkFault (n : Nat) (loc rem ser : Bool) (d : Dev) : Dev :=
  let d := pset LPG_PORTn_STAT.LOCAL_FAULT n (b2n loc) (pset LPG_PORTn_STAT.REMOTE_FAULT n (b2n rem) (pset LPG_PORTn_STAT.HI_SER n (b2n ser) d))
  if linkState n d == 4 then downDiscard n (setLinkUp n false (linkTo n 5 (truncateTx n d)))
  else if linkState n d == 5 then lockGone n d
  else d
/-- A write of LPG_PORTn_CFG (its field table, R60). -/
def portCfgWrite (g p img : Nat) (d : Dev) : Dev :=
  let n := 4 * g + p
  let mf := LPG_PORTn_CFG.MAX_FRAME.of img
  let on := LPG_PORTn_CFG.EN.on img
  if mf < 64 ∨ 9216 < mf ∨ LPG_PORTn_CFG.MEDIA.of img = 3 ∨ (on ∧ !portExists n d) then errAt Err.BAD_ARG .LPG_PORTn_CFG g p d
  else
    let was := flag LPG_PORTn_CFG.EN g p d
    let d := storeFields false .LPG_PORTn_CFG g p img d
    if on && !was then linkStart n d else if !on && was then linkStop n d else downDiscard n d

/-! Timestamps (R64 to R67). -/

/-- PKT_TIME: (SEC × 10^9 + NS) modulo 2^48 (R65). -/
def pktTime (sec ns : Nat) : Nat := (sec * 1000000000 + ns) % 2 ^ 48

/-- Push a two-step entry: with a full FIFO it is lost (R67). -/
def tsPush (n tag sec ns frac : Nat) (d : Dev) : Dev :=
  let x := port n d
  if 64 ≤ x.fifo.length then
    portFire n 8 (pset LPG_PORTn_TS_CNT.OVF n (min (pget LPG_PORTn_TS_CNT.OVF n d + 1) 0xFFFF) d)
  else
    portFire n 4 (pset LPG_PORTn_TS_CNT.LEVEL n (x.fifo.length + 1) (setPort n { x with fifo := x.fifo ++ [(tag, sec, ns, frac)] } d))
/-- Pop the head of the two-step FIFO into the register LPG_PORTn_TS_FIFO, from which the read snapshot is taken (R55). -/
def tsPop (n : Nat) (d : Dev) : Dev :=
  let x := port n d
  let load (v tag sec ns frac : Nat) (d : Dev) : Dev :=
    pset LPG_PORTn_TS_FIFO.VALID n v <| pset LPG_PORTn_TS_FIFO.TAG n tag <| pset LPG_PORTn_TS_FIFO.SEC n sec <|
      pset LPG_PORTn_TS_FIFO.NS n ns <| pset LPG_PORTn_TS_FIFO.FRAC n frac d
  match x.fifo with
  | [] => load 0 0 0 0 0 d
  | (tag, sec, ns, frac) :: t =>
    load 1 tag sec ns frac (pset LPG_PORTn_TS_CNT.LEVEL n t.length (setPort n { x with fifo := t } d))

end Sys2Proof.Machine
end

