-- ==== Sys2Proof/Machine/Parser.lean ====
section
/-! DEFINITION. The parser of the Headstock (04_headstock_parse.md, R83 to R91): header slots, anchors, payload start and
the symmetric hash (R100 to R102), as functions of the packet's bytes and the port's settings. -/

namespace Sys2Proof.Machine

/-- What the parser takes from the registers for one pass (R84, R86, R87, R91). -/
structure ParseCfg where
  window : Nat := 128          -- header window in bytes
  tags : Nat := 2
  labels : Nat := 4
  tunnels : Nat := 1
  tpid3 : Option Nat := none
  cwEth : Bool := false
  vxlan : Nat := 0
  geneve : Nat := 0
  gtpu : Nat := 0
  chkHdr : Bool := true
  chkCsum : Bool := true
  deriving DecidableEq, Repr

/-- The IP layer that the hash reads. -/
structure L3Info where
  ofs : Nat
  v6 : Bool
  proto : Nat                  -- IPv4 Protocol, or the Next Header that ended the extension chain
  frag : Bool
  deriving DecidableEq, Repr

/-- The parser's result as it grows. -/
structure Parse where
  slots : List (Nat × Nat) := []   -- (byte offset, code) in the order met
  anchors : Tbl Nat := []          -- R89: 0–7 as SRC of R98
  layer : Nat := 0                 -- tunnel layers entered
  tagCount : Nat := 0              -- in the current layer
  labelCount : Nat := 0
  l3out : Option L3Info := none
  l3in : Option L3Info := none
  etOut : Nat := 0                 -- EtherType after any tags of L2_OUT
  etIn : Nat := 0
  inEth : Bool := false            -- the current L2 header is the one whose EtherType the hash takes
  pstart : Nat := 0
  reach : Nat := 0                 -- highest byte offset read, plus 1
  dropCode : Nat := 0              -- R91; 0 none
  deriving DecidableEq, Repr

/-- Header kinds (R86), by code; a VLAN tag is 0x08 and an MPLS label 0x10. -/
abbrev Hdr := Nat

/-- What follows a header (R87). -/
inductive NextHdr where
  | hdr (k : Hdr)
  | ipInIp (k : Hdr)           -- an IP header directly inside another: it enters a tunnel layer
  | unknown
  | stop                       -- no further slot
  | trunc                      -- the byte that chooses lies beyond the window (R85)
  deriving DecidableEq, Repr

/-- Sum of the 16-bit words of a header. -/
def sum16 (bs : Bytes) : Nat → Nat → Nat
  | _, 0 => 0
  | o, n + 1 => beAt bs o 2 + sum16 bs (o + 2) n
/-- One's-complement fold to 16 bits. -/
def fold16 (x : Nat) : Nat :=
  let y := x % 65536 + x / 65536
  y % 65536 + y / 65536

/-- Length of a header, or why it cannot be told: the byte that holds it lies beyond the window (`trunc`) or the packet
(`malf`) (R85, R86). -/
inductive HLen where
  | len (n : Nat)
  | trunc
  | malf
  deriving DecidableEq, Repr

/-- The length byte at offset a, if the parser can read it. -/
def lenByte (c : ParseCfg) (bs : Bytes) (a : Nat) (f : Nat → Nat) : HLen :=
  if bs.length ≤ a then .malf else if c.window ≤ a then .trunc else .len (f (byteAt bs a))

/-- Length of the GTP-U extension headers from offset a, of type ty (R86): each is 4 × its first byte long and its last byte
names the next. One of length 0 cannot be passed: the header runs nowhere and is malformed, with PARSE_SHORT while CHK_HDR is
set. [DEDUCED: log 27] -/
def gtpExt (c : ParseCfg) (bs : Bytes) (base : Nat) : Nat → Nat → Nat → HLen
  | 0, _, _ => .malf
  | n + 1, a, ty =>
    if ty = 0 then .len (a - base)
    else match lenByte c bs a (4 * ·) with
      | .len 0 => .malf
      | .len l =>
        let e := a + l - 1
        if bs.length ≤ e then .malf else if c.window ≤ e then .trunc else gtpExt c bs base n (a + l) (byteAt bs e)
      | r => r

/-- Header lengths (R86). -/
def hdrLen (c : ParseCfg) (bs : Bytes) (k : Hdr) (o : Nat) : HLen :=
  match k with
  | 0x01 => .len 14
  | 0x03 => .len 28
  | 0x04 => .len 34
  | 0x05 => .len 4
  | 0x08 => .len 4
  | 0x10 => .len 4
  | 0x18 => lenByte c bs o fun b => 4 * (b % 16)
  | 0x19 => .len 40
  | 0x1A => lenByte c bs (o + 1) fun b => 8 * (b + 1)
  | 0x1B => lenByte c bs (o + 1) fun b => 8 * (b + 1)
  | 0x1D => .len 8
  | 0x1E => lenByte c bs (o + 1) fun b => 8 * (b + 1)
  | 0x1F => lenByte c bs (o + 1) fun b => 4 * (b + 2)
  | 0x20 => lenByte c bs (o + 12) fun b => 4 * (b / 16)
  | 0x21 => .len 8
  | 0x22 => .len 8
  | 0x23 => .len 8
  | 0x24 => .len 8
  | 0x28 => lenByte c bs o fun b => 4 + 4 * (b / 128 + b / 32 % 2 + b / 16 % 2)
  | 0x29 => .len 8
  | 0x2A => lenByte c bs o fun b => 8 + 4 * (b % 64)
  | 0x2B =>
    match lenByte c bs o fun b => b with
    | .len b =>
      if b % 8 = 0 then .len 8
      else if bits b 2 2 = 0 then .len 12
      else match lenByte c bs (o + 11) fun t => t with
        | .len t => gtpExt c bs o 128 (o + 12) t
        | r => r
    | r => r
  | _ => .len 0

/-- One more than the offset of a byte that the parser reads, if it can read it. -/
def readTo (c : ParseCfg) (bs : Bytes) (a : Nat) : Nat := if a < min c.window bs.length then a + 1 else 0
/-- One more than the highest length byte read while the GTP-U extension headers are walked (R79, R86). -/
def gtpReach (c : ParseCfg) (bs : Bytes) : Nat → Nat → Nat → Nat
  | 0, _, _ => 0
  | n + 1, a, ty =>
    if ty = 0 then 0
    else match lenByte c bs a (4 * ·) with
      | .len 0 => a + 1
      | .len l => max (readTo c bs (a + l - 1)) (if a + l - 1 < min c.window bs.length then gtpReach c bs n (a + l) (byteAt bs (a + l - 1)) else a + 1)
      | _ => 0
/-- One more than the highest byte that the parser reads to tell the length of a header (R79, R85). [DEDUCED: log 27] -/
def lenReach (c : ParseCfg) (bs : Bytes) (k : Hdr) (o : Nat) : Nat :=
  match k with
  | 0x18 => readTo c bs o
  | 0x1A => readTo c bs (o + 1)
  | 0x1B => readTo c bs (o + 1)
  | 0x1E => readTo c bs (o + 1)
  | 0x1F => readTo c bs (o + 1)
  | 0x20 => readTo c bs (o + 12)
  | 0x28 => readTo c bs o
  | 0x2A => readTo c bs o
  | 0x2B =>
    let r := readTo c bs o
    if r = 0 ∨ bits (byteAt bs o) 2 2 = 0 then r
    else max r (max (readTo c bs (o + 11)) (if o + 11 < min c.window bs.length then gtpReach c bs 128 (o + 12) (byteAt bs (o + 11)) else 0))
  | _ => 0
/-- The byte of a header that decides its own type, which must lie in the window where the packet holds it (R85): the first byte
of the EtherType or length field, and the Routing Type. -/
def typeByte (k : Hdr) : Option Nat :=
  match k with
  | 0x01 => some 12
  | 0x1B => some 2
  | _ => none

/-- The next header by EtherType (R87). -/
def etherNext (c : ParseCfg) (et : Nat) : NextHdr :=
  if et = 0x8100 ∨ et = 0x88A8 ∨ c.tpid3 = some et then .hdr 0x08
  else match et with
    | 0x0800 => .hdr 0x18
    | 0x86DD => .hdr 0x19
    | 0x8847 => .hdr 0x10
    | 0x8848 => .hdr 0x10
    | 0x0806 => .hdr 0x03
    | 0x88F7 => .hdr 0x04
    | _ => .unknown
/-- The next header by IP Protocol or Next Header (R87); `fromV6` only directly after IPV6. An IP header that the last extension
header or AH of another one names counts as directly inside it, and enters a tunnel layer (R84). [DEDUCED: log 115] -/
def protoNext (fromV6 : Bool) (p : Nat) : NextHdr :=
  match p with
  | 0 => if fromV6 then .hdr 0x1A else .unknown
  | 43 => .hdr 0x1B
  | 44 => .hdr 0x1D
  | 60 => .hdr 0x1E
  | 51 => .hdr 0x1F
  | 6 => .hdr 0x20
  | 17 => .hdr 0x21
  | 1 => .hdr 0x22
  | 58 => .hdr 0x23
  | 47 => .hdr 0x28
  | 50 => .hdr 0x24
  | 4 => .ipInIp 0x18
  | 41 => .ipInIp 0x19
  | _ => .unknown
/-- The next header by the Protocol Type of GRE and Geneve (R87). -/
def tunNext (t : Nat) : NextHdr :=
  match t with
  | 0x6558 => .hdr 0x01
  | 0x0800 => .hdr 0x18
  | 0x86DD => .hdr 0x19
  | 0x8847 => .hdr 0x10
  | _ => .unknown
/-- The first nibble of the byte at offset a, where the next header would start (R85, R87). -/
def nibbleNext (c : ParseCfg) (bs : Bytes) (a : Nat) (cw : Bool) : NextHdr :=
  if bs.length ≤ a then .stop
  else if c.window ≤ a then .trunc
  else match byteAt bs a / 16 with
    | 4 => .hdr 0x18
    | 6 => .hdr 0x19
    | 0 => if cw then .hdr 0x05 else .unknown
    | _ => .unknown
/-- The next header by UDP destination port (R87); a port register of 0 names no tunnel. -/
def udpNext (c : ParseCfg) (p : Nat) : NextHdr :=
  if c.vxlan ≠ 0 ∧ p = c.vxlan then .hdr 0x29
  else if c.geneve ≠ 0 ∧ p = c.geneve then .hdr 0x2A
  else if c.gtpu ≠ 0 ∧ p = c.gtpu then .hdr 0x2B
  else if p = 319 ∨ p = 320 then .hdr 0x04
  else .stop

/-- What follows header k at offset o of length n (R85, R87). -/
def nextHdr (c : ParseCfg) (bs : Bytes) (k : Hdr) (o n : Nat) : NextHdr :=
  match k with
  | 0x01 => let et := beAt bs (o + 12) 2; if et < 0x0600 then .stop else etherNext c et
  | 0x08 => let et := beAt bs (o + 2) 2; if et < 0x0600 then .unknown else etherNext c et
  | 0x10 => if byteAt bs (o + 2) % 2 = 0 then .hdr 0x10 else nibbleNext c bs (o + 4) true
  | 0x05 => if c.cwEth then .hdr 0x01 else .unknown
  | 0x18 => if beAt bs (o + 6) 2 % 8192 ≠ 0 then .stop else protoNext false (byteAt bs (o + 9))
  | 0x19 => protoNext true (byteAt bs (o + 6))
  | 0x1D => if beAt bs (o + 2) 2 / 8 ≠ 0 then .stop else protoNext false (byteAt bs o)
  | 0x1A => protoNext false (byteAt bs o)
  | 0x1B => protoNext false (byteAt bs o)
  | 0x1E => protoNext false (byteAt bs o)
  | 0x1F => protoNext false (byteAt bs o)
  | 0x21 => udpNext c (beAt bs (o + 2) 2)
  | 0x28 => tunNext (beAt bs (o + 2) 2)
  | 0x2A => tunNext (beAt bs (o + 2) 2)
  | 0x29 => .hdr 0x01
  | 0x2B => if byteAt bs (o + 1) = 0xFF then nibbleNext c bs (o + n) false else .unknown
  | _ => .stop

/-- Whether a whole header has a fault that CHK_HDR guards (R91). -/
def hdrFault (bs : Bytes) (k : Hdr) (o : Nat) : Bool :=
  match k with
  | 0x18 =>
    let ihl := byteAt bs o % 16
    let tl := beAt bs (o + 2) 2
    byteAt bs o / 16 != 4 || decide (ihl < 5 ∨ tl < 4 * ihl ∨ bs.length < o + tl)
  | 0x19 => byteAt bs o / 16 != 6 || decide (bs.length < o + 40 + beAt bs (o + 4) 2)
  | 0x20 => decide (byteAt bs (o + 12) / 16 < 5)
  | _ => false
/-- Whether a whole IPv4 header has a checksum error: the 4 × IHL bytes do not add up (R91). -/
def csumFault (bs : Bytes) (k : Hdr) (o : Nat) : Bool := k == 0x18 && fold16 (sum16 bs o (2 * (byteAt bs o % 16))) != 0xFFFF

/-- End the parse with a slot of the given code at offset o. -/
def endSlot (code o : Nat) (p : Parse) : Parse := { p with slots := p.slots ++ [(o, code)], pstart := o }
/-- A malformed header: a slot, or a drop with the given code while the check is on (R85, R91). -/
def malformed (on : Bool) (code o : Nat) (p : Parse) : Parse :=
  if on then { p with dropCode := code, pstart := o } else endSlot 0x3E o p

/-- Record an anchor unless it is recorded already (R89). -/
def anchorFirst (a o : Nat) (p : Parse) : Parse :=
  if has p.anchors a then p else { p with anchors := ins p.anchors a o }
/-- Enter a tunnel layer at the header at offset o: the inner anchors start anew and the counts of tags and labels too
(R84, R89). -/
def enterLayer (o : Nat) (p : Parse) : Parse :=
  let a := del (del (del p.anchors 5) 6) 7
  let q := anchorFirst 3 o { p with anchors := a, layer := p.layer + 1, tagCount := 0, labelCount := 0 }
  { q with l3in := none, etIn := 0 }
/-- Set the hash's IP layer while it stands. -/
def setProto (proto : Nat) (frag : Bool) (p : Parse) : Parse :=
  let f (x : L3Info) : L3Info := { x with proto := proto, frag := x.frag || frag }
  if p.layer = 0 then { p with l3out := p.l3out.map f } else { p with l3in := p.l3in.map f }

/-- Whether an IPv6 extension header at hand belongs to the IP header whose protocol the hash takes: the innermost one read
is the anchored one exactly when no second L3 header has been met in its layer. -/
def l3Anchor (p : Parse) : Nat := if p.layer = 0 then 1 else 6

/-- Write the slot of a whole header and its anchors, and note what the hash takes from it (R88, R89, R101). -/
def record (bs : Bytes) (k : Hdr) (o : Nat) (main : Bool) (p : Parse) : Parse :=
  let put1 (code : Nat) (p : Parse) : Parse := { p with slots := p.slots ++ [(o, code)] }
  let l2 := if p.layer = 0 then 0 else 5
  let l4 := if p.layer = 0 then 2 else 7
  match k with
  | 0x01 =>
    let et := beAt bs (o + 12) 2
    let first := !has p.anchors l2
    let q := anchorFirst l2 o (put1 (if et < 0x0600 then 0x02 else 0x01) p)
    let q := { q with inEth := first }
    if first then (if p.layer = 0 then { q with etOut := et } else { q with etIn := et }) else q
  | 0x08 =>
    let et := beAt bs (o + 2) 2
    let q := { p with tagCount := p.tagCount + 1 }
    let q := if p.inEth then (if p.layer = 0 then { q with etOut := et } else { q with etIn := et }) else q
    match p.slots.getLast? with
    | some (vo, code) =>
      if 0x08 ≤ code ∧ code < 0x0F ∧ vo + 4 * (code - 0x07) = o then { q with slots := p.slots.dropLast ++ [(vo, code + 1)] }
      else put1 0x08 q
    | none => put1 0x08 q
  | 0x10 =>
    let q := anchorFirst 4 o { p with labelCount := p.labelCount + 1, inEth := false }
    match p.slots.getLast? with
    | some (mo, code) =>
      if 0x10 ≤ code ∧ code < 0x17 ∧ mo + 4 * (code - 0x0F) = o then { q with slots := p.slots.dropLast ++ [(mo, code + 1)] }
      else put1 0x10 q
    | none => put1 0x10 q
  | 0x18 =>
    let a := l3Anchor p
    let info : L3Info := ⟨o, false, byteAt bs (o + 9), beAt bs (o + 6) 2 % 16384 ≠ 0⟩
    let q := put1 0x18 { p with inEth := false }
    if has p.anchors a then q
    else if p.layer = 0 then anchorFirst a o { q with l3out := some info } else anchorFirst a o { q with l3in := some info }
  | 0x19 =>
    let a := l3Anchor p
    let info : L3Info := ⟨o, true, byteAt bs (o + 6), false⟩
    let q := put1 0x19 { p with inEth := false }
    if has p.anchors a then q
    else if p.layer = 0 then anchorFirst a o { q with l3out := some info } else anchorFirst a o { q with l3in := some info }
  | 0x1B =>
    let q := put1 (if byteAt bs (o + 2) = 4 then 0x1C else 0x1B) p
    if main then setProto (byteAt bs o) false q else q
  | 0x1D => let q := put1 0x1D p; if main then setProto (byteAt bs o) true q else q
  | 0x1A => let q := put1 0x1A p; if main then setProto (byteAt bs o) false q else q
  | 0x1E => let q := put1 0x1E p; if main then setProto (byteAt bs o) false q else q
  | 0x1F => let q := put1 0x1F p; if main then setProto (byteAt bs o) false q else q
  | k =>
    let q := put1 k { p with inEth := false }
    if (k = 0x20 ∨ k = 0x21 ∨ k = 0x22 ∨ k = 0x23) ∧ has p.anchors (l3Anchor p) then anchorFirst l4 o q else q

/-- Parse from the header of kind k at offset o (R83 to R91). `ip` says that k is an IP header directly inside another one;
`main` that the extension headers met belong to the anchored IPv6 header of the layer, and no fragment header of it has been
met (R101). A tag or label of a run that crosses the window or the packet's end is a header of its own: its TRUNC or MALFORMED
slot stands at its offset, after the slot of the run before it. [DEDUCED: log 116] -/
def parseFrom (c : ParseCfg) (bs : Bytes) : Nat → Hdr → Nat → Bool → Bool → Parse → Parse
  | 0, _, o, _, _, p => { p with pstart := o }
  | fuel + 1, k, o, ip, main, p =>
    if bs.length ≤ o then { p with pstart := o }
    else
      let tun := ip || k == 0x28 || k == 0x29 || k == 0x2A || k == 0x2B
      if (k = 0x08 ∧ c.tags ≤ p.tagCount) ∨ (k = 0x10 ∧ c.labels ≤ p.labelCount) ∨ (tun ∧ c.tunnels ≤ p.layer) then
        endSlot 0x3C o p
      else
        let p := { p with reach := max p.reach (lenReach c bs k o) }
        match hdrLen c bs k o with
        | .trunc => endSlot 0x3D o p
        | .malf => malformed c.chkHdr 0x12 o p
        | .len n =>
          let e := o + n
          let p := { p with reach := max p.reach (min e (min c.window bs.length)) }
          let cut := (typeByte k).any fun t => decide (c.window ≤ o + t ∧ o + t < bs.length)
          if (c.window < e ∧ e ≤ bs.length) ∨ cut then endSlot 0x3D o p
          else if bs.length < e then malformed c.chkHdr 0x12 o p
          else
            let bad := hdrFault bs k o
            let sum := csumFault bs k o
            if bad && c.chkHdr then malformed true 0x10 o p
            else if sum && c.chkCsum then malformed true 0x11 o p
            else if bad || sum then malformed false 0 o p
            else
              let p := if tun then enterLayer o p else p
              let isIp := k == 0x18 || k == 0x19
              let v6main := k == 0x19 && !has p.anchors (l3Anchor p)
              let main := if isIp then v6main else main && (k == 0x1A || k == 0x1B || k == 0x1D || k == 0x1E || k == 0x1F)
              let p := record bs k o main p
              let main := main && k != 0x1D
              let p := if (k = 0x10 ∧ byteAt bs (o + 2) % 2 = 1) ∨ (k = 0x2B ∧ byteAt bs (o + 1) = 0xFF) then { p with reach := max p.reach (readTo c bs e) } else p
              match nextHdr c bs k o n with
              | .stop => { p with pstart := e }
              | .trunc => endSlot 0x3D e p
              | .unknown => if bs.length ≤ e then { p with pstart := e } else endSlot 0x3F e p
              | .hdr j => parseFrom c bs fuel j e false main p
              | .ipInIp j => parseFrom c bs fuel j e true main p

/-- The kind of header that a start code names (R83). -/
def startKind (code : Nat) : Option Hdr :=
  if code = 0x02 then some 0x01
  else if 0x08 ≤ code ∧ code ≤ 0x0F then some 0x08
  else if 0x10 ≤ code ∧ code ≤ 0x17 then some 0x10
  else if code = 0x1C then some 0x1B
  else if code ∈ [0x01, 0x03, 0x04, 0x05, 0x18, 0x19, 0x1A, 0x1B, 0x1D, 0x1E, 0x1F, 0x20, 0x21, 0x22, 0x23, 0x24, 0x28, 0x29, 0x2A, 0x2B] then
    some code
  else none

/-- Parse a packet from byte 0 with the given start code (R83). -/
def parsePacket (c : ParseCfg) (bs : Bytes) (code : Nat) : Parse :=
  match startKind code with
  | some k => parseFrom c bs 300 k 0 false false {}
  | none => endSlot 0x3F 0 {}

/-- The eight slots (R88): the outermost seven and the innermost one. -/
def Parse.final (p : Parse) : List (Nat × Nat) :=
  if p.slots.length ≤ 8 then p.slots else p.slots.take 7 ++ (p.slots.getLast?.toList)
/-- How many times slot 7 was overwritten (R88). -/
def Parse.elided (p : Parse) : Nat := p.slots.length - 8

/-! The symmetric hash (R100 to R102). -/

/-- 32-bit wrap. -/
def w32 (x : Nat) : Nat := x % 2 ^ 32
/-- One word of the hash. -/
def hashWord (h x : Nat) : Nat :=
  let h := w32 (h + x)
  let h := w32 (h + (h <<< 10))
  h ^^^ (h >>> 6)
/-- The hash over key words. -/
def hashWords (seed : Nat) (ws : List Nat) : Nat :=
  let h := ws.foldl hashWord seed
  let h := w32 (h + (h <<< 3))
  let h := h ^^^ (h >>> 11)
  w32 (h + (h <<< 15))
/-- Order the two endpoints (R102). -/
def hashOrder (sa pa da pb : Nat) : Nat × Nat × Nat × Nat :=
  if da < sa ∨ (sa = da ∧ pb < pa) then (da, pb, sa, pa) else (sa, pa, da, pb)
/-- The key words of an IP layer (R101). -/
def hashIp (bs : Bytes) (x : L3Info) (l4 : Option Nat) (tcpUdp : Bool) : List Nat :=
  let ports := !x.frag && tcpUdp
  let pa := match l4 with | some o => if ports then beAt bs o 2 else 0 | none => 0
  let pb := match l4 with | some o => if ports then beAt bs (o + 2) 2 else 0 | none => 0
  if x.v6 then
    let (lo, pl, hi, ph) := hashOrder (beAt bs (x.ofs + 8) 16) pa (beAt bs (x.ofs + 24) 16) pb
    [bits lo 127 96, bits lo 95 64, bits lo 63 32, bits lo 31 0, bits hi 127 96, bits hi 95 64, bits hi 63 32, bits hi 31 0,
      pl * 65536 + ph, x.proto * 2 ^ 24 + 2 * 2 ^ 16]
  else
    let (lo, pl, hi, ph) := hashOrder (beAt bs (x.ofs + 12) 4) pa (beAt bs (x.ofs + 16) 4) pb
    [lo, hi, pl * 65536 + ph, x.proto * 2 ^ 24 + 1 * 2 ^ 16]
/-- The key words of the MAC addresses at offset o (R101). -/
def hashMac (bs : Bytes) (o et : Nat) : List Nat :=
  let (lo, _, hi, _) := hashOrder (beAt bs (o + 6) 6) 0 (beAt bs o 6) 0
  [lo / 2 ^ 16, lo % 2 ^ 16 * 2 ^ 16 + hi / 2 ^ 32, hi % 2 ^ 32, 0, 3 * 2 ^ 16 + et]
/-- Whether the header at an anchor is TCP or UDP (R101). -/
def isTcpUdp (p : Parse) (a : Nat) : Bool :=
  p.slots.any fun x => find? p.anchors a == some x.1 && (x.2 == 0x20 || x.2 == 0x21)
/-- HASH of a parsed packet (R100). -/
def packetHash (bs : Bytes) (p : Parse) (inner : Bool) (seed : Nat) : Nat :=
  let words :=
    match (if inner then p.l3in else none), p.l3out with
    | some x, _ => hashIp bs x (find? p.anchors 7) (isTcpUdp p 7)
    | none, some x => hashIp bs x (find? p.anchors 2) (isTcpUdp p 2)
    | none, none =>
      match (if inner then find? p.anchors 5 else none), find? p.anchors 0 with
      | some o, _ => hashMac bs o p.etIn
      | none, some o => hashMac bs o p.etOut
      | none, none => [0, 0, 0, 0, 0]
  hashWords seed words

end Sys2Proof.Machine
end

