-- ==== Sys2Proof/Machine/Headstock.lean ====
section
/-! DEFINITION. The Headstock (04_headstock_parse.md): ingress FIFOs, the start of a pass, profiles, templates, keys and the
parse trace; with the binding of packets to rule-set banks (R217 to R219, R226) on which it rests. -/

namespace Sys2Proof.Machine

/-! Fields of the PCX, as bit positions of its 512 bits (R181). -/

/-- A field of the PCX or of the egress context: its highest and lowest bit. -/
abbrev Span := Nat × Nat
abbrev PX.ING_PORT : Span := (511, 504)
abbrev PX.PASS : Span := (503, 502)
abbrev PX.BANK : Span := (501, 501)
abbrev PX.CLASS : Span := (500, 497)
abbrev PX.SEQ : Span := (495, 480)
abbrev PX.PKT_TIME : Span := (479, 432)
abbrev PX.PKT_LEN : Span := (431, 418)
abbrev PX.COLOR : Span := (417, 416)
abbrev PX.HASH : Span := (415, 384)
abbrev PX.HDR_OFS (i : Nat) : Span := (383 - 8 * i, 376 - 8 * i)
abbrev PX.HDR_TYPE (i : Nat) : Span := (319 - 6 * i, 314 - 6 * i)
abbrev PX.BURL_SET : Span := (271, 256)
abbrev PX.XM_RES (i : Nat) : Span := (255 - 32 * i, 224 - 32 * i)
abbrev PX.LPM_NH : Span := (191, 171)
abbrev PX.DROP : Span := (167, 167)
abbrev PX.RECIRC : Span := (166, 166)
abbrev PX.COPY_HOST : Span := (165, 165)
abbrev PX.MIRROR_EN : Span := (164, 164)
abbrev PX.MIRROR : Span := (163, 160)
abbrev PX.CELL_HEAD : Span := (159, 138)
abbrev PX.DROP_CODE : Span := (135, 128)
abbrev PX.TCAM_VALID : Span := (127, 127)
abbrev PX.TCAM_IDX : Span := (126, 110)
abbrev PX.QID : Span := (95, 77)
abbrev PX.RECIRC_PROF : Span := (76, 71)
abbrev PX.HOSTQ : Span := (69, 64)
abbrev PX.USER : Span := (63, 0)

/-- Read a span. -/
def Span.get (f : Span) (x : Nat) : Nat := bits x f.1 f.2
/-- Write a span, within its width. -/
def Span.set (f : Span) (v x : Nat) : Nat :=
  clrBits x ((2 ^ (f.1 + 1 - f.2) - 1) <<< f.2) ||| ((v % 2 ^ (f.1 + 1 - f.2)) <<< f.2)

/-! Rule-set banks (R216 to R219, R226). -/

/-- The current bank: 0 A, 1 B. -/
def curBank (d : Dev) : Nat := rget EPC_STAT.BANK 0 0 d
/-- The current EPOCH_SEQ. -/
def curSeq (d : Dev) : Nat := rget EPC_STAT.SEQ 0 0 d
/-- Whether a write to a banked part of bank b is refused with EPOCH_BUSY (R226): current, or STATE is not STABLE, when the
other bank is the target or the old bank of a switch. -/
def bankBusy (b : Nat) (d : Dev) : Bool := b == curBank d || rget EPC_STAT.STATE 0 0 d != 0
/-- The in-flight count of a bank. -/
def inflight (b : Nat) (d : Dev) : Nat :=
  if b = 0 then rget EPC_INFLIGHTA.COUNT 0 0 d else rget EPC_INFLIGHTB.COUNT 0 0 d
/-- Set the in-flight count of a bank. -/
def setInflight (b n : Nat) (d : Dev) : Dev :=
  if b = 0 then rset EPC_INFLIGHTA.COUNT 0 0 n d else rset EPC_INFLIGHTB.COUNT 0 0 n d
/-- A packet binds to the current bank: its count rises (R219). -/
def bindBank (d : Dev) : Dev := setInflight (curBank d) (inflight (curBank d) d + 1) d
/-- A bound packet's work on the FE die ends: its bank's count falls (R219). -/
def unbind (b : Nat) (d : Dev) : Dev := setInflight b (inflight b d - 1) d

/-! Passes. -/

/-- A pass by its number. -/
def getPass (n : Nat) (d : Dev) : Option Pass := find? d.head.passes n
/-- Store a pass. -/
def setPass (n : Nat) (p : Pass) (d : Dev) : Dev := { d with head := { d.head with passes := ins d.head.passes n p } }
/-- A pass ends. -/
def delPass (n : Nat) (d : Dev) : Dev := { d with head := { d.head with passes := del d.head.passes n } }
/-- A new pass and its number. -/
def newPass (p : Pass) (d : Dev) : Dev :=
  { d with head := { d.head with passes := ins d.head.passes d.head.nextPass p, nextPass := d.head.nextPass + 1 } }
/-- The bank that a pass is bound to. -/
def Pass.bank (p : Pass) : Nat := if p.egress then bits p.ctx 177 177 else PX.BANK.get p.pcx
/-- Change the PCX of a pass. -/
def Pass.px (f : Span) (v : Nat) (p : Pass) : Pass := { p with pcx := f.set v p.pcx }

/-- A lookup fault: DROP is set, and of several codes the lowest is kept (R113). -/
def Pass.fault (code : Nat) (p : Pass) : Pass :=
  let old := PX.DROP_CODE.get p.pcx
  let c := if PX.DROP.get p.pcx = 1 ∧ old ≠ 0 then min old code else code
  (p.px PX.DROP 1).px PX.DROP_CODE c

/-- Send a verdict record to the Chuck (R262). -/
def sendVerd (v : Verd) (d : Dev) : Dev := { d with cross := { d.cross with verdicts := d.cross.verdicts ++ [v] } }

/-- The verdict record of an ingress pass with the given packet (R249, R262): the head is what the body does not hold. -/
def Pass.verd (p : Pass) (kind : Nat) (packet : Bytes) : Verd :=
  let mir := if PX.MIRROR_EN.get p.pcx = 1 then some (PX.MIRROR.get p.pcx) else none
  { kind := kind, copyHost := PX.COPY_HOST.get p.pcx == 1, mirror := mir, hostq := PX.HOSTQ.get p.pcx, len := packet.length,
    cell := PX.CELL_HEAD.get p.pcx, carry := PX.USER.get p.pcx, time := PX.PKT_TIME.get p.pcx, port := PX.ING_PORT.get p.pcx,
    hash := PX.HASH.get p.pcx, cls := PX.CLASS.get p.pcx, color := PX.COLOR.get p.pcx, src := p.src,
    head := packet.take (packet.length - p.bodyLen) }

/-- A pass is dropped before its verdict: the code counts, the bank's count falls and the chain is freed by a DROP verdict
(R92, R219, R250). No copy or mirror is made. -/
def passDrop (n : Nat) (p : Pass) (code : Nat) (d : Dev) : Dev :=
  let v := { p.verd 1 p.bytes with copyHost := false, mirror := none, code := code }
  delPass n (sendVerd v (unbind p.bank (drop code d)))

/-! Ingress FIFOs (R81). -/

/-- FIFO of an ingress port: its line port group, 32 for port 240, 33 for port 249. [DEDUCED: log 29] -/
def fifoOf (port : Nat) : Nat := if port = 240 then 32 else if port = 249 then 33 else port / 4
/-- A FIFO's frames, oldest first. -/
def fifo (k : Nat) (d : Dev) : List InFrame := look d.head.fifos k []
/-- Set a FIFO. -/
def setFifo (k : Nat) (l : List InFrame) (d : Dev) : Dev := { d with head := { d.head with fifos := put d.head.fifos k [] l } }
/-- Bytes held by a FIFO. -/
def fifoBytes (k : Nat) (d : Dev) : Nat := (fifo k d).foldl (fun a f => a + f.bytes.length) 0
/-- A frame arrives at its FIFO; a full one drops it with PARSE_NO_SLOT (R81). [DEDUCED: log 29] -/
def fifoPush (f : InFrame) (d : Dev) : Dev :=
  let k := fifoOf f.port
  if 32768 < fifoBytes k d + f.bytes.length then fire Pg.HDS 1 (drop 0x15 d) else setFifo k (fifo k d ++ [f]) d

/-! The pass slots (R79, R80, R232). -/

/-- Weight of a FIFO in the round robin: the enabled lanes of its line port group, at least 1; 2 for port 240 (R80). A FIFO whose
group has no enabled lane left, and the one of port 249, count as one lane. [DESIGN CHOICE: log 28] -/
def fifoWeight (k : Nat) (d : Dev) : Nat :=
  if k = 32 then 2 else if k = 33 then 1
  else max 1 (((List.range 4).map fun p => if pflag LPG_PORTn_CFG.EN (4 * k + p) d then (portLanes (4 * k + p) d).length else 0).sum)
/-- Whether FIFO k has slots left in this round. -/
def slotLeft (k : Nat) (d : Dev) : Bool := decide (look d.head.slotUsed k 0 < fifoWeight k d)
/-- Whether a slot may go to FIFO k (R80): it has slots left in this round, or no other FIFO that holds a frame has. -/
def slotMay (k : Nat) (d : Dev) : Bool := slotLeft k d || (List.range 34).all fun j => j == k || (fifo j d).isEmpty || !slotLeft j d
/-- FIFO k takes n slots; where it had none left a new round begins, and slots taken beyond the weight count in it (R79, R80). -/
def slotTake (k n : Nat) (d : Dev) : Dev :=
  let used := if slotLeft k d then d.head.slotUsed
    else (List.range 34).foldl (fun (t : Tbl Nat) j => put t j 0 (look d.head.slotUsed j 0 - fifoWeight j d)) []
  { d with head := { d.head with slotUsed := put used k 0 (look used k 0 + n) } }
/-- The window of 64 Headstock cycles, 25.6 ns, that the instant at hand lies in (R232). -/
def mdlWindow (d : Dev) : Nat := d.spn.monoU * 5 / (128 * 2 ^ 32)
/-- The Mandrel's share of the window at hand: a new window starts with nothing taken and with MDL_CFG as it stands (R232). -/
def mdlShare (d : Dev) : MdlWin :=
  if d.head.mdl.win = mdlWindow d then d.head.mdl
  else { win := mdlWindow d, used := 0, share := rget MDL_CFG.SHARE 0 0 d, borrow := flag MDL_CFG.BORROW 0 0 d }
/-- Whether an enabled ingress cluster exists; while none does, packets wait in the Headstock FIFOs (R175). -/
def ingressOpen (d : Dev) : Bool := (List.range 64).any fun c => blkEn (Pg.ENG + c) d && rget ENG_CFG.DIR c 0 d == 0

/-! Profiles and templates (R95 to R99). -/

/-- Key width of a lookup kind (R97). -/
def kindWidth (kind : Nat) : Nat := match kind with | 1 => 144 | 2 => 160 | 3 => 320 | _ => 0
/-- A word k of an image. -/
def wordOf (img k : Nat) : Nat := bits img (32 * k + 31) (32 * k)
/-- Bits that a template image builds: its extracts up to the first with LEN 0 (R98). -/
def tmplBits (img : Nat) : Nat → Nat → Nat
  | _, 0 => 0
  | k, n + 1 => let len := bits (wordOf img k) 15 8; if len = 0 then 0 else len + tmplBits img (k + 1) n
/-- Whether a profile image breaks a rule that BAD_ARG answers (R95, R97). -/
def profBad (img : Nat) : Bool :=
  let slots := (List.range 6).map fun k => wordOf img k
  let kinds := slots.map fun w => bits w 31 29
  let count (k : Nat) : Nat := (kinds.filter (· == k)).length
  decide (1 < count 1) || decide (2 < count 2) || decide (1 < count 3) || decide (1 < count 4) || decide (1 < count 5) ||
    decide (count 6 + count 7 ≠ 0) || decide (bits (wordOf img 7) 29 27 ≠ 6 - count 0) ||
    slots.any fun w => bits w 31 29 == 5 && bits w 1 0 == 3
/-- Whether a slot word names a template of bank b that builds a key wider than its kind takes (R109). -/
def slotTooWide (tmpl : Nat → Nat) (w : Nat) : Bool :=
  let kind := bits w 31 29
  (kind == 1 || kind == 2 || kind == 3) && decide (kindWidth kind < tmplBits (tmpl (bits w 28 23)) 0 16)
/-- A commit of profile i of bank b (R95, R104). Where several refusals apply EPOCH_BUSY is recorded, then BAD_ARG, then
KEY_WIDTH; R95 orders the last two. [DESIGN CHOICE: log 117] -/
def profileWrite (b i img : Nat) (d : Dev) : Dev :=
  let r := profReg b
  let d := if bits (wordOf img 7) 29 27 = 7 then overrun Pg.HDS d else d
  if bankBusy b d then errAt Err.EPOCH_BUSY r 0 i d
  else if profBad img then errAt Err.BAD_ARG r 0 i d
  else if (List.range 6).any fun k => slotTooWide (fun t => regImg (tmplReg b) 0 t d) (wordOf img k) then errAt 0x20 r 0 i d
  else
    let d := storeFields false r 0 i img d
    { d with head := { d.head with badWords := d.head.badWords.filter (· != 256 * b + i) } }
/-- A commit of template t of bank b (R98, R99, R109): EPOCH_BUSY first, as for a profile. Every extract word is checked, those
after the one with LEN 0 too. [DESIGN CHOICE: log 117] -/
def templateWrite (b t img : Nat) (d : Dev) : Dev :=
  let r := tmplReg b
  let words := (List.range 16).map fun k => wordOf img k
  if bankBusy b d then errAt Err.EPOCH_BUSY r 0 t d
  else if words.any fun w => decide (11 ≤ bits w 31 28) || decide (128 < bits w 15 8) then errAt Err.BAD_ARG r 0 t d
  else
    let tm (x : Nat) : Nat := if x = t then img else regImg r 0 x d
    let bad := (List.range 64).any fun i =>
      flag (HDS_PROF.VALID b) 0 i d && (List.range 6).any fun k => slotTooWide tm (wordOf (regImg (profReg b) 0 i d) k)
    if bad then errAt 0x20 r 0 t d
    else
      let d := storeFields false r 0 t img d
      { d with head := { d.head with badWords := d.head.badWords.filter (· != 256 * b + 128 + t) } }

/-- A write of HDS_DPk_CFG (R106). -/
def dpWrite (k img : Nat) (d : Dev) : Dev :=
  let port := HDS_DPk_CFG.PORT.of img
  let valid := HDS_DPk_CFG.VALID.on img
  let en (n : Nat) : Bool := decide (n < 128) && flag LPG_PORTn_CFG.EN (n / 4) (n % 4) d
  let other := (List.range 16).any fun j => j != k && flag HDS_DPk_CFG.VALID 0 j d && rget HDS_DPk_CFG.PORT 0 j d == port
  if en port || en (rget HDS_DPk_CFG.PORT 0 k d) || (valid && (decide (128 ≤ port) || other)) then errAt Err.BAD_ARG .HDS_DPk_CFG 0 k d
  else storeFields false .HDS_DPk_CFG 0 k img d
/-- Ports with per-port Headstock registers: 0–127, 240 and 249. -/
def hdsPort (n : Nat) : Bool := decide (n < 128) || n == 240 || n == 249
/-- A write of HDS_PORTn_CFG: the start types allowed, and the ports that exist. -/
def hdsPortWrite (n img : Nat) (d : Dev) : Dev :=
  if !hdsPort n || !([0x01, 0x10, 0x18, 0x19].contains (HDS_PORTn_CFG.START_TYPE.of img)) then errAt Err.BAD_ARG .HDS_PORTn_CFG 0 n d
  else storeFields false .HDS_PORTn_CFG 0 n img d
/-- A write of HDS_PORTn_META. -/
def hdsMetaWrite (n img : Nat) (d : Dev) : Dev :=
  if hdsPort n then storeFields false .HDS_PORTn_META 0 n img d else errAt Err.BAD_ARG .HDS_PORTn_META 0 n d
/-- A write of HDS_TRACE_CTRL (R111): the next first pass whose parse starts afterwards is captured. -/
def hdsTraceWrite (img : Nat) (d : Dev) : Dev :=
  if expertOf Pg.HDS d then storeFields true .HDS_TRACE_CTRL 0 0 img d else errAt Err.EXPERT_LOCKED .HDS_TRACE_CTRL 0 0 d

/-! Keys (R98, R99). -/

/-- Bits hi-first from a byte function: len bits from bit bo of byte o. -/
def extractBits (f : Nat → Nat) (o bo len : Nat) : Nat :=
  let n := (bo + len + 7) / 8
  let v := (List.range n).foldl (fun a k => a * 256 + f (o + k)) 0
  (v >>> (8 * n - bo - len)) % 2 ^ len

/-- The bytes of a source of R99. Bytes beyond the packet or the window read 0; bytes past the end of the PCX, CONST and META
are ones of which the spec states no value: free. None: an absent anchor. [DESIGN CHOICE: log 26] -/
def srcBytes (c : ParseCfg) (bs : Bytes) (p : Parse) (pcx const meta_ free src : Nat) : Option (Nat → Nat) :=
  let fr (k : Nat) : Nat := (Config.freeValue (free + k)).toNat % 256
  let word (w size k : Nat) : Nat := if k < size then (w >>> (8 * (size - 1 - k))) % 256 else fr k
  if src ≤ 7 then (find? p.anchors src).map fun a k => if a + k < c.window then byteAt bs (a + k) else 0
  else if src = 8 then some (word pcx 64)
  else if src = 9 then some (word const 4)
  else some (word meta_ 4)

/-- The key that the extracts of a template image build, as value and length; none where an absent anchor stops the lookup. -/
def buildKey (srcs : Nat → Option (Nat → Nat)) (img : Nat) : Nat → Nat → Nat × Nat → Option (Nat × Nat)
  | _, 0, acc => some acc
  | k, n + 1, (v, l) =>
    let w := wordOf img k
    let len := bits w 15 8
    if len = 0 then some (v, l)
    else match srcs (bits w 31 28) with
      | some f => buildKey srcs img (k + 1) n (v * 2 ^ len + extractBits f (bits w 27 20) (bits w 19 17) len, l + len)
      | none => if bits w 16 16 = 1 then buildKey srcs img (k + 1) n (v * 2 ^ len, l + len) else none

/-- The keys of a pass's lookup slots, padded with zeros below (R98). -/
def passKeys (c : ParseCfg) (bs : Bytes) (p : Parse) (pcx b prof port : Nat) (d : Dev) : List (Option Nat) :=
  (List.range 6).map fun k =>
    let kind := rget (HDS_PROF.KIND b k) 0 prof d
    if kind = 1 ∨ kind = 2 ∨ kind = 3 then
      let img := regImg (tmplReg b) 0 (rget (HDS_PROF.TEMPLATE b k) 0 prof d) d
      let srcs := srcBytes c bs p pcx (wordOf img 16) (if hdsPort port then rget HDS_PORTn_META.META 0 port d else 0) d.freeCtr
      (buildKey srcs img 0 16 (0, 0)).map fun x => x.1 * 2 ^ (kindWidth kind - x.2)
    else some 0

/-! The start of a pass (R83 to R94). -/

/-- The deep-parse entry of a port (R84). -/
def dpOf (port : Nat) (d : Dev) : Option Nat :=
  (List.range 16).find? fun k => flag HDS_DPk_CFG.VALID 0 k d && rget HDS_DPk_CFG.PORT 0 k d == port
/-- What the parser takes for a packet of a port (R84, R86, R87, R91). Port 248, as which a Mandrel pass re-enters, is a normal
port, and its registers read 0: none of the first-pass checks is on. [DEDUCED: log 118] -/
def parseCfg (port : Nat) (d : Dev) : ParseCfg :=
  let t3 := if flag HDS_CFG.TPID3_EN 0 0 d then some (rget HDS_CFG.TPID3 0 0 d) else none
  let base : ParseCfg :=
    { tpid3 := t3, cwEth := flag HDS_CFG.MPLS_CW_ETH 0 0 d, vxlan := rget HDS_UDP_PORTS.VXLAN 0 0 d,
      geneve := rget HDS_UDP_PORTS.GENEVE 0 0 d, gtpu := rget HDS_UDP_PORTS1.GTPU 0 0 d,
      chkHdr := flag HDS_PORTn_CFG.CHK_HDR 0 port d, chkCsum := flag HDS_PORTn_CFG.CHK_CSUM 0 port d }
  match dpOf port d with
  | some k => { base with window := 128 * (rget HDS_DPk_CFG.DEPTH 0 k d + 1), tags := rget HDS_DPk_CFG.TAGS 0 k d + 1, labels := rget HDS_DPk_CFG.LABELS 0 k d + 1, tunnels := rget HDS_DPk_CFG.TUNNELS 0 k d + 1 }
  | none => base
/-- WIN_BASE (R90). -/
def winBaseOf (port : Nat) (slots : List (Nat × Nat)) (d : Dev) : Nat :=
  match dpOf port d with
  | some k => match slots[rget HDS_DPk_CFG.WIN_SLOT 0 k d]? with
    | some s => min 256 (s.1 / 64 * 64)
    | none => 0
  | none => 0
/-- CLASS of a first pass (R94). -/
def firstClass (port : Nat) (bs : Bytes) (p : Parse) (d : Dev) : Nat :=
  let dflt := rget HDS_PORTn_CFG.CLASS_DEFAULT 0 port d
  match rget HDS_PORTn_CFG.CLASS_SRC 0 port d with
  | 1 => match p.slots.find? (fun s => decide (0x08 ≤ s.2 ∧ s.2 ≤ 0x0F)) with
    | some s => byteAt bs s.1 / 32
    | none => dflt
  | 2 => match p.l3out with
    | some x => if x.v6 then byteAt bs x.ofs % 16 / 2 else byteAt bs (x.ofs + 1) / 32
    | none => dflt
  | 3 => match find? p.anchors 4 with
    | some a => byteAt bs (a + 2) / 2 % 8
    | none => dflt
  | _ => dflt
/-- Write the header slots into a PCX (R88, R93). An offset that HDR_OFS cannot hold is a value the spec does not state. [DESIGN CHOICE: log 26] -/
def slotsPcx (slots : List (Nat × Nat)) (free pcx : Nat) : Nat :=
  (List.range 8).foldl (fun x i =>
    let s := slots.getD i (0, 0)
    let o := if s.1 / 2 < 256 then s.1 / 2 else (Config.freeValue free).toNat
    (PX.HDR_TYPE i).set s.2 ((PX.HDR_OFS i).set o x)) pcx
/-- What the slots of a parse count and fire (R88, R108, R110). [DEDUCED: log 27] -/
def slotCounts (p : Parse) (extra : Nat) (d : Dev) : Dev :=
  let n (code : Nat) : Nat := (p.slots.filter (·.2 == code)).length
  let d := incBy Pg.HDS 1 extra (inc Pg.HDS 0 d)
  let d := incBy Pg.HDS 2 p.elided (incBy Pg.HDS 3 (n 0x3C) (incBy Pg.HDS 4 (n 0x3D) d))
  let d := incBy Pg.HDS 5 (n 0x3F) (incBy Pg.HDS 7 (n 0x3E) d)
  if n 0x3C = 0 then d else fire Pg.HDS 0 d
/-- The drop code of a parse: a fault of R91, or a LIMIT or TRUNC slot on a port that drops it (R92). [DEDUCED: log 25] -/
def parseDrop (p : Parse) (port : Nat) (d : Dev) : Nat :=
  if p.dropCode ≠ 0 then p.dropCode
  else if p.slots.any (·.2 == 0x3C) && flag HDS_PORTn_CFG.LIMIT_DROP 0 port d then 0x13
  else if p.slots.any (·.2 == 0x3D) && flag HDS_PORTn_CFG.TRUNC_DROP 0 port d then 0x14 else 0
/-- Whether the profile of a pass, or a template it names, has an uncorrectable word (R107). [DESIGN CHOICE: log 30] -/
def profEcc (b prof : Nat) (d : Dev) : Bool :=
  d.head.badWords.any fun w => w == 256 * b + prof || (List.range 6).any fun k =>
    let kind := rget (HDS_PROF.KIND b k) 0 prof d
    decide (1 ≤ kind ∧ kind ≤ 3) && w == 256 * b + 128 + rget (HDS_PROF.TEMPLATE b k) 0 prof d
/-- Capture a parse trace (R111). -/
def hdsTrace (slots : List (Nat × Nat)) (pstart : Nat) (pcx port : Nat) (d : Dev) : Dev :=
  if flag HDS_TRACE_CTRL.ARM 0 0 d && rget HDS_TRACE_CTRL.PORT 0 0 d == port then
    let idx := List.range 8
    let ofs := idx.foldl (fun a i => a + ((PX.HDR_OFS i).get pcx) * 2 ^ (8 * i)) 0
    let typ := idx.foldl (fun a i => a + ((slots.getD i (0, 0)).2) * 2 ^ (6 * i)) 0
    let d := rset HDS_TRACE_DATA.OFS 0 0 ofs (rset HDS_TRACE_DATA.TYPE 0 0 typ (rset HDS_TRACE_DATA.PSTART 0 0 pstart d))
    let d := rset HDS_TRACE_DATA.HASH 0 0 (PX.HASH.get pcx) (rset HDS_TRACE_DATA.PKT_LEN 0 0 (PX.PKT_LEN.get pcx) d)
    let d := rset HDS_TRACE_DATA.CLASS 0 0 (PX.CLASS.get pcx) (rset HDS_TRACE_CTRL.ARM 0 0 0 d)
    fire Pg.HDS 3 d
  else d

/-- The XM slots of a pass in profile order. -/
def xmLooks (b prof : Nat) (keys : List (Option Nat)) (d : Dev) : List XmLook :=
  (List.range 6).filterMap fun k =>
    if rget (HDS_PROF.KIND b k) 0 prof d = 2 then
      let key := keys.getD k none
      some { tbl := rget (HDS_PROF.ARG b k) 0 prof d % 8, key := key.getD 0, issued := key.isSome }
    else none

/-- Stream the body of a frame to the Chuck in BODY records of at most 255 words (R247, R261, R262). -/
def bodyRecs (cell port src : Nat) : Nat → Bytes → List BodyRec
  | 0, _ => []
  | n + 1, bs =>
    if bs.length ≤ 2040 then [{ cell := cell, port := port, src := src, bytes := bs, last := true }]
    else { cell := cell, port := port, src := src, bytes := bs.take 2040, last := false } :: bodyRecs cell port src n (bs.drop 2040)

/-- Source number of an ingress port at the Chuck: 0–127 line ports, 128 port 240, 129 port 249. -/
def srcOf (port : Nat) : Nat := if port = 240 then 128 else if port = 249 then 129 else port

/-- The port as which a pass enters the Headstock (R231). -/
def passPort (x : Pass) (first : Bool) : Nat := if first then PX.ING_PORT.get x.pcx else 248
/-- Further slots that a parse takes: one for each further 128 B that a deep-parse port's parse reads (R79). -/
def extraSlots (port : Nat) (p : Parse) (d : Dev) : Nat := if (dpOf port d).isSome then (p.reach + 127) / 128 - 1 else 0
/-- What the parse of a pass does after the packet and its first PCX are known: it writes slots, hash and keys, and drops or
keeps the pass (R83 to R99): without a usable profile it drops with PARSE_PROFILE whatever the parse finds (R107, R237). `first`
marks a first pass; another one is parsed as from port 248 (R231). [DEDUCED: log 25, 108, 118] -/
def parsePass (n : Nat) (x : Pass) (startCode : Nat) (first : Bool) (d : Dev) : Dev :=
  let port := passPort x first
  let bank := PX.BANK.get x.pcx
  let c := parseCfg port d
  let deep := (dpOf port d).isSome
  let p := parsePacket c x.bytes startCode
  let slots := p.final
  let d := slotCounts p (extraSlots port p d) d
  let pcx := slotsPcx slots d.freeCtr x.pcx
  let inner := flag (HDS_PROF.HASH_INNER bank) 0 x.prof d
  let pcx := if first then PX.CLASS.set (firstClass port x.bytes p d) (PX.HASH.set (packetHash x.bytes p inner (rget (HDS_PROF.SEED bank) 0 x.prof d)) pcx) else pcx
  let win := winBaseOf port slots d
  let keys := passKeys c x.bytes p pcx bank x.prof port d
  let d := if first then hdsTrace slots p.pstart pcx port d else d
  let code := parseDrop p port d
  let y := { x with pcx := pcx, deep := deep, winBase := win, pstart := p.pstart, keys := keys, xm := xmLooks bank x.prof keys d, stage := .parsed }
  let d := { d with freeCtr := d.freeCtr + 512 }
  let h := min x.bytes.length (win + 256)
  let y := if first then { y with bodyLen := x.bytes.length - h } else y
  let d := if first && h < x.bytes.length then
      { d with cross := { d.cross with bodies := d.cross.bodies ++ bodyRecs (PX.CELL_HEAD.get pcx) (PX.ING_PORT.get pcx) y.src 16 (x.bytes.drop h) } } else d
  if profEcc bank x.prof d then passDrop n y 0x16 (fire Pg.HDS 2 d)
  else if !flag (HDS_PROF.VALID bank) 0 x.prof d then passDrop n y 0x16 d
  else if code ≠ 0 then passDrop n y code d
  else setPass n y d

/-- A slot that the round robin grants starts the first pass of the oldest frame of a FIFO (R80, R93, R217, R248). A FIFO that the
weights do not allow gets none, and while no enabled ingress cluster exists the frames stay in their FIFOs (R175). [DESIGN CHOICE: log 28] -/
def parseStart (k : Nat) (d : Dev) : Dev :=
  if !blkEn Pg.HDS d || !ingressOpen d || !slotMay k d then d
  else match fifo k d with
    | [] => d
    | f :: rest =>
      let start := rget HDS_PORTn_CFG.START_TYPE 0 f.port d
      let extra := extraSlots f.port (parsePacket (parseCfg f.port d) f.bytes start) d
      let d := slotTake k (1 + extra) (setFifo k rest d)
      let s := srcOf f.port
      match look d.srcCache s [] with
      | [] => drop 0x60 d
      | h :: hs =>
        let d := { d with srcCache := put d.srcCache s [] hs }
        let n := d.head.nextPass
        let bank := curBank d
        let pcx := PX.USER.set f.user (PX.CELL_HEAD.set h (PX.PKT_LEN.set f.bytes.length (PX.PKT_TIME.set f.pktTime 0)))
        let pcx := PX.SEQ.set (curSeq d) (PX.BANK.set bank (PX.ING_PORT.set f.port pcx))
        let x : Pass := { bytes := f.bytes, pcx := pcx, prof := rget HDS_PORTn_CFG.PROFILE 0 f.port d, src := regImg .CHK_SRCs_CFG 0 s d }
        parsePass n x start true (newPass x (bindBank d))

end Sys2Proof.Machine
end

