-- ==== Sys2Proof/Machine/Trie.lean ====
section
/-! DEFINITION. The words of the LPM tries: node and result words, the walk of a lookup, and how the update engine builds and
swings them (05_lookup_tables.md, R116 to R120, R133). The spec leaves skips, strides and places to the engine; the model's engine
skips as far as it can, takes the shortest stride that reaches the longest prefix, and takes the lowest free words. [DESIGN CHOICE: log 31] -/

namespace Sys2Proof.Machine

/-- Words of a stage (R116). -/
def stageWords : Nat := 196608
/-- Key of a word of a stage. -/
def trieKey (stage word : Nat) : Nat := stage * 2 ^ 18 + word
/-- A word of the trie memory: the roots are empty nodes and every other word is 0 until it is written. -/
def trieWord (m : Tbl Nat) (stage word : Nat) : Nat := look m (trieKey stage word) (if stage = 0 ∧ word < 2 then 2 ^ 254 else 0)
/-- Even parity of a pointer's bits: the bit that makes the count of ones even. -/
def ptrPar (v : Nat) : Nat := (bitsOf 18 v).length % 2
/-- A trie node (R117). -/
structure TrieNode where
  stride : Nat                 -- key bits after the skip, 1 to 5
  skipLen : Nat
  skip : Nat                   -- the skipped bits as a number of skipLen bits
  ibm : Nat
  ebm : Nat
  child : Nat := 0
  res : Nat := 0
  best : Option Nat := none
  deriving DecidableEq, Repr
/-- The node word of a node (R117). -/
def TrieNode.word (n : TrieNode) : Nat :=
  2 ^ 254 + (n.stride - 1) * 2 ^ 251 + n.skipLen * 2 ^ 245 + n.skip * 2 ^ (40 - n.skipLen) * 2 ^ 205 + n.ibm * 2 ^ 174 + n.ebm * 2 ^ 142 + n.child * 2 ^ 124 +
    n.res * 2 ^ 106 + n.best.getD 0 * 2 ^ 85 + b2n n.best.isSome * 2 ^ 84 + ptrPar n.child * 2 ^ 83 + ptrPar n.res * 2 ^ 82
/-- The node that a word holds, none where its KIND is another. -/
def trieNode (w : Nat) : Option TrieNode :=
  if bits w 255 254 ≠ 1 then none
  else some { stride := bits w 253 251 + 1, skipLen := bits w 250 245, skip := bits w 244 205 / 2 ^ (40 - bits w 250 245), ibm := bits w 204 174,
              ebm := bits w 173 142, child := bits w 141 124, res := bits w 123 106, best := if bit w 84 then some (bits w 105 85) else none }
/-- Whether the parities of a node word are right (R117). -/
def trieParity (w : Nat) : Bool := decide (ptrPar (bits w 141 124) = bits w 83 83 ∧ ptrPar (bits w 123 106) = bits w 82 82)
/-- Bits [pos, pos + n) of a 144-bit key, most significant first; bits past its end read as 0 (R119). -/
def keyBits (key pos n : Nat) : Nat := key * 2 ^ (pos + n) / 2 ^ 144 % 2 ^ n
/-- Number of bits set in a bitmap below bit v. -/
def below (m v : Nat) : Nat := (bitsOf v m).length
/-- A next hop of a result word (R118). -/
def resultAt (m : Tbl Nat) (stage ptr r : Nat) : Nat := let j := r % 12; bits (trieWord m stage (ptr + r / 12)) (21 * j + 20) (21 * j)
/-- The result words of a node's next hops in the order of their ranks (R118). -/
def resultWords (l : List Nat) : List Nat :=
  (List.range ((l.length + 11) / 12)).map fun i => ((l.drop (12 * i)).take 12).zipIdx.foldl (fun (a : Nat) (x : Nat × Nat) => a + x.1 % 2 ^ 21 * 2 ^ (21 * x.2)) 0

/-! The walk (R119). -/

/-- What a walk comes to: its next hop, none for the value that the miss register holds, and the word at which it failed. -/
abbrev WalkRes := Option Nat × Option Nat
/-- Index of the longest internal prefix of a node for stride value v, among those of length below l. -/
def internalAt (n : TrieNode) (v : Nat) : Nat → Option Nat
  | 0 => none
  | l + 1 => let i := 2 ^ l - 1 + v / 2 ^ (n.stride - l); if bit n.ibm i then some i else internalAt n v l
/-- The walk of a key from a word of a stage, with the best next hop so far; `bad` are the words that cannot be read. -/
def trieWalk (m : Tbl Nat) (bad : List Nat) (key : Nat) : Nat → Nat → Nat → Nat → Option Nat → WalkRes
  | 0, _, _, _, best => (best, none)
  | k + 1, stage, w, pos, best =>
    if bad.contains (trieKey stage w) then (best, some (trieKey stage w))
    else match trieNode (trieWord m stage w) with
      | none => (best, none)
      | some n =>
        let best := n.best.orElse fun _ => best
        if keyBits key pos n.skipLen ≠ n.skip then (best, none)
        else
          let pos := pos + n.skipLen
          let v := keyBits key pos n.stride
          if bit n.ebm v then trieWalk m bad key k (stage + 1) (n.child + below n.ebm v) (pos + n.stride) best
          else match internalAt n v n.stride with
            | some i =>
              let r := below n.ibm i
              let a := trieKey (stage + 1) (n.res + r / 12)
              if bad.contains a then (best, some a) else (some (resultAt m (stage + 1) n.res r), none)
            | none => (best, none)
/-- Where a word lies in a trie: the path of the node that holds it, or whose result word it is: length and key (R133). -/
def trieOwner (m : Tbl Nat) (a : Nat) : Nat → Nat → Nat → Nat → Nat → Option (Nat × Nat)
  | 0, _, _, _, _ => none
  | k + 1, stage, w, pos, key =>
    if trieKey stage w = a then some (pos, key)
    else match trieNode (trieWord m stage w) with
      | none => none
      | some n =>
        let words := ((bitsOf 31 n.ibm).length + 11) / 12
        if (List.range words).any fun i => trieKey (stage + 1) (n.res + i) == a then some (pos, key)
        else
          let key := key + n.skip * 2 ^ (144 - pos - n.skipLen)
          let pos := pos + n.skipLen
          (bitsOf 32 n.ebm).findSome? fun v =>
            trieOwner m a k (stage + 1) (n.child + below n.ebm v) (pos + n.stride) (key + v * 2 ^ (144 - pos - n.stride))

/-! The update engine (R120). -/

/-- A stored prefix: length, key of 144 bits, next hop. -/
abbrev Pfx := Nat × Nat × Nat
/-- The skip and the stride of a node at a bit position over the prefixes that run through it. -/
def nodeShape (pos : Nat) (l : List Pfx) : Nat × Nat :=
  match l.filter fun p => decide (pos < p.1) with
  | [] => (0, 1)
  | p :: t =>
    let same (k : Nat) : Bool := (p :: t).all fun x => decide (pos + k ≤ x.1) && keyBits x.2.1 pos k == keyBits p.2.1 pos k
    let k := (((List.range 41).reverse).find? same).getD 0
    let top := t.foldl (fun (a : Nat) (x : Pfx) => max a x.1) p.1
    (k, min 5 (top - (pos + k) + 1))
/-- The prefix of an internal index of a node at position q. -/
def internalPfx (q : Nat) (l : List Pfx) (i : Nat) : Option Nat :=
  let n := Nat.log2 (i + 1)
  (l.find? fun p => p.1 == q + n && keyBits p.2.1 q n == i + 1 - 2 ^ n).map (·.2.2)
/-- The memory that the engine works on: the words, those that cannot be read, and those left behind by this command. -/
structure TrieMem where
  words : Tbl Nat
  bad : List Nat := []
  left : List Nat := []
  deriving DecidableEq, Repr
/-- Write a word anew. -/
def TrieMem.set (m : TrieMem) (stage word v : Nat) : TrieMem :=
  let a := trieKey stage word
  { m with words := ins m.words a v, bad := m.bad.filter (· != a) }
/-- Words of a stage in use, rising. -/
def usedWords (m : Tbl Nat) (stage : Nat) : List Nat := ((keys m).filter fun a => a / 2 ^ 18 == stage).map (· % 2 ^ 18)
/-- The lowest run of n free words of a stage. -/
def freeRun (n : Nat) : List Nat → Nat → Option Nat
  | [], at_ => if at_ + n ≤ stageWords then some at_ else none
  | w :: t, at_ => if at_ + n ≤ w then some at_ else freeRun n t (w + 1)
/-- Take n words of a stage; taken words hold 0. -/
def TrieMem.alloc (m : TrieMem) (stage n : Nat) : Option (Nat × TrieMem) :=
  if n = 0 then some (0, m)
  else (freeRun n (usedWords m.words stage) 0).map fun a => (a, (List.range n).foldl (fun (s : TrieMem) (i : Nat) => s.set stage (a + i) 0) m)
/-- The words of the subtree below a node word, without the word itself. -/
def subWords (m : Tbl Nat) : Nat → Nat → Nat → List Nat
  | 0, _, _ => []
  | k + 1, stage, w =>
    match trieNode (trieWord m stage w) with
    | none => []
    | some n =>
      let res := (List.range (((bitsOf 31 n.ibm).length + 11) / 12)).map fun i => trieKey (stage + 1) (n.res + i)
      res ++ (List.range (bitsOf 32 n.ebm).length).flatMap fun i => trieKey (stage + 1) (n.child + i) :: subWords m k (stage + 1) (n.child + i)
/-- Make the word of a stage the node, at a bit position, of the prefixes that run through it, with the best next hop above it: new
children and results are built in free words, unchanged ones stay where they are, and the word itself is written last. A word that
cannot be read stays as it is, and what lies below it too (R131). None where a stage runs out of words, or a trie of stages. [DESIGN CHOICE: log 31] -/
def triePlace : Nat → Nat → Nat → Nat → Option Nat → List Pfx → TrieMem → Option TrieMem
  | 0, _, _, _, _, _, m => some m
  | k + 1, stage, w, pos, best, l, m =>
    if m.bad.contains (trieKey stage w) then some m
    else
      let (sk, s) := nodeShape pos l
      let q := pos + sk
      let own := if 0 < sk then (l.find? fun p => p.1 == pos).map (·.2.2) else none
      let best := own.orElse fun _ => best
      let deep := if 0 < sk then l.filter fun p => decide (pos < p.1) else l
      let skip := match deep with | p :: _ => keyBits p.2.1 pos sk | [] => 0
      let inner := (List.range (2 ^ s - 1)).filterMap fun i => (internalPfx q deep i).map fun nh => (i, nh)
      let ibm := inner.foldl (fun (a : Nat) (x : Nat × Nat) => setBit a x.1) 0
      let outer (v : Nat) : List Pfx := deep.filter fun p => decide (q + s ≤ p.1) && keyBits p.2.1 q s == v
      let kids := (List.range (2 ^ s)).filter fun v => !(outer v).isEmpty
      let ebm := kids.foldl (fun (a : Nat) (v : Nat) => setBit a v) 0
      let node : TrieNode := { stride := s, skipLen := sk, skip := skip, ibm := ibm, ebm := ebm, best := best }
      let old := trieNode (trieWord m.words stage w)
      let alike := match old with | some o => o.stride == s && o.skipLen == sk && o.skip == skip | none => false
      let o := old.getD { stride := 1, skipLen := 0, skip := 0, ibm := 0, ebm := 0 }
      let oldRes := (List.range (bitsOf 31 o.ibm).length).map fun r => resultAt m.words (stage + 1) o.res r
      let keepRes := old.isSome && oldRes == inner.map (·.2)
      let keepKids := alike && o.ebm == ebm
      let goneRes := if keepRes then [] else (List.range ((oldRes.length + 11) / 12)).map fun i => trieKey (stage + 1) (o.res + i)
      let goneKids := if keepKids then [] else (bitsOf 32 o.ebm).zipIdx.flatMap fun x =>
        trieKey (stage + 1) (o.child + x.2) :: (if alike && bit ebm x.1 then [] else subWords m.words 16 (stage + 1) (o.child + x.2))
      if k = 0 && !kids.isEmpty then none
      else
        let ws := resultWords (inner.map (·.2))
        match if keepRes then some (o.res, m) else m.alloc (stage + 1) ws.length with
        | none => none
        | some (res, m) =>
          let m := if keepRes then m else ws.zipIdx.foldl (fun (m : TrieMem) (x : Nat × Nat) => m.set (stage + 1) (res + x.2) x.1) m
          match if keepKids then some (o.child, m) else m.alloc (stage + 1) kids.length with
          | none => none
          | some (child, m) =>
            let copyKid (m : TrieMem) (x : Nat × Nat) : TrieMem :=
              if keepKids || !(alike && bit o.ebm x.1) then m
              else
                let from_ := o.child + below o.ebm x.1
                let m := m.set (stage + 1) (child + x.2) (trieWord m.words (stage + 1) from_)
                if m.bad.contains (trieKey (stage + 1) from_) then { m with bad := trieKey (stage + 1) (child + x.2) :: m.bad } else m
            let m := kids.zipIdx.foldl copyKid m
            let down (v : Nat) : Option Nat := ((internalAt node v s).bind fun i => internalPfx q deep i).orElse fun _ => best
            let m := kids.zipIdx.foldl (fun (m : Option TrieMem) (x : Nat × Nat) =>
              m.bind fun m => triePlace k (stage + 1) (child + x.2) (q + s) (down x.1) (outer x.1) m) (some m)
            m.map fun m =>
              let m := { m with left := m.left ++ goneRes ++ goneKids }
              m.set stage w ({ node with child := child, res := res } : TrieNode).word

end Sys2Proof.Machine
end

