-- ==== Sys2Proof/Machine/Tables.lean ====
section
/-! DEFINITION. Forwarding tables, learning and live table maintenance (05_lookup_tables.md). The tries are held as the prefixes
they store and as the words that the update engine has built for them (Trie.lean): on readable words a lookup returns the longest
match, and where a walk meets a word that cannot be read it returns what R119 returns there. -/

namespace Sys2Proof.Machine

/-- Change the tables. -/
def onTab (f : Tables → Tables) (d : Dev) : Dev := { d with tab := f d.tab }

/-! Locks (R135, R136) and the identity rules of R50. -/

/-- Whether a requester may not present an ID (R50). -/
def idRefused (req : Requester) (x : Nat) : Bool :=
  match req with
  | .spindle => false
  | .service => false
  | _ => decide (0xF000 ≤ x)
/-- Whether a requester may not present a LOCK_ID (R50): a DMA channel may pass its own lock. -/
def lockIdRefused (req : Requester) (x : Nat) : Bool :=
  match req with
  | .dma k => decide (0xF000 ≤ x) && x != 0xF100 + k.val
  | r => idRefused r x
/-- The three lock families: page, register, event bit of LOCK_TMO, limit in ms. -/
def lockLimit (r : Reg) (d : Dev) : Nat :=
  match r with
  | .LPM_LOCKt => rget LPM_LOCK_TMO.MS 0 0 d
  | .XM_LOCKn => rget XM_LOCK_TMO.MS 0 0 d
  | _ => rget NHT_LOCK_TMO.MS 0 0 d
/-- HOLDER of a lock. -/
def lockHolder (r : Reg) (i : Nat) (d : Dev) : Nat := rget ⟨r, 0, 16⟩ 0 i d
/-- Event bit of LOCK_TMO in the lock's page (R145). -/
def lockEvt (r : Reg) : Nat := match r with | .NHT_LOCK => 1 | _ => 2
/-- Release a lock that has been held beyond its limit (R136). -/
def lockExpire (r : Reg) (i : Nat) (d : Dev) : Dev :=
  let ms := lockLimit r d
  let a := r.addr 0 i
  if lockHolder r i d ≠ 0 ∧ ms ≠ 0 ∧ look d.tab.lockAt a 0 + ms * 1000000 < d.mono then
    fire r.lay.page (lockEvt r) (onTab (fun t => { t with lockAt := del t.lockAt a }) (rset ⟨r, 0, 16⟩ 0 i 0 d))
  else d
/-- A write of a lock register: claim or release (R49, R50, R135). -/
def lockWrite (req : Requester) (r : Reg) (i img : Nat) (d : Dev) : Dev :=
  let id := bits img 15 0
  let h := lockHolder r i d
  let a := r.addr 0 i
  if !bit img 31 then d
  else if id = 0 ∨ idRefused req id then errAt Err.BAD_ARG r 0 i d
  else if !bit img 30 then
    if h = 0 then onTab (fun t => { t with lockAt := ins t.lockAt a d.mono }) (rset ⟨r, 0, 16⟩ 0 i id d)
    else if h = id then d else errAt Err.OWNER_BUSY r 0 i d
  else if h = id then onTab (fun t => { t with lockAt := del t.lockAt a }) (rset ⟨r, 0, 16⟩ 0 i 0 d)
  else errAt Err.NOT_OWNER r 0 i d
/-- A write of a lock limit applies at once to the held locks of its page (R136). -/
def lockTmoWrite (r : Reg) (img : Nat) (d : Dev) : Dev :=
  let d := storeFields false r 0 0 img d
  match r with
  | .LPM_LOCK_TMO => lockExpire .LPM_LOCKt 1 (lockExpire .LPM_LOCKt 0 d)
  | .XM_LOCK_TMO => (List.range 8).foldl (fun s n => lockExpire .XM_LOCKn n s) d
  | _ => lockExpire .NHT_LOCK 0 d
/-- What a changing command finds at the lock: 0, or the code that refuses it (R50, R135). -/
def lockCheck (req : Requester) (r : Reg) (i id : Nat) (d : Dev) : Nat :=
  if lockIdRefused req id then Err.BAD_ARG
  else let h := lockHolder r i d; if h ≠ 0 ∧ h ≠ id then Err.LOCK_HELD else 0

/-- Latch the first uncorrectable error of a page: the register with VALID in bit 31, the event and the log (R131, R556). -/
def eccLatch (r : Reg) (g evt img : Nat) (d : Dev) : Dev :=
  if rget ⟨r, 31, 1⟩ g 0 d ≠ 0 then d
  else fire (r.lay.page + g) evt (eccLog (r.lay.page + g) (img % 2 ^ 31) (loadImg r g 0 (2 ^ 31 + img) d))

/-- A command of a table page ends: done or refused, and CMD_DONE fires (R145, R146). [DESIGN CHOICE: log 5] -/
def tabDone (page : Nat) (r : Reg) (code : Nat) (counts : Bool) (d : Dev) : Dev :=
  let d := if counts then inc page (if code = 0 then 4 else 5) d else d
  let d := if code = 0 then d else errAt code r 0 0 d
  fire page 0 d

/-! The LPM tries (R115 to R121, R133). -/

/-- Key bits that a trie uses. -/
def trieBits (t : Nat) : Nat := if t = 0 then 48 else 144
/-- Key of a prefix in the table. -/
def pfxKey (t len key : Nat) : Nat := (t * 256 + len) * 2 ^ 144 + key
/-- The first len bits of a 144-bit key, the rest 0. -/
def maskKey (len key : Nat) : Nat := key / 2 ^ (144 - len) * 2 ^ (144 - len)
/-- Prefix units (R115). -/
def pfxUnits (t len : Nat) : Nat := if t = 0 then 1 else if len ≤ 80 then 2 else 4
/-- The longest stored prefix of at most n bits that covers a key: its length and next hop. -/
def longest (t key : Nat) (d : Dev) : Nat → Option (Nat × Nat)
  | 0 => (find? d.tab.lpm (pfxKey t 0 0)).map fun nh => (0, nh)
  | n + 1 =>
    match find? d.tab.lpm (pfxKey t (n + 1) (maskKey (n + 1) key)) with
    | some nh => some (n + 1, nh)
    | none => longest t key d n
/-- What the walk of a key meets: the best next hop so far, and the word that it cannot read (R119, R131). Where the layout is not
known it meets a damaged word or none, and found what it found before. [DESIGN CHOICE: log 31; DEDUCED: log 32] -/
def lpmWalk (t key : Nat) (d : Dev) : WalkRes :=
  if d.tab.lpmBad = [] then (none, none)
  else if d.tab.lpmVague then
    let v := (Config.freeValue d.freeCtr).toNat
    (some (v / 2 % 2 ^ 21), if v % 2 = 1 then d.tab.lpmBad.head? else none)
  else trieWalk d.tab.lpmMem d.tab.lpmBad (maskKey (trieBits t) key) 15 0 t 0 none
/-- Whether the walk of a key meets a damaged word. -/
def lpmDamaged (t key : Nat) (d : Dev) : Bool := (lpmWalk t key d).2.isSome
/-- An LPM lookup: found and length, next hop, and the damaged word that it met (R112, R119, R131). -/
def lpmLookup (t key : Nat) (d : Dev) : (Option (Nat × Nat) × Nat × Option Nat) :=
  let miss := rget LPM_MISS_NHt.NH 0 t d
  match lpmWalk t key d with
  | (best, some a) => (none, best.getD miss, some a)
  | (_, none) => match longest t (maskKey (trieBits t) key) d (trieBits t) with
    | some (l, nh) => (some (l, nh), nh, none)
    | none => (none, miss, none)
/-- A lookup met a damaged trie word: counted and latched (R131). -/
def lpmEcc (a : Nat) (d : Dev) : Dev := eccLatch .LPM_ECC_ADDR 0 1 a (inc Pg.LPM 7 d)
/-- The free words of the stages follow the memory (R116, R120); where the layout is not known they are free values. [DESIGN CHOICE: log 31] -/
def lpmFrees (d : Dev) : Dev :=
  (List.range 16).foldl (fun s k =>
    if s.tab.lpmVague then
      let (v, s) := draw s
      rset LPM_STAGE_FREEk.FREE 0 k (v % (if k = 0 then 196607 else 196609)) s
    else rset LPM_STAGE_FREEk.FREE 0 k (if k = 0 then 196606 else stageWords - (usedWords s.tab.lpmMem k).length) s) d
/-- The prefixes of a trie. -/
def lpmPfxs (t : Nat) (d : Dev) : List Pfx :=
  (d.tab.lpm.filter fun x => x.1 / 2 ^ 152 == t).map fun x => (x.1 / 2 ^ 144 % 256, x.1 % 2 ^ 144, x.2)
/-- The engine brings the words of trie t to its prefixes, and leaves the old ones to be freed (R120). Where no room is left for a
layout of the model's kind, the layout is not known from there on, until one fits again. [DESIGN CHOICE: log 31] -/
def lpmSwing (t : Nat) (d : Dev) : Dev :=
  let new (t : Nat) (m : TrieMem) : Option TrieMem := triePlace 15 0 t 0 none (lpmPfxs t d) m
  let kept := if d.tab.lpmVague then [] else d.tab.lpmLeft
  let r := if d.tab.lpmVague then (new 0 { words := [] }).bind (new 1) else new t { words := d.tab.lpmMem, bad := d.tab.lpmBad }
  lpmFrees (match r with
    | some m => onTab (fun x => { x with lpmMem := m.words, lpmBad := m.bad, lpmVague := false, lpmLeft := if m.left = [] then kept else kept ++ [m.left] }) d
    | none => onTab (fun x => { x with lpmVague := true }) d)
/-- Change the prefix table and the counts that show it. -/
def lpmPut (t len key : Nat) (nh : Option Nat) (d : Dev) : Dev :=
  let k := pfxKey t len key
  let was := has d.tab.lpm k
  let d := onTab (fun x => { x with lpm := match nh with | some n => ins x.lpm k n | none => del x.lpm k }) d
  let now := nh.isSome
  let pf := if t = 0 then LPM_PFX0.COUNT else LPM_PFX1.COUNT
  let u := pfxUnits t len
  if was == now then d
  else if now then rset pf 0 0 (rget pf 0 0 d + 1) (rset LPM_UNITS.COUNT 0 0 (rget LPM_UNITS.COUNT 0 0 d + u) d)
  else rset pf 0 0 (rget pf 0 0 d - 1) (rset LPM_UNITS.COUNT 0 0 (rget LPM_UNITS.COUNT 0 0 d - u) d)
/-- Set LPM_CMD_RES. -/
def lpmRes (found : Bool) (len nh key : Nat) (d : Dev) : Dev :=
  rset LPM_CMD_RES.FOUND 0 0 (b2n found) (rset LPM_CMD_RES.LEN 0 0 len (rset LPM_CMD_RES.NH 0 0 nh (rset LPM_CMD_RES.KEY 0 0 key d)))
/-- The trie and the path of the node at a word, or of the node whose result word it is. -/
def lpmOwner (a : Nat) (d : Dev) : Option (Nat × Nat × Nat) :=
  match trieOwner d.tab.lpmMem a 15 0 0 0 0 with
  | some x => some (0, x)
  | none => (trieOwner d.tab.lpmMem a 15 0 1 0 0).map fun x => (1, x)
/-- REPAIR of a word: the damaged node and its subtree go with their prefixes, and the path that it covered is returned (R133). A
result word goes with its node; of a word that is left behind or free, nothing goes. [DEDUCED: log 32] -/
def lpmRepair (stage word : Nat) (d : Dev) : Nat × Dev :=
  let a := trieKey stage word
  if !d.tab.lpmBad.contains a then (Err.BAD_ARG, d)
  else
    let d := onTab (fun t => { t with lpmBad := t.lpmBad.filter (· != a) }) d
    match if d.tab.lpmVague then none else lpmOwner a d with
    | none => (0, lpmRes false 0 0 0 d)
    | some (t, len, key) =>
      let inside (k : Nat) : Bool := k / 2 ^ 152 == t && decide (len ≤ k / 2 ^ 144 % 256) && maskKey len (k % 2 ^ 144) == key
      let gone := (keys d.tab.lpm).filter inside
      let d := gone.foldl (fun s k => lpmPut t (k / 2 ^ 144 % 256) (k % 2 ^ 144) none s) d
      (0, lpmRes false len 0 key (lpmSwing t d))
/-- The trie whose lock a command needs: for REPAIR the one that owns the word (R135). -/
def lpmLockTrie (op t stage word : Nat) (d : Dev) : Nat :=
  if op = 5 then (match lpmOwner (trieKey stage word) d with | some x => x.1 | none => t) else t
/-- One LPM command: the code that refuses it, or 0 (R115, R120, R121, R135, R144). A LOOKUP that meets a damaged word returns the
walk's next hop; the matched length beside it is not stated. [DESIGN CHOICE: log 31] -/
def lpmCommand (req : Requester) (img : Nat) (d : Dev) : Nat × Dev :=
  let op := LPM_CMD.OP.of img
  let t := LPM_CMD.TRIE.of img
  let len := LPM_CMD.LEN.of img
  let key := LPM_CMD.KEY.of img
  let key := if t = 0 then maskKey 48 key else key
  let nh := LPM_CMD.NH.of img
  let owner := lpmLockTrie op t (LPM_CMD.STAGE.of img) (LPM_CMD.WORD.of img) d
  let lock := if op = 3 ∨ op = 4 then 0 else lockCheck req .LPM_LOCKt owner (LPM_CMD.LOCK_ID.of img) d
  if 5 < op ∨ trieBits t < len ∨ maskKey len key ≠ key then (Err.BAD_ARG, d)
  else if lock ≠ 0 then (lock, d)
  else if op = 5 then lpmRepair (LPM_CMD.STAGE.of img) (LPM_CMD.WORD.of img) d
  else if op = 4 then
    match lpmLookup t key d with
    | (some (l, n), _, _) => (0, lpmRes true l n 0 d)
    | (none, n, none) => (0, lpmRes false 0 n 0 d)
    | (none, n, some a) =>
      let found := (lpmWalk t key d).1.isSome
      let (v, d) := draw (draw d).2
      (0, lpmRes found (v % 145) n 0 (lpmEcc a d))
  else
    let cur := find? d.tab.lpm (pfxKey t len key)
    match op, cur with
    | 0, some _ => (0x21, d)
    | 0, none =>
      if 24000000 < rget LPM_UNITS.COUNT 0 0 d + pfxUnits t len then (Err.RESOURCE_FULL, d)
      else (0, lpmSwing t (lpmPut t len key (some nh) d))
    | 1, some _ => (0, lpmSwing t (lpmPut t len key (some nh) d))
    | 1, none => (0x20, d)
    | 2, some _ => (0, lpmSwing t (lpmPut t len key none d))
    | 2, none => (0x20, d)
    | _, some n => (0, lpmRes true 0 n 0 d)
    | _, none => (0x20, lpmRes false 0 (rget LPM_MISS_NHt.NH 0 t d) 0 d)
/-- A write of LPM_CMD: with GO the command runs to its end. [DESIGN CHOICE: log 5] -/
def lpmCmdWrite (req : Requester) (img : Nat) (d : Dev) : Dev :=
  let d := storeFields false .LPM_CMD 0 0 img d
  if !LPM_CMD.GO.on img then d
  else let (code, d) := lpmCommand req img d; tabDone Pg.LPM .LPM_CMD code true d
/-- 1 µs after a swing, the words left behind are freed (R120). -/
def lpmWordFree (d : Dev) : Dev :=
  match d.tab.lpmLeft with
  | [] => d
  | l :: t =>
    lpmFrees (onTab (fun x => { x with lpmMem := x.lpmMem.filter (fun y => !l.contains y.1), lpmBad := x.lpmBad.filter (!l.contains ·), lpmLeft := t }) d)
/-- A read of LPM_MEM_DATA: the addressed word; one that cannot be read, or whose layout is not known, is a free value (R116, R120).
[DESIGN CHOICE: log 31] -/
def lpmMemRead (d : Dev) : Dev :=
  let s := rget LPM_MEM_ADDR.STAGE 0 0 d
  let w := rget LPM_MEM_ADDR.WORD 0 0 d
  if d.tab.lpmVague || d.tab.lpmBad.contains (trieKey s w) then
    let (a, d) := draw d
    let (b, d) := draw d
    let (c, d) := draw d
    let (e, d) := draw d
    loadImg .LPM_MEM_DATA 0 0 (a + b * 2 ^ 64 + c * 2 ^ 128 + e * 2 ^ 192) d
  else loadImg .LPM_MEM_DATA 0 0 (trieWord d.tab.lpmMem s w) d
/-- A write of LPM_MEM_ADDR. -/
def lpmMemAddrWrite (img : Nat) (d : Dev) : Dev :=
  if !expertOf Pg.LPM d then errAt Err.EXPERT_LOCKED .LPM_MEM_ADDR 0 0 d
  else if 196607 < LPM_MEM_ADDR.WORD.of img then errAt Err.BAD_ARG .LPM_MEM_ADDR 0 0 d
  else storeFields true .LPM_MEM_ADDR 0 0 img d

/-! Exact match (R122 to R127). -/

/-- A slot's number. -/
def slotId (half bucket way : Nat) : Nat := half * 2 ^ 21 + bucket * 4 + way
/-- Whether table n has wide keys. -/
def xmWide (n : Nat) (d : Dev) : Bool := flag XM_TBLn_CFG.WIDE 0 n d
/-- The key as a table compares it: a narrow table ignores the low 80 bits (R123). -/
def xmKey (n key : Nat) (d : Dev) : Nat := if xmWide n d then key else key / 2 ^ 80 * 2 ^ 80
/-- CRC of R123: bytes in order, the given initial value, no final inversion. [DESIGN CHOICE: log 33] -/
def xmCrc (seed : Nat) (bs : Bytes) : Nat := bs.foldl (fun c b => crcByte c b.toNat) seed
/-- Candidate bucket of a key in a half (R123). -/
def xmBucket (n half key : Nat) (d : Dev) : Nat :=
  let seed := rget XM_TBLn_SEED.SEED 0 n d
  let bs := if xmWide n d then beBytes 20 key else beBytes 10 (key / 2 ^ 80)
  rget XM_TBLn_CFG.BASE 0 n d + xmCrc (if half = 0 then seed else seed ^^^ 0xFFFFFFFF) bs % 2 ^ rget XM_TBLn_CFG.SIZE_LOG2 0 n d
/-- The ways at which an entry of a table may start. -/
def xmWays (wide : Bool) : List Nat := if wide then [0, 2] else [0, 1, 2, 3]
/-- Whether the slot, and its partner for a wide entry, is free and good. -/
def slotFree (wide : Bool) (s : Nat) (d : Dev) : Bool :=
  let free (x : Nat) : Bool := !has d.tab.xm x && !has d.tab.xm2 x && !d.tab.xmBad.contains x
  free s && (!wide || free (s + 1))
/-- The lowest free place of a bucket. -/
def freeIn (wide : Bool) (half bucket : Nat) (d : Dev) : Option Nat :=
  ((xmWays wide).map fun w => slotId half bucket w).find? fun s => slotFree wide s d
/-- Where an entry of the table with this key lies: slot numbers, and 2^22 + i for stash entry i. -/
def xmFind (n key : Nat) (d : Dev) : Option (Nat × XmEnt) :=
  let k := xmKey n key d
  let here (e : XmEnt) : Bool := e.tbl == n && e.wide == xmWide n d && e.key == k
  let ids := (List.range 2).flatMap fun h => [0, 1, 2, 3].map fun w => slotId h (xmBucket n h k d) w
  let hit := ids.findSome? fun s => match find? d.tab.xm s with
    | some e => if here e then some (s, e) else none
    | none => none
  match hit with
  | some x => some x
  | none => (d.tab.stash.find? fun x => here x.2).map fun x => (2 ^ 22 + x.1, x.2)
/-- The damaged slot of its buckets or of the stash that a probe of the key reads (R125). [DESIGN CHOICE: log 36] -/
def xmFail (n key : Nat) (d : Dev) : Option Nat :=
  let k := xmKey n key d
  d.tab.xmBad.find? fun s => decide (2 ^ 22 ≤ s) || s / 4 == slotId 0 (xmBucket n 0 k d) 0 / 4 || s / 4 == slotId 1 (xmBucket n 1 k d) 0 / 4
/-- Whether a probe of the key meets a damaged slot. -/
def xmDamaged (n key : Nat) (d : Dev) : Bool := (xmFail n key d).isSome
/-- A damaged slot is met: counted and latched (R131). -/
def xmEcc (s : Nat) (d : Dev) : Dev := eccLatch .XM_ECC_ADDR 0 1 (if 2 ^ 22 ≤ s then 2 ^ 22 + 4 * (s - 2 ^ 22) else s) (inc Pg.XM 7 d)
/-- A damaged entry of the next-hop memory is met: counted and latched (R131). -/
def nhtEcc (k : Nat) (d : Dev) : Dev := eccLatch .NHT_ECC_ADDR 0 0 k (inc Pg.NHT 5 d)
/-- The second way of a wide entry: VALID, WIDE and KEY[79:0] (R124). -/
def XmEnt.second (e : XmEnt) : Nat := 2 ^ 127 + 2 ^ 126 + e.key % 2 ^ 80
/-- Store an entry at a place; a wide one takes the way behind it too (R124). -/
def xmPut (s : Nat) (e : XmEnt) (d : Dev) : Dev :=
  if 2 ^ 22 ≤ s then onTab (fun t => { t with stash := ins t.stash (s - 2 ^ 22) e }) d
  else onTab (fun t => { t with xm := ins t.xm s e, xm2 := if e.wide then ins t.xm2 (s + 1) e.second else t.xm2 }) d
/-- Clear a place, and the second way of the entry there. -/
def xmClear (s : Nat) (d : Dev) : Dev :=
  if 2 ^ 22 ≤ s then onTab (fun t => { t with stash := del t.stash (s - 2 ^ 22) }) d
  else onTab (fun t => { t with xm := del t.xm s, xm2 := del t.xm2 (s + 1) }) d
/-- Keep XM_COUNTn and XM_STASH as the entries are; STASH_HIGH fires as the level reaches 48 (R145). -/
def xmCounts (d : Dev) : Dev :=
  let old := rget XM_STASH.LEVEL 0 0 d
  let lvl := d.tab.stash.length
  let d := rset XM_STASH.LEVEL 0 0 lvl d
  let n (k : Nat) : Nat := (d.tab.xm.filter (·.2.tbl == k)).length + (d.tab.stash.filter (·.2.tbl == k)).length
  let d := (List.range 8).foldl (fun s k => rset XM_COUNTn.COUNT 0 k (n k) s) d
  if old < 48 ∧ 48 ≤ lvl then fire Pg.XM 3 d else d
/-- The other candidate bucket of the entry in a slot: half and bucket. -/
def xmOther (s : Nat) (e : XmEnt) (d : Dev) : Nat × Nat :=
  let h := 1 - s / 2 ^ 21
  (h, xmBucket e.tbl h e.key d)
/-- The breadth-first search for a chain of moves (R126): paths hold slots, the last one first. The order among chains of one
length is the model's choice: b1 before b2, low ways first. -/
def xmChain (wide : Bool) (d : Dev) : Nat → List (List Nat) → Option (List Nat × Nat)
  | 0, _ => none
  | n + 1, paths =>
    let try1 (p : List Nat) : Option (List Nat × Nat) := do
      let s ← p.head?
      let e ← find? d.tab.xm s
      let (h, b) := xmOther s e d
      let f ← freeIn wide h b d
      pure (p, f)
    match paths.findSome? try1 with
    | some r => some r
    | none => xmChain wide d n (paths.flatMap fun p =>
        match p.head? with
        | some s => match find? d.tab.xm s with
          | some e =>
            let (h, b) := xmOther s e d
            ((xmWays wide).map fun w => slotId h b w).filterMap fun x => if p.contains x || !has d.tab.xm x then none else some (x :: p)
          | none => []
        | none => [])
/-- Carry out a chain of moves from its far end (R126, R127); the slot left free. [DESIGN CHOICE: log 33] -/
def xmMoves : List Nat → Nat → Dev → Nat × Dev
  | [], dst, d => (dst, d)
  | s :: t, dst, d =>
    match find? d.tab.xm s with
    | some e => xmMoves t s (inc Pg.XM 4 (xmClear s (xmPut dst e d)))
    | none => (dst, d)
/-- INSERT of an entry whose key is absent (R126): false where it fails. [DESIGN CHOICE: log 33] -/
def xmInsert (e : XmEnt) (d : Dev) : Bool × Dev :=
  let b1 := xmBucket e.tbl 0 e.key d
  let b2 := xmBucket e.tbl 1 e.key d
  let done (s : Nat) (d : Dev) : Bool × Dev := (true, inc Pg.XM 2 (xmCounts (xmPut s e d)))
  match freeIn e.wide 0 b1 d with
  | some s => done s d
  | none => match freeIn e.wide 1 b2 d with
    | some s => done s d
    | none =>
      let starts := ((xmWays e.wide).map fun w => [slotId 0 b1 w]) ++ ((xmWays e.wide).map fun w => [slotId 1 b2 w])
      match xmChain e.wide d (rget XM_INS_CFG.MAX_DEPTH 0 0 d) starts with
      | some (path, f) => let (s, d) := xmMoves path f d; done s d
      | none =>
        let room := if flag XM_INS_CFG.STASH_EN 0 0 d then
            (List.range 64).find? (fun i => !has d.tab.stash i && !d.tab.xmBad.contains (2 ^ 22 + i)) else none
        match room with
        | some i => done (2 ^ 22 + i) (inc Pg.XM 5 d)
        | none => (false, fire Pg.XM 4 (inc Pg.XM 3 d))
/-- Move stash entries back into their buckets (R126). -/
def stashReinsert (d : Dev) : Dev :=
  xmCounts ((keys d.tab.stash).foldl (fun s i =>
    match find? s.tab.stash i with
    | some e =>
      let place := match freeIn e.wide 0 (xmBucket e.tbl 0 e.key s) s with
        | some p => some p
        | none => freeIn e.wide 1 (xmBucket e.tbl 1 e.key s) s
      match place with
      | some p => inc Pg.XM 4 (xmClear (2 ^ 22 + i) (xmPut p e s))
      | none => s
    | none => s) d)
/-- The SLOT coding of XM_CMD for a place. -/
def slotCode (s : Nat) : Nat := s
/-- Set XM_CMD_RES from what a key's probe finds. -/
def xmRes (n key : Nat) (d : Dev) : Dev :=
  let set (f : Bool) (e : XmEnt) (s : Nat) (d : Dev) : Dev :=
    loadImg .XM_CMD_RES 0 0 (b2n f * 2 ^ 255 + b2n e.static * 2 ^ 254 + b2n e.hit * 2 ^ 253 + e.age * 2 ^ 251 + e.result * 2 ^ 192 + slotCode s * 2 ^ 160 + key) d
  match xmFind n key d with
  | some (s, e) => set true e s d
  | none => set false { tbl := 0, wide := false, static := false, result := 0, key := 0 } 0 d
/-- The place that the SLOT of an INVALIDATE names: a way that holds the second half of a wide entry names the entry. -/
def invPlace (code : Nat) (d : Dev) : Nat :=
  let s := if 2 ^ 22 ≤ code then 2 ^ 22 + code % 64 else code
  if has d.tab.xm2 s && decide (s < 2 ^ 22) then s - 1 else s
/-- The table whose lock a command needs: for INVALIDATE the one that owns the entry in the named slot (R135). -/
def xmLockTable (op n code : Nat) (d : Dev) : Nat :=
  if op = 4 then
    let s := invPlace code d
    match if 2 ^ 22 ≤ s then find? d.tab.stash (s - 2 ^ 22) else find? d.tab.xm s with
    | some e => e.tbl
    | none => n
  else n
/-- One XM command (R126, R127, R133, R135, R144). -/
def xmCommand (req : Requester) (img : Nat) (d : Dev) : Nat × Dev :=
  let op := XM_CMD.OP.of img
  let n := XM_CMD.TABLE.of img
  let key := XM_CMD.KEY.of img
  let lock := if op = 3 then 0 else lockCheck req .XM_LOCKn (xmLockTable op n (XM_CMD.SLOT.of img) d) (XM_CMD.LOCK_ID.of img) d
  if 4 < op ∨ !flag XM_TBLn_CFG.EN 0 n d then (Err.BAD_ARG, d)
  else if lock ≠ 0 then (lock, d)
  else
    let cur := xmFind n key d
    match op with
    | 0 =>
      match cur with
      | some _ => (0x21, xmRes n key d)
      | none =>
        let e : XmEnt := { tbl := n, wide := xmWide n d, static := XM_CMD.STATIC.on img, result := XM_CMD.RESULT.of img, key := xmKey n key d }
        let (ok, d) := xmInsert e d
        (if ok then 0 else Err.RESOURCE_FULL, xmRes n key d)
    | 1 =>
      match cur with
      | some (s, e) => (0, xmPut s { e with result := XM_CMD.RESULT.of img, static := XM_CMD.STATIC.on img } d)
      | none => (0x20, d)
    | 2 =>
      match cur with
      | some (s, _) => (0, xmCounts (xmClear s d))
      | none => (0x20, d)
    | 3 => (if cur.isSome then 0 else 0x20, xmRes n key d)
    | _ =>
      let s := XM_CMD.SLOT.of img
      let s := if 2 ^ 22 ≤ s then 2 ^ 22 + s % 64 else s
      let s' := invPlace s d
      (0, xmCounts (onTab (fun t => { t with xmBad := t.xmBad.filter (fun b => b != s && b != s') }) (xmClear s' d)))
/-- A write of XM_CMD. [DESIGN CHOICE: log 5] -/
def xmCmdWrite (req : Requester) (img : Nat) (d : Dev) : Dev :=
  let d := storeFields false .XM_CMD 0 0 img d
  if !XM_CMD.GO.on img then d
  else let (code, d) := xmCommand req img d; tabDone Pg.XM .XM_CMD code false d
/-- A write of XM_TBLn_CFG (R122): no overlap with an enabled table, BASE a multiple of its size, the region within the
524,288 buckets, and no change of the region while EN is 1. -/
def xmCfgWrite (n img : Nat) (d : Dev) : Dev :=
  let en := XM_TBLn_CFG.EN.on img
  let sz := XM_TBLn_CFG.SIZE_LOG2.of img
  let base := XM_TBLn_CFG.BASE.of img
  let was := flag XM_TBLn_CFG.EN 0 n d
  let changes := was && (sz != rget XM_TBLn_CFG.SIZE_LOG2 0 n d || base != rget XM_TBLn_CFG.BASE 0 n d || XM_TBLn_CFG.WIDE.of img != rget XM_TBLn_CFG.WIDE 0 n d)
  let overlap := en && (List.range 8).any fun k =>
    k != n && flag XM_TBLn_CFG.EN 0 k d && decide (base < rget XM_TBLn_CFG.BASE 0 k d + 2 ^ rget XM_TBLn_CFG.SIZE_LOG2 0 k d ∧ rget XM_TBLn_CFG.BASE 0 k d < base + 2 ^ sz)
  if changes || decide (19 < sz) || decide (base % 2 ^ sz ≠ 0) || overlap then errAt Err.BAD_ARG .XM_TBLn_CFG 0 n d
  else storeFields false .XM_TBLn_CFG 0 n img d
/-- A write of XM_TBLn_SEED: refused while EN is 1. -/
def xmSeedWrite (n img : Nat) (d : Dev) : Dev :=
  if flag XM_TBLn_CFG.EN 0 n d then errAt Err.BAD_ARG .XM_TBLn_SEED 0 n d else storeFields false .XM_TBLn_SEED 0 n img d
/-- A write of XM_TBLn_LRN: AGE_TIME 0 is refused. -/
def xmLrnWrite (n img : Nat) (d : Dev) : Dev :=
  if XM_TBLn_LRN.AGE_TIME.of img = 0 then errAt Err.BAD_ARG .XM_TBLn_LRN 0 n d else storeFields false .XM_TBLn_LRN 0 n img d
/-- A write of XM_INS_CFG. -/
def xmInsCfgWrite (img : Nat) (d : Dev) : Dev :=
  let m := XM_INS_CFG.MAX_DEPTH.of img
  if !expertOf Pg.XM d then errAt Err.EXPERT_LOCKED .XM_INS_CFG 0 0 d
  else if m = 0 ∨ m = 7 then errAt Err.BAD_ARG .XM_INS_CFG 0 0 d else storeFields true .XM_INS_CFG 0 0 img d

/-! Next hop, ECMP and adjacency (R128, R129). -/

/-- Parity of a number's bits: 1 for an odd count, which makes the whole even. -/
def evenPar (v : Nat) : Nat := ((bitsOf 64 v).length) % 2
/-- Entries of an NHT table. -/
def nhtSize (t : Nat) : Nat := match t with | 0 => 2097152 | 1 => 262144 | 2 => 1572864 | _ => 2097152
/-- An entry as stored, with its parity computed (R128). -/
def nhtStore (t v : Nat) : Nat :=
  match t with
  | 0 =>
    let v := v % 2 ^ 32
    let ty := bits v 31 30
    let par := if ty = 1 then evenPar (bits v 18 0) else if ty = 2 then evenPar (bits v 17 0) else 0
    Span.set (28, 28) par v
  | 1 => Span.set (35, 35) (evenPar (bits v 56 36)) v
  | 2 => let v := v % 2 ^ 32; Span.set (31, 31) (evenPar (bits v 20 0)) v
  | _ => v
/-- A stored entry. -/
def nhtAt (t i : Nat) (d : Dev) : Nat := look d.tab.nht (t * 2 ^ 21 + i) 0
/-- Whether an entry is damaged. [DESIGN CHOICE: log 36] -/
def nhtDamaged (t i : Nat) (d : Dev) : Bool := d.tab.nhtBad.contains (t * 2 ^ 21 + i)
/-- A command of NHT_ACC (R128, R129, R135): GO runs it to its end. [DESIGN CHOICE: log 5] -/
def nhtAccWrite (req : Requester) (img : Nat) (d : Dev) : Dev :=
  let d := storeFields false .NHT_ACC 0 0 img d
  let t := NHT_ACC.TBL.of img
  let i := NHT_ACC.INDEX.of img
  let v := NHT_ACC.DATA.of img
  if !NHT_ACC.GO.on img then d
  else if nhtSize t ≤ i then errAt Err.BAD_ARG .NHT_ACC 0 0 d
  else if NHT_ACC.OP.on img then rset NHT_ACC.DATA 0 0 (nhtAt t i d) d
  else
    let lock := lockCheck req .NHT_LOCK 0 (NHT_ACC.LOCK_ID.of img) d
    if lock ≠ 0 then errAt lock .NHT_ACC 0 0 d
    else if t = 1 ∧ 1572863 < bits v 56 36 + bits v 62 57 then errAt Err.BAD_ARG .NHT_ACC 0 0 d
    else onTab (fun x => { x with nht := put x.nht (t * 2 ^ 21 + i) 0 (nhtStore t v), nhtBad := x.nhtBad.filter (· != t * 2 ^ 21 + i) }) d
/-- Outcome of an NHT resolution: the resolved index and QID, a drop code, or the damaged entry that it met, which marks LKP_ECC
(R129, R131). -/
inductive NhtOut where
  | ok (x qid : Nat)
  | mark (code : Nat)
  | ecc (k : Nat)
  deriving DecidableEq, Repr
/-- The end of a resolution at next hop x (R129). -/
def nhtFinish (x cls : Nat) (ecmp : Bool) (d : Dev) : NhtOut :=
  if nhtDamaged 0 x d then .ecc x
  else
    let e := nhtAt 0 x d
    let ty := bits e 31 30
    if ecmp && ty != 1 && ty != 3 then .mark 0x21
    else if ty = 0 then .mark 0x21
    else if ty = 3 then .mark 0x22
    else .ok x (if bit e 29 then bits e 18 4 * 16 + cls else bits e 18 0)
/-- Resolve a source index (R129). -/
def nhtResolve (x hash cls : Nat) (d : Dev) : NhtOut :=
  if nhtDamaged 0 x d then .ecc x
  else
    let e := nhtAt 0 x d
    if bits e 31 30 ≠ 2 then nhtFinish x cls false d
    else
      let gi := bits e 17 0
      if nhtDamaged 1 gi d then .ecc (2 ^ 21 + gi)
      else
        let g := nhtAt 1 gi d
        if !bit g 63 then .mark 0x21
        else
          let rot := bits g 34 30
          let h := (hash >>> rot ||| hash <<< (32 - rot)) % 2 ^ 32
          let m := (h / 65536 * (bits g 62 57 + 1)) / 65536
          let mi := bits g 56 36 + m
          if nhtDamaged 2 mi d then .ecc (2 * 2 ^ 21 + mi) else nhtFinish (bits (nhtAt 2 mi d) 20 0) cls true d

/-! Integrity (R131, R132). -/

/-- The word of a memory that its unit (stage, half, table or bank), its number and, in a bucket, its way name. -/
def tableWordAt (mem : TableMem) (unit word way : Nat) : TableWord :=
  match mem with
  | .lpm => .lpm (Fin.ofNat 16 unit) word
  | .xm => .xmSlot (Fin.ofNat 2 unit) word (Fin.ofNat 4 way)
  | .stash => .xmStash (Fin.ofNat 64 word)
  | .nht => .nht (Fin.ofNat 4 unit) word
  | .prof => .prof (Fin.ofNat 2 unit) (Fin.ofNat 64 word)
  | .tmpl => .tmpl (Fin.ofNat 2 unit) (Fin.ofNat 64 word)
/-- Page, corrected counter and uncorrected counter of a table word's memory. -/
def wordPage (w : TableWord) : Nat × Nat × Nat :=
  match w with
  | .lpm _ _ => (Pg.LPM, 6, 7)
  | .xmSlot _ _ _ => (Pg.XM, 6, 7)
  | .xmStash _ => (Pg.XM, 6, 7)
  | .nht _ _ => (Pg.NHT, 4, 5)
  | .prof _ _ => (Pg.HDS, 6, 6)
  | .tmpl _ _ => (Pg.HDS, 6, 6)
/-- A corrected word is counted and written back (R107, R131). [DESIGN CHOICE: log 36] -/
def tableCorrected (w : TableWord) (d : Dev) : Dev := inc (wordPage w).1 (wordPage w).2.1 d
/-- An uncorrectable word: counted, latched and left until repaired. [DESIGN CHOICE: log 30, 36; DEDUCED: log 32] -/
def tableUncorr (w : TableWord) (d : Dev) : Dev :=
  match w with
  | .lpm s a => let k := trieKey s.val (a % 2 ^ 18); lpmEcc k (onTab (fun t => { t with lpmBad := k :: t.lpmBad }) d)
  | .xmSlot h b y => let s := slotId h.val (b % 2 ^ 19) y.val; xmEcc s (onTab (fun t => { t with xmBad := s :: t.xmBad }) d)
  | .xmStash i => xmEcc (2 ^ 22 + i.val) (onTab (fun t => { t with xmBad := (2 ^ 22 + i.val) :: t.xmBad }) d)
  | .nht t i => let k := t.val * 2 ^ 21 + i % 2 ^ 21; nhtEcc k (onTab (fun x => { x with nhtBad := k :: x.nhtBad }) d)
  | .prof b i => { d with head := { d.head with badWords := (256 * b.val + i.val) :: d.head.badWords } }
  | .tmpl b i => { d with head := { d.head with badWords := (256 * b.val + 128 + i.val) :: d.head.badWords } }

/-! Learning (R137 to R143). -/

/-- Time a is later than time b in half-range serial arithmetic (R139). -/
def later48 (a b : Nat) : Bool := let x := (a + 2 ^ 48 - b % 2 ^ 48) % 2 ^ 48; decide (0 < x ∧ x < 2 ^ 47)
/-- DEV_ID of this device. -/
def devId (d : Dev) : Nat := rget GLB_STRAP.DEV_ID 0 0 d
/-- A log entry (LRN_LOG); a full log loses it. -/
def lrnLog (kind tbl oldPair newPair time key : Nat) (d : Dev) : Dev :=
  if 256 ≤ d.tab.lrnLog.length then fire Pg.LRN 4 (inc Pg.LRN 9 d)
  else
    let img := 2 ^ 255 + kind * 2 ^ 252 + tbl * 2 ^ 249 + oldPair % 2 ^ 14 * 2 ^ 235 + newPair % 2 ^ 14 * 2 ^ 221 + time % 2 ^ 48 * 2 ^ 160 + key
    let d := onTab (fun t => { t with lrnLog := t.lrnLog ++ [img] }) d
    fire Pg.LRN 3 (rset LRN_LOG_STAT.LEVEL 0 0 d.tab.lrnLog.length d)
/-- A read of LRN_LOG pops its head into the register, from which the read snapshot is taken. -/
def lrnLogPop (d : Dev) : Dev :=
  match d.tab.lrnLog with
  | [] => loadImg .LRN_LOG 0 0 0 d
  | x :: t => rset LRN_LOG_STAT.LEVEL 0 0 t.length (loadImg .LRN_LOG 0 0 x (onTab (fun y => { y with lrnLog := t }) d))
/-- Set the learning queue. -/
def setLrnQ (q : List LrnEv) (d : Dev) : Dev := rset LRN_STAT.QUEUE 0 0 q.length (onTab (fun t => { t with lrnQ := q }) d)
/-- A learning event is raised (R137). -/
def learnRaise (ev : LrnEv) (d : Dev) : Dev :=
  let d := inc Pg.LRN 0 d
  if !blkEn Pg.LRN d then inc Pg.LRN 7 d
  else if d.tab.lrnRecent.any fun x => x.1 == ev && decide (d.mono ≤ x.2 + 100000) then inc Pg.LRN 6 d
  else
    let d := onTab (fun t => { t with lrnRecent := ((ev, d.mono) :: t.lrnRecent).take 64 }) d
    if 4096 ≤ d.tab.lrnQ.length then fire Pg.LRN 0 (inc Pg.LRN 7 d) else setLrnQ (d.tab.lrnQ ++ [ev]) d
/-- Pair of an entry's RESULT (R138, R139). -/
def entPair (e : XmEnt) : Nat := e.result % 2 ^ 14
/-- Pair of an event. -/
def evPair (ev : LrnEv) : Nat := ev.dev * 256 + ev.port
/-- RESULT of a learned entry (R138). -/
def learnedResult (n pair : Nat) (d : Dev) : Nat := rget XM_TBLn_DATA.LEARN_DATA 0 n d * 2 ^ 14 + pair % 2 ^ 14
/-- Current Spindle time in ns modulo 2^48. -/
def now48 (d : Dev) : Nat := timeNsOf d.spn.time % 2 ^ 48
/-- Cache key. -/
def cacheKey (n key : Nat) : Nat := n * 2 ^ 160 + key
/-- Store a cache entry. -/
def cachePut (k : Nat) (c : LrnCache) (d : Dev) : Dev :=
  let d := onTab (fun t => { t with lrnCache := ins t.lrnCache k c }) d
  rset LRN_STAT.CACHE 0 0 d.tab.lrnCache.length d
/-- Whether a cache entry has expired (R139). [DEDUCED: log 35] -/
def cacheExpired (c : LrnCache) (d : Dev) : Bool :=
  let old := (now48 d + 2 ^ 48 - c.t) % 2 ^ 48
  decide (rget LRN_CFG.ARB_WIN 0 0 d * 1000 < old ∧ old < 2 ^ 47) && decide (c.winStart + rget LRN_FLAP.WIN 0 0 d * 1000000 < d.mono) && !c.flapping
/-- The entry that a new key evicts from a full cache: an expired one, or else the oldest that is not flapping. [DEDUCED: log 35] -/
def cacheVictim (d : Dev) : Option Nat :=
  match d.tab.lrnCache.find? (fun x => cacheExpired x.2 d) with
  | some x => some x.1
  | none =>
    let live := d.tab.lrnCache.filter fun x => !x.2.flapping
    (live.foldl (fun (a : Option (Nat × LrnCache)) x => match a with
      | some y => if later48 y.2.t x.2.t then some x else some y
      | none => some x) none).map (·.1)
/-- cache_find: an absent key gets a new, invalid entry, in place of a victim where the cache is full; false where every entry is
flapping (R139). [DEDUCED: log 35] -/
def cacheRoom (k : Nat) (d : Dev) : Bool × Dev :=
  if has d.tab.lrnCache k then (true, d)
  else if d.tab.lrnCache.length < 4096 then (true, cachePut k {} d)
  else match cacheVictim d with
    | some v => (true, cachePut k {} (onTab (fun t => { t with lrnCache := del t.lrnCache v }) d))
    | none => (false, inc Pg.LRN 8 d)
/-- Count a move for flap damping (R140). -/
def flapCount (n key oldPair : Nat) (ev : LrnEv) (c : LrnCache) (d : Dev) : LrnCache × Dev :=
  let c := if c.winStart + rget LRN_FLAP.WIN 0 0 d * 1000000 < d.mono then { c with winStart := d.mono, moves := 0 } else c
  let c := { c with moves := c.moves + 1 }
  let m := rget LRN_FLAP.MOVES 0 0 d
  if m ≠ 0 ∧ m < c.moves then ({ c with flapping := true, flapAt := d.mono }, fire Pg.LRN 1 (lrnLog 3 n oldPair (evPair ev) ev.time key d))
  else (c, d)
/-- What an arbitration came to (R139, R384). -/
inductive Arb where
  | none_                      -- a static entry, or no room
  | changed                    -- installed or moved
  | confirmed                  -- the entry already holds the pair
  | loser
  | suppressed                 -- the key is flapping
  deriving DecidableEq, Repr

/-- Arbitrate one event against cache and table (R139). `mgr`: a message that the manager arbitrates, for which its own static
flags do not count and its static entries stay (R384). [DEDUCED: log 35] -/
def arbitrate (mgr : Bool) (ev : LrnEv) (d : Dev) : Arb × Dev :=
  let n := ev.tbl
  let key := xmKey n ev.key d
  let k := cacheKey n key
  let p := evPair ev
  let (room, d) := cacheRoom k d
  let c := look d.tab.lrnCache k {}
  let c : LrnCache := if cacheExpired c d then {} else c
  let store (c : LrnCache) (d : Dev) : Dev := if room then cachePut k c d else d
  let finish (c : LrnCache) (d : Dev) : Dev :=
    if !c.valid || later48 ev.time c.t then store { c with t := ev.time, pair := p, valid := true } d
    else if c.moves ≠ 0 then store c d else d
  if c.flapping then (.suppressed, inc Pg.LRN 6 d)
  else
    let loser := c.valid && c.pair != p && (later48 c.t ev.time || (c.t == ev.time && decide (c.pair < p)))
    match xmFind n key d with
    | some (s, e) =>
      if e.static && !mgr then
        (.none_, if entPair e ≠ p then fire Pg.LRN 2 (inc Pg.LRN 5 (lrnLog 2 n (entPair e) p ev.time key d)) else d)
      else if loser then (.loser, inc Pg.LRN 4 (lrnLog 1 n c.pair p ev.time key d))
      else if entPair e = p then (.confirmed, finish c (if e.static then d else xmPut s { e with hit := true } d))
      else if e.static then (.changed, finish c d)
      else
        let d := xmPut s { e with result := learnedResult n p d, learned := true } d
        let d := inc Pg.LRN 3 (lrnLog 0 n (entPair e) p ev.time key d)
        let (c, d) := flapCount n key (entPair e) ev c d
        (.changed, finish c d)
    | none =>
      if loser then (.loser, inc Pg.LRN 4 (lrnLog 1 n c.pair p ev.time key d))
      else
        let e : XmEnt := { tbl := n, wide := xmWide n d, static := false, learned := true, hit := true, result := learnedResult n p d, key := key }
        let (ok, d) := xmInsert { e with hit := false } d
        if ok then (.changed, finish c (inc Pg.LRN 2 d)) else (.none_, fire Pg.LRN 5 (lrnLog 5 n 0 p ev.time key d))
/-- Whether this device is the active manager (R389). -/
def isMgr (d : Dev) : Bool := rget FCT_MGR_STAT.ROLE 0 0 d == 2
/-- Send a LEARN or AGE record to the active manager and to the standby (R384, R389). -/
def sendLearn (rec_ : Nat) (d : Dev) : Dev :=
  if !flag FCT_MGR_STAT.MGR_VALID 0 0 d then d
  else
    let send (x : Nat) (d : Dev) : Dev := if x = devId d then d else inc Pg.FCT 8 (sendCtl (some x) 1 rec_ d)
    let d := send (rget FCT_MGR_STAT.MGR_DEV 0 0 d) d
    if flag FCT_MGR_STAT.STBY_VALID 0 0 d then send (rget FCT_MGR_STAT.STBY_DEV 0 0 d) d else d
/-- Broadcast a DECIDE or REMOVE record (R384). -/
def sendDecide (rec_ : Nat) (d : Dev) : Dev := inc Pg.FCT 9 (sendCtl none 1 rec_ d)
/-- The learning engine takes the first queued event whose table is not locked (R135, R139, R141, R384). `slow` says that the
event took more than 200 cycles. -/
def learnArbitrate (slow : Bool) (d : Dev) : Dev :=
  match d.tab.lrnQ.find? (fun ev => lockHolder .XM_LOCKn ev.tbl d == 0) with
  | none => d
  | some ev =>
    let d := setLrnQ (d.tab.lrnQ.erase ev) d
    let d := if slow then overrun Pg.LRN d else d
    let (r, d) := arbitrate false ev d
    let rec_ (op : Nat) : Nat := learnRec op ev.tbl ev.dev ev.port ev.time ev.key
    if !flag LRN_CFG.CHASSIS 0 0 d then d
    else if isMgr d then (if r = .changed ∨ r = .confirmed then sendDecide (rec_ 1) d else d)
    else if r = .changed then sendLearn (rec_ 0) d else d
/-- A key's flap hold ends, FLAP_HOLD after it began (R140); before that the row does nothing. -/
def flapHoldEnd (n key : Nat) (d : Dev) : Dev :=
  let k := cacheKey n (xmKey n key d)
  match find? d.tab.lrnCache k with
  | some c =>
    if c.flapping ∧ c.flapAt + rget LRN_FLAP.HOLD 0 0 d * 1000000000 ≤ d.mono then cachePut k { c with flapping := false, moves := 0 } d else d
  | none => d
/-- Whether the tables decide in chassis mode that another device owns the entry (R142). -/
def foreignEntry (e : XmEnt) (d : Dev) : Bool := flag LRN_CFG.CHASSIS 0 0 d && entPair e / 256 != devId d
/-- Remove a key from the recent-learn cache. -/
def cacheDrop (k : Nat) (d : Dev) : Dev :=
  let d := onTab (fun t => { t with lrnCache := del t.lrnCache k }) d
  rset LRN_STAT.CACHE 0 0 d.tab.lrnCache.length d
/-- A quarter of AGE_TIME has passed since the scanner's last visit to a place (R142). -/
def ageDue (s tbl : Nat) (d : Dev) : Bool :=
  match find? d.tab.ageAt s with
  | some t => decide (t + rget XM_TBLn_LRN.AGE_TIME 0 tbl d * 250000000 ≤ d.mono)
  | none => true
/-- The aging scanner visits a place, once every AGE_TIME ÷ 4 (R142, R143); before that the row does nothing. -/
def ageVisit (s : Nat) (d : Dev) : Dev :=
  let ent := if 2 ^ 22 ≤ s then find? d.tab.stash (s - 2 ^ 22) else find? d.tab.xm s
  match ent with
  | none => d
  | some e =>
    if !blkEn Pg.LRN d || e.static || !flag XM_TBLn_LRN.AGE_EN 0 e.tbl d || lockHolder .XM_LOCKn e.tbl d != 0 || foreignEntry e d || !ageDue s e.tbl d then d
    else
    let d := onTab (fun t => { t with ageAt := ins t.ageAt s d.mono }) d
    if e.hit then xmPut s { e with hit := false, age := 0 } d
    else if e.age = 3 then
      let d := inc Pg.XM 8 (xmCounts (xmClear s d))
      let d := if flag LRN_CFG.LOG_AGE 0 0 d then lrnLog 4 e.tbl (entPair e) (entPair e) (now48 d) e.key d else d
      let rec_ (op : Nat) : Nat := learnRec op e.tbl (entPair e / 256) (entPair e % 256) (now48 d) e.key
      if !flag LRN_CFG.CHASSIS 0 0 d then d
      else if isMgr d then sendDecide (rec_ 3) (cacheDrop (cacheKey e.tbl e.key) d) else sendLearn (rec_ 2) d
    else xmPut s { e with age := e.age + 1 } d
/-- A write of LRN_CFG. -/
def lrnCfgWrite (img : Nat) (d : Dev) : Dev :=
  if LRN_CFG.ARB_WIN.of img = 0 then errAt Err.BAD_ARG .LRN_CFG 0 0 d else storeFields false .LRN_CFG 0 0 img d
/-- A write of LRN_FLAP: HOLD and WIN are at least 1. -/
def lrnFlapWrite (img : Nat) (d : Dev) : Dev :=
  if LRN_FLAP.HOLD.of img = 0 ∨ LRN_FLAP.WIN.of img = 0 then errAt Err.BAD_ARG .LRN_FLAP 0 0 d else storeFields false .LRN_FLAP 0 0 img d

end Sys2Proof.Machine
end

