-- ==== Sys2Proof/Machine/Search.lean ====
section
/-! DEFINITION. The TCAM and the Burl (06_tcam_burl.md), and the issue of a pass's lookups (R96, R112, R113, R150). -/

namespace Sys2Proof.Machine

/-- Change the TCAM and Burl. -/
def onSrch (f : Search → Search) (d : Dev) : Dev := { d with srch := f d.srch }

/-! TCAM groups (R147 to R150). -/

/-- The binding register of a bank. -/
def grpReg (b : Nat) : Reg := if b = 0 then .TCM_GRPAn else .TCM_GRPBn
/-- A group binding. -/
structure Group where
  valid : Bool
  egress : Bool
  owner : Nat
  base : Nat
  depth : Nat
  repl : Nat
  deriving DecidableEq, Repr
/-- A binding from its image. -/
def Group.ofImg (img : Nat) : Group :=
  { valid := bit img 31, egress := bit img 30, owner := bits img 27 12, base := bits img 11 8, depth := bits img 7 4 + 1, repl := bits img 3 0 + 1 }
/-- Group n of bank b. -/
def groupOf (b n : Nat) (d : Dev) : Group := Group.ofImg (regImg (grpReg b) 0 n d)
/-- First slice beyond a group. -/
def Group.top (g : Group) : Nat := g.base + g.depth * g.repl
/-- Whether an owner holds every slice of a group. -/
def ownsSlices (id : Nat) (g : Group) (d : Dev) : Bool :=
  (List.range (g.depth * g.repl)).all fun k => id != 0 && rget TCM_SLICEk_OWNER.OWNER 0 (g.base + k) d == id
/-- A write of TCM_GRPAn or TCM_GRPBn (R147, R50). [DESIGN CHOICE: log 37] -/
def groupWrite (req : Requester) (b n img : Nat) (d : Dev) : Dev :=
  let r := grpReg b
  let g := Group.ofImg img
  let overlap := (List.range 16).any fun k =>
    let o := groupOf b k d
    k != n && o.valid && decide (g.base < o.top ∧ o.base < g.top)
  if bankBusy b d then errAt Err.EPOCH_BUSY r 0 n d
  else if g.valid && (decide (16 < g.top) || overlap || idRefused req g.owner) then errAt Err.BAD_ARG r 0 n d
  else if g.valid && !ownsSlices g.owner g d then errAt Err.NOT_OWNER r 0 n d
  else storeFields false r 0 n img d
/-- The cell number of index i in replica r of a group. -/
def tcamCell (g : Group) (r i : Nat) : Nat := (g.base + r * g.depth + i / 8192) * 8192 + i % 8192
/-- Whether an entry matches a key (R151). -/
def TcamEnt.hit (e : TcamEnt) (key : Nat) : Bool := e.valid && ((e.key ^^^ key) &&& e.mask) == 0
/-- The matching indices of a group in one replica, in rising order, with their entries (R153). -/
def tcamMatches (g : Group) (r key : Nat) (d : Dev) : List (Nat × TcamEnt) :=
  let lo := (g.base + r * g.depth) * 8192
  (d.srch.tcam.filter fun x => decide (lo ≤ x.1 ∧ x.1 < lo + g.depth * 8192) && x.2.hit key).map fun x => (x.1 - lo, x.2)
/-- Search group n of bank b on its next replica (R148): the winner, whether several matched, and the device after. -/
def tcamSearch (b n key : Nat) (g : Group) (d : Dev) : (Option (Nat × TcamEnt) × Bool) × Dev :=
  let k := b * 16 + n
  let r := look d.srch.tcamNext k 0 % g.repl
  let m := tcamMatches g r key d
  let multi := decide (1 < m.length)
  let d := onSrch (fun s => { s with tcamNext := put s.tcamNext k 0 ((r + 1) % g.repl) }) d
  let d := if multi then inc Pg.TCM 3 (incAt Pg.TCM (0x1100 + 8 * n) 1 d) else d
  ((m.head?, multi), if m.isEmpty then d else inc Pg.TCM 2 d)
/-- TCAM_IDX of a group-local index (R153). -/
def tcamIdx (g : Group) (i : Nat) : Nat := (g.base + i / 8192) * 8192 + i % 8192
/-- Write an entry and its shadow in every replica; KEY bits that are not compared are stored as 0 (R148, R151, R155). -/
def tcamStore (g : Group) (i : Nat) (e : TcamEnt) (d : Dev) : Dev :=
  let e := { e with key := e.key &&& e.mask }
  (List.range g.repl).foldl (fun s r =>
    let c := tcamCell g r i
    onSrch (fun x => { x with tcam := put x.tcam c {} e, shadow := put x.shadow c {} e, shadowBad := x.shadowBad.filter (· != c) }) s) d
/-- A TCAM command (R154, R156): the code that refuses it, or 0. -/
def tcamCommand (req : Requester) (img : Nat) (d : Dev) : Nat × Dev :=
  let op := TCM_CMD.OP.of img
  let b := TCM_CMD.BANK.of img
  let n := TCM_CMD.GROUP.of img
  let g := groupOf b n d
  let i := TCM_CMD.INDEX.of img
  let id := TCM_CMD.OWNER_ID.of img
  let act := TCM_CMD.ACTION.of img
  let e : TcamEnt := { valid := true, key := TCM_CMD.KEY.of img, mask := TCM_CMD.MASK.of img, action := act }
  if 3 < op ∨ !g.valid ∨ g.depth * 8192 ≤ i then (Err.BAD_ARG, d)
  else if idRefused req id then (Err.BAD_ARG, d)
  else if !ownsSlices id g d then (Err.NOT_OWNER, d)
  else match op with
    | 0 => if g.egress && decide (3 ≤ act / 4096) then (Err.BAD_ARG, d) else (0, tcamStore g i e d)
    | 1 =>
      let cur := look d.srch.tcam (tcamCell g 0 i) {}
      (0, (List.range g.repl).foldl (fun s r =>
        let c := tcamCell g r i
        onSrch (fun x => { x with tcam := put x.tcam c {} { look x.tcam c cur with valid := false }, shadow := put x.shadow c {} { look x.shadow c cur with valid := false } }) s) d)
    | 2 =>
      let c := look d.srch.tcam (tcamCell g 0 i) {}
      (0, loadImg .TCM_RD 0 0 (b2n c.valid * 2 ^ 767 + c.action * 2 ^ 704 + c.key * 2 ^ 320 + c.mask) d)
    | _ =>
      let ((w, multi), d) := tcamSearch b n e.key g d
      match w with
      | some (j, c) => (0, loadImg .TCM_RD 0 0 (2 ^ 767 + b2n multi * 2 ^ 766 + tcamIdx g j * 2 ^ 720 + c.action * 2 ^ 704 + c.key * 2 ^ 320 + c.mask) d)
      | none => (0, loadImg .TCM_RD 0 0 0 d)
/-- A write of TCM_CMD. [DESIGN CHOICE: log 5, 37] -/
def tcmCmdWrite (req : Requester) (img : Nat) (d : Dev) : Dev :=
  let d := storeFields false .TCM_CMD 0 0 img d
  if !TCM_CMD.GO.on img then d
  else let (code, d) := tcamCommand req img d; tabDone Pg.TCM .TCM_CMD code false d
/-- The scrubber visits an entry of a slice (R157, R158). `shadowLost` says that it found the shadow word uncorrectable. [DESIGN CHOICE: log 38] -/
def tcamScrub (slice entry : Nat) (shadowLost : Bool) (d : Dev) : Dev :=
  let c := slice * 8192 + entry
  let cell := look d.srch.tcam c {}
  if shadowLost then
    let d := onSrch (fun x => { x with shadow := put x.shadow c {} cell }) (inc Pg.TCM 6 d)
    fire Pg.TCM 2 (loadImg .TCM_SHADOW_ADDR 0 0 (2 ^ 31 + c) d)
  else if look d.srch.shadow c {} = cell then d
  else
    let d := if flag TCM_SCRUB_CFG.REPAIR_EN 0 0 d then onSrch (fun x => { x with tcam := put x.tcam c {} (look x.shadow c {}) }) d else d
    fire Pg.TCM 1 (inc Pg.TCM 5 d)
/-- A write of TCM_INJECT: GO flips one bit of a TCAM cell and leaves the shadow. -/
def tcmInjectWrite (img : Nat) (d : Dev) : Dev :=
  let n := TCM_INJECT.BIT.of img
  if !expertOf Pg.TCM d then errAt Err.EXPERT_LOCKED .TCM_INJECT 0 0 d
  else if 319 < n then errAt Err.BAD_ARG .TCM_INJECT 0 0 d
  else
    let d := storeFields true .TCM_INJECT 0 0 img d
    if !TCM_INJECT.GO.on img then d
    else
      let c := TCM_INJECT.SLICE.of img * 8192 + TCM_INJECT.ENTRY.of img
      let e := look d.srch.tcam c {}
      let e := if TCM_INJECT.PLANE.on img then { e with mask := e.mask ^^^ 2 ^ n } else { e with key := e.key ^^^ 2 ^ n }
      onSrch (fun x => { x with tcam := put x.tcam c {} e }) d

/-! The Burl (R160 to R168). -/

/-- Replica r. -/
def repl (r : Nat) (d : Dev) : Replica := look d.srch.replicas r {}
/-- Set replica r. -/
def setRepl (r : Nat) (x : Replica) (d : Dev) : Dev := onSrch (fun s => { s with replicas := put s.replicas r {} x }) d
/-- STATE and BANK of a replica. -/
def replState (r : Nat) (d : Dev) : Nat := rget BRL_REPLr.STATE 0 r d
def replBank (r : Nat) (d : Dev) : Nat := rget BRL_REPLr.BANK 0 r d
/-- The verified replicas of a bank. -/
def verified (b : Nat) (d : Dev) : List Nat := (List.range 24).filter fun r => replState r d == 2 && replBank r d == b
/-- A bank's header. -/
def bankHdr (b : Nat) (d : Dev) : Option Bytes := find? d.srch.hdrs b
/-- Keep the bank image registers as the replicas and headers are; a bank whose last verified replica has left holds no header. -/
def burlStat (d : Dev) : Dev :=
  let one (b : Nat) (st cr : Reg) (d : Dev) : Dev :=
    let n := (verified b d).length
    let d := if n = 0 then onSrch (fun s => { s with hdrs := del s.hdrs b }) d else d
    let h := bankHdr b d
    loadImg cr 0 0 (match h with | some x => beAt x 0x14 4 | none => 0) (loadImg st 0 0 (b2n h.isSome * 2 ^ 31 + n) d)
  one 1 .BRL_BANKB_STAT .BRL_BANKB_CRC (one 0 .BRL_BANKA_STAT .BRL_BANKA_CRC d)
/-- Set a replica's state and bank. -/
def setReplState (r st b : Nat) (d : Dev) : Dev := rset BRL_REPLr.STATE 0 r st (rset BRL_REPLr.BANK 0 r b d)
/-- A 32-bit transition word of a replica. -/
def transWord (x : Replica) (w : Nat) : Nat := let v := look x.mem (w / 2) 0; if w % 2 = 0 then v / 2 ^ 32 else v % 2 ^ 32
/-- Gather the bits of x at the positions where m holds 1 (R163). -/
def pickBits (x m : Nat) : Nat :=
  (List.range 16).foldl (fun r k => let b := 15 - k; if bit m b then r * 2 + b2n (bit x b) else r) 0
/-- The class of a byte value in an image (R161). -/
def burlClass (h : Bytes) (v : Nat) : Nat := let b := byteAt h (0x20 + v / 2); if v % 2 = 0 then b / 16 else b % 16
/-- A word that a walker finds uncorrectable: another verified replica of the bank repairs it, or the scan stops (R168). [DESIGN CHOICE: log 38] -/
def burlReread (r w : Nat) (d : Dev) : Bool × Dev :=
  let b := replBank r d
  match (verified b d).find? (fun q => q != r && !(repl q d).bad.contains w) with
  | some q =>
    let x := repl r d
    (true, inc Pg.BRL 3 (setRepl r { x with mem := put x.mem w 0 (look (repl q d).mem w 0), bad := x.bad.filter (· != w) } d))
  | none =>
    let x := repl r d
    let d := setRepl r { x with bad := if x.bad.contains w then x.bad else w :: x.bad } (inc Pg.BRL 4 d)
    (false, eccLatch .BRL_ECC_ADDR 0 1 (r * 2 ^ 16 + w) d)
/-- Where a scan stops. -/
inductive BurlEnd where
  | whole | image | ecc
  deriving DecidableEq, Repr
/-- The scan of R163 over symbols of 4 classes: t is the transition word reached. [DESIGN CHOICE: log 39] -/
def burlScan (h : Bytes) (r len : Nat) : List (List Nat) → Nat → Nat → Dev → Nat × BurlEnd × Dev
  | [], _, set, d => (set, .whole, d)
  | sym :: rest, t, set, d =>
    let x := sym.foldl (fun a c => a * 16 + c) 0
    let sel := beAt h (0x0A0 + 2 * bits t 23 16) 2
    let w := 2 * bits t 15 0 + pickBits x sel
    if len / 4 ≤ w then (set, .image, d)
    else
      let (ok, d) := if (repl r d).bad.contains (w / 2) then burlReread r (w / 2) d else (true, d)
      if !ok then (set, .ecc, d)
      else
        let t' := transWord (repl r d) w
        burlScan h r len rest t' (set ||| beAt h (0x2A0 + 2 * bits t' 31 24) 2) d
/-- Classes of the window, 4 to a symbol, 15 past its end (R163). -/
def burlSyms (h : Bytes) : Nat → Bytes → List (List Nat)
  | 0, _ => []
  | n + 1, bs =>
    if bs.isEmpty then []
    else ((List.range 4).map fun j => match bs[j]? with | some v => burlClass h v.toNat | none => 15) :: burlSyms h n (bs.drop 4)
/-- Whether an image passes VERIFY's checks (R166). [DEDUCED: log 40] -/
def imageOk (x : Replica) : Bool :=
  let h := x.hdr
  let len := beAt h 8 4
  let body := (List.range (len / 8)).flatMap fun k => beBytes 8 (look x.mem k 0)
  let zeroed := h.take 0x14 ++ List.replicate 4 0 ++ h.drop 0x18
  beAt h 0 4 == 0x4255524C && beAt h 4 2 == 1 && len % 8 == 0 && decide (8 ≤ len ∧ len ≤ 524288) &&
    ((List.range 256).all fun v => decide (burlClass h v ≤ 14)) &&
    ((List.range 256).all fun s => decide ((bitsOf 16 (beAt h (0x0A0 + 2 * s) 2)).length ≤ 8)) &&
    beAt h 0x2A0 2 == 0 && crc32c (zeroed ++ body) == beAt h 0x14 4
/-- Whether taking replicas from a bank would leave it, current or draining, with none verified. -/
def burlStrands (gone : List Nat) (d : Dev) : Bool :=
  (List.range 2).any fun b =>
    let draining := rget EPC_STAT.STATE 0 0 d == 2
    (b == curBank d || draining) && !(verified b d).isEmpty && (verified b d).all fun r => gone.contains r
/-- Whether a bank is the target of an ARMED or PREPARED switch: its replicas are then as it will use them, and no command or load
changes them (R226). Of a current or draining bank R165 and R166 say what is refused. [DEDUCED: log 121] -/
def burlArmed (b : Nat) (d : Dev) : Bool :=
  let s := rget EPC_STAT.STATE 0 0 d
  b != curBank d && (s == 1 || s == 3)
/-- ASSIGN (R165). -/
def brlAssign (b : Nat) (mask : List Nat) (d : Dev) : Nat × Dev :=
  let leave := mask.filter fun r => replState r d == 2 && replBank r d != b
  if mask.any fun r => replState r d == 1 || replState r d == 3 then (Err.BAD_ARG, d)
  else if burlArmed b d || mask.any fun r => burlArmed (replBank r d) d then (Err.EPOCH_BUSY, d)
  else if burlStrands leave d then (Err.EPOCH_BUSY, d)
  else (0, burlStat (mask.foldl (fun s r =>
    if replState r s = 0 then setReplState r 0 b s
    else if replBank r s = b then s
    else setReplState r 3 (replBank r s) (setRepl r { repl r s with retireBank := b, retireClear := false } s)) d))
/-- VERIFY of one replica (R166). [DEDUCED: log 40] -/
def brlVerify (mask : List Nat) (d : Dev) : Nat × Dev :=
  match mask with
  | [r] =>
    let x := repl r d
    let b := replBank r d
    if replState r d ≠ 1 then (Err.BAD_ARG, d)
    else if burlArmed b d then (Err.EPOCH_BUSY, d)
    else if !imageOk x then (0x20, burlStat (setReplState r 0 b d))
    else if !(verified b d).isEmpty && decide ((bankHdr b d).map (fun h => beAt h 0x14 4) ≠ some (beAt x.hdr 0x14 4)) then (0x21, d)
    else
      let d := if (bankHdr b d).isNone then onSrch (fun s => { s with hdrs := ins s.hdrs b x.hdr }) d else d
      (0, burlStat (setReplState r 2 b d))
  | _ => (Err.BAD_ARG, d)
/-- CLONE (R167). -/
def brlClone (src : Nat) (mask : List Nat) (d : Dev) : Nat × Dev :=
  if 23 < src ∨ replState src d ≠ 2 ∨ mask.any (fun r => replState r d != 0) then (Err.BAD_ARG, d)
  else if burlArmed (replBank src d) d || mask.any fun r => burlArmed (replBank r d) d then (Err.EPOCH_BUSY, d)
  else (0, burlStat (mask.foldl (fun s r => setReplState r 2 (replBank src s) (setRepl r { mem := (repl src s).mem, hdr := (repl src s).hdr, bad := (repl src s).bad } s)) d))
/-- CLEAR (R165). -/
def brlClear (mask : List Nat) (d : Dev) : Nat × Dev :=
  if (mask.any fun r => burlArmed (replBank r d) d) || burlStrands (mask.filter fun r => replState r d == 2) d then (Err.EPOCH_BUSY, d)
  else (0, burlStat (mask.foldl (fun s r =>
    match replState r s with
    | 2 => setReplState r 3 (replBank r s) (setRepl r { repl r s with retireBank := replBank r s, retireClear := true } s)
    | 3 => setRepl r { repl r s with retireClear := true } s
    | _ => setReplState r 0 (replBank r s) (setRepl r {} s)) d))
/-- A write of BRL_CMD. [DESIGN CHOICE: log 5] -/
def brlCmdWrite (img : Nat) (d : Dev) : Dev :=
  let d := storeFields false .BRL_CMD 0 0 img d
  let mask := bitsOf 24 (BRL_CMD.MASK.of img)
  if !BRL_CMD.GO.on img then d
  else
    let (code, d) : Nat × Dev := match BRL_CMD.OP.of img with
      | 0 => brlAssign (BRL_CMD.BANK.of img) mask d
      | 1 => brlVerify mask d
      | 2 => brlClone (BRL_CMD.SRC.of img) mask d
      | 3 => brlClear mask d
      | _ => (Err.BAD_ARG, d)
    tabDone Pg.BRL .BRL_CMD code false d
/-- The last walk on a RETIRING replica ends (R165). -/
def replicaRetired (r : Nat) (d : Dev) : Dev :=
  if replState r d = 3 then
    let x := repl r d
    burlStat (setReplState r 0 x.retireBank (setRepl r (if x.retireClear then {} else { x with retireBank := 0 }) d))
  else d
/-- The scrubber visits a word of a verified replica (R167, R168). [DESIGN CHOICE: log 38] -/
def burlScrub (r w : Nat) (seen : EccSeen) (d : Dev) : Dev :=
  if replState r d ≠ 2 then d
  else match seen with
    | .clean => d
    | .corrected => inc Pg.BRL 2 d
    | .uncorrectable => (burlReread r w d).2
/-- Table DMA writes image bytes from an offset (R165, R430): an EMPTY replica becomes LOADING; the header buffer takes the
first 2 KiB and the memory the rest, byte 0 of a word most significant. [DEDUCED: log 40] -/
def burlLoad (r ofs : Nat) (bs : Bytes) (d : Dev) : Dev :=
  let x := repl r d
  let hdr := x.hdr ++ List.replicate (2048 - x.hdr.length) 0
  let head := bs.take (2048 - ofs)
  let hdr := head.zipIdx.foldl (fun h b => h.set (ofs + b.2) b.1) hdr
  let body := bs.drop (2048 - ofs)
  let first := ofs - 2048
  let mem := body.zipIdx.foldl (fun (m : Tbl Nat) b =>
    let a := first + b.2
    let s := 8 * (7 - a % 8)
    let old := look m (a / 8) 0
    put m (a / 8) 0 (old - bits old (s + 7) s * 2 ^ s + b.1.toNat * 2 ^ s)) x.mem
  let d := setRepl r { x with mem := mem, hdr := hdr, bad := x.bad.filter fun w => decide (w < first / 8 ∨ (first + body.length) / 8 ≤ w) } d
  if replState r d = 0 then setReplState r 1 (replBank r d) d else d
/-- A write of BRL_MEM_ADDR. -/
def brlMemAddrWrite (img : Nat) (d : Dev) : Dev :=
  if !expertOf Pg.BRL d then errAt Err.EXPERT_LOCKED .BRL_MEM_ADDR 0 0 d
  else if 23 < BRL_MEM_ADDR.REPL.of img then errAt Err.BAD_ARG .BRL_MEM_ADDR 0 0 d
  else storeFields true .BRL_MEM_ADDR 0 0 img d
/-- A read of BRL_MEM_DATA fetches the addressed word. -/
def brlMemRead (d : Dev) : Dev :=
  rset BRL_MEM_DATA.DATA 0 0 (look (repl (rget BRL_MEM_ADDR.REPL 0 0 d) d).mem (rget BRL_MEM_ADDR.WORD 0 0 d) 0) d

/-! The lookups of a pass (R96, R112, R113, R149, R150). -/

/-- The LPM lookup of a pass. -/
def passLpm (t : Nat) (key : Option Nat) (p : Pass) (d : Dev) : Pass × Dev :=
  let miss := rget LPM_MISS_NHt.NH 0 t d
  match key with
  | some k =>
    if !blkEn Pg.LPM d then (p.px PX.LPM_NH miss, d)
    else
      let r := lpmLookup t k d
      let d := inc Pg.LPM t d
      let p := p.px PX.LPM_NH r.2.1
      match r.2.2 with
      | some a => (p.fault 0x20, lpmEcc a (draw d).2)
      | none => (p, if r.1.isNone then inc Pg.LPM (2 + t) d else d)
  | none => (p.px PX.LPM_NH miss, d)
/-- One XM lookup of a pass, slot i in profile order, with automatic learning on a first pass (R112, R125, R137, R142). -/
def passXm (i : Nat) (x : XmLook) (p : Pass) (d : Dev) : Pass × Dev :=
  if !x.issued || !blkEn Pg.XM d || !flag XM_TBLn_CFG.EN 0 x.tbl d then (p.px (PX.XM_RES i) 0, d)
  else
    let d := inc Pg.XM 0 d
    let port := PX.ING_PORT.get p.pcx
    let damaged := xmFail x.tbl x.key d
    let found := if damaged.isSome then none else xmFind x.tbl x.key d
    let p := if damaged.isSome then p.fault 0x20 else p
    let d := match damaged with | some s => xmEcc s d | none => d
    let mask := decide (port < 128) && bit (rget LRN_PORT_MASKk.MASK 0 (port / 32) d) (port % 32)
    let auto := i == 0 && PX.PASS.get p.pcx == 0 && flag XM_TBLn_LRN.LEARN 0 x.tbl d && mask
    let ev : LrnEv := { tbl := x.tbl, key := xmKey x.tbl x.key d, dev := devId d, port := port, time := PX.PKT_TIME.get p.pcx }
    match found with
    | some (s, e) =>
      let d := inc Pg.XM 1 d
      let d := if i = 0 ∨ !flag XM_TBLn_LRN.HIT_FIRST 0 x.tbl d then xmPut s { e with hit := true } d else d
      let d := if auto && entPair e != evPair ev then learnRaise ev d else d
      (p.px (PX.XM_RES i) (2 ^ 31 + e.result), d)
    | none => (p.px (PX.XM_RES i) 0, if auto then learnRaise ev d else d)
/-- The TCAM lookup of a pass. -/
def passTcam (n : Nat) (key : Option Nat) (p : Pass) (d : Dev) : Pass × Dev :=
  let g := groupOf p.bank n d
  let p := (p.px PX.TCAM_VALID 0).px PX.TCAM_IDX 0
  match key with
  | none => (p, d)
  | some k =>
    if !blkEn Pg.TCM d then (p, d)
    else if !g.valid || g.egress then (p.fault 0x30, fire Pg.TCM 3 (inc Pg.TCM 7 d))
    else
      let ((w, _), d) := tcamSearch p.bank n k g (inc Pg.TCM 0 d)
      match w with
      | some (j, _) => ((p.px PX.TCAM_VALID 1).px PX.TCAM_IDX (tcamIdx g j), d)
      | none => (p, d)
/-- The Burl scan of a pass (R90, R163, R164): no scan on a deep-parse port, and none without a verified replica. `corr` is on how
many of its reads a single-bit error was met, corrected and counted (R168). [DESIGN CHOICE: log 119] -/
def passBurl (corr : Nat) (p : Pass) (d : Dev) : Pass × Dev :=
  let b := p.bank
  let p := p.px PX.BURL_SET 0
  if p.deep || !blkEn Pg.BRL d then (p, d)
  else match bankHdr b d, verified b d with
    | some h, r0 :: rs =>
      let next := look d.srch.burlNext b 0
      let r := (((r0 :: rs).find? fun r => decide (next ≤ r)).getD r0)
      let d := inc Pg.BRL 0 (onSrch (fun s => { s with burlNext := put s.burlNext b 0 ((r + 1) % 24) }) d)
      let win := (p.bytes.drop p.pstart).take 64
      let len := beAt h 8 4
      let d := incBy Pg.BRL 2 (min corr (burlSyms h 16 win).length) d
      let (set, e, d) := burlScan h r len (burlSyms h 16 win) (beAt h 0x0C 4) 0 d
      let d := if set = 0 then d else inc Pg.BRL 1 d
      let p := p.px PX.BURL_SET set
      match e with
      | .whole => (p, d)
      | .image => (p.fault 0x33, fire Pg.BRL 2 (inc Pg.BRL 5 d))
      | .ecc => (p.fault 0x32, d)
    | _, _ => (p, d)
/-- One lookup slot of a pass; i counts the XM slots met. -/
def passSlot (corr k : Nat) (st : Nat × Pass × Dev) : Nat × Pass × Dev :=
  let (i, p, d) := st
  let arg := rget (HDS_PROF.ARG p.bank k) 0 p.prof d
  match rget (HDS_PROF.KIND p.bank k) 0 p.prof d with
  | 1 => let (p, d) := passLpm (arg % 2) (p.keys.getD k none) p d; (i, p, d)
  | 2 => match p.xm[i]? with
    | some x => let (p, d) := passXm i x p d; (i + 1, p, d)
    | none => (i + 1, p, d)
  | 3 => let (p, d) := passTcam (arg % 16) (p.keys.getD k none) p d; (i, p, d)
  | 4 => let (p, d) := passBurl corr p d; (i, p, d)
  | _ => (i, p, d)
/-- The ARG of a profile's NHT slot, if it has one. -/
def nhtSlot (b prof : Nat) (d : Dev) : Option Nat :=
  ((List.range 6).find? fun k => rget (HDS_PROF.KIND b k) 0 prof d == 5).map fun k => rget (HDS_PROF.ARG b k) 0 prof d % 4
/-- The lookups of pass n issue together (R96, R150). `tcamWait` and `burlWait` say that the pass had waited in its lane for a
replica of a TCAM group or of the Burl; each such pass counts one overrun. [DESIGN CHOICE: log 39] -/
def lookupIssue (n : Nat) (tcamWait burlWait : Bool) (corr : Nat) (d : Dev) : Dev :=
  match getPass n d with
  | some p =>
    if p.egress || p.stage != .parsed then d
    else
      let d := if tcamWait then overrun Pg.TCM (inc Pg.TCM 4 d) else d
      let d := if burlWait then overrun Pg.BRL (inc Pg.BRL 6 d) else d
      let p := (p.px PX.LPM_NH 0).px (PX.XM_RES 0) 0
      let p := ((p.px (PX.XM_RES 1) 0).px PX.TCAM_VALID 0).px PX.TCAM_IDX 0
      let p := p.px PX.BURL_SET 0
      let (_, p, d) := (List.range 6).foldl (fun st k => passSlot corr k st) (0, p, d)
      setPass n { p with stage := if (nhtSlot p.bank p.prof d).isSome then .nht else .ready } d
  | none => d
/-- The source result has returned and the NHT lookup of pass n resolves (R112, R129). A source that hit nothing leaves the
source field and QID as they are; the LPM's miss value is a source as any other. -/
def nhtLookup (n : Nat) (d : Dev) : Dev :=
  match getPass n d with
  | some p =>
    if p.egress || p.stage != .nht then d
    else
      let done (p : Pass) (d : Dev) : Dev := setPass n { p with stage := .ready } d
      match nhtSlot p.bank p.prof d with
      | none => done p d
      | some a =>
        let named (kind i : Nat) : Bool := decide (i < ((List.range 6).filter fun k => rget (HDS_PROF.KIND p.bank k) 0 p.prof d == kind).length)
        let src : Option Nat :=
          if a = 0 then (if named 1 0 then some (PX.LPM_NH.get p.pcx) else none)
          else let v := (PX.XM_RES (a - 1)).get p.pcx; if bit v 31 then some (v % 2 ^ 21) else none
        match src with
        | none => done p d
        | some x =>
          if !blkEn Pg.NHT d then done p d
          else
            let d := inc Pg.NHT 0 d
            let d := if bits (nhtAt 0 x d) 31 30 = 2 then inc Pg.NHT 1 d else d
            match nhtResolve x (PX.HASH.get p.pcx) (PX.CLASS.get p.pcx) d with
            | .ok y qid =>
              let p := p.px PX.QID qid
              let p := if a = 0 then p.px PX.LPM_NH y else p.px (PX.XM_RES (a - 1)) ((PX.XM_RES (a - 1)).get p.pcx / 2 ^ 21 * 2 ^ 21 + y)
              done p d
            | .mark code =>
              done (p.fault code) (if code = 0x21 then inc Pg.NHT 2 d else inc Pg.NHT 3 d)
            | .ecc k => done (p.fault 0x20) (nhtEcc k d)
  | none => d

end Sys2Proof.Machine
end

