-- ==== Sys2Proof/Machine/Engine.lean ====
section
/-! DEFINITION. The action engines (07_action_engines.md): dispatch, the instruction set, budget, program memory and faults.
What becomes of a released verdict stands in Tailstock.lean. -/

namespace Sys2Proof.Machine

/-- Page of cluster c. -/
def engPage (c : Nat) : Nat := Pg.ENG + c
/-- Cluster c. -/
def cluster (c : Nat) (d : Dev) : Cluster := look d.disp.clusters c {}
/-- Set cluster c. -/
def setCluster (c : Nat) (x : Cluster) (d : Dev) : Dev := { d with disp := { d.disp with clusters := put d.disp.clusters c {} x } }
/-- Bundle b of a half (R205). -/
def bundleAt (c half b : Nat) (d : Dev) : Nat := look (cluster c d).imem (half * 2048 + b) 0

/-! Register moves of one slot (R192 to R194). -/

/-- 64-bit wrap. -/
def w64 (x : Nat) : Nat := x % 2 ^ 64
/-- Sign extension of a 16-bit immediate to 64 bits. -/
def sext16 (x : Nat) : Nat := if x < 2 ^ 15 then x else x + (2 ^ 64 - 2 ^ 16)
/-- Arithmetic right shift of 64 bits. -/
def sar64 (x n : Nat) : Nat := (x + (if 2 ^ 63 ≤ x then (2 ^ n - 1) * 2 ^ 64 else 0)) / 2 ^ n % 2 ^ 64
/-- Rotate right of 64 bits. -/
def rotr64 (x n : Nat) : Nat := w64 (x / 2 ^ n + x * 2 ^ (64 - n))
/-- Leading zero bits of 64. -/
def clz64 (x : Nat) : Nat := match (List.range 64).find? (fun k => x.testBit (63 - k)) with | some k => k | none => 64
/-- Engine CRC: four bytes of rb, most significant first, into the state ra (R193). -/
def crcStep (s w : Nat) : Nat := crcByte (crcByte (crcByte (crcByte s (w / 2 ^ 24 % 256)) (w / 2 ^ 16 % 256)) (w / 256 % 256)) (w % 256)
/-- CSUM of R193. -/
def csum16 (a b : Nat) : Nat := let s := a % 65536 + b % 65536; s % 65536 + s / 65536

/-- What a slot writes and reads: none where it is illegal. -/
structure SlotOut where
  wr : Option (Nat × Nat) := none    -- register and value
  uses : List Nat := []              -- registers read or written, for R190
  deriving DecidableEq, Repr

/-- The R-form operations on two registers (R193). -/
def aluRR (op a b : Nat) : Option Nat :=
  match op with
  | 0x01 => some (w64 (a + b))
  | 0x02 => some (w64 (a + 2 ^ 64 - b))
  | 0x03 => some (a &&& b)
  | 0x04 => some (a ||| b)
  | 0x05 => some (a ^^^ b)
  | 0x06 => some (clrBits a b)
  | 0x07 => some (w64 (a * 2 ^ (b % 64)))
  | 0x08 => some (a / 2 ^ (b % 64))
  | 0x09 => some (sar64 a (b % 64))
  | 0x0A => some (rotr64 a (b % 64))
  | 0x0B => some (min a b)
  | 0x0C => some (max a b)
  | 0x0D => some (a % 65536 * (b % 65536))
  | 0x10 => some (b2n (a == b))
  | 0x11 => some (b2n (a != b))
  | 0x12 => some (b2n (decide (a < b)))
  | 0x13 => some (b2n (decide (a ≤ b)))
  | 0x15 => some (csum16 a b)
  | 0x16 => some (crcStep (a % 2 ^ 32) (b % 2 ^ 32))
  | _ => none
/-- The R-form operations on one register. -/
def aluR1 (op a : Nat) : Option Nat :=
  match op with
  | 0x0E => some (bitsOf 64 a).length
  | 0x0F => some (clz64 a)
  | _ => none
/-- The shifts by SH, 0–63 in 6 bits. -/
def aluSh (op a sh : Nat) : Option Nat :=
  match op with
  | 0x17 => some (w64 (a * 2 ^ sh))
  | 0x18 => some (a / 2 ^ sh)
  | 0x19 => some (sar64 a sh)
  | 0x1A => some (rotr64 a sh)
  | _ => none
/-- The I-form operations (R193). -/
def aluImm (op a imm : Nat) : Option Nat :=
  match op with
  | 0x20 => some (w64 (a + sext16 imm))
  | 0x21 => some (a &&& imm)
  | 0x22 => some (a ||| imm)
  | 0x23 => some (a ^^^ imm)
  | 0x24 => some (b2n (a == imm))
  | 0x25 => some (b2n (decide (a < imm)))
  | _ => none

/-- One A slot (R192, R193): none where it is illegal. -/
def aSlot (w : Nat) (g : Nat → Nat) : Option SlotOut :=
  let op := bits w 31 26
  let rd := bits w 25 21
  let ra := bits w 20 16
  let rb := bits w 15 11
  let rc := bits w 10 6
  let sh := bits w 5 0
  let imm := bits w 15 0
  if w = 0 then some {}
  else if op = 0x14 then (if sh = 0 then some { wr := some (rd, if g rc ≠ 0 then g ra else g rb), uses := [rd, ra, rb, rc] } else none)
  else match aluRR op (g ra) (g rb) with
    | some v => if rc = 0 ∧ sh = 0 then some { wr := some (rd, v), uses := [rd, ra, rb] } else none
    | none => match aluR1 op (g ra) with
      | some v => if imm = 0 then some { wr := some (rd, v), uses := [rd, ra] } else none
      | none => match aluSh op (g ra) sh with
        | some v => if rb = 0 ∧ rc = 0 then some { wr := some (rd, v), uses := [rd, ra] } else none
        | none => match aluImm op (g ra) imm with
          | some v => some { wr := some (rd, v), uses := [rd, ra] }
          | none =>
            let pos := bits w 15 10
            let len := bits w 9 4
            match op with
            | 0x26 => if ra ≤ 3 then some { wr := some (rd, imm * 2 ^ (16 * ra)), uses := [rd] } else none
            | 0x27 => if ra ≤ 3 then some { wr := some (rd, Span.set (16 * ra + 15, 16 * ra) imm (g rd)), uses := [rd] } else none
            | 0x30 => if pos + len ≤ 63 ∧ bits w 3 0 = 0 then some { wr := some (rd, g ra / 2 ^ pos % 2 ^ (len + 1)), uses := [rd, ra] } else none
            | 0x31 => if pos + len ≤ 63 ∧ bits w 3 0 = 0 then some { wr := some (rd, Span.set (pos + len, pos) (g ra) (g rd)), uses := [rd, ra] } else none
            | _ => none

/-! The M slot (R194). -/

/-- An M-slot operation. -/
inductive MOp where
  | nop
  | ldh (rt a n : Nat)
  | sth (rt a n : Nat)
  | ldp (rt a n : Nat)
  | stp (rt a n : Nat)
  | lds (rt a : Nat)
  | sts (rt a : Nat)
  | atadd (rt a : Nat)
  | lde (rt a n : Nat)
  | setw (hend : Bool) (a : Nat)
  | getw (rt k : Nat)
  deriving DecidableEq, Repr

/-- Decode an M slot with its address: none where it is illegal. The second part are the registers it names. [DEDUCED: log 42] -/
def mSlot (w : Nat) (egress : Bool) (g : Nat → Nat) : Option (MOp × List Nat) :=
  let op := bits w 31 27
  let sz := bits w 26 25
  let rt := bits w 24 20
  let ra := bits w 19 15
  let sum := g ra + bits w 14 0
  let a := sum % 65536
  let s := sum % 32768
  let n := 2 ^ sz
  if w = 0 then some (.nop, [])
  else match op with
    | 0x01 => some (.ldh rt a n, [rt, ra])
    | 0x02 => some (.sth rt a n, [rt, ra])
    | 0x03 => some (.ldp rt a n, [rt, ra])
    | 0x04 => some (.stp rt a n, [rt, ra])
    | 0x05 => if sz = 3 then some (.lds rt s, [rt, ra]) else none
    | 0x06 => if sz = 3 then some (.sts rt s, [rt, ra]) else none
    | 0x07 => if sz = 3 then some (.atadd rt s, [rt, ra]) else none
    | 0x08 => if egress then some (.lde rt a n, [rt, ra]) else none
    | 0x09 => if sz ≤ 1 ∧ rt = 0 then some (.setw (sz == 1) a, [ra]) else none
    | 0x0A => if sz ≤ 2 ∧ bits w 19 0 = 0 then some (.getw rt sz, [rt]) else none
    | _ => none

/-- Bits of the PCX that a store may change (R181). -/
def pcxWritable : Nat :=
  let f (s : Span) : Nat := (2 ^ (s.1 + 1 - s.2) - 1) <<< s.2
  f PX.CLASS ||| f PX.COLOR ||| f (383, 320) ||| f (319, 272) ||| f PX.BURL_SET ||| f (PX.XM_RES 0) ||| f (PX.XM_RES 1) ||| f PX.LPM_NH |||
    f PX.DROP ||| f PX.COPY_HOST ||| f PX.MIRROR_EN ||| f PX.MIRROR ||| f PX.DROP_CODE ||| f PX.TCAM_VALID ||| f PX.TCAM_IDX |||
    f PX.QID ||| f PX.HOSTQ ||| f PX.USER
/-- n bytes at byte a of a value of size bytes, most significant first. -/
def bytesOf (v size a n : Nat) : Nat := v / 2 ^ (8 * (size - a - n)) % 2 ^ (8 * n)
/-- Store n bytes at byte a of the PCX under its protected bits (R181). -/
def pcxStore (pcx a n v : Nat) : Nat :=
  let new := Span.set (8 * (64 - a) - 1, 8 * (64 - a - n)) v pcx
  (new &&& pcxWritable) ||| clrBits pcx pcxWritable
/-- Replace n bytes of the window from a. -/
def winStore (win : Bytes) (a n v : Nat) : Bytes := (beBytes n v).zipIdx.foldl (fun w x => w.set (a + x.2) x.1) win

/-- What an M operation did: the pass, the register written now, a scratch result that lands later, whether it was a window
fault, whether it met an uncorrectable scratch word. -/
structure MOut where
  p : Pass
  wr : Option (Nat × Nat) := none
  later : Option (Nat × Nat) := none
  fault : Bool := false
  ecc : Option Nat := none
  deriving DecidableEq, Repr

/-- Perform an M operation (R185, R191, R194, R208) with the register values at issue. A scratch access wakes its bank, word mod 16,
from retention (R25, R497). -/
def mExec (o : MOp) (g : Nat → Nat) (c : Nat) (p : Pass) (d : Dev) : MOut × Dev :=
  let cl := cluster c d
  match o with
  | .nop => ({ p := p }, d)
  | .ldh rt a n => if 256 < a + n then ({ p := p, wr := some (rt, 0), fault := true }, d) else ({ p := p, wr := some (rt, beAt p.win a n) }, d)
  | .sth rt a n => if 256 < a + n then ({ p := p, fault := true }, d) else ({ p := { p with win := winStore p.win a n (g rt) } }, d)
  | .ldp rt a n => if 64 < a + n then ({ p := p, wr := some (rt, 0), fault := true }, d) else ({ p := p, wr := some (rt, bytesOf p.pcx 64 a n) }, d)
  | .stp rt a n => if 64 < a + n then ({ p := p, fault := true }, d) else ({ p := { p with pcx := pcxStore p.pcx a n (g rt) } }, d)
  | .lde rt a n => if 32 < a + n then ({ p := p, wr := some (rt, 0), fault := true }, d) else ({ p := p, wr := some (rt, bytesOf p.ctx 32 a n) }, d)
  | .lds rt a =>
    let d := bankAwake c (a % 16) d
    if cl.badScratch.contains a then ({ p := p, ecc := some a }, d) else ({ p := p, later := some (rt, look cl.scratch a 0) }, d)
  | .sts rt a => ({ p := p }, setCluster c { cl with scratch := put cl.scratch a 0 (g rt), badScratch := cl.badScratch.filter (· != a) } (bankAwake c (a % 16) d))
  | .atadd rt a =>
    let d := bankAwake c (a % 16) d
    if cl.badScratch.contains a then ({ p := p, ecc := some a }, d)
    else
      let old := look cl.scratch a 0
      ({ p := p, later := some (rt, old) }, setCluster c { cl with scratch := put cl.scratch a 0 (w64 (old + g rt)) } d)
  | .setw hi a => ({ p := if hi then { p with hend := a % 512 } else { p with hstart := a % 512 } }, d)
  | .getw rt k => ({ p := p, wr := some (rt, if k = 0 then p.hstart else if k = 1 then p.hend else p.bodyOfs) }, d)

/-! The C slot (R195, R196). -/

/-- What a C slot asks for. -/
inductive COp where
  | nop
  | jump (pc : Nat)
  | verdict (v : Verdict)
  | act (f : Acts)                -- the actions as this slot leaves them
  | pcx (x : Nat)                 -- COPY and MIR: the PCX as this slot leaves it
  deriving DecidableEq, Repr

/-- A branch: illegal where OFF is 0 or the target lies beyond the half. -/
def branch (taken : Bool) (pc off extra : Nat) : Option COp :=
  if off = 0 ∨ 2048 ≤ pc + off + extra then none else some (if taken then .jump (pc + off + extra) else .nop)

/-- Decode and evaluate a C slot: none where it is illegal; the registers it reads. [DEDUCED: log 42] -/
def cSlot (w pc : Nat) (g : Nat → Nat) (p : Pass) : Option (COp × List Nat) :=
  let op := bits w 31 26
  let rs := bits w 25 21
  let k := bits w 20 15
  let off := bits w 10 0
  let z (hi lo : Nat) : Bool := bits w hi lo == 0
  let ing := !p.egress
  let ok (c : Bool) (x : COp × List Nat) : Option (COp × List Nat) := if c then some x else none
  if w = 0 then some (.nop, [])
  else match op with
    | 0x01 => if z 25 11 then (branch true pc off 0).map (·, []) else none
    | 0x02 => if z 20 11 then (branch (g rs == 0) pc off 0).map (·, [rs]) else none
    | 0x03 => if z 20 11 then (branch (g rs != 0) pc off 0).map (·, [rs]) else none
    | 0x04 => if z 14 11 then (branch (bit (g rs) k) pc off 0).map (·, [rs]) else none
    | 0x05 => if z 14 11 then (branch (!bit (g rs) k) pc off 0).map (·, [rs]) else none
    | 0x06 => if z 14 11 then (branch true pc off (min (g rs) k)).map (·, [rs]) else none
    | 0x10 =>
      let pq := bit w 15
      ok (ing && z 14 0) (.verdict (.fwd (if pq then PX.QID.get p.pcx else g rs % 2 ^ 19) (g (bits w 20 16) % 2 ^ 21)), if pq then [bits w 20 16] else [rs, bits w 20 16])
    | 0x11 => ok (z 25 16 && z 14 8) (.verdict (.drop (if bit w 15 then PX.DROP_CODE.get p.pcx else bits w 7 0)), [])
    | 0x12 => ok (ing && z 25 6) (.verdict (.recirc (bits w 5 0)), [])
    | 0x13 => ok (ing && z 20 16 && z 14 6) (.verdict (.punt (if bit w 15 then g rs % 64 else bits w 5 0)), if bit w 15 then [rs] else [])
    | 0x14 => ok (p.egress && z 25 1) (.verdict (.send (bit w 0)), [])
    | 0x20 => ok (z 20 0) (.pcx (PX.HOSTQ.set (g rs) (PX.COPY_HOST.set 1 p.pcx)), [rs])
    | 0x21 => ok (z 25 4) (.pcx (PX.MIRROR.set (bits w 3 0) (PX.MIRROR_EN.set 1 p.pcx)), [])
    | 0x22 => ok (ing && z 25 1) (.act { p.acts with learn := some (bits w 0 0) }, [])
    | 0x23 =>
      let i := some (g rs % 2 ^ 21)
      ok (z 20 1) (.act (if bit w 0 then { p.acts with cnt1 := i } else { p.acts with cnt0 := i }), [rs])
    | 0x24 => ok (z 20 0) (.act { p.acts with mtr := some (g rs % 2 ^ 19) }, [rs])
    | 0x25 => ok (p.egress && z 20 10) (.act { p.acts with tso := some (bits w 9 9, bits w 8 0, if rs = 0 then none else some (g rs)) }, [rs])
    | 0x26 => ok (p.egress && z 20 0) (.act { p.acts with tst := some (g rs % 65536) }, [rs])
    | 0x27 => ok (p.egress && z 25 4) (.act { p.acts with msc := some (bits w 3 0) }, [])
    | 0x28 =>
      let key := (List.range 5).foldl (fun a i => a * 2 ^ 64 + g (rs + i)) 0
      ok (p.egress && z 20 4 && decide (rs ≤ 27)) (.act { p.acts with etc := some (bits w 3 0, key) }, (List.range 5).map (rs + ·))
    | _ => none

/-! Running a pass. -/

/-- Occupied contexts of a cluster: passes that an engine of it holds. -/
def ctxUsed (c : Nat) (d : Dev) : Nat := (d.head.passes.filter fun x => x.2.stage == .running && x.2.cluster == c).length
/-- Keep ENG_STAT as the cluster is. -/
def engStat (c : Nat) (d : Dev) : Dev :=
  let here := d.head.passes.filter fun x => x.2.stage == .running && x.2.cluster == c
  let engines := (List.range 16).filter fun e => here.any fun x => x.2.engine == e
  rset ENG_STAT.CTX_USED c 0 here.length (rset ENG_STAT.RUNNING c 0 engines.length d)
/-- The pass that an engine runs: of the contexts it holds, the one loaded first (R176). -/
def runningPass (c e : Nat) (d : Dev) : Option (Nat × Pass) :=
  (d.head.passes.filter fun x => x.2.stage == .running && x.2.cluster == c && x.2.engine == e).foldl
    (fun (a : Option (Nat × Pass)) x => match a with | some y => if x.2.load < y.2.load then some x else a | none => some x) none
/-- Direction number: 0 ingress, 1 egress. -/
def Pass.dir (p : Pass) : Nat := b2n p.egress
/-- Reorder queue of a pass (R178). -/
def Pass.rq (p : Pass) : Nat := p.dir * 4096 + (if p.egress then bits p.ctx 139 128 else PX.HASH.get p.pcx % 4096)
/-- Passes of a direction that are dispatched and not released. -/
def heldCount (dir : Nat) (d : Dev) : Nat := if dir = 0 then rget ENG_DISP_STAT.ING_HELD 0 0 d else rget ENG_DISP_STAT.EG_HELD 0 0 d
/-- Change the count of held passes. -/
def setHeld (dir n : Nat) (d : Dev) : Dev := if dir = 0 then rset ENG_DISP_STAT.ING_HELD 0 0 n d else rset ENG_DISP_STAT.EG_HELD 0 0 n d
/-- Kind and code of a verdict for the pass trace. -/
def verdictKind (v : Verdict) : Nat × Nat :=
  match v with | .fwd _ _ => (0, 0) | .drop c => (1, c) | .recirc _ => (2, 0) | .punt _ => (3, 0) | .send _ => (4, 0)
/-- Capture the pass trace of a pass that ends (R212). -/
def engTrace (p : Pass) (kind code : Nat) (d : Dev) : Dev :=
  if !p.traced then d
  else
    let img := kind * 2 ^ 61 + code % 256 * 2 ^ 53 + p.issued * 2 ^ 48 + min p.stalls 0xFFFF * 2 ^ 32 + p.entry * 2 ^ 21 + p.last * 2 ^ 10
    fire (engPage p.cluster) 3 (rset ENG_TRACE_CTRL.ARM p.cluster 0 0 (loadImg .ENG_TRACE_DATA p.cluster 0 img d))
/-- The window of a pass is whole: its bounds in order, and the rebuilt length in range (R183, R184). -/
def Pass.newLen (p : Pass) : Nat := p.bytes.length - p.l0 + (p.hend - p.hstart)
/-- The packet rebuilt at the verdict (R183); with bounds that name no window bytes it stays as it was. [DEDUCED: log 41] -/
def Pass.rebuilt (p : Pass) : Bytes :=
  if p.hend < p.hstart ∨ 256 < p.hend then p.bytes else
  let tail := p.bytes.drop p.bodyOfs
  let mid := (p.win.drop p.hstart).take (p.hend - p.hstart)
  if p.egress then mid ++ tail else p.bytes.take p.winBase ++ mid ++ tail
/-- The drop that replaces a verdict, or the verdict itself (R184, R199, R200, R233). [DEDUCED: log 41] -/
def Pass.judge (p : Pass) (v : Verdict) (d : Dev) : Verdict :=
  let bad := p.hend < p.hstart ∨ 256 < p.hend ∨ 16383 < p.newLen ∨ p.newLen < 14
  match v with
  | .drop c => if bad then .drop 0x45 else .drop (if c = 0 then 0x48 else c)
  | .fwd q n => if bad then .drop 0x45 else if 0x1FFFF < q then .drop 0x47 else .fwd q n
  | .recirc f => if bad then .drop 0x45 else if PX.PASS.get p.pcx = 3 then .drop 0x50 else .recirc f
  | .punt h => if bad then .drop 0x45 else .punt h
  | .send a =>
    if bad then .drop 0x45
    else if a && !p.adjOk then .drop 0x23
    else if pget LPG_PORTn_CFG.MAX_FRAME (bits p.ctx 76 69) d < p.newLen then .drop 0x46 else .send a
/-- A pass ends with a verdict: it leaves its engine and waits in its reorder queue (R197 to R200, R219). `stop` marks a pass
stopped at the budget, `fault` one that the machine dropped, whose code stands. [DEDUCED: log 41, 43] -/
def endPass (n : Nat) (p : Pass) (v : Verdict) (stop fault : Bool) (d : Dev) : Dev :=
  let c := p.cluster
  let v' := if fault then v else p.judge v d
  let d := match v, v' with
    | .recirc _, .drop _ => if v' = .drop 0x50 then fire Pg.MDL 1 (overrun Pg.MDL (inc Pg.MDL 5 d)) else d
    | .send _, .drop code => if code = 0x23 then inc Pg.TLS 4 d else if code = 0x46 then inc Pg.TLS 5 d else d
    | _, _ => d
  let (k, code) := verdictKind v'
  let d := engTrace p (if stop then 5 else k) code d
  let d := match v' with | .drop code => drop code d | _ => d
  let final := match v' with | .recirc _ => false | .send _ => false | _ => true
  let d := if final then unbind p.bank d else d
  let acts := match v' with
    | .fwd _ _ => p.acts
    | .punt _ => p.acts
    | .send _ => p.acts
    | _ => { p.acts with cnt0 := none, cnt1 := none, mtr := none, tso := none, tst := none, msc := none, etc := none }
  let d := match p.acts.learn with
    | some s => match p.xm[s]? with
      | some x =>
        if x.issued then
          learnRaise { tbl := x.tbl, key := xmKey x.tbl x.key d, dev := devId d, port := PX.ING_PORT.get p.pcx, time := PX.PKT_TIME.get p.pcx } d
        else d
      | none => d
    | none => d
  let pcx := match v' with
    | .recirc f => PX.RECIRC_PROF.set f (PX.RECIRC.set 1 p.pcx)
    | _ => if fault && stop then PX.MIRROR_EN.set 0 (PX.COPY_HOST.set 0 p.pcx) else p.pcx
  engStat c (setPass n { p with stage := .held, verdict := some v', acts := acts, pcx := pcx, traced := false } d)
/-- The machine drops a running pass for a fault of its bundle (R197, R207, R208). [DEDUCED: log 43] -/
def faultPass (n : Nat) (p : Pass) (code : Nat) (d : Dev) : Dev :=
  endPass n p (.drop code) false true d
/-- Latch the first illegal bundle (R207). -/
def illLatch (c half e pc : Nat) (d : Dev) : Dev :=
  let d := fire (engPage c) 1 d
  if flag ENG_ILL_ADDR.VALID c 0 d then d else loadImg .ENG_ILL_ADDR c 0 (2 ^ 31 + half * 2 ^ 16 + e * 2 ^ 12 + pc) d
/-- Latch the first uncorrectable error of a cluster (R208, R556). -/
def engEcc (c : Nat) (scratch : Bool) (half w : Nat) (d : Dev) : Dev :=
  let d := fire (engPage c) 2 d
  let img := b2n scratch * 2 ^ 30 + half * 2 ^ 29 + w
  if flag ENG_ECC_ADDR.VALID c 0 d then d else eccLog (engPage c) img (loadImg .ENG_ECC_ADDR c 0 (2 ^ 31 + img) d)

/-- Whether a 64-bit word of bundle b of a half cannot be read: the lower-numbered one (R208). -/
def badBundle (c half b : Nat) (d : Dev) : Option Nat :=
  (cluster c d).badImem.find? fun w => w == half * 4096 + 2 * b || w == half * 4096 + 2 * b + 1
/-- The four slots of a bundle decoded with the register values g (R188, R192 to R196): none where one of them is illegal. -/
def decodeBundle (b : Nat) (g : Nat → Nat) (p : Pass) : Option (SlotOut × SlotOut × (MOp × List Nat) × (COp × List Nat)) :=
  match aSlot (bits b 127 96) g, aSlot (bits b 95 64) g, mSlot (bits b 63 32) p.egress g, cSlot (bits b 31 0) p.pc g p with
  | some a0, some a1, some m, some c => some (a0, a1, m, c)
  | _, _, _, _ => none
/-- Whether a bundle reads or writes a register for which a scratch result is pending (R190). The registers that slots name do not
depend on their values, so this is told before any value is used. -/
def bundleStalls (b : Nat) (p : Pass) : Bool :=
  match decodeBundle b (fun _ => 0) p with
  | some (a0, a1, m, c) => let uses := a0.uses ++ a1.uses ++ m.2 ++ c.2; p.pend.any fun x => x.1 != 0 && uses.contains x.1
  | none => false
/-- 64-bit words that a bundle's accesses read: its own two, the scratch word of a load or ATADD, and with a pass's first bundle
the word of its entry (R205, R208). -/
def eccWords (p : Pass) (m : MOp) : Nat :=
  2 + b2n (p.issued == 0) + (match m with | .lds _ _ => 1 | .atadd _ _ => 1 | _ => 0)

/-- An engine issues one bundle, or stalls (R189, R190, R195 to R197, R203, R207, R208). The C slot acts on the PCX as this
bundle's M store leaves it (R197). `corr` is in how many words of these accesses a single-bit error was met, corrected and counted
(R208). The verdict counters count verdicts that bundles issue (R213). [DEDUCED: log 42; DESIGN CHOICE: log 45, 119] -/
def bundleIssue (c e corr : Nat) (d : Dev) : Dev :=
  match runningPass c e d with
  | none => d
  | some (n, p) =>
    if 24 ≤ p.issued then d
    else
      let half := p.bank
      let d := if p.issued = 0 ∧ p.stalls = 0 then inc (engPage c) 0 d else d
      let other := d.head.passes.any fun x => x.2.cluster == c && x.2.traced
      let p := if p.issued = 0 ∧ flag ENG_TRACE_CTRL.ARM c 0 d ∧ rget ENG_TRACE_CTRL.ENGINE c 0 d = e ∧ !other then { p with traced := true } else p
      match badBundle c half p.pc d with
      | some w => faultPass n p 0x44 (engEcc c false half w d)
      | none =>
        let b := bundleAt c half p.pc d
        let g (r : Nat) : Nat := if r = 0 then 0 else look p.regs r 0
        if bundleStalls b p then inc (engPage c) 2 (setPass n { p with stalls := p.stalls + 1 } d)
        else match decodeBundle b g p with
        | some (a0, a1, (mo, _), _) =>
            let d := incBy (engPage c) 11 (min corr (eccWords p mo)) d
            let (m, d) := mExec mo g c p d
            match m.ecc with
            | some w => faultPass n p 0x44 (engEcc c true 0 w d)
            | none =>
              let d := inc (engPage c) 1 (if m.fault then inc (engPage c) 10 d else d)
              let wr (x : Option (Nat × Nat)) (r : Tbl Nat) : Tbl Nat := match x with | some (k, v) => if k = 0 then r else put r k 0 v | none => r
              let q := { m.p with regs := wr m.wr (wr a1.wr (wr a0.wr m.p.regs)), pend := m.p.pend ++ m.later.toList, issued := p.issued + 1, last := p.pc }
              let next (q : Pass) (d : Dev) : Dev := if p.pc = 2047 then faultPass n q 0x42 d else setPass n { q with pc := p.pc + 1 } d
              match ((cSlot (bits b 31 0) p.pc g q).map (·.1)).getD .nop with
              | .verdict v => endPass n q v false false (inc (engPage c) (3 + (match v with | .fwd _ _ => 0 | .drop _ => 1 | .recirc _ => 2 | .punt _ => 3 | .send _ => 4)) d)
              | .jump t => setPass n { q with pc := t } d
              | .act f => next { q with acts := f } d
              | .pcx x => next { q with pcx := x } d
              | .nop => next q d
        | none => faultPass n p 0x41 (illLatch c half e p.pc d)
/-- A pending scratch result lands in its register (R189). [DESIGN CHOICE: log 45] -/
def scratchLand (c e : Nat) (d : Dev) : Dev :=
  match runningPass c e d with
  | some (n, p) => match p.pend with
    | (r, v) :: t => setPass n { p with pend := t, regs := if r = 0 then p.regs else put p.regs r 0 v } d
    | [] => d
  | none => d
/-- Bundle 24 has passed without a verdict (R203, R204). On ingress the configuration bundle is read like any other (R208). -/
def budgetStop (c e : Nat) (d : Dev) : Dev :=
  match runningPass c e d with
  | some (n, p) =>
    if p.issued < 24 then d
    else
      let d := fire (engPage c) 0 (overrun (engPage c) d)
      let cfg := bundleAt c p.bank 16 d
      if !p.egress && (badBundle c p.bank 16 d).isSome then
        faultPass n p 0x44 (engEcc c false p.bank ((badBundle c p.bank 16 d).getD 0) d)
      else if !p.egress && bit cfg 0 then endPass n { p with forced := true } (.recirc (bits cfg 6 1)) true false (inc (engPage c) 8 d)
      else endPass n p (.drop 0x40) true true (inc (engPage c) 9 d)
  | none => d

/-! Dispatch (R177, R178, R180, R182, R205, R206). -/

/-- The cluster that the dispatcher chooses for a direction (R177). [DESIGN CHOICE: log 45] -/
def pickCluster (dir : Nat) (d : Dev) : Option Nat :=
  let free (c : Nat) : Nat := 32 - ctxUsed c d
  let able := (List.range 64).filter fun c => blkEn (engPage c) d && rget ENG_CFG.DIR c 0 d == dir && decide (0 < free c)
  let best := able.foldl (fun a c => max a (free c)) 0
  let top := able.filter fun c => free c == best
  if flag ENG_DISP_X.TIE 0 0 d then top.head?
  else
    let next := look d.disp.last dir 0
    match top.find? (fun c => decide (next ≤ c)) with | some c => some c | none => top.head?
/-- The lowest-numbered engine of a cluster with a free context. [DESIGN CHOICE: log 45] -/
def pickEngine (c : Nat) (d : Dev) : Nat :=
  ((List.range 16).find? fun e => decide ((d.head.passes.filter fun x => x.2.stage == .running && x.2.cluster == c && x.2.engine == e).length < 2)).getD 0
/-- The window of a pass at its start (R182): 256 bytes, 0 outside the loaded range. -/
def loadWindow (egress : Bool) (bytes : Bytes) (base : Nat) : Bytes :=
  let pad (n : Nat) (b : Bytes) : Bytes := b ++ List.replicate (n - b.length) 0
  if egress then List.replicate 96 0 ++ pad 160 (bytes.take 160) else pad 256 ((bytes.drop base).take 256)
/-- Whether the reorder queue of a pass, or its direction, is full (R178). -/
def dispatchFull (p : Pass) (d : Dev) : Bool :=
  decide (rget ENG_DISP_CFG.RQ_DEPTH 0 0 d ≤ (look d.disp.queues p.rq []).length ∨ 8192 ≤ heldCount p.dir d)
/-- A pass waiting before dispatch is given to a cluster once its reorder queue and direction have room (R177, R178). Its entry is
read from the half of its bank like any bundle (R205, R208). -/
def dispatchPass (n : Nat) (d : Dev) : Dev :=
  match getPass n d with
  | some p =>
    if p.stage != .ready then d
    else
      let dir := p.dir
      let q := look d.disp.queues p.rq []
      let order := if p.egress then flag ENG_DISP_CFG.EG_ORDER 0 0 d else flag ENG_DISP_CFG.ING_ORDER 0 0 d
      if dispatchFull p d then
        if p.waited then d else setPass n { p with waited := true } (inc Pg.ENG (12 + dir) d)
      else match pickCluster dir d with
        | none => d
        | some c =>
          let e := pickEngine c d
          let len := p.bytes.length
          let hs := if p.egress then 96 else 0
          let he := if p.egress then 96 + min 160 len else min 256 (len - p.winBase)
          let k := if p.egress then 64 + p.prof else p.prof
          let ent := bits (bundleAt c p.bank (k / 8) d) (16 * (k % 8) + 15) (16 * (k % 8))
          let p := { p with stage := .running, cluster := c, engine := e, win := loadWindow p.egress p.bytes p.winBase, hstart := hs, hend := he, l0 := he - hs, bodyOfs := if p.egress then he - 96 else p.winBase + he, entry := ent % 2048, pc := ent % 2048, ordered := order, load := d.disp.loads }
          let d := { d with disp := { d.disp with queues := put d.disp.queues p.rq [] (q ++ [n]), last := put d.disp.last dir 0 (c + 1), loads := d.disp.loads + 1 } }
          let d := engStat c (setHeld dir (heldCount dir d + 1) (setPass n p d))
          match badBundle c p.bank (k / 8) d with
          | some w => faultPass n p 0x44 (engEcc c false p.bank w d)
          | none => if !bit ent 15 || decide (ent % 2048 < 17) then endPass n p (.drop 0x43) false true d else d
  | none => d

/-! Program memory (R206, R208). -/

/-- Clusters of the same direction as cluster c. -/
def sameDir (c : Nat) (d : Dev) : List Nat := (List.range 64).filter fun x => rget ENG_CFG.DIR x 0 d == rget ENG_CFG.DIR c 0 d
/-- A commit of ENG_IMEM_DATA (R206). -/
def imemWrite (c img : Nat) (d : Dev) : Dev :=
  let half := rget ENG_IMEM_ADDR.HALF c 0 d
  let b := rget ENG_IMEM_ADDR.BUNDLE c 0 d
  let targets := if flag ENG_IMEM_ADDR.BCAST c 0 d then sameDir c d else [c]
  if bankBusy half d then errAt Err.EPOCH_BUSY .ENG_IMEM_DATA c 0 d
  else
    let d := targets.foldl (fun s t =>
      let x := cluster t s
      setCluster t { x with imem := put x.imem (half * 2048 + b) 0 img, badImem := x.badImem.filter (fun w => w / 2 != half * 2048 + b) } s) d
    rset ENG_IMEM_ADDR.BUNDLE c 0 ((b + 1) % 2048) (rset ENG_IMEM_DATA.BUNDLE c 0 img d)
/-- A read of ENG_IMEM_DATA fetches the addressed bundle. -/
def imemRead (c : Nat) (d : Dev) : Dev :=
  rset ENG_IMEM_DATA.BUNDLE c 0 (bundleAt c (rget ENG_IMEM_ADDR.HALF c 0 d) (rget ENG_IMEM_ADDR.BUNDLE c 0 d) d) d
/-- A write of ENG_CFG (R175). -/
def engCfgWrite (c img : Nat) (d : Dev) : Dev :=
  if blkEn (engPage c) d then errAt Err.BAD_ARG .ENG_CFG c 0 d else storeFields false .ENG_CFG c 0 img d
/-- A write of ENG_DISP_CFG: RQ_DEPTH 1–64. -/
def dispCfgWrite (img : Nat) (d : Dev) : Dev :=
  let n := ENG_DISP_CFG.RQ_DEPTH.of img
  if n = 0 ∨ 64 < n then errAt Err.BAD_ARG .ENG_DISP_CFG 0 0 d else storeFields false .ENG_DISP_CFG 0 0 img d
/-- The scrubber visits a word of instruction memory or scratch (R208). ENG_ECC_ADDR.WORD numbers the 8,192 words of both halves. -/
def engScrub (c : Nat) (scratch : Bool) (half w : Nat) (seen : EccSeen) (d : Dev) : Dev :=
  match seen with
  | .clean => d
  | .corrected => inc (engPage c) 11 d
  | .uncorrectable =>
    let x := cluster c d
    let w := if scratch then w else half * 4096 + w % 4096
    let x := if scratch then { x with badScratch := w :: x.badScratch } else { x with badImem := w :: x.badImem }
    engEcc c scratch half w (setCluster c x d)

end Sys2Proof.Machine
end

