-- ==== Sys2Proof/Machine/Spindle.lean ====
section
/-! DEFINITION. The Spindle (12_spindle_time.md): the time, its steering, timed-action entries and gate lists. What a due
action does to other pages stands in Actions.lean. Every island's copy of the time equals the master here. -/

namespace Sys2Proof.Machine

/-- Change the Spindle. -/
def onSpn (f : Spn → Spn) (d : Dev) : Dev := { d with spn := f d.spn }
/-- Spindle time in whole ns. [DESIGN CHOICE: log 69] -/
def nowNs (d : Dev) : Nat := timeNsOf d.spn.time

/-! The counter (R330, R331). -/

/-- What one host cycle adds: 1 ns plus RATE_ADJ × 2^-32 ns (R330). -/
def baseRate (d : Dev) : Nat := ((2 ^ 32 : Int) + d.spn.rate).toNat
/-- Advance by n host cycles: the time and the monotonic count by the rate and the slew (R308, R330, R333), the AON time by
real ns. [DESIGN CHOICE: log 2, 72] -/
def runCycles (n : Nat) (d : Dev) : Dev :=
  let base := n * baseRate d
  let (delta, slew) : Nat × Option Slew := match d.spn.slew with
    | some s =>
      let k := min s.left (n * s.rate)
      (if s.neg then base - k else base + k, if s.left ≤ k then none else some { s with left := s.left - k })
    | none => (base, none)
  let u := d.spn.monoU + delta
  let d := dmaPass (u / 2 ^ 32) d
  { d with spn := { d.spn with time := d.spn.time + delta, slew := slew, monoU := u }, mono := u / 2 ^ 32, hwd := { d.hwd with aonNs := d.hwd.aonNs + n } }
/-- Steps of `by_` that cover `left`. -/
def stepsOver (left by_ : Nat) : Nat := (left + by_ - 1) / max 1 by_
/-- Host cycles to the next multiple of 1,000 ns at the present rate and with the slew under way (R331, R333). -/
def cyclesToMarker (d : Dev) : Nat :=
  let unit := 1000 * 2 ^ 32
  let left := unit - d.spn.time % unit
  let base := baseRate d
  match d.spn.slew with
  | some s =>
    if s.neg then (if s.rate < base then min (stepsOver left (base - s.rate)) (stepsOver (left + s.left) base) else stepsOver (left + s.left) base)
    else max 1 (max (stepsOver left (base + s.rate)) (stepsOver (left - s.left) base))
  | none => stepsOver left base

/-! Timed actions whose time a jump passes (R334, R347). -/

/-- Roll a periodic time forward by the smallest whole number of periods that puts it at least 2 µs after now (R347). -/
def rollForward (t period now : Nat) : Nat := if now + 2000 ≤ t then t else t + (now + 2000 - t + period - 1) / period * period
/-- An entry turns late: one-shot ones are due in the next host cycle, periodic ones roll forward. -/
def lateAct (now : Nat) (a : Act) : Act := if a.period = 0 then { a with due := true } else { a with t := rollForward a.t a.period now }
/-- A forward jump makes every armed action whose time it passes late (R334, R347). [DEDUCED: log 71] -/
def jumpLate (old new : Nat) (d : Dev) : Dev :=
  d.spn.acts.foldl (fun s x =>
    if decide (old < x.2.t ∧ x.2.t ≤ new) && !x.2.due then
      fire Pg.SPN 0 (inc Pg.SPN 1 (onSpn (fun p => { p with acts := ins p.acts x.1 (lateAct new x.2) }) s))
    else s) d
/-- Set the time by a SET or STEP: the monotonic count does not change (R308, R334). [DEDUCED: log 71] -/
def jumpTo (t : Nat) (d : Dev) : Dev :=
  let old := nowNs d
  let d := fire Pg.SPN 7 (inc Pg.SPN 7 (onSpn (fun p => { p with time := t % (2 ^ 48 * 1000000000 * 2 ^ 32) }) d))
  jumpLate old (nowNs d) d
/-- Start to absorb an offset at SLEW_PPM (R333). -/
def slewStart (neg : Bool) (dt : Nat) (d : Dev) : Dev :=
  let rate := rget SPN_CFG.SLEW_PPM 0 0 d * 2 ^ 32 / 1000000
  onSpn (fun p => { p with slew := if dt = 0 then none else some { neg := neg, left := dt, rate := rate } }) d
/-- A marker: waiting commands and RATE_ADJ take effect (R333, R334, R338, R341). -/
def markerApply (d : Dev) : Dev :=
  let d := onSpn (fun p => { p with rate := signed 32 (rget SPN_RATE.RATE_ADJ 0 0 d) }) d
  let d := match d.spn.servoStep with
    | some e =>
      let t := (d.spn.time : Int) + e
      jumpTo t.toNat (onSpn (fun p => { p with servoStep := none }) d)
    | none => d
  let d := match d.spn.labelSet with
    | some (t, u) => jumpTo (t + (d.spn.monoU - u)) (onSpn (fun p => { p with labelSet := none }) d)
    | none => d
  match d.spn.adj with
  | none => d
  | some c =>
    let d := rset SPN_ADJ.GO 0 0 0 (onSpn (fun p => { p with adj := none }) d)
    match c with
    | .set t => jumpTo t d
    | .step neg dt => jumpTo (if neg then d.spn.time - dt else d.spn.time + dt) d
    | .slew neg dt => slewStart neg dt d
/-- Advance to the next marker and apply it (R331). -/
def toMarker (d : Dev) : Dev := markerApply (runCycles (cyclesToMarker d) d)
/-- Advance by n host cycles with the markers that lie in them: the first one applies what waits, so that the others change
nothing (R331, R333). -/
def passCycles (n : Nat) (d : Dev) : Dev :=
  let c := cyclesToMarker d
  if n < c then runCycles n d else if n = c then markerApply (runCycles c d) else runCycles (n - c) (markerApply (runCycles c d))
/-- The slew under way ends by itself after its cycles (R333): run to its end, through the markers on the way. -/
def slewFinish (d : Dev) : Dev :=
  match d.spn.slew with
  | some s => passCycles (stepsOver s.left s.rate) d
  | none => d

/-! The label on its way to the TM die (R331, R332). -/

/-- Change the link. -/
def onD2d (f : D2d → D2d) (d : Dev) : Dev := { d with d2d := f d.d2d }
/-- The data words of a TIME record for a label in 2^-16 ns and a RATE_ADJ of 32 bits (R332). -/
def timeWords (label rate : Nat) : List Nat :=
  let ns := label / 65536
  [0x07 * 2 ^ 56 + ns / 1000000000 % 2 ^ 48, ns % 1000000000 * 2 ^ 34 + label % 65536 * 2 ^ 18, rate % 2 ^ 32 * 2 ^ 32]
/-- The label of the next marker, in 2^-16 ns: what the time will be there, with a SET or STEP that waits for it (R331, R333). -/
def markerLabel (d : Dev) : Nat := (toMarker d).spn.time / 65536
/-- A TIME record's data words arrive: the TM die learns the label of the next marker and RATE_ADJ (R332). -/
def timeTake (ws : List Nat) (d : Dev) : Dev :=
  let ns := bits (ws.getD 1 0) 63 34
  onD2d (fun l => { l with label := (bits (ws.getD 0 0) 47 0 * 1000000000 + ns) * 65536 + bits (ws.getD 1 0) 33 18, rate := bits (ws.getD 2 0) 63 32 }) d
/-- TIME: the master's label and RATE_ADJ reach the TM die. [DESIGN CHOICE: log 69] -/
def timeRecord (d : Dev) : Dev := timeTake (timeWords (markerLabel d) (toBits 32 d.spn.rate)) d

/-! Commands (R333, R335). -/

/-- A write of SPN_ADJ. [DEDUCED: log 71] -/
def spnAdjWrite (img : Nat) (d : Dev) : Dev :=
  let op := SPN_ADJ.OP.of img
  let dt := mkTime (SPN_ADJ.SEC.of img) (SPN_ADJ.NS.of img) + SPN_ADJ.FRAC.of img * 2 ^ 16
  let bad := decide (2 < op) || decide (999999999 < SPN_ADJ.NS.of img) || rget SPN_CFG.SRC 0 0 d != 0 || (op == 2 && SPN_ADJ.SEC.of img != 0)
  if bad || (SPN_ADJ.GO.on img && flag SPN_ADJ.GO 0 0 d) then errAt Err.BAD_ARG .SPN_ADJ 0 0 d
  else
    let d := storeFields false .SPN_ADJ 0 0 img d
    if !SPN_ADJ.GO.on img then d
    else
      let c := match op with
        | 0 => AdjCmd.set dt
        | 1 => AdjCmd.step (SPN_ADJ.NEG.on img) dt
        | _ => AdjCmd.slew (SPN_ADJ.NEG.on img) dt
      rset SPN_ADJ.GO 0 0 1 (onSpn (fun p => { p with adj := some c, slew := none }) d)
/-- A write of SPN_RATE: within ±4,294,967, and only while software steers. -/
def spnRateWrite (img : Nat) (d : Dev) : Dev :=
  let r := signed 32 (SPN_RATE.RATE_ADJ.of img)
  if rget SPN_CFG.SRC 0 0 d ≠ 0 ∨ r < -4294967 ∨ 4294967 < r then errAt Err.BAD_ARG .SPN_RATE 0 0 d
  else storeFields false .SPN_RATE 0 0 img d
/-- Change the reference (R339). -/
def setSrc (src : Nat) (d : Dev) : Dev :=
  let old := rget SPN_CFG.SRC 0 0 d
  let d := rset SPN_CFG.SRC 0 0 src d
  if src = 0 then rset SPN_STAT.STATE 0 0 0 d
  else if src = old then d
  else rset SPN_STAT.STATE 0 0 1 (onSpn (fun p => { p with good := 0, rates := [], srcAt := d.mono }) d)
/-- A write of SPN_CFG. -/
def spnCfgWrite (img : Nat) (d : Dev) : Dev :=
  let src := SPN_CFG.SRC.of img
  let ppm := SPN_CFG.SLEW_PPM.of img
  if src = 3 ∨ (src = 2 ∧ isMgr d) ∨ ppm = 0 ∨ 1000 < ppm ∨ 1 < SPN_CFG.MGR_SRC.of img then errAt Err.BAD_ARG .SPN_CFG 0 0 d
  else
    let old := rget SPN_CFG.SRC 0 0 d
    setSrc src (rset SPN_CFG.SRC 0 0 old (storeFields false .SPN_CFG 0 0 img d))
/-- A write of SPN_SERVO. -/
def spnServoWrite (img : Nat) (d : Dev) : Dev :=
  if SPN_SERVO.LOCK_NS.of img = 0 ∨ SPN_SERVO.STEP_NS.of img = 0 then errAt Err.BAD_ARG .SPN_SERVO 0 0 d
  else storeFields false .SPN_SERVO 0 0 img d
/-- A write of SPN_PPS_OUT: only by the holder of FP_OWNER. -/
def ppsOutWrite (img : Nat) (d : Dev) : Dev :=
  let o := (face Pg.SPN d).owner
  let w := SPN_PPS_OUT.WIDTH.of img
  if o = 0 ∨ SPN_PPS_OUT.OWNER_ID.of img ≠ o then errAt Err.NOT_OWNER .SPN_PPS_OUT 0 0 d
  else if w = 0 ∨ 500 < w then errAt Err.BAD_ARG .SPN_PPS_OUT 0 0 d
  else storeFields false .SPN_PPS_OUT 0 0 img d

/-! The servo (R337 to R341). Quotients and shifts round down. -/

/-- One servo step with error e in 2^-16 ns and interval dt in ns (R338). -/
def servo (e : Int) (dt : Nat) (d : Dev) : Dev :=
  let sat := max (-2 ^ 31) (min (2 ^ 31 - 1) e)
  let d := rset SPN_ERR.E 0 0 (toBits 32 sat) (onSpn (fun p => { p with lastRef := some d.mono }) d)
  let d := if rget SPN_STAT.STATE 0 0 d = 3 then rset SPN_STAT.STATE 0 0 1 (onSpn (fun p => { p with good := 0 }) d) else d
  let lim : Int := rget SPN_SERVO.STEP_NS 0 0 d * 65536
  if lim < e ∨ e < -lim then
    let r := signed 32 (rget SPN_RATE.RATE_ADJ 0 0 d)
    rset SPN_STAT.STATE 0 0 1 (onSpn (fun p => { p with servoStep := some (-e * 65536), good := 0, rates := (r :: p.rates).take 16 }) d)
  else
    let ki : Int := 2 ^ rget SPN_CFG.KI_SHIFT 0 0 d
    let kp : Int := 2 ^ rget SPN_CFG.KP_SHIFT 0 0 d
    let r := signed 32 (rget SPN_RATE.RATE_ADJ 0 0 d) - (e * 65536 / (dt : Int)) / ki
    let r := max (-4294967) (min 4294967 r)
    let off := -(e / kp) * 65536
    let lock : Int := rget SPN_SERVO.LOCK_NS 0 0 d * 65536
    let good := if -lock ≤ e ∧ e ≤ lock then d.spn.good + 1 else 0
    let slew := if off = 0 then none else some { neg := decide (off < 0), left := off.natAbs, rate := (off.natAbs + dt - 1) / dt : Slew }
    let d := rset SPN_RATE.RATE_ADJ 0 0 (toBits 32 r) (onSpn (fun p => { p with rate := r, slew := slew, good := good, rates := (r :: p.rates).take 16 }) d)
    if rget SPN_STAT.STATE 0 0 d = 1 ∧ 8 ≤ good then fire Pg.SPN 5 (rset SPN_STAT.STATE 0 0 2 d) else d
/-- A capture: the time minus a board delay in 2^-16 ns. -/
def captureAt (corr : Nat) (d : Dev) : Nat := ((d.spn.time : Int) - signed 32 corr * 65536).toNat
/-- Signed offset of a capture from the nearest multiple of n ns, in 2^-16 ns. -/
def offsetFrom (n t : Nat) : Int :=
  let unit := n * 2 ^ 32
  let r := t % unit
  if 2 * r < unit then (r / 65536 : Nat) else ((r : Int) - unit) / 65536
/-- A rising edge at PPS_IN (R337). -/
def ppsIn (d : Dev) : Dev :=
  let early := match d.spn.lastPps with | some m => decide (d.mono < m + 500000000) | none => false
  if early then inc Pg.SPN 9 d
  else
    let t := captureAt (rget SPN_PPS_IN_CORR.CORR 0 0 d) d
    let d := onSpn (fun p => { p with lastPps := some d.mono }) d
    let d := rset SPN_PPS_CAP.SEC 0 0 (secOf t) (rset SPN_PPS_CAP.NS 0 0 (nsOf t) (rset SPN_PPS_CAP.FRAC 0 0 (fracOf t) d))
    let d := fire Pg.SPN 4 (inc Pg.SPN 8 d)
    if rget SPN_CFG.SRC 0 0 d = 1 then servo (offsetFrom 1000000000 t) 1000000000 d else d
/-- A SYNC_IN edge (R341). -/
def syncIn (d : Dev) : Dev :=
  if rget SPN_CFG.SRC 0 0 d ≠ 2 then d
  else
    let t := captureAt (rget SPN_SYNC_IN_CORR.CORR 0 0 d) d
    let d := inc Pg.SPN 10 (onSpn (fun p => { p with lastSync := some (t, d.spn.monoU) }) d)
    servo (offsetFrom 1000000 t) 1000000 d
/-- The sync cell of the last pulse arrives with its label (R341): where the label differs, the time is set, at the next marker, to
the label plus the time since the capture. -/
def syncLabel (sec ms : Nat) (d : Dev) : Dev :=
  if rget SPN_CFG.SRC 0 0 d ≠ 2 then d
  else match d.spn.lastSync with
    | none => d
    | some (t, u) =>
      let own := (timeNsOf t + 500000) / 1000000
      if own = sec * 1000 + ms then d
      else inc Pg.SPN 12 (onSpn (fun p => { p with labelSet := some (mkTime sec (ms * 1000000), u) }) d)
/-- Monotonic ns of the last reference of the selected source, or of its selection. [DEDUCED: log 124] -/
def refSince (d : Dev) : Nat :=
  let last : Nat := if rget SPN_CFG.SRC 0 0 d = 1 then d.spn.lastPps.getD 0 else match d.spn.lastSync with | some (_, u) => u / 2 ^ 32 | none => 0
  max d.spn.srcAt last
/-- The reference has been missing for its limit (R339, R342): no PPS edge for 1.1 s, or no SYNC pulse for 10 ms. -/
def holdover (d : Dev) : Dev :=
  let st := rget SPN_STAT.STATE 0 0 d
  let src := rget SPN_CFG.SRC 0 0 d
  if src ≠ 0 ∧ (st = 1 ∨ st = 2) ∧ refSince d + (if src = 1 then 1100000000 else 10000000) ≤ d.mono then
    let n := d.spn.rates.length
    let mean : Int := if n = 0 then d.spn.rate else (d.spn.rates.foldl (· + ·) 0) / (n : Int)
    fire Pg.SPN 6 (inc Pg.SPN 11 (rset SPN_STAT.STATE 0 0 3 (rset SPN_RATE.RATE_ADJ 0 0 (toBits 32 mean) (onSpn (fun p => { p with rate := mean }) d))))
  else d
/-- The manager claims SYNC_OUT with its own ID (R340). -/
def syncOutClaim (d : Dev) : Dev :=
  let o := rget SPN_SYNC_OUT_OWNER.OWNER 0 0 d
  if o = 0 ∨ o = 0xF300 then rset SPN_SYNC_OUT_OWNER.OWNER 0 0 0xF300 d else errAt Err.OWNER_BUSY .SPN_SYNC_OUT_OWNER 0 0 d
/-- A device becomes active manager: SRC changes without a step and the first pulse is at least 1 ms ahead (R342, R343). -/
def managerTime (d : Dev) : Dev :=
  let first := (nowNs d + 1000000 + 999999) / 1000000 * 1000000
  syncOutClaim (onSpn (fun p => { p with syncFrom := first }) (setSrc (rget SPN_CFG.MGR_SRC 0 0 d) d))
/-- A manager becomes worker or standby: it releases SYNC_OUT and follows the new manager (R343). -/
def workerTime (d : Dev) : Dev :=
  let d := if rget SPN_SYNC_OUT_OWNER.OWNER 0 0 d = 0xF300 then rset SPN_SYNC_OUT_OWNER.OWNER 0 0 0 d else d
  setSrc 2 d
/-- The index of the whole multiple of n ns at which an output pulses in this host cycle: the first cycle in which the time, advanced
by the output's correction, has reached it (R340). -/
def pulseAt (n corr : Nat) (d : Dev) : Option Nat :=
  let x : Int := (d.spn.time : Int) + signed 32 corr * 65536
  let step := baseRate d + (match d.spn.slew with | some s => if s.neg then 0 else s.rate | none => 0)
  if x < 0 then none else if x.toNat % (n * 2 ^ 32) < step then some (x.toNat / (n * 2 ^ 32)) else none
/-- At a whole millisecond, advanced by SPN_SYNC_OUT_CORR, the manager drives SYNC_OUT once and sends the sync cell of that pulse
(R340). [DESIGN CHOICE: log 125] -/
def syncPulse (d : Dev) : Dev :=
  match pulseAt 1000000 (rget SPN_SYNC_OUT_CORR.CORR 0 0 d) d with
  | some ms =>
    if isMgr d && rget SPN_SYNC_OUT_OWNER.OWNER 0 0 d == 0xF300 && decide (d.spn.syncFrom ≤ ms * 1000000) && d.spn.lastMs != some ms then
      let d := onSpn (fun p => { p with lastMs := some ms }) d
      sendCtl none 3 (syncRec (ms / 1000) (ms % 1000) (rget FCT_MGR_STAT.TERM 0 0 d)) (emit (.pulse false (ms / 1000) (ms % 1000 * 1000000) 200) d)
    else d
  | none => d
/-- At a whole second, advanced by SPN_PPS_OUT_CORR, PPS_OUT pulses once while enabled and owned. [DESIGN CHOICE: log 125] -/
def ppsPulse (d : Dev) : Dev :=
  match pulseAt 1000000000 (rget SPN_PPS_OUT_CORR.CORR 0 0 d) d with
  | some s =>
    if flag SPN_PPS_OUT.EN 0 0 d && (face Pg.SPN d).owner != 0 && d.spn.lastSec != some s then
      emit (.pulse true s 0 (rget SPN_PPS_OUT.WIDTH 0 0 d * 1000000)) (onSpn (fun p => { p with lastSec := some s }) d)
    else d
  | none => d

/-! Timed-action entries (R344 to R348). -/

/-- Registers that a timed WRITE may not name, by register (R345); FP_KEY and FP_OWNER are told by their offset. -/
def timedBarred (r : Reg) : Bool :=
  [Reg.LPM_LOCKt, .XM_LOCKn, .NHT_LOCK, .TCM_SLICEk_OWNER, .TMS_MIRk_OWNER, .SPN_SYNC_OUT_OWNER, .MEM_GRANTr, .SVC_WHEEL_CMD, .SPN_ACT_CMD].contains r
/-- Whether a timed WRITE may name an address (R345). -/
def timedAddrOk (addr : Nat) : Bool :=
  let p := addr / 65536
  let o := addr % 65536
  addr % 4 == 0 && pageExists p && o != 0x00C && o != 0x034 && (match placeAt p o with | some x => !timedBarred x.reg | none => true)
/-- Image of entry i for SPN_ACT_RES. -/
def actImg (i : Nat) (a : Option Act) : Nat :=
  match a with
  | some a => 2 ^ 255 + i * 2 ^ 240 + a.owner * 2 ^ 224 + a.kind * 2 ^ 221 + (a.t / 1000000000 % 2 ^ 48) * 2 ^ 160 + a.t % 1000000000 * 2 ^ 128 + a.period * 2 ^ 96 + a.addr * 2 ^ 68 + a.data * 2 ^ 32 + a.set
  | none => 0
/-- Whether an entry's action is due. -/
def Act.isDue (a : Act) (d : Dev) : Bool := a.due || decide (a.t ≤ nowNs d)
/-- An ARM meets an entry whose action is due: the action is performed as it stood, a one-shot entry is free and a periodic one moves
on; the ARM applies afterwards (R348). What is performed waits for the Spindle. [DEDUCED: log 70] -/
def actDetach (i : Nat) (d : Dev) : Dev :=
  match find? d.spn.acts i with
  | some x =>
    if !x.isDue d || x.kind == 3 then d
    else
      onSpn (fun p => { p with loose := p.loose ++ [(i, x)], deferred := p.deferred.filter (· != i),
                               acts := if x.period = 0 then del p.acts i else ins p.acts i { x with t := x.t + x.period, due := false } }) d
  | none => d
/-- ARM (R345, R347): the code that refuses it, or 0. -/
def actArm (i : Nat) (a : Act) (ns : Nat) (d : Dev) : Nat × Dev :=
  let periodBad := a.period ≠ 0 ∧ (a.period < 1000 ∨ 1000000000 < a.period)
  if 3 ≤ a.kind ∨ 999999999 < ns ∨ periodBad ∨ (a.kind = 0 ∧ !timedAddrOk a.addr) then (Err.BAD_ARG, d)
  else
    let d := actDetach i d
    let held := match find? d.spn.acts i with | some x => x.owner != a.owner | none => false
    if held then (Err.OWNER_BUSY, d)
    else if nowNs d < a.t then (0, onSpn (fun p => { p with acts := ins p.acts i a }) d)
    else if flag SPN_X_CFG.STRICT 0 0 d then (Err.TIME_PAST, d)
    else (0, fire Pg.SPN 0 (inc Pg.SPN 1 (onSpn (fun p => { p with acts := ins p.acts i (lateAct (nowNs d) a) }) d)))
/-- CANCEL (R345); an action that is due is performed, and its CANCEL refused with BAD_ARG (R348). [DEDUCED: log 70] -/
def actCancel (i owner : Nat) (d : Dev) : Nat × Dev :=
  match find? d.spn.acts i with
  | some x =>
    if x.kind = 3 then (Err.NOT_OWNER, d)
    else if x.isDue d then (Err.BAD_ARG, d)
    else if x.owner ≠ owner then (Err.NOT_OWNER, d)
    else (0, onSpn (fun p => { p with acts := del p.acts i, deferred := p.deferred.filter (· != i) }) d)
  | none => (Err.NOT_OWNER, d)
/-- A write of SPN_ACT_CMD: with GO the command runs to its end (R50, R345). [DESIGN CHOICE: log 5] -/
def actCmdWrite (req : Requester) (img : Nat) (d : Dev) : Dev :=
  let d := storeFields false .SPN_ACT_CMD 0 0 img d
  if !SPN_ACT_CMD.GO.on img then d
  else
    let i := SPN_ACT_CMD.INDEX.of img
    let id := SPN_ACT_CMD.OWNER_ID.of img
    let a : Act :=
      { owner := id, kind := SPN_ACT_CMD.KIND.of img, t := SPN_ACT_CMD.SEC.of img * 1000000000 + SPN_ACT_CMD.NS.of img, period := SPN_ACT_CMD.PERIOD.of img,
        addr := SPN_ACT_CMD.ADDR.of img, data := SPN_ACT_CMD.DATA.of img, set := SPN_ACT_CMD.SET.of img }
    let op := SPN_ACT_CMD.OP.of img
    let (code, d) : Nat × Dev :=
      if 2 < op then (Err.BAD_ARG, d)
      else if op = 2 then (0, loadImg .SPN_ACT_RES 0 0 (actImg i (find? d.spn.acts i)) d)
      else if id = 0 ∨ idRefused req id then (Err.BAD_ARG, d)
      else if op = 0 then actArm i a (SPN_ACT_CMD.NS.of img) d
      else actCancel i id d
    if code = 0 then d else errAt code .SPN_ACT_CMD 0 0 d
/-- A read of SPN_TIMER_FIFO pops its head into the register. -/
def timerPop (d : Dev) : Dev :=
  match d.spn.timerFifo with
  | [] => loadImg .SPN_TIMER_FIFO 0 0 0 d
  | x :: t => loadImg .SPN_TIMER_FIFO 0 0 (2 ^ 31 + x) (onSpn (fun p => { p with timerFifo := t }) d)
/-- The EPC takes a free entry for a timed switch (R220): its index, or none. -/
def epcArm (t seq : Nat) (d : Dev) : Option Dev :=
  (lowestFree d.spn.acts 0 4096).map fun i =>
    onSpn (fun p => { p with acts := ins p.acts i { owner := 0xF200, kind := 3, t := t, switchSeq := seq } }) d
/-- The EPC releases its entry. -/
def epcDisarm (d : Dev) : Dev := onSpn (fun p => { p with acts := p.acts.filter (fun x => x.2.kind != 3) }) d

/-! Gate lists (R351 to R357). -/

/-- The gates of a port. -/
def gate (n : Nat) (d : Dev) : GatePort := look d.spn.gates n {}
/-- Set the gates of a port. -/
def setGate (n : Nat) (g : GatePort) (d : Dev) : Dev := onSpn (fun p => { p with gates := put p.gates n {} g }) d
/-- A stored entry under a cycle (R351). -/
def gateEnt (img cycle : Nat) : GateEnt :=
  let iv := bits img 29 0
  { gates := bits img 39 32, op := bits img 63 62, iv := iv,
    bad := bits img 63 62 == 3 || bits img 61 40 != 0 || bits img 31 30 != 0 || decide (iv < 4) || decide (cycle < iv) }
/-- The entry in force at time t of a list, and how long it still holds, with its index (R354); an empty list is open for good. -/
def gateWalk (cycle : Nat) : List GateEnt → Nat → Nat → Nat → GateEnt → (GateEnt × Nat × Nat)
  | [], x, i, left, last => (last, left - x, i - 1)
  | e :: t, x, i, left, last =>
    if x < e.iv then (e, (if t.isEmpty then left - x else min (e.iv - x) (left - x)), i)
    else gateWalk cycle t (x - e.iv) (i + 1) (left - e.iv) (if t.isEmpty then e else last)
/-- gate_state of R354 with the time that the entry still holds. -/
def gateAt (l : GateList) (t : Nat) : GateEnt × Nat × Nat :=
  let x := (t - l.base) % l.cycle
  gateWalk l.cycle l.list x 0 l.cycle {}
/-- Whether class c is open under a list at time t, and for how long this entry holds. -/
def classAt (l : GateList) (c t : Nat) : Bool × Nat :=
  if l.list.isEmpty then (true, 2 ^ 64) else let e := gateAt l t; (bit e.1.gates c, e.2.1)
/-- Whether class c stays open over d ns from t under one list, with fuel for the entries met. -/
def openFor (l : GateList) (c : Nat) : Nat → Nat → Nat → Bool
  | 0, _, _ => false
  | n + 1, t, d =>
    let (o, left) := classAt l c t
    o && (decide (d ≤ left) || (decide (0 < left) && openFor l c n (t + left) (d - left)))
/-- The list in force, open where none runs. -/
def gateNow (g : GatePort) : GateList := g.running.getD { base := 0 }
/-- Whether class c of port n is open from s for d ns, under whichever list governs (R355). -/
def gateFits (n c s len : Nat) (d : Dev) : Bool :=
  let g := gate n d
  let l := gateNow g
  match g.pend with
  | some p =>
    if s + len ≤ p.base then openFor l c 2100 s len
    else if p.base ≤ s then openFor p c 2100 s len
    else openFor l c 2100 s (p.base - s) && openFor p c 2100 p.base (s + len - p.base)
  | none => openFor l c 2100 s len
/-- The longest run of open time of class c among segments, with the run so far. -/
def longestRun (c : Nat) : List GateEnt → Nat → Nat → Nat
  | [], cur, best => max cur best
  | e :: t, cur, best => if bit e.gates c then longestRun c t (cur + e.iv) (max best (cur + e.iv)) else longestRun c t 0 best
/-- The segments of one cycle (R351): cut at its end, the last held to its end. -/
def gateCut : List GateEnt → Nat → List GateEnt
  | [], _ => []
  | e :: t, left => if left = 0 then [] else if t.isEmpty then [{ e with iv := left }] else { e with iv := min e.iv left } :: gateCut t (left - min e.iv left)
/-- MAXOPEN of class c; none where the class never closes (R356). -/
def maxOpen (l : GateList) (c : Nat) : Option Nat :=
  let segs := gateCut l.list l.cycle
  if segs.all fun e => bit e.gates c then none else some (longestRun c (segs ++ segs) 0 0)
/-- Whether SET_HOLD is in force at time t: the last HOLD or RELEASE entry met, going round the list (R357). -/
def gateHeld (l : GateList) (t : Nat) : Bool :=
  let i := (gateAt l t).2.2
  let order := (l.list.drop (i + 1) ++ l.list.take (i + 1)).reverse
  match order.find? (fun e => e.op != 0) with
  | some e => e.op == 1
  | none => false
/-- Port rate in Gb/s (R56). -/
def portRate (n : Nat) (d : Dev) : Nat :=
  let wide := if pflag LPG_PORTn_CFG.SPEED200 n d then 200 else 100
  match lpgMode (n / 4) d with
  | 1 => wide
  | 2 => 400
  | 3 => if n % 4 = 0 then 400 else wide
  | 4 => 800
  | 5 => 1600
  | _ => 0
/-- Transmit time of a frame in ns (R355). -/
def txTime (n len : Nat) (d : Dev) : Nat :=
  let m := if pflag LPG_PORTn_MSEC.EN n d then (if pflag LPG_PORTn_MSEC.INCLUDE_SCI n d then 32 else 24) else 0
  let r := max 1 (portRate n d)
  ((len + 24 + m) * 8 + r - 1) / r
/-- Bring the state that SPN_GATEn_STAT shows up to now (R354). -/
def gateRefresh (n : Nat) (d : Dev) : Dev :=
  let g := gate n d
  let d := rset SPN_GATEn_STAT.STATE 0 n (b2n g.running.isSome) (rset SPN_GATEn_STAT.PEND 0 n (b2n g.pend.isSome) d)
  match g.running with
  | some l =>
    let e := gateAt l (nowNs d)
    rset SPN_GATEn_STAT.BANK 0 n l.bank (rset SPN_GATEn_STAT.GATES 0 n e.1.gates (rset SPN_GATEn_STAT.ENTRY 0 n e.2.2 d))
  | none => rset SPN_GATEn_STAT.GATES 0 n 0xFF (rset SPN_GATEn_STAT.ENTRY 0 n 0 d)
/-- Whether a list bank of a port is running or pending (R352). -/
def gateBankBusy (g : GatePort) (b : Nat) : Bool :=
  (match g.running with | some l => l.bank == b | none => false) ||
    (match g.pend with | some l => !l.list.isEmpty && l.bank == b | none => false)
/-- A commit of SPN_GCL_DATA: the addressed entry is written and ENTRY advances (R352). -/
def gclWrite (img : Nat) (d : Dev) : Dev :=
  let n := rget SPN_GCL_ADDR.PORT 0 0 d
  let b := rget SPN_GCL_ADDR.BANK 0 0 d
  let i := rget SPN_GCL_ADDR.ENTRY 0 0 d
  let g := gate n d
  if gateBankBusy g b then errAt 0x20 .SPN_GCL_DATA 0 0 d
  else
    let g := { g with lastBank := b }
    let g := if b = 0 then { g with bank0 := put g.bank0 i 0 img } else { g with bank1 := put g.bank1 i 0 img }
    rset SPN_GCL_ADDR.ENTRY 0 0 ((i + 1) % 1024) (rset SPN_GCL_DATA.ENTRY 0 0 img (setGate n g d))
/-- A read of SPN_GCL_DATA fetches the addressed entry. -/
def gclRead (d : Dev) : Dev :=
  let g := gate (rget SPN_GCL_ADDR.PORT 0 0 d) d
  let i := rget SPN_GCL_ADDR.ENTRY 0 0 d
  rset SPN_GCL_DATA.ENTRY 0 0 (look (if rget SPN_GCL_ADDR.BANK 0 0 d = 0 then g.bank0 else g.bank1) i 0) d
/-- The idle bank that a commit takes: the one not running; with both idle, the one last written. [DESIGN CHOICE: log 107] -/
def idleBank (g : GatePort) : Nat := match g.running with | some l => 1 - l.bank | none => g.lastBank
/-- COMMIT and COMMIT_OPEN (R352, R353). [DESIGN CHOICE: log 107] -/
def gateCommit (n img : Nat) (isOpen : Bool) (d : Dev) : Dev :=
  let g := gate n d
  let len := SPN_GATEn_ADMIN.LENGTH.of img
  let cycle := SPN_GATEn_ADMIN.CYCLE.of img
  let b := idleBank g
  let list := (List.range len).map fun i => gateEnt (look (if b = 0 then g.bank0 else g.bank1) i 0) cycle
  let invalid := !isOpen && (decide (len < 1 ∨ 1024 < len ∨ cycle < 1000 ∨ 1000000000 < cycle) || list.any (·.bad))
  let base := SPN_GATEn_ADMIN.BASE_SEC.of img * 1000000000 + SPN_GATEn_ADMIN.BASE_NS.of img
  let now := nowNs d
  let late := decide (base < now + 2000)
  if g.pend.isSome then errAt 0x20 .SPN_GATEn_ADMIN 0 n d
  else if invalid then errAt 0x21 .SPN_GATEn_ADMIN 0 n d
  else if late && flag SPN_X_CFG.STRICT 0 0 d then errAt Err.TIME_PAST .SPN_GATEn_ADMIN 0 n d
  else
    let at_ := if !late then base else if isOpen then now + 2000 else base + (now + 2000 - base + cycle - 1) / cycle * cycle
    let d := if late then
        fire Pg.SPN 1 (inc Pg.SPN 6 (rset SPN_GATEn_ADJ_BASE.LATE 0 n 1 (rset SPN_GATEn_ADJ_BASE.SEC 0 n (at_ / 1000000000) (rset SPN_GATEn_ADJ_BASE.NS 0 n (at_ % 1000000000) d))))
      else rset SPN_GATEn_ADJ_BASE.LATE 0 n 0 d
    let l : GateList := if isOpen then { base := at_ } else { base := at_, cycle := cycle, list := list, bank := b }
    gateRefresh n (setGate n { g with pend := some l } d)
/-- CANCEL of a pending commit (R352). -/
def gateCancel (n : Nat) (d : Dev) : Dev :=
  let g := gate n d
  if g.pend.isSome then gateRefresh n (setGate n { g with pend := none } d) else errAt Err.BAD_ARG .SPN_GATEn_ADMIN 0 n d
/-- Local time reaches BASE: the pending list or the open state takes over (R352). -/
def gateSwitch (n : Nat) (d : Dev) : Dev :=
  let g := gate n d
  match g.pend with
  | some l =>
    if l.base ≤ nowNs d then
      fire Pg.SPN 8 (inc Pg.SPN 5 (gateRefresh n (setGate n { g with running := if l.list.isEmpty then none else some l, pend := none } d)))
    else d
  | none => d
/-- A write of SPN_GATEn_ADMIN: a BASE that has been reached takes effect before the command (R348, R352). -/
def gateAdminWrite (n img : Nat) (d : Dev) : Dev :=
  let d := gateSwitch n (storeFields false .SPN_GATEn_ADMIN 0 n img d)
  if !SPN_GATEn_ADMIN.GO.on img then d
  else match SPN_GATEn_ADMIN.OP.of img with
    | 0 => gateCommit n img false d
    | 1 => gateCommit n img true d
    | 2 => gateCancel n d
    | _ => errAt Err.BAD_ARG .SPN_GATEn_ADMIN 0 n d

end Sys2Proof.Machine
end

