-- ==== Sys2Proof/Machine/Epoch.lean ====
section
/-! DEFINITION. Rule-set epochs and the Mandrel (08_epochs_mandrel.md). -/

namespace Sys2Proof.Machine

/-- STATE of the epoch machine: 0 STABLE, 1 ARMED, 2 DRAINING, 3 PREPARED. -/
def epcState (d : Dev) : Nat := rget EPC_STAT.STATE 0 0 d
/-- Set STATE. -/
def setEpc (st : Nat) (d : Dev) : Dev := rset EPC_STAT.STATE 0 0 st d
/-- Change the epoch controller's own state. -/
def onEpc (f : Epc → Epc) (d : Dev) : Dev := { d with epc := f d.epc }

/-- The old bank's count has reached 0: the drain is complete (R220, R225). [DEDUCED: log 46] -/
def drainComplete (d : Dev) : Dev :=
  if epcState d = 2 ∧ inflight (1 - curBank d) d = 0 then
    fire Pg.EPC 1 (rset EPC_DRAIN_TIME.TIME 0 0 (min ((d.mono - d.epc.drainAt) / 10) 0xFFFF) (setEpc 0 d))
  else d
/-- A switch: the idle bank becomes current (R221, R223, R225). -/
def doSwitch (seq : Nat) (late : Bool) (d : Dev) : Dev :=
  let b := 1 - curBank d
  let d := rset EPC_STAT.BANK 0 0 b (rset EPC_STAT.SEQ 0 0 seq d)
  let d := rset EPC_LAST.VALID 0 0 1 (rset EPC_LAST.LATE 0 0 (b2n late) (rset EPC_LAST.BANK 0 0 b (rset EPC_LAST.SEQ 0 0 seq d)))
  let d := rset EPC_LAST.SEC 0 0 (nowNs d / 1000000000) (rset EPC_LAST.NS 0 0 (nowNs d % 1000000000) d)
  let d := fire Pg.EPC 0 (inc Pg.EPC 0 (onEpc (fun e => { e with drainAt := d.mono }) (setEpc 2 d)))
  drainComplete (if late then fire Pg.EPC 2 (inc Pg.EPC 1 d) else d)
/-- What makes the idle bank not ready: NR_CAUSE (R222). [DEDUCED: log 47] -/
def notReady (d : Dev) : Nat :=
  let b := 1 - curBank d
  let profs := (List.range 64).filter fun i => flag (HDS_PROF.VALID b) 0 i d
  let kinds (k : Nat) : List (Nat × Nat) := profs.flatMap fun i => ((List.range 6).filter fun s => rget (HDS_PROF.KIND b s) 0 i d == k).map fun s => (i, s)
  let burl := !(kinds 4).isEmpty && (verified b d).isEmpty
  let tcam := (kinds 3).any fun x => let g := groupOf b (rget (HDS_PROF.ARG b x.2) 0 x.1 d % 16) d; !g.valid || g.egress
  b2n burl + 2 * b2n tcam
/-- The checks of R222 on a switch to a SEQ: the code that refuses it, or 0, with NR_CAUSE set where it applies. [DESIGN CHOICE: log 37] -/
def switchCheck (seq : Nat) (d : Dev) : Nat × Dev :=
  if epcState d ≠ 0 then (Err.EPOCH_BUSY, d)
  else if seq = curSeq d then (Err.BAD_ARG, d)
  else
    let c := notReady d
    if c ≠ 0 then (Err.NOT_READY, rset EPC_STAT.NR_CAUSE 0 0 c d) else (0, d)
/-- SWITCH_NOW (R220, R222). -/
def switchNow (seq : Nat) (d : Dev) : Nat × Dev :=
  if flag EPC_CFG.CHASSIS 0 0 d then (Err.BAD_ARG, d)
  else let (c, d) := switchCheck seq d; if c ≠ 0 then (c, d) else (0, doSwitch seq false d)
/-- SWITCH_AT (R220, R223). -/
def switchAt (seq t ns : Nat) (d : Dev) : Nat × Dev :=
  if flag EPC_CFG.CHASSIS 0 0 d ∨ 999999999 < ns then (Err.BAD_ARG, d)
  else
    let (c, d) := switchCheck seq d
    if c ≠ 0 then (c, d)
    else if t ≤ nowNs d then
      (if flag EPC_X_CFG.STRICT 0 0 d then (Err.TIME_PAST, d) else (0, doSwitch seq true d))
    else match epcArm t seq d with
      | some d => (0, setEpc 1 d)
      | none => (Err.RESOURCE_FULL, d)
/-- The entry of an ARMED switch. -/
def epcEntry (d : Dev) : Option Act := (d.spn.acts.find? fun x => x.2.kind == 3).map (·.2)
/-- The switch instant of an ARMED switch is reached, or a jump has passed it (R220, R223, R347). -/
def epochSwitch (d : Dev) : Dev :=
  match epcEntry d with
  | some a => if epcState d = 1 ∧ (a.t ≤ nowNs d ∨ a.due) then doSwitch a.switchSeq a.due (inc Pg.SPN 0 (epcDisarm d)) else d
  | none => d
/-- CANCEL: at its instant the switch takes place first and the CANCEL is refused (R224). -/
def epochCancel (d : Dev) : Nat × Dev :=
  let d := epochSwitch d
  if epcState d = 1 then (0, setEpc 0 (epcDisarm d)) else (Err.BAD_ARG, d)
/-- The other members of the chassis. -/
def otherMembers (d : Dev) : List Nat := (bitsOf 64 (rget FCT_MEMBERS.SET 0 0 d)).filter (· != devId d)
/-- The manager aborts a chassis switch (R228). -/
def chassisAbort (d : Dev) : Dev :=
  let seq := d.epc.mgrSeq.getD 0
  let d := onEpc (fun e => { e with mgrSeq := none, ready := [], workers := [] }) (sendCtl none 2 (epochRec 4 seq 0 0) d)
  fire Pg.EPC 4 (inc Pg.EPC 3 (errAt 0x20 .EPC_SWITCH 0 0 d))
/-- Every worker is ready: the manager sends COMMIT with T and arms itself (R228). -/
def chassisCommit (d : Dev) : Dev :=
  let seq := d.epc.mgrSeq.getD 0
  let t := nowNs d + rget EPC_X_CFG.LEAD 0 0 d * 1000
  match epcArm t seq d with
  | some d => sendCtl none 2 (epochRec 3 seq 0 t) (setEpc 1 (onEpc (fun e => { e with mgrSeq := none, ready := [], workers := [] }) d))
  | none => chassisAbort (errAt Err.RESOURCE_FULL .EPC_SWITCH 0 0 d)
/-- Whether every worker that PREPARE went to has returned READY: those in FCT_MEMBERS when it was sent (R228, R386). -/
def allReady (d : Dev) : Bool := d.epc.workers.all fun m => d.epc.ready.contains m
/-- Commit once every worker has returned READY (R228). [DESIGN CHOICE: log 37] -/
def chassisCheck (d : Dev) : Dev := if d.epc.mgrSeq.isSome && allReady d then chassisCommit d else d
/-- CHASSIS_SWITCH on the manager (R228). -/
def chassisSwitch (seq : Nat) (d : Dev) : Nat × Dev :=
  if !isMgr d ∨ !flag EPC_CFG.CHASSIS 0 0 d then (Err.BAD_ARG, d)
  else if d.epc.mgrSeq.isSome then (Err.EPOCH_BUSY, d)
  else
    let (c, d) := switchCheck seq d
    if c ≠ 0 then (c, d)
    else (0, chassisCheck (sendCtl none 2 (epochRec 0 seq 0 0) (onEpc (fun e => { e with mgrSeq := some seq, mgrAt := d.mono, ready := [], workers := otherMembers d }) d)))
/-- A write of EPC_SWITCH: the counts are evaluated before the command (R225). -/
def epcSwitchWrite (img : Nat) (d : Dev) : Dev :=
  let d := drainComplete (storeFields false .EPC_SWITCH 0 0 img d)
  if !EPC_SWITCH.GO.on img then d
  else
    let seq := EPC_SWITCH.SEQ.of img
    let ns := EPC_SWITCH.NS.of img
    let (c, d) : Nat × Dev := match EPC_SWITCH.OP.of img with
      | 0 => switchNow seq d
      | 1 => switchAt seq (EPC_SWITCH.SEC.of img * 1000000000 + ns) ns d
      | 2 => epochCancel d
      | 3 => chassisSwitch seq d
      | _ => (Err.BAD_ARG, d)
    if c = 0 then d else errAt c .EPC_SWITCH 0 0 d
/-- A worker receives PREPARE (R228). Its NOT_READY carries EPC_STAT.NR_CAUSE as it stands. [DEDUCED: log 47] -/
def epochPrepare (seq : Nat) (d : Dev) : Dev :=
  let mgr := rget FCT_MGR_STAT.MGR_DEV 0 0 d
  let d := onEpc (fun e => { e with seen := some seq }) d
  if epcState d = 3 ∧ d.epc.prepSeq = seq then sendCtl (some mgr) 2 (epochRec 1 seq 0 0) d
  else
  let (c, d) := switchCheck seq (drainComplete d)
  if c = 0 then sendCtl (some mgr) 2 (epochRec 1 seq 0 0) (setEpc 3 (onEpc (fun e => { e with prepSeq := seq, prepAt := d.mono }) d))
  else sendCtl (some mgr) 2 (epochRec 2 seq (rget EPC_STAT.NR_CAUSE 0 0 d) 0) d
/-- The manager receives READY from a worker (R228). -/
def epochReady (dev seq : Nat) (d : Dev) : Dev :=
  if d.epc.mgrSeq = some seq then chassisCheck (onEpc (fun e => { e with ready := if e.ready.contains dev then e.ready else dev :: e.ready }) d) else d
/-- The manager receives NOT_READY (R228). -/
def epochNotReady (seq : Nat) (d : Dev) : Dev := if d.epc.mgrSeq = some seq then chassisAbort d else d
/-- The manager's 1 ms ends (R228); before that the row does nothing. [DEDUCED: log 47] -/
def readyTimeout (d : Dev) : Dev :=
  if d.epc.mgrSeq.isSome && decide (d.epc.mgrAt + 1000000 ≤ d.mono) then (if allReady d then chassisCommit d else chassisAbort d) else d
/-- The end of a chassis switch has been seen: a COMMIT or ABORT of its SEQ (R229). -/
def epochSeen (seq : Nat) (d : Dev) : Dev := if d.epc.seen = some seq then onEpc (fun e => { e with seen := none }) d else d
/-- A worker receives COMMIT with T (R220, R223). -/
def epochCommit (seq t : Nat) (d : Dev) : Dev :=
  if epcState d ≠ 3 ∨ d.epc.prepSeq ≠ seq then d
  else if t ≤ nowNs d then
    (if flag EPC_X_CFG.STRICT 0 0 d then errAt Err.TIME_PAST .EPC_SWITCH 0 0 (setEpc 0 d) else doSwitch seq true d)
  else match epcArm t seq d with
    | some d => setEpc 1 d
    | none => errAt Err.RESOURCE_FULL .EPC_SWITCH 0 0 (setEpc 0 d)
/-- A worker in PREPARED receives ABORT, or 10 ms pass without COMMIT (R220). -/
def epochAbort (d : Dev) : Dev := if epcState d = 3 then fire Pg.EPC 4 (inc Pg.EPC 3 (setEpc 0 d)) else d
/-- 10 ms in PREPARED pass without COMMIT (R220); before that the row does nothing. -/
def prepareTimeout (d : Dev) : Dev := if d.epc.prepAt + 10000000 ≤ d.mono then epochAbort d else d
/-- A write of EPC_CFG: refused while STATE is not STABLE. -/
def epcCfgWrite (img : Nat) (d : Dev) : Dev :=
  if epcState d ≠ 0 then errAt Err.EPOCH_BUSY .EPC_CFG 0 0 d else storeFields false .EPC_CFG 0 0 img d
/-- A write of EPC_X_CFG. -/
def epcXWrite (img : Nat) (d : Dev) : Dev :=
  if !expertOf Pg.EPC d then errAt Err.EXPERT_LOCKED .EPC_X_CFG 0 0 d
  else if EPC_X_CFG.LEAD.of img < 10 then errAt Err.BAD_ARG .EPC_X_CFG 0 0 d else storeFields true .EPC_X_CFG 0 0 img d

/-! Waiting passes. -/

/-- The Tailstock reports one packet of a port finished (R254, R263). -/
def reportDone (port : Nat) (d : Dev) : Dev := { d with cross := { d.cross with dones := d.cross.dones ++ [(port, 1)] } }
/-- An ingress pass that waits before dispatch or in the Mandrel is dropped. -/
def dropWaiting (n code : Nat) (d : Dev) : Dev :=
  match getPass n d with
  | some p =>
    let q := d.head.mandrel.filter (· != n)
    passDrop n p code (rset MDL_STAT.LEVEL 0 0 q.length { d with head := { d.head with mandrel := q } })
  | none => d
/-- A drain that has not ended after 49 µs: the packets of the old bank that wait are dropped (R227). An egress packet binds only
as it is dispatched (R218), so none that waits is bound to the old bank. -/
def drainForce (d : Dev) : Dev :=
  let old := 1 - curBank d
  if epcState d = 2 ∧ inflight old d ≠ 0 ∧ d.epc.drainAt + 49000 ≤ d.mono then
    let stale := (d.head.passes.filter fun x => !x.2.egress && x.2.bank == old && (x.2.stage == .ready || x.2.stage == .mandrel)).map (·.1)
    let d := fire Pg.EPC 3 d
    drainComplete (stale.foldl (fun s n => inc Pg.EPC 2 (dropWaiting n 0x52 s)) d)
  else d

/-! The Mandrel (R231 to R234). -/

/-- A released RECIRC verdict sends the pass to the Mandrel queue (R231, R233). -/
def mandrelEnter (n : Nat) (p : Pass) (d : Dev) : Dev :=
  let packet := p.rebuilt
  let k := PX.PASS.get p.pcx + 1
  let q := ({ p with bytes := packet, stage := .mandrel }.px PX.PASS k).px PX.PKT_LEN packet.length
  let q := { q with acts := {}, verdict := none, regs := [], pend := [], issued := 0, stalls := 0, waited := false, traced := false, forced := false }
  if !blkEn Pg.MDL d then passDrop n q 0x51 (inc Pg.MDL 6 d)
  else if 4096 ≤ d.head.mandrel.length then passDrop n q 0x51 (fire Pg.MDL 0 (inc Pg.MDL 6 d))
  else
    let l := d.head.mandrel ++ [n]
    let d := inc Pg.MDL 0 (inc Pg.MDL k (if p.forced then inc Pg.MDL 4 d else d))
    rset MDL_STAT.LEVEL 0 0 l.length (setPass n q { d with head := { d.head with mandrel := l } })
/-- Whether the Mandrel may take a slot now (R232): one of its share that the window still has, or, borrowed, one that no line
port group and not port 240 claims; a FIFO that holds a frame claims. [DESIGN CHOICE: log 28] -/
def mandrelMay (borrowed : Bool) (d : Dev) : Bool :=
  let m := mdlShare d
  if borrowed then m.borrow && (List.range 33).all fun k => (fifo k d).isEmpty else decide (m.used < m.share)
/-- The oldest Mandrel pass takes a granted slot and is parsed again (R83, R231, R232). A borrowed slot does not count against
SHARE. [DESIGN CHOICE: log 28] -/
def mandrelReenter (borrowed : Bool) (d : Dev) : Dev :=
  if !mandrelMay borrowed d || !blkEn Pg.HDS d then d
  else match d.head.mandrel with
    | [] => d
    | n :: rest =>
      let m := mdlShare d
      let m := if borrowed then m else { m with used := m.used + 1 }
      let d := rset MDL_STAT.LEVEL 0 0 rest.length { d with head := { d.head with mandrel := rest, mdl := m } }
      let d := if borrowed then inc Pg.MDL 7 d else d
      match getPass n d with
      | some p => parsePass n { p with prof := PX.RECIRC_PROF.get p.pcx } ((PX.HDR_TYPE 0).get p.pcx) false d
      | none => d
/-- A write of MDL_CFG (R234): it takes effect from the next window, so the window at hand keeps the settings it started with. -/
def mdlCfgWrite (req : Requester) (img : Nat) (d : Dev) : Dev :=
  let o := (face Pg.MDL d).owner
  let id := MDL_CFG.OWNER_ID.of img
  if idRefused req id then errAt Err.BAD_ARG .MDL_CFG 0 0 d
  else if o ≠ 0 ∧ id ≠ o then errAt Err.NOT_OWNER .MDL_CFG 0 0 d
  else if 1024 < MDL_CFG.SHARE.of img then errAt Err.BAD_ARG .MDL_CFG 0 0 d
  else storeFields false .MDL_CFG 0 0 img { d with head := { d.head with mdl := mdlShare d } }

end Sys2Proof.Machine
end

