-- ==== Sys2Proof/Machine/Counters.lean ====
section
/-! DEFINITION. Statistics counters with their snapshots, and the performance counters of every page
(17_counters_heartwood.md, R465 to R477). -/

namespace Sys2Proof.Machine

/-- Change the statistics counters. -/
def onCnt (f : Cnt → Cnt) (d : Dev) : Dev := { d with cnt := f d.cnt }
/-- A counter word: 2i the packet count of pair i, 2i + 1 its byte count. -/
def cntWord (w : Nat) (d : Dev) : Nat := look d.cnt.words w 0
/-- Set a counter word; a written word is no longer in error. -/
def setCntWord (w v : Nat) (d : Dev) : Dev :=
  onCnt (fun c => { c with words := put c.words w 0 (v % 2 ^ 64), bad := c.bad.filter (· != w) }) d
/-- An uncorrectable error met in a word (R469). -/
def cntBad (w : Nat) (d : Dev) : Dev :=
  let d := fire Pg.CNT 1 (inc Pg.CNT 6 d)
  if flag CNT_ECC_ADDR.VALID 0 0 d then d
  else eccLog Pg.CNT (w / 2 + w % 2 * 2 ^ 21) (loadImg .CNT_ECC_ADDR 0 0 (2 ^ 31 + w % 2 * 2 ^ 21 + w / 2) d)
/-- What reading a word gives: 0 where it cannot be corrected (R469). [DESIGN CHOICE: log 96] -/
def cntRead (w : Nat) (seen : EccSeen) (d : Dev) : Nat × Dev :=
  let d := match seen with
    | .clean => d
    | .corrected => inc Pg.CNT 5 d
    | .uncorrectable => onCnt (fun c => { c with bad := if c.bad.contains w then c.bad else w :: c.bad }) d
  if d.cnt.bad.contains w then (0, cntBad w d) else (cntWord w d, d)

/-! Snapshots (R470 to R472). -/

/-- Source range of a snapshot: first pair and count. -/
def snapSrc (d : Dev) : Nat × Nat := (rget CNT_SNAP_CFG.FIRST 0 0 d, rget CNT_SNAP_CFG.COUNT 0 0 d)
/-- First destination pair. -/
def snapDest (d : Dev) : Nat := rget CNT_SNAP_CFG.DEST 0 0 d
/-- Copy pair i of the source range to its destination. [DEDUCED: log 95] -/
def copyPair (i : Nat) (d : Dev) : Dev :=
  let j := snapDest d + (i - (snapSrc d).1)
  let (a, d) := cntRead (2 * i) .clean d
  let (b, d) := cntRead (2 * i + 1) .clean d
  setCntWord (2 * j + 1) b (setCntWord (2 * j) a d)
/-- Before an update or a command reaches pair i: every frozen capture that has not copied it copies it (R471). -/
def snapCopy (i : Nat) (d : Dev) : Dev :=
  let (f, n) := snapSrc d
  let need := d.cnt.caps.any fun c => c.frozen && bit c.set 0 && decide (f ≤ i ∧ i < f + n) && !c.copied.contains i
  if need then
    onCnt (fun c => { c with caps := c.caps.map fun k => if k.frozen && bit k.set 0 then { k with copied := i :: k.copied } else k }) (copyPair i d)
  else d
/-- The port counters as they stand, keyed 32 × port + k (R472). -/
def portSnapshot (d : Dev) : Tbl Nat :=
  (List.range 128).foldl (fun t n =>
    if portExists n d then
      (List.range 32).foldl (fun t k => put t (32 * n + k) 0 (ctr (Pg.LPG + n / 4) (0x1000 + 0x400 * (n % 4) + 8 * k) d)) t
    else t) []
/-- Captures whose instant has been reached freeze (R350, R471). -/
def snapFreeze (d : Dev) : Dev :=
  let freeze (k : Capture) : Capture :=
    if !k.frozen && decide (k.t ≤ d.spn.time) then { k with frozen := true, ports := if bit k.set 1 then portSnapshot d else [] } else k
  onCnt (fun c => { c with caps := c.caps.map freeze }) d
/-- Start a capture of a set at T, for CNT_SNAP_CMD or a timed action; none where a capture of an overlapping set runs (R350,
R471). -/
def snapStart (byCmd : Bool) (set t : Nat) (d : Dev) : Option Dev :=
  if d.cnt.caps.any fun c => c.set &&& set != 0 then none
  else
    let b0 := bit set 0 && flag CNT_SNAP_CFG.EN 0 0 d
    let b1 := bit set 1 && flag CNT_SNAP_CFG.PORT_EN 0 0 d
    let eff := b2n b0 + 2 * b2n b1
    let d := incBy Pg.CNT 3 (b2n (bit set 0 && !b0) + b2n (bit set 1 && !b1)) d
    if eff = 0 then some d
    else
      let d := if byCmd then rset CNT_SNAP_CMD.GO 0 0 1 d else d
      some (snapFreeze (rset CNT_SNAP_STAT.STATE 0 0 1 (onCnt (fun c => { c with caps := c.caps ++ [{ set := eff, t := t, byCmd := byCmd }] }) d)))
/-- A commit of CNT_SNAP_CMD (R471): GO reads 1 until its capture completes. A GO meanwhile is refused: with SNAP_ACTIVE for an
overlapping set, else with BAD_ARG (R582). -/
def snapCmdWrite (img : Nat) (d : Dev) : Dev :=
  let busy := flag CNT_SNAP_CMD.GO 0 0 d
  let go := CNT_SNAP_CMD.GO.on img
  let set := CNT_SNAP_CMD.SET.of img
  if busy && go then errAt (if d.cnt.caps.any fun c => c.set &&& set != 0 then 0x20 else Err.BAD_ARG) .CNT_SNAP_CMD 0 0 d
  else
    let d := storeFields false .CNT_SNAP_CMD 0 0 img d
    if go then
      match snapStart true set (d.spn.time + 1000 * unitNs) d with
      | some d => d
      | none => errAt 0x20 .CNT_SNAP_CMD 0 0 d
    else d
/-- Whether two ranges overlap. -/
def overlap (a n b m : Nat) : Bool := decide (a < b + m ∧ b < a + n ∧ 0 < n ∧ 0 < m)
/-- A commit of CNT_SNAP_CFG (R470). -/
def snapCfgWrite (img : Nat) (d : Dev) : Dev :=
  let en := CNT_SNAP_CFG.EN.on img
  let pen := CNT_SNAP_CFG.PORT_EN.on img
  let f := CNT_SNAP_CFG.FIRST.of img
  let dst := CNT_SNAP_CFG.DEST.of img
  let n := CNT_SNAP_CFG.COUNT.of img
  let p := CNT_SNAP_CFG.PORT_DEST.of img
  if !d.cnt.caps.isEmpty then errAt 0x20 .CNT_SNAP_CFG 0 0 d
  else if decide (2097152 < f + n) || decide (2097152 < dst + n) || decide (2097152 < p + 2048) || (en && overlap f n dst n) ||
      (en && pen && (overlap f n p 2048 || overlap dst n p 2048)) then errAt Err.BAD_ARG .CNT_SNAP_CFG 0 0 d
  else storeFields false .CNT_SNAP_CFG 0 0 img d
/-- The walker copies the source pairs that no update has copied. [DEDUCED: log 95] -/
def snapWalk (copied : List Nat) (d : Dev) : Dev :=
  let (f, n) := snapSrc d
  let dst := snapDest d
  let src := (keys d.cnt.words).filter fun w => decide (f ≤ w / 2 ∧ w / 2 < f + n) && !copied.contains (w / 2)
  let old := (keys d.cnt.words).filter fun w => decide (dst ≤ w / 2 ∧ w / 2 < dst + n) && !copied.contains (w / 2 - dst + f)
  let lost := d.cnt.bad.filter fun w => decide (f ≤ w / 2 ∧ w / 2 < f + n) && !copied.contains (w / 2)
  let d := old.foldl (fun s w => setCntWord w 0 s) d
  let d := src.foldl (fun s w => setCntWord (w + 2 * dst - 2 * f) (if lost.contains w then 0 else cntWord w d) s) d
  lost.foldl (fun s w => cntBad w s) d
/-- Write the frozen port counters to the port range; those of ports that no mode creates are 0 (R472). -/
def snapPorts (ports : Tbl Nat) (d : Dev) : Dev :=
  let p := 2 * rget CNT_SNAP_CFG.PORT_DEST 0 0 d
  let old := (keys d.cnt.words).filter fun w => decide (p ≤ w ∧ w < p + 4096)
  let d := old.foldl (fun s w => setCntWord w 0 s) d
  ports.foldl (fun s (x : Nat × Nat) => setCntWord (p + x.1) x.2 s) d
/-- The walker finishes the oldest capture whose instant has been reached (R471). -/
def snapDone (d : Dev) : Dev :=
  match d.cnt.caps with
  | c :: rest =>
    if c.frozen then
      let d := if bit c.set 0 then snapWalk c.copied d else d
      let d := if bit c.set 1 then snapPorts c.ports d else d
      let d := onCnt (fun k => { k with caps := rest }) (if c.byCmd then rset CNT_SNAP_CMD.GO 0 0 0 d else d)
      let d := rset CNT_SNAP_STAT.STATE 0 0 (if rest.isEmpty then 2 else 1) (rset CNT_SNAP_STAT.SET 0 0 c.set d)
      let d := rset CNT_SNAP_STAT.SEQ 0 0 (rget CNT_SNAP_STAT.SEQ 0 0 d + 1) d
      let d := rset CNT_SNAP_STAT.SEC 0 0 (secOf c.t) (rset CNT_SNAP_STAT.NS 0 0 (nsOf c.t) d)
      fire Pg.CNT 0 (inc Pg.CNT 2 d)
    else d
  | [] => d

/-! Updates and commands (R466 to R469). -/

/-- One update of pair i: a packet of len bytes; in a destination range it is discarded (R466, R470). -/
def cntUpdate (i : Nat) (len : Int) (d : Dev) : Dev :=
  let (_, n) := snapSrc d
  let dst := snapDest d
  let p := rget CNT_SNAP_CFG.PORT_DEST 0 0 d
  if !blkEn Pg.CNT d then d
  else if (flag CNT_SNAP_CFG.EN 0 0 d && decide (dst ≤ i ∧ i < dst + n)) || (flag CNT_SNAP_CFG.PORT_EN 0 0 d && decide (p ≤ i ∧ i < p + 2048)) then
    fire Pg.CNT 2 (inc Pg.CNT 4 d)
  else
    let d := snapCopy i d
    let (a, d) := cntRead (2 * i) .clean d
    let (b, d) := cntRead (2 * i + 1) .clean d
    inc Pg.CNT 0 (setCntWord (2 * i + 1) (toBits 64 (b + len)) (setCntWord (2 * i) (a + 1) d))
/-- An optional update. -/
def cntOpt (i : Option Nat) (len : Int) (d : Dev) : Dev := match i with | some i => cntUpdate i len d | none => d
/-- A commit of CNT_ACC; `p` and `b` say what the reads of the two words met (R468, R469). [DESIGN CHOICE: log 5, 96] -/
def cntAccWrite (p b : EccSeen) (img : Nat) (d : Dev) : Dev :=
  let d := storeFields false .CNT_ACC 0 0 img d
  if !CNT_ACC.GO.on img then d
  else if CNT_ACC.OP.of img = 3 then errAt Err.BAD_ARG .CNT_ACC 0 0 d
  else
    let i := CNT_ACC.INDEX.of img
    let d := inc Pg.CNT 1 (snapCopy i d)
    let (x, d) := cntRead (2 * i) p d
    let (y, d) := cntRead (2 * i + 1) b d
    let d := loadImg .CNT_ACC_RES 0 0 (x * 2 ^ 64 + y) d
    match CNT_ACC.OP.of img with
    | 1 => setCntWord (2 * i + 1) (CNT_ACC.BYTES.of img) (setCntWord (2 * i) (CNT_ACC.PKTS.of img) d)
    | 2 => setCntWord (2 * i + 1) 0 (setCntWord (2 * i) 0 d)
    | _ => d

/-! Performance counters (R473 to R477). -/

/-- Change the list of a page's performance counters. -/
def mapPerf (p : Nat) (f : PerfCtr → PerfCtr) (d : Dev) : Dev := setPerf p { perfOf p d with ctrs := (perfOf p d).ctrs.map f } d
/-- Change one performance counter. -/
def modPerf (p i : Nat) (f : PerfCtr → PerfCtr) (d : Dev) : Dev :=
  setPerf p { perfOf p d with ctrs := (perfOf p d).ctrs.modify i f } d
/-- A write of PC_CTL: capture, then clear, then RUN (R475). -/
def pcCtlWrite (p img : Nat) (d : Dev) : Dev :=
  let d := if bit img 2 then mapPerf p (fun c => { c with cap := c.count }) d else d
  let d := if bit img 1 then mapPerf p (fun c => { c with count := 0, ovf := false }) d else d
  setPerf p { perfOf p d with run := bit img 0 } d
/-- The selectors of R473. -/
def pcSelOk (i sel : Nat) : Bool :=
  decide (sel ≤ 6) || decide (0x08 ≤ sel ∧ sel ≤ 0x27) || decide (0x40 ≤ sel ∧ sel ≤ 0x7F) || (sel == 0xFF && i != 0)
/-- A write of PC_CFGi. -/
def pcCfgWrite (p i img : Nat) (d : Dev) : Dev :=
  if pcSelOk i (bits img 7 0) then
    modPerf p i (fun c => { c with en := bit img 31, level := bit img 30, ovf := c.ovf && !bit img 29, sel := bits img 7 0 }) d
  else err p Err.BAD_ARG (0x44 + 4 * i) d
/-- A commit of PC_VALi. -/
def pcValWrite (p i v : Nat) (d : Dev) : Dev := modPerf p i (fun c => { c with count := v % 2 ^ 48 }) d
/-- The 32-bit word that a performance-counter offset reads. -/
def pcRead (p ofs : Nat) (d : Dev) : Nat :=
  let x := perfOf p d
  let c (i : Nat) : PerfCtr := x.ctrs.getD i {}
  if ofs = 0x40 then b2n x.run
  else if ofs < 0x64 then
    let k := c ((ofs - 0x44) / 4)
    b2n k.en * 2 ^ 31 + b2n k.level * 2 ^ 30 + b2n k.ovf * 2 ^ 29 + k.sel
  else if ofs < 0x80 then 0
  else
    let v := if ofs < 0xC0 then (c ((ofs - 0x80) / 8)).count else (c ((ofs - 0xC0) / 8)).cap
    if ofs % 8 = 0 then v % 2 ^ 32 else v / 2 ^ 32

end Sys2Proof.Machine
end

