-- ==== Sys2Proof/Machine/Chuck.lean ====
section
/-! DEFINITION. The Chuck (09_chuck_buffers.md): pools, the allocator, chains, references and checked frees, the bad-free
log, the march test and data integrity. -/

namespace Sys2Proof.Machine

/-- Change the Chuck's own state. -/
def onChk (f : Chk → Chk) (d : Dev) : Dev := { d with chk := f d.chk }
/-- The metadata of a cell. -/
def cell (h : Nat) (d : Dev) : CellMeta := look d.chk.cells h {}
/-- Set the metadata of a cell. -/
def setCell (h : Nat) (m : CellMeta) (d : Dev) : Dev := onChk (fun c => { c with cells := put c.cells h {} m }) d

/-! Pools (R241, R246, R256). -/

/-- Granules of a cell of pool n. -/
def poolStep (n : Nat) (d : Dev) : Nat := 2 ^ rget CHK_POOLn_CFG.SIZE 0 n d
/-- First granule of pool n. -/
def poolBase (n : Nat) (d : Dev) : Nat := rget CHK_POOLn_CFG.BASE 0 n d
/-- Cells of pool n. -/
def poolCount (n : Nat) (d : Dev) : Nat := rget CHK_POOLn_CFG.COUNT 0 n d
/-- Whether pool n is enabled. -/
def poolEn (n : Nat) (d : Dev) : Bool := flag CHK_POOLn_CFG.EN 0 n d
/-- The free cells of pool n. -/
def pool (n : Nat) (d : Dev) : Pool := look d.chk.pools n {}
/-- Set the free cells of pool n. -/
def setPool (n : Nat) (p : Pool) (d : Dev) : Dev := onChk (fun c => { c with pools := put c.pools n {} p }) d
/-- The enabled pool of a granule and the handle of its cell. -/
def cellOf (g : Nat) (d : Dev) : Option (Nat × Nat) :=
  ((List.range 16).find? fun n => poolEn n d && decide (poolBase n d ≤ g ∧ g < poolBase n d + poolCount n d * poolStep n d)).map
    fun n => (n, poolBase n d + (g - poolBase n d) / poolStep n d * poolStep n d)
/-- Cells of pool n that are retired and have never been taken from its list. -/
def freshRetired (n : Nat) (d : Dev) : List Nat :=
  let p := pool n d
  (keys (d.chk.cells.filter fun x => x.2.alloc && x.2.owner == 0 && x.2.pool == n)).filter fun h =>
    decide (poolBase n d + p.fresh * poolStep n d ≤ h)
/-- FREE of pool n: its cache and its in-memory list (R256). [DESIGN CHOICE: log 56] -/
def poolFree (n : Nat) (d : Dev) : Nat :=
  let p := pool n d
  if poolEn n d then p.cache.length + p.list.length + (poolCount n d - p.fresh) - (freshRetired n d).length else 0
/-- STATE of pool n (R256). -/
def poolState (n : Nat) (d : Dev) : Nat :=
  let f := poolFree n d
  if f = 0 then 3 else if f < rget CHK_POOLn_ADMIT.CELLS 0 n d then 2 else if f < rget CHK_POOLn_SPILL.CELLS 0 n d then 1 else 0
/-- The pool's status follows its free cells: STATE, FREE, MIN and the events on entry (R256). -/
def poolUpdate (n : Nat) (d : Dev) : Dev :=
  let f := poolFree n d
  let s := poolState n d
  let old := rget CHK_POOLn_STAT.STATE 0 n d
  let d := rset CHK_POOLn_STAT.FREE 0 n f (rset CHK_POOLn_STAT.STATE 0 n s d)
  let d := rset CHK_POOLn_MIN.MIN 0 n (min (rget CHK_POOLn_MIN.MIN 0 n d) f) d
  if s = old then d else if s = 2 then fire Pg.CHK 1 d else if s = 3 then fire Pg.CHK 2 d else d
/-- The lowest never-taken cell of pool n that is not retired, as its index. [DESIGN CHOICE: log 56] -/
def freshNext (n : Nat) (d : Dev) : Nat → Nat → Option Nat
  | _, 0 => none
  | i, k + 1 => if (cell (poolBase n d + i * poolStep n d) d).alloc then freshNext n d (i + 1) k else some i
/-- The head cell of pool n's in-memory free list, with the list behind it (R246). [DESIGN CHOICE: log 56] -/
def listHead (n : Nat) (d : Dev) : Option (Nat × Pool) :=
  let p := pool n d
  match p.list with
  | h :: t => some (h, { p with list := t })
  | [] => (freshNext n d p.fresh (poolCount n d - p.fresh)).map fun i => (poolBase n d + i * poolStep n d, { p with fresh := i + 1 })
/-- One handle moves from the list to the cache; the cell keeps the link it had in the list as its NEXT (R242). -/
def refillOne (n : Nat) (d : Dev) : Dev :=
  match listHead n d with
  | none => d
  | some (h, p) =>
    if 64 ≤ p.cache.length then d
    else
      let d := setPool n { p with cache := p.cache ++ [h] } d
      setCell h { cell h d with pool := n, next := match listHead n d with | some x => x.1 | none => 0 } d
/-- One cycle of the cache refill: 16 handles (R246). -/
def cacheRefill (n : Nat) (d : Dev) : Dev := if poolEn n d then Nat.repeat (refillOne n) 16 d else d

/-! Stored bits and their errors (R240, R257). -/

/-- The code word that holds a bit of a plane: 0 to 7 the data words with their check bits, 8 the metadata word. -/
def bitWord (plane b : Nat) : Nat := if plane = 1 then 8 else if b < 512 then b / 64 else (b - 512) / 8
/-- Flipped bits of a code word of a granule. -/
def flipCount (g w : Nat) (d : Dev) : Nat := (d.chk.flips.filter fun x => x.1 == g && bitWord x.2.1 x.2.2 == w).length
/-- What a read of the data of granules g to g + n - 1 meets. [DESIGN CHOICE: log 58] -/
def dataSeen (g n : Nat) (d : Dev) : EccSeen :=
  let gs := (List.range n).map (g + ·)
  if gs.any fun x => d.chk.badData.contains x || (List.range 8).any fun w => decide (2 ≤ flipCount x w d) then .uncorrectable
  else if gs.any fun x => (List.range 8).any fun w => decide (flipCount x w d = 1) then .corrected else .clean
/-- Whether the data of a granule cannot be corrected. -/
def granBad (g : Nat) (d : Dev) : Bool := d.chk.badData.contains g || (List.range 8).any fun w => decide (2 ≤ flipCount g w d)
/-- The first granule of g to g + n - 1 whose data cannot be corrected (R257). -/
def dataBad (g n : Nat) (d : Dev) : Option Nat := ((List.range n).map (g + ·)).find? fun x => granBad x d
/-- Single-bit errors that a read of granules g to g + n - 1 corrects: one for each code word (R257). -/
def dataFixed (g n : Nat) (d : Dev) : Nat :=
  ((List.range n).map fun i => ((List.range 8).filter fun w => flipCount (g + i) w d == 1).length).sum
/-- What a read of a metadata word meets. [DESIGN CHOICE: log 58] -/
def metaSeen (g : Nat) (d : Dev) : EccSeen :=
  if d.chk.badMeta.contains g || decide (2 ≤ flipCount g 8 d) then .uncorrectable else if flipCount g 8 d = 1 then .corrected else .clean
/-- Data written to granules g to g + n - 1 replaces their flipped bits. -/
def dataFresh (g n : Nat) (d : Dev) : Dev :=
  let inn (x : Nat) : Bool := decide (g ≤ x ∧ x < g + n)
  onChk (fun c => { c with flips := c.flips.filter fun x => !(inn x.1 && x.2.1 == 0), badData := c.badData.filter fun x => !inn x }) d
/-- A metadata word written anew, or written back after a correction. -/
def metaFresh (g : Nat) (d : Dev) : Dev :=
  onChk (fun c => { c with flips := c.flips.filter fun x => !(x.1 == g && x.2.1 == 1), badMeta := c.badMeta.filter (· != g) }) d
/-- An uncorrectable error of the packet buffer: counted, latched and fired (R257). -/
def chkEcc (kind g : Nat) (d : Dev) : Dev :=
  let d := fire Pg.CHK 3 (inc Pg.CHK 9 d)
  if flag CHK_ECC_ADDR.VALID 0 0 d then d
  else eccLog Pg.CHK (kind * 2 ^ 30 + g) (loadImg .CHK_ECC_ADDR 0 0 (2 ^ 31 + kind * 2 ^ 30 + g) d)

/-! The bad-free log (R253). -/

/-- SRC code of a party. -/
def partyCode (p : FreeParty) : Nat :=
  match p with
  | .tm => 0 | .fabric => 1 | .egress => 2 | .hbm => 3 | .host => 4 | .software => 5 | .verdictPath => 6
/-- Place of a party in the fixed order of R255. -/
def partyRank (p : FreeParty) : Nat := match p with | .software => 6 | .verdictPath => 5 | x => partyCode x
/-- Push a log entry; a full log loses it. -/
def badLogPush (kind : Nat) (p : FreeParty) (owner tag h : Nat) (d : Dev) : Dev :=
  if 16 ≤ d.chk.badLog.length then fire Pg.CHK 5 (inc Pg.CHK 7 d)
  else
    let e := 2 ^ 63 + kind * 2 ^ 61 + partyCode p * 2 ^ 57 + owner % 2 ^ 12 * 2 ^ 44 + tag % 2 ^ 12 * 2 ^ 32 + h % 2 ^ 22
    onChk (fun c => { c with badLog := c.badLog ++ [e] }) d
/-- A refused free or addition (R251, R253). -/
def badFree (kind : Nat) (p : FreeParty) (owner tag h : Nat) (d : Dev) : Dev :=
  badLogPush kind p owner tag h (inc Pg.CHK 6 (fire Pg.CHK 0 d))
/-- A read of CHK_BADFREE_LOG pops its head. -/
def badFreePop (d : Dev) : Dev :=
  match d.chk.badLog with
  | [] => loadImg .CHK_BADFREE_LOG 0 0 0 d
  | x :: t => loadImg .CHK_BADFREE_LOG 0 0 x (onChk (fun c => { c with badLog := t }) d)
/-- Read a metadata word for a party: whether an uncorrectable error stops it there (R257). The tag of a cell whose word
cannot be read is a value that the spec does not state. -/
def metaCheck (p : FreeParty) (h tag : Nat) (d : Dev) : Bool × Dev :=
  match metaSeen h d with
  | .clean => (false, d)
  | .corrected => (false, metaFresh h (inc Pg.CHK 8 d))
  | .uncorrectable =>
    let (x, d) := draw d
    (true, badLogPush 2 p x tag h (chkEcc 1 h d))

/-! The allocator (R244 to R246). -/

/-- What the allocator answers to a request: a cell, a hold for the refill of a pool, or a refusal. -/
inductive AllocRes where
  | grant (h : Nat)
  | hold (pool : Nat)
  | refuse
  deriving DecidableEq, Repr

/-- Grant the next cached cell of pool n under a tag. -/
def grantCell (n tag : Nat) (fell : Bool) (d : Dev) : AllocRes × Dev :=
  let p := pool n d
  match p.cache with
  | [] => (.refuse, d)
  | h :: t =>
    let d := metaFresh h (setCell h { alloc := true, owner := tag, pool := n, last := true, data := [] } (setPool n { p with cache := t } d))
    let d := inc Pg.CHK 0 d
    (.grant h, poolUpdate n (if fell then inc Pg.CHK 2 d else d))
/-- One request in one Chuck cycle: it is granted, held, falls back or is refused (R244). A fallback chain visits at most
four pools (R241). [DESIGN CHOICE: log 56] -/
def allocTry (tag : Nat) : Nat → Nat → Bool → Dev → AllocRes × Dev
  | 0, _, _, d => (.refuse, inc Pg.CHK 3 d)
  | k + 1, n, fell, d =>
    if !poolEn n d then (.refuse, inc Pg.CHK 3 d)
    else if !(pool n d).cache.isEmpty then grantCell n tag fell d
    else if poolFree n d ≠ 0 then (.hold n, overrun Pg.CHK d)
    else if flag CHK_POOLn_CFG.FB_EN 0 n d then allocTry tag k (rget CHK_POOLn_CFG.FALLBACK 0 n d) true d
    else (.refuse, inc Pg.CHK 3 d)
/-- A request followed to its end: one that is held is tried again after the cycle's refill (R246). -/
def allocCell (n tag : Nat) (d : Dev) : Option Nat × Dev :=
  match allocTry tag 5 n false d with
  | (.grant h, d) => (some h, d)
  | (.refuse, d) => (none, d)
  | (.hold p, d) =>
    match allocTry tag 5 n false (cacheRefill p d) with
    | (.grant h, d) => (some h, d)
    | (_, d) => (none, d)
/-- Whether a pool or a pool of its fallback chain has FREE above 0 (R248, R279). -/
def poolAvail (d : Dev) : Nat → Nat → Bool
  | 0, _ => false
  | k + 1, n =>
    poolEn n d && (poolFree n d != 0 || (flag CHK_POOLn_CFG.FB_EN 0 n d && poolAvail d k (rget CHK_POOLn_CFG.FALLBACK 0 n d)))

/-! Frees and references (R251 to R255). -/

/-- Retire a cell: it stays allocated with tag 0 and is never granted again (R259). [DEDUCED: log 57] -/
def retireCell (h n : Nat) (d : Dev) : Dev :=
  let d := setCell h { cell h d with alloc := true, owner := 0, pool := n } d
  let d := rset CHK_POOLn_RETIRED.COUNT 0 n (rget CHK_POOLn_RETIRED.COUNT 0 n d + 1) d
  poolUpdate n (inc Pg.CHK 10 d)
/-- Release one cell to its pool's cache, or to the list where the cache is full (R246, R252); a cell with a failed granule
is retired at its release, and a retired cell stays retired until chip reset (R259). [DESIGN CHOICE: log 56; DEDUCED: log 57] -/
def putCell (h : Nat) (d : Dev) : Dev :=
  let m := cell h d
  let n := m.pool
  if m.alloc && m.owner == 0 then d else
  let d := inc Pg.CHK 1 (setCell h { m with alloc := false, owner := 0 } d)
  if d.chk.badGran.any fun g => decide (h ≤ g ∧ g < h + poolStep n d) then retireCell h n d
  else
    let p := pool n d
    if p.cache.length < 64 then poolUpdate n (setPool n { p with cache := p.cache ++ [h] } d)
    else
      let next := match listHead n d with | some x => x.1 | none => 0
      poolUpdate n (setPool n { p with list := h :: p.list } (setCell h { cell h d with next := next } d))
/-- The walk that releases every cell of a chain; it stops at a cell with another tag or an unreadable word (R252, R257). -/
def freeWalk (p : FreeParty) (tag : Nat) : Nat → Nat → Dev → Nat × Dev
  | 0, _, d => (0, d)
  | k + 1, h, d =>
    let (bad, d) := metaCheck p h tag d
    let m := cell h d
    if bad then (0, d)
    else if m.owner ≠ tag then (Err.NOT_OWNER, badFree 1 p m.owner tag h d)
    else
      let d := putCell h d
      if m.last then (0, d) else freeWalk p tag k m.next d
/-- Release one reference of a chain: the error code of a refusal, or 0 (R252). -/
def freeChain (p : FreeParty) (h tag : Nat) (d : Dev) : Nat × Dev :=
  let (bad, d) := metaCheck p h tag d
  let m := cell h d
  if bad then (0, d)
  else if !m.alloc then (Err.DOUBLE_FREE, badFree 0 p m.owner tag h d)
  else if m.owner ≠ tag then (Err.NOT_OWNER, badFree 1 p m.owner tag h d)
  else
    let d := setCell h { m with refs := m.refs - 1 } d
    if 1 < m.refs then (0, d) else freeWalk p tag (d.chk.cells.length + 1) h d
/-- Release a reference where nobody waits for a code. -/
def free (p : FreeParty) (h tag : Nat) (d : Dev) : Dev := (freeChain p h tag d).2
/-- Add one reference to a chain for a copy: whether it was added (R251). A first cell whose metadata cannot be read drops the copy
with CHK_META_ECC (R257). -/
def addRef (h tag : Nat) (d : Dev) : Bool × Dev :=
  let (bad, d) := metaCheck .verdictPath h tag d
  let m := cell h d
  if bad then (false, drop 0x64 d)
  else if !m.alloc then (false, badFree 0 .verdictPath m.owner tag h (drop 0x65 d))
  else if m.owner ≠ tag then (false, badFree 1 .verdictPath m.owner tag h (drop 0x65 d))
  else if 15 ≤ m.refs then (false, drop 0x65 d)
  else (true, inc Pg.CHK 5 (setCell h { m with refs := m.refs + 1 } d))

/-- The granted cells of a cycle leave by their request ports. -/
def answerPort (port : Nat) (r : AllocRes) (d : Dev) : Dev :=
  match r with
  | .grant h => emit (.cellGrant port (some h)) d
  | _ => emit (.cellGrant port none) d
/-- Serve one request of a cycle: a held one stays for the next cycle. -/
def serveReq (x : Nat × Nat × Nat) (d : Dev) : Dev :=
  match allocTry x.2.2 5 x.2.1 false d with
  | (.hold _, d) => onChk (fun c => { c with held := c.held ++ [x] }) d
  | (r, d) => answerPort x.1 r d
/-- The requests of one cycle in port order from the pointer (R244). -/
def portOrder (ptr : Nat) (l : List (Nat × Nat × Nat)) : List (Nat × Nat × Nat) :=
  (List.range 32).flatMap fun i => l.filter fun x => x.1 == (ptr + i) % 32
/-- Whether a tag lies in the range of an allocating source (R243); no source asks with another one. -/
def tagOk (t : Nat) : Bool := decide ((0x010 ≤ t ∧ t ≤ 0x01F) ∨ (0x100 ≤ t ∧ t ≤ 0x14F) ∨ 0x400 ≤ t)
/-- One allocator cycle: additions, then releases in the order of the parties, then the requests held from the last cycle,
for whose pools the cache has been refilled, and then the cycle's own requests (R244 to R246, R255). A request whose tag no source
takes is none (R243). -/
def allocCycle (adds : List (Nat × Nat)) (frees : List (FreeParty × Nat × Nat)) (reqs : List (Nat × Nat × Nat)) (d : Dev) : Dev :=
  let d := adds.foldl (fun s x => (addRef x.1 x.2 s).2) d
  let d := (List.range 7).foldl (fun s k => (frees.filter fun x => partyRank x.1 == k).foldl (fun s x => free x.1 x.2.1 x.2.2 s) s) d
  let held := d.chk.held
  let pools := (List.range 16).filter fun n => (pool n d).cache.isEmpty && !held.isEmpty
  let d := pools.foldl (fun s n => cacheRefill n s) (onChk (fun c => { c with held := [] }) d)
  let ptr := if flag CHK_ALLOC_X.TIE 0 0 d then 0 else d.chk.ptr
  let d := (portOrder ptr held).foldl (fun s x => serveReq x s) d
  let d := (portOrder ptr (reqs.filter fun x => tagOk x.2.2)).foldl (fun s x => serveReq x s) d
  onChk (fun c => { c with ptr := (c.ptr + 1) % 32 }) d

/-! Source caches (R243, R248). -/

/-- The next tag of a source: 0 to 129 ingress sources, 130 + d fabric device d (R243). [DESIGN CHOICE: log 56] -/
def nextTag (s : Nat) (d : Dev) : Nat × Dev :=
  let n := look d.chk.tags s 0
  let d := onChk (fun c => { c with tags := put c.tags s 0 ((n + 1) % 64) }) d
  let t := if s < 128 then 0x800 + 16 * s + n % 16 else if s = 128 then 0x100 + n else if s = 129 then 0x140 + n % 16
    else 0x400 + 16 * (s - 130) + n % 16
  (t, d)
/-- Ask for first cells of a source until n are granted or one is refused; a source that was refused is marked (R248). -/
def headCells (s : Nat) : Nat → Dev → List Nat × Dev
  | 0, d => ([], d)
  | k + 1, d =>
    let (tag, d') := nextTag s d
    match allocCell (rget CHK_SRCs_CFG.HEAD_POOL 0 s d) tag d' with
    | (none, d'') => ([], onChk (fun c => { c with tags := d.chk.tags, starved := s :: c.starved }) d'')
    | (some h, d'') =>
      let d := onChk (fun c => { c with builds := ins c.builds h { tag := tag, last := h } }) d''
      let (l, d) := headCells s k d
      (h :: l, d)
/-- Cut a list into parts of at most six. -/
def bySix : Nat → List Nat → List (List Nat)
  | 0, _ => []
  | k + 1, l => if l.isEmpty then [] else l.take 6 :: bySix k (l.drop 6)
/-- The Chuck fills the cache of source s: it allocates what is short and sends the handles in HANDLES records (R248, R263). After a
refusal it asks again only once HEAD_POOL, or a pool of its fallback chain, has FREE above 0. -/
def headCacheRequest (s : Nat) (d : Dev) : Dev :=
  let out := (d.cross.handles.filter fun x => x.1 == s).foldl (fun a x => a + x.2.length) 0
  let have_ := (look d.srcCache s []).length + out
  let want := rget CHK_SRCs_CFG.CACHE 0 s d - have_
  if 130 ≤ s ∨ !blkEn Pg.CHK d ∨ (s ∈ d.chk.starved ∧ !poolAvail d 5 (rget CHK_SRCs_CFG.HEAD_POOL 0 s d)) then d
  else
    let (l, d) := headCells s want (onChk (fun c => { c with starved := c.starved.filter (· != s) }) d)
    { d with cross := { d.cross with handles := d.cross.handles ++ (bySix 3 l).map fun x => (s, x) } }
/-- A HANDLES record reaches the FE die (R248). -/
def handlesRecord (d : Dev) : Dev :=
  match d.cross.handles with
  | [] => d
  | (s, l) :: t => { d with cross := { d.cross with handles := t }, srcCache := put d.srcCache s [] (look d.srcCache s [] ++ l) }
/-- A write of CHK_SRCs_CFG. -/
def srcCfgWrite (s img : Nat) (d : Dev) : Dev :=
  let c := CHK_SRCs_CFG.CACHE.of img
  if c = 0 ∨ 16 < c then errAt Err.BAD_ARG .CHK_SRCs_CFG 0 s d else storeFields false .CHK_SRCs_CFG 0 s img d

/-! Chains (R247 to R250). -/

/-- Bytes that a cell holds at most. -/
def cellSize (h : Nat) (d : Dev) : Nat := 64 * poolStep (cell h d).pool d
/-- Write data to a cell. -/
def storeCell (h : Nat) (bs : Bytes) (d : Dev) : Dev :=
  dataFresh h (poolStep (cell h d).pool d) (setCell h { cell h d with data := bs } d)
/-- Link cell h behind cell prev. -/
def linkCell (prev h : Nat) (d : Dev) : Dev :=
  let a := cell prev d
  setCell prev { cell prev d with next := h, last := false } (setCell h { cell h d with next := a.next, last := a.last } d)
/-- Write bytes into further cells from a pool, linked one by one behind prev: the last cell, the bytes stored, and 0, or the code
of what stopped it: a refused allocation, or a cell whose metadata cannot be read (R250, R257). [DESIGN CHOICE: log 58] -/
def storeCells (n tag : Nat) : Nat → Nat → Bytes → Dev → Nat × Nat × Nat × Dev
  | 0, prev, _, d => (prev, 0, 0, d)
  | k + 1, prev, bs, d =>
    if bs.isEmpty then (prev, 0, 0, d)
    else
      let (bad, d) := metaCheck .verdictPath prev tag d
      if bad then (prev, 0, 0x64, d)
      else match allocCell n tag d with
        | (none, d) => (prev, 0, 0x61, d)
        | (some h, d) =>
          let m := min bs.length (cellSize h d)
          let d := storeCell h (bs.take m) (linkCell prev h d)
          let (l, s, code, d) := storeCells n tag k h (bs.drop m) d
          (l, m + s, code, d)
/-- Mark a chain as cut short: its packet will be dropped with the code (R250, R257, R264). -/
def abortChain (h : Nat) (b : Build) (code : Nat) (d : Dev) : Dev :=
  let m := cell h d
  let d := if m.alloc && m.owner == b.tag then setCell h { m with abort := true } d else d
  onChk (fun c => { c with builds := ins c.builds h { b with abort := true, code := if b.abort then b.code else code } }) d
/-- A BODY record arrives: its bytes fill the last body cell and go on in cells of BODY_POOL (R247, R250, R262). -/
def bodyStore (r : BodyRec) (d : Dev) : Dev :=
  match find? d.chk.builds r.cell with
  | none => d
  | some b =>
    let b' := { b with open_ := !r.last }
    if b.abort then onChk (fun c => { c with builds := ins c.builds r.cell b' }) d
    else
      let m := cell b.last d
      let room := if b.last = r.cell then 0 else min (cellSize b.last d - m.data.length) r.bytes.length
      let d := if room = 0 then d else storeCell b.last (m.data ++ r.bytes.take room) d
      let rest := r.bytes.drop room
      let (l, n, code, d) := storeCells (bits r.src 27 24) b.tag rest.length b.last rest d
      let b' := { b' with last := l, stored := b.stored + room + n }
      if code = 0 then onChk (fun c => { c with builds := ins c.builds r.cell b' }) d else abortChain r.cell b' code d
/-- The oldest BODY record arrives. -/
def bodyRecord (d : Dev) : Dev :=
  match d.cross.bodies with
  | [] => d
  | r :: t => bodyStore r { d with cross := { d.cross with bodies := t } }
/-- The oldest VERDICT record arrives and waits for the end of its body (R249). -/
def verdictRecord (d : Dev) : Dev :=
  match d.cross.verdicts with
  | [] => d
  | v :: t => onChk (fun c => { c with waiting := c.waiting ++ [v] }) { d with cross := { d.cross with verdicts := t } }
/-- Whether the body of a verdict's frame has ended. -/
def bodyEnded (v : Verd) (d : Dev) : Bool :=
  !(d.cross.bodies.any fun r => r.cell == v.cell) && (match find? d.chk.builds v.cell with | some b => !b.open_ | none => true)
/-- A descriptor of a verdict. -/
def Verd.desc (v : Verd) (tag : Nat) (d : Dev) : Desc :=
  { head := v.cell, tag := tag, len := v.len, qid := v.qid, nh := v.nh, carry := v.carry, time := v.time, port := v.port,
    hash := v.hash, cls := v.cls, color := v.color, srcDev := devId d }
/-- Put an arrival in front of admission. -/
def toTm (a : Arrival) (d : Dev) : Dev := { d with tm := { d.tm with input := d.tm.input ++ [a] } }
/-- Make one copy of a chain for a destination (R251, R300). -/
def copyTo (x : Desc) (dest : Dest) (d : Dev) : Dev :=
  let (ok, d) := addRef x.head x.tag d
  let host := match dest with | .host _ => true | _ => false
  if ok then toTm { desc := { x with copy := host }, dest := dest, orig := false } d else d
/-- A mirror copy, where its session is enabled (R300). -/
def mirrorTo (x : Desc) (k : Nat) (d : Dev) : Dev :=
  if flag TMS_MIRk.EN 0 k d then copyTo x (.mirror k) d else inc Pg.TMS 12 d
/-- The copies of a packet (R198, R251, R300). -/
def copies (x : Desc) (host : Option Nat) (mir : Option Nat) (d : Dev) : Dev :=
  let d := match host with | some hq => copyTo x (.host hq) d | none => d
  match mir with | some k => mirrorTo x k d | none => d
/-- Write the rebuilt head: 0, or the code of what stopped it (R249, R257). -/
def writeHead (v : Verd) (b : Build) (d : Dev) : Nat × Dev :=
  let (bad, d) := metaCheck .verdictPath v.cell b.tag d
  let m := cell v.cell d
  if bad then (0x64, d)
  else if !m.alloc || m.owner != b.tag then (0, d)
  else
    let n := min v.head.length (cellSize v.cell d)
    let rest := v.head.drop n
    let (_, _, code, d) := storeCells (bits v.src 31 28) b.tag rest.length v.cell rest (storeCell v.cell (v.head.take n) d)
    if code = 0 then (0, setCell v.cell { cell v.cell d with refs := 1 } d) else (code, abortChain v.cell b code d)
/-- The packet of a verdict is dropped with a code in place of its verdict: a DROP verdict's own code, counted already, no longer
counts (R250). [DEDUCED: log 59] -/
def dropInstead (v : Verd) (code : Nat) (d : Dev) : Dev := drop code (if v.kind = 1 then undrop v.code d else d)
/-- Apply a verdict whose body has ended (R249 to R251, R257, R466). [DEDUCED: log 59] -/
def verdictApply1 (v : Verd) (d : Dev) : Dev :=
  let b := (find? d.chk.builds v.cell).getD { tag := (cell v.cell d).owner, last := v.cell }
  let d := inc Pg.CHK 4 d
  let clear (d : Dev) : Dev := onChk (fun c => { c with builds := del c.builds v.cell }) d
  let x := v.desc b.tag d
  let host := if v.copyHost then some v.hostq else none
  let noCell (code : Nat) (d : Dev) : Dev := clear (free .verdictPath v.cell b.tag (dropInstead v code d))
  if b.abort then noCell b.code d
  else if v.kind = 1 ∧ host.isNone ∧ v.mirror.isNone then clear (free .verdictPath v.cell b.tag d)
  else
    let (code, d) := writeHead v b d
    if code ≠ 0 then noCell code d
    else if v.kind = 1 then clear (free .verdictPath v.cell b.tag (copies x host v.mirror d))
    else
      let adj := signed 8 (rget CNT_CFG.ING_ADJ 0 0 d)
      let d := cntOpt v.cnt1 (v.len + adj) (cntOpt v.cnt0 (v.len + adj) d)
      let dest := if v.kind = 2 then Dest.host v.hostq else .voq
      clear (copies x host v.mirror (toTm { desc := x, dest := dest, meter := v.meter } d))
/-- The first waiting verdict whose body has ended is applied (R249). -/
def verdictApply (d : Dev) : Dev :=
  match d.chk.waiting.find? fun v => bodyEnded v d with
  | none => d
  | some v => verdictApply1 v (onChk (fun c => { c with waiting := c.waiting.erase v }) d)

/-- Read a chain's bytes for a party: a drop code, or 0, and the bytes of the cells before the one that failed (R242, R257). -/
def readWalk (p : FreeParty) (tag : Nat) : Nat → Nat → Dev → Nat × Bytes × Dev
  | 0, _, d => (0, [], d)
  | k + 1, h, d =>
    let (bad, d) := metaCheck p h tag d
    if bad then (0x64, [], d)
    else
      let m := cell h d
      let step := poolStep m.pool d
      match dataBad h step d with
      | some g => (0x63, [], chkEcc 0 g (incBy Pg.CHK 8 (dataFixed h (g - h) d) d))
      | none =>
        let d := incBy Pg.CHK 8 (dataFixed h step d) d
        if m.last ∨ !m.alloc then (0, m.data, d)
        else
          let (c, bs, d) := readWalk p tag k m.next d
          (c, m.data ++ bs, d)
/-- Read the chain of a descriptor; a copy made on egress carries the packet as it was rebuilt there (R198). -/
def readChain (p : FreeParty) (x : Desc) (d : Dev) : Nat × Bytes × Dev :=
  let (c, bs, d) := readWalk p x.tag (d.chk.cells.length + 1) x.head d
  (c, (x.rebuilt.getD bs).take x.len, d)
/-- Copy a packet into a new chain from a pool: its first cell, or none where an allocation is refused; the cells already
taken are then released (R279, R379). -/
def newChain (n tag : Nat) (p : FreeParty) (bs : Bytes) (d : Dev) : Option Nat × Dev :=
  match allocCell n tag d with
  | (none, d) => (none, d)
  | (some h, d) =>
    let m := min bs.length (cellSize h d)
    let d := storeCell h (bs.take m) (setCell h { cell h d with refs := 1 } d)
    let (_, _, code, d) := storeCells n tag bs.length h (bs.drop m) d
    if code = 0 then (some h, d) else (none, free p h tag d)

/-! Cell commands (R268). -/

/-- The free cell that follows free cell h on the in-memory list of pool n, 0 for the last one (R242): the freed cells of the list
come first, then those never taken, without the retired ones. -/
def listNext (n h : Nat) (d : Dev) : Nat :=
  let p := pool n d
  let fresh (i : Nat) : Nat := match freshNext n d i (poolCount n d - i) with | some k => poolBase n d + k * poolStep n d | none => 0
  match p.list.dropWhile (· != h) with
  | _ :: x :: _ => x
  | [_] => fresh p.fresh
  | [] => fresh ((h - poolBase n d) / poolStep n d + 1)
/-- The metadata word of a cell (R242). A free cell in its pool's cache shows the NEXT of its last use. -/
def metaWord (h : Nat) (d : Dev) : Nat :=
  let m := cell h d
  let own := cellOf h d
  let (n, next) := match own with
    | some (n, c) =>
      let listed := !m.alloc && c == h && !(pool n d).cache.contains h
      (if m.alloc then m.pool else n, if listed then listNext n h d else m.next)
    | none => (m.pool, m.next)
  b2n m.alloc * 2 ^ 63 + m.owner * 2 ^ 51 + n * 2 ^ 47 + m.refs * 2 ^ 43 + b2n m.last * 2 ^ 42 + b2n m.abort * 2 ^ 41 + next * 2 ^ 19 +
    (m.data.length - 1) * 2 ^ 10
/-- What CHK_CELL_RES shows: the word, or an unstated value where it cannot be read. -/
def cellRes (h : Nat) (d : Dev) : Dev :=
  match metaSeen h d with
  | .clean => rset CHK_CELL_RES.META 0 0 (metaWord h d) d
  | .corrected => rset CHK_CELL_RES.META 0 0 (metaWord h d) (metaFresh h (inc Pg.CHK 8 d))
  | .uncorrectable => let (x, d) := draw d; rset CHK_CELL_RES.META 0 0 x (chkEcc 1 h d)
/-- READ. [DESIGN CHOICE: log 58] -/
def cellRead (h : Nat) (d : Dev) : Nat × Nat × Dev := (0, h, d)
/-- ALLOC. -/
def cellAlloc (n tag h : Nat) (d : Dev) : Nat × Nat × Dev :=
  if tag < 0x010 ∨ 0x01F < tag ∨ !poolEn n d then (Err.BAD_ARG, h, d)
  else match allocCell n tag d with
    | (none, d) => (Err.RESOURCE_FULL, h, d)
    | (some c, d) => (0, c, rset CHK_CELL_CMD.HANDLE 0 0 c (setCell c { cell c d with refs := 1 } d))
/-- FREE. -/
def cellFree (h tag : Nat) (d : Dev) : Nat × Nat × Dev := let (c, d) := freeChain .software h tag d; (c, h, d)
/-- FORCE_FREE. [DEDUCED: log 57] -/
def cellForceFree (h tag : Nat) (d : Dev) : Nat × Nat × Dev :=
  if !expertOf Pg.CHK d then (Err.EXPERT_LOCKED, h, d)
  else
    let (bad, d) := metaCheck .software h tag d
    if bad then (0, h, d)
    else if !(cell h d).alloc then (Err.DOUBLE_FREE, h, badFree 0 .software (cell h d).owner tag h d)
    else (0, h, putCell h d)
/-- A commit of CHK_CELL_CMD. [DESIGN CHOICE: log 5] -/
def cellCmdWrite (img : Nat) (d : Dev) : Dev :=
  let d := storeFields false .CHK_CELL_CMD 0 0 img d
  if !CHK_CELL_CMD.GO.on img then d
  else
    let h := CHK_CELL_CMD.HANDLE.of img
    let tag := CHK_CELL_CMD.OWNER.of img
    let (c, r, d) : Nat × Nat × Dev := match CHK_CELL_CMD.OP.of img with
      | 0 => cellRead h d
      | 1 => cellAlloc (CHK_CELL_CMD.POOL.of img) tag h d
      | 2 => cellFree h tag d
      | 3 => cellForceFree h tag d
      | _ => (Err.BAD_ARG, h, d)
    let d := cellRes r d
    if c = 0 then d else errAt c .CHK_CELL_CMD 0 0 d

/-! Pool configuration (R241, R256). -/

/-- The last granule behind a region of an image. -/
def cfgEnd (img : Nat) : Nat := CHK_POOLn_CFG.BASE.of img + CHK_POOLn_CFG.COUNT.of img * 2 ^ CHK_POOLn_CFG.SIZE.of img
/-- Whether R241 refuses an enabling image of pool n with BAD_ARG. -/
def poolBad (n img : Nat) (d : Dev) : Bool :=
  let base := CHK_POOLn_CFG.BASE.of img
  let f := CHK_POOLn_CFG.FALLBACK.of img
  let others := (List.range 16).filter fun k => k != n && poolEn k d
  decide (base % 2 ^ CHK_POOLn_CFG.SIZE.of img ≠ 0) || decide (3145728 < cfgEnd img) ||
    (others.any fun k => overlap base (cfgEnd img - base) (poolBase k d) (poolCount k d * poolStep k d)) ||
    (CHK_POOLn_CFG.FB_EN.on img && (f == n || !poolEn f d || decide (rget CHK_POOLn_CFG.SIZE 0 f d ≤ CHK_POOLn_CFG.SIZE.of img)))
/-- Whether pool n has allocated cells. -/
def poolUsed (n : Nat) (d : Dev) : Bool := d.chk.cells.any fun x => x.2.alloc && x.2.pool == n && (cellOf x.1 d).map (·.1) == some n
/-- A commit of CHK_POOLn_CFG (R241). A write that changes no field of an enabled pool is accepted. -/
def poolCfgWrite (n img : Nat) (d : Dev) : Dev :=
  let r : Reg := .CHK_POOLn_CFG
  let en := CHK_POOLn_CFG.EN.on img
  let old := regImg r 0 n d
  let img' := r.fields.foldl (fun a x => a ||| (bits img (x.lo + x.w - 1) x.lo <<< x.lo)) 0
  if poolEn n d then
    if img' = old then d
    else if en ∨ img' + 2 ^ 63 ≠ old ∨ poolUsed n d ∨ ((List.range 16).any fun k => k != n && poolEn k d && flag CHK_POOLn_CFG.FB_EN 0 k d && rget CHK_POOLn_CFG.FALLBACK 0 k d == n) then
      errAt 0x20 r 0 n d
    else poolUpdate n (setPool n {} (storeFields false r 0 n img d))
  else if !en then storeFields false r 0 n img d
  else if poolBad n img d then errAt Err.BAD_ARG r 0 n d
  else
    let d := setPool n {} (storeFields false r 0 n img d)
    let lo := poolBase n d
    let hi := lo + poolCount n d * poolStep n d
    let d := onChk (fun c => { c with cells := c.cells.filter fun x => !(decide (lo ≤ x.1 ∧ x.1 < hi) && !x.2.alloc) }) d
    let bad := ((d.chk.badGran.filterMap fun g => cellOf g d).filter fun x => x.1 == n).eraseDups
    poolUpdate n (bad.foldl (fun s x => retireCell x.2 n s) d)
/-- A write of CHK_POOLn_SPILL (R256). -/
def poolSpillWrite (n img : Nat) (d : Dev) : Dev :=
  if CHK_POOLn_SPILL.CELLS.of img < rget CHK_POOLn_ADMIT.CELLS 0 n d then errAt Err.BAD_ARG .CHK_POOLn_SPILL 0 n d
  else poolUpdate n (storeFields false .CHK_POOLn_SPILL 0 n img d)
/-- A write of CHK_POOLn_ADMIT (R256). -/
def poolAdmitWrite (n img : Nat) (d : Dev) : Dev :=
  if rget CHK_POOLn_SPILL.CELLS 0 n d < CHK_POOLn_ADMIT.CELLS.of img then errAt Err.BAD_ARG .CHK_POOLn_ADMIT 0 n d
  else poolUpdate n (storeFields false .CHK_POOLn_ADMIT 0 n img d)
/-- A write of CHK_POOLn_MIN sets it to the current FREE. -/
def poolMinWrite (n : Nat) (d : Dev) : Dev := rset CHK_POOLn_MIN.MIN 0 n (poolFree n d) d

/-! The march test, the scrubber and the test hook (R257 to R259). -/

/-- A write of CHK_MARCH_CTRL. A test runs with the MODE and RETIRE that started it. -/
def marchWrite (img : Nat) (d : Dev) : Dev :=
  if !CHK_MARCH_CTRL.GO.on img then storeFields false .CHK_MARCH_CTRL 0 0 img d
  else if rget CHK_MARCH_STAT.STATE 0 0 d = 1 then errAt 0x21 .CHK_MARCH_CTRL 0 0 d
  else if !CHK_MARCH_CTRL.MODE.on img && (face Pg.CHK d).en then errAt Err.BAD_ARG .CHK_MARCH_CTRL 0 0 d
  else
    let d := rset CHK_MARCH_CTRL.GO 0 0 1 (storeFields false .CHK_MARCH_CTRL 0 0 img d)
    let d := onChk (fun c => { c with march := some (CHK_MARCH_CTRL.MODE.on img, CHK_MARCH_CTRL.RETIRE.on img) }) d
    rset CHK_MARCH_STAT.STATE 0 0 1 (rset CHK_MARCH_STAT.REGION 0 0 0 d)
/-- A read of CHK_MARCH_STAT: while a preserving test runs, the regions done are some number not below the one last read and below
the whole 49,152 (R258). [DESIGN CHOICE: log 122] -/
def marchRead (d : Dev) : Dev :=
  if rget CHK_MARCH_STAT.STATE 0 0 d = 1 ∧ d.chk.march.any (·.1) then
    let r := rget CHK_MARCH_STAT.REGION 0 0 d
    let (v, d) := draw d
    rset CHK_MARCH_STAT.REGION 0 0 (r + v % (49152 - r)) d
  else d
/-- What a destructive test leaves: data zero, every cell of an enabled pool free but the retired ones (R258). -/
def marchWipe (d : Dev) : Dev :=
  let kept := d.chk.cells.filter fun x => x.2.alloc && x.2.owner == 0
  let d := onChk (fun c => { c with cells := kept, pools := [], builds := [], flips := [], badData := [], badMeta := [] }) d
  (List.range 16).foldl (fun s n => if poolEn n s then poolUpdate n s else s) { d with srcCache := [] }
/-- A failing cell is retired if it is free (R259). -/
def retireIfFree (g : Nat) (d : Dev) : Dev :=
  match cellOf g d with
  | none => d
  | some (n, h) =>
    if (cell h d).alloc then d
    else
      let p := pool n d
      retireCell h n (setPool n { p with cache := p.cache.filter (· != h), list := p.list.filter (· != h) } d)
/-- The march test ends with the granules that failed (R258, R259). -/
def marchDone (fails : List Nat) (d : Dev) : Dev :=
  if rget CHK_MARCH_STAT.STATE 0 0 d ≠ 1 then d
  else
    let (keep, retire) := d.chk.march.getD (false, false)
    let d := onChk (fun c => { c with march := none }) d
    let d := if keep then rset CHK_MARCH_STAT.REGION 0 0 49152 d else marchWipe d
    let first := match fails with | [] => 0 | g :: t => t.foldl min g
    let d := rset CHK_MARCH_ERR.GRANULE 0 0 first (rset CHK_MARCH_ERR.FAILS 0 0 fails.length d)
    let d := if retire then
        fails.foldl (fun s g => retireIfFree g s) (onChk (fun c => { c with badGran := c.badGran ++ fails.filter fun g => !c.badGran.contains g }) d)
      else d
    let d := rset CHK_MARCH_CTRL.GO 0 0 0 (rset CHK_MARCH_STAT.STATE 0 0 (if fails.isEmpty then 2 else 3) d)
    fire Pg.CHK 4 d
/-- The scrubber reads a metadata word and meets what its error correction shows (R257). -/
def chkScrub (g : Nat) (seen : EccSeen) (d : Dev) : Dev :=
  let worst := if seen = .uncorrectable ∨ metaSeen g d = .uncorrectable then EccSeen.uncorrectable
    else if seen = .corrected then .corrected else metaSeen g d
  match worst with
  | .clean => d
  | .corrected => metaFresh g (inc Pg.CHK 8 d)
  | .uncorrectable => chkEcc 1 g (onChk (fun c => { c with badMeta := if c.badMeta.contains g then c.badMeta else g :: c.badMeta }) d)
/-- A commit of CHK_INJECT: one stored bit flips. -/
def chkInjectWrite (img : Nat) (d : Dev) : Dev :=
  let plane := CHK_INJECT.PLANE.of img
  let b := CHK_INJECT.BIT.of img
  if !expertOf Pg.CHK d then errAt Err.EXPERT_LOCKED .CHK_INJECT 0 0 d
  else if (if plane = 1 then 71 else 575) < b then errAt Err.BAD_ARG .CHK_INJECT 0 0 d
  else
    let d := storeFields true .CHK_INJECT 0 0 img d
    if CHK_INJECT.GO.on img then
      let x := (CHK_INJECT.GRANULE.of img, plane, b)
      onChk (fun c => { c with flips := if c.flips.contains x then c.flips.erase x else x :: c.flips }) d
    else d

/-! Packets that the Tailstock reports finished (R254, R263). -/

/-- Release the chains of n packets of an egress stream, in stream order. -/
def finishSent (port n : Nat) (d : Dev) : Dev :=
  let l := look d.chk.sent port []
  let d := onChk (fun c => { c with sent := put c.sent port [] (l.drop n) }) d
  (l.take n).foldl (fun s x => free .egress x.1 x.2 s) d
/-- The oldest DONE record arrives. -/
def doneRecord (d : Dev) : Dev :=
  match d.cross.dones with
  | [] => d
  | (port, n) :: t => finishSent port n { d with cross := { d.cross with dones := t } }

end Sys2Proof.Machine
end

