-- ==== Sys2Proof/Machine/Queues.lean ====
section
/-! DEFINITION. Queues, meters and admission of the traffic manager (11_traffic_manager.md, R298 to R315). -/

namespace Sys2Proof.Machine

/-- Change the traffic manager's own state. -/
def onTm (f : Tm → Tm) (d : Dev) : Dev := { d with tm := f d.tm }
/-- A queue. -/
def queue (q : Nat) (d : Dev) : Queue := look d.tm.queues q {}
/-- Set a queue. -/
def setQueue (q : Nat) (x : Queue) (d : Dev) : Dev := onTm (fun t => { t with queues := put t.queues q {} x }) d
/-- Change a queue. -/
def modQueue (q : Nat) (f : Queue → Queue) (d : Dev) : Dev := setQueue q (f (queue q d)) d
/-- Whether a queue is a VOQ (R298). -/
def isVoq (q : Nat) : Bool := decide (q < 0x20000)
/-- DEV, PORT and CLASS of a VOQ (R298). -/
def voqDev (q : Nat) : Nat := bits q 16 11
def voqPort (q : Nat) : Nat := bits q 10 4
def voqClass (q : Nat) : Nat := q % 16
/-- One byte in the unit of the buckets (R308). -/
def bktByte : Nat := 8000000
/-- Age of a packet in ns: Spindle time minus PKT_TIME in half-range serial arithmetic; one from the future has age 0 (R310). -/
def ageOf (t : Nat) (d : Dev) : Nat :=
  let x := (now48 d + 2 ^ 48 - t % 2 ^ 48) % 2 ^ 48
  if x < 2 ^ 47 then x else 0

/-! Meters (R307 to R309). -/

/-- A meter. -/
def meter (m : Nat) (d : Dev) : Meter := look d.tm.meters m {}
/-- Set a meter. -/
def setMeter (m : Nat) (x : Meter) (d : Dev) : Dev := onTm (fun t => { t with meters := put t.meters m {} x }) d
/-- Colour a packet of len bytes under two rates (RFC 2698): 0 green, 1 yellow, 2 red. -/
def meter2698 (m : Meter) (len : Int) (c : Nat) : Nat × Meter :=
  let n := len * bktByte
  if c = 2 ∨ (m.tp : Int) < n then (2, m)
  else
    let m := { m with tp := (m.tp - n).toNat }
    if c = 1 ∨ (m.tc : Int) < n then (1, m) else (0, { m with tc := (m.tc - n).toNat })
/-- Colour a packet under a single rate (RFC 2697). -/
def meter2697 (m : Meter) (len : Int) (c : Nat) : Nat × Meter :=
  let n := len * bktByte
  if c = 0 ∧ n ≤ m.tc then (0, { m with tc := (m.tc - n).toNat })
  else if c ≠ 2 ∧ n ≤ m.tp then (1, { m with tp := (m.tp - n).toNat })
  else (2, m)
/-- The buckets of a meter at now (R308). [DEDUCED: log 68] -/
def meterRefill (m : Meter) (now : Nat) (mode cir pir cbs pbs : Nat) : Meter :=
  let dt := now - m.last
  if mode = 0 then { m with last := now, tc := min (cbs * bktByte) (m.tc + cir * dt), tp := min (pbs * bktByte) (m.tp + pir * dt) }
  else
    let a := m.tc + cir * dt
    let tc := min (cbs * bktByte) a
    { m with last := now, tc := tc, tp := min (pbs * bktByte) (m.tp + (a - tc)) }
/-- Meter a packet: its colour, and whether a red result drops it (R307, R308). -/
def meterRun (i len c : Nat) (d : Dev) : Nat × Bool × Dev :=
  let m := meter i d
  let p := m.prof
  if !m.en || !flag MTR_PROFp.VALID 0 p d || !blkEn Pg.MTR d then (c, false, d)
  else
    let mode := rget MTR_PROFp.MODE 0 p d
    let m := meterRefill m d.mono mode (rget MTR_PROFp.CIR 0 p d) (rget MTR_PROFp.PIR 0 p d) (rget MTR_PROFp.CBS 0 p d) (rget MTR_PROFp.PBS 0 p d)
    let c := if flag MTR_PROFp.AWARE 0 p d then c else 0
    let n : Int := len + signed 8 (rget MTR_PROFp.LEN_ADJ 0 p d)
    let (r, m) := if mode = 0 then meter2698 m n c else meter2697 m n c
    let d := inc Pg.MTR r (setMeter i m d)
    let red := r == 2 && flag MTR_PROFp.RED_DROP 0 p d
    (r, red, if red then inc Pg.MTR 3 d else d)
/-- What MTR_RES shows. -/
def meterRes (i : Nat) (d : Dev) : Dev :=
  let m := meter i d
  let d := rset MTR_RES.EN 0 0 (b2n m.en) (rset MTR_RES.PROFILE 0 0 m.prof d)
  rset MTR_RES.TC 0 0 (m.tc / bktByte) (rset MTR_RES.TP 0 0 (m.tp / bktByte) d)
/-- A commit of MTR_CMD. [DESIGN CHOICE: log 5] -/
def mtrCmdWrite (img : Nat) (d : Dev) : Dev :=
  let d := storeFields false .MTR_CMD 0 0 img d
  if !MTR_CMD.GO.on img then d
  else
    let i := MTR_CMD.METER.of img
    let p := MTR_CMD.PROFILE.of img
    match MTR_CMD.OP.of img with
    | 0 =>
      let m : Meter := { en := MTR_CMD.EN.on img, prof := p, tc := rget MTR_PROFp.CBS 0 p d * bktByte, tp := rget MTR_PROFp.PBS 0 p d * bktByte, last := d.mono }
      fire Pg.MTR 0 (meterRes i (setMeter i m d))
    | 1 => fire Pg.MTR 0 (meterRes i d)
    | _ => fire Pg.MTR 0 (errAt Err.BAD_ARG .MTR_CMD 0 0 d)
/-- A commit of MTR_PROFp: in RFC 2698 mode PIR is at least CIR. -/
def mtrProfWrite (p img : Nat) (d : Dev) : Dev :=
  if !MTR_PROFp.MODE.on img && decide (MTR_PROFp.PIR.of img < MTR_PROFp.CIR.of img) then errAt Err.BAD_ARG .MTR_PROFp 0 p d
  else storeFields false .MTR_PROFp 0 p img d

/-! Credit requests of a VOQ (R312, R313, R382). -/

/-- CREDIT_BYTES (R312). [DEDUCED: log 68] -/
def creditBytes (d : Dev) : Nat := 1024 * 2 ^ rget TMS_CR_CFG.UNIT 0 0 d
/-- Serial comparison of two 16-bit numbers (R382). -/
def later16 (a b : Nat) : Bool := let x := (a + 2 ^ 16 - b % 2 ^ 16) % 2 ^ 16; decide (0 < x ∧ x < 2 ^ 15)
/-- A credit generator takes a request of (port, class, device); one that is not later than the kept one changes nothing. -/
def creditReq (port cls dev : Nat) (on : Bool) (seq : Nat) (d : Dev) : Dev :=
  let k := (port * 16 + cls) * 64 + dev
  let r := look d.tm.reqs k {}
  if r.seen && !later16 seq r.seq then d
  else onTm (fun t => { t with reqs := put t.reqs k {} { on := on, seq := seq, seen := true } }) d
/-- A VOQ sends a request: inside the TM die on the hairpin path, else in a CREDIT cell (R313, R315, R381). -/
def sendReq (q : Nat) (on : Bool) (d : Dev) : Dev :=
  let x := queue q d
  let seq := (x.reqSeq + 1) % 2 ^ 16
  let d := setQueue q { x with reqOn := on, reqSeq := seq, reqAt := d.mono } d
  if voqDev q = devId d then creditReq (voqPort q) (voqClass q) (devId d) on seq d
  else sendCtl (some (voqDev q)) 0 ((if on then 0 else 2 ^ 62) + voqPort q * 2 ^ 55 + voqClass q * 2 ^ 51 + seq * 2 ^ 35) d
/-- After a VOQ's bytes or balance changed: it turns its request on when its bytes exceed its balance (R313). -/
def reqCheck (q : Nat) (d : Dev) : Dev :=
  let x := queue q d
  if !x.reqOn && decide (x.bal < x.bytes) && decide (0 < x.bytes) then sendReq q true d else d
/-- After a VOQ lost packets: when it has emptied, a positive balance is discarded and OFF is sent (R312, R313). -/
def voqEmptied (q : Nat) (d : Dev) : Dev :=
  let x := queue q d
  if x.bytes = 0 ∧ x.pkts.isEmpty ∧ x.spillPkts = 0 then
    let d := setQueue q { x with bal := min x.bal 0 } d
    if x.reqOn then sendReq q false d else d
  else d
/-- A grant of n credits reaches a VOQ (R312, R381). -/
def creditGrant (q n : Nat) (d : Dev) : Dev :=
  reqCheck q (incBy Pg.TMS 10 n (modQueue q (fun x => { x with bal := x.bal + n * creditBytes d, reqAt := d.mono }) d))
/-- A VOQ that is on has had no credit for REQ_TMO since its ON or its last credit: it sends ON again (R313). A credit of the same
instant that came before it has restarted the time, so the credit wins (R322). -/
def reqTimeout (q : Nat) (d : Dev) : Dev :=
  let x := queue q d
  if isVoq q && x.reqOn && decide (x.reqAt + rget TMS_CR_CFG.REQ_TMO 0 0 d * 1000 ≤ d.mono) then fire Pg.TMS 2 (inc Pg.TMS 11 (sendReq q true d)) else d

/-! Queue selection (R300, R301). -/

/-- A scheduler node. -/
def node (lvl i : Nat) (d : Dev) : Node := look d.tm.nodes (lvl * 65536 + i) {}
/-- Set a scheduler node. -/
def setNode (lvl i : Nat) (x : Node) (d : Dev) : Dev := onTm (fun t => { t with nodes := put t.nodes (lvl * 65536 + i) {} x }) d
/-- The port node at the end of an egress queue's path (R301). -/
def rootOf (q : Nat) (d : Dev) : Nat := (node 1 (node 2 (node 3 (queue q d).parent d).parent d).parent d).parent
/-- The egress queue of a packet for egress port n that left VOQ qid; none where the mapping fails (R301). [DEDUCED: log 65] -/
def egressQueue (n qid carry : Nat) (d : Dev) : Option Nat :=
  let base := rget TMS_PORTn_EQ.EQ_BASE 0 n d
  let sel := if rget TMS_PORTn_CFG.EQSEL 0 n d = 1 then carry % 2 ^ 19 else base + qid % 16
  if sel < 0x20000 ∨ 0x7FFFF < sel ∨ (rget TMS_PORTn_CFG.EQSEL 0 n d = 0 ∧ base < 0x20000) then none
  else if (queue sel d).en && rootOf sel d != n then none
  else some sel
/-- The service queue that diverts a host queue (R399). -/
def diverted (hq : Nat) (d : Dev) : Option Nat := (List.range 3).find? fun k => flag SVC_DIVERTk.EN 0 k d && rget SVC_DIVERTk.HOSTQ 0 k d == hq
/-- The queue of an arrival (R300). -/
def arrivalQueue (a : Arrival) (d : Dev) : Option Nat :=
  let inRange (q : Nat) : Option Nat := if q < 0x20000 ∨ 0x7FFFF < q then none else some q
  match a.dest with
  | .voq => some a.desc.qid
  | .mirror k => some (rget TMS_MIRk.QID 0 k d)
  | .egress n => egressQueue n a.desc.qid a.desc.carry d
  | .host hq =>
    match diverted hq d with
    | some k => inRange (rget TMS_PORTn_EQ.EQ_BASE 0 129 d + k)
    | none => inRange (rget TMS_PORTn_EQ.EQ_BASE 0 128 d + hq)

/-! Admission (R304 to R306, R310). -/

/-- The pool that a packet's first cell belongs to. -/
def descPool (x : Desc) (d : Dev) : Nat := (cell x.head d).pool
/-- Whether some stack is UP. -/
def stacksUp (d : Dev) : Bool := (List.range 4).any fun s => rget HBM_ID.STATE s 0 d == 2
/-- spill_trigger of R310. -/
def spillTrigger (q : Queue) (x : Desc) (d : Dev) : Bool :=
  let p := q.qprof
  let sb := rget TMS_QPROFp.SPILL_BYTES 0 p d
  let sn := rget TMS_QPROFp.SPILL_NS 0 p d
  let sp := rget TMS_QPROFp.SPILL_PRESS 0 p d
  let n := q.bytes + x.len
  let age := match q.pkts with | h :: _ => decide (sn ≤ ageOf h.time d) | [] => false
  flag TMS_CFG.SPILL_EN 0 0 d && stacksUp d &&
    ((sb != 0 && decide (sb * 64 ≤ n)) || (sn != 0 && age) ||
      (sp != 0 && decide (1 ≤ poolState (descPool x d) d) && decide (sp * 64 ≤ n)))
/-- wred_drop of R306; the pseudo-random number is free. [DESIGN CHOICE: log 66] -/
def wredDrop (avg : Int) (w c : Nat) (d : Dev) : Bool × Dev :=
  let sel (g y r : Fld) : Nat := rget (if c = 0 then g else if c = 1 then y else r) 0 w d
  let lo : Int := sel TMS_WREDk.MIN_G TMS_WREDk.MIN_Y TMS_WREDk.MIN_R * 64
  let hi : Int := sel TMS_WREDk.MAX_G TMS_WREDk.MAX_Y TMS_WREDk.MAX_R * 64
  if avg < lo then (false, d)
  else if hi ≤ avg then (true, d)
  else
    let p16 := (avg - lo) * (sel TMS_WREDk.PMAX_G TMS_WREDk.PMAX_Y TMS_WREDk.PMAX_R) * 256 / (hi - lo)
    let (r, d) := draw d
    (decide ((r % 65536 : Nat) < p16), d)
/-- What admission decides (R304): a drop code, or 0 where the packet is queued. The queue's average and SPILLED follow. -/
def admitCheck (q : Nat) (x : Desc) (d : Dev) : Nat × Dev :=
  let s := queue q d
  let p := s.qprof
  let n := s.bytes + x.len
  if !s.en then (0x80, d)
  else if rget TMS_QPROFp.MAX 0 p d * 64 < n then (0x81, d)
  else
    let spill := isVoq q && !s.spilled && spillTrigger s x d
    let d := if spill then inc Pg.TMS 7 d else d
    let w := rget TMS_QPROFp.WRED 0 p d
    let avg := s.avg + (s.bytes - s.avg) / (2 ^ rget TMS_WREDk.W 0 w d : Nat)
    let s := { s with spilled := s.spilled || spill, avg := avg }
    let d := setQueue q s d
    if n ≤ rget TMS_QPROFp.GUAR 0 p d * 64 then (0, d)
    else
      let pl := descPool x d
      let limit := poolFree pl d * 64 * poolStep pl d * 2 ^ rget TMS_QPROFp.ALPHA 0 p d
      if !s.spilled && decide (2 ≤ poolState pl d) then (0x82, d)
      else if !s.spilled && flag TMS_QPROFp.DT_EN 0 p d && decide (limit < n * 256) then (0x83, d)
      else if flag TMS_QPROFp.WRED_EN 0 p d then
        let (r, d) := wredDrop avg w x.color d
        (if r then 0x84 else 0, d)
      else (0, d)
/-- Queue an admitted packet, or hand it to the spill writer of a spilled queue (R304, R311). -/
def enqueue (q : Nat) (x : Desc) (d : Dev) : Dev :=
  let s := queue q d
  let d := inc Pg.TMS (if isVoq q then 0 else 1) d
  let d := if s.spilled then
      onTm (fun t => { t with spillIn := t.spillIn ++ [(q, x)] })
        (setQueue q { s with bytes := s.bytes + x.len, spillPkts := s.spillPkts + 1, spillBytes := s.spillBytes + x.len } d)
    else setQueue q { s with bytes := s.bytes + x.len, pkts := s.pkts ++ [x] } d
  if isVoq q then reqCheck q d else d
/-- A packet that admission refuses releases its reference (R254, R304). -/
def admitDrop (code : Nat) (x : Desc) (d : Dev) : Dev :=
  let d := inc Pg.TMS 2 (drop code d)
  free .tm x.head x.tag (if code = 0x84 then inc Pg.TMS 3 d else d)
/-- Admit a packet at a queue. -/
def admitAt (q : Nat) (x : Desc) (d : Dev) : Dev :=
  let (c, d) := admitCheck q x d
  if c = 0 then enqueue q { x with qid := if isVoq q then q else x.qid } d
  else admitDrop c x (modQueue q (fun s => { s with spilled := s.spilled && s.spillBytes != 0 }) d)
/-- A packet whose egress queue cannot be selected (R301). [DEDUCED: log 65] -/
def eqMapDrop (x : Desc) (d : Dev) : Dev := free .tm x.head x.tag (fire Pg.TMS 1 (inc Pg.TMS 13 (drop 0x87 d)))
/-- Admit an arrival at the queue that R300 names for it. -/
def admitArrival (a : Arrival) (d : Dev) : Dev :=
  if !blkEn Pg.TMS d then admitDrop 0x80 a.desc d
  else match arrivalQueue a d with
    | some q => admitAt q a.desc d
    | none => eqMapDrop a.desc d
/-- The oldest arriving descriptor is metered and admitted; copies of its packet take its colour (R300, R304, R307). -/
def admitPacket (d : Dev) : Dev :=
  match d.tm.input with
  | [] => d
  | a :: t =>
    match a.meter with
    | none => admitArrival a (onTm (fun s => { s with input := t }) d)
    | some m =>
      let x := a.desc
      let (c, red, d) := meterRun m x.len x.color d
      let t := t.map fun b => if !b.orig && b.desc.head == x.head && b.desc.tag == x.tag then { b with desc := { b.desc with color := c } } else b
      let d := onTm (fun s => { s with input := t }) d
      if red then free .tm x.head x.tag (drop 0x85 d) else admitArrival { a with desc := { x with color := c } } d

end Sys2Proof.Machine
end

