-- ==== Sys2Proof/Machine/Hbm.lean ====
section
/-! DEFINITION. The deep buffer (10_hbm.md): blocks, spill streams, reading back, training and frequency, temperature,
slow pseudo-channels and scrubbing. -/

namespace Sys2Proof.Machine

/-- Change the controllers' own state. -/
def onHbm (f : Hbm → Hbm) (d : Dev) : Dev := { d with hbm := f d.hbm }
/-- Global pseudo-channel and block index of a handle (R272). -/
def pcOf (h : Nat) : Nat := h / 2 ^ 23 % 128
def blkOf (h : Nat) : Nat := h % 2 ^ 23
/-- The stack of a handle. -/
def stackOf (h : Nat) : Nat := pcOf h / 32
/-- STATE of a pseudo-channel: 0 OPEN, 1 SLOW, 2 CLOSED, 3 FAILED. -/
def pcState (pc : Nat) (d : Dev) : Nat := rget HBM_PCk_STAT.STATE (pc / 32) (pc % 32) d
/-- Set STATE of a pseudo-channel. -/
def setPcState (pc st : Nat) (d : Dev) : Dev := rset HBM_PCk_STAT.STATE (pc / 32) (pc % 32) st d
/-- Blocks of a pseudo-channel (R273). -/
def pcBlocks (pc : Nat) (d : Dev) : Nat := 4 * rget HBM_ID.BANKS (pc / 32) 0 d * rget HBM_ID.ROWS (pc / 32) 0 d
/-- The free blocks of a pseudo-channel. -/
def pcFree (pc : Nat) (d : Dev) : PcFree := look d.hbm.pcs pc {}
/-- How many blocks are free: never used, cached, or on the chain of LIST blocks (R277). -/
def pcFreeCount (pc : Nat) (d : Dev) : Nat :=
  let p := pcFree pc d
  pcBlocks pc d - p.hwm + p.cache.length + p.lists.foldl (fun a x => a + x.2.length + 1) 0
/-- Set the free blocks of a pseudo-channel; its FREE and FREE_TOTAL follow. -/
def setPcFree (pc : Nat) (p : PcFree) (d : Dev) : Dev :=
  let old := rget HBM_PCk_STAT.FREE (pc / 32) (pc % 32) d
  let d := onHbm (fun h => { h with pcs := put h.pcs pc {} p }) d
  let n := pcFreeCount pc d
  let d := rset HBM_PCk_STAT.FREE (pc / 32) (pc % 32) n d
  rset HBM_FREE_TOTAL.FREE 0 0 (rget HBM_FREE_TOTAL.FREE 0 0 d + n - old) d
/-- Latch the first error of a stack (R280, R281, R293, R556). -/
def hbmLatch (kind h : Nat) (d : Dev) : Dev :=
  let s := stackOf h
  if flag HBM_ERR_ADDR.VALID s 0 d then d
  else eccLog (Pg.HBM + s) h (loadImg .HBM_ERR_ADDR s 0 (2 ^ 63 + kind * 2 ^ 61 + h) d)
/-- Where a block lies (R273): its bank among all banks of the device, its row, and its first column byte. -/
def blockPlace (h : Nat) (d : Dev) : Nat × Nat × Nat :=
  let n := max 1 (rget HBM_ID.BANKS (stackOf h) 0 d)
  (pcOf h * 128 + blkOf h / 4 % n, blkOf h / (4 * n), 256 * (blkOf h % 4))
/-- An access opens its row (R285). -/
def openRow (h : Nat) (d : Dev) : Dev := let (b, r, _) := blockPlace h d; onHbm (fun x => { x with rows := ins x.rows b (r + 1) }) d

/-! The block (R274, R275, R277). -/

/-- Even parity over a handle. -/
def handlePar (h : Nat) : Nat := (bitsOf 30 h).length % 2
/-- Trailer bits [127:32]. -/
def trailerHead (kind next used1 first seq : Nat) : Nat :=
  kind * 2 ^ 94 + handlePar next * 2 ^ 93 + next % 2 ^ 30 * 2 ^ 63 + handlePar next * 2 ^ 62 + next % 2 ^ 30 * 2 ^ 32 +
    used1 % 256 * 2 ^ 24 + first % 512 * 2 ^ 15 + seq % 2 ^ 15
/-- The CRC of a block: its data and the trailer bits above it. -/
def blockCrc (data : Bytes) (head : Nat) : Nat := crc32c (data ++ beBytes 12 head)
/-- A block of a kind, its data padded with zeros. [DEDUCED: log 62] -/
def blockImg (kind next used1 first seq : Nat) (data : Bytes) : BlkImg :=
  let data := data ++ List.replicate (256 - data.length) 0
  let head := trailerHead kind next used1 first seq
  { data := data, trailer := head * 2 ^ 32 + blockCrc data head }
/-- Whether a block's CRC is good. -/
def imgGood (x : BlkImg) : Bool := bits x.trailer 31 0 == blockCrc x.data (bits x.trailer 127 32)
/-- SEQ of a block. -/
def imgSeq (x : BlkImg) : Nat := bits x.trailer 46 32
/-- The link of a block whose CRC is bad: used only where both parities are good and the copies agree (R281). -/
def imgLink (x : BlkImg) : Option Nat :=
  let a := bits x.trailer 124 95
  let b := bits x.trailer 93 64
  if bits x.trailer 125 125 = handlePar a ∧ bits x.trailer 94 94 = handlePar b ∧ a = b then some a else none
/-- Turn bits of a block: 0 to 2,047 its data, 2,048 to 2,175 its trailer. [DESIGN CHOICE: log 64] -/
def imgFlip (l : List (Fin 2176)) (x : BlkImg) : BlkImg :=
  l.foldl (fun (x : BlkImg) (i : Fin 2176) =>
    if i.val < 2048 then { x with data := x.data.set (i.val / 8) (x.data.getD (i.val / 8) 0 ^^^ BitVec.ofNat 8 (2 ^ (i.val % 8))) }
    else { x with trailer := x.trailer ^^^ 2 ^ (i.val - 2048) }) x
/-- No block. -/
def noHandle : Nat := 0x3FFFFFFF
/-- The 256-bit header of a spill record (R275). -/
def recordImg (x : Desc) : Nat :=
  x.len % 2 ^ 14 * 2 ^ 242 + x.tag % 2 ^ 12 * 2 ^ 230 + x.nh % 2 ^ 21 * 2 ^ 209 + x.time % 2 ^ 48 * 2 ^ 161 + x.port % 2 ^ 8 * 2 ^ 153 +
    x.hash % 2 ^ 32 * 2 ^ 121 + x.color % 4 * 2 ^ 119 + x.carry % 2 ^ 64 * 2 ^ 55 + 0x5A * 2 ^ 48 + x.cls % 16 * 2 ^ 44
/-- The descriptor that a record header of queue q spells. -/
def recordDesc (q h : Nat) (d : Dev) : Desc :=
  { len := bits h 255 242, tag := bits h 241 230, nh := bits h 229 209, time := bits h 208 161, port := bits h 160 153, hash := bits h 152 121,
    color := bits h 120 119, carry := bits h 118 55, cls := bits h 47 44, qid := q, srcDev := devId d }
/-- A LIST block: the handles it holds, at data bytes 4j, and the next LIST block, in bytes 252 to 255 and in its link (R277). -/
def listImg (hs : List Nat) (next : Nat) : BlkImg :=
  blockImg 3 next 0 0 0 ((List.range 63).flatMap (fun j => beBytes 4 (hs.getD j 0xFFFFFFFF)) ++ beBytes 4 next)
/-- The handles that a LIST block holds. -/
def listHandles (x : BlkImg) : List Nat := ((List.range 63).map fun j => beAt x.data (4 * j) 4).filter (· != 0xFFFFFFFF)

/-! Writes of a pseudo-channel (R283, R284). -/

/-- The write queue of a pseudo-channel. -/
def writeQueue (pc : Nat) (d : Dev) : List WrCmd := look d.hbm.wq pc []
/-- The latest contents accepted for a block, from the writes that wait or from its stack (R284). -/
def blockHeld (h : Nat) (d : Dev) : Option BlkImg :=
  match ((writeQueue (pcOf h) d ++ d.hbm.wwait).reverse.find? fun w => w.handle == h) with
  | some w => some w.img
  | none => find? d.hbm.mem h
/-- A write is issued to its stack: its row opens, an armed test hook turns its bit, and the packets that end in it release their
chains (R276, R285, R296). -/
def writeIssue (w : WrCmd) (d : Dev) : Dev :=
  let s := stackOf w.handle
  let d := openRow w.handle d
  let hit := flag HBM_X_INJECT.GO s 0 d && rget HBM_X_INJECT.PC s 0 d == pcOf w.handle % 32
  let img := if hit then imgFlip [⟨rget HBM_X_INJECT.BIT s 0 d % 2176, Nat.mod_lt _ (by decide)⟩] w.img else w.img
  let d := if hit then rset HBM_X_INJECT.GO s 0 0 d else d
  let d := inc (Pg.HBM + s) (if w.list then 7 else 0) (onHbm (fun x => { x with mem := ins x.mem w.handle img }) d)
  w.rel.foldl (fun t x => free .hbm x.1 x.2 t) d
/-- Whether a training step holds a pseudo-channel's traffic. -/
def stepHolds (pc : Nat) (d : Dev) : Bool :=
  let s := pc / 32
  rget HBM_TRAIN_STAT.STEP s 0 d != 0 && (rget HBM_ID.STATE s 0 d != 2 || (find? d.hbm.retrain s).any fun x => x.1 == pc)
/-- How many queued writes a pseudo-channel keeps: it serves reads before writes, so with reads outstanding writes are issued only
from WR_HIGH down to WR_LOW. [DESIGN CHOICE: log 61] -/
def writesKept (pc : Nat) (d : Dev) : Nat :=
  let n := (writeQueue pc d).length
  if stepHolds pc d then n
  else if rget HBM_PCk_STAT.OUTST (pc / 32) (pc % 32) d = 0 then 0
  else if rget HBM_X_WQ.WR_HIGH (pc / 32) 0 d ≤ n then rget HBM_X_WQ.WR_LOW (pc / 32) 0 d
  else n
/-- Issue the writes that a pseudo-channel may issue; writes that wait for its queue then enter it. -/
def serveWrites (pc : Nat) : Nat → Dev → Dev
  | 0, d => d
  | k + 1, d =>
    let q := writeQueue pc d
    let n := q.length - writesKept pc d
    let rest := q.drop n
    let mine := (d.hbm.wwait.filter fun w => pcOf w.handle == pc).take (64 - rest.length)
    let d := (q.take n).foldl (fun t w => writeIssue w t) d
    let d := onHbm (fun x => { x with wq := put x.wq pc [] (rest ++ mine), wwait := mine.foldl (fun (l : List WrCmd) w => l.erase w) x.wwait }) d
    if mine.isEmpty then d else serveWrites pc k d
/-- Serve the writes of a pseudo-channel. -/
def writes (pc : Nat) (d : Dev) : Dev := serveWrites pc (d.hbm.wwait.length + 1) d
/-- A block's write: it enters its pseudo-channel's queue, or waits in the writer where the queue is full. -/
def blockStore (w : WrCmd) (d : Dev) : Dev := writes (pcOf w.handle) (onHbm (fun x => { x with wwait := x.wwait ++ [w] }) d)

/-! Allocation and freeing (R277, R278). -/

/-- A freed handle enters its pseudo-channel's cache, or the freed block becomes the head LIST block. -/
def freeBlock (h : Nat) (d : Dev) : Dev :=
  let p := pcFree (pcOf h) d
  if p.cache.length < 64 then setPcFree (pcOf h) { p with cache := p.cache ++ [h] } d
  else
    let next := match p.lists with | x :: _ => x.1 | [] => noHandle
    blockStore { handle := h, img := listImg (p.cache.take 63) next, list := true }
      (setPcFree (pcOf h) { p with cache := p.cache.drop 63, lists := (h, p.cache.take 63) :: p.lists } d)
/-- The reads of one block, at most two of them re-reads (R280): its contents where a read was good, and those of the last read. -/
def readBlock (h : Nat) : Nat → List BlockRead → Dev → Option BlkImg × Option BlkImg × List BlockRead × Dev
  | k, rs, d =>
    let page := Pg.HBM + stackOf h
    let (x, d) := match rs.head? with
      | some (.back l) => ((blockHeld h d).map (imgFlip l), d)
      | some .late => (none, inc page 10 d)
      | none => (blockHeld h d, d)
    if x.any imgGood then (x, x, rs.tail, d)
    else match k with
      | 0 => (none, x, rs.tail, d)
      | k + 1 => readBlock h k rs.tail (inc page 2 (overrun page d))
/-- Take a block of a pseudo-channel: the cache, then the head LIST block with its handles, then a never-used block. What the reads
of LIST blocks meet comes from rs. -/
def popBlock (pc : Nat) (rs : List BlockRead) (d : Dev) : Nat × List BlockRead × Dev :=
  let p := pcFree pc d
  match p.cache, p.lists with
  | h :: t, _ => (h, rs, setPcFree pc { p with cache := t } d)
  | [], (h, hs) :: t =>
    let page := Pg.HBM + pc / 32
    match readBlock h 2 rs (openRow h (inc page 1 d)) with
    | (some x, _, rs, d) => (h, rs, setPcFree pc { p with cache := listHandles x, lists := t } d)
    | (none, x, rs, d) =>
      let next := match t with | y :: _ => y.1 | [] => noHandle
      let link := x.bind imgLink == some next
      let lost := hs.length + (if link then 0 else t.foldl (fun a y => a + y.2.length + 1) 0)
      let d := fire page 2 (incBy page 5 lost (inc page 3 d))
      (h, rs, hbmLatch 0 h (setPcFree pc { p with lists := if link then t else [] } d))
  | [], [] => (pc * 2 ^ 23 + p.hwm, rs, setPcFree pc { p with hwm := p.hwm + 1 } d)
/-- Whether the allocator may take a block of a pseudo-channel (R278, R283, R39). -/
def pcUsable (pc : Nat) (d : Dev) : Bool :=
  pcState pc d == 0 && !flag HBM_TEMP.NOALLOC (pc / 32) 0 d && pcFreeCount pc d != 0 && decide ((writeQueue pc d).length < 64) &&
    blkEn (Pg.HBM + pc / 32) d
/-- alloc_block of R278. -/
def allocBlock (rs : List BlockRead) (d : Dev) : Option Nat × List BlockRead × Dev :=
  match (List.range 128).find? fun i => pcUsable ((d.hbm.ptr + i) % 128) d with
  | none => (none, rs, d)
  | some i =>
    let pc := (d.hbm.ptr + i) % 128
    let (h, rs, d) := popBlock pc rs (onHbm (fun x => { x with ptr := (pc + 1) % 128 }) d)
    (some h, rs, d)
/-- Reserve n blocks; where one is refused the others return to their caches (R276). [DEDUCED: log 62] -/
def reserve : Nat → List BlockRead → Dev → Option (List Nat) × List BlockRead × Dev
  | 0, rs, d => (some [], rs, d)
  | n + 1, rs, d =>
    match allocBlock rs d with
    | (none, rs, d) => (none, rs, d)
    | (some h, rs, d) =>
      match reserve n rs d with
      | (some l, rs, d) => (some (h :: l), rs, d)
      | (none, rs, d) => (none, rs, freeBlock h d)

/-! The spill writer (R275, R276, R311). -/

/-- The stream of a queue. -/
def stream (q : Nat) (d : Dev) : Stream := look d.hbm.streams q {}
/-- Set the stream of a queue. -/
def setStream (q : Nat) (s : Stream) (d : Dev) : Dev := onHbm (fun h => { h with streams := put h.streams q {} s }) d
/-- A stream has emptied: the queue leaves SPILLED, and the stream's blocks are freed, one that is still being read when it returns
(R278, R311). -/
def streamEnd (q : Nat) (d : Dev) : Dev :=
  let s := stream q d
  if (queue q d).spillPkts = 0 then
    let reads := (s.blocks.filter (·.at_ == .reading)).map fun b => (b.handle, false)
    let d := onHbm (fun h => { h with strays := h.strays ++ reads }) (setStream q {} d)
    let d := (s.pre ++ (s.blocks.filter (·.at_ != .reading)).map (·.handle)).foldl (fun t h => freeBlock h t) d
    modQueue q (fun x => { x with spilled := false, asked := 0 }) d
  else d
/-- A spilled packet leaves its queue by a drop. [DEDUCED: log 63] -/
def spillGone (q : Nat) (x : Desc) (d : Dev) : Dev :=
  voqEmptied q (modQueue q (fun s => { s with bytes := s.bytes - x.len, spillPkts := s.spillPkts - 1, spillBytes := s.spillBytes - x.len }) d)
/-- The filling block closes: its write goes out with its link to the next block (R274, R276). [DEDUCED: log 62] -/
def closeTail (q : Nat) (d : Dev) : Dev :=
  let s := stream q d
  match s.blocks.find? (·.at_ == .filling) with
  | none => d
  | some b =>
    let blocks := s.blocks.map fun x => if x.handle = b.handle ∧ x.at_ = .filling then { x with at_ := .written } else x
    let edge := b.ofs + b.used
    let rel := (s.unrel.filter fun x => decide (x.2.2 ≤ edge)).map fun x => (x.1, x.2.1)
    let img := blockImg 1 (s.pre.headD noHandle) (b.used - 1) b.first b.seq s.buf
    blockStore { handle := b.handle, img := img, rel := rel }
      (setStream q { s with blocks := blocks, buf := [], unrel := s.unrel.filter fun x => decide (edge < x.2.2) } d)
/-- Lay stream bytes into the filling block and then into the blocks allocated in advance; `start` says that they begin a record. -/
def layBytes (q : Nat) : Nat → Bool → Bytes → Dev → Dev
  | 0, _, _, d => d
  | k + 1, start, bs, d =>
    if bs.isEmpty then d
    else
      let s := stream q d
      match s.blocks.find? (·.at_ == .filling) with
      | some b =>
        let m := min bs.length (256 - b.used)
        let b' := { b with used := b.used + m, first := if start ∧ b.first = 0x1FF then b.used else b.first }
        let d := setStream q { s with blocks := s.blocks.map fun x => if x = b then b' else x
                                      wpos := s.wpos + m, buf := s.buf ++ bs.take m } d
        layBytes q k false (bs.drop m) (if b.used + m = 256 then closeTail q d else d)
      | none =>
        match s.pre with
        | [] => d
        | h :: t =>
          let b : Blk := { handle := h, seq := s.seq, ofs := s.wpos, used := 0 }
          layBytes q k start bs (setStream q { s with blocks := s.blocks ++ [b], pre := t, seq := (s.seq + 1) % 32768 } d)
/-- Blocks that n more stream bytes touch beyond the filling one. -/
def newBlocks (s : Stream) (n : Nat) : Nat :=
  match s.blocks.find? (·.at_ == .filling) with
  | some b => (n - (256 - b.used) + 255) / 256
  | none => (n + 255) / 256
/-- The spill writer takes the oldest packet handed to it (R276). [DESIGN CHOICE: log 61; DEDUCED: log 62] -/
def spillWrite (rs : List BlockRead) (d : Dev) : Dev :=
  match d.tm.spillIn with
  | [] => d
  | (q, x) :: rest =>
    let d := onTm (fun t => { t with spillIn := rest }) d
    let (c, bs, d) := readChain .hbm x d
    if c ≠ 0 then streamEnd q (spillGone q x (free .hbm x.head x.tag (drop c d)))
    else
      let s := stream q d
      let size := 32 + x.len
      let k := newBlocks s size
      match reserve (k - s.pre.length) rs d with
      | (none, _, d) => streamEnd q (spillGone q x (free .hbm x.head x.tag (fire Pg.HBM 8 (inc Pg.HBM 8 (drop 0xD2 d)))))
      | (some l, rs, d) =>
        let hs := s.pre ++ l
        let (next, _, d) := if k < hs.length then (none, rs, d) else allocBlock rs d
        let s := { stream q d with recs := s.recs ++ [{ desc := x, start := s.wpos }], unrel := s.unrel ++ [(x.head, x.tag, s.wpos + size)], pre := hs ++ next.toList }
        let d := layBytes q (2 * size) true (beBytes 32 (recordImg x) ++ bs) (setStream q s (inc Pg.TMS 8 d))
        if rest.any fun y => y.1 == q then d else closeTail q d

/-! Reading back (R279 to R281). -/

/-- Change the outstanding reads of a pseudo-channel. -/
def outst (h : Nat) (f : Nat → Nat) (d : Dev) : Dev :=
  rset HBM_PCk_STAT.OUTST (stackOf h) (pcOf h % 32) (f (rget HBM_PCk_STAT.OUTST (stackOf h) (pcOf h % 32) d)) d
/-- A read is over; writes that waited for reads may go. -/
def readOver (h : Nat) (d : Dev) : Dev := writes (pcOf h) (outst h (· - 1) d)
/-- The blocks that a record lies in. -/
def blocksOf (s : Stream) (r : SpillRec) : List Blk :=
  s.blocks.filter fun b => decide (b.ofs < r.start + 32 + r.desc.len ∧ r.start < b.ofs + b.used)
/-- Whether a block has come back, good or poisoned. -/
def Blk.back (b : Blk) : Bool := b.at_ == .returned || b.at_ == .poisoned
/-- Free the blocks that have returned and whose every record byte has been delivered or dropped (R278, R281). -/
def freeRead (q : Nat) (d : Dev) : Dev :=
  let s := stream q d
  let done (b : Blk) : Bool := b.back && !(s.recs.any fun r => decide (b.ofs < r.start + 32 + r.desc.len ∧ r.start < b.ofs + b.used))
  ((s.blocks.filter done).map (·.handle)).foldl (fun t h => freeBlock h t) (setStream q { s with blocks := s.blocks.filter fun b => !done b } d)
/-- A stream is lost: every packet still counted as spilled is dropped and its blocks are leaked (R281, R288). [DEDUCED: log 63] -/
def streamLost (q code kind h : Nat) (d : Dev) : Dev :=
  let s := stream q d
  let page := Pg.HBM + stackOf h
  let n := ((queue q d).spillBytes + 255) / 256 + 1
  let waiting := (d.tm.spillIn.filter fun x => x.1 == q).map (·.2)
  let d := onTm (fun t => { t with spillIn := t.spillIn.filter fun x => x.1 != q }) d
  let reads := (s.blocks.filter (·.at_ == .reading)).map fun b => (b.handle, true)
  let d := onHbm (fun x => { x with strays := x.strays ++ reads }) (setStream q {} d)
  let d := s.unrel.foldl (fun t x => free .hbm x.1 x.2.1 t) d
  let d := waiting.foldl (fun t x => free .hbm x.head x.tag t) d
  let d := (s.recs.map (·.desc) ++ waiting).foldl (fun t x => spillGone q x (drop code t)) d
  let d := modQueue q (fun x => { x with spilled := false, asked := 0, spillPkts := 0, spillBytes := 0 }) d
  hbmLatch kind h (fire page 3 (incBy page 5 n (inc page 4 d)))
/-- Parse the stream as far as its blocks have returned: packets are rebuilt in order from the record bytes, and a record that touches
a poisoned block is dropped; a header without its MARK loses the stream. While a packet waits for cells nothing is parsed
(R279 to R281). -/
def parseStream (q : Nat) : Nat → Dev → Dev
  | 0, d => d
  | k + 1, d =>
    let s := stream q d
    match s.recs with
    | [] => streamEnd q d
    | r :: t =>
      let bs := blocksOf s r
      let reached := bs.takeWhile Blk.back
      if s.stalled then d
      else if reached.any (·.at_ == .poisoned) then
        parseStream q k (freeRead q (spillGone q r.desc (setStream q { s with recs := t } (drop 0xD0 d))))
      else if reached.length < bs.length then d
      else
        let bytes := ((bs.flatMap fun b => b.data.take b.used).drop (r.start - ((bs.map (·.ofs)).headD 0)))
        let h := beAt bytes 0 32
        if bits h 54 48 ≠ 0x5A then streamLost q 0xD1 1 ((bs.map (·.handle)).headD 0) d
        else
          let x := recordDesc q h d
          match newChain (rget CHK_SRCs_CFG.BODY_POOL 0 131 d) x.tag .hbm ((bytes.drop 32).take x.len) d with
          | (none, d) => setStream q { s with stalled := true } d
          | (some c, d) =>
            let d := modQueue q (fun y => { y with pkts := y.pkts ++ [{ x with head := c }], spillPkts := y.spillPkts - 1, spillBytes := y.spillBytes - x.len }) d
            parseStream q k (freeRead q (setStream q { s with recs := t } d))
/-- Parse a stream after a block came back. -/
def parse (q : Nat) (d : Dev) : Dev := let d := freeRead q d; parseStream q ((stream q d).recs.length + 1) d
/-- Blocks of a stack that its return buffer holds or awaits. -/
def bufferUsed (s : Nat) (d : Dev) : Nat :=
  (d.hbm.strays.filter fun x => stackOf x.1 == s).length +
    ((d.hbm.streams.flatMap fun x => x.2.blocks).filter fun b => stackOf b.handle == s && (b.back || b.at_ == .reading)).length
/-- A read of a block goes out now: READ_TMO runs from here (R280). -/
def readMark (h : Nat) (d : Dev) : Dev := onHbm (fun x => { x with readAt := put x.readAt h 0 d.mono }) d
/-- Issue the reads of a queue's stream in SEQ order while its on-chip bytes with those asked for lie below PREFETCH and the
limits allow (R279, R311). -/
def readIssue (q : Nat) : Nat → Dev → Dev
  | 0, d => d
  | k + 1, d =>
    let x := queue q d
    let chip := x.bytes - x.spillBytes + x.asked
    if !x.spilled || (stream q d).stalled || decide (rget TMS_CFG.PREFETCH 0 0 d * 1024 ≤ chip) then d
    else
      let d := if (stream q d).blocks.all fun b => b.at_ != .written then closeTail q d else d
      let s := stream q d
      match s.blocks.find? (·.at_ == .written) with
      | none => d
      | some b =>
        let pc := pcOf b.handle
        if pcState pc d = 3 then streamLost q 0xD3 3 b.handle d
        else if pcState pc d = 2 ∨ 32 ≤ rget HBM_PCk_STAT.OUTST (pc / 32) (pc % 32) d ∨ 1024 ≤ bufferUsed (pc / 32) d then d
        else
          let blocks := s.blocks.map fun y => if y = b then { y with at_ := .reading } else y
          let d := modQueue q (fun y => { y with asked := y.asked + b.used }) (setStream q { s with blocks := blocks } d)
          readIssue q k (readMark b.handle (openRow b.handle (inc (Pg.HBM + stackOf b.handle) 1 (outst b.handle (· + 1) d))))
/-- The stream that has a read of a block outstanding. -/
def readerOf (h : Nat) (d : Dev) : Option (Nat × Blk) :=
  d.hbm.streams.findSome? fun x => (x.2.blocks.find? fun b => b.handle == h && b.at_ == .reading).map fun b => (x.1, b)
/-- A read of a stream that has ended is over: its block is freed unless it was leaked (R278, R281). -/
def strayBack (h : Nat) (d : Dev) : Dev :=
  match d.hbm.strays.find? fun x => x.1 == h with
  | none => d
  | some x =>
    let d := readOver h (onHbm (fun y => { y with strays := y.strays.erase x }) d)
    if x.2 then d else freeBlock h d
/-- A read ends for a block: where it stands afterwards and what it brought. -/
def readEnds (q : Nat) (b : Blk) (at_ : BlkAt) (data : Bytes) (d : Dev) : Dev :=
  let s := stream q d
  let d := setStream q { s with blocks := s.blocks.map fun y => if y = b then { y with at_ := at_, data := data } else y } d
  readOver b.handle (modQueue q (fun y => { y with asked := y.asked - b.used }) d)
/-- The handle of the block that follows one in its stream, where the writer has one. -/
def nextOf (s : Stream) (b : Blk) : Option Nat :=
  match (s.blocks.dropWhile (· != b)).tail with
  | y :: _ => some y.handle
  | [] => s.pre.head?
/-- A read of a block failed its CRC: it is read again at most twice, never in a FAILED pseudo-channel; then it is poisoned, and
its link either leads on or the stream is lost (R280, R281, R288). [DEDUCED: log 63] -/
def crcFailed (q : Nat) (b : Blk) (img : Option BlkImg) (d : Dev) : Dev :=
  let page := Pg.HBM + stackOf b.handle
  let s := stream q d
  if b.tries < 2 then
    if pcState (pcOf b.handle) d = 3 then streamLost q 0xD3 3 b.handle d
    else setStream q { s with blocks := s.blocks.map fun y => if y = b then { y with tries := y.tries + 1 } else y } (readMark b.handle (inc page 2 (overrun page d)))
  else
    let d := hbmLatch 0 b.handle (fire page 2 (inc page 3 d))
    let link := match img.bind imgLink with | some n => (nextOf s b).all (· == n) | none => false
    if link then parse q (readEnds q b .poisoned [] d) else streamLost q 0xD1 1 b.handle d
/-- A block comes back with some of its bits turned, and is checked: CRC, then SEQ (R280). -/
def blockReturn (h : Nat) (flips : List (Fin 2176)) (d : Dev) : Dev :=
  match readerOf h d with
  | none => strayBack h d
  | some (q, b) =>
    match (blockHeld h d).map (imgFlip flips) with
    | none => crcFailed q b none d
    | some x =>
      if !imgGood x then crcFailed q b (some x) d
      else if imgSeq x ≠ b.seq then streamLost q 0xD1 1 h d
      else parse q (readEnds q b .returned x.data d)
/-- A block is not returned within READ_TMO: a CRC failure, and no link is known of it (R280, R281); before that the row does
nothing. [DEDUCED: log 63] -/
def readTimeout (h : Nat) (d : Dev) : Dev :=
  if d.mono < look d.hbm.readAt h 0 + rget HBM_X_READ_TMO.US (stackOf h) 0 d * 1000 then d else
  match readerOf h d with
  | some (q, b) => crcFailed q b none (inc (Pg.HBM + stackOf h) 10 d)
  | none => if d.hbm.strays.any fun x => x.1 == h then strayBack h (inc (Pg.HBM + stackOf h) 10 d) else d
/-- A refused returning packet asks again when its pool has free cells (R279). -/
def returnRetry (q : Nat) (d : Dev) : Dev :=
  let s := stream q d
  if s.stalled && poolAvail d 5 (rget CHK_SRCs_CFG.BODY_POOL 0 131 d) then
    parseStream q (s.recs.length + 1) (setStream q { s with stalled := false } d)
  else d
/-- FLUSH: every packet of a queue is dropped and its stream freed without reading (R325). -/
def flushQueue (q : Nat) (d : Dev) : Dev :=
  let x := queue q d
  let s := stream q d
  let waiting := (d.tm.spillIn.filter fun y => y.1 == q).map (·.2)
  let d := onTm (fun t => { t with spillIn := t.spillIn.filter fun y => y.1 != q }) d
  let d := (x.pkts ++ waiting).foldl (fun t y => free .tm y.head y.tag (drop 0x86 t)) d
  let d := s.recs.foldl (fun t _ => drop 0x86 t) d
  let d := s.unrel.foldl (fun t y => free .hbm y.1 y.2.1 t) d
  let reads := (s.blocks.filter (·.at_ == .reading)).map fun b => (b.handle, false)
  let d := onHbm (fun h => { h with strays := h.strays ++ reads }) (setStream q {} d)
  let d := (s.pre ++ (s.blocks.filter (·.at_ != .reading)).map (·.handle)).foldl (fun t h => freeBlock h t) d
  let d := modQueue q (fun y => { y with pkts := [], bytes := 0, spilled := false, spillPkts := 0, spillBytes := 0, asked := 0, avg := 0 }) d
  if isVoq q then voqEmptied q d else d

/-! Training, frequency and retraining (R287 to R291). -/

/-- BUSY of a stack's page. -/
def hbmBusy (s : Nat) (b : Bool) (d : Dev) : Dev := setFace (Pg.HBM + s) { face (Pg.HBM + s) d with busy := b } d
/-- Set STATE of every pseudo-channel of a stack but the FAILED ones. -/
def stackPcs (s st : Nat) (d : Dev) : Dev :=
  (List.range 32).foldl (fun t k => if pcState (32 * s + k) t = 3 then t else setPcState (32 * s + k) st t) d
/-- The pseudo-channels of a bitmap fail in a training step (R288). -/
def failPcs (s mask step : Nat) (d : Dev) : Dev :=
  let l := bitsOf 32 mask
  if l.isEmpty then d
  else fire (Pg.HBM + s) 1 (rset HBM_TRAIN_STAT.FAIL_STEP s 0 step (l.foldl (fun t k => setPcState (32 * s + k) 3 t) d))
/-- STATE of a stack whose training is over: UP, or FAILED where every pseudo-channel failed (R288). -/
def stackUp (s : Nat) (d : Dev) : Dev :=
  rset HBM_ID.STATE s 0 (if (List.range 32).all fun k => pcState (32 * s + k) d == 3 then 3 else 2) d
/-- The refreshes that waited past a training step are issued after it (R285). -/
def refreshLate (s : Nat) (d : Dev) : Dev :=
  let late := (keys d.hbm.postponed).filter fun b => b / 4096 == s
  onHbm (fun h => { h with rows := h.rows.filter fun x => !late.contains x.1, postponed := h.postponed.filter fun x => !late.contains x.1 }) d
/-- The writes that waited for a step of a stack. -/
def stackWrites (s : Nat) (d : Dev) : Dev := (List.range 32).foldl (fun t k => writes (32 * s + k) t) d
/-- Every pseudo-channel of a stack counts as trained now, at the present temperature (R291). -/
def trainedNow (s : Nat) (d : Dev) : Dev :=
  (List.range 32).foldl (fun t k => onHbm (fun h => { h with trTemp := ins h.trTemp (32 * s + k) (rget HBM_TEMP.TEMP s 0 d), trAt := ins h.trAt (32 * s + k) d.mono }) t) d
/-- A stack's training begins with step 1 (R287, R294). -/
def trainStart (s : Nat) (d : Dev) : Dev := hbmBusy s true (rset HBM_TRAIN_STAT.STEP s 0 1 (rset HBM_ID.STATE s 0 1 d))
/-- A latched request met at the end of a step: the step is discarded and training resumes at the new rate (R290). -/
def discardStep (s resume : Nat) (d : Dev) : Dev :=
  let n := min (rget HBM_TRAIN_STAT.DISCARDS s 0 d + 1) 255
  let d := rset HBM_FREQ.PEND s 0 0 (rset HBM_FREQ.CUR s 0 (rget HBM_FREQ.REQ s 0 d) d)
  refreshLate s (rset HBM_TRAIN_STAT.STEP s 0 resume (rset HBM_TRAIN_STAT.DISCARDS s 0 n d))
/-- Whether a latched request asks for another rate; one equal to the current rate is dropped (R290). -/
def freqWanted (s : Nat) (d : Dev) : Bool × Dev :=
  if !flag HBM_FREQ.PEND s 0 d then (false, d)
  else if rget HBM_FREQ.REQ s 0 d = rget HBM_FREQ.CUR s 0 d then (false, rset HBM_FREQ.PEND s 0 0 d)
  else (true, d)
/-- Step 1 ends: READY rises, and the stack is identified; only one of a supported capacity goes on to step 2 (R271, R287). [DESIGN CHOICE: log 64] -/
def idDone (s : Nat) (id : StackId) (d : Dev) : Dev :=
  let d := setFace (Pg.HBM + s) { face (Pg.HBM + s) d with ready := true } d
  let quit (st : Nat) : Dev := hbmBusy s false (rset HBM_TRAIN_STAT.STEP s 0 0 (rset HBM_ID.STATE s 0 st d))
  match id with
  | .absent => quit 0
  | .failed => rset HBM_TRAIN_STAT.FAIL_STEP s 0 1 (quit 3)
  | .device banks rows =>
    let n := 4 * banks.toNat * rows.toNat
    let cap := if n = 3145728 then 1 else if n = 6291456 then 2 else 0
    if cap = 0 then quit 4
    else rset HBM_TRAIN_STAT.STEP s 0 2 (rset HBM_ID.CAP s 0 cap (rset HBM_ID.BANKS s 0 banks.toNat (rset HBM_ID.ROWS s 0 rows.toNat d)))
/-- Step 7 ends: no block has been used, and every pseudo-channel that did not fail is OPEN (R287, R288). [DESIGN CHOICE: log 64] -/
def initDone (s : Nat) (d : Dev) : Dev :=
  let d := (List.range 32).foldl (fun t k => setPcFree (32 * s + k) {} t) (trainedNow s (stackPcs s 0 d))
  fire (Pg.HBM + s) 0 (hbmBusy s false (rset HBM_TRAIN_STAT.STEP s 0 0 (stackUp s d)))
/-- A frequency change completes: the pseudo-channels that did not fail reopen (R289). -/
def freqFinish (s : Nat) (d : Dev) : Dev :=
  let d := hbmBusy s false (rset HBM_TRAIN_STAT.STEP s 0 0 (stackUp s (trainedNow s (stackPcs s 0 d))))
  stackWrites s (fire (Pg.HBM + s) 7 d)
/-- The running step ends; the pseudo-channels of the bitmap failed in it (R287 to R289). -/
def stepEnds (s : Nat) (id : StackId) (mask : Nat) (d : Dev) : Dev :=
  let n := rget HBM_TRAIN_STAT.STEP s 0 d
  refreshLate s
    (if n = 1 then idDone s id d
     else if n = 7 then initDone s d
     else
      let d := failPcs s mask n d
      if n = 6 ∧ rget HBM_ID.STATE s 0 d = 5 then freqFinish s d else rset HBM_TRAIN_STAT.STEP s 0 (n + 1) d)
/-- The steps up to `last` end, one after the other; the pseudo-channels of the bitmap failed in the step `bad`. -/
def stepsEnd (s last : Nat) (id : StackId) (mask bad : Nat) : Nat → Dev → Dev
  | 0, d => d
  | k + 1, d =>
    let n := rget HBM_TRAIN_STAT.STEP s 0 d
    if n = 0 ∨ last < n then d else stepsEnd s last id mask bad k (stepEnds s id (if n = bad then mask else 0) d)
/-- Steps of a sequence end, up to `last`: to step 7 its whole rest. One that meets a latched frequency request is discarded for it
(R287, R288, R290). [DESIGN CHOICE: log 64] -/
def sequence (s last : Nat) (id : StackId) (mask bad resume : Nat) (d : Dev) : Dev :=
  let n := rget HBM_TRAIN_STAT.STEP s 0 d
  if n = 0 ∨ last < n then d
  else
    let (want, d) := freqWanted s d
    if want then discardStep s resume d else stepsEnd s last id mask bad 7 d
/-- Training of a stack: steps of it end (R271, R287, R288, R290). -/
def trainDone (s last : Nat) (id : StackId) (mask bad : Nat) (d : Dev) : Dev :=
  let n := rget HBM_TRAIN_STAT.STEP s 0 d
  if rget HBM_ID.STATE s 0 d = 1 then sequence s last id mask bad (if n ≤ 2 then n else 3) d else d
/-- A write of HBM_FREQ: the request is latched, and with no step running the pseudo-channels close (R289). -/
def freqWrite (s img : Nat) (d : Dev) : Dev :=
  if 2 < HBM_FREQ.REQ.of img then errAt Err.BAD_ARG .HBM_FREQ s 0 d
  else
    let d := rset HBM_FREQ.PEND s 0 1 (storeFields false .HBM_FREQ s 0 img d)
    if rget HBM_TRAIN_STAT.STEP s 0 d = 0 ∧ rget HBM_ID.STATE s 0 d = 2 then stackPcs s 2 d else d
/-- With nothing outstanding and no step running the stack changes its clock and trains again from step 3 (R289). -/
def freqSwitch (s : Nat) (d : Dev) : Dev :=
  let quiet := ((List.range 32).all fun k => rget HBM_PCk_STAT.OUTST s k d == 0 && (writeQueue (32 * s + k) d).isEmpty) &&
    d.hbm.wwait.all fun w => stackOf w.handle != s
  if flag HBM_FREQ.PEND s 0 d && rget HBM_ID.STATE s 0 d == 2 && rget HBM_TRAIN_STAT.STEP s 0 d == 0 && quiet then
    let d := rset HBM_FREQ.PEND s 0 0 (rset HBM_FREQ.CUR s 0 (rget HBM_FREQ.REQ s 0 d) (stackPcs s 2 d))
    hbmBusy s true (rset HBM_TRAIN_STAT.STEP s 0 3 (rset HBM_ID.STATE s 0 5 d))
  else d
/-- A frequency change: steps 3 to 6 of it end, and with the last one it completes (R289, R290). -/
def freqDone (s last mask : Nat) (d : Dev) : Dev :=
  if rget HBM_ID.STATE s 0 d = 5 then sequence s last .absent mask (min last 6) 3 d else d
/-- Whether a pseudo-channel is to be retrained: PERIOD_MS has passed since it was, or its stack's temperature has moved by DELTA_C
(R291). -/
def retrainDue (s k : Nat) (d : Dev) : Bool :=
  let pc := 32 * s + k
  let t := rget HBM_TEMP.TEMP s 0 d
  let t0 := look d.hbm.trTemp pc 0
  decide (look d.hbm.trAt pc 0 + rget HBM_RETRAIN.PERIOD_MS s 0 d * 1000000 ≤ d.mono) || decide (rget HBM_RETRAIN.DELTA_C s 0 d ≤ max t t0 - min t t0)
/-- A pseudo-channel begins to be retrained; one per stack at a time (R291). -/
def retrain (s k : Nat) (d : Dev) : Dev :=
  let pc := 32 * s + k
  if rget HBM_ID.STATE s 0 d = 2 ∧ rget HBM_TRAIN_STAT.STEP s 0 d = 0 ∧ pcState pc d ≤ 1 ∧ retrainDue s k d then
    let d := onHbm (fun h => { h with retrain := ins h.retrain s (pc, pcState pc d) }) d
    hbmBusy s true (rset HBM_TRAIN_STAT.STEP s 0 5 (setPcState pc 2 d))
  else d
/-- A retraining ends (R290, R291). -/
def retrainDone (s : Nat) (ok : Bool) (d : Dev) : Dev :=
  match find? d.hbm.retrain s with
  | none => d
  | some (pc, old) =>
    let d := onHbm (fun h => { h with retrain := del h.retrain s }) d
    let (want, d) := freqWanted s d
    let d := refreshLate s (hbmBusy s false (rset HBM_TRAIN_STAT.STEP s 0 0 (setPcState pc old d)))
    if want then
      writes pc (stackPcs s 2 (rset HBM_TRAIN_STAT.DISCARDS s 0 (min (rget HBM_TRAIN_STAT.DISCARDS s 0 d + 1) 255) d))
    else
      let d := onHbm (fun h => { h with trTemp := ins h.trTemp pc (rget HBM_TEMP.TEMP s 0 d), trAt := ins h.trAt pc d.mono }) (inc (Pg.HBM + s) 9 d)
      writes pc (if ok then d else stackUp s (failPcs s (2 ^ (pc % 32)) 5 d))
/-- A write of HBM_RETRAIN. -/
def retrainWrite (s img : Nat) (d : Dev) : Dev :=
  let t := HBM_RETRAIN.DELTA_C.of img
  if HBM_RETRAIN.PERIOD_MS.of img < 10 ∨ t < 1 ∨ 50 < t then errAt Err.BAD_ARG .HBM_RETRAIN s 0 d
  else storeFields false .HBM_RETRAIN s 0 img d

/-! Temperature, lag, refresh, scrubbing (R285, R286, R292, R293). -/

/-- A stack's temperature is read (R286). [DESIGN CHOICE: log 64, 110] -/
def hbmTemp (s t : Nat) (d : Dev) : Dev :=
  let page := Pg.HBM + s
  let hot (d : Dev) : Dev := hwdLog 4 0 0 0 s (fire page 5 d)
  let d := rset HBM_TEMP.TEMP s 0 t (rset HBM_TEMP.MAX s 0 (max t (rget HBM_TEMP.MAX s 0 d)) d)
  let d := if flag HBM_TEMP.HOT2X s 0 d then (if t ≤ 83 then rset HBM_TEMP.HOT2X s 0 0 d else d)
    else if 85 < t then hot (rset HBM_TEMP.HOT2X s 0 1 d) else d
  if flag HBM_TEMP.NOALLOC s 0 d then (if t ≤ 100 then rset HBM_TEMP.NOALLOC s 0 0 d else d)
  else if 105 ≤ t then hot (rset HBM_TEMP.NOALLOC s 0 1 d) else d
/-- A write of HBM_TEMP sets MAX to the current reading. -/
def hbmTempMax (s : Nat) (d : Dev) : Dev := rset HBM_TEMP.MAX s 0 (rget HBM_TEMP.TEMP s 0 d) d
/-- A 10 µs window of a pseudo-channel ends (R292). [DESIGN CHOICE: log 110] -/
def slowWindow (s k lat rereads : Nat) (d : Dev) : Dev :=
  let pc := 32 * s + k
  let beyond := decide (rget HBM_X_SLOW.SLOW_NS s 0 d < lat) || decide (rget HBM_X_SLOW.REREADS s 0 d < rereads)
  if pcState pc d = 0 then
    (if beyond then fire (Pg.HBM + s) 4 (setPcState pc 1 (onHbm (fun h => { h with okWin := put h.okWin pc 0 0 }) d)) else d)
  else if pcState pc d = 1 then
    let n := if beyond then 0 else look d.hbm.okWin pc 0 + 1
    let d := onHbm (fun h => { h with okWin := put h.okWin pc 0 n }) d
    if rget HBM_X_SLOW.HOLD_MS s 0 d * 100 ≤ n then setPcState pc 0 (onHbm (fun h => { h with okWin := put h.okWin pc 0 0 }) d) else d
  else d
/-- A refresh of a bank falls due: it closes the open row, or waits past a training step for at most four intervals (R285). -/
def refreshDue (s k bank : Nat) (d : Dev) : Dev :=
  let b := (32 * s + k) * 128 + bank
  let n := look d.hbm.postponed b 0
  if rget HBM_TRAIN_STAT.STEP s 0 d ≠ 0 ∧ n < 4 then onHbm (fun h => { h with postponed := put h.postponed b 0 (n + 1) }) d
  else onHbm (fun h => { h with rows := del h.rows b, postponed := put h.postponed b 0 0 }) d
/-- Whether each of three reads of a block by the scrubber fails its CRC: the first counts as a block read, the others as re-reads. -/
def scrubFails (h : Nat) : Nat → List (List (Fin 2176)) → Dev → Bool × Dev
  | 0, _, d => (true, d)
  | k + 1, rs, d =>
    let page := Pg.HBM + stackOf h
    let d := if k = 2 then inc page 1 d else inc page 2 (overrun page d)
    let (bad, d) := match blockHeld h d with
      | some x => (!imgGood (imgFlip (rs.headD []) x), d)
      | none => let (v, d) := draw d; (v % 2 == 1, d)
    if bad then scrubFails h k rs.tail d else (false, d)
/-- The scrubber reads a block below HWM; one that fails three times is a scrub error (R293). What a block that was never written
holds is free. [DESIGN CHOICE: log 64] -/
def hbmScrub (h : Nat) (reads : List (List (Fin 2176))) (d : Dev) : Dev :=
  let s := stackOf h
  if flag HBM_SCRUB.EN s 0 d && decide (pcState (pcOf h) d ≤ 1) && decide (blkOf h < (pcFree (pcOf h) d).hwm) then
    let (bad, d) := scrubFails h 3 reads (openRow h d)
    if bad then hbmLatch 2 h (fire (Pg.HBM + s) 6 (inc (Pg.HBM + s) 6 d)) else d
  else d
/-- A write of HBM_SCRUB. -/
def hbmScrubWrite (s img : Nat) (d : Dev) : Dev :=
  if HBM_SCRUB.HOURS.of img = 0 then errAt Err.BAD_ARG .HBM_SCRUB s 0 d else storeFields false .HBM_SCRUB s 0 img d
/-- A write of an expert HBM register with its bounds. -/
def hbmExpert (r : Reg) (ok : Bool) (s img : Nat) (d : Dev) : Dev :=
  if !expertOf (Pg.HBM + s) d then errAt Err.EXPERT_LOCKED r s 0 d
  else if !ok then errAt Err.BAD_ARG r s 0 d else storeFields true r s 0 img d
/-- A write of HBM_X_WQ (R283). -/
def hbmWqWrite (s img : Nat) (d : Dev) : Dev :=
  hbmExpert .HBM_X_WQ (decide (HBM_X_WQ.WR_LOW.of img < HBM_X_WQ.WR_HIGH.of img ∧ HBM_X_WQ.WR_HIGH.of img ≤ 64)) s img d
/-- A write of HBM_X_SLOW. -/
def hbmSlowWrite (s img : Nat) (d : Dev) : Dev :=
  hbmExpert .HBM_X_SLOW (decide (100 ≤ HBM_X_SLOW.SLOW_NS.of img ∧ HBM_X_SLOW.HOLD_MS.of img ≠ 0 ∧ HBM_X_SLOW.REREADS.of img ≠ 0)) s img d
/-- A write of HBM_X_READ_TMO. -/
def hbmTmoWrite (s img : Nat) (d : Dev) : Dev := hbmExpert .HBM_X_READ_TMO (decide (2 ≤ HBM_X_READ_TMO.US.of img)) s img d
/-- A commit of HBM_X_INJECT arms the test hook; while one is armed a further GO is refused (R296, R582). [DESIGN CHOICE: log 64] -/
def hbmInjectWrite (s img : Nat) (d : Dev) : Dev :=
  if HBM_X_INJECT.GO.on img && flag HBM_X_INJECT.GO s 0 d then errAt Err.BAD_ARG .HBM_X_INJECT s 0 d
  else
    let d' := hbmExpert .HBM_X_INJECT (decide (HBM_X_INJECT.BIT.of img ≤ 2175)) s img d
    if HBM_X_INJECT.GO.on img && expertOf (Pg.HBM + s) d && decide (HBM_X_INJECT.BIT.of img ≤ 2175) then rset HBM_X_INJECT.GO s 0 1 d' else d'

end Sys2Proof.Machine
end

