-- ==== Sys2Proof/Machine/Sched.lean ====
section
/-! DEFINITION. The schedulers of the traffic manager: VOQ decisions, the egress hierarchy, credit generation and the
queue and node commands (11_traffic_manager.md, R312 to R327; 12_spindle_time.md, R355 to R357). -/

namespace Sys2Proof.Machine

/-! Weighted fair queueing (R318). -/

/-- The finish time of a child that turns eligible: never in the past of its node (wake of R318). -/
def wakeFt (v : List Nat) (prio ft : Nat) : Nat := let now := v.getD prio 0; if later48 now ft then now else ft
/-- The finish time after a charge of len bytes (R319). [DEDUCED: log 68] -/
def chargeFt (ft : Nat) (len : Int) (weight : Nat) : Nat :=
  toBits 48 (ft + max 1 (len * 65536 / (max 1 weight : Nat)))
/-- The member of a list with the least measure. -/
def leastBy {α : Type} (m : α → Nat) : List α → Option α
  | [] => none
  | a :: t => some (t.foldl (fun x y => if m y < m x then y else x) a)
/-- select of R318 over eligible children (index, priority, finish time, committed): the child chosen. -/
def pickChild (tie : Bool) (rot : Nat) (l : List (Nat × Nat × Nat × Bool)) : Option (Nat × Nat × Nat) :=
  let s := l.filter (·.2.2.2)
  let s := if s.isEmpty then l else s
  let lo := s.foldl (fun a c => min a c.2.1) 4
  match s.filter (fun c => c.2.1 == lo) with
  | [] => none
  | h :: t =>
    let best := t.foldl (fun a c => if later48 a.2.2.1 c.2.2.1 then c else a) h
    let ties := (h :: t).filter fun c => c.2.2.1 == best.2.2.1
    (leastBy (fun c => if tie then c.1 else (c.1 + 2 ^ 20 - rot) % 2 ^ 20) ties).map fun c => (c.1, c.2.1, c.2.2.1)

/-! Sojourn (R321). -/

/-- A decision's age enters SOJ_HWM of the queue and of the nodes of its path; SOJ_ALARM fires once until a clear (R321). -/
def sojourn (q : Nat) (path : List (Nat × Nat)) (x : Desc) (d : Dev) : Dev :=
  let age := min (ageOf x.time d) 0xFFFFFFFF
  let s := queue q d
  let alarm := rget TMS_QPROFp.AGE_ALARM 0 s.qprof d
  let over_ := decide (alarm ≠ 0 ∧ alarm < ageOf x.time d) && !s.alarmed
  let d := setQueue q { s with hwm := max s.hwm age, alarmed := s.alarmed || over_ } d
  let d := if over_ then fire Pg.TMS 0 d else d
  path.foldl (fun d k => setNode k.1 k.2 { node k.1 k.2 d with hwm := max (node k.1 k.2 d).hwm age } d) d
/-- Take the head packet of a queue. -/
def popHead (q : Nat) (d : Dev) : Dev :=
  modQueue q (fun s => match s.pkts with | [] => s | x :: t => { s with pkts := t, bytes := s.bytes - x.len }) d

/-! VOQ decisions (R312 to R316). -/

/-- Whether a VOQ can be chosen: a packet on chip, a positive balance, and a next hop that is ready (R312, R316). -/
def voqReady (q : Nat) (x : Queue) (d : Dev) : Bool :=
  isVoq q && !x.pkts.isEmpty && decide (0 < x.bal) && (voqDev q == devId d || blkEn Pg.FCT d)
/-- The packet header of the fabric (R376). -/
def fabHeader (x : Desc) : Bytes :=
  beBytes 32 (x.qid * 2 ^ 237 + x.len % 2 ^ 14 * 2 ^ 223 + x.color % 4 * 2 ^ 221 + x.port % 256 * 2 ^ 213 + x.nh % 2 ^ 21 * 2 ^ 192 +
    x.hash % 2 ^ 32 * 2 ^ 160 + x.time % 2 ^ 48 * 2 ^ 112 + x.carry % 2 ^ 64 * 2 ^ 48 + 0xA5 * 2 ^ 40 + x.cls % 16 * 2 ^ 36)
/-- A remote VOQ's packet joins the stream toward its device (R316, R375). -/
def toFabric (x : Desc) (d : Dev) : Dev :=
  let (c, bs, d) := readChain .fabric x d
  if c ≠ 0 then free .fabric x.head x.tag (drop c d)
  else
    let v := voqDev x.qid
    let s := look d.fab.tx v {}
    let r : TxRec := { bytes := fabHeader x ++ bs, head := x.head, tag := x.tag }
    inc Pg.TMS 4 { d with fab := { d.fab with tx := put d.fab.tx v {} { s with recs := s.recs ++ [r] } } }
/-- A hairpin VOQ's packet moves to the egress queue that R301 selects (R315). -/
def hairpin (x : Desc) (d : Dev) : Dev :=
  let x := { x with srcDev := devId d }
  let d := inc Pg.TMS 5 d
  match egressQueue (voqPort x.qid) x.qid x.carry d with
  | some q => admitAt q x d
  | none => eqMapDrop x d
/-- The VOQ that an ingress pipeline chooses (R302, R316). -/
def voqChoice (pipe : Nat) (d : Dev) : Option Nat :=
  let l := (d.tm.queues.filter fun e => voqReady e.1 e.2 d && (voqDev e.1 + voqPort e.1) % 16 == pipe).map (·.1)
  let rot := look d.tm.voqRot pipe 0
  leastBy (fun q => if flag TMS_X_TIE.VOQ_TIE 0 0 d then q else (q + 2 ^ 17 - rot) % 2 ^ 17) l
/-- An ingress pipeline makes its decision for a cycle (R316). -/
def voqDecide (pipe : Nat) (d : Dev) : Dev :=
  if !blkEn Pg.TMS d then d
  else match voqChoice pipe d with
  | none => d
  | some q =>
    match (queue q d).pkts with
    | [] => d
    | x :: _ =>
      let d := onTm (fun t => { t with voqRot := put t.voqRot pipe 0 ((q + 1) % 2 ^ 17) }) d
      let d := sojourn q [] x (modQueue q (fun s => { s with bal := s.bal - x.len }) (popHead q d))
      let d := voqEmptied q d
      if voqDev q = devId d then hairpin { x with qid := q } d else toFabric { x with qid := q } d

/-! The egress hierarchy (R317 to R320). -/

/-- Buckets of a node brought up to now (R320). [DEDUCED: log 68] -/
def nodeRefill (now : Nat) (x : Node) : Node :=
  let dt := now - x.last
  { x with last := now,
           tc := if x.cir = 0 then x.tc else min ((x.cbs * bktByte : Nat) : Int) (x.tc + (x.cir * dt : Nat)),
           tp := if x.pir = 0 then x.tp else min ((x.pbs * bktByte : Nat) : Int) (x.tp + (x.pir * dt : Nat)) }
/-- Whether a node's PIR lets it send (R318, R319). -/
def Node.pirOk (x : Node) : Bool := x.pir == 0 || decide (0 ≤ x.tp)
/-- Whether a node is committed (R318). -/
def Node.committed (x : Node) : Bool := x.cir != 0 && decide (0 ≤ x.tc)
/-- The nodes of a level that are listed: index and node. -/
def levelNodes (lvl : Nat) (d : Dev) : List (Nat × Node) :=
  (d.tm.nodes.filter fun e => e.1 / 65536 == lvl).map fun e => (e.1 % 65536, e.2)
/-- The egress queues that are listed. -/
def egQueues (d : Dev) : List (Nat × Queue) := d.tm.queues.filter fun e => !isVoq e.1
/-- Bytes held in the egress queues of a port (R314). -/
def portBacklog (n : Nat) (d : Dev) : Nat := (egQueues d).foldl (fun a e => if rootOf e.1 d = n then a + e.2.bytes else a) 0

/-- Whether class c of port n may be preempted now (R357). -/
def preemptable (n c : Nat) (d : Dev) : Bool := pflag LPG_PORTn_STAT.PREEMPT_ACTIVE n d && bit (pget LPG_PORTn_PREEMPT.PMASK n d) c
/-- PKT_LEN that the gates are asked about: the packet, or the first fragment of a preemptable one (R355, R357). -/
def gateLen (n : Nat) (q : Queue) (x : Desc) (d : Dev) : Nat :=
  if preemptable n q.tc d then min x.len (64 * (pget LPG_PORTn_PREEMPT.ADD_FRAG n d + 1)) else x.len
/-- The drop code of a head packet whose class never opens, or that never fits, on port n; 0 for none (R356). -/
def gateDrop (n : Nat) (q : Queue) (x : Desc) (d : Dev) : Nat :=
  match maxOpen (gateNow (gate n d)) q.tc with
  | none => 0
  | some m =>
    if m = 0 then 0xA1
    else if m < txTime n (gateLen n q x d) d ∧ !flag SPN_X_CFG.OVERSIZE_SEND 0 0 d then 0xA0 else 0
/-- Whether the gates let a head packet start now (R355 to R357). -/
def gateOk (n : Nat) (q : Queue) (x : Desc) (d : Dev) : Bool :=
  let now := nowNs d
  let l := gateNow (gate n d)
  let t := txTime n (gateLen n q x d) d
  let held := preemptable n q.tc d && gateHeld l now
  let big := match maxOpen l q.tc with | some m => decide (m < t) | none => false
  !held && (if big then (classAt l q.tc now).1 && !(classAt l q.tc (now - 1)).1 else gateFits n q.tc now t d)
/-- Whether the MAC of port n can start a frame; 128 and 129 take what they are given (R61, R62, R319). -/
def macReady (n : Nat) (d : Dev) : Bool :=
  if 128 ≤ n then true
  else blkEn Pg.TLS d && (if linkState n d = 4 then (port n d).txWait.isEmpty && blkEn (Pg.LPG + n / 4) d
    else pflag LPG_PORTn_CFG.DOWN_DISCARD n d)



/-- Punt ring of an egress queue of port 240 (R420). -/
def puntRing (q : Nat) (d : Dev) : Option Nat :=
  let b := rget TMS_PORTn_EQ.EQ_BASE 0 128 d
  if b ≤ q ∧ q < b + 64 then some (q - b) else none
/-- Buffers that a packet takes on ring r (R423). -/
def puntBufs (r len : Nat) (d : Dev) : Nat := let b := 2 ^ rget HIF_RINGn_CFG.BUF_LOG2 0 r d; (len + b - 1) / b
/-- Entries of a ring that software has made valid. -/
def ringHeld (r : Nat) (d : Dev) : Nat :=
  let n := 2 ^ rget HIF_RINGn_CFG.SIZE_LOG2 0 r d
  (rget HIF_RINGn_TAIL.TAIL 0 r d + n - rget HIF_RINGn_HEAD.HEAD 0 r d) % n
/-- Entries free in a CQ (R422). -/
def cqFree (r : Nat) (d : Dev) : Nat :=
  let n := 2 ^ rget HIF_CQn_CFG.SIZE_LOG2 0 r d
  (rget HIF_CQn_HEAD.HEAD 0 r d + 2 * n - rget HIF_CQn_TAIL.TAIL 0 r d - 1) % n
/-- Packets that have left queue q and have not been written to the host. -/
def puntWaiting (q : Nat) (d : Dev) : List Desc := (d.tm.hostOut.filter fun e => e.1 == q).map (·.2)
/-- Buffers of ring r that no packet on its way takes. -/
def puntRoom (q r : Nat) (d : Dev) : Nat := ringHeld r d - (puntWaiting q d).foldl (fun a x => a + puntBufs r x.len d) 0
/-- The drop code of the head packet of a punt queue; 0 for none (R424). -/
def puntDrop (q : Nat) (x : Desc) (d : Dev) : Nat :=
  match puntRing q d with
  | none => 0
  | some r =>
    if rget HIF_RINGn_STAT.STATE 0 r d = 0 then 0xF0
    else if 2 ^ rget HIF_RINGn_CFG.SIZE_LOG2 0 r d - 1 < puntBufs r x.len d then 0xF2
    else if flag HIF_RINGn_CFG.NOBUF_DROP 0 r d && decide (puntRoom q r d < puntBufs r x.len d) then 0xF1 else 0
/-- Whether the ring of a punt queue takes its head packet (R424). -/
def puntOk (q : Nat) (x : Desc) (d : Dev) : Bool :=
  match puntRing q d with
  | none => false
  | some r =>
    let st := rget HIF_RINGn_STAT.STATE 0 r d
    dmaOn d && (st == 1 || st == 2) && decide (puntBufs r x.len d ≤ puntRoom q r d) && decide ((puntWaiting q d).length < cqFree r d)

/-- Drop the head packets of a queue that R356 or R424 drops. -/
def headDrops (q : Nat) : Nat → Dev → Dev
  | 0, d => d
  | k + 1, d =>
    let s := queue q d
    let n := rootOf q d
    match s.pkts with
    | [] => d
    | x :: _ =>
      let c := if n = 128 then puntDrop q x d else if n < 128 then gateDrop n s x d else 0
      if c = 0 then d
      else if n = 128 then headDrops q k (free .host x.head x.tag (drop c (popHead q d)))
      else headDrops q k (free .tm x.head x.tag (fire Pg.SPN 9 (incAt Pg.SPN (0x4000 + 0x10 * n + 8 * (c - 0xA0)) 1 (drop c (popHead q d)))))
/-- Whether an egress queue is eligible (R318, R424). -/
def eqEligible (q : Nat) (s : Queue) (d : Dev) : Bool :=
  match s.pkts with
  | [] => false
  | x :: _ =>
    let n := rootOf q d
    if n = 128 then puntOk q x d else if n < 128 then gateOk n s x d else true
/-- An egress queue's eligibility is seen again; one that turns eligible wakes at its node (R318). -/
def queueSeen (d : Dev) (q : Nat) : Dev :=
  let s := queue q d
  let e := eqEligible q s d
  let ft := if e && !s.elig then wakeFt (node 3 s.parent d).v s.prio s.ft else s.ft
  setQueue q { s with elig := e, ft := ft } d
/-- Whether node (lvl, i) has an eligible child. -/
def anyChild (lvl i : Nat) (d : Dev) : Bool :=
  if lvl = 3 then (egQueues d).any fun e => e.2.elig && e.2.parent == i
  else (levelNodes (lvl + 1) d).any fun e => e.2.elig && e.2.parent == i
/-- A node's buckets and eligibility are brought up to now; one that turns eligible wakes at its parent (R318, R320). -/
def nodeSeen (lvl : Nat) (d : Dev) (i : Nat) : Dev :=
  let x := nodeRefill d.mono (node lvl i d)
  let e := x.en && anyChild lvl i d && x.pirOk
  let ft := if lvl ≠ 0 && e && !x.elig then wakeFt (node (lvl - 1) x.parent d).v x.prio x.ft else x.ft
  setNode lvl i { x with elig := e, ft := ft } d
/-- Every queue's and node's eligibility as it stands now, from the queues up (R318, R320). [DEDUCED: log 67] -/
def eligRefresh (d : Dev) : Dev :=
  let d := ((egQueues d).map (·.1)).foldl queueSeen d
  [3, 2, 1, 0].foldl (fun d lvl => ((levelNodes lvl d).map (·.1)).foldl (nodeSeen lvl) d) d
/-- The eligible children of node (lvl, i): index, priority, finish time, committed (R318). -/
def children (lvl i : Nat) (d : Dev) : List (Nat × Nat × Nat × Bool) :=
  if lvl = 3 then ((egQueues d).filter fun e => e.2.elig && e.2.parent == i).map fun e => (e.1 - 0x20000, e.2.prio, e.2.ft, true)
  else ((levelNodes (lvl + 1) d).filter fun e => e.2.elig && e.2.parent == i).map fun e => (e.1, e.2.prio, e.2.ft, e.2.committed)
/-- select at node (lvl, i): the child chosen, with V and the rotation of the node moved on (R318). -/
def selectAt (lvl i : Nat) (d : Dev) : Option Nat × Dev :=
  let x := node lvl i d
  match pickChild (flag TMS_X_TIE.WFQ_TIE 0 0 d) x.rot (children lvl i d) with
  | none => (none, d)
  | some (c, prio, ft) => (some c, setNode lvl i { x with v := x.v.set prio ft, rot := (c + 1) % 2 ^ 20 } d)
/-- Select from a port down to a queue: the nodes passed below the port, and the queue (R319). -/
def selectDown (n : Nat) (d : Dev) : Option (List (Nat × Nat) × Nat) × Dev :=
  match selectAt 0 n d with
  | (none, d) => (none, d)
  | (some a, d) =>
    match selectAt 1 a d with
    | (none, d) => (none, d)
    | (some b, d) =>
      match selectAt 2 b d with
      | (none, d) => (none, d)
      | (some c, d) =>
        match selectAt 3 c d with
        | (none, d) => (none, d)
        | (some q, d) => (some ([(1, a), (2, b), (3, c)], q + 0x20000), d)
/-- A bucket after a charge: it falls below 0 by at most one charged length (R319, R320). [DEDUCED: log 68] -/
def chargeBucket (t c : Int) : Int := if t < 0 ∧ 0 < c then min t (-c) else t - c
/-- Charge a node's buckets (R319). -/
def chargeNode (len : Int) (d : Dev) (k : Nat × Nat) : Dev :=
  let x := node k.1 k.2 d
  setNode k.1 k.2 { x with tc := if x.cir = 0 then x.tc else chargeBucket x.tc (len * bktByte),
                           tp := if x.pir = 0 then x.tp else chargeBucket x.tp (len * bktByte) } d
/-- Data bytes that an EGRESS record carries at most (R261, R262). -/
def egressWhole : Nat := 2008
/-- A packet leaves toward its egress port: a line port's Tailstock, the host or the services (R262, R300). Where its read fails
beyond the bytes of its EGRESS record, its transmission has started: it is dropped, and what was read leaves with a bad FCS (R257).
[DEDUCED: log 123] -/
def egressHand (n q tc : Nat) (x : Desc) (d : Dev) : Dev :=
  if n = 128 then onTm (fun t => { t with hostOut := t.hostOut ++ [(q, x)] }) d
  else if n = 129 then onTm (fun t => { t with svcOut := t.svcOut ++ [(q, x)] }) d
  else if linkState n d ≠ 4 then free .egress x.head x.tag (drop 0x09 d)
  else
    let (c, bs, d) := readChain .egress x d
    if c ≠ 0 ∧ bs.length < egressWhole then free .egress x.head x.tag (drop c d)
    else
      let d := if c ≠ 0 then drop c d else d
      let ctx := x.time % 2 ^ 48 * 2 ^ 208 + x.len % 2 ^ 14 * 2 ^ 194 + x.color % 4 * 2 ^ 192 + x.port % 256 * 2 ^ 184 + x.srcDev % 64 * 2 ^ 178 +
        x.hash % 2 ^ 32 * 2 ^ 128 + x.nh % 2 ^ 21 * 2 ^ 107 + x.cls % 16 * 2 ^ 103 + q % 2 ^ 19 * 2 ^ 77 + n % 256 * 2 ^ 69 + x.carry % 2 ^ 64
      let r : EgrRec := { port := n, ctx := ctx, bytes := bs, tc := tc, cell := x.head, tag := x.tag, bad := c ≠ 0 }
      let d := { d with cross := { d.cross with egress := d.cross.egress ++ [r] } }
      onChk (fun k => { k with sent := put k.sent n [] (look k.sent n [] ++ [(x.head, x.tag)]) }) d
/-- decide of R319 at a port. -/
def decidePort (n : Nat) (d : Dev) : Dev :=
  match selectDown n d with
  | (none, d) => d
  | (some (path, q), d) =>
    let s := queue q d
    match s.pkts with
    | [] => d
    | x :: _ =>
      let len : Int := x.len + signed 8 (rget TMS_PORTn_CFG.LEN_ADJ 0 n d)
      let d := popHead q d
      let d := modQueue q (fun s => { s with ft := chargeFt s.ft len s.weight }) d
      let d := path.foldl (fun d k => setNode k.1 k.2 { node k.1 k.2 d with ft := chargeFt (node k.1 k.2 d).ft len (node k.1 k.2 d).weight } d) d
      let d := (path ++ [(0, n)]).foldl (chargeNode len) d
      egressHand n q s.tc x (inc Pg.TMS 6 (sojourn q (path ++ [(0, n)]) x d))
/-- The ports of an egress pipeline that could be served now (R319). [DEDUCED: log 67] -/
def readyPorts (pipe : Nat) (d : Dev) : List Nat :=
  ((levelNodes 0 d).filter fun e => e.2.elig && macReady e.1 d && rget TMS_PORTn_CFG.PIPE 0 e.1 d == pipe).map (·.1)
/-- An egress pipeline makes its decision for a cycle; each further port that was ready counts an overrun (R302, R319). [DEDUCED: log 67] -/
def egressDecide (pipe : Nat) (d : Dev) : Dev :=
  if !blkEn Pg.TMS d then d
  else
    let d := ((egQueues d).filter fun e => rget TMS_PORTn_CFG.PIPE 0 (rootOf e.1 d) d == pipe).foldl (fun d e => headDrops e.1 e.2.pkts.length d) d
    let d := eligRefresh d
    let l := readyPorts pipe d
    let rot := look d.tm.portRot pipe 0
    match leastBy (fun n => (n + 130 - rot) % 130) l with
    | none => d
    | some n =>
      let d := onTm (fun t => { t with portRot := put t.portRot pipe 0 ((n + 1) % 130) }) d
      let d := Nat.repeat (overrun Pg.TMS) (l.length - 1) d
      eligRefresh (decidePort n d)

/-! Credit generation (R314). -/

/-- The devices with an ON request of (port, class). -/
def askers (n c : Nat) (d : Dev) : List Nat :=
  (List.range 64).filter fun v => (look d.tm.reqs ((n * 16 + c) * 64 + v) {}).on
/-- Time in ps between two grants of line port n's generator: CREDIT_BYTES at the port rate × (1 + SPEEDUP ÷ 64) (R314). [DEDUCED: log 68] -/
def creditInterval (n : Nat) (d : Dev) : Nat :=
  creditBytes d * 8 * 64 * 1000 / max 1 (portRate n d * (64 + rget TMS_CR_PORTn.SPEEDUP 0 n d))
/-- The generator of line port n issues one grant, no sooner than its rate allows (R314). [DEDUCED: log 68] -/
def creditGenerate (n : Nat) (d : Dev) : Dev :=
  let up := decide (linkState n d = 4) && blkEn Pg.TMS d
  if !up || decide (rget TMS_CR_PORTn.HOLD 0 n d * 64 ≤ portBacklog n d) then d
  else
    let g := look d.tm.gens n {}
    if d.mono * 1000 < g.nextPs then d else
    let on := (List.range 16).filter fun c => !(askers n c d).isEmpty
    let prio (c : Nat) : Nat := rget TMS_CR_CLASSc.PRIO 0 c d
    let g := on.foldl (fun (g : GenPort) c =>
      if bit g.elig c then g else { g with ft := put g.ft c 0 (wakeFt g.v (prio c) (look g.ft c 0)) }) g
    let g := { g with elig := on.foldl setBit 0 }
    let put_ (g : GenPort) (d : Dev) : Dev := onTm (fun t => { t with gens := put t.gens n {} g }) d
    match pickChild (flag TMS_X_TIE.WFQ_TIE 0 0 d) g.rot (on.map fun c => (c, prio c, look g.ft c 0, true)) with
    | none => put_ g d
    | some (c, p, ft) =>
      match leastBy (fun v => (v + 64 - look g.dev c 0) % 64) (askers n c d) with
      | none => put_ g d
      | some v =>
        let ft' := chargeFt ft (creditBytes d) (rget TMS_CR_CLASSc.WEIGHT 0 c d)
        let g := { g with v := g.v.set p ft, ft := put g.ft c 0 ft', rot := (c + 1) % 16, dev := put g.dev c 0 ((v + 1) % 64),
                             nextPs := max g.nextPs (d.mono * 1000 - creditInterval n d) + creditInterval n d }
        let d := inc Pg.TMS 9 (put_ g d)
        if v = devId d then creditGrant (v * 2048 + n * 16 + c) 1 d
        else sendCtl (some v) 0 (2 ^ 63 + n * 2 ^ 55 + c * 2 ^ 51 + 2 ^ 47) d

/-! Queue and node commands (R299, R317, R321, R325). -/

/-- What TMS_Q_RES shows after a command. -/
def queueRes (q : Nat) (d : Dev) : Dev :=
  let s := queue q d
  let age := match s.pkts with | x :: _ => min (ageOf x.time d) 0xFFFFFFFF | [] => 0
  let fb := if isVoq q then toBits 32 s.bal * 2 ^ 16 else s.ft
  rset TMS_Q_RES.EN 0 0 (b2n s.en) <| rset TMS_Q_RES.SPILLED 0 0 (b2n s.spilled) <|
    rset TMS_Q_RES.PKTS 0 0 (s.pkts.length + s.spillPkts) <| rset TMS_Q_RES.BYTES 0 0 s.bytes <|
    rset TMS_Q_RES.SPILL_BYTES 0 0 s.spillBytes <| rset TMS_Q_RES.SOJ_HWM 0 0 s.hwm <|
    rset TMS_Q_RES.HEAD_AGE 0 0 age <| rset TMS_Q_RES.FT_BAL 0 0 fb d
/-- WRITE of a queue: a refusal code, or 0, and the device after it (R299). -/
def queueWrite (q img : Nat) (d : Dev) : Nat × Dev :=
  let s := queue q d
  let en := TMS_Q_CMD.EN.on img
  let prof := TMS_Q_CMD.QPROF.of img
  let parent := TMS_Q_CMD.PARENT.of img
  let w := TMS_Q_CMD.WEIGHT.of img
  let eg := !isVoq q
  let holds := !s.pkts.isEmpty || decide (s.spillPkts ≠ 0)
  if (en && !flag TMS_QPROFp.VALID 0 prof d) || (eg && en && (!(node 3 parent d).en || w == 0)) then (Err.BAD_ARG, d)
  else if eg && parent != s.parent && holds then (0x20, d)
  else
    let s := { s with en := en, qprof := prof, avg := if en && !s.en then 0 else s.avg }
    let s := if eg then { s with parent := parent, prio := TMS_Q_CMD.PRIO.of img, tc := TMS_Q_CMD.TC.of img, weight := w } else s
    (0, setQueue q s d)
/-- Drop every packet of a queue that is on chip with TM_FLUSH (R325). -/
def flushChip (q : Nat) (d : Dev) : Dev :=
  let l := (queue q d).pkts
  let d := modQueue q (fun s => { s with pkts := [], bytes := s.bytes - l.foldl (fun a x => a + x.len) 0 }) d
  l.foldl (fun d x => free .tm x.head x.tag (drop 0x86 d)) d
/-- FLUSH (R325): of a disabled queue only. -/
def queueFlush (q : Nat) (d : Dev) : Nat × Dev :=
  if (queue q d).en then (Err.BAD_ARG, d)
  else
    let d := modQueue q (fun s => { s with spilled := false, avg := 0 }) (flushQueue q (flushChip q d))
    (0, if isVoq q then voqEmptied q d else d)
/-- A commit of TMS_Q_CMD. [DESIGN CHOICE: log 5] -/
def queueCmdWrite (img : Nat) (d : Dev) : Dev :=
  let d := storeFields false .TMS_Q_CMD 0 0 img d
  if !TMS_Q_CMD.GO.on img then d
  else
    let q := TMS_Q_CMD.QID.of img
    let (c, d) := match TMS_Q_CMD.OP.of img with
      | 0 => queueWrite q img d
      | 1 => (0, d)
      | 2 => queueFlush q d
      | 3 => (0, modQueue q (fun s => { s with hwm := 0, alarmed := false }) d)
      | _ => (Err.BAD_ARG, d)
    let d := if c = 0 then d else errAt c .TMS_Q_CMD 0 0 d
    fire (Pg.TMS + 1) 0 (queueRes q d)

/-- Nodes of a level (R317). -/
def levelCount (lvl : Nat) : Nat := match lvl with | 0 => 130 | 1 => 1024 | 2 => 8192 | _ => 65536
/-- Whether a node has an enabled child. -/
def enabledChild (lvl i : Nat) (d : Dev) : Bool :=
  if lvl = 3 then (egQueues d).any fun e => e.2.en && e.2.parent == i
  else (levelNodes (lvl + 1) d).any fun e => e.2.en && e.2.parent == i
/-- Whether a queue below node (lvl, i) holds bytes: the node's backlog. -/
def nodeBacklog (lvl i : Nat) (d : Dev) : Bool :=
  (egQueues d).any fun e =>
    let c := (queue e.1 d).parent
    let b := (node 3 c d).parent
    let a := (node 2 b d).parent
    decide (0 < e.2.bytes) && ((lvl == 3 && c == i) || (lvl == 2 && b == i) || (lvl == 1 && a == i))
/-- What TMS_NODE_RES shows after a command. -/
def nodeRes (lvl i : Nat) (d : Dev) : Dev :=
  let d := eligRefresh d
  let x := node lvl i d
  rset TMS_NODE_RES.EN 0 0 (b2n x.en) <| rset TMS_NODE_RES.ELIGIBLE 0 0 (b2n x.elig) <|
    rset TMS_NODE_RES.COMMITTED 0 0 (b2n x.committed) <| rset TMS_NODE_RES.TC 0 0 (toBits 32 (x.tc / bktByte)) <|
    rset TMS_NODE_RES.TP 0 0 (toBits 32 (x.tp / bktByte)) <| rset TMS_NODE_RES.SOJ_HWM 0 0 x.hwm <| rset TMS_NODE_RES.FT 0 0 x.ft d
/-- WRITE of a node (R317, R320). -/
def nodeWrite (lvl i img : Nat) (d : Dev) : Nat × Dev :=
  let x := nodeRefill d.mono (node lvl i d)
  let en := TMS_NODE_CMD.EN.on img
  let parent := TMS_NODE_CMD.PARENT.of img
  let w := TMS_NODE_CMD.WEIGHT.of img
  let cir := TMS_NODE_CMD.CIR.of img
  let pir := TMS_NODE_CMD.PIR.of img
  if (lvl ≠ 0 && (!(node (lvl - 1) parent d).en || w == 0)) || (pir != 0 && decide (pir < cir)) then (Err.BAD_ARG, d)
  else if (!en && enabledChild lvl i d) || (lvl ≠ 0 && parent != x.parent && nodeBacklog lvl i d) then (0x20, d)
  else
    let x := { x with en := en, cir := cir, pir := pir, cbs := TMS_NODE_CMD.CBS.of img, pbs := TMS_NODE_CMD.PBS.of img }
    let x := if lvl = 0 then x else { x with parent := parent, prio := TMS_NODE_CMD.PRIO.of img, weight := w }
    (0, setNode lvl i x d)
/-- A commit of TMS_NODE_CMD. [DESIGN CHOICE: log 5] -/
def nodeCmdWrite (img : Nat) (d : Dev) : Dev :=
  let d := storeFields false .TMS_NODE_CMD 0 0 img d
  if !TMS_NODE_CMD.GO.on img then d
  else
    let lvl := TMS_NODE_CMD.LEVEL.of img
    let i := TMS_NODE_CMD.INDEX.of img
    if levelCount lvl ≤ i then fire (Pg.TMS + 2) 0 (errAt Err.BAD_ARG .TMS_NODE_CMD 0 0 d)
    else
      let (c, d) := match TMS_NODE_CMD.OP.of img with
        | 0 => nodeWrite lvl i img d
        | 1 => (0, d)
        | 2 => (0, setNode lvl i { node lvl i d with hwm := 0 } d)
        | _ => (Err.BAD_ARG, d)
      let d := if c = 0 then d else errAt c .TMS_NODE_CMD 0 0 d
      fire (Pg.TMS + 2) 0 (nodeRes lvl i d)

/-! Register writes of the TMS pages. -/

/-- TMS_CFG: PREFETCH is 1 to 1,024. -/
def tmsCfgWrite (img : Nat) (d : Dev) : Dev :=
  let p := TMS_CFG.PREFETCH.of img
  if p < 1 ∨ 1024 < p then errAt Err.BAD_ARG .TMS_CFG 0 0 d else storeFields false .TMS_CFG 0 0 img d
/-- TMS_PORTn_CFG: PIPE does not change while the port node is enabled. -/
def tmsPortWrite (n img : Nat) (d : Dev) : Dev :=
  if (node 0 n d).en && TMS_PORTn_CFG.PIPE.of img != rget TMS_PORTn_CFG.PIPE 0 n d then errAt 0x20 .TMS_PORTn_CFG 0 n d
  else storeFields false .TMS_PORTn_CFG 0 n img d
/-- TMS_PORTn_EQ: the last queue lies within the egress queues. -/
def tmsEqWrite (n img : Nat) (d : Dev) : Dev :=
  if 0x7FFFF < TMS_PORTn_EQ.EQ_BASE.of img + (if n = 128 then 63 else 15) then errAt Err.BAD_ARG .TMS_PORTn_EQ 0 n d
  else storeFields false .TMS_PORTn_EQ 0 n img d
/-- TMS_CR_CFG: UNIT 3, REQ_TMO 0 and a UNIT change while TMS is enabled are refused. -/
def crCfgWrite (img : Nat) (d : Dev) : Dev :=
  let u := TMS_CR_CFG.UNIT.of img
  if u = 3 ∨ TMS_CR_CFG.REQ_TMO.of img = 0 ∨ (u ≠ rget TMS_CR_CFG.UNIT 0 0 d ∧ blkEn Pg.TMS d) then errAt Err.BAD_ARG .TMS_CR_CFG 0 0 d
  else storeFields false .TMS_CR_CFG 0 0 img d
/-- TMS_CR_CLASSc: WEIGHT is not 0. -/
def crClassWrite (c img : Nat) (d : Dev) : Dev :=
  if TMS_CR_CLASSc.WEIGHT.of img = 0 then errAt Err.BAD_ARG .TMS_CR_CLASSc 0 c d else storeFields false .TMS_CR_CLASSc 0 c img d
/-- TMS_CR_PORTn: HOLD is not 0. -/
def crPortWrite (n img : Nat) (d : Dev) : Dev :=
  if TMS_CR_PORTn.HOLD.of img = 0 then errAt Err.BAD_ARG .TMS_CR_PORTn 0 n d else storeFields false .TMS_CR_PORTn 0 n img d
/-- TMS_WREDk: MIN lies below MAX for every colour. -/
def wredWrite (k img : Nat) (d : Dev) : Dev :=
  let bad (lo hi : Fld) : Bool := decide (hi.of img ≤ lo.of img)
  if bad TMS_WREDk.MIN_G TMS_WREDk.MAX_G || bad TMS_WREDk.MIN_Y TMS_WREDk.MAX_Y || bad TMS_WREDk.MIN_R TMS_WREDk.MAX_R then
    errAt Err.BAD_ARG .TMS_WREDk 0 k d
  else storeFields false .TMS_WREDk 0 k img d

end Sys2Proof.Machine
end

