-- ==== Sys2Proof/Machine/Fabric.lean ====
section
/-! DEFINITION. Fabric links, the spraying of cells, reassembly and control messages (13_fabric_chassis.md, R362 to R386). -/

namespace Sys2Proof.Machine

/-- Change the fabric's own state. -/
def onFab (f : Fab → Fab) (d : Dev) : Dev := { d with fab := f d.fab }
/-- Page of link l (R364). -/
def fabPage (l : Nat) : Nat := Pg.FAB + l / 8
/-- A field of a per-link register. -/
def lget (f : Fld) (l : Nat) (d : Dev) : Nat := rget f (l / 8) (l % 8) d
/-- Set a field of a per-link register. -/
def lset (f : Fld) (l v : Nat) (d : Dev) : Dev := rset f (l / 8) (l % 8) v d
/-- A link's own state. -/
def link (l : Nat) (d : Dev) : FabLink := look d.fab.links l {}
/-- Set a link's own state; USED shows the cells it holds. -/
def setLink (l : Nat) (x : FabLink) (d : Dev) : Dev :=
  lset FAB_LINKk_STAT.USED l x.held.length (onFab (fun f => { f with links := put f.links l {} x }) d)
/-- STATE of a link: 0 DOWN, 1 TRAIN, 2 HELLO, 3 ACTIVE, 4 SPARE, 5 FAILED (R371). -/
def fabState (l : Nat) (d : Dev) : Nat := lget FAB_LINKk_STAT.STATE l d
/-- Keep FCT_SPARE and FCT_REACH as the links are. -/
def fctRefresh (d : Dev) : Dev :=
  let free := ((List.range 8).filter fun k => fabState (160 + k) d == 4).length
  let reach := (List.range 168).foldl (fun a l => if fabState l d = 3 then a ||| lget FAB_LINKk_REACH.REACH l d else a) 0
  let lost := clrBits (rget FCT_REACH.SET 0 0 d) reach
  let d := if lost = 0 then d else onFab (fun f => { f with cutOff := (bitsOf 64 lost).foldl (fun t v => ins t v d.mono) f.cutOff }) d
  rset FCT_SPARE.FREE 0 0 free (rset FCT_REACH.SET 0 0 reach d)
/-- A link enters a state; each change fires its LINK_CHG (R371). -/
def setFabState (l st : Nat) (d : Dev) : Dev :=
  if fabState l d = st then d
  else
    let x := { link l d with since := d.mono, goods := 0, bads := 0 }
    fctRefresh (fire (fabPage l) (l % 8) (lset FAB_LINKk_STAT.STATE l st (setLink l { x with locked := x.locked && st != 1 } d)))
/-- Whether link l has been in its state for n ns. -/
def inState (l n : Nat) (d : Dev) : Bool := decide ((link l d).since + n ≤ d.mono)

/-! The lane (R362). The field and the generator are those that RS(544,514) has on Ethernet lanes. -/

/-- x times a symbol in the field of x^10 + x^3 + 1. [PRESUMED: log 126] -/
def rsTimesX (a : Nat) : Nat := if 512 ≤ a then (2 * a) ^^^ 0x409 else 2 * a
/-- The product of two symbols. -/
def rsMul (a b : Nat) : Nat :=
  ((List.range 10).foldl (fun (r : Nat × Nat) i => (if bit b i then r.1 ^^^ r.2 else r.1, rsTimesX r.2)) (0, a)).1
/-- The generator, the product of x + α^i for i = 0 to 29, highest coefficient first. [PRESUMED: log 126] -/
def rsGen : List Nat :=
  (List.range 30).foldl (fun (g : List Nat) i => List.zipWith (· ^^^ ·) (g ++ [0]) (0 :: g.map (rsMul (Nat.repeat rsTimesX i 1)))) [1]
/-- The 30 parity symbols of 514 message symbols. -/
def rsParity (msg : List Nat) : List Nat :=
  msg.foldl (fun (p : List Nat) m => let f := m ^^^ p.headD 0
                                     List.zipWith (fun a g => a ^^^ rsMul f g) (p.drop 1 ++ [0]) (rsGen.drop 1)) (List.replicate 30 0)
/-- Symbols of ten bits, each filled from its most significant bit. -/
def symbolsOf : Nat → List Bool → List Nat
  | 0, _ => []
  | n + 1, bs => (bs.take 10).foldl (fun a b => 2 * a + b2n b) 0 :: symbolsOf n (bs.drop 10)
/-- The bits of a cell in the order of its lane: bit 7 of byte 0 first. -/
def laneBits (bs : Bytes) : List Bool := bs.flatMap fun b => (List.range 8).map fun i => b.getLsbD (7 - i)
/-- The codeword of 5,140 cell bits, with the lane's transmit polarity (R362, R364). -/
def codewordOf (invert : Bool) (bs : List Bool) : List Nat :=
  let m := symbolsOf 514 bs
  (m ++ rsParity m).map fun s => if invert then s ^^^ 0x3FF else s
/-- A cell's bits enter its lane; a full codeword leaves. -/
def laneSend (l : Nat) (bs : Bytes) (d : Dev) : Dev :=
  let bits := (link l d).lane ++ laneBits bs
  if bits.length < 5140 then setLink l { link l d with lane := bits } d
  else emit (.codeword l (codewordOf (bit (rget FAB_POLARITY.TX_INV (l / 8) 0 d) (l % 8)) (bits.take 5140))) (setLink l { link l d with lane := bits.drop 5140 } d)

/-! The cell's bytes (R365, R366, R369). -/

/-- The 128-bit header of a cell. -/
def cellHeader (c : Cell) : Nat :=
  c.ctype.toNat * 2 ^ 124 + c.lseq.toNat * 2 ^ 112 + b2n c.retx * 2 ^ 111 + b2n c.bcast * 2 ^ 110 + c.srcDev.val * 2 ^ 104 + c.dstDev.val * 2 ^ 98 +
    c.sseq.toNat * 2 ^ 78 + c.first.toNat * 2 ^ 69 + c.fill.toNat * 2 ^ 61 + c.kind.toNat * 2 ^ 57 + c.count.toNat * 2 ^ 51 + c.sgen.toNat * 2 ^ 47
/-- The 280 bytes of a cell: header, payload padded with zeros, and trailer with its CRC. -/
def cellBytes (c : Cell) : Bytes :=
  let bs := beBytes 16 (cellHeader c) ++ c.payload.take 256 ++ List.replicate (256 - c.payload.length) 0 ++
    beBytes 4 (c.ack.toNat * 2 ^ 20 + b2n c.ackv * 2 ^ 19 + b2n c.nakv * 2 ^ 18 + c.nak.toNat * 2 ^ 6)
  bs ++ beBytes 4 (crc32c bs)
/-- The cell that 280 bytes spell. -/
def wireCell (bs : Bytes) : Cell :=
  let h := beAt bs 0 16
  let t := beAt bs 272 4
  { ctype := BitVec.ofNat 4 (bits h 127 124), lseq := BitVec.ofNat 12 (bits h 123 112), retx := bit h 111, bcast := bit h 110,
    srcDev := ⟨bits h 109 104 % 64, Nat.mod_lt _ (by decide)⟩, dstDev := ⟨bits h 103 98 % 64, Nat.mod_lt _ (by decide)⟩,
    sseq := BitVec.ofNat 20 (bits h 97 78), first := BitVec.ofNat 9 (bits h 77 69), fill := BitVec.ofNat 8 (bits h 68 61),
    kind := BitVec.ofNat 4 (bits h 60 57), count := BitVec.ofNat 6 (bits h 56 51), sgen := BitVec.ofNat 4 (bits h 50 47),
    payload := (bs.drop 16).take 256, ack := BitVec.ofNat 12 (bits t 31 20), ackv := bit t 19, nakv := bit t 18, nak := BitVec.ofNat 12 (bits t 17 6),
    crcOk := bs.length == 280 && crc32c (bs.take 276) == beAt bs 276 4 }
/-- A HELLO's payload. -/
def helloBytes (h : Hello) : Bytes :=
  beBytes 4 h.magic.toNat ++ beBytes 2 h.version.toNat ++ [h.role, h.id, h.link, BitVec.ofNat 8 (b2n h.seen)]

/-! The sender (R366, R367, R369). -/

/-- The trailer of the next outgoing cell of a link: ACK, ACKV, NAKV, NAK; one NAK leaves at a time (R366, R368). -/
def trailer (x : FabLink) (c : Cell) : Cell × FabLink :=
  let c := { c with ack := BitVec.ofNat 12 ((x.next + 4095) % 4096), ackv := x.ackv, crcOk := true }
  match x.nakQ with
  | [] => ({ c with nakv := false, nak := 0 }, x)
  | n :: t => ({ c with nakv := true, nak := BitVec.ofNat 12 n }, { x with nakQ := t })
/-- A cell leaves on a link. -/
def cellOut (l : Nat) (c : Cell) (d : Dev) : Dev :=
  let (c, x) := trailer (link l d) c
  let d := if c.nakv then incAt (fabPage l) (0x1028 + 0x40 * (l % 8)) 1 d else d
  laneSend l (cellBytes c) (emit (.cellOut l (cellBytes c)) (setLink l x d))
/-- An IDLE cell: a link that has nothing else to send carries its acknowledgement in one (R366). [DESIGN CHOICE: log 73] -/
def idleCell (d : Dev) : Cell :=
  { ctype := 0, lseq := 0, retx := false, bcast := false, srcDev := ⟨devId d % 64, Nat.mod_lt _ (by decide)⟩, dstDev := 0, sseq := 0, first := 0, fill := 0,
    kind := 0, count := 0, sgen := 0, payload := [], ack := 0, ackv := false, nakv := false, nak := 0, crcOk := true }
/-- A new DATA or CONTROL cell takes the link's next LSEQ, is held and leaves (R367). [DESIGN CHOICE: log 73] -/
def sendCell (l : Nat) (c : Cell) (d : Dev) : Dev :=
  let x := link l d
  let c := { c with lseq := BitVec.ofNat 12 x.lseq, retx := false }
  let x := { x with lseq := (x.lseq + 1) % 4096, sent := x.sent + 1, held := x.held ++ [{ cell := c, first := d.mono, at_ := d.mono }] }
  let d := incAt (fabPage l) (0x1000 + 0x40 * (l % 8)) 1 (setLink l x d)
  cellOut l c d
/-- Send a held cell again (R369). -/
def resend (l lseq : Nat) (d : Dev) : Dev :=
  let x := link l d
  match x.held.find? fun h => h.cell.lseq.toNat == lseq with
  | none => d
  | some h =>
    let h' := { h with tries := h.tries + 1, at_ := d.mono }
    let x := { x with held := x.held.map fun y => if y.cell.lseq.toNat == lseq then h' else y, sent := x.sent + 1, resent := x.resent + 1 }
    let d := incAt (fabPage l) (0x1000 + 0x40 * (l % 8)) 1 (incAt (fabPage l) (0x1018 + 0x40 * (l % 8)) 1 (setLink l x d))
    cellOut l { h.cell with retx := true } (overrun (fabPage l) d)

/-! Spraying (R372). -/

/-- Whether link l may take a new cell for the devices of a mask. -/
def linkTakes (mask l : Nat) (d : Dev) : Bool :=
  fabState l d == 3 && (lget FAB_LINKk_REACH.REACH l d &&& mask) == mask && decide ((link l d).held.length < 512)
/-- One round of spray from the pointer on (R372). -/
def sprayRound (mask : Nat) (d : Dev) : Option Nat :=
  ((List.range 168).map fun i => (d.fab.ptr + i) % 168).find? fun l => linkTakes mask l d && decide (0 < (link l d).tok)
/-- Take a link for a cell. -/
def sprayTake (l : Nat) (d : Dev) : Dev :=
  let x := link l d
  onFab (fun f => { f with ptr := (l + 1) % 168 }) (setLink l { x with tok := x.tok - 1 } d)
/-- Every link's tokens start a new round. -/
def newRound (d : Dev) : Dev :=
  (List.range 168).foldl (fun d l => let x := link l d; if x.tok = lget FAB_LINKk_STAT.WEIGHT l d then d else setLink l { x with tok := lget FAB_LINKk_STAT.WEIGHT l d } d) d
/-- spray of R372 for the devices of a mask. -/
def spray (mask : Nat) (d : Dev) : Option Nat × Dev :=
  match sprayRound mask d with
  | some l => (some l, sprayTake l d)
  | none =>
    let d := newRound d
    match sprayRound mask d with
    | some l => (some l, sprayTake l d)
    | none => (none, d)
/-- Whether an ACTIVE link reaches a device. -/
def reaches (v : Nat) (d : Dev) : Bool := bit (rget FCT_REACH.SET 0 0 d) v
/-- The devices that a BCAST cell goes to: every member but this one. -/
def bcastMask (d : Dev) : Nat := clrBit (rget FCT_MEMBERS.SET 0 0 d) (devId d)

/-- The cells that a link holds wait to be sprayed again on other links (R369, R371). [DEDUCED: log 74] -/
def respray (l : Nat) (d : Dev) : Dev :=
  let x := link l d
  incBy Pg.FCT 4 x.held.length (onFab (fun f => { f with again := f.again ++ x.held.map (·.cell) }) (setLink l { x with held := [] } d))
/-- End a substitution: the spare and its working link name each other no more. -/
def subEnd (l : Nat) (d : Dev) : Dev :=
  if lget FAB_LINKk_STAT.SUB l d = 0 then d
  else
    let m := lget FAB_LINKk_STAT.SUB_LINK l d
    let clear (k : Nat) (d : Dev) : Dev := lset FAB_LINKk_STAT.SUB k 0 (lset FAB_LINKk_STAT.SUB_LINK k 0 d)
    clear m (clear l d)
/-- A spare replaces a failed working link (R374). -/
def substitute (l : Nat) (d : Dev) : Dev :=
  if !flag FCT_CFG.AUTO_SPARE 0 0 d then d
  else match ((List.range 8).map (160 + ·)).find? fun s => fabState s d == 4 with
    | none => d
    | some s =>
      let name (a b : Nat) (d : Dev) : Dev := lset FAB_LINKk_STAT.SUB a 1 (lset FAB_LINKk_STAT.SUB_LINK a b d)
      let d := setFabState s 3 (lset FAB_LINKk_STAT.WEIGHT s 64 (name s l (name l s d)))
      let d := fire Pg.FCT 4 d
      if rget FCT_SPARE.FREE 0 0 d < 2 then fire Pg.FCT 5 d else d
/-- An ACTIVE link fails: its cells are sprayed again and a spare replaces a working link (R369, R371, R374). -/
def linkFail (l : Nat) (d : Dev) : Dev :=
  if fabState l d ≠ 3 then d
  else
    let d := respray l (setFabState l 5 d)
    if l < 160 then substitute l d else subEnd l d
/-- EN of a link is written 0, or its block stops (R39, R371). -/
def linkDown (l : Nat) (d : Dev) : Dev := let d := setFabState l 0 (respray l (subEnd l d)); setLink l { since := (link l d).since } d
/-- EN of a link is written 1 while its block works (R39, R371) and its lane passed calibration (R526). -/
def linkUp (l : Nat) (d : Dev) : Dev := if fabState l d = 0 && blkEn (fabPage l) d && !bit d.sys.badFab l then setFabState l 1 d else d
/-- A write of FAB_LANE_EN. -/
def laneEnWrite (f img : Nat) (d : Dev) : Dev :=
  let old := rget FAB_LANE_EN.EN f 0 d
  let new := FAB_LANE_EN.EN.of img
  let d := storeFields false .FAB_LANE_EN f 0 img d
  (List.range 8).foldl (fun d k => if bit new k && !bit old k then linkUp (8 * f + k) d else if !bit new k && bit old k then linkDown (8 * f + k) d else d) d
/-- BLK_EN of FAB f changed (R39). -/
def fabEnable (f : Nat) (on : Bool) (d : Dev) : Dev :=
  (List.range 8).foldl (fun d k => if on then (if bit (rget FAB_LANE_EN.EN f 0 d) k then linkUp (8 * f + k) d else d) else linkDown (8 * f + k) d) d

/-! HELLO, REACH and the link's timers (R363, R369 to R371). -/

/-- This device's HELLO on a link. -/
def helloSend (l : Nat) (seen : Bool) (d : Dev) : Dev :=
  let h : Hello := { magic := 0x58464C4B, version := 1, role := 0, id := BitVec.ofNat 8 (devId d), link := BitVec.ofNat 8 l, seen := seen }
  cellOut l { idleCell d with ctype := 3, kind := 0, payload := helloBytes h } d
/-- The HELLO of every microsecond while a link is in HELLO (R369). -/
def helloTick (l : Nat) (d : Dev) : Dev := if fabState l d = 2 then helloSend l (link l d).seen d else d
/-- A HELLO with SEEN 1 is answered, at most once per microsecond (R370). -/
def helloAnswer (l : Nat) (d : Dev) : Dev :=
  let x := link l d
  let free := match x.helloAt with | some t => decide (t + 1000 ≤ d.mono) | none => true
  if free then helloSend l true (setLink l { x with helloAt := some d.mono } d) else d
/-- A cell lock is gained (R363, R371). -/
def cellLock (l : Nat) (d : Dev) : Dev :=
  let d := setLink l { link l d with locked := true, goods := 0, bads := 0 } d
  if fabState l d = 1 then setFabState l 2 (setLink l { link l d with seen := false } d) else d
/-- Cell lock has been lost for 1 ms (R371). -/
def cellLockLoss (l : Nat) (d : Dev) : Dev := linkFail l (setLink l { link l d with locked := false } d)
/-- 100 ms in TRAIN without cell lock: adaptation starts again (R371). -/
def fabTrainTimeout (l : Nat) (d : Dev) : Dev :=
  if fabState l d = 1 && inState l 100000000 d then setLink l { link l d with locked := false, goods := 0, since := d.mono } d else d
/-- 10 ms in HELLO without a valid HELLO with SEEN 1 (R371). -/
def helloTimeout (l : Nat) (d : Dev) : Dev :=
  if fabState l d = 2 && inState l 10000000 d then setFabState l 1 d else d
/-- 100 ms after failing (R371). -/
def failedRetry (l : Nat) (d : Dev) : Dev := if fabState l d = 5 && inState l 100000000 d then setFabState l 1 d else d
/-- A HELLO arrives (R369 to R371). -/
def helloReceive (l : Nat) (h : Hello) (d : Dev) : Dev :=
  let st := fabState l d
  if h.magic.toNat ≠ 0x58464C4B ∨ h.version.toNat ≠ 1 ∨ st < 2 ∨ 4 < st then d
  else
    let d := lset FAB_LINKk_FAR.VALID l 1 (lset FAB_LINKk_FAR.ROLE l h.role.toNat (lset FAB_LINKk_FAR.FAR_ID l h.id.toNat (lset FAB_LINKk_FAR.FAR_LINK l h.link.toNat d)))
    if st = 2 then
      if h.seen then
        let d := setLink l { locked := true, lane := (link l d).lane, seen := true, tok := 64, helloAt := some d.mono } d
        helloSend l true (setFabState l (if l < 160 then 3 else 4) (lset FAB_LINKk_STAT.WEIGHT l 64 (lset FAB_LINKk_STAT.LAGGING l 0 d)))
      else setLink l { link l d with seen := true } d
    else if h.seen then helloAnswer l d
    else
      let d := respray l (setFabState l 2 (subEnd l d))
      setLink l { locked := true, lane := (link l d).lane, since := d.mono, seen := true } d
/-- A REACH cell replaces the link's mask (R369). -/
def reachReceive (l mask : Nat) (d : Dev) : Dev :=
  if fabState l d ≠ 3 ∧ fabState l d ≠ 4 then d
  else
    let old := lget FAB_LINKk_REACH.REACH l d
    let d := fctRefresh (lset FAB_LINKk_REACH.REACH l mask d)
    if old = mask then d else fire (fabPage l) (16 + l % 8) d
/-- A spare in substitution returns once its working link is ACTIVE and its own replay buffer empty (R371). -/
def spareRelease (l : Nat) (d : Dev) : Dev :=
  if 160 ≤ l ∧ fabState l d = 3 ∧ lget FAB_LINKk_STAT.SUB l d = 1 ∧ fabState (lget FAB_LINKk_STAT.SUB_LINK l d) d = 3 ∧ (link l d).held.isEmpty then
    setFabState l 4 (subEnd l d)
  else d
/-- A held cell's replay timer expires (R369). -/
def cellTimeout (l lseq : Nat) (d : Dev) : Dev :=
  match (link l d).held.find? fun h => h.cell.lseq.toNat == lseq with
  | none => d
  | some h =>
    if d.mono < h.at_ + rget FCT_X_LINK.REPLAY_TMO 0 0 d then d
    else if rget FCT_X_LINK.REPLAY_LIMIT 0 0 d ≤ h.tries then linkFail l d else resend l lseq d
/-- A cell of a link has exceeded REPLAY_LIMIT (R369). -/
def replayFail (l : Nat) (d : Dev) : Dev :=
  if (link l d).held.any fun h => decide (rget FCT_X_LINK.REPLAY_LIMIT 0 0 d ≤ h.tries ∧ h.at_ + rget FCT_X_LINK.REPLAY_TMO 0 0 d ≤ d.mono) then linkFail l d else d
/-- The end of an interval of INT_US for one link (R373). [DEDUCED: log 75] -/
def lagLink (l : Nat) (d : Dev) : Dev :=
  if fabState l d ≠ 3 then d
  else
    let x := link l d
    let ppm := if x.sent = 0 then 0 else x.resent * 1000000 / x.sent
    let lat := if x.latN = 0 then 0 else x.latSum / x.latN
    let d := lset FAB_LINKk_LAG.RETX_PPM l (min ppm 0xFFFF) (lset FAB_LINKk_LAG.LAT_NS l (min lat 0xFFFF) d)
    let x := { x with sent := 0, resent := 0, latSum := 0, latN := 0 }
    let w := lget FAB_LINKk_STAT.WEIGHT l d
    let lag := lget FAB_LINKk_STAT.LAGGING l d = 1
    if rget FCT_X_LAG.RETX_PPM 0 0 d < ppm ∨ rget FCT_X_LAG.LAG_NS 0 0 d < lat then
      let d := if lag then d else fire (fabPage l) (8 + l % 8) (lset FAB_LINKk_STAT.LAGGING l 1 d)
      let z := if w / 2 = 0 then x.zero + 1 else 0
      let d := setLink l { x with clean := 0, zero := z } (lset FAB_LINKk_STAT.WEIGHT l (w / 2) d)
      let sub := rget FCT_X_LAG1.SUB_INT 0 0 d
      if sub ≠ 0 ∧ sub ≤ z then linkFail l d else d
    else if lag then
      let clean := x.clean + 1
      let w := if rget FCT_X_LAG1.RECOVER 0 0 d ≤ clean then max 1 (2 * w) else w
      let d := setLink l { x with zero := 0, clean := clean } d
      if 64 ≤ w then lset FAB_LINKk_STAT.WEIGHT l 64 (lset FAB_LINKk_STAT.LAGGING l 0 d) else lset FAB_LINKk_STAT.WEIGHT l w d
    else setLink l x d
/-- The end of an interval for every ACTIVE link (R373). [DESIGN CHOICE: log 110] -/
def lagCheck (d : Dev) : Dev :=
  if d.mono < d.fab.lagAt + rget FCT_X_LAG1.INT_US 0 0 d * 1000 then d
  else (List.range 168).foldl (fun d l => lagLink l d) (onFab (fun f => { f with lagAt := d.mono }) d)

/-! Sending cells (R372, R375, R380). -/

/-- Low four bits of the chip-reset count (R375). -/
def sgenOf (d : Dev) : Nat := d.hwd.tot.chipResets % 16
/-- Records of a kind that a CONTROL cell holds at most (R380). -/
def ctlMax (kind : Nat) : Nat := match kind with | 0 => 32 | 1 => 8 | _ => 1
/-- A CONTROL cell with its records (R365, R380). -/
def ctlCell (dst : Option Nat) (kind : Nat) (recs : List Nat) (d : Dev) : Cell :=
  let n := if kind = 0 then 8 else 32
  let v := dst.getD 0
  { idleCell d with ctype := 2, bcast := dst.isNone, dstDev := ⟨v % 64, Nat.mod_lt _ (by decide)⟩, kind := BitVec.ofNat 4 kind, count := BitVec.ofNat 6 recs.length, payload := recs.flatMap (beBytes n) }
/-- The devices of a cell's destination as a mask. -/
def cellMask (c : Cell) (d : Dev) : Nat := if c.bcast then bcastMask d else 2 ^ c.dstDev.val
/-- Send a cell by spray. A BCAST cell for which no link reaches every member becomes one unicast copy for each (R372).
Answers whether the cell has left or turned into copies. -/
def sprayCell (c : Cell) (d : Dev) : Bool × Dev :=
  match spray (cellMask c d) d with
  | (some l, d) => (true, sendCell l c (if c.ctype = 2 then inc Pg.FCT 2 d else d))
  | (none, d) =>
    if c.bcast then
      let copies := (bitsOf 64 (bcastMask d)).map fun v => { c with bcast := false, dstDev := ⟨v % 64, Nat.mod_lt _ (by decide)⟩ }
      (true, onFab (fun f => { f with again := f.again ++ copies }) d)
    else (false, d)
/-- How an attempt to send a ready cell ended: none was ready, one has left, or a ready one found no link and waits (R372). -/
inductive Sent where
  | nothing | left | waits
  deriving DecidableEq, Repr
/-- Spray the first cell of failed links that finds a link. -/
def sprayAgain (d : Dev) : Sent × Dev :=
  match d.fab.again.find? fun c => reaches c.dstDev.val d || c.bcast with
  | none => (if d.fab.again.isEmpty then .nothing else .waits, d)
  | some c =>
    let (ok, d) := sprayCell c d
    if ok then (.left, onFab (fun f => { f with again := f.again.erase c }) d) else (.waits, d)
/-- Send the oldest control message that finds a link, with others of its kind and destination (R380). -/
def sprayCtl (d : Dev) : Sent × Dev :=
  match d.ctlQ.find? fun c => match c.dst with | some v => reaches v d | none => true with
  | none => (if d.ctlQ.isEmpty then .nothing else .waits, d)
  | some c =>
    let same := (d.ctlQ.filter fun x => x.dst == c.dst && x.kind == c.kind).take (ctlMax c.kind)
    let (ok, d) := sprayCell (ctlCell c.dst c.kind (same.map (·.rec_)) d) d
    if ok then (.left, { d with ctlQ := same.foldl (fun q x => q.erase x) d.ctlQ }) else (.waits, d)
/-- Cut at most n bytes from a stream's records: the bytes, the offset of the first record start, what is left, and the chains
whose last byte has been read (R254, R375). -/
def cutStream : Nat → Nat → List TxRec → Bytes × Option Nat × List TxRec × List (Nat × Nat)
  | _, _, [] => ([], none, [], [])
  | n, o, r :: t =>
    if n = 0 then ([], none, r :: t, [])
    else
      let start := if r.started then none else some o
      if n < r.bytes.length then (r.bytes.take n, start, { r with bytes := r.bytes.drop n, started := true } :: t, [])
      else
        let (bs, f, rest, done) := cutStream (n - r.bytes.length) (o + r.bytes.length) t
        (r.bytes ++ bs, (match start with | some x => some x | none => f), rest, (r.head, r.tag) :: done)
/-- Send one DATA cell of the next stream that holds records and finds a link (R372, R375). [DESIGN CHOICE: log 73] -/
def sprayData (d : Dev) : Sent × Dev :=
  let order := (List.range 64).map fun i => (d.fab.dataRot + i) % 64
  let waiting := order.filter fun v => !(look d.fab.tx v {}).recs.isEmpty
  match waiting.find? fun v => reaches v d with
  | none => (if waiting.isEmpty then .nothing else .waits, d)
  | some v =>
    match spray (2 ^ v) d with
    | (none, d) => (.waits, d)
    | (some l, d) =>
      let s := look d.fab.tx v {}
      let (bs, first, rest, done) := cutStream 256 0 s.recs
      let c : Cell := { idleCell d with ctype := 1, dstDev := ⟨v % 64, Nat.mod_lt _ (by decide)⟩, sseq := BitVec.ofNat 20 s.sseq, first := BitVec.ofNat 9 (first.getD 0x1FF), fill := BitVec.ofNat 8 (bs.length - 1), sgen := BitVec.ofNat 4 (sgenOf d), payload := bs }
      let d := onFab (fun f => { f with tx := put f.tx v {} { s with sseq := (s.sseq + 1) % 2 ^ 20, recs := rest }, dataRot := (v + 1) % 64 }) d
      let d := inc Pg.FCT 0 (sendCell l c d)
      (.left, done.foldl (fun d x => free .fabric x.1 x.2 d) d)
/-- One ready cell is sent: a cell of a failed link, else a CONTROL cell, else a DATA cell; the cycle counts one overrun where a
ready cell found no link (R372, R380). [DESIGN CHOICE: log 73] -/
def cellSpray (d : Dev) : Dev :=
  if !blkEn Pg.FCT d then d
  else
    let (a, d) := sprayAgain d
    let (b, d) := if a = .left then (Sent.nothing, d) else sprayCtl d
    let (c, d) := if a = .left ∨ b = .left then (Sent.nothing, d) else sprayData d
    if a = .waits ∨ b = .waits ∨ c = .waits then overrun Pg.FCT d else d
/-- No ACTIVE link has reached device v for 1 ms: the packets held for it are dropped (R372). -/
def unreachable (v : Nat) (d : Dev) : Dev :=
  let s := look d.fab.tx v {}
  if s.recs.isEmpty ∨ reaches v d ∨ d.mono < look d.fab.cutOff v d.fab.upAt + 1000000 then d
  else
    let d := onFab (fun f => { f with tx := put f.tx v {} { s with recs := [] } }) d
    fire Pg.FCT 3 (s.recs.foldl (fun d r => free .fabric r.head r.tag (inc Pg.FCT 12 (drop 0xC4 d))) d)

/-! Reassembly (R377 to R379). -/

/-- The stream from a device. -/
def rxStream (v : Nat) (d : Dev) : RxStream := look d.fab.rx v {}
/-- Set the stream from a device. -/
def setRx (v : Nat) (s : RxStream) (d : Dev) : Dev := onFab (fun f => { f with rx := put f.rx v {} s }) d
/-- The tag under which a source's staging cells are taken. -/
def stageTag (v : Nat) : Nat := 0x400 + 16 * v
/-- Release the staging cells of a DATA cell. -/
def stageFree (v : Nat) (c : RxCell) (d : Dev) : Dev := c.cells.foldl (fun d h => free .fabric h (stageTag v) d) d
/-- BODY_POOL of source 130. -/
def fabPool (d : Dev) : Nat := rget CHK_SRCs_CFG.BODY_POOL 0 130 d
/-- Deliver a parsed record (R379). -/
def deliver (v h : Nat) (bs : Bytes) (d : Dev) : Dev :=
  let q := bits h 255 237
  if voqDev q ≠ devId d ∨ !isVoq q then inc Pg.FCT 11 (drop 0xC2 d)
  else
    let (tag, d) := nextTag (130 + v) d
    match newChain (fabPool d) tag .fabric bs d with
    | (none, d) => inc Pg.FCT 13 (drop 0xC1 d)
    | (some c, d) =>
      let x : Desc :=
        { head := c, tag := tag, len := bits h 236 223, qid := q, nh := bits h 212 192, carry := bits h 111 48, time := bits h 159 112,
          port := bits h 220 213, hash := bits h 191 160, cls := bits h 39 36, color := bits h 222 221, srcDev := v }
      toTm { desc := x, dest := .egress (voqPort q) } d
/-- Parse the records that the stream's bytes hold whole (R379). -/
def parseRecs (v : Nat) : Nat → Dev → Dev
  | 0, d => d
  | k + 1, d =>
    let s := rxStream v d
    if s.part.length < 32 then d
    else
      let h := ofBe (s.part.take 32)
      let len := bits h 236 223
      if bits h 47 40 ≠ 0xA5 ∨ len < 14 then setRx v { s with part := [], resync := true } (inc Pg.FCT 14 (drop 0xC3 d))
      else if s.part.length < 32 + len then d
      else parseRecs v k (deliver v h ((s.part.drop 32).take len) (setRx v { s with part := s.part.drop (32 + len) } d))
/-- Parse the cells that EXP has reached (R378, R379). -/
def parseCells (v : Nat) : Nat → Dev → Dev
  | 0, d => d
  | k + 1, d =>
    let s := rxStream v d
    match find? s.cells s.exp with
    | none => d
    | some c =>
      let skip := s.resync && c.first == 0x1FF
      let bs := if s.resync then c.payload.drop c.first else c.payload
      let s := { s with cells := del s.cells s.exp, exp := (s.exp + 1) % 2 ^ 20, holeAt := none }
      let s := if skip then s else { s with part := s.part ++ bs, resync := false }
      parseCells v k (parseRecs v s.part.length (stageFree v c (setRx v s d)))
/-- Cells that the tracker holds of all sources. -/
def trackerUsed (d : Dev) : Nat := d.fab.rx.foldl (fun a x => a + x.2.cells.length) 0
/-- Parse on and note when a hole at EXP opens (R378). -/
def rxAdvance (v : Nat) (d : Dev) : Dev :=
  let d := parseCells v (rxStream v d).cells.length d
  let s := rxStream v d
  if s.cells.isEmpty then setRx v { s with holeAt := none } d
  else if s.holeAt.isNone then setRx v { s with holeAt := some d.mono } d else d
/-- Whether a DATA cell is dropped before its stream: it is for another device, or its generation or start is not taken up. [DEDUCED: log 74] -/
def rxStart (c : Cell) (s : RxStream) : Option RxStream :=
  if !s.started then
    (if c.first = 0x1FF then none else some { started := true, exp := c.sseq.toNat, sgen := c.sgen.toNat, resync := true })
  else
    let g := (c.sgen.toNat + 16 - s.sgen) % 16
    if g = 0 then some s else if g ≤ 7 then some { started := true, exp := 0, sgen := c.sgen.toNat, resync := true } else none
/-- Records that start in a run of stream bytes that begins with one, and the bytes that the last one still lacks, none where that
cannot be known (its header is cut). -/
def startedRecs : Nat → Bytes → Nat × Option Nat
  | 0, _ => (0, some 0)
  | k + 1, bs =>
    if bs.isEmpty then (0, some 0)
    else if bs.length < 32 then (1, none)
    else
      let n := 32 + bits (beAt bs 0 32) 236 223
      if bs.length < n then (1, some (n - bs.length)) else let (m, r) := startedRecs k (bs.drop n); (m + 1, r)
/-- Bytes that the record in parse still lacks, none where its header is cut. -/
def partLacks (part : Bytes) : Option Nat := if part.length < 32 then none else some (32 + bits (beAt part 0 32) 236 223 - part.length)
/-- Records that held cells touch, the record in parse among them: `lack` is what the record before a cell still lacks (some 0: none
is open; none: unknown), and a fragment that leads a run behind a gap belongs to it where it reaches past the gap. [DEDUCED: log 74] -/
def touched (exp : Nat) (lack : Option Nat) : List (Nat × RxCell) → Nat
  | [] => 0
  | (n, c) :: t =>
    let gap := (n + 2 ^ 20 - exp) % 2 ^ 20 * 256
    let lead := min c.first c.payload.length
    let same := match lack with | some m => decide (gap < m) | none => true
    let fresh := if lead ≠ 0 ∧ !same then 1 else 0
    if c.first = 0x1FF then
      fresh + touched ((n + 1) % 2 ^ 20) (match lack with | some m => if gap < m then (if gap + c.payload.length < m then some (m - gap - c.payload.length) else some 0) else none | none => none) t
    else
      let (k, l) := startedRecs (c.payload.length + 1) (c.payload.drop c.first)
      fresh + k + touched ((n + 1) % 2 ^ 20) l t
/-- Every record that the cells held from a source touch. -/
def heldRecs (s : RxStream) : Nat :=
  let order := (List.range s.cells.length).foldl (fun (r : List (Nat × RxCell) × List (Nat × RxCell)) _ =>
    match leastBy (fun (x : Nat × RxCell) => (x.1 + 2 ^ 20 - s.exp) % 2 ^ 20) r.2 with
    | some x => (r.1 ++ [x], r.2.erase x)
    | none => r) ([], s.cells)
  (if s.part.isEmpty then 0 else 1) + touched s.exp (if s.part.isEmpty then some 0 else partLacks s.part) order.1
/-- An accepted DATA cell is checked against its stream and entered in the reorder tracker (R377). -/
def dataReceive (c : Cell) (d : Dev) : Dev :=
  let v := c.srcDev.val
  let s := rxStream v d
  if c.dstDev.val ≠ devId d then inc Pg.FCT 7 d
  else match rxStart c s with
    | none => d
    | some s' =>
      let restarts := s.started && decide (s.sgen ≠ s'.sgen)
      let d := if restarts then s.cells.foldl (fun d x => stageFree v x.2 d) d else d
      let d := if restarts then Nat.repeat (drop 0xC0) (heldRecs s) d else d
      let d := setRx v s' d
      let n := c.sseq.toNat
      if 2 ^ 19 ≤ (n + 2 ^ 20 - s'.exp) % 2 ^ 20 ∨ has s'.cells n then inc Pg.FCT 7 d
      else if 131072 ≤ trackerUsed d then inc Pg.FCT 5 d
      else
        let bs := c.payload.take (c.fill.toNat + 1)
        match newChain (fabPool d) (stageTag v) .fabric bs d with
        | (none, d) => inc Pg.FCT 5 d
        | (some h, d) =>
          let s := rxStream v d
          rxAdvance v (setRx v { s with cells := ins s.cells n { first := c.first.toNat, payload := bs, cells := [h] } } d)
/-- The hole at EXP of a source has become REORDER_NS old: EXP moves past it and parsing resumes (R378). [DEDUCED: log 74] -/
def holeTimeout (v : Nat) (d : Dev) : Dev :=
  let s := rxStream v d
  match leastBy (fun (x : Nat × RxCell) => (x.1 + 2 ^ 20 - s.exp) % 2 ^ 20) s.cells with
  | none => d
  | some (n, c) =>
    if s.holeAt.any fun t => decide (d.mono < t + rget FCT_X_LINK.REORDER_NS 0 0 d) then d else
    let gap := (n + 2 ^ 20 - s.exp) % 2 ^ 20 * 256
    let open_ := if s.part.isEmpty then 0 else 1
    let same := open_ == 1 && (match partLacks s.part with | some m => decide (gap < m) | none => true)
    let lost := max 1 (open_ + b2n (c.first != 0 && !same))
    let d := fire Pg.FCT 6 (inc Pg.FCT 6 (Nat.repeat (drop 0xC0) lost d))
    rxAdvance v (setRx v { s with exp := n, part := [], resync := true, holeAt := none } d)

/-! Learning messages (R141, R383 to R385). -/

/-- TABLE, DEV, PORT, TIME and KEY of a learning record as an event. -/
def recEv (r : Nat) : LrnEv := { tbl := bits r 251 249, key := bits r 159 0, dev := bits r 248 243, port := bits r 242 235, time := bits r 207 160 }
/-- A LEARN reaches the manager and is arbitrated (R384). -/
def learnAtManager (src r : Nat) (d : Dev) : Dev :=
  let ev := recEv r
  let (a, d) := arbitrate true ev d
  let key := xmKey ev.tbl ev.key d
  match a with
  | .changed => sendDecide (learnRec 1 ev.tbl ev.dev ev.port ev.time key) d
  | .confirmed => sendDecide (learnRec 1 ev.tbl ev.dev ev.port ev.time key) d
  | .loser =>
    let c := look d.tab.lrnCache (cacheKey ev.tbl key) {}
    inc Pg.FCT 9 (sendCtl (some src) 1 (learnRec 1 ev.tbl (c.pair / 256) (c.pair % 256) c.t key) d)
  | .suppressed =>
    let c := look d.tab.lrnCache (cacheKey ev.tbl key) {}
    let pair := match xmFind ev.tbl key d with | some (_, e) => entPair e | none => c.pair
    inc Pg.FCT 9 (sendCtl (some src) 1 (learnRec 1 ev.tbl (pair / 256) (pair % 256) c.t key) d)
  | .none_ => d
/-- A DECIDE is applied to the local table and cache and counted as a manager decision; static entries are never moved (R141). [DEDUCED: log 34] -/
def decideApply (r : Nat) (d : Dev) : Dev :=
  let d := inc Pg.LRN 1 d
  let ev := recEv r
  let key := xmKey ev.tbl ev.key d
  let d := match xmFind ev.tbl key d with
    | some (s, e) => if e.static then d else xmPut s { e with result := learnedResult ev.tbl (evPair ev) d, learned := true } d
    | none =>
      let e : XmEnt := { tbl := ev.tbl, wide := xmWide ev.tbl d, static := false, learned := true, result := learnedResult ev.tbl (evPair ev) d, key := key }
      let (ok, d) := xmInsert e d
      if ok then d else fire Pg.LRN 5 (lrnLog 5 ev.tbl 0 (evPair ev) ev.time key d)
  let k := cacheKey ev.tbl key
  let (room, d) := cacheRoom k d
  if room then cachePut k { look d.tab.lrnCache k {} with valid := true, t := ev.time, pair := evPair ev } d else d
/-- Remove a learned key from the local table and cache (R384). -/
def removeApply (r : Nat) (d : Dev) : Dev :=
  let ev := recEv r
  let key := xmKey ev.tbl ev.key d
  let d := match xmFind ev.tbl key d with
    | some (s, e) => if e.learned && !e.static then xmCounts (xmClear s d) else d
    | none => d
  cacheDrop (cacheKey ev.tbl key) d
/-- Records that the standby holds for a key go when a DECIDE or REMOVE for it arrives (R385). -/
def heldDrop (r : Nat) (d : Dev) : Dev :=
  let same (x : Nat) : Bool := bits x 251 249 == bits r 251 249 && bits x 159 0 == bits r 159 0
  onFab (fun f => { f with heldLrn := f.heldLrn.filter fun x => !same x.1 }) d
/-- Act on a learning record whose table is free (R384, R385). -/
def learnAct (src r : Nat) (d : Dev) : Dev :=
  match bits r 255 252 with
  | 0 => learnAtManager src r d
  | 1 => decideApply r d
  | 2 => sendDecide (learnRec 3 (bits r 251 249) (bits r 248 243) (bits r 242 235) (bits r 207 160) (bits r 159 0)) (removeApply r d)
  | 3 => removeApply r d
  | _ => d
/-- A learning record of a table that is locked waits (R141). -/
def learnOrWait (src r : Nat) (d : Dev) : Dev :=
  if lockHolder .XM_LOCKn (bits r 251 249) d = 0 then learnAct src r d
  else onFab (fun f => { f with waiting := f.waiting ++ [(src, r)] }) d
/-- A learning record arrives (R384, R385). -/
def learnMsg (src r : Nat) (d : Dev) : Dev :=
  if !flag LRN_CFG.CHASSIS 0 0 d then d
  else
    let op := bits r 255 252
    if op = 0 ∨ op = 2 then
      if isMgr d then learnOrWait src r d
      else if rget FCT_MGR_STAT.ROLE 0 0 d = 1 then onFab (fun f => { f with heldLrn := f.heldLrn ++ [(r, src, d.mono)] }) d
      else d
    else if isMgr d then d
    else learnOrWait src r (heldDrop r d)
/-- The records of tables that are free again are acted on, in order (R141). -/
def learnResume (d : Dev) : Dev :=
  let l := d.fab.waiting
  let d := onFab (fun f => { f with waiting := [] }) d
  l.foldl (fun d x => learnOrWait x.1 x.2 d) d
/-- The oldest learning record that the standby holds has been held for 2 × MGR_TMO (R385). -/
def holdExpire (d : Dev) : Dev :=
  match d.fab.heldLrn with
  | x :: t => if x.2.2 + 2 * rget FCT_MGR_CFG.MGR_TMO 0 0 d * 1000 ≤ d.mono then onFab (fun f => { f with heldLrn := t }) d else d
  | [] => d

end Sys2Proof.Machine
end

