-- ==== Sys2Proof/Machine/Chassis.lean ====
section
/-! DEFINITION. Membership, roles and the receipt of cells (13_fabric_chassis.md, R368, R380 to R391). -/

namespace Sys2Proof.Machine

/-! Roles (R388 to R391). -/

/-- Whether this device is a candidate (R388). -/
def isCand (d : Dev) : Bool := flag GLB_STRAP.MGR_SEL 0 0 d && !flag FCT_CFG.NO_CAND 0 0 d && blkEn Pg.FCT d
/-- Take a role; each change fires ROLE_CHG (R389). -/
def setRole (r : Nat) (d : Dev) : Dev :=
  if rget FCT_MGR_STAT.ROLE 0 0 d = r then d else fire Pg.FCT 0 (rset FCT_MGR_STAT.ROLE 0 0 r d)
/-- The members that are candidates, in rising order. -/
def candMembers (d : Dev) : List Nat := (otherMembers d).filter fun v => (look d.fab.heard v {}).cand
/-- The active manager names as standby the lowest candidate member other than itself (R389). [DEDUCED: log 76] -/
def nameStandby (d : Dev) : Dev :=
  if !isMgr d then d
  else match candMembers d with
    | [] => rset FCT_MGR_STAT.STBY_VALID 0 0 0 (rset FCT_MGR_STAT.STBY_DEV 0 0 0 d)
    | v :: _ => rset FCT_MGR_STAT.STBY_VALID 0 0 1 (rset FCT_MGR_STAT.STBY_DEV 0 0 v d)
/-- A STATUS record (R388). -/
def statusRec (role : Nat) (handoff : Bool) (d : Dev) : Nat :=
  devId d % 64 * 2 ^ 246 + role * 2 ^ 244 + b2n (isCand d) * 2 ^ 243 + b2n handoff * 2 ^ 242 + rget FCT_MGR_STAT.TERM 0 0 d * 2 ^ 226 +
    rget FCT_MGR_STAT.STBY_VALID 0 0 d * 2 ^ 225 + rget FCT_MGR_STAT.STBY_DEV 0 0 d * 2 ^ 219 + curBank d * 2 ^ 218 + curSeq d % 2 ^ 16 * 2 ^ 202 +
    rget SPN_STAT.STATE 0 0 d * 2 ^ 200
/-- Broadcast the STATUS record (R388). -/
def statusBeacon (d : Dev) : Dev := sendCtl none 4 (statusRec (rget FCT_MGR_STAT.ROLE 0 0 d) false d) d
/-- Become active manager with a TERM (R389, R390). -/
def beManager (term : Nat) (d : Dev) : Dev :=
  let d := rset FCT_MGR_STAT.TERM 0 0 (term % 2 ^ 16) (rset FCT_MGR_STAT.MGR_VALID 0 0 1 (rset FCT_MGR_STAT.MGR_DEV 0 0 (devId d) d))
  managerTime (setRole 2 d)
/-- The standby arbitrates the learning records it holds in TIME order, ties by pair (R385). -/
def heldArbitrate : Nat → Dev → Dev
  | 0, d => d
  | k + 1, d =>
    match leastBy (fun (x : Nat × Nat × Nat) => bits x.1 207 160 * 2 ^ 14 + bits x.1 248 243 * 256 + bits x.1 242 235) d.fab.heldLrn with
    | none => d
    | some x => heldArbitrate k (learnOrWait x.2.1 x.1 (onFab (fun f => { f with heldLrn := f.heldLrn.erase x }) d))
/-- MGR_TMO in ns. -/
def mgrTmo (d : Dev) : Nat := rget FCT_MGR_CFG.MGR_TMO 0 0 d * 1000
/-- Whether a device has been heard within n ns. -/
def heardIn (v n : Nat) (d : Dev) : Bool := match find? d.fab.heard v with | some h => decide (d.mono < h.at_ + n) | none => false
/-- The standby takes over (R390): a chassis switch whose PREPARE it has seen, and no COMMIT or ABORT, it aborts (R229).
[DEDUCED: log 76] -/
def takeover (d : Dev) : Dev :=
  if rget FCT_MGR_STAT.ROLE 0 0 d ≠ 1 ∨ !blkEn Pg.FCT d then d
  else
    let d := fire Pg.FCT 1 (inc Pg.FCT 10 (beManager (rget FCT_MGR_STAT.TERM 0 0 d + 1) d))
    let d := hwdLog 9 0 0 0 (rget FCT_MGR_STAT.TERM 0 0 d) d
    let d := match d.epc.seen with
      | some seq => epochAbort (epochSeen seq (sendCtl none 2 (epochRec 4 seq 0 0) d))
      | none => d
    statusBeacon (nameStandby (heldArbitrate d.fab.heldLrn.length d))
/-- The standby has heard no STATUS from the active manager for MGR_TMO (R389). -/
def mgrTimeout (d : Dev) : Dev :=
  if flag FCT_MGR_STAT.MGR_VALID 0 0 d && heardIn (rget FCT_MGR_STAT.MGR_DEV 0 0 d) (mgrTmo d) d then d else takeover d
/-- Neither a manager nor a standby has been heard for 2 × MGR_TMO, also since the chip reset: the lowest candidate becomes manager
(R389). [DEDUCED: log 76] -/
def election (d : Dev) : Dev :=
  let heard := d.fab.heard.any fun x => x.2.role != 0 && heardIn x.1 (2 * mgrTmo d) d
  let early := decide (d.mono < d.fab.upAt + 2 * mgrTmo d)
  if !isCand d ∨ heard ∨ early ∨ rget FCT_MGR_STAT.ROLE 0 0 d ≠ 0 ∨ (candMembers d).any (fun v => decide (v < devId d)) then d
  else statusBeacon (nameStandby (beManager (d.fab.maxTerm + 1) d))
/-- Give up the manager role (R343, R389, R391). -/
def dropManager (d : Dev) : Dev := workerTime (setRole 0 d)
/-- A write of FCT_MGR_CMD (R391). -/
def mgrCmdWrite (img : Nat) (d : Dev) : Dev :=
  if !FCT_MGR_CMD.HANDOVER.on img then d
  else if !isMgr d then errAt 0x20 .FCT_MGR_CMD 0 0 d
  else if !flag FCT_MGR_STAT.STBY_VALID 0 0 d then errAt 0x21 .FCT_MGR_CMD 0 0 d
  else rset FCT_MGR_STAT.MGR_VALID 0 0 0 (dropManager (sendCtl none 4 (statusRec 0 true d) d))
/-- A device joins or leaves FCT_MEMBERS; each change fires MEMBER_CHG (R388). -/
def setMember (v : Nat) (on : Bool) (d : Dev) : Dev :=
  let m := rget FCT_MEMBERS.SET 0 0 d
  if bit m v = on then d else fire Pg.FCT 2 (rset FCT_MEMBERS.SET 0 0 (if on then setBit m v else clrBit m v) d)
/-- A device has not been heard for MGR_TMO: it leaves, and every generator clears its ON state for it (R382, R388). -/
def memberTimeout (v : Nat) (d : Dev) : Dev :=
  if heardIn v (mgrTmo d) d then d else
  let d := setMember v false d
  let d := onTm (fun t => { t with reqs := t.reqs.map fun x => if x.1 % 64 = v then (x.1, { x.2 with on := false }) else x }) d
  let mgr := flag FCT_MGR_STAT.MGR_VALID 0 0 d && rget FCT_MGR_STAT.MGR_DEV 0 0 d == v && !isMgr d
  nameStandby (if mgr then rset FCT_MGR_STAT.MGR_VALID 0 0 0 d else d)
/-- Follow a manager from its STATUS record (R389, R390). -/
def followManager (v term : Nat) (stby : Option Nat) (d : Dev) : Dev :=
  let d := rset FCT_MGR_STAT.MGR_VALID 0 0 1 (rset FCT_MGR_STAT.MGR_DEV 0 0 v (rset FCT_MGR_STAT.TERM 0 0 term d))
  let d := rset FCT_MGR_STAT.STBY_VALID 0 0 (b2n stby.isSome) (rset FCT_MGR_STAT.STBY_DEV 0 0 (stby.getD 0) d)
  setRole (if stby = some (devId d) ∧ isCand d then 1 else 0) d
/-- A STATUS record arrives (R388, R389, R391). [DEDUCED: log 76] -/
def statusReceive (r : StatusRec) (d : Dev) : Dev :=
  let v := r.dev.val
  let role := r.role.toNat
  let term := r.term.toNat
  let d := onFab (fun f => { f with heard := ins f.heard v { at_ := d.mono, role := role, cand := r.cand, term := term }, maxTerm := max f.maxTerm term }) d
  let d := setMember v true d
  let stby := if r.stbyValid then some r.stbyDev.val else none
  let mine := rget FCT_MGR_STAT.TERM 0 0 d
  let cur := rget FCT_MGR_STAT.MGR_DEV 0 0 d
  let followed := flag FCT_MGR_STAT.MGR_VALID 0 0 d
  let d := if role = 2 then
      if isMgr d then (if mine < term ∨ (mine = term ∧ v < devId d) then followManager v term stby (dropManager d) else d)
      else if !followed ∨ cur = v ∨ mine < term ∨ (mine = term ∧ v < cur) then followManager v term stby d
      else d
    else if followed && cur == v && !isMgr d then
      let d := rset FCT_MGR_STAT.MGR_VALID 0 0 0 d
      if r.handoff then takeover d else d
    else d
  nameStandby d

/-! Receipt of cells (R368, R380). -/

/-- A CREDIT record arrives (R381, R382). -/
def creditRecord (src r : Nat) (d : Dev) : Dev :=
  let port := bits r 61 55
  let cls := bits r 54 51
  match bits r 63 62 with
  | 0 => creditReq port cls src true (bits r 50 35) d
  | 1 => creditReq port cls src false (bits r 50 35) d
  | 2 => creditGrant (src * 2048 + port * 16 + cls) (bits r 50 47) d
  | _ => d
/-- An EPOCH record arrives (R386): PREPARE and COMMIT from the manager that this device follows; ABORT also from the one that takes
over, which sends it before its first STATUS (R390). A record of another SEQ is ignored. -/
def epochRecord (src r : Nat) (d : Dev) : Dev :=
  let seq := bits r 251 236
  let fromMgr := flag FCT_MGR_STAT.MGR_VALID 0 0 d && rget FCT_MGR_STAT.MGR_DEV 0 0 d == src && !isMgr d
  match bits r 255 252 with
  | 0 => if fromMgr then epochPrepare seq d else d
  | 1 => epochReady src seq d
  | 2 => epochNotReady seq d
  | 3 => if fromMgr then epochCommit seq (bits r 77 30 * 1000000000 + bits r 29 0) (epochSeen seq d) else d
  | 4 => let d := epochSeen seq d; if d.epc.prepSeq = seq then epochAbort d else d
  | _ => d
/-- A SYNC record arrives (R387): only of the TERM of the manager that is followed. -/
def syncRecord (r : Nat) (d : Dev) : Dev :=
  if flag FCT_MGR_STAT.MGR_VALID 0 0 d && rget FCT_MGR_STAT.TERM 0 0 d == bits r 197 182 then syncLabel (bits r 255 208) (bits r 207 198) d else d
/-- A STATUS record from its bits (R388). -/
def statusOf (r : Nat) : StatusRec :=
  { dev := ⟨bits r 251 246 % 64, Nat.mod_lt _ (by decide)⟩, role := BitVec.ofNat 2 (bits r 245 244), cand := bit r 243, handoff := bit r 242,
    term := BitVec.ofNat 16 (bits r 241 226), stbyValid := bit r 225, stbyDev := ⟨bits r 224 219 % 64, Nat.mod_lt _ (by decide)⟩,
    bank := BitVec.ofNat 1 (bits r 218 218), seq := BitVec.ofNat 16 (bits r 217 202), spnState := BitVec.ofNat 2 (bits r 201 200) }
/-- The records of a CONTROL cell take effect on arrival (R380). -/
def controlReceive (c : Cell) (d : Dev) : Dev :=
  let src := c.srcDev.val
  if (c.bcast && src == devId d) || (!c.bcast && c.dstDev.val != devId d) then d
  else
    let n := if c.kind = 0 then 8 else 32
    let recs := (List.range c.count.toNat).map fun i => ofBe ((c.payload.drop (n * i)).take n)
    recs.foldl (fun d r => match c.kind.toNat with
      | 0 => creditRecord src r d
      | 1 => learnMsg src r d
      | 2 => epochRecord src r d
      | 3 => syncRecord r d
      | 4 => statusReceive (statusOf r) d
      | _ => d) d
/-- A link's trailer acknowledges and asks again; the acknowledgement goes first (R367, R369, R392). -/
def trailerReceive (l : Nat) (c : Cell) (d : Dev) : Dev :=
  let x := link l d
  let n := c.ack.toNat
  let d := if c.ackv && x.held.any (fun h => h.cell.lseq.toNat == n) then
      let gone := (x.held.takeWhile fun h => h.cell.lseq.toNat != n).length + 1
      let lat := (x.held.take gone).foldl (fun a h => a + (d.mono - h.first)) 0
      setLink l { x with held := x.held.drop gone, latSum := x.latSum + lat, latN := x.latN + gone } d
    else d
  if c.nakv then resend l c.nak.toNat d else d
/-- Move NEXT past every LSEQ marked from it on (R368). [DESIGN CHOICE: log 39] -/
def nextOn : Nat → FabLink → FabLink
  | 0, x => x
  | k + 1, x =>
    if x.map.contains x.next then
      nextOn k { x with next := (x.next + 1) % 4096, map := x.map.erase x.next, asked := x.asked.erase x.next, nakQ := x.nakQ.erase x.next }
    else x
/-- Accept an LSEQ: it is marked, NEXT moves on, and unmarked ones below it are asked for once (R368). -/
def acceptSeq (n : Nat) (x : FabLink) : FabLink :=
  let x := { x with map := n :: x.map, ackv := true, nakQ := x.nakQ.erase n }
  let below := (List.range ((n + 4096 - x.next) % 4096)).map fun i => (x.next + i) % 4096
  let ask := below.filter fun s => !x.map.contains s && !x.asked.contains s
  nextOn 513 { x with asked := x.asked ++ ask, nakQ := x.nakQ ++ ask }
/-- A HELLO from its payload (R369). -/
def helloOf (bs : Bytes) : Hello :=
  { magic := BitVec.ofNat 32 (beAt bs 0 4), version := BitVec.ofNat 16 (beAt bs 4 2), role := BitVec.ofNat 8 (byteAt bs 6), id := BitVec.ofNat 8 (byteAt bs 7),
    link := BitVec.ofNat 8 (byteAt bs 8), seen := byteAt bs 9 == 1 }
/-- A cell whose CRC is good arrives on a link with cell lock. -/
def goodCell (l : Nat) (c : Cell) (d : Dev) : Dev :=
  let at_ (i : Nat) (d : Dev) : Dev := incAt (fabPage l) (0x1000 + 0x40 * (l % 8) + 8 * i) 1 d
  let st := fabState l d
  if st < 2 ∨ 4 < st then d
  else
    let d := if st = 2 then d else trailerReceive l c d
    let accept (deliver : Dev → Dev) : Dev :=
      if st = 2 then d
      else
        let x := link l d
        let n := c.lseq.toNat
        if 512 ≤ (n + 4096 - x.next) % 4096 ∨ x.map.contains n then cellOut l (idleCell d) (at_ 4 d)
        else deliver (cellOut l (idleCell d) (at_ 1 (setLink l (acceptSeq n x) d)))
    match c.ctype.toNat with
    | 3 => if c.kind = 0 then helloReceive l (helloOf c.payload) d else if c.kind = 1 then reachReceive l (beAt c.payload 0 8) d else d
    | 1 => accept fun d => dataReceive c (inc Pg.FCT 1 d)
    | 2 => accept fun d => controlReceive c (inc Pg.FCT 3 d)
    | _ => d
/-- A cell arrives on a link (R363, R366 to R370), in FEC codewords of which some were corrected and some were beyond it (R396). Eight
bad cells in a row lose cell lock and eight good ones gain it; without lock no cell is taken. [DEDUCED: log 74, 75] -/
def cellReceive (l : Nat) (bs : Bytes) (corrected uncorrectable : Nat) (d : Dev) : Dev :=
  let c := wireCell bs
  let d := incAt (fabPage l) (0x1038 + 0x40 * (l % 8)) uncorrectable (incAt (fabPage l) (0x1030 + 0x40 * (l % 8)) corrected d)
  let x := link l d
  if !c.crcOk then
    let d := incAt (fabPage l) (0x1010 + 0x40 * (l % 8)) 1 d
    setLink l { x with bads := min (x.bads + 1) 8, goods := 0, locked := x.locked && decide (x.bads < 7) } d
  else if x.locked then goodCell l c (setLink l { x with bads := 0 } d)
  else
    let d := setLink l { x with goods := x.goods + 1, bads := 0 } d
    if fabState l d ≠ 0 ∧ x.goods = 7 then cellLock l d else d

/-! Register writes of the FCT page. -/

/-- A write of an expert register with its bounds. -/
def expertWrite (r : Reg) (ok : Bool) (g i img : Nat) (d : Dev) : Dev :=
  if !expertOf (r.lay.page + g) d then errAt Err.EXPERT_LOCKED r g i d
  else if !ok then errAt Err.BAD_ARG r g i d else storeFields true r g i img d
/-- FCT_MGR_CFG: MGR_TMO is 200 to 65,535. -/
def mgrCfgWrite (img : Nat) (d : Dev) : Dev :=
  if FCT_MGR_CFG.MGR_TMO.of img < 200 then errAt Err.BAD_ARG .FCT_MGR_CFG 0 0 d else storeFields false .FCT_MGR_CFG 0 0 img d
/-- FCT_X_LINK with the lower bound of REORDER_NS (R378). -/
def fctLinkWrite (img : Nat) (d : Dev) : Dev :=
  let tmo := FCT_X_LINK.REPLAY_TMO.of img
  let lim := FCT_X_LINK.REPLAY_LIMIT.of img
  expertWrite .FCT_X_LINK (decide (200 ≤ tmo ∧ tmo ≤ 4000 ∧ lim ≠ 0 ∧ (lim + 1) * tmo + 2000 ≤ FCT_X_LINK.REORDER_NS.of img)) 0 0 img d
/-- FCT_X_LAG. -/
def fctLagWrite (img : Nat) (d : Dev) : Dev :=
  expertWrite .FCT_X_LAG (decide (100 ≤ FCT_X_LAG.LAG_NS.of img ∧ FCT_X_LAG.RETX_PPM.of img ≠ 0)) 0 0 img d
/-- FCT_X_LAG1. -/
def fctLag1Write (img : Nat) (d : Dev) : Dev :=
  expertWrite .FCT_X_LAG1 (decide (10 ≤ FCT_X_LAG1.INT_US.of img ∧ FCT_X_LAG1.RECOVER.of img ≠ 0)) 0 0 img d
/-- BLK_EN of the FCT block went to 0: the device takes no chassis role (R39). -/
def fctDisable (d : Dev) : Dev := if isMgr d then dropManager d else setRole 0 d

end Sys2Proof.Machine
end

