-- ==== Sys2Proof/Machine/Heartwood.lean ====
section
/-! DEFINITION. The Heartwood ledger (17_counters_heartwood.md, R478 to R489): totals, hourly and daily records, calendar,
aging, MRAM upkeep and the software window. -/

namespace Sys2Proof.Machine

/-- Change the ledger. -/
def onHwd (f : Hwd → Hwd) (d : Dev) : Dev := { d with hwd := f d.hwd }
/-- Change the running totals. -/
def onTot (f : Totals → Totals) (d : Dev) : Dev := onHwd (fun h => { h with tot := f h.tot }) d
/-- Whether the calendar is valid (R483). -/
def calValid (d : Dev) : Bool := flag HWD_STAT.CAL_VALID 0 0 d
/-- UTC seconds; 0 while the calendar is not valid. -/
def utcNow (d : Dev) : Nat := rget HWD_UTC.SECONDS 0 0 d
/-- Power-on reset is over and every core rail is in range (R479). -/
def poweredOn (d : Dev) : Bool := !d.sys.porPin && d.sys.vddIo && d.sys.vddAon && d.sys.rails

/-! Totals (R479, R480). -/

/-- Two 32-bit halves. -/
def halves (hi lo : Nat) : Nat := hi % 2 ^ 32 * 2 ^ 32 + lo % 2 ^ 32
/-- Pack values of w bits, the first lowest. -/
def packLow (w : Nat) (vs : List Nat) : Nat := vs.foldr (fun v a => a * 2 ^ w + v % 2 ^ w) 0
/-- Words 0 to 63 of a totals slot. -/
def totalsWords (seq : Nat) (d : Dev) : List Nat :=
  let t := d.hwd.tot
  let hist (die k : Nat) : Nat := packLow 32 [look t.hist (16 * die + 2 * k) 0, look t.hist (16 * die + 2 * k + 1) 0]
  let drift (k : Nat) : Nat := packLow 16 ((List.range 4).map fun j => look t.drift (4 * k + j) 0)
  [halves 0x48575444 seq, t.powerOnS % 2 ^ 64, t.aonOnS % 2 ^ 64, halves t.chipResets t.porCount, halves t.ctlResets t.tampers, utcNow d] ++
    (List.range 24).map (fun i => hist (i / 8) (i % 8)) ++ (List.range 32).map drift ++
    [t.energyUJ / 1000000 % 2 ^ 64, halves t.logTotal t.logDropped]
/-- The CRC of a totals slot: over words 0 to 510 and the upper half of word 511. [DEDUCED: log 92] -/
def totalsCrc (ws : List Nat) : Nat := crc32c (wordsBytes (ws ++ List.replicate (511 - ws.length) 0) ++ beBytes 4 0)
/-- Write all 512 words of logical block b: the words listed, then words of 0, the last word apart. [DEDUCED: log 92] -/
def blockWrite (b : Nat) (ws : List Nat) (last : Nat) (d : Dev) : Dev :=
  let phys := hwdBlock b d
  let m := d.hwd.mram.filter fun e => e.1 / 512 != phys
  let m := (ws.zipIdx ++ [(last, 511)]).foldl (fun m (x : Nat × Nat) => put m (phys * 512 + x.2) 0 (x.1 % 2 ^ 64)) m
  incBy Pg.HWD 0 512 (onHwd (fun h => { h with mram := m }) d)
/-- Write the totals to the next slot with SEQ + 1. -/
def totalsWrite (d : Dev) : Dev :=
  let seq := (d.hwd.tot.seq + 1) % 2 ^ 32
  let ws := totalsWords seq d
  let d := blockWrite (1 + d.hwd.slot) ws (totalsCrc ws) d
  inc Pg.HWD 5 (onTot (fun t => { t with seq := seq }) (onHwd (fun h => { h with slot := (h.slot + 1) % 16 }) d))
/-- The words of slot s before the one with its CRC. -/
def slotWords (s : Nat) (d : Dev) : List Nat := (List.range 511).map fun i => mramRead ((1 + s) * 512 + i) d
/-- Whether slot s holds a record, and whether its CRC is good. [DEDUCED: log 92] -/
def slotGood (s : Nat) (d : Dev) : Bool × Bool :=
  let ws := slotWords s d
  (ws.getD 0 0 / 2 ^ 32 == 0x48575444, mramRead ((1 + s) * 512 + 511) d == totalsCrc ws)
/-- The totals that a slot's words hold. -/
def totalsOf (ws : List Nat) : Totals :=
  let w (i : Nat) := ws.getD i 0
  let tab (n : Nat) (f : Nat → Nat) : Tbl Nat := ((List.range n).map fun i => (i, f i)).filter fun e => e.2 != 0
  { seq := w 0 % 2 ^ 32, powerOnS := w 1, aonOnS := w 2, chipResets := w 3 / 2 ^ 32, porCount := w 3 % 2 ^ 32, ctlResets := w 4 / 2 ^ 32,
    tampers := w 4 % 2 ^ 32, hist := tab 48 (fun i => bits (w (6 + i / 2)) (32 * (i % 2) + 31) (32 * (i % 2))),
    drift := tab 128 (fun i => bits (w (30 + i / 4)) (16 * (i % 4) + 15) (16 * (i % 4))), energyUJ := w 62 * 1000000,
    logTotal := w 63 / 2 ^ 32, logDropped := w 63 % 2 ^ 32 }
/-- Start-up: load the slot with the highest SEQ whose CRC is good; torn records are counted; with none the totals restart
from 0 and the ledger is in FAULT (R479, R486). -/
def totalsLoad (d : Dev) : Dev :=
  let seen := (List.range 16).map fun s => (s, slotGood s d)
  let d := incBy Pg.HWD 3 (seen.filter fun x => x.2.1 && !x.2.2).length d
  let good := (seen.filter fun x => x.2.1 && x.2.2).map (·.1)
  let seqOf (s : Nat) : Nat := (slotWords s d).getD 0 0 % 2 ^ 32
  match good.foldl (fun (m : Option Nat) s => match m with | some b => if seqOf b < seqOf s then some s else m | none => some s) none with
  | some s => rset HWD_STAT.STATE 0 0 1 (onHwd (fun h => { h with slot := (s + 1) % 16, tot := totalsOf (slotWords s d) }) d)
  | none => fire Pg.HWD 0 (rset HWD_STAT.STATE 0 0 2 (onHwd (fun h => { h with slot := 0, tot := {} }) d))
/-- The end of an hour or a day: at a whole UTC hour or at midnight while the calendar is valid, otherwise n seconds of AON_ON_S
after the last record (R481). -/
def periodEnds (n at_ : Nat) (d : Dev) : Bool := if calValid d then utcNow d % n == 0 else decide (at_ + n ≤ d.hwd.tot.aonOnS)
/-- One second of the AON: the counts advance and the totals are written, and records fall due (R479, R481); before a second has
passed the row does nothing. -/
def totalsSecond (d : Dev) : Dev :=
  if !d.sys.vddAon || decide (d.hwd.aonNs < d.hwd.lastSec + 1000000000) then d
  else
    let d := onHwd (fun h => { h with lastSec := h.lastSec + 1000000000 }) d
    let p := poweredOn d
    let d := onTot (fun t => { t with aonOnS := t.aonOnS + 1, powerOnS := t.powerOnS + b2n p }) d
    let acc (a : LedgerAcc) : LedgerAcc := { a with secs := a.secs + b2n p }
    let d := onHwd (fun h => { h with hour := acc h.hour, day := acc h.day }) d
    let d := if calValid d then rset HWD_UTC.SECONDS 0 0 (utcNow d + 1) d else d
    let due (h : Hwd) : Hwd := { h with hourDue := h.hourDue || periodEnds 3600 h.hourAt d, dayDue := h.dayDue || periodEnds 86400 h.dayAt d }
    totalsWrite (onHwd due d)
/-- HWD_FLUSH. -/
def hwdFlushWrite (img : Nat) (d : Dev) : Dev := if HWD_FLUSH.GO.on img then totalsWrite d else d

/-! Hourly and daily records (R481, R482). -/

/-- Histogram bin of a temperature. -/
def tempBin (t : Int) : Nat := if t < 40 then 0 else if 110 ≤ t then 15 else ((t - 35) / 5).toNat
/-- The 1 s sample of the hottest sensor of the FE die, the TM die and the hottest stack; before a second has passed the row does
nothing. -/
def tempSample (ts : List Int) (d : Dev) : Dev :=
  if d.hwd.aonNs < d.hwd.tempAt + 1000000000 then d else
  let add (h : Tbl Nat) : Tbl Nat := (ts.zipIdx).foldl (fun h x => let k := 16 * x.2 + tempBin x.1; put h k 0 (look h k 0 + 1)) h
  let acc (a : LedgerAcc) : LedgerAcc := { a with hist := add a.hist, tmax := (a.tmax.zip ts).map fun x => max x.1 x.2 }
  onHwd (fun h => { h with tot := { h.tot with hist := add h.tot.hist }, hour := acc h.hour, day := acc h.day, tempAt := h.aonNs }) d
/-- Words 0 to 3, which both records share. [DESIGN CHOICE: log 93] -/
def recordHead (a : LedgerAcc) (d : Dev) : List Nat :=
  let v := calValid d
  let mean := if a.samples = 0 then 0 else a.powerSum / a.samples / 1000
  let t (i : Nat) : Nat := toBits 8 (a.tmax.getD i 0)
  [halves a.seq (b2n v), if v then utcNow d else d.hwd.tot.aonOnS,
    mean % 2 ^ 16 * 2 ^ 48 + a.powerPeak / 1000 % 2 ^ 16 * 2 ^ 32 + t 0 * 2 ^ 24 + t 1 * 2 ^ 16 + t 2 * 2 ^ 8,
    a.secs % 2 ^ 32 * 2 ^ 32 + a.chip % 2 ^ 16 * 2 ^ 16 + a.ctl % 2 ^ 16]
/-- Write a record of n words that ends with its CRC. [DEDUCED: log 92] -/
def recordWrite (w n : Nat) (ws : List Nat) (d : Dev) : Dev :=
  let body := ws ++ List.replicate (n - 1 - ws.length) 0
  mramWrites w (body ++ [crc32c (wordsBytes body ++ beBytes 4 0)]) d
/-- An hourly record closes once its hour has ended (R481); before that the row does nothing. [DESIGN CHOICE: log 93] -/
def hourlyClose (d : Dev) : Dev :=
  if !d.hwd.hourDue then d else
  let n := rget HWD_PTR.HOURLY_NEXT 0 0 d
  let d := recordWrite (17 * 512 + 16 * n) 16 (recordHead d.hwd.hour d) d
  onHwd (fun h => { h with hour := { seq := (h.hour.seq + 1) % 2 ^ 32 }, hourDue := false, hourAt := h.tot.aonOnS }) (rset HWD_PTR.HOURLY_NEXT 0 0 ((n + 1) % 720) d)
/-- Aging drift of island n, signed ppm. -/
def driftOf (n : Nat) (d : Dev) : Int := signed 16 (look d.hwd.tot.drift n 0)
/-- Mean drift of islands a to b. [DESIGN CHOICE: log 93] -/
def meanDrift (a b : Nat) (d : Dev) : Int := ((List.range (b + 1 - a)).foldl (fun s i => s + driftOf (a + i) d) 0) / ((b + 1 - a : Nat) : Int)
/-- A daily record closes once its day has ended (R481); before that the row does nothing. [DESIGN CHOICE: log 93] -/
def dailyClose (d : Dev) : Dev :=
  if !d.hwd.dayDue then d else
  let n := rget HWD_PTR.DAILY_NEXT 0 0 d
  let a := d.hwd.day
  let hist := (List.range 12).map fun k => packLow 16 ((List.range 4).map fun j => look a.hist (4 * k + j) 0 / 60)
  let worst := (List.range 128).foldl (fun b i => if driftOf b d < driftOf i d then i else b) 0
  let w16 := toBits 16 (driftOf worst d) * 2 ^ 48 + worst * 2 ^ 40 + toBits 16 (meanDrift 0 100 d) * 2 ^ 24 + toBits 16 (meanDrift 101 127 d) * 2 ^ 8
  let d := recordWrite (40 * 512 + 24 * n) 24 (recordHead a d ++ hist ++ [w16, halves a.logs a.eccs]) d
  onHwd (fun h => { h with day := { seq := (h.day.seq + 1) % 2 ^ 32 }, dayDue := false, dayAt := h.tot.aonOnS }) (rset HWD_PTR.DAILY_NEXT 0 0 ((n + 1) % 7305) d)

/-! Calendar, aging and MRAM upkeep (R483 to R487). -/

/-- A signed 32-bit number, saturating. -/
def sat32 (x : Int) : Nat := toBits 32 (max (-2147483648) (min x 2147483647))
/-- HWD_UTC: sets the calendar and logs UTC_SET. -/
def utcWrite (img : Nat) (d : Dev) : Dev :=
  let old := utcNow d
  let new := HWD_UTC.SECONDS.of img
  hwdLog 8 0 0 0 (sat32 ((new : Int) - old)) (rset HWD_STAT.CAL_VALID 0 0 1 (rset HWD_UTC.SECONDS 0 0 new d))
/-- The firmware measures an island's delay: the first measurement is its baseline (R484). -/
def ageMeasure (island delay : Nat) (d : Dev) : Dev :=
  if rget SVC_FW_STAT.RUN 0 0 d = 0 ∨ delay = 0 then d
  else
    match find? d.hwd.baseline island with
    | none => onHwd (fun h => { h with baseline := ins h.baseline island delay }) d
    | some b =>
      let ppm : Int := (((delay : Int) - b) * 1000000) / b
      let ppm := max (-32768) (min ppm 32767)
      let d := onTot (fun t => { t with drift := put t.drift island 0 (toBits 16 ppm) }) d
      let lim := rget HWD_AGE_ALARM.PPM 0 0 d
      if lim ≠ 0 ∧ (lim : Int) < ppm then fire Pg.HWD 1 (hwdLog 12 0 0 0 (island % 256 * 2 ^ 24 + toBits 24 ppm) d) else d
/-- Remap a logical block to the lowest free spare; with none left the ledger faults (R486). [DEDUCED: log 94] -/
def mramRemap (b : Nat) (d : Dev) : Dev :=
  let to_ := d.hwd.nextSpare
  if 1023 < to_ then fire Pg.HWD 0 d
  else
    let from_ := hwdBlock b d
    let copy := (List.range 512).foldl (fun m i => put m (to_ * 512 + i) 0 (look m (from_ * 512 + i) 0)) d.hwd.mram
    let d := onHwd (fun h => { h with mram := copy, remap := ins h.remap b to_, corrected := put h.corrected b 0 0, nextSpare := to_ + 1 }) d
    let d := rset HWD_STAT.REMAPPED 0 0 d.hwd.remap.length (rset HWD_STAT.SPARES 0 0 (1024 - (to_ + 1)) d)
    fire Pg.HWD 2 (hwdLog 11 0 0 0 b d)
/-- The daily read of a block: how many words were corrected, and a word that could not be, which reads as a free value. [DEDUCED: log 94] -/
def mramScan (b corrected : Nat) (bad : Option Nat) (d : Dev) : Dev :=
  if rget SVC_FW_STAT.RUN 0 0 d = 0 then d
  else
    let d := incBy Pg.HWD 1 corrected d
    let n := look d.hwd.corrected b 0 + corrected
    let d := onHwd (fun h => { h with corrected := put h.corrected b 0 n }) d
    match bad with
    | some w =>
      let (v, d) := draw (inc Pg.HWD 2 d)
      mramRemap b (onHwd (fun h => { h with mram := put h.mram (hwdBlock b d * 512 + w % 512) 0 v }) d)
    | none => if 16 ≤ n then mramRemap b d else d
/-- BYTE advances by 8 within the ledger. -/
def winStep (d : Dev) : Dev := rset HWD_WIN_ADDR.BYTE 0 0 (rget HWD_WIN_ADDR.BYTE 0 0 d + 8) d
/-- HWD_WIN_ADDR: a byte address of a word. -/
def winAddrWrite (img : Nat) (d : Dev) : Dev :=
  if HWD_WIN_ADDR.BYTE.of img % 8 ≠ 0 then errAt Err.BAD_ARG .HWD_WIN_ADDR 0 0 d else rset HWD_WIN_ADDR.BYTE 0 0 (HWD_WIN_ADDR.BYTE.of img) d
/-- A ledger word as software reads it: of the header only the asset tag has a place (R478). [DESIGN CHOICE: log 129] -/
def winWord (w : Nat) (d : Dev) : Nat :=
  if w < 512 ∧ ¬(32 ≤ w ∧ w < 40) then (Config.headerWord w d.hwd.baseline ((List.range 8).map fun i => mramRead (32 + i) d)).toNat
  else mramRead w d
/-- A read of HWD_WIN_DATA's low word: the ledger word at BYTE, and BYTE moves on. -/
def winRead (d : Dev) : Nat × Dev := (winWord (rget HWD_WIN_ADDR.BYTE 0 0 d / 8) d, winStep d)
/-- A write of HWD_WIN_DATA's high word: only the asset tag is writable (R478, R487). -/
def winWrite (img : Nat) (d : Dev) : Dev :=
  let b := rget HWD_WIN_ADDR.BYTE 0 0 d
  if 0x100 ≤ b ∧ b < 0x140 then winStep (mramWrite (b / 8) (HWD_WIN_DATA.DATA.of img) d) else errAt 0x20 .HWD_WIN_DATA 0 0 d
/-- HWD_TOTALS: live words 1 to 4 of the totals slot. -/
def totalsLive (k : Nat) (d : Dev) : Nat :=
  let t := d.hwd.tot
  match k with | 0 => t.powerOnS | 1 => t.aonOnS | 2 => halves t.chipResets t.porCount | _ => halves t.ctlResets t.tampers

/-- The 1 ms power measurement (R26): totals, rails, peak, and the ledger's means and energy; before a millisecond has passed the
row does nothing. -/
def powerSample (total : Nat) (rails : List Nat) (d : Dev) : Dev :=
  if d.hwd.aonNs < d.hwd.pwrAt + 1000000 then d else
  let d := onHwd (fun h => { h with pwrAt := h.aonNs }) d
  let mw := total % 2 ^ 24
  let d := rset GLB_PWR_TOTAL.SEQ 0 0 (rget GLB_PWR_TOTAL.SEQ 0 0 d + 1) (rset GLB_PWR_TOTAL.MW 0 0 mw d)
  let d := (rails.zipIdx).foldl (fun d x => if x.2 < 10 then rset GLB_PWR_RAILk.MW 0 x.2 x.1 d else d) d
  let d := if rget GLB_PWR_PEAK.MW 0 0 d < mw then rset GLB_PWR_PEAK.MW 0 0 mw d else d
  let acc (a : LedgerAcc) : LedgerAcc := { a with samples := a.samples + 1, powerSum := a.powerSum + mw, powerPeak := max a.powerPeak mw }
  onHwd (fun h => { h with hour := acc h.hour, day := acc h.day, tot := { h.tot with energyUJ := h.tot.energyUJ + mw } }) d
/-- GLB_PWR_PEAK: a write of any value sets it to the current total (R26). -/
def pwrPeakWrite (d : Dev) : Dev := rset GLB_PWR_PEAK.MW 0 0 (rget GLB_PWR_TOTAL.MW 0 0 d) d

end Sys2Proof.Machine
end

