-- ==== Sys2Proof/Machine/Services.lean ====
section
/-! DEFINITION. The on-chip services (14_services.md, R398 to R414): service queues, event ring, timer wheel, BFD, the
neighbour responder, flow export, the mailbox and the firmware slots. -/

namespace Sys2Proof.Machine

/-- Change the services. -/
def onSvc (f : Svc → Svc) (d : Dev) : Dev := { d with svc := f d.svc }
/-- SVC_FW_STAT.RUN: 0 none, 1 A, 2 B. -/
def fwRun (d : Dev) : Nat := rget SVC_FW_STAT.RUN 0 0 d
/-- Spindle time in milliseconds (R407). -/
def nowMs (d : Dev) : Nat := timeNsOf d.spn.time / 1000000

/-! The event ring (R411). -/

/-- Ring entries still free. -/
def svcRingFree (d : Dev) : Nat :=
  let n := 2 ^ rget SVC_RING_CFG.SIZE_LOG2 0 0 d
  (rget SVC_RING_TAIL.TAIL 0 0 d % n + 2 * n - rget SVC_RING_HEAD.HEAD 0 0 d % n - 1) % n
/-- Write the oldest waiting entry at index HEAD. -/
def ringWrite (d : Dev) : Dev :=
  match d.svc.ringBuf with
  | [] => d
  | (w0, w1, t) :: rest =>
    let h := rget SVC_RING_HEAD.HEAD 0 0 d % 2 ^ rget SVC_RING_CFG.SIZE_LOG2 0 0 d
    let d := emit (.hostWrite (rget SVC_RING_BASE.BASE 0 0 d * 16 + 16 * h) (leBytes 4 w0 ++ leBytes 4 w1 ++ leBytes 8 t)) d
    let d := onSvc (fun s => { s with ringBuf := rest }) d
    fire Pg.SVC 0 (rset SVC_RING_HEAD.HEAD 0 0 ((h + 1) % 2 ^ rget SVC_RING_CFG.SIZE_LOG2 0 0 d) d)
/-- Write waiting entries while the ring is enabled and has room and the host can be written. -/
def ringDrain (d : Dev) : Dev :=
  if rget SVC_RING_BASE.BASE 0 0 d ≠ 0 ∧ dmaOn d then Nat.repeat ringWrite (min (svcRingFree d) d.svc.ringBuf.length) d else d
/-- A new entry: it waits in the buffer of 1,024 entries and leaves at once if the ring has room. -/
def ringPush (kind mid low diag : Nat) (d : Dev) : Dev :=
  if 1024 ≤ d.svc.ringBuf.length then fire Pg.SVC 1 (inc Pg.SVC 7 d)
  else
    let t := timeNsOf d.spn.time % 2 ^ 64
    ringDrain (onSvc (fun s => { s with ringBuf := s.ringBuf ++ [(kind * 2 ^ 24 + mid % 256 * 2 ^ 16 + low % 65536, diag % 32, t)] }) d)
/-- A firmware entry: code 1 ready, 2 switch-over failed, with the running slot. -/
def ringFw (code : Nat) (d : Dev) : Dev := ringPush 3 code (fwRun d - 1) 0 d
/-- SVC_RING_CFG takes 8 to 16. -/
def svcRingCfgWrite (img : Nat) (d : Dev) : Dev :=
  let n := SVC_RING_CFG.SIZE_LOG2.of img
  if n < 8 ∨ 16 < n then errAt Err.BAD_ARG .SVC_RING_CFG 0 0 d else rset SVC_RING_CFG.SIZE_LOG2 0 0 n d

/-! The timer wheel (R401). -/

/-- A software claim's TICK falls due one PERIOD later. -/
def wheelArm (slot period : Nat) (d : Dev) : Dev := onSvc (fun s => { s with wheelDue := ins s.wheelDue slot (d.mono + period * 1000000) }) d
/-- Set the wheel's claims; FREE follows. -/
def setWheel (w : Tbl (Nat × Nat)) (d : Dev) : Dev :=
  rset SVC_WHEEL_FREE.FREE 0 0 (65536 - w.length) (onSvc (fun s => { s with wheel := w }) d)
/-- SVC_WHEEL_CMD: claim or release a slot for software (R49, R50, R401). -/
def wheelWrite (req : Requester) (img : Nat) (d : Dev) : Dev :=
  let d := storeFields false .SVC_WHEEL_CMD 0 0 img d
  let slot := SVC_WHEEL_CMD.SLOT.of img
  let id := SVC_WHEEL_CMD.OWNER_ID.of img
  let period := SVC_WHEEL_CMD.PERIOD.of img
  let bad (c : Nat) : Dev := errAt c .SVC_WHEEL_CMD 0 0 d
  if !SVC_WHEEL_CMD.GO.on img then d
  else if id = 0 ∨ idRefused req id then bad Err.BAD_ARG
  else if SVC_WHEEL_CMD.RELEASE.on img then
    match find? d.svc.wheel slot with
    | some (o, _) => if o = id then setWheel (del d.svc.wheel slot) d else bad Err.NOT_OWNER
    | none => bad Err.NOT_OWNER
  else if period < 1 ∨ 60000 < period then bad Err.BAD_ARG
  else
    match find? d.svc.wheel slot with
    | some (o, _) => if o = id then wheelArm slot period (setWheel (ins d.svc.wheel slot (id, period)) d) else bad Err.OWNER_BUSY
    | none => wheelArm slot period (setWheel (ins d.svc.wheel slot (id, period)) d)
/-- A software-held slot comes round once every PERIOD: a TICK entry; before its time the row does nothing. [DESIGN CHOICE: log 81] -/
def wheelTick (slot : Nat) (d : Dev) : Dev :=
  match find? d.svc.wheel slot with
  | some (o, p) =>
    let due := look d.svc.wheelDue slot 0
    if o = 0xF400 ∨ d.mono < due then d
    else ringPush 2 0 slot 0 (onSvc (fun s => { s with wheelDue := ins s.wheelDue slot (due + p * 1000000) }) d)
  | none => d

/-! Packets of the services (R399, R400). -/

/-- Take the oldest packet of service queue k: without running firmware it is dropped with SVC_NOT_RUNNING; f answers a drop
code, or 0 for a packet that the service has used. The chain is released in either case. -/
def svcTake (k : Nat) (f : Desc → Bytes → Dev → Nat × Dev) (d : Dev) : Dev :=
  match d.tm.svcOut.find? fun e => e.1 == rget TMS_PORTn_EQ.EQ_BASE 0 129 d + k with
  | none => d
  | some e =>
    let d := onTm (fun t => { t with svcOut := t.svcOut.erase e }) d
    if fwRun d = 0 then free .tm e.2.head e.2.tag (drop 0xE6 d)
    else
      let (c, bs, d) := readChain .tm e.2 d
      let (c, d) := if c ≠ 0 then (c, d) else f e.2 bs d
      free .tm e.2.head e.2.tag (drop c d)
/-- The parse of a packet with its ingress port's settings. [PRESUMED: log 79] -/
def svcParse (x : Desc) (bs : Bytes) (d : Dev) : Parse := parsePacket (parseCfg x.port d) bs (rget HDS_PORTn_CFG.START_TYPE 0 x.port d)
/-- A packet that a service sends enters the Headstock as port 249: USER holds the next hop and the ingress port (R400). -/
def svcSend (nh ing : Nat) (bs : Bytes) (d : Dev) : Dev :=
  fifoPush { port := 249, bytes := bs, pktTime := now48 d, user := ing % 256 * 2 ^ 21 + nh % 2 ^ 21 } d
/-- The Internet checksum of bytes, odd lengths padded with zero. -/
def inetCsum (bs : Bytes) : Nat := 0xFFFF - fold16 (fold16 (sum16 bs 0 ((bs.length + 1) / 2)))
/-- A checksum field in UDP: 0 is sent as all ones. -/
def udpCsum (x : Nat) : Nat := if x = 0 then 0xFFFF else x
/-- The pseudo-header of an upper-layer checksum. -/
def pseudo (v6 : Bool) (src dst proto len : Nat) : Bytes :=
  let w := if v6 then 16 else 4
  beBytes w src ++ beBytes w dst ++ (if v6 then beBytes 4 len ++ beBytes 4 proto else beBytes 2 proto ++ beBytes 2 len)
/-- An Ethernet, IP and UDP packet around a payload. MAC addresses, traffic class, identification and flow label are free. [DESIGN CHOICE: log 78] -/
def udpPacket (v6 : Bool) (src dst sport dport : Nat) (load : Bytes) (d : Dev) : Bytes × Dev :=
  let (a, d) := draw d
  let (b, d) := draw d
  let len := 8 + load.length
  let udp (c : Nat) := beBytes 2 sport ++ beBytes 2 dport ++ beBytes 2 len ++ beBytes 2 c ++ load
  let u := udp (udpCsum (inetCsum (pseudo v6 src dst 17 len ++ udp 0)))
  let macs := beBytes 8 a ++ beBytes 4 (b % 2 ^ 32)
  if v6 then
    let h := beBytes 4 (6 * 2 ^ 28 + b / 2 ^ 32 % 2 ^ 28) ++ beBytes 2 len ++ beBytes 1 17 ++ beBytes 1 255 ++ beBytes 16 src ++ beBytes 16 dst
    (macs ++ beBytes 2 0x86DD ++ h ++ u, d)
  else
    let h (c : Nat) := beBytes 1 0x45 ++ beBytes 1 (b / 2 ^ 32 % 256) ++ beBytes 2 (20 + len) ++ beBytes 2 (b / 2 ^ 40 % 65536) ++ beBytes 2 0 ++
      beBytes 1 255 ++ beBytes 1 17 ++ beBytes 2 c ++ beBytes 4 src ++ beBytes 4 dst
    (macs ++ beBytes 2 0x0800 ++ h (inetCsum (h 0)) ++ u, d)

/-! SHA-1, for BFD authentication (R404). -/

/-- 32-bit rotate left. -/
def rol32 (n x : Nat) : Nat := (x <<< n ||| x >>> (32 - n)) % 2 ^ 32
/-- The message schedule, newest word first. -/
def sha1Sched : Nat → List Nat → List Nat
  | 0, ws => ws
  | k + 1, ws => sha1Sched k (rol32 1 (ws.getD 2 0 ^^^ ws.getD 7 0 ^^^ ws.getD 13 0 ^^^ ws.getD 15 0) :: ws)
/-- One round with its index and schedule word. -/
def sha1Round (h : List Nat) (x : Nat × Nat) : List Nat :=
  let a := h.getD 0 0; let b := h.getD 1 0; let c := h.getD 2 0; let e := h.getD 3 0; let g := h.getD 4 0
  let f := if x.2 < 20 then (b &&& c) ||| ((0xFFFFFFFF ^^^ b) &&& e) else if x.2 < 40 then b ^^^ c ^^^ e
    else if x.2 < 60 then (b &&& c) ||| (b &&& e) ||| (c &&& e) else b ^^^ c ^^^ e
  let k := if x.2 < 20 then 0x5A827999 else if x.2 < 40 then 0x6ED9EBA1 else if x.2 < 60 then 0x8F1BBCDC else 0xCA62C1D6
  [(rol32 5 a + f + g + k + x.1) % 2 ^ 32, a, rol32 30 b, c, e]
/-- One 64-byte block from offset o. -/
def sha1Block (m : Bytes) (h : List Nat) (o : Nat) : List Nat :=
  let ws := (List.range 16).map fun i => beAt m (o + 4 * i) 4
  let s := ((sha1Sched 64 ws.reverse).reverse.zipIdx).foldl sha1Round h
  (h.zip s).map fun x => (x.1 + x.2) % 2 ^ 32
/-- SHA-1 of bytes. -/
def sha1 (bs : Bytes) : Bytes :=
  let pad := (119 - bs.length % 64) % 64
  let m := bs ++ beBytes 1 0x80 ++ List.replicate pad 0 ++ beBytes 8 (8 * bs.length)
  let h := (List.range (m.length / 64)).foldl (fun h i => sha1Block m h (64 * i)) [0x67452301, 0xEFCDAB89, 0x98BADCFE, 0x10325476, 0xC3D2E1F0]
  h.flatMap (beBytes 4)

/-! BFD (R402 to R404). -/

/-- Session i. -/
def sess (i : Nat) (d : Dev) : Option BfdSess := find? d.svc.sess i
/-- Set session i. -/
def setSess (i : Nat) (x : BfdSess) (d : Dev) : Dev := onSvc (fun s => { s with sess := ins s.sess i x }) d
/-- The key of a BFD_SHA1 object (R503): none where the handle names none. -/
def bfdKey (h : Nat) (d : Dev) : Option Bytes :=
  match find? d.vlt.slots h with
  | some o => if h ≠ 0 ∧ byteAt o 0 = 3 ∧ byteAt o 1 ≤ 20 then some ((o.drop 4).take (byteAt o 1)) else none
  | none => none
/-- A change of session state: counted, with a BFD_STATE entry; a session being deleted writes none (R403, R410). -/
def bfdState (i : Nat) (x : BfdSess) (st diag : Nat) (d : Dev) : Dev :=
  let up := st == 3 && decide (x.txUs < 1000000)
  let d := setSess i { x with st := st, diag := diag, poll := x.poll || up } d
  if x.st = st then d
  else
    let d := inc Pg.SVC 2 d
    if x.deleting then d else ringPush 1 st i diag d
/-- Detection time in ns (R403). -/
def BfdSess.detect (x : BfdSess) : Nat := x.rMult * max x.detRx x.rTx * 1000
/-- The control packet with its authentication section (RFC 5880): F answers a Poll. [PRESUMED: log 77; DESIGN CHOICE: log 78] -/
def bfdBytes (x : BfdSess) (final : Bool) (free : Nat) : Bytes :=
  let auth := x.auth ≠ 0
  let tx := if x.st = 3 then x.txUs else max x.txUs 1000000
  let flags := x.st * 64 + b2n (x.poll && !final) * 32 + b2n final * 16 + free % 2 * 8 + b2n auth * 4
  let head := beBytes 1 (1 * 32 + x.diag) ++ beBytes 1 flags ++ beBytes 1 x.mult ++ beBytes 1 (if auth then 52 else 24) ++
    beBytes 4 x.disc ++ beBytes 4 x.rDisc ++ beBytes 4 tx ++ beBytes 4 x.rxUs ++ beBytes 4 0
  if auth then
    let sec := head ++ beBytes 1 (x.auth + 3) ++ beBytes 1 28 ++ beBytes 1 x.keyId ++ beBytes 1 0 ++ beBytes 4 x.xmitSeq
    let key := x.key.getD []
    sec ++ sha1 (sec ++ key ++ List.replicate (20 - key.length) 0)
  else head
/-- Send a session's control packet. -/
def bfdSend (i : Nat) (final : Bool) (d : Dev) : Dev :=
  match sess i d with
  | none => d
  | some x =>
    if x.auth ≠ 0 ∧ x.key = none then d
    else
      let (f, d) := draw d
      let (bs, d) := udpPacket x.v6 x.src x.dst (49152 + f % 16384) (if x.mhop then 4784 else 3784) (bfdBytes x final (f / 16384)) d
      let d := setSess i { x with txPkts := (x.txPkts + 1) % 2 ^ 32, xmitSeq := if x.auth = 0 then x.xmitSeq else (x.xmitSeq + 1) % 2 ^ 32 } d
      svcSend x.nh 0 bs (inc Pg.SVC 0 d)
/-- The negotiated transmit interval in µs (RFC 5880): a second at least while the session is not Up. [PRESUMED: log 77] -/
def BfdSess.interval (x : BfdSess) : Nat := max (if x.st = 3 then x.curTx else max x.curTx 1000000) x.rRx
/-- The shortest interval in ns after jitter, three quarters of the negotiated one (RFC 5880). [PRESUMED: log 77] -/
def BfdSess.soonest (x : BfdSess) : Nat := x.interval * 750
/-- A session's slot comes round (R402), no sooner than the jittered interval allows: nothing is sent while the peer asks for none,
or in demand mode. [DESIGN CHOICE: log 81] -/
def bfdTransmit (i : Nat) (d : Dev) : Dev :=
  match sess i d with
  | none => d
  | some x =>
    let soon : Bool := match x.lastTx with | some t => decide (d.mono < t + x.soonest) | none => false
    if fwRun d = 0 ∨ soon ∨ x.rRx = 0 ∨ (x.rDemand ∧ x.st = 3 ∧ x.rSt = 3 ∧ !x.poll) then d
    else bfdSend i false (setSess i { x with lastTx := some d.mono } d)
/-- Whether an authentication section passes (RFC 5880; R404), with its sequence number. [PRESUMED: log 77] -/
def bfdAuth (x : BfdSess) (p : Bytes) (now : Nat) : Option Nat :=
  let seq := beAt p 28 4
  let low := match x.rcvSeq with
    | some r => if (match x.lastRx with | some t => decide (2 * x.detect ≤ now - t) | none => true) then none
      else some ((r + (if x.auth = 2 then 1 else 0)) % 2 ^ 32)
    | none => none
  let inSeq := match low with
    | some l => decide ((seq + 2 ^ 32 - l) % 2 ^ 32 ≤ 3 * x.mult - (if x.auth = 2 then 1 else 0))
    | none => true
  match x.key with
  | none => none
  | some key =>
    let whole := p.take 32 ++ key ++ List.replicate (20 - key.length) 0
    if byteAt p 24 == x.auth + 3 && byteAt p 25 == 28 && byteAt p 26 == x.keyId && byteAt p 3 == 52 && inSeq && (p.drop 32).take 20 == sha1 whole
      then some seq else none
/-- The session that a packet belongs to (RFC 5880): by Your Discriminator, or by addresses where that is 0. [PRESUMED: log 77] -/
def bfdMatch (v6 : Bool) (src dst yours : Nat) (d : Dev) : Option (Nat × BfdSess) :=
  if yours ≠ 0 then d.svc.sess.find? fun e => e.2.disc == yours
  else d.svc.sess.find? fun e => e.2.v6 == v6 && e.2.src == dst && e.2.dst == src
/-- A valid packet enters the state machine of RFC 5880; Poll and Final sequences follow (R402, R403). [PRESUMED: log 77] -/
def bfdAccept (i : Nat) (x : BfdSess) (p : Bytes) (seq : Option Nat) (d : Dev) : Dev :=
  let rs := byteAt p 1 / 64
  let fin := bit (byteAt p 1) 4
  let x := { x with rDisc := beAt p 4 4, rSt := rs, rDemand := bit (byteAt p 1) 1, rTx := beAt p 12 4, rRx := beAt p 16 4, rMult := byteAt p 2,
                    rxPkts := (x.rxPkts + 1) % 2 ^ 32, lastRx := some d.mono, rcvSeq := (match seq with | some s => some s | none => x.rcvSeq),
                    poll := x.poll && !fin, detRx := if fin then x.rxUs else x.detRx, curTx := if fin then x.txUs else x.curTx }
  let d := inc Pg.SVC 1 d
  let (st, diag) :=
    if rs = 0 then (if x.st = 1 then (1, x.diag) else (1, 3))
    else if x.st = 1 then (if rs = 1 then (2, x.diag) else if rs = 2 then (3, 0) else (1, x.diag))
    else if x.st = 2 then (if rs = 2 ∨ rs = 3 then (3, 0) else (2, x.diag))
    else if rs = 1 then (1, 3) else (3, x.diag)
  let d := bfdState i x st diag d
  if bit (byteAt p 1) 5 then bfdSend i true d else d
/-- A packet of service queue 0: the reception checks of RFC 5880, the TTL check of R402 and authentication. -/
def bfdPacket (x : Desc) (bs : Bytes) (d : Dev) : Nat × Dev :=
  let p := svcParse x bs d
  match p.l3out, find? p.anchors 2 with
  | some ip, some o =>
    let b := (bs.take (o + beAt bs (o + 4) 2)).drop (o + 8)
    let len := byteAt b 3
    let auth := bit (byteAt b 1) 2
    let st := byteAt b 1 / 64
    let yours := beAt b 8 4
    let src := if ip.v6 then beAt bs (ip.ofs + 8) 16 else beAt bs (ip.ofs + 12) 4
    let dst := if ip.v6 then beAt bs (ip.ofs + 24) 16 else beAt bs (ip.ofs + 16) 4
    let ttl := if ip.v6 then byteAt bs (ip.ofs + 7) else byteAt bs (ip.ofs + 8)
    if !(p.slots.any fun s => s == (o, 0x21)) ∨ byteAt b 0 / 32 ≠ 1 ∨ len < (if auth then 26 else 24) ∨ b.length < len ∨ byteAt b 2 = 0 ∨
        bit (byteAt b 1) 0 ∨ beAt b 4 4 = 0 ∨ (yours = 0 ∧ 1 < st) then (0xE2, d)
    else
      match bfdMatch ip.v6 src dst yours d with
      | none => (0xE0, d)
      | some (i, s) =>
        if !s.mhop ∧ ttl ≠ 255 then (0xE2, d)
        else if auth ≠ (s.auth != 0) then (0xE1, d)
        else
          let seq := if s.auth = 0 then none else bfdAuth s b d.mono
          if s.auth ≠ 0 ∧ seq = none then (0xE1, d)
          else if s.st = 0 then (0xE2, d)
          else (0, bfdAccept i s b seq d)
  | _, _ => (0xE2, d)
/-- BFD_RECEIVE: the oldest packet of service queue 0. -/
def bfdReceive (d : Dev) : Dev := svcTake 0 bfdPacket d
/-- The detection timer of a session expires (R403): it turns Down with diagnostic 1. In Down no timer runs. -/
def bfdExpire (i : Nat) (d : Dev) : Dev :=
  match sess i d with
  | none => d
  | some x =>
    match x.lastRx with
    | none => d
    | some t =>
      if (x.st = 2 ∨ x.st = 3) ∧ t + x.detect ≤ d.mono then bfdState i { x with rDisc := 0, lastRx := none } 1 1 d else d

/-! The neighbour responder (R405). -/

/-- The entry that answers for an address on a port. -/
def ndFind (v6 : Bool) (addr port : Nat) (d : Dev) : Option NdEnt :=
  (d.svc.nd.find? fun e => e.2.v6 == v6 && e.2.addr == addr && (e.2.ingPort == 0xFF || e.2.ingPort == port)).map (·.2)
/-- The link header of a reply: the request's own up to the layer-3 header, with its addresses replaced. -/
def replyLink (bs : Bytes) (l2 l3 dstMac srcMac : Nat) : Bytes := beBytes 6 dstMac ++ beBytes 6 srcMac ++ (bs.take l3).drop (l2 + 12)
/-- Answer an ARP request whose header is at o. [PRESUMED: log 79] -/
def arpReply (x : Desc) (bs : Bytes) (l2 o : Nat) (d : Dev) : Nat × Dev :=
  if beAt bs o 6 ≠ 0x000108000604 ∨ beAt bs (o + 6) 2 ≠ 1 ∨ bs.length < o + 28 then (0xE4, d)
  else
    match ndFind false (beAt bs (o + 24) 4) x.port d with
    | none => (0xE3, d)
    | some e =>
      let sha := beAt bs (o + 8) 6
      let r := replyLink bs l2 o sha e.mac ++ beBytes 6 0x000108000604 ++ beBytes 2 2 ++ beBytes 6 e.mac ++ beBytes 4 e.addr ++ (bs.drop (o + 8)).take 10
      (0, svcSend 0 x.port r (inc Pg.SVC 3 d))
/-- The options of an NS from offset o of length n: whether every length is sound, and the source link-layer address. -/
def nsOptions (bs : Bytes) : Nat → Nat → Nat → Bool × Option Nat
  | 0, _, _ => (true, none)
  | k + 1, o, e =>
    if e ≤ o then (true, none)
    else
      let l := 8 * byteAt bs (o + 1)
      if l = 0 ∨ e < o + l then (false, none)
      else
        let (ok, s) := nsOptions bs k (o + l) e
        (ok, if byteAt bs o = 1 then some (beAt bs (o + 2) 6) else s)
/-- Answer a Neighbor Solicitation: the IPv6 header at ip, the ICMPv6 header at o (RFC 4861). [PRESUMED: log 79] -/
def nsReply (x : Desc) (bs : Bytes) (l2 ip o : Nat) (d : Dev) : Nat × Dev :=
  let e := ip + 40 + beAt bs (ip + 4) 2
  let src := beAt bs (ip + 8) 16
  let dst := beAt bs (ip + 24) 16
  let target := beAt bs (o + 8) 16
  let icmp := (bs.take e).drop o
  let (ok, sll) := nsOptions bs 64 (o + 24) e
  let solicited := dst / 2 ^ 24 == 0xFF0200000000000000000001FF
  if byteAt bs o ≠ 135 ∨ byteAt bs (o + 1) ≠ 0 ∨ byteAt bs (ip + 7) ≠ 255 ∨ icmp.length < 24 ∨ e < o + 24 ∨ !ok ∨ target / 2 ^ 120 = 0xFF ∨
      inetCsum (pseudo true src dst 58 icmp.length ++ icmp) ≠ 0 ∨ (src = 0 ∧ (!solicited ∨ sll ≠ none)) then (0xE4, d)
  else
    match ndFind true target x.port d with
    | none => (0xE3, d)
    | some n =>
      let to_ := if src = 0 then 0xFF020000000000000000000000000001 else src
      let mac := if src = 0 then 0x333300000001 else sll.getD (beAt bs (l2 + 6) 6)
      let na (c : Nat) := beBytes 1 136 ++ beBytes 1 0 ++ beBytes 2 c ++ beBytes 4 (2 ^ 30 + b2n n.ovr * 2 ^ 29) ++ beBytes 16 target ++
        beBytes 1 2 ++ beBytes 1 1 ++ beBytes 6 n.mac
      let h := beBytes 4 (6 * 2 ^ 28) ++ beBytes 2 32 ++ beBytes 1 58 ++ beBytes 1 255 ++ beBytes 16 target ++ beBytes 16 to_
      let r := replyLink bs l2 ip mac n.mac ++ h ++ na (inetCsum (pseudo true target to_ 58 32 ++ na 0))
      (0, svcSend 0 x.port r (inc Pg.SVC 3 d))
/-- A packet of service queue 1. -/
def ndPacket (x : Desc) (bs : Bytes) (d : Dev) : Nat × Dev :=
  let p := svcParse x bs d
  let l2 := (find? p.anchors 0).getD 0
  match p.slots.find? fun s => s.2 == 0x03 with
  | some s => arpReply x bs l2 s.1 d
  | none =>
    match p.l3out, p.slots.find? fun s => s.2 == 0x23 with
    | some ip, some s => if ip.v6 then nsReply x bs l2 ip.ofs s.1 d else (0xE4, d)
    | _, _ => (0xE4, d)
/-- ND_REQUEST: the oldest packet of service queue 1. -/
def ndRequest (d : Dev) : Dev := svcTake 1 ndPacket d

/-! Flow export (R406, R407). -/

/-- The key of a flow (R406): ingress port 8, V6 1, source 128, destination 128, protocol 8, ports 16 and 16. -/
def flowKey (port : Nat) (v6 : Bool) (src dst proto sp dp : Nat) : Nat :=
  ((((((port * 2 + b2n v6) * 2 ^ 128 + src) * 2 ^ 128 + dst) * 256 + proto) * 65536 + sp) * 65536) + dp
/-- The size of a message's payload of sets. [DESIGN CHOICE: log 78] -/
def exportMsg (sets : Bytes) (records : Nat) (d : Dev) : Dev :=
  let c := d.svc.ipfix
  let m := beBytes 2 10 ++ beBytes 2 (16 + sets.length) ++ beBytes 4 (secOf d.spn.time % 2 ^ 32) ++ beBytes 4 d.svc.msgSeq ++ beBytes 4 c.domain ++ sets
  let (bs, d) := udpPacket c.v6 c.src c.dst c.sport c.dport m d
  svcSend c.nh 0 bs (inc Pg.SVC 6 (onSvc (fun s => { s with msgSeq := (s.msgSeq + records) % 2 ^ 32 }) d))
/-- A set of a message. -/
def ipfixSet (id : Nat) (body : Bytes) : Bytes := beBytes 2 id ++ beBytes 2 (4 + body.length) ++ body
/-- Export one flow in a message of its own. [PRESUMED: log 79] -/
def exportFlow (k : Nat) (f : Flow) (d : Dev) : Dev :=
  let v6 := bit k (128 + 128 + 40)
  let w := if v6 then 16 else 4
  let body := beBytes w (bits k 295 168) ++ beBytes w (bits k 167 40) ++ beBytes 2 (bits k 31 16) ++ beBytes 2 (bits k 15 0) ++
    beBytes 1 (bits k 39 32) ++ beBytes 4 (bits k 304 297) ++ beBytes 8 f.pkts ++ beBytes 8 f.octets ++ beBytes 8 f.first ++ beBytes 8 f.last
  exportMsg (ipfixSet (if v6 then 257 else 256) body) 1 (inc Pg.SVC 5 d)
/-- The time of an interval of s seconds since the instant t has passed. -/
def secsPassed (s t : Nat) (d : Dev) : Bool := decide (t + s * 1000000000 ≤ d.mono)
/-- Export a flow and take it from the cache. -/
def exportOut (k : Nat) (d : Dev) : Dev :=
  match find? d.svc.flows k with
  | some f => onSvc (fun s => { s with flows := del s.flows k }) (exportFlow k f d)
  | none => d
/-- The templates of R407 and the value of SAMPLING, sent now. [PRESUMED: log 79] -/
def templatesOut (d : Dev) : Dev :=
  if !d.svc.ipfix.en ∨ fwRun d = 0 then d
  else
    let fields (v6 : Bool) : Bytes := [(if v6 then 27 else 8, if v6 then 16 else 4), (if v6 then 28 else 12, if v6 then 16 else 4), (7, 2), (11, 2), (4, 1),
      (10, 4), (2, 8), (1, 8), (152, 8), (153, 8)].flatMap fun x => beBytes 2 x.1 ++ beBytes 2 x.2
    let t (id : Nat) (v6 : Bool) : Bytes := beBytes 2 id ++ beBytes 2 10 ++ fields v6
    let o : Bytes := beBytes 2 258 ++ beBytes 2 2 ++ beBytes 2 1 ++ beBytes 2 149 ++ beBytes 2 4 ++ beBytes 2 305 ++ beBytes 2 4
    let v : Bytes := beBytes 4 d.svc.ipfix.domain ++ beBytes 4 d.svc.ipfix.sampling
    exportMsg (ipfixSet 2 (t 256 false ++ t 257 true) ++ ipfixSet 3 o ++ ipfixSet 258 v) 1 (onSvc (fun s => { s with lastTpl := d.mono }) d)
/-- The templates every TEMPLATE_S seconds (R407); before that the row does nothing. [PRESUMED: log 79; DESIGN CHOICE: log 81] -/
def templateSend (d : Dev) : Dev := if secsPassed d.svc.ipfix.templateS d.svc.lastTpl d then templatesOut d else d
/-- The flow whose last sample is oldest. -/
def oldestFlow (d : Dev) : Option Nat := (leastBy (fun (e : Nat × Flow) => e.2.seen) d.svc.flows).map (·.1)
/-- A packet of service queue 2: one sample. -/
def samplePacket (x : Desc) (bs : Bytes) (d : Dev) : Nat × Dev :=
  let sec := d.mono / 1000000000
  let n := if d.svc.rateSec = sec then d.svc.rateN else 0
  if 50000000 ≤ n then (0xE5, d)
  else
    let d := inc Pg.SVC 4 (onSvc (fun s => { s with rateSec := sec, rateN := n + 1 }) d)
    let p := svcParse x bs d
    match p.l3out with
    | none => (0, d)
    | some ip =>
      if !d.svc.ipfix.en then (0, d)
      else
        let tu := isTcpUdp p 2 && !ip.frag
        let o := (find? p.anchors 2).getD 0
        let src := if ip.v6 then beAt bs (ip.ofs + 8) 16 else beAt bs (ip.ofs + 12) 4
        let dst := if ip.v6 then beAt bs (ip.ofs + 24) 16 else beAt bs (ip.ofs + 16) 4
        let k := flowKey x.port ip.v6 src dst ip.proto (if tu then beAt bs o 2 else 0) (if tu then beAt bs (o + 2) 2 else 0)
        let len := if ip.v6 then 40 + beAt bs (ip.ofs + 4) 2 else beAt bs (ip.ofs + 2) 2
        let d := if !has d.svc.flows k && decide (1048576 ≤ d.svc.flows.length) then
            (match oldestFlow d with | some v => exportOut v d | none => d) else d
        let f := look d.svc.flows k { first := nowMs d, since := d.mono }
        (0, onSvc (fun s => { s with flows := ins s.flows k { f with pkts := f.pkts + 1, octets := f.octets + len, last := nowMs d, seen := d.mono } }) d)
/-- IPFIX_SAMPLE: the oldest packet of service queue 2. -/
def ipfixSample (d : Dev) : Dev := svcTake 2 samplePacket d
/-- A flow without a sample for IDLE_S (R406). [DESIGN CHOICE: log 81] -/
def idleExport (k : Nat) (d : Dev) : Dev :=
  match find? d.svc.flows k with
  | some f => if d.svc.ipfix.en ∧ fwRun d ≠ 0 ∧ secsPassed d.svc.ipfix.idleS f.seen d then exportOut k d else d
  | none => d
/-- A flow is exported every ACTIVE_S while samples continue; its counts start again (R406). [DESIGN CHOICE: log 81] -/
def activeExport (k : Nat) (d : Dev) : Dev :=
  match find? d.svc.flows k with
  | some f =>
    if d.svc.ipfix.en ∧ fwRun d ≠ 0 ∧ f.pkts ≠ 0 ∧ secsPassed d.svc.ipfix.activeS f.since d then
      onSvc (fun s => { s with flows := ins s.flows k { first := nowMs d, last := f.last, since := d.mono, seen := f.seen } }) (exportFlow k f d)
    else d
  | none => d

/-! The mailbox (R409, R410). -/

/-- Take fields from the top bit of a 504-bit ARG down: the widths give the field at position i. -/
def argField (arg : Nat) (ws : List Nat) (i : Nat) : Nat :=
  let above := (ws.take (i + 1)).foldl (· + ·) 0
  bits arg (503 - (above - ws.getD i 0)) (504 - above)
/-- Pack values and widths from the top bit of DATA down. -/
def packData (vs : List (Nat × Nat)) : Nat :=
  let (v, n) := vs.foldl (fun (a : Nat × Nat) x => (a.1 * 2 ^ x.2 + x.1 % 2 ^ x.2, a.2 + x.2)) (0, 0)
  v * 2 ^ (504 - n)
/-- Widths of the ARG fields of BFD_ADD, BFD_MOD, ND_ADD and IPFIX_CFG. -/
def bfdAddW : List Nat := [15, 1, 1, 2, 8, 16, 8, 22, 22, 21, 32, 128, 128]
def bfdModW : List Nat := [15, 2, 8, 16, 8, 22, 22]
def ndAddW : List Nat := [14, 1, 1, 8, 48, 128]
def ipfixW : List Nat := [1, 1, 32, 24, 16, 16, 16, 11, 21, 16, 16, 128, 128]
/-- Whether session parameters are refused (R404, R410). -/
def bfdArgBad (auth handle mult tx rx : Nat) (d : Dev) : Bool :=
  decide (tx < 3300 ∨ rx < 3300 ∨ mult = 0 ∨ auth = 3) || (auth != 0 && (bfdKey handle d).isNone)
/-- BFD_ADD: a session and the lowest free wheel slot. -/
def bfdAdd (arg : Nat) (d : Dev) : Nat × Nat × Dev :=
  let a := argField arg bfdAddW
  if has d.svc.sess (a 0) ∨ bfdArgBad (a 3) (a 5) (a 6) (a 7) (a 8) d then (Err.BAD_ARG, 0, d)
  else
    match lowestFree d.svc.wheel 0 65536 with
    | none => (Err.RESOURCE_FULL, 0, d)
    | some slot =>
      let (f, d) := draw d
      let x : BfdSess :=
        { mhop := a 1 == 1, v6 := a 2 == 1, auth := a 3, keyId := a 4, key := if a 3 = 0 then none else bfdKey (a 5) d,
          mult := a 6, txUs := a 7, rxUs := a 8, detRx := a 8, curTx := a 7, nh := a 9, disc := a 10, slot := slot, xmitSeq := f % 2 ^ 32,
          src := if a 2 = 1 then a 11 else a 11 % 2 ^ 32, dst := if a 2 = 1 then a 12 else a 12 % 2 ^ 32 }
      (0, 0, setSess (a 0) x (setWheel (ins d.svc.wheel slot (0xF400, 0)) d))
/-- BFD_MOD: changes through a Poll Sequence; a session being deleted takes none. [DESIGN CHOICE: log 81] -/
def bfdMod (arg : Nat) (d : Dev) : Nat × Nat × Dev :=
  let a := argField arg bfdModW
  match sess (a 0) d with
  | none => (Err.BAD_ARG, 0, d)
  | some x =>
    if x.deleting ∨ bfdArgBad (a 1) (a 3) (a 4) (a 5) (a 6) d then (Err.BAD_ARG, 0, d)
    else
      let det := if x.st = 3 then max x.detRx (a 6) else a 6
      (0, 0, setSess (a 0) { x with auth := a 1, keyId := a 2, key := if a 1 = 0 then none else bfdKey (a 3) d, mult := a 4,
                                    txUs := a 5, rxUs := a 6, detRx := det, poll := true,
                                    curTx := if x.st = 3 then min x.curTx (a 5) else a 5 } d)
/-- BFD_DEL: AdminDown is sent for MULT intervals. -/
def bfdDel (arg : Nat) (d : Dev) : Nat × Nat × Dev :=
  let i := argField arg [15] 0
  match sess i d with
  | none => (Err.BAD_ARG, 0, d)
  | some x => (0, 0, if x.deleting then d else bfdState i { x with deleting := true, delAt := d.mono, lastTx := none } 0 7 d)
/-- MULT transmit intervals after BFD_DEL the session and its slot are freed; before that the row does nothing. [DESIGN CHOICE: log 81] -/
def bfdDelFinish (i : Nat) (d : Dev) : Dev :=
  match sess i d with
  | some x => if x.deleting ∧ x.delAt + x.mult * x.soonest ≤ d.mono then setWheel (del d.svc.wheel x.slot) (onSvc (fun s => { s with sess := del s.sess i }) d) else d
  | none => d
/-- BFD_READ. -/
def bfdRead (arg : Nat) (d : Dev) : Nat × Nat × Dev :=
  match sess (argField arg [15] 0) d with
  | none => (Err.BAD_ARG, 0, d)
  | some x => (0, packData [(x.st, 2), (x.diag, 5), (x.rDisc, 32), (x.rTx, 22), (x.rRx, 22), (x.rxPkts, 32), (x.txPkts, 32)], d)
/-- ND_ADD. -/
def ndAdd (arg : Nat) (d : Dev) : Nat × Nat × Dev :=
  let a := argField arg ndAddW
  if has d.svc.nd (a 0) then (Err.BAD_ARG, 0, d)
  else
    let e : NdEnt := { v6 := a 1 == 1, ovr := a 2 == 1, ingPort := a 3, mac := a 4, addr := if a 1 = 1 then a 5 else a 5 % 2 ^ 32 }
    (0, 0, onSvc (fun s => { s with nd := ins s.nd (a 0) e }) d)
/-- ND_DEL. -/
def ndDel (arg : Nat) (d : Dev) : Nat × Nat × Dev :=
  let i := argField arg [14] 0
  if has d.svc.nd i then (0, 0, onSvc (fun s => { s with nd := del s.nd i }) d) else (Err.BAD_ARG, 0, d)
/-- IPFIX_CFG: with EN 1, export starts with the templates. -/
def ipfixCfg (arg : Nat) (d : Dev) : Nat × Nat × Dev :=
  let a := argField arg ipfixW
  if a 7 < 512 ∨ 1500 < a 7 then (Err.BAD_ARG, 0, d)
  else
    let v6 := a 1 == 1
    let c : IpfixCfg :=
      { en := a 0 == 1, v6 := v6, domain := a 2, sampling := a 3, activeS := a 4, idleS := a 5, templateS := a 6, mtu := a 7, nh := a 8,
        sport := a 9, dport := a 10, src := if v6 then a 11 else a 11 % 2 ^ 32, dst := if v6 then a 12 else a 12 % 2 ^ 32 }
    (0, 0, templatesOut (onSvc (fun s => { s with ipfix := c }) d))
/-- IPFIX_FLUSH: export and empty the cache. -/
def ipfixFlush (d : Dev) : Nat × Nat × Dev :=
  let n := d.svc.flows.length
  (0, packData [(n, 21)], (keys d.svc.flows).foldl (fun d k => exportOut k d) d)
/-- Execute a mailbox command: STATUS, DATA and the device. -/
def mboxRun (op arg : Nat) (d : Dev) : Nat × Nat × Dev :=
  match op with
  | 0x01 => bfdAdd arg d
  | 0x02 => bfdMod arg d
  | 0x03 => bfdDel arg d
  | 0x04 => bfdRead arg d
  | 0x10 => ndAdd arg d
  | 0x11 => ndDel arg d
  | 0x20 => ipfixCfg arg d
  | 0x21 => ipfixFlush d
  | _ => (Err.BAD_ARG, 0, d)
/-- Serve a mailbox command: the result, and GO back to 0. [DESIGN CHOICE: log 81] -/
def mboxServe (img : Nat) (d : Dev) : Dev :=
  let (c, data, d) := if fwRun d = 0 then (Err.NOT_READY, 0, d) else mboxRun (SVC_MBOX_CMD.OP.of img) (SVC_MBOX_CMD.ARG.of img) d
  let d := rset SVC_MBOX_CMD.GO 0 0 0 (rset SVC_MBOX_RES.DATA 0 0 data (rset SVC_MBOX_RES.STATUS 0 0 c d))
  if c = 0 then d else errAt c .SVC_MBOX_CMD 0 0 d
/-- SVC_MBOX_CMD: a command is held during a switch-over (R230, R409); a GO on a held command is refused (R582), and a write with
GO 0 only stores its fields. [DESIGN CHOICE: log 5] -/
def mboxWrite (img : Nat) (d : Dev) : Dev :=
  if flag SVC_MBOX_CMD.GO 0 0 d && SVC_MBOX_CMD.GO.on img then errAt Err.BAD_ARG .SVC_MBOX_CMD 0 0 d
  else
    let d := storeFields false .SVC_MBOX_CMD 0 0 img d
    if !SVC_MBOX_CMD.GO.on img then d
    else if flag SVC_FW_STAT.SWITCHING 0 0 d then rset SVC_MBOX_CMD.GO 0 0 1 (onSvc (fun s => { s with held := some img }) d)
    else mboxServe img d
/-- A held command is served once the switch-over has ended. -/
def mboxResume (d : Dev) : Dev :=
  match d.svc.held with
  | none => d
  | some img => mboxServe img (onSvc (fun s => { s with held := none }) d)

/-! Firmware slots (R230, R412, R494, R502). -/

/-- STATE of slot s. -/
def slotField (s : Nat) : Fld := if s = 0 then SVC_FW_STAT.STATE_A else SVC_FW_STAT.STATE_B
/-- Set the owner of a slot's four regions. -/
def slotGrant (s owner : Nat) (d : Dev) : Dev := [0, 1, 2, 3].foldl (fun d k => rset MEM_GRANTr.OWNER 0 (64 + 4 * s + k) owner d) d
/-- The bytes of a slot's image by offset. -/
def slotImage (s : Nat) (d : Dev) : List (Nat × Nat) :=
  let l := d.banks.service.filter fun e => decide (s * 2 ^ 20 ≤ e.1 ∧ e.1 < (s + 1) * 2 ^ 20)
  l.map fun e => (e.1 - s * 2 ^ 20, e.2)
/-- VERIFY: an image that is loaded and signed becomes VERIFIED; else FW_SIG and FAILED. [DESIGN CHOICE: log 80] -/
def fwVerify (s : Nat) (d : Dev) : Dev :=
  if fwRun d = s + 1 then errAt 0x21 .SVC_FW_CMD 0 0 d
  else if rget (slotField s) 0 0 d ≠ 0 ∧ Config.fwSigned (slotImage s d) (look d.vlt.slots 0 []) then rset (slotField s) 0 0 2 d
  else errAt 0x20 .SVC_FW_CMD 0 0 (rset (slotField s) 0 0 3 d)
/-- START: the slot's regions become SVC's; with another image running a switch-over begins. -/
def fwStart (s : Nat) (d : Dev) : Dev :=
  if fwRun d = s + 1 ∨ flag SVC_FW_STAT.SWITCHING 0 0 d then errAt 0x21 .SVC_FW_CMD 0 0 d
  else if rget (slotField s) 0 0 d ≠ 2 then errAt Err.NOT_READY .SVC_FW_CMD 0 0 d
  else if [0, 1, 2, 3].any (fun k => let o := rget MEM_GRANTr.OWNER 0 (64 + 4 * s + k) d; o == 1 || o == 2) then errAt 0x22 .SVC_FW_CMD 0 0 d
  else
    let d := onSvc (fun x => { x with switchAt := d.mono }) (hwdLog 10 0 0 0 s (slotGrant s 2 d))
    if fwRun d = 0 then
      let (v, d) := draw d
      onSvc (fun x => { x with starting := true }) (rset SVC_FW_STAT.VERSION 0 0 v (rset SVC_FW_STAT.RUN 0 0 (s + 1) d))
    else rset SVC_FW_STAT.SWITCHING 0 0 1 (onSvc (fun x => { x with starting := true, old := some (fwRun d - 1) }) d)
/-- SVC_FW_CMD. -/
def fwCmdWrite (img : Nat) (d : Dev) : Dev :=
  let d := storeFields false .SVC_FW_CMD 0 0 img d
  if !SVC_FW_CMD.GO.on img then d
  else if SVC_FW_CMD.OP.on img then fwStart (SVC_FW_CMD.SLOT.of img) d else fwVerify (SVC_FW_CMD.SLOT.of img) d
/-- The new image takes over state, rings and mailboxes (R230). -/
def fwTakeover (d : Dev) : Dev :=
  match d.svc.old with
  | some o =>
    if flag SVC_FW_STAT.SWITCHING 0 0 d && fwRun d == o + 1 then
      let (v, d) := draw d
      rset SVC_FW_STAT.VERSION 0 0 v (rset SVC_FW_STAT.RUN 0 0 (2 - o) d)
    else d
  | none => d
/-- The started image reports ready: a switch-over ends with the old slot's regions given to HOST (R230, R494). [DESIGN CHOICE: log 80] -/
def fwReady (d : Dev) : Dev :=
  if !d.svc.starting then d
  else
    match d.svc.old with
    | none => fire Pg.SVC 3 (ringFw 1 (onSvc (fun x => { x with starting := false }) d))
    | some o =>
      let d := fwTakeover d
      let d := slotGrant o 3 (rset SVC_FW_STAT.SWITCHING 0 0 0 (onSvc (fun x => { x with starting := false, old := none }) d))
      mboxResume (fire Pg.SVC 3 (ringFw 1 d))
/-- An image not ready within 100 ms: the cluster returns to the old one with its state (R230); before that the row does nothing. -/
def fwTimeout (d : Dev) : Dev :=
  match d.svc.old with
  | none => d
  | some o =>
    if d.mono < d.svc.switchAt + 100000000 then d else
    let (v, d) := if fwRun d = o + 1 then (rget SVC_FW_STAT.VERSION 0 0 d, d) else draw d
    let d := rset SVC_FW_STAT.VERSION 0 0 v (rset SVC_FW_STAT.RUN 0 0 (o + 1) d)
    let d := slotGrant (1 - o) 3 (rset SVC_FW_STAT.SWITCHING 0 0 0 (onSvc (fun x => { x with starting := false, old := none }) d))
    mboxResume (fire Pg.SVC 2 (ringFw 2 d))

/-- A wipe takes the keys of authenticated sessions (R508). -/
def bfdWipe (d : Dev) : Dev := onSvc (fun s => { s with sess := s.sess.map fun e => (e.1, { e.2 with key := none }) }) d

end Sys2Proof.Machine
end

