-- ==== Sys2Proof/Machine/MemVault.lean ====
section
/-! DEFINITION. Scratch, service and vault memory banks (18_memory_banks.md, R490 to R513): grants, retention, the background
test, the vault and the lifecycle. -/

namespace Sys2Proof.Machine

/-! Regions (R490 to R496). -/

/-- OWNER of region r: 0 NONE, 1 ENGINES, 2 SVC, 3 HOST. -/
def regionOwner (r : Nat) (d : Dev) : Nat := rget MEM_GRANTr.OWNER 0 r d
/-- The refusal of a grant write, or 0 (R491 to R494, R500). [DESIGN CHOICE: log 37] -/
def grantCheck (req : Requester) (r img : Nat) (d : Dev) : Nat :=
  let o := MEM_GRANTr.OWNER.of img
  let cur := regionOwner r d
  if 3 < o ∨ (o = 1 ∧ 64 ≤ r) ∨ (o = 2 ∧ r < 64) then Err.BAD_ARG
  else if 64 ≤ r ∧ fwRun d ≠ 0 ∧ req ≠ .service then Err.NOT_OWNER
  else if flag MEM_GRANTr.TESTING 0 r d then 0x21
  else if MEM_GRANTr.EXPECT.of img ≠ cur then Err.OWNER_BUSY
  else if r < 64 ∧ cur = 1 ∧ o ≠ 1 ∧ (blkEn (Pg.ENG + r) d ∨ busyOf (Pg.ENG + r) d) then 0x20
  else 0
/-- MEM_GRANTr: a compare-and-set; busy tells that accesses of the old owner are still in flight, of which NONE has no (R492). [DESIGN CHOICE: log 98] -/
def grantWrite (req : Requester) (r img : Nat) (busy : Bool) (d : Dev) : Dev :=
  let c := grantCheck req r img d
  if c ≠ 0 then errAt c .MEM_GRANTr 0 r (inc Pg.MEM 1 d)
  else
    let old := regionOwner r d
    let d := rset MEM_GRANTr.CORE 0 r (MEM_GRANTr.CORE.of img) (rset MEM_GRANTr.OWNER 0 r (MEM_GRANTr.OWNER.of img) d)
    rset MEM_GRANTr.PENDING 0 r (b2n (busy && old != 0 && old != MEM_GRANTr.OWNER.of img)) (inc Pg.MEM 0 d)
/-- The old owner's accesses have ended. [DESIGN CHOICE: log 98] -/
def grantDone (r : Nat) (d : Dev) : Dev := rset MEM_GRANTr.PENDING 0 r 0 d
/-- Whether table DMA or software may reach region r: not while NONE owns it, nor SVC outside a firmware slot (R495). -/
def hostMay (r : Nat) (d : Dev) : Bool :=
  let o := regionOwner r d
  if 64 ≤ r && r < 72 then o == 3 else o == 1 || o == 3

/-! Retention (R24, R25, R497, R498). -/

/-- The page that owns a region's banks (R497). -/
def ownerPage (r : Nat) (d : Dev) : Nat := if r < 64 ∧ regionOwner r d ≠ 3 then Pg.ENG + r else Pg.SVC
/-- FP_CTRL.LOWPWR_ALLOW that governs page p. -/
def lowpwr (p : Nat) (d : Dev) : Bool := (face (governor p) d).lowpwr
/-- Whether bank b of a place may enter retention: of a region that NONE owns, or whose owner's page allows it while the bank has
had no access for RET_IDLE_US (R497); of another page that allows it (R24); never of the vault. [DEDUCED: log 100] -/
def mayRetain (k b : Nat) (d : Dev) : Bool :=
  if k < 88 then
    regionOwner k d == 0 ||
      lowpwr (ownerPage k d) d && decide (look d.banks.used (16 * k + b) 0 + rget MEM_CFG.RET_IDLE_US 0 0 d * 1000 ≤ d.mono)
  else k != 256 + Pg.VLT && lowpwr (k - 256) d
/-- An idle or unowned bank enters retention. [DEDUCED: log 100] -/
def bankRetain (k b : Nat) (d : Dev) : Dev := if mayRetain k b d then setRetained k (setBit (retainedAt k d) b) d else d
/-- An access wakes a bank; one by software or DMA to a region records RETENTION_WAKE (R498). [DEDUCED: log 100] -/
def bankWake (k b : Nat) (byHost : Bool) (d : Dev) : Dev :=
  if !bit (retainedAt k d) b then bankAwake k b d
  else
    let d := bankAwake k b d
    if byHost && decide (k < 88) then errAt Err.RETENTION_WAKE .MEM_GRANTr 0 k (inc Pg.MEM 2 d) else d
/-- A table DMA or software access to the bytes from o of region r on, n of them, wakes the retained banks of its words: word w
lies in bank w mod 16 (R490, R497, R498). [DEDUCED: log 100] -/
def regionTouch (r o n : Nat) (d : Dev) : Dev :=
  let first := o / 8
  let words := if n = 0 then 0 else (o + n - 1) / 8 + 1 - first
  (List.range (min words 16)).foldl (fun d i => bankWake r ((first + i) % 16) true d) d
/-- FP_STAT.IN_RETENTION of page p (R498). -/
def inRetention (p : Nat) (d : Dev) : Bool :=
  retainedAt (256 + p) d != 0 || d.banks.retained.any fun e => decide (e.1 < 88) && (p == Pg.MEM || ownerPage e.1 d == p)
/-- MEM_CFG: RET_IDLE_US 1 to 65,535. -/
def memCfgWrite (img : Nat) (d : Dev) : Dev :=
  if MEM_CFG.RET_IDLE_US.of img = 0 then errAt Err.BAD_ARG .MEM_CFG 0 0 d else rset MEM_CFG.RET_IDLE_US 0 0 (MEM_CFG.RET_IDLE_US.of img) d

/-! The background test (R499 to R501). -/

/-- Set or clear TESTING over a range. -/
def testing (first n v : Nat) (d : Dev) : Dev := (List.range n).foldl (fun d i => rset MEM_GRANTr.TESTING 0 (first + i) v d) d
/-- MEM_TEST_CTRL. -/
def memTestWrite (img : Nat) (d : Dev) : Dev :=
  if !MEM_TEST_CTRL.GO.on img then storeFields false .MEM_TEST_CTRL 0 0 img d
  else if rget MEM_TEST_STAT.STATE 0 0 d = 1 then errAt 0x21 .MEM_TEST_CTRL 0 0 d
  else
    let first := MEM_TEST_CTRL.FIRST.of img
    let n := MEM_TEST_CTRL.COUNT_M1.of img + 1
    let d := storeFields false .MEM_TEST_CTRL 0 0 img d
    if 88 < first + n ∨ (first < 64 ∧ 64 < first + n) then errAt Err.BAD_ARG .MEM_TEST_CTRL 0 0 d
    else
      let d := loadImg .MEM_TEST_ERR 0 0 0 (rset MEM_TEST_STAT.CHUNKS 0 0 0 (rset MEM_TEST_STAT.STATE 0 0 1 (rset MEM_TEST_CTRL.GO 0 0 1 d)))
      { testing first n 1 d with banks := { d.banks with testFirst := first, testCount := n } }
/-- The test ends with the failing bits it counted and the first failing word: region and word (R501). -/
def memTestDone (fails : Nat) (at_ : Option (Nat × Nat)) (d : Dev) : Dev :=
  if rget MEM_TEST_STAT.STATE 0 0 d ≠ 1 then d
  else
    let n := d.banks.testCount
    let d := rset MEM_TEST_CTRL.GO 0 0 0 (testing d.banks.testFirst n 0 d)
    let d := rset MEM_TEST_STAT.CHUNKS 0 0 (256 * n) (rset MEM_TEST_STAT.STATE 0 0 (if fails = 0 then 2 else 3) d)
    let d := match at_ with
      | some (r, w) => if fails = 0 then d else rset MEM_TEST_ERR.REGION 0 0 r (rset MEM_TEST_ERR.WORD 0 0 w d)
      | none => d
    let d := rset MEM_TEST_ERR.FAILS 0 0 (min fails (2 ^ 32 - 1)) (incBy Pg.MEM 4 fails (incBy Pg.MEM 3 (256 * n) d))
    let d := fire Pg.MEM 0 d
    if fails = 0 then d else fire Pg.MEM 1 d

/-! The vault (R502 to R509). -/

/-- Change the vault. -/
def onVlt (f : Vault → Vault) (d : Dev) : Dev := { d with vlt := f d.vlt }
/-- Set the vault's slots; USED follows, slot 0 aside. -/
def setSlots (t : Tbl Bytes) (d : Dev) : Dev := rset VLT_STAT.USED 0 0 (t.filter fun e => e.1 != 0).length (onVlt (fun v => { v with slots := t }) d)
/-- Whether a 64-byte object obeys R503. -/
def objectOk (o : Bytes) : Bool :=
  let len := byteAt o 1
  let lenOk := match byteAt o 0 with | 1 => len == 32 | 2 => len == 44 | 3 => decide (1 ≤ len ∧ len ≤ 20) | _ => false
  o.length == 64 && lenOk && byteAt o 2 == 0 && byteAt o 3 == 0 && (o.drop (4 + len)).all (· == 0)
/-- A vault command ends: RES, GO, the error and CMD_DONE. -/
def vltDone (c type handle : Nat) (d : Dev) : Dev :=
  let d := rset VLT_RES.STATUS 0 0 c (rset VLT_RES.TYPE 0 0 type (rset VLT_RES.HANDLE 0 0 handle (rset VLT_CMD.GO 0 0 0 d)))
  fire Pg.VLT 0 (if c = 0 then d else errAt c .VLT_CMD 0 0 d)
/-- An IMPORT is refused. -/
def importFail (c : Nat) (d : Dev) : Dev := vltDone c 0 0 (inc Pg.VLT 1 (onVlt (fun v => { v with importing := none }) d))
/-- Why an IMPORT of a format is refused whatever it reads, or 0 (R504, R507, R509). -/
def importBar (wrapped : Bool) (d : Dev) : Nat :=
  let lc := rget VLT_STAT.LC 0 0 d
  if flag VLT_STAT.TAMPER 0 0 d then 0x23 else if lc = 3 ∨ (lc = 2 ∧ !wrapped) then 0x22 else 0
/-- VLT_CMD. -/
def vltCmdWrite (img : Nat) (d : Dev) : Dev :=
  if flag VLT_CMD.GO 0 0 d then (if VLT_CMD.GO.on img then errAt Err.BAD_ARG .VLT_CMD 0 0 d else storeFields false .VLT_CMD 0 0 img d)
  else
    let d := storeFields false .VLT_CMD 0 0 img d
    let h := VLT_CMD.HANDLE.of img
    if !VLT_CMD.GO.on img then d
    else match VLT_CMD.OP.of img with
      | 0 =>
        let w := VLT_CMD.FORMAT.on img
        let c := importBar w d
        if c ≠ 0 then importFail c d else rset VLT_CMD.GO 0 0 1 (onVlt (fun v => { v with importing := some w }) d)
      | 1 => if h = 0 ∨ !has d.vlt.slots h then vltDone Err.BAD_ARG 0 0 d else vltDone 0 0 0 (inc Pg.VLT 2 (setSlots (del d.vlt.slots h) d))
      | 2 => if h = 0 then vltDone Err.BAD_ARG 0 0 d else vltDone 0 (byteAt (look d.vlt.slots h []) 0) 0 d
      | _ => vltDone Err.BAD_ARG 0 0 d
/-- The read of an IMPORT completes with the bytes at VLT_ADDR (R504). [DESIGN CHOICE: log 99] -/
def importDone (bs : Bytes) (d : Dev) : Dev :=
  match d.vlt.importing with
  | none => d
  | some w =>
    if !dmaOn d then d
    else
      let c := importBar w d
      if c ≠ 0 then importFail c d
      else
        match (if w then Config.unwrap (bs.take 72) else some (bs.take 64)) with
        | none => importFail 0x20 d
        | some o =>
          if !objectOk o then importFail 0x21 d
          else
            match lowestFree d.vlt.slots 1 32767 with
            | none => importFail Err.RESOURCE_FULL d
            | some h => vltDone 0 (byteAt o 0) h (inc Pg.VLT 0 (onVlt (fun v => { v with importing := none }) (setSlots (ins d.vlt.slots h o) d)))
/-- A wipe (R508): every slot zeroed and slot 0 reloaded, the port keys and session keys erased, an IMPORT abandoned. -/
def vaultWipe (code : Nat) (d : Dev) : Dev :=
  let d := if d.vlt.importing.isSome then importFail code d else d
  let d := setSlots [(0, d.vlt.digest)] d
  fire Pg.VLT 1 (inc Pg.VLT 3 (bfdWipe (saWipe d)))
/-- Whether the lifecycle may go from one state to another (R507). -/
def lcLegal (a b : Nat) : Bool := (a == 0 && (b == 1 || b == 2)) || (a == 1 && b == 2) || (decide (a < 3) && b == 3)
/-- VLT_LC: writable only under EXPERT (R4); with the key it blows the fuses, wipes the vault and logs LIFECYCLE (R507). [DEDUCED: log 97] -/
def lcWrite (expert : Bool) (img : Nat) (d : Dev) : Dev :=
  if !expert then errAt Err.EXPERT_LOCKED .VLT_LC 0 0 d
  else
    let d := rset VLT_LC.TARGET 0 0 (VLT_LC.TARGET.of img) d
    let t := VLT_LC.TARGET.of img
    if !VLT_LC.GO.on img then d
    else if VLT_LC.KEY.of img ≠ 0x4C43 then errAt Err.BAD_ARG .VLT_LC 0 0 d
    else if !lcLegal (rget VLT_STAT.LC 0 0 d) t then errAt 0x24 .VLT_LC 0 0 d
    else
      let d := rset VLT_STAT.LC 0 0 t { d with sys := { d.sys with lc := t } }
      hwdLog 7 0 0 0 t (vaultWipe 0x22 d)
/-- TAMPER_N asserts past the glitch filter (R511, R546). -/
def tamperAssert (d : Dev) : Dev :=
  if d.sys.tamperPin then d
  else
    fire Pg.VLT 2 (inc Pg.VLT 4 (rset VLT_STAT.TAMPER 0 0 1
      { d with sys := { d.sys with tamperPin := true, tamperAt := d.hwd.aonNs, tamperDone := false } }))
/-- TAMPER_N has been held for 1 µs: one wipe for the assertion (R508, R509); before that the row does nothing. -/
def tamperWipe (d : Dev) : Dev :=
  if !d.sys.tamperPin || d.sys.tamperDone || decide (d.hwd.aonNs < d.sys.tamperAt + 1000) then d
  else
    hwdLog 6 0 0 0 0 (onTot (fun t => { t with tampers := t.tampers + 1 })
      (vaultWipe 0x23 { d with sys := { d.sys with tamperDone := true } }))
/-- TAMPER_N is released. -/
def tamperRelease (d : Dev) : Dev := rset VLT_STAT.TAMPER 0 0 0 { d with sys := { d.sys with tamperPin := false } }

end Sys2Proof.Machine
end

