-- ==== Sys2Proof/Machine/EvtAon.lean ====
section
/-! DEFINITION. The event controller and the always-on watcher (16_events.md, R446 to R464, R581): vector delivery, group
service, queries, MSI-X table, watch entries and wakes. -/

namespace Sys2Proof.Machine

/-- Change the event controller. -/
def onEvt (f : Evt → Evt) (d : Dev) : Dev := { d with evt := f d.evt }
/-- Change the always-on watcher. -/
def onAon (f : Aon → Aon) (d : Dev) : Dev := { d with aon := f d.aon }
/-- A requester as a number, in the same-cycle order of R51. -/
def reqIndex : Requester → Nat
  | .spindle => 0
  | .service => 1
  | .pcie => 2
  | .dma k => 3 + k.val
  | .i3c => 19
/-- Whether the function is in D0 with Bus Master Enable 1 (R453). -/
def hostAwake (d : Dev) : Bool := flag HIF_LINK.BME 0 0 d && rget HIF_LINK.DSTATE 0 0 d == 0

/-! Vectors (R452 to R455, R460). -/

/-- Whether a requested vector is sendable (R453). -/
def sendable (v : Nat) (d : Dev) : Bool := d.evt.msixEn && !d.evt.fmask && !bit d.evt.vmask v && hostAwake d
/-- Whether only its mask bit or Function Mask holds a vector. -/
def heldByMask (v : Nat) (d : Dev) : Bool := d.evt.msixEn && hostAwake d && (d.evt.fmask || bit d.evt.vmask v)
/-- The vectors requested. -/
def requested (d : Dev) : Nat := (bitsOf 64 d.evt.req).foldl (fun m g => setBit m (grpVector g d)) d.evt.cqWait
/-- Show why a requested vector does not leave: its PBA bit or its held bit (R453). -/
def holdVec (d : Dev) (v : Nat) : Dev :=
  if sendable v d then d
  else if heldByMask v d then
    let d := if bit d.evt.pba v then d else inc Pg.EVT 1 d
    onEvt (fun e => { e with pba := setBit e.pba v, held := clrBit e.held v }) d
  else
    let d := if bit d.evt.held v then d else inc Pg.EVT 2 d
    onEvt (fun e => { e with held := setBit e.held v, pba := clrBit e.pba v }) d
/-- The first set bit of m after position p, going round 512. -/
def nextVec (m p : Nat) : Option Nat := ((List.range 512).map fun i => (p + 1 + i) % 512).find? (bit m ·)
/-- A deadline of vector v clears as its message leaves; one met in the same AON cycle is beaten by delivery (R458, R460). -/
def clearDeadlines (v : Nat) (d : Dev) : Dev :=
  (List.range 64).foldl (fun d k =>
    if flag AON_WATCHk.EN 0 k d && rget AON_WATCHk.VECTOR 0 k d == v then
      match find? d.aon.deadline k with
      | some t =>
        let d := if t = aonRound d.hwd.aonNs then inc Pg.AON 3 d else d
        onAon (fun a => { a with deadline := del a.deadline k }) d
      | none => d
    else d) d
/-- Vector v's message leaves: every request for it is served and its groups turn ACTIVE (R449, R452). -/
def vecSend (v : Nat) (d : Dev) : Dev :=
  let word (i : Nat) : Nat := look d.evt.msixTbl (4 * v + i) 0
  let d := emit (.msix v (word 1 * 2 ^ 32 + word 0) (word 2)) (inc Pg.EVT 0 d)
  let gs := (bitsOf 64 d.evt.req).filter fun g => grpVector g d == v
  let d := gs.foldl (fun d g => onEvt (fun e =>
    { e with req := clrBit e.req g, active := setBit e.active g,
             gap := if rget EVT_GRPg_CFG.GAP_US 0 g d = 0 then e.gap else setBit e.gap g, gapAt := ins e.gapAt g d.mono }) d) d
  let d := onEvt (fun e => { e with cqWait := clrBit e.cqWait v, pba := clrBit e.pba v, held := clrBit e.held v, lastVec := v }) d
  let d := clearDeadlines v d
  if d.aon.wakeVec = some v then onAon (fun a => { a with wakeN := a.pmeStatus && a.wakeN && flag AON_CFG.WAKE_PIN 0 0 d, wakeVec := none }) d else d
/-- One host-island cycle's delivery decision (R453); a link in L1 must leave it first (R459). -/
def msixDecide (d : Dev) : Dev :=
  let want := requested d
  let d := (bitsOf 512 want).foldl holdVec d
  let ready := (bitsOf 512 want).filter fun v => sendable v d
  let d := if 1 < ready.length then overrun Pg.EVT d else d
  if flag HIF_LINK.LP 0 0 d ∨ rget HIF_LINK.SPEED 0 0 d = 0 then d
  else
    match nextVec (ready.foldl setBit 0) d.evt.lastVec with
    | some v => vecSend v d
    | none => d
/-- MSIX_DELIVER: in each host-island cycle delivery is decided once (R453); a second row in a cycle does nothing. -/
def msixDeliver (d : Dev) : Dev :=
  if d.evt.decided = some d.hwd.aonNs then d else msixDecide (onEvt (fun e => { e with decided := some d.hwd.aonNs }) d)
/-- A CQ notification for vector v (R427, R452). -/
def notify (v : Nat) (d : Dev) : Dev := inc Pg.HIF 5 (onEvt (fun e => { e with cqWait := setBit e.cqWait v }) d)

/-! Groups (R449 to R451, R456, R457). -/

/-- A group's gap elapses: GAP_US after its message left (R449); before that the row does nothing. -/
def gapExpire (g : Nat) (d : Dev) : Dev :=
  if d.mono < look d.evt.gapAt g 0 + rget EVT_GRPg_CFG.GAP_US 0 g d * 1000 then d
  else evtUpdate (onEvt (fun e => { e with gap := clrBit e.gap g }) d)
/-- EVT_EOI: an ACTIVE group turns IDLE and, still raised, requests again once its gap has elapsed (R449 to R451). -/
def eoiWrite (img : Nat) (d : Dev) : Dev :=
  let g := EVT_EOI.GROUP.of img
  let d := inc Pg.EVT 6 d
  if !bit d.evt.active g then d
  else
    let d := onEvt (fun e => { e with active := clrBit e.active g }) d
    evtUpdate (if bit (raisedGroups d) g then inc Pg.EVT 3 d else d)
/-- EVT_GRPg_CFG: MSIX 0 returns the group to IDLE and withdraws its request (R449). -/
def grpCfgWrite (g img : Nat) (d : Dev) : Dev :=
  let old := grpVector g d
  let had := bit d.evt.req g
  let msix := EVT_GRPg_CFG.MSIX.on img
  let moved := had && (!msix || EVT_GRPg_CFG.VECTOR.of img != old)
  let d := storeFields false .EVT_GRPg_CFG 0 g img d
  let d := if moved then vecWithdraw old (onEvt (fun e => { e with req := clrBit e.req g }) d) else d
  evtUpdate (if msix then d else onEvt (fun e => { e with active := clrBit e.active g }) d)
/-- A group still raised raises its in-band interrupt again every 1 ms (R456); before that the row does nothing. -/
def groupRepeat (g : Nat) (d : Dev) : Dev :=
  if bit (raisedGroups d) g && flag EVT_GRPg_CFG.I3C 0 g d && decide (look d.evt.i3cAt g 0 + 1000000 ≤ d.mono) then
    ibiRaise [0x00, g] (inc Pg.EVT 4 (onEvt (fun e => { e with i3cAt := ins e.i3cAt g d.mono }) d))
  else d
/-- EVT_ALERT: only under the held owner of ALERT_N (R457). -/
def alertWrite (img : Nat) (d : Dev) : Dev :=
  let o := (face Pg.EVT d).owner
  if o = 0 ∨ EVT_ALERT.OWNER_ID.of img ≠ o then errAt Err.NOT_OWNER .EVT_ALERT 0 0 d else evtUpdate (storeFields false .EVT_ALERT 0 0 img d)
/-- EVT_QUERY written: the requester's cursor stands at the start of a group. -/
def queryWrite (req : Requester) (img : Nat) (d : Dev) : Dev :=
  onEvt (fun e => { e with cursors := put e.cursors (reqIndex req) (0, 0) (EVT_QUERY.GROUP.of img, 0) }) d
/-- EVT_QUERY read: the next raised page of the group in ascending order, and the cursor moves past it. -/
def queryRead (req : Requester) (d : Dev) : Nat × Dev :=
  let (g, c) := look d.evt.cursors (reqIndex req) (0, 0)
  match allPages.find? fun p => decide (c ≤ p) && (face p d).vgroup == g && pageRaised p d with
  | some p => (2 ^ 31 + p % 2 ^ 12 * 2 ^ 16 + g, onEvt (fun e => { e with cursors := put e.cursors (reqIndex req) (0, 0) (g, p + 1) }) d)
  | none => (g, d)
/-- An EVENT record: the EVT learns a TM-die page's pending bits (R446). -/
def eventTake (p v : Nat) (d : Dev) : Dev := if onTmDie p then evtUpdate (onEvt (fun e => { e with tmPend := put e.tmPend p 0 v }) d) else d
/-- An EVENT record with the pending bits as they stand. -/
def eventRecord (p : Nat) (d : Dev) : Dev := eventTake p (face p d).pend d

/-! The MSI-X table and the host's controls (R453, R454). -/

/-- A write of MSI-X table word o: the control word's bit 0 is the vector's mask. -/
def msixTblWrite (o v : Nat) (d : Dev) : Dev :=
  if o % 4 = 3 then onEvt (fun e => { e with vmask := if v % 2 = 1 then setBit e.vmask (o / 4) else clrBit e.vmask (o / 4) }) d
  else onEvt (fun e => { e with msixTbl := put e.msixTbl o 0 v }) d
/-- MSI-X table word o. -/
def msixTblRead (o : Nat) (d : Dev) : Nat := if o % 4 = 3 then b2n (bit d.evt.vmask (o / 4)) else look d.evt.msixTbl o 0
/-- What the host writes in configuration space: Function Mask or MSI-X Enable. A vector's mask is a word of the MSI-X table. -/
def maskWrite (what : MaskBit) (on : Bool) (d : Dev) : Dev :=
  match what with
  | .vector v => msixTblWrite (4 * v.val + 3) (b2n on) d
  | .function => onEvt (fun e => { e with fmask := on }) d
  | .enable => onEvt (fun e => { e with msixEn := on }) d

/-! The always-on watcher (R458 to R461). -/

/-- AON_WATCHk: two enabled entries never name one vector; an entry enabled while its vector is requested has its deadline
at once, and one whose CQ holds unannounced entries has theirs. -/
def watchWrite (k img : Nat) (d : Dev) : Dev :=
  let v := AON_WATCHk.VECTOR.of img
  let en := AON_WATCHk.EN.on img
  if en ∧ (List.range 64).any (fun j => j != k && flag AON_WATCHk.EN 0 j d && rget AON_WATCHk.VECTOR 0 j d == v) then
    errAt Err.BAD_ARG .AON_WATCHk 0 k d
  else
    let d := onAon (fun a => { a with deadline := del a.deadline k }) (storeFields false .AON_WATCHk 0 k img d)
    if !en then d
    else
      let d := if vecRequested v d then aonWatch v d.hwd.aonNs d else d
      (List.range 144).foldl (fun d n =>
        if flag HIF_CQn_CFG.EN 0 n d && rget HIF_CQn_CFG.VECTOR 0 n d == v && rget HIF_CQn_STAT.UNANN 0 n d != 0 then
          aonWatch v (d.hwd.aonNs + (look d.hif.cqs n {}).first + 1000 * rget HIF_CQn_MOD.MAX_US 0 n d - d.mono) d
        else d) d
/-- Note the watch entry of a wake. [DEDUCED: log 89] -/
def wakeLog (k : Nat) (d : Dev) : Dev := inc Pg.AON 0 (rset AON_STAT.LAST_VALID 0 0 1 (rset AON_STAT.LAST_ENTRY 0 0 k d))
/-- PM_PME leaves once the link is in L0. -/
def pmeSend (d : Dev) : Dev :=
  if flag HIF_LINK.LP 0 0 d ∨ rget HIF_LINK.SPEED 0 0 d = 0 then onAon (fun a => { a with pmeWait := true }) d
  else inc Pg.AON 1 (emit .pmPme (onAon (fun a => { a with pmeWait := false }) d))
/-- A gated host island restarts (R459). -/
def hostClockOn (d : Dev) : Dev := if rget CLK_ISLn.STATE 0 99 d = 3 then rset CLK_ISLn.STATE 0 99 2 d else d
/-- Entry k's deadline passes with its message not sent: the AON acts on the host's state (R459). [DEDUCED: log 89] -/
def aonDeadline (k : Nat) (d : Dev) : Dev :=
  match find? d.aon.deadline k with
  | none => d
  | some t =>
    if aonRound d.hwd.aonNs < t then d
    else
      let v := rget AON_WATCHk.VECTOR 0 k d
      let pin := flag AON_CFG.WAKE_PIN 0 0 d
      let d := onAon (fun a => { a with deadline := del a.deadline k }) d
      if rget HIF_LINK.DSTATE 0 0 d = 0 then
        if !flag HIF_LINK.BME 0 0 d || !d.evt.msixEn then d
        else if flag HIF_LINK.LP 0 0 d then
          onAon (fun a => { a with wakeN := a.wakeN || pin, wakeVec := some v }) (wakeLog k (hostClockOn d))
        else hostClockOn d
      else if d.aon.pmeEn then
        pmeSend (fire Pg.AON 0 (wakeLog k (onAon (fun a => { a with pmeStatus := true, wakeN := a.wakeN || pin }) d)))
      else fire Pg.AON 1 (inc Pg.AON 2 d)
/-- Software clears PME_Status; WAKE_N is released unless a message in L1 still holds it (R459). [DEDUCED: log 89] -/
def pmeClear (d : Dev) : Dev := onAon (fun a => { a with pmeStatus := false, pmeWait := false, wakeN := a.wakeN && a.wakeVec.isSome }) d
/-- The link enters L1 by ASPM. -/
def l1Entry (d : Dev) : Dev := if rget HIF_LINK.SPEED 0 0 d = 0 then d else rset HIF_LINK.LP 0 0 1 d
/-- The link reaches L0: a PM_PME that waits leaves. -/
def l1Exit (d : Dev) : Dev := let d := rset HIF_LINK.LP 0 0 0 d; if d.aon.pmeWait then pmeSend d else d
/-- Software's PME_En is part of the configuration space that DSTATE_CHANGE carries (R415, R459). -/
def dstateChange (d3 pmeEn : Bool) (d : Dev) : Dev :=
  let new := if d3 then 3 else 0
  let d := onAon (fun a => { a with pmeEn := pmeEn }) d
  if rget HIF_LINK.DSTATE 0 0 d = new then d else fire Pg.HIF 4 (rset HIF_LINK.DSTATE 0 0 new d)

end Sys2Proof.Machine
end

