-- ==== Sys2Proof/Machine/HostRings.lean ====
section
/-! DEFINITION. The host interface's rings and completion queues (15_host_interface.md, R415 to R428, R434, R435): ring and CQ
registers, moderation, punt and inject. -/

namespace Sys2Proof.Machine

/-! Rings (R420, R421). -/

/-- STATE of ring n: 0 DISABLED, 1 IDLE, 2 RUNNING, 3 HALTED. -/
def ringState (n : Nat) (d : Dev) : Nat := rget HIF_RINGn_STAT.STATE 0 n d
/-- Set STATE of ring n. -/
def setRing (n st : Nat) (d : Dev) : Dev := rset HIF_RINGn_STAT.STATE 0 n st d
/-- Entries of ring n. -/
def ringSize (n : Nat) (d : Dev) : Nat := 2 ^ rget HIF_RINGn_CFG.SIZE_LOG2 0 n d
/-- HEAD of ring n. -/
def ringHead (n : Nat) (d : Dev) : Nat := rget HIF_RINGn_HEAD.HEAD 0 n d
/-- The ring moves past k entries; with none left it is IDLE (R421). -/
def ringUse (n k : Nat) (d : Dev) : Dev :=
  let d := rset HIF_RINGn_HEAD.HEAD 0 n ((ringHead n d + k) % ringSize n d) d
  if ringState n d = 2 ∧ ringHead n d = rget HIF_RINGn_TAIL.TAIL 0 n d then setRing n 1 d else d
/-- HEAD, TAIL and the halt cause return to 0. -/
def ringZero (n : Nat) (d : Dev) : Dev :=
  rset HIF_RINGn_STAT.CODE 0 n 0 (rset HIF_RINGn_HEAD.HEAD 0 n 0 (rset HIF_RINGn_TAIL.TAIL 0 n 0 d))
/-- HIF_RINGn_BASE: refused with RING_EN while EN is 1. -/
def ringBaseWrite (n img : Nat) (d : Dev) : Dev :=
  if flag HIF_RINGn_CFG.EN 0 n d then errAt 0x20 .HIF_RINGn_BASE 0 n d else storeFields false .HIF_RINGn_BASE 0 n img d
/-- HIF_RINGn_CFG (R421). [DEDUCED: log 82] -/
def ringCfgWrite (n img : Nat) (d : Dev) : Dev :=
  let size := HIF_RINGn_CFG.SIZE_LOG2.of img
  let buf := HIF_RINGn_CFG.BUF_LOG2.of img
  let en := flag HIF_RINGn_CFG.EN 0 n d
  let new := HIF_RINGn_CFG.EN.on img
  let bad (c : Nat) : Dev := errAt c .HIF_RINGn_CFG 0 n d
  if size < 6 ∨ 16 < size ∨ (n < 64 ∧ (buf < 8 ∨ 14 < buf)) ∨ (128 ≤ n ∧ HIF_RINGn_CFG.WDOG_MS.of img = 0) then bad Err.BAD_ARG
  else if en ∧ (size ≠ rget HIF_RINGn_CFG.SIZE_LOG2 0 n d ∨ buf ≠ rget HIF_RINGn_CFG.BUF_LOG2 0 n d) then bad 0x20
  else if new ∧ !en ∧ !flag HIF_CQn_CFG.EN 0 n d then bad Err.BAD_ARG
  else
    let d := storeFields false .HIF_RINGn_CFG 0 n img d
    if new && !en then setRing n 1 (ringZero n d)
    else if !new && en then setRing n 0 (ringZero n (if n < 128 then d else { d with hif := { d.hif with prog := del d.hif.prog (n - 128) } }))
    else d
/-- HIF_RINGn_TAIL, the doorbell: an IDLE ring with entries runs (R421). -/
def ringTailWrite (n img : Nat) (d : Dev) : Dev :=
  let t := HIF_RINGn_TAIL.TAIL.of img
  if ringSize n d ≤ t then errAt Err.BAD_ARG .HIF_RINGn_TAIL 0 n d
  else
    let d := rset HIF_RINGn_TAIL.TAIL 0 n t d
    if ringState n d = 1 ∧ t ≠ ringHead n d then
      setRing n 2 (if n < 128 then d else { d with hif := { d.hif with chAt := ins d.hif.chAt (n - 128) d.hif.dmaNs } })
    else if ringState n d = 2 ∧ t = ringHead n d then setRing n 1 d
    else d

/-! Completion queues (R422, R427, R428). -/

/-- The moderation state of CQ n. -/
def cqOf (n : Nat) (d : Dev) : CqState := look d.hif.cqs n {}
/-- Set the moderation state of CQ n. -/
def setCq (n : Nat) (c : CqState) (d : Dev) : Dev := { d with hif := { d.hif with cqs := put d.hif.cqs n {} c } }
/-- One cycle of CQ n's moderation (R427). -/
def cqCycle (n : Nat) (d : Dev) : Dev :=
  let u := rget HIF_CQn_STAT.UNANN 0 n d
  let c := cqOf n d
  let time := 1000 * rget HIF_CQn_MOD.TIME_US 0 n d
  let trig := decide (rget HIF_CQn_MOD.CNT 0 n d ≤ u) || (time != 0 && decide (time ≤ d.mono - c.last)) ||
    decide (1000 * rget HIF_CQn_MOD.MAX_US 0 n d ≤ d.mono - c.first)
  if flag HIF_CQn_CFG.EN 0 n d && flag HIF_CQn_STAT.ARMED 0 n d && u != 0 && trig then
    notify (rget HIF_CQn_CFG.VECTOR 0 n d) (rset HIF_CQn_STAT.UNANN 0 n 0 (rset HIF_CQn_STAT.ARMED 0 n 0 d))
  else d
/-- Whether CQ n has an entry free (R422). -/
def cqRoom (n : Nat) (d : Dev) : Bool := flag HIF_CQn_CFG.EN 0 n d && cqFree n d != 0
/-- Write an entry at TAIL with its PHASE: words 0 to 7, word 0 without PHASE (R422, R427). -/
def cqPush (n : Nat) (ws : List Nat) (d : Dev) : Dev :=
  let t := rget HIF_CQn_TAIL.TAIL 0 n d
  let size := 2 ^ rget HIF_CQn_CFG.SIZE_LOG2 0 n d
  let ph := rget HIF_CQn_TAIL.PHASE 0 n d
  let ws := (List.range 8).map fun i => if i = 0 then ph * 2 ^ 31 + ws.getD 0 0 % 2 ^ 31 else ws.getD i 0 % 2 ^ 32
  let d := emit (.hostWrite (rget HIF_CQn_BASE.BASE 0 n d * 64 + 32 * t) (ws.flatMap (leBytes 4))) d
  let d := rset HIF_CQn_TAIL.TAIL 0 n ((t + 1) % size) d
  let d := if t + 1 = size then rset HIF_CQn_TAIL.PHASE 0 n (1 - ph) d else d
  let u := rget HIF_CQn_STAT.UNANN 0 n d
  let d := setCq n { first := if u = 0 then d.mono else (cqOf n d).first, last := d.mono } d
  let d := if u = 0 then aonWatch (rget HIF_CQn_CFG.VECTOR 0 n d) (d.hwd.aonNs + 1000 * rget HIF_CQn_MOD.MAX_US 0 n d) d else d
  cqCycle n (rset HIF_CQn_STAT.UNANN 0 n (min (u + 1) 65535) d)
/-- The base of a CQ: refused with RING_EN while EN is 1. -/
def cqBaseWrite (n img : Nat) (d : Dev) : Dev :=
  if flag HIF_CQn_CFG.EN 0 n d then errAt 0x20 .HIF_CQn_BASE 0 n d else storeFields false .HIF_CQn_BASE 0 n img d
/-- HIF_CQn_CFG (R421). [DEDUCED: log 82] -/
def cqCfgWrite (n img : Nat) (d : Dev) : Dev :=
  let size := HIF_CQn_CFG.SIZE_LOG2.of img
  let en := flag HIF_CQn_CFG.EN 0 n d
  let new := HIF_CQn_CFG.EN.on img
  let bad (c : Nat) : Dev := errAt c .HIF_CQn_CFG 0 n d
  if size < 6 ∨ 16 < size then bad Err.BAD_ARG
  else if en ∧ size ≠ rget HIF_CQn_CFG.SIZE_LOG2 0 n d then bad 0x20
  else if en ∧ !new ∧ flag HIF_RINGn_CFG.EN 0 n d then bad Err.BAD_ARG
  else
    let d := storeFields false .HIF_CQn_CFG 0 n img d
    if new && !en then
      let d := rset HIF_CQn_TAIL.PHASE 0 n 1 (rset HIF_CQn_TAIL.TAIL 0 n 0 (rset HIF_CQn_HEAD.HEAD 0 n 0 d))
      setCq n {} (rset HIF_CQn_STAT.ARMED 0 n 1 (rset HIF_CQn_STAT.UNANN 0 n 0 d))
    else d
/-- HIF_CQn_MOD. -/
def cqModWrite (n img : Nat) (d : Dev) : Dev :=
  if HIF_CQn_MOD.MAX_US.of img = 0 ∨ HIF_CQn_MOD.CNT.of img = 0 then errAt Err.BAD_ARG .HIF_CQn_MOD 0 n d
  else cqCycle n (storeFields false .HIF_CQn_MOD 0 n img d)
/-- HIF_CQn_HEAD: a HEAD from the current one to TAIL; ARM arms the CQ, and its triggers are judged again (R428). -/
def cqHeadWrite (n img : Nat) (d : Dev) : Dev :=
  let size := 2 ^ rget HIF_CQn_CFG.SIZE_LOG2 0 n d
  let h := HIF_CQn_HEAD.HEAD.of img
  let old := rget HIF_CQn_HEAD.HEAD 0 n d
  let held := (rget HIF_CQn_TAIL.TAIL 0 n d + size - old) % size
  if size ≤ h ∨ held < (h + size - old) % size then errAt Err.BAD_ARG .HIF_CQn_HEAD 0 n d
  else
    let d := rset HIF_CQn_HEAD.HEAD 0 n h d
    if HIF_CQn_HEAD.ARM.on img then cqCycle n (rset HIF_CQn_STAT.ARMED 0 n 1 d) else d

/-! Punt and inject (R423 to R426). -/

/-- The writes of a packet into its buffers. -/
def puntWrites (size : Nat) : List Nat → Bytes → List (Nat × Bytes)
  | [], _ => []
  | a :: t, bs => (a, bs.take size) :: puntWrites size t (bs.drop size)
/-- PUNT_DMA: the oldest packet on its way to ring q is written to the buffers whose descriptors were read, then its
completion entry (R423). -/
def puntDma (q : Nat) (bufs : List Nat) (d : Dev) : Dev :=
  match d.tm.hostOut.find? fun e => puntRing e.1 d == some q with
  | none => d
  | some e =>
    let x := e.2
    let gone (d : Dev) : Dev := onTm (fun t => { t with hostOut := t.hostOut.erase e }) d
    if ringState q d = 0 then free .host x.head x.tag (drop 0xF0 (gone d))
    else if !dmaOn d ∨ ringState q d ≠ 2 ∨ !cqRoom q d ∨ bufs.length ≠ puntBufs q x.len d ∨ ringHeld q d < bufs.length then d
    else
      let (c, bs, d) := readChain .host x (gone d)
      if c ≠ 0 then free .host x.head x.tag (drop c d)
      else
        let head := ringHead q d
        let d := (puntWrites (2 ^ rget HIF_RINGn_CFG.BUF_LOG2 0 q d) (bufs.map fun b => b / 64 * 64) bs).foldl (fun d w => emit (.hostWrite w.1 w.2) d) d
        let ws := [b2n x.copy * 2 ^ 27 + x.color % 4 * 2 ^ 25 + x.cls % 16 * 2 ^ 21 + head, x.len % 2 ^ 14 * 2 ^ 18 + x.port % 256, x.nh % 2 ^ 21 * 2 ^ 11,
          x.hash, x.time % 2 ^ 32, x.time / 2 ^ 32 % 2 ^ 16, x.carry % 2 ^ 32, x.carry / 2 ^ 32]
        let d := cqPush q ws (incBy Pg.HIF 1 x.len (inc Pg.HIF 0 d))
        free .host x.head x.tag (ringUse q bufs.length d)
/-- Fields of an inject descriptor (R425): a 256-bit value, word 0 lowest, so of its 64-bit fields the lower-numbered word holds
the low half (R6). [DESIGN CHOICE: log 127] -/
def injEop (x : Nat) : Bool := bit x 95
/-- LEN of an inject descriptor. -/
def injLen (x : Nat) : Nat := bits x 77 64
/-- Whether descriptors are one packet: each but the last without EOP. [DEDUCED: log 83] -/
def injWhole : List Nat → Bool
  | [] => false
  | [x] => injEop x
  | x :: t => !injEop x && injWhole t
/-- Complete an inject packet of n descriptors on ring n. -/
def injDone (n k status : Nat) (d : Dev) : Dev :=
  let last := (ringHead n d + k - 1) % ringSize n d
  cqPush n [2 ^ 28 + status * 2 ^ 16 + last] (ringUse n k d)
/-- INJECT_FETCH: a whole packet of an inject ring with the bytes read for it (R425, R426); META is words 4 and 5, the low half
first. [DEDUCED: log 83; DESIGN CHOICE: log 127] -/
def injectFetch (ring : Nat) (descs : List Nat) (bytes : Bytes) (d : Dev) : Dev :=
  let n := 64 + ring
  let total := (descs.map injLen).foldl (· + ·) 0
  let room := fifoBytes 32 d + total ≤ 32768
  if !dmaOn d ∨ ringState n d ≠ 2 ∨ !cqRoom n d ∨ !injWhole descs ∨ ringHeld n d < descs.length then d
  else if 16 < descs.length ∨ total < 14 ∨ 16383 < total ∨ descs.any (fun x => injLen x == 0) then
    injDone n descs.length 0xF3 (drop 0xF3 d)
  else if !room ∨ (look d.srcCache 128 []).isEmpty ∨ bytes.length ≠ total then d
  else
    let user := bits (descs.headD 0) 191 128
    let d := { d with hif := { d.hif with injNext := (ring + 1) % 64 } }
    let d := fifoPush { port := 240, bytes := bytes, pktTime := now48 d, user := user } d
    injDone n descs.length 0 (incBy Pg.HIF 3 total (inc Pg.HIF 2 d))

/-! Host errors (R435). -/

/-- A ring halts with its cause. -/
def ringHalt (n code : Nat) (d : Dev) : Dev := rset HIF_RINGn_STAT.CODE 0 n code (setRing n 3 d)
/-- A DMA read of a punt or inject ring ends in error: an inject packet of k descriptors is dropped with its completion. -/
def hostError (n k : Nat) (d : Dev) : Dev :=
  if !(ringState n d == 1 || ringState n d == 2) then d
  else
    let d := if 64 ≤ n ∧ n < 128 ∧ 0 < k ∧ cqRoom n d then injDone n k 0xF4 (drop 0xF4 d) else d
    fire Pg.HIF 2 (fire Pg.HIF 0 (inc Pg.HIF 8 (ringHalt n 0x21 d)))

/-! The function and its link (R415 to R419). -/

/-- The PCIe link comes up: speed 1 to 3 and lanes. -/
def linkTrained (speed width : Nat) (d : Dev) : Dev :=
  if speed = 0 ∨ !([1, 2, 4, 8].contains width) then d
  else fire Pg.HIF 3 (rset HIF_LINK.SPEED 0 0 speed (rset HIF_LINK.WIDTH 0 0 width (rset HIF_LINK.LP 0 0 0 d)))
/-- The link goes down: SPEED and WIDTH read 0. -/
def linkLost (d : Dev) : Dev :=
  if rget HIF_LINK.SPEED 0 0 d = 0 then d
  else fire Pg.HIF 3 (rset HIF_LINK.SPEED 0 0 0 (rset HIF_LINK.WIDTH 0 0 0 (rset HIF_LINK.LP 0 0 0 d)))
/-- Bus Master Enable changes, and with it the completion-timeout value where software writes one (R434). [PRESUMED: log 128] -/
def bmeChange (on : Bool) (cto : Option Nat) (d : Dev) : Dev :=
  rset HIF_LINK.BME 0 0 (b2n on) (match cto with | some v => { d with hif := { d.hif with cto := v } } | none => d)

end Sys2Proof.Machine
end

