-- ==== Sys2Proof/Machine/Clocks.lean ====
section
/-! DEFINITION. Islands, reference clocks, the three reset scopes and start-up (19_bringup.md, R514 to R529; 20_package_pins.md,
R541, R549 to R551; 22_electrical.md, R572, R573, R578; 02_register_pages.md, R37, R38). -/

namespace Sys2Proof.Machine

/-- Change clocks, resets and pins. -/
def onSys (f : Sys → Sys) (d : Dev) : Dev := { d with sys := f d.sys }

/-! Islands (R514 to R517). -/

/-- STATE of island n: 0 RESET, 1 LOCK, 2 RUN, 3 GATED, 4 STOPPED, 5 FAILED (R515). -/
def islState (n : Nat) (d : Dev) : Nat := rget CLK_ISLn.STATE 0 n d
/-- Set STATE of island n. -/
def setIsl (n st : Nat) (d : Dev) : Dev := rset CLK_ISLn.STATE 0 n st d
/-- Whether the clock of island n runs, or restarts on demand from its gate. -/
def islOn (n : Nat) (d : Dev) : Bool := islState n d == 2 || islState n d == 3
/-- A gated island restarts its clock on the first arrival (R515). -/
def ungate (n : Nat) (d : Dev) : Dev := if islState n d = 3 then setIsl n 2 d else d
/-- Work of island n: done while its clock runs, which an arrival restarts from its gate; else it waits (R515, R517). [DESIGN CHOICE: log 3; DEDUCED: log 91] -/
def act (n : Nat) (f : Dev → Dev) (d : Dev) : Dev := if islOn n d then f (ungate n d) else d
/-- The pages that island n holds (R14). -/
def islPages (n : Nat) : List Nat := allPages.filter fun p => islandOf p == n
/-- Whether island n has work in progress, so that it is not idle (R24): a started action of one of its pages, or packets, frames,
cells, blocks or learning events that it holds. The host island counts the Spindle's time and is never idle. [DEDUCED: log 114] -/
def islWork (n : Nat) (d : Dev) : Bool :=
  let pass (f : Pass → Bool) : Bool := d.head.passes.any fun x => f x.2
  let inEngine (p : Pass) : Bool := p.stage == .running || p.stage == .held
  (islPages n).any (fun p => busyOf p d) ||
  (if n < 32 then (List.range 4).any fun k => let x := port (4 * n + k) d; x.txNow.isSome || x.txPre.isSome
   else if n = 32 then !d.head.fifos.isEmpty || pass (fun p => !p.egress && !inEngine p) || !d.tab.lrnQ.isEmpty
   else if n < 97 then pass fun p => inEngine p && p.cluster == n - 33
   else if n = 97 then !d.cross.arrived.isEmpty || pass (fun p => p.egress && !inEngine p)
   else if n = 98 then !d.tm.svcOut.isEmpty || !d.svc.ringBuf.isEmpty
   else if n = 99 then true
   else if n = 101 then !d.chk.builds.isEmpty || !d.chk.waiting.isEmpty || !d.chk.held.isEmpty || !d.d2d.ft.held.isEmpty || !d.d2d.tf.held.isEmpty
   else if n = 102 then !d.tm.input.isEmpty || d.tm.queues.any (fun x => !x.2.pkts.isEmpty) || !d.ctlQ.isEmpty
   else if n < 107 then d.hbm.streams.any fun x => x.2.blocks.any fun b => stackOf b.handle == n - 103
   else (List.range 8).any fun k => let l := 8 * (n - 107) + k; !(link l d).held.isEmpty || decide (1 ≤ fabState l d ∧ fabState l d ≤ 4))
/-- An idle island gates its clock: only while every page of it allows it and FORCE_ON is 0 (R24, R515). -/
def clockGate (n : Nat) (d : Dev) : Dev :=
  if islState n d = 2 ∧ n ≠ 100 ∧ !flag CLK_X_ISLn.FORCE_ON 0 n d ∧ (islPages n).all (fun p => lowpwr p d) ∧ !islWork n d then setIsl n 3 d else d
/-- CLK_ISLn: STOP (R516). -/
def islWrite (n img : Nat) (d : Dev) : Dev :=
  let stop := CLK_ISLn.STOP.on img
  if stop then
    if n = 99 ∨ n = 100 ∨ n = 101 then errAt Err.BAD_ARG .CLK_ISLn 0 n d
    else if (islPages n).any (fun p => blkEn p d || busyOf p d) then errAt 0x20 .CLK_ISLn 0 n d
    else if flag CLK_ISLn.STOP 0 n d then d
    else
      let d := inc Pg.CLK 2 (rset CLK_ISLn.STOP 0 n 1 d)
      if islOn n d then setIsl n 4 d else d
  else
    let d := rset CLK_ISLn.STOP 0 n 0 (onSys (fun s => { s with isl1us := s.isl1us.filter (· != n) }) d)
    if islState n d = 4 then setIsl n 2 d else d
/-- A register access to a STOPPED island runs its clock for that access (R516). [DEDUCED: log 91] -/
def islAccess (n : Nat) (d : Dev) : Dev :=
  if islState n d = 4 ∨ (islState n d = 2 ∧ d.sys.isl1us.contains n) then
    setIsl n 2 (onSys (fun s => { s with isl1us := n :: s.isl1us.filter (· != n), islAt := ins s.islAt n d.hwd.aonNs }) d)
  else ungate n d
/-- 1 µs after its last access the island returns to STOPPED (R516); before that the row does nothing. -/
def islRestop (n : Nat) (d : Dev) : Dev :=
  if d.sys.isl1us.contains n ∧ flag CLK_ISLn.STOP 0 n d ∧ look d.sys.islAt n 0 + 1000 ≤ d.hwd.aonNs then setIsl n 4 (onSys (fun s => { s with isl1us := s.isl1us.filter (· != n) }) d) else d
/-- An island's generator loses lock: CLK_FAIL (R517). The AON's stands in for SYSCLK's loss and never fails here. -/
def lockLoss (n : Nat) (d : Dev) : Dev :=
  if islOn n d ∧ n ≠ 100 then fire Pg.CLK 0 (inc Pg.CLK 0 (setIsl n 5 d)) else d
/-- A FAILED island relocks, while SYSCLK is there (R517, R518). -/
def relock (n : Nat) (d : Dev) : Dev :=
  if islState n d = 5 ∧ bit d.sys.refs 9 then setIsl n (if flag CLK_ISLn.STOP 0 n d then 4 else 2) d else d

/-! Resets (R519 to R524). -/

/-- Whether a cause of power-on reset stands (R519, R541, R573). -/
def porHeld (d : Dev) : Bool := d.sys.porPin || !d.sys.vddIo || !d.sys.vddAon
/-- Whether a trigger of power-on or chip reset stands (R522). -/
def resetHeld (d : Dev) : Bool := porHeld d || d.sys.chipPin || d.sys.trip
/-- Whether the host's and software's side is up: not held in reset. -/
def alive (d : Dev) : Bool := !d.sys.chipHold
/-- A JTAG instruction that takes the pins (R549, R551). -/
def pinTaking (i : Nat) : Bool := i == 0x00 || i == 0x03 || i == 0x04 || i == 0x05 || i == 0x06
/-- The HWD registers that are part of the ledger's contents and survive power-on reset: the ring pointers and the spare
counts. -/
def ledgerFlds : List Fld := [HWD_PTR.HOURLY_NEXT, HWD_PTR.DAILY_NEXT, HWD_PTR1.LOG_NEXT, HWD_STAT.SPARES, HWD_STAT.REMAPPED]
/-- The device as it stands in power-on reset (por) or chip reset: what R520 keeps, and everything else at its reset value. -/
def resetDev (por : Bool) (cause : Nat) (d : Dev) : Dev :=
  let sys : Sys := { d.sys with chipHold := true, ctlRun := none, chipCause := cause, hotFe := false, hotTm := false, steps := 0, jtagStop := pinTaking d.sys.jtag, isl1us := [], resetRec := none, badLine := 0, badFab := 0, badPages := [] }
  let hwdFlds := d.flds.filter fun x => x.1 / 1024 / 65536 == Pg.HWD
  let new : Dev := { out := d.out, freeCtr := d.freeCtr, mono := d.mono, spn := { monoU := d.spn.monoU }, fab := { upAt := d.mono }, sys := sys, hwd := d.hwd, vlt := { digest := d.vlt.digest } }
  rset VLT_STAT.TAMPER 0 0 (b2n sys.tamperPin) (if por then ledgerFlds.foldl (fun s f => rset f 0 0 (rget f 0 0 d) s) new
    else setIsl 100 (islState 100 d) { new with flds := hwdFlds })
/-- CHIP_RESETS counts a chip reset, in the totals and in the running records (R480, R481). -/
def chipCount (d : Dev) : Dev :=
  let chip (a : LedgerAcc) : LedgerAcc := { a with chip := a.chip + 1 }
  onHwd (fun h => { h with tot := { h.tot with chipResets := h.tot.chipResets + 1 }, hour := chip h.hour, day := chip h.day }) d
/-- A trigger of power-on reset (cause 0) or chip reset (1 CHIP_RST_N, 2 GLB register, 3 thermal trip): the widest scope is
carried out, and a trigger that meets a reset of its scope or a wider one merges into it, counted and logged by the AON, which
runs outside power-on reset (R519 to R521). [DEDUCED: log 102] -/
def chipEnter (cause : Nat) (d : Dev) : Dev :=
  if cause = 0 then resetDev true 0 d
  else if d.sys.chipHold && d.sys.chipCause == 0 then d
  else if d.sys.chipHold then hwdLog 1 0 0 0 cause (chipCount d)
  else resetDev false cause d
/-- Step 1 of start-up, and the count of the chip reset at its end (R479, R480, R525). -/
def startUp (d : Dev) : Dev :=
  let cause := d.sys.chipCause
  let d := onSys (fun s => { s with chipHold := false }) d
  let d := if cause = 0 then onTot (fun t => { t with porCount := t.porCount + 1 }) (totalsLoad d) else d
  let d := chipCount d
  let d := setIsl 100 2 (rset GLB_BOOT.PHASE 0 0 1 (rset GLB_RST_CAUSE.CHIP_CAUSE 0 0 cause d))
  totalsWrite (hwdLog 1 0 0 0 cause d)
/-- A chip reset starts when its trigger ends (R522). -/
def startIfFree (d : Dev) : Dev := if d.sys.chipHold && !resetHeld d then startUp d else d
/-- POR_N is asserted (R519). -/
def porAssert (d : Dev) : Dev := if d.sys.porPin then d else chipEnter 0 (onSys (fun s => { s with porPin := true }) d)
/-- POR_N is released: the board does so with every rail in range and SYSCLK stable (R525, R570). -/
def porRelease (d : Dev) : Dev := startIfFree (onSys (fun s => { s with porPin := false, rails := true }) d)
/-- VDD_IO falls below its threshold (R541). -/
def vddIoLoss (d : Dev) : Dev := if !d.sys.vddIo then d else chipEnter 0 (onSys (fun s => { s with vddIo := false }) d)
/-- VDD_IO returns (R541). -/
def vddIoReturn (d : Dev) : Dev := startIfFree (onSys (fun s => { s with vddIo := true }) d)
/-- VDD_AON falls below 0.70 V (R573). -/
def brownout (d : Dev) : Dev := if !d.sys.vddAon then d else chipEnter 0 (onSys (fun s => { s with vddAon := false }) d)
/-- VDD_AON rises above 0.74 V (R573). -/
def vddAonReturn (d : Dev) : Dev := startIfFree (onSys (fun s => { s with vddAon := true }) d)
/-- A core rail leaves its range: until POR_N follows, frames in flight may leave with a bad FCS (R572). [DESIGN CHOICE: log 104] -/
def railLoss (d : Dev) : Dev := if porHeld d then d else onSys (fun s => { s with rails := false }) d
/-- CHIP_RST_N is asserted. -/
def chipPinAssert (d : Dev) : Dev := if d.sys.chipPin then d else chipEnter 1 (onSys (fun s => { s with chipPin := true }) d)
/-- CHIP_RST_N is released (R522). -/
def chipPinRelease (d : Dev) : Dev := startIfFree (onSys (fun s => { s with chipPin := false }) d)
/-- GLB_RST with SCOPE 2: the reset starts in the cycle after the write (R522). -/
def glbChip (d : Dev) : Dev := startIfFree (chipEnter 2 d)
/-- A die sensor reaches 125 °C: the device is held in chip reset (R522). [DESIGN CHOICE: log 105] -/
def thermalTrip (d : Dev) : Dev := if d.sys.trip then d else chipEnter 3 (onSys (fun s => { s with trip := true, tripAt := d.hwd.aonNs }) d)
/-- 10 ms after the trip or later: with every sensor below 115 °C the chip reset starts (R522). [DESIGN CHOICE: log 105] -/
def tripRelease (hottest : Int) (d : Dev) : Dev :=
  if !d.sys.trip ∨ 115 ≤ hottest ∨ d.hwd.aonNs < d.sys.tripAt + 10000000 then d else startIfFree (onSys (fun s => { s with trip := false }) d)

/-- The Faceplate of a page in a control reset (R37, R42). -/
def faceCtl (p : Nat) (d : Dev) : Dev :=
  setFace p { face p d with expert := false, key := .idle, window := 0, pend := 0, mask := 0xFFFFFFFF, vgroup := 0, errOvf := false, errOfs := 0, errCode := 0 } d
/-- Every register of the instances of a page range returns to its reset values: fields whose address lies in the page, from
offset a on and below b. -/
def fldsReset (p a b : Nat) (keep : Nat → Bool) (d : Dev) : Dev :=
  { d with flds := d.flds.filter fun x => let w := x.1 / 1024; !(w / 65536 == p && decide (a ≤ w % 65536 ∧ w % 65536 < b)) || keep (w % 65536) }
/-- The EVT's copies of the pending bits of the TM die go with its Faceplates. -/
def tmFacesCtl (d : Dev) : Dev :=
  let d := (keys d.faces).foldl (fun d p => if onTmDie p then faceCtl p d else d) d
  { d with evt := { d.evt with tmPend := [] }, sys := { d.sys with resetRec := none } }
/-- A lock is held by a table DMA channel (R523). -/
def dmaLock (id : Nat) : Bool := decide (0xF100 ≤ id ∧ id ≤ 0xF10F)
/-- Release the table locks that table DMA channels hold (R523 step 3). -/
def dmaLocksFree (d : Dev) : Dev :=
  let one (r : Reg) (i : Nat) (d : Dev) : Dev :=
    if dmaLock (lockHolder r i d) then { (rset ⟨r, 0, 16⟩ 0 i 0 d) with tab := { d.tab with lockAt := del d.tab.lockAt (r.addr 0 i) } } else d
  let d := one .LPM_LOCKt 1 (one .LPM_LOCKt 0 (one .NHT_LOCK 0 d))
  learnResume ((List.range 8).foldl (fun d i => one .XM_LOCKn i d) d)
/-- EVT and AON in a control reset (R462). [DEDUCED: log 103] -/
def evtAonCtl (d : Dev) : Dev :=
  let e := d.evt
  let alert := rget EVT_ALERT.EN 0 0 d
  let id := rget EVT_ALERT.OWNER_ID 0 0 d
  let d := fldsReset Pg.AON 0x40 0x1000 (fun o => o == 0x104) (fldsReset Pg.EVT 0x40 0x1000 (fun _ => false) d)
  let d := rset EVT_ALERT.EN 0 0 alert (rset EVT_ALERT.OWNER_ID 0 0 id d)
  { d with
    evt := { lastVec := e.lastVec, tmPend := e.tmPend, vmask := e.vmask, msixTbl := e.msixTbl, msixEn := e.msixEn, fmask := e.fmask,
             decided := e.decided }
    aon := { pmeEn := d.aon.pmeEn, pmeStatus := d.aon.pmeStatus, pmeWait := d.aon.pmeWait } }
/-- Step 4 of the control reset on the FE die, without the TM die's Faceplates (R462, R523). [DEDUCED: log 103] -/
def ctlStep4 (d : Dev) : Dev :=
  let d := (keys d.faces).foldl (fun d p => if onTmDie p then d else faceCtl p d) d
  let d := fldsReset Pg.HIF 0x40 0x8000 (fun o => o == 0x100) d
  let d := evtAonCtl { d with hif := { ctlHeld := d.hif.ctlHeld, cto := d.hif.cto, dmaNs := d.hif.dmaNs }, i3c := { d.i3c with ibi := [] } }
  let d := rset SVC_RING_BASE.BASE 0 0 0 (rset SVC_RING_HEAD.HEAD 0 0 0 (rset SVC_RING_TAIL.TAIL 0 0 0 d))
  let d := onSpn (fun s => { s with timerFifo := [] }) d
  let d := { d with flds := d.flds.filter fun x => let w := x.1 / 1024; !(w == Reg.addr .SPN_ACT_FAIL 0 0 || w == Reg.addr .SPN_TIMER_FIFO 0 0) }
  let low (t : Tbl Staged) : Tbl Staged := t.filter fun x => decide (x.1 / 65536 < 2)
  { d with staged := low d.staged, snaps := low d.snaps }
/-- A control reset that a trigger of source src starts: steps 1 to 5 (R485, R523). The TM die's Faceplates follow by the RESET
record. [DEDUCED: log 102, 103] -/
def ctlStart (src : Nat) (d : Dev) : Dev :=
  let ctl (a : LedgerAcc) : LedgerAcc := { a with ctl := a.ctl + 1 }
  let count (d : Dev) : Dev :=
    hwdLog 2 0 0 0 src (onHwd (fun h => { h with tot := { h.tot with ctlResets := h.tot.ctlResets + 1 }, hour := ctl h.hour, day := ctl h.day })
      (inc Pg.GLB src (if src = 3 then inc Pg.HIF 10 d else d)))
  if !alive d then d
  else if d.sys.ctlRun.isSome then count d
  else
    let d := ctlStep4 (dmaLocksFree (onSys (fun s => { s with ctlRun := some src, resetRec := some 1 }) d))
    rset GLB_RST_CAUSE.CTL_SRC 0 0 src (rset GLB_RST_CAUSE.CTL_SEEN 0 0 1 (count d))
/-- CTL_RST_N is asserted. -/
def ctlPinAssert (d : Dev) : Dev := if d.sys.ctlPin then d else ctlStart 0 (onSys (fun s => { s with ctlPin := true }) d)
/-- CTL_RST_N is released. -/
def ctlPinRelease (d : Dev) : Dev := onSys (fun s => { s with ctlPin := false }) d
/-- A Function Level Reset, hot reset or link-down: the parts of configuration space that the PCIe specification resets with
it, then a control reset (R417, R520). [PRESUMED: log 90] -/
def pcieReset (d : Dev) : Dev :=
  let d := rset HIF_LINK.BME 0 0 0 (rset HIF_LINK.DSTATE 0 0 0 { d with hif := { d.hif with cto := 0 } })
  ctlStart 3 { d with evt := { d.evt with msixEn := false, fmask := false, vmask := 2 ^ 512 - 1, pba := 0 }, aon := { d.aon with pmeEn := false } }
/-- The PCIe link goes down (R417). -/
def pcieDown (d : Dev) : Dev := if rget HIF_LINK.SPEED 0 0 d = 0 then d else pcieReset (linkLost d)
/-- Sources whose condition still stands fire again after a control reset (R462): latched VALIDs, FIFOs and logs that hold
entries, and states that fired on entry. [DEDUCED: log 103] -/
def refire (d : Dev) : Dev :=
  let on (c : Bool) (p n : Nat) (d : Dev) : Dev := if c then fire p n d else d
  let d := on (flag LPM_ECC_ADDR.VALID 0 0 d) Pg.LPM 1 d
  let d := on (flag XM_ECC_ADDR.VALID 0 0 d) Pg.XM 1 d
  let d := on (flag NHT_ECC_ADDR.VALID 0 0 d) Pg.NHT 0 d
  let d := on (flag TCM_SHADOW_ADDR.VALID 0 0 d) Pg.TCM 2 d
  let d := on (flag BRL_ECC_ADDR.VALID 0 0 d) Pg.BRL 1 d
  let d := (List.range 64).foldl (fun d c => on (flag ENG_ILL_ADDR.VALID c 0 d) (Pg.ENG + c) 1 (on (flag ENG_ECC_ADDR.VALID c 0 d) (Pg.ENG + c) 2 d)) d
  let d := on (flag CHK_ECC_ADDR.VALID 0 0 d) Pg.CHK 3 d
  let d := (List.range 4).foldl (fun d s =>
    let d := on (flag HBM_ERR_ADDR.VALID s 0 d) (Pg.HBM + s) (match rget HBM_ERR_ADDR.KIND s 0 d with | 0 => 2 | 2 => 6 | _ => 3) d
    let d := on ((List.range 32).any fun k => pcState (32 * s + k) d == 3) (Pg.HBM + s) 1 d
    let d := on ((List.range 32).any fun k => pcState (32 * s + k) d == 1) (Pg.HBM + s) 4 d
    on (flag HBM_TEMP.NOALLOC s 0 d || flag HBM_TEMP.HOT2X s 0 d) (Pg.HBM + s) 5 d) d
  let d := on (flag CNT_ECC_ADDR.VALID 0 0 d) Pg.CNT 1 d
  let d := on (flag GLB_BAD_ADDR.VALID 0 0 d) Pg.GLB 2 d
  let d := on (!d.chk.badLog.isEmpty) Pg.CHK 0 d
  let d := on (!d.tab.lrnLog.isEmpty) Pg.LRN 3 d
  let d := (List.range 128).foldl (fun d n => if (port n d).fifo.isEmpty then d else portFire n 4 d) d
  let d := on (decide (48 ≤ d.tab.stash.length)) Pg.XM 3 d
  let d := (List.range 16).foldl (fun d n => if poolEn n d then (match poolState n d with | 2 => fire Pg.CHK 1 d | 3 => fire Pg.CHK 2 d | _ => d) else d) d
  let d := on (d.sys.hotFe || d.sys.hotTm) Pg.GLB 1 d
  let d := on (rget HWD_STAT.STATE 0 0 d == 2) Pg.HWD 0 d
  let d := on (rget SPN_STAT.STATE 0 0 d == 3) Pg.SPN 6 d
  let d := on ((List.range 128).any fun n => islState n d == 5) Pg.CLK 0 d
  let d := on (d.sys.refs != 0x3FF) Pg.CLK 1 d
  let d := on (decide (rget D2D_STAT.SPARE_FT 0 0 d < 8 ∨ rget D2D_STAT.SPARE_TF 0 0 d < 8)) Pg.D2D 2 d
  let d := on (decide (rget FCT_SPARE.FREE 0 0 d < 2) && (List.range 8).any fun k => fabState (160 + k) d == 3) Pg.FCT 5 d
  (List.range 168).foldl (fun d l => on (lget FAB_LINKk_STAT.LAGGING l d == 1) (fabPage l) (8 + l % 8) d) d
/-- Step 6 without the held requests: the reset completes and CTL_RST_DONE fires; over I3C it is told by an in-band interrupt
(R439, R440, R443). Not before CTL_RST_N is released. [DEDUCED: log 103] -/
def ctlFinish (d : Dev) : Dev :=
  match d.sys.ctlRun with
  | none => d
  | some src =>
    if d.sys.ctlPin then d
    else
      let d := if d.sys.resetRec.isSome then tmFacesCtl d else d
      let d := fire Pg.GLB 0 (onSys (fun s => { s with ctlRun := none }) d)
      let d := if src = 2 then fire Pg.MGT 1 (ibiRaise [0x01] d) else d
      refire d
/-- The RESET record reaches the TM die (R519, R523). -/
def resetRecord (d : Dev) : Dev := if d.sys.resetRec.isSome then tmFacesCtl d else d

end Sys2Proof.Machine
end

