-- ==== Sys2Proof/Machine/Tailstock.lean ====
section
/-! DEFINITION. The Tailstock and the release of verdicts: egress dispatch, the egress search and the hand-off to the MAC
(07_action_engines.md, R178, R198, R201, R202, R214; 08_epochs_mandrel.md, R218, R219). -/

namespace Sys2Proof.Machine

/-- Egress port of an egress pass. -/
def Pass.egPort (p : Pass) : Nat := bits p.ctx 76 69
/-- Eight free words, for the part of an egress pass's PCX that the spec does not state. [DESIGN CHOICE: log 44] -/
def freeWords : Nat → Dev → Nat × Dev
  | 0, d => (0, d)
  | k + 1, d => let (a, d) := freeWords k d; let (v, d) := draw d; (a * 2 ^ 64 + v % 2 ^ 64, d)
/-- The PCX of an egress pass: fields that the egress context holds are its values, the flags are clear and the res bits read 0
(R181); what the rest holds is free. [DESIGN CHOICE: log 44] -/
def egressPcx (ctx cell : Nat) (d : Dev) : Nat × Dev :=
  let (x, d) := freeWords 8 d
  let s (f : Span) (v x : Nat) : Nat := f.set v x
  let x := s PX.DROP 0 (s PX.RECIRC 0 (s PX.COPY_HOST 0 (s PX.MIRROR_EN 0 (s PX.PASS 0 x))))
  let x := s PX.PKT_TIME (bits ctx 255 208) (s PX.PKT_LEN (bits ctx 207 194) (s PX.COLOR (bits ctx 193 192) x))
  let x := s PX.ING_PORT (bits ctx 191 184) (s PX.HASH (bits ctx 159 128) (s PX.CLASS (bits ctx 106 103) x))
  let x := s (496, 496) 0 (s (170, 168) 0 (s (137, 136) 0 (s (109, 96) 0 (s (70, 70) 0 x))))
  (s PX.BANK (bits ctx 177 177) (s PX.SEQ (bits ctx 175 160) (s PX.CELL_HEAD cell x)), d)
/-- Hand a frame to the MAC of its port, padded to 60 bytes, and report the packet finished (R61, R184, R254). -/
def handFrame (n : Nat) (f : TxFrame) (d : Dev) : Dev :=
  let f := { f with bytes := f.bytes ++ List.replicate (60 - f.bytes.length) 0 }
  let d := reportDone n d
  let x := port n d
  downDiscard n (setPort n { x with txWait := x.txWait ++ [f] } d)

/-- An egress packet is dispatched (R214, R218, R221): TLS_PORTn_CFG, the current bank and EPOCH_SEQ, and the adjacency entry are
those of this instant. A bypassed one leaves as queued. -/
def egressBind (n : Nat) (p : Pass) (d : Dev) : Dev :=
  let port := bits p.ctx 76 69
  let nh := bits p.ctx 127 107
  let bad := blkEn Pg.NHT d && nhtDamaged 3 nh d
  let adj := if blkEn Pg.NHT d then nhtAt 3 nh d else 0
  let d := if bad then nhtEcc (3 * 2 ^ 21 + nh) d else d
  let ctx := Span.set (177, 177) (curBank d) (Span.set (175, 160) (curSeq d) p.ctx)
  let d := inc Pg.TLS 0 (bindBank d)
  let (pcx, d) := egressPcx ctx (PX.CELL_HEAD.get p.pcx) d
  let p := { p with pcx := pcx, ctx := ctx, prof := rget TLS_PORTn_CFG.EPROF 0 port d, regs := if adj = 0 then [] else [(1, adj)], adjOk := bit adj 63 }
  dispatchPass n (setPass n (if bad then p.fault 0x20 else p) d)
/-- An egress packet that the Tailstock holds is tried: with BYPASS set for its port it leaves as queued; else it is dispatched
once its reorder queue, its direction and a cluster have room, and waits until then (R175, R178, R214). -/
def egressTry (n : Nat) (d : Dev) : Dev :=
  match getPass n d with
  | some p =>
    if !(p.egress && p.stage == .ready) then d
    else
      let port := bits p.ctx 76 69
      if flag TLS_PORTn_CFG.BYPASS 0 port d then
        handFrame port { bytes := p.bytes, cls := p.tc, pktTime := bits p.ctx 255 208, bad := p.bad } (inc Pg.TLS 1 (delPass n d))
      else if dispatchFull p d || (pickCluster 1 d).isNone then dispatchPass n d
      else egressBind n p d
  | none => d
/-- The Tailstock takes the oldest packet that has reached it (R214). -/
def egressDispatch (d : Dev) : Dev :=
  match d.cross.arrived with
  | [] => d
  | r :: t =>
    if !blkEn Pg.TLS d then d
    else
      let p : Pass := { egress := true, stage := .ready, bytes := r.bytes, pcx := PX.CELL_HEAD.set r.cell 0, ctx := r.ctx, tag := r.tag, tc := r.tc, bad := r.bad }
      egressTry d.head.nextPass (newPass p { d with cross := { d.cross with arrived := t } })
/-- ENGINE_DISPATCH: a waiting pass of either direction is tried (R177, R178). -/
def engineDispatch (n : Nat) (d : Dev) : Dev :=
  match getPass n d with
  | some p => if p.egress then egressTry n d else dispatchPass n d
  | none => d

/-- The descriptor of an egress pass's chain, for its copies (R198, R251): they carry the packet as rebuilt under R183, whose
head the chain does not hold. [DEDUCED: log 120] -/
def Pass.egDesc (p : Pass) : Desc :=
  { head := PX.CELL_HEAD.get p.pcx, tag := p.tag, len := p.rebuilt.length, rebuilt := some p.rebuilt, nh := bits p.ctx 127 107, carry := p.ctx % 2 ^ 64,
    time := bits p.ctx 255 208, port := bits p.ctx 191 184, hash := bits p.ctx 159 128, cls := bits p.ctx 106 103,
    color := bits p.ctx 193 192, srcDev := bits p.ctx 183 178 }
/-- The copies that the program asked for (R198). -/
def egressCopies (p : Pass) (d : Dev) : Dev :=
  let host := if PX.COPY_HOST.get p.pcx = 1 then some (PX.HOSTQ.get p.pcx) else none
  let mir := if PX.MIRROR_EN.get p.pcx = 1 then some (PX.MIRROR.get p.pcx) else none
  copies p.egDesc host mir d
/-- Whether n bytes at a window offset lie between HSTART and HEND (R202). -/
def Pass.inWin (p : Pass) (o n : Nat) : Bool := decide (p.hstart ≤ o ∧ o + n ≤ p.hend)
/-- The one-step marking as packet offsets, none where it is void (R66, R202). -/
def Pass.tsoMark (p : Pass) : Option (Option (Nat × Nat × Option Nat)) :=
  match p.acts.tso with
  | none => some none
  | some (mode, o, cs) =>
    let ok := p.inWin o (if mode = 0 then 10 else 8) && (match cs with | some c => p.inWin c 2 | none => true)
    if ok then some (some (mode, o - p.hstart, cs.map (· - p.hstart))) else none
/-- A SEND after its search: the actions take effect and the frame goes to the MAC (R198, R202, R219, R466). -/
def egressFinish (n : Nat) (p : Pass) (d : Dev) : Dev :=
  let d := unbind p.bank (egressCopies p (delPass n d))
  let len := p.newLen + signed 8 (rget CNT_CFG.EG_ADJ 0 0 d)
  let d := cntOpt p.acts.cnt1 len (cntOpt p.acts.cnt0 len d)
  let d := if p.tsoMark.isNone then inc Pg.TLS 6 (inc (engPage p.cluster) 10 d) else d
  handFrame p.egPort { bytes := p.rebuilt, cls := p.tc, sc := p.acts.msc.getD 0, pktTime := bits p.ctx 255 208, tso := p.tsoMark.getD none, tst := p.acts.tst, bad := p.bad } d
/-- The egress search of the oldest pass that waits for one (R149, R154, R201). `waited` says that it had waited for a replica of its
group: it counts one overrun of the TCM page (R150). -/
def egressSearch (waited : Bool) (d : Dev) : Dev :=
  match d.head.passes.find? fun x => x.2.stage == .egressTcam with
  | none => d
  | some (n, p) =>
    match p.acts.etc with
    | none => egressFinish n p d
    | some (k, key) =>
      let g := groupOf p.bank k d
      let d := inc Pg.TLS 2 d
      if !blkEn Pg.TCM d then egressFinish n p d
      else if !g.valid || !g.egress then egressFinish n p (fire Pg.TCM 3 (inc Pg.TCM 7 (inc Pg.TCM 1 d)))
      else
        let d := if waited then overrun Pg.TCM (inc Pg.TCM 4 d) else d
        let ((w, _), d) := tcamSearch p.bank k key g (inc Pg.TCM 1 d)
        match w with
        | none => egressFinish n p d
        | some (_, e) =>
          match bits e.action 15 12 with
          | 1 =>
            let d := inc Pg.TLS 3 (drop 0x31 d)
            reportDone p.egPort (unbind p.bank (egressCopies p (delPass n d)))
          | 2 =>
            let m := e.action % 16
            let same := PX.MIRROR_EN.get p.pcx = 1 ∧ PX.MIRROR.get p.pcx = m
            egressFinish n p (if same then d else copies p.egDesc none (some m) d)
          | _ => egressFinish n p d

/-! Release of verdicts (R178, R198, R199). -/

/-- The pass of reorder queue q that can be released: its verdict is complete, and it is the oldest of the queue unless its
direction keeps no order (R178). -/
def releasable (q : Nat) (d : Dev) : Option (Nat × Pass) :=
  let l := (look d.disp.queues q []).filterMap fun n => (getPass n d).map fun p => (n, p)
  let first := (l.filter fun x => x.2.ordered).head?.map (·.1)
  l.find? fun x => x.2.stage == .held && (!x.2.ordered || first == some x.1)
/-- A verdict takes effect: it leaves for the Chuck, the Mandrel, or the MAC (R198, R199, R201). -/
def verdictEffect (n : Nat) (p : Pass) (d : Dev) : Dev :=
  match p.verdict with
  | none => d
  | some v =>
    match v with
    | .recirc _ => mandrelEnter n p d
    | .send _ => if p.acts.etc.isSome then setPass n { p with stage := .egressTcam } d else egressFinish n p d
    | .drop c =>
      if p.egress then reportDone p.egPort (egressCopies p (delPass n d))
      else delPass n (sendVerd { p.verd 1 p.rebuilt with code := c } d)
    | .fwd q nh =>
      let r := p.verd 0 p.rebuilt
      delPass n (sendVerd { r with qid := q, nh := nh, cnt0 := p.acts.cnt0, cnt1 := p.acts.cnt1, meter := p.acts.mtr } d)
    | .punt h =>
      let r := p.verd 2 p.rebuilt
      delPass n (sendVerd { r with hostq := h, cnt0 := p.acts.cnt0, cnt1 := p.acts.cnt1, meter := p.acts.mtr } d)
/-- Reorder queue q of a direction releases one verdict (R178). -/
def verdictRelease (q : Nat) (d : Dev) : Dev :=
  match releasable q d with
  | none => d
  | some (n, p) =>
    let dir := q / 4096
    let d := { d with disp := { d.disp with queues := put d.disp.queues q [] ((look d.disp.queues q []).erase n) } }
    verdictEffect n p (setHeld dir (heldCount dir d - 1) d)

end Sys2Proof.Machine
end

