-- ==== Sys2Proof/Machine/Startup.lean ====
section
/-! DEFINITION. The steps of start-up, reference clocks, block resets, JTAG and the die sensors (19_bringup.md, R518, R525, R526;
02_register_pages.md, R38, R39; 20_package_pins.md, R539, R547 to R551; 22_electrical.md, R578). -/

namespace Sys2Proof.Machine

/-! BLK_EN and block resets (R38, R39). -/

/-- What a change of BLK_EN does in a block beside gating its work (R39, R60, R175, R371, R389). -/
def enHook (p : Nat) (on : Bool) (d : Dev) : Dev :=
  if 0x10 ≤ p ∧ p < 0x30 then (List.range 4).foldl (fun d k => if on then linkStart (4 * (p - 0x10) + k) d else linkStop (4 * (p - 0x10) + k) d) d
  else if 0xC0 ≤ p ∧ p < 0xD5 then fabEnable (p - 0xC0) on d
  else if p = Pg.FCT then (if on then d else fctDisable d)
  else if 0x40 ≤ p ∧ p < 0x80 then (if on then setFace p { face p d with busy := false } d else setFace p { face p d with busy := decide (0 < ctxUsed (p - 0x40) d) } d)
  else d
/-- Set BLK_EN of page p. -/
def setEn (p : Nat) (on : Bool) (d : Dev) : Dev :=
  if (face p d).en = on then d else enHook p on (setFace p { face p d with en := on } d)
/-- A disabled cluster's last verdict has left (R175). -/
def clusterDrained (c : Nat) (d : Dev) : Dev :=
  let f := face (Pg.ENG + c) d
  if f.busy && !f.en && ctxUsed c d == 0 then setFace (Pg.ENG + c) { f with busy := false } d else d
/-- RO fields of the basic area, register and lowest bit, that show what lies outside the block's own state and so is not undone
by its reset: identity, straps, start-up, sensors, the PCIe link, clocks, the ledger's contents, the lifecycle and the tamper pin,
the D2D lanes and the trained stacks. [DESIGN CHOICE: log 51] -/
def outsideFld (r : Reg) (lo : Nat) : Bool :=
  match r with
  | .GLB_SERIAL | .GLB_STRAP | .GLB_BOOT | .GLB_RST_CAUSE | .GLB_TEMP | .GLB_PWR_TOTAL | .GLB_PWR_RAILk => true
  | .HIF_LINK | .HWD_STAT | .HWD_PTR | .HWD_PTR1 | .CLK_REF_STAT | .CLK_ISLn | .D2D_STAT | .HBM_ID | .HBM_TEMP => true
  | .MGT_STAT => lo == MGT_STAT.STATIC.lo
  | .VLT_STAT => lo == VLT_STAT.LC.lo || lo == VLT_STAT.TAMPER.lo
  | .HBM_FREQ => lo == HBM_FREQ.CUR.lo
  | .HBM_TRAIN_STAT => lo == HBM_TRAIN_STAT.STEP.lo || lo == HBM_TRAIN_STAT.FAIL_STEP.lo
  | .HBM_PCk_STAT => lo == HBM_PCk_STAT.STATE.lo
  | _ => false
/-- Whether a stored field of page p is one that a block reset keeps. [DESIGN CHOICE: log 51] -/
def keepsFld (p k : Nat) : Bool :=
  match placeAt p (k / 1024 % 65536) with
  | some x => outsideFld x.reg (k % 1024) && x.reg.fields.any fun f => f.lo == k % 1024 && f.acc == .ro
  | none => false
/-- The basic registers of page p return to their reset values (R38). [DESIGN CHOICE: log 51] -/
def basicReset (p : Nat) (d : Dev) : Dev :=
  { d with flds := d.flds.filter fun x => let w := x.1 / 1024
                                          !(w / 65536 == p && decide (w % 65536 < 0x8000)) || keepsFld p x.1 }
/-- The passes that a cluster holds are gone with it: they leave their reorder queues, where their successors go on. [DESIGN CHOICE: log 51] -/
def clusterReset (c : Nat) (d : Dev) : Dev :=
  let gone := d.head.passes.filter fun x => (x.2.stage == .running || x.2.stage == .held || x.2.stage == .egressTcam) && x.2.cluster == c
  let d := gone.foldl (fun d x => unbind x.2.bank (delPass x.1 d)) d
  let mine (n : Nat) : Bool := gone.any fun x => x.1 == n
  setCluster c {} { d with disp := { d.disp with queues := (d.disp.queues.map fun x => (x.1, x.2.filter fun n => !mine n)).filter fun x => !x.2.isEmpty } }
/-- The passes that wait for the Mandrel are gone with it. [DESIGN CHOICE: log 51] -/
def mandrelReset (d : Dev) : Dev :=
  let gone := d.head.passes.filter fun x => x.2.stage == .mandrel
  let d := gone.foldl (fun d x => unbind x.2.bank (delPass x.1 d)) d
  { d with head := { d.head with mandrel := [] } }
/-- The free lists of a stack and the streams that hold blocks of it (R294). [DESIGN CHOICE: log 51] -/
def stackReset (s : Nat) (d : Dev) : Dev :=
  let mine (h : Nat) : Bool := stackOf h == s
  let d := d.hbm.streams.foldl (fun d x => match x.2.blocks.find? fun b => mine b.handle with
    | some b => streamLost x.1 0xD1 1 b.handle d
    | none => d) d
  let ours (pc : Nat) : Bool := pc / 32 == s
  onHbm (fun h => { h with pcs := h.pcs.filter fun x => !ours x.1
                           mem := h.mem.filter fun x => !mine x.1
                           wq := h.wq.filter fun x => !ours x.1
                           wwait := h.wwait.filter fun w => !mine w.handle
                           strays := h.strays.filter fun x => !mine x.1
                           trAt := h.trAt.filter fun x => !ours x.1
                           okWin := h.okWin.filter fun x => !ours x.1
                           trTemp := h.trTemp.filter fun x => !ours x.1 }) d
/-- The internal state of the block of page p returns to its chip-reset values (R38). [DESIGN CHOICE: log 51] -/
def innerReset (p : Nat) (d : Dev) : Dev :=
  if 0x10 ≤ p ∧ p < 0x30 then (List.range 4).foldl (fun d k => setPort (4 * (p - 0x10) + k) {} d) d
  else if 0x40 ≤ p ∧ p < 0x80 then clusterReset (p - 0x40) d
  else if 0xA0 ≤ p ∧ p < 0xA4 then stackReset (p - 0xA0) d
  else if 0xC0 ≤ p ∧ p < 0xD5 then (List.range 8).foldl (fun d k => setLink (8 * (p - 0xC0) + k) {} d) d
  else if p = Pg.HIF then { d with hif := { ctlHeld := d.hif.ctlHeld, cto := d.hif.cto, dmaNs := d.hif.dmaNs }, evt := { d.evt with vmask := 2 ^ 512 - 1, msixTbl := [] } }
  else if p = Pg.EVT then evtUpdate { d with evt := { vmask := d.evt.vmask, msixTbl := d.evt.msixTbl, msixEn := d.evt.msixEn, fmask := d.evt.fmask, tmPend := d.evt.tmPend } }
  else if p = Pg.AON then { d with aon := { pmeEn := d.aon.pmeEn } }
  else if p = Pg.SPN then { d with spn := { monoU := d.spn.monoU } }
  else if p = Pg.MGT then { d with i3c := {} }
  else if p = Pg.VLT then { d with vlt := { digest := d.vlt.digest, slots := [(0, d.vlt.digest)] } }
  else if p = Pg.SVC then { d with svc := {} }
  else if p = Pg.HDS then { d with head := { d.head with fifos := [], badWords := [] } }
  else if p = Pg.LPM then { d with tab := { d.tab with lpm := [], lpmMem := [], lpmBad := [], lpmLeft := [], lpmVague := false } }
  else if p = Pg.XM then { d with tab := { d.tab with xm := [], xm2 := [], stash := [], xmBad := [] } }
  else if p = Pg.NHT then { d with tab := { d.tab with nht := [], nhtBad := [] } }
  else if p = Pg.LRN then { d with tab := { d.tab with lrnQ := [], lrnRecent := [], lrnCache := [], lrnLog := [] } }
  else if p = Pg.TCM then { d with srch := { d.srch with tcam := [], shadow := [], shadowBad := [], tcamNext := [] } }
  else if p = Pg.BRL then { d with srch := { d.srch with replicas := [], burlNext := [], hdrs := [] } }
  else if p = Pg.EPC then { d with epc := {} }
  else if p = Pg.MDL then mandrelReset d
  else if p = Pg.TLS then { d with cross := { d.cross with arrived := [] } }
  else if p = Pg.CHK then { d with chk := {}, srcCache := [] }
  else if p = Pg.D2D then { d with d2d := {} }
  else if p = Pg.TMS then { d with tm := { meters := d.tm.meters, hostOut := d.tm.hostOut, svcOut := d.tm.svcOut } }
  else if p = Pg.MTR then { d with tm := { d.tm with meters := [] } }
  else if p = Pg.FCT then { d with fab := { links := d.fab.links, upAt := d.mono }, ctlQ := [] }
  else if p = Pg.CNT then { d with cnt := {} }
  else if p = Pg.MEM then { d with banks := {} }
  else d
/-- A block reset of the block of page p completes (R38): what it resets, and a pending BLK_EN of 1. It keeps FP_EVT_ROUTE and
FP_KEY, which R38 does not name. [DEDUCED: log 49; DESIGN CHOICE: log 51] -/
def blockReset (p : Nat) (d : Dev) : Dev :=
  let f := face p d
  if !f.blkRst then d
  else
    let pages := allPages.filter fun q => governor q == p
    let d := pages.foldl (fun d q =>
      let g := face q d
      { (basicReset q (setFace q { g with pend := 0, errOvf := false, errOfs := 0, errCode := 0, overrun := 0 } d)) with perf := del d.perf q }) d
    let d := innerReset p d
    let d := setFace p { face p d with blkRst := false, enPend := false } d
    let d := evtUpdate (pages.foldl (fun d q => evtClearCopy q 0xFFFFFFFF d) d)
    if f.enPend then setEn p true d else d

/-! Start-up (R525, R526). -/

/-- PHASE of start-up. -/
def phase (d : Dev) : Nat := rget GLB_BOOT.PHASE 0 0 d
/-- Set PHASE. -/
def setPhase (n : Nat) (d : Dev) : Dev := rset GLB_BOOT.PHASE 0 0 n d
/-- A step of start-up fails: bit n of FAIL. -/
def bootFail (n : Nat) (d : Dev) : Dev := rset GLB_BOOT.FAIL 0 0 (setBit (rget GLB_BOOT.FAIL 0 0 d) n) d
/-- Whether step n has ended. -/
def stepDone (n : Nat) (d : Dev) : Bool := bit d.sys.steps n
/-- Step n ends. -/
def endStep (n : Nat) (d : Dev) : Dev := onSys (fun s => { s with steps := setBit s.steps n }) d
/-- READY of page p rises, unless a bank of it could not be repaired. -/
def setReady (p : Nat) (d : Dev) : Dev := if d.sys.badPages.contains p then d else setFace p { face p d with ready := true } d
/-- Show the reference clocks that are there. -/
def refShow (d : Dev) : Dev :=
  rset CLK_REF_STAT.SYSCLK_OK 0 0 (bits d.sys.refs 9 9) (rset CLK_REF_STAT.PCIE_OK 0 0 (bits d.sys.refs 8 8)
    (rset CLK_REF_STAT.LINE_OK 0 0 (bits d.sys.refs 7 4) (rset CLK_REF_STAT.FAB_OK 0 0 (bits d.sys.refs 3 0) d)))
/-- The majority of three samples of a strap word, ball by ball (R547). -/
def majority (a b c : Nat) : Nat := (a &&& b) ||| (a &&& c) ||| (b &&& c)
/-- Straps as sampled: DEV_ID in bits 13 to 8, I3C_ADDR in 6 to 4, MGR_SEL in 0. -/
def strapsTake (s : Nat) (d : Dev) : Dev :=
  let d := rset GLB_STRAP.DEV_ID 0 0 (bits s 13 8) (rset GLB_STRAP.I3C_ADDR 0 0 (bits s 6 4) (rset GLB_STRAP.MGR_SEL 0 0 (bits s 0 0) d))
  rset MGT_STAT.STATIC 0 0 (0x60 + bits s 6 4) d
/-- The end of step 2: the fuses pass their check, with the serial number, the lifecycle and the content of vault slot 0, or
fail it; the straps are sampled (R525, R526, R547). The lifecycle fuses only ever go up (R507). [DEDUCED: log 97, 101] -/
def fuseDone (ok : Bool) (serial lc : Nat) (digest : Bytes) (s0 s1 s2 : Nat) (d : Dev) : Dev :=
  if phase d ≠ 1 ∨ stepDone 2 d then d
  else
    let d := refShow (setIsl 99 2 (endStep 2 (strapsTake (majority s0 s1 s2) d)))
    let d := [Pg.GLB, Pg.HIF, Pg.MGT, Pg.AON].foldl (fun d p => setReady p d) d
    if !ok then
      let (v, d) := draw d
      rset VLT_STAT.LC 0 0 (v % 4) (bootFail 0 d)
    else
      let lc := max (lc % 4) d.sys.lc
      let d := rset VLT_STAT.LC 0 0 lc (rset GLB_SERIAL.SERIAL 0 0 serial { d with sys := { d.sys with serial := serial, lc := lc }, vlt := { d.vlt with digest := digest } })
      let d := (List.range 128).foldl (fun d n => if n = 99 ∨ n = 100 then d else setIsl n 1 d) d
      setPhase 2 (vaultWipe 0x22 d)
/-- The end of step 3: every generator has locked to SYSCLK; the memory steps and the training of the stacks begin. -/
def clocksLocked (d : Dev) : Dev :=
  if phase d ≠ 2 ∨ !bit d.sys.refs 9 then d
  else
    let d := (List.range 128).foldl (fun d n => setIsl n 2 d) d
    (List.range 4).foldl (fun d s => trainStart s d) (endStep 3 (setPhase 3 d))
/-- TM-die pages other than the Chuck's and the controllers' are READY once the memories are clear and the D2D is up. [DEDUCED: log 101] -/
def tmReady (d : Dev) : Dev :=
  if stepDone 4 d && flag D2D_STAT.UP_FT 0 0 d then
    allPages.foldl (fun d p => if onTmDie p && p != Pg.CHK && !(decide (0xA0 ≤ p) && decide (p < 0xA4)) then setReady p d else d) d
  else d
/-- The end of step 4: the pages that keep an unrepaired bank. [DEDUCED: log 101] -/
def sramDone (bad : List Nat) (d : Dev) : Dev :=
  if phase d ≠ 3 ∨ stepDone 4 d then d
  else
    let d := endStep 4 (onSys (fun s => { s with badPages := bad }) d)
    let d := if bad.isEmpty then d else bootFail 3 d
    tmReady (allPages.foldl (fun d p => if onTmDie p then d else setReady p d) d)
/-- The link comes up: its calibration has sent the marker's label, which the TM die echoed (R332), and the tests of the wires run
from here (R265). -/
def d2dLinkUp (d : Dev) : Dev :=
  let d := timeRecord d
  let up (x : D2dDir) : D2dDir := { x with calAt := d.mono }
  let d := onD2d (fun l => { l with ft := up l.ft, tf := up l.tf, echo := l.label }) d
  rset D2D_STAT.UP_FT 0 0 1 (rset D2D_STAT.UP_TF 0 0 1 d)
/-- The end of step 5: the D2D is up and the march begins, or the steps of the TM die are skipped. -/
def d2dDone (ok : Bool) (d : Dev) : Dev :=
  if phase d ≠ 3 ∨ stepDone 5 d then d
  else
    let d := endStep 5 d
    if ok then tmReady (rset CHK_MARCH_STAT.STATE 0 0 1 (d2dLinkUp d))
    else
      let d := (List.range 4).foldl (fun d s => hbmBusy s false (rset HBM_TRAIN_STAT.STEP s 0 0 (rset HBM_ID.STATE s 0 0 d))) (bootFail 1 d)
      endStep 6 (endStep 7 d)
/-- A march test ends; the one of step 6 ends that step (R258, R259). -/
def marchEnd (fails : List Nat) (d : Dev) : Dev :=
  let boot := decide (phase d = 3) && !stepDone 6 d && rget CHK_MARCH_STAT.STATE 0 0 d == 1
  let d := marchDone fails d
  if boot then
    let d := if fails.isEmpty then d else bootFail 2 d
    setReady Pg.CHK (endStep 6 d)
  else d
/-- Training of a stack ends; with no stack in training step 7 ends (R287, R288). -/
def trainEnd (s last : Nat) (id : StackId) (mask bad : Nat) (d : Dev) : Dev :=
  let boot := decide (phase d = 3) && !stepDone 7 d
  let d := trainDone s last id mask bad d
  if boot && (List.range 4).all fun s => rget HBM_ID.STATE s 0 d != 1 then
    let d := endStep 7 d
    if (List.range 4).all fun s => rget HBM_ID.STATE s 0 d == 2 then d else bootFail 4 d
  else d
/-- The end of step 8: line and fabric lanes that failed calibration. -/
def serdesDone (line fab : Nat) (d : Dev) : Dev :=
  if phase d ≠ 3 ∨ stepDone 8 d then d
  else
    let d := endStep 8 (onSys (fun s => { s with badLine := line, badFab := fab }) d)
    if line = 0 ∧ fab = 0 then d else bootFail 5 d
/-- The PCIe link trains, in step 9 or again later. -/
def pcieUp (speed width : Nat) (d : Dev) : Dev :=
  if phase d < 3 ∨ d.sys.jtagStop ∨ !bit d.sys.refs 8 ∨ rget HIF_LINK.SPEED 0 0 d ≠ 0 then d else endStep 9 (linkTrained speed width d)
/-- The end of start-up: a reference clock that is not there is flagged once (R525, R539). [DEDUCED: log 101] -/
def bootDone (d : Dev) : Dev :=
  if phase d = 3 && stepDone 4 d && stepDone 5 d && stepDone 6 d && stepDone 7 d && stepDone 8 d then
    let d := setPhase 4 d
    let lost := (List.range 10).filter fun k => !bit d.sys.refs k
    if lost.isEmpty then d else fire Pg.CLK 1 (incBy Pg.CLK 1 lost.length d)
  else d

/-! Reference clocks (R518). -/

/-- Bit of a reference clock in CLK_REF_STAT. -/
def refBit (c : RefClk) : Nat := match c with | .sys => 9 | .pcie => 8 | .line k => 4 + k.val | .fab k => k.val
/-- Whether the reference of line port n is there. -/
def lineRef (n : Nat) (d : Dev) : Bool := bit d.sys.refs (4 + n / 32) && !d.sys.jtagStop
/-- Fabric reference of link l: groups 0–5, 6–11, 12–17 and 18–20. -/
def fabRefOf (l : Nat) : Nat := min (l / 8 / 6) 3
/-- Whether the reference of fabric link l is there. -/
def fabRef (l : Nat) (d : Dev) : Bool := bit d.sys.refs (fabRefOf l) && !d.sys.jtagStop
/-- The lanes that line reference k feeds lose lock. -/
def lineLost (k : Nat) (d : Dev) : Dev := (List.range 32).foldl (fun d i => linkFault (32 * k + i) true false false d) d
/-- The lanes that fabric reference k feeds lose cell lock; a link fails after 1 ms without it (R371). -/
def fabLost (k : Nat) (d : Dev) : Dev :=
  (List.range 168).foldl (fun d l => if fabRefOf l = k ∧ (link l d).locked then setLink l { link l d with locked := false } d else d) d
/-- A reference clock is missing or off frequency. -/
def refLoss (c : RefClk) (d : Dev) : Dev :=
  if !bit d.sys.refs (refBit c) then d
  else
    let d := onSys (fun s => { s with refs := clrBit s.refs (refBit c) }) d
    if islState 99 d = 0 then d
    else
      let d := fire Pg.CLK 1 (inc Pg.CLK 1 (refShow d))
      match c with
      | .sys => (List.range 128).foldl (fun d n => lockLoss n d) d
      | .pcie => pcieDown d
      | .line k => lineLost k.val d
      | .fab k => fabLost k.val d
/-- A reference clock is back within its range. -/
def refReturn (c : RefClk) (d : Dev) : Dev :=
  let d := onSys (fun s => { s with refs := setBit s.refs (refBit c) }) d
  if islState 99 d = 0 then d else refShow d

/-! Die sensors (R26, R578). -/

/-- One die's crossing of 105 °C: THERM fires and THERMAL is logged (R485). -/
def thermCross (die : Nat) (was hot : Bool) (d : Dev) : Dev :=
  if was == hot then d else hwdLog 3 0 0 0 (b2n hot * 256 + die) (fire Pg.GLB 1 d)
/-- The sample of every millisecond: the hottest sensor of each die in °C; before a millisecond has passed the row does nothing.
[DESIGN CHOICE: log 105, 110] -/
def glbTemp (fe tm : Int) (d : Dev) : Dev :=
  if d.hwd.aonNs < d.sys.dieAt + 1000000 then d else
  let d := onSys (fun s => { s with dieAt := d.hwd.aonNs }) d
  let d := rset GLB_TEMP.FE 0 0 (toBits 8 fe) (rset GLB_TEMP.TM 0 0 (toBits 8 tm) d)
  let hotFe := decide (105 < fe)
  let hotTm := decide (105 < tm)
  let d := thermCross 1 d.sys.hotTm hotTm (thermCross 0 d.sys.hotFe hotFe d)
  onSys (fun s => { s with hotFe := hotFe, hotTm := hotTm }) d

/-! JTAG (R549 to R551). -/

/-- An instruction is loaded; the codes that are not listed select BYPASS. -/
def jtagLoad (i : Nat) (d : Dev) : Dev := onSys (fun s => { s with jtag := i }) d
/-- An instruction that takes every ball from its function: traffic stops, every port and link loses lock, and the PCIe link
goes down (R551). [DEDUCED: log 106] -/
def jtagTake (i : Nat) (d : Dev) : Dev :=
  let d := onSys (fun s => { s with jtag := i, jtagStop := true }) d
  let d := (List.range 128).foldl (fun d n => linkFault n true false false d) d
  let d := (List.range 168).foldl (fun d l => if (link l d).locked then setLink l { link l d with locked := false } d else d) d
  pcieDown d
/-- IDCODE: the identification register is shifted out (R550). [DEDUCED: log 106] -/
def jtagIdcode (d : Dev) : Dev := emit (.jtag 0x12800A8B) (jtagLoad 0x01 d)
/-- Test-Logic-Reset: IDCODE is selected (R549). [DEDUCED: log 106] -/
def jtagReset (d : Dev) : Dev := jtagLoad 0x01 d

end Sys2Proof.Machine
end

