-- ==== Sys2Proof/Machine/Bus.lean ====
section
/-! DEFINITION. Register accesses: the page map, the access rules, the Faceplate, the expert key, staging and snapshots
(02_register_pages.md, R29 to R55, R582; 01_architecture.md, R11, R35; 00_scope.md, R3, R4). Every register write and read of every
requester passes through `busWrite` and `busRead`. -/

namespace Sys2Proof.Machine

/-! The expert key machine (R41, R42). -/

/-- Whether the words that a requester writes count in the key windows: PCIe, I3C and table DMA (R42). [DEDUCED: log 53] -/
def keyCounts (req : Requester) : Bool :=
  match req with
  | .spindle => false
  | .service => false
  | _ => true
/-- A written word counts in the window of one page. -/
def keyTickPage (skip : Option Nat) (d : Dev) (p : Nat) : Dev :=
  let f := face p d
  if f.key = .idle ∨ skip = some p then d
  else if f.window ≤ 1 then setFace p { f with key := .idle, window := 0 } d
  else setFace p { f with window := f.window - 1 } d
/-- A written word counts in the window of every page whose machine is ARMED or UNLOCKED, but for the page whose FP_KEY it
writes. [DEDUCED: log 53] -/
def keyTick (req : Requester) (skip : Option Nat) (d : Dev) : Dev :=
  if keyCounts req then (keys d.faces).foldl (keyTickPage skip) d else d
/-- A value written to FP_KEY. -/
def keyWrite (p v : Nat) (d : Dev) : Dev :=
  let f := face p d
  let k := v % 65536
  if k = 0xB0A1 then setFace p { f with key := .armed, window := 64 } d
  else if f.key = .armed ∧ k = 0x1A0B then setFace p { f with key := .unlocked, window := 64 } d
  else setFace p { f with key := .idle, window := 0 } d

/-! Bad accesses (R30, R33, R34, R528). -/

/-- A bad access: counted, and the first one since GLB_BAD_ADDR.VALID was cleared latches its address. -/
def badAccess (addr : Nat) (d : Dev) : Dev :=
  let d := inc Pg.GLB 4 (rset GLB_BAD_ACCESS.COUNT 0 0 (min (rget GLB_BAD_ACCESS.COUNT 0 0 d + 1) 0xFFFFFFFF) d)
  if flag GLB_BAD_ADDR.VALID 0 0 d then d
  else fire Pg.GLB 2 (rset GLB_BAD_ADDR.VALID 0 0 1 (rset GLB_BAD_ADDR.ADDR 0 0 (addr % 2 ^ 28) d))

/-! The Faceplate (R37 to R41, R44 to R50). -/

/-- Whether the island of page p is told to stop (R516). -/
def islStop (p : Nat) (d : Dev) : Bool := flag CLK_ISLn.STOP 0 (islandOf p) d
/-- What refuses a BLK_EN of 1 that was 0: NOT_READY in a stopped island (R516), IN_SERVICE for a cluster whose scratch region
another owner holds (R493); 0 for nothing. [DEDUCED: log 49] -/
def enRefused (p : Nat) (d : Dev) : Nat :=
  if islStop p d then Err.NOT_READY
  else if 0x40 ≤ p ∧ p < 0x80 ∧ regionOwner (p - 0x40) d ≠ 1 then 0x20
  else 0
/-- A write of FP_CTRL: EXPERT under the key (R41, R42), LOWPWR_ALLOW, BLK_RST judged by BLK_EN as it stood (R38), and BLK_EN. [DEDUCED: log 49] -/
def fpCtrlWrite (p v : Nat) (d : Dev) : Dev :=
  let old := face p d
  let unlocked := old.key == .unlocked
  let d := if bit v 1 && !old.expert && !unlocked then err p Err.EXPERT_LOCKED 0x08 d else d
  let f := { face p d with expert := bit v 1 && (old.expert || unlocked), lowpwr := bit v 4 }
  let d := setFace p (if unlocked then { f with key := .idle, window := 0 } else f) d
  let code := if bit v 0 && !old.en then enRefused p d else 0
  let d := if code = 0 then d else err p code 0x08 d
  let on := bit v 0 && code == 0
  if bit v 2 && !old.en then setFace p { face p d with blkRst := true, enPend := on } d
  else
    let d := if bit v 2 then err p Err.BAD_ARG 0x08 d else d
    if old.blkRst then setFace p { face p d with enPend := on } d else setEn p on d
/-- The bits of FP_EVT_MASK that a requester may change: the host's classes, and for the service firmware every source (R45). [DEDUCED: log 50] -/
def maskBits (req : Requester) (p : Nat) : Nat :=
  if req = .service then evtSources p else clrBits (evtSources p) (evtService p)
/-- A write of FP_EVT_PEND_FORCE: service-class sources fire; a host-class bit records BAD_ARG (R46). -/
def pendForce (p v : Nat) (d : Dev) : Dev :=
  let d := (bitsOf 32 (v &&& evtService p)).foldl (fun d n => fire p n d) d
  if v &&& clrBits (evtSources p) (evtService p) = 0 then d else err p Err.BAD_ARG 0x28 d
/-- A claim or release by CAS of an owner (R49, R50): the code recorded, or 0, and the owner afterwards. -/
def ownerCas (req : Requester) (v owner : Nat) : Nat × Nat :=
  let id := v % 65536
  if !bit v 31 then (0, owner)
  else if id = 0 ∨ idRefused req id then (Err.BAD_ARG, owner)
  else if bit v 30 then (if owner = id then (0, 0) else (Err.NOT_OWNER, owner))
  else if owner = 0 ∨ owner = id then (0, id)
  else (Err.OWNER_BUSY, owner)
/-- A write of FP_OWNER. -/
def fpOwnerWrite (req : Requester) (p v : Nat) (d : Dev) : Dev :=
  let (c, o) := ownerCas req v (face p d).owner
  if c = 0 then setFace p { face p d with owner := o } d else err p c 0x34 d
/-- A write of a Faceplate word. FP_CTRL and FP_KEY belong to page 0 of a block of several pages (R31); RO words ignore it. -/
def faceWrite (req : Requester) (p o v : Nat) (d : Dev) : Dev :=
  let f := face p d
  match o with
  | 0x08 => if governor p = p then fpCtrlWrite p v d else d
  | 0x0C => if governor p = p then keyWrite p v d else d
  | 0x1C => evtUpdate (setFace p { f with mask := f.mask ||| (v &&& maskBits req p) } d)
  | 0x20 => evtUpdate (setFace p { f with mask := clrBits f.mask (v &&& maskBits req p) } d)
  | 0x24 => evtUpdate (evtClearCopy p v (setFace p { f with pend := clrBits f.pend v } d))
  | 0x28 => pendForce p v d
  | 0x2C => evtUpdate (setFace p { f with vgroup := v % 64 } d)
  | 0x30 => if v % 256 = 0 then setFace p { f with errOvf := false, errOfs := 0, errCode := 0 } d else d
  | 0x34 => fpOwnerWrite req p v d
  | 0x3C => if v / 65536 = 0 then setFace p { f with overrun := 0 } d else d
  | _ => d
/-- KEY_STATE as a number. -/
def keyCode (k : KeyState) : Nat := match k with | .idle => 0 | .armed => 1 | .unlocked => 2
/-- FP_EPOCH.DRAINING: the block still holds packets of the bank that is not current. A cluster looks at its own passes and the
Mandrel at its queue; the other blocks with epoch-bound state follow the in-flight count of the bank. [DEDUCED: log 46] -/
def drainingOf (p : Nat) (d : Dev) : Bool :=
  let old (x : Pass) : Bool := x.bank != curBank d
  if 0x40 ≤ p ∧ p < 0x80 then
    d.head.passes.any fun x => (x.2.stage == .running || x.2.stage == .held) && x.2.cluster == p - 0x40 && old x.2
  else if p = Pg.MDL then d.head.mandrel.any fun n => match getPass n d with | some x => old x | none => false
  else if (0x30 ≤ p ∧ p < 0x34) ∨ p = Pg.TCM ∨ p = Pg.BRL ∨ p = Pg.EPC ∨ p = Pg.TLS then inflight (1 - curBank d) d != 0
  else false
/-- A read of a Faceplate word; clk is the clock state in which the access found the island. -/
def faceRead (p o clk : Nat) (d : Dev) : Nat :=
  let f := face p d
  let g := face (governor p) d
  match o with
  | 0x00 => typeCode p * 65536 + instanceOf p * 256 + 1
  | 0x04 => b2n (hasExpert p) * 2 ^ 31 + b2n (hasOwner p) * 2 ^ 30 + b2n (allowOf p != 0) * 2 ^ 29 + b2n (evtSources p != 0) * 2 ^ 28 + blockCaps p
  | 0x08 => b2n g.lowpwr * 16 + b2n g.blkRst * 4 + b2n g.expert * 2 + b2n g.en
  | 0x0C => g.window * 2 ^ 24 + keyCode g.key * 65536
  | 0x10 => clk * 16 + b2n (inRetention p d) * 8 + b2n (f.errCode != 0) * 4 + b2n (busyOf p d) * 2 + b2n f.ready
  | 0x14 => f.pend
  | 0x18 => f.mask
  | 0x2C => f.vgroup
  | 0x30 => b2n f.errOvf * 2 ^ 31 + f.errOfs * 65536 + f.errCode
  | 0x34 => f.owner
  | 0x38 =>
    let bank := if onTmDie p then d.d2d.bank else curBank d
    let seq := if onTmDie p then d.d2d.seq else curSeq d
    b2n (drainingOf p d) * 2 ^ 31 + bank * 65536 + seq
  | 0x3C => f.overrun * 65536 + allowOf p
  | _ => 0

/-! Commits: what a write of the highest word of a register does. -/

/-- A register with the layout and protocol of FP_OWNER (R49). -/
def ownerRegWrite (req : Requester) (r : Reg) (i img : Nat) (d : Dev) : Dev :=
  let (c, o) := ownerCas req img (lockHolder r i d)
  if c = 0 then rset ⟨r, 0, 16⟩ 0 i o d else errAt c r 0 i d
/-- A write with an OWNER_ID field that the requester may not present is refused with BAD_ARG (R50). -/
def idGuard (req : Requester) (id : Nat) (r : Reg) (i : Nat) (f : Dev → Dev) (d : Dev) : Dev :=
  if idRefused req id then errAt Err.BAD_ARG r 0 i d else f d
/-- TMS_MIRk: only with the session's owner, and a VOQ (R300). [DESIGN CHOICE: log 37; DEDUCED: log 109] -/
def mirWrite (k img : Nat) (d : Dev) : Dev :=
  if TMS_MIRk.OWNER_ID.of img ≠ lockHolder .TMS_MIRk_OWNER k d then errAt Err.NOT_OWNER .TMS_MIRk 0 k d
  else if 0x1FFFF < TMS_MIRk.QID.of img then errAt Err.BAD_ARG .TMS_MIRk 0 k d
  else storeFields false .TMS_MIRk 0 k img d
/-- D2D_CFG: REPLAY_TMO 20 to 1,000 ns, REPLAY_LIMIT not 0. -/
def d2dCfgWrite (img : Nat) (d : Dev) : Dev :=
  let t := D2D_CFG.REPLAY_TMO.of img
  if t < 20 ∨ 1000 < t ∨ D2D_CFG.REPLAY_LIMIT.of img = 0 then errAt Err.BAD_ARG .D2D_CFG 0 0 d else storeFields false .D2D_CFG 0 0 img d
/-- GLB_RST: a keyed request of a control reset or a chip reset (R519). -/
def glbRstWrite (img : Nat) (d : Dev) : Dev :=
  let s := GLB_RST.SCOPE.of img
  if GLB_RST.KEY.of img ≠ 0x5253 ∨ s = 0 ∨ s = 3 then errAt Err.BAD_ARG .GLB_RST 0 0 d
  else if s = 1 then ctlStart 1 d
  else glbChip d
/-- MGT_RST_REQ: a control reset while RST_EN is 1, recorded by its requester (R440). -/
def mgtRstWrite (req : Requester) (img : Nat) (d : Dev) : Dev :=
  if MGT_RST_REQ.KEY.of img = 0xC7 ∧ flag MGT_CFG.RST_EN 0 0 d then ctlStart (if req = .i3c then 2 else 1) d
  else errAt Err.BAD_ARG .MGT_RST_REQ 0 0 d

/-- Commits of the line side, the parser and the lookup pages. -/
def commitFront (req : Requester) (r : Reg) (g i img : Nat) (d : Dev) : Option Dev :=
  match r with
  | .LPG_PORTn_CFG => some (portCfgWrite g i img d)
  | .LPG_PORTn_PREEMPT => some (preemptWrite g i img d)
  | .LPG_PORTn_MSEC => some (msecWrite g i img d)
  | .LPG_PORTn_TS_CNT => some (tsCntWrite g i img d)
  | .LPG_MODE => some (lpgModeWrite g img d)
  | .LPG_LANE_MAP => some (laneMapWrite g img d)
  | .LPG_SA_CMD => some (saCmdWrite g img d)
  | .HDS_PORTn_CFG => some (hdsPortWrite i img d)
  | .HDS_PORTn_META => some (hdsMetaWrite i img d)
  | .HDS_DPk_CFG => some (dpWrite i img d)
  | .HDS_PROFA => some (profileWrite 0 i img d)
  | .HDS_PROFB => some (profileWrite 1 i img d)
  | .HDS_TMPLA => some (templateWrite 0 i img d)
  | .HDS_TMPLB => some (templateWrite 1 i img d)
  | .HDS_TRACE_CTRL => some (hdsTraceWrite img d)
  | .LPM_CMD => some (lpmCmdWrite req img d)
  | .LPM_LOCKt => some (lockWrite req .LPM_LOCKt i img d)
  | .LPM_LOCK_TMO => some (lockTmoWrite .LPM_LOCK_TMO img d)
  | .LPM_MEM_ADDR => some (lpmMemAddrWrite img d)
  | .XM_TBLn_CFG => some (xmCfgWrite i img d)
  | .XM_TBLn_SEED => some (xmSeedWrite i img d)
  | .XM_TBLn_LRN => some (xmLrnWrite i img d)
  | .XM_CMD => some (xmCmdWrite req img d)
  | .XM_LOCKn => some (learnResume (lockWrite req .XM_LOCKn i img d))
  | .XM_LOCK_TMO => some (learnResume (lockTmoWrite .XM_LOCK_TMO img d))
  | .XM_INS_CFG => some (xmInsCfgWrite img d)
  | .NHT_ACC => some (nhtAccWrite req img d)
  | .NHT_LOCK => some (lockWrite req .NHT_LOCK i img d)
  | .NHT_LOCK_TMO => some (lockTmoWrite .NHT_LOCK_TMO img d)
  | .LRN_CFG => some (lrnCfgWrite img d)
  | .LRN_FLAP => some (lrnFlapWrite img d)
  | .TCM_SLICEk_OWNER => some (ownerRegWrite req .TCM_SLICEk_OWNER i img d)
  | .TCM_GRPAn => some (groupWrite req 0 i img d)
  | .TCM_GRPBn => some (groupWrite req 1 i img d)
  | .TCM_CMD => some (tcmCmdWrite req img d)
  | .TCM_INJECT => some (tcmInjectWrite img d)
  | .BRL_CMD => some (brlCmdWrite img d)
  | .BRL_MEM_ADDR => some (brlMemAddrWrite img d)
  | .ENG_CFG => some (engCfgWrite g img d)
  | .ENG_IMEM_DATA => some (imemWrite g img d)
  | .ENG_DISP_CFG => some (dispCfgWrite img d)
  | .EPC_CFG => some (epcCfgWrite img d)
  | .EPC_SWITCH => some (epcSwitchWrite img d)
  | .EPC_X_CFG => some (epcXWrite img d)
  | .MDL_CFG => some (mdlCfgWrite req img d)
  | _ => none

/-- Commits of the TM die's pages. -/
def commitTm (req : Requester) (r : Reg) (g i img : Nat) (d : Dev) : Option Dev :=
  match r with
  | .CHK_POOLn_CFG => some (poolCfgWrite i img d)
  | .CHK_POOLn_SPILL => some (poolSpillWrite i img d)
  | .CHK_POOLn_ADMIT => some (poolAdmitWrite i img d)
  | .CHK_POOLn_MIN => some (poolMinWrite i d)
  | .CHK_SRCs_CFG => some (srcCfgWrite i img d)
  | .CHK_CELL_CMD => some (cellCmdWrite img d)
  | .CHK_MARCH_CTRL => some (marchWrite img d)
  | .CHK_INJECT => some (chkInjectWrite img d)
  | .D2D_CFG => some (d2dCfgWrite img d)
  | .D2D_X_CAL => some (expertWrite .D2D_X_CAL (D2D_X_CAL.CAL_MS.of img != 0) 0 0 img d)
  | .HBM_FREQ => some (freqWrite g img d)
  | .HBM_RETRAIN => some (retrainWrite g img d)
  | .HBM_TEMP => some (hbmTempMax g d)
  | .HBM_SCRUB => some (hbmScrubWrite g img d)
  | .HBM_X_WQ => some (hbmWqWrite g img d)
  | .HBM_X_SLOW => some (hbmSlowWrite g img d)
  | .HBM_X_READ_TMO => some (hbmTmoWrite g img d)
  | .HBM_X_INJECT => some (hbmInjectWrite g img d)
  | .TMS_CFG => some (tmsCfgWrite img d)
  | .TMS_PORTn_CFG => some (tmsPortWrite i img d)
  | .TMS_PORTn_EQ => some (tmsEqWrite i img d)
  | .TMS_MIRk => some (idGuard req (TMS_MIRk.OWNER_ID.of img) .TMS_MIRk i (mirWrite i img) d)
  | .TMS_MIRk_OWNER => some (ownerRegWrite req .TMS_MIRk_OWNER i img d)
  | .TMS_Q_CMD => some (queueCmdWrite img d)
  | .TMS_NODE_CMD => some (nodeCmdWrite img d)
  | .TMS_WREDk => some (wredWrite i img d)
  | .TMS_CR_CFG => some (crCfgWrite img d)
  | .TMS_CR_CLASSc => some (crClassWrite i img d)
  | .TMS_CR_PORTn => some (crPortWrite i img d)
  | .MTR_CMD => some (mtrCmdWrite img d)
  | .MTR_PROFp => some (mtrProfWrite i img d)
  | .FAB_LANE_EN => some (laneEnWrite g img d)
  | .FCT_MGR_CFG => some (mgrCfgWrite img d)
  | .FCT_MGR_CMD => some (mgrCmdWrite img d)
  | .FCT_X_LINK => some (fctLinkWrite img d)
  | .FCT_X_LAG => some (fctLagWrite img d)
  | .FCT_X_LAG1 => some (fctLag1Write img d)
  | .CNT_ACC => some (cntAccWrite .clean .clean img d)
  | .CNT_SNAP_CFG => some (snapCfgWrite img d)
  | .CNT_SNAP_CMD => some (snapCmdWrite img d)
  | _ => none

/-- Commits of the host, service, time, event and chip pages. [DESIGN CHOICE: log 96] -/
def commitHost (req : Requester) (r : Reg) (i img : Nat) (d : Dev) : Option Dev :=
  match r with
  | .SPN_ADJ => some (spnAdjWrite img d)
  | .SPN_RATE => some (spnRateWrite img d)
  | .SPN_CFG => some (spnCfgWrite img d)
  | .SPN_SERVO => some (spnServoWrite img d)
  | .SPN_PPS_OUT => some (idGuard req (SPN_PPS_OUT.OWNER_ID.of img) .SPN_PPS_OUT 0 (ppsOutWrite img) d)
  | .SPN_SYNC_OUT_OWNER => some (ownerRegWrite req .SPN_SYNC_OUT_OWNER i img d)
  | .SPN_ACT_CMD => some (actCmdWrite req img d)
  | .SPN_GCL_DATA => some (gclWrite img d)
  | .SPN_GATEn_ADMIN => some (gateAdminWrite i img d)
  | .SVC_RING_CFG => some (svcRingCfgWrite img d)
  | .SVC_FW_CMD => some (fwCmdWrite img d)
  | .SVC_WHEEL_CMD => some (wheelWrite req img d)
  | .SVC_MBOX_CMD => some (mboxWrite img d)
  | .HIF_RINGn_BASE => some (ringBaseWrite i img d)
  | .HIF_RINGn_CFG => some (ringCfgWrite i img d)
  | .HIF_RINGn_TAIL => some (ringTailWrite i img d)
  | .HIF_CQn_BASE => some (cqBaseWrite i img d)
  | .HIF_CQn_CFG => some (cqCfgWrite i img d)
  | .HIF_CQn_MOD => some (cqModWrite i img d)
  | .HIF_CQn_HEAD => some (cqHeadWrite i img d)
  | .MGT_RST_REQ => some (mgtRstWrite req img d)
  | .EVT_GRPg_CFG => some (grpCfgWrite i img d)
  | .EVT_EOI => some (eoiWrite img d)
  | .EVT_QUERY => some (queryWrite req img d)
  | .EVT_ALERT => some (idGuard req (EVT_ALERT.OWNER_ID.of img) .EVT_ALERT 0 (alertWrite img) d)
  | .AON_WATCHk => some (watchWrite i img d)
  | .HWD_UTC => some (utcWrite img d)
  | .HWD_WIN_ADDR => some (winAddrWrite img d)
  | .HWD_WIN_DATA => some (winWrite img d)
  | .HWD_FLUSH => some (hwdFlushWrite img d)
  | .MEM_CFG => some (memCfgWrite img d)
  | .MEM_GRANTr => some (grantWrite req i img true d)
  | .MEM_TEST_CTRL => some (memTestWrite img d)
  | .VLT_CMD => some (vltCmdWrite img d)
  | .VLT_LC => some (lcWrite (expertOf Pg.VLT d) img d)
  | .GLB_RST => some (glbRstWrite img d)
  | .GLB_PWR_PEAK => some (pwrPeakWrite d)
  | .CLK_ISLn => some (islWrite i img d)
  | _ => none

/-- A committed register image: the register's own effect, or the plain rule of R4 for its access types. -/
def commit (req : Requester) (r : Reg) (g i img : Nat) (d : Dev) : Dev :=
  match commitFront req r g i img d with
  | some d => d
  | none =>
    match commitTm req r g i img d with
    | some d => d
    | none =>
      match commitHost req r i img d with
      | some d => d
      | none => if r.fields.any (·.acc == .rwx) then expertWrite r true g i img d else storeFields false r g i img d

/-! Staging and snapshots (R53 to R55). -/

/-- The key of a requester's staging copy or snapshot in a page. -/
def stageKey (req : Requester) (p : Nat) : Nat := reqIndex req * 65536 + p
/-- Word k of an image. -/
def imgWord (img k : Nat) : Nat := bits img (32 * k + 31) (32 * k)
/-- The words of an image of n words. -/
def imgWords (img n : Nat) : Tbl Nat := (List.range n).map fun k => (k, imgWord img k)
/-- Hold a word in the requester's staging copy; a word of another register displaces what was staged (R54). -/
def stageWord (req : Requester) (p base k v : Nat) (d : Dev) : Dev :=
  let key := stageKey req p
  let s := look d.staged key {}
  let ws := if s.base = base then s.words else []
  { d with staged := ins d.staged key { base := base, words := ins ws k v } }
/-- The words of a register staged by a requester. -/
def stagedWords (req : Requester) (p base : Nat) (d : Dev) : Tbl Nat :=
  match find? d.staged (stageKey req p) with
  | some s => if s.base = base then s.words else []
  | none => []
/-- The image that a write of the highest word commits: the staged words below it, the register's own where none is staged. -/
def commitImg (ws : Tbl Nat) (cur n v : Nat) : Nat :=
  ((List.range (n - 1)).foldl (fun a k => a + look ws k (imgWord cur k) * 2 ^ (32 * k)) 0) + v * 2 ^ (32 * (n - 1))
/-- The staging copy of a committed register is used up. -/
def unstage (req : Requester) (p base : Nat) (d : Dev) : Dev :=
  match find? d.staged (stageKey req p) with
  | some s => if s.base = base then { d with staged := del d.staged (stageKey req p) } else d
  | none => d
/-- Serve a read of word k of something of n words whose image is img (R55). -/
def serveRead (req : Requester) (p base n k img : Nat) (d : Dev) : Nat × Dev :=
  if n = 1 then (imgWord img 0, d)
  else if k = 0 then (imgWord img 0, { d with snaps := ins d.snaps (stageKey req p) { base := base, words := imgWords img n } })
  else
    match find? d.snaps (stageKey req p) with
    | some s => (if s.base = base then look s.words k 0 else imgWord img k, d)
    | none => (imgWord img k, d)

/-! Registers whose value the device computes as it is read, and reads with an effect. -/

/-- The device as its computed registers show it: what a read of register r would find. -/
def liveView (r : Reg) (i : Nat) (d : Dev) : Dev :=
  match r with
  | .SPN_TIME => rset SPN_TIME.SEC 0 0 (secOf d.spn.time) (rset SPN_TIME.NS 0 0 (nsOf d.spn.time) (rset SPN_TIME.FRAC 0 0 (fracOf d.spn.time) d))
  | .SPN_GATEn_STAT => gateRefresh i d
  | .EVT_GRP_ACTIVE => rset EVT_GRP_ACTIVE.ACTIVE 0 0 d.evt.active d
  | .EVT_GRP_RAISED => rset EVT_GRP_RAISED.RAISED 0 0 (raisedGroups d) d
  | .EVT_VEC_HELDw => rset EVT_VEC_HELDw.HELD 0 i (imgWord d.evt.held i) d
  | .AON_STAT => rset AON_STAT.WAKE_ASSERTED 0 0 (b2n d.aon.wakeN) d
  | .HWD_TOTALS => rset HWD_TOTALS.TOTAL 0 i (totalsLive i d) d
  | _ => d
/-- The effect of a read of the lowest word: pops and fetches (R67, R143, R206, R253, R344, R352, R487). -/
def readEffect (r : Reg) (g i : Nat) (d : Dev) : Dev :=
  match r with
  | .LPG_PORTn_TS_FIFO => tsPop (4 * g + i) d
  | .LRN_LOG => lrnLogPop d
  | .CHK_BADFREE_LOG => badFreePop d
  | .SPN_TIMER_FIFO => timerPop d
  | .ENG_IMEM_DATA => imemRead g d
  | .SPN_GCL_DATA => gclRead d
  | .HWD_WIN_DATA => let (v, d) := winRead d; rset HWD_WIN_DATA.DATA 0 0 v d
  | .BRL_MEM_DATA => brlMemRead d
  | .LPM_MEM_DATA => lpmMemRead d
  | .CHK_MARCH_STAT => marchRead d
  | _ => d

/-! Accesses. -/

/-- Byte address of the MSI-X table and the PBA within the HIF page (15_host_interface.md). -/
def inMsix (p o : Nat) : Bool := p == Pg.HIF && decide (0x5000 ≤ o ∧ o < 0x7040) && o % 4 == 0
/-- Write a word of the MSI-X table; the PBA is read only. -/
def msixWrite (o v : Nat) (d : Dev) : Dev := if o < 0x7000 then msixTblWrite ((o - 0x5000) / 4) v d else d
/-- Read a word of the MSI-X table or the PBA. -/
def msixRead (o : Nat) (d : Dev) : Nat := if o < 0x7000 then msixTblRead ((o - 0x5000) / 4) d else imgWord d.evt.pba ((o - 0x7000) / 4)
/-- The effect of a write at offset o of page p outside the Faceplate, of a page that is READY. -/
def wordWrite (req : Requester) (p o v : Nat) (d : Dev) : Dev :=
  if o = 0x40 then pcCtlWrite p v d
  else if 0x44 ≤ o ∧ o < 0x64 ∧ o % 4 = 0 then pcCfgWrite p ((o - 0x44) / 4) v d
  else if 0x80 ≤ o ∧ o < 0xC0 ∧ o % 4 = 0 then
    let i := (o - 0x80) / 8
    let base := 0x80 + 8 * i
    if o % 8 = 0 then stageWord req p base 0 v d
    else pcValWrite p i (look (stagedWords req p base d) 0 (pcRead p base d) + v * 2 ^ 32) (unstage req p base d)
  else if 0xC0 ≤ o ∧ o < 0x100 ∧ o % 4 = 0 then d
  else if inMsix p o then msixWrite o v d
  else if isCounter p o then d
  else
    match placeAt p o with
    | none => err p Err.BAD_ARG o d
    | some x =>
      let n := x.reg.lay.words
      let base := x.reg.ofs x.i 0
      if x.word + 1 < n then stageWord req p base x.word v d
      else commit req x.reg x.g x.i (commitImg (stagedWords req p base d) (regImg x.reg x.g x.i (liveView x.reg x.i d)) n v) (unstage req p base d)
/-- Whether offset o of page p is defined (R32). -/
def defined (p o : Nat) : Bool :=
  (decide (0x40 ≤ o ∧ o < 0x64) || decide (0x80 ≤ o ∧ o < 0x100)) && o % 4 == 0 || inMsix p o || isCounter p o || (placeAt p o).isSome
/-- The places of the dispatch registers in ENG pages other than page 0, which read 0 and ignore writes (07_action_engines.md,
The ENG pages). -/
def dispElsewhere (p o : Nat) : Bool := decide (Pg.ENG < p ∧ p < Pg.ENG + 64) && (o == 0x800 || o == 0x804 || o == 0x8800)
/-- A write to page p: the Faceplate always, any other word only while the page is READY (R32, R36). [DEDUCED: log 48] -/
def pageWrite (req : Requester) (p o v : Nat) (d : Dev) : Dev :=
  if o < 0x40 then faceWrite req p o v d
  else if dispElsewhere p o then d
  else if !defined p o then err p Err.BAD_ARG o d
  else if !(face p d).ready then err p Err.NOT_READY o d
  else wordWrite req p o v d
/-- The page whose own FP_KEY a word writes. [DEDUCED: log 53] -/
def keySkip (p o : Nat) : Option Nat := if o = 0x0C ∧ governor p = p then some p else none
/-- A register write of one word, carried out. -/
def doWrite (req : Requester) (addr v : Nat) (d : Dev) : Dev :=
  let p := addr / 65536
  let o := addr % 65536
  if !pageExists p then keyTick req none (badAccess addr d)
  else keyTick req (keySkip p o) (pageWrite req p o v (islAccess (islandOf p) d))
/-- A read at offset o of page p outside the Faceplate. [DEDUCED: log 48] -/
def wordRead (req : Requester) (p o : Nat) (d : Dev) : Nat × Dev :=
  if 0x40 ≤ o ∧ o < 0x80 then (if o % 4 = 0 then pcRead p o d else 0, d)
  else if 0x80 ≤ o ∧ o < 0x100 ∧ o % 4 = 0 then
    let base := o / 8 * 8
    serveRead req p base 2 (o / 4 % 2) (pcRead p base d + pcRead p (base + 4) d * 2 ^ 32) d
  else if inMsix p o then (msixRead o d, d)
  else if isCounter p o then serveRead req p (o / 8 * 8) 2 (o / 4 % 2) (ctr p (o / 8 * 8) d) d
  else
    match placeAt p o with
    | none => (0, d)
    | some x =>
      if x.reg = .EVT_QUERY then queryRead req d
      else
        let d := if x.word = 0 then readEffect x.reg x.g x.i d else d
        serveRead req p (x.reg.ofs x.i 0) x.reg.lay.words x.word (regImg x.reg x.g x.i (liveView x.reg x.i d)) d
/-- A register read of one word, carried out: the value and the device afterwards. -/
def doRead (req : Requester) (addr : Nat) (d : Dev) : Nat × Dev :=
  let p := addr / 65536
  let o := addr % 65536
  if !pageExists p then (0, badAccess addr d)
  else
    let clk := islState (islandOf p) d
    let d := islAccess (islandOf p) d
    if o < 0x40 then (faceRead p o clk d, d) else wordRead req p o d

/-- Whether a requester's access is held while a control reset runs: PCIe (R523). [DEDUCED: log 52] -/
def heldNow (req : Requester) (d : Dev) : Bool := req == .pcie && d.sys.ctlRun.isSome
/-- Hold a PCIe access until the control reset completes. [DEDUCED: log 52] -/
def holdAccess (addr : Nat) (v : Option Nat) (d : Dev) : Dev :=
  { d with hif := { d.hif with ctlHeld := d.hif.ctlHeld ++ [(addr, v, reqIndex .pcie)] } }
/-- A register write of one word by a requester. Nothing reaches a device that is held in reset. [DESIGN CHOICE: log 54] -/
def busWrite (req : Requester) (addr v : Nat) (d : Dev) : Dev :=
  if !alive d then d else if heldNow req d then holdAccess addr (some v) d else doWrite req addr v d
/-- A register read of one word by a requester, with its reply. -/
def busRead (req : Requester) (addr : Nat) (d : Dev) : Dev :=
  if !alive d then d
  else if heldNow req d then holdAccess addr none d
  else let (v, d) := doRead req addr d; emit (.readReply req addr v) d
/-- A bad access by byte enables (R33) or of an oversize request that writes n words (R34): nothing else is carried out. -/
def badRequest (req : Requester) (addr n : Nat) (d : Dev) : Dev :=
  if !alive d then d else Nat.repeat (keyTick req none) n (badAccess addr d)
/-- A write whose refusal the requester learns: the code that the addressed page recorded for it, or 0 (R349, R430). [DESIGN CHOICE: log 10] -/
def writeCode (req : Requester) (addr v : Nat) (d : Dev) : Nat × Dev :=
  let d := doWrite req addr v { d with lastErr := none }
  match d.lastErr with
  | some (p, c) => (if p = addr / 65536 then c else 0, { d with lastErr := none })
  | none => (0, d)
/-- The accesses that a control reset held are served in arrival order (R523 step 6). [DEDUCED: log 52] -/
def serveHeld (d : Dev) : Dev :=
  d.hif.ctlHeld.foldl (fun d (x : Nat × Option Nat × Nat) => match x.2.1 with
    | some v => busWrite .pcie x.1 v d
    | none => busRead .pcie x.1 d) { d with hif := { d.hif with ctlHeld := [] } }
/-- A control reset completes (R523). -/
def controlDone (d : Dev) : Dev :=
  let d' := ctlFinish d
  if d.sys.ctlRun.isSome && d'.sys.ctlRun.isNone then serveHeld d' else d'

end Sys2Proof.Machine
end

