-- ==== Sys2Proof/Machine/D2d.lean ====
section
/-! DEFINITION. The link between the dies: flits, replay, records and wire calibration (09_chuck_buffers.md, R260 to R265,
R267, R270). What waits to cross stands in the State of its sender; a flit carries its records as R261 to R263 lay them out, and a
record acts at its receiver where it is one that its sender has waiting. -/

namespace Sys2Proof.Machine

/-- One direction: FE to TM (toTm) or TM to FE. -/
def dirOf (toTm : Bool) (d : Dev) : D2dDir := if toTm then d.d2d.ft else d.d2d.tf
/-- Set one direction. -/
def setDir (toTm : Bool) (x : D2dDir) (d : Dev) : Dev := onD2d (fun l => if toTm then { l with ft := x } else { l with tf := x }) d
/-- Count counter i of a direction (R270). -/
def d2dInc (toTm : Bool) (i n : Nat) (d : Dev) : Dev := incBy Pg.D2D (if toTm then i else i + 8) n d
/-- Whether a direction is up. -/
def d2dUp (toTm : Bool) (d : Dev) : Bool := if toTm then flag D2D_STAT.UP_FT 0 0 d else flag D2D_STAT.UP_TF 0 0 d

/-- The ingress source that a chain's tag belongs to (R243). -/
def tagSource (t : Nat) : Option Nat :=
  if 0x800 ≤ t then some ((t - 0x800) / 16) else if 0x100 ≤ t ∧ t < 0x140 then some 128 else if 0x140 ≤ t ∧ t < 0x150 then some 129 else none
/-- The stream of a source: its ingress port. -/
def sourceStream (s : Nat) : Nat := if s = 128 then 240 else if s = 129 then 249 else s

/-! Record layouts (R261 to R263). -/

/-- Bytes packed into words, the last one padded with zeros. -/
def packWords : Nat → Bytes → List Nat
  | 0, _ => []
  | k + 1, bs => if bs.isEmpty then [] else beAt bs 0 8 :: packWords k (bs.drop 8)
/-- The words of n data bytes. -/
def dataWords (bs : Bytes) : List Nat := packWords ((bs.length + 7) / 8) bs
/-- The header word of a record with `pre` words in front of n data bytes (R261). -/
def recHead (rtype stream : Nat) (last : Bool) (pre n : Nat) : Nat :=
  rtype * 2 ^ 61 + stream % 256 * 2 ^ 53 + b2n last * 2 ^ 52 + (pre + (n + 7) / 8) % 256 * 2 ^ 44 + (n + 7) % 8 * 2 ^ 41
/-- A BODY record toward the TM die (R262). -/
def bodyWords (r : BodyRec) : List Nat := recHead 1 r.port r.last 0 r.bytes.length :: dataWords r.bytes
/-- The 320-bit verdict record (R262). A PUNT names neither a queue nor a code in [314:296]: the field is 0. [DESIGN CHOICE: log 60] -/
def verdictImg (v : Verd) : Nat :=
  let opt (x : Option Nat) : Nat := match x with | some i => i | none => 0
  let s (f : Span) (y x : Nat) : Nat := f.set y x
  let x := s (319, 317) 2 (s (316, 315) v.kind (s (314, 296) (if v.kind = 0 then v.qid else if v.kind = 1 then v.code else 0) 0))
  let x := s (295, 275) v.nh (s (274, 269) v.hostq (s (268, 268) (b2n v.copyHost) (s (267, 267) (b2n v.mirror.isSome) (s (266, 263) (opt v.mirror) x))))
  let x := s (262, 262) (b2n v.cnt0.isSome) (s (261, 241) (opt v.cnt0) (s (240, 240) (b2n v.cnt1.isSome) (s (239, 219) (opt v.cnt1) x)))
  let x := s (218, 218) (b2n v.meter.isSome) (s (217, 199) (opt v.meter) (s (198, 185) v.len (s (184, 163) v.cell (s (162, 99) v.carry x))))
  s (98, 51) v.time (s (50, 43) v.port (s (42, 11) v.hash (s (10, 7) v.cls (s (6, 5) v.color x))))
/-- A VERDICT record and the words of its head. -/
def verdictWords (v : Verd) : List Nat := (List.range 5).map (fun i => bits (verdictImg v) (319 - 64 * i) (256 - 64 * i)) ++ dataWords v.head
/-- Bytes of a frame that its next record toward the FE die carries, and whether they end it: an EGRESS record takes 2,008, a BODY
record behind it 2,040 (R261, R262). A frame whose read failed does not end: ABORT follows it (R257, R263). -/
def egressNext (r : EgrRec) : Nat × Bool :=
  let n := min (r.bytes.length - r.off) (if r.off = 0 then egressWhole else 2040)
  (n, decide (r.bytes.length ≤ r.off + n) && !r.bad)
/-- The next record of a frame toward the FE die: EGRESS with the egress context, then BODY (R262). -/
def egressWords (r : EgrRec) : List Nat :=
  let (n, last) := egressNext r
  let bs := (r.bytes.drop r.off).take n
  if r.off = 0 then recHead 3 r.port last 4 n :: (List.range 4).map (fun i => bits r.ctx (255 - 64 * i) (192 - 64 * i)) ++ dataWords bs
  else recHead 1 r.port last 0 n :: dataWords bs

/-! Records at their receiver (R262, R263). -/

/-- REG_WR: a TM-die register is written for a requester. [DESIGN CHOICE: log 54] -/
def regWr (req : Requester) (addr v : Nat) (d : Dev) : Dev :=
  if onTmDie (addr / 65536) && pageExists (addr / 65536) then busWrite req addr v d else d
/-- REG_RD: a TM-die register is read; its value waits in a REG_RSP record under its TAG. -/
def regRd (req : Requester) (tag addr : Nat) (d : Dev) : Dev :=
  if alive d && onTmDie (addr / 65536) && pageExists (addr / 65536) then
    let (v, d) := doRead req addr d
    onD2d (fun l => { l with rsp := l.rsp ++ [(tag, v)] }) d
  else d
/-- REG_RSP: the oldest response reaches the FE die with its TAG. -/
def regRsp (d : Dev) : Dev :=
  match d.d2d.rsp with
  | [] => d
  | (tag, v) :: t => emit (.regRsp tag v) (onD2d (fun l => { l with rsp := t }) d)
/-- An EPOCH record arrives: the TM die learns BANK and EPOCH_SEQ. -/
def epochTake (bank seq : Nat) (d : Dev) : Dev := onD2d (fun l => { l with bank := bank, seq := seq }) d
/-- EPOCH: the current bank and EPOCH_SEQ reach the TM die. -/
def epochToTm (d : Dev) : Dev := epochTake (curBank d) (curSeq d) d
/-- HANDLES: the oldest waiting handles of a stream, where they are these (R248). -/
def handlesTake (stream : Nat) (l : List Nat) (d : Dev) : Dev :=
  match d.cross.handles.find? fun x => sourceStream x.1 == stream with
  | some x =>
    if x.2 = l then
      { d with cross := { d.cross with handles := d.cross.handles.erase x }, srcCache := put d.srcCache x.1 [] (look d.srcCache x.1 [] ++ l) }
    else d
  | none => d
/-- Take n packets of a stream out of the waiting reports. -/
def donesDrop (port : Nat) : Nat → List (Nat × Nat) → List (Nat × Nat)
  | _, [] => []
  | n, x :: t =>
    if x.1 ≠ port then x :: donesDrop port n t
    else if x.2 ≤ n then donesDrop port (n - x.2) t
    else (port, x.2 - n) :: t
/-- DONE: n packets of an egress stream are reported finished, where that many wait to be reported (R254). -/
def doneTake (port n : Nat) (d : Dev) : Dev :=
  if ((d.cross.dones.filter fun x => x.1 == port).map (·.2)).sum < n then d
  else finishSent port n { d with cross := { d.cross with dones := donesDrop port n d.cross.dones } }
/-- The first cell of the current frame of an ingress stream: the one whose body has begun and not ended, else that of its oldest
BODY record. -/
def streamCell (s : Nat) (d : Dev) : Option Nat :=
  match d.chk.builds.find? fun x => x.2.open_ && (tagSource x.2.tag).map sourceStream == some s with
  | some x => some x.1
  | none => (d.cross.bodies.find? fun r => r.port == s).map (·.cell)
/-- The frame of a first cell was cut off: the rest of its body never comes, its chain ends here and is marked for CHK_D2D
(R264, R266). -/
def abortCell (h : Nat) (d : Dev) : Dev :=
  let d := { d with cross := { d.cross with bodies := d.cross.bodies.filter fun r => r.cell != h } }
  match find? d.chk.builds h with
  | some b => abortChain h { b with open_ := false } 0x62 d
  | none => d
/-- ABORT toward the TM die. -/
def abortStream (s : Nat) (d : Dev) : Dev := match streamCell s d with | some h => abortCell h d | none => d
/-- What has crossed of a frame is all of it: the frame reaches the Tailstock. -/
def egressArrive (r : EgrRec) (bad : Bool) (d : Dev) : Dev :=
  { d with cross := { d.cross with egress := d.cross.egress.erase r, arrived := d.cross.arrived ++ [{ r with bytes := r.bytes.take r.off, bad := bad }] } }
/-- ABORT toward the FE die: the frame under way on an egress stream ends with what has crossed, and leaves with a bad FCS (R257). -/
def abortEgress (s : Nat) (d : Dev) : Dev :=
  match d.cross.egress.find? fun r => r.port == s with
  | some r => if r.off = 0 then d else egressArrive r true d
  | none => d
/-- ABORT. -/
def abortRecord (toTm : Bool) (s : Nat) (d : Dev) : Dev := if toTm then abortStream s d else abortEgress s d
/-- EGRESS with the BODY records behind it: the oldest released frame reaches the Tailstock. [DESIGN CHOICE: log 60] -/
def egressRecord (d : Dev) : Dev :=
  match d.cross.egress with
  | [] => d
  | r :: _ => egressArrive { r with off := r.bytes.length } r.bad { d with cross := { d.cross with egress := { r with off := r.bytes.length } :: d.cross.egress.tail } }
/-- An EGRESS or BODY record of a stream toward the FE die, where it is the next one of the frame under way. -/
def egressTake (ws : List Nat) (stream : Nat) (d : Dev) : Dev :=
  match d.cross.egress.find? fun r => r.port == stream with
  | some r =>
    if egressWords r ≠ ws then d
    else
      let (n, last) := egressNext r
      let r' := { r with off := r.off + n }
      let d := { d with cross := { d.cross with egress := d.cross.egress.map fun x => if x = r then r' else x } }
      if last then egressArrive r' false d else d
  | none => d
/-- A BODY record toward the TM die, where it is the oldest of its stream. -/
def bodyTake (ws : List Nat) (stream : Nat) (d : Dev) : Dev :=
  match d.cross.bodies.find? fun r => r.port == stream with
  | some r => if bodyWords r = ws then bodyStore r { d with cross := { d.cross with bodies := d.cross.bodies.erase r } } else d
  | none => d
/-- A VERDICT record, where it is the oldest that waits. -/
def verdictTake (ws : List Nat) (d : Dev) : Dev :=
  match d.cross.verdicts with
  | v :: _ => if verdictWords v = ws then verdictRecord d else d
  | [] => d

/-! Parsing (R261, R262). -/

/-- Words that the record at the head of a list takes, as its first word says: padding 1; a VERDICT record 5 words and its head;
any other its header word and NW words. -/
def recWords (ws : List Nat) (d : Dev) : Nat :=
  let w := ws.headD 0
  match bits w 63 61 with
  | 2 =>
    let cell := bits (ws.getD 2 0) 56 35
    let head := match (d.cross.verdicts ++ d.chk.waiting).find? fun v => v.cell == cell with | some v => v.head.length | none => 0
    5 + (head + 7) / 8
  | 1 | 3 | 4 => 1 + bits w 51 44
  | _ => 1
/-- Cut a stream of words into whole records, and what is left over. -/
def cutRecs (d : Dev) : Nat → List Nat → List (List Nat) × List Nat
  | 0, ws => ([], ws)
  | k + 1, ws =>
    if ws.isEmpty then ([], [])
    else
      let n := recWords ws d
      if ws.length < n then ([], ws)
      else let (l, rest) := cutRecs d k (ws.drop n); (ws.take n :: l, rest)
/-- The handles of a HANDLES record: two in each of the words 2 to 4. -/
def handleList (n : Nat) (ws : List Nat) : List Nat := ((ws.drop 2).flatMap fun w => [bits w 53 32, bits w 21 0]).take n
/-- A CONTROL record arrives; its words from the header word on (R263). A RESET record of scope 2 is part of the chip reset, which
takes both dies and the link at once (R519). [DESIGN CHOICE: log 60] -/
def runControl (toTm : Bool) (ws : List Nat) (d : Dev) : Dev :=
  let c := ws.getD 1 0
  if toTm then
    match bits c 63 56 with
    | 0x01 => regWr .pcie (bits c 47 20) (ws.getD 2 0 % 2 ^ 32) d
    | 0x02 => regRd .pcie (bits c 55 48) (bits c 47 20) d
    | 0x06 => doneTake (bits c 47 40) (bits c 39 32) d
    | 0x07 => timeTake (ws.drop 1) d
    | 0x08 => epochTake (bits c 16 16) (bits c 15 0) d
    | 0x09 => if some (bits c 1 0) = d.sys.resetRec then resetRecord d else d
    | 0x0A => abortStream (bits c 47 40) d
    | _ => d
  else
    match bits c 63 56 with
    | 0x03 => if (d.d2d.rsp.head?.map fun x => (x.1, x.2)) = some (bits c 55 48, ws.getD 2 0 % 2 ^ 32) then regRsp d else d
    | 0x04 => eventTake (bits c 47 36) (bits c 31 0) d
    | 0x05 => handlesTake (bits c 47 40) (handleList (bits c 35 32) ws) d
    | 0x0A => abortEgress (bits c 47 40) d
    | _ => d
/-- A record arrives. [DESIGN CHOICE: log 60] -/
def runRec (toTm : Bool) (ws : List Nat) (d : Dev) : Dev :=
  let w := ws.headD 0
  match bits w 63 61 with
  | 1 => if toTm then bodyTake ws (bits w 60 53) d else egressTake ws (bits w 60 53) d
  | 2 => if toTm then verdictTake ws d else d
  | 3 => if toTm then d else egressTake ws (bits w 60 53) d
  | 4 => runControl toTm ws d
  | _ => d

/-! Flits (R260, R264). -/

/-- A flit's header fields and payload words (R260). -/
structure Flit where
  ftype : Nat := 1
  seq : Nat := 0
  ack : Nat := 0
  ackv : Bool := false
  nak : Bool := false
  resync : Bool := false
  first : Nat := 63
  words : List Nat
  deriving DecidableEq, Repr
/-- The 384 bytes of a flit, with its CRC over bytes 0 to 375 (R260). -/
def flitBytes (f : Flit) : Bytes :=
  let hdr := f.ftype % 16 * 2 ^ 188 + f.seq % 4096 * 2 ^ 176 + f.ack % 4096 * 2 ^ 164 + b2n f.ackv * 2 ^ 163 + b2n f.nak * 2 ^ 162 +
    b2n f.resync * 2 ^ 161 + f.first % 64 * 2 ^ 155
  let bs := beBytes 24 hdr ++ wordsBytes f.words
  bs ++ beBytes 4 (crc32c bs) ++ List.replicate 4 0
/-- The fields that 384 bytes hold. -/
def flitOf (bs : Bytes) : Flit :=
  let h := beAt bs 0 8
  { ftype := bits h 63 60, seq := bits h 59 48, ack := bits h 47 36, ackv := bit h 35, nak := bit h 34, resync := bit h 33, first := bits h 32 27,
    words := (List.range 44).map fun i => beAt bs (24 + 8 * i) 8 }
/-- Whether the CRC of 384 bytes is good. -/
def flitGood (bs : Bytes) : Bool := crc32c (bs.take 376) == beAt bs 376 4
/-- The bytes of a flit after errors on the wires: bit i is bit i % 8 of byte i / 8. -/
def flipBits (bs : Bytes) (l : List (Fin 3072)) : Bytes :=
  l.foldl (fun (b : Bytes) (i : Fin 3072) => b.set (i.val / 8) (b.getD (i.val / 8) 0 ^^^ BitVec.ofNat 8 (2 ^ (i.val % 8)))) bs

/-- Whether sequence number a stands at or before b. -/
def seqUpTo (a b : Nat) : Bool := decide ((b + 4096 - a % 4096) % 4096 < 2048)
/-- An acknowledgement reaches the sender of the other direction. -/
def ackFlits (toTm : Bool) (ack : Nat) (d : Dev) : Dev :=
  let x := dirOf toTm d
  setDir toTm { x with held := x.held.dropWhile fun h => seqUpTo h.seq ack } d
/-- The sender resends every flit it holds; one that has been resent REPLAY_LIMIT times is lost instead (R264). -/
def resendFlits (toTm : Bool) (d : Dev) : Dev :=
  let x := dirOf toTm d
  match x.held with
  | [] => d
  | o :: _ =>
    if rget D2D_CFG.REPLAY_LIMIT 0 0 d ≤ o.tries then d
    else
      let again (h : HeldFlit) : HeldFlit := { h with tries := h.tries + 1, at_ := d.mono }
      d2dInc toTm 3 x.held.length (setDir toTm { x with held := x.held.map again } d)
/-- Where the first record that starts in a flit stands: behind the words that a record of the flit before still takes, and behind
padding; 63 for none (R260). -/
def firstOf (tail ws : List Nat) (d : Dev) : Nat :=
  let n := if tail.isEmpty then 0 else recWords (tail ++ ws) d - tail.length
  ((List.range 44).find? fun i => decide (n ≤ i) && ws.getD i 0 != 0).getD 63
/-- Whether a flit's acknowledgement fields are those of its sender, which receives the other direction: the highest SEQ received
in order, and NAK from a failed CRC to the resend (R260, R264). A flit takes no time on the wires. [DESIGN CHOICE: log 60] -/
def ackTrue (toTm : Bool) (f : Flit) (d : Dev) : Bool :=
  let y := dirOf (!toTm) d
  f.ackv == y.got && (!f.ackv || f.ack == (y.exp + 4095) % 4096) && f.nak == y.bad
/-- A TRAFFIC flit leaves its sender: a SEQ in the replay buffer is a resend of what is held there; else it is the next SEQ, it
enters the buffer with the records that end in it, FIRST is right and RESYNC stands where it is due. Nothing else is ever sent. -/
def sendFlit (toTm : Bool) (f : Flit) (d : Dev) : Option Dev :=
  let x := dirOf toTm d
  match x.held.find? fun h => h.seq == f.seq with
  | some h => if h.words = f.words ∧ h.first = f.first ∧ h.resync = f.resync then some d else none
  | none =>
    if f.seq = x.next ∧ x.held.length < 1024 ∧ f.resync = x.resync ∧ f.first = firstOf x.tail f.words d then
      let ws := x.tail ++ f.words
      let (l, rest) := cutRecs d ws.length ws
      let h : HeldFlit := { seq := x.next, words := f.words, first := f.first, resync := f.resync, recs := l, at_ := d.mono }
      let d := d2dInc toTm 0 1 (setDir toTm { x with next := (x.next + 1) % 4096, held := x.held ++ [h], resync := false, tail := rest } d)
      some (if f.resync then d2dInc toTm 5 1 d else d)
    else none
/-- The payload of an accepted flit: its records run; a record that goes on in the next flit waits. After RESYNC parsing starts at
FIRST. [DESIGN CHOICE: log 60] -/
def takePayload (toTm : Bool) (f : Flit) (d : Dev) : Dev :=
  let x := dirOf toTm d
  let fresh := f.resync || x.skip
  let none_ := fresh && f.first == 63
  let ws := if fresh then (if none_ then [] else f.words.drop f.first) else x.part ++ f.words
  let (l, rest) := cutRecs d ws.length ws
  let d := setDir toTm { x with part := rest, skip := none_ } d
  l.foldl (fun d r => runRec toTm r d) d
/-- A TRAFFIC flit reaches its receiver with a good CRC: the expected SEQ and the new base of a RESYNC are accepted; one accepted
before is none again (R13); another stands behind a gap. -/
def takeFlit (toTm : Bool) (f : Flit) (d : Dev) : Dev :=
  let x := dirOf toTm d
  if f.seq ≠ x.exp ∧ seqUpTo f.seq x.exp then d
  else if f.seq = x.exp ∨ f.resync then
    takePayload toTm f (d2dInc toTm 1 1 (setDir toTm { x with exp := (f.seq + 1) % 4096, got := true, bad := false } d))
  else setDir toTm { x with bad := true } d
/-- A flit with a good CRC at its receiver. A reserved FTYPE is none of the link's flits. -/
def goodFlit (toTm : Bool) (f : Flit) (d : Dev) : Dev :=
  let d := if f.ftype = 1 then takeFlit toTm f d else d
  if 1 < f.ftype then d
  else
    let d := if f.ackv then ackFlits (!toTm) f.ack d else d
    if f.nak then resendFlits (!toTm) d else d
/-- A flit of a direction leaves its sender as `sent` and reaches its receiver with the bits of `flips` changed. -/
def flitReceive (toTm : Bool) (sent : Bytes) (flips : List (Fin 3072)) (d : Dev) : Dev :=
  let f := flitOf sent
  if !d2dUp toTm d || flitBytes f != sent || decide (1 < f.ftype) || !ackTrue toTm f d then d
  else
    match if f.ftype = 1 then sendFlit toTm f d else some d with
    | none => d
    | some d =>
      let got := flipBits sent flips
      if flitGood got then goodFlit toTm (flitOf got) d else d2dInc toTm 2 1 (setDir toTm { dirOf toTm d with bad := true } d)
/-- No acknowledgement of the oldest flit for REPLAY_TMO: everything held is resent. -/
def replayTimeout (toTm : Bool) (d : Dev) : Dev :=
  match (dirOf toTm d).held with
  | [] => d
  | h :: _ => if h.at_ + rget D2D_CFG.REPLAY_TMO 0 0 d ≤ d.mono then resendFlits toTm d else d

/-! A lost flit (R13, R264, R266). -/

/-- A frame on its way to the FE die is reported finished with CHK_D2D. One whose read had failed is counted already. -/
def loseEgress (r : EgrRec) (d : Dev) : Dev :=
  let l := look d.chk.sent r.port []
  let d := { d with cross := { d.cross with egress := d.cross.egress.erase r } }
  free .egress r.cell r.tag (onChk (fun c => { c with sent := put c.sent r.port [] (l.erase (r.cell, r.tag)) }) (if r.bad then d else drop 0x62 d))
/-- A waiting VERDICT becomes a DROP with CHK_D2D. -/
def loseVerdict (v : Verd) (d : Dev) : Dev :=
  let w := { v with kind := 1, code := 0x62, copyHost := false, mirror := none, cnt0 := none, cnt1 := none, meter := none }
  dropInstead v 0x62 { d with cross := { d.cross with verdicts := d.cross.verdicts.map fun x => if x = v then w else x } }
/-- What the sender does for a record that it held in a lost flit, where the record has not arrived; `held` says which record that
is. CONTROL records but ABORT stay waiting. [DESIGN CHOICE: log 60] -/
def loseRec (toTm : Bool) (held : List Nat → Bool) (d : Dev) : Dev :=
  if toTm then
    match d.cross.bodies.find? fun r => held (bodyWords r) with
    | some r => abortCell r.cell d
    | none => match d.cross.verdicts.find? fun v => held (verdictWords v) with
      | some v => loseVerdict v d
      | none => d
  else match d.cross.egress.find? fun r => held (egressWords r) with
    | some r => loseEgress r d
    | none => d
/-- The oldest flit has been resent REPLAY_LIMIT times without acknowledgement: it is lost, and with it what the sender holds. The
sender answers for the records that it held, whole or begun, and resumes with a RESYNC flit. Every flit given up counts as lost.
[DESIGN CHOICE: log 60] -/
def flitLost (toTm : Bool) (d : Dev) : Dev :=
  let x := dirOf toTm d
  match x.held with
  | [] => d
  | h :: _ =>
    if h.tries < rget D2D_CFG.REPLAY_LIMIT 0 0 d then d
    else
      let d := setDir toTm { x with held := [], resync := true, tail := [] } d
      let d := (x.held.flatMap (·.recs)).foldl (fun d r => loseRec toTm (fun w => w == r) d) d
      let d := if x.tail.isEmpty then d else loseRec toTm (fun w => x.tail.isPrefixOf w) d
      fire Pg.D2D 0 (d2dInc toTm 4 x.held.length d)

/-! The test of the wires (R265). -/

/-- The wire whose test comes after wire i: retired ones are passed over. -/
def nextWire (retired : List Nat) : Nat → Nat → Nat
  | 0, i => i
  | k + 1, i => let j := (i + 1) % 3072; if retired.contains j then nextWire retired k j else j
/-- CAL_MS after the last test the traffic of the next wire moves to a spare while the wire is tested (R265). A wire that fails is
retired, and the spare keeps its traffic; without a spare there is no test. [DESIGN CHOICE: log 60] -/
def wireCal (toTm pass : Bool) (d : Dev) : Dev :=
  let f := if toTm then D2D_STAT.SPARE_FT else D2D_STAT.SPARE_TF
  let n := rget f 0 0 d
  let x := dirOf toTm d
  if !d2dUp toTm d || n == 0 || decide (d.mono < x.calAt + rget D2D_X_CAL.CAL_MS 0 0 d * 1000000) then d
  else
    let gone := if pass then x.retired else x.wire :: x.retired
    let d := setDir toTm { x with wire := nextWire gone 3072 x.wire, retired := gone, calAt := d.mono } d
    if pass then d
    else
      let d := fire Pg.D2D 1 (d2dInc toTm 6 1 (rset f 0 0 (n - 1) d))
      if n - 1 < 8 then fire Pg.D2D 2 d else d

end Sys2Proof.Machine
end

