-- ==== Sys2Proof/Machine/Dma.lean ====
section
/-! DEFINITION. Table DMA channels (15_host_interface.md, R429 to R435). Channel k is ring 128 + k; the words that it reads from
host memory are operands of the commands. -/

namespace Sys2Proof.Machine

/-! The descriptor (R429): a 256-bit value, word 0 lowest. -/

/-- OP: 0 REC, 1 REG_RD, 2 REG_WR, 3 MEM_WR, 4 MEM_RD. -/
def dmaOp (x : Nat) : Nat := bits x 31 28
/-- LOCK_SEL. -/
def dmaSel (x : Nat) : Nat := bits x 27 24
/-- MEM: 0 Burl replica, 1 scratch, 2 firmware slot. -/
def dmaMem (x : Nat) : Nat := bits x 20 18
/-- IDX. -/
def dmaIdx (x : Nat) : Nat := bits x 15 8
/-- COUNT: records, words or bytes. -/
def dmaCount (x : Nat) : Nat := bits x 63 32
/-- ADDR, a host address: word 2 holds the low half (R6). [DESIGN CHOICE: log 127] -/
def dmaAddr (x : Nat) : Nat := bits x 127 64
/-- RES_ADDR; 0 for no results: word 4 holds the low half (R6). [DESIGN CHOICE: log 127] -/
def dmaResAddr (x : Nat) : Nat := bits x 191 128
/-- DEV: a BAR0 byte address, or a byte offset in the target. -/
def dmaDev (x : Nat) : Nat := bits x 223 192
/-- RWORDS. -/
def dmaRwords (x : Nat) : Nat := bits x 255 248
/-- RES_WORDS. -/
def dmaResWords (x : Nat) : Nat := bits x 247 240
/-- RES_OFS. -/
def dmaResOfs (x : Nat) : Nat := bits x 239 226
/-- The lock that LOCK_SEL names. -/
def dmaLockOf (sel : Nat) : Option (Reg × Nat) :=
  if sel = 1 ∨ sel = 2 then some (.LPM_LOCKt, sel - 1)
  else if 3 ≤ sel ∧ sel ≤ 10 then some (.XM_LOCKn, sel - 3)
  else if sel = 11 then some (.NHT_LOCK, 0) else none
/-- Whether a descriptor has a reserved code or a field out of the ranges of R430. [DEDUCED: log 84] -/
def dmaBad (x : Nat) : Bool :=
  let n := dmaCount x
  let a := dmaDev x
  decide (4 < dmaOp x ∨ 11 < dmaSel x) ||
    (match dmaOp x with
      | 0 => decide (dmaRwords x < 1 ∨ 32 < dmaRwords x ∨ 32 < dmaResWords x ∨ a % 4 ≠ 0)
      | 3 => match dmaMem x with
        | 0 => decide (23 < dmaIdx x ∨ 526336 < a + n)
        | 1 => decide (63 < dmaIdx x ∨ a % 8 ≠ 0 ∨ n % 8 ≠ 0 ∨ 262144 < a + n)
        | 2 => decide (1 < dmaIdx x ∨ 2 ^ 20 < a + n)
        | _ => true
      | 4 => decide (dmaMem x ≠ 1 ∨ 63 < dmaIdx x ∨ a % 8 ≠ 0 ∨ n % 8 ≠ 0 ∨ 262144 < a + n)
      | _ => decide (n < 1 ∨ 16384 < n ∨ a % 4 ≠ 0 ∨ 65536 < a % 65536 + 4 * n))

/-! Running a descriptor. -/

/-- How far a descriptor has come: units carried out, records refused, the first error code met with the type of its page. -/
structure DmaSt where
  done : Nat := 0
  refused : Nat := 0
  status : Nat := 0
  type : Nat := 2
  wait : Option (Nat × Nat) := none -- REC: index of a record that waits for GO, and the code recorded so far (R430)
  d : Dev

/-- Keep the first error code met. -/
def DmaSt.note (code type : Nat) (s : DmaSt) : DmaSt := if code = 0 ∨ s.status ≠ 0 then s else { s with status := code, type := type }
/-- Write consecutive words: the first code recorded for them. -/
def dmaWords (k : Fin 16) (addr : Nat) (ws : List Nat) (d : Dev) : Nat × Dev :=
  ws.zipIdx.foldl (fun (s : Nat × Dev) w =>
    let (c, d) := writeCode (.dma k) (addr + 4 * w.2) w.1 s.2
    (if s.1 = 0 then c else s.1, d)) (0, d)
/-- Read n consecutive words. -/
def dmaRead (k : Fin 16) (addr n : Nat) (d : Dev) : List Nat × Dev :=
  (List.range n).foldl (fun (s : List Nat × Dev) i => let (v, d) := doRead (.dma k) (addr + 4 * i) s.2; (s.1 ++ [v], d)) ([], d)
/-- The BAR0 word that commits a record: its highest. -/
def recCommit (x : Nat) : Nat := dmaDev x + 4 * (dmaRwords x - 1)
/-- Whether the register that a record went to still executes: a GO field of it reads 1 (R430). -/
def recBusy (x : Nat) (d : Dev) : Bool :=
  match placeAt (recCommit x / 65536) (recCommit x % 65536) with
  | some y => y.reg.fields.any fun f => f.acc == .sc && rget (f.fld y.reg) y.g y.i d != 0
  | none => false
/-- Record i has ended with code c: it is counted, and its results go to the result buffer (R430). -/
def recEnd (k : Fin 16) (x i c : Nat) (s : DmaSt) : DmaSt :=
  let s := if c = 0 then { s with done := s.done + 1 }
    else { s with refused := s.refused + 1, d := inc Pg.HIF 7 s.d }.note c (typeCode (dmaDev x / 65536))
  if dmaResAddr x = 0 then s
  else
    let (rs, d) := dmaRead k (dmaDev x + 4 * dmaResOfs x) (dmaResWords x) s.d
    { s with d := emit (.hostWrite (dmaResAddr x + i * (4 * (dmaResWords x + 1))) ((c :: rs).flatMap (leBytes 4))) d }
/-- REC (R430): n records from index i on, up to one whose register executes beyond the write. [DESIGN CHOICE: log 85] -/
def dmaRecs (k : Fin 16) (x : Nat) : Nat → Nat → List Nat → DmaSt → DmaSt
  | 0, _, _, s => s
  | n + 1, i, ws, s =>
    let (c, d) := dmaWords k (dmaDev x) (ws.take (dmaRwords x)) s.d
    if recBusy x d then { s with d := d, wait := some (i, c) }
    else
      let s := recEnd k x i c { s with d := d }
      if c ≠ 0 && bit x 21 then s else dmaRecs k x n (i + 1) (ws.drop (dmaRwords x)) s
/-- REG_WR (R430). -/
def dmaRegWr (k : Fin 16) (x : Nat) (ws : List Nat) (s : DmaSt) : DmaSt :=
  ws.zipIdx.foldl (fun s w =>
    let (c, d) := writeCode (.dma k) (dmaDev x + 4 * w.2) w.1 s.d
    (if c = 0 then { s with done := s.done + 1, d := d } else { s with d := d }).note c (typeCode (dmaDev x / 65536))) s
/-- REG_RD (R430). -/
def dmaRegRd (k : Fin 16) (x n : Nat) (s : DmaSt) : DmaSt :=
  let (ws, d) := dmaRead k (dmaDev x) n s.d
  { s with done := n, d := if n = 0 then d else emit (.hostWrite (dmaAddr x) (ws.flatMap (leBytes 4))) d }
/-- Whether the channel may reach the regions of its target (R494, R495): scratch region c, or the four of a slot. -/
def dmaRegions (x : Nat) : List Nat := if dmaMem x = 1 then [dmaIdx x] else if dmaMem x = 2 then (List.range 4).map (64 + 4 * dmaIdx x + ·) else []
/-- The refusal of a MEM operation with the type of its page, or 0 (R165, R412, R495). [DEDUCED: log 84] -/
def dmaMemCheck (x : Nat) (d : Dev) : Nat × Nat :=
  if dmaMem x = 0 then (if 1 < replState (dmaIdx x) d then (Err.BAD_ARG, 2) else if burlArmed (replBank (dmaIdx x) d) d then (Err.EPOCH_BUSY, typeCode Pg.BRL) else (0, 2))
  else if dmaMem x = 2 && fwRun d == dmaIdx x + 1 then (0x21, typeCode Pg.SVC)
  else if (dmaRegions x).all fun r => hostMay r d then (0, 2) else (Err.NOT_OWNER, typeCode Pg.MEM)
/-- An access of n bytes from DEV_ADDR on wakes the banks that it reaches (R25, R498): in a scratch region, or in the regions of
a firmware slot, 256 KiB each. -/
def dmaTouch (x n : Nat) (d : Dev) : Dev :=
  (dmaRegions x).zipIdx.foldl (fun d r =>
    let lo := max (dmaDev x) (r.2 * 2 ^ 18)
    let hi := min (dmaDev x + n) ((r.2 + 1) * 2 ^ 18)
    regionTouch r.1 (lo - r.2 * 2 ^ 18) (hi - lo) d) d
/-- MEM_WR of bytes (R165, R412, R430). -/
def dmaMemWr (x : Nat) (bs : Bytes) (d : Dev) : Dev :=
  let d := dmaTouch x bs.length d
  match dmaMem x with
  | 0 => burlLoad (dmaIdx x) (dmaDev x) bs d
  | 1 =>
    let c := cluster (dmaIdx x) d
    let ws := (List.range (bs.length / 8)).map fun i => (dmaDev x / 8 + i, ofLe ((bs.drop (8 * i)).take 8))
    let sc := ws.foldl (fun (t : Tbl Nat) w => put t w.1 0 w.2) c.scratch
    setCluster (dmaIdx x) { c with scratch := sc, badScratch := c.badScratch.filter fun w => !(ws.any fun y => y.1 == w) } d
  | _ =>
    let base := dmaIdx x * 2 ^ 20 + dmaDev x
    let t := bs.zipIdx.foldl (fun (t : Tbl Nat) b => put t (base + b.2) 0 b.1.toNat) d.banks.service
    rset (slotField (dmaIdx x)) 0 0 1 { d with banks := { d.banks with service := t } }
/-- MEM_RD of n bytes of scratch (R430). -/
def dmaMemRd (x n : Nat) (d : Dev) : Dev :=
  let d := dmaTouch x n d
  let c := cluster (dmaIdx x) d
  let ws := (List.range (n / 8)).map fun i => look c.scratch (dmaDev x / 8 + i) 0
  let d := ws.zipIdx.foldl (fun d w => if c.badScratch.contains (dmaDev x / 8 + w.2) then engEcc (dmaIdx x) true 0 (dmaDev x / 8 + w.2) d else d) d
  if n = 0 then d else emit (.hostWrite (dmaAddr x) (ws.flatMap (leBytes 8))) d
/-- Units of a descriptor that `limit` lets run, and the host words that they take. -/
def dmaNeed (x limit : Nat) : Nat × Nat :=
  let n := min (dmaCount x) limit
  match dmaOp x with
  | 0 => (n, n * dmaRwords x)
  | 2 => (n, n)
  | 3 => (n, (n + 3) / 4)
  | _ => (n, 0)
/-- Carry out up to `limit` units of a checked descriptor. -/
def dmaWork (k : Fin 16) (x limit : Nat) (ws : List Nat) (s : DmaSt) : DmaSt :=
  let n := (dmaNeed x limit).1
  match dmaOp x with
  | 0 => dmaRecs k x n 0 ws s
  | 1 => dmaRegRd k x n s
  | 2 => dmaRegWr k x (ws.take n) s
  | op =>
    let (c, ty) := dmaMemCheck x s.d
    if c ≠ 0 then s.note c ty
    else if op = 3 then { s with done := n, d := dmaMemWr x ((ws.flatMap (leBytes 4)).take n) s.d }
    else { s with done := n, d := dmaMemRd x n s.d }
/-- The lock goes at the end of a descriptor with RELEASE, where the channel holds it (R431). -/
def dmaRelease (k : Fin 16) (x : Nat) (s : DmaSt) : DmaSt :=
  match dmaLockOf (dmaSel x) with
  | some (r, i) =>
    let id := 0xF100 + k.val
    if bit x 22 && lockHolder r i s.d == id then { s with d := commit .service r 0 i (2 ^ 31 + 2 ^ 30 + id) s.d } else s
  | none => s
/-- A descriptor with its lock (R431): claim, work, and release once it has ended. `limit` bounds the units carried out. The
channel's own claim and release carry an ID of the Baszu, which only the device itself may present (R50). [DEDUCED: log 84] -/
def dmaRun (k : Fin 16) (x limit : Nat) (ws : List Nat) (d : Dev) : DmaSt :=
  let s : DmaSt := { d := d }
  let id := 0xF100 + k.val
  let work (s : DmaSt) : DmaSt :=
    let s := dmaWork k x limit ws s
    if s.wait.isSome then s else dmaRelease k x s
  if dmaBad x then s.note Err.BAD_ARG 2
  else match dmaLockOf (dmaSel x) with
    | none => work s
    | some (r, i) =>
      let h := lockHolder r i d
      if bit x 23 && h != 0 && h != id then s.note Err.OWNER_BUSY (typeCode r.lay.page)
      else work (if bit x 23 then { s with d := commit .service r 0 i (2 ^ 31 + id) s.d } else s)
/-- What has come of a descriptor whose record waits for GO. -/
def progSt (p : DmaProg) (d : Dev) : DmaSt := { done := p.done, refused := p.refused, status := p.status, type := p.type, d := d }
/-- A REC descriptor goes on: its record in flight has ended, and the records after it run (R430). -/
def dmaResume (k : Fin 16) (p : DmaProg) (ws : List Nat) (d : Dev) : DmaSt :=
  let x := p.desc
  let s := recEnd k x p.i p.code (progSt p d)
  let s := if p.code ≠ 0 && bit x 21 then s else dmaRecs k x (dmaCount x - (p.i + 1)) (p.i + 1) (ws.drop (dmaRwords x * (p.i + 1))) s
  if s.wait.isSome then s else dmaRelease k x s
/-- The next descriptor of channel k may start from now on (R433). -/
def dmaArm (k : Fin 16) (d : Dev) : Dev := { d with hif := { d.hif with chAt := ins d.hif.chAt k.val d.hif.dmaNs, prog := del d.hif.prog k.val } }
/-- Write the completion entry of a descriptor and move past it (R432). [DEDUCED: log 84] -/
def dmaEnd (k : Fin 16) (s : DmaSt) : Dev :=
  let n := 128 + k.val
  let desc := ringHead n s.d
  cqPush n [2 * 2 ^ 28 + s.status % 256 * 2 ^ 16 + desc, s.done, s.refused, s.type % 65536 * 2 ^ 16] (ringUse n 1 (inc Pg.HIF 6 (dmaArm k s.d)))
/-- End a descriptor, or leave it with a record that waits for GO (R430). -/
def dmaSettle (k : Fin 16) (x : Nat) (s : DmaSt) : Dev :=
  match s.wait with
  | none => dmaEnd k s
  | some (i, c) =>
    let p : DmaProg := { desc := x, i := i, at_ := recCommit x, code := c, done := s.done, refused := s.refused, status := s.status, type := s.type }
    { s.d with hif := { s.d.hif with prog := ins s.d.hif.prog k.val p } }
/-- Whether a descriptor's memory is still being handed over: its access waits for PENDING to read 0 (R492). -/
def dmaPending (x : Nat) (d : Dev) : Bool := decide (3 ≤ dmaOp x) && (dmaRegions x).any fun r => flag MEM_GRANTr.PENDING 0 r d
/-- Whether channel k works: DMA allowed, its ring RUNNING and a completion entry free (R419, R421, R422). -/
def dmaReady (k : Fin 16) (d : Dev) : Bool := alive d && dmaOn d && ringState (128 + k.val) d == 2 && cqRoom (128 + k.val) d
/-- The oldest descriptor of channel k, of operation op or of a reserved one, runs with the words read for it to its end, or to a
record that waits for GO; a waiting record's descriptor goes on from there. [DEDUCED: log 84] -/
def dmaDesc (op : Nat) (k : Fin 16) (x : Nat) (ws : List Nat) (d : Dev) : Dev :=
  if !dmaReady k d ∨ dmaPending x d ∨ (dmaOp x ≠ op ∧ dmaOp x ≤ 4) ∨ (!dmaBad x ∧ ws.length < (dmaNeed x (dmaCount x)).2) then d
  else match find? d.hif.prog k.val with
    | some p => if p.desc ≠ x ∨ recBusy x d then d else dmaSettle k x (dmaResume k p ws d)
    | none => dmaSettle k x (dmaRun k x (dmaCount x) ws d)
/-- A descriptor is cut off after some units, one whose record waits for GO as it stands: its completion carries the cause, its
lock is released, and the channel halts (R421, R431, R433, R435). [DESIGN CHOICE: log 86] -/
def dmaCut (cause : Nat) (k : Fin 16) (x limit : Nat) (ws : List Nat) (d : Dev) : Dev :=
  let s := match find? d.hif.prog k.val with
    | some p => dmaRelease k p.desc (progSt p d)
    | none =>
      let s := dmaRun k x limit ws d
      if s.wait.isSome then dmaRelease k x s else s
  ringHalt (128 + k.val) cause (dmaEnd k { s with status := cause, type := 2 })
/-- Whether WDOG_MS of time with DMA allowed has passed since the descriptor of channel k may have started (R419, R433). -/
def dmaLate (k : Fin 16) (d : Dev) : Bool :=
  decide (look d.hif.chAt k.val 0 + rget HIF_RINGn_CFG.WDOG_MS 0 (128 + k.val) d * 1000000 ≤ d.hif.dmaNs)
/-- The watchdog expires before the descriptor has ended (R433); before WDOG_MS the row does nothing. [DESIGN CHOICE: log 86] -/
def dmaWatchdog (k : Fin 16) (x limit : Nat) (ws : List Nat) (d : Dev) : Dev :=
  if !dmaReady k d ∨ !dmaLate k d ∨ dmaBad x ∨ dmaCount x ≤ limit ∨ ws.length < (dmaNeed x limit).2 then d
  else fire Pg.HIF 1 (inc Pg.HIF 9 (dmaCut 0x22 k x limit ws d))
/-- The bounds in ns of a completion timeout by the value in Device Control 2, bits 3 to 0; bit 4 disables it. [PRESUMED: log 128] -/
def ctoRange (v : Nat) : Option (Nat × Nat) :=
  let ms := 1000000
  match v with
  | 0 => some (50000, 50 * ms)
  | 1 => some (50000, 100000)
  | 2 => some (ms, 10 * ms)
  | 5 => some (16 * ms, 55 * ms)
  | 6 => some (65 * ms, 210 * ms)
  | 9 => some (260 * ms, 900 * ms)
  | 10 => some (1000 * ms, 3500 * ms)
  | 13 => some (4000 * ms, 13000 * ms)
  | 14 => some (17000 * ms, 64000 * ms)
  | _ => none
/-- Whether a read can fail so: a timeout only after a time within the range that software has set (R434). [PRESUMED: log 128] -/
def readFails (c : ReadEnd) (d : Dev) : Bool :=
  match c with
  | .timeout ns => match ctoRange d.hif.cto with
    | some r => decide (r.1 ≤ ns.toNat ∧ ns.toNat ≤ r.2)
    | none => false
  | _ => true
/-- A DMA read of a ring ends in error: a punt ring halts, an inject ring drops its packet, a table DMA channel ends its
descriptor (R434, R435). [DESIGN CHOICE: log 86] -/
def ringError (n : Nat) (cause : ReadEnd) (descs : List Nat) (limit : Nat) (ws : List Nat) (d : Dev) : Dev :=
  if !readFails cause d then d
  else if n < 128 then (if alive d && dmaOn d then hostError n descs.length d else d)
  else
    let k := Fin.ofNat 16 (n - 128)
    if !dmaReady k d then d
    else
      let x := descs.headD 0
      let d := if descs.isEmpty then ringHalt n 0x21 (dmaEnd k { status := 0x21, d := d }) else dmaCut 0x21 k x (min limit (dmaCount x - 1)) ws d
      fire Pg.HIF 2 (fire Pg.HIF 0 (inc Pg.HIF 8 d))

end Sys2Proof.Machine
end

