-- ==== Sys2Proof/Machine/I3c.lean ====
section
/-! DEFINITION. The I3C management target (15_host_interface.md, R436 to R441, R445). -/

namespace Sys2Proof.Machine

/-- Change the target's own state. -/
def onI3c (f : I3c → I3c) (d : Dev) : Dev := { d with i3c := f d.i3c }
/-- The target answers with bytes. -/
def i3cSay (bytes : List Nat) (d : Dev) : Dev := emit (.i3cReply bytes) d
/-- Whether the target has a dynamic address. -/
def hasDa (d : Dev) : Bool := flag MGT_STAT.DA_VALID 0 0 d
/-- Set or clear the dynamic address; a change fires DA_CHG (R443). -/
def setDa (valid : Bool) (da : Nat) (d : Dev) : Dev :=
  if hasDa d = valid ∧ rget MGT_STAT.DA 0 0 d = da then d
  else fire Pg.MGT 0 (rset MGT_STAT.DA_VALID 0 0 (b2n valid) (rset MGT_STAT.DA 0 0 da d))

/-! Private transfers (R437, R438). -/

/-- Pages that I3C may read (R438). -/
def i3cReads (p : Nat) : Bool :=
  [Pg.GLB, Pg.AON, Pg.CLK, Pg.SPN, Pg.EVT, Pg.HWD, Pg.MGT].contains p || decide (Pg.HBM ≤ p ∧ p < Pg.HBM + 4)
/-- Whether I3C may write a word: HWD, MGT, and GLB_RST_CAUSE of GLB (R438). -/
def i3cWrites (addr : Nat) : Bool :=
  let p := addr / 65536
  p == Pg.HWD || p == Pg.MGT || (p == Pg.GLB && match placeAt p (addr % 65536) with | some x => x.reg == .GLB_RST_CAUSE | none => false)
/-- An access outside the windows: NOT_WINDOW in the MGT page, and WIN_ERR fires (R438). -/
def notWindow (addr : Nat) (d : Dev) : Dev := fire Pg.MGT 2 (inc Pg.MGT 2 (err Pg.MGT 0x20 (addr % 65536) d))
/-- One word written over I3C. -/
def i3cWord (addr v : Nat) (d : Dev) : Dev :=
  if i3cWrites addr then doWrite .i3c addr v d else keyTick .i3c none (notWindow addr d)
/-- Words written to ascending addresses; bytes inside a word that does not end are discarded, and WIN_ERR fires. -/
def i3cWords : Nat → Nat → Bytes → Dev → Dev
  | 0, _, _, d => d
  | n + 1, addr, bs, d =>
    if bs.isEmpty then d
    else if bs.length < 4 then fire Pg.MGT 2 d
    else i3cWords n (addr + 4) (bs.drop 4) (i3cWord (addr % 2 ^ 32) (ofLe (bs.take 4)) d)
/-- Whether private transfers are answered: a dynamic address, and no control reset under way (R523). -/
def i3cTakes (d : Dev) : Bool := alive d && hasDa d && d.sys.ctlRun.isNone
/-- A private write: OP, then what the OP takes (R437). At most MWL bytes are taken. [DESIGN CHOICE: log 87] -/
def i3cWrite (bytes : Bytes) (d : Dev) : Dev :=
  if !i3cTakes d then emit .i3cNack d
  else
    let d := inc Pg.MGT 0 d
    let bs := (bytes.take d.i3c.mwl).drop 1
    let addr := ofLe (bs.take 4)
    if bs.length < 4 then d
    else match byteAt bytes 0 with
      | 1 => i3cWords 16 addr (bs.drop 4) d
      | 2 => onI3c (fun x => { x with readAddr := addr }) d
      | _ => d
/-- n words read upward from the read address. -/
def i3cWordsRead : Nat → Dev → List Nat × Dev
  | 0, d => ([], d)
  | n + 1, d =>
    let a := d.i3c.readAddr
    let (v, d) := if i3cReads (a / 65536) then doRead .i3c a d else (0, notWindow a d)
    let (t, d) := i3cWordsRead n (onI3c (fun x => { x with readAddr := (a + 4) % 2 ^ 32 }) d)
    (v :: t, d)
/-- A private read of n bytes, at most MRL: the status byte, then words (R437). [DESIGN CHOICE: log 87] -/
def i3cRead (n : Nat) (d : Dev) : Dev :=
  if !i3cTakes d then emit .i3cNack d
  else
    let d := inc Pg.MGT 1 d
    let n := min n d.i3c.mrl
    let ok := i3cReads (d.i3c.readAddr / 65536)
    let (ws, d) := i3cWordsRead ((n - 1 + 3) / 4) d
    i3cSay (((if ok then 0 else 1) :: (ws.flatMap (leBytes 4)).map (·.toNat)).take n) d

/-! Common command codes (R436). -/

/-- ENEC and DISEC: bit 0 of the event byte is ENINT. [DESIGN CHOICE: log 87] -/
def i3cEvents (on : Bool) (ev : Nat) (d : Dev) : Dev := if bit ev 0 then rset MGT_STAT.ENINT 0 0 (b2n on) d else d
/-- ENTDAA and SETDASA: a target without a dynamic address takes one. [DESIGN CHOICE: log 87] -/
def i3cAssign (da : Nat) (d : Dev) : Dev := if hasDa d then d else setDa true da d
/-- SETNEWDA: a target with a dynamic address changes it. -/
def i3cNewDa (da : Nat) (d : Dev) : Dev := if hasDa d then setDa true da d else d
/-- SETMWL: from 5 to 69; other values are ignored. -/
def i3cSetMwl (n : Nat) (d : Dev) : Dev := if 5 ≤ n ∧ n ≤ 69 then onI3c (fun x => { x with mwl := n }) d else d
/-- SETMRL: from 5 to 65; other values are ignored. -/
def i3cSetMrl (n : Nat) (d : Dev) : Dev := if 5 ≤ n ∧ n ≤ 65 then onI3c (fun x => { x with mrl := n }) d else d
/-- GETMWL. -/
def i3cGetMwl (d : Dev) : Dev := i3cSay [d.i3c.mwl / 256, d.i3c.mwl % 256] d
/-- GETMRL, with the IBI payload byte that BCR announces: the spec gives it no value. [DESIGN CHOICE: log 87] -/
def i3cGetMrl (d : Dev) : Dev := let (v, d) := draw d; i3cSay [d.i3c.mrl / 256, d.i3c.mrl % 256, v % 256] d
/-- The provisioned ID (R436). -/
def i3cPid (d : Dev) : Nat := 0x1C3 * 2 ^ 33 + 0x2800 * 2 ^ 16 + devId d * 2 ^ 6 + rget GLB_STRAP.I3C_ADDR 0 0 d * 2 ^ 3
/-- GETPID, most significant byte first. -/
def i3cGetPid (d : Dev) : Dev := i3cSay ((beBytes 6 (i3cPid d)).map (·.toNat)) d
/-- GETSTATUS: two bytes whose contents the spec does not give. [DESIGN CHOICE: log 87] -/
def i3cGetStatus (d : Dev) : Dev := let (v, d) := draw d; i3cSay [v / 256 % 256, v % 256] d

/-! Reset actions (R440). -/

/-- A peripheral reset of the target. -/
def i3cPeripheral (d : Dev) : Dev :=
  setDa false 0 (rset MGT_STAT.ENINT 0 0 0 (onI3c (fun x => { x with mwl := 69, mrl := 65, readAddr := 0 }) d))
/-- RSTACT: defining bytes 0 to 2 are configured; others are NACKed. [DEDUCED: log 88] -/
def i3cRstact (db : Nat) (d : Dev) : Dev := if db ≤ 2 then rset MGT_STAT.RSTACT 0 0 db d else emit .i3cNack d
/-- A direct GET RSTACT: the configured byte, and 1 ms for both actions. [DEDUCED: log 88] -/
def i3cGetRstact (d : Dev) : Dev := i3cSay [rget MGT_STAT.RSTACT 0 0 d, 1, 1] d
/-- The target reset pattern runs the configured action. [DEDUCED: log 88] -/
def i3cPattern (d : Dev) : Dev :=
  match rget MGT_STAT.RSTACT 0 0 d with
  | 1 => i3cPeripheral (inc Pg.MGT 5 d)
  | 2 => if flag MGT_CFG.RST_EN 0 0 d then ctlStart 2 (inc Pg.MGT 5 d) else i3cPeripheral (inc Pg.MGT 5 d)
  | _ => d
/-- A NACKed in-band interrupt is raised again, 100 µs after it was raised at the earliest (R439). [DEDUCED: log 88] -/
def ibiRetry (d : Dev) : Dev :=
  match d.i3c.ibi with
  | b :: _ =>
    if hasDa d && flag MGT_STAT.ENINT 0 0 d && decide (d.i3c.ibiAt + 100000 ≤ d.mono) then
      emit (.ibi b) (inc Pg.MGT 4 (onI3c (fun x => { x with ibiAt := d.mono }) d))
    else d
  | [] => d

end Sys2Proof.Machine
end

