-- ==== Sys2Proof/Machine/Lines.lean ====
section
/-! DEFINITION. What happens at the line ports from outside: link training, received and transmitted frames, verification
(03_line_ports.md, R59 to R76; 12_spindle_time.md, R355 to R357). -/

namespace Sys2Proof.Machine

/-! The link machine's outside events (R60). -/

/-- AN without a result: the restart follows 100 ms later. -/
def linkAnTimeout (n : Nat) (d : Dev) : Dev := if linkState n d = 1 then setPort n { port n d with anWait := true } d else d
/-- Auto-negotiation restarts. -/
def linkAnRestart (n : Nat) (d : Dev) : Dev := if linkState n d = 1 then setPort n { port n d with anWait := false } d else d
/-- Both ends report trained. -/
def linkLtDone (n : Nat) (d : Dev) : Dev := if linkState n d = 2 then linkTo n 3 d else d
/-- 3 s of training without an end. -/
def linkLtTimeout (n : Nat) (d : Dev) : Dev := if linkState n d = 2 then linkTo n (if anEn n d then 1 else 2) d else d
/-- A clean lock starts: ALIGN goes UP, FAULT begins its 10 ms. -/
def linkClean (n : Nat) (d : Dev) : Dev :=
  if linkState n d = 3 then linkGoUp n d
  else if linkState n d = 5 then
    let d := pset LPG_PORTn_STAT.LOCAL_FAULT n 0 (pset LPG_PORTn_STAT.REMOTE_FAULT n 0 (pset LPG_PORTn_STAT.HI_SER n 0 d))
    setPort n { port n d with clean := true } d
  else d
/-- 50 ms in ALIGN without a clean lock. -/
def linkAlignTimeout (n : Nat) (d : Dev) : Dev := if linkState n d = 3 then linkTo n (linkFirst n d) d else d
/-- A clean lock that runs in FAULT has held for 10 ms. [DEDUCED: log 24] -/
def linkRecover (n : Nat) (d : Dev) : Dev := if linkState n d = 5 ∧ (port n d).clean then linkGoUp n d else d
/-- 500 ms in FAULT: the port leaves it unless a clean lock runs. -/
def linkFaultTimeout (n : Nat) (d : Dev) : Dev :=
  if linkState n d = 5 then
    if (port n d).clean then setPort n { port n d with expired := true } d else linkTo n (if anEn n d then 1 else 3) d
  else d
/-- A running clean lock breaks: the port leaves FAULT after those 500 ms, and stays before them. -/
def linkLockBreak (n : Nat) (d : Dev) : Dev := if linkState n d = 5 then lockGone n d else d

/-! Received frames (R63 to R65, R73). -/

/-- Whether a frame is a broadcast or another group address: counted in one of the two counters of R76 from offset o on. -/
def groupCount (n o : Nat) (bs : Bytes) (d : Dev) : Dev :=
  if beAt bs 0 6 = 2 ^ 48 - 1 then portInc n (o + 8) 1 d
  else if byteAt bs 0 % 2 = 1 then portInc n o 1 d else d
/-- Octets that the MAC counters count of a frame of len bytes without its FCS: all but the addresses and the EtherType. [PRESUMED: log 16] -/
def macOctets (len : Nat) : Nat := len - 14
/-- The receive SA of a SecTAG: the lowest valid one whose SCI and AN match (R68). -/
def rxSa (n : Nat) (t : SecTag) (d : Dev) : Option Nat :=
  (List.range 64).find? fun i => let s := saOf n false i d; s.valid && s.sci == t.sci.toNat && i % 4 == t.an.toNat
/-- Octets of a frame of len bytes that CONF_OFS leaves to be encrypted: what follows the addresses, less the offset. [PRESUMED: log 16] -/
def confOctets (n len : Nat) (d : Dev) : Nat := len - 12 - (match pget LPG_PORTn_MSEC.CONF_OFS n d with | 0 => 0 | 1 => 30 | _ => 50)
/-- What MACsec makes of a frame: a drop code with its counter, or the frame to pass on (R73). With validation disabled no ICV is
looked at; replay protection and the advance of the packet number go on. [PRESUMED: log 16; DESIGN CHOICE: log 18] -/
def msecReceive (n : Nat) (bs : Bytes) (sec : Option SecTag) (d : Dev) : (Nat × Nat) × Bytes × Dev :=
  let mode := pget LPG_PORTn_MSEC.VALIDATE n d
  if !pflag LPG_PORTn_MSEC.EN n d then ((0, 0), bs, d)
  else match sec with
  | none => if mode = 2 then ((0x04, 0x070), bs, d) else ((0, 0), bs, portInc n 0x070 1 d)
  | some t =>
    match rxSa n t d with
    | none => if mode = 2 then ((0x04, 0x0E0), bs, d) else ((0, 0), t.plain, if mode = 0 then d else portInc n 0x0E8 1 d)
    | some i =>
      let s := saOf n false i d
      let pn := t.pn.toNat
      let late := pflag LPG_PORTn_MSEC.REPLAY n d && decide (pn + pget LPG_PORTn_REPLAY_WIN.WINDOW n d < s.nextPn)
      let accept (d : Dev) : Dev := setSa n false i { s with nextPn := max s.nextPn (pn + 1) } d
      if !t.icvOk && mode = 2 then ((0x05, 0x0D8), bs, d)
      else if late then ((0x06, 0x0F0), bs, d)
      else if mode = 0 then ((0, 0), t.plain, accept d)
      else if !t.icvOk then ((0, 0), t.plain, portInc n 0x0D0 1 d)
      else ((0, 0), t.plain, accept (portInc n 0x0C8 1 (if t.enc then portInc n 0x078 (macOctets bs.length + 2) d else d)))
/-- PKT_TIME of a capture time less the internal latency, with TS_ING_CORR taken off (R64, R65). [DESIGN CHOICE: log 19] -/
def rxTime (n : Nat) (ts : TimeVal) (d : Dev) : Nat :=
  let t : Int := (ts.sec.toNat * 1000000000 + ts.ns.toNat) * 65536 + ts.frac.toNat - signed 32 (pget LPG_PORTn_TS_ING_CORR.CORR n d)
  (t / 65536 % (2 ^ 48 : Int)).toNat
/-- A frame arrives whole, without its FCS, in `frags` fragments beyond the first; `smd` fragments were rejected for their SMD
since the frame before it (R63 to R65, R73, R76). A discarded frame counts only where its discard does. [DEDUCED: log 15; PRESUMED: log 16] -/
def frameReceive (n : Nat) (bs : Bytes) (fcsOk : Bool) (sec : Option SecTag) (ts : TimeVal) (frags smd corr unc : Nat) (d : Dev) : Dev :=
  if linkState n d ≠ 4 ∨ !blkEn (Pg.LPG + n / 4) d then d
  else
    let d := portInc n 0x058 smd (portInc n 0x068 frags (portInc n 0x048 unc (portInc n 0x040 corr d)))
    let len := bs.length + 4
    let good := fcsOk && unc == 0
    let d := if frags = 0 then d else portInc n (if good then 0x060 else 0x050) 1 d
    if pget LPG_PORTn_CFG.MAX_FRAME n d < len then drop 0x02 (portInc n 0x028 1 d)
    else if len < 64 then drop 0x03 (portInc n 0x030 1 d)
    else if !good then drop 0x01 (portInc n 0x020 1 d)
    else if beAt bs 12 2 = 0x8808 then drop 0x07 (portInc n 0x038 1 d)
    else
      let (res, load, d) := msecReceive n bs sec d
      if res.1 ≠ 0 then drop res.1 (portInc n res.2 1 d)
      else
        let d := groupCount n 0x010 bs (portInc n 0x008 (macOctets bs.length) (portInc n 0x000 1 d))
        fifoPush { port := n, bytes := load, pktTime := rxTime n ts d } d

/-! Transmitted frames (R61, R62, R64, R66 to R68, R72). -/

/-- Whether the gates let a frame, or the rest of a preempted one, start now (R355 to R357). -/
def gateLets (n : Nat) (f : TxFrame) (d : Dev) : Bool := gateOk n { tc := f.cls } { len := f.bytes.length } d
/-- The first waiting frame that p accepts, and the others in their order. -/
def takeWait (p : TxFrame → Bool) : List TxFrame → Option (TxFrame × List TxFrame)
  | [] => none
  | f :: t => if p f then some (f, t) else (takeWait p t).map fun x => (x.1, f :: x.2)
/-- Whether a frame in progress is long enough for one more non-final fragment (R75). [DESIGN CHOICE: log 21] -/
def canCut (n : Nat) (f : TxFrame) (d : Dev) : Bool :=
  decide (64 * (pget LPG_PORTn_PREEMPT.ADD_FRAG n d + 1) * (f.cuts + 1) < f.bytes.length + 4 + f.msec)
/-- What remains of a frame whose fragment ends. -/
def TxFrame.cut (f : TxFrame) : TxFrame := { f with fragment := true, cuts := f.cuts + 1 }
/-- What the MAC of a port starts next: an express frame, which preempts a preemptable one in progress that is long enough; else
the rest of a preempted frame; else the oldest frame that waits (R62, R74, R75, R357). The port as it stands afterwards, and the
frame. [DESIGN CHOICE: log 21] -/
def txPick (n : Nat) (d : Dev) : Option (TxFrame × PortSt) :=
  let x := port n d
  let on := pflag LPG_PORTn_STAT.PREEMPT_ACTIVE n d
  let express (f : TxFrame) : Bool := !preemptable n f.cls d
  let lets (r : Option (TxFrame × List TxFrame)) : Option (TxFrame × List TxFrame) := r.filter fun y => gateLets n y.1 d
  let rest : Option (TxFrame × PortSt) :=
    match x.txNow, x.txPre with
    | some _, _ => none
    | none, some f => if gateLets n f d then some (f, { x with txPre := none }) else none
    | none, none => (lets (takeWait (fun _ => true) x.txWait)).map fun y => (y.1, { x with txWait := y.2 })
  if !on then rest
  else
    match lets (takeWait express x.txWait), x.txNow with
    | some y, none => some (y.1, { x with txWait := y.2 })
    | some y, some f => if express f || !canCut n f d then none else some (y.1, { x with txWait := y.2, txPre := some f.cut, txNow := none })
    | none, _ => rest
/-- The contribution of bytes at packet offset o to the checksum at offset c (RFC 1624): bytes at an even distance weigh 256. -/
def csumPart (c o : Nat) (bs : Bytes) : Nat :=
  (bs.zipIdx).foldl (fun a x => a + (if (o + x.2 + c) % 2 = 0 then 256 else 1) * x.1.toNat) 0
/-- Update a UDP checksum for a field at o that turns from old to new. A checksum of 0 says that the packet carries none. [PRESUMED: log 20] -/
def csumFix (c o : Nat) (old new bs : Bytes) : Bytes :=
  let cur := beAt bs c 2
  if cur = 0 then bs
  else
    let s := fold16 (fold16 (fold16 ((0xFFFF - cur) + (65535 * 65536 + csumPart c o new - csumPart c o old))))
    let v := 0xFFFF - s
    (beBytes 2 (if v = 0 then 0xFFFF else v)).zipIdx.foldl (fun w x => w.set (c + x.2) x.1) bs
/-- Write the predicted departure time into a one-step frame (R66). [DESIGN CHOICE: log 19] -/
def oneStep (f : TxFrame) (pred : TimeVal) : Bytes :=
  match f.tso with
  | none => f.bytes
  | some (mode, o, cs) =>
    let n := if mode = 0 then 10 else 8
    let old := (f.bytes.drop o).take n
    let ns : Int := pred.sec.toNat * 1000000000 + pred.ns.toNat
    let delta : Int := ((ns - f.pktTime) % (2 ^ 48 : Int)) * 65536 + pred.frac.toNat
    let new := if mode = 0 then beBytes 6 pred.sec.toNat ++ beBytes 4 pred.ns.toNat else beBytes 8 (toBits 64 (beAt f.bytes o 8 + delta))
    let bs := new.zipIdx.foldl (fun w x => w.set (o + x.2) x.1) f.bytes
    match cs with | some c => csumFix c o old new bs | none => bs
/-- Bytes that MACsec adds on a port: SecTAG and ICV (R355). -/
def msecBytes (n : Nat) (d : Dev) : Nat := if pflag LPG_PORTn_MSEC.INCLUDE_SCI n d then 32 else 24
/-- The SecTAG of a transmitted frame: SCI, AN and PN, with the SA's packet number taken; none while MACsec is off. [DESIGN CHOICE: log 17, 18] -/
def txProtect (n sc : Nat) (len : Nat) (d : Dev) : Option (Option (Nat × Nat × Nat)) × Dev :=
  if !pflag LPG_PORTn_MSEC.EN n d then (some none, d)
  else match saUsable n sc d with
    | none => (none, d)
    | some i =>
      let s := saOf n true i d
      let octets := confOctets n len d
      let d := if octets = 0 then portInc n 0x0B0 1 d else portInc n 0x0B8 1 (portInc n 0x0F8 octets d)
      (some (some (s.sci, i % 4, s.nextPn)), saTakePn n i d)
/-- The MAC of a port starts a frame. `ts` is the departure time with the internal latency added, `pred` what the MAC
predicted for it (R62, R64, R66 to R68, R72, R76). [DESIGN CHOICE: log 19, 21] -/
def frameTxStart (n : Nat) (ts pred : TimeVal) (d : Dev) : Dev :=
  if linkState n d ≠ 4 ∨ !blkEn (Pg.LPG + n / 4) d then d
  else match txPick n d with
  | none => d
  | some (f, x) =>
    if f.fragment then portInc n 0x0A0 1 (setPort n { x with txNow := some f } d)
    else
      let d := setPort n x d
      match txProtect n f.sc f.bytes.length d with
      | (none, d) => drop 0x08 (portInc n 0x0C0 1 d)
      | (some tag, d) =>
        let corr := signed 32 (pget LPG_PORTn_TS_EGR_CORR.CORR n d)
        let shift (t : TimeVal) : TimeVal :=
          let v := (((t.sec.toNat * 1000000000 + t.ns.toNat) * 65536 + t.frac.toNat : Int) + corr).toNat
          ⟨BitVec.ofNat 48 (v / 65536 / 1000000000), BitVec.ofNat 30 (v / 65536 % 1000000000), BitVec.ofNat 16 v⟩
        let bs := oneStep f (shift pred)
        let t := shift ts
        let f := { f with bytes := bs, msec := if tag.isSome then msecBytes n d else 0 }
        let d := setPort n { port n d with txNow := some f } d
        let d := emit (.frame n bs tag (t.sec.toNat * 1000000000 + t.ns.toNat)) d
        match f.tst with
        | some g => tsPush n g t.sec.toNat t.ns.toNat t.frac.toNat d
        | none => d
/-- The MAC finishes a frame; one cut short by a failed read ends with a bad FCS (R257). It counts, and at the boundary a waiting SA command runs and the SC changes its SA (R62, R71, R72, R76). While a core rail is
out of its range the frame may have left with a bad FCS (R572). [PRESUMED: log 16; DESIGN CHOICE: log 104] -/
def frameTxEnd (n : Nat) (d : Dev) : Dev :=
  let x := port n d
  match x.txNow with
  | none => d
  | some f =>
    let d := setPort n { x with txNow := none } d
    let (v, d) := if d.sys.rails then (0, d) else draw d
    let d := if f.bad ∨ v % 2 = 1 then emit (.frameAbort n) d
      else groupCount n 0x090 f.bytes (portInc n 0x088 (macOctets (f.bytes.length + f.msec)) (portInc n 0x080 1 d))
    saSwitch n f.sc (saResume n d)
/-- The frame boundary at which an SC leaves its exhausted SA (R72). -/
def saBoundary (n sc : Nat) (d : Dev) : Dev := if (port n d).txNow.isSome then d else saSwitch n sc d

/-! Gate closes (R354, R357). -/

/-- At a close of its gate, or at a hold, the MAC ends a preemptable frame's fragment; the rest waits (R357). [DESIGN CHOICE: log 21] -/
def gateFragment (n : Nat) (d : Dev) : Dev :=
  let x := port n d
  match x.txNow with
  | some f =>
    let l := gateNow (gate n d)
    if preemptable n f.cls d && canCut n f d && (gateHeld l (nowNs d) || !(classAt l f.cls (nowNs d)).1) then
      setPort n { x with txNow := none, txPre := some f.cut } d
    else d
  | none => d
/-- Whether a list holds the preemptable classes at its entry i. -/
def heldAt (l : GateList) (i : Nat) : Bool :=
  match ((l.list.drop (i + 1) ++ l.list.take (i + 1)).reverse).find? (fun e => e.op != 0) with
  | some e => e.op == 1
  | none => false
/-- An interval ends and the next entry's gate states apply (R354, R357). -/
def gateInterval (n : Nat) (d : Dev) : Dev :=
  let e0 := rget SPN_GATEn_STAT.ENTRY 0 n d
  let d := gateRefresh n d
  let e1 := rget SPN_GATEn_STAT.ENTRY 0 n d
  let l := gateNow (gate n d)
  let d := if pflag LPG_PORTn_STAT.PREEMPT_ACTIVE n d && e0 != e1 && !heldAt l e0 && heldAt l e1 then portInc n 0x0A8 1 d else d
  gateFragment n d

/-! Verification of preemption (R75). -/

/-- VERIFY_TIME has passed since the last verify frame, or none has been sent. -/
def verifyDue (n : Nat) (d : Dev) : Bool :=
  (port n d).attempts == 0 || decide ((port n d).verAt + pget LPG_PORTn_PREEMPT.VERIFY_TIME n d * 1000000 ≤ d.mono)
/-- VERIFY_TIME has passed: another verify frame leaves, up to three; before that the row does nothing. -/
def verifySend (n : Nat) (d : Dev) : Dev :=
  let x := port n d
  if verifyDue n d && linkState n d = 4 && pflag LPG_PORTn_PREEMPT.EN n d && pflag LPG_PORTn_PREEMPT.VERIFY_EN n d && !x.verified && decide (x.attempts < 3) then
    emit (.verifyFrame n) (setPort n { x with attempts := x.attempts + 1, verAt := d.mono } d)
  else d
/-- The peer responds. [DESIGN CHOICE: log 22] -/
def verifyResponse (n : Nat) (d : Dev) : Dev :=
  let x := port n d
  if pflag LPG_PORTn_PREEMPT.EN n d && pflag LPG_PORTn_PREEMPT.VERIFY_EN n d && decide (1 ≤ x.attempts ∧ x.attempts ≤ 3) then
    preemptUpdate n (setPort n { x with verified := true } d)
  else d
/-- Three attempts have stayed unanswered, the last for VERIFY_TIME. [DESIGN CHOICE: log 22] -/
def verifyGiveUp (n : Nat) (d : Dev) : Dev :=
  let x := port n d
  if verifyDue n d && pflag LPG_PORTn_PREEMPT.EN n d && pflag LPG_PORTn_PREEMPT.VERIFY_EN n d && !x.verified && x.attempts == 3 then
    portFire n 24 (setPort n { x with attempts := 4 } d)
  else d

end Sys2Proof.Machine
end

