-- ==== Sys2Proof/Machine/Actions.lean ====
section
/-! DEFINITION. Timed actions as they fall due (12_spindle_time.md, R344 to R350), the passage of time (R330, R331) and what every
command does beside its own effect: the performance counters' conditions over time (R473). -/

namespace Sys2Proof.Machine

/-! Timed actions. -/

/-- A timed action fails: ACT_FAIL, the latch and the count (R349). [DEDUCED: log 70] -/
def actFail (i cause : Nat) (d : Dev) : Dev :=
  let d := if flag SPN_ACT_FAIL.VALID 0 0 d then d else loadImg .SPN_ACT_FAIL 0 0 (2 ^ 31 + cause * 2 ^ 28 + i) d
  fire Pg.SPN 2 (inc Pg.SPN 3 d)
/-- Perform the action of entry i (R344, R349, R350). [DEDUCED: log 70] -/
def actPerform (i : Nat) (a : Act) (d : Dev) : Dev :=
  match a.kind with
  | 0 =>
    let (c, d) := writeCode .spindle a.addr a.data (inc Pg.SPN 0 d)
    if c = 0 then d else actFail i 0 d
  | 1 =>
    let d := inc Pg.SPN 0 d
    match snapStart false a.set (a.t * unitNs) d with
    | some d => d
    | none => actFail i 1 d
  | 2 =>
    let d := inc Pg.SPN 0 d
    let d := if 64 ≤ d.spn.timerFifo.length then inc Pg.SPN 4 d else onSpn (fun p => { p with timerFifo := p.timerFifo ++ [i] }) d
    fire Pg.SPN 3 d
  | _ => epochSwitch d
/-- An entry is performed: a one-shot one frees itself, a periodic one moves on by its period (R345). -/
def actTake (i : Nat) (d : Dev) : Dev :=
  match find? d.spn.acts i with
  | none => d
  | some a =>
    let d := if a.kind = 3 then d
      else onSpn (fun p => { p with acts := if a.period = 0 then del p.acts i else ins p.acts i { a with t := a.t + a.period } }) d
    actPerform i a d
/-- Insert an entry into the order in which entries fell due, then by index. -/
def dueInsert (x : Nat × Nat) : List (Nat × Nat) → List (Nat × Nat)
  | [] => [x]
  | y :: t => if x.1 < y.1 ∨ (x.1 = y.1 ∧ x.2 < y.2) then x :: y :: t else y :: dueInsert x t
/-- Entries that have fallen due and have not been put off, in order (R346). [DEDUCED: log 70] -/
def dueNow (d : Dev) : List Nat :=
  let l := d.spn.acts.filter fun x => (x.2.due || decide (x.2.t ≤ nowNs d)) && !d.spn.deferred.contains x.1
  (l.foldl (fun a x => dueInsert (if x.2.due then nowNs d else x.2.t, x.1) a) []).map (·.2)
/-- One nanosecond of the Spindle: up to 8 actions are performed, deferred ones first; the others are put off, each an overrun
(R346). [DEDUCED: log 70] -/
def actionDue (d : Dev) : Dev :=
  let loose := d.spn.loose
  let all := d.spn.deferred ++ dueNow d
  let later := all.drop (8 - loose.length)
  let d := onSpn (fun p => { p with deferred := later, loose := d.spn.loose.drop 8 }) d
  let d := later.foldl (fun d _ => overrun Pg.SPN (inc Pg.SPN 2 d)) d
  let d := (loose.take 8).foldl (fun d x => actPerform x.1 x.2 d) d
  (all.take (8 - loose.length)).foldl (fun d i => actTake i d) d
/-- A register write as software or the host makes it. [DESIGN CHOICE: log 4] -/
def regWrite (req : Requester) (addr v : Nat) (d : Dev) : Dev := busWrite req addr v d

/-! Time. -/

/-- One host cycle passes, with the marker if the Spindle reaches one (R330, R331). While the host island stands still only the
AON's and the monotonic time go on. [DESIGN CHOICE: log 2] -/
def tick (d : Dev) : Dev :=
  if porHeld d then d
  else if islOn 99 d then
    passCycles 1 d
  else
    let u := d.spn.monoU + unitNs
    let d := dmaPass (u / unitNs) d
    { d with spn := { d.spn with monoU := u }, mono := u / unitNs, hwd := { d.hwd with aonNs := d.hwd.aonNs + 1 } }

/-! Performance conditions that last (R473). -/

/-- Clock of island n in MHz (R14). -/
def islMHz (n : Nat) : Nat :=
  if n < 32 then 1600 else if n = 32 then 2500 else if n < 97 then 2000 else if n = 97 then 2500 else if n = 98 then 1500
  else if n = 99 then 1000 else if n = 100 then 25 else if n < 103 then 2500 else 1600
/-- Count what lasted while the monotonic count went from u0 to u1, as the page stands now. [DEDUCED: log 55] -/
def perfTime (u0 u1 : Nat) (p : Nat) (d : Dev) : Dev :=
  let n := islandOf p
  let mhz := islMHz n
  let cyc := if islState n d = 2 then u1 * mhz / (1000 * unitNs) - u0 * mhz / (1000 * unitNs) else 0
  let ns := u1 / unitNs - u0 / unitNs
  let on (c : Bool) (k : Nat) : Nat := if c then k else 0
  let d := perfCount p 0x03 (on (islState n d == 3) ns) (on (islState n d == 3) ns) (perfCount p 0x02 ns ns (perfCount p 0x01 cyc cyc d))
  let d := perfCount p 0x05 0 (on (busyOf p d) cyc) (perfCount p 0x04 (on (inRetention p d) ns) (on (inRetention p d) ns) d)
  (bitsOf 32 (face p d).pend).foldl (fun d b => perfCount p (0x08 + b) 0 cyc d) d
/-- What every command does beside its own effect: captures whose instant has passed freeze, BUSY's rises count, time is counted
in the performance counters that run, and the EVT evaluates its groups (R446). [DEDUCED: log 55] -/
def settle (d0 d1 : Dev) : Dev :=
  let d := if d1.spn.time = d0.spn.time then d1 else snapFreeze d1
  evtUpdate ((keys d1.perf).foldl (fun d p =>
    let d := if !busyOf p d0 && busyOf p d1 then perfCount p 0x05 1 0 d else d
    if d1.spn.monoU = d0.spn.monoU then d else perfTime d0.spn.monoU d1.spn.monoU p d) d)
/-- Run the effect of a command on the device: it always answers a next state, and the queue stays as it is. [DEDUCED: log 12] -/
def run (f : Dev → Dev) (s : State) : Host.Outcome State Fault Refusal := .next { s with dev := settle s.dev (f s.dev) }

end Sys2Proof.Machine
end

