-- ==== Sys2Proof/Machine/Rows.lean ====
section
/-! DEFINITION. How the rows of the opcode table name registers, pages and parties, and the register accesses that a row stands
for: a row whose command is a register write writes the register's highest word, which commits what the requester has staged
(R54), with the bits that make it this command set. -/

namespace Sys2Proof.Machine

/-- The number of a page: bits 31 to 16 of its base (R29). -/
def pageNum : Page → Nat
  | .glb => Pg.GLB | .hif => Pg.HIF | .evt => Pg.EVT | .aon => Pg.AON | .spn => Pg.SPN
  | .mgt => Pg.MGT | .hwd => Pg.HWD | .vlt => Pg.VLT | .svc => Pg.SVC | .clk => Pg.CLK
  | .lpg g => Pg.LPG + g.val | .hds i => Pg.HDS + i.val | .lpm i => Pg.LPM + i.val
  | .xm => Pg.XM | .nht => Pg.NHT | .tcm => Pg.TCM | .brl => Pg.BRL | .lrn => Pg.LRN
  | .eng c => Pg.ENG + c.val | .epc => Pg.EPC | .mdl => Pg.MDL | .tls => Pg.TLS | .chk => Pg.CHK | .d2d => Pg.D2D
  | .hbm s => Pg.HBM + s.val | .tms i => Pg.TMS + i.val | .mtr => Pg.MTR
  | .fab f => Pg.FAB + f.val | .fct => Pg.FCT | .cnt => Pg.CNT | .mem => Pg.MEM
/-- Address of a register with the layout of FP_OWNER (R49, R559). -/
def ownerAddr : OwnerReg → Nat
  | .face p => pageNum p * 65536 + 0x34
  | .slice k => Reg.addr .TCM_SLICEk_OWNER 0 k.val
  | .mirror k => Reg.addr .TMS_MIRk_OWNER 0 k.val
  | .syncOut => Reg.addr .SPN_SYNC_OUT_OWNER 0 0
/-- The register and index of a table lock (R135). -/
def lockReg : LockReg → Reg × Nat
  | .lpm t => (.LPM_LOCKt, t.val)
  | .xm n => (.XM_LOCKn, n.val)
  | .nht => (.NHT_LOCK, 0)
/-- Address of a table lock. -/
def lockAddr (l : LockReg) : Nat := (lockReg l).1.addr 0 (lockReg l).2
/-- The register of the limit that governs a lock (R136). -/
def lockTmo : LockReg → Reg
  | .lpm _ => .LPM_LOCK_TMO
  | .xm _ => .XM_LOCK_TMO
  | .nht => .NHT_LOCK_TMO
/-- Address of the control word of vector v in the MSI-X table (R454). -/
def maskAddr (v : Nat) : Nat := Pg.HIF * 65536 + 0x5000 + 16 * v + 12
/-- Number of a place that holds banks: a region, or 256 + page. -/
def placeNum : BankPlace → Nat
  | .region r => r.val
  | .page p => 256 + pageNum p
/-- A flow key as the cache keeps it (R406). -/
def flowNum (k : FlowKey) : Nat :=
  flowKey k.ingPort.toNat k.v6 k.src.toNat k.dst.toNat k.proto.toNat k.sport.toNat k.dport.toNat
/-- The bits of a learning record with OP (R383). -/
def learnNum (op : Nat) (r : LearnRec) : Nat := learnRec op r.table.val r.dev.toNat r.port.toNat r.time.toNat r.key.toNat

/-- Replace fields of a word: highest bit, lowest bit, value. [DESIGN CHOICE: log 4] -/
def force (w : BitVec 32) (fs : List (Nat × Nat × Nat)) : Nat :=
  fs.foldl (fun x f => x - bits x f.1 f.2.1 * 2 ^ f.2.1 + f.2.2 % 2 ^ (f.1 + 1 - f.2.1) * 2 ^ f.2.1) w.toNat
/-- The word of a command: GO in bit 31 and its operation code. [DESIGN CHOICE: log 4] -/
def go (w : BitVec 32) (hi lo op : Nat) : Nat := force w [(31, 31, 1), (hi, lo, op)]
/-- Write the highest word of a register: the write that commits it (R54). [DESIGN CHOICE: log 4] -/
def cmd (req : Requester) (r : Reg) (g i w : Nat) (d : Dev) : Dev := regWrite req (r.addr g i + 4 * (r.lay.words - 1)) w d
/-- Read the lowest word of a register (R55). -/
def readLow (req : Requester) (r : Reg) (g i : Nat) (d : Dev) : Dev := busRead req (r.addr g i) d
/-- Write a word of a page by its offset. [DESIGN CHOICE: log 4] -/
def faceCmd (req : Requester) (p : Page) (ofs w : Nat) (d : Dev) : Dev := regWrite req (pageNum p * 65536 + ofs) w d
/-- A PCIe request that is too long or crosses a page (R34). -/
def oversize (addr : Nat) (write : Bool) (words : Nat) (d : Dev) : Dev :=
  if !alive d then d
  else if write then badRequest .pcie addr words d else emit (.readReply .pcie addr 0) (badRequest .pcie addr 0 d)
/-- Counter commands (R468): `p` and `b` say what the memory holds in the pair's two words (R469). -/
def cntCmd (req : Requester) (w : Nat) (p b : EccSeen) (d : Dev) : Dev :=
  let i := w % 2 ^ 21
  let mark (x : Nat) (s : EccSeen) (d : Dev) : Dev :=
    if s = .uncorrectable then onCnt (fun c => { c with bad := if c.bad.contains x then c.bad else x :: c.bad }) d else d
  let n := ctr Pg.CNT 0x1008 d
  let d := cmd req .CNT_ACC 0 0 w (mark (2 * i + 1) b (mark (2 * i) p d))
  if ctr Pg.CNT 0x1008 d = n then d else incBy Pg.CNT 5 (b2n (p == .corrected) + b2n (b == .corrected)) d

/-- Something happens at a line port from outside: its reference clock is there and the lanes are not under boundary scan. [DESIGN CHOICE: log 3] -/
def lineEvt (n : Nat) (f : Dev → Dev) (d : Dev) : Dev := if lineRef n d then act (n / 4) f d else d
/-- Something happens at a fabric link from outside. [DESIGN CHOICE: log 3] -/
def fabEvt (l : Nat) (f : Dev → Dev) (d : Dev) : Dev := if fabRef l d then act (107 + l / 8) f d else d
/-- Island of the dispatcher of a pass: the Headstock's for ingress, the Tailstock's for egress. -/
def passIsland (n : Nat) (d : Dev) : Nat := match getPass n d with | some p => if p.egress then 97 else 32 | none => 32
/-- A walker meets an uncorrectable word of a replica that walks can use (R168). -/
def burlFault (r w : Nat) (d : Dev) : Dev := if replState r d = 2 ∨ replState r d = 3 then (burlReread r w d).2 else d
/-- The scrubber visits a table word (R131, R132). -/
def tableScrub (w : TableWord) (seen : EccSeen) (d : Dev) : Dev :=
  match seen with
  | .clean => d
  | .corrected => tableCorrected w d
  | .uncorrectable => tableUncorr w d
/-- A lock has been held beyond its limit; learning records that waited for it go on (R136, R141). -/
def lockTimeout (l : LockReg) (d : Dev) : Dev := learnResume (lockExpire (lockReg l).1 (lockReg l).2 d)
/-- Issue the reads of a stream as far as its limits allow (R279). -/
def readStream (q : Nat) (d : Dev) : Dev := readIssue q ((stream q d).blocks.length + 2) d
/-- The marker at which a waiting time command takes effect (R334). -/
def adjApply (d : Dev) : Dev := if d.spn.adj.isSome || d.spn.servoStep.isSome || d.spn.labelSet.isSome then toMarker d else d

end Sys2Proof.Machine
end

