-- ==== Sys2Proof/Machine/CmdAgents.lean ====
section
/-! DEFINITION. The services (14_services.md). -/

namespace Sys2Proof.Machine

/-- BFD_RECEIVE (R403). -/
def execBfdReceive (s : State) : Host.Outcome State Fault Refusal := run (act 98 bfdReceive) s
/-- ND_REQUEST (R405). -/
def execNdRequest (s : State) : Host.Outcome State Fault Refusal := run (act 98 ndRequest) s
/-- IPFIX_SAMPLE (R406). -/
def execIpfixSample (s : State) : Host.Outcome State Fault Refusal := run (act 98 ipfixSample) s
/-- BFD_TRANSMIT (R402). -/
def execBfdTransmit (ix : BitVec 15) (s : State) : Host.Outcome State Fault Refusal := run (act 98 (bfdTransmit ix.toNat)) s
/-- BFD_DETECT_TIMEOUT (R403). -/
def execBfdDetectTimeout (ix : BitVec 15) (s : State) : Host.Outcome State Fault Refusal :=
  run (act 98 (bfdExpire ix.toNat)) s
/-- WHEEL_TICK (R401). -/
def execWheelTick (slot : BitVec 16) (s : State) : Host.Outcome State Fault Refusal := run (act 98 (wheelTick slot.toNat)) s
/-- IPFIX_IDLE_EXPORT (R406). -/
def execIpfixIdleExport (k : FlowKey) (s : State) : Host.Outcome State Fault Refusal :=
  run (act 98 (idleExport (flowNum k))) s
/-- IPFIX_ACTIVE_EXPORT (R406). -/
def execIpfixActiveExport (k : FlowKey) (s : State) : Host.Outcome State Fault Refusal :=
  run (act 98 (activeExport (flowNum k))) s
/-- IPFIX_TEMPLATE_SEND (R407). -/
def execIpfixTemplateSend (s : State) : Host.Outcome State Fault Refusal := run (act 98 templateSend) s
/-- BFD_ADD (R410). -/
def execBfdAdd (req : Requester) (w : BitVec 32) (s : State) : Host.Outcome State Fault Refusal :=
  run (cmd req .SVC_MBOX_CMD 0 0 (go w 30 24 0x01)) s
/-- BFD_MOD (R410). -/
def execBfdMod (req : Requester) (w : BitVec 32) (s : State) : Host.Outcome State Fault Refusal :=
  run (cmd req .SVC_MBOX_CMD 0 0 (go w 30 24 0x02)) s
/-- BFD_DEL (R410). -/
def execBfdDel (req : Requester) (w : BitVec 32) (s : State) : Host.Outcome State Fault Refusal :=
  run (cmd req .SVC_MBOX_CMD 0 0 (go w 30 24 0x03)) s
/-- BFD_DEL_FINISH (R410). -/
def execBfdDelFinish (ix : BitVec 15) (s : State) : Host.Outcome State Fault Refusal := run (act 98 (bfdDelFinish ix.toNat)) s
/-- BFD_READ (R409). -/
def execBfdRead (req : Requester) (w : BitVec 32) (s : State) : Host.Outcome State Fault Refusal :=
  run (cmd req .SVC_MBOX_CMD 0 0 (go w 30 24 0x04)) s
/-- ND_ADD (R410). -/
def execNdAdd (req : Requester) (w : BitVec 32) (s : State) : Host.Outcome State Fault Refusal :=
  run (cmd req .SVC_MBOX_CMD 0 0 (go w 30 24 0x10)) s
/-- ND_DEL (R410). -/
def execNdDel (req : Requester) (w : BitVec 32) (s : State) : Host.Outcome State Fault Refusal :=
  run (cmd req .SVC_MBOX_CMD 0 0 (go w 30 24 0x11)) s
/-- IPFIX_CFG (R410). -/
def execIpfixCfg (req : Requester) (w : BitVec 32) (s : State) : Host.Outcome State Fault Refusal :=
  run (cmd req .SVC_MBOX_CMD 0 0 (go w 30 24 0x20)) s
/-- IPFIX_FLUSH (R410). -/
def execIpfixFlush (req : Requester) (w : BitVec 32) (s : State) : Host.Outcome State Fault Refusal :=
  run (cmd req .SVC_MBOX_CMD 0 0 (go w 30 24 0x21)) s
/-- RING_DRAIN (R411). -/
def execRingDrain (s : State) : Host.Outcome State Fault Refusal := run (act 98 ringDrain) s
/-- FW_VERIFY (R412). -/
def execFwVerify (req : Requester) (w : BitVec 32) (s : State) : Host.Outcome State Fault Refusal :=
  run (cmd req .SVC_FW_CMD 0 0 (go w 30 30 0)) s
/-- FW_START (R412). -/
def execFwStart (req : Requester) (w : BitVec 32) (s : State) : Host.Outcome State Fault Refusal :=
  run (cmd req .SVC_FW_CMD 0 0 (go w 30 30 1)) s
/-- WHEEL_CLAIM (R401). -/
def execWheelClaim (req : Requester) (w : BitVec 32) (s : State) : Host.Outcome State Fault Refusal :=
  run (cmd req .SVC_WHEEL_CMD 0 0 (go w 30 30 0)) s
/-- WHEEL_RELEASE (R401). -/
def execWheelRelease (req : Requester) (w : BitVec 32) (s : State) : Host.Outcome State Fault Refusal :=
  run (cmd req .SVC_WHEEL_CMD 0 0 (go w 30 30 1)) s

end Sys2Proof.Machine
end

