-- ==== Sys2Proof/Machine/CmdBanks.lean ====
section
/-! DEFINITION. Memory regions and the vault (18_memory_banks.md). -/

namespace Sys2Proof.Machine

/-- GRANT_WRITE (R492). -/
def execGrantWrite (req : Requester) (r : Fin 88) (w : BitVec 32) (s : State) : Host.Outcome State Fault Refusal :=
  run (cmd req .MEM_GRANTr 0 r.val w.toNat) s
/-- GRANT_HANDOVER_DONE (R492). -/
def execGrantHandoverDone (r : Fin 88) (s : State) : Host.Outcome State Fault Refusal := run (act 99 (grantDone r.val)) s
/-- MEM_TEST_START (R499). -/
def execMemTestStart (req : Requester) (w : BitVec 32) (s : State) : Host.Outcome State Fault Refusal :=
  run (cmd req .MEM_TEST_CTRL 0 0 (force w [(31, 31, 1)])) s
/-- MEM_TEST_DONE (R501). -/
def execMemTestDone (fails : BitVec 32) (first : Option (Fin 88 × BitVec 15)) (s : State) : Host.Outcome State Fault Refusal :=
  run (act 99 (memTestDone fails.toNat (first.map fun x => (x.1.val, x.2.toNat)))) s
/-- VAULT_IMPORT (R504). -/
def execVaultImport (req : Requester) (w : BitVec 32) (s : State) : Host.Outcome State Fault Refusal :=
  run (cmd req .VLT_CMD 0 0 (go w 30 29 0)) s
/-- IMPORT_READ_DONE (R504). -/
def execImportReadDone (bytes : Bytes) (s : State) : Host.Outcome State Fault Refusal := run (act 98 (importDone bytes)) s
/-- VAULT_REMOVE (R505). -/
def execVaultRemove (req : Requester) (w : BitVec 32) (s : State) : Host.Outcome State Fault Refusal :=
  run (cmd req .VLT_CMD 0 0 (go w 30 29 1)) s
/-- VAULT_QUERY (R505). -/
def execVaultQuery (req : Requester) (w : BitVec 32) (s : State) : Host.Outcome State Fault Refusal :=
  run (cmd req .VLT_CMD 0 0 (go w 30 29 2)) s
/-- LC_CHANGE (R507). -/
def execLcChange (req : Requester) (w : BitVec 32) (s : State) : Host.Outcome State Fault Refusal :=
  run (cmd req .VLT_LC 0 0 (force w [(31, 31, 1)])) s
/-- TAMPER_ASSERT (R546). -/
def execTamperAssert (s : State) : Host.Outcome State Fault Refusal :=
  run (fun d => if porHeld d then d else tamperAssert d) s
/-- TAMPER_WIPE (R509). -/
def execTamperWipe (s : State) : Host.Outcome State Fault Refusal := run (fun d => if porHeld d then d else tamperWipe d) s

end Sys2Proof.Machine
end

