-- ==== Sys2Proof/Machine/CmdBringup.lean ====
section
/-! DEFINITION. Clocks, resets, start-up and JTAG (19_bringup.md, 20_package_pins.md, 22_electrical.md). -/

namespace Sys2Proof.Machine

/-- ISL_STOP (R516). -/
def execIslStop (req : Requester) (isl : Fin 128) (w : BitVec 32) (s : State) : Host.Outcome State Fault Refusal :=
  run (cmd req .CLK_ISLn 0 isl.val (force w [(31, 31, 1)])) s
/-- ISL_START (R516). -/
def execIslStart (req : Requester) (isl : Fin 128) (w : BitVec 32) (s : State) : Host.Outcome State Fault Refusal :=
  run (cmd req .CLK_ISLn 0 isl.val (force w [(31, 31, 0)])) s
/-- ISL_RESTOP (R516). -/
def execIslRestop (isl : Fin 128) (s : State) : Host.Outcome State Fault Refusal := run (islRestop isl.val) s
/-- ISLAND_LOCK_LOSS (R517). -/
def execIslandLockLoss (isl : Fin 128) (s : State) : Host.Outcome State Fault Refusal := run (lockLoss isl.val) s
/-- ISLAND_RELOCK (R517). -/
def execIslandRelock (isl : Fin 128) (s : State) : Host.Outcome State Fault Refusal := run (relock isl.val) s
/-- REF_CLK_LOSS (R518). -/
def execRefClkLoss (c : RefClk) (s : State) : Host.Outcome State Fault Refusal := run (refLoss c) s
/-- REF_CLK_RETURN (R518). -/
def execRefClkReturn (c : RefClk) (s : State) : Host.Outcome State Fault Refusal := run (refReturn c) s
/-- POR_N_ASSERT (R519). -/
def execPorNAssert (s : State) : Host.Outcome State Fault Refusal := run porAssert s
/-- POR_N_RELEASE (R525). -/
def execPorNRelease (s : State) : Host.Outcome State Fault Refusal := run porRelease s
/-- AON_BROWNOUT (R573). -/
def execAonBrownout (s : State) : Host.Outcome State Fault Refusal := run brownout s
/-- RAIL_LOSS (R572). -/
def execRailLoss (s : State) : Host.Outcome State Fault Refusal := run railLoss s
/-- CHIP_RST_N_ASSERT (R519). -/
def execChipRstNAssert (s : State) : Host.Outcome State Fault Refusal := run chipPinAssert s
/-- CHIP_RST_N_RELEASE (R522). -/
def execChipRstNRelease (s : State) : Host.Outcome State Fault Refusal := run chipPinRelease s
/-- GLB_RST_CONTROL (R519). -/
def execGlbRstControl (req : Requester) (s : State) : Host.Outcome State Fault Refusal :=
  run (cmd req .GLB_RST 0 0 0x52530001) s
/-- GLB_RST_CHIP (R519). -/
def execGlbRstChip (req : Requester) (s : State) : Host.Outcome State Fault Refusal := run (cmd req .GLB_RST 0 0 0x52530002) s
/-- THERMAL_TRIP (R522). -/
def execThermalTrip (s : State) : Host.Outcome State Fault Refusal := run thermalTrip s
/-- TRIP_RELEASE (R522). -/
def execTripRelease (hottest : BitVec 8) (s : State) : Host.Outcome State Fault Refusal := run (tripRelease hottest.toInt) s
/-- CTL_RST_N_ASSERT (R523). -/
def execCtlRstNAssert (s : State) : Host.Outcome State Fault Refusal := run ctlPinAssert s
/-- CTL_RST_N_RELEASE (R523). -/
def execCtlRstNRelease (s : State) : Host.Outcome State Fault Refusal := run ctlPinRelease s
/-- CONTROL_RESET_DONE (R523). -/
def execControlResetDone (s : State) : Host.Outcome State Fault Refusal := run controlDone s
/-- SRAM_INIT_DONE (R526). -/
def execSramInitDone (bad : List Page) (s : State) : Host.Outcome State Fault Refusal := run (sramDone (bad.map pageNum)) s
/-- D2D_TRAIN_DONE (R526). -/
def execD2dTrainDone (ok : Bool) (s : State) : Host.Outcome State Fault Refusal := run (d2dDone ok) s
/-- SERDES_CAL_DONE (R526). -/
def execSerdesCalDone (badLine : BitVec 128) (badFab : BitVec 168) (s : State) : Host.Outcome State Fault Refusal :=
  run (serdesDone badLine.toNat badFab.toNat) s
/-- BOOT_DONE (R525). -/
def execBootDone (s : State) : Host.Outcome State Fault Refusal := run bootDone s
/-- JTAG_EXTEST (R551). -/
def execJtagExtest (s : State) : Host.Outcome State Fault Refusal := run (jtagTake 0x00) s
/-- JTAG_IDCODE (R550). -/
def execJtagIdcode (s : State) : Host.Outcome State Fault Refusal := run jtagIdcode s
/-- JTAG_SAMPLE_PRELOAD (R549). -/
def execJtagSamplePreload (s : State) : Host.Outcome State Fault Refusal := run (jtagLoad 0x02) s
/-- JTAG_EXTEST_PULSE (R551). -/
def execJtagExtestPulse (s : State) : Host.Outcome State Fault Refusal := run (jtagTake 0x03) s
/-- JTAG_EXTEST_TRAIN (R551). -/
def execJtagExtestTrain (s : State) : Host.Outcome State Fault Refusal := run (jtagTake 0x04) s
/-- JTAG_CLAMP (R551). -/
def execJtagClamp (s : State) : Host.Outcome State Fault Refusal := run (jtagTake 0x05) s
/-- JTAG_HIGHZ (R551). -/
def execJtagHighz (s : State) : Host.Outcome State Fault Refusal := run (jtagTake 0x06) s
/-- JTAG_BYPASS (R549). -/
def execJtagBypass (s : State) : Host.Outcome State Fault Refusal := run (jtagLoad 0xFF) s
/-- JTAG_TAP_RESET (R551). -/
def execJtagTapReset (s : State) : Host.Outcome State Fault Refusal := run jtagReset s
/-- FUSE_LOAD_DONE (R526). -/
def execFuseLoadDone (ok : Bool) (serial : BitVec 64) (lc : BitVec 2) (digest : Bytes) (straps : BitVec 16 × BitVec 16 × BitVec 16) (s : State) : Host.Outcome State Fault Refusal :=
  run (fuseDone ok serial.toNat lc.toNat digest straps.1.toNat straps.2.1.toNat straps.2.2.toNat) s
/-- CLOCKS_LOCKED (R525). -/
def execClocksLocked (s : State) : Host.Outcome State Fault Refusal := run clocksLocked s
/-- FRAME_TX_END (R62). -/
def execFrameTxEnd (port : Fin 128) (s : State) : Host.Outcome State Fault Refusal :=
  run (lineEvt port.val (frameTxEnd port.val)) s
/-- VDD_IO_LOSS (R541). -/
def execVddIoLoss (s : State) : Host.Outcome State Fault Refusal := run vddIoLoss s
/-- VDD_IO_RETURN (R541). -/
def execVddIoReturn (s : State) : Host.Outcome State Fault Refusal := run vddIoReturn s
/-- VDD_AON_RETURN (R573). -/
def execVddAonReturn (s : State) : Host.Outcome State Fault Refusal := run vddAonReturn s
/-- TAMPER_RELEASE (R509). -/
def execTamperRelease (s : State) : Host.Outcome State Fault Refusal :=
  run (fun d => if porHeld d then d else tamperRelease d) s
/-- ASPM_L1_ENTRY (R459). -/
def execAspmL1Entry (s : State) : Host.Outcome State Fault Refusal := run (act 99 l1Entry) s
/-- ASPM_L1_EXIT (R459). -/
def execAspmL1Exit (s : State) : Host.Outcome State Fault Refusal := run (act 99 l1Exit) s
/-- HBM_REFRESH_DUE (R285). -/
def execHbmRefreshDue (st : Fin 4) (k : Fin 32) (bank : BitVec 7) (s : State) : Host.Outcome State Fault Refusal :=
  run (act (103 + st.val) (refreshDue st.val k.val bank.toNat)) s

end Sys2Proof.Machine
end

