-- ==== Sys2Proof/Machine/CmdCells.lean ====
section
/-! DEFINITION. The Chuck (09_chuck_buffers.md). -/

namespace Sys2Proof.Machine

/-- ALLOC_CYCLE (R244). -/
def execAllocCycle (adds : List (BitVec 22 × BitVec 12)) (frees : List ChainFree) (reqs : List CellReq) (s : State) : Host.Outcome State Fault Refusal :=
  run (act 101 (allocCycle (adds.map fun x => (x.1.toNat, x.2.toNat)) (frees.map fun x => (x.party, x.handle.toNat, x.tag.toNat)) (reqs.map fun x => (x.port.val, x.pool.val, x.tag.toNat)))) s
/-- CACHE_REFILL (R246). -/
def execCacheRefill (pool : Fin 16) (s : State) : Host.Outcome State Fault Refusal := run (act 101 (cacheRefill pool.val)) s
/-- HEAD_CACHE_REQUEST (R248). -/
def execHeadCacheRequest (src : Fin 130) (s : State) : Host.Outcome State Fault Refusal :=
  run (act 101 (headCacheRequest src.val)) s
/-- HANDLES_RECORD (R248). -/
def execHandlesRecord (s : State) : Host.Outcome State Fault Refusal := run (act 101 handlesRecord) s
/-- BODY_RECORD (R262). -/
def execBodyRecord (s : State) : Host.Outcome State Fault Refusal := run (act 101 bodyRecord) s
/-- VERDICT_RECORD (R262). -/
def execVerdictRecord (s : State) : Host.Outcome State Fault Refusal := run (act 101 verdictRecord) s
/-- VERDICT_APPLY (R249). -/
def execVerdictApply (s : State) : Host.Outcome State Fault Refusal := run (act 101 verdictApply) s
/-- FREE_CHAIN (R252). -/
def execFreeChain (x : ChainFree) (s : State) : Host.Outcome State Fault Refusal :=
  run (act 101 (free x.party x.handle.toNat x.tag.toNat)) s
/-- POOL_CFG_WRITE (R241). -/
def execPoolCfgWrite (req : Requester) (pool : Fin 16) (w : BitVec 32) (s : State) : Host.Outcome State Fault Refusal :=
  run (cmd req .CHK_POOLn_CFG 0 pool.val w.toNat) s
/-- POOL_MIN_RESET (R256). -/
def execPoolMinReset (req : Requester) (pool : Fin 16) (w : BitVec 32) (s : State) : Host.Outcome State Fault Refusal :=
  run (cmd req .CHK_POOLn_MIN 0 pool.val w.toNat) s
/-- CELL_READ (R268). -/
def execCellRead (req : Requester) (w : BitVec 32) (s : State) : Host.Outcome State Fault Refusal :=
  run (cmd req .CHK_CELL_CMD 0 0 (go w 30 28 0)) s
/-- CELL_ALLOC (R268). -/
def execCellAlloc (req : Requester) (w : BitVec 32) (s : State) : Host.Outcome State Fault Refusal :=
  run (cmd req .CHK_CELL_CMD 0 0 (go w 30 28 1)) s
/-- CELL_FREE (R268). -/
def execCellFree (req : Requester) (w : BitVec 32) (s : State) : Host.Outcome State Fault Refusal :=
  run (cmd req .CHK_CELL_CMD 0 0 (go w 30 28 2)) s
/-- CELL_FORCE_FREE (R268). -/
def execCellForceFree (req : Requester) (w : BitVec 32) (s : State) : Host.Outcome State Fault Refusal :=
  run (cmd req .CHK_CELL_CMD 0 0 (go w 30 28 3)) s
/-- BADFREE_LOG_POP (R253). -/
def execBadfreeLogPop (req : Requester) (s : State) : Host.Outcome State Fault Refusal :=
  run (readLow req .CHK_BADFREE_LOG 0 0) s
/-- MARCH_START (R258). -/
def execMarchStart (req : Requester) (w : BitVec 32) (s : State) : Host.Outcome State Fault Refusal :=
  run (cmd req .CHK_MARCH_CTRL 0 0 (force w [(31, 31, 1)])) s
/-- MARCH_DONE (R259). -/
def execMarchDone (fails : List (BitVec 22)) (s : State) : Host.Outcome State Fault Refusal :=
  run (act 101 (marchEnd (fails.map (·.toNat)))) s
/-- CHK_SCRUB (R257). -/
def execChkScrub (granule : BitVec 22) (seen : EccSeen) (s : State) : Host.Outcome State Fault Refusal :=
  run (act 101 (chkScrub granule.toNat seen)) s
/-- CHK_INJECT (R257). -/
def execChkInject (req : Requester) (w : BitVec 32) (s : State) : Host.Outcome State Fault Refusal :=
  run (cmd req .CHK_INJECT 0 0 (force w [(31, 31, 1)])) s

end Sys2Proof.Machine
end

