-- ==== Sys2Proof/Machine/CmdEngines.lean ====
section
/-! DEFINITION. Action engines, dispatch and the Tailstock (07_action_engines.md). -/

namespace Sys2Proof.Machine

/-- BUNDLE_ISSUE (R189). -/
def execBundleIssue (c : Fin 64) (e : Fin 16) (s : State) (corr : Fin 5 := 0) : Host.Outcome State Fault Refusal :=
  run (act (33 + c.val) (bundleIssue c.val e.val corr.val)) s
/-- SCRATCH_LOAD_LAND (R189). -/
def execScratchLoadLand (c : Fin 64) (e : Fin 16) (s : State) : Host.Outcome State Fault Refusal :=
  run (act (33 + c.val) (scratchLand c.val e.val)) s
/-- BUDGET_STOP (R203). -/
def execBudgetStop (c : Fin 64) (e : Fin 16) (s : State) : Host.Outcome State Fault Refusal :=
  run (act (33 + c.val) (budgetStop c.val e.val)) s
/-- VERDICT_RELEASE (R178). -/
def execVerdictRelease (queue : BitVec 13) (s : State) : Host.Outcome State Fault Refusal :=
  run (act (if queue.toNat < 4096 then 32 else 97) (verdictRelease queue.toNat)) s
/-- CLUSTER_DRAINED (R175). -/
def execClusterDrained (c : Fin 64) (s : State) : Host.Outcome State Fault Refusal :=
  run (act (33 + c.val) (clusterDrained c.val)) s
/-- IMEM_WRITE (R206). -/
def execImemWrite (req : Requester) (c : Fin 64) (w : BitVec 32) (s : State) : Host.Outcome State Fault Refusal :=
  run (cmd req .ENG_IMEM_DATA c.val 0 w.toNat) s
/-- IMEM_READ (R206). -/
def execImemRead (req : Requester) (c : Fin 64) (s : State) : Host.Outcome State Fault Refusal :=
  run (readLow req .ENG_IMEM_DATA c.val 0) s
/-- ENG_TRACE_ARM (R212). -/
def execEngTraceArm (req : Requester) (c : Fin 64) (w : BitVec 32) (s : State) : Host.Outcome State Fault Refusal :=
  run (cmd req .ENG_TRACE_CTRL c.val 0 (force w [(31, 31, 1)])) s
/-- ENG_SCRUB (R208). -/
def execEngScrub (c : Fin 64) (scratch : Bool) (half : Fin 2) (word : BitVec 15) (seen : EccSeen) (s : State) : Host.Outcome State Fault Refusal :=
  run (act (33 + c.val) (engScrub c.val scratch half.val word.toNat seen)) s
/-- EGRESS_DISPATCH (R214). -/
def execEgressDispatch (s : State) : Host.Outcome State Fault Refusal := run (act 97 egressDispatch) s

end Sys2Proof.Machine
end

