-- ==== Sys2Proof/Machine/CmdEpochs.lean ====
section
/-! DEFINITION. Rule-set epochs, firmware switch-over and the Mandrel (08_epochs_mandrel.md). -/

namespace Sys2Proof.Machine

/-- SWITCH_NOW (R220). -/
def execSwitchNow (req : Requester) (w : BitVec 32) (s : State) : Host.Outcome State Fault Refusal :=
  run (cmd req .EPC_SWITCH 0 0 (go w 30 28 0)) s
/-- SWITCH_AT (R223). -/
def execSwitchAt (req : Requester) (w : BitVec 32) (s : State) : Host.Outcome State Fault Refusal :=
  run (cmd req .EPC_SWITCH 0 0 (go w 30 28 1)) s
/-- EPOCH_CANCEL (R224). -/
def execEpochCancel (req : Requester) (w : BitVec 32) (s : State) : Host.Outcome State Fault Refusal :=
  run (cmd req .EPC_SWITCH 0 0 (go w 30 28 2)) s
/-- CHASSIS_SWITCH (R228). -/
def execChassisSwitch (req : Requester) (w : BitVec 32) (s : State) : Host.Outcome State Fault Refusal :=
  run (cmd req .EPC_SWITCH 0 0 (go w 30 28 3)) s
/-- EPOCH_SWITCH (R221). -/
def execEpochSwitch (s : State) : Host.Outcome State Fault Refusal := run (act 99 epochSwitch) s
/-- DRAIN_COMPLETE (R225). -/
def execDrainComplete (s : State) : Host.Outcome State Fault Refusal := run (act 99 drainComplete) s
/-- DRAIN_FORCE (R227). -/
def execDrainForce (s : State) : Host.Outcome State Fault Refusal := run (act 99 drainForce) s
/-- PREPARE_TIMEOUT (R220). -/
def execPrepareTimeout (s : State) : Host.Outcome State Fault Refusal := run (act 99 prepareTimeout) s
/-- READY_TIMEOUT (R228). -/
def execReadyTimeout (s : State) : Host.Outcome State Fault Refusal := run (act 99 readyTimeout) s
/-- FW_TAKEOVER (R230). -/
def execFwTakeover (s : State) : Host.Outcome State Fault Refusal := run (act 98 fwTakeover) s
/-- FW_SWITCH_TIMEOUT (R230). -/
def execFwSwitchTimeout (s : State) : Host.Outcome State Fault Refusal := run (act 98 fwTimeout) s
/-- FW_READY (R230). -/
def execFwReady (s : State) : Host.Outcome State Fault Refusal := run (act 98 fwReady) s
/-- MANDREL_REENTER (R231). -/
def execMandrelReenter (borrowed : Bool) (s : State) : Host.Outcome State Fault Refusal :=
  run (act 32 (mandrelReenter borrowed)) s

end Sys2Proof.Machine
end

