-- ==== Sys2Proof/Machine/CmdFabric.lean ====
section
/-! DEFINITION. The fabric and the chassis (13_fabric_chassis.md). -/

namespace Sys2Proof.Machine

/-- FAB_LINK_ENABLE (R371). -/
def execFabLinkEnable (req : Requester) (l : Fin 168) (w : BitVec 32) (s : State) : Host.Outcome State Fault Refusal :=
  run (cmd req .FAB_LANE_EN (l.val / 8) 0 (force w [(l.val % 8, l.val % 8, 1)])) s
/-- FAB_LINK_DISABLE (R371). -/
def execFabLinkDisable (req : Requester) (l : Fin 168) (w : BitVec 32) (s : State) : Host.Outcome State Fault Refusal :=
  run (cmd req .FAB_LANE_EN (l.val / 8) 0 (force w [(l.val % 8, l.val % 8, 0)])) s
/-- CELL_LOCK (R363). -/
def execCellLock (l : Fin 168) (s : State) : Host.Outcome State Fault Refusal := run (fabEvt l.val (cellLock l.val)) s
/-- CELL_LOCK_LOSS (R371). -/
def execCellLockLoss (l : Fin 168) (s : State) : Host.Outcome State Fault Refusal :=
  run (act (107 + l.val / 8) (cellLockLoss l.val)) s
/-- FAB_TRAIN_TIMEOUT (R371). -/
def execFabTrainTimeout (l : Fin 168) (s : State) : Host.Outcome State Fault Refusal :=
  run (act (107 + l.val / 8) (fabTrainTimeout l.val)) s
/-- HELLO_SEND (R369). -/
def execHelloSend (l : Fin 168) (s : State) : Host.Outcome State Fault Refusal :=
  run (act (107 + l.val / 8) (helloTick l.val)) s
/-- HELLO_RECEIVE (R370). -/
def execHelloReceive (l : Fin 168) (h : Hello) (s : State) : Host.Outcome State Fault Refusal :=
  run (fabEvt l.val (helloReceive l.val h)) s
/-- HELLO_TIMEOUT (R371). -/
def execHelloTimeout (l : Fin 168) (s : State) : Host.Outcome State Fault Refusal :=
  run (act (107 + l.val / 8) (helloTimeout l.val)) s
/-- FAILED_RETRY (R371). -/
def execFailedRetry (l : Fin 168) (s : State) : Host.Outcome State Fault Refusal :=
  run (act (107 + l.val / 8) (failedRetry l.val)) s
/-- SPARE_RELEASE (R371). -/
def execSpareRelease (l : Fin 168) (s : State) : Host.Outcome State Fault Refusal :=
  run (act (107 + l.val / 8) (spareRelease l.val)) s
/-- CELL_RECEIVE (R368). -/
def execCellReceive (l : Fin 168) (bytes : List (BitVec 8)) (corrected : Nat) (uncorrectable : Nat) (s : State) : Host.Outcome State Fault Refusal :=
  run (fabEvt l.val (cellReceive l.val bytes corrected uncorrectable)) s
/-- CELL_REPLAY_TIMEOUT (R369). -/
def execCellReplayTimeout (l : Fin 168) (lseq : BitVec 12) (s : State) : Host.Outcome State Fault Refusal :=
  run (act (107 + l.val / 8) (cellTimeout l.val lseq.toNat)) s
/-- LINK_REPLAY_FAIL (R369). -/
def execLinkReplayFail (l : Fin 168) (s : State) : Host.Outcome State Fault Refusal :=
  run (act (107 + l.val / 8) (replayFail l.val)) s
/-- REACH_RECEIVE (R369). -/
def execReachReceive (l : Fin 168) (mask : BitVec 64) (s : State) : Host.Outcome State Fault Refusal :=
  run (fabEvt l.val (reachReceive l.val mask.toNat)) s
/-- CELL_SPRAY (R372). -/
def execCellSpray (s : State) : Host.Outcome State Fault Refusal := run (act 102 cellSpray) s
/-- UNREACHABLE_TIMEOUT (R372). -/
def execUnreachableTimeout (dev : Fin 64) (s : State) : Host.Outcome State Fault Refusal :=
  run (act 102 (unreachable dev.val)) s
/-- LAG_CHECK (R373). -/
def execLagCheck (s : State) : Host.Outcome State Fault Refusal := run (act 102 lagCheck) s
/-- DATA_CELL_RECEIVE (R377). -/
def execDataCellReceive (c : Cell) (s : State) : Host.Outcome State Fault Refusal :=
  run (fun d => act 102 (dataReceive c) d) s
/-- HOLE_TIMEOUT (R378). -/
def execHoleTimeout (dev : Fin 64) (s : State) : Host.Outcome State Fault Refusal := run (act 102 (holeTimeout dev.val)) s
/-- CREDIT_REQ_ON (R382). -/
def execCreditReqOn (port : BitVec 7) (cls : Fin 16) (dev : Fin 64) (seq : BitVec 16) (s : State) : Host.Outcome State Fault Refusal :=
  run (act 102 (creditReq port.toNat cls.val dev.val true seq.toNat)) s
/-- CREDIT_REQ_OFF (R382). -/
def execCreditReqOff (port : BitVec 7) (cls : Fin 16) (dev : Fin 64) (seq : BitVec 16) (s : State) : Host.Outcome State Fault Refusal :=
  run (act 102 (creditReq port.toNat cls.val dev.val false seq.toNat)) s
/-- CREDIT_GRANT (R381). -/
def execCreditGrant (q : BitVec 17) (n : BitVec 4) (s : State) : Host.Outcome State Fault Refusal :=
  run (act 102 (creditGrant q.toNat n.toNat)) s
/-- LEARN_MSG (R384). -/
def execLearnMsg (src : Fin 64) (r : LearnRec) (s : State) : Host.Outcome State Fault Refusal :=
  run (act 102 (learnMsg src.val (learnNum 0 r))) s
/-- DECIDE_MSG (R384). -/
def execDecideMsg (src : Fin 64) (r : LearnRec) (s : State) : Host.Outcome State Fault Refusal :=
  run (act 102 (learnMsg src.val (learnNum 1 r))) s
/-- AGE_MSG (R384). -/
def execAgeMsg (src : Fin 64) (r : LearnRec) (s : State) : Host.Outcome State Fault Refusal :=
  run (act 102 (learnMsg src.val (learnNum 2 r))) s
/-- REMOVE_MSG (R384). -/
def execRemoveMsg (src : Fin 64) (r : LearnRec) (s : State) : Host.Outcome State Fault Refusal :=
  run (act 102 (learnMsg src.val (learnNum 3 r))) s
/-- EPOCH_PREPARE (R228). -/
def execEpochPrepare (src : Fin 64) (seq : BitVec 16) (s : State) : Host.Outcome State Fault Refusal :=
  run (act 102 (epochRecord src.val (epochRec 0 seq.toNat 0 0))) s
/-- EPOCH_READY (R228). -/
def execEpochReady (src : Fin 64) (seq : BitVec 16) (s : State) : Host.Outcome State Fault Refusal :=
  run (act 102 (epochRecord src.val (epochRec 1 seq.toNat 0 0))) s
/-- EPOCH_NOT_READY (R228). -/
def execEpochNotReady (src : Fin 64) (seq : BitVec 16) (cause : BitVec 2) (s : State) : Host.Outcome State Fault Refusal :=
  run (act 102 (epochRecord src.val (epochRec 2 seq.toNat cause.toNat 0))) s
/-- EPOCH_COMMIT (R223). -/
def execEpochCommit (src : Fin 64) (seq : BitVec 16) (sec : BitVec 48) (ns : BitVec 30) (s : State) : Host.Outcome State Fault Refusal :=
  run (act 102 (epochRecord src.val (epochRec 3 seq.toNat 0 (sec.toNat * 1000000000 + ns.toNat)))) s
/-- EPOCH_ABORT (R220). -/
def execEpochAbort (src : Fin 64) (seq : BitVec 16) (s : State) : Host.Outcome State Fault Refusal :=
  run (act 102 (epochRecord src.val (epochRec 4 seq.toNat 0 0))) s
/-- STATUS_BEACON (R388). -/
def execStatusBeacon (s : State) : Host.Outcome State Fault Refusal := run (act 102 statusBeacon) s
/-- STATUS_RECEIVE (R389). -/
def execStatusReceive (r : StatusRec) (s : State) : Host.Outcome State Fault Refusal := run (act 102 (statusReceive r)) s
/-- MEMBER_TIMEOUT (R388). -/
def execMemberTimeout (dev : Fin 64) (s : State) : Host.Outcome State Fault Refusal := run (act 102 (memberTimeout dev.val)) s
/-- MGR_TIMEOUT (R390). -/
def execMgrTimeout (s : State) : Host.Outcome State Fault Refusal := run (act 102 mgrTimeout) s
/-- MANAGER_ELECTION (R389). -/
def execManagerElection (s : State) : Host.Outcome State Fault Refusal := run (act 102 election) s
/-- LEARN_HOLD_EXPIRE (R385). -/
def execLearnHoldExpire (s : State) : Host.Outcome State Fault Refusal := run (act 102 holdExpire) s
/-- HANDOVER (R391). -/
def execHandover (req : Requester) (w : BitVec 32) (s : State) : Host.Outcome State Fault Refusal :=
  run (cmd req .FCT_MGR_CMD 0 0 (force w [(31, 31, 1)])) s

end Sys2Proof.Machine
end

