-- ==== Sys2Proof/Machine/CmdHost.lean ====
section
/-! DEFINITION. The host interface (15_host_interface.md, R415 to R435). -/

namespace Sys2Proof.Machine

/-- RING_ENABLE (R421). -/
def execRingEnable (req : Requester) (n : Fin 144) (w : BitVec 32) (s : State) : Host.Outcome State Fault Refusal :=
  run (cmd req .HIF_RINGn_CFG 0 n.val (force w [(31, 31, 1)])) s
/-- RING_DISABLE (R421). -/
def execRingDisable (req : Requester) (n : Fin 144) (w : BitVec 32) (s : State) : Host.Outcome State Fault Refusal :=
  run (cmd req .HIF_RINGn_CFG 0 n.val (force w [(31, 31, 0)])) s
/-- RING_DOORBELL (R421). -/
def execRingDoorbell (req : Requester) (n : Fin 144) (w : BitVec 32) (s : State) : Host.Outcome State Fault Refusal :=
  run (cmd req .HIF_RINGn_TAIL 0 n.val w.toNat) s
/-- CQ_ENABLE (R421). -/
def execCqEnable (req : Requester) (n : Fin 144) (w : BitVec 32) (s : State) : Host.Outcome State Fault Refusal :=
  run (cmd req .HIF_CQn_CFG 0 n.val (force w [(31, 31, 1)])) s
/-- CQ_DISABLE (R421). -/
def execCqDisable (req : Requester) (n : Fin 144) (w : BitVec 32) (s : State) : Host.Outcome State Fault Refusal :=
  run (cmd req .HIF_CQn_CFG 0 n.val (force w [(31, 31, 0)])) s
/-- CQ_HEAD_WRITE (R428). -/
def execCqHeadWrite (req : Requester) (n : Fin 144) (w : BitVec 32) (s : State) : Host.Outcome State Fault Refusal :=
  run (cmd req .HIF_CQn_HEAD 0 n.val w.toNat) s
/-- CQ_NOTIFY (R427). -/
def execCqNotify (n : Fin 144) (s : State) : Host.Outcome State Fault Refusal := run (act 99 (cqCycle n.val)) s
/-- PUNT_DMA (R423). -/
def execPuntDma (q : Fin 64) (bufs : List (BitVec 64)) (s : State) : Host.Outcome State Fault Refusal :=
  run (act 99 (puntDma q.val (bufs.map (·.toNat)))) s
/-- INJECT_FETCH (R426). -/
def execInjectFetch (ring : Fin 64) (descs : List (BitVec 256)) (bytes : Bytes) (s : State) : Host.Outcome State Fault Refusal :=
  run (fun d => act 99 (injectFetch ring.val (descs.map (·.toNat)) bytes) d) s
/-- DMA_REC (R430). -/
def execDmaRec (k : Fin 16) (desc : BitVec 256) (data : List (BitVec 32)) (s : State) : Host.Outcome State Fault Refusal :=
  run (fun d => act 99 (dmaDesc 0 k desc.toNat (data.map (·.toNat))) d) s
/-- DMA_REG_RD (R430). -/
def execDmaRegRd (k : Fin 16) (desc : BitVec 256) (s : State) : Host.Outcome State Fault Refusal :=
  run (fun d => act 99 (dmaDesc 1 k desc.toNat []) d) s
/-- DMA_REG_WR (R430). -/
def execDmaRegWr (k : Fin 16) (desc : BitVec 256) (data : List (BitVec 32)) (s : State) : Host.Outcome State Fault Refusal :=
  run (fun d => act 99 (dmaDesc 2 k desc.toNat (data.map (·.toNat))) d) s
/-- DMA_MEM_WR (R430). -/
def execDmaMemWr (k : Fin 16) (desc : BitVec 256) (data : List (BitVec 32)) (s : State) : Host.Outcome State Fault Refusal :=
  run (fun d => act 99 (dmaDesc 3 k desc.toNat (data.map (·.toNat))) d) s
/-- DMA_MEM_RD (R430). -/
def execDmaMemRd (k : Fin 16) (desc : BitVec 256) (s : State) : Host.Outcome State Fault Refusal :=
  run (fun d => act 99 (dmaDesc 4 k desc.toNat []) d) s
/-- DMA_WATCHDOG (R433). -/
def execDmaWatchdog (k : Fin 16) (desc : BitVec 256) (done : BitVec 32) (data : List (BitVec 32)) (s : State) : Host.Outcome State Fault Refusal :=
  run (fun d => act 99 (dmaWatchdog k desc.toNat done.toNat (data.map (·.toNat))) d) s
/-- HOST_ERROR (R435). -/
def execHostError (ring : Fin 144) (descs : List (BitVec 256)) (done : BitVec 32) (data : List (BitVec 32)) (s : State) (cause : ReadEnd := .unsupported) : Host.Outcome State Fault Refusal :=
  run (fun d => act 99 (ringError ring.val cause (descs.map (·.toNat)) done.toNat (data.map (·.toNat))) d) s
/-- PCIE_FLR (R417). -/
def execPcieFlr (s : State) : Host.Outcome State Fault Refusal := run (fun d => if alive d then pcieReset d else d) s
/-- PCIE_HOT_RESET (R417). -/
def execPcieHotReset (s : State) : Host.Outcome State Fault Refusal := run (fun d => if alive d then pcieReset d else d) s
/-- PCIE_LINK_DOWN (R417). -/
def execPcieLinkDown (s : State) : Host.Outcome State Fault Refusal := run (fun d => if alive d then pcieDown d else d) s
/-- PCIE_LINK_UP (R415). -/
def execPcieLinkUp (speed : Fin 4) (width : Fin 9) (s : State) : Host.Outcome State Fault Refusal :=
  run (act 99 (pcieUp speed.val width.val)) s
/-- DSTATE_CHANGE (R419). -/
def execDstateChange (d3 : Bool) (pmeEn : Bool) (s : State) : Host.Outcome State Fault Refusal :=
  run (fun d => act 99 (dstateChange d3 pmeEn) d) s
/-- BME_CHANGE (R419). -/
def execBmeChange (on : Bool) (s : State) (cto : Option (Fin 32) := none) : Host.Outcome State Fault Refusal := run (act 99 (bmeChange on (cto.map (·.val)))) s
/-- MSIX_MASK_WRITE (R454). A vector's mask is a word of BAR0, so its write is a register write of PCIe. -/
def execMsixMaskWrite (what : MaskBit) (on : Bool) (s : State) : Host.Outcome State Fault Refusal :=
  run (match what with
    | .vector v => regWrite .pcie (maskAddr v.val) (b2n on)
    | w => act 99 (maskWrite w on)) s

end Sys2Proof.Machine
end

