-- ==== Sys2Proof/Machine/CmdInterrupts.lean ====
section
/-! DEFINITION. Events, interrupts and the always-on watcher (16_events.md). -/

namespace Sys2Proof.Machine

/-- MSIX_DELIVER (R453). -/
def execMsixDeliver (s : State) : Host.Outcome State Fault Refusal := run (act 99 msixDeliver) s
/-- GAP_EXPIRE (R449). -/
def execGapExpire (g : Fin 64) (s : State) : Host.Outcome State Fault Refusal := run (act 99 (gapExpire g.val)) s
/-- EOI (R449). -/
def execEoi (req : Requester) (w : BitVec 32) (s : State) : Host.Outcome State Fault Refusal :=
  run (cmd req .EVT_EOI 0 0 w.toNat) s
/-- QUERY_WRITE (R450). -/
def execQueryWrite (req : Requester) (w : BitVec 32) (s : State) : Host.Outcome State Fault Refusal :=
  run (cmd req .EVT_QUERY 0 0 w.toNat) s
/-- QUERY_READ (R450). -/
def execQueryRead (req : Requester) (s : State) : Host.Outcome State Fault Refusal := run (readLow req .EVT_QUERY 0 0) s
/-- I3C_GROUP_REPEAT (R456). -/
def execI3cGroupRepeat (g : Fin 64) (s : State) : Host.Outcome State Fault Refusal := run (act 99 (groupRepeat g.val)) s
/-- AON_DEADLINE (R459). -/
def execAonDeadline (k : Fin 64) (s : State) : Host.Outcome State Fault Refusal := run (act 100 (aonDeadline k.val)) s
/-- PME_STATUS_CLEAR (R459). -/
def execPmeStatusClear (s : State) : Host.Outcome State Fault Refusal := run (act 100 pmeClear) s

end Sys2Proof.Machine
end

