-- ==== Sys2Proof/Machine/CmdLedger.lean ====
section
/-! DEFINITION. Counters, performance counters and the Heartwood ledger (17_counters_heartwood.md). -/

namespace Sys2Proof.Machine

/-- CNT_READ (R468). -/
def execCntRead (req : Requester) (w : BitVec 32) (pkts : EccSeen) (bytes : EccSeen) (s : State) : Host.Outcome State Fault Refusal :=
  run (cntCmd req (go w 30 29 0) pkts bytes) s
/-- CNT_WRITE (R468). -/
def execCntWrite (req : Requester) (w : BitVec 32) (pkts : EccSeen) (bytes : EccSeen) (s : State) : Host.Outcome State Fault Refusal :=
  run (cntCmd req (go w 30 29 1) pkts bytes) s
/-- CNT_READ_CLEAR (R468). -/
def execCntReadClear (req : Requester) (w : BitVec 32) (pkts : EccSeen) (bytes : EccSeen) (s : State) : Host.Outcome State Fault Refusal :=
  run (cntCmd req (go w 30 29 2) pkts bytes) s
/-- SNAP_CMD (R471). -/
def execSnapCmd (req : Requester) (w : BitVec 32) (s : State) : Host.Outcome State Fault Refusal :=
  run (cmd req .CNT_SNAP_CMD 0 0 (force w [(31, 31, 1)])) s
/-- SNAP_CAPTURE_DONE (R471). -/
def execSnapCaptureDone (s : State) : Host.Outcome State Fault Refusal := run (act 102 snapDone) s
/-- PC_CLEAR (R475). -/
def execPcClear (req : Requester) (page : Page) (w : BitVec 32) (s : State) : Host.Outcome State Fault Refusal :=
  run (faceCmd req page 0x40 (force w [(1, 1, 1)])) s
/-- PC_CAPTURE (R475). -/
def execPcCapture (req : Requester) (page : Page) (w : BitVec 32) (s : State) : Host.Outcome State Fault Refusal :=
  run (faceCmd req page 0x40 (force w [(2, 2, 1)])) s
/-- PC_VAL_WRITE (R475). -/
def execPcValWrite (req : Requester) (page : Page) (ix : Fin 8) (w : BitVec 32) (s : State) : Host.Outcome State Fault Refusal :=
  run (faceCmd req page (0x84 + 8 * ix.val) w.toNat) s
/-- TOTALS_FLUSH (R479). -/
def execTotalsFlush (s : State) : Host.Outcome State Fault Refusal := run (act 100 totalsSecond) s
/-- HWD_FLUSH (R479). -/
def execHwdFlush (req : Requester) (w : BitVec 32) (s : State) : Host.Outcome State Fault Refusal :=
  run (cmd req .HWD_FLUSH 0 0 (force w [(31, 31, 1)])) s
/-- LEDGER_TEMP_SAMPLE (R481). -/
def execLedgerTempSample (fe : BitVec 8) (tm : BitVec 8) (hbm : BitVec 8) (s : State) : Host.Outcome State Fault Refusal :=
  run (act 100 (tempSample [fe.toInt, tm.toInt, hbm.toInt])) s
/-- HOURLY_CLOSE (R481). -/
def execHourlyClose (s : State) : Host.Outcome State Fault Refusal := run (act 100 hourlyClose) s
/-- DAILY_CLOSE (R481). -/
def execDailyClose (s : State) : Host.Outcome State Fault Refusal := run (act 100 dailyClose) s
/-- UTC_SET (R483). -/
def execUtcSet (req : Requester) (w : BitVec 32) (s : State) : Host.Outcome State Fault Refusal :=
  run (cmd req .HWD_UTC 0 0 w.toNat) s
/-- AGE_MEASURE (R484). -/
def execAgeMeasure (isl : Fin 128) (delay : BitVec 32) (s : State) : Host.Outcome State Fault Refusal :=
  run (act 98 (ageMeasure isl.val delay.toNat)) s
/-- MRAM_SCAN (R486). -/
def execMramScan (block : Fin 1024) (corrected : BitVec 16) (bad : Option (Fin 512)) (s : State) : Host.Outcome State Fault Refusal :=
  run (act 98 (mramScan block.val corrected.toNat (bad.map (·.val)))) s
/-- HWD_WIN_READ (R487). -/
def execHwdWinRead (req : Requester) (s : State) : Host.Outcome State Fault Refusal := run (readLow req .HWD_WIN_DATA 0 0) s
/-- HWD_WIN_WRITE (R487). -/
def execHwdWinWrite (req : Requester) (w : BitVec 32) (s : State) : Host.Outcome State Fault Refusal :=
  run (cmd req .HWD_WIN_DATA 0 0 w.toNat) s

end Sys2Proof.Machine
end

