-- ==== Sys2Proof/Machine/CmdLink.lean ====
section
/-! DEFINITION. The D2D link (09_chuck_buffers.md, R260 to R270). -/

namespace Sys2Proof.Machine

/-- FLIT_RECEIVE (R264). -/
def execFlitReceive (toTm : Bool) (sent : Bytes) (s : State) (flips : List (Fin 3072) := []) : Host.Outcome State Fault Refusal :=
  run (act 101 (flitReceive toTm sent flips)) s
/-- REPLAY_TIMEOUT (R264). -/
def execReplayTimeout (toTm : Bool) (s : State) : Host.Outcome State Fault Refusal := run (act 101 (replayTimeout toTm)) s
/-- FLIT_LOST (R264). -/
def execFlitLost (toTm : Bool) (s : State) : Host.Outcome State Fault Refusal := run (act 101 (flitLost toTm)) s
/-- WIRE_CAL (R265). -/
def execWireCal (toTm : Bool) (pass : Bool) (s : State) : Host.Outcome State Fault Refusal :=
  run (act 101 (wireCal toTm pass)) s
/-- D2D_REG_WR (R263). -/
def execD2dRegWr (req : Requester) (addr : BitVec 28) (v : BitVec 32) (s : State) : Host.Outcome State Fault Refusal :=
  run (act 101 (regWr req addr.toNat v.toNat)) s
/-- D2D_REG_RD (R263). -/
def execD2dRegRd (req : Requester) (tag : BitVec 8) (addr : BitVec 28) (s : State) : Host.Outcome State Fault Refusal :=
  run (act 101 (regRd req tag.toNat addr.toNat)) s
/-- D2D_REG_RSP (R263). -/
def execD2dRegRsp (s : State) : Host.Outcome State Fault Refusal := run (act 101 regRsp) s
/-- EVENT_RECORD (R446). -/
def execEventRecord (page : Page) (s : State) : Host.Outcome State Fault Refusal :=
  run (act 101 (eventRecord (pageNum page))) s
/-- DONE_RECORD (R254). -/
def execDoneRecord (s : State) : Host.Outcome State Fault Refusal := run (act 101 doneRecord) s
/-- TIME_RECORD (R332). -/
def execTimeRecord (s : State) : Host.Outcome State Fault Refusal := run (act 101 timeRecord) s
/-- EPOCH_RECORD (R263). -/
def execEpochRecord (s : State) : Host.Outcome State Fault Refusal := run (act 101 epochToTm) s
/-- RESET_RECORD (R519). -/
def execResetRecord (s : State) : Host.Outcome State Fault Refusal := run resetRecord s
/-- ABORT_RECORD (R264). -/
def execAbortRecord (toTm : Bool) (stream : BitVec 8) (s : State) : Host.Outcome State Fault Refusal :=
  run (act 101 (abortRecord toTm stream.toNat)) s
/-- EGRESS_RECORD (R262). -/
def execEgressRecord (s : State) : Host.Outcome State Fault Refusal := run (act 101 egressRecord) s

end Sys2Proof.Machine
end

