-- ==== Sys2Proof/Machine/CmdLookups.lean ====
section
/-! DEFINITION. The Headstock, its lookups and the forwarding tables (04_headstock_parse.md, 05_lookup_tables.md). -/

namespace Sys2Proof.Machine

/-- PARSE_START (R83). -/
def execParseStart (fifo : Fin 34) (s : State) : Host.Outcome State Fault Refusal := run (act 32 (parseStart fifo.val)) s
/-- LOOKUP_ISSUE (R150). -/
def execLookupIssue (pass : Nat) (tcamWait : Bool) (burlWait : Bool) (s : State) (corr : Fin 17 := 0) : Host.Outcome State Fault Refusal :=
  run (act 32 (lookupIssue pass tcamWait burlWait corr.val)) s
/-- BURL_REREAD (R168). -/
def execBurlReread (replica : Fin 24) (word : BitVec 16) (s : State) : Host.Outcome State Fault Refusal :=
  run (act 32 (burlFault replica.val word.toNat)) s
/-- NHT_LOOKUP (R129). -/
def execNhtLookup (pass : Nat) (s : State) : Host.Outcome State Fault Refusal := run (act 32 (nhtLookup pass)) s
/-- ENGINE_DISPATCH (R177). -/
def execEngineDispatch (pass : Nat) (s : State) : Host.Outcome State Fault Refusal :=
  run (fun d => act (passIsland pass d) (engineDispatch pass) d) s
/-- PROFILE_COMMIT (R95). -/
def execProfileCommit (req : Requester) (bank : Fin 2) (ix : Fin 64) (w : BitVec 32) (s : State) : Host.Outcome State Fault Refusal :=
  run (cmd req (if bank.val = 0 then .HDS_PROFA else .HDS_PROFB) 0 ix.val w.toNat) s
/-- TEMPLATE_COMMIT (R109). -/
def execTemplateCommit (req : Requester) (bank : Fin 2) (ix : Fin 64) (w : BitVec 32) (s : State) : Host.Outcome State Fault Refusal :=
  run (cmd req (if bank.val = 0 then .HDS_TMPLA else .HDS_TMPLB) 0 ix.val w.toNat) s
/-- DEEP_PARSE_WRITE (R106). -/
def execDeepParseWrite (req : Requester) (k : Fin 16) (w : BitVec 32) (s : State) : Host.Outcome State Fault Refusal :=
  run (cmd req .HDS_DPk_CFG 0 k.val w.toNat) s
/-- HDS_TRACE_ARM (R111). -/
def execHdsTraceArm (req : Requester) (w : BitVec 32) (s : State) : Host.Outcome State Fault Refusal :=
  run (cmd req .HDS_TRACE_CTRL 0 0 (force w [(31, 31, 1)])) s
/-- LPM_INSERT (R121). -/
def execLpmInsert (req : Requester) (w : BitVec 32) (s : State) : Host.Outcome State Fault Refusal :=
  run (cmd req .LPM_CMD 0 0 (go w 30 28 0)) s
/-- LPM_UPDATE (R121). -/
def execLpmUpdate (req : Requester) (w : BitVec 32) (s : State) : Host.Outcome State Fault Refusal :=
  run (cmd req .LPM_CMD 0 0 (go w 30 28 1)) s
/-- LPM_DELETE (R121). -/
def execLpmDelete (req : Requester) (w : BitVec 32) (s : State) : Host.Outcome State Fault Refusal :=
  run (cmd req .LPM_CMD 0 0 (go w 30 28 2)) s
/-- LPM_FIND (R121). -/
def execLpmFind (req : Requester) (w : BitVec 32) (s : State) : Host.Outcome State Fault Refusal :=
  run (cmd req .LPM_CMD 0 0 (go w 30 28 3)) s
/-- LPM_LOOKUP (R121). -/
def execLpmLookup (req : Requester) (w : BitVec 32) (s : State) : Host.Outcome State Fault Refusal :=
  run (cmd req .LPM_CMD 0 0 (go w 30 28 4)) s
/-- LPM_REPAIR (R133). -/
def execLpmRepair (req : Requester) (w : BitVec 32) (s : State) : Host.Outcome State Fault Refusal :=
  run (cmd req .LPM_CMD 0 0 (go w 30 28 5)) s
/-- LPM_WORD_FREE (R120). -/
def execLpmWordFree (s : State) : Host.Outcome State Fault Refusal := run (act 32 lpmWordFree) s
/-- XM_INSERT (R126). -/
def execXmInsert (req : Requester) (w : BitVec 32) (s : State) : Host.Outcome State Fault Refusal :=
  run (cmd req .XM_CMD 0 0 (go w 30 28 0)) s
/-- XM_UPDATE (R127). -/
def execXmUpdate (req : Requester) (w : BitVec 32) (s : State) : Host.Outcome State Fault Refusal :=
  run (cmd req .XM_CMD 0 0 (go w 30 28 1)) s
/-- XM_DELETE (R144). -/
def execXmDelete (req : Requester) (w : BitVec 32) (s : State) : Host.Outcome State Fault Refusal :=
  run (cmd req .XM_CMD 0 0 (go w 30 28 2)) s
/-- XM_FIND (R144). -/
def execXmFind (req : Requester) (w : BitVec 32) (s : State) : Host.Outcome State Fault Refusal :=
  run (cmd req .XM_CMD 0 0 (go w 30 28 3)) s
/-- XM_INVALIDATE (R133). -/
def execXmInvalidate (req : Requester) (w : BitVec 32) (s : State) : Host.Outcome State Fault Refusal :=
  run (cmd req .XM_CMD 0 0 (go w 30 28 4)) s
/-- STASH_REINSERT (R126). -/
def execStashReinsert (s : State) : Host.Outcome State Fault Refusal := run (act 32 stashReinsert) s
/-- NHT_WRITE (R128). -/
def execNhtWrite (req : Requester) (w : BitVec 32) (s : State) : Host.Outcome State Fault Refusal :=
  run (cmd req .NHT_ACC 0 0 (go w 30 30 0)) s
/-- NHT_READ (R128). -/
def execNhtRead (req : Requester) (w : BitVec 32) (s : State) : Host.Outcome State Fault Refusal :=
  run (cmd req .NHT_ACC 0 0 (go w 30 30 1)) s
/-- ECC_WRITEBACK (R131). -/
def execEccWriteback (word : TableWord) (s : State) : Host.Outcome State Fault Refusal := run (act 32 (tableCorrected word)) s
/-- TABLE_SCRUB (R132). -/
def execTableScrub (mem : TableMem) (unit : Fin 16) (word : Nat) (way : Fin 4) (seen : EccSeen) (s : State) : Host.Outcome State Fault Refusal :=
  run (act 32 (tableScrub (tableWordAt mem unit.val word way.val) seen)) s
/-- LOCK_CLAIM (R135). -/
def execLockClaim (req : Requester) (lock : LockReg) (id : BitVec 16) (s : State) : Host.Outcome State Fault Refusal :=
  run (busWrite req (lockAddr lock) (2 ^ 31 + id.toNat)) s
/-- LOCK_RELEASE (R135). -/
def execLockRelease (req : Requester) (lock : LockReg) (id : BitVec 16) (s : State) : Host.Outcome State Fault Refusal :=
  run (busWrite req (lockAddr lock) (2 ^ 31 + 2 ^ 30 + id.toNat)) s
/-- LOCK_TIMEOUT (R136). -/
def execLockTimeout (lock : LockReg) (s : State) : Host.Outcome State Fault Refusal := run (act 32 (lockTimeout lock)) s
/-- LOCK_TMO_WRITE (R136). -/
def execLockTmoWrite (req : Requester) (lock : LockReg) (w : BitVec 32) (s : State) : Host.Outcome State Fault Refusal :=
  run (cmd req (lockTmo lock) 0 0 w.toNat) s
/-- LEARN_ARBITRATE (R139). -/
def execLearnArbitrate (slow : Bool) (s : State) : Host.Outcome State Fault Refusal := run (act 32 (learnArbitrate slow)) s
/-- FLAP_HOLD_END (R140). -/
def execFlapHoldEnd (tbl : Fin 8) (key : BitVec 160) (s : State) : Host.Outcome State Fault Refusal :=
  run (act 32 (flapHoldEnd tbl.val key.toNat)) s
/-- AGE_SCAN_VISIT (R142). -/
def execAgeScanVisit (slot : BitVec 23) (s : State) : Host.Outcome State Fault Refusal := run (act 32 (ageVisit slot.toNat)) s
/-- LRN_LOG_POP (R55). -/
def execLrnLogPop (req : Requester) (s : State) : Host.Outcome State Fault Refusal := run (readLow req .LRN_LOG 0 0) s

end Sys2Proof.Machine
end

