-- ==== Sys2Proof/Machine/CmdManagement.lean ====
section
/-! DEFINITION. The I3C management target (15_host_interface.md, R436 to R441). -/

namespace Sys2Proof.Machine

/-- I3C_WRITE (R437). -/
def execI3cWrite (bytes : Bytes) (s : State) : Host.Outcome State Fault Refusal := run (act 99 (i3cWrite bytes)) s
/-- I3C_SET_ADDR (R437). -/
def execI3cSetAddr (addr : BitVec 32) (s : State) : Host.Outcome State Fault Refusal :=
  run (act 99 (i3cWrite (BitVec.ofNat 8 2 :: leBytes 4 addr.toNat))) s
/-- I3C_READ (R437). -/
def execI3cRead (n : BitVec 8) (s : State) : Host.Outcome State Fault Refusal := run (act 99 (i3cRead n.toNat)) s
/-- CCC_ENEC (R436). -/
def execCccEnec (ev : BitVec 8) (s : State) : Host.Outcome State Fault Refusal := run (act 99 (i3cEvents true ev.toNat)) s
/-- CCC_DISEC (R436). -/
def execCccDisec (ev : BitVec 8) (s : State) : Host.Outcome State Fault Refusal := run (act 99 (i3cEvents false ev.toNat)) s
/-- CCC_RSTDAA (R436). -/
def execCccRstdaa (s : State) : Host.Outcome State Fault Refusal := run (act 99 (setDa false 0)) s
/-- CCC_ENTDAA (R436). -/
def execCccEntdaa (da : BitVec 7) (s : State) : Host.Outcome State Fault Refusal := run (act 99 (i3cAssign da.toNat)) s
/-- CCC_SETDASA (R436). -/
def execCccSetdasa (da : BitVec 7) (s : State) : Host.Outcome State Fault Refusal := run (act 99 (i3cAssign da.toNat)) s
/-- CCC_SETNEWDA (R436). -/
def execCccSetnewda (da : BitVec 7) (s : State) : Host.Outcome State Fault Refusal := run (act 99 (i3cNewDa da.toNat)) s
/-- CCC_SETMWL (R436). -/
def execCccSetmwl (n : BitVec 16) (s : State) : Host.Outcome State Fault Refusal := run (act 99 (i3cSetMwl n.toNat)) s
/-- CCC_SETMRL (R436). -/
def execCccSetmrl (n : BitVec 16) (s : State) : Host.Outcome State Fault Refusal := run (act 99 (i3cSetMrl n.toNat)) s
/-- CCC_GETMWL (R436). -/
def execCccGetmwl (s : State) : Host.Outcome State Fault Refusal := run (act 99 i3cGetMwl) s
/-- CCC_GETMRL (R436). -/
def execCccGetmrl (s : State) : Host.Outcome State Fault Refusal := run (act 99 i3cGetMrl) s
/-- CCC_GETPID (R436). -/
def execCccGetpid (s : State) : Host.Outcome State Fault Refusal := run (act 99 i3cGetPid) s
/-- CCC_GETBCR (R436). -/
def execCccGetbcr (s : State) : Host.Outcome State Fault Refusal := run (act 99 (i3cSay [0x06])) s
/-- CCC_GETDCR (R436). -/
def execCccGetdcr (s : State) : Host.Outcome State Fault Refusal := run (act 99 (i3cSay [0x00])) s
/-- CCC_GETSTATUS (R436). -/
def execCccGetstatus (s : State) : Host.Outcome State Fault Refusal := run (act 99 i3cGetStatus) s
/-- CCC_RSTACT (R440). -/
def execCccRstact (db : BitVec 8) (s : State) : Host.Outcome State Fault Refusal := run (act 99 (i3cRstact db.toNat)) s
/-- CCC_GET_RSTACT (R440). -/
def execCccGetRstact (s : State) : Host.Outcome State Fault Refusal := run (act 99 i3cGetRstact) s
/-- RSTACT_PATTERN (R440). -/
def execRstactPattern (s : State) : Host.Outcome State Fault Refusal := run (act 99 i3cPattern) s
/-- IBI_RETRY (R439). -/
def execIbiRetry (s : State) : Host.Outcome State Fault Refusal := run (act 99 ibiRetry) s
/-- MGT_RST_REQ (R440). -/
def execMgtRstReq (req : Requester) (s : State) : Host.Outcome State Fault Refusal := run (cmd req .MGT_RST_REQ 0 0 0xC7) s

end Sys2Proof.Machine
end

