-- ==== Sys2Proof/Machine/CmdPorts.lean ====
section
/-! DEFINITION. Line ports (03_line_ports.md). -/

namespace Sys2Proof.Machine

/-- LPG_MODE_WRITE (R57). -/
def execLpgModeWrite (req : Requester) (g : Fin 32) (w : BitVec 32) (s : State) : Host.Outcome State Fault Refusal :=
  run (cmd req .LPG_MODE g.val 0 w.toNat) s
/-- PORT_ENABLE (R60). -/
def execPortEnable (req : Requester) (port : Fin 128) (w : BitVec 32) (s : State) : Host.Outcome State Fault Refusal :=
  run (cmd req .LPG_PORTn_CFG (port.val / 4) (port.val % 4) (force w [(0, 0, 1)])) s
/-- PORT_DISABLE (R60). -/
def execPortDisable (req : Requester) (port : Fin 128) (w : BitVec 32) (s : State) : Host.Outcome State Fault Refusal :=
  run (cmd req .LPG_PORTn_CFG (port.val / 4) (port.val % 4) (force w [(0, 0, 0)])) s
/-- AN_RESOLVED (R60). -/
def execAnResolved (port : Fin 128) (s : State) : Host.Outcome State Fault Refusal :=
  run (lineEvt port.val (linkAnResolved port.val)) s
/-- AN_TIMEOUT (R60). -/
def execAnTimeout (port : Fin 128) (s : State) : Host.Outcome State Fault Refusal :=
  run (act (port.val / 4) (linkAnTimeout port.val)) s
/-- AN_RESTART (R60). -/
def execAnRestart (port : Fin 128) (s : State) : Host.Outcome State Fault Refusal :=
  run (act (port.val / 4) (linkAnRestart port.val)) s
/-- LINK_TRAINED (R60). -/
def execLinkTrained (port : Fin 128) (s : State) : Host.Outcome State Fault Refusal :=
  run (lineEvt port.val (linkLtDone port.val)) s
/-- LINK_TRAIN_TIMEOUT (R60). -/
def execLinkTrainTimeout (port : Fin 128) (s : State) : Host.Outcome State Fault Refusal :=
  run (act (port.val / 4) (linkLtTimeout port.val)) s
/-- CLEAN_LOCK (R60). -/
def execCleanLock (port : Fin 128) (s : State) : Host.Outcome State Fault Refusal :=
  run (lineEvt port.val (linkClean port.val)) s
/-- ALIGN_TIMEOUT (R60). -/
def execAlignTimeout (port : Fin 128) (s : State) : Host.Outcome State Fault Refusal :=
  run (act (port.val / 4) (linkAlignTimeout port.val)) s
/-- LINK_FAULT (R60). -/
def execLinkFault (port : Fin 128) (loc : Bool) (rem : Bool) (ser : Bool) (s : State) : Host.Outcome State Fault Refusal :=
  run (act (port.val / 4) (linkFault port.val loc rem ser)) s
/-- FAULT_RECOVER (R60). -/
def execFaultRecover (port : Fin 128) (s : State) : Host.Outcome State Fault Refusal :=
  run (lineEvt port.val (linkRecover port.val)) s
/-- FAULT_TIMEOUT (R60). -/
def execFaultTimeout (port : Fin 128) (s : State) : Host.Outcome State Fault Refusal :=
  run (act (port.val / 4) (linkFaultTimeout port.val)) s
/-- FAULT_LOCK_BREAK (R60). -/
def execFaultLockBreak (port : Fin 128) (s : State) : Host.Outcome State Fault Refusal :=
  run (act (port.val / 4) (linkLockBreak port.val)) s
/-- FRAME_RECEIVE (R63). -/
def execFrameReceive (port : Fin 128) (bytes : Bytes) (fcsOk : Bool) (sec : Option SecTag) (ts : TimeVal) (frags : Nat) (corrected : Nat) (uncorrectable : Nat) (s : State) (smd : Nat := 0) : Host.Outcome State Fault Refusal :=
  run (lineEvt port.val (frameReceive port.val bytes fcsOk sec ts frags smd corrected uncorrectable)) s
/-- FRAME_TX_START (R62). -/
def execFrameTxStart (port : Fin 128) (ts : TimeVal) (pred : TimeVal) (s : State) : Host.Outcome State Fault Refusal :=
  run (lineEvt port.val (frameTxStart port.val ts pred)) s
/-- TS_FIFO_POP (R67). -/
def execTsFifoPop (req : Requester) (port : Fin 128) (s : State) : Host.Outcome State Fault Refusal :=
  run (readLow req .LPG_PORTn_TS_FIFO (port.val / 4) (port.val % 4)) s
/-- SA_INSTALL (R70). -/
def execSaInstall (req : Requester) (g : Fin 32) (w : BitVec 32) (s : State) : Host.Outcome State Fault Refusal :=
  run (cmd req .LPG_SA_CMD g.val 0 (force w [(31, 31, 1), (29, 28, 0)])) s
/-- SA_REMOVE (R70). -/
def execSaRemove (req : Requester) (g : Fin 32) (w : BitVec 32) (s : State) : Host.Outcome State Fault Refusal :=
  run (cmd req .LPG_SA_CMD g.val 0 (force w [(31, 31, 1), (29, 28, 1)])) s
/-- SA_READ (R70). -/
def execSaRead (req : Requester) (g : Fin 32) (w : BitVec 32) (s : State) : Host.Outcome State Fault Refusal :=
  run (cmd req .LPG_SA_CMD g.val 0 (force w [(31, 31, 1), (29, 28, 2)])) s
/-- SA_SET_CURRENT (R70). -/
def execSaSetCurrent (req : Requester) (g : Fin 32) (w : BitVec 32) (s : State) : Host.Outcome State Fault Refusal :=
  run (cmd req .LPG_SA_CMD g.val 0 (force w [(31, 31, 1), (29, 28, 3)])) s
/-- SA_SWITCH (R72). -/
def execSaSwitch (port : Fin 128) (sc : Fin 16) (s : State) : Host.Outcome State Fault Refusal :=
  run (act (port.val / 4) (saBoundary port.val sc.val)) s
/-- VERIFY_SEND (R75). -/
def execVerifySend (port : Fin 128) (s : State) : Host.Outcome State Fault Refusal :=
  run (act (port.val / 4) (verifySend port.val)) s
/-- VERIFY_RESPONSE (R75). -/
def execVerifyResponse (port : Fin 128) (s : State) : Host.Outcome State Fault Refusal :=
  run (lineEvt port.val (verifyResponse port.val)) s
/-- VERIFY_GIVE_UP (R75). -/
def execVerifyGiveUp (port : Fin 128) (s : State) : Host.Outcome State Fault Refusal :=
  run (act (port.val / 4) (verifyGiveUp port.val)) s

end Sys2Proof.Machine
end

