-- ==== Sys2Proof/Machine/CmdRegisters.lean ====
section
/-! DEFINITION. Shared register accesses, the Faceplate, clocks gates, retention and power (02_register_pages.md, 01_architecture.md). -/

namespace Sys2Proof.Machine

/-- REGISTER_WRITE (R4). -/
def execRegisterWrite (req : Requester) (addr : BitVec 28) (v : BitVec 32) (s : State) : Host.Outcome State Fault Refusal :=
  run (regWrite req addr.toNat v.toNat) s
/-- STAGED_WORD_WRITE (R54). -/
def execStagedWordWrite (req : Requester) (addr : BitVec 28) (v : BitVec 32) (s : State) : Host.Outcome State Fault Refusal :=
  run (regWrite req addr.toNat v.toNat) s
/-- LOWEST_WORD_READ (R55). -/
def execLowestWordRead (req : Requester) (addr : BitVec 28) (s : State) : Host.Outcome State Fault Refusal :=
  run (busRead req addr.toNat) s
/-- UNMAPPED_ACCESS (R30). -/
def execUnmappedAccess (req : Requester) (addr : BitVec 28) (v : Option (BitVec 32)) (s : State) : Host.Outcome State Fault Refusal :=
  run (fun d => match v with | some v => busWrite req addr.toNat v.toNat d | none => busRead req addr.toNat d) s
/-- PARTIAL_WRITE (R33). -/
def execPartialWrite (req : Requester) (addr : BitVec 28) (s : State) : Host.Outcome State Fault Refusal :=
  run (badRequest req addr.toNat 1) s
/-- OVERSIZE_REQUEST (R34). -/
def execOversizeRequest (addr : BitVec 28) (write : Bool) (words : BitVec 10) (s : State) : Host.Outcome State Fault Refusal :=
  run (oversize addr.toNat write words.toNat) s
/-- FP_CTRL_WRITE (R41). -/
def execFpCtrlWrite (req : Requester) (page : Page) (w : BitVec 32) (s : State) : Host.Outcome State Fault Refusal :=
  run (faceCmd req page 0x08 w.toNat) s
/-- BLK_RST (R38). -/
def execBlkRst (req : Requester) (page : Page) (w : BitVec 32) (s : State) : Host.Outcome State Fault Refusal :=
  run (faceCmd req page 0x08 (force w [(2, 2, 1)])) s
/-- BLK_RST_DONE (R38). -/
def execBlkRstDone (page : Page) (s : State) : Host.Outcome State Fault Refusal :=
  run (fun d => if (face (pageNum page) d).blkRst then act (islandOf (pageNum page)) (blockReset (pageNum page)) d else d) s
/-- FP_KEY_WRITE (R42). -/
def execFpKeyWrite (req : Requester) (page : Page) (w : BitVec 32) (s : State) : Host.Outcome State Fault Refusal :=
  run (faceCmd req page 0x0C w.toNat) s
/-- KEY_WINDOW_EXPIRE (R42). -/
def execKeyWindowExpire (req : Requester) (addr : BitVec 28) (v : BitVec 32) (s : State) : Host.Outcome State Fault Refusal :=
  run (busWrite req addr.toNat v.toNat) s
/-- EVT_MASK_SET (R45). -/
def execEvtMaskSet (req : Requester) (page : Page) (w : BitVec 32) (s : State) : Host.Outcome State Fault Refusal :=
  run (faceCmd req page 0x1C w.toNat) s
/-- EVT_MASK_CLR (R45). -/
def execEvtMaskClr (req : Requester) (page : Page) (w : BitVec 32) (s : State) : Host.Outcome State Fault Refusal :=
  run (faceCmd req page 0x20 w.toNat) s
/-- EVT_PEND_CLR (R5). -/
def execEvtPendClr (req : Requester) (page : Page) (w : BitVec 32) (s : State) : Host.Outcome State Fault Refusal :=
  run (faceCmd req page 0x24 w.toNat) s
/-- EVT_PEND_FORCE (R46). -/
def execEvtPendForce (req : Requester) (page : Page) (w : BitVec 32) (s : State) : Host.Outcome State Fault Refusal :=
  run (faceCmd req page 0x28 w.toNat) s
/-- ERR_CODE_CLEAR (R48). -/
def execErrCodeClear (req : Requester) (page : Page) (w : BitVec 32) (s : State) : Host.Outcome State Fault Refusal :=
  run (faceCmd req page 0x30 (force w [(7, 0, 0)])) s
/-- OWNER_CLAIM (R49). -/
def execOwnerClaim (req : Requester) (r : OwnerReg) (id : BitVec 16) (s : State) : Host.Outcome State Fault Refusal :=
  run (busWrite req (ownerAddr r) (2 ^ 31 + id.toNat)) s
/-- OWNER_RELEASE (R49). -/
def execOwnerRelease (req : Requester) (r : OwnerReg) (id : BitVec 16) (s : State) : Host.Outcome State Fault Refusal :=
  run (busWrite req (ownerAddr r) (2 ^ 31 + 2 ^ 30 + id.toNat)) s
/-- OVERRUN_CLEAR (R40). -/
def execOverrunClear (req : Requester) (page : Page) (w : BitVec 32) (s : State) : Host.Outcome State Fault Refusal :=
  run (faceCmd req page 0x3C (force w [(31, 16, 0)])) s
/-- CLOCK_GATE (R24). -/
def execClockGate (isl : Fin 128) (s : State) : Host.Outcome State Fault Refusal := run (clockGate isl.val) s
/-- CLOCK_UNGATE (R515). -/
def execClockUngate (isl : Fin 128) (s : State) : Host.Outcome State Fault Refusal := run (ungate isl.val) s
/-- BANK_RETAIN (R497). -/
def execBankRetain (place : BankPlace) (bank : Fin 16) (s : State) : Host.Outcome State Fault Refusal :=
  run (bankRetain (placeNum place) bank.val) s
/-- BANK_WAKE (R25). -/
def execBankWake (place : BankPlace) (bank : Fin 16) (cause : WakeBy) (s : State) : Host.Outcome State Fault Refusal :=
  run (bankWake (placeNum place) bank.val (cause != .processor)) s
/-- POWER_SAMPLE (R26). -/
def execPowerSample (total : BitVec 24) (rails : List (BitVec 24)) (s : State) : Host.Outcome State Fault Refusal :=
  run (act 99 (powerSample total.toNat (rails.map (·.toNat)))) s
/-- GLB_TEMP_SAMPLE (R578). -/
def execGlbTempSample (fe : BitVec 8) (tm : BitVec 8) (s : State) : Host.Outcome State Fault Refusal :=
  run (act 99 (glbTemp fe.toInt tm.toInt)) s
/-- PWR_PEAK_WRITE (R26). -/
def execPwrPeakWrite (req : Requester) (w : BitVec 32) (s : State) : Host.Outcome State Fault Refusal :=
  run (cmd req .GLB_PWR_PEAK 0 0 w.toNat) s

end Sys2Proof.Machine
end

