-- ==== Sys2Proof/Machine/CmdSearches.lean ====
section
/-! DEFINITION. The TCAM and the Burl (06_tcam_burl.md). -/

namespace Sys2Proof.Machine

/-- TCAM_GROUP_WRITE (R147). -/
def execTcamGroupWrite (req : Requester) (bank : Fin 2) (n : Fin 16) (w : BitVec 32) (s : State) : Host.Outcome State Fault Refusal :=
  run (cmd req (grpReg bank.val) 0 n.val w.toNat) s
/-- TCAM_WRITE (R155). -/
def execTcamWrite (req : Requester) (w : BitVec 32) (s : State) : Host.Outcome State Fault Refusal :=
  run (cmd req .TCM_CMD 0 0 (go w 30 28 0)) s
/-- TCAM_INVALIDATE (R156). -/
def execTcamInvalidate (req : Requester) (w : BitVec 32) (s : State) : Host.Outcome State Fault Refusal :=
  run (cmd req .TCM_CMD 0 0 (go w 30 28 1)) s
/-- TCAM_READ (R156). -/
def execTcamRead (req : Requester) (w : BitVec 32) (s : State) : Host.Outcome State Fault Refusal :=
  run (cmd req .TCM_CMD 0 0 (go w 30 28 2)) s
/-- TCAM_SEARCH (R156). -/
def execTcamSearch (req : Requester) (w : BitVec 32) (s : State) : Host.Outcome State Fault Refusal :=
  run (cmd req .TCM_CMD 0 0 (go w 30 28 3)) s
/-- TCAM_SCRUB_VISIT (R157). -/
def execTcamScrubVisit (slice : Fin 16) (entry : Fin 8192) (shadowLost : Bool) (s : State) : Host.Outcome State Fault Refusal :=
  run (act 32 (tcamScrub slice.val entry.val shadowLost)) s
/-- TCAM_INJECT (R157). -/
def execTcamInject (req : Requester) (w : BitVec 32) (s : State) : Host.Outcome State Fault Refusal :=
  run (cmd req .TCM_INJECT 0 0 (force w [(31, 31, 1)])) s
/-- EGRESS_TCAM_SEARCH (R201). -/
def execEgressTcamSearch (s : State) (waited : Bool := false) : Host.Outcome State Fault Refusal := run (act 97 (egressSearch waited)) s
/-- BRL_ASSIGN (R165). -/
def execBrlAssign (req : Requester) (w : BitVec 32) (s : State) : Host.Outcome State Fault Refusal :=
  run (cmd req .BRL_CMD 0 0 (go w 30 28 0)) s
/-- BRL_VERIFY (R166). -/
def execBrlVerify (req : Requester) (w : BitVec 32) (s : State) : Host.Outcome State Fault Refusal :=
  run (cmd req .BRL_CMD 0 0 (go w 30 28 1)) s
/-- BRL_CLONE (R167). -/
def execBrlClone (req : Requester) (w : BitVec 32) (s : State) : Host.Outcome State Fault Refusal :=
  run (cmd req .BRL_CMD 0 0 (go w 30 28 2)) s
/-- BRL_CLEAR (R165). -/
def execBrlClear (req : Requester) (w : BitVec 32) (s : State) : Host.Outcome State Fault Refusal :=
  run (cmd req .BRL_CMD 0 0 (go w 30 28 3)) s
/-- REPLICA_RETIRED (R165). -/
def execReplicaRetired (replica : Fin 24) (s : State) : Host.Outcome State Fault Refusal :=
  run (act 32 (replicaRetired replica.val)) s
/-- BURL_SCRUB (R167). -/
def execBurlScrub (replica : Fin 24) (word : BitVec 16) (seen : EccSeen) (s : State) : Host.Outcome State Fault Refusal :=
  run (act 32 (burlScrub replica.val word.toNat seen)) s

end Sys2Proof.Machine
end

