-- ==== Sys2Proof/Machine/CmdStacks.lean ====
section
/-! DEFINITION. Packet memory (10_hbm.md). -/

namespace Sys2Proof.Machine

/-- HBM_TRAIN_DONE (R288). -/
def execHbmTrainDone (st : Fin 4) (last : Fin 8) (id : StackId) (mask : BitVec 32) (failStep : Fin 8) (s : State) : Host.Outcome State Fault Refusal :=
  run (act (103 + st.val) (trainEnd st.val last.val id mask.toNat failStep.val)) s
/-- HBM_FREQ_WRITE (R289). -/
def execHbmFreqWrite (req : Requester) (st : Fin 4) (w : BitVec 32) (s : State) : Host.Outcome State Fault Refusal :=
  run (cmd req .HBM_FREQ st.val 0 w.toNat) s
/-- FREQ_SWITCH (R289). -/
def execFreqSwitch (st : Fin 4) (s : State) : Host.Outcome State Fault Refusal :=
  run (act (103 + st.val) (freqSwitch st.val)) s
/-- FREQ_DONE (R289). -/
def execFreqDone (st : Fin 4) (last : Fin 8) (mask : BitVec 32) (s : State) : Host.Outcome State Fault Refusal :=
  run (act (103 + st.val) (freqDone st.val last.val mask.toNat)) s
/-- RETRAIN (R291). -/
def execRetrain (st : Fin 4) (k : Fin 32) (s : State) : Host.Outcome State Fault Refusal :=
  run (act (103 + st.val) (retrain st.val k.val)) s
/-- RETRAIN_DONE (R291). -/
def execRetrainDone (st : Fin 4) (ok : Bool) (s : State) : Host.Outcome State Fault Refusal :=
  run (act (103 + st.val) (retrainDone st.val ok)) s
/-- HBM_TEMP_SAMPLE (R286). -/
def execHbmTempSample (st : Fin 4) (t : BitVec 8) (s : State) : Host.Outcome State Fault Refusal :=
  run (act (103 + st.val) (hbmTemp st.val t.toNat)) s
/-- HBM_TEMP_MAX_WRITE (R286). -/
def execHbmTempMaxWrite (req : Requester) (st : Fin 4) (w : BitVec 32) (s : State) : Host.Outcome State Fault Refusal :=
  run (cmd req .HBM_TEMP st.val 0 w.toNat) s
/-- SPILL_WRITE (R276). -/
def execSpillWrite (s : State) (lists : List BlockRead := []) : Host.Outcome State Fault Refusal := run (act 102 (spillWrite lists)) s
/-- HBM_READ_ISSUE (R279). -/
def execHbmReadIssue (q : BitVec 19) (s : State) : Host.Outcome State Fault Refusal := run (act 102 (readStream q.toNat)) s
/-- BLOCK_RETURN (R280). -/
def execBlockReturn (h : BitVec 30) (flips : List (Fin 2176)) (s : State) : Host.Outcome State Fault Refusal :=
  run (act (103 + stackOf h.toNat) (blockReturn h.toNat flips)) s
/-- HBM_READ_TIMEOUT (R280). -/
def execHbmReadTimeout (h : BitVec 30) (s : State) : Host.Outcome State Fault Refusal :=
  run (act (103 + stackOf h.toNat) (readTimeout h.toNat)) s
/-- RETURN_RETRY (R279). -/
def execReturnRetry (q : BitVec 19) (s : State) : Host.Outcome State Fault Refusal := run (act 102 (returnRetry q.toNat)) s
/-- PC_SLOW_WINDOW (R292). -/
def execPcSlowWindow (st : Fin 4) (k : Fin 32) (latNs : BitVec 32) (rereads : BitVec 16) (s : State) : Host.Outcome State Fault Refusal :=
  run (act (103 + st.val) (slowWindow st.val k.val latNs.toNat rereads.toNat)) s
/-- HBM_SCRUB (R293). -/
def execHbmScrub (h : BitVec 30) (reads : List (List (Fin 2176))) (s : State) : Host.Outcome State Fault Refusal :=
  run (act (103 + stackOf h.toNat) (hbmScrub h.toNat reads)) s
/-- HBM_INJECT (R296). -/
def execHbmInject (req : Requester) (st : Fin 4) (w : BitVec 32) (s : State) : Host.Outcome State Fault Refusal :=
  run (cmd req .HBM_X_INJECT st.val 0 (force w [(31, 31, 1)])) s

end Sys2Proof.Machine
end

