-- ==== Sys2Proof/Machine/CmdTiming.lean ====
section
/-! DEFINITION. Spindle time, timed actions and gate lists (12_spindle_time.md). -/

namespace Sys2Proof.Machine

/-- TIME_MARKER (R331). -/
def execTimeMarker (s : State) : Host.Outcome State Fault Refusal := run (act 99 toMarker) s
/-- TIME_SET (R333). -/
def execTimeSet (req : Requester) (w : BitVec 32) (s : State) : Host.Outcome State Fault Refusal :=
  run (cmd req .SPN_ADJ 0 0 (go w 30 28 0)) s
/-- TIME_STEP (R333). -/
def execTimeStep (req : Requester) (w : BitVec 32) (s : State) : Host.Outcome State Fault Refusal :=
  run (cmd req .SPN_ADJ 0 0 (go w 30 28 1)) s
/-- TIME_SLEW (R333). -/
def execTimeSlew (req : Requester) (w : BitVec 32) (s : State) : Host.Outcome State Fault Refusal :=
  run (cmd req .SPN_ADJ 0 0 (go w 30 28 2)) s
/-- TIME_ADJ_APPLY (R334). -/
def execTimeAdjApply (s : State) : Host.Outcome State Fault Refusal := run (act 99 adjApply) s
/-- SLEW_END (R333). -/
def execSlewEnd (s : State) : Host.Outcome State Fault Refusal := run (act 99 slewFinish) s
/-- RATE_WRITE (R333). -/
def execRateWrite (req : Requester) (w : BitVec 32) (s : State) : Host.Outcome State Fault Refusal :=
  run (cmd req .SPN_RATE 0 0 w.toNat) s
/-- SRC_WRITE (R339). -/
def execSrcWrite (req : Requester) (w : BitVec 32) (s : State) : Host.Outcome State Fault Refusal :=
  run (cmd req .SPN_CFG 0 0 w.toNat) s
/-- PPS_IN_EDGE (R337). -/
def execPpsInEdge (s : State) : Host.Outcome State Fault Refusal := run (act 99 ppsIn) s
/-- HOLDOVER_ENTRY (R339). -/
def execHoldoverEntry (s : State) : Host.Outcome State Fault Refusal := run (act 99 holdover) s
/-- SYNC_IN_EDGE (R341). -/
def execSyncInEdge (s : State) : Host.Outcome State Fault Refusal := run (act 99 syncIn) s
/-- SYNC_LABEL (R387). -/
def execSyncLabel (sec : BitVec 48) (ms : BitVec 10) (term : BitVec 16) (s : State) : Host.Outcome State Fault Refusal :=
  run (act 99 (syncRecord (syncRec sec.toNat ms.toNat term.toNat))) s
/-- SYNC_PULSE_OUT (R340). -/
def execSyncPulseOut (s : State) : Host.Outcome State Fault Refusal := run (act 99 syncPulse) s
/-- PPS_OUT_PULSE (R542). -/
def execPpsOutPulse (s : State) : Host.Outcome State Fault Refusal := run (act 99 ppsPulse) s
/-- ACT_ARM (R345). -/
def execActArm (req : Requester) (w : BitVec 32) (s : State) : Host.Outcome State Fault Refusal :=
  run (cmd req .SPN_ACT_CMD 0 0 (go w 30 28 0)) s
/-- ACT_CANCEL (R345). -/
def execActCancel (req : Requester) (w : BitVec 32) (s : State) : Host.Outcome State Fault Refusal :=
  run (cmd req .SPN_ACT_CMD 0 0 (go w 30 28 1)) s
/-- ACT_READ (R345). -/
def execActRead (req : Requester) (w : BitVec 32) (s : State) : Host.Outcome State Fault Refusal :=
  run (cmd req .SPN_ACT_CMD 0 0 (go w 30 28 2)) s
/-- ACTION_DUE (R346). -/
def execActionDue (s : State) : Host.Outcome State Fault Refusal := run (act 99 actionDue) s
/-- TIMER_FIFO_POP (R344). -/
def execTimerFifoPop (req : Requester) (s : State) : Host.Outcome State Fault Refusal :=
  run (readLow req .SPN_TIMER_FIFO 0 0) s
/-- GCL_WRITE (R352). -/
def execGclWrite (req : Requester) (w : BitVec 32) (s : State) : Host.Outcome State Fault Refusal :=
  run (cmd req .SPN_GCL_DATA 0 0 w.toNat) s
/-- GCL_READ (R352). -/
def execGclRead (req : Requester) (s : State) : Host.Outcome State Fault Refusal := run (readLow req .SPN_GCL_DATA 0 0) s
/-- GATE_COMMIT (R352). -/
def execGateCommit (req : Requester) (port : Fin 128) (w : BitVec 32) (s : State) : Host.Outcome State Fault Refusal :=
  run (cmd req .SPN_GATEn_ADMIN 0 port.val (go w 30 29 0)) s
/-- GATE_COMMIT_OPEN (R352). -/
def execGateCommitOpen (req : Requester) (port : Fin 128) (w : BitVec 32) (s : State) : Host.Outcome State Fault Refusal :=
  run (cmd req .SPN_GATEn_ADMIN 0 port.val (go w 30 29 1)) s
/-- GATE_CANCEL (R352). -/
def execGateCancel (req : Requester) (port : Fin 128) (w : BitVec 32) (s : State) : Host.Outcome State Fault Refusal :=
  run (cmd req .SPN_GATEn_ADMIN 0 port.val (go w 30 29 2)) s
/-- GATE_SWITCH (R352). -/
def execGateSwitch (port : Fin 128) (s : State) : Host.Outcome State Fault Refusal :=
  run (fun d => act 99 (fun d => gateFragment port.val (gateSwitch port.val d)) d) s
/-- GATE_INTERVAL (R354). -/
def execGateInterval (port : Fin 128) (s : State) : Host.Outcome State Fault Refusal := run (act 99 (gateInterval port.val)) s

end Sys2Proof.Machine
end

