-- ==== Sys2Proof/Machine/CmdTraffic.lean ====
section
/-! DEFINITION. The traffic manager and the meters (11_traffic_manager.md). -/

namespace Sys2Proof.Machine

/-- ADMIT (R304). -/
def execAdmitPacket (s : State) : Host.Outcome State Fault Refusal := run (act 102 admitPacket) s
/-- Q_WRITE (R299). -/
def execQWrite (req : Requester) (w : BitVec 32) (s : State) : Host.Outcome State Fault Refusal :=
  run (cmd req .TMS_Q_CMD 0 0 (go w 30 28 0)) s
/-- Q_READ (R299). -/
def execQRead (req : Requester) (w : BitVec 32) (s : State) : Host.Outcome State Fault Refusal :=
  run (cmd req .TMS_Q_CMD 0 0 (go w 30 28 1)) s
/-- Q_FLUSH (R325). -/
def execQFlush (req : Requester) (w : BitVec 32) (s : State) : Host.Outcome State Fault Refusal :=
  run (cmd req .TMS_Q_CMD 0 0 (go w 30 28 2)) s
/-- Q_CLEAR_HWM (R321). -/
def execQClearHwm (req : Requester) (w : BitVec 32) (s : State) : Host.Outcome State Fault Refusal :=
  run (cmd req .TMS_Q_CMD 0 0 (go w 30 28 3)) s
/-- NODE_WRITE (R317). -/
def execNodeWrite (req : Requester) (w : BitVec 32) (s : State) : Host.Outcome State Fault Refusal :=
  run (cmd req .TMS_NODE_CMD 0 0 (go w 30 28 0)) s
/-- NODE_READ (R317). -/
def execNodeRead (req : Requester) (w : BitVec 32) (s : State) : Host.Outcome State Fault Refusal :=
  run (cmd req .TMS_NODE_CMD 0 0 (go w 30 28 1)) s
/-- NODE_CLEAR_HWM (R321). -/
def execNodeClearHwm (req : Requester) (w : BitVec 32) (s : State) : Host.Outcome State Fault Refusal :=
  run (cmd req .TMS_NODE_CMD 0 0 (go w 30 28 2)) s
/-- METER_WRITE (R307). -/
def execMeterWrite (req : Requester) (w : BitVec 32) (s : State) : Host.Outcome State Fault Refusal :=
  run (cmd req .MTR_CMD 0 0 (go w 30 28 0)) s
/-- METER_READ (R307). -/
def execMeterRead (req : Requester) (w : BitVec 32) (s : State) : Host.Outcome State Fault Refusal :=
  run (cmd req .MTR_CMD 0 0 (go w 30 28 1)) s
/-- VOQ_DECIDE (R316). -/
def execVoqDecide (pipe : Fin 16) (s : State) : Host.Outcome State Fault Refusal := run (act 102 (voqDecide pipe.val)) s
/-- EGRESS_DECIDE (R319). -/
def execEgressDecide (pipe : Fin 16) (s : State) : Host.Outcome State Fault Refusal := run (act 102 (egressDecide pipe.val)) s
/-- CREDIT_GENERATE (R314). -/
def execCreditGenerate (port : Fin 128) (s : State) : Host.Outcome State Fault Refusal :=
  run (act 102 (creditGenerate port.val)) s
/-- REQ_TIMEOUT (R313). -/
def execReqTimeout (q : BitVec 17) (s : State) : Host.Outcome State Fault Refusal := run (act 102 (reqTimeout q.toNat)) s

end Sys2Proof.Machine
end

