-- ==== Sys2Proof/Machine/Dispatch.lean ====
section
/-! DEFINITION. The meaning of every command: one arm for each constructor of Instr, each one call of the meaning. -/

namespace Sys2Proof.Machine

def exec (i : Instr) (s : State) : Host.Outcome State Fault Refusal :=
  match i with
  | .registerWrite req addr v => Sys2Proof.Machine.execRegisterWrite req addr v s
  | .stagedWordWrite req addr v => Sys2Proof.Machine.execStagedWordWrite req addr v s
  | .lowestWordRead req addr => Sys2Proof.Machine.execLowestWordRead req addr s
  | .unmappedAccess req addr v => Sys2Proof.Machine.execUnmappedAccess req addr v s
  | .partialWrite req addr => Sys2Proof.Machine.execPartialWrite req addr s
  | .oversizeRequest addr write words => Sys2Proof.Machine.execOversizeRequest addr write words s
  | .fpCtrlWrite req page w => Sys2Proof.Machine.execFpCtrlWrite req page w s
  | .blkRst req page w => Sys2Proof.Machine.execBlkRst req page w s
  | .blkRstDone page => Sys2Proof.Machine.execBlkRstDone page s
  | .fpKeyWrite req page w => Sys2Proof.Machine.execFpKeyWrite req page w s
  | .keyWindowExpire req addr v => Sys2Proof.Machine.execKeyWindowExpire req addr v s
  | .evtMaskSet req page w => Sys2Proof.Machine.execEvtMaskSet req page w s
  | .evtMaskClr req page w => Sys2Proof.Machine.execEvtMaskClr req page w s
  | .evtPendClr req page w => Sys2Proof.Machine.execEvtPendClr req page w s
  | .evtPendForce req page w => Sys2Proof.Machine.execEvtPendForce req page w s
  | .errCodeClear req page w => Sys2Proof.Machine.execErrCodeClear req page w s
  | .ownerClaim req r id => Sys2Proof.Machine.execOwnerClaim req r id s
  | .ownerRelease req r id => Sys2Proof.Machine.execOwnerRelease req r id s
  | .overrunClear req page w => Sys2Proof.Machine.execOverrunClear req page w s
  | .clockGate isl => Sys2Proof.Machine.execClockGate isl s
  | .clockUngate isl => Sys2Proof.Machine.execClockUngate isl s
  | .bankRetain place bank => Sys2Proof.Machine.execBankRetain place bank s
  | .bankWake place bank cause => Sys2Proof.Machine.execBankWake place bank cause s
  | .powerSample total rails => Sys2Proof.Machine.execPowerSample total rails s
  | .glbTempSample fe tm => Sys2Proof.Machine.execGlbTempSample fe tm s
  | .pwrPeakWrite req w => Sys2Proof.Machine.execPwrPeakWrite req w s
  | .lpgModeWrite req g w => Sys2Proof.Machine.execLpgModeWrite req g w s
  | .portEnable req port w => Sys2Proof.Machine.execPortEnable req port w s
  | .portDisable req port w => Sys2Proof.Machine.execPortDisable req port w s
  | .anResolved port => Sys2Proof.Machine.execAnResolved port s
  | .anTimeout port => Sys2Proof.Machine.execAnTimeout port s
  | .anRestart port => Sys2Proof.Machine.execAnRestart port s
  | .linkTrained port => Sys2Proof.Machine.execLinkTrained port s
  | .linkTrainTimeout port => Sys2Proof.Machine.execLinkTrainTimeout port s
  | .cleanLock port => Sys2Proof.Machine.execCleanLock port s
  | .alignTimeout port => Sys2Proof.Machine.execAlignTimeout port s
  | .linkFault port loc rem ser => Sys2Proof.Machine.execLinkFault port loc rem ser s
  | .faultRecover port => Sys2Proof.Machine.execFaultRecover port s
  | .faultTimeout port => Sys2Proof.Machine.execFaultTimeout port s
  | .faultLockBreak port => Sys2Proof.Machine.execFaultLockBreak port s
  | .frameReceive port bytes fcsOk sec ts frags corrected uncorrectable smd => Sys2Proof.Machine.execFrameReceive port bytes fcsOk sec ts frags corrected uncorrectable s smd
  | .frameTxStart port ts pred => Sys2Proof.Machine.execFrameTxStart port ts pred s
  | .tsFifoPop req port => Sys2Proof.Machine.execTsFifoPop req port s
  | .saInstall req g w => Sys2Proof.Machine.execSaInstall req g w s
  | .saRemove req g w => Sys2Proof.Machine.execSaRemove req g w s
  | .saRead req g w => Sys2Proof.Machine.execSaRead req g w s
  | .saSetCurrent req g w => Sys2Proof.Machine.execSaSetCurrent req g w s
  | .saSwitch port sc => Sys2Proof.Machine.execSaSwitch port sc s
  | .verifySend port => Sys2Proof.Machine.execVerifySend port s
  | .verifyResponse port => Sys2Proof.Machine.execVerifyResponse port s
  | .verifyGiveUp port => Sys2Proof.Machine.execVerifyGiveUp port s
  | .parseStart fifo => Sys2Proof.Machine.execParseStart fifo s
  | .lookupIssue pass tcamWait burlWait corr => Sys2Proof.Machine.execLookupIssue pass tcamWait burlWait s corr
  | .burlReread replica word => Sys2Proof.Machine.execBurlReread replica word s
  | .nhtLookup pass => Sys2Proof.Machine.execNhtLookup pass s
  | .engineDispatch pass => Sys2Proof.Machine.execEngineDispatch pass s
  | .profileCommit req bank ix w => Sys2Proof.Machine.execProfileCommit req bank ix w s
  | .templateCommit req bank ix w => Sys2Proof.Machine.execTemplateCommit req bank ix w s
  | .deepParseWrite req k w => Sys2Proof.Machine.execDeepParseWrite req k w s
  | .hdsTraceArm req w => Sys2Proof.Machine.execHdsTraceArm req w s
  | .lpmInsert req w => Sys2Proof.Machine.execLpmInsert req w s
  | .lpmUpdate req w => Sys2Proof.Machine.execLpmUpdate req w s
  | .lpmDelete req w => Sys2Proof.Machine.execLpmDelete req w s
  | .lpmFind req w => Sys2Proof.Machine.execLpmFind req w s
  | .lpmLookup req w => Sys2Proof.Machine.execLpmLookup req w s
  | .lpmRepair req w => Sys2Proof.Machine.execLpmRepair req w s
  | .lpmWordFree => Sys2Proof.Machine.execLpmWordFree s
  | .xmInsert req w => Sys2Proof.Machine.execXmInsert req w s
  | .xmUpdate req w => Sys2Proof.Machine.execXmUpdate req w s
  | .xmDelete req w => Sys2Proof.Machine.execXmDelete req w s
  | .xmFind req w => Sys2Proof.Machine.execXmFind req w s
  | .xmInvalidate req w => Sys2Proof.Machine.execXmInvalidate req w s
  | .stashReinsert => Sys2Proof.Machine.execStashReinsert s
  | .nhtWrite req w => Sys2Proof.Machine.execNhtWrite req w s
  | .nhtRead req w => Sys2Proof.Machine.execNhtRead req w s
  | .eccWriteback word => Sys2Proof.Machine.execEccWriteback word s
  | .tableScrub mem unit word way seen => Sys2Proof.Machine.execTableScrub mem unit word way seen s
  | .lockClaim req lock id => Sys2Proof.Machine.execLockClaim req lock id s
  | .lockRelease req lock id => Sys2Proof.Machine.execLockRelease req lock id s
  | .lockTimeout lock => Sys2Proof.Machine.execLockTimeout lock s
  | .lockTmoWrite req lock w => Sys2Proof.Machine.execLockTmoWrite req lock w s
  | .learnArbitrate slow => Sys2Proof.Machine.execLearnArbitrate slow s
  | .flapHoldEnd tbl key => Sys2Proof.Machine.execFlapHoldEnd tbl key s
  | .ageScanVisit slot => Sys2Proof.Machine.execAgeScanVisit slot s
  | .lrnLogPop req => Sys2Proof.Machine.execLrnLogPop req s
  | .tcamGroupWrite req bank n w => Sys2Proof.Machine.execTcamGroupWrite req bank n w s
  | .tcamWrite req w => Sys2Proof.Machine.execTcamWrite req w s
  | .tcamInvalidate req w => Sys2Proof.Machine.execTcamInvalidate req w s
  | .tcamRead req w => Sys2Proof.Machine.execTcamRead req w s
  | .tcamSearch req w => Sys2Proof.Machine.execTcamSearch req w s
  | .tcamScrubVisit slice entry shadowLost => Sys2Proof.Machine.execTcamScrubVisit slice entry shadowLost s
  | .tcamInject req w => Sys2Proof.Machine.execTcamInject req w s
  | .egressTcamSearch waited => Sys2Proof.Machine.execEgressTcamSearch s waited
  | .brlAssign req w => Sys2Proof.Machine.execBrlAssign req w s
  | .brlVerify req w => Sys2Proof.Machine.execBrlVerify req w s
  | .brlClone req w => Sys2Proof.Machine.execBrlClone req w s
  | .brlClear req w => Sys2Proof.Machine.execBrlClear req w s
  | .replicaRetired replica => Sys2Proof.Machine.execReplicaRetired replica s
  | .burlScrub replica word seen => Sys2Proof.Machine.execBurlScrub replica word seen s
  | .bundleIssue c e corr => Sys2Proof.Machine.execBundleIssue c e s corr
  | .scratchLoadLand c e => Sys2Proof.Machine.execScratchLoadLand c e s
  | .budgetStop c e => Sys2Proof.Machine.execBudgetStop c e s
  | .verdictRelease queue => Sys2Proof.Machine.execVerdictRelease queue s
  | .clusterDrained c => Sys2Proof.Machine.execClusterDrained c s
  | .imemWrite req c w => Sys2Proof.Machine.execImemWrite req c w s
  | .imemRead req c => Sys2Proof.Machine.execImemRead req c s
  | .engTraceArm req c w => Sys2Proof.Machine.execEngTraceArm req c w s
  | .engScrub c scratch half word seen => Sys2Proof.Machine.execEngScrub c scratch half word seen s
  | .egressDispatch => Sys2Proof.Machine.execEgressDispatch s
  | .switchNow req w => Sys2Proof.Machine.execSwitchNow req w s
  | .switchAt req w => Sys2Proof.Machine.execSwitchAt req w s
  | .epochCancel req w => Sys2Proof.Machine.execEpochCancel req w s
  | .chassisSwitch req w => Sys2Proof.Machine.execChassisSwitch req w s
  | .epochSwitch => Sys2Proof.Machine.execEpochSwitch s
  | .drainComplete => Sys2Proof.Machine.execDrainComplete s
  | .drainForce => Sys2Proof.Machine.execDrainForce s
  | .prepareTimeout => Sys2Proof.Machine.execPrepareTimeout s
  | .readyTimeout => Sys2Proof.Machine.execReadyTimeout s
  | .fwTakeover => Sys2Proof.Machine.execFwTakeover s
  | .fwSwitchTimeout => Sys2Proof.Machine.execFwSwitchTimeout s
  | .fwReady => Sys2Proof.Machine.execFwReady s
  | .mandrelReenter borrowed => Sys2Proof.Machine.execMandrelReenter borrowed s
  | .allocCycle adds frees reqs => Sys2Proof.Machine.execAllocCycle adds frees reqs s
  | .cacheRefill pool => Sys2Proof.Machine.execCacheRefill pool s
  | .headCacheRequest src => Sys2Proof.Machine.execHeadCacheRequest src s
  | .handlesRecord => Sys2Proof.Machine.execHandlesRecord s
  | .bodyRecord => Sys2Proof.Machine.execBodyRecord s
  | .verdictRecord => Sys2Proof.Machine.execVerdictRecord s
  | .verdictApply => Sys2Proof.Machine.execVerdictApply s
  | .freeChain x => Sys2Proof.Machine.execFreeChain x s
  | .poolCfgWrite req pool w => Sys2Proof.Machine.execPoolCfgWrite req pool w s
  | .poolMinReset req pool w => Sys2Proof.Machine.execPoolMinReset req pool w s
  | .cellRead req w => Sys2Proof.Machine.execCellRead req w s
  | .cellAlloc req w => Sys2Proof.Machine.execCellAlloc req w s
  | .cellFree req w => Sys2Proof.Machine.execCellFree req w s
  | .cellForceFree req w => Sys2Proof.Machine.execCellForceFree req w s
  | .badfreeLogPop req => Sys2Proof.Machine.execBadfreeLogPop req s
  | .marchStart req w => Sys2Proof.Machine.execMarchStart req w s
  | .marchDone fails => Sys2Proof.Machine.execMarchDone fails s
  | .chkScrub granule seen => Sys2Proof.Machine.execChkScrub granule seen s
  | .chkInject req w => Sys2Proof.Machine.execChkInject req w s
  | .flitReceive toTm sent flips => Sys2Proof.Machine.execFlitReceive toTm sent s flips
  | .replayTimeout toTm => Sys2Proof.Machine.execReplayTimeout toTm s
  | .flitLost toTm => Sys2Proof.Machine.execFlitLost toTm s
  | .wireCal toTm pass => Sys2Proof.Machine.execWireCal toTm pass s
  | .d2dRegWr req addr v => Sys2Proof.Machine.execD2dRegWr req addr v s
  | .d2dRegRd req tag addr => Sys2Proof.Machine.execD2dRegRd req tag addr s
  | .d2dRegRsp => Sys2Proof.Machine.execD2dRegRsp s
  | .eventRecord page => Sys2Proof.Machine.execEventRecord page s
  | .doneRecord => Sys2Proof.Machine.execDoneRecord s
  | .timeRecord => Sys2Proof.Machine.execTimeRecord s
  | .epochRecord => Sys2Proof.Machine.execEpochRecord s
  | .resetRecord => Sys2Proof.Machine.execResetRecord s
  | .abortRecord toTm stream => Sys2Proof.Machine.execAbortRecord toTm stream s
  | .egressRecord => Sys2Proof.Machine.execEgressRecord s
  | .hbmTrainDone st last id mask failStep => Sys2Proof.Machine.execHbmTrainDone st last id mask failStep s
  | .hbmFreqWrite req st w => Sys2Proof.Machine.execHbmFreqWrite req st w s
  | .freqSwitch st => Sys2Proof.Machine.execFreqSwitch st s
  | .freqDone st last mask => Sys2Proof.Machine.execFreqDone st last mask s
  | .retrain st k => Sys2Proof.Machine.execRetrain st k s
  | .retrainDone st ok => Sys2Proof.Machine.execRetrainDone st ok s
  | .hbmTempSample st t => Sys2Proof.Machine.execHbmTempSample st t s
  | .hbmTempMaxWrite req st w => Sys2Proof.Machine.execHbmTempMaxWrite req st w s
  | .spillWrite lists => Sys2Proof.Machine.execSpillWrite s lists
  | .hbmReadIssue q => Sys2Proof.Machine.execHbmReadIssue q s
  | .blockReturn h flips => Sys2Proof.Machine.execBlockReturn h flips s
  | .hbmReadTimeout h => Sys2Proof.Machine.execHbmReadTimeout h s
  | .returnRetry q => Sys2Proof.Machine.execReturnRetry q s
  | .pcSlowWindow st k latNs rereads => Sys2Proof.Machine.execPcSlowWindow st k latNs rereads s
  | .hbmScrub h reads => Sys2Proof.Machine.execHbmScrub h reads s
  | .hbmInject req st w => Sys2Proof.Machine.execHbmInject req st w s
  | .admitPacket => Sys2Proof.Machine.execAdmitPacket s
  | .qWrite req w => Sys2Proof.Machine.execQWrite req w s
  | .qRead req w => Sys2Proof.Machine.execQRead req w s
  | .qFlush req w => Sys2Proof.Machine.execQFlush req w s
  | .qClearHwm req w => Sys2Proof.Machine.execQClearHwm req w s
  | .nodeWrite req w => Sys2Proof.Machine.execNodeWrite req w s
  | .nodeRead req w => Sys2Proof.Machine.execNodeRead req w s
  | .nodeClearHwm req w => Sys2Proof.Machine.execNodeClearHwm req w s
  | .meterWrite req w => Sys2Proof.Machine.execMeterWrite req w s
  | .meterRead req w => Sys2Proof.Machine.execMeterRead req w s
  | .voqDecide pipe => Sys2Proof.Machine.execVoqDecide pipe s
  | .egressDecide pipe => Sys2Proof.Machine.execEgressDecide pipe s
  | .creditGenerate port => Sys2Proof.Machine.execCreditGenerate port s
  | .reqTimeout q => Sys2Proof.Machine.execReqTimeout q s
  | .timeMarker => Sys2Proof.Machine.execTimeMarker s
  | .timeSet req w => Sys2Proof.Machine.execTimeSet req w s
  | .timeStep req w => Sys2Proof.Machine.execTimeStep req w s
  | .timeSlew req w => Sys2Proof.Machine.execTimeSlew req w s
  | .timeAdjApply => Sys2Proof.Machine.execTimeAdjApply s
  | .slewEnd => Sys2Proof.Machine.execSlewEnd s
  | .rateWrite req w => Sys2Proof.Machine.execRateWrite req w s
  | .srcWrite req w => Sys2Proof.Machine.execSrcWrite req w s
  | .ppsInEdge => Sys2Proof.Machine.execPpsInEdge s
  | .holdoverEntry => Sys2Proof.Machine.execHoldoverEntry s
  | .syncInEdge => Sys2Proof.Machine.execSyncInEdge s
  | .syncLabel sec ms term => Sys2Proof.Machine.execSyncLabel sec ms term s
  | .syncPulseOut => Sys2Proof.Machine.execSyncPulseOut s
  | .ppsOutPulse => Sys2Proof.Machine.execPpsOutPulse s
  | .actArm req w => Sys2Proof.Machine.execActArm req w s
  | .actCancel req w => Sys2Proof.Machine.execActCancel req w s
  | .actRead req w => Sys2Proof.Machine.execActRead req w s
  | .actionDue => Sys2Proof.Machine.execActionDue s
  | .timerFifoPop req => Sys2Proof.Machine.execTimerFifoPop req s
  | .gclWrite req w => Sys2Proof.Machine.execGclWrite req w s
  | .gclRead req => Sys2Proof.Machine.execGclRead req s
  | .gateCommit req port w => Sys2Proof.Machine.execGateCommit req port w s
  | .gateCommitOpen req port w => Sys2Proof.Machine.execGateCommitOpen req port w s
  | .gateCancel req port w => Sys2Proof.Machine.execGateCancel req port w s
  | .gateSwitch port => Sys2Proof.Machine.execGateSwitch port s
  | .gateInterval port => Sys2Proof.Machine.execGateInterval port s
  | .fabLinkEnable req l w => Sys2Proof.Machine.execFabLinkEnable req l w s
  | .fabLinkDisable req l w => Sys2Proof.Machine.execFabLinkDisable req l w s
  | .cellLock l => Sys2Proof.Machine.execCellLock l s
  | .cellLockLoss l => Sys2Proof.Machine.execCellLockLoss l s
  | .fabTrainTimeout l => Sys2Proof.Machine.execFabTrainTimeout l s
  | .helloSend l => Sys2Proof.Machine.execHelloSend l s
  | .helloReceive l h => Sys2Proof.Machine.execHelloReceive l h s
  | .helloTimeout l => Sys2Proof.Machine.execHelloTimeout l s
  | .failedRetry l => Sys2Proof.Machine.execFailedRetry l s
  | .spareRelease l => Sys2Proof.Machine.execSpareRelease l s
  | .cellReceive l bytes corrected uncorrectable => Sys2Proof.Machine.execCellReceive l bytes corrected uncorrectable s
  | .cellReplayTimeout l lseq => Sys2Proof.Machine.execCellReplayTimeout l lseq s
  | .linkReplayFail l => Sys2Proof.Machine.execLinkReplayFail l s
  | .reachReceive l mask => Sys2Proof.Machine.execReachReceive l mask s
  | .cellSpray => Sys2Proof.Machine.execCellSpray s
  | .unreachableTimeout dev => Sys2Proof.Machine.execUnreachableTimeout dev s
  | .lagCheck => Sys2Proof.Machine.execLagCheck s
  | .dataCellReceive c => Sys2Proof.Machine.execDataCellReceive c s
  | .holeTimeout dev => Sys2Proof.Machine.execHoleTimeout dev s
  | .creditReqOn port cls dev seq => Sys2Proof.Machine.execCreditReqOn port cls dev seq s
  | .creditReqOff port cls dev seq => Sys2Proof.Machine.execCreditReqOff port cls dev seq s
  | .creditGrant q n => Sys2Proof.Machine.execCreditGrant q n s
  | .learnMsg src r => Sys2Proof.Machine.execLearnMsg src r s
  | .decideMsg src r => Sys2Proof.Machine.execDecideMsg src r s
  | .ageMsg src r => Sys2Proof.Machine.execAgeMsg src r s
  | .removeMsg src r => Sys2Proof.Machine.execRemoveMsg src r s
  | .epochPrepare src seq => Sys2Proof.Machine.execEpochPrepare src seq s
  | .epochReady src seq => Sys2Proof.Machine.execEpochReady src seq s
  | .epochNotReady src seq cause => Sys2Proof.Machine.execEpochNotReady src seq cause s
  | .epochCommit src seq sec ns => Sys2Proof.Machine.execEpochCommit src seq sec ns s
  | .epochAbort src seq => Sys2Proof.Machine.execEpochAbort src seq s
  | .statusBeacon => Sys2Proof.Machine.execStatusBeacon s
  | .statusReceive r => Sys2Proof.Machine.execStatusReceive r s
  | .memberTimeout dev => Sys2Proof.Machine.execMemberTimeout dev s
  | .mgrTimeout => Sys2Proof.Machine.execMgrTimeout s
  | .managerElection => Sys2Proof.Machine.execManagerElection s
  | .learnHoldExpire => Sys2Proof.Machine.execLearnHoldExpire s
  | .handover req w => Sys2Proof.Machine.execHandover req w s
  | .bfdReceive => Sys2Proof.Machine.execBfdReceive s
  | .ndRequest => Sys2Proof.Machine.execNdRequest s
  | .ipfixSample => Sys2Proof.Machine.execIpfixSample s
  | .bfdTransmit ix => Sys2Proof.Machine.execBfdTransmit ix s
  | .bfdDetectTimeout ix => Sys2Proof.Machine.execBfdDetectTimeout ix s
  | .wheelTick slot => Sys2Proof.Machine.execWheelTick slot s
  | .ipfixIdleExport k => Sys2Proof.Machine.execIpfixIdleExport k s
  | .ipfixActiveExport k => Sys2Proof.Machine.execIpfixActiveExport k s
  | .ipfixTemplateSend => Sys2Proof.Machine.execIpfixTemplateSend s
  | .bfdAdd req w => Sys2Proof.Machine.execBfdAdd req w s
  | .bfdMod req w => Sys2Proof.Machine.execBfdMod req w s
  | .bfdDel req w => Sys2Proof.Machine.execBfdDel req w s
  | .bfdDelFinish ix => Sys2Proof.Machine.execBfdDelFinish ix s
  | .bfdRead req w => Sys2Proof.Machine.execBfdRead req w s
  | .ndAdd req w => Sys2Proof.Machine.execNdAdd req w s
  | .ndDel req w => Sys2Proof.Machine.execNdDel req w s
  | .ipfixCfg req w => Sys2Proof.Machine.execIpfixCfg req w s
  | .ipfixFlush req w => Sys2Proof.Machine.execIpfixFlush req w s
  | .ringDrain => Sys2Proof.Machine.execRingDrain s
  | .fwVerify req w => Sys2Proof.Machine.execFwVerify req w s
  | .fwStart req w => Sys2Proof.Machine.execFwStart req w s
  | .wheelClaim req w => Sys2Proof.Machine.execWheelClaim req w s
  | .wheelRelease req w => Sys2Proof.Machine.execWheelRelease req w s
  | .ringEnable req n w => Sys2Proof.Machine.execRingEnable req n w s
  | .ringDisable req n w => Sys2Proof.Machine.execRingDisable req n w s
  | .ringDoorbell req n w => Sys2Proof.Machine.execRingDoorbell req n w s
  | .cqEnable req n w => Sys2Proof.Machine.execCqEnable req n w s
  | .cqDisable req n w => Sys2Proof.Machine.execCqDisable req n w s
  | .cqHeadWrite req n w => Sys2Proof.Machine.execCqHeadWrite req n w s
  | .cqNotify n => Sys2Proof.Machine.execCqNotify n s
  | .puntDma q bufs => Sys2Proof.Machine.execPuntDma q bufs s
  | .injectFetch ring descs bytes => Sys2Proof.Machine.execInjectFetch ring descs bytes s
  | .dmaRec k desc data => Sys2Proof.Machine.execDmaRec k desc data s
  | .dmaRegRd k desc => Sys2Proof.Machine.execDmaRegRd k desc s
  | .dmaRegWr k desc data => Sys2Proof.Machine.execDmaRegWr k desc data s
  | .dmaMemWr k desc data => Sys2Proof.Machine.execDmaMemWr k desc data s
  | .dmaMemRd k desc => Sys2Proof.Machine.execDmaMemRd k desc s
  | .dmaWatchdog k desc done data => Sys2Proof.Machine.execDmaWatchdog k desc done data s
  | .hostError ring descs done data cause => Sys2Proof.Machine.execHostError ring descs done data s cause
  | .pcieFlr => Sys2Proof.Machine.execPcieFlr s
  | .pcieHotReset => Sys2Proof.Machine.execPcieHotReset s
  | .pcieLinkDown => Sys2Proof.Machine.execPcieLinkDown s
  | .pcieLinkUp speed width => Sys2Proof.Machine.execPcieLinkUp speed width s
  | .dstateChange d3 pmeEn => Sys2Proof.Machine.execDstateChange d3 pmeEn s
  | .bmeChange on cto => Sys2Proof.Machine.execBmeChange on s cto
  | .msixMaskWrite what on => Sys2Proof.Machine.execMsixMaskWrite what on s
  | .i3cWrite bytes => Sys2Proof.Machine.execI3cWrite bytes s
  | .i3cSetAddr addr => Sys2Proof.Machine.execI3cSetAddr addr s
  | .i3cRead n => Sys2Proof.Machine.execI3cRead n s
  | .cccEnec ev => Sys2Proof.Machine.execCccEnec ev s
  | .cccDisec ev => Sys2Proof.Machine.execCccDisec ev s
  | .cccRstdaa => Sys2Proof.Machine.execCccRstdaa s
  | .cccEntdaa da => Sys2Proof.Machine.execCccEntdaa da s
  | .cccSetdasa da => Sys2Proof.Machine.execCccSetdasa da s
  | .cccSetnewda da => Sys2Proof.Machine.execCccSetnewda da s
  | .cccSetmwl n => Sys2Proof.Machine.execCccSetmwl n s
  | .cccSetmrl n => Sys2Proof.Machine.execCccSetmrl n s
  | .cccGetmwl => Sys2Proof.Machine.execCccGetmwl s
  | .cccGetmrl => Sys2Proof.Machine.execCccGetmrl s
  | .cccGetpid => Sys2Proof.Machine.execCccGetpid s
  | .cccGetbcr => Sys2Proof.Machine.execCccGetbcr s
  | .cccGetdcr => Sys2Proof.Machine.execCccGetdcr s
  | .cccGetstatus => Sys2Proof.Machine.execCccGetstatus s
  | .cccRstact db => Sys2Proof.Machine.execCccRstact db s
  | .cccGetRstact => Sys2Proof.Machine.execCccGetRstact s
  | .rstactPattern => Sys2Proof.Machine.execRstactPattern s
  | .ibiRetry => Sys2Proof.Machine.execIbiRetry s
  | .mgtRstReq req => Sys2Proof.Machine.execMgtRstReq req s
  | .msixDeliver => Sys2Proof.Machine.execMsixDeliver s
  | .gapExpire g => Sys2Proof.Machine.execGapExpire g s
  | .eoi req w => Sys2Proof.Machine.execEoi req w s
  | .queryWrite req w => Sys2Proof.Machine.execQueryWrite req w s
  | .queryRead req => Sys2Proof.Machine.execQueryRead req s
  | .i3cGroupRepeat g => Sys2Proof.Machine.execI3cGroupRepeat g s
  | .aonDeadline k => Sys2Proof.Machine.execAonDeadline k s
  | .pmeStatusClear => Sys2Proof.Machine.execPmeStatusClear s
  | .cntRead req w pkts bytes => Sys2Proof.Machine.execCntRead req w pkts bytes s
  | .cntWrite req w pkts bytes => Sys2Proof.Machine.execCntWrite req w pkts bytes s
  | .cntReadClear req w pkts bytes => Sys2Proof.Machine.execCntReadClear req w pkts bytes s
  | .snapCmd req w => Sys2Proof.Machine.execSnapCmd req w s
  | .snapCaptureDone => Sys2Proof.Machine.execSnapCaptureDone s
  | .pcClear req page w => Sys2Proof.Machine.execPcClear req page w s
  | .pcCapture req page w => Sys2Proof.Machine.execPcCapture req page w s
  | .pcValWrite req page ix w => Sys2Proof.Machine.execPcValWrite req page ix w s
  | .totalsFlush => Sys2Proof.Machine.execTotalsFlush s
  | .hwdFlush req w => Sys2Proof.Machine.execHwdFlush req w s
  | .ledgerTempSample fe tm hbm => Sys2Proof.Machine.execLedgerTempSample fe tm hbm s
  | .hourlyClose => Sys2Proof.Machine.execHourlyClose s
  | .dailyClose => Sys2Proof.Machine.execDailyClose s
  | .utcSet req w => Sys2Proof.Machine.execUtcSet req w s
  | .ageMeasure isl delay => Sys2Proof.Machine.execAgeMeasure isl delay s
  | .mramScan block corrected bad => Sys2Proof.Machine.execMramScan block corrected bad s
  | .hwdWinRead req => Sys2Proof.Machine.execHwdWinRead req s
  | .hwdWinWrite req w => Sys2Proof.Machine.execHwdWinWrite req w s
  | .grantWrite req r w => Sys2Proof.Machine.execGrantWrite req r w s
  | .grantHandoverDone r => Sys2Proof.Machine.execGrantHandoverDone r s
  | .memTestStart req w => Sys2Proof.Machine.execMemTestStart req w s
  | .memTestDone fails first => Sys2Proof.Machine.execMemTestDone fails first s
  | .vaultImport req w => Sys2Proof.Machine.execVaultImport req w s
  | .importReadDone bytes => Sys2Proof.Machine.execImportReadDone bytes s
  | .vaultRemove req w => Sys2Proof.Machine.execVaultRemove req w s
  | .vaultQuery req w => Sys2Proof.Machine.execVaultQuery req w s
  | .lcChange req w => Sys2Proof.Machine.execLcChange req w s
  | .tamperAssert => Sys2Proof.Machine.execTamperAssert s
  | .tamperWipe => Sys2Proof.Machine.execTamperWipe s
  | .islStop req isl w => Sys2Proof.Machine.execIslStop req isl w s
  | .islStart req isl w => Sys2Proof.Machine.execIslStart req isl w s
  | .islRestop isl => Sys2Proof.Machine.execIslRestop isl s
  | .islandLockLoss isl => Sys2Proof.Machine.execIslandLockLoss isl s
  | .islandRelock isl => Sys2Proof.Machine.execIslandRelock isl s
  | .refClkLoss c => Sys2Proof.Machine.execRefClkLoss c s
  | .refClkReturn c => Sys2Proof.Machine.execRefClkReturn c s
  | .porNAssert => Sys2Proof.Machine.execPorNAssert s
  | .porNRelease => Sys2Proof.Machine.execPorNRelease s
  | .aonBrownout => Sys2Proof.Machine.execAonBrownout s
  | .railLoss => Sys2Proof.Machine.execRailLoss s
  | .chipRstNAssert => Sys2Proof.Machine.execChipRstNAssert s
  | .chipRstNRelease => Sys2Proof.Machine.execChipRstNRelease s
  | .glbRstControl req => Sys2Proof.Machine.execGlbRstControl req s
  | .glbRstChip req => Sys2Proof.Machine.execGlbRstChip req s
  | .thermalTrip => Sys2Proof.Machine.execThermalTrip s
  | .tripRelease hottest => Sys2Proof.Machine.execTripRelease hottest s
  | .ctlRstNAssert => Sys2Proof.Machine.execCtlRstNAssert s
  | .ctlRstNRelease => Sys2Proof.Machine.execCtlRstNRelease s
  | .controlResetDone => Sys2Proof.Machine.execControlResetDone s
  | .sramInitDone bad => Sys2Proof.Machine.execSramInitDone bad s
  | .d2dTrainDone ok => Sys2Proof.Machine.execD2dTrainDone ok s
  | .serdesCalDone badLine badFab => Sys2Proof.Machine.execSerdesCalDone badLine badFab s
  | .bootDone => Sys2Proof.Machine.execBootDone s
  | .jtagExtest => Sys2Proof.Machine.execJtagExtest s
  | .jtagIdcode => Sys2Proof.Machine.execJtagIdcode s
  | .jtagSamplePreload => Sys2Proof.Machine.execJtagSamplePreload s
  | .jtagExtestPulse => Sys2Proof.Machine.execJtagExtestPulse s
  | .jtagExtestTrain => Sys2Proof.Machine.execJtagExtestTrain s
  | .jtagClamp => Sys2Proof.Machine.execJtagClamp s
  | .jtagHighz => Sys2Proof.Machine.execJtagHighz s
  | .jtagBypass => Sys2Proof.Machine.execJtagBypass s
  | .jtagTapReset => Sys2Proof.Machine.execJtagTapReset s
  | .fuseLoadDone ok serial lc digest straps => Sys2Proof.Machine.execFuseLoadDone ok serial lc digest straps s
  | .clocksLocked => Sys2Proof.Machine.execClocksLocked s
  | .frameTxEnd port => Sys2Proof.Machine.execFrameTxEnd port s
  | .vddIoLoss => Sys2Proof.Machine.execVddIoLoss s
  | .vddIoReturn => Sys2Proof.Machine.execVddIoReturn s
  | .vddAonReturn => Sys2Proof.Machine.execVddAonReturn s
  | .tamperRelease => Sys2Proof.Machine.execTamperRelease s
  | .aspmL1Entry => Sys2Proof.Machine.execAspmL1Entry s
  | .aspmL1Exit => Sys2Proof.Machine.execAspmL1Exit s
  | .hbmRefreshDue st k bank => Sys2Proof.Machine.execHbmRefreshDue st k bank s

end Sys2Proof.Machine
end

