-- ==== Sys2Proof/Machine/Step.lean ====
section
/-! DEFINITION. One step of the block: the command at the front of the queue runs; with none waiting a host cycle passes. -/

namespace Sys2Proof.Machine

/-- Nothing waits: one cycle of the host clock passes (R330, R331). [DESIGN CHOICE: log 2] -/
def idle (s : State) : Host.Outcome State Fault Refusal := run tick s

/-- Take the command at the front of the queue and run it with the queue's rest. -/
def step (s : State) : Host.Outcome State Fault Refusal :=
  match s.pending with
  | [] => idle s
  | c :: rest => exec c { s with pending := rest }

/-- Put the command that a word spells at the front of the queue. The table gives no row any bits, so no word spells one. [DESIGN CHOICE: log 11] -/
def State.withFetchWord (s : State) (nbits w : Nat) : State :=
  match decodeTableWord nbits w with
  | some c => { s with pending := c :: s.pending }
  | none => s

end Sys2Proof.Machine
end

