-- ==== Sys2Proof/Safety.lean ====
section
/-! DEFINITION. What counts as a run of the block, and the conditions under which a command is carried out, in the words that the
statements use. -/

namespace Sys2Proof.Safety

open Machine

/-- A run is safe when every step of it answers a next state: no rule of the spec halts the block. -/
def Goes (s : State) : Prop := ∃ t, step s = .next t

/-- Work of island n is done: its clock runs, or restarts from its gate on the arrival, and d is the device once it runs (R515,
R517). -/
def Runs (n : Nat) (s : State) (d : Dev) : Prop := islOn n s.dev = true ∧ d = ungate n s.dev

/-- Something from outside reaches line port n: its reference clock is there, the lanes are not under boundary scan (R518, R551),
and its island runs. -/
def Line (n : Nat) (s : State) (d : Dev) : Prop := lineRef n s.dev = true ∧ Runs (n / 4) s d

/-- Something from outside reaches fabric link l: its reference clock is there, and its island runs (R518). -/
def FabLine (l : Nat) (s : State) (d : Dev) : Prop := fabRef l s.dev = true ∧ Runs (107 + l / 8) s d

/-- The device as an access of page p finds it: the island's clock runs for it, whatever its state was (R515, R516). -/
def reached (p : Nat) (s : State) : Dev := islAccess (islandOf p) s.dev

/-- A requester's access is taken: the device is not held in reset, and no control reset holds the requester (R519, R523). -/
def Taken (req : Requester) (s : State) : Prop := alive s.dev = true ∧ heldNow req s.dev = false

/-- Where the highest word of register r, instance g, index i, lies: a word of that register in a page of the map, past the
Faceplate, the performance counters and the MSI-X table, no counter, and no word of ENG 0's dispatcher on another ENG page. -/
def Lies (r : Reg) (g i : Nat) : Bool :=
  let p := r.lay.page + g
  let o := r.ofs i (r.lay.words - 1)
  pageExists p && decide (0x100 ≤ o) && decide (o < 65536) && !inMsix p o && !isCounter p o && !dispElsewhere p o &&
    decide (placeAt p o = some ⟨r, g, i, r.lay.words - 1⟩) && decide (0 < r.lay.words)

/-- A write of word w to the highest word of register r, instance g, index i, commits (R32, R36, R54): the access is taken and the
page is READY. `img` is the image committed, with what the requester has staged below w, and d the device that the commit works
on. -/
def Commits (req : Requester) (r : Reg) (g i w : Nat) (s : State) (d : Dev) (img : Nat) : Prop :=
  let p := r.lay.page + g
  let e := reached p s
  Taken req s ∧ (face p e).ready = true ∧ d = unstage req p (r.ofs i 0) e ∧
    img = commitImg (stagedWords req p (r.ofs i 0) e) (regImg r g i (liveView r i e)) r.lay.words w

/-- Command c, run in state s, is carried out: exec answers a next state, the queue stays as it is, and P holds of the device
afterwards. -/
def Does (c : Instr) (s : State) (P : Dev → Prop) : Prop := ∃ t, exec c s = .next t ∧ t.pending = s.pending ∧ P t.dev

/-- An in-band interrupt that the I3C target sends (R439). -/
def isIbi (o : Out) : Bool := match o with | .ibi _ => true | _ => false

/-- e is d in everything but what the watchers beside a command may move: performance counters, what the EVT evaluates, the
in-band interrupts it sends among what leaves the device, and what that counts, deadlines of the watch entries, and whether a capture has frozen. No register, counter, table or
queue of another block differs. -/
structure Beside (d e : Dev) : Prop where
  kept : { e with
    perf := d.perf, ctrs := d.ctrs, out := d.out, i3c := { e.i3c with ibi := d.i3c.ibi, ibiAt := d.i3c.ibiAt },
    aon := { e.aon with deadline := d.aon.deadline }, cnt := { e.cnt with caps := d.cnt.caps },
    evt := { e.evt with
      req := d.evt.req, pba := d.evt.pba, held := d.evt.held, raised := d.evt.raised, alertN := d.evt.alertN, i3cAt := d.evt.i3cAt } } = d
  counts : ∀ p o, o < 65536 → p ≠ Pg.EVT → p ≠ Pg.MGT → ctr p o e = ctr p o d
  sends : d.out.Sublist e.out ∧ e.out.filter (fun o => !isIbi o) = d.out.filter (fun o => !isIbi o)
  captures : e.cnt.caps.map (fun c => (c.set, c.t)) = d.cnt.caps.map (fun c => (c.set, c.t))

/-- Command c, run in s, leaves the device as x in everything but what the watchers move. -/
def Leaves (c : Instr) (s : State) (x : Dev) : Prop := Does c s fun e => Beside x e

/-- Command c, a write of one register word by req, leaves the device as x, with the word counted in the key windows (R42). -/
def Writes (req : Requester) (c : Instr) (s : State) (x : Dev) : Prop := Leaves c s (keyTick req none x)

/-- What the EVT holds is what its inputs say: the raised groups are those with an unmasked pending source (R446), and ALERT_N is
asserted exactly while EVT_ALERT.EN is 1 and a raised group has ALERT set (R457). -/
def EvtTrue (d : Dev) : Prop :=
  d.evt.raised = raisedGroups d ∧
    d.evt.alertN = (flag EVT_ALERT.EN 0 0 d && (bitsOf 64 (raisedGroups d)).any fun g => flag EVT_GRPg_CFG.ALERT 0 g d)

end Sys2Proof.Safety
end

