-- ==== Sys2Proof/WellFormed.lean ====
section
/-! DEFINITION. Well-formed commands: the limits that the spec sets on what can reach the block, beside the ranges that the types of
the operands hold. A meaning is defined on every command; a sender sends well-formed ones. -/

namespace Sys2Proof.WellFormed

open Sys2Proof.Machine

/-- A Spindle time has less than a second of nanoseconds (R329). -/
def timeOk (t : TimeVal) : Bool := decide (t.ns.toNat < 1000000000)
/-- An address names a word below the highest of a register of several words (R54). -/
def below (addr : Nat) : Bool :=
  match placeAt (addr / 65536) (addr % 65536) with
  | some x => addr % 4 == 0 && decide (x.word + 1 < x.reg.lay.words)
  | none => false
/-- A request is longer than 16 words or crosses a page (R34). -/
def oversized (addr words : Nat) : Bool := decide (16 < words) || decide (65536 < addr % 65536 + 4 * words)
/-- A register with the layout of FP_OWNER is there: FP_CAPS.OWNER is 1 for a Faceplate's (R49). -/
def ownerReg : OwnerReg → Bool
  | .face p => p == .mdl || p == .spn || p == .evt
  | .slice _ => true
  | .mirror _ => true
  | .syncOut => true
/-- A word that a forwarding-table memory has: stages of 196,608 words, buckets below 2^19, NHT indexes below 2^21. -/
def tableWord : TableWord → Bool
  | .lpm _ w => decide (w < 196608)
  | .xmSlot _ b _ => decide (b < 2 ^ 19)
  | .xmStash _ => true
  | .nht _ i => decide (i < 2 ^ 21)
  | .prof _ _ => true
  | .tmpl _ _ => true
/-- A unit of a memory, which is a stage, a half, a table or a bank, and a word of it. -/
def tablePlace : TableMem → Nat → Nat → Bool
  | .lpm, _, w => decide (w < 196608)
  | .xm, u, w => decide (u < 2 ∧ w < 2 ^ 19)
  | .stash, u, w => decide (u = 0 ∧ w < 64)
  | .nht, u, w => decide (u < 4 ∧ w < 2 ^ 21)
  | .prof, u, w => decide (u < 2 ∧ w < 64)
  | .tmpl, u, w => decide (u < 2 ∧ w < 64)
/-- No element stands twice: one request of each port and one release of each party in a cycle (R244, R255). -/
def distinct {α : Type} [DecidableEq α] : List α → Bool
  | [] => true
  | x :: t => !t.contains x && distinct t
/-- A cell has 256 payload bytes, and a CONTROL cell 1 to 32 records (R365). -/
def cellOk (c : Cell) : Bool := c.payload.length == 256 && (c.ctype != 2 || (c.count != 0 && decide (c.count.toNat ≤ 32)))

end Sys2Proof.WellFormed

namespace Sys2Proof

open WellFormed in
/-- Whether a command is well formed. -/
def Instr.wf : Instr → Bool
  | .registerWrite _ addr _ => addr.toNat % 4 == 0
  | .stagedWordWrite _ addr _ => below addr.toNat
  | .lowestWordRead _ addr => addr.toNat % 4 == 0
  | .unmappedAccess _ addr _ => !Machine.pageExists (addr.toNat / 65536)
  | .partialWrite _ addr => addr.toNat % 4 == 0
  | .oversizeRequest addr _ words => oversized addr.toNat words.toNat
  | .ownerClaim _ r id => ownerReg r && id != 0
  | .ownerRelease _ r id => ownerReg r && id != 0
  | .frameReceive _ bytes _ _ ts _ _ _ _ => !bytes.isEmpty && timeOk ts
  | .frameTxStart _ ts pred => timeOk ts && timeOk pred
  | .eccWriteback word => tableWord word
  | .tableScrub mem unit word _ _ => tablePlace mem unit.val word
  | .lockClaim _ _ id => id != 0
  | .lockRelease _ _ id => id != 0
  | .allocCycle _ frees reqs => distinct (frees.map (·.party)) && distinct (reqs.map (·.port))
  | .flitReceive _ sent _ => sent.length == 384
  | .syncLabel _ ms _ => decide (ms.toNat < 1000)
  | .cellReceive _ bytes _ _ => bytes.length == 280
  | .dataCellReceive c => c.ctype == 1 && cellOk c
  | .epochCommit _ _ _ ns => decide (ns.toNat < 1000000000)
  | .pcieLinkUp speed width => speed != 0 && (width == 1 || width == 2 || width == 4 || width == 8)
  | .i3cWrite bytes => !bytes.isEmpty
  | .fuseLoadDone _ _ _ digest _ => digest.length == 48
  | .fpCtrlWrite .. | .blkRst .. | .blkRstDone .. | .fpKeyWrite ..
  | .keyWindowExpire .. | .evtMaskSet .. | .evtMaskClr .. | .evtPendClr ..
  | .evtPendForce .. | .errCodeClear .. | .overrunClear .. | .clockGate ..
  | .clockUngate .. | .bankRetain .. | .bankWake .. | .powerSample ..
  | .glbTempSample .. | .pwrPeakWrite .. | .lpgModeWrite .. | .portEnable ..
  | .portDisable .. | .anResolved .. | .anTimeout .. | .anRestart ..
  | .linkTrained .. | .linkTrainTimeout .. | .cleanLock .. | .alignTimeout ..
  | .linkFault .. | .faultRecover .. | .faultTimeout .. | .faultLockBreak ..
  | .tsFifoPop .. | .saInstall .. | .saRemove .. | .saRead ..
  | .saSetCurrent .. | .saSwitch .. | .verifySend .. | .verifyResponse ..
  | .verifyGiveUp .. | .parseStart .. | .lookupIssue .. | .burlReread ..
  | .nhtLookup .. | .engineDispatch .. | .profileCommit .. | .templateCommit ..
  | .deepParseWrite .. | .hdsTraceArm .. | .lpmInsert .. | .lpmUpdate ..
  | .lpmDelete .. | .lpmFind .. | .lpmLookup .. | .lpmRepair ..
  | .lpmWordFree | .xmInsert .. | .xmUpdate .. | .xmDelete ..
  | .xmFind .. | .xmInvalidate .. | .stashReinsert | .nhtWrite ..
  | .nhtRead .. | .lockTimeout .. | .lockTmoWrite .. | .learnArbitrate ..
  | .flapHoldEnd .. | .ageScanVisit .. | .lrnLogPop .. | .tcamGroupWrite ..
  | .tcamWrite .. | .tcamInvalidate .. | .tcamRead .. | .tcamSearch ..
  | .tcamScrubVisit .. | .tcamInject .. | .egressTcamSearch .. | .brlAssign ..
  | .brlVerify .. | .brlClone .. | .brlClear .. | .replicaRetired ..
  | .burlScrub .. | .bundleIssue .. | .scratchLoadLand .. | .budgetStop ..
  | .verdictRelease .. | .clusterDrained .. | .imemWrite .. | .imemRead ..
  | .engTraceArm .. | .engScrub .. | .egressDispatch | .switchNow ..
  | .switchAt .. | .epochCancel .. | .chassisSwitch .. | .epochSwitch
  | .drainComplete | .drainForce | .prepareTimeout | .readyTimeout
  | .fwTakeover | .fwSwitchTimeout | .fwReady | .mandrelReenter ..
  | .cacheRefill .. | .headCacheRequest .. | .handlesRecord | .bodyRecord
  | .verdictRecord | .verdictApply | .freeChain .. | .poolCfgWrite ..
  | .poolMinReset .. | .cellRead .. | .cellAlloc .. | .cellFree ..
  | .cellForceFree .. | .badfreeLogPop .. | .marchStart .. | .marchDone ..
  | .chkScrub .. | .chkInject .. | .replayTimeout .. | .flitLost ..
  | .wireCal .. | .d2dRegWr .. | .d2dRegRd .. | .d2dRegRsp
  | .eventRecord .. | .doneRecord | .timeRecord | .epochRecord
  | .resetRecord | .abortRecord .. | .egressRecord | .hbmTrainDone ..
  | .hbmFreqWrite .. | .freqSwitch .. | .freqDone .. | .retrain ..
  | .retrainDone .. | .hbmTempSample .. | .hbmTempMaxWrite .. | .spillWrite ..
  | .hbmReadIssue .. | .blockReturn .. | .hbmReadTimeout .. | .returnRetry ..
  | .pcSlowWindow .. | .hbmScrub .. | .hbmInject .. | .admitPacket
  | .qWrite .. | .qRead .. | .qFlush .. | .qClearHwm ..
  | .nodeWrite .. | .nodeRead .. | .nodeClearHwm .. | .meterWrite ..
  | .meterRead .. | .voqDecide .. | .egressDecide .. | .creditGenerate ..
  | .reqTimeout .. | .timeMarker | .timeSet .. | .timeStep ..
  | .timeSlew .. | .timeAdjApply | .slewEnd | .rateWrite ..
  | .srcWrite .. | .ppsInEdge | .holdoverEntry | .syncInEdge
  | .syncPulseOut | .ppsOutPulse | .actArm .. | .actCancel ..
  | .actRead .. | .actionDue | .timerFifoPop .. | .gclWrite ..
  | .gclRead .. | .gateCommit .. | .gateCommitOpen .. | .gateCancel ..
  | .gateSwitch .. | .gateInterval .. | .fabLinkEnable .. | .fabLinkDisable ..
  | .cellLock .. | .cellLockLoss .. | .fabTrainTimeout .. | .helloSend ..
  | .helloReceive .. | .helloTimeout .. | .failedRetry .. | .spareRelease ..
  | .cellReplayTimeout .. | .linkReplayFail .. | .reachReceive .. | .cellSpray
  | .unreachableTimeout .. | .lagCheck | .holeTimeout .. | .creditReqOn ..
  | .creditReqOff .. | .creditGrant .. | .learnMsg .. | .decideMsg ..
  | .ageMsg .. | .removeMsg .. | .epochPrepare .. | .epochReady ..
  | .epochNotReady .. | .epochAbort .. | .statusBeacon | .statusReceive ..
  | .memberTimeout .. | .mgrTimeout | .managerElection | .learnHoldExpire
  | .handover .. | .bfdReceive | .ndRequest | .ipfixSample
  | .bfdTransmit .. | .bfdDetectTimeout .. | .wheelTick .. | .ipfixIdleExport ..
  | .ipfixActiveExport .. | .ipfixTemplateSend | .bfdAdd .. | .bfdMod ..
  | .bfdDel .. | .bfdDelFinish .. | .bfdRead .. | .ndAdd ..
  | .ndDel .. | .ipfixCfg .. | .ipfixFlush .. | .ringDrain
  | .fwVerify .. | .fwStart .. | .wheelClaim .. | .wheelRelease ..
  | .ringEnable .. | .ringDisable .. | .ringDoorbell .. | .cqEnable ..
  | .cqDisable .. | .cqHeadWrite .. | .cqNotify .. | .puntDma ..
  | .injectFetch .. | .dmaRec .. | .dmaRegRd .. | .dmaRegWr ..
  | .dmaMemWr .. | .dmaMemRd .. | .dmaWatchdog .. | .hostError ..
  | .pcieFlr | .pcieHotReset | .pcieLinkDown | .dstateChange ..
  | .bmeChange .. | .msixMaskWrite .. | .i3cSetAddr .. | .i3cRead ..
  | .cccEnec .. | .cccDisec .. | .cccRstdaa | .cccEntdaa ..
  | .cccSetdasa .. | .cccSetnewda .. | .cccSetmwl .. | .cccSetmrl ..
  | .cccGetmwl | .cccGetmrl | .cccGetpid | .cccGetbcr
  | .cccGetdcr | .cccGetstatus | .cccRstact .. | .cccGetRstact
  | .rstactPattern | .ibiRetry | .mgtRstReq .. | .msixDeliver
  | .gapExpire .. | .eoi .. | .queryWrite .. | .queryRead ..
  | .i3cGroupRepeat .. | .aonDeadline .. | .pmeStatusClear | .cntRead ..
  | .cntWrite .. | .cntReadClear .. | .snapCmd .. | .snapCaptureDone
  | .pcClear .. | .pcCapture .. | .pcValWrite .. | .totalsFlush
  | .hwdFlush .. | .ledgerTempSample .. | .hourlyClose | .dailyClose
  | .utcSet .. | .ageMeasure .. | .mramScan .. | .hwdWinRead ..
  | .hwdWinWrite .. | .grantWrite .. | .grantHandoverDone .. | .memTestStart ..
  | .memTestDone .. | .vaultImport .. | .importReadDone .. | .vaultRemove ..
  | .vaultQuery .. | .lcChange .. | .tamperAssert | .tamperWipe
  | .islStop .. | .islStart .. | .islRestop .. | .islandLockLoss ..
  | .islandRelock .. | .refClkLoss .. | .refClkReturn .. | .porNAssert
  | .porNRelease | .aonBrownout | .railLoss | .chipRstNAssert
  | .chipRstNRelease | .glbRstControl .. | .glbRstChip .. | .thermalTrip
  | .tripRelease .. | .ctlRstNAssert | .ctlRstNRelease | .controlResetDone
  | .sramInitDone .. | .d2dTrainDone .. | .serdesCalDone .. | .bootDone
  | .jtagExtest | .jtagIdcode | .jtagSamplePreload | .jtagExtestPulse
  | .jtagExtestTrain | .jtagClamp | .jtagHighz | .jtagBypass
  | .jtagTapReset | .clocksLocked | .frameTxEnd .. | .vddIoLoss
  | .vddIoReturn | .vddAonReturn | .tamperRelease | .aspmL1Entry
  | .aspmL1Exit | .hbmRefreshDue .. => true

end Sys2Proof
end

