-- ==== Sys2Proof/Certificates/Slice0/Obligations.lean ====
section
/-! DEFINITION. The statements about the model: what each command does, what the block keeps, and how the queue is served. -/

open Sys2Proof Sys2Proof.Machine Sys2Proof.Safety

/-- R4, R32, R54, R55. A write of the highest word of a register commits it by access types; a write of another word is staged; a
read of the lowest word answers live and captures the rest. -/
def Obligations.PlainRegisterAccess : Prop :=
  (∀ req r g i (v : BitVec 32) s d img, Lies r g i → Commits req r g i v.toNat s d img → commitFront req r g i img d = none →
    commitTm req r g i img d = none → commitHost req r i img d = none →
    let c : Instr := .registerWrite req (BitVec.ofNat 28 (r.addr g i + 4 * (r.lay.words - 1))) v
    ((∀ x ∈ r.fields, x.acc ≠ .rwx) → Writes req c s (storeFields false r g i img d)) ∧
    ((∃ x ∈ r.fields, x.acc = .rwx) →
      (expertOf (r.lay.page + g) d = true → Writes req c s (storeFields true r g i img d)) ∧
      (expertOf (r.lay.page + g) d = false → Writes req c s (errAt Err.EXPERT_LOCKED r g i d)))) ∧
  (∀ req r g i k (v : BitVec 32) s, let p := r.lay.page + g
    let o := r.ofs i k
    let d := reached p s
    Taken req s → (face p d).ready = true → pageExists p = true → 0x100 ≤ o → o < 65536 → inMsix p o = false → isCounter p o = false →
    placeAt p o = some ⟨r, g, i, k⟩ → k + 1 < r.lay.words →
    Writes req (.stagedWordWrite req (BitVec.ofNat 28 (p * 65536 + o)) v) s
      { d with staged := ins d.staged (stageKey req p) { base := r.ofs i 0, words := ins (stagedWords req p (r.ofs i 0) d) k v.toNat } }) ∧
  (∀ req r g i s, let p := r.lay.page + g
    let o := r.ofs i 0
    let d := reached p s
    let img := regImg r g i (liveView r i d)
    let reply (d : Dev) := emit (.readReply req (p * 65536 + o) (imgWord img 0)) d
    let c : Instr := .lowestWordRead req (BitVec.ofNat 28 (p * 65536 + o))
    Taken req s → pageExists p = true → 0x100 ≤ o → o < 65536 → inMsix p o = false → isCounter p o = false →
    placeAt p o = some ⟨r, g, i, 0⟩ → r ≠ .EVT_QUERY → readEffect r g i d = d →
    (r.lay.words = 1 → Leaves c s (reply d)) ∧
    (r.lay.words ≠ 1 → Leaves c s
      (reply { d with snaps := ins d.snaps (stageKey req p) { base := o, words := imgWords img r.lay.words } })))

/-- R30, R33, R34. A bad access is counted and the first one latches its address; a read answers 0. -/
def Obligations.BadAccesses : Prop :=
  let bad (a : Nat) (d : Dev) : Dev :=
    let d := inc Pg.GLB 4 (rset GLB_BAD_ACCESS.COUNT 0 0 (min (rget GLB_BAD_ACCESS.COUNT 0 0 d + 1) 0xFFFFFFFF) d)
    if flag GLB_BAD_ADDR.VALID 0 0 d then d
    else
      let d := rset GLB_BAD_ADDR.VALID 0 0 1 (rset GLB_BAD_ADDR.ADDR 0 0 a d)
      setFace Pg.GLB { face Pg.GLB d with pend := setBit (face Pg.GLB d).pend 2 } d
  (∀ req (a : BitVec 28) s, Taken req s → pageExists (a.toNat / 65536) = false →
    (∀ v, Writes req (.unmappedAccess req a (some v)) s (bad a.toNat s.dev)) ∧
    Leaves (.unmappedAccess req a none) s (emit (.readReply req a.toNat 0) (bad a.toNat s.dev))) ∧
  (∀ req (a : BitVec 28) s, alive s.dev = true → Writes req (.partialWrite req a) s (bad a.toNat s.dev)) ∧
  (∀ (a : BitVec 28) (n : BitVec 10) s, alive s.dev = true →
    Leaves (.oversizeRequest a true n) s (Nat.repeat (keyTick .pcie none) n.toNat (bad a.toNat s.dev)) ∧
    Leaves (.oversizeRequest a false n) s (emit (.readReply .pcie a.toNat 0) (bad a.toNat s.dev))) ∧
  (let counted (s t : State) : Prop := t.pending = s.pending ∧
      rget GLB_BAD_ACCESS.COUNT 0 0 t.dev = min (rget GLB_BAD_ACCESS.COUNT 0 0 s.dev + 1) 0xFFFFFFFF ∧ flag GLB_BAD_ADDR.VALID 0 0 t.dev = true
   (∀ req (a : BitVec 28) v s, Taken req s → pageExists (a.toNat / 65536) = false →
      ∃ t, Sys2Proof.Machine.exec (.unmappedAccess req a v) s = .next t ∧ counted s t) ∧
   (∀ req (a : BitVec 28) s, alive s.dev = true → ∃ t, Sys2Proof.Machine.exec (.partialWrite req a) s = .next t ∧ counted s t) ∧
   (∀ (a : BitVec 28) write (n : BitVec 10) s, alive s.dev = true →
      ∃ t, Sys2Proof.Machine.exec (.oversizeRequest a write n) s = .next t ∧ counted s t))

/-- R37 to R42. What FP_CTRL, BLK_RST and FP_KEY do to the Faceplate of a block. -/
def Obligations.FaceplateControl : Prop :=
  (∀ req page (w : BitVec 32) s, let p := pageNum page
    let d := reached p s
    let f := face p d
    Taken req s → governor p = p → f.blkRst = false → bit w.toNat 2 = false → (bit w.toNat 0 = true → f.en = false → enRefused p d = 0) →
    Does (.fpCtrlWrite req page w) s fun e =>
      (face p e).en = bit w.toNat 0 ∧ (face p e).lowpwr = bit w.toNat 4 ∧
      (face p e).expert = (bit w.toNat 1 && (f.expert || f.key == .unlocked)) ∧
      (bit w.toNat 1 = true → f.expert = false → f.key ≠ .unlocked →
        (face p e).errCode = Err.EXPERT_LOCKED ∧ (face p e).errOfs = 2)) ∧
  (∀ req page w s, let p := pageNum page
    Taken req s → governor p = p →
    ((face p (reached p s)).en = false → Does (.blkRst req page w) s fun e => (face p e).blkRst = true) ∧
    ((face p (reached p s)).en = true → Does (.blkRst req page w) s fun e =>
      (face p e).blkRst = (face p s.dev).blkRst ∧ (bit w.toNat 0 = true → (face p e).errCode = Err.BAD_ARG ∧ (face p e).errOfs = 2))) ∧
  (∀ page s, let p := pageNum page
    governor p = p → islOn (islandOf p) s.dev = true → (face p s.dev).blkRst = true →
    Does (.blkRstDone page) s fun e => (face p e).blkRst = false ∧ (face p e).enPend = false ∧
      (face p e).en = ((face p s.dev).en || (face p s.dev).enPend) ∧
      ((p < 0xA0 ∨ 0xA4 ≤ p) → (face p s.dev).enPend = false →
        ∀ k v, k / 1024 / 65536 = p → k / 1024 % 65536 < 0x8000 → keepsFld p k = false → look e.flds k v = v)) ∧
  (∀ req page (w : BitVec 32) s, let p := pageNum page
    let k := w.toNat % 65536
    Taken req s → governor p = p → Does (.fpKeyWrite req page w) s fun e =>
      (k = 0xB0A1 → (face p e).key = .armed ∧ (face p e).window = 64) ∧
      (k = 0x1A0B → (face p s.dev).key = .armed → (face p e).key = .unlocked ∧ (face p e).window = 64) ∧
      (k ≠ 0xB0A1 → (k ≠ 0x1A0B ∨ (face p s.dev).key ≠ .armed) → (face p e).key = .idle ∧ (face p e).window = 0)) ∧
  (∀ req (a : BitVec 28) v s q, Taken req s → keyCounts req = true → a.toNat % 65536 < 0x40 → a.toNat % 65536 ≠ 0x08 →
    a.toNat % 65536 ≠ 0x0C → (face q s.dev).key ≠ .idle → (face q s.dev).window ≤ 1 →
    Does (.keyWindowExpire req a v) s fun e => (face q e).key = .idle ∧ (face q e).window = 0)

/-- R5, R40, R45, R46, R48. The Faceplate words of events, errors and the budget. -/
def Obligations.FaceplateEvents : Prop :=
  ∀ req page (w : BitVec 32) s, let p := pageNum page
  let d := reached p s
  let f := face p d
  let mine := if req = .service then evtSources p else clrBits (evtSources p) (evtService p)
  Taken req s →
    Writes req (.evtMaskSet req page w) s (setFace p { f with mask := f.mask ||| (w.toNat &&& mine) } d) ∧
    Writes req (.evtMaskClr req page w) s (setFace p { f with mask := clrBits f.mask (w.toNat &&& mine) } d) ∧
    (onTmDie p = false → Writes req (.evtPendClr req page w) s (setFace p { f with pend := clrBits f.pend w.toNat } d)) ∧
    (onTmDie p = true → Writes req (.evtPendClr req page w) s (setFace p { f with pend := clrBits f.pend w.toNat }
      { d with evt := { d.evt with tmPend := put d.evt.tmPend p 0 (clrBits (look d.evt.tmPend p 0) w.toNat) } })) ∧
    (let x := setFace p { f with pend := f.pend ||| (w.toNat &&& evtService p) } d
     (w.toNat &&& clrBits (evtSources p) (evtService p) = 0 → Writes req (.evtPendForce req page w) s x) ∧
     (w.toNat &&& clrBits (evtSources p) (evtService p) ≠ 0 → Writes req (.evtPendForce req page w) s (err p Err.BAD_ARG 0x28 x))) ∧
    Writes req (.errCodeClear req page w) s (setFace p { f with errOvf := false, errOfs := 0, errCode := 0 } d) ∧
    Writes req (.overrunClear req page w) s (setFace p { f with overrun := 0 } d)

/-- R49, and R50 for the identities refused: a claim, a release and a write without CAS, of FP_OWNER and of the registers with its
layout. -/
def Obligations.OwnerClaimsAndReleases : Prop :=
  (∀ req page (id : BitVec 16) s, let p := pageNum page
    let d := reached p s
    Taken req s → id = 0 ∨ idRefused req id.toNat = true → ∀ c ∈ [Instr.ownerClaim req (.face page) id, .ownerRelease req (.face page) id],
      Writes req c s (err p Err.BAD_ARG 0x34 d)) ∧
  (∀ req page (v : BitVec 32) s, let p := pageNum page
    let d := reached p s
    Taken req s → bit v.toNat 31 = false → Writes req (.registerWrite req (BitVec.ofNat 28 (p * 65536 + 0x34)) v) s (setFace p (face p d) d)) ∧
  (∀ req page (id : BitVec 16) s, let p := pageNum page
    let d := reached p s
    let f := face p d
    Taken req s → id ≠ 0 → idRefused req id.toNat = false →
      (f.owner = 0 ∨ f.owner = id.toNat → Writes req (.ownerClaim req (.face page) id) s (setFace p { f with owner := id.toNat } d)) ∧
      (f.owner ≠ 0 → f.owner ≠ id.toNat → Writes req (.ownerClaim req (.face page) id) s (err p Err.OWNER_BUSY 0x34 d)) ∧
      (f.owner = id.toNat → Writes req (.ownerRelease req (.face page) id) s (setFace p { f with owner := 0 } d)) ∧
      (f.owner ≠ id.toNat → Writes req (.ownerRelease req (.face page) id) s (err p Err.NOT_OWNER 0x34 d))) ∧
  (∀ req o (id : BitVec 16) s r i d img, (o, r, i) ∈ [(OwnerReg.syncOut, Reg.SPN_SYNC_OUT_OWNER, 0)] ++
        (List.finRange 16).map (fun k => (.slice k, .TCM_SLICEk_OWNER, k.val)) ++ (List.finRange 16).map (fun k => (.mirror k, .TMS_MIRk_OWNER, k.val)) →
    (∀ v : BitVec 32, Commits req r 0 i v.toNat s d img → bit v.toNat 31 = false →
      Writes req (.registerWrite req (BitVec.ofNat 28 (r.addr 0 i)) v) s (rset ⟨r, 0, 16⟩ 0 i (lockHolder r i d) d)) ∧
    (id = 0 ∨ idRefused req id.toNat = true →
      (Commits req r 0 i (2 ^ 31 + id.toNat) s d img → Writes req (.ownerClaim req o id) s (errAt Err.BAD_ARG r 0 i d)) ∧
      (Commits req r 0 i (2 ^ 31 + 2 ^ 30 + id.toNat) s d img → Writes req (.ownerRelease req o id) s (errAt Err.BAD_ARG r 0 i d))) ∧
    (id ≠ 0 → idRefused req id.toNat = false →
      (Commits req r 0 i (2 ^ 31 + id.toNat) s d img →
        (lockHolder r i d = 0 ∨ lockHolder r i d = id.toNat → Writes req (.ownerClaim req o id) s (rset ⟨r, 0, 16⟩ 0 i id.toNat d)) ∧
        (lockHolder r i d ≠ 0 → lockHolder r i d ≠ id.toNat → Writes req (.ownerClaim req o id) s (errAt Err.OWNER_BUSY r 0 i d))) ∧
      (Commits req r 0 i (2 ^ 31 + 2 ^ 30 + id.toNat) s d img →
        (lockHolder r i d = id.toNat → Writes req (.ownerRelease req o id) s (rset ⟨r, 0, 16⟩ 0 i 0 d)) ∧
        (lockHolder r i d ≠ id.toNat → Writes req (.ownerRelease req o id) s (errAt Err.NOT_OWNER r 0 i d)))))

/-- R24 to R26, R497, R498, R515, R578. -/
def Obligations.ClocksBanksAndPower : Prop :=
  (∀ (n : Fin 128) s, islState n.val s.dev = 2 → n.val ≠ 100 → flag CLK_X_ISLn.FORCE_ON 0 n.val s.dev = false →
    (∀ p ∈ allPages, islandOf p = n.val → lowpwr p s.dev = true) → islWork n.val s.dev = false →
    Leaves (.clockGate n) s (rset CLK_ISLn.STATE 0 n.val 3 s.dev)) ∧
  (∀ (n : Fin 128) s, islState n.val s.dev = 3 → Leaves (.clockUngate n) s (rset CLK_ISLn.STATE 0 n.val 2 s.dev)) ∧
  (∀ place (b : Fin 16) s, mayRetain (placeNum place) b.val s.dev = true → Does (.bankRetain place b) s fun e =>
    look e.banks.retained (placeNum place) 0 = setBit (look s.dev.banks.retained (placeNum place) 0) b.val ∧ Beside { s.dev with banks := e.banks } e) ∧
  (∀ place (b : Fin 16) cause s, let k := placeNum place
    bit (look s.dev.banks.retained k 0) b.val = true →
    let x := bankAwake k b.val s.dev
    ((cause = .processor ∨ 88 ≤ k) → Leaves (.bankWake place b cause) s x) ∧
    (cause ≠ .processor → k < 88 → Leaves (.bankWake place b cause) s (errAt Err.RETENTION_WAKE .MEM_GRANTr 0 k (inc Pg.MEM 2 x)))) ∧
  (∀ (total : BitVec 24) (rails : List (BitVec 24)) s d, Runs 99 s d → d.hwd.pwrAt + 1000000 ≤ d.hwd.aonNs → rails.length = 10 → Does (.powerSample total rails) s fun e =>
    rget GLB_PWR_TOTAL.MW 0 0 e = total.toNat ∧ rget GLB_PWR_TOTAL.SEQ 0 0 e = (rget GLB_PWR_TOTAL.SEQ 0 0 d + 1) % 256 ∧
    rget GLB_PWR_PEAK.MW 0 0 e = max (rget GLB_PWR_PEAK.MW 0 0 d) total.toNat ∧
    ∀ k x, rails[k]? = some x → rget GLB_PWR_RAILk.MW 0 k e = x.toNat) ∧
  (∀ (fe tm : BitVec 8) s d, Runs 99 s d → d.sys.dieAt + 1000000 ≤ d.hwd.aonNs → Does (.glbTempSample fe tm) s fun e =>
    rget GLB_TEMP.FE 0 0 e = fe.toNat ∧ rget GLB_TEMP.TM 0 0 e = tm.toNat ∧
    e.sys.hotFe = decide (105 < fe.toInt) ∧ e.sys.hotTm = decide (105 < tm.toInt) ∧
    ((d.sys.hotFe ≠ decide (105 < fe.toInt) ∨ d.sys.hotTm ≠ decide (105 < tm.toInt)) → bit (face Pg.GLB e).pend 1 = true)) ∧
  (∀ req w s d img, Commits req .GLB_PWR_PEAK 0 0 w.toNat s d img →
    Writes req (.pwrPeakWrite req w) s (rset GLB_PWR_PEAK.MW 0 0 (rget GLB_PWR_TOTAL.MW 0 0 d) d))

/-- R57, R59, R60. The link machine up to ALIGN. -/
def Obligations.LinkBringUp : Prop :=
  let into (n st : Nat) (d : Dev) := rset LPG_PORTn_STAT.LINK_STATE (n / 4) (n % 4) st
    (setPort n { port n d with clean := false, expired := false, anWait := false } d)
  (∀ req (g : Fin 32) (w : BitVec 32) s d img, Commits req .LPG_MODE g.val 0 w.toNat s d img →
    let m := LPG_MODE.MODE.of img
    let partner := if g.val % 2 = 0 then g.val + 1 else g.val - 1
    ((groupEn g.val d = false ∧ lpgMode g.val d ≤ 4 ∧ lpgMode partner d ≤ 4 ∧ m ≤ 4) ∨
      (groupEn g.val d = false ∧ groupEn partner d = false ∧
        ((m ≤ 4 ∧ (g.val % 2 = 0 ∨ lpgMode partner d ≠ 5)) ∨ (m = 6 ∧ g.val % 2 = 1 ∧ (lpgMode partner d = 0 ∨ lpgMode partner d = 5)) ∨
          (m = 5 ∧ g.val % 2 = 0 ∧ lpgMode partner d = 6))) →
      Writes req (.lpgModeWrite req g w) s (rset LPG_MODE.MODE g.val 0 m d)) ∧
    ((groupEn g.val d = true ∨ 6 < m ∨ (m = 5 ∧ g.val % 2 = 1) ∨ (m = 6 ∧ g.val % 2 = 0)) →
      Writes req (.lpgModeWrite req g w) s (errAt Err.BAD_ARG .LPG_MODE g.val 0 d))) ∧
  (∀ req (n : Fin 128) w s d img, Commits req .LPG_PORTn_CFG (n.val / 4) (n.val % 4) (force w [(0, 0, 1)]) s d img →
    let mf := LPG_PORTn_CFG.MAX_FRAME.of img
    64 ≤ mf → mf ≤ 9216 → LPG_PORTn_CFG.MEDIA.of img ≠ 3 → portExists n.val d = true → pflag LPG_PORTn_CFG.EN n.val d = false →
    linkState n.val d = 0 → blkEn (Pg.LPG + n.val / 4) d = true → (∀ l ∈ portLanes n.val d, bit d.sys.badLine (physLane l d) = false) →
    Does (.portEnable req n w) s fun e => pflag LPG_PORTn_CFG.EN n.val e = true ∧ pget LPG_PORTn_CFG.MAX_FRAME n.val e = mf ∧
      linkState n.val e = (if anEn n.val e then 1 else if ltEn n.val e then 2 else 3) ∧ (port n.val e).idle = false) ∧
  (∀ req (n : Fin 128) w s d img, Commits req .LPG_PORTn_CFG (n.val / 4) (n.val % 4) (force w [(0, 0, 0)]) s d img →
    64 ≤ LPG_PORTn_CFG.MAX_FRAME.of img → LPG_PORTn_CFG.MAX_FRAME.of img ≤ 9216 → LPG_PORTn_CFG.MEDIA.of img ≠ 3 →
    pflag LPG_PORTn_CFG.EN n.val d = true →
    Does (.portDisable req n w) s fun e => pflag LPG_PORTn_CFG.EN n.val e = false ∧ linkState n.val e = 0 ∧
      pflag LPG_PORTn_STAT.LINK_UP n.val e = false ∧ (port n.val e).idle = true ∧ (port n.val e).txNow = none ∧
      (∀ f, (port n.val d).txNow = some f → Out.frameAbort n.val ∈ e.out)) ∧
  (∀ (n : Fin 128) s d, Line n.val s d → linkState n.val d = 1 →
    Leaves (.anResolved n) s (into n.val (if ltEn n.val d then 2 else 3) (rset LPG_PORTn_STAT.AN_DONE (n.val / 4) (n.val % 4) 1 d))) ∧
  (∀ (n : Fin 128) s d, Runs (n.val / 4) s d → linkState n.val d = 1 →
    Leaves (.anTimeout n) s (setPort n.val { port n.val d with anWait := true } d) ∧
    Leaves (.anRestart n) s (setPort n.val { port n.val d with anWait := false } d)) ∧
  (∀ (n : Fin 128) s d, Line n.val s d → linkState n.val d = 2 → Leaves (.linkTrained n) s (into n.val 3 d)) ∧
  (∀ (n : Fin 128) s d, Runs (n.val / 4) s d → linkState n.val d = 2 →
    Leaves (.linkTrainTimeout n) s (into n.val (if anEn n.val d then 1 else 2) d))

/-- R60, R61, R75. The link machine from ALIGN on, and the verification of preemption. -/
def Obligations.LinkUpAndFaults : Prop :=
  let into (n st : Nat) (d : Dev) := rset LPG_PORTn_STAT.LINK_STATE (n / 4) (n % 4) st
    (setPort n { port n d with clean := false, expired := false, anWait := false } d)
  let upWith (n : Nat) (e : Dev) : Prop := linkState n e = 4 ∧ pflag LPG_PORTn_STAT.LINK_UP n e = true ∧
    pget LPG_PORTn_STAT.LOCAL_FAULT n e = 0 ∧ pget LPG_PORTn_STAT.REMOTE_FAULT n e = 0 ∧ pget LPG_PORTn_STAT.HI_SER n e = 0
  let changed (n : Nat) (d e : Dev) : Prop := pflag LPG_PORTn_STAT.LINK_UP n d ≠ pflag LPG_PORTn_STAT.LINK_UP n e →
    bit (face (Pg.LPG + n / 4) e).pend (n % 4) = true
  (∀ (n : Fin 128) s d, Line n.val s d →
    (linkState n.val d = 3 → Does (.cleanLock n) s fun e => upWith n.val e ∧ changed n.val d e) ∧
    (linkState n.val d = 5 → Does (.cleanLock n) s fun e => linkState n.val e = 5 ∧ (port n.val e).clean = true) ∧
    (linkState n.val d = 5 → (port n.val d).clean = true → Does (.faultRecover n) s fun e => upWith n.val e ∧ changed n.val d e)) ∧
  (∀ (n : Fin 128) s d, Runs (n.val / 4) s d →
    (linkState n.val d = 3 → Leaves (.alignTimeout n) s (into n.val (if anEn n.val d then 1 else if ltEn n.val d then 2 else 3) d)) ∧
    (linkState n.val d = 5 → (port n.val d).clean = true →
      Leaves (.faultTimeout n) s (setPort n.val { port n.val d with expired := true } d)) ∧
    (linkState n.val d = 5 → (port n.val d).clean = false → Leaves (.faultTimeout n) s (into n.val (if anEn n.val d then 1 else 3) d)) ∧
    (linkState n.val d = 5 → (port n.val d).clean = true → (port n.val d).expired = true →
      Leaves (.faultLockBreak n) s (into n.val (if anEn n.val d then 1 else 3) d)) ∧
    (linkState n.val d = 5 → (port n.val d).clean = false ∨ (port n.val d).expired = false →
      Leaves (.faultLockBreak n) s (setPort n.val { port n.val d with clean := false } d)) ∧
    (∀ loc rem ser, linkState n.val d = 4 → Does (.linkFault n loc rem ser) s fun e =>
      linkState n.val e = 5 ∧ pflag LPG_PORTn_STAT.LINK_UP n.val e = false ∧ pget LPG_PORTn_STAT.LOCAL_FAULT n.val e = b2n loc ∧
      pget LPG_PORTn_STAT.REMOTE_FAULT n.val e = b2n rem ∧ pget LPG_PORTn_STAT.HI_SER n.val e = b2n ser ∧
      (port n.val e).txNow = none ∧ changed n.val d e ∧ (∀ f, (port n.val d).txNow = some f → Out.frameAbort n.val ∈ e.out))) ∧
  (∀ (n : Fin 128) s d, Runs (n.val / 4) s d → linkState n.val d = 4 → pflag LPG_PORTn_PREEMPT.EN n.val d = true →
    pflag LPG_PORTn_PREEMPT.VERIFY_EN n.val d = true → (port n.val d).verified = false → (port n.val d).attempts < 3 →
    (port n.val d).attempts = 0 ∨ (port n.val d).verAt + pget LPG_PORTn_PREEMPT.VERIFY_TIME n.val d * 1000000 ≤ d.mono →
    Leaves (.verifySend n) s
      (emit (.verifyFrame n.val) (setPort n.val { port n.val d with attempts := (port n.val d).attempts + 1, verAt := d.mono } d))) ∧
  (∀ (n : Fin 128) s d, Line n.val s d → pflag LPG_PORTn_PREEMPT.EN n.val d = true → pflag LPG_PORTn_PREEMPT.VERIFY_EN n.val d = true →
    1 ≤ (port n.val d).attempts → (port n.val d).attempts ≤ 3 →
    Leaves (.verifyResponse n) s
      (rset LPG_PORTn_STAT.PREEMPT_ACTIVE (n.val / 4) (n.val % 4) 1 (setPort n.val { port n.val d with verified := true } d))) ∧
  (∀ (n : Fin 128) s d, Runs (n.val / 4) s d → pflag LPG_PORTn_PREEMPT.EN n.val d = true → pflag LPG_PORTn_PREEMPT.VERIFY_EN n.val d = true →
    (port n.val d).verified = false → (port n.val d).attempts = 3 →
    (port n.val d).verAt + pget LPG_PORTn_PREEMPT.VERIFY_TIME n.val d * 1000000 ≤ d.mono →
    let x := setPort n.val { port n.val d with attempts := 4 } d
    let p := Pg.LPG + n.val / 4
    Leaves (.verifyGiveUp n) s (setFace p { face p x with pend := setBit (face p x).pend (24 + n.val % 4) } x))

/-- R62 to R73. Frames and security associations of the line ports. -/
def Obligations.LineFramesAndKeys : Prop :=
  (∀ (n : Fin 128) bs ok sec ts fr smd corr unc s d, Line n.val s d → linkState n.val d = 4 → blkEn (Pg.LPG + n.val / 4) d = true →
    let c : Instr := .frameReceive n bs ok sec ts fr corr unc smd
    let len := bs.length + 4
    let good := ok = true ∧ unc = 0
    let max := pget LPG_PORTn_CFG.MAX_FRAME n.val d
    let a := portInc n.val 0x058 smd (portInc n.val 0x068 fr (portInc n.val 0x048 unc (portInc n.val 0x040 corr d)))
    let b := if fr = 0 then a else portInc n.val (if ok && unc == 0 then 0x060 else 0x050) 1 a
    let r := msecReceive n.val bs sec b
    (max < len → Leaves c s (drop 0x02 (portInc n.val 0x028 1 b))) ∧
    (len ≤ max → len < 64 → Leaves c s (drop 0x03 (portInc n.val 0x030 1 b))) ∧
    (len ≤ max → 64 ≤ len → ¬good → Leaves c s (drop 0x01 (portInc n.val 0x020 1 b))) ∧
    (len ≤ max → 64 ≤ len → good → beAt bs 12 2 = 0x8808 → Leaves c s (drop 0x07 (portInc n.val 0x038 1 b))) ∧
    (len ≤ max → 64 ≤ len → good → beAt bs 12 2 ≠ 0x8808 →
      (r.1.1 ≠ 0 → Leaves c s (drop r.1.1 (portInc n.val r.1.2 1 r.2.2))) ∧
      (r.1.1 = 0 → let x := groupCount n.val 0x010 bs (portInc n.val 0x008 (macOctets bs.length) (portInc n.val 0x000 1 r.2.2))
        fifoBytes (fifoOf n.val) x + r.2.1.length ≤ 32768 →
        Leaves c s (setFifo (fifoOf n.val) (fifo (fifoOf n.val) x ++ [{ port := n.val, bytes := r.2.1, pktTime := rxTime n.val ts x }]) x)) ∧
      (pflag LPG_PORTn_MSEC.EN n.val d = false → r = ((0, 0), bs, b) ∧
        (fifoBytes (fifoOf n.val) d + bs.length ≤ 32768 → Does c s fun e => ∃ t,
          fifo (fifoOf n.val) e = fifo (fifoOf n.val) d ++ [{ port := n.val, bytes := bs, pktTime := t }])))) ∧
  (∀ (n : Fin 128) ts pred s d f l, Line n.val s d → linkState n.val d = 4 → blkEn (Pg.LPG + n.val / 4) d = true →
    (port n.val d).txNow = none → (port n.val d).txPre = none → (port n.val d).txWait = f :: l → gateLets n.val f d = true → f.fragment = false →
    pflag LPG_PORTn_STAT.PREEMPT_ACTIVE n.val d = false → pflag LPG_PORTn_MSEC.EN n.val d = false →
    Does (.frameTxStart n ts pred) s fun e => (port n.val e).txWait = l ∧ (port n.val e).txNow.isSome = true ∧
      ∃ bs t, Out.frame n.val bs none t ∈ e.out ∧ (f.tso = none → bs = f.bytes)) ∧  (∀ (n : Fin 128) ts pred s d f x, Line n.val s d → linkState n.val d = 4 → blkEn (Pg.LPG + n.val / 4) d = true → txPick n.val d = some (f, x) →
    (f.fragment = true → Leaves (.frameTxStart n ts pred) s (portInc n.val 0x0A0 1 (setPort n.val { x with txNow := some f } d))) ∧
    (f.fragment = false → pflag LPG_PORTn_MSEC.EN n.val d = false → Does (.frameTxStart n ts pred) s fun e =>
      (∃ g, (port n.val e).txNow = some g ∧ g.cls = f.cls ∧ g.sc = f.sc ∧ g.msec = 0 ∧ (f.tso = none → g.bytes = f.bytes) ∧
        ∃ t, Out.frame n.val g.bytes none t ∈ e.out)) ∧
    (f.fragment = false → pflag LPG_PORTn_MSEC.EN n.val d = true → ∀ i, saUsable n.val f.sc (setPort n.val x d) = some i →
      Does (.frameTxStart n ts pred) s fun e =>
        (saOf n.val true i e).nextPn = (saOf n.val true i d).nextPn + 1 ∧
        ∃ bs t, Out.frame n.val bs (some ((saOf n.val true i d).sci, i % 4, (saOf n.val true i d).nextPn)) t ∈ e.out) ∧
    (f.fragment = false → pflag LPG_PORTn_MSEC.EN n.val d = true → saUsable n.val f.sc (setPort n.val x d) = none →
      Leaves (.frameTxStart n ts pred) s (drop 0x08 (portInc n.val 0x0C0 1 (setPort n.val x d))))) ∧
  (∀ req (n : Fin 128) s tag sec ns frac t, Taken req s → (port n.val s.dev).fifo = (tag, sec, ns, frac) :: t →
    Does (.tsFifoPop req n) s fun e => (port n.val e).fifo = t ∧ pget LPG_PORTn_TS_CNT.LEVEL n.val e = t.length % 128 ∧
      pget LPG_PORTn_TS_FIFO.VALID n.val e = 1 ∧ pget LPG_PORTn_TS_FIFO.TAG n.val e = tag % 2 ^ 16 ∧
      pget LPG_PORTn_TS_FIFO.SEC n.val e = sec % 2 ^ 48 ∧ pget LPG_PORTn_TS_FIFO.NS n.val e = ns % 2 ^ 30 ∧
      Out.readReply req (Reg.addr .LPG_PORTn_TS_FIFO (n.val / 4) (n.val % 4)) (ns % 2 ^ 30) ∈ e.out) ∧
  (∀ req (g : Fin 32) w s d img (k : Nat), Commits req .LPG_SA_CMD g.val 0 (force w [(31, 31, 1), (29, 28, k)]) s d img →
    let n := 4 * g.val + LPG_SA_CMD.PORT.of img
    let tx := LPG_SA_CMD.DIR.on img
    let i := LPG_SA_CMD.SA.of img
    let x := storeFields false .LPG_SA_CMD g.val 0 img d
    let old := saOf n tx i d
    let dat := regImg .LPG_SA_DATA g.val 0 d
    flag LPG_SA_CMD.GO g.val 0 d = false → (tx = true → (port n d).txNow = none) →
    (k = 0 → (tx = true → saIsCurrent n i d = false) → ∀ key, saKey n (LPG_SA_DATA.KEY_HANDLE.of dat) d = some key →
      Writes req (.saInstall req g w) s (setSa n tx i {
        valid := true, handle := LPG_SA_DATA.KEY_HANDLE.of dat, ssci := LPG_SA_DATA.SSCI.of dat,
        nextPn := LPG_SA_DATA.NEXT_PN.of dat, sci := LPG_SA_DATA.SCI.of dat, key := key, nearFired := false } x)) ∧
    (k = 0 → (tx = true → saIsCurrent n i d = false) → saKey n (LPG_SA_DATA.KEY_HANDLE.of dat) d = none →
      Writes req (.saInstall req g w) s (errAt 0x20 .LPG_SA_CMD g.val 0 x)) ∧
    (k = 1 → (tx = true → saIsCurrent n i d = false) →
      Writes req (.saRemove req g w) s (setSa n tx i { old with valid := false, key := [] } x)) ∧
    (tx = true → saIsCurrent n i d = true → (k = 0 → Writes req (.saInstall req g w) s (errAt 0x21 .LPG_SA_CMD g.val 0 x)) ∧
      (k = 1 → Writes req (.saRemove req g w) s (errAt 0x21 .LPG_SA_CMD g.val 0 x))) ∧
    (k = 2 → Does (.saRead req g w) s fun e => rget LPG_SA_DATA.VALID g.val 0 e = b2n old.valid ∧
      rget LPG_SA_DATA.KEY_HANDLE g.val 0 e = old.handle % 2 ^ 16 ∧ rget LPG_SA_DATA.SSCI g.val 0 e = old.ssci % 2 ^ 32 ∧
      rget LPG_SA_DATA.AN g.val 0 e = i % 4 ∧ rget LPG_SA_DATA.NEXT_PN g.val 0 e = old.nextPn % 2 ^ 64 ∧
      rget LPG_SA_DATA.SCI g.val 0 e = old.sci % 2 ^ 64 ∧ e.ports = d.ports) ∧
    (k = 3 → tx = true → old.valid = true →
      Writes req (.saSetCurrent req g w) s (setPort n { port n d with
        cur := ins (port n d).cur (i / 4) i, exh := (port n d).exh.filter (· != i / 4) } x)) ∧
    (k = 3 → tx = true → old.valid = false → Writes req (.saSetCurrent req g w) s (errAt Err.NOT_READY .LPG_SA_CMD g.val 0 x))) ∧
  (∀ req (g : Fin 32) w s d img (k : Nat), Commits req .LPG_SA_CMD g.val 0 (force w [(31, 31, 1), (29, 28, k)]) s d img → k < 4 →
    let n := 4 * g.val + LPG_SA_CMD.PORT.of img
    LPG_SA_CMD.DIR.on img = true → (port n d).txNow.isSome = true → flag LPG_SA_CMD.GO g.val 0 d = false →
    Writes req (match k with | 0 => .saInstall req g w | 1 => .saRemove req g w | 2 => .saRead req g w | _ => .saSetCurrent req g w) s
      (rset LPG_SA_CMD.GO g.val 0 1 (setPort n { port n d with cmd := some (img, regImg .LPG_SA_DATA g.val 0 d) }
        (storeFields false .LPG_SA_CMD g.val 0 img d)))) ∧
  (∀ (n : Fin 128) (sc : Fin 16) s d i, Runs (n.val / 4) s d → (port n.val d).txNow = none → find? (port n.val d).cur sc.val = some i →
    (saOf n.val true i d).valid = true → lastPn n.val d ≤ (saOf n.val true i d).nextPn → (port n.val d).exh.contains sc.val = false →
    let j := 4 * sc.val + (i + 1) % 4
    let fired (b : Nat) (x : Dev) : Dev :=
      let p := Pg.LPG + n.val / 4
      setFace p { face p x with pend := setBit (face p x).pend (b + n.val % 4) } x
    ((saOf n.val true j d).valid = true → pflag LPG_PORTn_MSEC.TX_NEXT_ARM n.val d = true →
      Leaves (.saSwitch n sc) s (fired 16 (setPort n.val { port n.val d with cur := ins (port n.val d).cur sc.val j } d))) ∧
    ((saOf n.val true j d).valid = false ∨ pflag LPG_PORTn_MSEC.TX_NEXT_ARM n.val d = false →
      Leaves (.saSwitch n sc) s (fired 20 (setPort n.val { port n.val d with exh := sc.val :: (port n.val d).exh } d))))

/-- R83 to R111, R129, R150, R168, R177. From the FIFO to the engine, and the tables of the Headstock. -/
def Obligations.PassesAndProfiles : Prop :=
  (∀ (k : Fin 34) s d f rest h hs, Runs 32 s d → blkEn Pg.HDS d = true → ingressOpen d = true → slotMay k.val d = true →
    fifo k.val d = f :: rest → f.port < 256 → curBank d < 2 →
    look d.srcCache (srcOf f.port) [] = h :: hs → Does (.parseStart k) s fun e =>
      fifo k.val e = rest ∧ look e.srcCache (srcOf f.port) [] = hs ∧ e.head.nextPass = d.head.nextPass + 1 ∧
      (let prof := rget HDS_PORTn_CFG.PROFILE 0 f.port d
       let p := parsePacket (parseCfg f.port d) f.bytes (rget HDS_PORTn_CFG.START_TYPE 0 f.port d)
       profEcc (curBank d) prof d = false → flag (HDS_PROF.VALID (curBank d)) 0 prof d = true → parseDrop p f.port d = 0 →
        ∃ x, getPass d.head.nextPass e = some x ∧ x.stage = .parsed ∧ x.bytes = f.bytes ∧ x.prof = prof ∧ x.egress = false ∧
          x.pstart = p.pstart ∧ inflight (curBank d) e = (inflight (curBank d) d + 1) % 2 ^ 24)) ∧
  (∀ n tw bw corr s d p, Runs 32 s d → getPass n d = some p → p.egress = false → p.stage = .parsed → Does (.lookupIssue n tw bw corr) s fun e =>
      ∃ q, getPass n e = some q ∧ q.bytes = p.bytes ∧ q.prof = p.prof ∧
        q.stage = (if (nhtSlot p.bank p.prof d).isSome then .nht else .ready) ∧
        (∀ key, p.keys = [some key] → rget (HDS_PROF.KIND p.bank 0) 0 p.prof d = 1 →
          (∀ j < 6, j ≠ 0 → rget (HDS_PROF.KIND p.bank j) 0 p.prof d = 0) → blkEn Pg.LPM d = true →
          let t := rget (HDS_PROF.ARG p.bank 0) 0 p.prof d % 2
          lpmDamaged t key d = false → PX.LPM_NH.get q.pcx = (lpmLookup t key d).2.1 % 2 ^ 21)) ∧
  (∀ n s d p, Runs 32 s d → getPass n d = some p → p.egress = false → p.stage = .nht → Does (.nhtLookup n) s fun e =>
      ∃ q, getPass n e = some q ∧ q.stage = .ready ∧ q.bytes = p.bytes ∧
        (nhtSlot p.bank p.prof d = some 0 → blkEn Pg.NHT d = true → (∃ k < 6, rget (HDS_PROF.KIND p.bank k) 0 p.prof d = 1) →
          let r := nhtResolve (PX.LPM_NH.get p.pcx) (PX.HASH.get p.pcx) (PX.CLASS.get p.pcx) d
          (∀ y qid, r = .ok y qid → PX.QID.get q.pcx = qid % 2 ^ 19 ∧ PX.LPM_NH.get q.pcx = y % 2 ^ 21) ∧
          (∀ code, r = .mark code → PX.DROP.get q.pcx = 1) ∧
          (∀ w, r = .ecc w → PX.DROP.get q.pcx = 1 ∧ flag NHT_ECC_ADDR.VALID 0 0 e = true))) ∧
  (∀ n s d p c, Runs (passIsland n s.dev) s d → getPass n d = some p → p.stage = .ready →
    (look d.disp.queues p.rq []).length < rget ENG_DISP_CFG.RQ_DEPTH 0 0 d → heldCount p.dir d < 8192 → pickCluster p.dir d = some c →
    (p.egress = false → Does (.engineDispatch n) s fun e => look e.disp.queues p.rq [] = look d.disp.queues p.rq [] ++ [n] ∧
      ∃ q, getPass n e = some q ∧ q.cluster = c ∧ q.engine = pickEngine c d ∧ q.win = loadWindow false p.bytes p.winBase ∧
        (let ent := bits (bundleAt c p.bank (p.prof / 8) d) (16 * (p.prof % 8) + 15) (16 * (p.prof % 8))
         q.pc = ent % 2048 ∧
         (badBundle c p.bank (p.prof / 8) d = none →
           (bit ent 15 = true → 17 ≤ ent % 2048 → q.stage = .running) ∧
           (bit ent 15 = false ∨ ent % 2048 < 17 → q.stage = .held ∧ q.verdict = some (.drop 0x43))) ∧
         (badBundle c p.bank (p.prof / 8) d ≠ none → q.stage = .held ∧ q.verdict = some (.drop 0x44)))) ∧
    (p.egress = true → flag TLS_PORTn_CFG.BYPASS 0 p.egPort d = false → Does (.engineDispatch n) s fun e =>
      look e.disp.queues p.rq [] = look d.disp.queues p.rq [] ++ [n] ∧
      ∃ q, getPass n e = some q ∧ q.cluster = c ∧ q.win = loadWindow true p.bytes p.winBase ∧ q.prof = rget TLS_PORTn_CFG.EPROF 0 p.egPort d ∧
        bits q.ctx 177 177 = curBank d % 2 ∧ bits q.ctx 175 160 = curSeq d % 2 ^ 16)) ∧
  (∀ (r : Fin 24) (w : BitVec 16) s d q, Runs 32 s d → (replState r.val d = 2 ∨ replState r.val d = 3) →
    (verified (replBank r.val d) d).find? (fun q => q != r.val && !(repl q d).bad.contains w.toNat) = some q →
    let x := repl r.val d
    Leaves (.burlReread r w) s (inc Pg.BRL 3 (setRepl r.val
      { x with mem := put x.mem w.toNat 0 (look (repl q d).mem w.toNat 0), bad := x.bad.filter (· != w.toNat) } d))) ∧
  (∀ req (b : Fin 2) (i : Fin 64) w s d img, let r : Reg := if b.val = 0 then .HDS_PROFA else .HDS_PROFB
    let c : Instr := .profileCommit req b i w
    Commits req r 0 i.val w.toNat s d img → bits (wordOf img 7) 29 27 ≠ 7 →
    let wide := (List.range 6).any fun k => slotTooWide (fun t => regImg (tmplReg b.val) 0 t d) (wordOf img k)
    (bankBusy b.val d = true → Writes req c s (errAt Err.EPOCH_BUSY r 0 i.val d)) ∧
    (bankBusy b.val d = false → profBad img = true → Writes req c s (errAt Err.BAD_ARG r 0 i.val d)) ∧
    (bankBusy b.val d = false → profBad img = false → wide = true → Writes req c s (errAt 0x20 r 0 i.val d)) ∧
    (bankBusy b.val d = false → profBad img = false → wide = false →
      let x := storeFields false r 0 i.val img d
      Writes req c s { x with head := { x.head with badWords := x.head.badWords.filter (· != 256 * b.val + i.val) } })) ∧
  (∀ req (b : Fin 2) (t : Fin 64) w s d img, let r : Reg := if b.val = 0 then .HDS_TMPLA else .HDS_TMPLB
    let c : Instr := .templateCommit req b t w
    Commits req r 0 t.val w.toNat s d img →
    let bad := ((List.range 16).map fun k => wordOf img k).any fun w => decide (11 ≤ bits w 31 28) || decide (128 < bits w 15 8)
    (bankBusy b.val d = true → Writes req c s (errAt Err.EPOCH_BUSY r 0 t.val d)) ∧
    (bankBusy b.val d = false → bad = true → Writes req c s (errAt Err.BAD_ARG r 0 t.val d)) ∧
    (bankBusy b.val d = false → bad = false → (∀ i < 64, flag (HDS_PROF.VALID b.val) 0 i d = false) →
      let x := storeFields false r 0 t.val img d
      Writes req c s { x with head := { x.head with badWords := x.head.badWords.filter (· != 256 * b.val + 128 + t.val) } })) ∧
  (∀ req (k : Fin 16) w s d img, Commits req .HDS_DPk_CFG 0 k.val w.toNat s d img →
    let port := HDS_DPk_CFG.PORT.of img
    let en (n : Nat) : Prop := n < 128 ∧ flag LPG_PORTn_CFG.EN (n / 4) (n % 4) d = true
    (¬en port → ¬en (rget HDS_DPk_CFG.PORT 0 k.val d) →
      (HDS_DPk_CFG.VALID.on img = true → port < 128 ∧
        ∀ j < 16, j ≠ k.val → flag HDS_DPk_CFG.VALID 0 j d = true → rget HDS_DPk_CFG.PORT 0 j d ≠ port) →
      Writes req (.deepParseWrite req k w) s (storeFields false .HDS_DPk_CFG 0 k.val img d)) ∧
    (en port ∨ en (rget HDS_DPk_CFG.PORT 0 k.val d) →
      Writes req (.deepParseWrite req k w) s (errAt Err.BAD_ARG .HDS_DPk_CFG 0 k.val d))) ∧
  (∀ req w s d img, Commits req .HDS_TRACE_CTRL 0 0 (force w [(31, 31, 1)]) s d img →
    (expertOf Pg.HDS d = true → Writes req (.hdsTraceArm req w) s
      (rset HDS_TRACE_CTRL.PORT 0 0 (HDS_TRACE_CTRL.PORT.of img) (rset HDS_TRACE_CTRL.ARM 0 0 1 d))) ∧
    (expertOf Pg.HDS d = false → Writes req (.hdsTraceArm req w) s (errAt Err.EXPERT_LOCKED .HDS_TRACE_CTRL 0 0 d)))

/-- R115 to R121, R128, R133, R135, R144. The commands of LPM_CMD and NHT_ACC. -/
def Obligations.PrefixTableCommands : Prop :=
  let same (p : Nat) (d e : Dev) : Prop := bit (face p e).pend 0 = true ∧ (face p e).errCode = (face p d).errCode
  let fails (p code : Nat) (e : Dev) : Prop := bit (face p e).pend 0 = true ∧ (face p e).errCode = code
  let others (k : Nat) (d e : Dev) : Prop := ∀ k', k' ≠ k → find? e.tab.lpm k' = find? d.tab.lpm k'
  (∀ req w s d img (op : Nat), op ≤ 5 → Commits req .LPM_CMD 0 0 (go w 30 28 op) s d img →
    let t := LPM_CMD.TRIE.of img
    let len := LPM_CMD.LEN.of img
    let key := if t = 0 then maskKey 48 (LPM_CMD.KEY.of img) else LPM_CMD.KEY.of img
    let nh := LPM_CMD.NH.of img
    let k := pfxKey t len key
    let units := rget LPM_UNITS.COUNT 0 0 d
    let a := trieKey (LPM_CMD.STAGE.of img) (LPM_CMD.WORD.of img)
    let owner := if op = 5 then (match lpmOwner a d with | some x => x.1 | none => t) else t
    let lock := lockCheck req .LPM_LOCKt owner (LPM_CMD.LOCK_ID.of img) d
    let wellFormed := len ≤ trieBits t ∧ maskKey len key = key
    (op = 0 → lock = 0 → wellFormed → find? d.tab.lpm k = none → units + pfxUnits t len ≤ 24000000 →
      Does (.lpmInsert req w) s fun e => find? e.tab.lpm k = some nh ∧ others k d e ∧
        rget LPM_UNITS.COUNT 0 0 e = units + pfxUnits t len ∧ same Pg.LPM d e) ∧
    (op = 0 → lock = 0 → wellFormed → find? d.tab.lpm k = none → 24000000 < units + pfxUnits t len →
      Does (.lpmInsert req w) s fun e => e.tab = d.tab ∧ fails Pg.LPM Err.RESOURCE_FULL e) ∧
    (op = 0 → lock = 0 → wellFormed → find? d.tab.lpm k ≠ none → Does (.lpmInsert req w) s fun e => e.tab = d.tab ∧ fails Pg.LPM 0x21 e) ∧
    (op = 1 → lock = 0 → wellFormed → find? d.tab.lpm k ≠ none →
      Does (.lpmUpdate req w) s fun e => find? e.tab.lpm k = some nh ∧ others k d e ∧ rget LPM_UNITS.COUNT 0 0 e = units ∧ same Pg.LPM d e) ∧
    (op = 1 → lock = 0 → wellFormed → find? d.tab.lpm k = none → Does (.lpmUpdate req w) s fun e => e.tab = d.tab ∧ fails Pg.LPM 0x20 e) ∧
    (op = 2 → lock = 0 → wellFormed → find? d.tab.lpm k ≠ none →
      Does (.lpmDelete req w) s fun e => find? e.tab.lpm k = none ∧ others k d e ∧
        rget LPM_UNITS.COUNT 0 0 e = (units - pfxUnits t len) % 2 ^ 25 ∧ same Pg.LPM d e) ∧
    (op = 2 → lock = 0 → wellFormed → find? d.tab.lpm k = none → Does (.lpmDelete req w) s fun e => e.tab = d.tab ∧ fails Pg.LPM 0x20 e) ∧
    (op = 3 → wellFormed → ∀ n, find? d.tab.lpm k = some n → Does (.lpmFind req w) s fun e => e.tab = d.tab ∧
      rget LPM_CMD_RES.FOUND 0 0 e = 1 ∧ rget LPM_CMD_RES.NH 0 0 e = n % 2 ^ 21 ∧ same Pg.LPM d e) ∧
    (op = 3 → wellFormed → find? d.tab.lpm k = none → Does (.lpmFind req w) s fun e => e.tab = d.tab ∧
      rget LPM_CMD_RES.FOUND 0 0 e = 0 ∧ fails Pg.LPM 0x20 e) ∧
    (op = 4 → wellFormed → lpmDamaged t key d = false → Does (.lpmLookup req w) s fun e => e.tab = d.tab ∧ same Pg.LPM d e ∧
      let masked := maskKey (trieBits t) key
      (∀ l n, l ≤ trieBits t → find? d.tab.lpm (pfxKey t l (maskKey l masked)) = some n →
        (∀ m, l < m → m ≤ trieBits t → find? d.tab.lpm (pfxKey t m (maskKey m masked)) = none) →
        rget LPM_CMD_RES.FOUND 0 0 e = 1 ∧ rget LPM_CMD_RES.LEN 0 0 e = l ∧ rget LPM_CMD_RES.NH 0 0 e = n % 2 ^ 21) ∧
      ((∀ m, m ≤ trieBits t → find? d.tab.lpm (pfxKey t m (maskKey m masked)) = none) →
        rget LPM_CMD_RES.FOUND 0 0 e = 0 ∧ rget LPM_CMD_RES.NH 0 0 e = rget LPM_MISS_NHt.NH 0 t d % 2 ^ 21)) ∧
    (op = 4 → wellFormed → ∀ best b, lpmWalk t key d = (best, some b) → Does (.lpmLookup req w) s fun e => e.tab = d.tab ∧
      rget LPM_CMD_RES.NH 0 0 e = (best.getD (rget LPM_MISS_NHt.NH 0 t d)) % 2 ^ 21 ∧ rget LPM_CMD_RES.FOUND 0 0 e = b2n best.isSome ∧
      flag LPM_ECC_ADDR.VALID 0 0 e = true) ∧
    (op = 5 → lock = 0 → wellFormed → d.tab.lpmBad.contains a = true → d.tab.lpmVague = false →
      (∀ t' len' key', lpmOwner a d = some (t', len', key') → Does (.lpmRepair req w) s fun e =>
        same Pg.LPM d e ∧ rget LPM_CMD_RES.LEN 0 0 e = len' % 256 ∧ rget LPM_CMD_RES.KEY 0 0 e = key' % 2 ^ 144 ∧
        ∀ k', find? e.tab.lpm k' =
          if k' / 2 ^ 152 = t' ∧ len' ≤ k' / 2 ^ 144 % 256 ∧ maskKey len' (k' % 2 ^ 144) = key' then none else find? d.tab.lpm k') ∧
      (lpmOwner a d = none → Does (.lpmRepair req w) s fun e => same Pg.LPM d e ∧
        e.tab = { d.tab with lpmBad := d.tab.lpmBad.filter (· != a) } ∧ rget LPM_CMD_RES.LEN 0 0 e = 0 ∧ rget LPM_CMD_RES.KEY 0 0 e = 0)) ∧
    (op = 5 → lock = 0 → wellFormed → d.tab.lpmBad.contains a = false →
      Does (.lpmRepair req w) s fun e => e.tab = d.tab ∧ fails Pg.LPM Err.BAD_ARG e) ∧
    (let refused (code : Nat) (e : Dev) : Prop := e.tab = d.tab ∧ fails Pg.LPM code e
     (lock ≠ 0 → wellFormed → (op = 0 → Does (.lpmInsert req w) s (refused lock)) ∧ (op = 1 → Does (.lpmUpdate req w) s (refused lock)) ∧
       (op = 2 → Does (.lpmDelete req w) s (refused lock)) ∧ (op = 5 → Does (.lpmRepair req w) s (refused lock))) ∧
     (¬wellFormed → (op = 0 → Does (.lpmInsert req w) s (refused Err.BAD_ARG)) ∧ (op = 1 → Does (.lpmUpdate req w) s (refused Err.BAD_ARG)) ∧
       (op = 2 → Does (.lpmDelete req w) s (refused Err.BAD_ARG)) ∧ (op = 3 → Does (.lpmFind req w) s (refused Err.BAD_ARG)) ∧
       (op = 4 → Does (.lpmLookup req w) s (refused Err.BAD_ARG)) ∧ (op = 5 → Does (.lpmRepair req w) s (refused Err.BAD_ARG))))) ∧
  (∀ s d l t, Runs 32 s d → d.tab.lpmLeft = l :: t → Does .lpmWordFree s fun e =>
    e.tab = { d.tab with lpmMem := d.tab.lpmMem.filter (fun x => !l.contains x.1), lpmBad := d.tab.lpmBad.filter (!l.contains ·), lpmLeft := t } ∧
    e.faces = d.faces) ∧
  (∀ req w s d img (op : Nat), op ≤ 1 → Commits req .NHT_ACC 0 0 (go w 30 30 op) s d img →
    let t := NHT_ACC.TBL.of img
    let i := NHT_ACC.INDEX.of img
    let v := NHT_ACC.DATA.of img
    let x := storeFields false .NHT_ACC 0 0 img d
    let lock := lockCheck req .NHT_LOCK 0 (NHT_ACC.LOCK_ID.of img) d
    (op = 0 → i < nhtSize t → lock = 0 → (t = 1 → bits v 56 36 + bits v 62 57 ≤ 1572863) → Writes req (.nhtWrite req w) s { x with
      tab := { x.tab with
        nht := put x.tab.nht (t * 2 ^ 21 + i) 0 (nhtStore t v), nhtBad := x.tab.nhtBad.filter (· != t * 2 ^ 21 + i) } }) ∧
    (op = 0 → i < nhtSize t → lock ≠ 0 → Writes req (.nhtWrite req w) s (errAt lock .NHT_ACC 0 0 x)) ∧
    (op = 1 → i < nhtSize t → Writes req (.nhtRead req w) s (rset NHT_ACC.DATA 0 0 (nhtAt t i d) x)) ∧
    (nhtSize t ≤ i → (op = 0 → Writes req (.nhtWrite req w) s (errAt Err.BAD_ARG .NHT_ACC 0 0 x)) ∧
      (op = 1 → Writes req (.nhtRead req w) s (errAt Err.BAD_ARG .NHT_ACC 0 0 x))))

/-- R122 to R127, R131 to R133. The exact-match table. -/
def Obligations.ExactMatchCommands : Prop :=
  let same (d e : Dev) : Prop := bit (face Pg.XM e).pend 0 = true ∧ (face Pg.XM e).errCode = (face Pg.XM d).errCode
  let fails (code : Nat) (e : Dev) : Prop := bit (face Pg.XM e).pend 0 = true ∧ (face Pg.XM e).errCode = code
  (∀ req w s d img (op : Nat), op ≤ 4 → Commits req .XM_CMD 0 0 (go w 30 28 op) s d img →
    let n := XM_CMD.TABLE.of img
    let key := XM_CMD.KEY.of img
    let e0 : XmEnt := { tbl := n, wide := xmWide n d, static := XM_CMD.STATIC.on img, result := XM_CMD.RESULT.of img, key := xmKey n key d }
    let owner := if op = 4 then xmLockTable 4 n (XM_CMD.SLOT.of img) d else n
    let lock := lockCheck req .XM_LOCKn owner (XM_CMD.LOCK_ID.of img) d
    let cur := xmFind n key d
    flag XM_TBLn_CFG.EN 0 n d = true →
    (op = 0 → lock = 0 → cur = none → (xmInsert e0 (storeFields false .XM_CMD 0 0 img d)).1 = true → Does (.xmInsert req w) s fun e =>
      same d e ∧ ((∃ p, find? e.tab.xm p = some e0) ∨ (∃ i, find? e.tab.stash i = some e0)) ∧
      (∀ p, freeIn e0.wide 0 (xmBucket n 0 e0.key d) d = some p → p < 2 ^ 22 → find? e.tab.xm p = some e0 ∧ e.tab.stash = d.tab.stash ∧
        ∀ q, q ≠ p → find? e.tab.xm q = find? d.tab.xm q)) ∧
    (op = 0 → lock = 0 → cur = none → (xmInsert e0 (storeFields false .XM_CMD 0 0 img d)).1 = false → Does (.xmInsert req w) s fun e =>
      e.tab = d.tab ∧ fails Err.RESOURCE_FULL e ∧ bit (face Pg.XM e).pend 4 = true) ∧
    (op = 0 → lock = 0 → cur ≠ none → Does (.xmInsert req w) s fun e => e.tab = d.tab ∧ fails 0x21 e) ∧
    (op = 1 → lock = 0 → ∀ p x, cur = some (p, x) →
      let y : XmEnt := { x with result := XM_CMD.RESULT.of img, static := XM_CMD.STATIC.on img }
      (p < 2 ^ 22 → Does (.xmUpdate req w) s fun e => same d e ∧ e.tab = { d.tab with
        xm := ins d.tab.xm p y, xm2 := if x.wide then ins d.tab.xm2 (p + 1) y.second else d.tab.xm2 }) ∧
      (2 ^ 22 ≤ p → Does (.xmUpdate req w) s fun e => same d e ∧ e.tab = { d.tab with stash := ins d.tab.stash (p - 2 ^ 22) y })) ∧
    (op = 1 → lock = 0 → cur = none → Does (.xmUpdate req w) s fun e => e.tab = d.tab ∧ fails 0x20 e) ∧
    (op = 2 → lock = 0 → ∀ p x, cur = some (p, x) → Does (.xmDelete req w) s fun e => same d e ∧
      e.tab = (if 2 ^ 22 ≤ p then { d.tab with stash := del d.tab.stash (p - 2 ^ 22) }
        else { d.tab with xm := del d.tab.xm p, xm2 := del d.tab.xm2 (p + 1) })) ∧
    (op = 2 → lock = 0 → cur = none → Does (.xmDelete req w) s fun e => e.tab = d.tab ∧ fails 0x20 e) ∧
    (op = 3 → ∀ p x, cur = some (p, x) → Does (.xmFind req w) s fun e => e.tab = d.tab ∧ same d e ∧
      (x.result < 2 ^ 31 → x.age < 4 → p < 2 ^ 23 → rget XM_CMD_RES.FOUND 0 0 e = 1 ∧ rget XM_CMD_RES.RESULT 0 0 e = x.result ∧
        rget XM_CMD_RES.SLOT 0 0 e = p ∧ rget XM_CMD_RES.KEY 0 0 e = key)) ∧
    (op = 3 → cur = none → Does (.xmFind req w) s fun e => e.tab = d.tab ∧ fails 0x20 e ∧ rget XM_CMD_RES.FOUND 0 0 e = 0) ∧
    (op = 4 → lock = 0 → let p := XM_CMD.SLOT.of img
      p < 2 ^ 22 → has d.tab.xm p = true → has d.tab.xm2 p = false → Does (.xmInvalidate req w) s fun e => same d e ∧ find? e.tab.xm p = none ∧
        p ∉ e.tab.xmBad ∧ ∀ q, q ≠ p → find? e.tab.xm q = find? d.tab.xm q) ∧
    (lock ≠ 0 → (op = 0 → Does (.xmInsert req w) s fun e => e.tab = d.tab ∧ fails lock e) ∧
      (op = 1 → Does (.xmUpdate req w) s fun e => e.tab = d.tab ∧ fails lock e) ∧
      (op = 2 → Does (.xmDelete req w) s fun e => e.tab = d.tab ∧ fails lock e) ∧
      (op = 4 → Does (.xmInvalidate req w) s fun e => e.tab = d.tab ∧ fails lock e))) ∧
  (∀ req w s d img (op : Nat), op ≤ 4 → Commits req .XM_CMD 0 0 (go w 30 28 op) s d img → flag XM_TBLn_CFG.EN 0 (XM_CMD.TABLE.of img) d = false →
    Does (match op with | 0 => .xmInsert req w | 1 => .xmUpdate req w | 2 => .xmDelete req w | 3 => .xmFind req w | _ => .xmInvalidate req w) s
      fun e => e.tab = d.tab ∧ fails Err.BAD_ARG e) ∧
  (∀ s d i x p, Runs 32 s d → d.tab.stash = [(i, x)] → p < 2 ^ 22 →
    (freeIn x.wide 0 (xmBucket x.tbl 0 x.key d) d = some p ∨
      (freeIn x.wide 0 (xmBucket x.tbl 0 x.key d) d = none ∧ freeIn x.wide 1 (xmBucket x.tbl 1 x.key d) d = some p)) →
    Does .stashReinsert s fun e => rget XM_STASH.LEVEL 0 0 e = 0 ∧
      e.tab = { d.tab with stash := [], xm := ins d.tab.xm p x, xm2 := if x.wide then ins d.tab.xm2 (p + 1) x.second else d.tab.xm2 } ∧
      ctr Pg.XM 0x1020 e = (ctr Pg.XM 0x1020 d + 1) % 2 ^ 64) ∧
  (∀ w s d, Runs 32 s d → Leaves (.eccWriteback w) s (inc (wordPage w).1 (wordPage w).2.1 d)) ∧
  (∀ m u a y s d, Runs 32 s d → let w := tableWordAt m u.val a y.val
    Leaves (.tableScrub m u a y .clean) s d ∧
    Leaves (.tableScrub m u a y .corrected) s (inc (wordPage w).1 (wordPage w).2.1 d) ∧
    (∀ t i, w = .nht t i → Does (.tableScrub m u a y .uncorrectable) s fun e =>
      t.val * 2 ^ 21 + i % 2 ^ 21 ∈ e.tab.nhtBad ∧ flag NHT_ECC_ADDR.VALID 0 0 e = true) ∧
    (∀ h b x, w = .xmSlot h b x → Does (.tableScrub m u a y .uncorrectable) s fun e =>
      slotId h.val (b % 2 ^ 19) x.val ∈ e.tab.xmBad ∧ flag XM_ECC_ADDR.VALID 0 0 e = true) ∧
    (∀ i, w = .xmStash i → Does (.tableScrub m u a y .uncorrectable) s fun e =>
      2 ^ 22 + i.val ∈ e.tab.xmBad ∧ flag XM_ECC_ADDR.VALID 0 0 e = true) ∧
    (∀ st k, w = .lpm st k → Does (.tableScrub m u a y .uncorrectable) s fun e =>
      trieKey st.val (k % 2 ^ 18) ∈ e.tab.lpmBad ∧ flag LPM_ECC_ADDR.VALID 0 0 e = true) ∧
    (∀ b i, w = .prof b i → Does (.tableScrub m u a y .uncorrectable) s fun e => 256 * b.val + i.val ∈ e.head.badWords) ∧
    (∀ b i, w = .tmpl b i → Does (.tableScrub m u a y .uncorrectable) s fun e => 256 * b.val + 128 + i.val ∈ e.head.badWords))

/-- R135, R136, R138 to R143. Locks, learning and aging. -/
def Obligations.LocksAndLearning : Prop :=
  (∀ req l (id : BitVec 16) s d img, let r := (lockReg l).1
    let i := (lockReg l).2
    let a := r.addr 0 i
    (∀ k, l = .xm k → d.fab.waiting = []) →
    (id = 0 ∨ idRefused req id.toNat = true →
      (Commits req r 0 i (2 ^ 31 + id.toNat) s d img → Writes req (.lockClaim req l id) s (errAt Err.BAD_ARG r 0 i d)) ∧
      (Commits req r 0 i (2 ^ 31 + 2 ^ 30 + id.toNat) s d img → Writes req (.lockRelease req l id) s (errAt Err.BAD_ARG r 0 i d))) ∧
    (id ≠ 0 → idRefused req id.toNat = false →
    (Commits req r 0 i (2 ^ 31 + id.toNat) s d img →
      (lockHolder r i d = 0 → let x := rset ⟨r, 0, 16⟩ 0 i id.toNat d
        Writes req (.lockClaim req l id) s { x with tab := { x.tab with lockAt := ins x.tab.lockAt a x.mono } }) ∧
      (lockHolder r i d = id.toNat → Writes req (.lockClaim req l id) s d) ∧
      (lockHolder r i d ≠ 0 → lockHolder r i d ≠ id.toNat → Writes req (.lockClaim req l id) s (errAt Err.OWNER_BUSY r 0 i d))) ∧
    (Commits req r 0 i (2 ^ 31 + 2 ^ 30 + id.toNat) s d img →
      (lockHolder r i d = id.toNat → let x := rset ⟨r, 0, 16⟩ 0 i 0 d
        Writes req (.lockRelease req l id) s { x with tab := { x.tab with lockAt := del x.tab.lockAt a } }) ∧
      (lockHolder r i d ≠ id.toNat → Writes req (.lockRelease req l id) s (errAt Err.NOT_OWNER r 0 i d))))) ∧
  (∀ l s d, let r := (lockReg l).1
    let i := (lockReg l).2
    Runs 32 s d → lockHolder r i d ≠ 0 → lockLimit r d ≠ 0 → look d.tab.lockAt (r.addr 0 i) 0 + lockLimit r d * 1000000 < d.mono →
    d.fab.waiting = [] → Does (.lockTimeout l) s fun e => lockHolder r i e = 0 ∧ find? e.tab.lockAt (r.addr 0 i) = none ∧
      bit (face r.lay.page e).pend (lockEvt r) = true) ∧
  (∀ req l w s d img, let r := lockTmo l
    Commits req r 0 0 w.toNat s d img → (∀ k, l = .xm k → d.fab.waiting = []) →
    (∀ l', lockTmo l' = r → lockHolder (lockReg l').1 (lockReg l').2 d = 0) →
    Writes req (.lockTmoWrite req l w) s (storeFields false r 0 0 img d)) ∧
  (∀ slow s d ev, Runs 32 s d → d.tab.lrnQ.find? (fun ev => lockHolder .XM_LOCKn ev.tbl d == 0) = some ev →
    Does (.learnArbitrate slow) s fun e => e.tab.lrnQ = d.tab.lrnQ.erase ev ∧
      (∀ p, let n := ev.tbl
        let key := xmKey n ev.key d
        find? d.tab.lrnCache (cacheKey n key) = none → d.tab.lrnCache.length < 4096 → xmFind n key d = none →
        freeIn (xmWide n d) 0 (xmBucket n 0 key d) d = some p → p < 2 ^ 22 →
        find? e.tab.xm p = some { tbl := n, wide := xmWide n d, static := false, learned := true, hit := false, result := learnedResult n (evPair ev) d, key := key })) ∧
  (∀ (t : Fin 8) (key : BitVec 160) s d c, let k := cacheKey t.val (xmKey t.val key.toNat d)
    Runs 32 s d → find? d.tab.lrnCache k = some c → c.flapping = true → c.flapAt + rget LRN_FLAP.HOLD 0 0 d * 1000000000 ≤ d.mono →
    Does (.flapHoldEnd t key) s fun e =>
      find? e.tab.lrnCache k = some { c with flapping := false, moves := 0 } ∧
      e.tab = { d.tab with lrnCache := ins d.tab.lrnCache k { c with flapping := false, moves := 0 } }) ∧
  (∀ (p : BitVec 23) s d x, Runs 32 s d → p.toNat < 2 ^ 22 → find? d.tab.xm p.toNat = some x → blkEn Pg.LRN d = true → x.static = false →
    flag XM_TBLn_LRN.AGE_EN 0 x.tbl d = true → lockHolder .XM_LOCKn x.tbl d = 0 → foreignEntry x d = false →
    (∀ t, find? d.tab.ageAt p.toNat = some t → t + rget XM_TBLn_LRN.AGE_TIME 0 x.tbl d * 250000000 ≤ d.mono) →
    let kept (y : XmEnt) : Dev := { d with tab := { d.tab with
      xm := ins d.tab.xm p.toNat y, xm2 := if x.wide then ins d.tab.xm2 (p.toNat + 1) y.second else d.tab.xm2, ageAt := ins d.tab.ageAt p.toNat d.mono } }
    (x.hit = true → Leaves (.ageScanVisit p) s (kept { x with hit := false, age := 0 })) ∧
    (x.hit = false → x.age ≠ 3 → Leaves (.ageScanVisit p) s (kept { x with age := x.age + 1 })) ∧
    (x.hit = false → x.age = 3 → Does (.ageScanVisit p) s fun e => find? e.tab.xm p.toNat = none)) ∧
  (∀ req s d x t, Taken req s → d = reached Pg.LRN s → d.tab.lrnLog = x :: t → Does (.lrnLogPop req) s fun e =>
    e.tab = { d.tab with lrnLog := t } ∧ rget LRN_LOG_STAT.LEVEL 0 0 e = t.length % 512 ∧
    Out.readReply req (Reg.addr .LRN_LOG 0 0) (imgWord x 0) ∈ e.out)

/-- R147 to R158. The TCAM. -/
def Obligations.TcamCommands : Prop :=
  let same (d e : Dev) : Prop := bit (face Pg.TCM e).pend 0 = true ∧ (face Pg.TCM e).errCode = (face Pg.TCM d).errCode
  let tc (c : Nat) (d : Dev) : TcamEnt := look d.srch.tcam c {}
  let sh (c : Nat) (d : Dev) : TcamEnt := look d.srch.shadow c {}
  (∀ req (b : Fin 2) (n : Fin 16) w s d img, Commits req (grpReg b.val) 0 n.val w.toNat s d img →
    let c : Instr := .tcamGroupWrite req b n w
    let g := Group.ofImg img
    let overlap := ∃ k < 16, k ≠ n.val ∧ (groupOf b.val k d).valid = true ∧ g.base < (groupOf b.val k d).top ∧ (groupOf b.val k d).base < g.top
    let r := grpReg b.val
    (bankBusy b.val d = true → Writes req c s (errAt Err.EPOCH_BUSY r 0 n.val d)) ∧
    (bankBusy b.val d = false → g.valid = true → (16 < g.top ∨ overlap ∨ idRefused req g.owner = true) →
      Writes req c s (errAt Err.BAD_ARG r 0 n.val d)) ∧
    (bankBusy b.val d = false → g.valid = true → g.top ≤ 16 → ¬overlap → idRefused req g.owner = false → ownsSlices g.owner g d = false →
      Writes req c s (errAt Err.NOT_OWNER r 0 n.val d)) ∧
    (bankBusy b.val d = false → (g.valid = true → g.top ≤ 16 ∧ ¬overlap ∧ idRefused req g.owner = false ∧ ownsSlices g.owner g d = true) →
      Writes req c s (storeFields false r 0 n.val img d))) ∧
  (∀ req w s d img (op : Nat), op ≤ 3 → Commits req .TCM_CMD 0 0 (go w 30 28 op) s d img →
    let b := TCM_CMD.BANK.of img
    let n := TCM_CMD.GROUP.of img
    let g := groupOf b n d
    let i := TCM_CMD.INDEX.of img
    let key := TCM_CMD.KEY.of img
    let mask := TCM_CMD.MASK.of img
    let act := TCM_CMD.ACTION.of img
    g.valid = true → idRefused req (TCM_CMD.OWNER_ID.of img) = false → ownsSlices (TCM_CMD.OWNER_ID.of img) g d = true →
    (op = 0 → i < g.depth * 8192 → (g.egress = true → act / 4096 < 3) → Does (.tcamWrite req w) s fun e => same d e ∧
      (∀ r < g.repl, tc (tcamCell g r i) e = { valid := true, key := key &&& mask, mask := mask, action := act } ∧
        sh (tcamCell g r i) e = { valid := true, key := key &&& mask, mask := mask, action := act }) ∧
      ∀ c, (∀ r < g.repl, c ≠ tcamCell g r i) → tc c e = tc c d ∧ sh c e = sh c d) ∧
    (op = 1 → i < g.depth * 8192 → Does (.tcamInvalidate req w) s fun e => same d e ∧
      (∀ r < g.repl, (tc (tcamCell g r i) e).valid = false ∧ (sh (tcamCell g r i) e).valid = false) ∧
      ∀ c, (∀ r < g.repl, c ≠ tcamCell g r i) → tc c e = tc c d ∧ sh c e = sh c d) ∧
    (op = 2 → i < g.depth * 8192 → let x := tc (tcamCell g 0 i) d
      x.action < 2 ^ 16 → x.key < 2 ^ 320 → x.mask < 2 ^ 320 → Does (.tcamRead req w) s fun e => same d e ∧ e.srch = d.srch ∧
        rget TCM_RD.VALID 0 0 e = b2n x.valid ∧ rget TCM_RD.ACTION 0 0 e = x.action ∧ rget TCM_RD.KEY 0 0 e = x.key ∧
        rget TCM_RD.MASK 0 0 e = x.mask) ∧
    (g.depth * 8192 ≤ i → Does (match op with | 0 => .tcamWrite req w | 1 => .tcamInvalidate req w | 2 => .tcamRead req w | _ => .tcamSearch req w) s fun e =>
      e.srch = d.srch ∧ (face Pg.TCM e).errCode = Err.BAD_ARG) ∧
    (op = 3 → i < g.depth * 8192 → let r := look d.srch.tcamNext (b * 16 + n) 0 % g.repl
      let lo := (g.base + r * g.depth) * 8192
      Does (.tcamSearch req w) s fun e => same d e ∧ e.srch.tcam = d.srch.tcam ∧ look e.srch.tcamNext (b * 16 + n) 0 = (r + 1) % g.repl ∧
        (∀ j, j < g.depth * 8192 → (tc (lo + j) d).hit key = true → (∀ k < j, (tc (lo + k) d).hit key = false) → Tbl.wf d.srch.tcam = true → g.top ≤ 16 →
          (tc (lo + j) d).action < 2 ^ 16 → (tc (lo + j) d).key < 2 ^ 320 → (tc (lo + j) d).mask < 2 ^ 320 →
          rget TCM_RD.VALID 0 0 e = 1 ∧ rget TCM_RD.IDX 0 0 e = tcamIdx g j ∧ rget TCM_RD.ACTION 0 0 e = (tc (lo + j) d).action) ∧
        ((∀ j < g.depth * 8192, (tc (lo + j) d).hit key = false) → Tbl.wf d.srch.tcam = true → rget TCM_RD.VALID 0 0 e = 0))) ∧
  (∀ (k : Fin 16) (n : Fin 8192) s d, Runs 32 s d → let c := k.val * 8192 + n.val
    (tc c d = sh c d → Leaves (.tcamScrubVisit k n false) s d) ∧
    (tc c d ≠ sh c d → flag TCM_SCRUB_CFG.REPAIR_EN 0 0 d = true → Does (.tcamScrubVisit k n false) s fun e =>
      tc c e = sh c d ∧ e.srch.shadow = d.srch.shadow ∧ bit (face Pg.TCM e).pend 1 = true) ∧
    (tc c d ≠ sh c d → flag TCM_SCRUB_CFG.REPAIR_EN 0 0 d = false → Does (.tcamScrubVisit k n false) s fun e =>
      e.srch = d.srch ∧ bit (face Pg.TCM e).pend 1 = true) ∧
    Does (.tcamScrubVisit k n true) s fun e => sh c e = tc c d ∧ e.srch.tcam = d.srch.tcam ∧ bit (face Pg.TCM e).pend 2 = true ∧
      flag TCM_SHADOW_ADDR.VALID 0 0 e = true) ∧
  (∀ req w s d img, Commits req .TCM_INJECT 0 0 (force w [(31, 31, 1)]) s d img → let n := TCM_INJECT.BIT.of img
    let c := TCM_INJECT.SLICE.of img * 8192 + TCM_INJECT.ENTRY.of img
    (expertOf Pg.TCM d = false → Writes req (.tcamInject req w) s (errAt Err.EXPERT_LOCKED .TCM_INJECT 0 0 d)) ∧
    (expertOf Pg.TCM d = true → 319 < n → Writes req (.tcamInject req w) s (errAt Err.BAD_ARG .TCM_INJECT 0 0 d)) ∧
    (expertOf Pg.TCM d = true → n ≤ 319 → Does (.tcamInject req w) s fun e => e.srch.shadow = d.srch.shadow ∧
      tc c e = (if TCM_INJECT.PLANE.on img then { tc c d with mask := (tc c d).mask ^^^ 2 ^ n } else { tc c d with key := (tc c d).key ^^^ 2 ^ n }) ∧
      ∀ c', c' ≠ c → tc c' e = tc c' d)) ∧
  (∀ waited s d n p, Runs 97 s d → d.head.passes.find? (fun x => x.2.stage == .egressTcam) = some (n, p) →
    PX.COPY_HOST.get p.pcx = 0 → PX.MIRROR_EN.get p.pcx = 0 →
    let r (k key : Nat) := (tcamSearch p.bank k key (groupOf p.bank k d) d).1.1
    (∀ k key, p.acts.etc = some (k, key) → ∀ x, r k key = some x → bits x.2.action 15 12 ≠ 2) →
    Does (.egressTcamSearch waited) s fun e => getPass n e = none ∧ e.cross.dones = d.cross.dones ++ [(p.egPort, 1)] ∧
      ∀ k key x, p.acts.etc = some (k, key) → blkEn Pg.TCM d = true → (groupOf p.bank k d).valid = true →
        (groupOf p.bank k d).egress = true → r k key = some x → bits x.2.action 15 12 = 1 → look e.drops 0x31 0 = look d.drops 0x31 0 + 1)

/-- R165 to R168. The replicas of the Burl. -/
def Obligations.BurlReplicas : Prop :=
  let same (d e : Dev) : Prop := bit (face Pg.BRL e).pend 0 = true ∧ (face Pg.BRL e).errCode = (face Pg.BRL d).errCode
  (∀ req w s d img (op : Nat), op ≤ 3 → Commits req .BRL_CMD 0 0 (go w 30 28 op) s d img →
    let b := BRL_CMD.BANK.of img
    let mask := bitsOf 24 (BRL_CMD.MASK.of img)
    let src := BRL_CMD.SRC.of img
    let armed := burlArmed b d = true ∨ ∃ r ∈ mask, burlArmed (replBank r d) d = true
    (op = 0 → (∀ r ∈ mask, replState r d = 0 ∨ replState r d = 2) → armed → Does (.brlAssign req w) s fun e =>
      e.srch = d.srch ∧ (face Pg.BRL e).errCode = Err.EPOCH_BUSY) ∧
    (op = 0 → (∀ r ∈ mask, replState r d = 0 ∨ replState r d = 2) → ¬armed →
      burlStrands (mask.filter fun r => replState r d == 2 && replBank r d != b) d = false → Does (.brlAssign req w) s fun e => same d e ∧
        ∀ r ∈ mask, (replState r d = 0 → replState r e = 0 ∧ replBank r e = b) ∧
          (replState r d = 2 → replBank r d = b → replState r e = 2 ∧ replBank r e = b) ∧
          (replState r d = 2 → replBank r d ≠ b → replState r e = 3 ∧ (repl r e).retireBank = b)) ∧
    (op = 0 → (∃ r ∈ mask, replState r d = 1 ∨ replState r d = 3) → Does (.brlAssign req w) s fun e =>
      e.srch = d.srch ∧ (face Pg.BRL e).errCode = Err.BAD_ARG) ∧
    (op = 1 → ∀ r, mask = [r] → replState r d = 1 → burlArmed (replBank r d) d = true → Does (.brlVerify req w) s fun e =>
      e.srch = d.srch ∧ replState r e = 1 ∧ (face Pg.BRL e).errCode = Err.EPOCH_BUSY) ∧
    (op = 1 → ∀ r, mask = [r] → replState r d = 1 → replBank r d < 2 → burlArmed (replBank r d) d = false → imageOk (repl r d) = true →
      (verified (replBank r d) d = [] ∨ (bankHdr (replBank r d) d).map (fun h => beAt h 0x14 4) = some (beAt (repl r d).hdr 0x14 4)) →
      Does (.brlVerify req w) s fun e => same d e ∧ replState r e = 2 ∧ replBank r e = replBank r d ∧
        repl r e = repl r d ∧ (bankHdr (replBank r d) e).isSome = true) ∧
    (op = 1 → ∀ r, mask = [r] → replState r d = 1 → burlArmed (replBank r d) d = false → imageOk (repl r d) = false → Does (.brlVerify req w) s fun e =>
      replState r e = 0 ∧ (face Pg.BRL e).errCode = 0x20 ∧ bit (face Pg.BRL e).pend 0 = true) ∧
    (op = 2 → src ≤ 23 → replState src d = 2 → replBank src d < 2 → (∀ r ∈ mask, replState r d = 0) →
      burlArmed (replBank src d) d = false → (∀ r ∈ mask, burlArmed (replBank r d) d = false) → Does (.brlClone req w) s fun e => same d e ∧
      ∀ r ∈ mask, replState r e = 2 ∧ replBank r e = replBank src d ∧ (repl r e).mem = (repl src d).mem ∧ (repl r e).hdr = (repl src d).hdr) ∧
    (op = 3 → (∀ r ∈ mask, burlArmed (replBank r d) d = false) → burlStrands (mask.filter fun r => replState r d == 2) d = false →
      Does (.brlClear req w) s fun e => same d e ∧
      ∀ r ∈ mask, (replState r d = 2 → replState r e = 3 ∧ (repl r e).retireClear = true) ∧
        (replState r d = 3 → replState r e = 3 ∧ (repl r e).retireClear = true) ∧
        (replState r d ≠ 2 → replState r d ≠ 3 → replState r e = 0 ∧ repl r e = {})) ∧
    (op = 3 → (∃ r ∈ mask, burlArmed (replBank r d) d = true) ∨ burlStrands (mask.filter fun r => replState r d == 2) d = true → Does (.brlClear req w) s fun e =>
      e.srch = d.srch ∧ (face Pg.BRL e).errCode = Err.EPOCH_BUSY)) ∧
  (∀ (r : Fin 24) s d, Runs 32 s d → replState r.val d = 3 → Does (.replicaRetired r) s fun e =>
    replState r.val e = 0 ∧ replBank r.val e = (repl r.val d).retireBank % 2 ∧
    ((repl r.val d).retireClear = true → repl r.val e = {}) ∧ ((repl r.val d).retireClear = false → (repl r.val e).mem = (repl r.val d).mem)) ∧
  (∀ (r : Fin 24) (w : BitVec 16) s d, Runs 32 s d → replState r.val d = 2 →
    Leaves (.burlScrub r w .clean) s d ∧ Leaves (.burlScrub r w .corrected) s (inc Pg.BRL 2 d) ∧
    (∀ q, (verified (replBank r.val d) d).find? (fun q => q != r.val && !(repl q d).bad.contains w.toNat) = some q →
      Leaves (.burlScrub r w .uncorrectable) s (inc Pg.BRL 3 (setRepl r.val { repl r.val d with
        mem := put (repl r.val d).mem w.toNat 0 (look (repl q d).mem w.toNat 0), bad := (repl r.val d).bad.filter (· != w.toNat) } d))) ∧
    ((verified (replBank r.val d) d).find? (fun q => q != r.val && !(repl q d).bad.contains w.toNat) = none →
      Does (.burlScrub r w .uncorrectable) s fun e => w.toNat ∈ (repl r.val e).bad ∧ flag BRL_ECC_ADDR.VALID 0 0 e = true))

/-- R189 to R208. What an engine does. -/
def Obligations.EngineExecution : Prop :=
  (∀ (c : Fin 64) (e : Fin 16) (corr : Fin 5) s d n p, Runs (33 + c.val) s d → runningPass c.val e.val d = some (n, p) → p.issued < 24 →
    let b := bundleAt c.val p.bank p.pc d
    let g (r : Nat) : Nat := if r = 0 then 0 else look p.regs r 0
    (∀ x, badBundle c.val p.bank p.pc d = some x → Does (.bundleIssue c e corr) s fun t => flag ENG_ECC_ADDR.VALID c.val 0 t = true ∧
      bit (face (engPage c.val) t).pend 2 = true ∧ ∃ q, getPass n t = some q ∧ q.stage = .held ∧ q.verdict = some (.drop 0x44)) ∧
    (badBundle c.val p.bank p.pc d = none → bundleStalls b p = true → Does (.bundleIssue c e corr) s fun t => ∃ q, getPass n t = some q ∧
      q.stalls = p.stalls + 1 ∧ q.pc = p.pc ∧ q.issued = p.issued ∧ q.regs = p.regs ∧ q.pend = p.pend) ∧
    (badBundle c.val p.bank p.pc d = none → bundleStalls b p = false → ∀ a0 a1 m co, aSlot (bits b 127 96) g = some a0 →
      aSlot (bits b 95 64) g = some a1 → mSlot (bits b 63 32) p.egress g = some m → cSlot (bits b 31 0) p.pc g p = some co →
      (m.1 = .nop → (co.1 = .nop ∨ ∃ k, co.1 = .jump k) → p.pc < 2047 → Does (.bundleIssue c e corr) s fun t => ∃ q, getPass n t = some q ∧
        q.issued = p.issued + 1 ∧ (co.1 = .nop → q.pc = p.pc + 1) ∧ (∀ k, co.1 = .jump k → q.pc = k) ∧ q.win = p.win ∧ q.pcx = p.pcx ∧
        (∀ r v, a1.wr = some (r, v) → r ≠ 0 → look q.regs r 0 = v) ∧
        (∀ r v, a0.wr = some (r, v) → r ≠ 0 → (∀ v', a1.wr ≠ some (r, v')) → look q.regs r 0 = v) ∧
        (∀ r, (∀ v, a0.wr ≠ some (r, v)) → (∀ v, a1.wr ≠ some (r, v)) → look q.regs r 0 = look p.regs r 0)) ∧
      (m.1 = .nop → ∀ v, co.1 = .verdict v → Does (.bundleIssue c e corr) s fun t => ∃ q, getPass n t = some q ∧
        q.stage = .held ∧ q.issued = p.issued + 1 ∧ ∃ v', q.verdict = some v' ∧ (p.hstart ≤ p.hend → p.hend ≤ 256 → 14 ≤ p.newLen →
          p.newLen ≤ 16383 → (∀ k nh, v = .fwd k nh → k ≤ 0x1FFFF → v' = .fwd k nh) ∧ (∀ h, v = .punt h → v' = .punt h) ∧
          (∀ x, v = .drop x → x ≠ 0 → v' = .drop x) ∧ (∀ f, v = .recirc f → PX.PASS.get p.pcx ≠ 3 → v' = .recirc f) ∧
          (∀ a, v = .send a → (a = true → p.adjOk = true) → p.newLen ≤ pget LPG_PORTn_CFG.MAX_FRAME (bits p.ctx 76 69) d → v' = .send a)))) ∧
    (badBundle c.val p.bank p.pc d = none → bundleStalls b p = false → (aSlot (bits b 127 96) g = none ∨ aSlot (bits b 95 64) g = none ∨ mSlot (bits b 63 32) p.egress g = none ∨ cSlot (bits b 31 0) p.pc g p = none) →
      Does (.bundleIssue c e corr) s fun t => flag ENG_ILL_ADDR.VALID c.val 0 t = true ∧
        ∃ q, getPass n t = some q ∧ q.stage = .held ∧ q.verdict = some (.drop 0x41))) ∧
  (∀ (c : Fin 64) (e : Fin 16) s d n p r v rest, Runs (33 + c.val) s d → runningPass c.val e.val d = some (n, p) → p.pend = (r, v) :: rest →
    Leaves (.scratchLoadLand c e) s
      (setPass n { p with pend := rest, regs := if r = 0 then p.regs else put p.regs r 0 v } d)) ∧
  (∀ (c : Fin 64) (e : Fin 16) s d n p, Runs (33 + c.val) s d → runningPass c.val e.val d = some (n, p) → 24 ≤ p.issued →
    Does (.budgetStop c e) s fun t => bit (face (engPage c.val) t).pend 0 = true ∧ ∃ q, getPass n t = some q ∧ q.stage = .held ∧
      (p.egress = false → (badBundle c.val p.bank 16 d).isSome = true → q.verdict = some (.drop 0x44)) ∧
      (p.egress = true ∨ badBundle c.val p.bank 16 d = none → p.egress = true ∨ bit (bundleAt c.val p.bank 16 d) 0 = false → q.verdict = some (.drop 0x40)) ∧
      (p.egress = false → badBundle c.val p.bank 16 d = none → bit (bundleAt c.val p.bank 16 d) 0 = true → q.forced = true ∧ ∃ v, q.verdict = some v)) ∧
  (∀ (c : Fin 64) s d, Runs (33 + c.val) s d → let f := face (Pg.ENG + c.val) d
    f.busy = true → f.en = false → ctxUsed c.val d = 0 → Leaves (.clusterDrained c) s (setFace (Pg.ENG + c.val) { f with busy := false } d)) ∧
  (∀ req (c : Fin 64) w s d img, Commits req .ENG_IMEM_DATA c.val 0 w.toNat s d img →
    let half := rget ENG_IMEM_ADDR.HALF c.val 0 d
    let b := rget ENG_IMEM_ADDR.BUNDLE c.val 0 d
    (bankBusy half d = true → Writes req (.imemWrite req c w) s (errAt Err.EPOCH_BUSY .ENG_IMEM_DATA c.val 0 d)) ∧
    (bankBusy half d = false → Does (.imemWrite req c w) s fun e =>
      bundleAt c.val half b e = img ∧ rget ENG_IMEM_ADDR.BUNDLE c.val 0 e = (b + 1) % 2048 ∧
      (flag ENG_IMEM_ADDR.BCAST c.val 0 d = true → ∀ t ∈ sameDir c.val d, bundleAt t half b e = img) ∧
      (flag ENG_IMEM_ADDR.BCAST c.val 0 d = false → ∀ t, t ≠ c.val → cluster t e = cluster t d) ∧
      ∀ t h k, h * 2048 + k ≠ half * 2048 + b → bundleAt t h k e = bundleAt t h k d)) ∧
  (∀ req (c : Fin 64) s d, Taken req s → d = reached (engPage c.val) s →
    let v := bundleAt c.val (rget ENG_IMEM_ADDR.HALF c.val 0 d) (rget ENG_IMEM_ADDR.BUNDLE c.val 0 d) d
    Does (.imemRead req c) s fun e => rget ENG_IMEM_DATA.BUNDLE c.val 0 e = v % 2 ^ 128 ∧ e.disp = d.disp ∧
      Out.readReply req (Reg.addr .ENG_IMEM_DATA c.val 0) (v % 2 ^ 32) ∈ e.out) ∧
  (∀ req (c : Fin 64) w s d img, Commits req .ENG_TRACE_CTRL c.val 0 (force w [(31, 31, 1)]) s d img →
    (expertOf (engPage c.val) d = true → Writes req (.engTraceArm req c w) s
      (rset ENG_TRACE_CTRL.ENGINE c.val 0 (ENG_TRACE_CTRL.ENGINE.of img) (rset ENG_TRACE_CTRL.ARM c.val 0 1 d))) ∧
    (expertOf (engPage c.val) d = false → Writes req (.engTraceArm req c w) s (errAt Err.EXPERT_LOCKED .ENG_TRACE_CTRL c.val 0 d))) ∧
  (∀ (c : Fin 64) scr (half : Fin 2) (w : BitVec 15) s d, Runs (33 + c.val) s d →
    Leaves (.engScrub c scr half w .clean) s d ∧ Leaves (.engScrub c scr half w .corrected) s (inc (engPage c.val) 11 d) ∧
    Does (.engScrub c scr half w .uncorrectable) s fun e => flag ENG_ECC_ADDR.VALID c.val 0 e = true ∧
      bit (face (engPage c.val) e).pend 2 = true ∧ (scr = true → w.toNat ∈ (cluster c.val e).badScratch) ∧
      (scr = false → half.val * 4096 + w.toNat % 4096 ∈ (cluster c.val e).badImem))

/-- R192, R193. The A slot against 64-bit words. -/
def Obligations.EngineArithmetic : Prop :=
  ∀ (rd ra rb : Fin 32) (g : Nat → BitVec 64),
    let word (op : Nat) : Nat := op * 2 ^ 26 + rd.val * 2 ^ 21 + ra.val * 2 ^ 16 + rb.val * 2 ^ 11
    let res (w : Nat) : Option (Option (Nat × Nat)) := (aSlot w fun r => (g r).toNat).map (·.wr)
    let a := g ra.val
    let b := g rb.val
    let ret (v : BitVec 64) : Option (Option (Nat × Nat)) := some (some (rd.val, v.toNat))
    let flg (c : Bool) : Option (Option (Nat × Nat)) := some (some (rd.val, c.toNat))
    res (word 0x01) = ret (a + b) ∧ res (word 0x02) = ret (a - b) ∧ res (word 0x03) = ret (a &&& b) ∧ res (word 0x04) = ret (a ||| b) ∧
    res (word 0x05) = ret (a ^^^ b) ∧ res (word 0x06) = ret (a &&& ~~~b) ∧ res (word 0x07) = ret (a <<< (b.toNat % 64)) ∧
    res (word 0x08) = ret (a >>> (b.toNat % 64)) ∧ res (word 0x09) = ret (a.sshiftRight (b.toNat % 64)) ∧
    res (word 0x0A) = ret (a.rotateRight (b.toNat % 64)) ∧ res (word 0x0B) = ret (if a.ult b then a else b) ∧
    res (word 0x0C) = ret (if a.ult b then b else a) ∧ res (word 0x0D) = ret ((a.setWidth 16).setWidth 64 * (b.setWidth 16).setWidth 64) ∧
    res (word 0x10) = flg (a == b) ∧ res (word 0x11) = flg (a != b) ∧ res (word 0x12) = flg (a.ult b) ∧ res (word 0x13) = flg (a.ule b) ∧
    (∀ rc : Fin 32, res (word 0x14 + rc.val * 2 ^ 6) = ret (if g rc.val = 0 then b else a)) ∧
    (∀ imm : BitVec 16, res (0x20 * 2 ^ 26 + rd.val * 2 ^ 21 + ra.val * 2 ^ 16 + imm.toNat) = ret (a + imm.signExtend 64)) ∧
    (∀ sh : BitVec 6, let w (op : Nat) : Nat := op * 2 ^ 26 + rd.val * 2 ^ 21 + ra.val * 2 ^ 16 + sh.toNat
      res (w 0x17) = ret (a <<< sh.toNat) ∧ res (w 0x18) = ret (a >>> sh.toNat) ∧ res (w 0x19) = ret (a.sshiftRight sh.toNat) ∧
      res (w 0x1A) = ret (a.rotateRight sh.toNat))

/-- R178, R198, R214, R218, R231, R232. -/
def Obligations.ReleaseAndRecirculation : Prop :=
  (∀ (q : BitVec 13) s d n p v, Runs (if q.toNat < 4096 then 32 else 97) s d → releasable q.toNat d = some (n, p) → p.verdict = some v →
    Does (.verdictRelease q) s fun e => look e.disp.queues q.toNat [] = (look d.disp.queues q.toNat []).erase n ∧
      (p.egress = false → (∀ c, v = .drop c → getPass n e = none ∧ e.cross.verdicts = d.cross.verdicts ++ [{ p.verd 1 p.rebuilt with code := c }]) ∧
        (∀ k nh, v = .fwd k nh → getPass n e = none ∧ e.cross.verdicts = d.cross.verdicts ++
          [{ p.verd 0 p.rebuilt with qid := k, nh := nh, cnt0 := p.acts.cnt0, cnt1 := p.acts.cnt1, meter := p.acts.mtr }]) ∧
        (∀ h, v = .punt h → getPass n e = none ∧ e.cross.verdicts = d.cross.verdicts ++
          [{ p.verd 2 p.rebuilt with hostq := h, cnt0 := p.acts.cnt0, cnt1 := p.acts.cnt1, meter := p.acts.mtr }])) ∧
      (∀ f, v = .recirc f → blkEn Pg.MDL d = true → d.head.mandrel.length < 4096 → e.head.mandrel = d.head.mandrel ++ [n] ∧
        ∃ x, getPass n e = some x ∧ x.stage = .mandrel ∧ x.bytes = p.rebuilt ∧ x.verdict = none) ∧
      (p.egress = true → ∀ c, v = .drop c → PX.COPY_HOST.get p.pcx = 0 → PX.MIRROR_EN.get p.pcx = 0 →
        getPass n e = none ∧ e.cross.dones = d.cross.dones ++ [(p.egPort, 1)]) ∧
      (∀ a, v = .send a → p.acts.etc.isSome = true → getPass n e = some { p with stage := .egressTcam }) ∧
      (∀ a, v = .send a → p.acts.etc = none → PX.COPY_HOST.get p.pcx = 0 → PX.MIRROR_EN.get p.pcx = 0 →
        getPass n e = none ∧ e.cross.dones = d.cross.dones ++ [(p.egPort, 1)])) ∧
  (∀ s d r t, Runs 97 s d → d.cross.arrived = r :: t → blkEn Pg.TLS d = true → Does .egressDispatch s fun e => e.cross.arrived = t ∧
    e.head.nextPass = d.head.nextPass + 1 ∧
    let out := bits r.ctx 76 69
    (flag TLS_PORTn_CFG.BYPASS 0 out d = true → e.cross.dones = d.cross.dones ++ [(out, 1)] ∧ getPass d.head.nextPass e = none ∧
      (linkState out d = 4 → ∃ f, (port out e).txWait = (port out d).txWait ++ [f] ∧
        f.bytes = r.bytes ++ List.replicate (60 - r.bytes.length) 0 ∧ f.cls = r.tc)) ∧
    (flag TLS_PORTn_CFG.BYPASS 0 out d = false →
      ∃ p, getPass d.head.nextPass e = some p ∧ p.egress = true ∧ p.bytes = r.bytes ∧ p.tag = r.tag ∧ p.tc = r.tc ∧
        (dispatchFull { egress := true, ctx := r.ctx } d = false → (pickCluster 1 d).isSome = true →
          p.stage ≠ .ready ∧ PX.BANK.get p.pcx = curBank d % 2 ∧ PX.SEQ.get p.pcx = curSeq d % 2 ^ 16) ∧
        (dispatchFull { egress := true, ctx := r.ctx } d = true → p.stage = .ready))) ∧
  (∀ bor s d n rest p, Runs 32 s d → mandrelMay bor d = true → blkEn Pg.HDS d = true → d.head.mandrel = n :: rest → getPass n d = some p → Does (.mandrelReenter bor) s fun e => e.head.mandrel = rest ∧
      (bor = false → e.head.mdl.used = (mdlShare d).used + 1) ∧
      (let bank := PX.BANK.get p.pcx
       let prof := PX.RECIRC_PROF.get p.pcx
       let x := parsePacket (parseCfg 248 d) p.bytes ((PX.HDR_TYPE 0).get p.pcx)
       profEcc bank prof d = false → flag (HDS_PROF.VALID bank) 0 prof d = true → parseDrop x 248 d = 0 →
        ∃ y, getPass n e = some y ∧ y.stage = .parsed ∧ y.prof = prof ∧ y.bytes = p.bytes ∧ y.pstart = x.pstart))

/-- R220 to R228. The epoch machine. -/
def Obligations.EpochSwitches : Prop :=
  let switched (seq : Nat) (late : Bool) (d e : Dev) : Prop := curBank e = 1 - curBank d ∧ curSeq e = seq ∧
    epcState e = (if inflight (curBank d) d = 0 then 0 else 2) ∧ bit (face Pg.EPC e).pend 0 = true ∧ rget EPC_LAST.VALID 0 0 e = 1 ∧
    rget EPC_LAST.LATE 0 0 e = b2n late ∧ rget EPC_LAST.SEQ 0 0 e = seq ∧ rget EPC_LAST.BANK 0 0 e = 1 - curBank d
  (∀ req w s d img (op : Nat), op ≤ 3 → Commits req .EPC_SWITCH 0 0 (go w 30 28 op) s d img → curBank d < 2 →
    let seq := EPC_SWITCH.SEQ.of img
    let ns := EPC_SWITCH.NS.of img
    let t := EPC_SWITCH.SEC.of img * 1000000000 + ns
    let chassis := flag EPC_CFG.CHASSIS 0 0 d
    let ready := epcState d = 0 ∧ seq ≠ curSeq d ∧ notReady d = 0
    (op = 0 → chassis = false → ready → Does (.switchNow req w) s fun e => switched seq false d e ∧ (face Pg.EPC e).errCode = (face Pg.EPC d).errCode) ∧
    (op = 0 → chassis = true → Does (.switchNow req w) s fun e => curBank e = curBank d ∧ (face Pg.EPC e).errCode = Err.BAD_ARG) ∧
    (op = 0 → chassis = false → epcState d = 0 → seq ≠ curSeq d → notReady d ≠ 0 → Does (.switchNow req w) s fun e =>
      curBank e = curBank d ∧ (face Pg.EPC e).errCode = Err.NOT_READY ∧ rget EPC_STAT.NR_CAUSE 0 0 e = notReady d) ∧
    (op = 0 → chassis = false → epcState d = 1 ∨ epcState d = 3 → Does (.switchNow req w) s fun e =>
      curBank e = curBank d ∧ (face Pg.EPC e).errCode = Err.EPOCH_BUSY) ∧
    (op = 1 → chassis = false → ns ≤ 999999999 → ready → nowNs d < t → ∀ i, lowestFree d.spn.acts 0 4096 = some i →
      Does (.switchAt req w) s fun e => epcState e = 1 ∧ curBank e = curBank d ∧
        find? e.spn.acts i = some { owner := 0xF200, kind := 3, t := t, switchSeq := seq }) ∧
    (op = 1 → chassis = false → ns ≤ 999999999 → ready → t ≤ nowNs d → flag EPC_X_CFG.STRICT 0 0 d = false →
      Does (.switchAt req w) s fun e => switched seq true d e) ∧
    (op = 1 → chassis = false → ns ≤ 999999999 → ready → t ≤ nowNs d → flag EPC_X_CFG.STRICT 0 0 d = true →
      Does (.switchAt req w) s fun e => curBank e = curBank d ∧ (face Pg.EPC e).errCode = Err.TIME_PAST) ∧
    (op = 2 → epcState d = 1 → (∀ a, epcEntry d = some a → nowNs d < a.t ∧ a.due = false) →
      Does (.epochCancel req w) s fun e => epcState e = 0 ∧ curBank e = curBank d ∧ epcEntry e = none) ∧
    (op = 2 → epcState d = 0 → Does (.epochCancel req w) s fun e => (face Pg.EPC e).errCode = Err.BAD_ARG ∧ curBank e = curBank d) ∧
    (op = 3 → isMgr d = true → chassis = true → d.epc.mgrSeq = none → ready → (∃ m, m ∈ otherMembers d) →
      Does (.chassisSwitch req w) s fun e => e.epc.mgrSeq = some seq ∧ e.epc.ready = [] ∧
        (blkEn Pg.FCT d = true → e.ctlQ = d.ctlQ ++ [{ dst := none, kind := 2, rec_ := epochRec 0 seq 0 0 }]))) ∧
  (∀ s d a, Runs 99 s d → curBank d < 2 → epcEntry d = some a → epcState d = 1 → (a.t ≤ nowNs d ∨ a.due = true) → a.switchSeq < 2 ^ 16 →
    Does .epochSwitch s fun e => switched a.switchSeq a.due d e ∧ epcEntry e = none) ∧
  (∀ s d, Runs 99 s d → epcState d = 2 → inflight (1 - curBank d) d = 0 → Does .drainComplete s fun e =>
    epcState e = 0 ∧ bit (face Pg.EPC e).pend 1 = true ∧ rget EPC_DRAIN_TIME.TIME 0 0 e = min ((d.mono - d.epc.drainAt) / 10) 0xFFFF) ∧
  (∀ s d, Runs 99 s d → epcState d = 2 → inflight (1 - curBank d) d ≠ 0 → d.epc.drainAt + 49000 ≤ d.mono →
    Does .drainForce s fun e => bit (face Pg.EPC e).pend 3 = true ∧
      ∀ n p, (n, p) ∈ d.head.passes → p.egress = false → p.bank = 1 - curBank d → (p.stage = .ready ∨ p.stage = .mandrel) → getPass n e = none) ∧
  (∀ s d, Runs 99 s d → epcState d = 3 → d.epc.prepAt + 10000000 ≤ d.mono → Does .prepareTimeout s fun e => epcState e = 0 ∧ bit (face Pg.EPC e).pend 4 = true ∧
    ctr Pg.EPC 0x1018 e = (ctr Pg.EPC 0x1018 d + 1) % 2 ^ 64) ∧
  (∀ s d seq, Runs 99 s d → d.epc.mgrSeq = some seq → d.epc.mgrAt + 1000000 ≤ d.mono → (∃ m ∈ d.epc.workers, m ∉ d.epc.ready) →
    Does .readyTimeout s fun e => e.epc.mgrSeq = none ∧ (face Pg.EPC e).errCode = 0x20 ∧ bit (face Pg.EPC e).pend 4 = true ∧
      (blkEn Pg.FCT d = true → e.ctlQ = d.ctlQ ++ [{ dst := none, kind := 2, rec_ := epochRec 4 seq 0 0 }]))

/-- R242 to R254. The chains of cells from allocation to their last reference. -/
def Obligations.CellsAndChains : Prop :=
  let plain (h : Nat) (d : Dev) : Prop := metaSeen h d = .clean ∧ (cell h d).alloc = true
  (∀ (r : CellReq) s d, Runs 101 s d → d.chk.held = [] → tagOk r.tag.toNat = false → Does (.allocCycle [] [] [r]) s fun e =>
    e.chk = { d.chk with ptr := (d.chk.ptr + 1) % 32 }) ∧
  (∀ (r : CellReq) s d h t, Runs 101 s d → d.chk.held = [] → tagOk r.tag.toNat = true → poolEn r.pool.val d = true → (pool r.pool.val d).cache = h :: t →
    Does (.allocCycle [] [] [r]) s fun e => e.chk.held = [] ∧ e.chk.ptr = (d.chk.ptr + 1) % 32 ∧
      Out.cellGrant r.port.val (some h) ∈ e.out ∧ pool r.pool.val e = { pool r.pool.val d with cache := t } ∧
      cell h e = { alloc := true, owner := r.tag.toNat, pool := r.pool.val, last := true } ∧ ∀ k, k ≠ h → cell k e = cell k d) ∧
  (∀ (r : CellReq) s d, Runs 101 s d → d.chk.held = [] → tagOk r.tag.toNat = true → poolEn r.pool.val d = true → (pool r.pool.val d).cache = [] →
    (poolFree r.pool.val d ≠ 0 → Does (.allocCycle [] [] [r]) s fun e => e.chk.cells = d.chk.cells ∧
      e.chk.held = [(r.port.val, r.pool.val, r.tag.toNat)]) ∧
    (poolFree r.pool.val d = 0 → flag CHK_POOLn_CFG.FB_EN 0 r.pool.val d = false → Does (.allocCycle [] [] [r]) s fun e =>
      e.chk.cells = d.chk.cells ∧ e.chk.held = [] ∧ Out.cellGrant r.port.val none ∈ e.out) ∧
    (let f := rget CHK_POOLn_CFG.FALLBACK 0 r.pool.val d
     poolFree r.pool.val d = 0 → flag CHK_POOLn_CFG.FB_EN 0 r.pool.val d = true → poolEn f d = true →
      ∀ h t, (pool f d).cache = h :: t → Does (.allocCycle [] [] [r]) s fun e => Out.cellGrant r.port.val (some h) ∈ e.out ∧
        (pool f e).cache = t ∧ (cell h e).owner = r.tag.toNat ∧ (cell h e).pool = f)) ∧
  (∀ (h : BitVec 22) (tag : BitVec 12) s d, Runs 101 s d → d.chk.held = [] → metaSeen h.toNat d = .clean → let m := cell h.toNat d
    (m.alloc = true → m.owner = tag.toNat → m.refs < 15 → Does (.allocCycle [(h, tag)] [] []) s fun e =>
      cell h.toNat e = { m with refs := m.refs + 1 } ∧ ∀ k, k ≠ h.toNat → cell k e = cell k d) ∧
    (m.alloc = true → m.owner = tag.toNat → 15 ≤ m.refs → Does (.allocCycle [(h, tag)] [] []) s fun e =>
      e.chk.cells = d.chk.cells ∧ look e.drops 0x65 0 = look d.drops 0x65 0 + 1) ∧
    (m.alloc = false ∨ m.owner ≠ tag.toNat → d.chk.badLog.length < 16 → Does (.allocCycle [(h, tag)] [] []) s fun e =>
      e.chk.cells = d.chk.cells ∧ e.chk.badLog.length = d.chk.badLog.length + 1 ∧ bit (face Pg.CHK e).pend 0 = true)) ∧
  (∀ (n : Fin 16) s d, Runs 101 s d →
    (64 ≤ (pool n.val d).cache.length ∨ poolEn n.val d = false → Leaves (.cacheRefill n) s d) ∧
    (poolEn n.val d = true → (pool n.val d).cache.length ≤ 48 → 16 ≤ (pool n.val d).list.length → Does (.cacheRefill n) s fun e =>
      (pool n.val e).cache = (pool n.val d).cache ++ (pool n.val d).list.take 16 ∧ (pool n.val e).list = (pool n.val d).list.drop 16) ∧
    (let f := (pool n.val d).fresh
     let at_ (i : Nat) : Nat := poolBase n.val d + (f + i) * poolStep n.val d
     poolEn n.val d = true → (pool n.val d).cache.length ≤ 48 → (pool n.val d).list = [] → f + 16 ≤ poolCount n.val d →
      (∀ i < 16, (cell (at_ i) d).alloc = false) → Does (.cacheRefill n) s fun e =>
        (pool n.val e).cache = (pool n.val d).cache ++ (List.range 16).map at_ ∧ (pool n.val e).fresh = f + 16)) ∧
  (∀ (src : Fin 130) s d, Runs 101 s d → blkEn Pg.CHK d = true →
    let n := rget CHK_SRCs_CFG.HEAD_POOL 0 src.val d
    let want := rget CHK_SRCs_CFG.CACHE 0 src.val d - ((look d.srcCache src.val []).length +
      ((d.cross.handles.filter fun x => x.1 == src.val).map (·.2.length)).sum)
    want ≤ 16 → poolEn n d = true → want ≤ (pool n d).cache.length → (src.val ∈ d.chk.starved → poolAvail d 5 n = true) → Does (.headCacheRequest src) s fun e =>
      ∃ l, e.cross.handles = d.cross.handles ++ l ∧ l.flatMap (·.2) = (pool n d).cache.take want ∧
        (∀ x ∈ l, x.1 = src.val ∧ x.2 ≠ [] ∧ x.2.length ≤ 6) ∧ (pool n e).cache = (pool n d).cache.drop want) ∧
  (∀ (src : Fin 130) s d, Runs 101 s d → src.val ∈ d.chk.starved → poolAvail d 5 (rget CHK_SRCs_CFG.HEAD_POOL 0 src.val d) = false →
    Leaves (.headCacheRequest src) s d) ∧
  (∀ s d k l t, Runs 101 s d → d.cross.handles = (k, l) :: t → Leaves .handlesRecord s
    { d with cross := { d.cross with handles := t }, srcCache := put d.srcCache k [] (look d.srcCache k [] ++ l) }) ∧
  (∀ s d r t b, Runs 101 s d → d.cross.bodies = r :: t → find? d.chk.builds r.cell = some b →
    (b.abort = true → Does .bodyRecord s fun e => e.chk.cells = d.chk.cells ∧ e.cross = { d.cross with bodies := t } ∧
      find? e.chk.builds r.cell = some { b with open_ := !r.last }) ∧
    (let n := bits r.src 27 24
     b.abort = false → b.last = r.cell → metaSeen r.cell d = .clean → r.bytes ≠ [] → poolEn n d = true → r.bytes.length ≤ 64 * poolStep n d →
      ∀ h c, (pool n d).cache = h :: c → h ≠ r.cell → Does .bodyRecord s fun e => e.cross = { d.cross with bodies := t } ∧
        find? e.chk.builds r.cell = some { b with open_ := !r.last, last := h, stored := b.stored + r.bytes.length } ∧
        cell r.cell e = { cell r.cell d with next := h, last := false } ∧
        cell h e = { alloc := true, owner := b.tag, pool := n, last := (cell r.cell d).last, next := (cell r.cell d).next, data := r.bytes })) ∧
  (∀ s d v t, Runs 101 s d → d.cross.verdicts = v :: t → Leaves .verdictRecord s
    { d with cross := { d.cross with verdicts := t }, chk := { d.chk with waiting := d.chk.waiting ++ [v] } }) ∧
  (∀ s d v b, Runs 101 s d → d.chk.waiting.find? (fun v => bodyEnded v d) = some v → find? d.chk.builds v.cell = some b → b.abort = false →
    (cell v.cell d).alloc = true → (cell v.cell d).owner = b.tag → v.copyHost = false → v.mirror = none →
    (v.kind ≠ 1 → plain v.cell d → v.cnt0 = none → v.cnt1 = none → v.head.length ≤ cellSize v.cell d → Does .verdictApply s fun e =>
      e.chk.waiting = d.chk.waiting.erase v ∧ find? e.chk.builds v.cell = none ∧
      e.tm.input = d.tm.input ++ [{ desc := v.desc b.tag d, dest := if v.kind = 2 then .host v.hostq else .voq, meter := v.meter }] ∧
      cell v.cell e = { cell v.cell d with data := v.head, refs := 1 }) ∧
    (v.kind = 1 → plain v.cell d → b.tag ≠ 0 → (cell v.cell d).refs ≤ 1 → (cell v.cell d).last = true → d.chk.badGran = [] → Does .verdictApply s fun e =>
      e.chk.waiting = d.chk.waiting.erase v ∧ find? e.chk.builds v.cell = none ∧ e.tm = d.tm ∧ (cell v.cell e).alloc = false)) ∧
  (∀ s d v b, Runs 101 s d → d.chk.waiting.find? (fun v => bodyEnded v d) = some v → find? d.chk.builds v.cell = some b → b.abort = true →
    b.code ≠ 0 → Does .verdictApply s fun e => e.chk.waiting = d.chk.waiting.erase v ∧ find? e.chk.builds v.cell = none ∧ e.tm = d.tm ∧
      (v.kind ≠ 1 → look e.drops b.code 0 = look d.drops b.code 0 + 1) ∧
      (v.kind = 1 → v.code ≠ b.code → look e.drops b.code 0 = look d.drops b.code 0 + 1 ∧ look e.drops v.code 0 = look d.drops v.code 0 - 1)) ∧
  (∀ (x : ChainFree) s d, Runs 101 s d → let h := x.handle.toNat
    let m := cell h d
    (plain h d → m.owner = x.tag.toNat → 1 < m.refs → Leaves (.freeChain x) s (setCell h { m with refs := m.refs - 1 } d)) ∧
    (plain h d → m.owner = x.tag.toNat → x.tag ≠ 0 → m.refs ≤ 1 → m.last = true → d.chk.badGran = [] → (pool m.pool d).cache.length < 64 →
      Does (.freeChain x) s fun e => (cell h e).alloc = false ∧ (cell h e).owner = 0 ∧
        (pool m.pool e).cache = (pool m.pool d).cache ++ [h] ∧ ∀ k, k ≠ h → cell k e = cell k d) ∧
    (∀ nxt, plain h d → m.owner = x.tag.toNat → x.tag ≠ 0 → m.refs ≤ 1 → m.last = false → m.next = nxt → nxt ≠ h → plain nxt d → d.chk.badGran = [] →
      (cell nxt d).owner = x.tag.toNat → (cell nxt d).last = true → Does (.freeChain x) s fun e =>
        (cell h e).alloc = false ∧ (cell nxt e).alloc = false) ∧
    (metaSeen h d = .clean → m.alloc = false → d.chk.badLog.length < 16 → Does (.freeChain x) s fun e => e.chk.cells = d.chk.cells ∧
      e.chk.badLog.length = d.chk.badLog.length + 1 ∧ bit (face Pg.CHK e).pend 0 = true) ∧
    (plain h d → m.owner ≠ x.tag.toNat → d.chk.badLog.length < 16 → Does (.freeChain x) s fun e => e.chk.cells = d.chk.cells ∧
      e.chk.badLog.length = d.chk.badLog.length + 1 ∧ bit (face Pg.CHK e).pend 0 = true))

/-- R241, R253, R256 to R259, R268. The registers of the Chuck. -/
def Obligations.PoolAndCellCommands : Prop :=
  (∀ req (n : Fin 16) w s d img, Commits req .CHK_POOLn_CFG 0 n.val w.toNat s d img → let c : Instr := .poolCfgWrite req n w
    (poolEn n.val d = false → CHK_POOLn_CFG.EN.on img = false → Writes req c s (storeFields false .CHK_POOLn_CFG 0 n.val img d)) ∧
    (poolEn n.val d = false → CHK_POOLn_CFG.EN.on img = true → poolBad n.val img d = true → Writes req c s (errAt Err.BAD_ARG .CHK_POOLn_CFG 0 n.val d)) ∧
    (poolEn n.val d = false → CHK_POOLn_CFG.EN.on img = true → poolBad n.val img d = false → d.chk.badGran = [] →
      (∀ x ∈ d.chk.cells, x.2.pool ≠ n.val) → Does c s fun e => poolEn n.val e = true ∧ pool n.val e = {} ∧
        poolBase n.val e = CHK_POOLn_CFG.BASE.of img ∧ poolCount n.val e = CHK_POOLn_CFG.COUNT.of img ∧
        rget CHK_POOLn_STAT.FREE 0 n.val e = CHK_POOLn_CFG.COUNT.of img ∧ (face Pg.CHK e).errCode = (face Pg.CHK d).errCode) ∧
    (poolEn n.val d = true → CHK_POOLn_CFG.EN.on img = true → CHK_POOLn_CFG.COUNT.of img ≠ CHK_POOLn_CFG.COUNT.of (regImg .CHK_POOLn_CFG 0 n.val d) →
      Writes req c s (errAt 0x20 .CHK_POOLn_CFG 0 n.val d)) ∧
    (poolEn n.val d = true → poolUsed n.val d = true → CHK_POOLn_CFG.EN.on img = false → Writes req c s (errAt 0x20 .CHK_POOLn_CFG 0 n.val d))) ∧
  (∀ req (n : Fin 16) w s d img, Commits req .CHK_POOLn_MIN 0 n.val w.toNat s d img →
    Writes req (.poolMinReset req n w) s (rset CHK_POOLn_MIN.MIN 0 n.val (poolFree n.val d) d)) ∧
  (∀ req w s d img (op : Nat), op ≤ 3 → Commits req .CHK_CELL_CMD 0 0 (go w 30 28 op) s d img →
    let h := CHK_CELL_CMD.HANDLE.of img
    let tag := CHK_CELL_CMD.OWNER.of img
    let n := CHK_CELL_CMD.POOL.of img
    let m := cell h d
    let same (e : Dev) : Prop := (face Pg.CHK e).errCode = (face Pg.CHK d).errCode
    (op = 0 → metaSeen h d = .clean → Does (.cellRead req w) s fun e => e.chk = d.chk ∧ same e ∧
      rget CHK_CELL_RES.META 0 0 e = metaWord h d % 2 ^ 64) ∧
    (op = 0 → metaSeen h d = .uncorrectable → Does (.cellRead req w) s fun e => e.chk = d.chk ∧ e.freeCtr = d.freeCtr + 1 ∧
      flag CHK_ECC_ADDR.VALID 0 0 e = true ∧ bit (face Pg.CHK e).pend 3 = true) ∧
    (op = 1 → tag < 0x010 ∨ 0x01F < tag ∨ poolEn n d = false → Does (.cellAlloc req w) s fun e =>
      e.chk.pools = d.chk.pools ∧ (face Pg.CHK e).errCode = Err.BAD_ARG) ∧
    (op = 1 → 0x010 ≤ tag → tag ≤ 0x01F → poolEn n d = true → ∀ c t, (pool n d).cache = c :: t → c < 2 ^ 22 → Does (.cellAlloc req w) s fun e =>
      same e ∧ rget CHK_CELL_CMD.HANDLE 0 0 e = c ∧ (pool n e).cache = t ∧
      cell c e = { alloc := true, owner := tag, pool := n, last := true, refs := 1 }) ∧
    (op = 1 → 0x010 ≤ tag → tag ≤ 0x01F → poolEn n d = true → (pool n d).cache = [] → poolFree n d = 0 → flag CHK_POOLn_CFG.FB_EN 0 n d = false →
      Does (.cellAlloc req w) s fun e => e.chk.cells = d.chk.cells ∧ (face Pg.CHK e).errCode = Err.RESOURCE_FULL) ∧
    (op = 2 → metaSeen h d = .clean → m.alloc = true → m.owner = tag → 1 < m.refs → Does (.cellFree req w) s fun e => same e ∧
      cell h e = { m with refs := m.refs - 1 } ∧ ∀ k, k ≠ h → cell k e = cell k d) ∧
    (op = 2 → metaSeen h d = .clean → m.alloc = true → m.owner = tag → m.refs ≤ 1 → m.last = true → Does (.cellFree req w) s fun e => same e ∧
      (d.chk.badGran = [] → tag ≠ 0 → (cell h e).alloc = false) ∧ ∀ k, k ≠ h → cell k e = cell k d) ∧
    (op = 2 → metaSeen h d = .clean → m.alloc = false → Does (.cellFree req w) s fun e => e.chk.cells = d.chk.cells ∧
      (face Pg.CHK e).errCode = Err.DOUBLE_FREE) ∧
    (op = 2 → metaSeen h d = .clean → m.alloc = true → m.owner ≠ tag → Does (.cellFree req w) s fun e => e.chk.cells = d.chk.cells ∧
      (face Pg.CHK e).errCode = Err.NOT_OWNER) ∧
    (op = 3 → expertOf Pg.CHK d = false → metaSeen h d = .clean → Does (.cellForceFree req w) s fun e => e.chk = d.chk ∧
      (face Pg.CHK e).errCode = Err.EXPERT_LOCKED) ∧
    (op = 3 → expertOf Pg.CHK d = true → m.alloc = true → m.owner ≠ 0 → d.chk.badGran = [] → metaSeen h d = .clean → Does (.cellForceFree req w) s fun e =>
      same e ∧ (cell h e).alloc = false ∧ ∀ k, k ≠ h → cell k e = cell k d)) ∧
  (∀ req s d, Taken req s → d = reached Pg.CHK s →
    (∀ x t, d.chk.badLog = x :: t → Does (.badfreeLogPop req) s fun e => e.chk = { d.chk with badLog := t } ∧
      Out.readReply req (Reg.addr .CHK_BADFREE_LOG 0 0) (x % 2 ^ 22) ∈ e.out) ∧
    (d.chk.badLog = [] → Does (.badfreeLogPop req) s fun e => e.chk = d.chk ∧ Out.readReply req (Reg.addr .CHK_BADFREE_LOG 0 0) 0 ∈ e.out)) ∧
  (∀ req w s d img, Commits req .CHK_MARCH_CTRL 0 0 (force w [(31, 31, 1)]) s d img → let mode := CHK_MARCH_CTRL.MODE.on img
    (rget CHK_MARCH_STAT.STATE 0 0 d = 1 → Writes req (.marchStart req w) s (errAt 0x21 .CHK_MARCH_CTRL 0 0 d)) ∧
    (rget CHK_MARCH_STAT.STATE 0 0 d ≠ 1 → mode = false → (face Pg.CHK d).en = true →
      Writes req (.marchStart req w) s (errAt Err.BAD_ARG .CHK_MARCH_CTRL 0 0 d)) ∧
    (rget CHK_MARCH_STAT.STATE 0 0 d ≠ 1 → mode = true ∨ (face Pg.CHK d).en = false → Does (.marchStart req w) s fun e =>
      rget CHK_MARCH_STAT.STATE 0 0 e = 1 ∧ rget CHK_MARCH_CTRL.MODE 0 0 e = b2n mode ∧
      e.chk = { d.chk with march := some (mode, CHK_MARCH_CTRL.RETIRE.on img) })) ∧
  (∀ fails s d, Runs 101 s d → rget CHK_MARCH_STAT.STATE 0 0 d = 1 → Does (.marchDone fails) s fun e =>
    rget CHK_MARCH_STAT.STATE 0 0 e = (if fails.isEmpty then 2 else 3) ∧ bit (face Pg.CHK e).pend 4 = true ∧
    rget CHK_MARCH_ERR.FAILS 0 0 e = fails.length % 2 ^ 32 ∧
    ((d.chk.march.getD (false, false)).1 = false → ∀ x ∈ e.chk.cells, x.2.alloc = true → x.2.owner = 0) ∧
    (phase d = 3 → stepDone 6 d = false → stepDone 6 e = true ∧ (d.sys.badPages.contains Pg.CHK = false → (face Pg.CHK e).ready = true))) ∧
  (∀ (g : BitVec 22) s d, Runs 101 s d → metaSeen g.toNat d = .clean →
    Leaves (.chkScrub g .clean) s d ∧ Leaves (.chkScrub g .corrected) s (metaFresh g.toNat (inc Pg.CHK 8 d)) ∧
    Does (.chkScrub g .uncorrectable) s fun e => g.toNat ∈ e.chk.badMeta ∧ bit (face Pg.CHK e).pend 3 = true ∧
      flag CHK_ECC_ADDR.VALID 0 0 e = true ∧ (flag CHK_ECC_ADDR.VALID 0 0 d = false → rget CHK_ECC_ADDR.GRANULE 0 0 e = g.toNat)) ∧
  (∀ req w s d img, Commits req .CHK_INJECT 0 0 (force w [(31, 31, 1)]) s d img →
    let plane := CHK_INJECT.PLANE.of img
    let b := CHK_INJECT.BIT.of img
    let x := (CHK_INJECT.GRANULE.of img, plane, b)
    (expertOf Pg.CHK d = false → Writes req (.chkInject req w) s (errAt Err.EXPERT_LOCKED .CHK_INJECT 0 0 d)) ∧
    (expertOf Pg.CHK d = true → (if plane = 1 then 71 else 575) < b → Writes req (.chkInject req w) s (errAt Err.BAD_ARG .CHK_INJECT 0 0 d)) ∧
    (expertOf Pg.CHK d = true → b ≤ (if plane = 1 then 71 else 575) → x ∉ d.chk.flips → Does (.chkInject req w) s fun e =>
      e.chk = { d.chk with flips := x :: d.chk.flips }))

/-- R260 to R265. A flit is its 384 bytes as they leave the sender, with the bits that the wires flip. -/
def Obligations.FlitsAndReplay : Prop :=
  let whole (f : Flit) : Prop := flitOf (flitBytes f) = f
  let recs (x : D2dDir) (f : Flit) (d : Dev) : List (List Nat) × List Nat := cutRecs d (x.tail ++ f.words).length (x.tail ++ f.words)
  let entry (x : D2dDir) (f : Flit) (d : Dev) : HeldFlit :=
    { seq := f.seq, words := f.words, first := f.first, resync := f.resync, recs := (recs x f d).1, at_ := d.mono }
  let isNew (t : Bool) (f : Flit) (d : Dev) : Prop := let x := dirOf t d
    whole f ∧ f.ftype = 1 ∧ f.seq = x.next ∧ x.held.length < 1024 ∧ f.resync = x.resync ∧ f.first = firstOf x.tail f.words d ∧
      (∀ h ∈ x.held, h.seq ≠ f.seq) ∧ ackTrue t f d = true
  let quiet (f : Flit) : Prop := f.ackv = false ∧ f.nak = false
  let fresh (x : D2dDir) (f : Flit) : Prop := f.resync = false ∧ x.skip = false ∧ x.part = [] ∧ x.tail = [] ∧ f.seq = x.exp
  let cnt (t : Bool) (i : Nat) (e : Dev) : Nat := ctr Pg.D2D (0x1000 + 8 * (if t then i else i + 8)) e
  (∀ t (f : Flit) flips s d, Runs 101 s d → let x := dirOf t d
    let c : Instr := .flitReceive t (flitBytes f) flips
    let clean : Instr := .flitReceive t (flitBytes f) []
    (d2dUp t d = false → ∀ sent, Leaves (.flitReceive t sent flips) s d) ∧
    (∀ sent, (∀ g : Flit, flitBytes g ≠ sent) → Leaves (.flitReceive t sent flips) s d) ∧
    (whole f → ackTrue t f d = false ∨ 1 < f.ftype → Leaves c s d) ∧
    (d2dUp t d = true → f.words = List.replicate 44 0 → isNew t f d → fresh x f → quiet f → Does clean s fun e => e.cross = d.cross ∧
      dirOf (!t) e = dirOf (!t) d ∧
      dirOf t e = { x with next := (x.next + 1) % 4096, held := x.held ++ [entry x f d], exp := (f.seq + 1) % 4096, got := true, bad := false } ∧
      cnt t 0 e = (cnt t 0 d + 1) % 2 ^ 64 ∧ cnt t 1 e = (cnt t 1 d + 1) % 2 ^ 64) ∧
    (∀ b sq, t = true → b < 2 → sq < 2 ^ 16 → d2dUp t d = true → isNew t f d → fresh x f → quiet f →
      f.words = recHead 4 0 false 1 0 :: (0x08 * 2 ^ 56 + b * 2 ^ 16 + sq) :: List.replicate 42 0 →
      Does clean s fun e => e.d2d.bank = b ∧ e.d2d.seq = sq ∧ (dirOf t e).exp = (f.seq + 1) % 4096) ∧
    (d2dUp t d = true → isNew t f d → flitGood (flipBits (flitBytes f) flips) = false → Does c s fun e => e.cross = d.cross ∧
      dirOf t e = { x with next := (x.next + 1) % 4096, held := x.held ++ [entry x f d], resync := false, tail := (recs x f d).2, bad := true } ∧
      cnt t 2 e = (cnt t 2 d + 1) % 2 ^ 64) ∧
    (whole f → f.ftype = 1 → (∀ h ∈ x.held, h.seq ≠ f.seq) → f.seq ≠ x.next → Leaves c s d) ∧
    (∀ h, whole f → f.ftype = 1 → x.held.find? (fun h => h.seq == f.seq) = some h → h.words = f.words → h.first = f.first → h.resync = f.resync →
      f.seq ≠ x.exp → seqUpTo f.seq x.exp = true → quiet f → Leaves clean s d) ∧
    (d2dUp t d = true → whole f → f.ftype = 0 → f.nak = false → f.ackv = true → ackTrue t f d = true → let y := dirOf (!t) d
      Leaves clean s (setDir (!t) { y with held := y.held.dropWhile fun h => seqUpTo h.seq f.ack } d)) ∧
    (∀ h l, d2dUp t d = true → whole f → f.ftype = 0 → f.nak = true → f.ackv = false → ackTrue t f d = true → (dirOf (!t) d).held = h :: l →
      h.tries < rget D2D_CFG.REPLAY_LIMIT 0 0 d → let y := dirOf (!t) d
      Does clean s fun e => dirOf (!t) e = { y with held := y.held.map fun h => { h with tries := h.tries + 1, at_ := d.mono } } ∧
        dirOf t e = x ∧ cnt (!t) 3 e = (cnt (!t) 3 d + y.held.length) % 2 ^ 64)) ∧
  (∀ t s d h l, Runs 101 s d → (dirOf t d).held = h :: l → let x := dirOf t d
    (h.at_ + rget D2D_CFG.REPLAY_TMO 0 0 d ≤ d.mono → h.tries < rget D2D_CFG.REPLAY_LIMIT 0 0 d → Does (.replayTimeout t) s fun e =>
      dirOf t e = { x with held := x.held.map fun h => { h with tries := h.tries + 1, at_ := d.mono } } ∧
      cnt t 3 e = (cnt t 3 d + x.held.length) % 2 ^ 64 ∧ e.cross = d.cross) ∧
    (d.mono < h.at_ + rget D2D_CFG.REPLAY_TMO 0 0 d ∨ rget D2D_CFG.REPLAY_LIMIT 0 0 d ≤ h.tries → Leaves (.replayTimeout t) s d) ∧
    (h.tries < rget D2D_CFG.REPLAY_LIMIT 0 0 d → Leaves (.flitLost t) s d) ∧
    (rget D2D_CFG.REPLAY_LIMIT 0 0 d ≤ h.tries → Does (.flitLost t) s fun e =>
      dirOf t e = { x with held := [], resync := true, tail := [] } ∧ cnt t 4 e = (cnt t 4 d + x.held.length) % 2 ^ 64 ∧
      bit (face Pg.D2D e).pend 0 = true ∧ (x.tail = [] → (∀ y ∈ x.held, ∀ r ∈ y.recs, r = [0]) → e.cross = d.cross ∧ e.chk = d.chk) ∧
      (∀ r, t = false → x.tail = [] → x.held.flatMap (·.recs) = [egressWords r] → d.cross.egress = [r] → r.bad = false →
        e.cross.egress = [] ∧ look e.drops 0x62 0 = look d.drops 0x62 0 + 1))) ∧
  (∀ t pass s d, Runs 101 s d → let spare := if t then D2D_STAT.SPARE_FT else D2D_STAT.SPARE_TF
    let n := rget spare 0 0 d
    let x := dirOf t d
    let due := x.calAt + rget D2D_X_CAL.CAL_MS 0 0 d * 1000000 ≤ d.mono
    (d2dUp t d = false ∨ n = 0 ∨ ¬due → Leaves (.wireCal t pass) s d) ∧
    (d2dUp t d = true → 0 < n → due → Leaves (.wireCal t true) s (setDir t { x with wire := nextWire x.retired 3072 x.wire, calAt := d.mono } d)) ∧
    (d2dUp t d = true → 0 < n → n < 256 → due → Does (.wireCal t false) s fun e => rget spare 0 0 e = n - 1 ∧ cnt t 6 e = (cnt t 6 d + 1) % 2 ^ 64 ∧
      (dirOf t e).retired = x.wire :: x.retired ∧
      bit (face Pg.D2D e).pend 1 = true ∧ bit (face Pg.D2D e).pend 2 = (bit (face Pg.D2D d).pend 2 || decide (n - 1 < 8))))

/-- R254, R262, R263, R267, R332, R446, R523. -/
def Obligations.RecordsBetweenTheDies : Prop :=
  let cfg := BitVec.ofNat 28 (Reg.addr .D2D_CFG 0 0)
  (∀ req (w : BitVec 32) s d img, islOn 101 s.dev = true → s.dev.sys.isl1us.contains 101 = false → Commits req .D2D_CFG 0 0 w.toNat s d img →
    let t := D2D_CFG.REPLAY_TMO.of img
    (20 ≤ t → t ≤ 1000 → D2D_CFG.REPLAY_LIMIT.of img ≠ 0 → Writes req (.d2dRegWr req cfg w) s (storeFields false .D2D_CFG 0 0 img d)) ∧
    (t < 20 → Writes req (.d2dRegWr req cfg w) s (errAt Err.BAD_ARG .D2D_CFG 0 0 d))) ∧
  (∀ req (addr : BitVec 28) (w : BitVec 32) (tag : BitVec 8) s d, Runs 101 s d → onTmDie (addr.toNat / 65536) = false →
    Leaves (.d2dRegWr req addr w) s d ∧ Leaves (.d2dRegRd req tag addr) s d) ∧
  (∀ req (tag : BitVec 8) s d, Runs 101 s d → s.dev.sys.isl1us.contains 101 = false → alive s.dev = true → Leaves (.d2dRegRd req tag cfg) s
    { d with d2d := { d.d2d with rsp := d.d2d.rsp ++ [(tag.toNat, imgWord (regImg .D2D_CFG 0 0 d) 0)] } }) ∧
  (∀ s d tag v t, Runs 101 s d → d.d2d.rsp = (tag, v) :: t →
    Leaves .d2dRegRsp s { d with out := .regRsp tag v :: d.out, d2d := { d.d2d with rsp := t } }) ∧
  (∀ (p : Page) s d, Runs 101 s d → let n := pageNum p
    (onTmDie n = true → Leaves (.eventRecord p) s { d with evt := { d.evt with tmPend := put d.evt.tmPend n 0 (face n d).pend } }) ∧
    (onTmDie n = false → Leaves (.eventRecord p) s d)) ∧
  (∀ s d port n t, Runs 101 s d → d.cross.dones = (port, n) :: t → Does .doneRecord s fun e => e.cross = { d.cross with dones := t } ∧
    look e.chk.sent port [] = (look d.chk.sent port []).drop n ∧
    (∀ c, look d.chk.sent port [] = [c] → n = 1 → metaSeen c.1 d = .clean → (cell c.1 d).alloc = true → (cell c.1 d).owner = c.2 →
      c.2 ≠ 0 → (cell c.1 d).refs ≤ 1 → (cell c.1 d).last = true → d.chk.badGran = [] → (cell c.1 e).alloc = false)) ∧
  (∀ s d, Runs 101 s d →
    (markerLabel d < 2 ^ 64 → Leaves .timeRecord s { d with d2d := { d.d2d with label := markerLabel d, rate := toBits 32 d.spn.rate } }) ∧
    Leaves .epochRecord s { d with d2d := { d.d2d with bank := curBank d, seq := curSeq d } }) ∧
  (∀ s, (s.dev.sys.resetRec = none → Leaves .resetRecord s s.dev) ∧
    (s.dev.sys.resetRec ≠ none → Does .resetRecord s fun e => e.sys.resetRec = none ∧
      ∀ p, pageExists p = true → onTmDie p = true → (face p e).key = .idle ∧ (face p e).expert = false ∧
        (face p e).pend = 0 ∧ (face p e).mask = 0xFFFFFFFF ∧ (face p e).errCode = 0 ∧ (face p e).en = (face p s.dev).en)) ∧
  (∀ (st : BitVec 8) s d, Runs 101 s d → let under := d.cross.egress.find? fun r => r.port == st.toNat
    ((∀ r, under = some r → r.off = 0) → Leaves (.abortRecord false st) s d) ∧
    (∀ r, under = some r → r.off ≠ 0 → Does (.abortRecord false st) s fun e => e.cross.egress = d.cross.egress.erase r ∧
      e.cross.arrived = d.cross.arrived ++ [{ r with bytes := r.bytes.take r.off, bad := true }] ∧ e.chk = d.chk) ∧
    (streamCell st.toNat d = none → Leaves (.abortRecord true st) s d) ∧
    (∀ k b, streamCell st.toNat d = some k → find? d.chk.builds k = some b → Does (.abortRecord true st) s fun e =>
      find? e.chk.builds k = some { b with open_ := false, abort := true, code := if b.abort then b.code else 0x62 } ∧
      (∀ r ∈ e.cross.bodies, r.cell ≠ k) ∧ ((cell k d).alloc = true → (cell k d).owner = b.tag → (cell k e).abort = true))) ∧
  (∀ s d r t, Runs 101 s d → d.cross.egress = r :: t →
    Leaves .egressRecord s { d with cross := { d.cross with egress := t, arrived := d.cross.arrived ++ [{ r with off := r.bytes.length }] } })

/-- R271, R286 to R293, R296. -/
def Obligations.TrainingRatesAndTemperature : Prop :=
  let st_ (st : Fin 4) (d : Dev) : Nat := rget HBM_ID.STATE st.val 0 d
  let step_ (st : Fin 4) (d : Dev) : Nat := rget HBM_TRAIN_STAT.STEP st.val 0 d
  let pg (st : Fin 4) : Nat := Pg.HBM + st.val
  let calm (st : Fin 4) (d : Dev) : Prop := flag HBM_FREQ.PEND st.val 0 d = false
  let pcAfter (st : Fin 4) (mask : BitVec 32) (e : Dev) : Prop := ∀ k : Fin 32, mask.getLsbD k.val = false → pcState (32 * st.val + k.val) e = 0
  let failed (st : Fin 4) (mask : BitVec 32) (e : Dev) : Prop := ∀ k : Fin 32, mask.getLsbD k.val = true → pcState (32 * st.val + k.val) e = 3
  let whole (st : Fin 4) (d : Dev) : Prop := ∀ k : Fin 32, pcState (32 * st.val + k.val) d ≠ 3
  let blocks (banks : BitVec 7) (rows : BitVec 20) : Nat := 4 * banks.toNat * rows.toNat
  let cap (banks : BitVec 7) (rows : BitVec 20) : Nat := if blocks banks rows = 3145728 then 1 else if blocks banks rows = 6291456 then 2 else 0
  (∀ st (banks : BitVec 7) (rows : BitVec 20) (mask : BitVec 32) (bad : Fin 8) s d, Runs (103 + st.val) s d → st_ st d = 1 → calm st d → step_ st d = 1 →
    cap banks rows ≠ 0 →
    (Does (.hbmTrainDone st 1 (.device banks rows) mask bad) s fun e => st_ st e = 1 ∧ step_ st e = 2 ∧ (face (pg st) e).ready = true ∧
      rget HBM_ID.CAP st.val 0 e = cap banks rows) ∧
    (whole st d → 2 ≤ bad.val → bad.val ≤ 6 → Does (.hbmTrainDone st 7 (.device banks rows) mask bad) s fun e =>
      st_ st e = (if mask = BitVec.allOnes 32 then 3 else 2) ∧ step_ st e = 0 ∧ rget HBM_ID.CAP st.val 0 e = cap banks rows ∧
      rget HBM_ID.BANKS st.val 0 e = banks.toNat ∧ rget HBM_ID.ROWS st.val 0 e = rows.toNat ∧ pcAfter st mask e ∧ failed st mask e ∧
      (∀ k : Fin 32, pcFreeCount (32 * st.val + k.val) e = blocks banks rows) ∧ bit (face (pg st) e).pend 0 = true ∧
      (face (pg st) e).ready = true ∧ (face (pg st) e).busy = false)) ∧
  (∀ st (last : Fin 8) mask bad s d, Runs (103 + st.val) s d → st_ st d = 1 → calm st d → 1 ≤ last.val → step_ st d = 1 →
    (Does (.hbmTrainDone st last .absent mask bad) s fun e => st_ st e = 0 ∧ step_ st e = 0 ∧ (face (pg st) e).ready = true) ∧
    (Does (.hbmTrainDone st last .failed mask bad) s fun e => st_ st e = 3 ∧ step_ st e = 0 ∧ rget HBM_TRAIN_STAT.FAIL_STEP st.val 0 e = 1) ∧
    (∀ banks rows, cap banks rows = 0 → Does (.hbmTrainDone st last (.device banks rows) mask bad) s fun e => st_ st e = 4 ∧ step_ st e = 0 ∧
      (face (pg st) e).ready = true)) ∧
  (∀ st (last : Fin 8) id mask bad s d, Runs (103 + st.val) s d → st_ st d = 1 →
    (last.val < step_ st d → Leaves (.hbmTrainDone st last id mask bad) s d) ∧
    (calm st d → 2 ≤ last.val → last.val ≤ 6 → step_ st d = last.val → Does (.hbmTrainDone st last id mask last) s fun e =>
      st_ st e = 1 ∧ step_ st e = last.val + 1 ∧ failed st mask e)) ∧
  (∀ st (last : Fin 8) id mask bad s d, Runs (103 + st.val) s d → flag HBM_FREQ.PEND st.val 0 d = true →
    rget HBM_FREQ.REQ st.val 0 d ≠ rget HBM_FREQ.CUR st.val 0 d → rget HBM_FREQ.REQ st.val 0 d ≤ 2 → 1 ≤ step_ st d → step_ st d ≤ last.val →
    let n := rget HBM_TRAIN_STAT.DISCARDS st.val 0 d
    (st_ st d = 1 → Does (.hbmTrainDone st last id mask bad) s fun e => st_ st e = 1 ∧ flag HBM_FREQ.PEND st.val 0 e = false ∧
      rget HBM_FREQ.CUR st.val 0 e = rget HBM_FREQ.REQ st.val 0 d ∧ step_ st e = (if step_ st d ≤ 2 then step_ st d else 3) ∧
      rget HBM_TRAIN_STAT.DISCARDS st.val 0 e = min (n + 1) 255) ∧
    (st_ st d = 5 → Does (.freqDone st last mask) s fun e => st_ st e = 5 ∧ step_ st e = 3 ∧
      rget HBM_FREQ.CUR st.val 0 e = rget HBM_FREQ.REQ st.val 0 d ∧ rget HBM_TRAIN_STAT.DISCARDS st.val 0 e = min (n + 1) 255)) ∧
  (∀ req st w s d img, Commits req .HBM_FREQ st.val 0 w.toNat s d img → let r := HBM_FREQ.REQ.of img
    (2 < r → Writes req (.hbmFreqWrite req st w) s (errAt Err.BAD_ARG .HBM_FREQ st.val 0 d)) ∧
    (r ≤ 2 → step_ st d ≠ 0 ∨ st_ st d ≠ 2 → Writes req (.hbmFreqWrite req st w) s (rset HBM_FREQ.PEND st.val 0 1 (rset HBM_FREQ.REQ st.val 0 r d))) ∧
    (r ≤ 2 → step_ st d = 0 → st_ st d = 2 → Does (.hbmFreqWrite req st w) s fun e => flag HBM_FREQ.PEND st.val 0 e = true ∧
      rget HBM_FREQ.REQ st.val 0 e = r ∧ ∀ k : Fin 32, pcState (32 * st.val + k.val) e = (if pcState (32 * st.val + k.val) d = 3 then 3 else 2))) ∧
  (∀ st (last : Fin 8) mask s d, Runs (103 + st.val) s d →
    (flag HBM_FREQ.PEND st.val 0 d = true → st_ st d = 2 → step_ st d = 0 →
      (∀ k < 32, rget HBM_PCk_STAT.OUTST st.val k d = 0 ∧ writeQueue (32 * st.val + k) d = []) → (∀ w ∈ d.hbm.wwait, stackOf w.handle ≠ st.val) →
      rget HBM_FREQ.REQ st.val 0 d ≤ 2 → Does (.freqSwitch st) s fun e => st_ st e = 5 ∧ step_ st e = 3 ∧ flag HBM_FREQ.PEND st.val 0 e = false ∧
        rget HBM_FREQ.CUR st.val 0 e = rget HBM_FREQ.REQ st.val 0 d ∧ (face (pg st) e).busy = true) ∧
    (flag HBM_FREQ.PEND st.val 0 d = false ∨ (∃ k < 32, rget HBM_PCk_STAT.OUTST st.val k d ≠ 0 ∨ writeQueue (32 * st.val + k) d ≠ []) →
      Leaves (.freqSwitch st) s d) ∧
    (st_ st d = 5 → calm st d → 3 ≤ step_ st d → step_ st d ≤ 6 → 6 ≤ last.val → mask ≠ BitVec.allOnes 32 → whole st d →
      Does (.freqDone st last mask) s fun e =>
        st_ st e = 2 ∧ step_ st e = 0 ∧ pcAfter st mask e ∧ failed st mask e ∧ bit (face (pg st) e).pend 7 = true) ∧
    (st_ st d = 5 → calm st d → 3 ≤ step_ st d → step_ st d = last.val → last.val ≤ 5 → Does (.freqDone st last mask) s fun e =>
      st_ st e = 5 ∧ step_ st e = last.val + 1 ∧ failed st mask e)) ∧
  (∀ st (k : Fin 32) s d, Runs (103 + st.val) s d → let pc := 32 * st.val + k.val
    (st_ st d = 2 → step_ st d = 0 → pcState pc d ≤ 1 → retrainDue st.val k.val d = true → Does (.retrain st k) s fun e =>
      pcState pc e = 2 ∧ step_ st e = 5 ∧ find? e.hbm.retrain st.val = some (pc, pcState pc d) ∧ (face (pg st) e).busy = true) ∧
    (step_ st d ≠ 0 ∨ 2 ≤ pcState pc d ∨ retrainDue st.val k.val d = false → Leaves (.retrain st k) s d)) ∧
  (∀ st ok s d (k : Fin 32) old, Runs (103 + st.val) s d → find? d.hbm.retrain st.val = some (32 * st.val + k.val, old) → old ≤ 1 → calm st d →
    Does (.retrainDone st ok) s fun e => pcState (32 * st.val + k.val) e = (if ok then old else 3) ∧ step_ st e = 0 ∧
      find? e.hbm.retrain st.val = none ∧ ctr (pg st) 0x1048 e = (ctr (pg st) 0x1048 d + 1) % 2 ^ 64) ∧
  (∀ st (t : BitVec 8) s d, Runs (103 + st.val) s d → rget HBM_TEMP.MAX st.val 0 d < 256 → Does (.hbmTempSample st t) s fun e =>
    rget HBM_TEMP.TEMP st.val 0 e = t.toNat ∧ rget HBM_TEMP.MAX st.val 0 e = max t.toNat (rget HBM_TEMP.MAX st.val 0 d) ∧
    flag HBM_TEMP.HOT2X st.val 0 e = (if flag HBM_TEMP.HOT2X st.val 0 d then decide (83 < t.toNat) else decide (85 < t.toNat)) ∧
    flag HBM_TEMP.NOALLOC st.val 0 e = (if flag HBM_TEMP.NOALLOC st.val 0 d then decide (100 < t.toNat) else decide (105 ≤ t.toNat)) ∧
    (flag HBM_TEMP.HOT2X st.val 0 d = false → 85 < t.toNat → bit (face (pg st) e).pend 5 = true)) ∧
  (∀ req st w s d img, Commits req .HBM_TEMP st.val 0 w.toNat s d img →
    Writes req (.hbmTempMaxWrite req st w) s (rset HBM_TEMP.MAX st.val 0 (rget HBM_TEMP.TEMP st.val 0 d) d)) ∧
  (∀ st (k : Fin 32) (lat : BitVec 32) (rr : BitVec 16) s d, Runs (103 + st.val) s d → let pc := 32 * st.val + k.val
    let beyond := rget HBM_X_SLOW.SLOW_NS st.val 0 d < lat.toNat ∨ rget HBM_X_SLOW.REREADS st.val 0 d < rr.toNat
    (pcState pc d = 0 → ¬beyond → Leaves (.pcSlowWindow st k lat rr) s d) ∧
    (pcState pc d = 0 → beyond → Does (.pcSlowWindow st k lat rr) s fun e => pcState pc e = 1 ∧ bit (face (pg st) e).pend 4 = true) ∧
    (pcState pc d = 1 → 0 < rget HBM_X_SLOW.HOLD_MS st.val 0 d → Does (.pcSlowWindow st k lat rr) s fun e =>
      (beyond → pcState pc e = 1 ∧ look e.hbm.okWin pc 0 = 0) ∧
      (¬beyond → pcState pc e = (if rget HBM_X_SLOW.HOLD_MS st.val 0 d * 100 ≤ look d.hbm.okWin pc 0 + 1 then 0 else 1))) ∧
    (2 ≤ pcState pc d → Leaves (.pcSlowWindow st k lat rr) s d)) ∧
  (∀ (h : BitVec 30) (rs : List (List (Fin 2176))) s d, let st := stackOf h.toNat
    Runs (103 + st) s d →
    let reads := flag HBM_SCRUB.EN st 0 d = true ∧ pcState (pcOf h.toNat) d ≤ 1 ∧ blkOf h.toNat < (pcFree (pcOf h.toNat) d).hwm
    (¬reads → Leaves (.hbmScrub h rs) s d) ∧
    (∀ x, reads → blockHeld h.toNat d = some x → imgGood (imgFlip (rs.headD []) x) = true →
      Leaves (.hbmScrub h rs) s (inc (Pg.HBM + st) 1 (openRow h.toNat d))) ∧
    (∀ x, reads → blockHeld h.toNat d = some x → (∀ i < 3, imgGood (imgFlip (rs.getD i []) x) = false) → Does (.hbmScrub h rs) s fun e =>
      bit (face (Pg.HBM + st) e).pend 6 = true ∧ flag HBM_ERR_ADDR.VALID st 0 e = true ∧
      (flag HBM_ERR_ADDR.VALID st 0 d = false → rget HBM_ERR_ADDR.HANDLE st 0 e = h.toNat ∧ rget HBM_ERR_ADDR.KIND st 0 e = 2))) ∧
  (∀ req st w s d img, Commits req .HBM_X_INJECT st.val 0 (force w [(31, 31, 1)]) s d img → let c : Instr := .hbmInject req st w
    (flag HBM_X_INJECT.GO st.val 0 d = true → Writes req c s (errAt Err.BAD_ARG .HBM_X_INJECT st.val 0 d)) ∧
    (flag HBM_X_INJECT.GO st.val 0 d = false → expertOf (pg st) d = false → Writes req c s (errAt Err.EXPERT_LOCKED .HBM_X_INJECT st.val 0 d)) ∧
    (flag HBM_X_INJECT.GO st.val 0 d = false → expertOf (pg st) d = true → 2175 < HBM_X_INJECT.BIT.of img →
      Writes req c s (errAt Err.BAD_ARG .HBM_X_INJECT st.val 0 d)) ∧
    (flag HBM_X_INJECT.GO st.val 0 d = false → expertOf (pg st) d = true → HBM_X_INJECT.BIT.of img ≤ 2175 → Does c s fun e =>
      flag HBM_X_INJECT.GO st.val 0 e = true ∧ rget HBM_X_INJECT.PC st.val 0 e = HBM_X_INJECT.PC.of img ∧
      rget HBM_X_INJECT.BIT st.val 0 e = HBM_X_INJECT.BIT.of img ∧ e.hbm = d.hbm))

/-- R275 to R281, R311. -/
def Obligations.SpillStreams : Prop :=
  let fits (r : SpillRec) (b : Blk) : Prop := b.ofs < r.start + 32 + r.desc.len ∧ r.start < b.ofs + b.used
  let bytes (r : SpillRec) (b : Blk) (data : Bytes) : Bytes := (data.take b.used).drop (r.start - b.ofs)
  let desc (q : Nat) (r : SpillRec) (b : Blk) (data : Bytes) (d : Dev) : Desc := recordDesc q (beAt (bytes r b data) 0 32) d
  let body (q : Nat) (r : SpillRec) (b : Blk) (data : Bytes) (d : Dev) : Bytes := ((bytes r b data).drop 32).take (desc q r b data d).len
  let marked (r : SpillRec) (b : Blk) (data : Bytes) : Prop := bits (beAt (bytes r b data) 0 32) 54 48 = 0x5A
  let room (l : Bytes) (d : Dev) (c : Nat) (t : List Nat) : Prop := let n := rget CHK_SRCs_CFG.BODY_POOL 0 131 d
    poolEn n d = true ∧ (pool n d).cache = c :: t ∧ l.length ≤ 64 * poolStep n d ∧ d.hbm.wq = [] ∧ d.hbm.wwait = []
  let back (q : Nat) (r : SpillRec) (b : Blk) (data : Bytes) (c : Nat) (d e : Dev) : Prop :=
    (queue q e).pkts = (queue q d).pkts ++ [{ desc q r b data d with head := c }] ∧ (cell c e).data = body q r b data d ∧
      (cell c e).owner = (desc q r b data d).tag ∧ (queue q e).spilled = false ∧ stream q e = {}
  (∀ rs s d q x rest, Runs 102 s d → d.tm.spillIn = (q, x) :: rest → (∀ y ∈ rest, y.1 ≠ q) → metaSeen x.head d = .clean →
    (cell x.head d).last = true → dataSeen x.head (poolStep (cell x.head d).pool d) d = .clean → (stream q d).blocks = [] → (stream q d).pre = [] →
    x.rebuilt = none → x.len ≤ (cell x.head d).data.length → let n := (32 + x.len + 255) / 256 + 1
    (∀ pc < 128, pcUsable pc d = true → n ≤ (pcFree pc d).cache.length) → (∃ pc < 128, pcUsable pc d = true) → Does (.spillWrite rs) s fun e =>
      e.tm.spillIn = rest ∧ (stream q e).recs = (stream q d).recs ++ [{ desc := x, start := (stream q d).wpos }] ∧
      (stream q e).wpos = (stream q d).wpos + 32 + x.len ∧ queue q e = queue q d) ∧
  (∀ rs s d q x rest, Runs 102 s d → d.tm.spillIn = (q, x) :: rest → metaSeen x.head d = .clean → (cell x.head d).last = true →
    dataSeen x.head (poolStep (cell x.head d).pool d) d = .clean → (stream q d).blocks = [] → (stream q d).pre = [] →
    (∀ pc < 128, pcUsable pc d = false) → Does (.spillWrite rs) s fun e => e.tm.spillIn = rest ∧ e.hbm.pcs = d.hbm.pcs ∧ e.hbm.mem = d.hbm.mem ∧
      look e.drops 0xD2 0 = look d.drops 0xD2 0 + 1 ∧ (queue q e).spillPkts = (queue q d).spillPkts - 1 ∧
      (queue q e).bytes = (queue q d).bytes - x.len ∧ bit (face Pg.HBM e).pend 8 = true) ∧
  (∀ (q : BitVec 19) s d, Runs 102 s d → let x := queue q.toNat d
    let lim := rget TMS_CFG.PREFETCH 0 0 d * 1024
    let chip := x.bytes - x.spillBytes + x.asked
    (x.spilled = false ∨ (stream q.toNat d).stalled = true ∨ lim ≤ chip → Leaves (.hbmReadIssue q) s d) ∧
    (∀ b, x.spilled = true → (stream q.toNat d).stalled = false → chip < lim → (stream q.toNat d).blocks = [b] → b.at_ = .written →
      (pcState (pcOf b.handle) d = 2 → Leaves (.hbmReadIssue q) s d) ∧
      (pcState (pcOf b.handle) d ≤ 1 → rget HBM_PCk_STAT.OUTST (stackOf b.handle) (pcOf b.handle % 32) d < 32 →
        bufferUsed (stackOf b.handle) d < 1024 → Does (.hbmReadIssue q) s fun e =>
        (stream q.toNat e).blocks = [{ b with at_ := .reading }] ∧ (queue q.toNat e).asked = x.asked + b.used ∧
        rget HBM_PCk_STAT.OUTST (stackOf b.handle) (pcOf b.handle % 32) e = rget HBM_PCk_STAT.OUTST (stackOf b.handle) (pcOf b.handle % 32) d + 1) ∧
      (pcState (pcOf b.handle) d = 3 → Does (.hbmReadIssue q) s fun e => stream q.toNat e = {} ∧ (queue q.toNat e).spilled = false ∧
        look d.drops 0xD3 0 + (stream q.toNat d).recs.length ≤ look e.drops 0xD3 0))) ∧
  (∀ (h : BitVec 30) flips s d, Runs (103 + stackOf h.toNat) s d → readerOf h.toNat d = none → (∀ x ∈ d.hbm.strays, x.1 ≠ h.toNat) →
    Leaves (.blockReturn h flips) s d) ∧
  (∀ (h : BitVec 30) flips s d q b img, let page := Pg.HBM + stackOf h.toNat
    Runs (103 + stackOf h.toNat) s d → readerOf h.toNat d = some (q, b) → blockHeld h.toNat d = some img → let x := imgFlip flips img
    (∀ r c t, imgGood x = true → imgSeq x = b.seq → (stream q d).blocks = [b] → (stream q d).recs = [r] → (stream q d).stalled = false → fits r b →
      marked r b x.data → room (body q r b x.data d) d c t → (queue q d).spillPkts = 1 →
      Does (.blockReturn h flips) s fun e => back q r b x.data c d e) ∧
    (imgGood x = false → b.tries < 2 → pcState (pcOf b.handle) d ≠ 3 → Does (.blockReturn h flips) s fun e => queue q e = queue q d ∧
      (stream q e).blocks = ((stream q d).blocks.map fun y => if y = b then { y with tries := y.tries + 1 } else y) ∧
      ctr page 0x1010 e = (ctr page 0x1010 d + 1) % 2 ^ 64) ∧
    (∀ r n, imgGood x = false → imgLink x = some n → (nextOf (stream q d) b).all (· == n) = true → 2 ≤ b.tries → (stream q d).blocks = [b] →
      (stream q d).recs = [r] → (stream q d).stalled = false → fits r b → Does (.blockReturn h flips) s fun e =>
      look e.drops 0xD0 0 = look d.drops 0xD0 0 + 1 ∧ (queue q e).pkts = (queue q d).pkts ∧ bit (face page e).pend 2 = true) ∧
    (imgGood x = true → imgSeq x ≠ b.seq → (∀ y ∈ d.tm.spillIn, y.1 ≠ q) → Does (.blockReturn h flips) s fun e => stream q e = {} ∧
      (queue q e).spilled = false ∧ (queue q e).spillPkts = 0 ∧ look e.drops 0xD1 0 = look d.drops 0xD1 0 + (stream q d).recs.length ∧
      bit (face page e).pend 3 = true)) ∧
  (∀ (h : BitVec 30) s d, let page := Pg.HBM + stackOf h.toNat
    Runs (103 + stackOf h.toNat) s d → let due := look d.hbm.readAt h.toNat 0 + rget HBM_X_READ_TMO.US (stackOf h.toNat) 0 d * 1000 ≤ d.mono
    (¬due ∨ (readerOf h.toNat d = none ∧ ∀ x ∈ d.hbm.strays, x.1 ≠ h.toNat) → Leaves (.hbmReadTimeout h) s d) ∧
    (∀ q b, due → readerOf h.toNat d = some (q, b) → pcState (pcOf b.handle) d ≠ 3 → b.tries < 2 → Does (.hbmReadTimeout h) s fun e =>
      queue q e = queue q d ∧ ctr page 0x1010 e = (ctr page 0x1010 d + 1) % 2 ^ 64 ∧ ctr page 0x1050 e = (ctr page 0x1050 d + 1) % 2 ^ 64)) ∧
  (∀ (q : BitVec 19) s d, Runs 102 s d → let ready := poolAvail d 5 (rget CHK_SRCs_CFG.BODY_POOL 0 131 d)
    ((stream q.toNat d).stalled = false ∨ ready = false → Leaves (.returnRetry q) s d) ∧
    (∀ b r c t, (stream q.toNat d).stalled = true → ready = true → (stream q.toNat d).blocks = [b] → b.at_ = .returned →
      (stream q.toNat d).recs = [r] → fits r b → marked r b b.data → room (body q.toNat r b b.data d) d c t → (queue q.toNat d).spillPkts = 1 →
      Does (.returnRetry q) s fun e => back q.toNat r b b.data c d e))

/-- R299 to R309, R317, R320, R325. -/
def Obligations.AdmissionAndQueueCommands : Prop :=
  (∀ s d a t, Runs 102 s d → d.tm.input = a :: t → a.meter = none →
    let x := a.desc
    let dropped (code : Nat) : Prop := Does .admitPacket s fun e => e.tm.input = t ∧ look e.drops code 0 = look d.drops code 0 + 1 ∧
      ∀ q, (queue q e).pkts = (queue q d).pkts ∧ (queue q e).bytes = (queue q d).bytes
    (blkEn Pg.TMS d = false → dropped 0x80) ∧
    (blkEn Pg.TMS d = true → arrivalQueue a d = none → dropped 0x87) ∧
    (∀ q, blkEn Pg.TMS d = true → arrivalQueue a d = some q → let y := queue q d
      let p := y.qprof
      let n := y.bytes + x.len
      (y.en = false → dropped 0x80) ∧
      (y.en = true → rget TMS_QPROFp.MAX 0 p d * 64 < n → dropped 0x81) ∧
      (y.en = true → y.spilled = false → flag TMS_CFG.SPILL_EN 0 0 d = false → n ≤ rget TMS_QPROFp.MAX 0 p d * 64 →
        (n ≤ rget TMS_QPROFp.GUAR 0 p d * 64 ∨
          (poolState (descPool x d) d < 2 ∧ flag TMS_QPROFp.DT_EN 0 p d = false ∧ flag TMS_QPROFp.WRED_EN 0 p d = false) → Does .admitPacket s fun e =>
          e.tm.input = t ∧ (queue q e).bytes = n ∧ (queue q e).pkts = y.pkts ++ [{ x with qid := if isVoq q then q else x.qid }] ∧
          ∀ k, k ≠ q → queue k e = queue k d) ∧
        (rget TMS_QPROFp.GUAR 0 p d * 64 < n → 2 ≤ poolState (descPool x d) d → dropped 0x82) ∧
        (rget TMS_QPROFp.GUAR 0 p d * 64 < n → poolState (descPool x d) d < 2 → flag TMS_QPROFp.DT_EN 0 p d = true →
          poolFree (descPool x d) d * 64 * poolStep (descPool x d) d * 2 ^ rget TMS_QPROFp.ALPHA 0 p d < n * 256 → dropped 0x83)))) ∧
  (∀ s d a m, Runs 102 s d → d.tm.input = [a] → a.meter = some m → let y := meter m d
    let p := y.prof
    let dt := d.mono - y.last
    let len := a.desc.len * bktByte
    let tc := min (rget MTR_PROFp.CBS 0 p d * bktByte) (y.tc + rget MTR_PROFp.CIR 0 p d * dt)
    let tp := min (rget MTR_PROFp.PBS 0 p d * bktByte) (y.tp + rget MTR_PROFp.PIR 0 p d * dt)
    y.en = true → flag MTR_PROFp.VALID 0 p d = true → blkEn Pg.MTR d = true → rget MTR_PROFp.MODE 0 p d = 0 → flag MTR_PROFp.AWARE 0 p d = false →
    rget MTR_PROFp.LEN_ADJ 0 p d = 0 → Does .admitPacket s fun e => e.tm.input = [] ∧
      (tp < len → meter m e = { y with last := d.mono, tc := tc, tp := tp } ∧ ctr Pg.MTR 0x1010 e = (ctr Pg.MTR 0x1010 d + 1) % 2 ^ 64 ∧
        (flag MTR_PROFp.RED_DROP 0 p d = true → look e.drops 0x85 0 = look d.drops 0x85 0 + 1)) ∧
      (len ≤ tp → tc < len → meter m e = { y with last := d.mono, tc := tc, tp := tp - len } ∧ ctr Pg.MTR 0x1008 e = (ctr Pg.MTR 0x1008 d + 1) % 2 ^ 64) ∧
      (len ≤ tp → len ≤ tc → meter m e = { y with last := d.mono, tc := tc - len, tp := tp - len } ∧
        ctr Pg.MTR 0x1000 e = (ctr Pg.MTR 0x1000 d + 1) % 2 ^ 64)) ∧
  (∀ req w s d img (op : Nat), op ≤ 3 → Commits req .TMS_Q_CMD 0 0 (go w 30 28 op) s d img →
    let q := TMS_Q_CMD.QID.of img
    let y := queue q d
    let prof := TMS_Q_CMD.QPROF.of img
    let par := TMS_Q_CMD.PARENT.of img
    let en := TMS_Q_CMD.EN.on img
    let done (c : Nat) (e : Dev) : Prop := bit (face (Pg.TMS + 1) e).pend 0 = true ∧ (c ≠ 0 → (face (Pg.TMS + 1) e).errCode = c) ∧
      (c = 0 → (face (Pg.TMS + 1) e).errCode = (face (Pg.TMS + 1) d).errCode)
    (op = 0 → isVoq q = true → (en = true → flag TMS_QPROFp.VALID 0 prof d = true) → Does (.qWrite req w) s fun e => done 0 e ∧
      queue q e = { y with en := en, qprof := prof, avg := if en && !y.en then 0 else y.avg } ∧ ∀ k, k ≠ q → queue k e = queue k d) ∧
    (op = 0 → isVoq q = false → (en = true → flag TMS_QPROFp.VALID 0 prof d = true ∧ (node 3 par d).en = true ∧ TMS_Q_CMD.WEIGHT.of img ≠ 0) →
      par = y.parent ∨ (y.pkts = [] ∧ y.spillPkts = 0) → Does (.qWrite req w) s fun e => done 0 e ∧ (queue q e).en = en ∧
        (queue q e).qprof = prof ∧ (queue q e).parent = par ∧ (queue q e).prio = TMS_Q_CMD.PRIO.of img ∧ (queue q e).tc = TMS_Q_CMD.TC.of img ∧
        (queue q e).weight = TMS_Q_CMD.WEIGHT.of img ∧ (queue q e).pkts = y.pkts) ∧
    (op = 0 → en = true → flag TMS_QPROFp.VALID 0 prof d = false → Does (.qWrite req w) s fun e => done Err.BAD_ARG e ∧ e.tm = d.tm) ∧
    (op = 0 → isVoq q = false → en = false → par ≠ y.parent → y.pkts ≠ [] → Does (.qWrite req w) s fun e => done 0x20 e ∧ e.tm = d.tm) ∧
    (op = 1 → Does (.qRead req w) s fun e => done 0 e ∧ e.tm = d.tm ∧ rget TMS_Q_RES.EN 0 0 e = b2n y.en ∧ rget TMS_Q_RES.SPILLED 0 0 e = b2n y.spilled ∧
      (y.bytes < 2 ^ 32 → rget TMS_Q_RES.BYTES 0 0 e = y.bytes) ∧ (y.hwm < 2 ^ 32 → rget TMS_Q_RES.SOJ_HWM 0 0 e = y.hwm)) ∧
    (op = 2 → y.en = true → Does (.qFlush req w) s fun e => done Err.BAD_ARG e ∧ e.tm = d.tm) ∧
    (op = 2 → y.en = false → Does (.qFlush req w) s fun e => done 0 e ∧ (queue q e).pkts = [] ∧ (queue q e).bytes = 0 ∧
      (queue q e).spilled = false ∧ (queue q e).spillPkts = 0 ∧ look e.drops 0x86 0 = look d.drops 0x86 0 +
        y.pkts.length + (d.tm.spillIn.filter fun z => z.1 == q).length + (stream q d).recs.length) ∧
    (op = 3 → Does (.qClearHwm req w) s fun e => done 0 e ∧ queue q e = { y with hwm := 0, alarmed := false } ∧ ∀ k, k ≠ q → queue k e = queue k d)) ∧
  (∀ req w s d img (op : Nat), op ≤ 2 → Commits req .TMS_NODE_CMD 0 0 (go w 30 28 op) s d img →
    let lvl := TMS_NODE_CMD.LEVEL.of img
    let i := TMS_NODE_CMD.INDEX.of img
    let en := TMS_NODE_CMD.EN.on img
    let cir := TMS_NODE_CMD.CIR.of img
    let pir := TMS_NODE_CMD.PIR.of img
    let page := Pg.TMS + 2
    i < levelCount lvl →
    (op = 0 → lvl = 0 → (pir ≠ 0 → cir ≤ pir) → en = true ∨ enabledChild 0 i d = false → Does (.nodeWrite req w) s fun e =>
      bit (face page e).pend 0 = true ∧ (face page e).errCode = (face page d).errCode ∧ (node 0 i e).en = en ∧ (node 0 i e).cir = cir ∧
      (node 0 i e).pir = pir ∧ (node 0 i e).cbs = TMS_NODE_CMD.CBS.of img ∧ (node 0 i e).pbs = TMS_NODE_CMD.PBS.of img) ∧
    (op = 0 → pir ≠ 0 → pir < cir → Does (.nodeWrite req w) s fun e => (face page e).errCode = Err.BAD_ARG ∧ bit (face page e).pend 0 = true ∧
      (node lvl i e).en = (node lvl i d).en ∧ (node lvl i e).cir = (node lvl i d).cir) ∧
    (op = 1 → Does (.nodeRead req w) s fun e => bit (face page e).pend 0 = true ∧ rget TMS_NODE_RES.EN 0 0 e = b2n (node lvl i d).en ∧
      ((node lvl i d).hwm < 2 ^ 32 → rget TMS_NODE_RES.SOJ_HWM 0 0 e = (node lvl i d).hwm)) ∧
    (op = 2 → Does (.nodeClearHwm req w) s fun e => bit (face page e).pend 0 = true ∧ (node lvl i e).hwm = 0 ∧ (node lvl i e).en = (node lvl i d).en)) ∧
  (∀ req w s d img (op : Nat), op ≤ 1 → Commits req .MTR_CMD 0 0 (go w 30 28 op) s d img →
    let i := MTR_CMD.METER.of img
    let p := MTR_CMD.PROFILE.of img
    (op = 0 → Does (.meterWrite req w) s fun e => bit (face Pg.MTR e).pend 0 = true ∧ meter i e =
      { en := MTR_CMD.EN.on img, prof := p, tc := rget MTR_PROFp.CBS 0 p d * bktByte, tp := rget MTR_PROFp.PBS 0 p d * bktByte, last := d.mono }) ∧
    (op = 1 → Does (.meterRead req w) s fun e => bit (face Pg.MTR e).pend 0 = true ∧ e.tm = d.tm ∧ rget MTR_RES.EN 0 0 e = b2n (meter i d).en ∧
      rget MTR_RES.TC 0 0 e = (meter i d).tc / bktByte % 2 ^ MTR_RES.TC.w ∧ rget MTR_RES.TP 0 0 e = (meter i d).tp / bktByte % 2 ^ MTR_RES.TP.w))

/-- R302, R312 to R319, R381, R382. -/
def Obligations.SchedulersAndCredits : Prop :=
  (∀ (pipe : Fin 16) s d, Runs 102 s d →
    (blkEn Pg.TMS d = false ∨ (∀ q y, (q, y) ∈ d.tm.queues → voqReady q y d = false ∨ (voqDev q + voqPort q) % 16 ≠ pipe.val) →
      Leaves (.voqDecide pipe) s d) ∧
    (∀ q y x t, blkEn Pg.TMS d = true → d.tm.queues = [(q, y)] → voqReady q y d = true → (voqDev q + voqPort q) % 16 = pipe.val → y.pkts = x :: t →
      voqDev q ≠ devId d → x.rebuilt = none → metaSeen x.head d = .clean → (cell x.head d).last = true → dataSeen x.head (poolStep (cell x.head d).pool d) d = .clean →
      Does (.voqDecide pipe) s fun e => (queue q e).pkts = t ∧ (queue q e).bytes = y.bytes - x.len ∧
        (queue q e).bal = (if y.bytes - x.len = 0 ∧ t = [] ∧ y.spillPkts = 0 then min (y.bal - x.len) 0 else y.bal - x.len) ∧
        (look e.fab.tx (voqDev q) {}).recs = (look d.fab.tx (voqDev q) {}).recs ++
          [{ bytes := fabHeader { x with qid := q } ++ (cell x.head d).data.take x.len, head := x.head, tag := x.tag }]) ∧
    (∀ q y x t k z, blkEn Pg.TMS d = true → d.tm.queues = [(q, y), (k, z)] → isVoq k = false → voqReady q y d = true →
      (voqDev q + voqPort q) % 16 = pipe.val → y.pkts = x :: t → voqDev q = devId d → egressQueue (voqPort q) q x.carry d = some k →
      z.en = true → z.spilled = false → z.bytes + x.len ≤ rget TMS_QPROFp.MAX 0 z.qprof d * 64 →
      z.bytes + x.len ≤ rget TMS_QPROFp.GUAR 0 z.qprof d * 64 → Does (.voqDecide pipe) s fun e => (queue q e).pkts = t ∧
        (queue k e).pkts = z.pkts ++ [{ x with qid := q, srcDev := devId d }] ∧ (queue k e).bytes = z.bytes + x.len)) ∧
  (∀ (pipe : Fin 16) s d, Runs 102 s d → (blkEn Pg.TMS d = false → Leaves (.egressDecide pipe) s d) ∧
    (blkEn Pg.TMS d = true → (∀ q x t, (queue q d).pkts = x :: t → (rootOf q d = 128 → puntDrop q x d = 0) ∧
        (rootOf q d < 128 → gateDrop (rootOf q d) (queue q d) x d = 0)) →
      let d1 := eligRefresh d
      ∀ n, readyPorts pipe.val d1 = [n] → let d2 := onTm (fun t => { t with portRot := put t.portRot pipe.val 0 ((n + 1) % 130) }) d1
        ∀ path q x t, (selectDown n d2).1 = some (path, q) → (queue q d).pkts = x :: t → Does (.egressDecide pipe) s fun e =>
          (queue q e).pkts = t ∧ (queue q e).bytes = (queue q d).bytes - x.len ∧
          (n = 128 → e.tm.hostOut = d.tm.hostOut ++ [(q, x)]) ∧ (n = 129 → e.tm.svcOut = d.tm.svcOut ++ [(q, x)]) ∧
          (n < 128 → linkState n d = 4 → x.rebuilt = none → metaSeen x.head d = .clean → (cell x.head d).last = true →
            dataSeen x.head (poolStep (cell x.head d).pool d) d = .clean → ∃ r, e.cross.egress = d.cross.egress ++ [r] ∧ r.port = n ∧
              r.bytes = (cell x.head d).data.take x.len ∧ r.cell = x.head ∧ r.tag = x.tag ∧ r.tc = (queue q d).tc)) ∧
    (blkEn Pg.TMS d = true → egQueues d = [] → d.tm.nodes = [] → Leaves (.egressDecide pipe) s d)) ∧
  (∀ tie rot l c p ft, pickChild tie rot l = some (c, p, ft) → ∃ x ∈ l, x.1 = c ∧ x.2.1 = p ∧ x.2.2.1 = ft ∧
    ((∃ y ∈ l, y.2.2.2 = true) → x.2.2.2 = true) ∧ ∀ y ∈ l, (y.2.2.2 = true ∨ ∀ z ∈ l, z.2.2.2 = false) → p ≤ y.2.1) ∧
  (∀ t c : Int, 0 < c → (0 ≤ t → chargeBucket t c = t - c) ∧ (t < 0 → chargeBucket t c = min t (-c))) ∧
  (∀ (n : Fin 128) s d, Runs 102 s d → let next := (look d.tm.gens n.val {}).nextPs
    (linkState n.val d ≠ 4 ∨ d.mono * 1000 < next ∨ blkEn Pg.TMS d = false ∨ rget TMS_CR_PORTn.HOLD 0 n.val d * 64 ≤ portBacklog n.val d → Leaves (.creditGenerate n) s d) ∧
    (∀ (c : Fin 16) v, linkState n.val d = 4 → next ≤ d.mono * 1000 → blkEn Pg.TMS d = true → portBacklog n.val d < rget TMS_CR_PORTn.HOLD 0 n.val d * 64 →
      askers n.val c.val d = [v] → (∀ k < 16, k ≠ c.val → askers n.val k d = []) → rget TMS_CR_CLASSc.PRIO 0 c.val d ≤ 3 →
      Does (.creditGenerate n) s fun e => d.mono * 1000 ≤ (look e.tm.gens n.val {}).nextPs ∧ ctr Pg.TMS 0x1048 e = (ctr Pg.TMS 0x1048 d + 1) % 2 ^ 64 ∧
        (v = devId d → let q := v * 2048 + n.val * 16 + c.val
          (queue q e).bal = (queue q d).bal + creditBytes d) ∧
        (v ≠ devId d → blkEn Pg.FCT d = true → e.tm.reqs = d.tm.reqs ∧ e.ctlQ = d.ctlQ ++
          [{ dst := some v, kind := 0, rec_ := 2 ^ 63 + n.val * 2 ^ 55 + c.val * 2 ^ 51 + 2 ^ 47 }]))) ∧
  (∀ (q : BitVec 17) s d, Runs 102 s d → let y := queue q.toNat d
    let due := y.reqAt + rget TMS_CR_CFG.REQ_TMO 0 0 d * 1000 ≤ d.mono
    (y.reqOn = false ∨ ¬due → Leaves (.reqTimeout q) s d) ∧
    (y.reqOn = true → due → Does (.reqTimeout q) s fun e => queue q.toNat e = { y with reqSeq := (y.reqSeq + 1) % 2 ^ 16, reqAt := d.mono } ∧
      bit (face Pg.TMS e).pend 2 = true ∧ (voqDev q.toNat ≠ devId d → blkEn Pg.FCT d = true → e.ctlQ = d.ctlQ ++
        [{ dst := some (voqDev q.toNat), kind := 0, rec_ :=
             voqPort q.toNat * 2 ^ 55 + voqClass q.toNat * 2 ^ 51 + (y.reqSeq + 1) % 2 ^ 16 * 2 ^ 35 }])))

/-- R308, R330, R331, R333 to R335, R339. -/
def Obligations.TimeSteering : Prop :=
  let marker (d : Dev) (n : Nat) : Prop := 0 < n ∧
    (d.spn.time + n * baseRate d) / (1000 * unitNs) = d.spn.time / (1000 * unitNs) + 1 ∧
    (d.spn.time + (n - 1) * baseRate d) / (1000 * unitNs) = d.spn.time / (1000 * unitNs)
  let runs (d e : Dev) (n : Nat) : Prop := e.spn.monoU = d.spn.monoU + n * baseRate d ∧ e.mono = e.spn.monoU / unitNs ∧
    e.hwd.aonNs = d.hwd.aonNs + n
  let fair (d : Dev) : Prop := 0 < baseRate d ∧ baseRate d ≤ 1000 * unitNs ∧ d.spn.slew = none ∧ d.spn.servoStep = none ∧ d.spn.labelSet = none
  (∀ s d, Runs 99 s d → fair d → d.spn.adj = none → Does .timeMarker s fun e => ∃ n, marker d n ∧ runs d e n ∧
    e.spn.time = d.spn.time + n * baseRate d ∧ e.spn.rate = signed 32 (rget SPN_RATE.RATE_ADJ 0 0 d) ∧ e.flds = d.flds) ∧
  (∀ req w s d img (op : Nat), op ≤ 2 → Commits req .SPN_ADJ 0 0 (go w 30 28 op) s d img →
    let c : Instr := if op = 0 then .timeSet req w else if op = 1 then .timeStep req w else .timeSlew req w
    let t := (SPN_ADJ.SEC.of img * 1000000000 + SPN_ADJ.NS.of img) * 2 ^ 32 + SPN_ADJ.FRAC.of img * 2 ^ 16
    let neg := SPN_ADJ.NEG.on img
    let bad := 999999999 < SPN_ADJ.NS.of img ∨ rget SPN_CFG.SRC 0 0 d ≠ 0 ∨ (op = 2 ∧ SPN_ADJ.SEC.of img ≠ 0) ∨ flag SPN_ADJ.GO 0 0 d = true
    (bad → Writes req c s (errAt Err.BAD_ARG .SPN_ADJ 0 0 d)) ∧
    (¬bad → Does c s fun e => e.spn = { d.spn with
        adj := some (if op = 0 then .set t else if op = 1 then .step neg t else .slew neg t), slew := none } ∧ flag SPN_ADJ.GO 0 0 e = true)) ∧
  (∀ s d c, Runs 99 s d → fair d → d.spn.adj = some c → d.spn.acts = [] → Does .timeAdjApply s fun e => ∃ n, marker d n ∧ runs d e n ∧
    let now := d.spn.time + n * baseRate d
    e.spn.adj = none ∧ flag SPN_ADJ.GO 0 0 e = false ∧
    (∀ t, c = .set t → e.spn.time = t % (2 ^ 48 * 1000000000 * 2 ^ 32) ∧ bit (face Pg.SPN e).pend 7 = true) ∧
    (∀ neg dt, c = .step neg dt → e.spn.time = (if neg then now - dt else now + dt) % (2 ^ 48 * 1000000000 * 2 ^ 32) ∧
      bit (face Pg.SPN e).pend 7 = true) ∧
    (∀ neg dt, c = .slew neg dt → 0 < dt → e.spn.time = now ∧
      e.spn.slew = some { neg := neg, left := dt, rate := rget SPN_CFG.SLEW_PPM 0 0 d * 2 ^ 32 / 1000000 })) ∧
  (∀ s d i a t, Runs 99 s d → fair d → d.spn.adj = some (.set t) → d.spn.acts = [(i, a)] → a.due = false → a.period = 0 →
    t < 2 ^ 48 * 1000000000 * 2 ^ 32 → nowNs d + 3000 < a.t → a.t ≤ timeNsOf t → Does .timeAdjApply s fun e => e.spn.time = t ∧
      e.spn.acts = [(i, { a with due := true })] ∧ bit (face Pg.SPN e).pend 0 = true) ∧
  (∀ s d, Runs 99 s d → (d.spn.adj = none → d.spn.servoStep = none → d.spn.labelSet = none → Leaves .timeAdjApply s d) ∧
    (d.spn.slew = none → Leaves .slewEnd s d) ∧
    (∀ x, d.spn.slew = some x → 0 < x.rate → x.rate ≤ baseRate d → d.spn.adj = none → d.spn.servoStep = none → d.spn.labelSet = none →
      signed 32 (rget SPN_RATE.RATE_ADJ 0 0 d) = d.spn.rate → Does .slewEnd s fun e => e.spn.slew = none ∧
      ∃ n, x.left ≤ n * x.rate ∧ (n - 1) * x.rate ≤ x.left ∧ e.hwd.aonNs = d.hwd.aonNs + n ∧
        e.spn.time = d.spn.time + (if x.neg then n * baseRate d - x.left else n * baseRate d + x.left))) ∧
  (∀ req w s d img, Commits req .SPN_RATE 0 0 w.toNat s d img → let r := signed 32 (SPN_RATE.RATE_ADJ.of img)
    let bad := rget SPN_CFG.SRC 0 0 d ≠ 0 ∨ r < -4294967 ∨ 4294967 < r
    (bad → Writes req (.rateWrite req w) s (errAt Err.BAD_ARG .SPN_RATE 0 0 d)) ∧
    (¬bad → Writes req (.rateWrite req w) s (rset SPN_RATE.RATE_ADJ 0 0 (SPN_RATE.RATE_ADJ.of img) d))) ∧
  (∀ req w s d img, Commits req .SPN_CFG 0 0 w.toNat s d img → let src := SPN_CFG.SRC.of img
    let ppm := SPN_CFG.SLEW_PPM.of img
    let bad := src = 3 ∨ (src = 2 ∧ isMgr d = true) ∨ ppm = 0 ∨ 1000 < ppm ∨ 1 < SPN_CFG.MGR_SRC.of img
    (bad → Writes req (.srcWrite req w) s (errAt Err.BAD_ARG .SPN_CFG 0 0 d)) ∧
    (¬bad → Does (.srcWrite req w) s fun e => rget SPN_CFG.SRC 0 0 e = src ∧ rget SPN_CFG.SLEW_PPM 0 0 e = ppm ∧
      (src = 0 → rget SPN_STAT.STATE 0 0 e = 0) ∧ (src ≠ 0 → src ≠ rget SPN_CFG.SRC 0 0 d → rget SPN_CFG.SRC 0 0 d < 4 → rget SPN_STAT.STATE 0 0 e = 1) ∧
      e.spn.time = d.spn.time))

/-- R337 to R342, R387. -/
def Obligations.TimeReferences : Prop :=
  (∀ s d, Runs 99 s d → rget SPN_PPS_IN_CORR.CORR 0 0 d = 0 →
    (∀ m, d.spn.lastPps = some m → d.mono < m + 500000000 → Leaves .ppsInEdge s (inc Pg.SPN 9 d)) ∧
    ((∀ m, d.spn.lastPps = some m → m + 500000000 ≤ d.mono) → Does .ppsInEdge s fun e =>
      e.spn.lastPps = some d.mono ∧ e.spn.time = d.spn.time ∧ rget SPN_PPS_CAP.SEC 0 0 e = secOf d.spn.time % 2 ^ 48 ∧
      rget SPN_PPS_CAP.NS 0 0 e = nsOf d.spn.time ∧ rget SPN_PPS_CAP.FRAC 0 0 e = fracOf d.spn.time ∧
      bit (face Pg.SPN e).pend 4 = true ∧ ctr Pg.SPN 0x1040 e = (ctr Pg.SPN 0x1040 d + 1) % 2 ^ 64 ∧
      (rget SPN_CFG.SRC 0 0 d ≠ 1 → rget SPN_RATE.RATE_ADJ 0 0 e = rget SPN_RATE.RATE_ADJ 0 0 d ∧ e.spn.rate = d.spn.rate) ∧
      (let off := d.spn.time % (1000000000 * 2 ^ 32)
       let ns := off / 2 ^ 32
       rget SPN_CFG.SRC 0 0 d = 1 → ns < 500000000 → (rget SPN_STAT.STATE 0 0 d = 1 ∨ rget SPN_STAT.STATE 0 0 d = 2) →
        (rget SPN_SERVO.STEP_NS 0 0 d + 1 ≤ ns → e.spn.servoStep = some (-((off / 65536 : Nat) : Int) * 65536) ∧ rget SPN_STAT.STATE 0 0 e = 1 ∧
          e.spn.rate = d.spn.rate) ∧
        (off / 65536 ≤ rget SPN_SERVO.STEP_NS 0 0 d * 65536 →
          e.spn.rate = max (-4294967) (min 4294967 (signed 32 (rget SPN_RATE.RATE_ADJ 0 0 d) -
            ((off / 65536 : Nat) : Int) * 65536 / 1000000000 / 2 ^ rget SPN_CFG.KI_SHIFT 0 0 d)) ∧
          rget SPN_RATE.RATE_ADJ 0 0 e = toBits 32 e.spn.rate ∧
          (off / 65536 ≤ rget SPN_SERVO.LOCK_NS 0 0 d * 65536 → rget SPN_STAT.STATE 0 0 d = 1 → 7 ≤ d.spn.good →
            rget SPN_STAT.STATE 0 0 e = 2 ∧ bit (face Pg.SPN e).pend 5 = true))))) ∧
  (∀ s d, Runs 99 s d → let st := rget SPN_STAT.STATE 0 0 d
    let last : Nat := if rget SPN_CFG.SRC 0 0 d = 1 then d.spn.lastPps.getD 0 else (d.spn.lastSync.map fun x => x.2 / 2 ^ 32).getD 0
    let missing := max d.spn.srcAt last + (if rget SPN_CFG.SRC 0 0 d = 1 then 1100000000 else 10000000) ≤ d.mono
    (rget SPN_CFG.SRC 0 0 d = 0 ∨ st = 0 ∨ st = 3 ∨ ¬missing → Leaves .holdoverEntry s d) ∧
    (rget SPN_CFG.SRC 0 0 d ≠ 0 → st = 1 ∨ st = 2 → missing → Does .holdoverEntry s fun e => rget SPN_STAT.STATE 0 0 e = 3 ∧
      bit (face Pg.SPN e).pend 6 = true ∧ e.spn.rate = (if d.spn.rates = [] then d.spn.rate else d.spn.rates.sum / d.spn.rates.length) ∧
      rget SPN_RATE.RATE_ADJ 0 0 e = toBits 32 e.spn.rate)) ∧
  (∀ s d, Runs 99 s d →
    (rget SPN_CFG.SRC 0 0 d ≠ 2 → Leaves .syncInEdge s d) ∧
    (rget SPN_CFG.SRC 0 0 d = 2 → rget SPN_SYNC_IN_CORR.CORR 0 0 d = 0 → Does .syncInEdge s fun e => e.spn.lastSync = some (d.spn.time, d.spn.monoU) ∧
      ctr Pg.SPN 0x1050 e = (ctr Pg.SPN 0x1050 d + 1) % 2 ^ 64 ∧ e.spn.time = d.spn.time)) ∧
  (∀ (sec : BitVec 48) (ms : BitVec 10) (term : BitVec 16) s d, Runs 99 s d → let c : Instr := .syncLabel sec ms term
    let own (t : Nat) : Nat := (timeNsOf t + 500000) / 1000000
    (flag FCT_MGR_STAT.MGR_VALID 0 0 d = false ∨ rget FCT_MGR_STAT.TERM 0 0 d ≠ term.toNat ∨ rget SPN_CFG.SRC 0 0 d ≠ 2 ∨ d.spn.lastSync = none →
      Leaves c s d) ∧
    (∀ t m, flag FCT_MGR_STAT.MGR_VALID 0 0 d = true → rget FCT_MGR_STAT.TERM 0 0 d = term.toNat → rget SPN_CFG.SRC 0 0 d = 2 →
      d.spn.lastSync = some (t, m) →
      (own t = sec.toNat * 1000 + ms.toNat → Leaves c s d) ∧
      (own t ≠ sec.toNat * 1000 + ms.toNat → Leaves c s (inc Pg.SPN 12 { d with spn := { d.spn with
          labelSet := some ((sec.toNat * 1000000000 + ms.toNat * 1000000) * 2 ^ 32, m) } })))) ∧
  (∀ s d, Runs 99 s d → d.spn.slew = none →
    let shown (corr : Nat) : Int := (d.spn.time : Int) + signed 32 corr * 65536
    let turns (n corr : Nat) : Prop := 0 ≤ shown corr ∧ (shown corr).toNat % (n * unitNs) < baseRate d
    let ms := (shown (rget SPN_SYNC_OUT_CORR.CORR 0 0 d)).toNat / (1000000 * unitNs)
    let sec := (shown (rget SPN_PPS_OUT_CORR.CORR 0 0 d)).toNat / (1000000000 * unitNs)
    let drives := isMgr d = true ∧ rget SPN_SYNC_OUT_OWNER.OWNER 0 0 d = 0xF300 ∧ turns 1000000 (rget SPN_SYNC_OUT_CORR.CORR 0 0 d) ∧
      d.spn.syncFrom ≤ ms * 1000000 ∧ d.spn.lastMs ≠ some ms
    let pps := flag SPN_PPS_OUT.EN 0 0 d = true ∧ (face Pg.SPN d).owner ≠ 0 ∧ turns 1000000000 (rget SPN_PPS_OUT_CORR.CORR 0 0 d) ∧
      d.spn.lastSec ≠ some sec
    (¬drives → Leaves .syncPulseOut s d) ∧
    (drives → blkEn Pg.FCT d = true → Leaves .syncPulseOut s { d with
      out := .pulse false (ms / 1000) (ms % 1000 * 1000000) 200 :: d.out, spn := { d.spn with lastMs := some ms }
      ctlQ := d.ctlQ ++ [{ dst := none, kind := 3, rec_ := syncRec (ms / 1000) (ms % 1000) (rget FCT_MGR_STAT.TERM 0 0 d) }] }) ∧
    (¬pps → Leaves .ppsOutPulse s d) ∧ (pps → Leaves .ppsOutPulse s { d with
      out := .pulse true sec 0 (rget SPN_PPS_OUT.WIDTH 0 0 d * 1000000) :: d.out, spn := { d.spn with lastSec := some sec } }))

/-- R344 to R350. -/
def Obligations.TimedActions : Prop :=
  (∀ req w s d img (op : Nat), op ≤ 2 → Commits req .SPN_ACT_CMD 0 0 (go w 30 28 op) s d img →
    let i := SPN_ACT_CMD.INDEX.of img
    let id := SPN_ACT_CMD.OWNER_ID.of img
    let a : Act :=
      { owner := id, kind := SPN_ACT_CMD.KIND.of img, t := SPN_ACT_CMD.SEC.of img * 1000000000 + SPN_ACT_CMD.NS.of img,
        period := SPN_ACT_CMD.PERIOD.of img, addr := SPN_ACT_CMD.ADDR.of img, data := SPN_ACT_CMD.DATA.of img, set := SPN_ACT_CMD.SET.of img }
    let ok := a.kind < 3 ∧ SPN_ACT_CMD.NS.of img ≤ 999999999 ∧ (a.period = 0 ∨ (1000 ≤ a.period ∧ a.period ≤ 1000000000)) ∧
      (a.kind = 0 → timedAddrOk a.addr = true)
    let allowed := id ≠ 0 ∧ idRefused req id = false
    let mine := ∀ x, find? d.spn.acts i = some x → x.owner = id
    let code (c : Nat) (e : Dev) : Prop := (face Pg.SPN e).errCode = c
    let none_ (e : Dev) : Prop := (face Pg.SPN e).errCode = (face Pg.SPN d).errCode
    let waits := ∀ x, find? d.spn.acts i = some x → x.due = false ∧ nowNs d < x.t
    (op = 0 → allowed → ok → mine → waits → nowNs d < a.t → Does (.actArm req w) s fun e => none_ e ∧ find? e.spn.acts i = some a ∧
      (∀ k, k ≠ i → find? e.spn.acts k = find? d.spn.acts k) ∧ e.spn.loose = d.spn.loose ∧ e.spn.deferred = d.spn.deferred) ∧
    (∀ x, op = 0 → allowed → ok → find? d.spn.acts i = some x → x.kind ≠ 3 → x.due = true ∨ x.t ≤ nowNs d → x.period = 0 → nowNs d < a.t →
      Does (.actArm req w) s fun e => none_ e ∧ find? e.spn.acts i = some a ∧ e.spn.loose = d.spn.loose ++ [(i, x)] ∧ i ∉ e.spn.deferred) ∧
    (op = 0 → allowed → ok → mine → waits → a.t ≤ nowNs d → flag SPN_X_CFG.STRICT 0 0 d = true → Does (.actArm req w) s fun e =>
      code Err.TIME_PAST e ∧ e.spn = d.spn) ∧
    (op = 0 → allowed → ok → mine → waits → a.t ≤ nowNs d → flag SPN_X_CFG.STRICT 0 0 d = false → Does (.actArm req w) s fun e =>
      none_ e ∧ bit (face Pg.SPN e).pend 0 = true ∧ (a.period = 0 → find? e.spn.acts i = some { a with due := true }) ∧
      (0 < a.period → ∃ k, find? e.spn.acts i = some { a with t := a.t + k * a.period } ∧ nowNs d + 2000 ≤ a.t + k * a.period ∧
        (0 < k → a.t + (k - 1) * a.period < nowNs d + 2000))) ∧
    (op = 0 → allowed → ¬ok → Does (.actArm req w) s fun e => code Err.BAD_ARG e ∧ e.spn = d.spn) ∧
    (op = 0 → allowed → ok → ¬mine → waits → Does (.actArm req w) s fun e => code Err.OWNER_BUSY e ∧ e.spn = d.spn) ∧
    (¬allowed → (op = 0 → Does (.actArm req w) s fun e => code Err.BAD_ARG e ∧ e.spn = d.spn) ∧
      (op = 1 → Does (.actCancel req w) s fun e => code Err.BAD_ARG e ∧ e.spn = d.spn)) ∧
    (∀ x, op = 1 → allowed → find? d.spn.acts i = some x → x.kind ≠ 3 → x.owner = id → x.due = false → nowNs d < x.t → Does (.actCancel req w) s fun e =>
      none_ e ∧ find? e.spn.acts i = none ∧ ∀ k, k ≠ i → find? e.spn.acts k = find? d.spn.acts k) ∧
    (∀ x, op = 1 → allowed → find? d.spn.acts i = some x → x.kind ≠ 3 → x.due = true ∨ x.t ≤ nowNs d → Does (.actCancel req w) s fun e =>
      code Err.BAD_ARG e ∧ e.spn = d.spn) ∧
    (op = 1 → allowed → (find? d.spn.acts i = none ∨ (∃ x, find? d.spn.acts i = some x ∧ x.kind = 3) ∨ (¬mine ∧ waits)) → Does (.actCancel req w) s fun e => code Err.NOT_OWNER e ∧ e.spn = d.spn) ∧
    (op = 2 → (∀ x, find? d.spn.acts i = some x → actImg i (some x) < 2 ^ 256) → Does (.actRead req w) s fun e => none_ e ∧ e.spn = d.spn ∧
      flag SPN_ACT_RES.VALID 0 0 e = (find? d.spn.acts i).isSome)) ∧
  (∀ s d i a, Runs 99 s d → d.spn.deferred = [] → d.spn.loose = [] → d.spn.acts = [(i, a)] → (a.due = true ∨ a.t ≤ nowNs d) →
    (a.kind = 2 → d.spn.timerFifo.length < 64 → Does .actionDue s fun e => e.spn.timerFifo = d.spn.timerFifo ++ [i] ∧
      bit (face Pg.SPN e).pend 3 = true ∧ ctr Pg.SPN 0x1000 e = (ctr Pg.SPN 0x1000 d + 1) % 2 ^ 64 ∧
      e.spn.acts = if a.period = 0 then [] else [(i, { a with t := a.t + a.period })]) ∧
    (a.kind = 0 → a.addr = Reg.addr .SPN_PPS_IN_CORR 0 0 → (face Pg.SPN d).ready = true →
      Does .actionDue s fun e => rget SPN_PPS_IN_CORR.CORR 0 0 e = a.data % 2 ^ 32 ∧ (a.period = 0 → e.spn.acts = []))) ∧
  (∀ s d i a, Runs 99 s d → d.spn.deferred = [] → d.spn.loose = [(i, a)] → d.spn.acts = [] → a.kind = 2 → d.spn.timerFifo.length < 64 →
    Does .actionDue s fun e => e.spn.timerFifo = d.spn.timerFifo ++ [i] ∧ e.spn.loose = [] ∧ e.spn.acts = []) ∧
  (∀ s d, Runs 99 s d → d.spn.deferred = [] → d.spn.loose = [] → (∀ x ∈ d.spn.acts, x.2.due = false ∧ nowNs d < x.2.t) →
    Leaves .actionDue s d) ∧
  (∀ req s d, Taken req s → d = reached Pg.SPN s →
    (∀ x t, d.spn.timerFifo = x :: t → x < 4096 → Does (.timerFifoPop req) s fun e => e.spn = { d.spn with timerFifo := t } ∧
      Out.readReply req (Reg.addr .SPN_TIMER_FIFO 0 0) (2 ^ 31 + x) ∈ e.out) ∧
    (d.spn.timerFifo = [] → Does (.timerFifoPop req) s fun e => e.spn = d.spn ∧ Out.readReply req (Reg.addr .SPN_TIMER_FIFO 0 0) 0 ∈ e.out))

/-- R348, R351 to R354, R357. -/
def Obligations.GateLists : Prop :=
  let entry (b i : Nat) (g : GatePort) : Nat := look (if b = 0 then g.bank0 else g.bank1) i 0
  (∀ req w s d img, Commits req .SPN_GCL_DATA 0 0 w.toNat s d img →
    let n := rget SPN_GCL_ADDR.PORT 0 0 d
    let b := rget SPN_GCL_ADDR.BANK 0 0 d
    let i := rget SPN_GCL_ADDR.ENTRY 0 0 d
    (gateBankBusy (gate n d) b = true → Writes req (.gclWrite req w) s (errAt 0x20 .SPN_GCL_DATA 0 0 d)) ∧
    (gateBankBusy (gate n d) b = false → Does (.gclWrite req w) s fun e => entry b i (gate n e) = img ∧
      (∀ c j, c ≤ 1 → ¬((c = 0 ↔ b = 0) ∧ j = i) → entry c j (gate n e) = entry c j (gate n d)) ∧
      rget SPN_GCL_ADDR.ENTRY 0 0 e = (i + 1) % 1024 ∧ (gate n e).running = (gate n d).running ∧ (gate n e).pend = (gate n d).pend)) ∧
  (∀ req s d, Taken req s → d = reached Pg.SPN s →
    let v := entry (rget SPN_GCL_ADDR.BANK 0 0 d) (rget SPN_GCL_ADDR.ENTRY 0 0 d) (gate (rget SPN_GCL_ADDR.PORT 0 0 d) d)
    Does (.gclRead req) s fun e => rget SPN_GCL_DATA.ENTRY 0 0 e = v % 2 ^ 64 ∧ e.spn = d.spn ∧
      Out.readReply req (Reg.addr .SPN_GCL_DATA 0 0) (v % 2 ^ 32) ∈ e.out) ∧
  (∀ req (port : Fin 128) w s d img (op : Nat), op ≤ 2 → Commits req .SPN_GATEn_ADMIN 0 port.val (go w 30 29 op) s d img →
    let n := port.val
    let g := gate n d
    let len := SPN_GATEn_ADMIN.LENGTH.of img
    let cycle := SPN_GATEn_ADMIN.CYCLE.of img
    let base := SPN_GATEn_ADMIN.BASE_SEC.of img * 1000000000 + SPN_GATEn_ADMIN.BASE_NS.of img
    let b := idleBank g
    let list := (List.range len).map fun i => gateEnt (entry b i g) cycle
    let valid := 1 ≤ len ∧ len ≤ 1024 ∧ 1000 ≤ cycle ∧ cycle ≤ 1000000000 ∧ ∀ x ∈ list, x.bad = false
    let strict := flag SPN_X_CFG.STRICT 0 0 d
    let code (c : Nat) (e : Dev) : Prop := (face Pg.SPN e).errCode = c ∧ e.spn = d.spn
    (op = 0 → g.pend = none → valid → nowNs d + 2000 ≤ base → Does (.gateCommit req port w) s fun e =>
      (gate n e).pend = some { base := base, cycle := cycle, list := list, bank := b } ∧ (gate n e).running = g.running ∧
      flag SPN_GATEn_STAT.PEND 0 n e = true ∧ flag SPN_GATEn_ADJ_BASE.LATE 0 n e = false) ∧
    (op = 0 → g.pend = none → valid → base < nowNs d + 2000 → strict = false → Does (.gateCommit req port w) s fun e =>
      flag SPN_GATEn_ADJ_BASE.LATE 0 n e = true ∧ bit (face Pg.SPN e).pend 1 = true ∧
      ∃ k, (gate n e).pend = some { base := base + k * cycle, cycle := cycle, list := list, bank := b } ∧
        nowNs d + 2000 ≤ base + k * cycle ∧ base + (k - 1) * cycle < nowNs d + 2000) ∧
    (op ≤ 1 → g.pend = none → (op = 0 → valid) → base < nowNs d + 2000 → strict = true →
      (op = 0 → Does (.gateCommit req port w) s (code Err.TIME_PAST)) ∧ (op = 1 → Does (.gateCommitOpen req port w) s (code Err.TIME_PAST))) ∧
    (op = 0 → g.pend = none → ¬valid → Does (.gateCommit req port w) s (code 0x21)) ∧
    (∀ l, g.pend = some l → nowNs d < l.base → (op = 0 → Does (.gateCommit req port w) s (code 0x20)) ∧
      (op = 1 → Does (.gateCommitOpen req port w) s (code 0x20)) ∧
      (op = 2 → Does (.gateCancel req port w) s fun e => (gate n e).pend = none ∧ (gate n e).running = g.running)) ∧
    (op = 1 → g.pend = none → nowNs d + 2000 ≤ base → Does (.gateCommitOpen req port w) s fun e =>
      (gate n e).pend = some { base := base } ∧ (gate n e).running = g.running) ∧
    (op = 2 → g.pend = none → Does (.gateCancel req port w) s (code Err.BAD_ARG))) ∧
  (∀ (port : Fin 128) s d, Runs 99 s d → (Machine.port port.val d).txNow = none →
    (∀ l, (gate port.val d).pend = some l → l.base ≤ nowNs d → Does (.gateSwitch port) s fun e => (gate port.val e).pend = none ∧
      (gate port.val e).running = (if l.list = [] then none else some l) ∧ bit (face Pg.SPN e).pend 8 = true) ∧
    ((gate port.val d).pend = none ∨ (∃ l, (gate port.val d).pend = some l ∧ nowNs d < l.base) → Leaves (.gateSwitch port) s d)) ∧
  (∀ (port : Fin 128) s d, Runs 99 s d → Does (.gateInterval port) s fun e => gate port.val e = gate port.val d ∧
    (∀ l, (gate port.val d).running = some l → rget SPN_GATEn_STAT.GATES 0 port.val e = (gateAt l (nowNs d)).1.gates % 256 ∧
      rget SPN_GATEn_STAT.ENTRY 0 port.val e = (gateAt l (nowNs d)).2.2 % 1024) ∧
    ((gate port.val d).running = none → rget SPN_GATEn_STAT.GATES 0 port.val e = 0xFF) ∧
    (∀ f l, (Machine.port port.val d).txNow = some f → (gate port.val d).running = some l → preemptable port.val f.cls d = true →
      bit (gateAt l (nowNs d)).1.gates f.cls = false → l.list ≠ [] → canCut port.val f d = true → (Machine.port port.val e).txNow = none ∧
        (Machine.port port.val e).txPre = some { f with fragment := true, cuts := f.cuts + 1 }) ∧
    (∀ f, (Machine.port port.val d).txNow = some f → preemptable port.val f.cls d = false ∨ canCut port.val f d = false → Machine.port port.val e = Machine.port port.val d))

/-- R363, R369 to R371, R374. -/
def Obligations.FabricLinkStates : Prop :=
  let chg (l : Fin 168) (e : Dev) : Prop := bit (face (fabPage l.val) e).pend (l.val % 8) = true
  let hello (d : Dev) (l : Fin 168) (seen : Bool) : Hello :=
    { magic := 0x58464C4B, version := 1, role := 0, id := BitVec.ofNat 8 (devId d), link := BitVec.ofNat 8 l.val, seen := seen }
  let sent (l : Fin 168) (h : Hello) (e : Dev) : Prop := ∃ c, Out.cellOut l.val (cellBytes c) ∈ e.out ∧ c.ctype = 3 ∧ c.kind = 0 ∧ c.payload = helloBytes h
  (∀ req (l : Fin 168) w s d img, let f := l.val / 8
    let k := l.val % 8
    let old := bit (rget FAB_LANE_EN.EN f 0 d) k
    (Commits req .FAB_LANE_EN f 0 (force w [(k, k, 1)]) s d img → Does (.fabLinkEnable req l w) s fun e =>
      rget FAB_LANE_EN.EN f 0 e = FAB_LANE_EN.EN.of img ∧ bit (rget FAB_LANE_EN.EN f 0 e) k = true ∧
      (old = false → fabState l.val d = 0 → blkEn (fabPage l.val) d = true → bit d.sys.badFab l.val = false → fabState l.val e = 1 ∧ chg l e) ∧
      (old = true → fabState l.val e = fabState l.val d)) ∧
    (Commits req .FAB_LANE_EN f 0 (force w [(k, k, 0)]) s d img → Does (.fabLinkDisable req l w) s fun e =>
      bit (rget FAB_LANE_EN.EN f 0 e) k = false ∧
      (old = true → fabState l.val e = 0 ∧ link l.val e = { since := if fabState l.val d = 0 then (link l.val d).since else d.mono } ∧ ∀ h ∈ (link l.val d).held, h.cell ∈ e.fab.again))) ∧
  (∀ l s d, FabLine l.val s d →
    (fabState l.val d = 1 → Does (.cellLock l) s fun e => fabState l.val e = 2 ∧ chg l e ∧
      link l.val e = { link l.val d with locked := true, seen := false, goods := 0, bads := 0, since := d.mono }) ∧
    (fabState l.val d ≠ 1 → Leaves (.cellLock l) s (setLink l.val { link l.val d with locked := true, goods := 0, bads := 0 } d))) ∧
  (∀ l s d, Runs (107 + l.val / 8) s d → let x := link l.val d
    let out := setLink l.val { x with locked := false } d
    (fabState l.val d ≠ 3 → Leaves (.cellLockLoss l) s out) ∧
    (fabState l.val d = 3 → Does (.cellLockLoss l) s fun e => fabState l.val e = 5 ∧ (link l.val e).held = [] ∧
      e.fab.again = d.fab.again ++ x.held.map (·.cell) ∧
      (∀ k : Fin 8, l.val < 160 → flag FCT_CFG.AUTO_SPARE 0 0 d = true → fabState (160 + k.val) d = 4 → (∀ j < k.val, fabState (160 + j) d ≠ 4) →
        fabState (160 + k.val) e = 3 ∧ lget FAB_LINKk_STAT.SUB l.val e = 1 ∧ lget FAB_LINKk_STAT.SUB_LINK l.val e = 160 + k.val ∧
        lget FAB_LINKk_STAT.SUB_LINK (160 + k.val) e = l.val ∧ bit (face Pg.FCT e).pend 4 = true)) ∧
    let waited (n : Nat) : Prop := x.since + n ≤ d.mono
    (fabState l.val d = 1 → waited 100000000 → Leaves (.fabTrainTimeout l) s (setLink l.val { x with locked := false, goods := 0, since := d.mono } d)) ∧
    (fabState l.val d ≠ 1 ∨ ¬waited 100000000 → Leaves (.fabTrainTimeout l) s d) ∧
    (fabState l.val d = 2 → Does (.helloSend l) s fun e => fabState l.val e = 2 ∧ (link l.val e).seen = x.seen ∧ sent l (hello d l x.seen) e) ∧
    (fabState l.val d ≠ 2 → Leaves (.helloSend l) s d) ∧ (fabState l.val d ≠ 2 ∨ ¬waited 10000000 → Leaves (.helloTimeout l) s d) ∧
    (fabState l.val d = 2 → waited 10000000 → Does (.helloTimeout l) s fun e => fabState l.val e = 1 ∧ chg l e) ∧
    (fabState l.val d = 5 → waited 100000000 → Does (.failedRetry l) s fun e => fabState l.val e = 1 ∧ chg l e) ∧
    (fabState l.val d ≠ 5 ∨ ¬waited 100000000 → Leaves (.failedRetry l) s d) ∧
    (let m := lget FAB_LINKk_STAT.SUB_LINK l.val d
     160 ≤ l.val → m < 168 → fabState l.val d = 3 → lget FAB_LINKk_STAT.SUB l.val d = 1 → fabState m d = 3 → x.held = [] → Does (.spareRelease l) s fun e =>
      fabState l.val e = 4 ∧ lget FAB_LINKk_STAT.SUB l.val e = 0 ∧ lget FAB_LINKk_STAT.SUB m e = 0) ∧
    (l.val < 160 ∨ fabState l.val d ≠ 3 ∨ x.held ≠ [] ∨ lget FAB_LINKk_STAT.SUB l.val d ≠ 1 ∨ fabState (lget FAB_LINKk_STAT.SUB_LINK l.val d) d ≠ 3 → Leaves (.spareRelease l) s d)) ∧
  (∀ l (h : Hello) s d, FabLine l.val s d → let st := fabState l.val d
    let good := h.magic = 0x58464C4B ∧ h.version = 1
    (¬good ∨ st < 2 ∨ 4 < st → Leaves (.helloReceive l h) s d) ∧
    (good → st = 2 → h.seen = true → Does (.helloReceive l h) s fun e => fabState l.val e = (if l.val < 160 then 3 else 4) ∧ chg l e ∧
      lget FAB_LINKk_FAR.FAR_ID l.val e = h.id.toNat ∧ lget FAB_LINKk_FAR.FAR_LINK l.val e = h.link.toNat ∧
      lget FAB_LINKk_STAT.WEIGHT l.val e = 64 ∧ sent l (hello d l true) e) ∧
    (good → st = 2 → h.seen = false → Does (.helloReceive l h) s fun e => fabState l.val e = 2 ∧ (link l.val e).seen = true ∧
      lget FAB_LINKk_FAR.FAR_ID l.val e = h.id.toNat) ∧
    (good → st = 3 ∨ st = 4 → h.seen = false → Does (.helloReceive l h) s fun e => fabState l.val e = 2 ∧ chg l e ∧ (link l.val e).held = []) ∧
    (good → st = 3 ∨ st = 4 → h.seen = true → Does (.helloReceive l h) s fun e => fabState l.val e = st ∧
      (∀ t, (link l.val d).helloAt = some t → d.mono < t + 1000 → link l.val e = link l.val d) ∧
      ((∀ t, (link l.val d).helloAt = some t → t + 1000 ≤ d.mono) → (link l.val e).helloAt = some d.mono ∧ sent l (hello d l true) e))) ∧
  (∀ l (mask : BitVec 64) s d, FabLine l.val s d →
    (fabState l.val d = 3 ∨ fabState l.val d = 4 → Does (.reachReceive l mask) s fun e => lget FAB_LINKk_REACH.REACH l.val e = mask.toNat ∧
      (lget FAB_LINKk_REACH.REACH l.val d ≠ mask.toNat → bit (face (fabPage l.val) e).pend (16 + l.val % 8) = true)) ∧
    (fabState l.val d ≠ 3 → fabState l.val d ≠ 4 → Leaves (.reachReceive l mask) s d))

/-- R366 to R369, R372, R373, R375, R377, R378, R380. -/
def Obligations.FabricCells : Prop :=
  let ct (l i : Nat) (e : Dev) : Nat := ctr (fabPage l) (0x1000 + 0x40 * (l % 8) + 8 * i) e
  (∀ (l : Fin 168) bs nc nu s d, FabLine l.val s d → let x := link l.val d
    let c := wireCell bs
    let cmd : Instr := .cellReceive l bs nc nu
    let up := x.locked = true ∧ (fabState l.val d = 3 ∨ fabState l.val d = 4)
    (c.crcOk = false → Does cmd s fun e => link l.val e = { x with bads := min (x.bads + 1) 8, goods := 0, locked := x.locked && decide (x.bads < 7) } ∧
      e.tm = d.tm ∧ ct l.val 2 e = (ct l.val 2 d + 1) % 2 ^ 64 ∧ ct l.val 6 e = (ct l.val 6 d + nc) % 2 ^ 64 ∧ ct l.val 7 e = (ct l.val 7 d + nu) % 2 ^ 64) ∧
    (c.crcOk = true → x.locked = false → x.goods ≠ 7 → Does cmd s fun e => link l.val e = { x with goods := x.goods + 1, bads := 0 } ∧ e.tm = d.tm) ∧
    (c.crcOk = true → x.locked = false → x.goods = 7 → fabState l.val d = 1 → Does cmd s fun e => (link l.val e).locked = true ∧ fabState l.val e = 2) ∧
    (c.crcOk = true → up → c.ackv = false → c.nakv = false → c.ctype = 2 → c.count = 0 → c.lseq.toNat = x.next → x.map = [] → Does cmd s fun e =>
      (link l.val e).next = (x.next + 1) % 4096 ∧ (link l.val e).ackv = true ∧ (link l.val e).map = [] ∧
      ∃ r, Out.cellOut l.val (cellBytes r) ∈ e.out ∧ r.ctype = 0 ∧ r.ack = c.lseq ∧ r.ackv = true) ∧
    (c.crcOk = true → up → c.ackv = false → c.nakv = false → (c.ctype = 1 ∨ c.ctype = 2) → 512 ≤ (c.lseq.toNat + 4096 - x.next) % 4096 →
      Does cmd s fun e => (link l.val e).next = x.next ∧ (link l.val e).map = x.map ∧ ct l.val 4 e = (ct l.val 4 d + 1) % 2 ^ 64 ∧ e.tm = d.tm) ∧
    (∀ h, c.crcOk = true → up → c.ctype = 0 → c.nakv = false → c.ackv = true → x.held = [h] → h.cell.lseq = c.ack → Does cmd s fun e =>
      (link l.val e).held = [] ∧ (link l.val e).latN = x.latN + 1) ∧
    (∀ h, c.crcOk = true → up → c.ctype = 0 → c.nakv = true → c.ackv = false → x.held = [h] → h.cell.lseq = c.nak → Does cmd s fun e =>
      (link l.val e).held = [{ h with tries := h.tries + 1, at_ := d.mono }] ∧ ct l.val 3 e = (ct l.val 3 d + 1) % 2 ^ 64 ∧
      ∃ r, Out.cellOut l.val (cellBytes r) ∈ e.out ∧ r.retx = true ∧ r.payload = h.cell.payload ∧ r.lseq = h.cell.lseq)) ∧
  (∀ (l : Fin 168) (n : BitVec 12) s d h, Runs (107 + l.val / 8) s d → (link l.val d).held = [h] → let lim := rget FCT_X_LINK.REPLAY_LIMIT 0 0 d
    let due := h.at_ + rget FCT_X_LINK.REPLAY_TMO 0 0 d ≤ d.mono
    (h.cell.lseq ≠ n ∨ ¬due → Leaves (.cellReplayTimeout l n) s d) ∧ (h.tries < lim ∨ ¬due → Leaves (.linkReplayFail l) s d) ∧
    (h.cell.lseq = n → due → h.tries < lim → Does (.cellReplayTimeout l n) s fun e => (link l.val e).held = [{ h with tries := h.tries + 1, at_ := d.mono }] ∧
      ∃ r, Out.cellOut l.val (cellBytes r) ∈ e.out ∧ r.retx = true ∧ r.lseq = n) ∧
    (lim ≤ h.tries → due → fabState l.val d = 3 → flag FCT_CFG.AUTO_SPARE 0 0 d = false → (Does (.linkReplayFail l) s fun e =>
      fabState l.val e = 5 ∧ (link l.val e).held = [] ∧ h.cell ∈ e.fab.again) ∧
      (h.cell.lseq = n → Does (.cellReplayTimeout l n) s fun e => fabState l.val e = 5 ∧ h.cell ∈ e.fab.again))) ∧
  (∀ s d, Runs 102 s d → (blkEn Pg.FCT d = false → Leaves .cellSpray s d) ∧
    (∀ v l r, blkEn Pg.FCT d = true → d.fab.again = [] → d.ctlQ = [] → v < 64 → d.fab.tx = [(v, { sseq := 0, recs := [r] })] →
      r.bytes.length ≤ 256 → r.bytes ≠ [] → r.started = false → reaches v d = true → sprayRound (2 ^ v) d = some l → Does .cellSpray s fun e =>
      (look e.fab.tx v {}).recs = [] ∧ (look e.fab.tx v {}).sseq = 1 ∧
      ∃ c, Out.cellOut l (cellBytes c) ∈ e.out ∧ c.ctype = 1 ∧ c.dstDev.val = v ∧ c.sseq = 0 ∧ c.first = 0 ∧ c.payload = r.bytes ∧
        c.fill.toNat = r.bytes.length - 1 ∧ (link l e).held.length = (link l d).held.length + 1) ∧
    (∀ m v l, blkEn Pg.FCT d = true → d.fab.again = [] → d.ctlQ = [m] → m.dst = some v → v < 64 → reaches v d = true → sprayRound (2 ^ v) d = some l →
      Does .cellSpray s fun e => e.ctlQ = [] ∧ ctr Pg.FCT 0x1010 e = (ctr Pg.FCT 0x1010 d + 1) % 2 ^ 64 ∧
        ∃ c, Out.cellOut l (cellBytes c) ∈ e.out ∧ c.ctype = 2 ∧ c.bcast = false ∧ c.dstDev.val = v ∧ c.count = 1 ∧
          c.payload = beBytes (if m.kind = 0 then 8 else 32) m.rec_)) ∧
  (∀ (v : Fin 64) s d, Runs 102 s d → let t := look d.fab.tx v.val {}
    let gone := look d.fab.cutOff v.val d.fab.upAt + 1000000 ≤ d.mono
    (t.recs = [] ∨ reaches v.val d = true ∨ ¬gone → Leaves (.unreachableTimeout v) s d) ∧
    (t.recs ≠ [] → reaches v.val d = false → gone → Does (.unreachableTimeout v) s fun e => (look e.fab.tx v.val {}).recs = [] ∧
      look e.drops 0xC4 0 = look d.drops 0xC4 0 + t.recs.length ∧ bit (face Pg.FCT e).pend 3 = true)) ∧
  (∀ s d, Runs 102 s d → let ends := d.fab.lagAt + rget FCT_X_LAG1.INT_US 0 0 d * 1000 ≤ d.mono
    (¬ends → Leaves .lagCheck s d) ∧
    (ends → (∀ l < 168, fabState l d ≠ 3) → Leaves .lagCheck s { d with fab := { d.fab with lagAt := d.mono } }) ∧
    (∀ l : Fin 168, ends → fabState l.val d = 3 → (∀ k < 168, k ≠ l.val → fabState k d ≠ 3) → let x := link l.val d
      let ppm := x.resent * 1000000 / x.sent
      let w := lget FAB_LINKk_STAT.WEIGHT l.val d
      x.sent ≠ 0 → x.latN = 0 → w < 128 → rget FCT_X_LAG1.SUB_INT 0 0 d = 0 → Does .lagCheck s fun e => (link l.val e).sent = 0 ∧ (link l.val e).resent = 0 ∧
        (rget FCT_X_LAG.RETX_PPM 0 0 d < ppm → lget FAB_LINKk_STAT.WEIGHT l.val e = w / 2 ∧ lget FAB_LINKk_STAT.LAGGING l.val e = 1 ∧
          (lget FAB_LINKk_STAT.LAGGING l.val d = 0 → bit (face (fabPage l.val) e).pend (8 + l.val % 8) = true)) ∧
        (ppm ≤ rget FCT_X_LAG.RETX_PPM 0 0 d → lget FAB_LINKk_STAT.LAGGING l.val d = 0 → lget FAB_LINKk_STAT.WEIGHT l.val e = w))) ∧
  (∀ (c : Cell) s d, Runs 102 s d → let v := c.srcDev.val
    let x := rxStream v d
    let bs := c.payload.take (c.fill.toNat + 1)
    let n := c.sseq.toNat
    (c.dstDev.val ≠ devId d → Does (.dataCellReceive c) s fun e => e.fab = d.fab ∧ ctr Pg.FCT 0x1038 e = (ctr Pg.FCT 0x1038 d + 1) % 2 ^ 64) ∧
    (c.dstDev.val = devId d → x.started = true → x.sgen = c.sgen.toNat → has x.cells n = true → Does (.dataCellReceive c) s fun e =>
      rxStream v e = x ∧ ctr Pg.FCT 0x1038 e = (ctr Pg.FCT 0x1038 d + 1) % 2 ^ 64) ∧
    (∀ h t, c.dstDev.val = devId d → x.started = true → x.sgen = c.sgen.toNat → x.cells = [] → x.resync = false → trackerUsed d < 131072 →
      poolEn (fabPool d) d = true → (pool (fabPool d) d).cache = h :: t → bs.length ≤ 64 * poolStep (fabPool d) d →
      (n = x.exp → (x.part ++ bs).length < 32 → Does (.dataCellReceive c) s fun e => (rxStream v e).exp = (x.exp + 1) % 2 ^ 20 ∧
        (rxStream v e).part = x.part ++ bs ∧ (rxStream v e).cells = []) ∧
      (n ≠ x.exp → (n + 2 ^ 20 - x.exp) % 2 ^ 20 < 2 ^ 19 → x.holeAt = none → Does (.dataCellReceive c) s fun e => (rxStream v e).exp = x.exp ∧
        (rxStream v e).cells = [(n, { first := c.first.toNat, payload := bs, cells := [h] })] ∧ (rxStream v e).holeAt = some d.mono))) ∧
  (∀ (v : Fin 64) s d, Runs 102 s d → let x := rxStream v.val d
    let due := ∀ t, x.holeAt = some t → t + rget FCT_X_LINK.REORDER_NS 0 0 d ≤ d.mono
    (x.cells = [] ∨ ¬due → Leaves (.holeTimeout v) s d) ∧
    (∀ n c, x.cells = [(n, c)] → due → Does (.holeTimeout v) s fun e => (rxStream v.val e).exp = (n + 1) % 2 ^ 20 ∧ (rxStream v.val e).cells = [] ∧
      look d.drops 0xC0 0 + 1 ≤ look e.drops 0xC0 0 ∧ (x.part = [] → look e.drops 0xC0 0 = look d.drops 0xC0 0 + 1) ∧ bit (face Pg.FCT e).pend 6 = true))

/-- R141, R220, R228, R312, R381 to R386. -/
def Obligations.FabricRecords : Prop :=
  (∀ (port : BitVec 7) (cls : Fin 16) (dev : Fin 64) (seq : BitVec 16) s d, Runs 102 s d →
    let k := (port.toNat * 16 + cls.val) * 64 + dev.val
    let r := look d.tm.reqs k {}
    let kept (on : Bool) : Dev := { d with tm := { d.tm with reqs := put d.tm.reqs k {} { on := on, seq := seq.toNat, seen := true } } }
    (r.seen = false ∨ later16 seq.toNat r.seq = true → Leaves (.creditReqOn port cls dev seq) s (kept true) ∧
      Leaves (.creditReqOff port cls dev seq) s (kept false)) ∧
    (r.seen = true → later16 seq.toNat r.seq = false → Leaves (.creditReqOn port cls dev seq) s d ∧ Leaves (.creditReqOff port cls dev seq) s d)) ∧
  (∀ (q : BitVec 17) (n : BitVec 4) s d, Runs 102 s d → Does (.creditGrant q n) s fun e =>
    (queue q.toNat e).bal = (queue q.toNat d).bal + n.toNat * creditBytes d ∧ (queue q.toNat e).pkts = (queue q.toNat d).pkts ∧
    ctr Pg.TMS 0x1050 e = (ctr Pg.TMS 0x1050 d + n.toNat) % 2 ^ 64) ∧
  (∀ (src : Fin 64) (r : LearnRec) s d, Runs 102 s d → let mgr := isMgr d = true
    let on := flag LRN_CFG.CHASSIS 0 0 d = true
    let locked := lockHolder .XM_LOCKn r.table.val d ≠ 0
    let ev := recEv (learnNum 0 r)
    let key := xmKey r.table.val ev.key d
    let held (op : Nat) : Dev := { d with fab := { d.fab with heldLrn := d.fab.heldLrn ++ [(learnNum op r, src.val, d.mono)] } }
    let waits (op : Nat) : Dev := { d with fab := { d.fab with waiting := d.fab.waiting ++ [(src.val, learnNum op r)] } }
    (¬on → Leaves (.learnMsg src r) s d ∧ Leaves (.decideMsg src r) s d ∧ Leaves (.ageMsg src r) s d ∧ Leaves (.removeMsg src r) s d) ∧
    (on → rget FCT_MGR_STAT.ROLE 0 0 d = 0 → Leaves (.learnMsg src r) s d ∧ Leaves (.ageMsg src r) s d) ∧
    (on → rget FCT_MGR_STAT.ROLE 0 0 d = 1 → Leaves (.learnMsg src r) s (held 0) ∧ Leaves (.ageMsg src r) s (held 2)) ∧
    (on → mgr → locked → Leaves (.learnMsg src r) s (waits 0) ∧ Leaves (.ageMsg src r) s (waits 2)) ∧
    (on → mgr → Leaves (.decideMsg src r) s d ∧ Leaves (.removeMsg src r) s d) ∧
    (∀ slot x, on → mgr → ¬locked → blkEn Pg.FCT d = true → d.tab.lrnCache = [] → xmFind r.table.val ev.key d = some (slot, x) →
      xmFind r.table.val key d = some (slot, x) → entPair x = r.dev.toNat * 256 + r.port.toNat → x.static = true → Does (.learnMsg src r) s fun e =>
        e.tab.xm = d.tab.xm ∧ e.tab.stash = d.tab.stash ∧
        e.ctlQ = d.ctlQ ++ [{ dst := none, kind := 1, rec_ := learnRec 1 r.table.val r.dev.toNat r.port.toNat r.time.toNat key }]) ∧
    (∀ slot x, on → ¬mgr → ¬locked → slot < 2 ^ 22 → find? d.tab.xm slot = some x → xmFind r.table.val key d = some (slot, x) → x.static = false →
      d.fab.heldLrn = [] → (Does (.decideMsg src r) s fun e => find? e.tab.xm slot =
          some { x with result := learnedResult r.table.val (r.dev.toNat * 256 + r.port.toNat) d, learned := true }) ∧
        (x.learned = true → Does (.removeMsg src r) s fun e => find? e.tab.xm slot = none)) ∧
    (∀ slot x, on → mgr → ¬locked → blkEn Pg.FCT d = true → slot < 2 ^ 22 → find? d.tab.xm slot = some x → xmFind r.table.val key d = some (slot, x) →
      x.static = false → x.learned = true → Does (.ageMsg src r) s fun e => find? e.tab.xm slot = none ∧
        e.ctlQ = d.ctlQ ++ [{ dst := none, kind := 1, rec_ := learnRec 3 r.table.val r.dev.toNat r.port.toNat r.time.toNat r.key.toNat }])) ∧
  (∀ (src : Fin 64) (seq : BitVec 16) (cause : BitVec 2) (sec : BitVec 48) (ns : BitVec 30) s d, Runs 102 s d →
    let followed := flag FCT_MGR_STAT.MGR_VALID 0 0 d = true ∧ rget FCT_MGR_STAT.MGR_DEV 0 0 d = src.val ∧ isMgr d = false
    let answer (op nr : Nat) : List Ctl := [{ dst := some src.val, kind := 2, rec_ := epochRec op seq.toNat nr 0 }]
    let t := sec.toNat * 1000000000 + ns.toNat
    (¬followed → Leaves (.epochPrepare src seq) s d ∧ Leaves (.epochCommit src seq sec ns) s d) ∧
    (followed → blkEn Pg.FCT d = true → epcState d = 0 → seq.toNat ≠ curSeq d →
      (notReady d = 0 → Does (.epochPrepare src seq) s fun e => epcState e = 3 ∧ e.epc.prepSeq = seq.toNat ∧ e.ctlQ = d.ctlQ ++ answer 1 0) ∧
      (notReady d ≠ 0 → Does (.epochPrepare src seq) s fun e => epcState e = 0 ∧ e.ctlQ = d.ctlQ ++ answer 2 (notReady d))) ∧
    (followed → epcState d = 3 → d.epc.prepSeq = seq.toNat →
      (∀ i, nowNs d < t → ns.toNat < 1000000000 → lowestFree d.spn.acts 0 4096 = some i → Does (.epochCommit src seq sec ns) s fun e => epcState e = 1 ∧
        find? e.spn.acts i = some { owner := 0xF200, kind := 3, t := t, switchSeq := seq.toNat }) ∧
      (t ≤ nowNs d → ns.toNat < 1000000000 → flag EPC_X_CFG.STRICT 0 0 d = true → Does (.epochCommit src seq sec ns) s fun e => epcState e = 0 ∧
        (face Pg.EPC e).errCode = Err.TIME_PAST ∧ curBank e = curBank d)) ∧
    (epcState d = 3 → d.epc.prepSeq = seq.toNat → Does (.epochAbort src seq) s fun e => epcState e = 0 ∧ bit (face Pg.EPC e).pend 4 = true ∧
      curBank e = curBank d) ∧
    (epcState d ≠ 3 ∨ d.epc.prepSeq ≠ seq.toNat → Leaves (.epochAbort src seq) s
      { d with epc := { d.epc with seen := if d.epc.seen = some seq.toNat then none else d.epc.seen } }) ∧
    (d.epc.mgrSeq ≠ some seq.toNat → Leaves (.epochReady src seq) s d ∧ Leaves (.epochNotReady src seq cause) s d) ∧
    (d.epc.mgrSeq = some seq.toNat → (∃ m ∈ d.epc.workers, m ≠ src.val ∧ m ∉ d.epc.ready) → src.val ∉ d.epc.ready →
      Leaves (.epochReady src seq) s { d with epc := { d.epc with ready := src.val :: d.epc.ready } }) ∧
    (∀ i, d.epc.mgrSeq = some seq.toNat → (∀ m ∈ d.epc.workers, m = src.val ∨ m ∈ d.epc.ready) → lowestFree d.spn.acts 0 4096 = some i →
      Does (.epochReady src seq) s fun e => epcState e = 1 ∧ e.epc.mgrSeq = none ∧
        find? e.spn.acts i = some { owner := 0xF200, kind := 3, t := nowNs d + rget EPC_X_CFG.LEAD 0 0 d * 1000, switchSeq := seq.toNat }) ∧
    (d.epc.mgrSeq = some seq.toNat → Does (.epochNotReady src seq cause) s fun e => e.epc.mgrSeq = none ∧ curBank e = curBank d))

/-- R382, R385, R388 to R391. -/
def Obligations.ChassisRoles : Prop :=
  let role (e : Dev) : Nat := rget FCT_MGR_STAT.ROLE 0 0 e
  let tmo (d : Dev) : Nat := rget FCT_MGR_CFG.MGR_TMO 0 0 d * 1000
  let term (e : Dev) : Nat := rget FCT_MGR_STAT.TERM 0 0 e
  let mgr (v : Nat) (e : Dev) : Prop := flag FCT_MGR_STAT.MGR_VALID 0 0 e = true ∧ rget FCT_MGR_STAT.MGR_DEV 0 0 e = v
  (∀ s d, Runs 102 s d →
    (blkEn Pg.FCT d = true → Leaves .statusBeacon s { d with ctlQ := d.ctlQ ++ [{ dst := none, kind := 4, rec_ := statusRec (role d) false d }] }) ∧
    (blkEn Pg.FCT d = false → Leaves .statusBeacon s d) ∧
    (d.fab.heldLrn = [] → Leaves .learnHoldExpire s d) ∧
    (∀ x t, d.fab.heldLrn = x :: t → let due := x.2.2 + 2 * rget FCT_MGR_CFG.MGR_TMO 0 0 d * 1000 ≤ d.mono
      (¬due → Leaves .learnHoldExpire s d) ∧ (due → Leaves .learnHoldExpire s { d with fab := { d.fab with heldLrn := t } }))) ∧
  (∀ (r : StatusRec) s d, Runs 102 s d → Does (.statusReceive r) s fun e => let v := r.dev.val
    look e.fab.heard v {} = { at_ := d.mono, role := r.role.toNat, cand := r.cand, term := r.term.toNat } ∧
    e.fab.maxTerm = max d.fab.maxTerm r.term.toNat ∧ bit (rget FCT_MEMBERS.SET 0 0 e) v = true ∧
    (bit (rget FCT_MEMBERS.SET 0 0 d) v = false → bit (face Pg.FCT e).pend 2 = true) ∧
    (r.role = 2 → isMgr d = false → (flag FCT_MGR_STAT.MGR_VALID 0 0 d = false ∨ term d < r.term.toNat) → mgr v e ∧ term e = r.term.toNat ∧
      role e = if r.stbyValid = true ∧ r.stbyDev.val = devId d ∧ isCand d = true then 1 else 0) ∧
    (r.role = 2 → isMgr d = true → r.term.toNat < term d → isMgr e = true ∧ term e = term d) ∧
    (r.role = 2 → isMgr d = true → term d < r.term.toNat → isMgr e = false ∧ mgr v e ∧ term e = r.term.toNat ∧ rget SPN_CFG.SRC 0 0 e = 2)) ∧
  (∀ (v : Fin 64) s d h, Runs 102 s d → find? d.fab.heard v.val = some h → d.mono < h.at_ + tmo d → Leaves (.memberTimeout v) s d) ∧
  (∀ (v : Fin 64) s d, Runs 102 s d → (∀ h, find? d.fab.heard v.val = some h → h.at_ + tmo d ≤ d.mono) → Does (.memberTimeout v) s fun e => bit (rget FCT_MEMBERS.SET 0 0 e) v.val = false ∧
    (∀ u, u ≠ v.val → bit (rget FCT_MEMBERS.SET 0 0 d) u = true → u < 64 → bit (rget FCT_MEMBERS.SET 0 0 e) u = true) ∧
    (∀ k, k % 64 = v.val → (look e.tm.reqs k {}).on = false) ∧ (∀ k, k % 64 ≠ v.val → look e.tm.reqs k {} = look d.tm.reqs k {}) ∧
    (bit (rget FCT_MEMBERS.SET 0 0 d) v.val = true → bit (face Pg.FCT e).pend 2 = true)) ∧
  (∀ s d, Runs 102 s d → let silent (v n : Nat) : Prop := ∀ h, find? d.fab.heard v = some h → h.at_ + n ≤ d.mono
    let lost := flag FCT_MGR_STAT.MGR_VALID 0 0 d = true → silent (rget FCT_MGR_STAT.MGR_DEV 0 0 d) (tmo d)
    (role d ≠ 1 ∨ blkEn Pg.FCT d = false ∨ ¬lost → Leaves .mgrTimeout s d) ∧
    (role d = 1 → blkEn Pg.FCT d = true → lost → devId d < 64 → Does .mgrTimeout s fun e => role e = 2 ∧ term e = (term d + 1) % 2 ^ 16 ∧ mgr (devId d) e ∧
      bit (face Pg.FCT e).pend 0 = true ∧ bit (face Pg.FCT e).pend 1 = true) ∧
    (isCand d = false ∨ role d ≠ 0 ∨ d.mono < d.fab.upAt + 2 * tmo d → Leaves .managerElection s d) ∧
    (isCand d = true → role d = 0 → devId d < 64 → d.fab.upAt + 2 * tmo d ≤ d.mono → (∀ x ∈ d.fab.heard, x.2.role = 0 ∨ silent x.1 (2 * tmo d)) →
      (∀ v ∈ otherMembers d, (look d.fab.heard v {}).cand = true → devId d ≤ v) →
      Does .managerElection s fun e => role e = 2 ∧ term e = (d.fab.maxTerm + 1) % 2 ^ 16 ∧ mgr (devId d) e)) ∧
  (∀ req w s d img, Commits req .FCT_MGR_CMD 0 0 (force w [(31, 31, 1)]) s d img →
    (isMgr d = false → Writes req (.handover req w) s (errAt 0x20 .FCT_MGR_CMD 0 0 d)) ∧
    (isMgr d = true → flag FCT_MGR_STAT.STBY_VALID 0 0 d = false → Writes req (.handover req w) s (errAt 0x21 .FCT_MGR_CMD 0 0 d)) ∧
    (isMgr d = true → flag FCT_MGR_STAT.STBY_VALID 0 0 d = true → Does (.handover req w) s fun e => role e = 0 ∧
      flag FCT_MGR_STAT.MGR_VALID 0 0 e = false ∧ bit (face Pg.FCT e).pend 0 = true ∧ rget SPN_CFG.SRC 0 0 e = 2 ∧
      (blkEn Pg.FCT d = true → e.ctlQ = d.ctlQ ++ [{ dst := none, kind := 4, rec_ := statusRec 0 true d }])))

/-- R401, R402, R404 to R407, R409, R410. -/
def Obligations.MailboxCommands : Prop :=
  let rows (req : Requester) (w : BitVec 32) : List (Nat × Instr) := [(0x01, .bfdAdd req w), (0x02, .bfdMod req w), (0x03, .bfdDel req w),
    (0x04, .bfdRead req w), (0x10, .ndAdd req w), (0x11, .ndDel req w), (0x20, .ipfixCfg req w), (0x21, .ipfixFlush req w)]
  let gone (c : Nat) (e : Dev) : Prop := rget SVC_MBOX_RES.STATUS 0 0 e = c ∧ flag SVC_MBOX_CMD.GO 0 0 e = false ∧ (c ≠ 0 → (face Pg.SVC e).errCode = c)
  let serves (req : Requester) (op : Nat) (w : BitVec 32) (s : State) (d : Dev) (img : Nat) : Prop := Commits req .SVC_MBOX_CMD 0 0 (go w 30 24 op) s d img ∧
    fwRun d ≠ 0 ∧ flag SVC_FW_STAT.SWITCHING 0 0 d = false ∧ flag SVC_MBOX_CMD.GO 0 0 d = false
  (∀ req w s d img, ∀ x ∈ rows req w, Commits req .SVC_MBOX_CMD 0 0 (go w 30 24 x.1) s d img →
    (flag SVC_MBOX_CMD.GO 0 0 d = true → Writes req x.2 s (errAt Err.BAD_ARG .SVC_MBOX_CMD 0 0 d)) ∧
    (flag SVC_MBOX_CMD.GO 0 0 d = false → flag SVC_FW_STAT.SWITCHING 0 0 d = true → Does x.2 s fun e =>
      e.svc = { d.svc with held := some img } ∧ flag SVC_MBOX_CMD.GO 0 0 e = true) ∧
    (flag SVC_MBOX_CMD.GO 0 0 d = false → flag SVC_FW_STAT.SWITCHING 0 0 d = false → fwRun d = 0 → Does x.2 s fun e =>
      e.svc = d.svc ∧ gone Err.NOT_READY e)) ∧
  (∀ req w s d img, serves req 0x01 w s d img → let a := argField (SVC_MBOX_CMD.ARG.of img) bfdAddW
    let bad := has d.svc.sess (a 0) = true ∨ a 7 < 3300 ∨ a 8 < 3300 ∨ a 6 = 0 ∨ a 3 = 3 ∨ (a 3 ≠ 0 ∧ bfdKey (a 5) d = none)
    (bad → Does (.bfdAdd req w) s fun e => gone Err.BAD_ARG e ∧ e.svc = d.svc) ∧
    (¬bad → lowestFree d.svc.wheel 0 65536 = none → Does (.bfdAdd req w) s fun e => gone Err.RESOURCE_FULL e ∧ e.svc = d.svc) ∧
    (∀ slot, ¬bad → lowestFree d.svc.wheel 0 65536 = some slot → Does (.bfdAdd req w) s fun e => gone 0 e ∧ find? e.svc.wheel slot = some (0xF400, 0) ∧
      ∃ x, sess (a 0) e = some x ∧ x.slot = slot ∧ x.mhop = (a 1 == 1) ∧ x.v6 = (a 2 == 1) ∧ x.auth = a 3 ∧ x.mult = a 6 ∧ x.txUs = a 7 ∧
        x.rxUs = a 8 ∧ x.nh = a 9 ∧ x.disc = a 10 ∧ x.st = 1 ∧ x.rRx = 1 ∧ x.rDisc = 0 ∧ x.deleting = false)) ∧
  (∀ req w s d img, serves req 0x02 w s d img → let a := argField (SVC_MBOX_CMD.ARG.of img) bfdModW
    (sess (a 0) d = none → Does (.bfdMod req w) s fun e => gone Err.BAD_ARG e ∧ e.svc = d.svc) ∧
    (∀ x, sess (a 0) d = some x → let bad := x.deleting = true ∨ bfdArgBad (a 1) (a 3) (a 4) (a 5) (a 6) d = true
      (bad → Does (.bfdMod req w) s fun e => gone Err.BAD_ARG e ∧ e.svc = d.svc) ∧
      (¬bad → Does (.bfdMod req w) s fun e => gone 0 e ∧ ∃ y, sess (a 0) e = some y ∧ y.st = x.st ∧ y.mult = a 4 ∧ y.txUs = a 5 ∧ y.rxUs = a 6 ∧
        y.auth = a 1 ∧ y.poll = true ∧ y.detRx = if x.st = 3 then max x.detRx (a 6) else a 6))) ∧
  (∀ req w s d img, serves req 0x03 w s d img → let i := argField (SVC_MBOX_CMD.ARG.of img) [15] 0
    (sess i d = none → Does (.bfdDel req w) s fun e => gone Err.BAD_ARG e ∧ e.svc = d.svc) ∧
    (∀ x, sess i d = some x → x.deleting = true → Does (.bfdDel req w) s fun e => gone 0 e ∧ e.svc = d.svc) ∧
    (∀ x, sess i d = some x → x.deleting = false → Does (.bfdDel req w) s fun e => gone 0 e ∧ e.svc.ringBuf = d.svc.ringBuf ∧
      ∃ y, sess i e = some y ∧ y.st = 0 ∧ y.diag = 7 ∧ y.deleting = true ∧ y.delAt = d.mono ∧ y.slot = x.slot)) ∧
  (∀ (i : BitVec 15) s d, Runs 98 s d → (sess i.toNat d = none → Leaves (.bfdDelFinish i) s d) ∧
    (∀ x, sess i.toNat d = some x → let due := x.delAt + x.mult * (max (if x.st = 3 then x.curTx else max x.curTx 1000000) x.rRx * 750) ≤ d.mono
      (x.deleting = false ∨ ¬due → Leaves (.bfdDelFinish i) s d) ∧
      (x.deleting = true → due → Does (.bfdDelFinish i) s fun e => sess i.toNat e = none ∧ find? e.svc.wheel x.slot = none))) ∧
  (∀ req w s d img, serves req 0x04 w s d img → let i := argField (SVC_MBOX_CMD.ARG.of img) [15] 0
    (sess i d = none → Does (.bfdRead req w) s fun e => gone Err.BAD_ARG e) ∧
    (∀ x, sess i d = some x → Does (.bfdRead req w) s fun e => gone 0 e ∧ e.svc = d.svc ∧ rget SVC_MBOX_RES.DATA 0 0 e % 2 ^ 504 =
      packData [(x.st, 2), (x.diag, 5), (x.rDisc, 32), (x.rTx, 22), (x.rRx, 22), (x.rxPkts, 32), (x.txPkts, 32)] % 2 ^ 504)) ∧
  (∀ req w s d img, serves req 0x10 w s d img → let a := argField (SVC_MBOX_CMD.ARG.of img) ndAddW
    (has d.svc.nd (a 0) = true → Does (.ndAdd req w) s fun e => gone Err.BAD_ARG e ∧ e.svc = d.svc) ∧
    (has d.svc.nd (a 0) = false → Does (.ndAdd req w) s fun e => gone 0 e ∧ find? e.svc.nd (a 0) =
      some { v6 := a 1 == 1, ovr := a 2 == 1, ingPort := a 3, mac := a 4, addr := if a 1 = 1 then a 5 else a 5 % 2 ^ 32 })) ∧
  (∀ req w s d img, serves req 0x11 w s d img → let i := argField (SVC_MBOX_CMD.ARG.of img) [14] 0
    (has d.svc.nd i = false → Does (.ndDel req w) s fun e => gone Err.BAD_ARG e ∧ e.svc = d.svc) ∧
    (has d.svc.nd i = true → Does (.ndDel req w) s fun e => gone 0 e ∧ find? e.svc.nd i = none)) ∧
  (∀ req w s d img, serves req 0x20 w s d img → let a := argField (SVC_MBOX_CMD.ARG.of img) ipfixW
    (a 7 < 512 ∨ 1500 < a 7 → Does (.ipfixCfg req w) s fun e => gone Err.BAD_ARG e ∧ e.svc = d.svc) ∧
    (512 ≤ a 7 → a 7 ≤ 1500 → Does (.ipfixCfg req w) s fun e => gone 0 e ∧ e.svc.ipfix.en = (a 0 == 1) ∧ e.svc.ipfix.domain = a 2 ∧
      e.svc.ipfix.sampling = a 3 ∧ e.svc.ipfix.activeS = a 4 ∧ e.svc.ipfix.idleS = a 5 ∧ e.svc.ipfix.templateS = a 6 ∧ e.svc.ipfix.mtu = a 7 ∧
      e.svc.ipfix.nh = a 8 ∧ e.svc.flows = d.svc.flows ∧ (a 0 = 1 → e.svc.msgSeq = (d.svc.msgSeq + 1) % 2 ^ 32))) ∧
  (∀ req w s d img, serves req 0x21 w s d img → Does (.ipfixFlush req w) s fun e => gone 0 e ∧ e.svc.flows = [] ∧
    rget SVC_MBOX_RES.DATA 0 0 e = d.svc.flows.length % 2 ^ 21 * 2 ^ 483)

/-- R399, R400, R402, R403, R411. -/
def Obligations.BfdSessions : Prop :=
  let first (k : Nat) (d : Dev) : Option (Nat × Desc) := d.tm.svcOut.find? fun e => e.1 == rget TMS_PORTn_EQ.EQ_BASE 0 129 d + k
  let taken (x : Nat × Desc) (d : Dev) : Dev := { d with tm := { d.tm with svcOut := d.tm.svcOut.erase x } }
  let rows : List (Nat × Instr) := [(0, .bfdReceive), (1, .ndRequest), (2, .ipfixSample)]
  let next (st rs : Nat) : Nat := if rs = 0 then 1 else if st = 1 then (if rs = 1 then 2 else if rs = 2 then 3 else 1)
    else if st = 2 then (if rs = 2 ∨ rs = 3 then 3 else 2) else if rs = 1 then 1 else 3
  (∀ c ∈ rows, ∀ s d, Runs 98 s d → (first c.1 d = none → Leaves c.2 s d) ∧
    (∀ x, first c.1 d = some x → fwRun d = 0 → Does c.2 s fun e => e.tm.svcOut = d.tm.svcOut.erase x ∧ look e.drops 0xE6 0 = look d.drops 0xE6 0 + 1) ∧
    (∀ x v bs d', first c.1 d = some x → fwRun d ≠ 0 → readChain .tm x.2 (taken x d) = (v, bs, d') → v ≠ 0 → Does c.2 s fun e =>
      e.svc = d.svc ∧ look e.drops v 0 = look d'.drops v 0 + 1)) ∧
  (∀ s d x bs d' ip o, Runs 98 s d → first 0 d = some x → fwRun d ≠ 0 → readChain .tm x.2 (taken x d) = (0, bs, d') →
    (svcParse x.2 bs d').l3out = some ip → find? (svcParse x.2 bs d').anchors 2 = some o → (o, 0x21) ∈ (svcParse x.2 bs d').slots →
    let b := (bs.take (o + beAt bs (o + 4) 2)).drop (o + 8)
    let rs := byteAt b 1 / 64
    let src := if ip.v6 then beAt bs (ip.ofs + 8) 16 else beAt bs (ip.ofs + 12) 4
    let dst := if ip.v6 then beAt bs (ip.ofs + 24) 16 else beAt bs (ip.ofs + 16) 4
    let ttl := if ip.v6 then byteAt bs (ip.ofs + 7) else byteAt bs (ip.ofs + 8)
    let valid := byteAt b 0 / 32 = 1 ∧ 24 ≤ byteAt b 3 ∧ byteAt b 3 ≤ b.length ∧ byteAt b 2 ≠ 0 ∧ bit (byteAt b 1) 0 = false ∧
      bit (byteAt b 1) 2 = false ∧ beAt b 4 4 ≠ 0 ∧ (beAt b 8 4 = 0 → rs ≤ 1)
    (byteAt b 0 / 32 ≠ 1 ∨ byteAt b 2 = 0 ∨ beAt b 4 4 = 0 → Does .bfdReceive s fun e => e.svc = d.svc ∧ look e.drops 0xE2 0 = look d'.drops 0xE2 0 + 1) ∧
    (valid → bfdMatch ip.v6 src dst (beAt b 8 4) d' = none → Does .bfdReceive s fun e => e.svc = d.svc ∧ look e.drops 0xE0 0 = look d'.drops 0xE0 0 + 1) ∧
    (∀ i y, valid → bfdMatch ip.v6 src dst (beAt b 8 4) d' = some (i, y) →
      (y.mhop = false → ttl ≠ 255 → Does .bfdReceive s fun e => e.svc = d.svc ∧ look e.drops 0xE2 0 = look d'.drops 0xE2 0 + 1) ∧
      (y.mhop = true ∨ ttl = 255 → y.auth ≠ 0 → Does .bfdReceive s fun e => e.svc = d.svc ∧ look e.drops 0xE1 0 = look d'.drops 0xE1 0 + 1) ∧
      (y.mhop = true ∨ ttl = 255 → y.auth = 0 → y.st ≠ 0 → bit (byteAt b 1) 5 = false → Does .bfdReceive s fun e =>
        ctr Pg.SVC 0x1008 e = (ctr Pg.SVC 0x1008 d' + 1) % 2 ^ 64 ∧ ∃ z, sess i e = some z ∧ z.st = next y.st rs ∧ z.rDisc = beAt b 4 4 ∧
          z.rMult = byteAt b 2 ∧ z.rTx = beAt b 12 4 ∧ z.rRx = beAt b 16 4 ∧ z.lastRx = some d'.mono ∧ z.rxPkts = (y.rxPkts + 1) % 2 ^ 32 ∧
          (next y.st rs ≠ y.st → ctr Pg.SVC 0x1010 e = (ctr Pg.SVC 0x1010 d' + 1) % 2 ^ 64)))) ∧
  (∀ (i : BitVec 15) s d, Runs 98 s d →
    (sess i.toNat d = none → Leaves (.bfdTransmit i) s d ∧ Leaves (.bfdDetectTimeout i) s d) ∧
    (∀ x, sess i.toNat d = some x →
      let due := ∀ t, x.lastTx = some t → t + max (if x.st = 3 then x.curTx else max x.curTx 1000000) x.rRx * 750 ≤ d.mono
      (fwRun d = 0 ∨ x.rRx = 0 ∨ ¬due → Leaves (.bfdTransmit i) s d) ∧
      (fwRun d ≠ 0 → x.rRx ≠ 0 → due → x.rDemand = false → x.auth = 0 → fifoBytes 33 d + 86 ≤ 32768 → Does (.bfdTransmit i) s fun e =>
        sess i.toNat e = some { x with txPkts := (x.txPkts + 1) % 2 ^ 32, lastTx := some d.mono } ∧ ctr Pg.SVC 0x1000 e = (ctr Pg.SVC 0x1000 d + 1) % 2 ^ 64 ∧
        ∃ f n, fifo 33 e = fifo 33 d ++ [f] ∧ f.port = 249 ∧ f.user = x.nh % 2 ^ 21 ∧ f.bytes.drop (if x.v6 then 62 else 42) = bfdBytes x false n) ∧
      (x.lastRx = none ∨ x.st < 2 ∨ 3 < x.st → Leaves (.bfdDetectTimeout i) s d) ∧
      (∀ t, x.lastRx = some t → x.st = 2 ∨ x.st = 3 → (d.mono < t + x.detect → Leaves (.bfdDetectTimeout i) s d) ∧
        (t + x.detect ≤ d.mono → Does (.bfdDetectTimeout i) s fun e =>
          sess i.toNat e = some { x with st := 1, diag := 1, rDisc := 0, lastRx := none } ∧ ctr Pg.SVC 0x1010 e = (ctr Pg.SVC 0x1010 d + 1) % 2 ^ 64 ∧
          (x.deleting = false → rget SVC_RING_BASE.BASE 0 0 d = 0 → d.svc.ringBuf.length < 1024 → e.svc.ringBuf =
            d.svc.ringBuf ++ [(2 ^ 24 + 2 ^ 16 + i.toNat, 1, timeNsOf d.spn.time % 2 ^ 64)])))))

/-- R400, R405 to R407. -/
def Obligations.NeighboursAndFlows : Prop :=
  let first (k : Nat) (d : Dev) : Option (Nat × Desc) := d.tm.svcOut.find? fun e => e.1 == rget TMS_PORTn_EQ.EQ_BASE 0 129 d + k
  let taken (x : Nat × Desc) (d : Dev) : Dev := { d with tm := { d.tm with svcOut := d.tm.svcOut.erase x } }
  let off (d : Dev) : Prop := d.svc.ipfix.en = false ∨ fwRun d = 0
  let sent (d e : Dev) : Prop := e.svc.msgSeq = (d.svc.msgSeq + 1) % 2 ^ 32 ∧ ctr Pg.SVC 0x1030 e = (ctr Pg.SVC 0x1030 d + 1) % 2 ^ 64
  (∀ s d x bs d' o, Runs 98 s d → first 1 d = some x → fwRun d ≠ 0 → readChain .tm x.2 (taken x d) = (0, bs, d') →
    (svcParse x.2 bs d').slots.find? (fun s => s.2 == 0x03) = some (o, 0x03) →
    let ip := beAt bs (o + 24) 4
    let asks := beAt bs o 6 = 0x000108000604 ∧ beAt bs (o + 6) 2 = 1 ∧ o + 28 ≤ bs.length
    (¬asks → Does .ndRequest s fun e => e.svc = d.svc ∧ look e.drops 0xE4 0 = look d'.drops 0xE4 0 + 1) ∧
    (asks → ndFind false ip x.2.port d' = none → Does .ndRequest s fun e => e.svc = d.svc ∧ look e.drops 0xE3 0 = look d'.drops 0xE3 0 + 1) ∧
    (∀ n, asks → ndFind false ip x.2.port d' = some n →
      let reply := replyLink bs ((find? (svcParse x.2 bs d').anchors 0).getD 0) o (beAt bs (o + 8) 6) n.mac ++ beBytes 6 0x000108000604 ++ beBytes 2 2 ++
        beBytes 6 n.mac ++ beBytes 4 n.addr ++ (bs.drop (o + 8)).take 10
      fifoBytes 33 d' + reply.length ≤ 32768 → Does .ndRequest s fun e => ctr Pg.SVC 0x1018 e = (ctr Pg.SVC 0x1018 d' + 1) % 2 ^ 64 ∧
        fifo 33 e = fifo 33 d' ++ [{ port := 249, bytes := reply, pktTime := now48 d', user := x.2.port % 256 * 2 ^ 21 }])) ∧
  (∀ s d x bs d', Runs 98 s d → first 2 d = some x → fwRun d ≠ 0 → readChain .tm x.2 (taken x d) = (0, bs, d') →
    let sec := d'.mono / 1000000000
    let n := if d'.svc.rateSec = sec then d'.svc.rateN else 0
    (50000000 ≤ n → Does .ipfixSample s fun e => e.svc = d'.svc ∧ look e.drops 0xE5 0 = look d'.drops 0xE5 0 + 1) ∧
    (n < 50000000 → Does .ipfixSample s fun e => e.svc.rateN = n + 1 ∧ e.svc.rateSec = sec ∧ ctr Pg.SVC 0x1020 e = (ctr Pg.SVC 0x1020 d' + 1) % 2 ^ 64 ∧
      (d'.svc.ipfix.en = false → e.svc.flows = d'.svc.flows)) ∧
    (∀ ip, n < 50000000 → d'.svc.ipfix.en = true → (svcParse x.2 bs d').l3out = some ip → ip.v6 = false → isTcpUdp (svcParse x.2 bs d') 2 = false →
      let k := flowKey x.2.port false (beAt bs (ip.ofs + 12) 4) (beAt bs (ip.ofs + 16) 4) ip.proto 0 0
      has d'.svc.flows k = true ∨ d'.svc.flows.length < 1048576 → let f := look d'.svc.flows k { first := nowMs d', since := d'.mono }
      Does .ipfixSample s fun e => find? e.svc.flows k =
        some { f with pkts := f.pkts + 1, octets := f.octets + beAt bs (ip.ofs + 2) 2, last := nowMs d', seen := d'.mono })) ∧
  (∀ (key : FlowKey) s d, Runs 98 s d → let k := flowNum key
    (off d ∨ find? d.svc.flows k = none → Leaves (.ipfixIdleExport key) s d ∧ Leaves (.ipfixActiveExport key) s d) ∧
    (∀ f, ¬off d → find? d.svc.flows k = some f → let idle := f.seen + d.svc.ipfix.idleS * 1000000000 ≤ d.mono
      let long := f.pkts ≠ 0 ∧ f.since + d.svc.ipfix.activeS * 1000000000 ≤ d.mono
      (¬idle → Leaves (.ipfixIdleExport key) s d) ∧ (¬long → Leaves (.ipfixActiveExport key) s d) ∧
      (idle → Does (.ipfixIdleExport key) s fun e => find? e.svc.flows k = none ∧ sent d e ∧ ctr Pg.SVC 0x1028 e = (ctr Pg.SVC 0x1028 d + 1) % 2 ^ 64) ∧
      (long → Does (.ipfixActiveExport key) s fun e => find? e.svc.flows k = some { first := nowMs d, last := f.last, since := d.mono, seen := f.seen } ∧
        sent d e))) ∧
  (∀ s d, Runs 98 s d → let due := d.svc.lastTpl + d.svc.ipfix.templateS * 1000000000 ≤ d.mono
    (off d ∨ ¬due → Leaves .ipfixTemplateSend s d) ∧ (¬off d → due → Does .ipfixTemplateSend s fun e => sent d e ∧ e.svc.flows = d.svc.flows))

/-- R49, R50, R230, R401, R411 to R413, R494. -/
def Obligations.WheelRingAndFirmware : Prop :=
  let code (e : Dev) : Nat := (face Pg.SVC e).errCode
  (∀ req w s d img, Commits req .SVC_WHEEL_CMD 0 0 (go w 30 30 0) s d img → let slot := SVC_WHEEL_CMD.SLOT.of img
    let id := SVC_WHEEL_CMD.OWNER_ID.of img
    let per := SVC_WHEEL_CMD.PERIOD.of img
    let bad := id = 0 ∨ idRefused req id = true ∨ per < 1 ∨ 60000 < per
    (bad → Does (.wheelClaim req w) s fun e => code e = Err.BAD_ARG ∧ e.svc = d.svc) ∧
    (∀ o p, ¬bad → find? d.svc.wheel slot = some (o, p) → o ≠ id → Does (.wheelClaim req w) s fun e => code e = Err.OWNER_BUSY ∧ e.svc = d.svc) ∧
    (¬bad → (∀ x, find? d.svc.wheel slot = some x → x.1 = id) → Does (.wheelClaim req w) s fun e => find? e.svc.wheel slot = some (id, per) ∧
      (∀ k, k ≠ slot → find? e.svc.wheel k = find? d.svc.wheel k) ∧ find? e.svc.wheelDue slot = some (d.mono + per * 1000000) ∧ rget SVC_WHEEL_FREE.FREE 0 0 e = (65536 - e.svc.wheel.length) % 2 ^ 17)) ∧
  (∀ req w s d img, Commits req .SVC_WHEEL_CMD 0 0 (go w 30 30 1) s d img → let slot := SVC_WHEEL_CMD.SLOT.of img
    let id := SVC_WHEEL_CMD.OWNER_ID.of img
    (id = 0 ∨ idRefused req id = true → Does (.wheelRelease req w) s fun e => code e = Err.BAD_ARG ∧ e.svc = d.svc) ∧
    (id ≠ 0 → idRefused req id = false → (∀ x, find? d.svc.wheel slot = some x → x.1 ≠ id) → Does (.wheelRelease req w) s fun e =>
      code e = Err.NOT_OWNER ∧ e.svc = d.svc) ∧
    (∀ p, id ≠ 0 → idRefused req id = false → find? d.svc.wheel slot = some (id, p) → Does (.wheelRelease req w) s fun e =>
      find? e.svc.wheel slot = none ∧ ∀ k, k ≠ slot → find? e.svc.wheel k = find? d.svc.wheel k)) ∧
  (∀ (slot : BitVec 16) s d, Runs 98 s d →
    ((∀ x, find? d.svc.wheel slot.toNat = some x → x.1 = 0xF400) → Leaves (.wheelTick slot) s d) ∧
    (∀ o p, find? d.svc.wheel slot.toNat = some (o, p) → o ≠ 0xF400 → let due := look d.svc.wheelDue slot.toNat 0
      let later := ins d.svc.wheelDue slot.toNat (due + p * 1000000)
      (d.mono < due → Leaves (.wheelTick slot) s d) ∧
      (due ≤ d.mono → d.svc.ringBuf.length < 1024 → rget SVC_RING_BASE.BASE 0 0 d = 0 → Leaves (.wheelTick slot) s { d with svc := { d.svc with
        wheelDue := later, ringBuf := d.svc.ringBuf ++ [(2 * 2 ^ 24 + slot.toNat, 0, timeNsOf d.spn.time % 2 ^ 64)] } }) ∧
      (due ≤ d.mono → 1024 ≤ d.svc.ringBuf.length → Does (.wheelTick slot) s fun e => e.svc = { d.svc with wheelDue := later } ∧ bit (face Pg.SVC e).pend 1 = true ∧
        ctr Pg.SVC 0x1038 e = (ctr Pg.SVC 0x1038 d + 1) % 2 ^ 64))) ∧
  (∀ s d, Runs 98 s d → let n := 2 ^ rget SVC_RING_CFG.SIZE_LOG2 0 0 d
    let h := rget SVC_RING_HEAD.HEAD 0 0 d % n
    (rget SVC_RING_BASE.BASE 0 0 d = 0 ∨ dmaOn d = false ∨ d.svc.ringBuf = [] → Leaves .ringDrain s d) ∧
    (∀ w0 w1 t, rget SVC_RING_BASE.BASE 0 0 d ≠ 0 → dmaOn d = true → d.svc.ringBuf = [(w0, w1, t)] → svcRingFree d ≠ 0 → n ≤ 2 ^ 16 → Does .ringDrain s fun e =>
      e.svc.ringBuf = [] ∧ rget SVC_RING_HEAD.HEAD 0 0 e = (h + 1) % n ∧ bit (face Pg.SVC e).pend 0 = true ∧
      Out.hostWrite (rget SVC_RING_BASE.BASE 0 0 d * 16 + 16 * h) (leBytes 4 w0 ++ leBytes 4 w1 ++ leBytes 8 t) ∈ e.out)) ∧
  (∀ req w s d img, Commits req .SVC_FW_CMD 0 0 (go w 30 30 0) s d img → let k := SVC_FW_CMD.SLOT.of img
    let st (e : Dev) : Nat := rget (slotField k) 0 0 e
    let signed := rget (slotField k) 0 0 d ≠ 0 ∧ Config.fwSigned (slotImage k d) (look d.vlt.slots 0 []) = true
    (fwRun d = k + 1 → Does (.fwVerify req w) s fun e => code e = 0x21 ∧ st e = st d) ∧
    (fwRun d ≠ k + 1 → signed → Does (.fwVerify req w) s fun e => st e = 2) ∧
    (fwRun d ≠ k + 1 → ¬signed → Does (.fwVerify req w) s fun e => st e = 3 ∧ code e = 0x20)) ∧
  (∀ req w s d img, Commits req .SVC_FW_CMD 0 0 (go w 30 30 1) s d img → let k := SVC_FW_CMD.SLOT.of img
    let own (j : Nat) (e : Dev) : Nat := rget MEM_GRANTr.OWNER 0 (64 + 4 * k + j) e
    let refused (c : Nat) : Prop := Does (.fwStart req w) s fun e => code e = c ∧ fwRun e = fwRun d ∧ e.svc = d.svc
    let runs := fwRun d = k + 1 ∨ flag SVC_FW_STAT.SWITCHING 0 0 d = true
    let held := ∃ j < 4, own j d = 1 ∨ own j d = 2
    (runs → refused 0x21) ∧ (¬runs → rget (slotField k) 0 0 d ≠ 2 → refused Err.NOT_READY) ∧
    (¬runs → rget (slotField k) 0 0 d = 2 → held → refused 0x22) ∧
    (¬runs → rget (slotField k) 0 0 d = 2 → ¬held → Does (.fwStart req w) s fun e => e.svc.starting = true ∧ e.svc.switchAt = d.mono ∧ (∀ j < 4, own j e = 2) ∧
      (fwRun d = 0 → fwRun e = k + 1) ∧ (fwRun d ≠ 0 → fwRun e = fwRun d ∧ flag SVC_FW_STAT.SWITCHING 0 0 e = true ∧ e.svc.old = some (fwRun d - 1)))) ∧
  (∀ s d, Runs 98 s d → let sw (e : Dev) : Bool := flag SVC_FW_STAT.SWITCHING 0 0 e
    (d.svc.old = none → Leaves .fwTakeover s d ∧ Leaves .fwSwitchTimeout s d) ∧
    (d.svc.starting = false → Leaves .fwReady s d) ∧
    (d.svc.starting = true → d.svc.old = none → Does .fwReady s fun e => e.svc.starting = false ∧ bit (face Pg.SVC e).pend 3 = true ∧ fwRun e = fwRun d) ∧
    (∀ o, d.svc.old = some o → o ≤ 1 → let gives (k : Nat) (e : Dev) : Prop := ∀ j < 4, rget MEM_GRANTr.OWNER 0 (64 + 4 * k + j) e = 3
      (sw d = true → fwRun d = o + 1 → Does .fwTakeover s fun e => fwRun e = 2 - o ∧ e.svc = d.svc) ∧
      (sw d = false ∨ fwRun d ≠ o + 1 → Leaves .fwTakeover s d) ∧
      (sw d = true → fwRun d = o + 1 → d.svc.starting = true → d.svc.held = none → Does .fwReady s fun e => fwRun e = 2 - o ∧ sw e = false ∧
        e.svc.old = none ∧ e.svc.starting = false ∧ gives o e ∧ bit (face Pg.SVC e).pend 3 = true) ∧
      (d.mono < d.svc.switchAt + 100000000 → Leaves .fwSwitchTimeout s d) ∧
      (d.svc.switchAt + 100000000 ≤ d.mono → d.svc.held = none → Does .fwSwitchTimeout s fun e => fwRun e = o + 1 ∧ sw e = false ∧ e.svc.old = none ∧ e.svc.starting = false ∧
        gives (1 - o) e ∧ bit (face Pg.SVC e).pend 2 = true)))

/-- R420 to R422, R427, R428, R452. -/
def Obligations.RingsAndQueues : Prop :=
  (∀ req (n : Fin 144) w s d img (on : Bool), Commits req .HIF_RINGn_CFG 0 n.val (force w [(31, 31, b2n on)]) s d img →
    let c : Instr := if on then .ringEnable req n w else .ringDisable req n w
    let size := HIF_RINGn_CFG.SIZE_LOG2.of img
    let buf := HIF_RINGn_CFG.BUF_LOG2.of img
    let en := flag HIF_RINGn_CFG.EN 0 n.val d
    let bad := size < 6 ∨ 16 < size ∨ (n.val < 64 ∧ (buf < 8 ∨ 14 < buf)) ∨ (128 ≤ n.val ∧ HIF_RINGn_CFG.WDOG_MS.of img = 0)
    let busy := en = true ∧ (size ≠ rget HIF_RINGn_CFG.SIZE_LOG2 0 n.val d ∨ buf ≠ rget HIF_RINGn_CFG.BUF_LOG2 0 n.val d)
    let alone := on = true ∧ en = false ∧ flag HIF_CQn_CFG.EN 0 n.val d = false
    (bad ∨ (¬busy ∧ alone) → Writes req c s (errAt Err.BAD_ARG .HIF_RINGn_CFG 0 n.val d)) ∧
    (¬bad → busy → Writes req c s (errAt 0x20 .HIF_RINGn_CFG 0 n.val d)) ∧
    (¬bad → ¬busy → ¬alone → Does c s fun e => flag HIF_RINGn_CFG.EN 0 n.val e = on ∧ rget HIF_RINGn_CFG.SIZE_LOG2 0 n.val e = size ∧
      rget HIF_RINGn_CFG.BUF_LOG2 0 n.val e = buf ∧
      (on = en → ringState n.val e = ringState n.val d ∧ ringHead n.val e = ringHead n.val d) ∧
      (on ≠ en → ringState n.val e = b2n on ∧ ringHead n.val e = 0 ∧ rget HIF_RINGn_TAIL.TAIL 0 n.val e = 0 ∧ rget HIF_RINGn_STAT.CODE 0 n.val e = 0))) ∧
  (∀ req (n : Fin 144) w s d img, Commits req .HIF_RINGn_TAIL 0 n.val w.toNat s d img → let t := HIF_RINGn_TAIL.TAIL.of img
    let st := ringState n.val d
    let h := ringHead n.val d
    (ringSize n.val d ≤ t → Writes req (.ringDoorbell req n w) s (errAt Err.BAD_ARG .HIF_RINGn_TAIL 0 n.val d)) ∧
    (t < ringSize n.val d → Writes req (.ringDoorbell req n w) s (let x := rset HIF_RINGn_TAIL.TAIL 0 n.val t d
      let armed : Dev := if n.val < 128 then x else { x with hif := { x.hif with chAt := ins x.hif.chAt (n.val - 128) x.hif.dmaNs } }
      if st = 1 ∧ t ≠ h then setRing n.val 2 armed else if st = 2 ∧ t = h then setRing n.val 1 x else x))) ∧
  (∀ req (n : Fin 144) w s d img (on : Bool), Commits req .HIF_CQn_CFG 0 n.val (force w [(31, 31, b2n on)]) s d img →
    let c : Instr := if on then .cqEnable req n w else .cqDisable req n w
    let size := HIF_CQn_CFG.SIZE_LOG2.of img
    let en := flag HIF_CQn_CFG.EN 0 n.val d
    let bad := size < 6 ∨ 16 < size
    let busy := en = true ∧ size ≠ rget HIF_CQn_CFG.SIZE_LOG2 0 n.val d
    let used := en = true ∧ on = false ∧ flag HIF_RINGn_CFG.EN 0 n.val d = true
    (bad ∨ (¬busy ∧ used) → Writes req c s (errAt Err.BAD_ARG .HIF_CQn_CFG 0 n.val d)) ∧
    (¬bad → busy → Writes req c s (errAt 0x20 .HIF_CQn_CFG 0 n.val d)) ∧
    (¬bad → ¬busy → ¬used → Does c s fun e => flag HIF_CQn_CFG.EN 0 n.val e = on ∧ rget HIF_CQn_CFG.SIZE_LOG2 0 n.val e = size ∧
      rget HIF_CQn_CFG.VECTOR 0 n.val e = HIF_CQn_CFG.VECTOR.of img ∧
      (on = true → en = false → rget HIF_CQn_HEAD.HEAD 0 n.val e = 0 ∧ rget HIF_CQn_TAIL.TAIL 0 n.val e = 0 ∧ rget HIF_CQn_TAIL.PHASE 0 n.val e = 1 ∧
        flag HIF_CQn_STAT.ARMED 0 n.val e = true ∧ rget HIF_CQn_STAT.UNANN 0 n.val e = 0))) ∧
  (∀ req (n : Fin 144) w s d img, Commits req .HIF_CQn_HEAD 0 n.val w.toNat s d img → let h := HIF_CQn_HEAD.HEAD.of img
    let size := 2 ^ rget HIF_CQn_CFG.SIZE_LOG2 0 n.val d
    let old := rget HIF_CQn_HEAD.HEAD 0 n.val d
    let bad := size ≤ h ∨ (rget HIF_CQn_TAIL.TAIL 0 n.val d + size - old) % size < (h + size - old) % size
    (bad → Writes req (.cqHeadWrite req n w) s (errAt Err.BAD_ARG .HIF_CQn_HEAD 0 n.val d)) ∧
    (¬bad → HIF_CQn_HEAD.ARM.on img = false → Writes req (.cqHeadWrite req n w) s (rset HIF_CQn_HEAD.HEAD 0 n.val h d)) ∧
    (¬bad → HIF_CQn_HEAD.ARM.on img = true → Writes req (.cqHeadWrite req n w) s
      (cqCycle n.val (rset HIF_CQn_STAT.ARMED 0 n.val 1 (rset HIF_CQn_HEAD.HEAD 0 n.val h d))))) ∧
  (∀ (n : Fin 144) s d, Runs 99 s d → let u := rget HIF_CQn_STAT.UNANN 0 n.val d
    let time := 1000 * rget HIF_CQn_MOD.TIME_US 0 n.val d
    let trig := rget HIF_CQn_MOD.CNT 0 n.val d ≤ u ∨ (time ≠ 0 ∧ time ≤ d.mono - (cqOf n.val d).last) ∨
      1000 * rget HIF_CQn_MOD.MAX_US 0 n.val d ≤ d.mono - (cqOf n.val d).first
    let may := flag HIF_CQn_CFG.EN 0 n.val d = true ∧ flag HIF_CQn_STAT.ARMED 0 n.val d = true ∧ u ≠ 0 ∧ trig
    (¬may → Leaves (.cqNotify n) s d) ∧
    (may → Does (.cqNotify n) s fun e => bit e.evt.cqWait (rget HIF_CQn_CFG.VECTOR 0 n.val d) = true ∧ rget HIF_CQn_STAT.UNANN 0 n.val e = 0 ∧
      flag HIF_CQn_STAT.ARMED 0 n.val e = false ∧ ctr Pg.HIF 0x1028 e = (ctr Pg.HIF 0x1028 d + 1) % 2 ^ 64))

/-- R423 to R426, R434, R435. -/
def Obligations.PuntAndInject : Prop :=
  let at_ (n : Nat) (d : Dev) : Nat := rget HIF_CQn_BASE.BASE 0 n d * 64 + 32 * rget HIF_CQn_TAIL.TAIL 0 n d
  let adv (n k : Nat) (d e : Dev) : Prop := ringHead n e = (ringHead n d + k) % ringSize n d
  (∀ (q : Fin 64) bufs s d, Runs 99 s d → let bs := bufs.map (·.toNat)
    let sel := d.tm.hostOut.find? fun e => puntRing e.1 d == some q.val
    let ready (x : Nat × Desc) : Prop := dmaOn d = true ∧ ringState q.val d = 2 ∧ cqRoom q.val d = true ∧ bufs.length = puntBufs q.val x.2.len d ∧
      bufs.length ≤ ringHeld q.val d
    (sel = none → Leaves (.puntDma q bufs) s d) ∧
    (∀ x, sel = some x → let off : Dev := { d with tm := { d.tm with hostOut := d.tm.hostOut.erase x } }
      (ringState q.val d = 0 → Does (.puntDma q bufs) s fun e => e.tm.hostOut = off.tm.hostOut ∧ look e.drops 0xF0 0 = look d.drops 0xF0 0 + 1) ∧
      (ringState q.val d ≠ 0 → ¬ready x → Leaves (.puntDma q bufs) s d) ∧
      (∀ c p d', ready x → readChain .host x.2 off = (c, p, d') → c ≠ 0 → Does (.puntDma q bufs) s fun e =>
        e.tm.hostOut = off.tm.hostOut ∧ look e.drops c 0 = look d'.drops c 0 + 1 ∧ ringHead q.val e = ringHead q.val d') ∧
      (∀ p d', ready x → readChain .host x.2 off = (0, p, d') → rget HIF_RINGn_CFG.SIZE_LOG2 0 q.val d' ≤ 16 → Does (.puntDma q bufs) s fun e =>
        e.tm.hostOut = off.tm.hostOut ∧ adv q.val bufs.length d' e ∧ ctr Pg.HIF 0x1000 e = (ctr Pg.HIF 0x1000 d' + 1) % 2 ^ 64 ∧
        (∀ y ∈ puntWrites (2 ^ rget HIF_RINGn_CFG.BUF_LOG2 0 q.val d') (bs.map fun b => b / 64 * 64) p, Out.hostWrite y.1 y.2 ∈ e.out) ∧
        (∃ entry, Out.hostWrite (at_ q.val d') entry ∈ e.out ∧ entry.length = 32)))) ∧
  (∀ (r : Fin 64) descs (bytes : Bytes) s d, Runs 99 s d → let n := 64 + r.val
    let ds := descs.map (·.toNat)
    let total := (ds.map injLen).foldl (· + ·) 0
    let ready := dmaOn d = true ∧ ringState n d = 2 ∧ cqRoom n d = true ∧ injWhole ds = true ∧ ds.length ≤ ringHeld n d
    let bad := 16 < ds.length ∨ total < 14 ∨ 16383 < total ∨ ∃ x ∈ ds, injLen x = 0
    let room := fifoBytes 32 d + total ≤ 32768 ∧ look d.srcCache 128 [] ≠ [] ∧ bytes.length = total
    (¬ready ∨ (¬bad ∧ ¬room) → Leaves (.injectFetch r descs bytes) s d) ∧
    (rget HIF_RINGn_CFG.SIZE_LOG2 0 n d ≤ 16 → ready → bad → Does (.injectFetch r descs bytes) s fun e => adv n ds.length d e ∧
      e.head = d.head ∧ look e.drops 0xF3 0 = look d.drops 0xF3 0 + 1 ∧ ∃ entry, Out.hostWrite (at_ n d) entry ∈ e.out ∧ entry.length = 32) ∧
    (rget HIF_RINGn_CFG.SIZE_LOG2 0 n d ≤ 16 → ready → ¬bad → room → Does (.injectFetch r descs bytes) s fun e => adv n ds.length d e ∧
      fifo 32 e = fifo 32 d ++ [{ port := 240, bytes := bytes, pktTime := now48 d, user := bits (ds.headD 0) 191 128 }] ∧
      ctr Pg.HIF 0x1010 e = (ctr Pg.HIF 0x1010 d + 1) % 2 ^ 64 ∧ ∃ entry, Out.hostWrite (at_ n d) entry ∈ e.out ∧ entry.length = 32)) ∧
  (∀ (n : Fin 144) cause descs (u : BitVec 32) data s d, Runs 99 s d → let c : Instr := .hostError n descs u data cause
    let works := readFails cause d = true ∧ if n.val < 128 then alive d = true ∧ dmaOn d = true ∧ (ringState n.val d = 1 ∨ ringState n.val d = 2)
      else dmaReady (Fin.ofNat 16 (n.val - 128)) d = true
    (¬works → Leaves c s d) ∧
    (works → Does c s fun e => ringState n.val e = 3 ∧ rget HIF_RINGn_STAT.CODE 0 n.val e = 0x21 ∧ bit (face Pg.HIF e).pend 0 = true ∧
      bit (face Pg.HIF e).pend 2 = true ∧ (n.val < 128 → ctr Pg.HIF 0x1040 e = (ctr Pg.HIF 0x1040 d + 1) % 2 ^ 64)))

/-- R429 to R433, R495. -/
def Obligations.DmaDescriptors : Prop :=
  let zero : List Nat := [0, 0, 0, 0]
  -- the completion entry of a descriptor, as the device `x` that it left finds the channel's CQ
  let ends (k : Fin 16) (x : Dev) (status done refused type : Nat) (e : Dev) : Prop := let n := 128 + k.val
    Out.hostWrite (rget HIF_CQn_BASE.BASE 0 n x * 64 + 32 * rget HIF_CQn_TAIL.TAIL 0 n x)
      (([rget HIF_CQn_TAIL.PHASE 0 n x * 2 ^ 31 + (2 * 2 ^ 28 + status % 256 * 2 ^ 16 + ringHead n x), done % 2 ^ 32, refused % 2 ^ 32,
        type % 65536 * 2 ^ 16] ++ zero).flatMap (leBytes 4)) ∈ e.out ∧ ringHead n e = (ringHead n x + 1) % ringSize n x
  let fits (k : Fin 16) (x : Dev) : Prop := ringHead (128 + k.val) x < 2 ^ 16 ∧ rget HIF_RINGn_CFG.SIZE_LOG2 0 (128 + k.val) x ≤ 16
  let rows (k : Fin 16) (x : BitVec 256) (ws : List (BitVec 32)) : List (Nat × Instr) :=
    [(0, .dmaRec k x ws), (1, .dmaRegRd k x), (2, .dmaRegWr k x ws), (3, .dmaMemWr k x ws), (4, .dmaMemRd k x)]
  -- no record of the channel waits for GO, and no region of the descriptor is being handed over
  let starts (k : Fin 16) (x : BitVec 256) (d : Dev) : Prop := find? d.hif.prog k.val = none ∧ dmaPending x.toNat d = false
  -- the channel works and the descriptor is sound, with operation op and no lock
  let may (op : Nat) (k : Fin 16) (x : BitVec 256) (s : State) (d : Dev) : Prop := Runs 99 s d ∧ dmaReady k d = true ∧ fits k d ∧
    dmaOp x.toNat = op ∧ dmaBad x.toNat = false ∧ starts k x d
  let free (x : BitVec 256) : Prop := dmaSel x.toNat = 0
  (∀ k x ws s d, Runs 99 s d → ∀ c ∈ rows k x ws,
    (dmaReady k d = false ∨ dmaPending x.toNat d = true ∨ (dmaOp x.toNat ≠ c.1 ∧ dmaOp x.toNat ≤ 4) → Leaves c.2 s d) ∧
    (dmaReady k d = true → fits k d → starts k x d → (dmaOp x.toNat = c.1 ∨ 4 < dmaOp x.toNat) → dmaBad x.toNat = true → Does c.2 s fun e => ends k d Err.BAD_ARG 0 0 2 e ∧
      e.tab = d.tab ∧ ctr Pg.HIF 0x1030 e = (ctr Pg.HIF 0x1030 d + 1) % 2 ^ 64)) ∧
  (∀ k x ws s d, ∀ c ∈ rows k x ws, may c.1 k x s d → (dmaNeed x.toNat (dmaCount x.toNat)).2 ≤ ws.length →
    ∀ r i, dmaLockOf (dmaSel x.toNat) = some (r, i) → bit x.toNat 23 = true → lockHolder r i d ≠ 0 → lockHolder r i d ≠ 0xF100 + k.val →
      Does c.2 s fun e => ends k d Err.OWNER_BUSY 0 0 (typeCode r.lay.page) e ∧ lockHolder r i e = lockHolder r i d) ∧
  (∀ k x s d v d', may 1 k x s d → free x → dmaCount x.toNat = 1 → doRead (.dma k) (dmaDev x.toNat) d = (v, d') → fits k d' →
    Does (.dmaRegRd k x) s fun e => ends k d' 0 1 0 2 e ∧ Out.hostWrite (dmaAddr x.toNat) (leBytes 4 v) ∈ e.out) ∧
  (∀ k x (w : BitVec 32) s d c d', may 2 k x s d → free x → dmaCount x.toNat = 1 → writeCode (.dma k) (dmaDev x.toNat) w.toNat d = (c, d') → fits k d' →
    Does (.dmaRegWr k x [w]) s fun e => if c = 0 then ends k d' 0 1 0 2 e else ends k d' c 0 0 (typeCode (dmaDev x.toNat / 65536)) e) ∧
  (∀ k x (w : BitVec 32) s d c d', may 0 k x s d → free x → dmaCount x.toNat = 1 → dmaRwords x.toNat = 1 → dmaResAddr x.toNat = 0 →
    writeCode (.dma k) (dmaDev x.toNat) w.toNat d = (c, d') → fits k d' →
    (recBusy x.toNat d' = false → Does (.dmaRec k x [w]) s fun e => if c = 0 then ends k d' 0 1 0 2 e
      else ends k d' c 0 1 (typeCode (dmaDev x.toNat / 65536)) e ∧ ctr Pg.HIF 0x1038 e = (ctr Pg.HIF 0x1038 d' + 1) % 2 ^ 64) ∧
    (recBusy x.toNat d' = true → Does (.dmaRec k x [w]) s fun e => (∃ p, find? e.hif.prog k.val = some p ∧ p.desc = x.toNat ∧ p.i = 0 ∧ p.code = c) ∧
      ringHead (128 + k.val) e = ringHead (128 + k.val) d')) ∧
  (∀ k x (w0 w1 : BitVec 32) s d, let t := dmaIdx x.toNat
    let a := dmaDev x.toNat / 8
    may 3 k x s d → free x → dmaMem x.toNat = 1 → dmaCount x.toNat = 8 →
    (hostMay t d = false → Does (.dmaMemWr k x [w0, w1]) s fun e => ends k d Err.NOT_OWNER 0 0 (typeCode Pg.MEM) e ∧ (cluster t e).scratch = (cluster t d).scratch) ∧
    (hostMay t d = true → retainedAt t d = 0 → Does (.dmaMemWr k x [w0, w1]) s fun e => ends k d 0 8 0 2 e ∧
      look (cluster t e).scratch a 0 = w0.toNat + 2 ^ 32 * w1.toNat ∧ ∀ b, b ≠ a → look (cluster t e).scratch b 0 = look (cluster t d).scratch b 0)) ∧
  (∀ k x s d, let t := dmaIdx x.toNat
    may 4 k x s d → free x → dmaMem x.toNat = 1 → dmaCount x.toNat = 8 → hostMay t d = true → retainedAt t d = 0 → (cluster t d).badScratch = [] →
    Does (.dmaMemRd k x) s fun e => ends k d 0 8 0 2 e ∧
      Out.hostWrite (dmaAddr x.toNat) (leBytes 8 (look (cluster t d).scratch (dmaDev x.toNat / 8) 0)) ∈ e.out) ∧
  (∀ k x (u : BitVec 32) ws s d, Runs 99 s d → let c : Instr := .dmaWatchdog k x u ws
    let late := look d.hif.chAt k.val 0 + rget HIF_RINGn_CFG.WDOG_MS 0 (128 + k.val) d * 1000000 ≤ d.hif.dmaNs
    (dmaReady k d = false ∨ ¬late ∨ dmaBad x.toNat = true ∨ dmaCount x.toNat ≤ u.toNat → Leaves c s d) ∧
    (dmaReady k d = true → late → dmaBad x.toNat = false → u.toNat < dmaCount x.toNat → (dmaNeed x.toNat u.toNat).2 ≤ ws.length → Does c s fun e =>
      ringState (128 + k.val) e = 3 ∧ rget HIF_RINGn_STAT.CODE 0 (128 + k.val) e = 0x22 ∧ bit (face Pg.HIF e).pend 1 = true))

/-- R415 to R417, R419, R453, R459, R520. -/
def Obligations.PcieEvents : Prop :=
  let cleared (d e : Dev) : Prop := rget HIF_LINK.BME 0 0 e = 0 ∧ rget HIF_LINK.DSTATE 0 0 e = 0 ∧ e.evt.msixEn = false ∧ e.evt.fmask = false ∧
    e.evt.vmask = 2 ^ 512 - 1 ∧ e.evt.pba = 0 ∧ e.aon.pmeEn = false ∧ e.sys.ctlRun.isSome = true ∧
    (d.sys.ctlRun = none → e.sys.ctlRun = some 3 ∧ rget GLB_RST_CAUSE.CTL_SRC 0 0 e = 3 ∧ rget GLB_RST_CAUSE.CTL_SEEN 0 0 e = 1)
  (∀ s, alive s.dev = false → Leaves .pcieFlr s s.dev ∧ Leaves .pcieHotReset s s.dev ∧ Leaves .pcieLinkDown s s.dev) ∧
  (∀ s, alive s.dev = true → Does .pcieFlr s (cleared s.dev) ∧ Does .pcieHotReset s (cleared s.dev)) ∧
  (∀ s, alive s.dev = true → (rget HIF_LINK.SPEED 0 0 s.dev = 0 → Leaves .pcieLinkDown s s.dev) ∧
    (rget HIF_LINK.SPEED 0 0 s.dev ≠ 0 → Does .pcieLinkDown s fun e => cleared s.dev e ∧ rget HIF_LINK.SPEED 0 0 e = 0 ∧ rget HIF_LINK.WIDTH 0 0 e = 0)) ∧
  (∀ (v : Fin 4) (w : Fin 9) s d, Runs 99 s d → let can := 3 ≤ phase d ∧ d.sys.jtagStop = false ∧ bit d.sys.refs 8 = true ∧ rget HIF_LINK.SPEED 0 0 d = 0
    (¬can → Leaves (.pcieLinkUp v w) s d) ∧
    (can → v.val ≠ 0 → w.val = 1 ∨ w.val = 2 ∨ w.val = 4 ∨ w.val = 8 → Does (.pcieLinkUp v w) s fun e => rget HIF_LINK.SPEED 0 0 e = v.val ∧
      rget HIF_LINK.WIDTH 0 0 e = w.val ∧ rget HIF_LINK.LP 0 0 e = 0 ∧ bit (face Pg.HIF e).pend 3 = true)) ∧
  (∀ (d3 pme on : Bool) s d, Runs 99 s d → let new := if d3 then 3 else 0
    (rget HIF_LINK.DSTATE 0 0 d = new → Leaves (.dstateChange d3 pme) s { d with aon := { d.aon with pmeEn := pme } }) ∧
    (rget HIF_LINK.DSTATE 0 0 d ≠ new → Does (.dstateChange d3 pme) s fun e => rget HIF_LINK.DSTATE 0 0 e = new ∧ e.aon.pmeEn = pme ∧
      bit (face Pg.HIF e).pend 4 = true) ∧
    Leaves (.bmeChange on none) s (rset HIF_LINK.BME 0 0 (b2n on) d) ∧
    (∀ v : Fin 32, Leaves (.bmeChange on (some v)) s (rset HIF_LINK.BME 0 0 (b2n on) { d with hif := { d.hif with cto := v.val } })) ∧
    Leaves (.msixMaskWrite .function on) s { d with evt := { d.evt with fmask := on } } ∧
    Leaves (.msixMaskWrite .enable on) s { d with evt := { d.evt with msixEn := on } }) ∧
  (∀ (v : Fin 512) (on : Bool) s d, Taken .pcie s → d = reached Pg.HIF s → (face Pg.HIF d).ready = true →
    Writes .pcie (.msixMaskWrite (.vector v) on) s { d with evt := { d.evt with vmask := if on then setBit d.evt.vmask v.val else clrBit d.evt.vmask v.val } })

/-- R436 to R439, R445. -/
def Obligations.I3cTransfers : Prop :=
  let takes (d : Dev) : Prop := alive d = true ∧ hasDa d = true ∧ d.sys.ctlRun = none
  let said (o : Out) (d : Dev) : Dev := { d with out := o :: d.out }
  let mg (k : Nat) (e : Dev) : Nat := ctr Pg.MGT (0x1000 + 8 * k) e
  (∀ (bs : Bytes) (a : BitVec 32) (n : BitVec 8) s d, Runs 99 s d → ¬takes d →
    Leaves (.i3cWrite bs) s (said .i3cNack d) ∧ Leaves (.i3cSetAddr a) s (said .i3cNack d) ∧ Leaves (.i3cRead n) s (said .i3cNack d)) ∧
  (∀ (bs : Bytes) s d, Runs 99 s d → takes d → bs.length < 5 ∨ (byteAt bs 0 ≠ 1 ∧ byteAt bs 0 ≠ 2) → Does (.i3cWrite bs) s fun e =>
    mg 0 e = (mg 0 d + 1) % 2 ^ 64 ∧ e.flds = d.flds ∧ e.i3c.readAddr = d.i3c.readAddr) ∧
  (∀ (a w : BitVec 32) s d, Runs 99 s d → takes d → 9 ≤ d.i3c.mwl →
    let c : Instr := .i3cWrite (BitVec.ofNat 8 1 :: leBytes 4 a.toNat ++ leBytes 4 w.toNat)
    (i3cWrites a.toNat = true → Leaves c s (doWrite .i3c a.toNat w.toNat (inc Pg.MGT 0 d))) ∧
    (i3cWrites a.toNat = false → Does c s fun e => (face Pg.MGT e).errCode = 0x20 ∧ bit (face Pg.MGT e).pend 2 = true ∧
      mg 2 e = (mg 2 d + 1) % 2 ^ 64 ∧ e.flds = d.flds)) ∧
  (∀ (a : BitVec 32) (x : Byte) s d, Runs 99 s d → takes d → 9 ≤ d.i3c.mwl → Does (.i3cWrite (BitVec.ofNat 8 1 :: leBytes 4 a.toNat ++ [x])) s fun e =>
    e.flds = d.flds ∧ bit (face Pg.MGT e).pend 2 = true) ∧
  (∀ (a : BitVec 32) s d, Runs 99 s d → takes d → 5 ≤ d.i3c.mwl →
    (Does (.i3cSetAddr a) s fun e => e.i3c.readAddr = a.toNat ∧ mg 0 e = (mg 0 d + 1) % 2 ^ 64 ∧ e.flds = d.flds) ∧
    (Does (.i3cWrite (BitVec.ofNat 8 2 :: leBytes 4 a.toNat)) s fun e => e.i3c.readAddr = a.toNat)) ∧
  (∀ s d v d', Runs 99 s d → takes d → 5 ≤ d.i3c.mrl → let a := d.i3c.readAddr
    (i3cReads (a / 65536) = true → doRead .i3c a (inc Pg.MGT 1 d) = (v, d') → Does (.i3cRead 5) s fun e => e.i3c.readAddr = (a + 4) % 2 ^ 32 ∧
      Out.i3cReply (0 :: (leBytes 4 v).map (·.toNat)) ∈ e.out) ∧
    (i3cReads (a / 65536) = false → Does (.i3cRead 5) s fun e => e.i3c.readAddr = (a + 4) % 2 ^ 32 ∧ (face Pg.MGT e).errCode = 0x20 ∧
      bit (face Pg.MGT e).pend 2 = true ∧ Out.i3cReply [1, 0, 0, 0, 0] ∈ e.out)) ∧
  (∀ s d, Runs 99 s d → let on := hasDa d = true ∧ flag MGT_STAT.ENINT 0 0 d = true
    let due := d.i3c.ibiAt + 100000 ≤ d.mono
    (d.i3c.ibi = [] ∨ ¬on ∨ ¬due → Leaves .ibiRetry s d) ∧
    (∀ b l, d.i3c.ibi = b :: l → on → due → Does .ibiRetry s fun e => Out.ibi b ∈ e.out ∧ mg 4 e = (mg 4 d + 1) % 2 ^ 64 ∧ e.flds = d.flds))

/-- R436, R437, R439, R440, R520. -/
def Obligations.I3cCommandCodes : Prop :=
  let tells (bs : List Nat) (d : Dev) : Dev := { d with out := .i3cReply bs :: d.out }
  let da (v : Bool) (a : Nat) (e : Dev) : Prop := hasDa e = v ∧ rget MGT_STAT.DA 0 0 e = a ∧ bit (face Pg.MGT e).pend 0 = true
  let fresh (e : Dev) : Prop := hasDa e = false ∧ flag MGT_STAT.ENINT 0 0 e = false ∧ e.i3c.mwl = 69 ∧ e.i3c.mrl = 65 ∧ e.i3c.readAddr = 0
  (∀ (ev : BitVec 8) s d, Runs 99 s d → let on (b : Nat) : Dev := if bit ev.toNat 0 then rset MGT_STAT.ENINT 0 0 b d else d
    Leaves (.cccEnec ev) s (on 1) ∧ Leaves (.cccDisec ev) s (on 0)) ∧
  (∀ (a : BitVec 7) s d, Runs 99 s d → let old := rget MGT_STAT.DA 0 0 d
    (hasDa d = false → old = 0 → Leaves .cccRstdaa s d) ∧ (hasDa d = true → Does .cccRstdaa s (da false 0)) ∧
    (hasDa d = true → Leaves (.cccEntdaa a) s d ∧ Leaves (.cccSetdasa a) s d) ∧
    (hasDa d = false → Does (.cccEntdaa a) s (da true a.toNat) ∧ Does (.cccSetdasa a) s (da true a.toNat)) ∧
    (hasDa d = false ∨ old = a.toNat → Leaves (.cccSetnewda a) s d) ∧ (hasDa d = true → old ≠ a.toNat → Does (.cccSetnewda a) s (da true a.toNat))) ∧
  (∀ (n : BitVec 16) s d, Runs 99 s d → let k := n.toNat
    Leaves (.cccSetmwl n) s (if 5 ≤ k ∧ k ≤ 69 then { d with i3c := { d.i3c with mwl := k } } else d) ∧
    Leaves (.cccSetmrl n) s (if 5 ≤ k ∧ k ≤ 65 then { d with i3c := { d.i3c with mrl := k } } else d)) ∧
  (∀ s d, Runs 99 s d → let pid := 0x1C3 * 2 ^ 33 + 0x2800 * 2 ^ 16 + devId d * 2 ^ 6 + rget GLB_STRAP.I3C_ADDR 0 0 d * 2 ^ 3
    Leaves .cccGetmwl s (tells [d.i3c.mwl / 256, d.i3c.mwl % 256] d) ∧ Leaves .cccGetpid s (tells ((beBytes 6 pid).map (·.toNat)) d) ∧
    Leaves .cccGetbcr s (tells [0x06] d) ∧ Leaves .cccGetdcr s (tells [0x00] d) ∧
    Leaves .cccGetRstact s (tells [rget MGT_STAT.RSTACT 0 0 d, 1, 1] d) ∧
    (Does .cccGetmrl s fun e => e.flds = d.flds ∧ ∃ v, Out.i3cReply [d.i3c.mrl / 256, d.i3c.mrl % 256, v] ∈ e.out) ∧
    (Does .cccGetstatus s fun e => e.flds = d.flds ∧ ∃ v w, Out.i3cReply [v, w] ∈ e.out)) ∧
  (∀ (b : BitVec 8) s d, Runs 99 s d →
    (b.toNat ≤ 2 → Leaves (.cccRstact b) s (rset MGT_STAT.RSTACT 0 0 b.toNat d)) ∧
    (2 < b.toNat → Leaves (.cccRstact b) s { d with out := .i3cNack :: d.out })) ∧
  (∀ s d, Runs 99 s d → let a := rget MGT_STAT.RSTACT 0 0 d
    let rst := flag MGT_CFG.RST_EN 0 0 d
    (a ≠ 1 → a ≠ 2 → Leaves .rstactPattern s d) ∧ (a = 1 ∨ (a = 2 ∧ rst = false) → Does .rstactPattern s fresh) ∧
    (a = 2 → rst = true → alive d = true → d.sys.ctlRun = none → Does .rstactPattern s fun e => e.sys.ctlRun = some 2 ∧
      rget GLB_RST_CAUSE.CTL_SRC 0 0 e = 2)) ∧
  (∀ req s d img, Commits req .MGT_RST_REQ 0 0 0xC7 s d img →
    (flag MGT_CFG.RST_EN 0 0 d = false → Writes req (.mgtRstReq req) s (errAt Err.BAD_ARG .MGT_RST_REQ 0 0 d)) ∧
    (flag MGT_CFG.RST_EN 0 0 d = true → d.sys.ctlRun = none → Does (.mgtRstReq req) s fun e =>
      e.sys.ctlRun = some (if req = .i3c then 2 else 1) ∧ rget GLB_RST_CAUSE.CTL_SEEN 0 0 e = 1))

/-- R449 to R454, R456, R458 to R460. -/
def Obligations.EventDelivery : Prop :=
  let now (d : Dev) : Nat := raisedGroups d
  let evt (k : Nat) (e : Dev) : Nat := ctr Pg.EVT (0x1000 + 8 * k) e
  let aon (k : Nat) (e : Dev) : Nat := ctr Pg.AON (0x1000 + 8 * k) e
  let asks (g : Nat) (d : Dev) : Prop := bit (now d) g = true ∧ flag EVT_GRPg_CFG.MSIX 0 g d = true
  (∀ s d, Runs 99 s d → d.evt.decided = some d.hwd.aonNs → Leaves .msixDeliver s d) ∧
  (∀ s d, Runs 99 s d → d.evt.decided ≠ some d.hwd.aonNs →
    (bitsOf 512 (requested d) = [] → Leaves .msixDeliver s { d with evt := { d.evt with decided := some d.hwd.aonNs } }) ∧
    (∀ v, bitsOf 512 (requested d) = [v] →
      (sendable v d = true → flag HIF_LINK.LP 0 0 d = false → rget HIF_LINK.SPEED 0 0 d ≠ 0 → Does .msixDeliver s fun e =>
        let word (i : Nat) : Nat := look d.evt.msixTbl (4 * v + i) 0
        Out.msix v (word 1 * 2 ^ 32 + word 0) (word 2) ∈ e.out ∧ e.evt.lastVec = v ∧ bit e.evt.cqWait v = false ∧ bit e.evt.pba v = false ∧
          bit e.evt.held v = false ∧ evt 0 e = (evt 0 d + 1) % 2 ^ 64 ∧
          ∀ g < 64, bit d.evt.req g = true → grpVector g d = v → bit e.evt.req g = false ∧ bit e.evt.active g = true ∧
            (rget EVT_GRPg_CFG.GAP_US 0 g d ≠ 0 → bit e.evt.gap g = true)) ∧
      (sendable v d = false → (∀ g < 64, bit d.evt.req g = true → bit (now d) g = true) → Does .msixDeliver s fun e => e.evt.lastVec = d.evt.lastVec ∧
        e.evt.active = d.evt.active ∧ (heldByMask v d = true → bit e.evt.pba v = true ∧ bit e.evt.held v = false) ∧
        (heldByMask v d = false → bit e.evt.held v = true ∧ bit e.evt.pba v = false)))) ∧
  (∀ (g : Fin 64) s d, Runs 99 s d → d.mono < look d.evt.gapAt g.val 0 + rget EVT_GRPg_CFG.GAP_US 0 g.val d * 1000 → Leaves (.gapExpire g) s d) ∧
  (∀ (g : Fin 64) s d, Runs 99 s d → look d.evt.gapAt g.val 0 + rget EVT_GRPg_CFG.GAP_US 0 g.val d * 1000 ≤ d.mono → Does (.gapExpire g) s fun e => e.evt.gap = clrBit d.evt.gap g.val ∧ e.evt.active = d.evt.active ∧
    (asks g.val d → bit d.evt.active g.val = false → bit e.evt.req g.val = true)) ∧
  (∀ req w s d img, Commits req .EVT_EOI 0 0 w.toNat s d img → let g := EVT_EOI.GROUP.of img
    (bit d.evt.active g = false → Does (.eoi req w) s fun e => e.evt.active = d.evt.active ∧ evt 6 e = (evt 6 d + 1) % 2 ^ 64) ∧
    (bit d.evt.active g = true → g < 64 → Does (.eoi req w) s fun e => e.evt.active = clrBit d.evt.active g ∧ evt 6 e = (evt 6 d + 1) % 2 ^ 64 ∧
      (bit (now d) g = true → evt 3 e = (evt 3 d + 1) % 2 ^ 64) ∧ (asks g d → bit d.evt.gap g = false → bit e.evt.req g = true))) ∧
  (∀ req w s d img, Commits req .EVT_QUERY 0 0 w.toNat s d img → Does (.queryWrite req w) s fun e =>
    look e.evt.cursors (reqIndex req) (0, 0) = (EVT_QUERY.GROUP.of img, 0)) ∧
  (∀ req s, Taken req s → let d := reached Pg.EVT s
    let g := (look d.evt.cursors (reqIndex req) (0, 0)).1
    let c := (look d.evt.cursors (reqIndex req) (0, 0)).2
    let next := allPages.find? fun p => decide (c ≤ p) && (face p d).vgroup == g && pageRaised p d
    let reply (v : Nat) : Out := .readReply req (Reg.addr .EVT_QUERY 0 0) v
    (next = none → Leaves (.queryRead req) s { d with out := reply g :: d.out }) ∧
    (∀ p, next = some p → Does (.queryRead req) s fun e => look e.evt.cursors (reqIndex req) (0, 0) = (g, p + 1) ∧
      reply (2 ^ 31 + p % 2 ^ 12 * 2 ^ 16 + g) ∈ e.out)) ∧
  (∀ (g : Fin 64) s d, Runs 99 s d → let due := bit (now d) g.val = true ∧ flag EVT_GRPg_CFG.I3C 0 g.val d = true ∧ look d.evt.i3cAt g.val 0 + 1000000 ≤ d.mono
    (¬due → Leaves (.i3cGroupRepeat g) s d) ∧
    (due → hasDa d = true → flag MGT_STAT.ENINT 0 0 d = true → Does (.i3cGroupRepeat g) s fun e => Out.ibi [0, g.val] ∈ e.out ∧ e.flds = d.flds)) ∧
  (∀ (k : Fin 64) s d, Runs 100 s d → let v := rget AON_WATCHk.VECTOR 0 k.val d
    let pin := flag AON_CFG.WAKE_PIN 0 0 d
    let d0 := rget HIF_LINK.DSTATE 0 0 d = 0
    let may := flag HIF_LINK.BME 0 0 d = true ∧ d.evt.msixEn = true
    (find? d.aon.deadline k.val = none → Leaves (.aonDeadline k) s d) ∧
    (∀ t, find? d.aon.deadline k.val = some t → (aonRound d.hwd.aonNs < t → Leaves (.aonDeadline k) s d) ∧
      (t ≤ aonRound d.hwd.aonNs →
        (d0 → ¬may → (∀ g < 64, asks g d → bit d.evt.active g = true ∨ bit d.evt.gap g = true ∨ bit d.evt.req g = true) → Does (.aonDeadline k) s fun e =>
          find? e.aon.deadline k.val = none ∧ e.aon.wakeN = d.aon.wakeN ∧ e.aon.pmeStatus = d.aon.pmeStatus) ∧
        (d0 → may → flag HIF_LINK.LP 0 0 d = true → Does (.aonDeadline k) s fun e => e.aon.wakeN = (d.aon.wakeN || pin) ∧ e.aon.wakeVec = some v ∧
          rget AON_STAT.LAST_VALID 0 0 e = 1 ∧ rget AON_STAT.LAST_ENTRY 0 0 e = k.val ∧ aon 0 e = (aon 0 d + 1) % 2 ^ 64) ∧
        (d0 → may → rget CLK_ISLn.STATE 0 99 d = 3 → Does (.aonDeadline k) s fun e => rget CLK_ISLn.STATE 0 99 e = 2) ∧
        (¬d0 → d.aon.pmeEn = true → Does (.aonDeadline k) s fun e => e.aon.pmeStatus = true ∧ e.aon.wakeN = (d.aon.wakeN || pin) ∧
          bit (face Pg.AON e).pend 0 = true ∧ (if flag HIF_LINK.LP 0 0 d = true ∨ rget HIF_LINK.SPEED 0 0 d = 0 then e.aon.pmeWait = true
            else Out.pmPme ∈ e.out ∧ aon 1 e = (aon 1 d + 1) % 2 ^ 64)) ∧
        (¬d0 → d.aon.pmeEn = false → Does (.aonDeadline k) s fun e => bit (face Pg.AON e).pend 1 = true ∧ aon 2 e = (aon 2 d + 1) % 2 ^ 64 ∧
          e.aon.pmeStatus = d.aon.pmeStatus)))) ∧
  (∀ s d, Runs 100 s d → Leaves .pmeStatusClear s { d with aon := { d.aon with pmeStatus := false, pmeWait := false, wakeN := d.aon.wakeN && d.aon.wakeVec.isSome } })

/-- R466, R468, R469, R471, R472, R475. -/
def Obligations.CountersAndSnapshots : Prop :=
  let quiet (d : Dev) : Prop := EvtTrue d ∧ ∀ g < 64, bit d.evt.req g = true → bit (raisedGroups d) g = true
  let res (x y : Nat) (e : Dev) : Prop := rget CNT_ACC_RES.PKTS 0 0 e = x ∧ rget CNT_ACC_RES.BYTES 0 0 e = y
  (∀ req (w : BitVec 32) s d img (op : Nat), op ≤ 2 → Commits req .CNT_ACC 0 0 (go w 30 29 op) s d img → d.cnt.caps = [] → let i := CNT_ACC.INDEX.of img
    let c (p b : EccSeen) : Instr := if op = 0 then .cntRead req w p b else if op = 1 then .cntWrite req w p b else .cntReadClear req w p b
    let x := cntWord (2 * i) d
    let y := cntWord (2 * i + 1) d
    (2 * i ∉ d.cnt.bad → 2 * i + 1 ∉ d.cnt.bad → x < 2 ^ 64 → y < 2 ^ 64 → Does (c .clean .clean) s fun e => res x y e ∧
      ctr Pg.CNT 0x1008 e = (ctr Pg.CNT 0x1008 d + 1) % 2 ^ 64 ∧
      cntWord (2 * i) e = (if op = 0 then x else if op = 1 then CNT_ACC.PKTS.of img else 0) ∧
      cntWord (2 * i + 1) e = (if op = 0 then y else if op = 1 then CNT_ACC.BYTES.of img else 0) ∧
      ∀ k, k ≠ 2 * i → k ≠ 2 * i + 1 → cntWord k e = cntWord k d) ∧
    (2 * i + 1 ∉ d.cnt.bad → y < 2 ^ 64 → op ≠ 1 → Does (c .uncorrectable .clean) s fun e => res 0 y e ∧ bit (face Pg.CNT e).pend 1 = true ∧
      flag CNT_ECC_ADDR.VALID 0 0 e = true ∧ ctr Pg.CNT 0x1030 e = (ctr Pg.CNT 0x1030 d + 1) % 2 ^ 64)) ∧
  (∀ req w s d img, Commits req .CNT_SNAP_CMD 0 0 (force w [(31, 31, 1)]) s d img → let set := CNT_SNAP_CMD.SET.of img
    let on := b2n (bit set 0 && flag CNT_SNAP_CFG.EN 0 0 d) + 2 * b2n (bit set 1 && flag CNT_SNAP_CFG.PORT_EN 0 0 d)
    let busy := flag CNT_SNAP_CMD.GO 0 0 d = true
    (∀ k ∈ d.cnt.caps, k.set &&& set ≠ 0 → Does (.snapCmd req w) s fun e => (face Pg.CNT e).errCode = 0x20 ∧ e.cnt = d.cnt) ∧
    (busy → (∀ k ∈ d.cnt.caps, k.set &&& set = 0) → Writes req (.snapCmd req w) s (errAt Err.BAD_ARG .CNT_SNAP_CMD 0 0 d)) ∧
    (¬busy → d.cnt.caps = [] → on ≠ 0 → Does (.snapCmd req w) s fun e => flag CNT_SNAP_CMD.GO 0 0 e = true ∧ rget CNT_SNAP_STAT.STATE 0 0 e = 1 ∧
      e.cnt.caps = [{ set := on, t := d.spn.time + 1000 * unitNs, byCmd := true }]) ∧
    (¬busy → d.cnt.caps = [] → on = 0 → Does (.snapCmd req w) s fun e => e.cnt = d.cnt ∧
      ctr Pg.CNT 0x1018 e = (ctr Pg.CNT 0x1018 d + b2n (bit set 0) + b2n (bit set 1)) % 2 ^ 64)) ∧
  (∀ s d, Runs 102 s d → (d.cnt.caps = [] → Leaves .snapCaptureDone s d) ∧
    (∀ c l, d.cnt.caps = c :: l → (c.frozen = false → Leaves .snapCaptureDone s d) ∧
      (c.frozen = true → Does .snapCaptureDone s fun e => e.cnt.caps = l ∧ rget CNT_SNAP_STAT.STATE 0 0 e = (if l = [] then 2 else 1) ∧
        rget CNT_SNAP_STAT.SEQ 0 0 e = (rget CNT_SNAP_STAT.SEQ 0 0 d + 1) % 2 ^ 16 ∧ (c.byCmd = true → flag CNT_SNAP_CMD.GO 0 0 e = false) ∧
        rget CNT_SNAP_STAT.NS 0 0 e = nsOf c.t % 2 ^ 30 ∧ rget CNT_SNAP_STAT.SEC 0 0 e = secOf c.t % 2 ^ 48 ∧ bit (face Pg.CNT e).pend 0 = true ∧
        ctr Pg.CNT 0x1010 e = (ctr Pg.CNT 0x1010 d + 1) % 2 ^ 64 ∧
        (let f := (snapSrc d).1
         let n := (snapSrc d).2
         let to_ := snapDest d
         c.set = 1 → c.copied = [] → d.cnt.bad = [] → f + n ≤ to_ ∨ to_ + n ≤ f → ∀ i < n, cntWord (2 * (to_ + i)) e = cntWord (2 * (f + i)) d % 2 ^ 64 ∧
          cntWord (2 * (to_ + i) + 1) e = cntWord (2 * (f + i) + 1) d % 2 ^ 64)))) ∧
  (∀ req (page : Page) (w : BitVec 32) s, Taken req s → let p := pageNum page
    let d := reached p s
    let x := perfOf p d
    (face p d).ready = true → (p = Pg.EVT ∨ p = Pg.MGT → quiet s.dev) →
    (let v := force w [(1, 1, 1)]
     Does (.pcClear req page w) s fun e => perfOf p e = { run := bit v 0, ctrs := x.ctrs.map fun c =>
      { c with cap := if bit v 2 then c.count else c.cap, count := 0, ovf := false } }) ∧
    (let v := force w [(2, 2, 1)]
     Does (.pcCapture req page w) s fun e => perfOf p e = { run := bit v 0, ctrs := x.ctrs.map fun c =>
      { c with cap := c.count, count := if bit v 1 then 0 else c.count, ovf := if bit v 1 then false else c.ovf } }) ∧
    (∀ i : Fin 8, x.ctrs.length = 8 → let base := 0x80 + 8 * i.val
      Does (.pcValWrite req page i w) s fun e => ((perfOf p e).ctrs.getD i.val {}).count =
        (look (stagedWords req p base d) 0 (pcRead p base d) + w.toNat * 2 ^ 32) % 2 ^ 48))

/-- R478 to R484, R486, R487. -/
def Obligations.HeartwoodRecords : Prop :=
  let hw (k : Nat) (e : Dev) : Nat := ctr Pg.HWD (0x1000 + 8 * k) e
  let saved (d e : Dev) : Prop := let seq := (d.hwd.tot.seq + 1) % 2 ^ 32
    e.hwd.tot.seq = seq ∧ e.hwd.slot = (d.hwd.slot + 1) % 16 ∧ hw 5 e = (hw 5 d + 1) % 2 ^ 64 ∧
      mramRead ((1 + d.hwd.slot) * 512) e = 0x48575444 * 2 ^ 32 + seq
  let calm (d : Dev) : Prop := d.hwd.remap = []
  (∀ s d, Runs 100 s d → let due := d.hwd.lastSec + 1000000000 ≤ d.hwd.aonNs
    (d.sys.vddAon = false ∨ ¬due → Leaves .totalsFlush s d) ∧
    (d.sys.vddAon = true → due → Does .totalsFlush s fun e => saved d e ∧ e.hwd.tot.aonOnS = d.hwd.tot.aonOnS + 1 ∧
      e.hwd.tot.powerOnS = d.hwd.tot.powerOnS + b2n (poweredOn d) ∧ utcNow e = (if calValid d then (utcNow d + 1) % 2 ^ 64 else utcNow d) ∧
      e.hwd.hour.secs = d.hwd.hour.secs + b2n (poweredOn d) ∧
      (calValid d = false → e.hwd.hourDue = (d.hwd.hourDue || decide (d.hwd.hourAt + 3600 ≤ d.hwd.tot.aonOnS + 1))))) ∧
  (∀ req w s d img, Commits req .HWD_FLUSH 0 0 (force w [(31, 31, 1)]) s d img → Does (.hwdFlush req w) s fun e => saved d e ∧
    e.hwd.tot.aonOnS = d.hwd.tot.aonOnS) ∧
  (∀ (fe tm hbm : BitVec 8) s d, Runs 100 s d → (d.hwd.aonNs < d.hwd.tempAt + 1000000000 → Leaves (.ledgerTempSample fe tm hbm) s d) ∧
    (d.hwd.tempAt + 1000000000 ≤ d.hwd.aonNs → Does (.ledgerTempSample fe tm hbm) s fun e =>
    let one (h' h : Tbl Nat) (die : Nat) (t : BitVec 8) : Prop := look h' (16 * die + tempBin t.toInt) 0 = look h (16 * die + tempBin t.toInt) 0 + 1
    one e.hwd.tot.hist d.hwd.tot.hist 0 fe ∧ one e.hwd.tot.hist d.hwd.tot.hist 1 tm ∧ one e.hwd.tot.hist d.hwd.tot.hist 2 hbm ∧
      one e.hwd.hour.hist d.hwd.hour.hist 0 fe ∧ one e.hwd.day.hist d.hwd.day.hist 2 hbm ∧
      (∀ a b c, d.hwd.day.tmax = [a, b, c] → e.hwd.day.tmax = [max a fe.toInt, max b tm.toInt, max c hbm.toInt]))) ∧
  (∀ s d, Runs 100 s d → calm d → let h := rget HWD_PTR.HOURLY_NEXT 0 0 d
    let n := rget HWD_PTR.DAILY_NEXT 0 0 d
    (d.hwd.hourDue = false → Leaves .hourlyClose s d) ∧ (d.hwd.dayDue = false → Leaves .dailyClose s d) ∧
    (d.hwd.hourDue = true → Does .hourlyClose s fun e => rget HWD_PTR.HOURLY_NEXT 0 0 e = (h + 1) % 720 ∧ e.hwd.hour = { seq := (d.hwd.hour.seq + 1) % 2 ^ 32 } ∧
      e.hwd.hourDue = false ∧ e.hwd.hourAt = d.hwd.tot.aonOnS ∧
      mramRead (17 * 512 + 16 * h) e = d.hwd.hour.seq % 2 ^ 32 * 2 ^ 32 + b2n (calValid d)) ∧
    (d.hwd.dayDue = true → Does .dailyClose s fun e => rget HWD_PTR.DAILY_NEXT 0 0 e = (n + 1) % 7305 ∧ e.hwd.day = { seq := (d.hwd.day.seq + 1) % 2 ^ 32 } ∧
      mramRead (40 * 512 + 24 * n) e = d.hwd.day.seq % 2 ^ 32 * 2 ^ 32 + b2n (calValid d))) ∧
  (∀ req w s d img, Commits req .HWD_UTC 0 0 w.toNat s d img → Does (.utcSet req w) s fun e => utcNow e = HWD_UTC.SECONDS.of img ∧ calValid e = true ∧
    (d.hwd.logSec ≠ d.hwd.aonNs / 1000000000 ∨ d.hwd.logInSec < 1000 → e.hwd.tot.logTotal = (d.hwd.tot.logTotal + 1) % 2 ^ 32)) ∧
  (∀ (i : Fin 128) (t : BitVec 32) s d, Runs 98 s d → (fwRun d = 0 ∨ t = 0 → Leaves (.ageMeasure i t) s d) ∧
    (fwRun d ≠ 0 → t ≠ 0 → find? d.hwd.baseline i.val = none →
      Leaves (.ageMeasure i t) s { d with hwd := { d.hwd with baseline := ins d.hwd.baseline i.val t.toNat } }) ∧
    (∀ b, fwRun d ≠ 0 → t ≠ 0 → find? d.hwd.baseline i.val = some b → let ppm : Int := (((t.toNat : Int) - b) * 1000000) / b
      let p := max (-32768) (min ppm 32767)
      Does (.ageMeasure i t) s fun e => look e.hwd.tot.drift i.val 0 = toBits 16 p ∧
        (rget HWD_AGE_ALARM.PPM 0 0 d ≠ 0 → (rget HWD_AGE_ALARM.PPM 0 0 d : Int) < p → bit (face Pg.HWD e).pend 1 = true))) ∧
  (∀ (b : Fin 1024) (c : BitVec 16) (bad : Option (Fin 512)) s d, Runs 98 s d → let n := look d.hwd.corrected b.val 0 + c.toNat
    let sp := d.hwd.nextSpare
    (fwRun d = 0 → Leaves (.mramScan b c bad) s d) ∧
    (fwRun d ≠ 0 → bad = none → n < 16 → Does (.mramScan b c bad) s fun e => look e.hwd.corrected b.val 0 = n ∧ e.hwd.remap = d.hwd.remap ∧
      hw 1 e = (hw 1 d + c.toNat) % 2 ^ 64) ∧
    (fwRun d ≠ 0 → bad ≠ none ∨ 16 ≤ n → sp ≤ 1023 → Does (.mramScan b c bad) s fun e => find? e.hwd.remap b.val = some sp ∧ e.hwd.nextSpare = sp + 1 ∧
      look e.hwd.corrected b.val 0 = 0 ∧ bit (face Pg.HWD e).pend 2 = true) ∧
    (fwRun d ≠ 0 → bad ≠ none ∨ 16 ≤ n → 1023 < sp → Does (.mramScan b c bad) s fun e => e.hwd.remap = d.hwd.remap ∧ bit (face Pg.HWD e).pend 0 = true)) ∧
  (∀ req s, Taken req s → let d := reached Pg.HWD s
    let b := rget HWD_WIN_ADDR.BYTE 0 0 d
    Does (.hwdWinRead req) s fun e => rget HWD_WIN_ADDR.BYTE 0 0 e = (b + 8) % 2 ^ 22 ∧
      Out.readReply req (Reg.addr .HWD_WIN_DATA 0 0) (winWord (b / 8) d % 2 ^ 32) ∈ e.out ∧
      (512 ≤ b / 8 ∨ (32 ≤ b / 8 ∧ b / 8 < 40) → Out.readReply req (Reg.addr .HWD_WIN_DATA 0 0) (mramRead (b / 8) d % 2 ^ 32) ∈ e.out)) ∧
  (∀ req w s d img, Commits req .HWD_WIN_DATA 0 0 w.toNat s d img → let b := rget HWD_WIN_ADDR.BYTE 0 0 d
    (b < 0x100 ∨ 0x140 ≤ b → Writes req (.hwdWinWrite req w) s (errAt 0x20 .HWD_WIN_DATA 0 0 d)) ∧
    (0x100 ≤ b → b < 0x140 → Does (.hwdWinWrite req w) s fun e => mramRead (b / 8) e = HWD_WIN_DATA.DATA.of img ∧
      rget HWD_WIN_ADDR.BYTE 0 0 e = (b + 8) % 2 ^ 22))

/-- R491 to R494, R500, R501, R503 to R505, R507, R508, R511. -/
def Obligations.RegionsAndVault : Prop :=
  let mem (k : Nat) (e : Dev) : Nat := ctr Pg.MEM (0x1000 + 8 * k) e
  let vlt (k : Nat) (e : Dev) : Nat := ctr Pg.VLT (0x1000 + 8 * k) e
  let ends (c type handle : Nat) (e : Dev) : Prop := rget VLT_RES.STATUS 0 0 e = c ∧ rget VLT_RES.TYPE 0 0 e = type ∧ rget VLT_RES.HANDLE 0 0 e = handle ∧
    flag VLT_CMD.GO 0 0 e = false ∧ bit (face Pg.VLT e).pend 0 = true ∧ (c ≠ 0 → (face Pg.VLT e).errCode = c)
  let wiped (d e : Dev) : Prop := e.vlt.slots = [(0, d.vlt.digest)] ∧ e.vlt.importing = none ∧ bit (face Pg.VLT e).pend 1 = true ∧
    (∀ i x, sess i e = some x → x.key = none) ∧ ∀ n k x, (find? (port n e).rx k = some x ∨ find? (port n e).tx k = some x) → x.valid = false ∧ x.key = []
  (∀ req (r : Fin 88) w s d img, Commits req .MEM_GRANTr 0 r.val w.toNat s d img → let o := MEM_GRANTr.OWNER.of img
    let cur := regionOwner r.val d
    let bad := 3 < o ∨ (o = 1 ∧ 64 ≤ r.val) ∨ (o = 2 ∧ r.val < 64)
    let fw := 64 ≤ r.val ∧ fwRun d ≠ 0 ∧ req ≠ .service
    let test := flag MEM_GRANTr.TESTING 0 r.val d = true
    let other := MEM_GRANTr.EXPECT.of img ≠ cur
    let runs := r.val < 64 ∧ cur = 1 ∧ o ≠ 1 ∧ (blkEn (Pg.ENG + r.val) d = true ∨ busyOf (Pg.ENG + r.val) d = true)
    let refused (c : Nat) : Prop := Does (.grantWrite req r w) s fun e => (face Pg.MEM e).errCode = c ∧ regionOwner r.val e = cur ∧
      mem 1 e = (mem 1 d + 1) % 2 ^ 64
    (bad → refused Err.BAD_ARG) ∧ (¬bad → fw → refused Err.NOT_OWNER) ∧ (¬bad → ¬fw → test → refused 0x21) ∧
    (¬bad → ¬fw → ¬test → other → refused Err.OWNER_BUSY) ∧ (¬bad → ¬fw → ¬test → ¬other → runs → refused 0x20) ∧
    (¬bad → ¬fw → ¬test → ¬other → ¬runs → Does (.grantWrite req r w) s fun e => regionOwner r.val e = o ∧
      rget MEM_GRANTr.CORE 0 r.val e = MEM_GRANTr.CORE.of img ∧ flag MEM_GRANTr.PENDING 0 r.val e = (cur != 0 && cur != o) ∧ mem 0 e = (mem 0 d + 1) % 2 ^ 64)) ∧
  (∀ (r : Fin 88) s d, Runs 99 s d → Leaves (.grantHandoverDone r) s (rset MEM_GRANTr.PENDING 0 r.val 0 d)) ∧
  (∀ req w s d img, Commits req .MEM_TEST_CTRL 0 0 (force w [(31, 31, 1)]) s d img → let f := MEM_TEST_CTRL.FIRST.of img
    let n := MEM_TEST_CTRL.COUNT_M1.of img + 1
    let busy := rget MEM_TEST_STAT.STATE 0 0 d = 1
    let bad := 88 < f + n ∨ (f < 64 ∧ 64 < f + n)
    (busy → Writes req (.memTestStart req w) s (errAt 0x21 .MEM_TEST_CTRL 0 0 d)) ∧
    (¬busy → bad → Does (.memTestStart req w) s fun e => (face Pg.MEM e).errCode = Err.BAD_ARG ∧ e.banks = d.banks) ∧
    (¬busy → ¬bad → Does (.memTestStart req w) s fun e => rget MEM_TEST_STAT.STATE 0 0 e = 1 ∧ flag MEM_TEST_CTRL.GO 0 0 e = true ∧
      e.banks.testFirst = f ∧ e.banks.testCount = n ∧ ∀ i < n, flag MEM_GRANTr.TESTING 0 (f + i) e = true)) ∧
  (∀ (fails : BitVec 32) first s d, Runs 99 s d → (rget MEM_TEST_STAT.STATE 0 0 d ≠ 1 → Leaves (.memTestDone fails first) s d) ∧
    (rget MEM_TEST_STAT.STATE 0 0 d = 1 → Does (.memTestDone fails first) s fun e => rget MEM_TEST_STAT.STATE 0 0 e = (if fails = 0 then 2 else 3) ∧
      rget MEM_TEST_ERR.FAILS 0 0 e = fails.toNat ∧ flag MEM_TEST_CTRL.GO 0 0 e = false ∧ bit (face Pg.MEM e).pend 0 = true ∧
      (fails ≠ 0 → bit (face Pg.MEM e).pend 1 = true ∧ ∀ x, first = some x → rget MEM_TEST_ERR.REGION 0 0 e = x.1.val ∧
        rget MEM_TEST_ERR.WORD 0 0 e = x.2.toNat) ∧
      ∀ i < d.banks.testCount, flag MEM_GRANTr.TESTING 0 (d.banks.testFirst + i) e = false)) ∧
  (∀ req w s d img (op : Nat), op ≤ 2 → Commits req .VLT_CMD 0 0 (go w 30 29 op) s d img → let h := VLT_CMD.HANDLE.of img
    let c : Instr := if op = 0 then .vaultImport req w else if op = 1 then .vaultRemove req w else .vaultQuery req w
    let bar := importBar (VLT_CMD.FORMAT.on img) d
    (flag VLT_CMD.GO 0 0 d = true → Writes req c s (errAt Err.BAD_ARG .VLT_CMD 0 0 d)) ∧
    (flag VLT_CMD.GO 0 0 d = false →
      (op = 0 → bar ≠ 0 → Does c s fun e => ends bar 0 0 e ∧ e.vlt.slots = d.vlt.slots ∧ vlt 1 e = (vlt 1 d + 1) % 2 ^ 64) ∧
      (op = 0 → bar = 0 → Does c s fun e => flag VLT_CMD.GO 0 0 e = true ∧ e.vlt = { d.vlt with importing := some (VLT_CMD.FORMAT.on img) }) ∧
      (op = 1 → h = 0 ∨ has d.vlt.slots h = false → Does c s fun e => ends Err.BAD_ARG 0 0 e ∧ e.vlt = d.vlt) ∧
      (op = 1 → h ≠ 0 → has d.vlt.slots h = true → Does c s fun e => ends 0 0 0 e ∧ find? e.vlt.slots h = none ∧ vlt 2 e = (vlt 2 d + 1) % 2 ^ 64 ∧
        ∀ k, k ≠ h → find? e.vlt.slots k = find? d.vlt.slots k) ∧
      (op = 2 → Does c s fun e => e.vlt = d.vlt ∧ if h = 0 then ends Err.BAD_ARG 0 0 e else ends 0 (byteAt (look d.vlt.slots h []) 0) 0 e))) ∧
  (∀ (bs : Bytes) s d, Runs 98 s d → (d.vlt.importing = none ∨ dmaOn d = false → Leaves (.importReadDone bs) s d) ∧
    (∀ wr, d.vlt.importing = some wr → dmaOn d = true → let o := if wr then Config.unwrap (bs.take 72) else some (bs.take 64)
      let failed (c : Nat) : Prop := Does (.importReadDone bs) s fun e => ends c 0 0 e ∧ e.vlt = { d.vlt with importing := none }
      (importBar wr d ≠ 0 → failed (importBar wr d)) ∧ (importBar wr d = 0 → o = none → failed 0x20) ∧
      (∀ x, importBar wr d = 0 → o = some x → objectOk x = false → failed 0x21) ∧
      (∀ x, importBar wr d = 0 → o = some x → objectOk x = true → lowestFree d.vlt.slots 1 32767 = none → failed Err.RESOURCE_FULL) ∧
      (∀ x h, importBar wr d = 0 → o = some x → objectOk x = true → lowestFree d.vlt.slots 1 32767 = some h → Does (.importReadDone bs) s fun e =>
        ends 0 (byteAt x 0) h e ∧ find? e.vlt.slots h = some x ∧ e.vlt.importing = none))) ∧
  (∀ req w s d img, Commits req .VLT_LC 0 0 (force w [(31, 31, 1)]) s d img → let t := VLT_LC.TARGET.of img
    let lc := rget VLT_STAT.LC 0 0 d
    let ex := expertOf Pg.VLT d = true
    let key := VLT_LC.KEY.of img = 0x4C43
    let refused (c : Nat) : Prop := Does (.lcChange req w) s fun e => (face Pg.VLT e).errCode = c ∧ rget VLT_STAT.LC 0 0 e = lc ∧ e.vlt = d.vlt
    (¬ex → Writes req (.lcChange req w) s (errAt Err.EXPERT_LOCKED .VLT_LC 0 0 d)) ∧ (ex → ¬key → refused Err.BAD_ARG) ∧
    (ex → key → lcLegal lc t = false → refused 0x24) ∧
    (ex → key → lcLegal lc t = true → Does (.lcChange req w) s fun e => rget VLT_STAT.LC 0 0 e = t ∧ e.sys.lc = t ∧ wiped d e)) ∧
  (∀ s, let d := s.dev
    (porHeld d = true ∨ d.sys.tamperPin = true → Leaves .tamperAssert s d) ∧ 
    (porHeld d = true ∨ d.sys.tamperPin = false ∨ d.sys.tamperDone = true ∨ d.hwd.aonNs < d.sys.tamperAt + 1000 → Leaves .tamperWipe s d) ∧
    (porHeld d = false → d.sys.tamperPin = false → Does .tamperAssert s fun e => e.sys.tamperPin = true ∧ e.sys.tamperDone = false ∧ e.sys.tamperAt = d.hwd.aonNs ∧ flag VLT_STAT.TAMPER 0 0 e = true ∧
      bit (face Pg.VLT e).pend 2 = true ∧ e.vlt = d.vlt ∧ vlt 4 e = (vlt 4 d + 1) % 2 ^ 64) ∧
    (porHeld d = false → d.sys.tamperPin = true → d.sys.tamperDone = false → d.sys.tamperAt + 1000 ≤ d.hwd.aonNs → Does .tamperWipe s fun e =>
      wiped d e ∧ e.sys.tamperDone = true ∧ e.hwd.tot.tampers = d.hwd.tot.tampers + 1))

/-- R514 to R518, R578. -/
def Obligations.ClocksAndReferences : Prop :=
  let clk (k : Nat) (e : Dev) : Nat := ctr Pg.CLK (0x1000 + 8 * k) e
  (∀ req (n : Fin 128) w s d img, Commits req .CLK_ISLn 0 n.val (force w [(31, 31, 1)]) s d img → let c : Instr := .islStop req n w
    let fixed := n.val = 99 ∨ n.val = 100 ∨ n.val = 101
    let busy := ∃ p ∈ islPages n.val, blkEn p d = true ∨ busyOf p d = true
    let stop := flag CLK_ISLn.STOP 0 n.val d = true
    (fixed → Writes req c s (errAt Err.BAD_ARG .CLK_ISLn 0 n.val d)) ∧ (¬fixed → busy → Writes req c s (errAt 0x20 .CLK_ISLn 0 n.val d)) ∧
    (¬fixed → ¬busy → stop → Writes req c s d) ∧
    (¬fixed → ¬busy → ¬stop → Does c s fun e => flag CLK_ISLn.STOP 0 n.val e = true ∧ clk 2 e = (clk 2 d + 1) % 2 ^ 64 ∧
      islState n.val e = if islOn n.val d then 4 else islState n.val d)) ∧
  (∀ req (n : Fin 128) w s d img, Commits req .CLK_ISLn 0 n.val (force w [(31, 31, 0)]) s d img → Does (.islStart req n w) s fun e =>
    flag CLK_ISLn.STOP 0 n.val e = false ∧ n.val ∉ e.sys.isl1us ∧ islState n.val e = if islState n.val d = 4 then 2 else islState n.val d) ∧
  (∀ (n : Fin 128) s, let d := s.dev
    let rest := n.val ∈ d.sys.isl1us ∧ flag CLK_ISLn.STOP 0 n.val d = true ∧ look d.sys.islAt n.val 0 + 1000 ≤ d.hwd.aonNs
    let stop := flag CLK_ISLn.STOP 0 n.val d
    (rest → Does (.islRestop n) s fun e => islState n.val e = 4 ∧ n.val ∉ e.sys.isl1us) ∧ (¬rest → Leaves (.islRestop n) s d) ∧
    (islOn n.val d = true → n.val ≠ 100 → Does (.islandLockLoss n) s fun e => islState n.val e = 5 ∧ bit (face Pg.CLK e).pend 0 = true ∧
      clk 0 e = (clk 0 d + 1) % 2 ^ 64) ∧
    (islOn n.val d = false ∨ n.val = 100 → Leaves (.islandLockLoss n) s d) ∧
    (islState n.val d = 5 → bit d.sys.refs 9 = true → Leaves (.islandRelock n) s (setIsl n.val (if stop then 4 else 2) d)) ∧
    (islState n.val d ≠ 5 ∨ bit d.sys.refs 9 = false → Leaves (.islandRelock n) s d)) ∧
  (∀ (c : RefClk) s, let d := s.dev
    let k := refBit c
    let gone := { d with sys := { d.sys with refs := clrBit d.sys.refs k } }
    let back := { d with sys := { d.sys with refs := setBit d.sys.refs k } }
    (bit d.sys.refs k = false → Leaves (.refClkLoss c) s d) ∧
    (bit d.sys.refs k = true → islState 99 d = 0 → Leaves (.refClkLoss c) s gone) ∧
    (bit d.sys.refs k = true → islState 99 d ≠ 0 → Does (.refClkLoss c) s fun e => bit e.sys.refs k = false ∧ clk 1 e = (clk 1 d + 1) % 2 ^ 64 ∧
      (c ≠ .pcie → bit (face Pg.CLK e).pend 1 = true) ∧
      (c = .sys → rget CLK_REF_STAT.SYSCLK_OK 0 0 e = 0 ∧ ∀ n < 128, n ≠ 100 → islOn n d = true → islState n e = 5) ∧
      (c = .pcie → rget HIF_LINK.SPEED 0 0 e = 0)) ∧
    (islState 99 d = 0 → Leaves (.refClkReturn c) s back) ∧ (islState 99 d ≠ 0 → Leaves (.refClkReturn c) s (refShow back)))

/-- R519 to R523, R525, R541, R572, R573, R462, R480. -/
def Obligations.ResetScopes : Prop :=
  let sysOf (d : Dev) (f : Sys → Sys) : Dev := { d with sys := f d.sys }
  -- everything at its reset value but what R520 keeps
  let empty (cause : Nat) (d e : Dev) : Prop := alive e = false ∧ e.sys.chipCause = cause ∧ e.sys.ctlRun = none ∧ e.faces = [] ∧ e.ctrs = [] ∧ e.perf = [] ∧
    e.ports = [] ∧ e.drops = [] ∧ e.staged = [] ∧ e.hif = {} ∧ e.head = {} ∧ e.tab = {} ∧ e.srch = {} ∧ e.disp = {} ∧ e.epc = {} ∧ e.chk = {} ∧ e.hbm = {} ∧ e.tm = {} ∧
    e.fab = { upAt := d.mono } ∧ e.svc = {} ∧ e.cnt = {} ∧ e.banks = {} ∧ e.i3c = {} ∧ e.ctlQ = [] ∧ e.vlt = { digest := d.vlt.digest } ∧ e.hwd = d.hwd ∧ e.mono = d.mono ∧
    e.sys.serial = d.sys.serial ∧ e.sys.lc = d.sys.lc ∧ e.sys.refs = d.sys.refs ∧
    ∀ f : Fld, f.lo < 1024 → f.reg.addr 0 0 / 65536 ≠ Pg.HWD → f.reg ≠ .VLT_STAT ∨ d.sys.tamperPin = false → f.reg.addr 0 0 / 1024 ≠ Reg.addr .CLK_ISLn 0 0 / 1024 → rget f 0 0 e = f.rst 0 0
  -- a trigger: its command, whether it stands already, the device with it standing, and the cause
  let trigs (d : Dev) : List (Instr × Bool × Dev × Nat) := [(.porNAssert, d.sys.porPin, sysOf d fun x => { x with porPin := true }, 0),
    (.aonBrownout, !d.sys.vddAon, sysOf d fun x => { x with vddAon := false }, 0), (.vddIoLoss, !d.sys.vddIo, sysOf d fun x => { x with vddIo := false }, 0),
    (.chipRstNAssert, d.sys.chipPin, sysOf d fun x => { x with chipPin := true }, 1), (.thermalTrip, d.sys.trip, sysOf d fun x => { x with trip := true, tripAt := d.hwd.aonNs }, 3)]
  -- the end of a trigger: its command and the device without it
  let ends (d : Dev) : List (Instr × Dev) := [(.porNRelease, sysOf d fun x => { x with porPin := false, rails := true }),
    (.vddIoReturn, sysOf d fun x => { x with vddIo := true }), (.vddAonReturn, sysOf d fun x => { x with vddAon := true }),
    (.chipRstNRelease, sysOf d fun x => { x with chipPin := false })]
  let starts (d e : Dev) : Prop := alive e = true ∧ rget GLB_BOOT.PHASE 0 0 e = 1 ∧ rget GLB_RST_CAUSE.CHIP_CAUSE 0 0 e = d.sys.chipCause % 4 ∧
    islState 100 e = 2 ∧ (d.sys.chipCause ≠ 0 → e.hwd.tot.chipResets = d.hwd.tot.chipResets + 1)
  (∀ s, ∀ t ∈ trigs s.dev, (t.2.1 = true → Leaves t.1 s s.dev) ∧
    (t.2.1 = false → (t.2.2.2 = 0 ∨ alive s.dev = true → Does t.1 s (empty t.2.2.2 t.2.2.1)) ∧
      (t.2.2.2 ≠ 0 → alive s.dev = false → s.dev.sys.chipCause = 0 → Leaves t.1 s t.2.2.1) ∧
      (t.2.2.2 ≠ 0 → alive s.dev = false → s.dev.sys.chipCause ≠ 0 → Does t.1 s fun e => alive e = false ∧ e.sys = t.2.2.1.sys ∧
        e.hwd.tot.chipResets = s.dev.hwd.tot.chipResets + 1))) ∧
  (∀ s, ∀ t ∈ ends s.dev, (alive t.2 = true ∨ resetHeld t.2 = true → Leaves t.1 s t.2) ∧
    (alive t.2 = false → resetHeld t.2 = false → Does t.1 s (starts t.2))) ∧
  (∀ (hot : BitVec 8) s, let x := sysOf s.dev fun y => { y with trip := false }
    let due := s.dev.sys.trip = true ∧ hot.toInt < 115 ∧ s.dev.sys.tripAt + 10000000 ≤ s.dev.hwd.aonNs
    (¬due → Leaves (.tripRelease hot) s s.dev) ∧
    (due → alive x = true ∨ resetHeld x = true → Leaves (.tripRelease hot) s x) ∧
    (due → alive x = false → resetHeld x = false → Does (.tripRelease hot) s (starts x))) ∧
  (∀ s, (porHeld s.dev = true → Leaves .railLoss s s.dev) ∧ (porHeld s.dev = false → Leaves .railLoss s (sysOf s.dev fun x => { x with rails := false })) ∧
    Leaves .ctlRstNRelease s (sysOf s.dev fun x => { x with ctlPin := false }) ∧
    (s.dev.sys.ctlPin = true → Leaves .ctlRstNAssert s s.dev) ∧
    (s.dev.sys.ctlPin = false → alive s.dev = false → Leaves .ctlRstNAssert s (sysOf s.dev fun x => { x with ctlPin := true })) ∧
    (s.dev.sys.ctlPin = false → alive s.dev = true → s.dev.sys.ctlRun = none → Does .ctlRstNAssert s fun e => e.sys.ctlRun = some 0 ∧
      rget GLB_RST_CAUSE.CTL_SRC 0 0 e = 0 ∧ rget GLB_RST_CAUSE.CTL_SEEN 0 0 e = 1 ∧ rget SVC_RING_BASE.BASE 0 0 e = 0 ∧ e.hif.cqs = [] ∧
      (∀ p ∈ keys s.dev.faces, onTmDie p = false → p ≠ Pg.LRN → (face p e).mask = 0xFFFFFFFF ∧ (face p e).en = (face p s.dev).en) ∧
      ∀ n < 144, rget HIF_RINGn_CFG.EN 0 n e = 0)) ∧
  (∀ req s d img, Commits req .GLB_RST 0 0 0x52530001 s d img → d.sys.ctlRun = none → Does (.glbRstControl req) s fun e => e.sys.ctlRun = some 1 ∧
    rget GLB_RST_CAUSE.CTL_SRC 0 0 e = 1) ∧
  (∀ req s d img, Commits req .GLB_RST 0 0 0x52530002 s d img → resetHeld d = false → Does (.glbRstChip req) s fun e => alive e = true ∧
    rget GLB_BOOT.PHASE 0 0 e = 1 ∧ rget GLB_RST_CAUSE.CHIP_CAUSE 0 0 e = 2 ∧ e.hwd.tot.chipResets = d.hwd.tot.chipResets + 1 ∧ e.tab = {} ∧ e.chk = {}) ∧
  (∀ s, (s.dev.sys.ctlRun = none ∨ s.dev.sys.ctlPin = true → Leaves .controlResetDone s s.dev) ∧
    (∀ x, s.dev.sys.ctlRun = some x → s.dev.sys.ctlPin = false → s.dev.hif.ctlHeld = [] → Does .controlResetDone s fun e => e.sys.ctlRun = none ∧
      e.sys.resetRec = none ∧ bit (face Pg.GLB e).pend 0 = true ∧ (x = 2 → bit (face Pg.MGT e).pend 1 = true)))

/-- R525, R526, R507, R508, R539, R547. -/
def Obligations.StartUpSteps : Prop :=
  let fail (n : Nat) (e : Dev) : Prop := bit (rget GLB_BOOT.FAIL 0 0 e) n = true
  let ready (p : Nat) (e : Dev) : Prop := (face p e).ready = true
  (∀ ok serial lc digest (a b c : BitVec 16) s, let d := s.dev
    let i : Instr := .fuseLoadDone ok serial lc digest (a, b, c)
    let st := majority a.toNat b.toNat c.toNat
    let due := phase d = 1 ∧ stepDone 2 d = false
    (¬due → Leaves i s d) ∧
    (due → Does i s fun e => stepDone 2 e = true ∧ rget GLB_STRAP.DEV_ID 0 0 e = bits st 13 8 ∧ rget GLB_STRAP.MGR_SEL 0 0 e = bits st 0 0 ∧
      islState 99 e = 2 ∧ (∀ p ∈ [Pg.GLB, Pg.HIF, Pg.MGT, Pg.AON], p ∉ d.sys.badPages → ready p e) ∧
      (ok = false → fail 0 e ∧ phase e = 1 ∧ e.vlt = d.vlt) ∧
      (ok = true → phase e = 2 ∧ rget GLB_SERIAL.SERIAL 0 0 e = serial.toNat ∧ e.vlt.slots = [(0, digest)] ∧ e.sys.lc = max lc.toNat d.sys.lc ∧
        (d.sys.lc < 4 → rget VLT_STAT.LC 0 0 e = max lc.toNat d.sys.lc) ∧ ∀ n < 128, n ≠ 99 → n ≠ 100 → islState n e = 1))) ∧
  (∀ s, let d := s.dev
    let due := phase d = 2 ∧ bit d.sys.refs 9 = true
    (¬due → Leaves .clocksLocked s d) ∧
    (due → Does .clocksLocked s fun e => phase e = 3 ∧ stepDone 3 e = true ∧ ∀ n < 128, islState n e = 2)) ∧
  (∀ (bad : List Page) s, let d := s.dev
    let due := phase d = 3 ∧ stepDone 4 d = false
    (¬due → Leaves (.sramInitDone bad) s d) ∧
    (due → Does (.sramInitDone bad) s fun e => stepDone 4 e = true ∧ e.sys.badPages = bad.map pageNum ∧ (bad ≠ [] → fail 3 e) ∧
      ∀ p ∈ allPages, onTmDie p = false → p ∉ bad.map pageNum → ready p e)) ∧
  (∀ s, let d := s.dev
    let due := phase d = 3 ∧ stepDone 5 d = false
    (¬due → ∀ ok, Leaves (.d2dTrainDone ok) s d) ∧
    (due → (Does (.d2dTrainDone true) s fun e => stepDone 5 e = true ∧ flag D2D_STAT.UP_FT 0 0 e = true ∧ flag D2D_STAT.UP_TF 0 0 e = true ∧
        rget CHK_MARCH_STAT.STATE 0 0 e = 1) ∧
      (Does (.d2dTrainDone false) s fun e => fail 1 e ∧ stepDone 5 e = true ∧ stepDone 6 e = true ∧ stepDone 7 e = true ∧
        ∀ k < 4, rget HBM_ID.STATE k 0 e = 0))) ∧
  (∀ (line : BitVec 128) (fab : BitVec 168) s, let d := s.dev
    let due := phase d = 3 ∧ stepDone 8 d = false
    (¬due → Leaves (.serdesCalDone line fab) s d) ∧
    (due → Does (.serdesCalDone line fab) s fun e => stepDone 8 e = true ∧ e.sys.badLine = line.toNat ∧ e.sys.badFab = fab.toNat ∧
      (line ≠ 0 ∨ fab ≠ 0 → fail 5 e))) ∧
  (∀ s, let d := s.dev
    let due := phase d = 3 ∧ ∀ k ∈ [4, 5, 6, 7, 8], stepDone k d = true
    (¬due → Leaves .bootDone s d) ∧
    (due → Does .bootDone s fun e => phase e = 4 ∧ ((∃ k < 10, bit d.sys.refs k = false) → bit (face Pg.CLK e).pend 1 = true)))

/-- R62, R285, R459, R509, R549 to R551, R572. -/
def Obligations.PinsAndLinkStates : Prop :=
  let jtag (d : Dev) (i : Nat) : Dev := { d with sys := { d.sys with jtag := i } }
  let takes : List (Nat × Instr) := [(0x00, .jtagExtest), (0x03, .jtagExtestPulse), (0x04, .jtagExtestTrain), (0x05, .jtagClamp), (0x06, .jtagHighz)]
  (∀ s, Leaves .jtagIdcode s (let x := jtag s.dev 0x01
      { x with out := .jtag 0x12800A8B :: x.out }) ∧
    Leaves .jtagSamplePreload s (jtag s.dev 0x02) ∧ Leaves .jtagBypass s (jtag s.dev 0xFF) ∧ Leaves .jtagTapReset s (jtag s.dev 0x01)) ∧
  (∀ s, ∀ t ∈ takes, Does t.2 s fun e => e.sys.jtag = t.1 ∧ e.sys.jtagStop = true ∧ rget HIF_LINK.SPEED 0 0 e % 4 = 0 ∧
    ∀ l < 168, (link l e).locked = false) ∧
  (∀ s, let d := s.dev
    (porHeld d = true → Leaves .tamperRelease s d) ∧
    (porHeld d = false → Leaves .tamperRelease s (rset VLT_STAT.TAMPER 0 0 0 { d with sys := { d.sys with tamperPin := false } }))) ∧
  (∀ s d, Runs 99 s d → let up := rget HIF_LINK.SPEED 0 0 d ≠ 0
    (up → Leaves .aspmL1Entry s (rset HIF_LINK.LP 0 0 1 d)) ∧ (¬up → Leaves .aspmL1Entry s d) ∧
    (d.aon.pmeWait = false → Leaves .aspmL1Exit s (rset HIF_LINK.LP 0 0 0 d)) ∧
    (d.aon.pmeWait = true → up → Does .aspmL1Exit s fun e => flag HIF_LINK.LP 0 0 e = false ∧ e.aon.pmeWait = false ∧ Out.pmPme ∈ e.out)) ∧
  (∀ (n : Fin 128) s d, Line n.val s d → let x := Machine.port n.val d
    let c (o : Nat) (e : Dev) : Nat := ctr (Pg.LPG + n.val / 4) (0x1000 + 0x400 * (n.val % 4) + o) e
    (x.txNow = none → Leaves (.frameTxEnd n) s d) ∧
    (∀ f, x.txNow = some f → (Does (.frameTxEnd n) s fun e => (Machine.port n.val e).txNow = none ∧ (Machine.port n.val e).txWait = x.txWait) ∧
      (d.sys.rails = true → f.bad = true → Does (.frameTxEnd n) s fun e => Out.frameAbort n.val ∈ e.out) ∧
      (d.sys.rails = true → f.bad = false → Does (.frameTxEnd n) s fun e => c 0x080 e = (c 0x080 d + 1) % 2 ^ 64))) ∧
  (∀ (st : Fin 4) (k : Fin 32) (bank : BitVec 7) s d, Runs (103 + st.val) s d → let b := (32 * st.val + k.val) * 128 + bank.toNat
    let n := look d.hbm.postponed b 0
    let waits := rget HBM_TRAIN_STAT.STEP st.val 0 d ≠ 0 ∧ n < 4
    (waits → Leaves (.hbmRefreshDue st k bank) s { d with hbm := { d.hbm with postponed := put d.hbm.postponed b 0 (n + 1) } }) ∧
    (¬waits → Leaves (.hbmRefreshDue st k bank) s { d with hbm := { d.hbm with rows := del d.hbm.rows b, postponed := put d.hbm.postponed b 0 0 } }))

/-- The queue is served from its front. The idle step is a DESIGN CHOICE (log entry 2). -/
def Obligations.FrontOfQueue : Prop :=
  (∀ c (s : State), step { s with pending := c :: s.pending } = exec c s) ∧
  (∀ s : State, s.pending = [] → ∃ t, step s = .next t ∧ t.pending = [] ∧
    (porHeld s.dev = true → Beside s.dev t.dev) ∧
    (porHeld s.dev = false → t.dev.hwd.aonNs = s.dev.hwd.aonNs + 1 ∧ (islOn 99 s.dev = false → t.dev.spn.time = s.dev.spn.time)))

/-- No rule of the spec halts the block: every command of the table completes, and commands wait in order. -/
def Obligations.QueueDrains : Prop :=
  (∀ s, Goes s) ∧ (∀ c s, Does c s fun _ => True) ∧
  ∀ s : State, ∃ t : State, Sys2Proof.core.run s.pending.length s = .next t ∧ t.pending = []

/-- The reset values of the field tables, and EvtTrue at reset. Values the spec does not give are the model's own (log entry 1). -/
def Obligations.ResetState : Prop :=
  let d := State.reset.dev
  State.reset.pending = [] ∧ alive d = false ∧ (∀ f g i, rget f g i d = f.rst g i) ∧ (∀ p o, ctr p o d = 0) ∧ d.drops = [] ∧ d.staged = [] ∧
  (∀ p, blkEn p d = decide (governor p ∈ [Pg.GLB, Pg.HIF, Pg.EVT, Pg.AON, Pg.MGT, Pg.CLK])) ∧
  (∀ p, (face p d).mask = 0xFFFFFFFF ∧ (face p d).pend = 0 ∧ (face p d).owner = 0 ∧ (face p d).ready = false) ∧
  curBank d = 0 ∧ curSeq d = 0 ∧ epcState d = 0 ∧ EvtTrue d

/-- R446, R457. The invariant of the event controller, kept by every step. -/
def Obligations.EvtHoldsWhatItSees : Prop :=
  ∀ s t : State, EvtTrue s.dev → step s = .next t → EvtTrue t.dev

/-- R482. -/
def Obligations.TemperatureBins : Prop :=
  ∀ t : Int, (tempBin t = 0 ↔ t < 40) ∧ (∀ k : Nat, 1 ≤ k → k ≤ 14 → (tempBin t = k ↔ 35 + 5 * (k : Int) ≤ t ∧ t ≤ 39 + 5 * (k : Int))) ∧
    (tempBin t = 15 ↔ 110 ≤ t)

/-- R550. -/
def Obligations.JtagIdentification : Prop :=
  ∀ s, ∃ v l, (Does .jtagIdcode s fun e => e.out = l ++ .jtag v :: s.dev.out ∧ ∀ x ∈ l, ∃ b, x = Out.ibi b) ∧ v = 0x12800A8B ∧
    bits v 31 28 = 0x1 ∧ bits v 27 12 = 0x2800 ∧ bits v 11 1 = 0x545 ∧ bits v 0 0 = 1

/-- R4, for every register and every field of the register map. -/
def Obligations.FieldAccessTypes : Prop :=
  ∀ expert r g i img d, let e := storeFields expert r g i img d
    (∀ x ∈ r.fields, let v := bits img (x.lo + x.w - 1) x.lo
      let old := rget (x.fld r) g i d
      rget (x.fld r) g i e = match x.acc with
        | .rw => v
        | .rwx => if expert then v else old
        | .w1c => clrBits old v % 2 ^ x.w
        | .ro => old
        | .wo => old
        | .sc => old) ∧
    (∀ k, (∀ x ∈ r.fields, k ≠ (x.fld r).key g i) → find? e.flds k = find? d.flds k) ∧ { e with flds := d.flds } = d
end

