-- ==== Sys2Proof/Laws/State.lean ====
section
/-! SUPPORT. What each update of the device changes, field by field. -/

namespace Sys2Proof.Machine

@[simp] theorem rset_faces (f : Fld) (g i v : Nat) (d : Dev) : (rset f g i v d).faces = d.faces := rfl
@[simp] theorem rset_flds (f : Fld) (g i v : Nat) (d : Dev) : (rset f g i v d).flds = put d.flds (f.key g i) (f.rst g i) (v % 2 ^ f.w) := rfl
@[simp] theorem rset_ctrs (f : Fld) (g i v : Nat) (d : Dev) : (rset f g i v d).ctrs = d.ctrs := rfl
@[simp] theorem rset_drops (f : Fld) (g i v : Nat) (d : Dev) : (rset f g i v d).drops = d.drops := rfl
@[simp] theorem rset_perf (f : Fld) (g i v : Nat) (d : Dev) : (rset f g i v d).perf = d.perf := rfl
@[simp] theorem rset_staged (f : Fld) (g i v : Nat) (d : Dev) : (rset f g i v d).staged = d.staged := rfl
@[simp] theorem rset_snaps (f : Fld) (g i v : Nat) (d : Dev) : (rset f g i v d).snaps = d.snaps := rfl
@[simp] theorem rset_out (f : Fld) (g i v : Nat) (d : Dev) : (rset f g i v d).out = d.out := rfl
@[simp] theorem rset_freeCtr (f : Fld) (g i v : Nat) (d : Dev) : (rset f g i v d).freeCtr = d.freeCtr := rfl
@[simp] theorem rset_lastErr (f : Fld) (g i v : Nat) (d : Dev) : (rset f g i v d).lastErr = d.lastErr := rfl
@[simp] theorem rset_mono (f : Fld) (g i v : Nat) (d : Dev) : (rset f g i v d).mono = d.mono := rfl
@[simp] theorem rset_evt (f : Fld) (g i v : Nat) (d : Dev) : (rset f g i v d).evt = d.evt := rfl
@[simp] theorem rset_aon (f : Fld) (g i v : Nat) (d : Dev) : (rset f g i v d).aon = d.aon := rfl
@[simp] theorem rset_hif (f : Fld) (g i v : Nat) (d : Dev) : (rset f g i v d).hif = d.hif := rfl
@[simp] theorem rset_i3c (f : Fld) (g i v : Nat) (d : Dev) : (rset f g i v d).i3c = d.i3c := rfl
@[simp] theorem rset_cnt (f : Fld) (g i v : Nat) (d : Dev) : (rset f g i v d).cnt = d.cnt := rfl
@[simp] theorem rset_hwd (f : Fld) (g i v : Nat) (d : Dev) : (rset f g i v d).hwd = d.hwd := rfl
@[simp] theorem rset_banks (f : Fld) (g i v : Nat) (d : Dev) : (rset f g i v d).banks = d.banks := rfl
@[simp] theorem rset_vlt (f : Fld) (g i v : Nat) (d : Dev) : (rset f g i v d).vlt = d.vlt := rfl
@[simp] theorem rset_sys (f : Fld) (g i v : Nat) (d : Dev) : (rset f g i v d).sys = d.sys := rfl
@[simp] theorem rset_ports (f : Fld) (g i v : Nat) (d : Dev) : (rset f g i v d).ports = d.ports := rfl
@[simp] theorem rset_head (f : Fld) (g i v : Nat) (d : Dev) : (rset f g i v d).head = d.head := rfl
@[simp] theorem rset_cross (f : Fld) (g i v : Nat) (d : Dev) : (rset f g i v d).cross = d.cross := rfl
@[simp] theorem rset_d2d (f : Fld) (g i v : Nat) (d : Dev) : (rset f g i v d).d2d = d.d2d := rfl
@[simp] theorem rset_srcCache (f : Fld) (g i v : Nat) (d : Dev) : (rset f g i v d).srcCache = d.srcCache := rfl
@[simp] theorem rset_tab (f : Fld) (g i v : Nat) (d : Dev) : (rset f g i v d).tab = d.tab := rfl
@[simp] theorem rset_srch (f : Fld) (g i v : Nat) (d : Dev) : (rset f g i v d).srch = d.srch := rfl
@[simp] theorem rset_spn (f : Fld) (g i v : Nat) (d : Dev) : (rset f g i v d).spn = d.spn := rfl
@[simp] theorem rset_disp (f : Fld) (g i v : Nat) (d : Dev) : (rset f g i v d).disp = d.disp := rfl
@[simp] theorem rset_epc (f : Fld) (g i v : Nat) (d : Dev) : (rset f g i v d).epc = d.epc := rfl
@[simp] theorem rset_chk (f : Fld) (g i v : Nat) (d : Dev) : (rset f g i v d).chk = d.chk := rfl
@[simp] theorem rset_tm (f : Fld) (g i v : Nat) (d : Dev) : (rset f g i v d).tm = d.tm := rfl
@[simp] theorem rset_ctlQ (f : Fld) (g i v : Nat) (d : Dev) : (rset f g i v d).ctlQ = d.ctlQ := rfl
@[simp] theorem rset_hbm (f : Fld) (g i v : Nat) (d : Dev) : (rset f g i v d).hbm = d.hbm := rfl
@[simp] theorem rset_fab (f : Fld) (g i v : Nat) (d : Dev) : (rset f g i v d).fab = d.fab := rfl
@[simp] theorem rset_svc (f : Fld) (g i v : Nat) (d : Dev) : (rset f g i v d).svc = d.svc := rfl

@[simp] theorem setFace_faces (p : Nat) (x : Face) (d : Dev) : (setFace p x d).faces = put d.faces p (Face.reset p) x := rfl
@[simp] theorem setFace_flds (p : Nat) (x : Face) (d : Dev) : (setFace p x d).flds = d.flds := rfl
@[simp] theorem setFace_ctrs (p : Nat) (x : Face) (d : Dev) : (setFace p x d).ctrs = d.ctrs := rfl
@[simp] theorem setFace_drops (p : Nat) (x : Face) (d : Dev) : (setFace p x d).drops = d.drops := rfl
@[simp] theorem setFace_perf (p : Nat) (x : Face) (d : Dev) : (setFace p x d).perf = d.perf := rfl
@[simp] theorem setFace_staged (p : Nat) (x : Face) (d : Dev) : (setFace p x d).staged = d.staged := rfl
@[simp] theorem setFace_snaps (p : Nat) (x : Face) (d : Dev) : (setFace p x d).snaps = d.snaps := rfl
@[simp] theorem setFace_out (p : Nat) (x : Face) (d : Dev) : (setFace p x d).out = d.out := rfl
@[simp] theorem setFace_freeCtr (p : Nat) (x : Face) (d : Dev) : (setFace p x d).freeCtr = d.freeCtr := rfl
@[simp] theorem setFace_lastErr (p : Nat) (x : Face) (d : Dev) : (setFace p x d).lastErr = d.lastErr := rfl
@[simp] theorem setFace_mono (p : Nat) (x : Face) (d : Dev) : (setFace p x d).mono = d.mono := rfl
@[simp] theorem setFace_evt (p : Nat) (x : Face) (d : Dev) : (setFace p x d).evt = d.evt := rfl
@[simp] theorem setFace_aon (p : Nat) (x : Face) (d : Dev) : (setFace p x d).aon = d.aon := rfl
@[simp] theorem setFace_hif (p : Nat) (x : Face) (d : Dev) : (setFace p x d).hif = d.hif := rfl
@[simp] theorem setFace_i3c (p : Nat) (x : Face) (d : Dev) : (setFace p x d).i3c = d.i3c := rfl
@[simp] theorem setFace_cnt (p : Nat) (x : Face) (d : Dev) : (setFace p x d).cnt = d.cnt := rfl
@[simp] theorem setFace_hwd (p : Nat) (x : Face) (d : Dev) : (setFace p x d).hwd = d.hwd := rfl
@[simp] theorem setFace_banks (p : Nat) (x : Face) (d : Dev) : (setFace p x d).banks = d.banks := rfl
@[simp] theorem setFace_vlt (p : Nat) (x : Face) (d : Dev) : (setFace p x d).vlt = d.vlt := rfl
@[simp] theorem setFace_sys (p : Nat) (x : Face) (d : Dev) : (setFace p x d).sys = d.sys := rfl
@[simp] theorem setFace_ports (p : Nat) (x : Face) (d : Dev) : (setFace p x d).ports = d.ports := rfl
@[simp] theorem setFace_head (p : Nat) (x : Face) (d : Dev) : (setFace p x d).head = d.head := rfl
@[simp] theorem setFace_cross (p : Nat) (x : Face) (d : Dev) : (setFace p x d).cross = d.cross := rfl
@[simp] theorem setFace_d2d (p : Nat) (x : Face) (d : Dev) : (setFace p x d).d2d = d.d2d := rfl
@[simp] theorem setFace_srcCache (p : Nat) (x : Face) (d : Dev) : (setFace p x d).srcCache = d.srcCache := rfl
@[simp] theorem setFace_tab (p : Nat) (x : Face) (d : Dev) : (setFace p x d).tab = d.tab := rfl
@[simp] theorem setFace_srch (p : Nat) (x : Face) (d : Dev) : (setFace p x d).srch = d.srch := rfl
@[simp] theorem setFace_spn (p : Nat) (x : Face) (d : Dev) : (setFace p x d).spn = d.spn := rfl
@[simp] theorem setFace_disp (p : Nat) (x : Face) (d : Dev) : (setFace p x d).disp = d.disp := rfl
@[simp] theorem setFace_epc (p : Nat) (x : Face) (d : Dev) : (setFace p x d).epc = d.epc := rfl
@[simp] theorem setFace_chk (p : Nat) (x : Face) (d : Dev) : (setFace p x d).chk = d.chk := rfl
@[simp] theorem setFace_tm (p : Nat) (x : Face) (d : Dev) : (setFace p x d).tm = d.tm := rfl
@[simp] theorem setFace_ctlQ (p : Nat) (x : Face) (d : Dev) : (setFace p x d).ctlQ = d.ctlQ := rfl
@[simp] theorem setFace_hbm (p : Nat) (x : Face) (d : Dev) : (setFace p x d).hbm = d.hbm := rfl
@[simp] theorem setFace_fab (p : Nat) (x : Face) (d : Dev) : (setFace p x d).fab = d.fab := rfl
@[simp] theorem setFace_svc (p : Nat) (x : Face) (d : Dev) : (setFace p x d).svc = d.svc := rfl

@[simp] theorem setPerf_faces (p : Nat) (x : Perf) (d : Dev) : (setPerf p x d).faces = d.faces := rfl
@[simp] theorem setPerf_flds (p : Nat) (x : Perf) (d : Dev) : (setPerf p x d).flds = d.flds := rfl
@[simp] theorem setPerf_ctrs (p : Nat) (x : Perf) (d : Dev) : (setPerf p x d).ctrs = d.ctrs := rfl
@[simp] theorem setPerf_drops (p : Nat) (x : Perf) (d : Dev) : (setPerf p x d).drops = d.drops := rfl
@[simp] theorem setPerf_perf (p : Nat) (x : Perf) (d : Dev) : (setPerf p x d).perf = put d.perf p {} x := rfl
@[simp] theorem setPerf_staged (p : Nat) (x : Perf) (d : Dev) : (setPerf p x d).staged = d.staged := rfl
@[simp] theorem setPerf_snaps (p : Nat) (x : Perf) (d : Dev) : (setPerf p x d).snaps = d.snaps := rfl
@[simp] theorem setPerf_out (p : Nat) (x : Perf) (d : Dev) : (setPerf p x d).out = d.out := rfl
@[simp] theorem setPerf_freeCtr (p : Nat) (x : Perf) (d : Dev) : (setPerf p x d).freeCtr = d.freeCtr := rfl
@[simp] theorem setPerf_lastErr (p : Nat) (x : Perf) (d : Dev) : (setPerf p x d).lastErr = d.lastErr := rfl
@[simp] theorem setPerf_mono (p : Nat) (x : Perf) (d : Dev) : (setPerf p x d).mono = d.mono := rfl
@[simp] theorem setPerf_evt (p : Nat) (x : Perf) (d : Dev) : (setPerf p x d).evt = d.evt := rfl
@[simp] theorem setPerf_aon (p : Nat) (x : Perf) (d : Dev) : (setPerf p x d).aon = d.aon := rfl
@[simp] theorem setPerf_hif (p : Nat) (x : Perf) (d : Dev) : (setPerf p x d).hif = d.hif := rfl
@[simp] theorem setPerf_i3c (p : Nat) (x : Perf) (d : Dev) : (setPerf p x d).i3c = d.i3c := rfl
@[simp] theorem setPerf_cnt (p : Nat) (x : Perf) (d : Dev) : (setPerf p x d).cnt = d.cnt := rfl
@[simp] theorem setPerf_hwd (p : Nat) (x : Perf) (d : Dev) : (setPerf p x d).hwd = d.hwd := rfl
@[simp] theorem setPerf_banks (p : Nat) (x : Perf) (d : Dev) : (setPerf p x d).banks = d.banks := rfl
@[simp] theorem setPerf_vlt (p : Nat) (x : Perf) (d : Dev) : (setPerf p x d).vlt = d.vlt := rfl
@[simp] theorem setPerf_sys (p : Nat) (x : Perf) (d : Dev) : (setPerf p x d).sys = d.sys := rfl
@[simp] theorem setPerf_ports (p : Nat) (x : Perf) (d : Dev) : (setPerf p x d).ports = d.ports := rfl
@[simp] theorem setPerf_head (p : Nat) (x : Perf) (d : Dev) : (setPerf p x d).head = d.head := rfl
@[simp] theorem setPerf_cross (p : Nat) (x : Perf) (d : Dev) : (setPerf p x d).cross = d.cross := rfl
@[simp] theorem setPerf_d2d (p : Nat) (x : Perf) (d : Dev) : (setPerf p x d).d2d = d.d2d := rfl
@[simp] theorem setPerf_srcCache (p : Nat) (x : Perf) (d : Dev) : (setPerf p x d).srcCache = d.srcCache := rfl
@[simp] theorem setPerf_tab (p : Nat) (x : Perf) (d : Dev) : (setPerf p x d).tab = d.tab := rfl
@[simp] theorem setPerf_srch (p : Nat) (x : Perf) (d : Dev) : (setPerf p x d).srch = d.srch := rfl
@[simp] theorem setPerf_spn (p : Nat) (x : Perf) (d : Dev) : (setPerf p x d).spn = d.spn := rfl
@[simp] theorem setPerf_disp (p : Nat) (x : Perf) (d : Dev) : (setPerf p x d).disp = d.disp := rfl
@[simp] theorem setPerf_epc (p : Nat) (x : Perf) (d : Dev) : (setPerf p x d).epc = d.epc := rfl
@[simp] theorem setPerf_chk (p : Nat) (x : Perf) (d : Dev) : (setPerf p x d).chk = d.chk := rfl
@[simp] theorem setPerf_tm (p : Nat) (x : Perf) (d : Dev) : (setPerf p x d).tm = d.tm := rfl
@[simp] theorem setPerf_ctlQ (p : Nat) (x : Perf) (d : Dev) : (setPerf p x d).ctlQ = d.ctlQ := rfl
@[simp] theorem setPerf_hbm (p : Nat) (x : Perf) (d : Dev) : (setPerf p x d).hbm = d.hbm := rfl
@[simp] theorem setPerf_fab (p : Nat) (x : Perf) (d : Dev) : (setPerf p x d).fab = d.fab := rfl
@[simp] theorem setPerf_svc (p : Nat) (x : Perf) (d : Dev) : (setPerf p x d).svc = d.svc := rfl

@[simp] theorem setCtr_faces (p o v : Nat) (d : Dev) : (setCtr p o v d).faces = d.faces := rfl
@[simp] theorem setCtr_flds (p o v : Nat) (d : Dev) : (setCtr p o v d).flds = d.flds := rfl
@[simp] theorem setCtr_ctrs (p o v : Nat) (d : Dev) : (setCtr p o v d).ctrs = put d.ctrs (p * 65536 + o) 0 (v % 2 ^ 64) := rfl
@[simp] theorem setCtr_drops (p o v : Nat) (d : Dev) : (setCtr p o v d).drops = d.drops := rfl
@[simp] theorem setCtr_perf (p o v : Nat) (d : Dev) : (setCtr p o v d).perf = d.perf := rfl
@[simp] theorem setCtr_staged (p o v : Nat) (d : Dev) : (setCtr p o v d).staged = d.staged := rfl
@[simp] theorem setCtr_snaps (p o v : Nat) (d : Dev) : (setCtr p o v d).snaps = d.snaps := rfl
@[simp] theorem setCtr_out (p o v : Nat) (d : Dev) : (setCtr p o v d).out = d.out := rfl
@[simp] theorem setCtr_freeCtr (p o v : Nat) (d : Dev) : (setCtr p o v d).freeCtr = d.freeCtr := rfl
@[simp] theorem setCtr_lastErr (p o v : Nat) (d : Dev) : (setCtr p o v d).lastErr = d.lastErr := rfl
@[simp] theorem setCtr_mono (p o v : Nat) (d : Dev) : (setCtr p o v d).mono = d.mono := rfl
@[simp] theorem setCtr_evt (p o v : Nat) (d : Dev) : (setCtr p o v d).evt = d.evt := rfl
@[simp] theorem setCtr_aon (p o v : Nat) (d : Dev) : (setCtr p o v d).aon = d.aon := rfl
@[simp] theorem setCtr_hif (p o v : Nat) (d : Dev) : (setCtr p o v d).hif = d.hif := rfl
@[simp] theorem setCtr_i3c (p o v : Nat) (d : Dev) : (setCtr p o v d).i3c = d.i3c := rfl
@[simp] theorem setCtr_cnt (p o v : Nat) (d : Dev) : (setCtr p o v d).cnt = d.cnt := rfl
@[simp] theorem setCtr_hwd (p o v : Nat) (d : Dev) : (setCtr p o v d).hwd = d.hwd := rfl
@[simp] theorem setCtr_banks (p o v : Nat) (d : Dev) : (setCtr p o v d).banks = d.banks := rfl
@[simp] theorem setCtr_vlt (p o v : Nat) (d : Dev) : (setCtr p o v d).vlt = d.vlt := rfl
@[simp] theorem setCtr_sys (p o v : Nat) (d : Dev) : (setCtr p o v d).sys = d.sys := rfl
@[simp] theorem setCtr_ports (p o v : Nat) (d : Dev) : (setCtr p o v d).ports = d.ports := rfl
@[simp] theorem setCtr_head (p o v : Nat) (d : Dev) : (setCtr p o v d).head = d.head := rfl
@[simp] theorem setCtr_cross (p o v : Nat) (d : Dev) : (setCtr p o v d).cross = d.cross := rfl
@[simp] theorem setCtr_d2d (p o v : Nat) (d : Dev) : (setCtr p o v d).d2d = d.d2d := rfl
@[simp] theorem setCtr_srcCache (p o v : Nat) (d : Dev) : (setCtr p o v d).srcCache = d.srcCache := rfl
@[simp] theorem setCtr_tab (p o v : Nat) (d : Dev) : (setCtr p o v d).tab = d.tab := rfl
@[simp] theorem setCtr_srch (p o v : Nat) (d : Dev) : (setCtr p o v d).srch = d.srch := rfl
@[simp] theorem setCtr_spn (p o v : Nat) (d : Dev) : (setCtr p o v d).spn = d.spn := rfl
@[simp] theorem setCtr_disp (p o v : Nat) (d : Dev) : (setCtr p o v d).disp = d.disp := rfl
@[simp] theorem setCtr_epc (p o v : Nat) (d : Dev) : (setCtr p o v d).epc = d.epc := rfl
@[simp] theorem setCtr_chk (p o v : Nat) (d : Dev) : (setCtr p o v d).chk = d.chk := rfl
@[simp] theorem setCtr_tm (p o v : Nat) (d : Dev) : (setCtr p o v d).tm = d.tm := rfl
@[simp] theorem setCtr_ctlQ (p o v : Nat) (d : Dev) : (setCtr p o v d).ctlQ = d.ctlQ := rfl
@[simp] theorem setCtr_hbm (p o v : Nat) (d : Dev) : (setCtr p o v d).hbm = d.hbm := rfl
@[simp] theorem setCtr_fab (p o v : Nat) (d : Dev) : (setCtr p o v d).fab = d.fab := rfl
@[simp] theorem setCtr_svc (p o v : Nat) (d : Dev) : (setCtr p o v d).svc = d.svc := rfl

@[simp] theorem emit_faces (o : Out) (d : Dev) : (emit o d).faces = d.faces := rfl
@[simp] theorem emit_flds (o : Out) (d : Dev) : (emit o d).flds = d.flds := rfl
@[simp] theorem emit_ctrs (o : Out) (d : Dev) : (emit o d).ctrs = d.ctrs := rfl
@[simp] theorem emit_drops (o : Out) (d : Dev) : (emit o d).drops = d.drops := rfl
@[simp] theorem emit_perf (o : Out) (d : Dev) : (emit o d).perf = d.perf := rfl
@[simp] theorem emit_staged (o : Out) (d : Dev) : (emit o d).staged = d.staged := rfl
@[simp] theorem emit_snaps (o : Out) (d : Dev) : (emit o d).snaps = d.snaps := rfl
@[simp] theorem emit_out (o : Out) (d : Dev) : (emit o d).out = o :: d.out := rfl
@[simp] theorem emit_freeCtr (o : Out) (d : Dev) : (emit o d).freeCtr = d.freeCtr := rfl
@[simp] theorem emit_lastErr (o : Out) (d : Dev) : (emit o d).lastErr = d.lastErr := rfl
@[simp] theorem emit_mono (o : Out) (d : Dev) : (emit o d).mono = d.mono := rfl
@[simp] theorem emit_evt (o : Out) (d : Dev) : (emit o d).evt = d.evt := rfl
@[simp] theorem emit_aon (o : Out) (d : Dev) : (emit o d).aon = d.aon := rfl
@[simp] theorem emit_hif (o : Out) (d : Dev) : (emit o d).hif = d.hif := rfl
@[simp] theorem emit_i3c (o : Out) (d : Dev) : (emit o d).i3c = d.i3c := rfl
@[simp] theorem emit_cnt (o : Out) (d : Dev) : (emit o d).cnt = d.cnt := rfl
@[simp] theorem emit_hwd (o : Out) (d : Dev) : (emit o d).hwd = d.hwd := rfl
@[simp] theorem emit_banks (o : Out) (d : Dev) : (emit o d).banks = d.banks := rfl
@[simp] theorem emit_vlt (o : Out) (d : Dev) : (emit o d).vlt = d.vlt := rfl
@[simp] theorem emit_sys (o : Out) (d : Dev) : (emit o d).sys = d.sys := rfl
@[simp] theorem emit_ports (o : Out) (d : Dev) : (emit o d).ports = d.ports := rfl
@[simp] theorem emit_head (o : Out) (d : Dev) : (emit o d).head = d.head := rfl
@[simp] theorem emit_cross (o : Out) (d : Dev) : (emit o d).cross = d.cross := rfl
@[simp] theorem emit_d2d (o : Out) (d : Dev) : (emit o d).d2d = d.d2d := rfl
@[simp] theorem emit_srcCache (o : Out) (d : Dev) : (emit o d).srcCache = d.srcCache := rfl
@[simp] theorem emit_tab (o : Out) (d : Dev) : (emit o d).tab = d.tab := rfl
@[simp] theorem emit_srch (o : Out) (d : Dev) : (emit o d).srch = d.srch := rfl
@[simp] theorem emit_spn (o : Out) (d : Dev) : (emit o d).spn = d.spn := rfl
@[simp] theorem emit_disp (o : Out) (d : Dev) : (emit o d).disp = d.disp := rfl
@[simp] theorem emit_epc (o : Out) (d : Dev) : (emit o d).epc = d.epc := rfl
@[simp] theorem emit_chk (o : Out) (d : Dev) : (emit o d).chk = d.chk := rfl
@[simp] theorem emit_tm (o : Out) (d : Dev) : (emit o d).tm = d.tm := rfl
@[simp] theorem emit_ctlQ (o : Out) (d : Dev) : (emit o d).ctlQ = d.ctlQ := rfl
@[simp] theorem emit_hbm (o : Out) (d : Dev) : (emit o d).hbm = d.hbm := rfl
@[simp] theorem emit_fab (o : Out) (d : Dev) : (emit o d).fab = d.fab := rfl
@[simp] theorem emit_svc (o : Out) (d : Dev) : (emit o d).svc = d.svc := rfl

@[simp] theorem setPass_faces (n : Nat) (p : Pass) (d : Dev) : (setPass n p d).faces = d.faces := rfl
@[simp] theorem setPass_flds (n : Nat) (p : Pass) (d : Dev) : (setPass n p d).flds = d.flds := rfl
@[simp] theorem setPass_ctrs (n : Nat) (p : Pass) (d : Dev) : (setPass n p d).ctrs = d.ctrs := rfl
@[simp] theorem setPass_drops (n : Nat) (p : Pass) (d : Dev) : (setPass n p d).drops = d.drops := rfl
@[simp] theorem setPass_perf (n : Nat) (p : Pass) (d : Dev) : (setPass n p d).perf = d.perf := rfl
@[simp] theorem setPass_staged (n : Nat) (p : Pass) (d : Dev) : (setPass n p d).staged = d.staged := rfl
@[simp] theorem setPass_snaps (n : Nat) (p : Pass) (d : Dev) : (setPass n p d).snaps = d.snaps := rfl
@[simp] theorem setPass_out (n : Nat) (p : Pass) (d : Dev) : (setPass n p d).out = d.out := rfl
@[simp] theorem setPass_freeCtr (n : Nat) (p : Pass) (d : Dev) : (setPass n p d).freeCtr = d.freeCtr := rfl
@[simp] theorem setPass_lastErr (n : Nat) (p : Pass) (d : Dev) : (setPass n p d).lastErr = d.lastErr := rfl
@[simp] theorem setPass_mono (n : Nat) (p : Pass) (d : Dev) : (setPass n p d).mono = d.mono := rfl
@[simp] theorem setPass_evt (n : Nat) (p : Pass) (d : Dev) : (setPass n p d).evt = d.evt := rfl
@[simp] theorem setPass_aon (n : Nat) (p : Pass) (d : Dev) : (setPass n p d).aon = d.aon := rfl
@[simp] theorem setPass_hif (n : Nat) (p : Pass) (d : Dev) : (setPass n p d).hif = d.hif := rfl
@[simp] theorem setPass_i3c (n : Nat) (p : Pass) (d : Dev) : (setPass n p d).i3c = d.i3c := rfl
@[simp] theorem setPass_cnt (n : Nat) (p : Pass) (d : Dev) : (setPass n p d).cnt = d.cnt := rfl
@[simp] theorem setPass_hwd (n : Nat) (p : Pass) (d : Dev) : (setPass n p d).hwd = d.hwd := rfl
@[simp] theorem setPass_banks (n : Nat) (p : Pass) (d : Dev) : (setPass n p d).banks = d.banks := rfl
@[simp] theorem setPass_vlt (n : Nat) (p : Pass) (d : Dev) : (setPass n p d).vlt = d.vlt := rfl
@[simp] theorem setPass_sys (n : Nat) (p : Pass) (d : Dev) : (setPass n p d).sys = d.sys := rfl
@[simp] theorem setPass_ports (n : Nat) (p : Pass) (d : Dev) : (setPass n p d).ports = d.ports := rfl
@[simp] theorem setPass_head (n : Nat) (p : Pass) (d : Dev) : (setPass n p d).head = { d.head with passes := ins d.head.passes n p } := rfl
@[simp] theorem setPass_cross (n : Nat) (p : Pass) (d : Dev) : (setPass n p d).cross = d.cross := rfl
@[simp] theorem setPass_d2d (n : Nat) (p : Pass) (d : Dev) : (setPass n p d).d2d = d.d2d := rfl
@[simp] theorem setPass_srcCache (n : Nat) (p : Pass) (d : Dev) : (setPass n p d).srcCache = d.srcCache := rfl
@[simp] theorem setPass_tab (n : Nat) (p : Pass) (d : Dev) : (setPass n p d).tab = d.tab := rfl
@[simp] theorem setPass_srch (n : Nat) (p : Pass) (d : Dev) : (setPass n p d).srch = d.srch := rfl
@[simp] theorem setPass_spn (n : Nat) (p : Pass) (d : Dev) : (setPass n p d).spn = d.spn := rfl
@[simp] theorem setPass_disp (n : Nat) (p : Pass) (d : Dev) : (setPass n p d).disp = d.disp := rfl
@[simp] theorem setPass_epc (n : Nat) (p : Pass) (d : Dev) : (setPass n p d).epc = d.epc := rfl
@[simp] theorem setPass_chk (n : Nat) (p : Pass) (d : Dev) : (setPass n p d).chk = d.chk := rfl
@[simp] theorem setPass_tm (n : Nat) (p : Pass) (d : Dev) : (setPass n p d).tm = d.tm := rfl
@[simp] theorem setPass_ctlQ (n : Nat) (p : Pass) (d : Dev) : (setPass n p d).ctlQ = d.ctlQ := rfl
@[simp] theorem setPass_hbm (n : Nat) (p : Pass) (d : Dev) : (setPass n p d).hbm = d.hbm := rfl
@[simp] theorem setPass_fab (n : Nat) (p : Pass) (d : Dev) : (setPass n p d).fab = d.fab := rfl
@[simp] theorem setPass_svc (n : Nat) (p : Pass) (d : Dev) : (setPass n p d).svc = d.svc := rfl

@[simp] theorem setFifo_faces (k : Nat) (l : List InFrame) (d : Dev) : (setFifo k l d).faces = d.faces := rfl
@[simp] theorem setFifo_flds (k : Nat) (l : List InFrame) (d : Dev) : (setFifo k l d).flds = d.flds := rfl
@[simp] theorem setFifo_ctrs (k : Nat) (l : List InFrame) (d : Dev) : (setFifo k l d).ctrs = d.ctrs := rfl
@[simp] theorem setFifo_drops (k : Nat) (l : List InFrame) (d : Dev) : (setFifo k l d).drops = d.drops := rfl
@[simp] theorem setFifo_perf (k : Nat) (l : List InFrame) (d : Dev) : (setFifo k l d).perf = d.perf := rfl
@[simp] theorem setFifo_staged (k : Nat) (l : List InFrame) (d : Dev) : (setFifo k l d).staged = d.staged := rfl
@[simp] theorem setFifo_snaps (k : Nat) (l : List InFrame) (d : Dev) : (setFifo k l d).snaps = d.snaps := rfl
@[simp] theorem setFifo_out (k : Nat) (l : List InFrame) (d : Dev) : (setFifo k l d).out = d.out := rfl
@[simp] theorem setFifo_freeCtr (k : Nat) (l : List InFrame) (d : Dev) : (setFifo k l d).freeCtr = d.freeCtr := rfl
@[simp] theorem setFifo_lastErr (k : Nat) (l : List InFrame) (d : Dev) : (setFifo k l d).lastErr = d.lastErr := rfl
@[simp] theorem setFifo_mono (k : Nat) (l : List InFrame) (d : Dev) : (setFifo k l d).mono = d.mono := rfl
@[simp] theorem setFifo_evt (k : Nat) (l : List InFrame) (d : Dev) : (setFifo k l d).evt = d.evt := rfl
@[simp] theorem setFifo_aon (k : Nat) (l : List InFrame) (d : Dev) : (setFifo k l d).aon = d.aon := rfl
@[simp] theorem setFifo_hif (k : Nat) (l : List InFrame) (d : Dev) : (setFifo k l d).hif = d.hif := rfl
@[simp] theorem setFifo_i3c (k : Nat) (l : List InFrame) (d : Dev) : (setFifo k l d).i3c = d.i3c := rfl
@[simp] theorem setFifo_cnt (k : Nat) (l : List InFrame) (d : Dev) : (setFifo k l d).cnt = d.cnt := rfl
@[simp] theorem setFifo_hwd (k : Nat) (l : List InFrame) (d : Dev) : (setFifo k l d).hwd = d.hwd := rfl
@[simp] theorem setFifo_banks (k : Nat) (l : List InFrame) (d : Dev) : (setFifo k l d).banks = d.banks := rfl
@[simp] theorem setFifo_vlt (k : Nat) (l : List InFrame) (d : Dev) : (setFifo k l d).vlt = d.vlt := rfl
@[simp] theorem setFifo_sys (k : Nat) (l : List InFrame) (d : Dev) : (setFifo k l d).sys = d.sys := rfl
@[simp] theorem setFifo_ports (k : Nat) (l : List InFrame) (d : Dev) : (setFifo k l d).ports = d.ports := rfl
@[simp] theorem setFifo_head (k : Nat) (l : List InFrame) (d : Dev) : (setFifo k l d).head = { d.head with fifos := put d.head.fifos k [] l } := rfl
@[simp] theorem setFifo_cross (k : Nat) (l : List InFrame) (d : Dev) : (setFifo k l d).cross = d.cross := rfl
@[simp] theorem setFifo_d2d (k : Nat) (l : List InFrame) (d : Dev) : (setFifo k l d).d2d = d.d2d := rfl
@[simp] theorem setFifo_srcCache (k : Nat) (l : List InFrame) (d : Dev) : (setFifo k l d).srcCache = d.srcCache := rfl
@[simp] theorem setFifo_tab (k : Nat) (l : List InFrame) (d : Dev) : (setFifo k l d).tab = d.tab := rfl
@[simp] theorem setFifo_srch (k : Nat) (l : List InFrame) (d : Dev) : (setFifo k l d).srch = d.srch := rfl
@[simp] theorem setFifo_spn (k : Nat) (l : List InFrame) (d : Dev) : (setFifo k l d).spn = d.spn := rfl
@[simp] theorem setFifo_disp (k : Nat) (l : List InFrame) (d : Dev) : (setFifo k l d).disp = d.disp := rfl
@[simp] theorem setFifo_epc (k : Nat) (l : List InFrame) (d : Dev) : (setFifo k l d).epc = d.epc := rfl
@[simp] theorem setFifo_chk (k : Nat) (l : List InFrame) (d : Dev) : (setFifo k l d).chk = d.chk := rfl
@[simp] theorem setFifo_tm (k : Nat) (l : List InFrame) (d : Dev) : (setFifo k l d).tm = d.tm := rfl
@[simp] theorem setFifo_ctlQ (k : Nat) (l : List InFrame) (d : Dev) : (setFifo k l d).ctlQ = d.ctlQ := rfl
@[simp] theorem setFifo_hbm (k : Nat) (l : List InFrame) (d : Dev) : (setFifo k l d).hbm = d.hbm := rfl
@[simp] theorem setFifo_fab (k : Nat) (l : List InFrame) (d : Dev) : (setFifo k l d).fab = d.fab := rfl
@[simp] theorem setFifo_svc (k : Nat) (l : List InFrame) (d : Dev) : (setFifo k l d).svc = d.svc := rfl

@[simp] theorem setPort_faces (n : Nat) (x : PortSt) (d : Dev) : (setPort n x d).faces = d.faces := rfl
@[simp] theorem setPort_flds (n : Nat) (x : PortSt) (d : Dev) : (setPort n x d).flds = d.flds := rfl
@[simp] theorem setPort_ctrs (n : Nat) (x : PortSt) (d : Dev) : (setPort n x d).ctrs = d.ctrs := rfl
@[simp] theorem setPort_drops (n : Nat) (x : PortSt) (d : Dev) : (setPort n x d).drops = d.drops := rfl
@[simp] theorem setPort_perf (n : Nat) (x : PortSt) (d : Dev) : (setPort n x d).perf = d.perf := rfl
@[simp] theorem setPort_staged (n : Nat) (x : PortSt) (d : Dev) : (setPort n x d).staged = d.staged := rfl
@[simp] theorem setPort_snaps (n : Nat) (x : PortSt) (d : Dev) : (setPort n x d).snaps = d.snaps := rfl
@[simp] theorem setPort_out (n : Nat) (x : PortSt) (d : Dev) : (setPort n x d).out = d.out := rfl
@[simp] theorem setPort_freeCtr (n : Nat) (x : PortSt) (d : Dev) : (setPort n x d).freeCtr = d.freeCtr := rfl
@[simp] theorem setPort_lastErr (n : Nat) (x : PortSt) (d : Dev) : (setPort n x d).lastErr = d.lastErr := rfl
@[simp] theorem setPort_mono (n : Nat) (x : PortSt) (d : Dev) : (setPort n x d).mono = d.mono := rfl
@[simp] theorem setPort_evt (n : Nat) (x : PortSt) (d : Dev) : (setPort n x d).evt = d.evt := rfl
@[simp] theorem setPort_aon (n : Nat) (x : PortSt) (d : Dev) : (setPort n x d).aon = d.aon := rfl
@[simp] theorem setPort_hif (n : Nat) (x : PortSt) (d : Dev) : (setPort n x d).hif = d.hif := rfl
@[simp] theorem setPort_i3c (n : Nat) (x : PortSt) (d : Dev) : (setPort n x d).i3c = d.i3c := rfl
@[simp] theorem setPort_cnt (n : Nat) (x : PortSt) (d : Dev) : (setPort n x d).cnt = d.cnt := rfl
@[simp] theorem setPort_hwd (n : Nat) (x : PortSt) (d : Dev) : (setPort n x d).hwd = d.hwd := rfl
@[simp] theorem setPort_banks (n : Nat) (x : PortSt) (d : Dev) : (setPort n x d).banks = d.banks := rfl
@[simp] theorem setPort_vlt (n : Nat) (x : PortSt) (d : Dev) : (setPort n x d).vlt = d.vlt := rfl
@[simp] theorem setPort_sys (n : Nat) (x : PortSt) (d : Dev) : (setPort n x d).sys = d.sys := rfl
@[simp] theorem setPort_ports (n : Nat) (x : PortSt) (d : Dev) : (setPort n x d).ports = put d.ports n {} x := rfl
@[simp] theorem setPort_head (n : Nat) (x : PortSt) (d : Dev) : (setPort n x d).head = d.head := rfl
@[simp] theorem setPort_cross (n : Nat) (x : PortSt) (d : Dev) : (setPort n x d).cross = d.cross := rfl
@[simp] theorem setPort_d2d (n : Nat) (x : PortSt) (d : Dev) : (setPort n x d).d2d = d.d2d := rfl
@[simp] theorem setPort_srcCache (n : Nat) (x : PortSt) (d : Dev) : (setPort n x d).srcCache = d.srcCache := rfl
@[simp] theorem setPort_tab (n : Nat) (x : PortSt) (d : Dev) : (setPort n x d).tab = d.tab := rfl
@[simp] theorem setPort_srch (n : Nat) (x : PortSt) (d : Dev) : (setPort n x d).srch = d.srch := rfl
@[simp] theorem setPort_spn (n : Nat) (x : PortSt) (d : Dev) : (setPort n x d).spn = d.spn := rfl
@[simp] theorem setPort_disp (n : Nat) (x : PortSt) (d : Dev) : (setPort n x d).disp = d.disp := rfl
@[simp] theorem setPort_epc (n : Nat) (x : PortSt) (d : Dev) : (setPort n x d).epc = d.epc := rfl
@[simp] theorem setPort_chk (n : Nat) (x : PortSt) (d : Dev) : (setPort n x d).chk = d.chk := rfl
@[simp] theorem setPort_tm (n : Nat) (x : PortSt) (d : Dev) : (setPort n x d).tm = d.tm := rfl
@[simp] theorem setPort_ctlQ (n : Nat) (x : PortSt) (d : Dev) : (setPort n x d).ctlQ = d.ctlQ := rfl
@[simp] theorem setPort_hbm (n : Nat) (x : PortSt) (d : Dev) : (setPort n x d).hbm = d.hbm := rfl
@[simp] theorem setPort_fab (n : Nat) (x : PortSt) (d : Dev) : (setPort n x d).fab = d.fab := rfl
@[simp] theorem setPort_svc (n : Nat) (x : PortSt) (d : Dev) : (setPort n x d).svc = d.svc := rfl

@[simp] theorem setCluster_faces (c : Nat) (x : Cluster) (d : Dev) : (setCluster c x d).faces = d.faces := rfl
@[simp] theorem setCluster_flds (c : Nat) (x : Cluster) (d : Dev) : (setCluster c x d).flds = d.flds := rfl
@[simp] theorem setCluster_ctrs (c : Nat) (x : Cluster) (d : Dev) : (setCluster c x d).ctrs = d.ctrs := rfl
@[simp] theorem setCluster_drops (c : Nat) (x : Cluster) (d : Dev) : (setCluster c x d).drops = d.drops := rfl
@[simp] theorem setCluster_perf (c : Nat) (x : Cluster) (d : Dev) : (setCluster c x d).perf = d.perf := rfl
@[simp] theorem setCluster_staged (c : Nat) (x : Cluster) (d : Dev) : (setCluster c x d).staged = d.staged := rfl
@[simp] theorem setCluster_snaps (c : Nat) (x : Cluster) (d : Dev) : (setCluster c x d).snaps = d.snaps := rfl
@[simp] theorem setCluster_out (c : Nat) (x : Cluster) (d : Dev) : (setCluster c x d).out = d.out := rfl
@[simp] theorem setCluster_freeCtr (c : Nat) (x : Cluster) (d : Dev) : (setCluster c x d).freeCtr = d.freeCtr := rfl
@[simp] theorem setCluster_lastErr (c : Nat) (x : Cluster) (d : Dev) : (setCluster c x d).lastErr = d.lastErr := rfl
@[simp] theorem setCluster_mono (c : Nat) (x : Cluster) (d : Dev) : (setCluster c x d).mono = d.mono := rfl
@[simp] theorem setCluster_evt (c : Nat) (x : Cluster) (d : Dev) : (setCluster c x d).evt = d.evt := rfl
@[simp] theorem setCluster_aon (c : Nat) (x : Cluster) (d : Dev) : (setCluster c x d).aon = d.aon := rfl
@[simp] theorem setCluster_hif (c : Nat) (x : Cluster) (d : Dev) : (setCluster c x d).hif = d.hif := rfl
@[simp] theorem setCluster_i3c (c : Nat) (x : Cluster) (d : Dev) : (setCluster c x d).i3c = d.i3c := rfl
@[simp] theorem setCluster_cnt (c : Nat) (x : Cluster) (d : Dev) : (setCluster c x d).cnt = d.cnt := rfl
@[simp] theorem setCluster_hwd (c : Nat) (x : Cluster) (d : Dev) : (setCluster c x d).hwd = d.hwd := rfl
@[simp] theorem setCluster_banks (c : Nat) (x : Cluster) (d : Dev) : (setCluster c x d).banks = d.banks := rfl
@[simp] theorem setCluster_vlt (c : Nat) (x : Cluster) (d : Dev) : (setCluster c x d).vlt = d.vlt := rfl
@[simp] theorem setCluster_sys (c : Nat) (x : Cluster) (d : Dev) : (setCluster c x d).sys = d.sys := rfl
@[simp] theorem setCluster_ports (c : Nat) (x : Cluster) (d : Dev) : (setCluster c x d).ports = d.ports := rfl
@[simp] theorem setCluster_head (c : Nat) (x : Cluster) (d : Dev) : (setCluster c x d).head = d.head := rfl
@[simp] theorem setCluster_cross (c : Nat) (x : Cluster) (d : Dev) : (setCluster c x d).cross = d.cross := rfl
@[simp] theorem setCluster_d2d (c : Nat) (x : Cluster) (d : Dev) : (setCluster c x d).d2d = d.d2d := rfl
@[simp] theorem setCluster_srcCache (c : Nat) (x : Cluster) (d : Dev) : (setCluster c x d).srcCache = d.srcCache := rfl
@[simp] theorem setCluster_tab (c : Nat) (x : Cluster) (d : Dev) : (setCluster c x d).tab = d.tab := rfl
@[simp] theorem setCluster_srch (c : Nat) (x : Cluster) (d : Dev) : (setCluster c x d).srch = d.srch := rfl
@[simp] theorem setCluster_spn (c : Nat) (x : Cluster) (d : Dev) : (setCluster c x d).spn = d.spn := rfl
@[simp] theorem setCluster_disp (c : Nat) (x : Cluster) (d : Dev) : (setCluster c x d).disp = { d.disp with clusters := put d.disp.clusters c {} x } := rfl
@[simp] theorem setCluster_epc (c : Nat) (x : Cluster) (d : Dev) : (setCluster c x d).epc = d.epc := rfl
@[simp] theorem setCluster_chk (c : Nat) (x : Cluster) (d : Dev) : (setCluster c x d).chk = d.chk := rfl
@[simp] theorem setCluster_tm (c : Nat) (x : Cluster) (d : Dev) : (setCluster c x d).tm = d.tm := rfl
@[simp] theorem setCluster_ctlQ (c : Nat) (x : Cluster) (d : Dev) : (setCluster c x d).ctlQ = d.ctlQ := rfl
@[simp] theorem setCluster_hbm (c : Nat) (x : Cluster) (d : Dev) : (setCluster c x d).hbm = d.hbm := rfl
@[simp] theorem setCluster_fab (c : Nat) (x : Cluster) (d : Dev) : (setCluster c x d).fab = d.fab := rfl
@[simp] theorem setCluster_svc (c : Nat) (x : Cluster) (d : Dev) : (setCluster c x d).svc = d.svc := rfl

@[simp] theorem setCq_faces (n : Nat) (c : CqState) (d : Dev) : (setCq n c d).faces = d.faces := rfl
@[simp] theorem setCq_flds (n : Nat) (c : CqState) (d : Dev) : (setCq n c d).flds = d.flds := rfl
@[simp] theorem setCq_ctrs (n : Nat) (c : CqState) (d : Dev) : (setCq n c d).ctrs = d.ctrs := rfl
@[simp] theorem setCq_drops (n : Nat) (c : CqState) (d : Dev) : (setCq n c d).drops = d.drops := rfl
@[simp] theorem setCq_perf (n : Nat) (c : CqState) (d : Dev) : (setCq n c d).perf = d.perf := rfl
@[simp] theorem setCq_staged (n : Nat) (c : CqState) (d : Dev) : (setCq n c d).staged = d.staged := rfl
@[simp] theorem setCq_snaps (n : Nat) (c : CqState) (d : Dev) : (setCq n c d).snaps = d.snaps := rfl
@[simp] theorem setCq_out (n : Nat) (c : CqState) (d : Dev) : (setCq n c d).out = d.out := rfl
@[simp] theorem setCq_freeCtr (n : Nat) (c : CqState) (d : Dev) : (setCq n c d).freeCtr = d.freeCtr := rfl
@[simp] theorem setCq_lastErr (n : Nat) (c : CqState) (d : Dev) : (setCq n c d).lastErr = d.lastErr := rfl
@[simp] theorem setCq_mono (n : Nat) (c : CqState) (d : Dev) : (setCq n c d).mono = d.mono := rfl
@[simp] theorem setCq_evt (n : Nat) (c : CqState) (d : Dev) : (setCq n c d).evt = d.evt := rfl
@[simp] theorem setCq_aon (n : Nat) (c : CqState) (d : Dev) : (setCq n c d).aon = d.aon := rfl
@[simp] theorem setCq_hif (n : Nat) (c : CqState) (d : Dev) : (setCq n c d).hif = { d.hif with cqs := put d.hif.cqs n {} c } := rfl
@[simp] theorem setCq_i3c (n : Nat) (c : CqState) (d : Dev) : (setCq n c d).i3c = d.i3c := rfl
@[simp] theorem setCq_cnt (n : Nat) (c : CqState) (d : Dev) : (setCq n c d).cnt = d.cnt := rfl
@[simp] theorem setCq_hwd (n : Nat) (c : CqState) (d : Dev) : (setCq n c d).hwd = d.hwd := rfl
@[simp] theorem setCq_banks (n : Nat) (c : CqState) (d : Dev) : (setCq n c d).banks = d.banks := rfl
@[simp] theorem setCq_vlt (n : Nat) (c : CqState) (d : Dev) : (setCq n c d).vlt = d.vlt := rfl
@[simp] theorem setCq_sys (n : Nat) (c : CqState) (d : Dev) : (setCq n c d).sys = d.sys := rfl
@[simp] theorem setCq_ports (n : Nat) (c : CqState) (d : Dev) : (setCq n c d).ports = d.ports := rfl
@[simp] theorem setCq_head (n : Nat) (c : CqState) (d : Dev) : (setCq n c d).head = d.head := rfl
@[simp] theorem setCq_cross (n : Nat) (c : CqState) (d : Dev) : (setCq n c d).cross = d.cross := rfl
@[simp] theorem setCq_d2d (n : Nat) (c : CqState) (d : Dev) : (setCq n c d).d2d = d.d2d := rfl
@[simp] theorem setCq_srcCache (n : Nat) (c : CqState) (d : Dev) : (setCq n c d).srcCache = d.srcCache := rfl
@[simp] theorem setCq_tab (n : Nat) (c : CqState) (d : Dev) : (setCq n c d).tab = d.tab := rfl
@[simp] theorem setCq_srch (n : Nat) (c : CqState) (d : Dev) : (setCq n c d).srch = d.srch := rfl
@[simp] theorem setCq_spn (n : Nat) (c : CqState) (d : Dev) : (setCq n c d).spn = d.spn := rfl
@[simp] theorem setCq_disp (n : Nat) (c : CqState) (d : Dev) : (setCq n c d).disp = d.disp := rfl
@[simp] theorem setCq_epc (n : Nat) (c : CqState) (d : Dev) : (setCq n c d).epc = d.epc := rfl
@[simp] theorem setCq_chk (n : Nat) (c : CqState) (d : Dev) : (setCq n c d).chk = d.chk := rfl
@[simp] theorem setCq_tm (n : Nat) (c : CqState) (d : Dev) : (setCq n c d).tm = d.tm := rfl
@[simp] theorem setCq_ctlQ (n : Nat) (c : CqState) (d : Dev) : (setCq n c d).ctlQ = d.ctlQ := rfl
@[simp] theorem setCq_hbm (n : Nat) (c : CqState) (d : Dev) : (setCq n c d).hbm = d.hbm := rfl
@[simp] theorem setCq_fab (n : Nat) (c : CqState) (d : Dev) : (setCq n c d).fab = d.fab := rfl
@[simp] theorem setCq_svc (n : Nat) (c : CqState) (d : Dev) : (setCq n c d).svc = d.svc := rfl

@[simp] theorem setRetained_faces (k v : Nat) (d : Dev) : (setRetained k v d).faces = d.faces := rfl
@[simp] theorem setRetained_flds (k v : Nat) (d : Dev) : (setRetained k v d).flds = d.flds := rfl
@[simp] theorem setRetained_ctrs (k v : Nat) (d : Dev) : (setRetained k v d).ctrs = d.ctrs := rfl
@[simp] theorem setRetained_drops (k v : Nat) (d : Dev) : (setRetained k v d).drops = d.drops := rfl
@[simp] theorem setRetained_perf (k v : Nat) (d : Dev) : (setRetained k v d).perf = d.perf := rfl
@[simp] theorem setRetained_staged (k v : Nat) (d : Dev) : (setRetained k v d).staged = d.staged := rfl
@[simp] theorem setRetained_snaps (k v : Nat) (d : Dev) : (setRetained k v d).snaps = d.snaps := rfl
@[simp] theorem setRetained_out (k v : Nat) (d : Dev) : (setRetained k v d).out = d.out := rfl
@[simp] theorem setRetained_freeCtr (k v : Nat) (d : Dev) : (setRetained k v d).freeCtr = d.freeCtr := rfl
@[simp] theorem setRetained_lastErr (k v : Nat) (d : Dev) : (setRetained k v d).lastErr = d.lastErr := rfl
@[simp] theorem setRetained_mono (k v : Nat) (d : Dev) : (setRetained k v d).mono = d.mono := rfl
@[simp] theorem setRetained_evt (k v : Nat) (d : Dev) : (setRetained k v d).evt = d.evt := rfl
@[simp] theorem setRetained_aon (k v : Nat) (d : Dev) : (setRetained k v d).aon = d.aon := rfl
@[simp] theorem setRetained_hif (k v : Nat) (d : Dev) : (setRetained k v d).hif = d.hif := rfl
@[simp] theorem setRetained_i3c (k v : Nat) (d : Dev) : (setRetained k v d).i3c = d.i3c := rfl
@[simp] theorem setRetained_cnt (k v : Nat) (d : Dev) : (setRetained k v d).cnt = d.cnt := rfl
@[simp] theorem setRetained_hwd (k v : Nat) (d : Dev) : (setRetained k v d).hwd = d.hwd := rfl
@[simp] theorem setRetained_banks (k v : Nat) (d : Dev) : (setRetained k v d).banks = { d.banks with retained := put d.banks.retained k 0 v } := rfl
@[simp] theorem setRetained_vlt (k v : Nat) (d : Dev) : (setRetained k v d).vlt = d.vlt := rfl
@[simp] theorem setRetained_sys (k v : Nat) (d : Dev) : (setRetained k v d).sys = d.sys := rfl
@[simp] theorem setRetained_ports (k v : Nat) (d : Dev) : (setRetained k v d).ports = d.ports := rfl
@[simp] theorem setRetained_head (k v : Nat) (d : Dev) : (setRetained k v d).head = d.head := rfl
@[simp] theorem setRetained_cross (k v : Nat) (d : Dev) : (setRetained k v d).cross = d.cross := rfl
@[simp] theorem setRetained_d2d (k v : Nat) (d : Dev) : (setRetained k v d).d2d = d.d2d := rfl
@[simp] theorem setRetained_srcCache (k v : Nat) (d : Dev) : (setRetained k v d).srcCache = d.srcCache := rfl
@[simp] theorem setRetained_tab (k v : Nat) (d : Dev) : (setRetained k v d).tab = d.tab := rfl
@[simp] theorem setRetained_srch (k v : Nat) (d : Dev) : (setRetained k v d).srch = d.srch := rfl
@[simp] theorem setRetained_spn (k v : Nat) (d : Dev) : (setRetained k v d).spn = d.spn := rfl
@[simp] theorem setRetained_disp (k v : Nat) (d : Dev) : (setRetained k v d).disp = d.disp := rfl
@[simp] theorem setRetained_epc (k v : Nat) (d : Dev) : (setRetained k v d).epc = d.epc := rfl
@[simp] theorem setRetained_chk (k v : Nat) (d : Dev) : (setRetained k v d).chk = d.chk := rfl
@[simp] theorem setRetained_tm (k v : Nat) (d : Dev) : (setRetained k v d).tm = d.tm := rfl
@[simp] theorem setRetained_ctlQ (k v : Nat) (d : Dev) : (setRetained k v d).ctlQ = d.ctlQ := rfl
@[simp] theorem setRetained_hbm (k v : Nat) (d : Dev) : (setRetained k v d).hbm = d.hbm := rfl
@[simp] theorem setRetained_fab (k v : Nat) (d : Dev) : (setRetained k v d).fab = d.fab := rfl
@[simp] theorem setRetained_svc (k v : Nat) (d : Dev) : (setRetained k v d).svc = d.svc := rfl

@[simp] theorem onChk_faces (f : Chk → Chk) (d : Dev) : (onChk f d).faces = d.faces := rfl
@[simp] theorem onChk_flds (f : Chk → Chk) (d : Dev) : (onChk f d).flds = d.flds := rfl
@[simp] theorem onChk_ctrs (f : Chk → Chk) (d : Dev) : (onChk f d).ctrs = d.ctrs := rfl
@[simp] theorem onChk_drops (f : Chk → Chk) (d : Dev) : (onChk f d).drops = d.drops := rfl
@[simp] theorem onChk_perf (f : Chk → Chk) (d : Dev) : (onChk f d).perf = d.perf := rfl
@[simp] theorem onChk_staged (f : Chk → Chk) (d : Dev) : (onChk f d).staged = d.staged := rfl
@[simp] theorem onChk_snaps (f : Chk → Chk) (d : Dev) : (onChk f d).snaps = d.snaps := rfl
@[simp] theorem onChk_out (f : Chk → Chk) (d : Dev) : (onChk f d).out = d.out := rfl
@[simp] theorem onChk_freeCtr (f : Chk → Chk) (d : Dev) : (onChk f d).freeCtr = d.freeCtr := rfl
@[simp] theorem onChk_lastErr (f : Chk → Chk) (d : Dev) : (onChk f d).lastErr = d.lastErr := rfl
@[simp] theorem onChk_mono (f : Chk → Chk) (d : Dev) : (onChk f d).mono = d.mono := rfl
@[simp] theorem onChk_evt (f : Chk → Chk) (d : Dev) : (onChk f d).evt = d.evt := rfl
@[simp] theorem onChk_aon (f : Chk → Chk) (d : Dev) : (onChk f d).aon = d.aon := rfl
@[simp] theorem onChk_hif (f : Chk → Chk) (d : Dev) : (onChk f d).hif = d.hif := rfl
@[simp] theorem onChk_i3c (f : Chk → Chk) (d : Dev) : (onChk f d).i3c = d.i3c := rfl
@[simp] theorem onChk_cnt (f : Chk → Chk) (d : Dev) : (onChk f d).cnt = d.cnt := rfl
@[simp] theorem onChk_hwd (f : Chk → Chk) (d : Dev) : (onChk f d).hwd = d.hwd := rfl
@[simp] theorem onChk_banks (f : Chk → Chk) (d : Dev) : (onChk f d).banks = d.banks := rfl
@[simp] theorem onChk_vlt (f : Chk → Chk) (d : Dev) : (onChk f d).vlt = d.vlt := rfl
@[simp] theorem onChk_sys (f : Chk → Chk) (d : Dev) : (onChk f d).sys = d.sys := rfl
@[simp] theorem onChk_ports (f : Chk → Chk) (d : Dev) : (onChk f d).ports = d.ports := rfl
@[simp] theorem onChk_head (f : Chk → Chk) (d : Dev) : (onChk f d).head = d.head := rfl
@[simp] theorem onChk_cross (f : Chk → Chk) (d : Dev) : (onChk f d).cross = d.cross := rfl
@[simp] theorem onChk_d2d (f : Chk → Chk) (d : Dev) : (onChk f d).d2d = d.d2d := rfl
@[simp] theorem onChk_srcCache (f : Chk → Chk) (d : Dev) : (onChk f d).srcCache = d.srcCache := rfl
@[simp] theorem onChk_tab (f : Chk → Chk) (d : Dev) : (onChk f d).tab = d.tab := rfl
@[simp] theorem onChk_srch (f : Chk → Chk) (d : Dev) : (onChk f d).srch = d.srch := rfl
@[simp] theorem onChk_spn (f : Chk → Chk) (d : Dev) : (onChk f d).spn = d.spn := rfl
@[simp] theorem onChk_disp (f : Chk → Chk) (d : Dev) : (onChk f d).disp = d.disp := rfl
@[simp] theorem onChk_epc (f : Chk → Chk) (d : Dev) : (onChk f d).epc = d.epc := rfl
@[simp] theorem onChk_chk (f : Chk → Chk) (d : Dev) : (onChk f d).chk = f d.chk := rfl
@[simp] theorem onChk_tm (f : Chk → Chk) (d : Dev) : (onChk f d).tm = d.tm := rfl
@[simp] theorem onChk_ctlQ (f : Chk → Chk) (d : Dev) : (onChk f d).ctlQ = d.ctlQ := rfl
@[simp] theorem onChk_hbm (f : Chk → Chk) (d : Dev) : (onChk f d).hbm = d.hbm := rfl
@[simp] theorem onChk_fab (f : Chk → Chk) (d : Dev) : (onChk f d).fab = d.fab := rfl
@[simp] theorem onChk_svc (f : Chk → Chk) (d : Dev) : (onChk f d).svc = d.svc := rfl

@[simp] theorem onSys_faces (f : Sys → Sys) (d : Dev) : (onSys f d).faces = d.faces := rfl
@[simp] theorem onSys_flds (f : Sys → Sys) (d : Dev) : (onSys f d).flds = d.flds := rfl
@[simp] theorem onSys_ctrs (f : Sys → Sys) (d : Dev) : (onSys f d).ctrs = d.ctrs := rfl
@[simp] theorem onSys_drops (f : Sys → Sys) (d : Dev) : (onSys f d).drops = d.drops := rfl
@[simp] theorem onSys_perf (f : Sys → Sys) (d : Dev) : (onSys f d).perf = d.perf := rfl
@[simp] theorem onSys_staged (f : Sys → Sys) (d : Dev) : (onSys f d).staged = d.staged := rfl
@[simp] theorem onSys_snaps (f : Sys → Sys) (d : Dev) : (onSys f d).snaps = d.snaps := rfl
@[simp] theorem onSys_out (f : Sys → Sys) (d : Dev) : (onSys f d).out = d.out := rfl
@[simp] theorem onSys_freeCtr (f : Sys → Sys) (d : Dev) : (onSys f d).freeCtr = d.freeCtr := rfl
@[simp] theorem onSys_lastErr (f : Sys → Sys) (d : Dev) : (onSys f d).lastErr = d.lastErr := rfl
@[simp] theorem onSys_mono (f : Sys → Sys) (d : Dev) : (onSys f d).mono = d.mono := rfl
@[simp] theorem onSys_evt (f : Sys → Sys) (d : Dev) : (onSys f d).evt = d.evt := rfl
@[simp] theorem onSys_aon (f : Sys → Sys) (d : Dev) : (onSys f d).aon = d.aon := rfl
@[simp] theorem onSys_hif (f : Sys → Sys) (d : Dev) : (onSys f d).hif = d.hif := rfl
@[simp] theorem onSys_i3c (f : Sys → Sys) (d : Dev) : (onSys f d).i3c = d.i3c := rfl
@[simp] theorem onSys_cnt (f : Sys → Sys) (d : Dev) : (onSys f d).cnt = d.cnt := rfl
@[simp] theorem onSys_hwd (f : Sys → Sys) (d : Dev) : (onSys f d).hwd = d.hwd := rfl
@[simp] theorem onSys_banks (f : Sys → Sys) (d : Dev) : (onSys f d).banks = d.banks := rfl
@[simp] theorem onSys_vlt (f : Sys → Sys) (d : Dev) : (onSys f d).vlt = d.vlt := rfl
@[simp] theorem onSys_sys (f : Sys → Sys) (d : Dev) : (onSys f d).sys = f d.sys := rfl
@[simp] theorem onSys_ports (f : Sys → Sys) (d : Dev) : (onSys f d).ports = d.ports := rfl
@[simp] theorem onSys_head (f : Sys → Sys) (d : Dev) : (onSys f d).head = d.head := rfl
@[simp] theorem onSys_cross (f : Sys → Sys) (d : Dev) : (onSys f d).cross = d.cross := rfl
@[simp] theorem onSys_d2d (f : Sys → Sys) (d : Dev) : (onSys f d).d2d = d.d2d := rfl
@[simp] theorem onSys_srcCache (f : Sys → Sys) (d : Dev) : (onSys f d).srcCache = d.srcCache := rfl
@[simp] theorem onSys_tab (f : Sys → Sys) (d : Dev) : (onSys f d).tab = d.tab := rfl
@[simp] theorem onSys_srch (f : Sys → Sys) (d : Dev) : (onSys f d).srch = d.srch := rfl
@[simp] theorem onSys_spn (f : Sys → Sys) (d : Dev) : (onSys f d).spn = d.spn := rfl
@[simp] theorem onSys_disp (f : Sys → Sys) (d : Dev) : (onSys f d).disp = d.disp := rfl
@[simp] theorem onSys_epc (f : Sys → Sys) (d : Dev) : (onSys f d).epc = d.epc := rfl
@[simp] theorem onSys_chk (f : Sys → Sys) (d : Dev) : (onSys f d).chk = d.chk := rfl
@[simp] theorem onSys_tm (f : Sys → Sys) (d : Dev) : (onSys f d).tm = d.tm := rfl
@[simp] theorem onSys_ctlQ (f : Sys → Sys) (d : Dev) : (onSys f d).ctlQ = d.ctlQ := rfl
@[simp] theorem onSys_hbm (f : Sys → Sys) (d : Dev) : (onSys f d).hbm = d.hbm := rfl
@[simp] theorem onSys_fab (f : Sys → Sys) (d : Dev) : (onSys f d).fab = d.fab := rfl
@[simp] theorem onSys_svc (f : Sys → Sys) (d : Dev) : (onSys f d).svc = d.svc := rfl

@[simp] theorem onCnt_faces (f : Cnt → Cnt) (d : Dev) : (onCnt f d).faces = d.faces := rfl
@[simp] theorem onCnt_flds (f : Cnt → Cnt) (d : Dev) : (onCnt f d).flds = d.flds := rfl
@[simp] theorem onCnt_ctrs (f : Cnt → Cnt) (d : Dev) : (onCnt f d).ctrs = d.ctrs := rfl
@[simp] theorem onCnt_drops (f : Cnt → Cnt) (d : Dev) : (onCnt f d).drops = d.drops := rfl
@[simp] theorem onCnt_perf (f : Cnt → Cnt) (d : Dev) : (onCnt f d).perf = d.perf := rfl
@[simp] theorem onCnt_staged (f : Cnt → Cnt) (d : Dev) : (onCnt f d).staged = d.staged := rfl
@[simp] theorem onCnt_snaps (f : Cnt → Cnt) (d : Dev) : (onCnt f d).snaps = d.snaps := rfl
@[simp] theorem onCnt_out (f : Cnt → Cnt) (d : Dev) : (onCnt f d).out = d.out := rfl
@[simp] theorem onCnt_freeCtr (f : Cnt → Cnt) (d : Dev) : (onCnt f d).freeCtr = d.freeCtr := rfl
@[simp] theorem onCnt_lastErr (f : Cnt → Cnt) (d : Dev) : (onCnt f d).lastErr = d.lastErr := rfl
@[simp] theorem onCnt_mono (f : Cnt → Cnt) (d : Dev) : (onCnt f d).mono = d.mono := rfl
@[simp] theorem onCnt_evt (f : Cnt → Cnt) (d : Dev) : (onCnt f d).evt = d.evt := rfl
@[simp] theorem onCnt_aon (f : Cnt → Cnt) (d : Dev) : (onCnt f d).aon = d.aon := rfl
@[simp] theorem onCnt_hif (f : Cnt → Cnt) (d : Dev) : (onCnt f d).hif = d.hif := rfl
@[simp] theorem onCnt_i3c (f : Cnt → Cnt) (d : Dev) : (onCnt f d).i3c = d.i3c := rfl
@[simp] theorem onCnt_cnt (f : Cnt → Cnt) (d : Dev) : (onCnt f d).cnt = f d.cnt := rfl
@[simp] theorem onCnt_hwd (f : Cnt → Cnt) (d : Dev) : (onCnt f d).hwd = d.hwd := rfl
@[simp] theorem onCnt_banks (f : Cnt → Cnt) (d : Dev) : (onCnt f d).banks = d.banks := rfl
@[simp] theorem onCnt_vlt (f : Cnt → Cnt) (d : Dev) : (onCnt f d).vlt = d.vlt := rfl
@[simp] theorem onCnt_sys (f : Cnt → Cnt) (d : Dev) : (onCnt f d).sys = d.sys := rfl
@[simp] theorem onCnt_ports (f : Cnt → Cnt) (d : Dev) : (onCnt f d).ports = d.ports := rfl
@[simp] theorem onCnt_head (f : Cnt → Cnt) (d : Dev) : (onCnt f d).head = d.head := rfl
@[simp] theorem onCnt_cross (f : Cnt → Cnt) (d : Dev) : (onCnt f d).cross = d.cross := rfl
@[simp] theorem onCnt_d2d (f : Cnt → Cnt) (d : Dev) : (onCnt f d).d2d = d.d2d := rfl
@[simp] theorem onCnt_srcCache (f : Cnt → Cnt) (d : Dev) : (onCnt f d).srcCache = d.srcCache := rfl
@[simp] theorem onCnt_tab (f : Cnt → Cnt) (d : Dev) : (onCnt f d).tab = d.tab := rfl
@[simp] theorem onCnt_srch (f : Cnt → Cnt) (d : Dev) : (onCnt f d).srch = d.srch := rfl
@[simp] theorem onCnt_spn (f : Cnt → Cnt) (d : Dev) : (onCnt f d).spn = d.spn := rfl
@[simp] theorem onCnt_disp (f : Cnt → Cnt) (d : Dev) : (onCnt f d).disp = d.disp := rfl
@[simp] theorem onCnt_epc (f : Cnt → Cnt) (d : Dev) : (onCnt f d).epc = d.epc := rfl
@[simp] theorem onCnt_chk (f : Cnt → Cnt) (d : Dev) : (onCnt f d).chk = d.chk := rfl
@[simp] theorem onCnt_tm (f : Cnt → Cnt) (d : Dev) : (onCnt f d).tm = d.tm := rfl
@[simp] theorem onCnt_ctlQ (f : Cnt → Cnt) (d : Dev) : (onCnt f d).ctlQ = d.ctlQ := rfl
@[simp] theorem onCnt_hbm (f : Cnt → Cnt) (d : Dev) : (onCnt f d).hbm = d.hbm := rfl
@[simp] theorem onCnt_fab (f : Cnt → Cnt) (d : Dev) : (onCnt f d).fab = d.fab := rfl
@[simp] theorem onCnt_svc (f : Cnt → Cnt) (d : Dev) : (onCnt f d).svc = d.svc := rfl

@[simp] theorem onD2d_faces (f : D2d → D2d) (d : Dev) : (onD2d f d).faces = d.faces := rfl
@[simp] theorem onD2d_flds (f : D2d → D2d) (d : Dev) : (onD2d f d).flds = d.flds := rfl
@[simp] theorem onD2d_ctrs (f : D2d → D2d) (d : Dev) : (onD2d f d).ctrs = d.ctrs := rfl
@[simp] theorem onD2d_drops (f : D2d → D2d) (d : Dev) : (onD2d f d).drops = d.drops := rfl
@[simp] theorem onD2d_perf (f : D2d → D2d) (d : Dev) : (onD2d f d).perf = d.perf := rfl
@[simp] theorem onD2d_staged (f : D2d → D2d) (d : Dev) : (onD2d f d).staged = d.staged := rfl
@[simp] theorem onD2d_snaps (f : D2d → D2d) (d : Dev) : (onD2d f d).snaps = d.snaps := rfl
@[simp] theorem onD2d_out (f : D2d → D2d) (d : Dev) : (onD2d f d).out = d.out := rfl
@[simp] theorem onD2d_freeCtr (f : D2d → D2d) (d : Dev) : (onD2d f d).freeCtr = d.freeCtr := rfl
@[simp] theorem onD2d_lastErr (f : D2d → D2d) (d : Dev) : (onD2d f d).lastErr = d.lastErr := rfl
@[simp] theorem onD2d_mono (f : D2d → D2d) (d : Dev) : (onD2d f d).mono = d.mono := rfl
@[simp] theorem onD2d_evt (f : D2d → D2d) (d : Dev) : (onD2d f d).evt = d.evt := rfl
@[simp] theorem onD2d_aon (f : D2d → D2d) (d : Dev) : (onD2d f d).aon = d.aon := rfl
@[simp] theorem onD2d_hif (f : D2d → D2d) (d : Dev) : (onD2d f d).hif = d.hif := rfl
@[simp] theorem onD2d_i3c (f : D2d → D2d) (d : Dev) : (onD2d f d).i3c = d.i3c := rfl
@[simp] theorem onD2d_cnt (f : D2d → D2d) (d : Dev) : (onD2d f d).cnt = d.cnt := rfl
@[simp] theorem onD2d_hwd (f : D2d → D2d) (d : Dev) : (onD2d f d).hwd = d.hwd := rfl
@[simp] theorem onD2d_banks (f : D2d → D2d) (d : Dev) : (onD2d f d).banks = d.banks := rfl
@[simp] theorem onD2d_vlt (f : D2d → D2d) (d : Dev) : (onD2d f d).vlt = d.vlt := rfl
@[simp] theorem onD2d_sys (f : D2d → D2d) (d : Dev) : (onD2d f d).sys = d.sys := rfl
@[simp] theorem onD2d_ports (f : D2d → D2d) (d : Dev) : (onD2d f d).ports = d.ports := rfl
@[simp] theorem onD2d_head (f : D2d → D2d) (d : Dev) : (onD2d f d).head = d.head := rfl
@[simp] theorem onD2d_cross (f : D2d → D2d) (d : Dev) : (onD2d f d).cross = d.cross := rfl
@[simp] theorem onD2d_d2d (f : D2d → D2d) (d : Dev) : (onD2d f d).d2d = f d.d2d := rfl
@[simp] theorem onD2d_srcCache (f : D2d → D2d) (d : Dev) : (onD2d f d).srcCache = d.srcCache := rfl
@[simp] theorem onD2d_tab (f : D2d → D2d) (d : Dev) : (onD2d f d).tab = d.tab := rfl
@[simp] theorem onD2d_srch (f : D2d → D2d) (d : Dev) : (onD2d f d).srch = d.srch := rfl
@[simp] theorem onD2d_spn (f : D2d → D2d) (d : Dev) : (onD2d f d).spn = d.spn := rfl
@[simp] theorem onD2d_disp (f : D2d → D2d) (d : Dev) : (onD2d f d).disp = d.disp := rfl
@[simp] theorem onD2d_epc (f : D2d → D2d) (d : Dev) : (onD2d f d).epc = d.epc := rfl
@[simp] theorem onD2d_chk (f : D2d → D2d) (d : Dev) : (onD2d f d).chk = d.chk := rfl
@[simp] theorem onD2d_tm (f : D2d → D2d) (d : Dev) : (onD2d f d).tm = d.tm := rfl
@[simp] theorem onD2d_ctlQ (f : D2d → D2d) (d : Dev) : (onD2d f d).ctlQ = d.ctlQ := rfl
@[simp] theorem onD2d_hbm (f : D2d → D2d) (d : Dev) : (onD2d f d).hbm = d.hbm := rfl
@[simp] theorem onD2d_fab (f : D2d → D2d) (d : Dev) : (onD2d f d).fab = d.fab := rfl
@[simp] theorem onD2d_svc (f : D2d → D2d) (d : Dev) : (onD2d f d).svc = d.svc := rfl

@[simp] theorem onEpc_faces (f : Epc → Epc) (d : Dev) : (onEpc f d).faces = d.faces := rfl
@[simp] theorem onEpc_flds (f : Epc → Epc) (d : Dev) : (onEpc f d).flds = d.flds := rfl
@[simp] theorem onEpc_ctrs (f : Epc → Epc) (d : Dev) : (onEpc f d).ctrs = d.ctrs := rfl
@[simp] theorem onEpc_drops (f : Epc → Epc) (d : Dev) : (onEpc f d).drops = d.drops := rfl
@[simp] theorem onEpc_perf (f : Epc → Epc) (d : Dev) : (onEpc f d).perf = d.perf := rfl
@[simp] theorem onEpc_staged (f : Epc → Epc) (d : Dev) : (onEpc f d).staged = d.staged := rfl
@[simp] theorem onEpc_snaps (f : Epc → Epc) (d : Dev) : (onEpc f d).snaps = d.snaps := rfl
@[simp] theorem onEpc_out (f : Epc → Epc) (d : Dev) : (onEpc f d).out = d.out := rfl
@[simp] theorem onEpc_freeCtr (f : Epc → Epc) (d : Dev) : (onEpc f d).freeCtr = d.freeCtr := rfl
@[simp] theorem onEpc_lastErr (f : Epc → Epc) (d : Dev) : (onEpc f d).lastErr = d.lastErr := rfl
@[simp] theorem onEpc_mono (f : Epc → Epc) (d : Dev) : (onEpc f d).mono = d.mono := rfl
@[simp] theorem onEpc_evt (f : Epc → Epc) (d : Dev) : (onEpc f d).evt = d.evt := rfl
@[simp] theorem onEpc_aon (f : Epc → Epc) (d : Dev) : (onEpc f d).aon = d.aon := rfl
@[simp] theorem onEpc_hif (f : Epc → Epc) (d : Dev) : (onEpc f d).hif = d.hif := rfl
@[simp] theorem onEpc_i3c (f : Epc → Epc) (d : Dev) : (onEpc f d).i3c = d.i3c := rfl
@[simp] theorem onEpc_cnt (f : Epc → Epc) (d : Dev) : (onEpc f d).cnt = d.cnt := rfl
@[simp] theorem onEpc_hwd (f : Epc → Epc) (d : Dev) : (onEpc f d).hwd = d.hwd := rfl
@[simp] theorem onEpc_banks (f : Epc → Epc) (d : Dev) : (onEpc f d).banks = d.banks := rfl
@[simp] theorem onEpc_vlt (f : Epc → Epc) (d : Dev) : (onEpc f d).vlt = d.vlt := rfl
@[simp] theorem onEpc_sys (f : Epc → Epc) (d : Dev) : (onEpc f d).sys = d.sys := rfl
@[simp] theorem onEpc_ports (f : Epc → Epc) (d : Dev) : (onEpc f d).ports = d.ports := rfl
@[simp] theorem onEpc_head (f : Epc → Epc) (d : Dev) : (onEpc f d).head = d.head := rfl
@[simp] theorem onEpc_cross (f : Epc → Epc) (d : Dev) : (onEpc f d).cross = d.cross := rfl
@[simp] theorem onEpc_d2d (f : Epc → Epc) (d : Dev) : (onEpc f d).d2d = d.d2d := rfl
@[simp] theorem onEpc_srcCache (f : Epc → Epc) (d : Dev) : (onEpc f d).srcCache = d.srcCache := rfl
@[simp] theorem onEpc_tab (f : Epc → Epc) (d : Dev) : (onEpc f d).tab = d.tab := rfl
@[simp] theorem onEpc_srch (f : Epc → Epc) (d : Dev) : (onEpc f d).srch = d.srch := rfl
@[simp] theorem onEpc_spn (f : Epc → Epc) (d : Dev) : (onEpc f d).spn = d.spn := rfl
@[simp] theorem onEpc_disp (f : Epc → Epc) (d : Dev) : (onEpc f d).disp = d.disp := rfl
@[simp] theorem onEpc_epc (f : Epc → Epc) (d : Dev) : (onEpc f d).epc = f d.epc := rfl
@[simp] theorem onEpc_chk (f : Epc → Epc) (d : Dev) : (onEpc f d).chk = d.chk := rfl
@[simp] theorem onEpc_tm (f : Epc → Epc) (d : Dev) : (onEpc f d).tm = d.tm := rfl
@[simp] theorem onEpc_ctlQ (f : Epc → Epc) (d : Dev) : (onEpc f d).ctlQ = d.ctlQ := rfl
@[simp] theorem onEpc_hbm (f : Epc → Epc) (d : Dev) : (onEpc f d).hbm = d.hbm := rfl
@[simp] theorem onEpc_fab (f : Epc → Epc) (d : Dev) : (onEpc f d).fab = d.fab := rfl
@[simp] theorem onEpc_svc (f : Epc → Epc) (d : Dev) : (onEpc f d).svc = d.svc := rfl

@[simp] theorem onEvt_faces (f : Evt → Evt) (d : Dev) : (onEvt f d).faces = d.faces := rfl
@[simp] theorem onEvt_flds (f : Evt → Evt) (d : Dev) : (onEvt f d).flds = d.flds := rfl
@[simp] theorem onEvt_ctrs (f : Evt → Evt) (d : Dev) : (onEvt f d).ctrs = d.ctrs := rfl
@[simp] theorem onEvt_drops (f : Evt → Evt) (d : Dev) : (onEvt f d).drops = d.drops := rfl
@[simp] theorem onEvt_perf (f : Evt → Evt) (d : Dev) : (onEvt f d).perf = d.perf := rfl
@[simp] theorem onEvt_staged (f : Evt → Evt) (d : Dev) : (onEvt f d).staged = d.staged := rfl
@[simp] theorem onEvt_snaps (f : Evt → Evt) (d : Dev) : (onEvt f d).snaps = d.snaps := rfl
@[simp] theorem onEvt_out (f : Evt → Evt) (d : Dev) : (onEvt f d).out = d.out := rfl
@[simp] theorem onEvt_freeCtr (f : Evt → Evt) (d : Dev) : (onEvt f d).freeCtr = d.freeCtr := rfl
@[simp] theorem onEvt_lastErr (f : Evt → Evt) (d : Dev) : (onEvt f d).lastErr = d.lastErr := rfl
@[simp] theorem onEvt_mono (f : Evt → Evt) (d : Dev) : (onEvt f d).mono = d.mono := rfl
@[simp] theorem onEvt_evt (f : Evt → Evt) (d : Dev) : (onEvt f d).evt = f d.evt := rfl
@[simp] theorem onEvt_aon (f : Evt → Evt) (d : Dev) : (onEvt f d).aon = d.aon := rfl
@[simp] theorem onEvt_hif (f : Evt → Evt) (d : Dev) : (onEvt f d).hif = d.hif := rfl
@[simp] theorem onEvt_i3c (f : Evt → Evt) (d : Dev) : (onEvt f d).i3c = d.i3c := rfl
@[simp] theorem onEvt_cnt (f : Evt → Evt) (d : Dev) : (onEvt f d).cnt = d.cnt := rfl
@[simp] theorem onEvt_hwd (f : Evt → Evt) (d : Dev) : (onEvt f d).hwd = d.hwd := rfl
@[simp] theorem onEvt_banks (f : Evt → Evt) (d : Dev) : (onEvt f d).banks = d.banks := rfl
@[simp] theorem onEvt_vlt (f : Evt → Evt) (d : Dev) : (onEvt f d).vlt = d.vlt := rfl
@[simp] theorem onEvt_sys (f : Evt → Evt) (d : Dev) : (onEvt f d).sys = d.sys := rfl
@[simp] theorem onEvt_ports (f : Evt → Evt) (d : Dev) : (onEvt f d).ports = d.ports := rfl
@[simp] theorem onEvt_head (f : Evt → Evt) (d : Dev) : (onEvt f d).head = d.head := rfl
@[simp] theorem onEvt_cross (f : Evt → Evt) (d : Dev) : (onEvt f d).cross = d.cross := rfl
@[simp] theorem onEvt_d2d (f : Evt → Evt) (d : Dev) : (onEvt f d).d2d = d.d2d := rfl
@[simp] theorem onEvt_srcCache (f : Evt → Evt) (d : Dev) : (onEvt f d).srcCache = d.srcCache := rfl
@[simp] theorem onEvt_tab (f : Evt → Evt) (d : Dev) : (onEvt f d).tab = d.tab := rfl
@[simp] theorem onEvt_srch (f : Evt → Evt) (d : Dev) : (onEvt f d).srch = d.srch := rfl
@[simp] theorem onEvt_spn (f : Evt → Evt) (d : Dev) : (onEvt f d).spn = d.spn := rfl
@[simp] theorem onEvt_disp (f : Evt → Evt) (d : Dev) : (onEvt f d).disp = d.disp := rfl
@[simp] theorem onEvt_epc (f : Evt → Evt) (d : Dev) : (onEvt f d).epc = d.epc := rfl
@[simp] theorem onEvt_chk (f : Evt → Evt) (d : Dev) : (onEvt f d).chk = d.chk := rfl
@[simp] theorem onEvt_tm (f : Evt → Evt) (d : Dev) : (onEvt f d).tm = d.tm := rfl
@[simp] theorem onEvt_ctlQ (f : Evt → Evt) (d : Dev) : (onEvt f d).ctlQ = d.ctlQ := rfl
@[simp] theorem onEvt_hbm (f : Evt → Evt) (d : Dev) : (onEvt f d).hbm = d.hbm := rfl
@[simp] theorem onEvt_fab (f : Evt → Evt) (d : Dev) : (onEvt f d).fab = d.fab := rfl
@[simp] theorem onEvt_svc (f : Evt → Evt) (d : Dev) : (onEvt f d).svc = d.svc := rfl

@[simp] theorem onAon_faces (f : Aon → Aon) (d : Dev) : (onAon f d).faces = d.faces := rfl
@[simp] theorem onAon_flds (f : Aon → Aon) (d : Dev) : (onAon f d).flds = d.flds := rfl
@[simp] theorem onAon_ctrs (f : Aon → Aon) (d : Dev) : (onAon f d).ctrs = d.ctrs := rfl
@[simp] theorem onAon_drops (f : Aon → Aon) (d : Dev) : (onAon f d).drops = d.drops := rfl
@[simp] theorem onAon_perf (f : Aon → Aon) (d : Dev) : (onAon f d).perf = d.perf := rfl
@[simp] theorem onAon_staged (f : Aon → Aon) (d : Dev) : (onAon f d).staged = d.staged := rfl
@[simp] theorem onAon_snaps (f : Aon → Aon) (d : Dev) : (onAon f d).snaps = d.snaps := rfl
@[simp] theorem onAon_out (f : Aon → Aon) (d : Dev) : (onAon f d).out = d.out := rfl
@[simp] theorem onAon_freeCtr (f : Aon → Aon) (d : Dev) : (onAon f d).freeCtr = d.freeCtr := rfl
@[simp] theorem onAon_lastErr (f : Aon → Aon) (d : Dev) : (onAon f d).lastErr = d.lastErr := rfl
@[simp] theorem onAon_mono (f : Aon → Aon) (d : Dev) : (onAon f d).mono = d.mono := rfl
@[simp] theorem onAon_evt (f : Aon → Aon) (d : Dev) : (onAon f d).evt = d.evt := rfl
@[simp] theorem onAon_aon (f : Aon → Aon) (d : Dev) : (onAon f d).aon = f d.aon := rfl
@[simp] theorem onAon_hif (f : Aon → Aon) (d : Dev) : (onAon f d).hif = d.hif := rfl
@[simp] theorem onAon_i3c (f : Aon → Aon) (d : Dev) : (onAon f d).i3c = d.i3c := rfl
@[simp] theorem onAon_cnt (f : Aon → Aon) (d : Dev) : (onAon f d).cnt = d.cnt := rfl
@[simp] theorem onAon_hwd (f : Aon → Aon) (d : Dev) : (onAon f d).hwd = d.hwd := rfl
@[simp] theorem onAon_banks (f : Aon → Aon) (d : Dev) : (onAon f d).banks = d.banks := rfl
@[simp] theorem onAon_vlt (f : Aon → Aon) (d : Dev) : (onAon f d).vlt = d.vlt := rfl
@[simp] theorem onAon_sys (f : Aon → Aon) (d : Dev) : (onAon f d).sys = d.sys := rfl
@[simp] theorem onAon_ports (f : Aon → Aon) (d : Dev) : (onAon f d).ports = d.ports := rfl
@[simp] theorem onAon_head (f : Aon → Aon) (d : Dev) : (onAon f d).head = d.head := rfl
@[simp] theorem onAon_cross (f : Aon → Aon) (d : Dev) : (onAon f d).cross = d.cross := rfl
@[simp] theorem onAon_d2d (f : Aon → Aon) (d : Dev) : (onAon f d).d2d = d.d2d := rfl
@[simp] theorem onAon_srcCache (f : Aon → Aon) (d : Dev) : (onAon f d).srcCache = d.srcCache := rfl
@[simp] theorem onAon_tab (f : Aon → Aon) (d : Dev) : (onAon f d).tab = d.tab := rfl
@[simp] theorem onAon_srch (f : Aon → Aon) (d : Dev) : (onAon f d).srch = d.srch := rfl
@[simp] theorem onAon_spn (f : Aon → Aon) (d : Dev) : (onAon f d).spn = d.spn := rfl
@[simp] theorem onAon_disp (f : Aon → Aon) (d : Dev) : (onAon f d).disp = d.disp := rfl
@[simp] theorem onAon_epc (f : Aon → Aon) (d : Dev) : (onAon f d).epc = d.epc := rfl
@[simp] theorem onAon_chk (f : Aon → Aon) (d : Dev) : (onAon f d).chk = d.chk := rfl
@[simp] theorem onAon_tm (f : Aon → Aon) (d : Dev) : (onAon f d).tm = d.tm := rfl
@[simp] theorem onAon_ctlQ (f : Aon → Aon) (d : Dev) : (onAon f d).ctlQ = d.ctlQ := rfl
@[simp] theorem onAon_hbm (f : Aon → Aon) (d : Dev) : (onAon f d).hbm = d.hbm := rfl
@[simp] theorem onAon_fab (f : Aon → Aon) (d : Dev) : (onAon f d).fab = d.fab := rfl
@[simp] theorem onAon_svc (f : Aon → Aon) (d : Dev) : (onAon f d).svc = d.svc := rfl

@[simp] theorem onFab_faces (f : Fab → Fab) (d : Dev) : (onFab f d).faces = d.faces := rfl
@[simp] theorem onFab_flds (f : Fab → Fab) (d : Dev) : (onFab f d).flds = d.flds := rfl
@[simp] theorem onFab_ctrs (f : Fab → Fab) (d : Dev) : (onFab f d).ctrs = d.ctrs := rfl
@[simp] theorem onFab_drops (f : Fab → Fab) (d : Dev) : (onFab f d).drops = d.drops := rfl
@[simp] theorem onFab_perf (f : Fab → Fab) (d : Dev) : (onFab f d).perf = d.perf := rfl
@[simp] theorem onFab_staged (f : Fab → Fab) (d : Dev) : (onFab f d).staged = d.staged := rfl
@[simp] theorem onFab_snaps (f : Fab → Fab) (d : Dev) : (onFab f d).snaps = d.snaps := rfl
@[simp] theorem onFab_out (f : Fab → Fab) (d : Dev) : (onFab f d).out = d.out := rfl
@[simp] theorem onFab_freeCtr (f : Fab → Fab) (d : Dev) : (onFab f d).freeCtr = d.freeCtr := rfl
@[simp] theorem onFab_lastErr (f : Fab → Fab) (d : Dev) : (onFab f d).lastErr = d.lastErr := rfl
@[simp] theorem onFab_mono (f : Fab → Fab) (d : Dev) : (onFab f d).mono = d.mono := rfl
@[simp] theorem onFab_evt (f : Fab → Fab) (d : Dev) : (onFab f d).evt = d.evt := rfl
@[simp] theorem onFab_aon (f : Fab → Fab) (d : Dev) : (onFab f d).aon = d.aon := rfl
@[simp] theorem onFab_hif (f : Fab → Fab) (d : Dev) : (onFab f d).hif = d.hif := rfl
@[simp] theorem onFab_i3c (f : Fab → Fab) (d : Dev) : (onFab f d).i3c = d.i3c := rfl
@[simp] theorem onFab_cnt (f : Fab → Fab) (d : Dev) : (onFab f d).cnt = d.cnt := rfl
@[simp] theorem onFab_hwd (f : Fab → Fab) (d : Dev) : (onFab f d).hwd = d.hwd := rfl
@[simp] theorem onFab_banks (f : Fab → Fab) (d : Dev) : (onFab f d).banks = d.banks := rfl
@[simp] theorem onFab_vlt (f : Fab → Fab) (d : Dev) : (onFab f d).vlt = d.vlt := rfl
@[simp] theorem onFab_sys (f : Fab → Fab) (d : Dev) : (onFab f d).sys = d.sys := rfl
@[simp] theorem onFab_ports (f : Fab → Fab) (d : Dev) : (onFab f d).ports = d.ports := rfl
@[simp] theorem onFab_head (f : Fab → Fab) (d : Dev) : (onFab f d).head = d.head := rfl
@[simp] theorem onFab_cross (f : Fab → Fab) (d : Dev) : (onFab f d).cross = d.cross := rfl
@[simp] theorem onFab_d2d (f : Fab → Fab) (d : Dev) : (onFab f d).d2d = d.d2d := rfl
@[simp] theorem onFab_srcCache (f : Fab → Fab) (d : Dev) : (onFab f d).srcCache = d.srcCache := rfl
@[simp] theorem onFab_tab (f : Fab → Fab) (d : Dev) : (onFab f d).tab = d.tab := rfl
@[simp] theorem onFab_srch (f : Fab → Fab) (d : Dev) : (onFab f d).srch = d.srch := rfl
@[simp] theorem onFab_spn (f : Fab → Fab) (d : Dev) : (onFab f d).spn = d.spn := rfl
@[simp] theorem onFab_disp (f : Fab → Fab) (d : Dev) : (onFab f d).disp = d.disp := rfl
@[simp] theorem onFab_epc (f : Fab → Fab) (d : Dev) : (onFab f d).epc = d.epc := rfl
@[simp] theorem onFab_chk (f : Fab → Fab) (d : Dev) : (onFab f d).chk = d.chk := rfl
@[simp] theorem onFab_tm (f : Fab → Fab) (d : Dev) : (onFab f d).tm = d.tm := rfl
@[simp] theorem onFab_ctlQ (f : Fab → Fab) (d : Dev) : (onFab f d).ctlQ = d.ctlQ := rfl
@[simp] theorem onFab_hbm (f : Fab → Fab) (d : Dev) : (onFab f d).hbm = d.hbm := rfl
@[simp] theorem onFab_fab (f : Fab → Fab) (d : Dev) : (onFab f d).fab = f d.fab := rfl
@[simp] theorem onFab_svc (f : Fab → Fab) (d : Dev) : (onFab f d).svc = d.svc := rfl

@[simp] theorem onHbm_faces (f : Hbm → Hbm) (d : Dev) : (onHbm f d).faces = d.faces := rfl
@[simp] theorem onHbm_flds (f : Hbm → Hbm) (d : Dev) : (onHbm f d).flds = d.flds := rfl
@[simp] theorem onHbm_ctrs (f : Hbm → Hbm) (d : Dev) : (onHbm f d).ctrs = d.ctrs := rfl
@[simp] theorem onHbm_drops (f : Hbm → Hbm) (d : Dev) : (onHbm f d).drops = d.drops := rfl
@[simp] theorem onHbm_perf (f : Hbm → Hbm) (d : Dev) : (onHbm f d).perf = d.perf := rfl
@[simp] theorem onHbm_staged (f : Hbm → Hbm) (d : Dev) : (onHbm f d).staged = d.staged := rfl
@[simp] theorem onHbm_snaps (f : Hbm → Hbm) (d : Dev) : (onHbm f d).snaps = d.snaps := rfl
@[simp] theorem onHbm_out (f : Hbm → Hbm) (d : Dev) : (onHbm f d).out = d.out := rfl
@[simp] theorem onHbm_freeCtr (f : Hbm → Hbm) (d : Dev) : (onHbm f d).freeCtr = d.freeCtr := rfl
@[simp] theorem onHbm_lastErr (f : Hbm → Hbm) (d : Dev) : (onHbm f d).lastErr = d.lastErr := rfl
@[simp] theorem onHbm_mono (f : Hbm → Hbm) (d : Dev) : (onHbm f d).mono = d.mono := rfl
@[simp] theorem onHbm_evt (f : Hbm → Hbm) (d : Dev) : (onHbm f d).evt = d.evt := rfl
@[simp] theorem onHbm_aon (f : Hbm → Hbm) (d : Dev) : (onHbm f d).aon = d.aon := rfl
@[simp] theorem onHbm_hif (f : Hbm → Hbm) (d : Dev) : (onHbm f d).hif = d.hif := rfl
@[simp] theorem onHbm_i3c (f : Hbm → Hbm) (d : Dev) : (onHbm f d).i3c = d.i3c := rfl
@[simp] theorem onHbm_cnt (f : Hbm → Hbm) (d : Dev) : (onHbm f d).cnt = d.cnt := rfl
@[simp] theorem onHbm_hwd (f : Hbm → Hbm) (d : Dev) : (onHbm f d).hwd = d.hwd := rfl
@[simp] theorem onHbm_banks (f : Hbm → Hbm) (d : Dev) : (onHbm f d).banks = d.banks := rfl
@[simp] theorem onHbm_vlt (f : Hbm → Hbm) (d : Dev) : (onHbm f d).vlt = d.vlt := rfl
@[simp] theorem onHbm_sys (f : Hbm → Hbm) (d : Dev) : (onHbm f d).sys = d.sys := rfl
@[simp] theorem onHbm_ports (f : Hbm → Hbm) (d : Dev) : (onHbm f d).ports = d.ports := rfl
@[simp] theorem onHbm_head (f : Hbm → Hbm) (d : Dev) : (onHbm f d).head = d.head := rfl
@[simp] theorem onHbm_cross (f : Hbm → Hbm) (d : Dev) : (onHbm f d).cross = d.cross := rfl
@[simp] theorem onHbm_d2d (f : Hbm → Hbm) (d : Dev) : (onHbm f d).d2d = d.d2d := rfl
@[simp] theorem onHbm_srcCache (f : Hbm → Hbm) (d : Dev) : (onHbm f d).srcCache = d.srcCache := rfl
@[simp] theorem onHbm_tab (f : Hbm → Hbm) (d : Dev) : (onHbm f d).tab = d.tab := rfl
@[simp] theorem onHbm_srch (f : Hbm → Hbm) (d : Dev) : (onHbm f d).srch = d.srch := rfl
@[simp] theorem onHbm_spn (f : Hbm → Hbm) (d : Dev) : (onHbm f d).spn = d.spn := rfl
@[simp] theorem onHbm_disp (f : Hbm → Hbm) (d : Dev) : (onHbm f d).disp = d.disp := rfl
@[simp] theorem onHbm_epc (f : Hbm → Hbm) (d : Dev) : (onHbm f d).epc = d.epc := rfl
@[simp] theorem onHbm_chk (f : Hbm → Hbm) (d : Dev) : (onHbm f d).chk = d.chk := rfl
@[simp] theorem onHbm_tm (f : Hbm → Hbm) (d : Dev) : (onHbm f d).tm = d.tm := rfl
@[simp] theorem onHbm_ctlQ (f : Hbm → Hbm) (d : Dev) : (onHbm f d).ctlQ = d.ctlQ := rfl
@[simp] theorem onHbm_hbm (f : Hbm → Hbm) (d : Dev) : (onHbm f d).hbm = f d.hbm := rfl
@[simp] theorem onHbm_fab (f : Hbm → Hbm) (d : Dev) : (onHbm f d).fab = d.fab := rfl
@[simp] theorem onHbm_svc (f : Hbm → Hbm) (d : Dev) : (onHbm f d).svc = d.svc := rfl

@[simp] theorem onHwd_faces (f : Hwd → Hwd) (d : Dev) : (onHwd f d).faces = d.faces := rfl
@[simp] theorem onHwd_flds (f : Hwd → Hwd) (d : Dev) : (onHwd f d).flds = d.flds := rfl
@[simp] theorem onHwd_ctrs (f : Hwd → Hwd) (d : Dev) : (onHwd f d).ctrs = d.ctrs := rfl
@[simp] theorem onHwd_drops (f : Hwd → Hwd) (d : Dev) : (onHwd f d).drops = d.drops := rfl
@[simp] theorem onHwd_perf (f : Hwd → Hwd) (d : Dev) : (onHwd f d).perf = d.perf := rfl
@[simp] theorem onHwd_staged (f : Hwd → Hwd) (d : Dev) : (onHwd f d).staged = d.staged := rfl
@[simp] theorem onHwd_snaps (f : Hwd → Hwd) (d : Dev) : (onHwd f d).snaps = d.snaps := rfl
@[simp] theorem onHwd_out (f : Hwd → Hwd) (d : Dev) : (onHwd f d).out = d.out := rfl
@[simp] theorem onHwd_freeCtr (f : Hwd → Hwd) (d : Dev) : (onHwd f d).freeCtr = d.freeCtr := rfl
@[simp] theorem onHwd_lastErr (f : Hwd → Hwd) (d : Dev) : (onHwd f d).lastErr = d.lastErr := rfl
@[simp] theorem onHwd_mono (f : Hwd → Hwd) (d : Dev) : (onHwd f d).mono = d.mono := rfl
@[simp] theorem onHwd_evt (f : Hwd → Hwd) (d : Dev) : (onHwd f d).evt = d.evt := rfl
@[simp] theorem onHwd_aon (f : Hwd → Hwd) (d : Dev) : (onHwd f d).aon = d.aon := rfl
@[simp] theorem onHwd_hif (f : Hwd → Hwd) (d : Dev) : (onHwd f d).hif = d.hif := rfl
@[simp] theorem onHwd_i3c (f : Hwd → Hwd) (d : Dev) : (onHwd f d).i3c = d.i3c := rfl
@[simp] theorem onHwd_cnt (f : Hwd → Hwd) (d : Dev) : (onHwd f d).cnt = d.cnt := rfl
@[simp] theorem onHwd_hwd (f : Hwd → Hwd) (d : Dev) : (onHwd f d).hwd = f d.hwd := rfl
@[simp] theorem onHwd_banks (f : Hwd → Hwd) (d : Dev) : (onHwd f d).banks = d.banks := rfl
@[simp] theorem onHwd_vlt (f : Hwd → Hwd) (d : Dev) : (onHwd f d).vlt = d.vlt := rfl
@[simp] theorem onHwd_sys (f : Hwd → Hwd) (d : Dev) : (onHwd f d).sys = d.sys := rfl
@[simp] theorem onHwd_ports (f : Hwd → Hwd) (d : Dev) : (onHwd f d).ports = d.ports := rfl
@[simp] theorem onHwd_head (f : Hwd → Hwd) (d : Dev) : (onHwd f d).head = d.head := rfl
@[simp] theorem onHwd_cross (f : Hwd → Hwd) (d : Dev) : (onHwd f d).cross = d.cross := rfl
@[simp] theorem onHwd_d2d (f : Hwd → Hwd) (d : Dev) : (onHwd f d).d2d = d.d2d := rfl
@[simp] theorem onHwd_srcCache (f : Hwd → Hwd) (d : Dev) : (onHwd f d).srcCache = d.srcCache := rfl
@[simp] theorem onHwd_tab (f : Hwd → Hwd) (d : Dev) : (onHwd f d).tab = d.tab := rfl
@[simp] theorem onHwd_srch (f : Hwd → Hwd) (d : Dev) : (onHwd f d).srch = d.srch := rfl
@[simp] theorem onHwd_spn (f : Hwd → Hwd) (d : Dev) : (onHwd f d).spn = d.spn := rfl
@[simp] theorem onHwd_disp (f : Hwd → Hwd) (d : Dev) : (onHwd f d).disp = d.disp := rfl
@[simp] theorem onHwd_epc (f : Hwd → Hwd) (d : Dev) : (onHwd f d).epc = d.epc := rfl
@[simp] theorem onHwd_chk (f : Hwd → Hwd) (d : Dev) : (onHwd f d).chk = d.chk := rfl
@[simp] theorem onHwd_tm (f : Hwd → Hwd) (d : Dev) : (onHwd f d).tm = d.tm := rfl
@[simp] theorem onHwd_ctlQ (f : Hwd → Hwd) (d : Dev) : (onHwd f d).ctlQ = d.ctlQ := rfl
@[simp] theorem onHwd_hbm (f : Hwd → Hwd) (d : Dev) : (onHwd f d).hbm = d.hbm := rfl
@[simp] theorem onHwd_fab (f : Hwd → Hwd) (d : Dev) : (onHwd f d).fab = d.fab := rfl
@[simp] theorem onHwd_svc (f : Hwd → Hwd) (d : Dev) : (onHwd f d).svc = d.svc := rfl

@[simp] theorem onI3c_faces (f : I3c → I3c) (d : Dev) : (onI3c f d).faces = d.faces := rfl
@[simp] theorem onI3c_flds (f : I3c → I3c) (d : Dev) : (onI3c f d).flds = d.flds := rfl
@[simp] theorem onI3c_ctrs (f : I3c → I3c) (d : Dev) : (onI3c f d).ctrs = d.ctrs := rfl
@[simp] theorem onI3c_drops (f : I3c → I3c) (d : Dev) : (onI3c f d).drops = d.drops := rfl
@[simp] theorem onI3c_perf (f : I3c → I3c) (d : Dev) : (onI3c f d).perf = d.perf := rfl
@[simp] theorem onI3c_staged (f : I3c → I3c) (d : Dev) : (onI3c f d).staged = d.staged := rfl
@[simp] theorem onI3c_snaps (f : I3c → I3c) (d : Dev) : (onI3c f d).snaps = d.snaps := rfl
@[simp] theorem onI3c_out (f : I3c → I3c) (d : Dev) : (onI3c f d).out = d.out := rfl
@[simp] theorem onI3c_freeCtr (f : I3c → I3c) (d : Dev) : (onI3c f d).freeCtr = d.freeCtr := rfl
@[simp] theorem onI3c_lastErr (f : I3c → I3c) (d : Dev) : (onI3c f d).lastErr = d.lastErr := rfl
@[simp] theorem onI3c_mono (f : I3c → I3c) (d : Dev) : (onI3c f d).mono = d.mono := rfl
@[simp] theorem onI3c_evt (f : I3c → I3c) (d : Dev) : (onI3c f d).evt = d.evt := rfl
@[simp] theorem onI3c_aon (f : I3c → I3c) (d : Dev) : (onI3c f d).aon = d.aon := rfl
@[simp] theorem onI3c_hif (f : I3c → I3c) (d : Dev) : (onI3c f d).hif = d.hif := rfl
@[simp] theorem onI3c_i3c (f : I3c → I3c) (d : Dev) : (onI3c f d).i3c = f d.i3c := rfl
@[simp] theorem onI3c_cnt (f : I3c → I3c) (d : Dev) : (onI3c f d).cnt = d.cnt := rfl
@[simp] theorem onI3c_hwd (f : I3c → I3c) (d : Dev) : (onI3c f d).hwd = d.hwd := rfl
@[simp] theorem onI3c_banks (f : I3c → I3c) (d : Dev) : (onI3c f d).banks = d.banks := rfl
@[simp] theorem onI3c_vlt (f : I3c → I3c) (d : Dev) : (onI3c f d).vlt = d.vlt := rfl
@[simp] theorem onI3c_sys (f : I3c → I3c) (d : Dev) : (onI3c f d).sys = d.sys := rfl
@[simp] theorem onI3c_ports (f : I3c → I3c) (d : Dev) : (onI3c f d).ports = d.ports := rfl
@[simp] theorem onI3c_head (f : I3c → I3c) (d : Dev) : (onI3c f d).head = d.head := rfl
@[simp] theorem onI3c_cross (f : I3c → I3c) (d : Dev) : (onI3c f d).cross = d.cross := rfl
@[simp] theorem onI3c_d2d (f : I3c → I3c) (d : Dev) : (onI3c f d).d2d = d.d2d := rfl
@[simp] theorem onI3c_srcCache (f : I3c → I3c) (d : Dev) : (onI3c f d).srcCache = d.srcCache := rfl
@[simp] theorem onI3c_tab (f : I3c → I3c) (d : Dev) : (onI3c f d).tab = d.tab := rfl
@[simp] theorem onI3c_srch (f : I3c → I3c) (d : Dev) : (onI3c f d).srch = d.srch := rfl
@[simp] theorem onI3c_spn (f : I3c → I3c) (d : Dev) : (onI3c f d).spn = d.spn := rfl
@[simp] theorem onI3c_disp (f : I3c → I3c) (d : Dev) : (onI3c f d).disp = d.disp := rfl
@[simp] theorem onI3c_epc (f : I3c → I3c) (d : Dev) : (onI3c f d).epc = d.epc := rfl
@[simp] theorem onI3c_chk (f : I3c → I3c) (d : Dev) : (onI3c f d).chk = d.chk := rfl
@[simp] theorem onI3c_tm (f : I3c → I3c) (d : Dev) : (onI3c f d).tm = d.tm := rfl
@[simp] theorem onI3c_ctlQ (f : I3c → I3c) (d : Dev) : (onI3c f d).ctlQ = d.ctlQ := rfl
@[simp] theorem onI3c_hbm (f : I3c → I3c) (d : Dev) : (onI3c f d).hbm = d.hbm := rfl
@[simp] theorem onI3c_fab (f : I3c → I3c) (d : Dev) : (onI3c f d).fab = d.fab := rfl
@[simp] theorem onI3c_svc (f : I3c → I3c) (d : Dev) : (onI3c f d).svc = d.svc := rfl

@[simp] theorem onVlt_faces (f : Vault → Vault) (d : Dev) : (onVlt f d).faces = d.faces := rfl
@[simp] theorem onVlt_flds (f : Vault → Vault) (d : Dev) : (onVlt f d).flds = d.flds := rfl
@[simp] theorem onVlt_ctrs (f : Vault → Vault) (d : Dev) : (onVlt f d).ctrs = d.ctrs := rfl
@[simp] theorem onVlt_drops (f : Vault → Vault) (d : Dev) : (onVlt f d).drops = d.drops := rfl
@[simp] theorem onVlt_perf (f : Vault → Vault) (d : Dev) : (onVlt f d).perf = d.perf := rfl
@[simp] theorem onVlt_staged (f : Vault → Vault) (d : Dev) : (onVlt f d).staged = d.staged := rfl
@[simp] theorem onVlt_snaps (f : Vault → Vault) (d : Dev) : (onVlt f d).snaps = d.snaps := rfl
@[simp] theorem onVlt_out (f : Vault → Vault) (d : Dev) : (onVlt f d).out = d.out := rfl
@[simp] theorem onVlt_freeCtr (f : Vault → Vault) (d : Dev) : (onVlt f d).freeCtr = d.freeCtr := rfl
@[simp] theorem onVlt_lastErr (f : Vault → Vault) (d : Dev) : (onVlt f d).lastErr = d.lastErr := rfl
@[simp] theorem onVlt_mono (f : Vault → Vault) (d : Dev) : (onVlt f d).mono = d.mono := rfl
@[simp] theorem onVlt_evt (f : Vault → Vault) (d : Dev) : (onVlt f d).evt = d.evt := rfl
@[simp] theorem onVlt_aon (f : Vault → Vault) (d : Dev) : (onVlt f d).aon = d.aon := rfl
@[simp] theorem onVlt_hif (f : Vault → Vault) (d : Dev) : (onVlt f d).hif = d.hif := rfl
@[simp] theorem onVlt_i3c (f : Vault → Vault) (d : Dev) : (onVlt f d).i3c = d.i3c := rfl
@[simp] theorem onVlt_cnt (f : Vault → Vault) (d : Dev) : (onVlt f d).cnt = d.cnt := rfl
@[simp] theorem onVlt_hwd (f : Vault → Vault) (d : Dev) : (onVlt f d).hwd = d.hwd := rfl
@[simp] theorem onVlt_banks (f : Vault → Vault) (d : Dev) : (onVlt f d).banks = d.banks := rfl
@[simp] theorem onVlt_vlt (f : Vault → Vault) (d : Dev) : (onVlt f d).vlt = f d.vlt := rfl
@[simp] theorem onVlt_sys (f : Vault → Vault) (d : Dev) : (onVlt f d).sys = d.sys := rfl
@[simp] theorem onVlt_ports (f : Vault → Vault) (d : Dev) : (onVlt f d).ports = d.ports := rfl
@[simp] theorem onVlt_head (f : Vault → Vault) (d : Dev) : (onVlt f d).head = d.head := rfl
@[simp] theorem onVlt_cross (f : Vault → Vault) (d : Dev) : (onVlt f d).cross = d.cross := rfl
@[simp] theorem onVlt_d2d (f : Vault → Vault) (d : Dev) : (onVlt f d).d2d = d.d2d := rfl
@[simp] theorem onVlt_srcCache (f : Vault → Vault) (d : Dev) : (onVlt f d).srcCache = d.srcCache := rfl
@[simp] theorem onVlt_tab (f : Vault → Vault) (d : Dev) : (onVlt f d).tab = d.tab := rfl
@[simp] theorem onVlt_srch (f : Vault → Vault) (d : Dev) : (onVlt f d).srch = d.srch := rfl
@[simp] theorem onVlt_spn (f : Vault → Vault) (d : Dev) : (onVlt f d).spn = d.spn := rfl
@[simp] theorem onVlt_disp (f : Vault → Vault) (d : Dev) : (onVlt f d).disp = d.disp := rfl
@[simp] theorem onVlt_epc (f : Vault → Vault) (d : Dev) : (onVlt f d).epc = d.epc := rfl
@[simp] theorem onVlt_chk (f : Vault → Vault) (d : Dev) : (onVlt f d).chk = d.chk := rfl
@[simp] theorem onVlt_tm (f : Vault → Vault) (d : Dev) : (onVlt f d).tm = d.tm := rfl
@[simp] theorem onVlt_ctlQ (f : Vault → Vault) (d : Dev) : (onVlt f d).ctlQ = d.ctlQ := rfl
@[simp] theorem onVlt_hbm (f : Vault → Vault) (d : Dev) : (onVlt f d).hbm = d.hbm := rfl
@[simp] theorem onVlt_fab (f : Vault → Vault) (d : Dev) : (onVlt f d).fab = d.fab := rfl
@[simp] theorem onVlt_svc (f : Vault → Vault) (d : Dev) : (onVlt f d).svc = d.svc := rfl

@[simp] theorem onTm_faces (f : Tm → Tm) (d : Dev) : (onTm f d).faces = d.faces := rfl
@[simp] theorem onTm_flds (f : Tm → Tm) (d : Dev) : (onTm f d).flds = d.flds := rfl
@[simp] theorem onTm_ctrs (f : Tm → Tm) (d : Dev) : (onTm f d).ctrs = d.ctrs := rfl
@[simp] theorem onTm_drops (f : Tm → Tm) (d : Dev) : (onTm f d).drops = d.drops := rfl
@[simp] theorem onTm_perf (f : Tm → Tm) (d : Dev) : (onTm f d).perf = d.perf := rfl
@[simp] theorem onTm_staged (f : Tm → Tm) (d : Dev) : (onTm f d).staged = d.staged := rfl
@[simp] theorem onTm_snaps (f : Tm → Tm) (d : Dev) : (onTm f d).snaps = d.snaps := rfl
@[simp] theorem onTm_out (f : Tm → Tm) (d : Dev) : (onTm f d).out = d.out := rfl
@[simp] theorem onTm_freeCtr (f : Tm → Tm) (d : Dev) : (onTm f d).freeCtr = d.freeCtr := rfl
@[simp] theorem onTm_lastErr (f : Tm → Tm) (d : Dev) : (onTm f d).lastErr = d.lastErr := rfl
@[simp] theorem onTm_mono (f : Tm → Tm) (d : Dev) : (onTm f d).mono = d.mono := rfl
@[simp] theorem onTm_evt (f : Tm → Tm) (d : Dev) : (onTm f d).evt = d.evt := rfl
@[simp] theorem onTm_aon (f : Tm → Tm) (d : Dev) : (onTm f d).aon = d.aon := rfl
@[simp] theorem onTm_hif (f : Tm → Tm) (d : Dev) : (onTm f d).hif = d.hif := rfl
@[simp] theorem onTm_i3c (f : Tm → Tm) (d : Dev) : (onTm f d).i3c = d.i3c := rfl
@[simp] theorem onTm_cnt (f : Tm → Tm) (d : Dev) : (onTm f d).cnt = d.cnt := rfl
@[simp] theorem onTm_hwd (f : Tm → Tm) (d : Dev) : (onTm f d).hwd = d.hwd := rfl
@[simp] theorem onTm_banks (f : Tm → Tm) (d : Dev) : (onTm f d).banks = d.banks := rfl
@[simp] theorem onTm_vlt (f : Tm → Tm) (d : Dev) : (onTm f d).vlt = d.vlt := rfl
@[simp] theorem onTm_sys (f : Tm → Tm) (d : Dev) : (onTm f d).sys = d.sys := rfl
@[simp] theorem onTm_ports (f : Tm → Tm) (d : Dev) : (onTm f d).ports = d.ports := rfl
@[simp] theorem onTm_head (f : Tm → Tm) (d : Dev) : (onTm f d).head = d.head := rfl
@[simp] theorem onTm_cross (f : Tm → Tm) (d : Dev) : (onTm f d).cross = d.cross := rfl
@[simp] theorem onTm_d2d (f : Tm → Tm) (d : Dev) : (onTm f d).d2d = d.d2d := rfl
@[simp] theorem onTm_srcCache (f : Tm → Tm) (d : Dev) : (onTm f d).srcCache = d.srcCache := rfl
@[simp] theorem onTm_tab (f : Tm → Tm) (d : Dev) : (onTm f d).tab = d.tab := rfl
@[simp] theorem onTm_srch (f : Tm → Tm) (d : Dev) : (onTm f d).srch = d.srch := rfl
@[simp] theorem onTm_spn (f : Tm → Tm) (d : Dev) : (onTm f d).spn = d.spn := rfl
@[simp] theorem onTm_disp (f : Tm → Tm) (d : Dev) : (onTm f d).disp = d.disp := rfl
@[simp] theorem onTm_epc (f : Tm → Tm) (d : Dev) : (onTm f d).epc = d.epc := rfl
@[simp] theorem onTm_chk (f : Tm → Tm) (d : Dev) : (onTm f d).chk = d.chk := rfl
@[simp] theorem onTm_tm (f : Tm → Tm) (d : Dev) : (onTm f d).tm = f d.tm := rfl
@[simp] theorem onTm_ctlQ (f : Tm → Tm) (d : Dev) : (onTm f d).ctlQ = d.ctlQ := rfl
@[simp] theorem onTm_hbm (f : Tm → Tm) (d : Dev) : (onTm f d).hbm = d.hbm := rfl
@[simp] theorem onTm_fab (f : Tm → Tm) (d : Dev) : (onTm f d).fab = d.fab := rfl
@[simp] theorem onTm_svc (f : Tm → Tm) (d : Dev) : (onTm f d).svc = d.svc := rfl

@[simp] theorem onSrch_faces (f : Search → Search) (d : Dev) : (onSrch f d).faces = d.faces := rfl
@[simp] theorem onSrch_flds (f : Search → Search) (d : Dev) : (onSrch f d).flds = d.flds := rfl
@[simp] theorem onSrch_ctrs (f : Search → Search) (d : Dev) : (onSrch f d).ctrs = d.ctrs := rfl
@[simp] theorem onSrch_drops (f : Search → Search) (d : Dev) : (onSrch f d).drops = d.drops := rfl
@[simp] theorem onSrch_perf (f : Search → Search) (d : Dev) : (onSrch f d).perf = d.perf := rfl
@[simp] theorem onSrch_staged (f : Search → Search) (d : Dev) : (onSrch f d).staged = d.staged := rfl
@[simp] theorem onSrch_snaps (f : Search → Search) (d : Dev) : (onSrch f d).snaps = d.snaps := rfl
@[simp] theorem onSrch_out (f : Search → Search) (d : Dev) : (onSrch f d).out = d.out := rfl
@[simp] theorem onSrch_freeCtr (f : Search → Search) (d : Dev) : (onSrch f d).freeCtr = d.freeCtr := rfl
@[simp] theorem onSrch_lastErr (f : Search → Search) (d : Dev) : (onSrch f d).lastErr = d.lastErr := rfl
@[simp] theorem onSrch_mono (f : Search → Search) (d : Dev) : (onSrch f d).mono = d.mono := rfl
@[simp] theorem onSrch_evt (f : Search → Search) (d : Dev) : (onSrch f d).evt = d.evt := rfl
@[simp] theorem onSrch_aon (f : Search → Search) (d : Dev) : (onSrch f d).aon = d.aon := rfl
@[simp] theorem onSrch_hif (f : Search → Search) (d : Dev) : (onSrch f d).hif = d.hif := rfl
@[simp] theorem onSrch_i3c (f : Search → Search) (d : Dev) : (onSrch f d).i3c = d.i3c := rfl
@[simp] theorem onSrch_cnt (f : Search → Search) (d : Dev) : (onSrch f d).cnt = d.cnt := rfl
@[simp] theorem onSrch_hwd (f : Search → Search) (d : Dev) : (onSrch f d).hwd = d.hwd := rfl
@[simp] theorem onSrch_banks (f : Search → Search) (d : Dev) : (onSrch f d).banks = d.banks := rfl
@[simp] theorem onSrch_vlt (f : Search → Search) (d : Dev) : (onSrch f d).vlt = d.vlt := rfl
@[simp] theorem onSrch_sys (f : Search → Search) (d : Dev) : (onSrch f d).sys = d.sys := rfl
@[simp] theorem onSrch_ports (f : Search → Search) (d : Dev) : (onSrch f d).ports = d.ports := rfl
@[simp] theorem onSrch_head (f : Search → Search) (d : Dev) : (onSrch f d).head = d.head := rfl
@[simp] theorem onSrch_cross (f : Search → Search) (d : Dev) : (onSrch f d).cross = d.cross := rfl
@[simp] theorem onSrch_d2d (f : Search → Search) (d : Dev) : (onSrch f d).d2d = d.d2d := rfl
@[simp] theorem onSrch_srcCache (f : Search → Search) (d : Dev) : (onSrch f d).srcCache = d.srcCache := rfl
@[simp] theorem onSrch_tab (f : Search → Search) (d : Dev) : (onSrch f d).tab = d.tab := rfl
@[simp] theorem onSrch_srch (f : Search → Search) (d : Dev) : (onSrch f d).srch = f d.srch := rfl
@[simp] theorem onSrch_spn (f : Search → Search) (d : Dev) : (onSrch f d).spn = d.spn := rfl
@[simp] theorem onSrch_disp (f : Search → Search) (d : Dev) : (onSrch f d).disp = d.disp := rfl
@[simp] theorem onSrch_epc (f : Search → Search) (d : Dev) : (onSrch f d).epc = d.epc := rfl
@[simp] theorem onSrch_chk (f : Search → Search) (d : Dev) : (onSrch f d).chk = d.chk := rfl
@[simp] theorem onSrch_tm (f : Search → Search) (d : Dev) : (onSrch f d).tm = d.tm := rfl
@[simp] theorem onSrch_ctlQ (f : Search → Search) (d : Dev) : (onSrch f d).ctlQ = d.ctlQ := rfl
@[simp] theorem onSrch_hbm (f : Search → Search) (d : Dev) : (onSrch f d).hbm = d.hbm := rfl
@[simp] theorem onSrch_fab (f : Search → Search) (d : Dev) : (onSrch f d).fab = d.fab := rfl
@[simp] theorem onSrch_svc (f : Search → Search) (d : Dev) : (onSrch f d).svc = d.svc := rfl

@[simp] theorem onSvc_faces (f : Svc → Svc) (d : Dev) : (onSvc f d).faces = d.faces := rfl
@[simp] theorem onSvc_flds (f : Svc → Svc) (d : Dev) : (onSvc f d).flds = d.flds := rfl
@[simp] theorem onSvc_ctrs (f : Svc → Svc) (d : Dev) : (onSvc f d).ctrs = d.ctrs := rfl
@[simp] theorem onSvc_drops (f : Svc → Svc) (d : Dev) : (onSvc f d).drops = d.drops := rfl
@[simp] theorem onSvc_perf (f : Svc → Svc) (d : Dev) : (onSvc f d).perf = d.perf := rfl
@[simp] theorem onSvc_staged (f : Svc → Svc) (d : Dev) : (onSvc f d).staged = d.staged := rfl
@[simp] theorem onSvc_snaps (f : Svc → Svc) (d : Dev) : (onSvc f d).snaps = d.snaps := rfl
@[simp] theorem onSvc_out (f : Svc → Svc) (d : Dev) : (onSvc f d).out = d.out := rfl
@[simp] theorem onSvc_freeCtr (f : Svc → Svc) (d : Dev) : (onSvc f d).freeCtr = d.freeCtr := rfl
@[simp] theorem onSvc_lastErr (f : Svc → Svc) (d : Dev) : (onSvc f d).lastErr = d.lastErr := rfl
@[simp] theorem onSvc_mono (f : Svc → Svc) (d : Dev) : (onSvc f d).mono = d.mono := rfl
@[simp] theorem onSvc_evt (f : Svc → Svc) (d : Dev) : (onSvc f d).evt = d.evt := rfl
@[simp] theorem onSvc_aon (f : Svc → Svc) (d : Dev) : (onSvc f d).aon = d.aon := rfl
@[simp] theorem onSvc_hif (f : Svc → Svc) (d : Dev) : (onSvc f d).hif = d.hif := rfl
@[simp] theorem onSvc_i3c (f : Svc → Svc) (d : Dev) : (onSvc f d).i3c = d.i3c := rfl
@[simp] theorem onSvc_cnt (f : Svc → Svc) (d : Dev) : (onSvc f d).cnt = d.cnt := rfl
@[simp] theorem onSvc_hwd (f : Svc → Svc) (d : Dev) : (onSvc f d).hwd = d.hwd := rfl
@[simp] theorem onSvc_banks (f : Svc → Svc) (d : Dev) : (onSvc f d).banks = d.banks := rfl
@[simp] theorem onSvc_vlt (f : Svc → Svc) (d : Dev) : (onSvc f d).vlt = d.vlt := rfl
@[simp] theorem onSvc_sys (f : Svc → Svc) (d : Dev) : (onSvc f d).sys = d.sys := rfl
@[simp] theorem onSvc_ports (f : Svc → Svc) (d : Dev) : (onSvc f d).ports = d.ports := rfl
@[simp] theorem onSvc_head (f : Svc → Svc) (d : Dev) : (onSvc f d).head = d.head := rfl
@[simp] theorem onSvc_cross (f : Svc → Svc) (d : Dev) : (onSvc f d).cross = d.cross := rfl
@[simp] theorem onSvc_d2d (f : Svc → Svc) (d : Dev) : (onSvc f d).d2d = d.d2d := rfl
@[simp] theorem onSvc_srcCache (f : Svc → Svc) (d : Dev) : (onSvc f d).srcCache = d.srcCache := rfl
@[simp] theorem onSvc_tab (f : Svc → Svc) (d : Dev) : (onSvc f d).tab = d.tab := rfl
@[simp] theorem onSvc_srch (f : Svc → Svc) (d : Dev) : (onSvc f d).srch = d.srch := rfl
@[simp] theorem onSvc_spn (f : Svc → Svc) (d : Dev) : (onSvc f d).spn = d.spn := rfl
@[simp] theorem onSvc_disp (f : Svc → Svc) (d : Dev) : (onSvc f d).disp = d.disp := rfl
@[simp] theorem onSvc_epc (f : Svc → Svc) (d : Dev) : (onSvc f d).epc = d.epc := rfl
@[simp] theorem onSvc_chk (f : Svc → Svc) (d : Dev) : (onSvc f d).chk = d.chk := rfl
@[simp] theorem onSvc_tm (f : Svc → Svc) (d : Dev) : (onSvc f d).tm = d.tm := rfl
@[simp] theorem onSvc_ctlQ (f : Svc → Svc) (d : Dev) : (onSvc f d).ctlQ = d.ctlQ := rfl
@[simp] theorem onSvc_hbm (f : Svc → Svc) (d : Dev) : (onSvc f d).hbm = d.hbm := rfl
@[simp] theorem onSvc_fab (f : Svc → Svc) (d : Dev) : (onSvc f d).fab = d.fab := rfl
@[simp] theorem onSvc_svc (f : Svc → Svc) (d : Dev) : (onSvc f d).svc = f d.svc := rfl

@[simp] theorem onSpn_faces (f : Spn → Spn) (d : Dev) : (onSpn f d).faces = d.faces := rfl
@[simp] theorem onSpn_flds (f : Spn → Spn) (d : Dev) : (onSpn f d).flds = d.flds := rfl
@[simp] theorem onSpn_ctrs (f : Spn → Spn) (d : Dev) : (onSpn f d).ctrs = d.ctrs := rfl
@[simp] theorem onSpn_drops (f : Spn → Spn) (d : Dev) : (onSpn f d).drops = d.drops := rfl
@[simp] theorem onSpn_perf (f : Spn → Spn) (d : Dev) : (onSpn f d).perf = d.perf := rfl
@[simp] theorem onSpn_staged (f : Spn → Spn) (d : Dev) : (onSpn f d).staged = d.staged := rfl
@[simp] theorem onSpn_snaps (f : Spn → Spn) (d : Dev) : (onSpn f d).snaps = d.snaps := rfl
@[simp] theorem onSpn_out (f : Spn → Spn) (d : Dev) : (onSpn f d).out = d.out := rfl
@[simp] theorem onSpn_freeCtr (f : Spn → Spn) (d : Dev) : (onSpn f d).freeCtr = d.freeCtr := rfl
@[simp] theorem onSpn_lastErr (f : Spn → Spn) (d : Dev) : (onSpn f d).lastErr = d.lastErr := rfl
@[simp] theorem onSpn_mono (f : Spn → Spn) (d : Dev) : (onSpn f d).mono = d.mono := rfl
@[simp] theorem onSpn_evt (f : Spn → Spn) (d : Dev) : (onSpn f d).evt = d.evt := rfl
@[simp] theorem onSpn_aon (f : Spn → Spn) (d : Dev) : (onSpn f d).aon = d.aon := rfl
@[simp] theorem onSpn_hif (f : Spn → Spn) (d : Dev) : (onSpn f d).hif = d.hif := rfl
@[simp] theorem onSpn_i3c (f : Spn → Spn) (d : Dev) : (onSpn f d).i3c = d.i3c := rfl
@[simp] theorem onSpn_cnt (f : Spn → Spn) (d : Dev) : (onSpn f d).cnt = d.cnt := rfl
@[simp] theorem onSpn_hwd (f : Spn → Spn) (d : Dev) : (onSpn f d).hwd = d.hwd := rfl
@[simp] theorem onSpn_banks (f : Spn → Spn) (d : Dev) : (onSpn f d).banks = d.banks := rfl
@[simp] theorem onSpn_vlt (f : Spn → Spn) (d : Dev) : (onSpn f d).vlt = d.vlt := rfl
@[simp] theorem onSpn_sys (f : Spn → Spn) (d : Dev) : (onSpn f d).sys = d.sys := rfl
@[simp] theorem onSpn_ports (f : Spn → Spn) (d : Dev) : (onSpn f d).ports = d.ports := rfl
@[simp] theorem onSpn_head (f : Spn → Spn) (d : Dev) : (onSpn f d).head = d.head := rfl
@[simp] theorem onSpn_cross (f : Spn → Spn) (d : Dev) : (onSpn f d).cross = d.cross := rfl
@[simp] theorem onSpn_d2d (f : Spn → Spn) (d : Dev) : (onSpn f d).d2d = d.d2d := rfl
@[simp] theorem onSpn_srcCache (f : Spn → Spn) (d : Dev) : (onSpn f d).srcCache = d.srcCache := rfl
@[simp] theorem onSpn_tab (f : Spn → Spn) (d : Dev) : (onSpn f d).tab = d.tab := rfl
@[simp] theorem onSpn_srch (f : Spn → Spn) (d : Dev) : (onSpn f d).srch = d.srch := rfl
@[simp] theorem onSpn_spn (f : Spn → Spn) (d : Dev) : (onSpn f d).spn = f d.spn := rfl
@[simp] theorem onSpn_disp (f : Spn → Spn) (d : Dev) : (onSpn f d).disp = d.disp := rfl
@[simp] theorem onSpn_epc (f : Spn → Spn) (d : Dev) : (onSpn f d).epc = d.epc := rfl
@[simp] theorem onSpn_chk (f : Spn → Spn) (d : Dev) : (onSpn f d).chk = d.chk := rfl
@[simp] theorem onSpn_tm (f : Spn → Spn) (d : Dev) : (onSpn f d).tm = d.tm := rfl
@[simp] theorem onSpn_ctlQ (f : Spn → Spn) (d : Dev) : (onSpn f d).ctlQ = d.ctlQ := rfl
@[simp] theorem onSpn_hbm (f : Spn → Spn) (d : Dev) : (onSpn f d).hbm = d.hbm := rfl
@[simp] theorem onSpn_fab (f : Spn → Spn) (d : Dev) : (onSpn f d).fab = d.fab := rfl
@[simp] theorem onSpn_svc (f : Spn → Spn) (d : Dev) : (onSpn f d).svc = d.svc := rfl

@[simp] theorem onTab_faces (f : Tables → Tables) (d : Dev) : (onTab f d).faces = d.faces := rfl
@[simp] theorem onTab_flds (f : Tables → Tables) (d : Dev) : (onTab f d).flds = d.flds := rfl
@[simp] theorem onTab_ctrs (f : Tables → Tables) (d : Dev) : (onTab f d).ctrs = d.ctrs := rfl
@[simp] theorem onTab_drops (f : Tables → Tables) (d : Dev) : (onTab f d).drops = d.drops := rfl
@[simp] theorem onTab_perf (f : Tables → Tables) (d : Dev) : (onTab f d).perf = d.perf := rfl
@[simp] theorem onTab_staged (f : Tables → Tables) (d : Dev) : (onTab f d).staged = d.staged := rfl
@[simp] theorem onTab_snaps (f : Tables → Tables) (d : Dev) : (onTab f d).snaps = d.snaps := rfl
@[simp] theorem onTab_out (f : Tables → Tables) (d : Dev) : (onTab f d).out = d.out := rfl
@[simp] theorem onTab_freeCtr (f : Tables → Tables) (d : Dev) : (onTab f d).freeCtr = d.freeCtr := rfl
@[simp] theorem onTab_lastErr (f : Tables → Tables) (d : Dev) : (onTab f d).lastErr = d.lastErr := rfl
@[simp] theorem onTab_mono (f : Tables → Tables) (d : Dev) : (onTab f d).mono = d.mono := rfl
@[simp] theorem onTab_evt (f : Tables → Tables) (d : Dev) : (onTab f d).evt = d.evt := rfl
@[simp] theorem onTab_aon (f : Tables → Tables) (d : Dev) : (onTab f d).aon = d.aon := rfl
@[simp] theorem onTab_hif (f : Tables → Tables) (d : Dev) : (onTab f d).hif = d.hif := rfl
@[simp] theorem onTab_i3c (f : Tables → Tables) (d : Dev) : (onTab f d).i3c = d.i3c := rfl
@[simp] theorem onTab_cnt (f : Tables → Tables) (d : Dev) : (onTab f d).cnt = d.cnt := rfl
@[simp] theorem onTab_hwd (f : Tables → Tables) (d : Dev) : (onTab f d).hwd = d.hwd := rfl
@[simp] theorem onTab_banks (f : Tables → Tables) (d : Dev) : (onTab f d).banks = d.banks := rfl
@[simp] theorem onTab_vlt (f : Tables → Tables) (d : Dev) : (onTab f d).vlt = d.vlt := rfl
@[simp] theorem onTab_sys (f : Tables → Tables) (d : Dev) : (onTab f d).sys = d.sys := rfl
@[simp] theorem onTab_ports (f : Tables → Tables) (d : Dev) : (onTab f d).ports = d.ports := rfl
@[simp] theorem onTab_head (f : Tables → Tables) (d : Dev) : (onTab f d).head = d.head := rfl
@[simp] theorem onTab_cross (f : Tables → Tables) (d : Dev) : (onTab f d).cross = d.cross := rfl
@[simp] theorem onTab_d2d (f : Tables → Tables) (d : Dev) : (onTab f d).d2d = d.d2d := rfl
@[simp] theorem onTab_srcCache (f : Tables → Tables) (d : Dev) : (onTab f d).srcCache = d.srcCache := rfl
@[simp] theorem onTab_tab (f : Tables → Tables) (d : Dev) : (onTab f d).tab = f d.tab := rfl
@[simp] theorem onTab_srch (f : Tables → Tables) (d : Dev) : (onTab f d).srch = d.srch := rfl
@[simp] theorem onTab_spn (f : Tables → Tables) (d : Dev) : (onTab f d).spn = d.spn := rfl
@[simp] theorem onTab_disp (f : Tables → Tables) (d : Dev) : (onTab f d).disp = d.disp := rfl
@[simp] theorem onTab_epc (f : Tables → Tables) (d : Dev) : (onTab f d).epc = d.epc := rfl
@[simp] theorem onTab_chk (f : Tables → Tables) (d : Dev) : (onTab f d).chk = d.chk := rfl
@[simp] theorem onTab_tm (f : Tables → Tables) (d : Dev) : (onTab f d).tm = d.tm := rfl
@[simp] theorem onTab_ctlQ (f : Tables → Tables) (d : Dev) : (onTab f d).ctlQ = d.ctlQ := rfl
@[simp] theorem onTab_hbm (f : Tables → Tables) (d : Dev) : (onTab f d).hbm = d.hbm := rfl
@[simp] theorem onTab_fab (f : Tables → Tables) (d : Dev) : (onTab f d).fab = d.fab := rfl
@[simp] theorem onTab_svc (f : Tables → Tables) (d : Dev) : (onTab f d).svc = d.svc := rfl

end Sys2Proof.Machine
end

