-- ==== Sys2Proof/Laws/Tbl.lean ====
section
/-! SUPPORT. Sparse tables: a read after a write, a write leaves every other key alone, and every operation keeps the canonical
order and lists no default. -/

namespace Sys2Proof.Machine

variable {α : Type}

@[simp] theorem find?_nil (k : Nat) : find? ([] : Tbl α) k = none := rfl

@[simp] theorem find?_del_same (t : Tbl α) (k : Nat) : find? (del t k) k = none := by
  induction t with
  | nil => rfl
  | cons e t ih =>
    obtain ⟨a, w⟩ := e
    by_cases h : a = k
    · subst h; simpa [del] using ih
    · have h' : k ≠ a := Ne.symm h
      simpa [del, List.filter_cons, h, find?, h'] using ih

theorem find?_del_ne (t : Tbl α) {k x : Nat} (h : x ≠ k) : find? (del t k) x = find? t x := by
  induction t with
  | nil => rfl
  | cons e t ih =>
    obtain ⟨a, w⟩ := e
    by_cases ha : a = k
    · subst ha; simpa [del, List.filter_cons, find?, h] using ih
    · by_cases hx : x = a
      · subst hx; simp [del, ha, find?]
      · simpa [del, List.filter_cons, ha, find?, hx] using ih

@[simp] theorem find?_ins_same (t : Tbl α) (k : Nat) (v : α) : find? (ins t k v) k = some v := by
  induction t with
  | nil => simp [ins, find?]
  | cons e t ih =>
    obtain ⟨a, w⟩ := e
    unfold ins
    split
    · simp [find?]
    · split
      · simp [find?]
      · next h => simp [find?, h, ih]

theorem find?_ins_ne (t : Tbl α) {k x : Nat} (v : α) (h : x ≠ k) : find? (ins t k v) x = find? t x := by
  induction t with
  | nil => simp [ins, find?, h]
  | cons e t ih =>
    obtain ⟨a, w⟩ := e
    unfold ins
    split
    · simp [find?, h]
    · split
      · next hk => subst hk; simp [find?, h]
      · simp [find?, ih]

@[simp] theorem look_ins_same (t : Tbl α) (k : Nat) (v d : α) : look (ins t k v) k d = v := by simp [look]

theorem look_ins_ne (t : Tbl α) {k x : Nat} (v d : α) (h : x ≠ k) : look (ins t k v) x d = look t x d := by
  simp [look, find?_ins_ne t v h]

@[simp] theorem look_del_same (t : Tbl α) (k : Nat) (d : α) : look (del t k) k d = d := by simp [look]

theorem look_del_ne (t : Tbl α) {k x : Nat} (d : α) (h : x ≠ k) : look (del t k) x d = look t x d := by
  simp [look, find?_del_ne t h]

@[simp] theorem look_put_same [DecidableEq α] (t : Tbl α) (k : Nat) (d v : α) : look (put t k d v) k d = v := by
  unfold put
  split
  · next h => subst h; simp
  · simp

theorem look_put_ne [DecidableEq α] (t : Tbl α) {k x : Nat} (d d' v : α) (h : x ≠ k) : look (put t k d v) x d' = look t x d' := by
  unfold put
  split
  · exact look_del_ne t d' h
  · exact look_ins_ne t v d' h

/-- Whether every key of a table is above a. -/
def above (a : Nat) (t : Tbl α) : Prop := ∀ e ∈ t, a < e.1

theorem Tbl.wf_cons (a : Nat) (w : α) (t : Tbl α) : Tbl.wf ((a, w) :: t) = true ↔ above a t ∧ Tbl.wf t = true := by
  induction t generalizing a w with
  | nil => simp [Tbl.wf, above]
  | cons e t ih =>
    obtain ⟨b, v⟩ := e
    simp only [Tbl.wf, Bool.and_eq_true, decide_eq_true_eq, above, List.mem_cons, forall_eq_or_imp]
    constructor
    · rintro ⟨hab, hb⟩
      exact ⟨⟨hab, fun e he => lt_trans hab (((ih b v).1 hb).1 e he)⟩, hb⟩
    · rintro ⟨⟨hab, _⟩, hb⟩
      exact ⟨hab, hb⟩

theorem above_ins {a k : Nat} {v : α} (h : a < k) : {t : Tbl α} → above a t → above a (ins t k v)
  | [], _ => by intro e he; simp [ins] at he; subst he; exact h
  | (b, w) :: t, ht => by
    have hb : a < b := ht (b, w) (by simp)
    have htl : above a t := fun e he => ht e (by simp [he])
    unfold ins
    split
    · intro e he
      simp only [List.mem_cons] at he
      rcases he with rfl | rfl | he
      · exact h
      · exact hb
      · exact htl e he
    · split
      · intro e he
        simp only [List.mem_cons] at he
        rcases he with rfl | he
        · exact h
        · exact htl e he
      · intro e he
        simp only [List.mem_cons] at he
        rcases he with rfl | he
        · exact hb
        · exact above_ins h htl e he

/-- Setting a key keeps the canonical order. -/
theorem ins_wf (k : Nat) (v : α) : (t : Tbl α) → Tbl.wf t = true → Tbl.wf (ins t k v) = true
  | [], _ => rfl
  | (b, w) :: t, h => by
    obtain ⟨hb, ht⟩ := (Tbl.wf_cons b w t).1 h
    unfold ins
    split
    · next hk => exact (Tbl.wf_cons k v _).2 ⟨by
        intro e he
        simp only [List.mem_cons] at he
        rcases he with rfl | he
        · exact hk
        · exact lt_trans hk (hb e he), h⟩
    · split
      · next hk => subst hk; exact (Tbl.wf_cons k v t).2 ⟨hb, ht⟩
      · next h1 h2 => exact (Tbl.wf_cons b w _).2 ⟨above_ins (by omega) hb, ins_wf k v t ht⟩

/-- Removing a key keeps the canonical order. -/
theorem del_wf (k : Nat) : (t : Tbl α) → Tbl.wf t = true → Tbl.wf (del t k) = true
  | [], _ => rfl
  | (b, w) :: t, h => by
    obtain ⟨hb, ht⟩ := (Tbl.wf_cons b w t).1 h
    have ih := del_wf k t ht
    by_cases hk : b = k
    · subst hk; simpa [del] using ih
    · have : del ((b, w) :: t) k = (b, w) :: del t k := by simp [del, hk]
      rw [this]
      exact (Tbl.wf_cons b w _).2 ⟨fun e he => hb e (List.mem_of_mem_filter he), ih⟩

/-- Every table operation keeps the canonical order. -/
theorem put_wf [DecidableEq α] (t : Tbl α) (k : Nat) (d v : α) (h : Tbl.wf t = true) : Tbl.wf (put t k d v) = true := by
  unfold put
  split
  · exact del_wf k t h
  · exact ins_wf k v t h

end Sys2Proof.Machine
end

