-- ==== Sys2Proof/Laws/Settle.lean ====
section
/-! SUPPORT. What every command does beside its own effect (`settle`) touches only what `Beside` names: every other field is as the
command left it. -/

namespace Sys2Proof.Safety

open Machine

theorem Beside.refl (d : Dev) : Beside d d := ⟨rfl, fun _ _ _ _ _ => rfl, ⟨List.Sublist.refl _, rfl⟩, rfl⟩

theorem Beside.trans {a b c : Dev} (h : Beside a b) (k : Beside b c) : Beside a c := by
  obtain ⟨hk, hc, ⟨hl, hi⟩, hp⟩ := h
  obtain ⟨kk, kc, ⟨km, ki⟩, kp⟩ := k
  refine ⟨?_, fun p o h1 h2 h3 => (kc p o h1 h2 h3).trans (hc p o h1 h2 h3), ⟨hl.trans km, ki.trans hi⟩, kp.trans hp⟩
  rw [← kk] at hk
  simpa using hk

theorem Beside.of_ite {c : Prop} [Decidable c] {a x y : Dev} (h : Beside a x) (k : Beside a y) : Beside a (if c then x else y) := by
  split <;> assumption

theorem Beside.foldl {β : Type} (f : Dev → β → Dev) (hf : ∀ d x, Beside d (f d x)) : ∀ (l : List β) (d : Dev), Beside d (l.foldl f d)
  | [], d => Beside.refl d
  | x :: l, d => (hf d x).trans (Beside.foldl f hf l (f d x))

/-- A change of performance counters only. -/
theorem Beside.perf (d : Dev) (x : Tbl Perf) : Beside d { d with perf := x } := ⟨rfl, fun _ _ _ _ _ => rfl, ⟨List.Sublist.refl _, rfl⟩, rfl⟩
/-- A change of what the EVT evaluates. -/
theorem Beside.evt (d : Dev) (req pba held raised : Nat) (alertN : Bool) :
    Beside d { d with evt := { d.evt with req := req, pba := pba, held := held, raised := raised, alertN := alertN } } :=
  ⟨rfl, fun _ _ _ _ _ => rfl, ⟨List.Sublist.refl _, rfl⟩, rfl⟩
/-- A note of when a group asked for an in-band interrupt. -/
theorem Beside.i3cAt (d : Dev) (x : Tbl Nat) : Beside d { d with evt := { d.evt with i3cAt := x } } :=
  ⟨rfl, fun _ _ _ _ _ => rfl, ⟨List.Sublist.refl _, rfl⟩, rfl⟩
/-- A change of the watch entries' deadlines. -/
theorem Beside.deadline (d : Dev) (x : Tbl Nat) : Beside d { d with aon := { d.aon with deadline := x } } :=
  ⟨rfl, fun _ _ _ _ _ => rfl, ⟨List.Sublist.refl _, rfl⟩, rfl⟩

theorem perfCount_beside (p sel e l : Nat) (d : Dev) : Beside d (perfCount p sel e l d) := by
  unfold perfCount
  exact Beside.of_ite (Beside.perf _ _) (Beside.refl _)

/-- A count in a counter of the EVT or the MGT. -/
theorem incAt_beside {p o : Nat} (hp : p = Pg.EVT ∨ p = Pg.MGT) (ho : o < 65536) (n : Nat) (d : Dev) : Beside d (incAt p o n d) := by
  refine ⟨rfl, fun q r hr h2 h3 => ?_, ⟨List.Sublist.refl _, rfl⟩, rfl⟩
  have : q * 65536 + r ≠ p * 65536 + o := by rcases hp with rfl | rfl <;> simp only [Pg.EVT, Pg.MGT] at * <;> omega
  simp [incAt, setCtr, ctr, look_put_ne _ _ _ _ this]

theorem inc_beside {p k : Nat} (hp : p = Pg.EVT ∨ p = Pg.MGT) (hk : k < 64) (d : Dev) : Beside d (inc p k d) := by
  unfold inc incBy
  have h := incAt_beside hp (show 0x1000 + 8 * k < 65536 by omega) 1 d
  exact Beside.of_ite (h.trans (perfCount_beside _ _ _ _ _)) h

theorem ibiRaise_beside (b : List Nat) (d : Dev) : Beside d (ibiRaise b d) := by
  unfold ibiRaise
  refine Beside.of_ite (Beside.trans (b := emit (.ibi b) { d with i3c := { d.i3c with ibi := [b], ibiAt := d.mono } }) ?_ (inc_beside (by simp) (by omega) _)) (Beside.refl _)
  exact ⟨rfl, fun _ _ _ _ _ => rfl, ⟨List.sublist_cons_self _ _, by simp [emit, isIbi]⟩, rfl⟩

theorem aonWatch_beside (v t : Nat) (d : Dev) : Beside d (aonWatch v t d) := by
  unfold aonWatch
  exact Beside.foldl _ (fun s k => Beside.of_ite (Beside.deadline s _) (Beside.refl s)) _ d

theorem vecWithdraw_beside (v : Nat) (d : Dev) : Beside d (vecWithdraw v d) := by
  unfold vecWithdraw
  exact (inc_beside (by simp) (by omega) d).trans (Beside.of_ite (Beside.refl _) (Beside.evt _ _ _ _ _ _))

theorem groupUpdate_beside (old now : Nat) (d : Dev) (g : Nat) : Beside d (groupUpdate old now d g) := by
  unfold groupUpdate
  have h1 : Beside d (if (bit now g && !bit old g && flag EVT_GRPg_CFG.I3C 0 g d) = true then
      ibiRaise [0x00, g] (inc Pg.EVT 4 { d with evt := { d.evt with i3cAt := ins d.evt.i3cAt g d.mono } }) else d) :=
    Beside.of_ite (((Beside.i3cAt d _).trans (inc_beside (by simp) (by omega) _)).trans (ibiRaise_beside _ _)) (Beside.refl _)
  refine h1.trans ?_
  generalize (if (bit now g && !bit old g && flag EVT_GRPg_CFG.I3C 0 g d) = true then
      ibiRaise [0x00, g] (inc Pg.EVT 4 { d with evt := { d.evt with i3cAt := ins d.evt.i3cAt g d.mono } }) else d) = e
  refine Beside.of_ite (Beside.of_ite ?_ (Beside.refl _)) (Beside.of_ite ?_ (Beside.refl _))
  · exact Beside.trans (b := { e with evt := { e.evt with req := setBit e.evt.req g } }) (Beside.evt e _ _ _ _ _) (aonWatch_beside _ _ _)
  · exact Beside.trans (b := { e with evt := { e.evt with req := clrBit e.evt.req g } }) (Beside.evt e _ _ _ _ _) (vecWithdraw_beside _ _)

theorem evtUpdate_beside (d : Dev) : Beside d (evtUpdate d) := by
  unfold evtUpdate
  exact Beside.trans (Beside.foldl _ (groupUpdate_beside _ _) _ d) (Beside.evt _ _ _ _ _ _)

theorem snapFreeze_beside (d : Dev) : Beside d (snapFreeze d) := by
  refine ⟨rfl, fun _ _ _ _ _ => rfl, ⟨List.Sublist.refl _, rfl⟩, ?_⟩
  simp only [snapFreeze, onCnt, List.map_map]
  refine List.map_congr_left fun c _ => ?_
  simp only [Function.comp]
  split <;> rfl

theorem perfTime_beside (u0 u1 p : Nat) (d : Dev) : Beside d (perfTime u0 u1 p d) := by
  unfold perfTime
  refine Beside.trans ?_ (Beside.foldl _ (fun d b => perfCount_beside _ _ _ _ d) _ _)
  refine Beside.trans (perfCount_beside p 0x01 _ _ d) (Beside.trans (perfCount_beside p 0x02 _ _ _) (Beside.trans (perfCount_beside p 0x03 _ _ _)
    (Beside.trans (perfCount_beside p 0x04 _ _ _) (perfCount_beside p 0x05 _ _ _))))

theorem Beside.faces {d e : Dev} (h : Beside d e) : e.faces = d.faces := by
  have k := congrArg Dev.faces h.kept; exact k
theorem Beside.flds {d e : Dev} (h : Beside d e) : e.flds = d.flds := by
  have k := congrArg Dev.flds h.kept; exact k
theorem Beside.drops {d e : Dev} (h : Beside d e) : e.drops = d.drops := by
  have k := congrArg Dev.drops h.kept; exact k
theorem Beside.staged {d e : Dev} (h : Beside d e) : e.staged = d.staged := by
  have k := congrArg Dev.staged h.kept; exact k
theorem Beside.snaps {d e : Dev} (h : Beside d e) : e.snaps = d.snaps := by
  have k := congrArg Dev.snaps h.kept; exact k
theorem Beside.freeCtr {d e : Dev} (h : Beside d e) : e.freeCtr = d.freeCtr := by
  have k := congrArg Dev.freeCtr h.kept; exact k
theorem Beside.lastErr {d e : Dev} (h : Beside d e) : e.lastErr = d.lastErr := by
  have k := congrArg Dev.lastErr h.kept; exact k
theorem Beside.mono {d e : Dev} (h : Beside d e) : e.mono = d.mono := by
  have k := congrArg Dev.mono h.kept; exact k
theorem Beside.hif {d e : Dev} (h : Beside d e) : e.hif = d.hif := by
  have k := congrArg Dev.hif h.kept; exact k
theorem Beside.hwd {d e : Dev} (h : Beside d e) : e.hwd = d.hwd := by
  have k := congrArg Dev.hwd h.kept; exact k
theorem Beside.banks {d e : Dev} (h : Beside d e) : e.banks = d.banks := by
  have k := congrArg Dev.banks h.kept; exact k
theorem Beside.vlt {d e : Dev} (h : Beside d e) : e.vlt = d.vlt := by
  have k := congrArg Dev.vlt h.kept; exact k
theorem Beside.sys {d e : Dev} (h : Beside d e) : e.sys = d.sys := by
  have k := congrArg Dev.sys h.kept; exact k
theorem Beside.ports {d e : Dev} (h : Beside d e) : e.ports = d.ports := by
  have k := congrArg Dev.ports h.kept; exact k
theorem Beside.head {d e : Dev} (h : Beside d e) : e.head = d.head := by
  have k := congrArg Dev.head h.kept; exact k
theorem Beside.cross {d e : Dev} (h : Beside d e) : e.cross = d.cross := by
  have k := congrArg Dev.cross h.kept; exact k
theorem Beside.d2d {d e : Dev} (h : Beside d e) : e.d2d = d.d2d := by
  have k := congrArg Dev.d2d h.kept; exact k
theorem Beside.srcCache {d e : Dev} (h : Beside d e) : e.srcCache = d.srcCache := by
  have k := congrArg Dev.srcCache h.kept; exact k
theorem Beside.tab {d e : Dev} (h : Beside d e) : e.tab = d.tab := by
  have k := congrArg Dev.tab h.kept; exact k
theorem Beside.srch {d e : Dev} (h : Beside d e) : e.srch = d.srch := by
  have k := congrArg Dev.srch h.kept; exact k
theorem Beside.spn {d e : Dev} (h : Beside d e) : e.spn = d.spn := by
  have k := congrArg Dev.spn h.kept; exact k
theorem Beside.disp {d e : Dev} (h : Beside d e) : e.disp = d.disp := by
  have k := congrArg Dev.disp h.kept; exact k
theorem Beside.epc {d e : Dev} (h : Beside d e) : e.epc = d.epc := by
  have k := congrArg Dev.epc h.kept; exact k
theorem Beside.chk {d e : Dev} (h : Beside d e) : e.chk = d.chk := by
  have k := congrArg Dev.chk h.kept; exact k
theorem Beside.tm {d e : Dev} (h : Beside d e) : e.tm = d.tm := by
  have k := congrArg Dev.tm h.kept; exact k
theorem Beside.ctlQ {d e : Dev} (h : Beside d e) : e.ctlQ = d.ctlQ := by
  have k := congrArg Dev.ctlQ h.kept; exact k
theorem Beside.hbm {d e : Dev} (h : Beside d e) : e.hbm = d.hbm := by
  have k := congrArg Dev.hbm h.kept; exact k
theorem Beside.fab {d e : Dev} (h : Beside d e) : e.fab = d.fab := by
  have k := congrArg Dev.fab h.kept; exact k
theorem Beside.svc {d e : Dev} (h : Beside d e) : e.svc = d.svc := by
  have k := congrArg Dev.svc h.kept; exact k

/-- Everything that `settle` does beside the command's own effect. -/
theorem settle_beside (d0 d1 : Dev) : Beside d1 (settle d0 d1) := by
  unfold settle
  refine Beside.trans ?_ (evtUpdate_beside _)
  refine Beside.trans (b := if d1.spn.time = d0.spn.time then d1 else snapFreeze d1) (Beside.of_ite (Beside.refl _) (snapFreeze_beside d1)) ?_
  refine Beside.foldl _ (fun d p => ?_) _ _
  refine Beside.trans (b := if (!busyOf p d0 && busyOf p d1) = true then perfCount p 0x05 1 0 d else d)
    (Beside.of_ite (perfCount_beside _ _ _ _ d) (Beside.refl _)) (Beside.of_ite (Beside.refl _) (perfTime_beside _ _ _ _))

/-- Updates that read nothing the watchers move keep the relation. -/
theorem Beside.rset {d e : Dev} (h : Beside d e) (f : Fld) (g i v : Nat) : Beside (rset f g i v d) (rset f g i v e) :=
  ⟨by have k := congrArg (Machine.rset f g i v) h.kept; exact k, h.counts, h.sends, h.captures⟩
theorem Beside.setFace {d e : Dev} (h : Beside d e) (p : Nat) (x : Face) : Beside (setFace p x d) (setFace p x e) :=
  ⟨by have k := congrArg (Machine.setFace p x) h.kept; exact k, h.counts, h.sends, h.captures⟩
theorem Beside.face {d e : Dev} (h : Beside d e) (p : Nat) : face p e = face p d := by
  have k := congrArg Dev.faces h.kept
  simp only [Machine.face]
  exact congrArg (fun t => look t p (Face.reset p)) k
theorem Beside.rget {d e : Dev} (h : Beside d e) (f : Fld) (g i : Nat) : rget f g i e = rget f g i d := by
  have k := congrArg Dev.flds h.kept
  simp only [Machine.rget]
  exact congrArg (fun t => look t (f.key g i) (f.rst g i)) k
theorem Beside.noteErr {d e : Dev} (h : Beside d e) (x : Option (Nat × Nat)) (y : Tbl DmaProg) :
    Beside { d with lastErr := x, hif := { d.hif with prog := y } } { e with lastErr := x, hif := { e.hif with prog := y } } := by
  refine ⟨?_, h.counts, h.sends, h.captures⟩
  conv => rhs; rw [← h.kept]
theorem Beside.err {d e : Dev} (h : Beside d e) (p c o : Nat) : Beside (err p c o d) (err p c o e) := by
  simp only [Machine.err, h.face p, h.hif]
  have k := h.noteErr (some (p, c)) (d.hif.prog.map fun x => (x.1, x.2.note (p * 65536 + o) c))
  simp only [h.hif] at k
  exact k.setFace _ _

/-- What leaves the device keeps its order among the in-band interrupts. -/
theorem Beside.emit {d e : Dev} (h : Beside d e) (o : Out) : Beside (emit o d) (emit o e) := by
  refine ⟨?_, h.counts, ⟨h.sends.1.cons_cons o, ?_⟩, h.captures⟩
  · conv => rhs; rw [← h.kept]
    rfl
  · simp only [Machine.emit, List.filter_cons, h.sends.2]

/-- A source of a page that fires changes the page's pending bits. -/
theorem fire_beside (p n : Nat) (d : Dev) : Beside (setFace p { face p d with pend := setBit (face p d).pend n } d) (fire p n d) := by
  unfold fire
  exact Beside.of_ite (perfCount_beside _ _ _ _ _) ((perfCount_beside _ _ _ _ _).trans (evtUpdate_beside _))

/-- An overrun of a page counts in its Faceplate. -/
theorem overrun_beside (p : Nat) (d : Dev) : Beside (setFace p { face p d with overrun := min ((face p d).overrun + 1) 0xFFFF } d) (overrun p d) :=
  perfCount_beside _ _ _ _ _

/-- A command that runs f is carried out, and leaves the device as f does but for the watchers. -/
theorem run_does {c : Instr} {s : State} {f : Dev → Dev} {P : Dev → Prop} (h : exec c s = run f s) (hp : ∀ e, Beside (f s.dev) e → P e) : Does c s P :=
  ⟨_, h, rfl, hp _ (settle_beside _ _)⟩

end Sys2Proof.Safety

namespace Sys2Proof.Machine

open Safety

@[simp] theorem settle_faces (d0 d1 : Dev) : (settle d0 d1).faces = d1.faces := (settle_beside d0 d1).faces
@[simp] theorem settle_flds (d0 d1 : Dev) : (settle d0 d1).flds = d1.flds := (settle_beside d0 d1).flds
@[simp] theorem settle_drops (d0 d1 : Dev) : (settle d0 d1).drops = d1.drops := (settle_beside d0 d1).drops
@[simp] theorem settle_staged (d0 d1 : Dev) : (settle d0 d1).staged = d1.staged := (settle_beside d0 d1).staged
@[simp] theorem settle_snaps (d0 d1 : Dev) : (settle d0 d1).snaps = d1.snaps := (settle_beside d0 d1).snaps
@[simp] theorem settle_freeCtr (d0 d1 : Dev) : (settle d0 d1).freeCtr = d1.freeCtr := (settle_beside d0 d1).freeCtr
@[simp] theorem settle_lastErr (d0 d1 : Dev) : (settle d0 d1).lastErr = d1.lastErr := (settle_beside d0 d1).lastErr
@[simp] theorem settle_mono (d0 d1 : Dev) : (settle d0 d1).mono = d1.mono := (settle_beside d0 d1).mono
@[simp] theorem settle_hif (d0 d1 : Dev) : (settle d0 d1).hif = d1.hif := (settle_beside d0 d1).hif
@[simp] theorem settle_hwd (d0 d1 : Dev) : (settle d0 d1).hwd = d1.hwd := (settle_beside d0 d1).hwd
@[simp] theorem settle_banks (d0 d1 : Dev) : (settle d0 d1).banks = d1.banks := (settle_beside d0 d1).banks
@[simp] theorem settle_vlt (d0 d1 : Dev) : (settle d0 d1).vlt = d1.vlt := (settle_beside d0 d1).vlt
@[simp] theorem settle_sys (d0 d1 : Dev) : (settle d0 d1).sys = d1.sys := (settle_beside d0 d1).sys
@[simp] theorem settle_ports (d0 d1 : Dev) : (settle d0 d1).ports = d1.ports := (settle_beside d0 d1).ports
@[simp] theorem settle_head (d0 d1 : Dev) : (settle d0 d1).head = d1.head := (settle_beside d0 d1).head
@[simp] theorem settle_cross (d0 d1 : Dev) : (settle d0 d1).cross = d1.cross := (settle_beside d0 d1).cross
@[simp] theorem settle_d2d (d0 d1 : Dev) : (settle d0 d1).d2d = d1.d2d := (settle_beside d0 d1).d2d
@[simp] theorem settle_srcCache (d0 d1 : Dev) : (settle d0 d1).srcCache = d1.srcCache := (settle_beside d0 d1).srcCache
@[simp] theorem settle_tab (d0 d1 : Dev) : (settle d0 d1).tab = d1.tab := (settle_beside d0 d1).tab
@[simp] theorem settle_srch (d0 d1 : Dev) : (settle d0 d1).srch = d1.srch := (settle_beside d0 d1).srch
@[simp] theorem settle_spn (d0 d1 : Dev) : (settle d0 d1).spn = d1.spn := (settle_beside d0 d1).spn
@[simp] theorem settle_disp (d0 d1 : Dev) : (settle d0 d1).disp = d1.disp := (settle_beside d0 d1).disp
@[simp] theorem settle_epc (d0 d1 : Dev) : (settle d0 d1).epc = d1.epc := (settle_beside d0 d1).epc
@[simp] theorem settle_chk (d0 d1 : Dev) : (settle d0 d1).chk = d1.chk := (settle_beside d0 d1).chk
@[simp] theorem settle_tm (d0 d1 : Dev) : (settle d0 d1).tm = d1.tm := (settle_beside d0 d1).tm
@[simp] theorem settle_ctlQ (d0 d1 : Dev) : (settle d0 d1).ctlQ = d1.ctlQ := (settle_beside d0 d1).ctlQ
@[simp] theorem settle_hbm (d0 d1 : Dev) : (settle d0 d1).hbm = d1.hbm := (settle_beside d0 d1).hbm
@[simp] theorem settle_fab (d0 d1 : Dev) : (settle d0 d1).fab = d1.fab := (settle_beside d0 d1).fab
@[simp] theorem settle_svc (d0 d1 : Dev) : (settle d0 d1).svc = d1.svc := (settle_beside d0 d1).svc

@[simp] theorem rget_settle (f : Fld) (g i : Nat) (d0 d1 : Dev) : rget f g i (settle d0 d1) = rget f g i d1 := by simp [rget]
@[simp] theorem flag_settle (f : Fld) (g i : Nat) (d0 d1 : Dev) : flag f g i (settle d0 d1) = flag f g i d1 := by simp [flag]
@[simp] theorem face_settle (p : Nat) (d0 d1 : Dev) : face p (settle d0 d1) = face p d1 := by simp [face]
@[simp] theorem rget_rset_same (f : Fld) (g i v : Nat) (d : Dev) : rget f g i (rset f g i v d) = v % 2 ^ f.w := by simp [rget]
@[simp] theorem face_setFace_same (p : Nat) (x : Face) (d : Dev) : face p (setFace p x d) = x := by simp [face]

theorem rget_rset_ne {f h : Fld} {g i k l : Nat} (v : Nat) (d : Dev) (ne : f.key g i ≠ h.key k l) :
    rget f g i (rset h k l v d) = rget f g i d := by simp [rget, look_put_ne _ _ _ _ ne]
theorem face_setFace_ne {p q : Nat} (x : Face) (d : Dev) (ne : p ≠ q) : face p (setFace q x d) = face p d := by
  simp [face, look_put_ne _ _ _ _ ne]

end Sys2Proof.Machine
end

