-- ==== Sys2Proof/Laws/Access.lean ====
section
/-! SUPPORT. Register accesses: a write of the highest word of a register commits it. -/

namespace Sys2Proof.Machine

open Safety

theorem reg_addr_top (r : Reg) (g i : Nat) : r.addr g i + 4 * (r.lay.words - 1) = (r.lay.page + g) * 65536 + r.ofs i (r.lay.words - 1) := by
  simp only [Reg.addr, Reg.ofs]; omega

/-- The write of a register's highest word commits the image, and counts in the key windows (R42, R54). -/
theorem regWrite_commits {req : Requester} {r : Reg} {g i w img : Nat} {s : State} {d : Dev} (h : Commits req r g i w s d img)
    (hp : Lies r g i = true) :
    regWrite req (r.addr g i + 4 * (r.lay.words - 1)) w s.dev = keyTick req none (commit req r g i img d) := by
  obtain ⟨⟨hal, hheld⟩, hready, rfl, rfl⟩ := h
  simp only [Lies, Bool.and_eq_true, decide_eq_true_eq, Bool.not_eq_true'] at hp
  obtain ⟨⟨⟨⟨⟨⟨⟨hpage, ho⟩, ho'⟩, hm⟩, hc⟩, hx⟩, hpl⟩, hw⟩ := hp
  rw [reg_addr_top]
  generalize hP : r.lay.page + g = p at *
  generalize hO : r.ofs i (r.lay.words - 1) = o at *
  have e1 : (p * 65536 + o) / 65536 = p := by omega
  have e2 : (p * 65536 + o) % 65536 = o := by omega
  have hdef : defined p o = true := by simp [defined, hpl]
  have hskip : keySkip p o = none := by
    have : o ≠ 0x0C := by omega
    simp [keySkip, this]
  have h40 : ¬ o < 0x40 := by omega
  simp only [regWrite, busWrite, hal, hheld, doWrite, e1, e2, hpage, hskip, pageWrite, h40, hdef]
  have hr2 : (face p (islAccess (islandOf p) s.dev)).ready = true := by simpa [reached] using hready
  simp only [hr2, wordWrite]
  have c1 : ¬ o = 0x40 := by omega
  have c2 : ¬ (0x44 ≤ o ∧ o < 0x64 ∧ o % 4 = 0) := by omega
  have c3 : ¬ (0x80 ≤ o ∧ o < 0xC0 ∧ o % 4 = 0) := by omega
  have c4 : ¬ (0xC0 ≤ o ∧ o < 0x100 ∧ o % 4 = 0) := by omega
  have c5 : ¬ (r.lay.words - 1 + 1 < r.lay.words) := by omega
  simp [c1, c2, c3, c4, c5, hm, hc, hx, hpl, reached]

end Sys2Proof.Machine
end

