-- ==== Sys2Proof/Laws/Crc.lean ====
section
/-! SUPPORT. What the CRC-32C of flits and blocks says: its width, what a good block holds, and that a changed CRC is bad. -/
namespace Sys2Proof.Laws
open Machine

/-- A bit step stays within 32 bits. -/
theorem crcBit_lt {c : Nat} (h : c < 2 ^ 32) : crcBit c < 2 ^ 32 := by
  unfold crcBit
  split
  · exact Nat.xor_lt_two_pow (by omega) (by decide)
  · omega
/-- A byte step stays within 32 bits. -/
theorem crcByte_lt {c b : Nat} (h : c < 2 ^ 32) (k : b < 256) : crcByte c b < 2 ^ 32 := by
  have e : c ^^^ b < 2 ^ 32 := Nat.xor_lt_two_pow h (by omega)
  simp only [crcByte, Nat.repeat]
  exact crcBit_lt (crcBit_lt (crcBit_lt (crcBit_lt (crcBit_lt (crcBit_lt (crcBit_lt (crcBit_lt e)))))))
/-- The CRC has 32 bits. -/
theorem crc32c_lt (bs : Bytes) : crc32c bs < 2 ^ 32 := by
  have f : ∀ (l : Bytes) (c : Nat), c < 2 ^ 32 → l.foldl (fun c b => crcByte c b.toNat) c < 2 ^ 32 := by
    intro l
    induction l with
    | nil => exact fun c h => h
    | cons b l ih => exact fun c h => ih _ (crcByte_lt h b.isLt)
  exact Nat.xor_lt_two_pow (f _ _ (by decide)) (by decide)
/-- The upper 96 bits of a trailer. -/
theorem trailer_head (head c : Nat) (h : head < 2 ^ 96) (k : c < 2 ^ 32) : bits (head * 2 ^ 32 + c) 127 32 = head := by
  simp only [bits, Nat.shiftRight_eq_div_pow]
  omega
/-- The CRC of a trailer. -/
theorem trailer_crc (head c : Nat) (k : c < 2 ^ 32) : bits (head * 2 ^ 32 + c) 31 0 = c := by
  simp only [bits, Nat.shiftRight_eq_div_pow]
  omega
/-- A block whose CRC was computed over its data and trailer is good (R274). -/
theorem imgGood_crc (data : Bytes) (head : Nat) (h : head < 2 ^ 96) : imgGood { data := data, trailer := head * 2 ^ 32 + blockCrc data head } = true := by
  have k : blockCrc data head < 2 ^ 32 := crc32c_lt _
  simp only [imgGood, trailer_head _ _ h k, trailer_crc _ _ k, beq_self_eq_true]
/-- With another CRC it is bad. -/
theorem imgGood_other (data : Bytes) (head c : Nat) (h : head < 2 ^ 96) (k : c < 2 ^ 32) (n : c ≠ blockCrc data head) :
    imgGood { data := data, trailer := head * 2 ^ 32 + c } = false := by
  simp only [imgGood, trailer_head _ _ h k, trailer_crc _ _ k, beq_eq_false_iff_ne, ne_eq, n, not_false_eq_true]
/-- SEQ of a block stands in the lowest 15 bits above the CRC. -/
theorem imgSeq_head (data : Bytes) (head c : Nat) (k : c < 2 ^ 32) : imgSeq { data := data, trailer := head * 2 ^ 32 + c } = head % 2 ^ 15 := by
  simp only [imgSeq, bits, Nat.shiftRight_eq_div_pow]
  omega
/-- A trailer's fields fit. -/
theorem trailerHead_lt (kind next used1 first seq : Nat) (h : kind < 4) : trailerHead kind next used1 first seq < 2 ^ 96 := by
  have p : handlePar next < 2 := Nat.mod_lt _ (by decide)
  simp only [trailerHead]
  omega
/-- A block as it is written is good (R274). -/
theorem imgGood_blockImg (kind next used1 first seq : Nat) (data : Bytes) (h : kind < 4) : imgGood (blockImg kind next used1 first seq data) = true :=
  imgGood_crc _ _ (trailerHead_lt _ _ _ _ _ h)
/-- SEQ of a block as it is written. -/
theorem imgSeq_blockImg (kind next used1 first seq : Nat) (data : Bytes) : imgSeq (blockImg kind next used1 first seq data) = seq % 2 ^ 15 := by
  have k : blockCrc (data ++ List.replicate (256 - data.length) 0) (trailerHead kind next used1 first seq) < 2 ^ 32 := crc32c_lt _
  rw [blockImg, imgSeq_head _ _ _ k]
  simp only [trailerHead]
  omega

/-- Bytes whose CRC is good have a bad one once the first byte of the CRC is another. -/
theorem flitGood_other (p t : Bytes) (w w' x y z : Byte) (h : p.length = 376) (k : w ≠ w') (g : flitGood (p ++ w :: x :: y :: z :: t) = true) :
    flitGood (p ++ w' :: x :: y :: z :: t) = false := by
  have n : w.toNat ≠ w'.toNat := fun e => k (BitVec.eq_of_toNat_eq e)
  have u (v : Byte) : (p ++ v :: x :: y :: z :: t).take 376 = p := by rw [← h]; exact List.take_left
  have b (v : Byte) : beAt (p ++ v :: x :: y :: z :: t) 376 4 = ((v.toNat * 256 + x.toNat) * 256 + y.toNat) * 256 + z.toNat := by
    simp [beAt, byteAt, List.range_succ, List.getElem?_append_right, h]
  simp only [flitGood, u, b, beq_iff_eq] at g
  simp only [flitGood, u, b, beq_eq_false_iff_ne]
  omega
/-- The four bytes of a number read back as the number. -/
theorem beAt_beBytes (p t : Bytes) {n c : Nat} (h : p.length = n) (k : c < 2 ^ 32) : beAt (p ++ (beBytes 4 c ++ t)) n 4 = c := by
  simp [beAt, byteAt, beBytes, leBytes, List.range_succ, List.getElem?_append_right, h]
  omega
/-- A flit as it leaves has a good CRC (R260). -/
theorem flitGood_flitBytes (f : Flit) (h : f.words.length = 44) : flitGood (flitBytes f) = true := by
  unfold flitBytes
  simp only []
  generalize hp : beBytes 24 _ ++ wordsBytes f.words = p
  have k : p.length = 376 := by rw [← hp]; simp [beBytes, leBytes, wordsBytes, h]
  rw [List.append_assoc]
  simp only [flitGood, beAt_beBytes p _ k (crc32c_lt p), List.take_left' k, beq_self_eq_true]
/-- A cell as it leaves has a good CRC (R366). -/
theorem crcOk_cellBytes (c : Cell) : (wireCell (cellBytes c)).crcOk = true := by
  unfold cellBytes
  simp only []
  generalize hp : beBytes 16 (cellHeader c) ++ c.payload.take 256 ++ List.replicate (256 - c.payload.length) 0 ++ beBytes 4 _ = p
  have k : p.length = 276 := by rw [← hp]; simp [beBytes, leBytes]; omega
  have e := beAt_beBytes p [] k (crc32c_lt p)
  rw [List.append_nil] at e
  have l : (p ++ beBytes 4 (crc32c p)).length = 280 := by simp [beBytes, leBytes, k]
  simp only [wireCell, e, l, List.take_left' k, beq_self_eq_true, Bool.and_self]
/-- A flit can be spoiled on the wires (R260). -/
theorem flit_spoiled (f : Flit) (h : f.words.length = 44) : ∃ flips, flitGood (flipBits (flitBytes f) flips) = false := by
  by_cases g : flitGood (flitBytes f) = true
  · refine ⟨[3008], ?_⟩
    unfold flitBytes at g ⊢
    have l : ∀ n, (beBytes 24 n ++ wordsBytes f.words).length = 376 := by intro n; simp [beBytes, leBytes, wordsBytes, h]
    revert g
    simp only []
    generalize hp : beBytes 24 _ ++ wordsBytes f.words = p
    have k : p.length = 376 := hp ▸ l _
    intro g
    generalize crc32c p = c at g ⊢
    obtain ⟨w, x, y, z, e⟩ : ∃ w x y z, beBytes 4 c = [w, x, y, z] := ⟨_, _, _, _, rfl⟩
    rw [e] at g ⊢
    have j : flipBits (p ++ [w, x, y, z] ++ List.replicate 4 0) [3008] = p ++ (w ^^^ 1) :: x :: y :: z :: List.replicate 4 0 := by simp [flipBits, k]
    rw [j]
    exact flitGood_other _ _ w _ _ _ _ k ((by decide : ∀ w : Byte, w ≠ w ^^^ 1) w) (by simpa using g)
  · exact ⟨[], by simpa [flipBits] using g⟩
end Sys2Proof.Laws
end

