-- ==== Sys2Proof/Tests/Slice0.lean ====
section
/-! SUPPORT. Tests: for every statement of Sys2Proof/Certificates/Slice0/Obligations.lean a state and operands that meet its
premises, at the boundaries of the ranges that it names (theorems wit_…); the checks of well-formedness (test_wf_…); and the
behaviour on worked examples of the spec (test_…). -/

namespace Sys2Proof.Tests

open Machine Safety

set_option Elab.async false
set_option autoImplicit false

/-! Small states out of reset, and what the statements' premises ask of a state. -/

/-- A device out of reset with nothing placed: the pages ps are enabled and READY, the islands is run, and f is set up. -/
def up (ps is : List Nat) (f : Dev → Dev := id) : State :=
  { dev := f { sys := { porPin := false, chipHold := false }, faces := ps.map fun p => (p, { Face.reset p with en := true, ready := true }),
               flds := is.map fun n => (CLK_ISLn.STATE.key 0 n, 2) },
    pending := [] }
/-- The device after command c. -/
def after (c : Instr) (s : State) : Dev := match exec c s with | .next t => t.dev | _ => s.dev

/-- A write commits in a state that takes it on a READY page. -/
theorem commits {req : Requester} {r : Reg} {g i w : Nat} {s : State} (h : alive s.dev = true ∧ heldNow req s.dev = false)
    (k : (face (r.lay.page + g) (reached (r.lay.page + g) s)).ready = true) :
    Commits req r g i w s (unstage req (r.lay.page + g) (r.ofs i 0) (reached (r.lay.page + g) s))
      (commitImg (stagedWords req (r.lay.page + g) (r.ofs i 0) (reached (r.lay.page + g) s))
        (regImg r g i (liveView r i (reached (r.lay.page + g) s))) r.lay.words w) := ⟨h, k, rfl, rfl⟩
/-- An island that runs does its work. -/
theorem runs {n : Nat} {s : State} (h : islOn n s.dev = true) : Runs n s (ungate n s.dev) := ⟨h, rfl⟩
/-- A port with its reference clock and its island running is reached. -/
theorem line {n : Nat} {s : State} (h : lineRef n s.dev = true) (k : islOn (n / 4) s.dev = true) : Line n s (ungate (n / 4) s.dev) := ⟨h, k, rfl⟩
/-- A fabric link with its reference clock and its island running is reached. -/
theorem fabLine {l : Nat} {s : State} (h : fabRef l s.dev = true) (k : islOn (107 + l / 8) s.dev = true) :
    FabLine l s (ungate (107 + l / 8) s.dev) := ⟨h, k, rfl⟩

/-- An access is taken by a device out of reset. -/
theorem taken {req : Requester} {s : State} (h : alive s.dev = true ∧ heldNow req s.dev = false) : Taken req s := h

/-- The image of register r of which PCIe has staged all words but the highest. -/
def staging (r : Reg) (g i img : Nat) (d : Dev) : Dev :=
  { d with staged := [(stageKey .pcie (r.lay.page + g), { base := r.ofs i 0, words := imgWords img (r.lay.words - 1) })] }

/-! Premises of the statements on registers. -/

theorem wit_PlainRegisterAccess_rw : Lies .AON_CFG 0 0 = true ∧ ∃ s d img, Commits .pcie .AON_CFG 0 0 1 s d img ∧
    commitFront .pcie .AON_CFG 0 0 img d = none ∧ commitTm .pcie .AON_CFG 0 0 img d = none ∧ commitHost .pcie .AON_CFG 0 img d = none ∧
    ∀ x ∈ Reg.fields .AON_CFG, x.acc ≠ .rwx :=
  ⟨by decide +kernel, up [3] [], _, _, commits (by decide +kernel) (by decide +kernel), by decide +kernel⟩
theorem wit_PlainRegisterAccess_rwx : Lies .TCM_SCRUB_CFG 0 0 = true ∧ (∃ x ∈ Reg.fields .TCM_SCRUB_CFG, x.acc = .rwx) ∧
    (∃ s d img, Commits .i3c .TCM_SCRUB_CFG 0 0 0 s d img ∧ expertOf 0x3A d = false) ∧
    ∃ s d img, Commits .i3c .TCM_SCRUB_CFG 0 0 0 s d img ∧ commitFront .i3c .TCM_SCRUB_CFG 0 0 img d = none ∧
      commitTm .i3c .TCM_SCRUB_CFG 0 0 img d = none ∧ commitHost .i3c .TCM_SCRUB_CFG 0 img d = none ∧ expertOf 0x3A d = true :=
  ⟨by decide +kernel, by decide +kernel, ⟨up [0x3A] [], _, _, commits (by decide +kernel) (by decide +kernel), by decide +kernel⟩,
    up [0x3A] [] (fun d => setFace 0x3A { face 0x3A d with expert := true } d), _, _, commits (by decide +kernel) (by decide +kernel), by decide +kernel⟩
theorem wit_PlainRegisterAccess_staged : ∃ s, Taken .pcie s ∧ (face 0 (reached 0 s)).ready = true ∧ pageExists 0 = true ∧
    0x100 ≤ Reg.ofs .GLB_SERIAL 0 0 ∧ inMsix 0 (Reg.ofs .GLB_SERIAL 0 0) = false ∧ isCounter 0 (Reg.ofs .GLB_SERIAL 0 0) = false ∧
    placeAt 0 (Reg.ofs .GLB_SERIAL 0 0) = some ⟨.GLB_SERIAL, 0, 0, 0⟩ ∧ 0 + 1 < (Reg.lay .GLB_SERIAL).words :=
  ⟨up [0] [], taken (by decide +kernel), by decide +kernel⟩
theorem wit_PlainRegisterAccess_read : ∃ s, Taken .pcie s ∧ readEffect .GLB_SERIAL 0 0 (reached 0 s) = reached 0 s ∧ (Reg.lay .GLB_SERIAL).words ≠ 1 ∧
    placeAt 3 (Reg.ofs .AON_CFG 0 0) = some ⟨.AON_CFG, 0, 0, 0⟩ ∧ readEffect .AON_CFG 0 0 (reached 3 s) = reached 3 s ∧ (Reg.lay .AON_CFG).words = 1 :=
  ⟨up [0, 3] [], taken (by decide +kernel), by decide +kernel⟩
theorem wit_BadAccesses : ∃ s, Taken .pcie s ∧ pageExists (BitVec.toNat (0xFFFFFFC : BitVec 28) / 65536) = false ∧ alive s.dev = true :=
  ⟨up [] [], taken (by decide +kernel), by decide +kernel⟩
theorem wit_FaceplateControl_write : ∃ s, Taken .pcie s ∧ governor 8 = 8 ∧ (face 8 (reached 8 s)).blkRst = false ∧ bit 0x13 2 = false ∧
    (face 8 (reached 8 s)).en = false ∧ enRefused 8 (reached 8 s) = 0 ∧ bit 0x13 1 = true ∧ (face 8 (reached 8 s)).expert = false :=
  ⟨up [] [98], taken (by decide +kernel), by decide +kernel⟩
theorem wit_FaceplateControl_reset : (∃ s, Taken .pcie s ∧ (face 8 (reached 8 s)).en = false) ∧
    (∃ s, Taken .pcie s ∧ (face 8 (reached 8 s)).en = true ∧ bit 0x5 0 = true) ∧
    ∃ s : State, islOn (islandOf 8) s.dev = true ∧ (face 8 s.dev).blkRst = true ∧ (face 8 s.dev).enPend = false ∧ 8 * 65536 * 1024 / 1024 / 65536 = 8 ∧
      keepsFld 8 (8 * 65536 * 1024) = false :=
  ⟨⟨up [] [], taken (by decide +kernel), by decide +kernel⟩, ⟨up [8] [], taken (by decide +kernel), by decide +kernel⟩,
    up [8] [98] (fun d => setFace 8 { face 8 d with blkRst := true } d), by decide +kernel⟩
theorem wit_FaceplateControl_key : ∃ s, Taken .pcie s ∧ governor 8 = 8 ∧ (face 8 s.dev).key = .armed ∧ (face 8 s.dev).window ≤ 1 ∧
    keyCounts .pcie = true ∧ 0x8002C % 65536 < 0x40 :=
  ⟨up [8] [] (fun d => setFace 8 { face 8 d with key := .armed, window := 1 } d), taken (by decide +kernel), by decide +kernel⟩
theorem wit_FaceplateEvents : ∃ s, Taken .pcie s ∧ onTmDie (pageNum .glb) = false ∧ onTmDie (pageNum .chk) = true ∧
    (0x8 &&& clrBits (evtSources 0x30) (evtService 0x30) = 0) ∧ (0x1 &&& clrBits (evtSources 0x30) (evtService 0x30) ≠ 0) :=
  ⟨up [0x30] [], taken (by decide +kernel), by decide +kernel⟩
theorem wit_OwnerClaims_face : ∃ s, Taken .pcie s ∧ idRefused .pcie 0xF000 = true ∧ idRefused .pcie 0xEFFF = false ∧ bit 0x7FFFFFFF 31 = false ∧
    (face 4 (reached 4 s)).owner = 0 ∧ (face 0x81 (reached 0x81 s)).owner = 0xEFFF :=
  ⟨up [0x81] [] (fun d => setFace 0x81 { face 0x81 d with owner := 0xEFFF } d), taken (by decide +kernel), by decide +kernel⟩
theorem wit_OwnerClaims_slice : (∃ s d img, Commits .pcie .TCM_SLICEk_OWNER 0 15 (2 ^ 31 + 7) s d img ∧ lockHolder .TCM_SLICEk_OWNER 15 d = 0) ∧
    (∃ s d img, Commits .pcie .TCM_SLICEk_OWNER 0 15 (2 ^ 31 + 7) s d img ∧ lockHolder .TCM_SLICEk_OWNER 15 d = 8) ∧
    (∃ s d img, Commits .pcie .TCM_SLICEk_OWNER 0 15 (2 ^ 31 + 2 ^ 30 + 8) s d img ∧ lockHolder .TCM_SLICEk_OWNER 15 d = 8) ∧
    ∃ s d img, Commits .pcie .TCM_SLICEk_OWNER 0 15 0xF000 s d img ∧ bit 0xF000 31 = false :=
  ⟨⟨up [0x3A] [], _, _, commits (by decide +kernel) (by decide +kernel), by decide +kernel⟩,
    ⟨up [0x3A] [] (rset ⟨.TCM_SLICEk_OWNER, 0, 16⟩ 0 15 8), _, _, commits (by decide +kernel) (by decide +kernel), by decide +kernel⟩,
    ⟨up [0x3A] [] (rset ⟨.TCM_SLICEk_OWNER, 0, 16⟩ 0 15 8), _, _, commits (by decide +kernel) (by decide +kernel), by decide +kernel⟩,
    up [0x3A] [], _, _, commits (by decide +kernel) (by decide +kernel), by decide +kernel⟩
theorem wit_ClocksBanksAndPower_gate : ∃ s : State, islState 101 s.dev = 2 ∧ flag CLK_X_ISLn.FORCE_ON 0 101 s.dev = false ∧
    (∀ p ∈ allPages, islandOf p = 101 → lowpwr p s.dev = true) ∧ islState 102 s.dev = 3 ∧ islWork 101 s.dev = false ∧ mayRetain (placeNum (.page .hwd)) 0 s.dev = true ∧
    mayRetain (placeNum (.region 0)) 15 s.dev = true ∧
    bit (look s.dev.banks.retained 87 0) 15 = true ∧ bit (look s.dev.banks.retained 256 0) 0 = true :=
  ⟨up [] [101] (fun d => setIsl 102 3 { d with mono := 10 ^ 9, banks := { d.banks with retained := [(87, 0x8000), (256, 1)] } }), by decide +kernel⟩
theorem wit_ClocksBanksAndPower_samples : (∃ s d, Runs 99 s d ∧ d.hwd.pwrAt + 1000000 ≤ d.hwd.aonNs ∧
    d.sys.dieAt + 1000000 ≤ d.hwd.aonNs ∧ d.sys.hotFe = false) ∧ ∃ s d img, Commits .i3c .GLB_PWR_PEAK 0 0 0 s d img :=
  ⟨⟨up [] [99] (onHwd fun h => { h with aonNs := 1000000 }), _, runs (by decide +kernel), by decide +kernel⟩, up [0] [], _, _, commits (by decide +kernel) (by decide +kernel)⟩

/-! Premises of the statements on line ports. Port 0 with its island, its lanes and its page. -/

/-- Port 0 enabled in state st, with x done. -/
def portUp (st : Nat) (x : Dev → Dev := id) : State := up [0x10, 0x11] [0] fun d => x (rset LPG_PORTn_CFG.EN 0 0 1 (rset LPG_PORTn_STAT.LINK_STATE 0 0 st d))

theorem wit_LinkBringUp_mode : (∃ s d img, Commits .pcie .LPG_MODE 0 0 5 s d img ∧ groupEn 0 d = false ∧ groupEn 1 d = false ∧ lpgMode 1 d = 6 ∧ LPG_MODE.MODE.of img = 5) ∧
    (∃ s d img, Commits .pcie .LPG_MODE 1 0 6 s d img ∧ groupEn 1 d = false ∧ groupEn 0 d = false ∧ lpgMode 0 d = 0 ∧ LPG_MODE.MODE.of img = 6) ∧
    (∃ s d img, Commits .pcie .LPG_MODE 1 0 4 s d img ∧ groupEn 1 d = false ∧ lpgMode 1 d ≤ 4 ∧ lpgMode 0 d ≤ 4 ∧ LPG_MODE.MODE.of img ≤ 4) ∧
    (∃ s d img, Commits .pcie .LPG_MODE 0 0 4 s d img ∧ groupEn 0 d = true) ∧ (∃ s d img, Commits .pcie .LPG_MODE 0 0 7 s d img ∧ 6 < LPG_MODE.MODE.of img) ∧
    (∃ s d img, Commits .pcie .LPG_MODE 1 0 5 s d img ∧ LPG_MODE.MODE.of img = 5) ∧ ∃ s d img, Commits .pcie .LPG_MODE 0 0 6 s d img ∧ LPG_MODE.MODE.of img = 6 :=
  ⟨⟨up [0x10, 0x11] [] (rset LPG_MODE.MODE 1 0 6), _, _, commits (by decide +kernel) (by decide +kernel), by decide +kernel⟩,
    ⟨up [0x10, 0x11] [], _, _, commits (by decide +kernel) (by decide +kernel), by decide +kernel⟩,
    ⟨up [0x10, 0x11] [], _, _, commits (by decide +kernel) (by decide +kernel), by decide +kernel⟩,
    ⟨portUp 1, _, _, commits (by decide +kernel) (by decide +kernel), by decide +kernel⟩,
    ⟨up [0x10] [], _, _, commits (by decide +kernel) (by decide +kernel), by decide +kernel⟩,
    ⟨up [0x11] [], _, _, commits (by decide +kernel) (by decide +kernel), by decide +kernel⟩,
    up [0x10] [], _, _, commits (by decide +kernel) (by decide +kernel), by decide +kernel⟩
theorem wit_LinkBringUp_enable : (∃ s d img, Commits .pcie .LPG_PORTn_CFG 0 0 (force 0x24000000 [(0, 0, 1)]) s d img ∧ LPG_PORTn_CFG.MAX_FRAME.of img = 9216 ∧
      LPG_PORTn_CFG.MEDIA.of img ≠ 3 ∧ portExists 0 d = true ∧ pflag LPG_PORTn_CFG.EN 0 d = false ∧ linkState 0 d = 0 ∧ blkEn 0x10 d = true ∧
      ∀ l ∈ portLanes 0 d, bit d.sys.badLine (physLane l d) = false) ∧
    ∃ s d img, Commits .pcie .LPG_PORTn_CFG 0 0 (force 0x400000 [(0, 0, 0)]) s d img ∧ 64 ≤ LPG_PORTn_CFG.MAX_FRAME.of img ∧
      LPG_PORTn_CFG.MAX_FRAME.of img ≤ 9216 ∧ pflag LPG_PORTn_CFG.EN 0 d = true ∧ (port 0 d).txNow = some {} :=
  ⟨⟨up [0x10] [] (rset LPG_MODE.MODE 0 0 1), _, _, commits (by decide +kernel) (by decide +kernel), by decide +kernel⟩,
    portUp 4 (fun d => setPort 0 { port 0 d with txNow := some {} } d), _, _, commits (by decide +kernel) (by decide +kernel), by decide +kernel⟩
theorem wit_Link_states : ∀ st ∈ [1, 2, 3, 4, 5], ∃ s d, Line 0 s d ∧ Runs 0 s d ∧ linkState 0 d = st ∧ (port 0 d).clean = false := by
  intro st h
  refine ⟨portUp st, _, line (by revert st; decide +kernel) (by revert st; decide +kernel), runs (by revert st; decide +kernel), ?_⟩
  revert st; decide +kernel
theorem wit_LinkUpAndFaults_clean : ∃ s d, Runs 0 s d ∧ linkState 0 d = 5 ∧ (port 0 d).clean = true :=
  ⟨portUp 5 (fun d => setPort 0 { port 0 d with clean := true } d), _, runs (by decide +kernel), by decide +kernel⟩
theorem wit_LinkUpAndFaults_break : ∃ s d, Runs 0 s d ∧ linkState 0 d = 5 ∧ (port 0 d).clean = true ∧ (port 0 d).expired = true :=
  ⟨portUp 5 (fun d => setPort 0 { port 0 d with clean := true, expired := true } d), _, runs (by decide +kernel), by decide +kernel⟩
theorem wit_LinkUpAndFaults_verify : ∀ a ∈ [0, 1, 2, 3], ∃ s d, Runs 0 s d ∧ Line 0 s d ∧ linkState 0 d = 4 ∧ pflag LPG_PORTn_PREEMPT.EN 0 d = true ∧
    pflag LPG_PORTn_PREEMPT.VERIFY_EN 0 d = true ∧ (port 0 d).verified = false ∧ (port 0 d).attempts = a ∧
    (port 0 d).verAt + pget LPG_PORTn_PREEMPT.VERIFY_TIME 0 d * 1000000 ≤ d.mono := by
  intro a h
  refine ⟨portUp 4 (fun d => rset LPG_PORTn_PREEMPT.EN 0 0 1 (rset LPG_PORTn_PREEMPT.VERIFY_EN 0 0 1 (setPort 0 { port 0 d with attempts := a } { d with mono := 10 ^ 9 }))), _,
    runs (by revert a; decide +kernel), line (by revert a; decide +kernel) (by revert a; decide +kernel), ?_⟩
  revert a; decide +kernel
/-- A frame of n bytes with EtherType 0x8808 where pause is asked for. -/
def frame (n : Nat) (pause : Bool) : Bytes := List.replicate 12 0 ++ (if pause then [0x88, 0x08] else [0x08, 0x00]) ++ List.replicate (n - 14) 0
theorem wit_LineFrames_receive : ∃ s d, Line 0 s d ∧ linkState 0 d = 4 ∧ blkEn 0x10 d = true ∧ pget LPG_PORTn_CFG.MAX_FRAME 0 d < 1515 + 4 ∧
    (frame 59 false).length + 4 < 64 ∧ 64 ≤ (frame 60 false).length + 4 ∧ (frame 60 false).length + 4 ≤ pget LPG_PORTn_CFG.MAX_FRAME 0 d ∧
    beAt (frame 60 true) 12 2 = 0x8808 ∧ beAt (frame 60 false) 12 2 ≠ 0x8808 ∧ (msecReceive 0 (frame 60 false) none d).1.1 = 0 ∧
    fifoBytes (fifoOf 0) d + 60 ≤ 32768 ∧ pflag LPG_PORTn_MSEC.EN 0 d = false :=
  ⟨portUp 4 (rset LPG_PORTn_CFG.MAX_FRAME 0 0 1518), _, line (by decide +kernel) (by decide +kernel), by decide +kernel⟩
theorem wit_LineFrames_validate : ∃ s d, Line 0 s d ∧ linkState 0 d = 4 ∧ blkEn 0x10 d = true ∧ (msecReceive 0 (frame 60 false) none d).1.1 ≠ 0 :=
  ⟨portUp 4 (fun d => rset LPG_PORTn_MSEC.EN 0 0 1 (rset LPG_PORTn_MSEC.VALIDATE 0 0 2 d)), _, line (by decide +kernel) (by decide +kernel), by decide +kernel⟩
/-- Port 0 with one frame that waits, MACsec as said and a transmit SA where there is one. -/
def sending (f : TxFrame) (msec sa : Bool) : State := portUp 4 fun d => rset LPG_PORTn_MSEC.EN 0 0 (b2n msec) (setPort 0 { port 0 d with
  txWait := [f], tx := if sa then [(0, { valid := true, nextPn := 2 ^ 32 - 2 })] else [], cur := if sa then [(0, 0)] else [] } d)
theorem wit_LineFrames_start : (∃ s d f x, Line 0 s d ∧ linkState 0 d = 4 ∧ blkEn 0x10 d = true ∧ txPick 0 d = some (f, x) ∧ f.fragment = false ∧
      pflag LPG_PORTn_MSEC.EN 0 d = false ∧ f.tso = none) ∧
    (∃ s d f x, Line 0 s d ∧ linkState 0 d = 4 ∧ blkEn 0x10 d = true ∧ txPick 0 d = some (f, x) ∧ f.fragment = true) ∧
    (∃ s d f x, Line 0 s d ∧ linkState 0 d = 4 ∧ blkEn 0x10 d = true ∧ txPick 0 d = some (f, x) ∧ f.fragment = false ∧
      pflag LPG_PORTn_MSEC.EN 0 d = true ∧ saUsable 0 f.sc (setPort 0 x d) = some 0) ∧
    ∃ s d f x, Line 0 s d ∧ linkState 0 d = 4 ∧ blkEn 0x10 d = true ∧ txPick 0 d = some (f, x) ∧ f.fragment = false ∧
      pflag LPG_PORTn_MSEC.EN 0 d = true ∧ saUsable 0 f.sc (setPort 0 x d) = none :=
  ⟨⟨sending {} false false, _, {}, { }, line (by decide +kernel) (by decide +kernel), by decide +kernel⟩,
    ⟨sending { fragment := true } false false, _, { fragment := true }, {}, line (by decide +kernel) (by decide +kernel), by decide +kernel⟩,
    ⟨sending {} true true, _, {}, { tx := [(0, { valid := true, nextPn := 2 ^ 32 - 2 })], cur := [(0, 0)] }, line (by decide +kernel) (by decide +kernel), by decide +kernel⟩,
    sending {} true false, _, {}, {}, line (by decide +kernel) (by decide +kernel), by decide +kernel⟩
theorem wit_LineFrames_plain : ∃ s d, Line 0 s d ∧ linkState 0 d = 4 ∧ blkEn 0x10 d = true ∧ (port 0 d).txNow = none ∧ (port 0 d).txPre = none ∧
    (port 0 d).txWait = [{}] ∧ gateLets 0 {} d = true ∧ pflag LPG_PORTn_STAT.PREEMPT_ACTIVE 0 d = false ∧ pflag LPG_PORTn_MSEC.EN 0 d = false :=
  ⟨sending {} false false, _, line (by decide +kernel) (by decide +kernel), by decide +kernel⟩
theorem wit_LineFrames_fifo : ∃ s, Taken .pcie s ∧ (port 0 s.dev).fifo = (7, 1, 999999999, 0) :: [] :=
  ⟨portUp 4 (fun d => setPort 0 { port 0 d with fifo := [(7, 1, 999999999, 0)] } d), taken (by decide +kernel), by decide +kernel⟩
/-- Port 0 with transmit SA 3 current where said, and a key of the port's size in vault slot 5. -/
def keyed (cur : Bool) (h : Nat) : State := portUp 4 fun d => rset LPG_SA_DATA.KEY_HANDLE 0 0 h { (setPort 0 { port 0 d with
  tx := [(3, { valid := true, key := [1] })], cur := if cur then [(0, 3)] else [] } d) with vlt := { slots := [(5, [1, 16, 0, 0] ++ List.replicate 60 7)] } }
theorem wit_LineFrames_sa_key : ∃ s d img, Commits .pcie .LPG_SA_CMD 0 0 (force 0x40000003 [(31, 31, 1), (29, 28, 0)]) s d img ∧ LPG_SA_CMD.DIR.on img = true ∧
    saIsCurrent 0 (LPG_SA_CMD.SA.of img) d = false ∧ saKey 0 (rget LPG_SA_DATA.KEY_HANDLE 0 0 d) d = some (List.replicate 16 7) :=
  ⟨keyed false 5, _, _, commits (by decide +kernel) (by decide +kernel), by decide +kernel⟩
theorem wit_LineFrames_sa_no_key : ∃ s d img, Commits .pcie .LPG_SA_CMD 0 0 (force 0 [(31, 31, 1), (29, 28, 0)]) s d img ∧
    LPG_SA_CMD.DIR.on img = false ∧ saKey 0 (rget LPG_SA_DATA.KEY_HANDLE 0 0 d) d = none :=
  ⟨keyed false 0, _, _, commits (by decide +kernel) (by decide +kernel), by decide +kernel⟩
theorem wit_LineFrames_sa_commands : ∀ k ∈ [0, 1, 2, 3], ∀ cur ∈ [true, false], ∃ s d img,
    Commits .pcie .LPG_SA_CMD 0 0 (force 0x40000003 [(31, 31, 1), (29, 28, k)]) s d img ∧ LPG_SA_CMD.DIR.on img = true ∧
    LPG_SA_CMD.PORT.of img = 0 ∧ (port 0 d).txNow = none ∧ flag LPG_SA_CMD.GO 0 0 d = false ∧ saIsCurrent 0 (LPG_SA_CMD.SA.of img) d = cur ∧ (saOf 0 true (LPG_SA_CMD.SA.of img) d).valid = true := by
  intro k hk cur hc
  refine ⟨keyed cur 0, _, _, commits (by revert cur; decide +kernel) (by revert cur; decide +kernel), ?_⟩
  revert k cur; decide +kernel
theorem wit_LineFrames_sa_waits : ∀ k ∈ [0, 1, 2, 3], ∃ s d img, Commits .pcie .LPG_SA_CMD 0 0 (force 0x40000003 [(31, 31, 1), (29, 28, k)]) s d img ∧
    LPG_SA_CMD.DIR.on img = true ∧ LPG_SA_CMD.PORT.of img = 0 ∧ (port 0 d).txNow.isSome = true ∧ flag LPG_SA_CMD.GO 0 0 d = false := by
  intro k hk
  refine ⟨portUp 4 fun d => setPort 0 { port 0 d with txNow := some {} } d, _, _, commits (by decide +kernel) (by decide +kernel), ?_⟩
  revert k; decide +kernel
theorem wit_LineFrames_sa_invalid : ∃ s d img, Commits .pcie .LPG_SA_CMD 0 0 (force 0x4000003F [(31, 31, 1), (29, 28, 3)]) s d img ∧
    (saOf 0 true (LPG_SA_CMD.SA.of img) d).valid = false :=
  ⟨keyed false 0, _, _, commits (by decide +kernel) (by decide +kernel), by decide +kernel⟩
/-- Port 0 with transmit SA 3 of SC 0 current at its last packet number and SA 0 as said. -/
def spent (next arm : Bool) : State := portUp 4 fun d => rset LPG_PORTn_MSEC.TX_NEXT_ARM 0 0 (b2n arm) (setPort 0 { port 0 d with
  tx := [(0, { valid := next, sci := 1 }), (3, { valid := true, nextPn := 2 ^ 32 - 1 })], cur := [(0, 3)] } d)
theorem wit_LineFrames_switch : ∀ next ∈ [true, false], ∀ arm ∈ [true, false], ∃ s d, Runs 0 s d ∧ (port 0 d).txNow = none ∧ find? (port 0 d).cur 0 = some 3 ∧
    (saOf 0 true 3 d).valid = true ∧ lastPn 0 d ≤ (saOf 0 true 3 d).nextPn ∧ (port 0 d).exh.contains 0 = false ∧ (saOf 0 true (4 * 0 + (3 + 1) % 4) d).valid = next ∧
    pflag LPG_PORTn_MSEC.TX_NEXT_ARM 0 d = arm := by
  intro next h arm k
  refine ⟨spent next arm, _, runs (by revert next arm; decide +kernel), ?_⟩
  revert next arm; decide +kernel

/-! Premises of the statements on passes and tables. -/

/-- A profile at index 0 of bank A with slot 0 of kind k, argument a; nothing else. -/
def prof (k a : Nat) (d : Dev) : Dev := rset (HDS_PROF.VALID 0) 0 0 1 (rset (HDS_PROF.KIND 0 0) 0 0 k (rset (HDS_PROF.ARG 0 0) 0 0 a d))
/-- An IPv4 frame of 60 bytes on line port 0 in front of the Headstock, with a first cell cached. -/
def parsing (x : Dev → Dev := id) : State := up [0x30, 0x40, 0x80] [32] fun d => x { (prof 0 0 d) with
  head := { d.head with fifos := [(0, [{ port := 0, bytes := List.replicate 60 0 }])] }, srcCache := [(0, [77])] }
theorem wit_Passes_parse : ∃ s d f rest h hs, Runs 32 s d ∧ blkEn Pg.HDS d = true ∧ ingressOpen d = true ∧ slotMay 0 d = true ∧ fifo 0 d = f :: rest ∧ f.port < 256 ∧ curBank d < 2 ∧
    look d.srcCache (srcOf f.port) [] = h :: hs ∧ profEcc (curBank d) (rget HDS_PORTn_CFG.PROFILE 0 f.port d) d = false ∧
    flag (HDS_PROF.VALID (curBank d)) 0 (rget HDS_PORTn_CFG.PROFILE 0 f.port d) d = true ∧
    parseDrop (parsePacket (parseCfg f.port d) f.bytes (rget HDS_PORTn_CFG.START_TYPE 0 f.port d)) f.port d = 0 :=
  ⟨parsing, _, { port := 0, bytes := List.replicate 60 0 }, [], 77, [], runs (by decide +kernel), by decide +kernel⟩
/-- One pass with profile 0 at stage st. -/
def passing (p : Pass) (ps : List Nat) (x : Dev → Dev) : State := up (ps) [32] fun d => x { d with head := { d.head with passes := [(0, p)], nextPass := 1 } }
theorem wit_Passes_issue : ∃ s d p, Runs 32 s d ∧ getPass 0 d = some p ∧ p.egress = false ∧ p.stage = .parsed ∧ p.keys = [some 0] ∧
    rget (HDS_PROF.KIND p.bank 0) 0 p.prof d = 1 ∧ (∀ j < 6, j ≠ 0 → rget (HDS_PROF.KIND p.bank j) 0 p.prof d = 0) ∧ blkEn Pg.LPM d = true ∧
    lpmDamaged (rget (HDS_PROF.ARG p.bank 0) 0 p.prof d % 2) 0 d = false :=
  ⟨passing { keys := [some 0] } [0x30, 0x34] (prof 1 0), _, { keys := [some 0] }, runs (by decide +kernel), by decide +kernel⟩
theorem wit_Passes_nht : ∃ s d p, Runs 32 s d ∧ getPass 0 d = some p ∧ p.egress = false ∧ p.stage = .nht ∧ nhtSlot p.bank p.prof d = some 0 ∧
    blkEn Pg.NHT d = true ∧ ∃ k < 6, rget (HDS_PROF.KIND p.bank k) 0 p.prof d = 1 :=
  ⟨passing { stage := .nht } [0x30, 0x39] (fun d => rset (HDS_PROF.KIND 0 1) 0 0 5 (prof 1 0 d)), _, { stage := .nht }, runs (by decide +kernel), by decide +kernel⟩
theorem wit_Passes_dispatch : ∃ s d p c, Runs (passIsland 0 s.dev) s d ∧ getPass 0 d = some p ∧ p.stage = .ready ∧
    (look d.disp.queues p.rq []).length < rget ENG_DISP_CFG.RQ_DEPTH 0 0 d ∧ heldCount p.dir d < 8192 ∧ pickCluster p.dir d = some c ∧ badBundle c p.bank 0 d = none ∧
    bit (bits (bundleAt c p.bank 0 d) 15 0) 15 = true ∧ 17 ≤ bits (bundleAt c p.bank 0 d) 15 0 % 2048 :=
  ⟨passing { stage := .ready } [0x40] (fun d => { d with disp := { d.disp with clusters := [(0, { imem := [(0, 0x8011)] })] } }), _,
    { stage := .ready }, 0, runs (by decide +kernel), by decide +kernel⟩
theorem wit_Passes_egress : ∃ s d p c, Runs (passIsland 0 s.dev) s d ∧ getPass 0 d = some p ∧ p.stage = .ready ∧ p.egress = true ∧
    flag TLS_PORTn_CFG.BYPASS 0 p.egPort d = false ∧ (look d.disp.queues p.rq []).length < rget ENG_DISP_CFG.RQ_DEPTH 0 0 d ∧ heldCount p.dir d < 8192 ∧
    pickCluster p.dir d = some c :=
  ⟨up [0x7F, 0x82] [97] (fun d => { d with head := { d.head with passes := [(0, { stage := .ready, egress := true })], nextPass := 1 } }), _,
    { stage := .ready, egress := true }, 63, runs (by decide +kernel), by decide +kernel⟩
theorem wit_Passes_bad_bundle : ∃ s d p c, Runs (passIsland 0 s.dev) s d ∧ getPass 0 d = some p ∧ p.stage = .ready ∧ pickCluster p.dir d = some c ∧
    badBundle c p.bank (p.prof / 8) d ≠ none :=
  ⟨passing { stage := .ready } [0x40] (fun d => { d with disp := { d.disp with clusters := [(0, { badImem := [0] })] } }), _, { stage := .ready }, 0,
    runs (by decide +kernel), by decide +kernel⟩
theorem wit_Passes_no_entry : ∃ s d p c, Runs (passIsland 0 s.dev) s d ∧ getPass 0 d = some p ∧ p.stage = .ready ∧ pickCluster p.dir d = some c ∧
    bits (bundleAt c p.bank 0 d) 15 0 % 2048 < 17 :=
  ⟨passing { stage := .ready } [0x40] id, _, { stage := .ready }, 0, runs (by decide +kernel), by decide +kernel⟩
theorem wit_Passes_reread : ∃ s d q, Runs 32 s d ∧ replState 0 d = 2 ∧
    (verified (replBank 0 d) d).find? (fun q => q != 0 && !(repl q d).bad.contains 65535) = some q :=
  ⟨up [] [32] (fun d => setReplState 0 2 0 (setReplState 23 2 0 d)), _, 23, runs (by decide +kernel), by decide +kernel⟩
/-- A profile image with n slots of kind k. -/
def profImg (n k : Nat) : Nat := (List.range n).foldl (fun a i => a + k * 2 ^ (32 * i + 29)) 0 + (6 - (6 - n)) * 2 ^ (32 * 7 + 27)
theorem wit_Profile_commit : (∃ s d img, Commits .pcie .HDS_PROFA 0 63 0 s d img ∧ bits (wordOf img 7) 29 27 ≠ 7 ∧ bankBusy 0 d = true) ∧
    (∃ s d img, Commits .pcie .HDS_PROFB 0 63 (imgWord (profImg 2 1) 7) s d img ∧ bits (wordOf img 7) 29 27 ≠ 7 ∧ bankBusy 1 d = false ∧ profBad img = true) ∧
    (∃ s d img, Commits .pcie .HDS_PROFB 0 63 (imgWord (profImg 1 4) 7) s d img ∧ bits (wordOf img 7) 29 27 ≠ 7 ∧ bankBusy 1 d = false ∧
      profBad img = false ∧ ((List.range 6).any fun k => slotTooWide (fun t => regImg (tmplReg 1) 0 t d) (wordOf img k)) = false) ∧
    ∃ s d img, Commits .pcie .HDS_PROFB 0 0 (imgWord (profImg 1 1) 7) s d img ∧ bits (wordOf img 7) 29 27 ≠ 7 ∧ bankBusy 1 d = false ∧
      profBad img = false ∧ ((List.range 6).any fun k => slotTooWide (fun t => regImg (tmplReg 1) 0 t d) (wordOf img k)) = true :=
  ⟨⟨up [0x31] [], _, _, commits (by decide +kernel) (by decide +kernel), by decide +kernel⟩,
    ⟨up [0x31] [] (staging .HDS_PROFB 0 63 (profImg 2 1)), _, _, commits (by decide +kernel) (by decide +kernel), by decide +kernel⟩,
    ⟨up [0x31] [] (staging .HDS_PROFB 0 63 (profImg 1 4)), _, _, commits (by decide +kernel) (by decide +kernel), by decide +kernel⟩,
    up [0x31] [] (fun d => staging .HDS_PROFB 0 0 (profImg 1 1) (loadImg .HDS_TMPLB 0 0 (0xA00080FF0A0080000A008000) d)), _, _,
      commits (by decide +kernel) (by decide +kernel), by decide +kernel⟩
theorem wit_Template_commit : (∃ s d img, Commits .pcie .HDS_TMPLA 0 63 0 s d img ∧ bankBusy 0 d = true) ∧
    (∃ s d img, Commits .pcie .HDS_TMPLB 0 63 0 s d img ∧ bankBusy 1 d = false ∧
      (((List.range 16).map fun k => wordOf img k).any fun w => decide (11 ≤ bits w 31 28) || decide (128 < bits w 15 8)) = true) ∧
    ∃ s d img, Commits .pcie .HDS_TMPLB 0 63 0 s d img ∧ bankBusy 1 d = false ∧
      (((List.range 16).map fun k => wordOf img k).any fun w => decide (11 ≤ bits w 31 28) || decide (128 < bits w 15 8)) = false ∧
      ∀ i < 64, flag (HDS_PROF.VALID 1) 0 i d = false :=
  ⟨⟨up [0x32] [], _, _, commits (by decide +kernel) (by decide +kernel), by decide +kernel⟩,
    ⟨up [0x32] [] (staging .HDS_TMPLB 0 63 0xB0000000), _, _, commits (by decide +kernel) (by decide +kernel), by decide +kernel⟩,
    up [0x32] [], _, _, commits (by decide +kernel) (by decide +kernel), by decide +kernel⟩
theorem wit_DeepParse_write : (∃ s d img, Commits .pcie .HDS_DPk_CFG 0 15 (2 ^ 31 + 127 * 2 ^ 23) s d img ∧ HDS_DPk_CFG.PORT.of img = 127 ∧
      flag LPG_PORTn_CFG.EN 31 3 d = false ∧ flag LPG_PORTn_CFG.EN 0 0 d = false ∧ HDS_DPk_CFG.VALID.on img = true ∧
      ∀ j < 16, j ≠ 15 → flag HDS_DPk_CFG.VALID 0 j d = true → rget HDS_DPk_CFG.PORT 0 j d ≠ 127) ∧
    ∃ s d img, Commits .pcie .HDS_DPk_CFG 0 15 (127 * 2 ^ 23) s d img ∧ HDS_DPk_CFG.PORT.of img = 127 ∧ flag LPG_PORTn_CFG.EN 31 3 d = true :=
  ⟨⟨up [0x30] [], _, _, commits (by decide +kernel) (by decide +kernel), by decide +kernel⟩,
    up [0x30] [] (rset LPG_PORTn_CFG.EN 31 3 1), _, _, commits (by decide +kernel) (by decide +kernel), by decide +kernel⟩
theorem wit_HdsTrace_arm : ∀ x ∈ [true, false], ∃ s d img, Commits .pcie .HDS_TRACE_CTRL 0 0 (force 0 [(31, 31, 1)]) s d img ∧ expertOf Pg.HDS d = x := by
  intro x h
  refine ⟨up [0x30, 0x33] [] (fun d => setFace 0x30 { face 0x30 d with expert := x } d), _, _, commits (by revert x; decide +kernel) (by revert x; decide +kernel), ?_⟩
  revert x; decide +kernel

/-- LPM_CMD with op on prefix 0/0 of trie 0, which is present where said. -/
def lpmState (has : Bool) (x : Dev → Dev := id) : State := up [0x34] [32] fun d => x { d with tab := { d.tab with lpm := if has then [(pfxKey 0 0 0, 9)] else [] } }
theorem wit_Lpm_commands : ∀ op ∈ [0, 1, 2, 3, 4], ∀ has ∈ [true, false], ∃ s d img, Commits .pcie .LPM_CMD 0 0 (go 0 30 28 op) s d img ∧
    lockCheck .pcie .LPM_LOCKt 0 (LPM_CMD.LOCK_ID.of img) d = 0 ∧ LPM_CMD.TRIE.of img = 0 ∧ LPM_CMD.LEN.of img ≤ trieBits 0 ∧
    maskKey (LPM_CMD.LEN.of img) (maskKey 48 (LPM_CMD.KEY.of img)) = maskKey 48 (LPM_CMD.KEY.of img) ∧
    (find? d.tab.lpm (pfxKey 0 (LPM_CMD.LEN.of img) (maskKey 48 (LPM_CMD.KEY.of img)))).isSome = has ∧
    rget LPM_UNITS.COUNT 0 0 d + pfxUnits 0 0 ≤ 24000000 ∧ lpmDamaged 0 (maskKey 48 (LPM_CMD.KEY.of img)) d = false := by
  intro op h x k
  refine ⟨lpmState x, _, _, commits (by revert x; decide +kernel) (by revert x; decide +kernel), ?_⟩
  revert op x; decide +kernel
theorem wit_Lpm_full : ∃ s d img, Commits .pcie .LPM_CMD 0 0 (go 0 30 28 0) s d img ∧ find? d.tab.lpm (pfxKey 0 0 0) = none ∧
    LPM_CMD.LEN.of img = 0 ∧ 24000000 < rget LPM_UNITS.COUNT 0 0 d + pfxUnits 0 0 :=
  ⟨lpmState false (rset LPM_UNITS.COUNT 0 0 24000000), _, _, commits (by decide +kernel) (by decide +kernel), by decide +kernel⟩
theorem wit_Lpm_locked : ∀ op ∈ [0, 1, 2, 5], ∃ s d img, Commits .pcie .LPM_CMD 0 0 (go 0 30 28 op) s d img ∧
    lockCheck .pcie .LPM_LOCKt 0 (LPM_CMD.LOCK_ID.of img) d ≠ 0 := by
  intro op h
  refine ⟨lpmState false (rset ⟨.LPM_LOCKt, 0, 16⟩ 0 0 5), _, _, commits (by decide +kernel) (by decide +kernel), ?_⟩
  revert op; decide +kernel
theorem wit_Lpm_longest : find? (lpmState true).dev.tab.lpm (pfxKey 0 0 (maskKey 0 (maskKey 48 0))) = some 9 ∧
    ∀ m, m ≤ trieBits 0 → 0 < m → find? (lpmState true).dev.tab.lpm (pfxKey 0 m (maskKey m (maskKey (trieBits 0) 0))) = none := by decide +kernel
theorem wit_Lpm_none : ∀ m, m ≤ trieBits 0 → find? (lpmState false).dev.tab.lpm (pfxKey 0 m (maskKey m (maskKey (trieBits 0) 0))) = none := by decide +kernel
theorem wit_Lpm_repair : ∀ a ∈ [0, 2 ^ 20 + 3], ∃ s d img, Commits .pcie .LPM_CMD 0 0 (go 0 30 28 5) s d img ∧
    lockCheck .pcie .LPM_LOCKt 0 (LPM_CMD.LOCK_ID.of img) d = 0 ∧ LPM_CMD.LEN.of img = 0 ∧ trieKey (LPM_CMD.STAGE.of img) (LPM_CMD.WORD.of img) = a ∧
    d.tab.lpmBad.contains a = true ∧ d.tab.lpmVague = false ∧ lpmOwner a d = (if a = 0 then some (0, 0, 0) else none) := by
  intro a h
  refine ⟨lpmState false (fun d => staging .LPM_CMD 0 0 (a / 2 ^ 18 * 2 ^ LPM_CMD.STAGE.lo + a % 2 ^ 18 * 2 ^ LPM_CMD.WORD.lo) { d with tab := { d.tab with lpmBad := [a] } }), _, _,
    commits (by revert a; decide +kernel) (by revert a; decide +kernel), ?_⟩
  revert a; decide +kernel
theorem wit_Lpm_no_repair : ∃ s d img, Commits .pcie .LPM_CMD 0 0 (go 0 30 28 5) s d img ∧ d.tab.lpmBad = [] :=
  ⟨lpmState false, _, _, commits (by decide +kernel) (by decide +kernel), by decide +kernel⟩
theorem wit_Lpm_damaged : ∃ s d img, Commits .pcie .LPM_CMD 0 0 (go 0 30 28 4) s d img ∧ LPM_CMD.LEN.of img = 0 ∧
    lpmWalk 0 (maskKey 48 (LPM_CMD.KEY.of img)) d = (none, some 0) :=
  ⟨lpmState true (fun d => { d with tab := { d.tab with lpmBad := [0] } }), _, _, commits (by decide +kernel) (by decide +kernel), by decide +kernel⟩
theorem wit_Lpm_ill_formed : ∀ op ∈ [0, 1, 2, 3, 4, 5], ∃ s d img, Commits .pcie .LPM_CMD 0 0 (go (49 * 2 ^ 16) 30 28 op) s d img ∧ ¬LPM_CMD.LEN.of img ≤ trieBits 0 := by
  intro op h
  refine ⟨lpmState false, _, _, commits (by decide +kernel) (by decide +kernel), ?_⟩
  revert op; decide +kernel
theorem wit_Lpm_free : ∃ s d, Runs 32 s d ∧ d.tab.lpmLeft = [7] :: [] :=
  ⟨lpmState false (fun d => { d with tab := { d.tab with lpmLeft := [[7]] } }), _, runs (by decide +kernel), by decide +kernel⟩
theorem wit_Nht : ∀ op ∈ [0, 1], (∃ s d img, Commits .pcie .NHT_ACC 0 0 (go 0x101FFFFF 30 30 op) s d img ∧ nhtSize (NHT_ACC.TBL.of img) ≤ NHT_ACC.INDEX.of img) ∧
    ∃ s d img, Commits .pcie .NHT_ACC 0 0 (go 0x10000000 30 30 op) s d img ∧ NHT_ACC.INDEX.of img < nhtSize (NHT_ACC.TBL.of img) ∧ NHT_ACC.TBL.of img = 1 ∧
      lockCheck .pcie .NHT_LOCK 0 (NHT_ACC.LOCK_ID.of img) d = 0 ∧ bits (NHT_ACC.DATA.of img) 56 36 + bits (NHT_ACC.DATA.of img) 62 57 ≤ 1572863 := by
  intro op h
  refine ⟨⟨up [0x39] [], _, _, commits (by decide +kernel) (by decide +kernel), ?_⟩, up [0x39] [], _, _, commits (by decide +kernel) (by decide +kernel), ?_⟩
  all_goals revert op; decide +kernel
theorem wit_Nht_locked : ∃ s d img, Commits .pcie .NHT_ACC 0 0 (go 0 30 30 0) s d img ∧ NHT_ACC.INDEX.of img < nhtSize (NHT_ACC.TBL.of img) ∧
    lockCheck .pcie .NHT_LOCK 0 (NHT_ACC.LOCK_ID.of img) d ≠ 0 :=
  ⟨up [0x39] [] (rset ⟨.NHT_LOCK, 0, 16⟩ 0 0 5), _, _, commits (by decide +kernel) (by decide +kernel), by decide +kernel⟩

/-- XM table 0 enabled, with the entry of key 0 where said: 0 nowhere, 1 in a slot, 2 in the stash. -/
def xmState (at_ : Nat) (x : Dev → Dev := id) : State := up [0x38, 0x3C] [32] fun d => rset XM_TBLn_CFG.EN 0 0 1 (x { d with tab := { d.tab with
  xm := if at_ = 1 then [(slotId 0 (xmBucket 0 0 0 d) 0, ⟨0, false, false, false, 0, true, 5, 0⟩)] else [],
  stash := if at_ = 2 then [(0, ⟨0, false, false, false, 0, true, 5, 0⟩)] else [] } })
theorem wit_Xm_commands : ∀ op ∈ [0, 1, 2, 3], ∀ at_ ∈ [0, 1, 2], ∃ s d img, Commits .pcie .XM_CMD 0 0 (go 0 30 28 op) s d img ∧
    flag XM_TBLn_CFG.EN 0 (XM_CMD.TABLE.of img) d = true ∧ lockCheck .pcie .XM_LOCKn 0 (XM_CMD.LOCK_ID.of img) d = 0 ∧
    (xmFind 0 (XM_CMD.KEY.of img) d).map (fun x => decide (2 ^ 22 ≤ x.1)) = (if at_ = 0 then none else some (at_ == 2)) := by
  intro op h a k
  refine ⟨xmState a, _, _, commits (by revert a; decide +kernel) (by revert a; decide +kernel), ?_⟩
  revert op a; decide +kernel
theorem wit_Xm_place : ∃ s d img, Commits .pcie .XM_CMD 0 0 (go 0 30 28 0) s d img ∧
    (xmInsert { tbl := 0, wide := false, static := false, result := 0, key := 0 } (storeFields false .XM_CMD 0 0 img d)).1 = true ∧
    freeIn false 0 (xmBucket 0 0 0 d) d = some (slotId 0 (xmBucket 0 0 0 d) 0) :=
  ⟨xmState 0, _, _, commits (by decide +kernel) (by decide +kernel), by decide +kernel⟩
/-- Table 0 with one bucket in each half, both full, and a full stash. -/
def xmFull : State := up [0x38] [32] fun d => rset XM_TBLn_CFG.EN 0 0 1 (rset XM_TBLn_CFG.SIZE_LOG2 0 0 0 { d with tab := { d.tab with
  xm := (List.range 8).map fun k => (k / 4 * 2 ^ 21 + k % 4, ⟨0, false, false, false, 0, true, 5, (k + 1) * 2 ^ 80⟩),
  stash := (List.range 64).map fun k => (k, ⟨0, false, false, false, 0, true, 5, (k + 9) * 2 ^ 80⟩) } })
theorem wit_Xm_full : ∃ s d img, Commits .pcie .XM_CMD 0 0 (go 0 30 28 0) s d img ∧ xmFind 0 0 d = none ∧
    (xmInsert { tbl := 0, wide := false, static := false, result := 0, key := 0 } (storeFields false .XM_CMD 0 0 img d)).1 = false :=
  ⟨xmFull, _, _, commits (by decide +kernel) (by decide +kernel), by decide +kernel⟩
theorem wit_Xm_invalidate : ∃ s d img, Commits .pcie .XM_CMD 0 0 (go 0 30 28 4) s d img ∧ XM_CMD.SLOT.of img < 2 ^ 22 ∧ has d.tab.xm (XM_CMD.SLOT.of img) = true ∧
    has d.tab.xm2 (XM_CMD.SLOT.of img) = false ∧ lockCheck .pcie .XM_LOCKn (xmLockTable 4 (XM_CMD.TABLE.of img) (XM_CMD.SLOT.of img) d) (XM_CMD.LOCK_ID.of img) d = 0 :=
  ⟨xmState 0 (fun d => { d with tab := { d.tab with xm := [(0, ⟨0, false, false, false, 0, true, 5, 0⟩)] } }), _, _, commits (by decide +kernel) (by decide +kernel), by decide +kernel⟩
theorem wit_Xm_locked : ∀ op ∈ [0, 1, 2, 4], ∃ s d img, Commits .pcie .XM_CMD 0 0 (go 0 30 28 op) s d img ∧
    lockCheck .pcie .XM_LOCKn (if op = 4 then xmLockTable 4 (XM_CMD.TABLE.of img) (XM_CMD.SLOT.of img) d else XM_CMD.TABLE.of img) (XM_CMD.LOCK_ID.of img) d ≠ 0 := by
  intro op h
  refine ⟨xmState 0 (rset ⟨.XM_LOCKn, 0, 16⟩ 0 0 5), _, _, commits (by decide +kernel) (by decide +kernel), ?_⟩
  revert op; decide +kernel
theorem wit_Xm_disabled : ∃ s d img, Commits .pcie .XM_CMD 0 0 (go 0 30 28 4) s d img ∧ flag XM_TBLn_CFG.EN 0 (XM_CMD.TABLE.of img) d = false :=
  ⟨up [0x38] [], _, _, commits (by decide +kernel) (by decide +kernel), by decide +kernel⟩
theorem wit_Xm_reinsert : ∃ s d i x p, Runs 32 s d ∧ d.tab.stash = [(i, x)] ∧ p < 2 ^ 22 ∧ freeIn x.wide 0 (xmBucket x.tbl 0 x.key d) d = some p :=
  ⟨xmState 2, _, 0, ⟨0, false, false, false, 0, true, 5, 0⟩, slotId 0 (xmBucket 0 0 0 (xmState 2).dev) 0, runs (by decide +kernel), by decide +kernel⟩

theorem wit_Locks : ∀ h ∈ [0, 7, 8], ∃ s d img d' img', Commits .pcie .XM_LOCKn 0 7 (2 ^ 31 + 7) s d img ∧
    Commits .pcie .XM_LOCKn 0 7 (2 ^ 31 + 2 ^ 30 + 7) s d' img' ∧ idRefused .pcie 7 = false ∧ d.fab.waiting = [] ∧ lockHolder .XM_LOCKn 7 d = h ∧ lockHolder .XM_LOCKn 7 d' = h := by
  intro h k
  refine ⟨up [0x38] [] (rset ⟨.XM_LOCKn, 0, 16⟩ 0 7 h), _, _, _, _, commits (by revert h; decide +kernel) (by revert h; decide +kernel),
    commits (by revert h; decide +kernel) (by revert h; decide +kernel), ?_⟩
  revert h; decide +kernel
theorem wit_Locks_timeout : ∃ s d, Runs 32 s d ∧ lockHolder .NHT_LOCK 0 d ≠ 0 ∧ lockLimit .NHT_LOCK d ≠ 0 ∧
    look d.tab.lockAt (Reg.addr .NHT_LOCK 0 0) 0 + lockLimit .NHT_LOCK d * 1000000 < d.mono ∧ d.fab.waiting = [] :=
  ⟨up [0x39] [32] (fun d => rset NHT_LOCK_TMO.MS 0 0 1 (rset ⟨.NHT_LOCK, 0, 16⟩ 0 0 5 { d with mono := 1000001 })), _, runs (by decide +kernel), by decide +kernel⟩
theorem wit_Locks_tmo : ∃ s d img, Commits .pcie .XM_LOCK_TMO 0 0 0 s d img ∧ ∀ n : Fin 8, lockHolder (lockReg (.xm n)).1 (lockReg (.xm n)).2 d = 0 :=
  ⟨up [0x38] [], _, _, commits (by decide +kernel) (by decide +kernel), by decide +kernel⟩
theorem wit_Learning : ∃ s d ev, Runs 32 s d ∧ d.tab.lrnQ.find? (fun ev => lockHolder .XM_LOCKn ev.tbl d == 0) = some ev ∧
    find? d.tab.lrnCache (cacheKey 0 0) = none ∧ d.tab.lrnCache.length < 4096 ∧ xmFind 0 0 d = none ∧ freeIn (xmWide 0 d) 0 (xmBucket 0 0 0 d) d = some (slotId 0 (xmBucket 0 0 0 d) 0) :=
  ⟨xmState 0 (fun d => { d with tab := { d.tab with lrnQ := [⟨0, 0, 0, 1, 0⟩] } }), _, ⟨0, 0, 0, 1, 0⟩, runs (by decide +kernel), by decide +kernel⟩
theorem wit_Flap : ∃ s d c, Runs 32 s d ∧ find? d.tab.lrnCache (cacheKey 7 0) = some c ∧ c.flapping = true ∧
    c.flapAt + rget LRN_FLAP.HOLD 0 0 d * 1000000000 ≤ d.mono :=
  ⟨up [] [32] (fun d => { d with mono := 10 ^ 13, tab := { d.tab with lrnCache := [(cacheKey 7 0, { flapping := true })] } }), _, { flapping := true }, runs (by decide +kernel), by decide +kernel⟩
theorem wit_Aging : ∀ hit ∈ [true, false], ∀ age ∈ [0, 3], ∃ s d x, Runs 32 s d ∧ find? d.tab.ageAt (2 ^ 22 - 1) = none ∧ find? d.tab.xm (2 ^ 22 - 1) = some x ∧ blkEn Pg.LRN d = true ∧ x.static = false ∧
    flag XM_TBLn_LRN.AGE_EN 0 x.tbl d = true ∧ lockHolder .XM_LOCKn x.tbl d = 0 ∧ foreignEntry x d = false ∧ x.hit = hit ∧ x.age = age := by
  intro hit h age k
  refine ⟨xmState 0 (fun d => rset XM_TBLn_LRN.AGE_EN 0 0 1 { d with tab := { d.tab with xm := [(2 ^ 22 - 1, ⟨0, false, false, hit, age, true, 5, 0⟩)] } }), _,
    ⟨0, false, false, hit, age, true, 5, 0⟩, runs (by revert hit age; decide +kernel), ?_⟩
  revert hit age; decide +kernel
theorem wit_LrnLog : ∃ s d x t, Taken .pcie s ∧ d = reached Pg.LRN s ∧ d.tab.lrnLog = x :: t :=
  ⟨up [0x3C] [] (fun d => { d with tab := { d.tab with lrnLog := [1] } }), _, 1, [], taken (by decide +kernel), rfl, by decide +kernel⟩

/-! Premises of the statements on searches, engines and epochs. -/

/-- Slice 15 owned by 7 and bound to group 0 of bank B; x is done. -/
def tcmState (x : Dev → Dev := id) : State := up [0x3A] [32] fun d => x (loadImg .TCM_GRPBn 0 0 (2 ^ 31 + 7 * 2 ^ 12 + 15 * 2 ^ 8) (rset TCM_SLICEk_OWNER.OWNER 0 15 7 d))
theorem wit_Tcam_group : (∃ s d img, Commits .pcie .TCM_GRPAn 0 15 0 s d img ∧ bankBusy 0 d = true) ∧
    (∃ s d img, Commits .pcie .TCM_GRPBn 0 15 (2 ^ 31 + 7 * 2 ^ 12 + 15 * 2 ^ 8 + 1) s d img ∧ bankBusy 1 d = false ∧ (Group.ofImg img).valid = true ∧ 16 < (Group.ofImg img).top) ∧
    (∃ s d img, Commits .pcie .TCM_GRPBn 0 15 (2 ^ 31 + 7 * 2 ^ 12 + 15 * 2 ^ 8) s d img ∧ bankBusy 1 d = false ∧ (groupOf 1 0 d).valid = true ∧
      (Group.ofImg img).base < (groupOf 1 0 d).top ∧ (groupOf 1 0 d).base < (Group.ofImg img).top) ∧
    (∃ s d img, Commits .pcie .TCM_GRPBn 0 15 (2 ^ 31 + 7 * 2 ^ 12) s d img ∧ bankBusy 1 d = false ∧ (Group.ofImg img).valid = true ∧ (Group.ofImg img).top ≤ 16 ∧
      (∀ k < 16, k ≠ 15 → (groupOf 1 k d).valid = true → ¬(groupOf 1 k d).base < (Group.ofImg img).top) ∧ idRefused .pcie (Group.ofImg img).owner = false ∧
      ownsSlices (Group.ofImg img).owner (Group.ofImg img) d = false) ∧
    ∃ s d img, Commits .pcie .TCM_GRPBn 0 0 (2 ^ 31 + 7 * 2 ^ 12 + 15 * 2 ^ 8) s d img ∧ bankBusy 1 d = false ∧ (Group.ofImg img).valid = true ∧
      (Group.ofImg img).top = 16 ∧ (∀ k < 16, k ≠ 0 → (groupOf 1 k d).valid = false) ∧ ownsSlices (Group.ofImg img).owner (Group.ofImg img) d = true :=
  ⟨⟨tcmState, _, _, commits (by decide +kernel) (by decide +kernel), by decide +kernel⟩,
    ⟨tcmState, _, _, commits (by decide +kernel) (by decide +kernel), by decide +kernel⟩,
    ⟨tcmState, _, _, commits (by decide +kernel) (by decide +kernel), by decide +kernel⟩,
    ⟨tcmState, _, _, commits (by decide +kernel) (by decide +kernel), by decide +kernel⟩,
    tcmState, _, _, commits (by decide +kernel) (by decide +kernel), by decide +kernel⟩
theorem wit_Tcam_commands : ∀ op ∈ [0, 1, 2, 3], ∃ s d img, Commits .pcie .TCM_CMD 0 0 (go (2 ^ 27 + 8191 * 2 ^ 6) 30 28 op) s d img ∧
    (groupOf (TCM_CMD.BANK.of img) (TCM_CMD.GROUP.of img) d).valid = true ∧ idRefused .pcie (TCM_CMD.OWNER_ID.of img) = false ∧
    ownsSlices (TCM_CMD.OWNER_ID.of img) (groupOf (TCM_CMD.BANK.of img) (TCM_CMD.GROUP.of img) d) d = true ∧ TCM_CMD.INDEX.of img = 8191 ∧
    (groupOf (TCM_CMD.BANK.of img) (TCM_CMD.GROUP.of img) d).depth = 1 ∧ (look d.srch.tcam (15 * 8192) {}).hit (TCM_CMD.KEY.of img) = true ∧
    Tbl.wf d.srch.tcam = true := by
  intro op h
  refine ⟨tcmState (fun d => staging .TCM_CMD 0 0 (7 * 2 ^ 720) { d with srch := { d.srch with tcam := [(15 * 8192, { valid := true })] } }), _, _,
    commits (by decide +kernel) (by decide +kernel), ?_⟩
  revert op; decide +kernel
theorem wit_Tcam_no_match : Tbl.wf tcmState.dev.srch.tcam = true ∧ ∀ j < 1 * 8192, (look tcmState.dev.srch.tcam (15 * 8192 + j) {}).hit 0 = false :=
  ⟨by decide +kernel, fun _ _ => rfl⟩
theorem wit_Tcam_scrub : (∃ s d, Runs 32 s d ∧ look d.srch.tcam 131071 {} = look d.srch.shadow 131071 {}) ∧
    ∀ on ∈ [true, false], ∃ s d, Runs 32 s d ∧ look d.srch.tcam 131071 {} ≠ look d.srch.shadow 131071 {} ∧ flag TCM_SCRUB_CFG.REPAIR_EN 0 0 d = on := by
  refine ⟨⟨tcmState, _, runs (by decide +kernel), by decide +kernel⟩, fun on h => ?_⟩
  refine ⟨tcmState (fun d => rset TCM_SCRUB_CFG.REPAIR_EN 0 0 (b2n on) { d with srch := { d.srch with tcam := [(131071, { valid := true })] } }), _,
    runs (by revert on; decide +kernel), ?_⟩
  revert on; decide +kernel
theorem wit_Tcam_inject : (∃ s d img, Commits .pcie .TCM_INJECT 0 0 (force 0 [(31, 31, 1)]) s d img ∧ expertOf Pg.TCM d = false) ∧
    ∀ n ∈ [319, 320], ∃ s d img, Commits .pcie .TCM_INJECT 0 0 (force (BitVec.ofNat 32 (n * 2 ^ 21)) [(31, 31, 1)]) s d img ∧ expertOf Pg.TCM d = true ∧ TCM_INJECT.BIT.of img = n := by
  refine ⟨⟨tcmState, _, _, commits (by decide +kernel) (by decide +kernel), by decide +kernel⟩, fun n h => ?_⟩
  refine ⟨tcmState (fun d => setFace 0x3A { face 0x3A d with expert := true } d), _, _, commits (by decide +kernel) (by decide +kernel), ?_⟩
  revert n; decide +kernel
/-- An egress pass whose search runs in group 0 of bank B, whose entry denies. -/
def egrSearch : Pass := { egress := true, stage := .egressTcam, pcx := PX.BANK.set 1 0, ctx := 0, acts := { etc := some (0, 0) } }
theorem wit_Tcam_egress : ∃ s d n p, Runs 97 s d ∧ d.head.passes.find? (fun x => x.2.stage == .egressTcam) = some (n, p) ∧ PX.COPY_HOST.get p.pcx = 0 ∧
    PX.MIRROR_EN.get p.pcx = 0 ∧ p.acts.etc = some (0, 0) ∧ blkEn Pg.TCM d = true ∧ (groupOf 1 0 d).valid = true ∧ (groupOf 1 0 d).egress = true ∧
    (tcamSearch 1 0 0 (groupOf 1 0 d) d).1.1 = some (0, { valid := true, action := 0x1000 }) ∧ bits 0x1000 15 12 = 1 :=
  ⟨up [0x3A] [97] (fun d => loadImg .TCM_GRPBn 0 0 (2 ^ 31 + 2 ^ 30 + 7 * 2 ^ 12 + 15 * 2 ^ 8) { d with
      srch := { d.srch with tcam := [(15 * 8192, { valid := true, action := 0x1000 })] }, head := { d.head with passes := [(0, egrSearch)] } }), _, 0, egrSearch,
    runs (by decide +kernel), by decide +kernel⟩

/-- A header of 24 bytes and one word of transitions that pass the image check. -/
def brlHdr : Bytes := beBytes 4 0x4255524C ++ beBytes 2 1 ++ [0, 0] ++ beBytes 4 8 ++ List.replicate 8 0 ++
  beBytes 4 (crc32c (beBytes 4 0x4255524C ++ beBytes 2 1 ++ [0, 0] ++ beBytes 4 8 ++ List.replicate 12 0 ++ List.replicate 8 0))
/-- Replica 23 in state st of bank 1. -/
def brlState (st : Nat) (x : Replica) : State := up [0x3B] [32] fun d => setReplState 23 st 1 (setRepl 23 x d)
theorem wit_Burl_commands : ∀ op ∈ [0, 2, 3], ∃ s d img, Commits .pcie .BRL_CMD 0 0 (go 0x00000000 30 28 op) s d img ∧ bitsOf 24 (BRL_CMD.MASK.of img) = [0, 22] ∧
    (∀ r ∈ [0, 22], replState r d = 0 ∧ burlArmed (replBank r d) d = false) ∧ burlArmed (BRL_CMD.BANK.of img) d = false ∧ burlStrands [] d = false ∧ burlStrands ([0, 22].filter fun r => replState r d == 2) d = false := by
  intro op h
  refine ⟨up [0x3B] [32] (fun d => staging .BRL_CMD 0 0 0x400001 d), _, _, commits (by decide +kernel) (by decide +kernel), ?_⟩
  revert op; decide +kernel
theorem wit_Burl_armed : ∀ op ∈ [0, 1, 3], ∃ s d img, Commits .pcie .BRL_CMD 0 0 (go 0 30 28 op) s d img ∧ bitsOf 24 (BRL_CMD.MASK.of img) = [23] ∧
    replState 23 d = (if op = 1 then 1 else 0) ∧ burlArmed (replBank 23 d) d = true := by
  intro op h
  refine ⟨⟨(brlState (if op = 1 then 1 else 0) {}).dev |> rset EPC_STAT.STATE 0 0 1 |> staging .BRL_CMD 0 0 0x800000, []⟩, _, _,
    commits (by revert op; decide +kernel) (by revert op; decide +kernel), ?_⟩
  revert op; decide +kernel
theorem wit_Burl_assign : (∃ s d img, Commits .pcie .BRL_CMD 0 0 (go 0 30 28 0) s d img ∧ bitsOf 24 (BRL_CMD.MASK.of img) = [23] ∧ replState 23 d = 2 ∧
      replBank 23 d ≠ BRL_CMD.BANK.of img ∧ burlArmed (BRL_CMD.BANK.of img) d = false ∧ burlArmed (replBank 23 d) d = false ∧ burlStrands [23] d = false) ∧
    ∃ s d img, Commits .pcie .BRL_CMD 0 0 (go 0 30 28 0) s d img ∧ bitsOf 24 (BRL_CMD.MASK.of img) = [23] ∧ replState 23 d = 3 :=
  ⟨⟨⟨(brlState 2 {}).dev |> staging .BRL_CMD 0 0 0x800000, []⟩, _, _, commits (by decide +kernel) (by decide +kernel), by decide +kernel⟩,
    ⟨(brlState 3 {}).dev |> staging .BRL_CMD 0 0 0x800000, []⟩, _, _, commits (by decide +kernel) (by decide +kernel), by decide +kernel⟩
theorem wit_Burl_verify : (∃ s d img, Commits .pcie .BRL_CMD 0 0 (go 0 30 28 1) s d img ∧ bitsOf 24 (BRL_CMD.MASK.of img) = [23] ∧ replState 23 d = 1 ∧
      replBank 23 d = 1 ∧ burlArmed 1 d = false ∧ imageOk (repl 23 d) = true ∧ verified 1 d = []) ∧
    ∃ s d img, Commits .pcie .BRL_CMD 0 0 (go 0 30 28 1) s d img ∧ bitsOf 24 (BRL_CMD.MASK.of img) = [23] ∧ replState 23 d = 1 ∧
      burlArmed (replBank 23 d) d = false ∧ imageOk (repl 23 d) = false :=
  ⟨⟨⟨(brlState 1 { hdr := brlHdr }).dev |> staging .BRL_CMD 0 0 0x800000, []⟩, _, _, commits (by decide +kernel) (by decide +kernel), by decide +kernel⟩,
    ⟨(brlState 1 {}).dev |> staging .BRL_CMD 0 0 0x800000, []⟩, _, _, commits (by decide +kernel) (by decide +kernel), by decide +kernel⟩
theorem wit_Burl_clone : (∃ s d img, Commits .pcie .BRL_CMD 0 0 (go 23 30 28 2) s d img ∧ BRL_CMD.SRC.of img ≤ 23 ∧ replState 0 d = 0 ∧ replBank 0 d < 2) ∧
    ∃ s d img, Commits .pcie .BRL_CMD 0 0 (go (23 * 2 ^ 16) 30 28 2) s d img ∧ BRL_CMD.SRC.of img = 23 ∧ replState 23 d = 2 ∧ replBank 23 d < 2 ∧
      bitsOf 24 (BRL_CMD.MASK.of img) = [0] ∧ burlArmed (replBank 23 d) d = false ∧ ∀ r ∈ [0], replState r d = 0 ∧ burlArmed (replBank r d) d = false :=
  ⟨⟨brlState 2 {}, _, _, commits (by decide +kernel) (by decide +kernel), by decide +kernel⟩,
    ⟨(brlState 2 {}).dev |> staging .BRL_CMD 0 0 1, []⟩, _, _, commits (by decide +kernel) (by decide +kernel), by decide +kernel⟩
theorem wit_Burl_clear : ∃ s d img, Commits .pcie .BRL_CMD 0 0 (go 0 30 28 3) s d img ∧
    burlStrands ((bitsOf 24 (BRL_CMD.MASK.of img)).filter fun r => replState r d == 2) d = true :=
  ⟨up [0x3B] [] (fun d => staging .BRL_CMD 0 0 1 (setReplState 0 2 0 d)), _, _, commits (by decide +kernel) (by decide +kernel), by decide +kernel⟩
theorem wit_Burl_scrub : (∃ s d, Runs 32 s d ∧ replState 23 d = 3 ∧ (repl 23 d).retireClear = true) ∧ (∃ s d, Runs 32 s d ∧ replState 23 d = 3 ∧ (repl 23 d).retireClear = false) ∧
    (∃ s d, Runs 32 s d ∧ replState 23 d = 2 ∧ (verified (replBank 23 d) d).find? (fun q => q != 23 && !(repl q d).bad.contains 65535) = none) ∧
    ∃ s d, Runs 32 s d ∧ replState 23 d = 2 ∧ (verified (replBank 23 d) d).find? (fun q => q != 23 && !(repl q d).bad.contains 65535) = some 0 :=
  ⟨⟨brlState 3 { retireClear := true }, _, runs (by decide +kernel), by decide +kernel⟩, ⟨brlState 3 {}, _, runs (by decide +kernel), by decide +kernel⟩,
    ⟨brlState 2 {}, _, runs (by decide +kernel), by decide +kernel⟩, ⟨setReplState 0 2 1 (brlState 2 {}).dev, []⟩, _, runs (by decide +kernel), by decide +kernel⟩

/-- Engine 15 of cluster 63 runs pass 0 at bundle 17 of bank A, whose word is w. -/
def engState (w : Nat) (p : Pass) : State := up [0x7F, 0x80] [96] fun d => { d with
  head := { d.head with passes := [(0, p)] }, disp := { d.disp with clusters := [(63, { imem := [(17, w)] })] } }
/-- A running pass that holds the engine. -/
def onEngine : Pass := { stage := .running, cluster := 63, engine := 15, pc := 17, hstart := 0, hend := 64, l0 := 64, bodyLen := 0, bytes := List.replicate 64 0 }
theorem wit_Engine_bundle : (∃ s d, Runs (33 + 63) s d ∧ runningPass 63 15 d = some (0, onEngine) ∧ onEngine.issued < 24 ∧ onEngine.pc < 2047 ∧
      badBundle 63 onEngine.bank 17 d = none ∧ bundleStalls 0 onEngine = false ∧
      (bundleAt 63 onEngine.bank 17 d = 0 ∧ aSlot 0 (fun _ => 0) ≠ none ∧ (mSlot 0 false (fun _ => 0)).map (·.1) = some .nop ∧
        (cSlot 0 17 (fun _ => 0) onEngine).map (·.1) = some .nop)) ∧
    (∃ s d p, Runs (33 + 63) s d ∧ runningPass 63 15 d = some (0, p) ∧ bundleAt 63 p.bank 17 d = (1 * 2 ^ 26 + 1 * 2 ^ 21 + 5 * 2 ^ 16) * 2 ^ 96 ∧
      badBundle 63 p.bank p.pc d = none ∧ bundleStalls (bundleAt 63 p.bank p.pc d) p = true) ∧
    (∃ s d, Runs (33 + 63) s d ∧ runningPass 63 15 d = some (0, onEngine) ∧ bundleAt 63 onEngine.bank 17 d = 0x04000001 ∧
      (cSlot 0x04000001 17 (fun _ => 0) onEngine).map (·.1) = some (.jump 18)) ∧
    ∃ s d, Runs (33 + 63) s d ∧ runningPass 63 15 d = some (0, onEngine) ∧ bundleAt 63 onEngine.bank 17 d = 0x44000021 ∧
      (cSlot 0x44000021 17 (fun _ => 0) onEngine).map (·.1) = some (.verdict (.drop 0x21)) ∧ onEngine.hstart ≤ onEngine.hend ∧ onEngine.hend ≤ 256 ∧
      14 ≤ onEngine.newLen ∧ onEngine.newLen ≤ 16383 :=
  ⟨⟨engState 0 onEngine, _, runs (by decide +kernel), by decide +kernel⟩,
    ⟨engState ((1 * 2 ^ 26 + 1 * 2 ^ 21 + 5 * 2 ^ 16) * 2 ^ 96) { onEngine with pend := [(5, 1)] }, _, { onEngine with pend := [(5, 1)] }, runs (by decide +kernel), by decide +kernel⟩,
    ⟨engState 0x04000001 onEngine, _, runs (by decide +kernel), by decide +kernel⟩, engState 0x44000021 onEngine, _, runs (by decide +kernel), by decide +kernel⟩
theorem wit_Engine_bad_word : ∃ s d, Runs (33 + 63) s d ∧ runningPass 63 15 d = some (0, onEngine) ∧ badBundle 63 onEngine.bank onEngine.pc d = some 35 :=
  ⟨up [0x7F] [96] (fun d => { d with head := { d.head with passes := [(0, onEngine)] }, disp := { d.disp with clusters := [(63, { badImem := [35] })] } }), _,
    runs (by decide +kernel), by decide +kernel⟩
theorem wit_Engine_illegal : aSlot 0xFC000000 (fun _ => 0) = none ∧ (∃ s d, Runs (33 + 63) s d ∧ runningPass 63 15 d = some (0, onEngine) ∧
    badBundle 63 onEngine.bank 17 d = none ∧ bundleStalls (bundleAt 63 onEngine.bank 17 d) onEngine = false ∧
    bits (bundleAt 63 onEngine.bank 17 d) 127 96 = 0xFC000000) :=
  ⟨by decide +kernel, engState (0xFC000000 * 2 ^ 96) onEngine, _, runs (by decide +kernel), by decide +kernel⟩
theorem wit_Engine_load_budget : (∃ s d p, Runs (33 + 63) s d ∧ runningPass 63 15 d = some (0, p) ∧ p.pend = (5, 1) :: []) ∧
    ∃ s d p, Runs (33 + 63) s d ∧ runningPass 63 15 d = some (0, p) ∧ 24 ≤ p.issued ∧ p.egress = false ∧
      badBundle 63 p.bank 16 d = none ∧ bit (bundleAt 63 p.bank 16 d) 0 = false :=
  ⟨⟨engState 0 { onEngine with pend := [(5, 1)] }, _, { onEngine with pend := [(5, 1)] }, runs (by decide +kernel), by decide +kernel⟩,
    engState 0 { onEngine with issued := 24 }, _, { onEngine with issued := 24 }, runs (by decide +kernel), by decide +kernel⟩
theorem wit_Engine_budget_bad : ∃ s d p, Runs (33 + 63) s d ∧ runningPass 63 15 d = some (0, p) ∧ 24 ≤ p.issued ∧ p.egress = false ∧
    (badBundle 63 p.bank 16 d).isSome = true :=
  ⟨up [0x7F] [96] (fun d => { d with head := { d.head with passes := [(0, { onEngine with issued := 24 })] }, disp := { d.disp with clusters := [(63, { badImem := [33] })] } }), _,
    { onEngine with issued := 24 }, runs (by decide +kernel), by decide +kernel⟩
theorem wit_Engine_budget_retry : ∃ s d p, Runs (33 + 63) s d ∧ runningPass 63 15 d = some (0, p) ∧ 24 ≤ p.issued ∧ p.egress = false ∧
    badBundle 63 p.bank 16 d = none ∧ bit (bundleAt 63 p.bank 16 d) 0 = true :=
  ⟨up [0x7F] [96] (fun d => { d with head := { d.head with passes := [(0, { onEngine with issued := 24 })] }, disp := { d.disp with clusters := [(63, { imem := [(16, 1)] })] } }), _,
    { onEngine with issued := 24 }, runs (by decide +kernel), by decide +kernel⟩
theorem wit_Engine_memory : (∃ s d, Runs (33 + 63) s d ∧ (face (Pg.ENG + 63) d).busy = true ∧ (face (Pg.ENG + 63) d).en = false ∧ ctxUsed 63 d = 0) ∧
    (∃ s d img, Commits .pcie .ENG_IMEM_DATA 63 0 0 s d img ∧ bankBusy (rget ENG_IMEM_ADDR.HALF 63 0 d) d = true) ∧
    (∀ bc ∈ [true, false], ∃ s d img, Commits .pcie .ENG_IMEM_DATA 63 0 0 s d img ∧ bankBusy (rget ENG_IMEM_ADDR.HALF 63 0 d) d = false ∧ flag ENG_IMEM_ADDR.BCAST 63 0 d = bc) ∧
    ∀ x ∈ [true, false], ∃ s d img, Commits .pcie .ENG_TRACE_CTRL 63 0 (force 0 [(31, 31, 1)]) s d img ∧ expertOf (engPage 63) d = x := by
  refine ⟨⟨up [] [96] (fun d => setFace 0x7F { face 0x7F d with busy := true } d), _, runs (by decide +kernel), by decide +kernel⟩,
    ⟨up [0x7F] [], _, _, commits (by decide +kernel) (by decide +kernel), by decide +kernel⟩, fun bc h => ?_, fun x h => ?_⟩
  · refine ⟨up [0x7F] [] (fun d => rset ENG_IMEM_ADDR.HALF 63 0 1 (rset ENG_IMEM_ADDR.BCAST 63 0 (b2n bc) d)), _, _,
      commits (by revert bc; decide +kernel) (by revert bc; decide +kernel), ?_⟩
    revert bc; decide +kernel
  · refine ⟨up [0x7F] [] (fun d => setFace 0x7F { face 0x7F d with expert := x } d), _, _, commits (by revert x; decide +kernel) (by revert x; decide +kernel), ?_⟩
    revert x; decide +kernel

/-- A held pass at the front of queue 0 with verdict v. -/
def released (v : Verdict) (e : Bool) (a : Acts) : State := up [0x81] [32, 97] fun d => { d with
  head := { d.head with passes := [(0, { egress := e, stage := .held, verdict := some v, acts := a })] }, disp := { d.disp with queues := [(if e then 4096 else 0, [0])] } }
theorem wit_Release : (∀ v ∈ [Verdict.drop 1, .fwd 1 2, .punt 3, .recirc 4], ∃ s d p, Runs 32 s d ∧ releasable 0 d = some (0, p) ∧ p.verdict = some v ∧ p.egress = false ∧
      blkEn Pg.MDL d = true ∧ d.head.mandrel.length < 4096) ∧
    ∀ t ∈ [none, some (0, 0)], ∃ s d p, Runs 97 s d ∧ releasable 4096 d = some (0, p) ∧ p.verdict = some (.send true) ∧ p.acts.etc = t ∧
      PX.COPY_HOST.get p.pcx = 0 ∧ PX.MIRROR_EN.get p.pcx = 0 := by
  refine ⟨fun v h => ⟨released v false {}, _, { egress := false, stage := .held, verdict := some v, acts := {} }, runs (by revert v; decide +kernel), by revert v; decide +kernel⟩,
    fun t h => ⟨released (.send true) true { etc := t }, _, { egress := true, stage := .held, verdict := some (.send true), acts := { etc := t } },
      runs (by revert t; decide +kernel), by revert t; decide +kernel⟩⟩
theorem wit_Egress_dispatch : ∀ b ∈ [true, false], ∃ s d r t, Runs 97 s d ∧ d.cross.arrived = r :: t ∧ blkEn Pg.TLS d = true ∧ bits r.ctx 76 69 = 127 ∧
    flag TLS_PORTn_CFG.BYPASS 0 127 d = b ∧ linkState 127 d = 4 ∧ dispatchFull { egress := true, ctx := r.ctx } d = false ∧ (pickCluster 1 d).isSome = true := by
  intro b h
  refine ⟨up [0x7F, 0x82] [97] (fun d => rset TLS_PORTn_CFG.BYPASS 0 127 (b2n b) (rset LPG_PORTn_STAT.LINK_STATE 31 3 4 { d with
    cross := { d.cross with arrived := [{ port := 127, ctx := 127 * 2 ^ 69, bytes := [] }] } })), _, { port := 127, ctx := 127 * 2 ^ 69, bytes := [] }, [], runs (by revert b; decide +kernel), ?_⟩
  revert b; decide +kernel
theorem wit_Mandrel : ∃ s d n rest p, Runs 32 s d ∧ mandrelMay true d = true ∧ mandrelMay false d = true ∧ blkEn Pg.HDS d = true ∧ d.head.mandrel = n :: rest ∧
    getPass n d = some p ∧ profEcc (PX.BANK.get p.pcx) (PX.RECIRC_PROF.get p.pcx) d = false ∧ flag (HDS_PROF.VALID (PX.BANK.get p.pcx)) 0 (PX.RECIRC_PROF.get p.pcx) d = true ∧
    parseDrop (parsePacket (parseCfg 248 d) p.bytes ((PX.HDR_TYPE 0).get p.pcx)) 248 d = 0 :=
  ⟨up [0x30] [32] (fun d => { rset (HDS_PROF.VALID 0) 0 0 1 d with head := { d.head with passes := [(0, { stage := .mandrel, bytes := List.replicate 60 0, pcx := (PX.HDR_TYPE 0).set 1 0 })], mandrel := [0] } }), _, 0, [],
    { stage := .mandrel, bytes := List.replicate 60 0, pcx := (PX.HDR_TYPE 0).set 1 0 }, runs (by decide +kernel), by decide +kernel⟩

/-- The epoch controller in state st; x is done. -/
def epcIn (st : Nat) (x : Dev → Dev := id) : State := up [0x80] [99] fun d => x (rset EPC_STAT.STATE 0 0 st d)
theorem wit_Epoch_now : (∃ s d img, Commits .pcie .EPC_SWITCH 0 0 (go 0xFFFF 30 28 0) s d img ∧ curBank d < 2 ∧ flag EPC_CFG.CHASSIS 0 0 d = false ∧ epcState d = 0 ∧
      EPC_SWITCH.SEQ.of img ≠ curSeq d ∧ notReady d = 0) ∧
    (∃ s d img, Commits .pcie .EPC_SWITCH 0 0 (go 1 30 28 0) s d img ∧ flag EPC_CFG.CHASSIS 0 0 d = true) ∧
    (∃ s d img, Commits .pcie .EPC_SWITCH 0 0 (go 1 30 28 0) s d img ∧ flag EPC_CFG.CHASSIS 0 0 d = false ∧ epcState d = 0 ∧ EPC_SWITCH.SEQ.of img ≠ curSeq d ∧ notReady d ≠ 0) ∧
    ∀ st ∈ [1, 3], ∃ s d img, Commits .pcie .EPC_SWITCH 0 0 (go 1 30 28 0) s d img ∧ flag EPC_CFG.CHASSIS 0 0 d = false ∧ epcState d = st := by
  refine ⟨⟨epcIn 0, _, _, commits (by decide +kernel) (by decide +kernel), by decide +kernel⟩,
    ⟨epcIn 0 (rset EPC_CFG.CHASSIS 0 0 1), _, _, commits (by decide +kernel) (by decide +kernel), by decide +kernel⟩,
    ⟨epcIn 0 (fun d => rset (HDS_PROF.VALID 1) 0 0 1 (rset (HDS_PROF.KIND 1 0) 0 0 4 d)), _, _, commits (by decide +kernel) (by decide +kernel), by decide +kernel⟩, fun st h => ?_⟩
  refine ⟨epcIn st, _, _, commits (by revert st; decide +kernel) (by revert st; decide +kernel), ?_⟩
  revert st; decide +kernel
theorem wit_Epoch_at : (∃ s d img, Commits .pcie .EPC_SWITCH 0 0 (go 1 30 28 1) s d img ∧ flag EPC_CFG.CHASSIS 0 0 d = false ∧ EPC_SWITCH.NS.of img = 999999999 ∧ epcState d = 0 ∧
      EPC_SWITCH.SEQ.of img ≠ curSeq d ∧ notReady d = 0 ∧ nowNs d < EPC_SWITCH.SEC.of img * 1000000000 + EPC_SWITCH.NS.of img ∧ lowestFree d.spn.acts 0 4096 = some 0) ∧
    ∀ strict ∈ [true, false], ∃ s d img, Commits .pcie .EPC_SWITCH 0 0 (go 1 30 28 1) s d img ∧ EPC_SWITCH.NS.of img = 999999999 ∧ notReady d = 0 ∧
      EPC_SWITCH.SEC.of img * 1000000000 + EPC_SWITCH.NS.of img ≤ nowNs d ∧ flag EPC_X_CFG.STRICT 0 0 d = strict := by
  refine ⟨⟨epcIn 0 (staging .EPC_SWITCH 0 0 999999999), _, _, commits (by decide +kernel) (by decide +kernel), by decide +kernel⟩, fun strict h => ?_⟩
  refine ⟨epcIn 0 (fun d => rset EPC_X_CFG.STRICT 0 0 (b2n strict) (staging .EPC_SWITCH 0 0 999999999 { d with spn := { d.spn with time := 999999999 * 2 ^ 32 } })), _, _,
    commits (by revert strict; decide +kernel) (by revert strict; decide +kernel), ?_⟩
  revert strict; decide +kernel
theorem wit_Epoch_cancel : (∃ s d img, Commits .pcie .EPC_SWITCH 0 0 (go 1 30 28 2) s d img ∧ epcState d = 1 ∧ epcEntry d = some { owner := 0xF200, kind := 3, t := 1 } ∧ nowNs d < 1) ∧
    (∃ s d img, Commits .pcie .EPC_SWITCH 0 0 (go 1 30 28 2) s d img ∧ epcState d = 0) ∧
    ∃ s d img, Commits .pcie .EPC_SWITCH 0 0 (go 1 30 28 3) s d img ∧ isMgr d = true ∧ flag EPC_CFG.CHASSIS 0 0 d = true ∧ d.epc.mgrSeq = none ∧ epcState d = 0 ∧
      EPC_SWITCH.SEQ.of img ≠ curSeq d ∧ notReady d = 0 ∧ 63 ∈ otherMembers d ∧ blkEn Pg.FCT d = false :=
  ⟨⟨epcIn 1 (fun d => { d with spn := { d.spn with acts := [(0, { owner := 0xF200, kind := 3, t := 1 })] } }), _, _, commits (by decide +kernel) (by decide +kernel), by decide +kernel⟩,
    ⟨epcIn 0, _, _, commits (by decide +kernel) (by decide +kernel), by decide +kernel⟩,
    epcIn 0 (fun d => rset FCT_MEMBERS.SET 0 0 (2 ^ 63) (rset EPC_CFG.CHASSIS 0 0 1 (rset FCT_MGR_STAT.ROLE 0 0 2 d))), _, _, commits (by decide +kernel) (by decide +kernel), by decide +kernel⟩
theorem wit_Epoch_events : (∃ s d a, Runs 99 s d ∧ curBank d < 2 ∧ epcEntry d = some a ∧ epcState d = 1 ∧ a.t ≤ nowNs d ∧ a.switchSeq < 2 ^ 16) ∧
    (∃ s d, Runs 99 s d ∧ epcState d = 2 ∧ inflight (1 - curBank d) d = 0) ∧
    (∃ s d, Runs 99 s d ∧ epcState d = 2 ∧ inflight (1 - curBank d) d ≠ 0 ∧ d.epc.drainAt + 49000 ≤ d.mono) ∧ (∃ s d, Runs 99 s d ∧ epcState d = 3 ∧ d.epc.prepAt + 10000000 ≤ d.mono) ∧
    ∃ s d seq, Runs 99 s d ∧ d.epc.mgrSeq = some seq ∧ d.epc.mgrAt + 1000000 ≤ d.mono ∧ ∃ m ∈ d.epc.workers, m ∉ d.epc.ready :=
  ⟨⟨epcIn 1 (fun d => { d with spn := { d.spn with acts := [(0, { owner := 0xF200, kind := 3, t := 0, switchSeq := 0xFFFF })] } }), _,
      { owner := 0xF200, kind := 3, t := 0, switchSeq := 0xFFFF }, runs (by decide +kernel), by decide +kernel⟩,
    ⟨epcIn 2, _, runs (by decide +kernel), by decide +kernel⟩, ⟨epcIn 2 (fun d => setInflight 1 1 { d with mono := 49000 }), _, runs (by decide +kernel), by decide +kernel⟩,
    ⟨epcIn 3 (fun d => { d with mono := 10000000 }), _, runs (by decide +kernel), by decide +kernel⟩,
    epcIn 0 (fun d => { d with mono := 1000000, epc := { d.epc with mgrSeq := some 1, workers := [63] } }), _, 1, runs (by decide +kernel), by decide +kernel⟩


/-! Premises of the statements on cells and the link. -/

/-- The Chuck with pool n enabled, its image img, and free cells p; cells ms are given; x is done. -/
def chk (n img : Nat) (p : Pool) (ms : Tbl CellMeta := []) (x : Dev → Dev := id) : State := up [0x90, 0x91] [101] fun d =>
  x (loadImg .CHK_POOLn_CFG 0 n img { d with chk := { d.chk with pools := put d.chk.pools n {} p, cells := ms } })
/-- An enabled pool of c cells of one granule from granule 0. -/
def one (c : Nat) : Nat := 2 ^ 63 + c
/-- An allocated last cell with tag t and r references. -/
def used (t r : Nat) : CellMeta := { alloc := true, owner := t, refs := r, last := true }
theorem wit_Cells_no_tag : ∃ (r : CellReq) (s : State) (d : Dev), Runs 101 s d ∧ d.chk.held = [] ∧ tagOk r.tag.toNat = false :=
  ⟨⟨31, 15, 0⟩, chk 15 (one 1) {}, _, runs (by decide +kernel), by decide +kernel⟩
theorem wit_Cells_grant : tagOk 0xFFF = true ∧ (∃ (r : CellReq) (s : State) (d : Dev), Runs 101 s d ∧ d.chk.held = [] ∧ poolEn r.pool.val d = true ∧ (pool r.pool.val d).cache = 0x3FFFFF :: []) ∧
    (∃ (r : CellReq) (s : State) (d : Dev), Runs 101 s d ∧ d.chk.held = [] ∧ poolEn r.pool.val d = true ∧ (pool r.pool.val d).cache = [] ∧ poolFree r.pool.val d = 1) ∧
    (∃ (r : CellReq) (s : State) (d : Dev), Runs 101 s d ∧ d.chk.held = [] ∧ poolEn r.pool.val d = true ∧ (pool r.pool.val d).cache = [] ∧ poolFree r.pool.val d = 0 ∧
      flag CHK_POOLn_CFG.FB_EN 0 r.pool.val d = false) ∧
    ∃ (r : CellReq) (s : State) (d : Dev), Runs 101 s d ∧ d.chk.held = [] ∧ poolEn r.pool.val d = true ∧ (pool r.pool.val d).cache = [] ∧ poolFree r.pool.val d = 0 ∧
      flag CHK_POOLn_CFG.FB_EN 0 r.pool.val d = true ∧ rget CHK_POOLn_CFG.FALLBACK 0 r.pool.val d = 0 ∧ poolEn 0 d = true ∧ (pool 0 d).cache = 7 :: [] :=
  ⟨by decide +kernel, ⟨⟨31, 15, 0xFFF⟩, chk 15 (one 1) { cache := [0x3FFFFF] }, _, runs (by decide +kernel), by decide +kernel⟩,
    ⟨⟨31, 15, 0xFFF⟩, chk 15 (one 1) {}, _, runs (by decide +kernel), by decide +kernel⟩,
    ⟨⟨31, 15, 0xFFF⟩, chk 15 (one 1) { fresh := 1 }, _, runs (by decide +kernel), by decide +kernel⟩,
    ⟨31, 15, 0xFFF⟩, chk 0 (one 8) { cache := [7] } [] (loadImg .CHK_POOLn_CFG 0 15 (2 ^ 63 + 2 ^ 60 + 8 * 2 ^ 32)), _, runs (by decide +kernel), by decide +kernel⟩
theorem wit_Cells_copy : (∃ (h : BitVec 22) (tag : BitVec 12) (s : State) (d : Dev), Runs 101 s d ∧ d.chk.held = [] ∧ metaSeen h.toNat d = .clean ∧ cell h.toNat d = used tag.toNat 14) ∧
    (∃ (h : BitVec 22) (tag : BitVec 12) (s : State) (d : Dev), Runs 101 s d ∧ d.chk.held = [] ∧ metaSeen h.toNat d = .clean ∧ cell h.toNat d = used tag.toNat 15) ∧
    ∃ (h : BitVec 22) (s : State) (d : Dev), Runs 101 s d ∧ d.chk.held = [] ∧ metaSeen h.toNat d = .clean ∧ (cell h.toNat d).alloc = false ∧ d.chk.badLog.length = 15 :=
  ⟨⟨0, 0x010, chk 0 (one 1) {} [(0, used 16 14)], _, runs (by decide +kernel), by decide +kernel⟩,
    ⟨0, 0x010, chk 0 (one 1) {} [(0, used 16 15)], _, runs (by decide +kernel), by decide +kernel⟩,
    0, chk 0 (one 1) {} [] (onChk fun c => { c with badLog := List.replicate 15 1 }), _, runs (by decide +kernel), by decide +kernel⟩
theorem wit_Cells_refill : (∃ (n : Fin 16) (s : State) (d : Dev), Runs 101 s d ∧ (pool n.val d).cache.length = 64) ∧
    (∃ (n : Fin 16) (s : State) (d : Dev), Runs 101 s d ∧ poolEn n.val d = true ∧ (pool n.val d).cache.length = 48 ∧ (pool n.val d).list.length = 16) ∧
    ∃ (n : Fin 16) (s : State) (d : Dev), Runs 101 s d ∧ poolEn n.val d = true ∧ (pool n.val d).cache.length ≤ 48 ∧ (pool n.val d).list = [] ∧
      (pool n.val d).fresh + 16 = poolCount n.val d ∧ ∀ i < 16, (cell (poolBase n.val d + ((pool n.val d).fresh + i) * poolStep n.val d) d).alloc = false :=
  ⟨⟨15, chk 15 (one 64) { cache := List.range 64 }, _, runs (by decide +kernel), by decide +kernel⟩,
    ⟨15, chk 15 (one 64) { cache := List.range 48, list := (List.range 16).map (· + 48) }, _, runs (by decide +kernel), by decide +kernel⟩,
    15, chk 15 (one 32) { fresh := 16 }, _, runs (by decide +kernel), by decide +kernel⟩
theorem wit_Cells_heads : (∃ (s : State) (d : Dev), Runs 101 s d ∧ blkEn Pg.CHK d = true ∧ rget CHK_SRCs_CFG.HEAD_POOL 0 129 d = 15 ∧
      rget CHK_SRCs_CFG.CACHE 0 129 d = 16 ∧ look d.srcCache 129 [] = [] ∧ d.cross.handles = [] ∧ 129 ∉ d.chk.starved ∧ poolEn 15 d = true ∧ (pool 15 d).cache.length = 16) ∧
    ∃ (s : State) (d : Dev) (k : Nat) (l : List Nat) (t : List (Nat × List Nat)), Runs 101 s d ∧ d.cross.handles = (k, l) :: t :=
  ⟨⟨chk 15 (one 64) { cache := List.range 16 } [] (fun d => rset CHK_SRCs_CFG.HEAD_POOL 0 129 15 (rset CHK_SRCs_CFG.CACHE 0 129 16 d)), _, runs (by decide +kernel), by decide +kernel⟩,
    chk 15 (one 1) {} [] (fun d => { d with cross := { d.cross with handles := [(129, [1])] } }), _, 129, [1], [], runs (by decide +kernel), rfl⟩
/-- The frame of first cell 5, its first BODY record and its verdict. -/
def framed (b : Build) (r : List BodyRec) (v : List Verd) (n : Nat := 0) (m : CellMeta := used 0x801 0) : State :=
  chk 0 (one 64) { cache := [6] } [(5, m)] fun d => { d with
    cross := { d.cross with bodies := r }, chk := { d.chk with builds := [(5, b)], waiting := v, badLog := List.replicate n 1 } }
theorem wit_Cells_starved : ∀ c ∈ [0, 64], ∃ (s : State) (d : Dev), Runs 101 s d ∧ 129 ∈ d.chk.starved ∧ rget CHK_SRCs_CFG.HEAD_POOL 0 129 d = 15 ∧
    poolAvail d 5 15 = decide (c ≠ 0) := by
  intro c h
  refine ⟨chk 15 (one c) { cache := if c = 0 then [] else [0] } [] (fun d => rset CHK_SRCs_CFG.HEAD_POOL 0 129 15 (onChk (fun c => { c with starved := [129] }) d)), _,
    runs (by revert c; decide +kernel), ?_⟩
  revert c; decide +kernel
theorem wit_Cells_body : (∃ (s : State) (d : Dev) (r : BodyRec) (b : Build), Runs 101 s d ∧ d.cross.bodies = [r] ∧ find? d.chk.builds r.cell = some b ∧ b.abort = true) ∧
    ∃ (s : State) (d : Dev) (r : BodyRec) (b : Build), Runs 101 s d ∧ d.cross.bodies = [r] ∧ find? d.chk.builds r.cell = some b ∧ b.abort = false ∧ b.last = r.cell ∧ metaSeen r.cell d = .clean ∧ r.bytes ≠ [] ∧
      poolEn (bits r.src 27 24) d = true ∧ r.bytes.length = 64 * poolStep (bits r.src 27 24) d ∧ (pool (bits r.src 27 24) d).cache = [6] ∧ 6 ≠ r.cell :=
  ⟨⟨framed { tag := 0x801, last := 5, abort := true } [{ cell := 5, src := 0, bytes := [1], last := true }] [], _, { cell := 5, src := 0, bytes := [1], last := true }, { tag := 0x801, last := 5, abort := true }, runs (by decide +kernel), by decide +kernel⟩,
    framed { tag := 0x801, last := 5 } [{ cell := 5, src := 0, bytes := List.replicate 64 1, last := true }] [], _, { cell := 5, src := 0, bytes := List.replicate 64 1, last := true }, { tag := 0x801, last := 5 }, runs (by decide +kernel), by decide +kernel⟩
theorem wit_Cells_verdict : (∃ (s : State) (d : Dev) (v : Verd), Runs 101 s d ∧ d.cross.verdicts = [v]) ∧
    (∀ k ∈ [0, 2], ∃ (s : State) (d : Dev) (v : Verd) (b : Build), Runs 101 s d ∧ d.chk.waiting.find? (fun v => bodyEnded v d) = some v ∧ find? d.chk.builds v.cell = some b ∧
      b.abort = false ∧ (cell v.cell d).alloc = true ∧ (cell v.cell d).owner = b.tag ∧ v.copyHost = false ∧ v.mirror = none ∧ v.kind = k ∧ metaSeen v.cell d = .clean ∧ v.cnt0 = none ∧ v.cnt1 = none ∧
      v.head.length = cellSize v.cell d) ∧
    ∃ (s : State) (d : Dev) (v : Verd) (b : Build), Runs 101 s d ∧ d.chk.waiting.find? (fun v => bodyEnded v d) = some v ∧ find? d.chk.builds v.cell = some b ∧
      b.abort = false ∧ (cell v.cell d).owner = b.tag ∧ v.copyHost = false ∧ v.mirror = none ∧ v.kind = 1 ∧ b.tag ≠ 0 ∧ metaSeen v.cell d = .clean ∧ (cell v.cell d).alloc = true ∧
      (cell v.cell d).refs ≤ 1 ∧ (cell v.cell d).last = true ∧ d.chk.badGran = [] := by
  refine ⟨⟨chk 0 (one 1) {} [] (fun d => { d with cross := { d.cross with verdicts := [{}] } }), _, {}, runs (by decide +kernel), by decide +kernel⟩, fun k h => ?_,
    ⟨framed { tag := 0x801, last := 5 } [] [{ cell := 5 }], _, { cell := 5 }, { tag := 0x801, last := 5 }, runs (by decide +kernel), by decide +kernel⟩⟩
  refine ⟨framed { tag := 0x801, last := 5 } [] [{ kind := k, cell := 5, head := List.replicate 64 0 }], _, { kind := k, cell := 5, head := List.replicate 64 0 }, { tag := 0x801, last := 5 },
    runs (by revert k; decide +kernel), ?_⟩
  revert k; decide +kernel
theorem wit_Cells_abort : ∀ k ∈ [0, 1], ∃ (s : State) (d : Dev) (v : Verd) (b : Build), Runs 101 s d ∧ d.chk.waiting.find? (fun v => bodyEnded v d) = some v ∧
    find? d.chk.builds v.cell = some b ∧ b.abort = true ∧ b.code ≠ 0 ∧ v.kind = k ∧ v.code ≠ b.code := by
  intro k h
  refine ⟨framed { tag := 0x801, last := 5, abort := true, code := 0x61 } [] [{ kind := k, cell := 5, code := 0x31 }], _, { kind := k, cell := 5, code := 0x31 },
    { tag := 0x801, last := 5, abort := true, code := 0x61 }, runs (by revert k; decide +kernel), ?_⟩
  revert k; decide +kernel
theorem wit_Cells_free : (∀ r ∈ [0, 1, 2], ∃ (x : ChainFree) (s : State) (d : Dev), Runs 101 s d ∧ x.tag ≠ 0 ∧ metaSeen x.handle.toNat d = .clean ∧ cell x.handle.toNat d = used x.tag.toNat r ∧
      d.chk.badGran = [] ∧ (pool 0 d).cache.length = 63) ∧
    (∃ (x : ChainFree) (s : State) (d : Dev), Runs 101 s d ∧ metaSeen x.handle.toNat d = .clean ∧ cell x.handle.toNat d = { used x.tag.toNat 1 with last := false, next := 6 } ∧
      metaSeen 6 d = .clean ∧ cell 6 d = used x.tag.toNat 1 ∧ d.chk.badGran = []) ∧
    (∃ (x : ChainFree) (s : State) (d : Dev), Runs 101 s d ∧ metaSeen x.handle.toNat d = .clean ∧ (cell x.handle.toNat d).alloc = false ∧ d.chk.badLog.length = 15) ∧
    ∃ (x : ChainFree) (s : State) (d : Dev), Runs 101 s d ∧ metaSeen x.handle.toNat d = .clean ∧ (cell x.handle.toNat d).alloc = true ∧ (cell x.handle.toNat d).owner ≠ x.tag.toNat ∧
      d.chk.badLog.length = 15 := by
  refine ⟨fun r h => ⟨⟨.tm, 5, 0x801⟩, chk 0 (one 64) { cache := List.replicate 63 6 } [(5, used 0x801 r)], _, runs (by revert r; decide +kernel), by revert r; decide +kernel⟩,
    ⟨⟨.tm, 5, 0x801⟩, chk 0 (one 64) {} [(5, { used 0x801 1 with last := false, next := 6 }), (6, used 0x801 1)], _, runs (by decide +kernel), by decide +kernel⟩,
    ⟨⟨.tm, 5, 0x801⟩, framed { tag := 0x801, last := 5 } [] [] 15 {}, _, runs (by decide +kernel), by decide +kernel⟩,
    ⟨.tm, 5, 0x802⟩, framed { tag := 0x801, last := 5 } [] [] 15, _, runs (by decide +kernel), by decide +kernel⟩
/-- A pool image with EN. -/
def poolWit (old : Nat) (w low : Nat) : State := chk 15 old {} [] (staging .CHK_POOLn_CFG 0 15 (w * 2 ^ 32 + low))
theorem wit_Pool_config : (∃ (s : State) (d : Dev) (img : Nat), Commits .pcie .CHK_POOLn_CFG 0 15 0 s d img ∧ poolEn 15 d = false ∧ CHK_POOLn_CFG.EN.on img = false) ∧
    (∃ (s : State) (d : Dev) (img : Nat), Commits .pcie .CHK_POOLn_CFG 0 15 (2 ^ 31) s d img ∧ poolEn 15 d = false ∧ CHK_POOLn_CFG.EN.on img = true ∧ poolBad 15 img d = true) ∧
    (∃ (s : State) (d : Dev) (img : Nat), Commits .pcie .CHK_POOLn_CFG 0 15 (2 ^ 31) s d img ∧ poolEn 15 d = false ∧ CHK_POOLn_CFG.EN.on img = true ∧ poolBad 15 img d = false ∧
      CHK_POOLn_CFG.COUNT.of img = 3145728 ∧ d.chk.badGran = [] ∧ ∀ x ∈ d.chk.cells, x.2.pool ≠ 15) ∧
    (∃ (s : State) (d : Dev) (img : Nat), Commits .pcie .CHK_POOLn_CFG 0 15 (2 ^ 31) s d img ∧ poolEn 15 d = true ∧ CHK_POOLn_CFG.EN.on img = true ∧
      CHK_POOLn_CFG.COUNT.of img ≠ CHK_POOLn_CFG.COUNT.of (regImg .CHK_POOLn_CFG 0 15 d)) ∧
    ∃ (s : State) (d : Dev) (img : Nat), Commits .pcie .CHK_POOLn_CFG 0 15 0 s d img ∧ poolEn 15 d = true ∧ poolUsed 15 d = true ∧ CHK_POOLn_CFG.EN.on img = false :=
  ⟨⟨poolWit 0 0 0, _, _, commits (by decide +kernel) (by decide +kernel), by decide +kernel⟩,
    ⟨poolWit 0 0 3145729, _, _, commits (by decide +kernel) (by decide +kernel), by decide +kernel⟩,
    ⟨poolWit 0 0 3145728, _, _, commits (by decide +kernel) (by decide +kernel), by decide +kernel⟩,
    ⟨poolWit (one 1) 0 2, _, _, commits (by decide +kernel) (by decide +kernel), by decide +kernel⟩,
    chk 15 (one 1) {} [(0, { used 16 1 with pool := 15 })], _, _, commits (by decide +kernel) (by decide +kernel), by decide +kernel⟩
/-- A cell command on cell 0 (or, for CELL_ALLOC, pool 0) with tag t. -/
def cellWord (t : Nat) : BitVec 32 := BitVec.ofNat 32 (t * 2 ^ 12)
theorem wit_Cell_read : (∃ (s : State) (d : Dev) (img : Nat), Commits .pcie .CHK_CELL_CMD 0 0 (go 0 30 28 0) s d img ∧ metaSeen (CHK_CELL_CMD.HANDLE.of img) d = .clean) ∧
    ∃ (s : State) (d : Dev) (img : Nat), Commits .pcie .CHK_CELL_CMD 0 0 (go 0 30 28 0) s d img ∧ metaSeen (CHK_CELL_CMD.HANDLE.of img) d = .uncorrectable :=
  ⟨⟨chk 0 (one 1) {}, _, _, commits (by decide +kernel) (by decide +kernel), by decide +kernel⟩,
    chk 0 (one 1) {} [] (onChk fun c => { c with badMeta := [0] }), _, _, commits (by decide +kernel) (by decide +kernel), by decide +kernel⟩
theorem wit_Cell_alloc : (∀ t ∈ [0x00F, 0x020], ∃ (s : State) (d : Dev) (img : Nat), Commits .pcie .CHK_CELL_CMD 0 0 (go (cellWord t) 30 28 1) s d img ∧ CHK_CELL_CMD.OWNER.of img = t) ∧
    (∀ t ∈ [0x010, 0x01F], ∃ (s : State) (d : Dev) (img : Nat), Commits .pcie .CHK_CELL_CMD 0 0 (go (cellWord t) 30 28 1) s d img ∧ CHK_CELL_CMD.OWNER.of img = t ∧
      CHK_CELL_CMD.POOL.of img = 0 ∧ poolEn 0 d = true ∧ (pool 0 d).cache = [2 ^ 22 - 1]) ∧
    ∃ (s : State) (d : Dev) (img : Nat), Commits .pcie .CHK_CELL_CMD 0 0 (go (cellWord 16) 30 28 1) s d img ∧ CHK_CELL_CMD.OWNER.of img = 16 ∧
      CHK_CELL_CMD.POOL.of img = 0 ∧ poolEn 0 d = true ∧ (pool 0 d).cache = [] ∧ poolFree 0 d = 0 ∧ flag CHK_POOLn_CFG.FB_EN 0 0 d = false := by
  refine ⟨fun t h => ⟨chk 0 (one 1) { cache := [2 ^ 22 - 1] }, _, _, commits (by decide +kernel) (by decide +kernel), by revert t; decide +kernel⟩,
    fun t h => ⟨chk 0 (one 1) { cache := [2 ^ 22 - 1] }, _, _, commits (by decide +kernel) (by decide +kernel), by revert t; decide +kernel⟩,
    chk 0 (one 1) { fresh := 1 }, _, _, commits (by decide +kernel) (by decide +kernel), by decide +kernel⟩
theorem wit_Cell_free : (∀ r ∈ [0, 1, 2], ∃ (s : State) (d : Dev) (img : Nat), Commits .pcie .CHK_CELL_CMD 0 0 (go (cellWord 16) 30 28 2) s d img ∧ CHK_CELL_CMD.HANDLE.of img = 0 ∧
      metaSeen 0 d = .clean ∧ cell 0 d = used (CHK_CELL_CMD.OWNER.of img) r ∧ d.chk.badGran = []) ∧
    (∃ (s : State) (d : Dev) (img : Nat), Commits .pcie .CHK_CELL_CMD 0 0 (go (cellWord 16) 30 28 2) s d img ∧ metaSeen (CHK_CELL_CMD.HANDLE.of img) d = .clean ∧
      (cell (CHK_CELL_CMD.HANDLE.of img) d).alloc = false) ∧
    (∃ (s : State) (d : Dev) (img : Nat), Commits .pcie .CHK_CELL_CMD 0 0 (go (cellWord 17) 30 28 2) s d img ∧ metaSeen (CHK_CELL_CMD.HANDLE.of img) d = .clean ∧
      (cell (CHK_CELL_CMD.HANDLE.of img) d).alloc = true ∧ (cell (CHK_CELL_CMD.HANDLE.of img) d).owner ≠ CHK_CELL_CMD.OWNER.of img) ∧
    ∀ x ∈ [true, false], ∃ (s : State) (d : Dev) (img : Nat), Commits .pcie .CHK_CELL_CMD 0 0 (go 0 30 28 3) s d img ∧ expertOf Pg.CHK d = x ∧
      metaSeen (CHK_CELL_CMD.HANDLE.of img) d = .clean ∧ (cell (CHK_CELL_CMD.HANDLE.of img) d).alloc = true ∧ (cell (CHK_CELL_CMD.HANDLE.of img) d).owner ≠ 0 ∧ d.chk.badGran = [] := by
  refine ⟨fun r h => ⟨chk 0 (one 1) {} [(0, used 16 r)], _, _, commits (by revert r; decide +kernel) (by revert r; decide +kernel), by revert r; decide +kernel⟩,
    ⟨chk 0 (one 1) {}, _, _, commits (by decide +kernel) (by decide +kernel), by decide +kernel⟩,
    ⟨chk 0 (one 1) {} [(0, used 16 1)], _, _, commits (by decide +kernel) (by decide +kernel), by decide +kernel⟩, fun x h => ?_⟩
  refine ⟨chk 0 (one 1) {} [(0, used 16 1)] (fun d => setFace 0x90 { face 0x90 d with expert := x } d), _, _, commits (by revert x; decide +kernel) (by revert x; decide +kernel), ?_⟩
  revert x; decide +kernel
theorem wit_Bad_free_log : ∀ l ∈ [[], [1]], ∃ s : State, Taken .pcie s ∧ (reached Pg.CHK s).chk.badLog = l :=
  fun l h => ⟨chk 0 (one 1) {} [] (onChk fun c => { c with badLog := l }), taken (by revert l; decide +kernel), by revert l; decide +kernel⟩
theorem wit_March : (∃ (s : State) (d : Dev) (img : Nat), Commits .pcie .CHK_MARCH_CTRL 0 0 (force 0 [(31, 31, 1)]) s d img ∧ rget CHK_MARCH_STAT.STATE 0 0 d = 1) ∧
    (∀ en ∈ [true, false], ∃ (s : State) (d : Dev) (img : Nat), Commits .pcie .CHK_MARCH_CTRL 0 0 (force 0 [(31, 31, 1)]) s d img ∧ rget CHK_MARCH_STAT.STATE 0 0 d = 0 ∧
      CHK_MARCH_CTRL.MODE.on img = false ∧ (face Pg.CHK d).en = en) ∧
    (∃ (s : State) (d : Dev) (img : Nat), Commits .pcie .CHK_MARCH_CTRL 0 0 (force 0x40000000 [(31, 31, 1)]) s d img ∧ rget CHK_MARCH_STAT.STATE 0 0 d = 0 ∧
      CHK_MARCH_CTRL.MODE.on img = true) ∧
    ∀ p ∈ [3, 4], ∃ (s : State) (d : Dev), Runs 101 s d ∧ rget CHK_MARCH_STAT.STATE 0 0 d = 1 ∧ (d.chk.march.getD (false, false)).1 = false ∧ phase d = p ∧ stepDone 6 d = false ∧
      d.sys.badPages.contains Pg.CHK = false := by
  refine ⟨⟨chk 0 0 {} [] (rset CHK_MARCH_STAT.STATE 0 0 1), _, _, commits (by decide +kernel) (by decide +kernel), by decide +kernel⟩, fun en h => ?_,
    ⟨chk 0 0 {}, _, _, commits (by decide +kernel) (by decide +kernel), by decide +kernel⟩, fun p h => ?_⟩
  · refine ⟨chk 0 0 {} [] (fun d => setFace 0x90 { face 0x90 d with en := en } d), _, _, commits (by revert en; decide +kernel) (by revert en; decide +kernel), ?_⟩
    revert en; decide +kernel
  · refine ⟨chk 0 0 {} [] (fun d => rset CHK_MARCH_STAT.STATE 0 0 1 (rset GLB_BOOT.PHASE 0 0 p d)), _, runs (by revert p; decide +kernel), ?_⟩
    revert p; decide +kernel
theorem wit_Chuck_ecc : (∃ (g : BitVec 22) (s : State) (d : Dev), Runs 101 s d ∧ metaSeen g.toNat d = .clean ∧ flag CHK_ECC_ADDR.VALID 0 0 d = false) ∧
    (∃ (s : State) (d : Dev) (img : Nat), Commits .pcie .CHK_INJECT 0 0 (force 0 [(31, 31, 1)]) s d img ∧ expertOf Pg.CHK d = false) ∧
    (∀ w ∈ [0x40000000 + 72 * 2 ^ 16, 576 * 2 ^ 16], ∃ (s : State) (d : Dev) (img : Nat), Commits .pcie .CHK_INJECT 0 0 (force (BitVec.ofNat 32 w) [(31, 31, 1)]) s d img ∧
      expertOf Pg.CHK d = true ∧ CHK_INJECT.BIT.of img = (if CHK_INJECT.PLANE.of img = 1 then 71 else 575) + 1) ∧
    ∀ w ∈ [0x40000000 + 71 * 2 ^ 16, 575 * 2 ^ 16], ∃ (s : State) (d : Dev) (img : Nat), Commits .pcie .CHK_INJECT 0 0 (force (BitVec.ofNat 32 w) [(31, 31, 1)]) s d img ∧
      expertOf Pg.CHK d = true ∧ CHK_INJECT.BIT.of img = (if CHK_INJECT.PLANE.of img = 1 then 71 else 575) ∧
      (CHK_INJECT.GRANULE.of img, CHK_INJECT.PLANE.of img, CHK_INJECT.BIT.of img) ∉ d.chk.flips := by
  let x : State := chk 0 0 {} [] fun d => setFace 0x90 { face 0x90 d with expert := true } d
  refine ⟨⟨0x3FFFFF, chk 0 0 {}, _, runs (by decide +kernel), by decide +kernel⟩, ⟨chk 0 0 {}, _, _, commits (by decide +kernel) (by decide +kernel), by decide +kernel⟩,
    fun w h => ⟨x, _, _, commits (by decide +kernel) (by decide +kernel), by revert w; decide +kernel⟩,
    fun w h => ⟨x, _, _, commits (by decide +kernel) (by decide +kernel), by revert w; decide +kernel⟩⟩
/-- Both directions of the link up, with sender and receiver x of each and REPLAY_TMO 20, REPLAY_LIMIT 1; f is done. -/
def linked (x : D2dDir) (f : Dev → Dev := id) : State := chk 0 (one 64) {} [] fun d => f (rset D2D_STAT.UP_FT 0 0 1 (rset D2D_STAT.UP_TF 0 0 1
  (rset D2D_CFG.REPLAY_TMO 0 0 20 (rset D2D_CFG.REPLAY_LIMIT 0 0 1 { d with d2d := { d.d2d with ft := x, tf := x } }))))
/-- A flit of zeros. -/
def zeroFlit (seq : Nat) : Flit := { seq := seq, words := List.replicate 44 0 }
/-- An EPOCH record in a flit: bank 1, EPOCH_SEQ 7. -/
def epochFlit : Flit := { first := 0, words := recHead 4 0 false 1 0 :: (0x08 * 2 ^ 56 + 1 * 2 ^ 16 + 7) :: List.replicate 42 0 }
/-- A flit that only acknowledges. -/
def idleFlit (nak : Bool) : Flit := { zeroFlit 0 with ftype := 0, ackv := !nak, nak := nak }
/-- A flit held at time 0 and resent n times. -/
def heldOne (n : Nat) : D2dDir := { held := [{ seq := 0, words := List.replicate 44 0, first := 63, recs := List.replicate 44 [0], tries := n }], next := 1, exp := 1 }
theorem wit_Flit_forms : flitOf (flitBytes (zeroFlit 4095)) = zeroFlit 4095 ∧ flitOf (flitBytes epochFlit) = epochFlit ∧
    (∀ n ∈ [true, false], flitOf (flitBytes (idleFlit n)) = idleFlit n) ∧ flitOf (flitBytes { zeroFlit 0 with ftype := 2 }) = { zeroFlit 0 with ftype := 2 } := by
  decide +kernel
theorem wit_Flit_spoiled : ∃ flips, flitGood (flipBits (flitBytes (zeroFlit 0)) flips) = false := Laws.flit_spoiled _ rfl
theorem wit_Flit_none : ∀ g, flitBytes g ≠ [] := fun g h => by simp [flitBytes] at h
theorem wit_Flits : ∀ t ∈ [true, false], (∃ (s : State) (d : Dev), Runs 101 s d ∧ d2dUp t d = false) ∧
    (∀ f ∈ [zeroFlit 0, epochFlit], ∃ (s : State) (d : Dev), Runs 101 s d ∧ d2dUp t d = true ∧ f.ftype = 1 ∧ f.seq = (dirOf t d).next ∧ (dirOf t d).held = [] ∧
      f.resync = (dirOf t d).resync ∧ f.first = firstOf (dirOf t d).tail f.words d ∧ ackTrue t f d = true ∧ f.ackv = false ∧ f.nak = false ∧ f.resync = false ∧
      (dirOf t d).skip = false ∧ (dirOf t d).part = [] ∧ (dirOf t d).tail = [] ∧ f.seq = (dirOf t d).exp) ∧
    (∃ (s : State) (d : Dev), Runs 101 s d ∧ d2dUp t d = true ∧ (dirOf t d).next = 4095 ∧ (dirOf t d).held = [] ∧ (zeroFlit 4095).seq = (dirOf t d).exp) ∧
    (∃ (s : State) (d : Dev), Runs 101 s d ∧ d2dUp t d = true ∧ ackTrue t (idleFlit false) d = false) ∧
    (∃ (s : State) (d : Dev), Runs 101 s d ∧ d2dUp t d = true ∧ (∀ h ∈ (dirOf t d).held, h.seq ≠ (zeroFlit 4095).seq) ∧ (zeroFlit 4095).seq ≠ (dirOf t d).next) ∧
    ∃ (s : State) (d : Dev) (h : HeldFlit), Runs 101 s d ∧ (dirOf t d).held.find? (fun h => h.seq == (zeroFlit 0).seq) = some h ∧ h.words = (zeroFlit 0).words ∧
      h.first = (zeroFlit 0).first ∧ h.resync = (zeroFlit 0).resync ∧ (zeroFlit 0).seq ≠ (dirOf t d).exp ∧ seqUpTo (zeroFlit 0).seq (dirOf t d).exp = true := by
  intro t h
  refine ⟨⟨chk 0 0 {}, _, runs (by decide +kernel), by revert t; decide +kernel⟩,
    fun f k => ⟨linked {}, _, runs (by decide +kernel), by revert t f; decide +kernel⟩,
    ⟨linked { next := 4095, exp := 4095 }, _, runs (by decide +kernel), by revert t; decide +kernel⟩,
    ⟨linked {}, _, runs (by decide +kernel), by revert t; decide +kernel⟩, ⟨linked {}, _, runs (by decide +kernel), by revert t; decide +kernel⟩,
    linked (heldOne 0), _, { seq := 0, words := List.replicate 44 0, first := 63, recs := List.replicate 44 [0] }, runs (by decide +kernel), by revert t; decide +kernel⟩
theorem wit_Acknowledgements : ∀ t ∈ [true, false], (∃ (s : State) (d : Dev), Runs 101 s d ∧ d2dUp t d = true ∧ (idleFlit false).ackv = true ∧ ackTrue t (idleFlit false) d = true ∧
      (dirOf (!t) d).held.length = 1) ∧
    ∃ (s : State) (d : Dev) (h : HeldFlit), Runs 101 s d ∧ d2dUp t d = true ∧ (idleFlit true).nak = true ∧ ackTrue t (idleFlit true) d = true ∧ (dirOf (!t) d).held = [h] ∧
      h.tries < rget D2D_CFG.REPLAY_LIMIT 0 0 d := by
  intro t h
  refine ⟨⟨linked { heldOne 0 with got := true }, _, runs (by decide +kernel), by revert t; decide +kernel⟩,
    linked { heldOne 0 with bad := true }, _, { seq := 0, words := List.replicate 44 0, first := 63, recs := List.replicate 44 [0] }, runs (by decide +kernel), by revert t; decide +kernel⟩
theorem wit_Replay : ∀ t ∈ [true, false], (∃ (s : State) (d : Dev) (h : HeldFlit), Runs 101 s d ∧ (dirOf t d).held = [h] ∧ h.at_ + rget D2D_CFG.REPLAY_TMO 0 0 d = d.mono ∧
      h.tries < rget D2D_CFG.REPLAY_LIMIT 0 0 d) ∧
    (∃ (s : State) (d : Dev) (h : HeldFlit), Runs 101 s d ∧ (dirOf t d).held = [h] ∧ d.mono < h.at_ + rget D2D_CFG.REPLAY_TMO 0 0 d ∧ h.tries < rget D2D_CFG.REPLAY_LIMIT 0 0 d) ∧
    ∃ (s : State) (d : Dev) (h : HeldFlit), Runs 101 s d ∧ (dirOf t d).held = [h] ∧ rget D2D_CFG.REPLAY_LIMIT 0 0 d = h.tries ∧ (dirOf t d).tail = [] ∧
      ∀ y ∈ (dirOf t d).held, ∀ r ∈ y.recs, r = [0] := by
  intro t h
  refine ⟨⟨linked (heldOne 0) (fun d => { d with mono := 20 }), _, { seq := 0, words := List.replicate 44 0, first := 63, recs := List.replicate 44 [0] }, runs (by decide +kernel), by revert t; decide +kernel⟩,
    ⟨linked (heldOne 0) (fun d => { d with mono := 19 }), _, { seq := 0, words := List.replicate 44 0, first := 63, recs := List.replicate 44 [0] }, runs (by decide +kernel), by revert t; decide +kernel⟩,
    linked (heldOne 1), _, { seq := 0, words := List.replicate 44 0, first := 63, recs := List.replicate 44 [0], tries := 1 }, runs (by decide +kernel), by revert t; decide +kernel⟩
/-- A frame of 8 bytes on its way to the FE die. -/
def crossing (off : Nat) : EgrRec := { port := 3, ctx := 1, bytes := List.replicate 8 7, off := off }
theorem wit_Lost_egress : ∃ (s : State) (d : Dev), Runs 101 s d ∧ (dirOf false d).held.flatMap (·.recs) = [egressWords (crossing 0)] ∧ (dirOf false d).tail = [] ∧
    d.cross.egress = [crossing 0] ∧ (crossing 0).bad = false ∧ ∀ h ∈ (dirOf false d).held, rget D2D_CFG.REPLAY_LIMIT 0 0 d ≤ h.tries :=
  ⟨linked { held := [{ seq := 0, words := [], tries := 1, recs := [egressWords (crossing 0)] }] } (fun d => { d with cross := { d.cross with egress := [crossing 0] } }), _,
    runs (by decide +kernel), by decide +kernel⟩
theorem wit_Wire : ∀ n ∈ [0, 1, 8, 9, 255], ∀ t ∈ [true, false], ∃ (s : State) (d : Dev), Runs 101 s d ∧ d2dUp t d = true ∧
    rget (if t then D2D_STAT.SPARE_FT else D2D_STAT.SPARE_TF) 0 0 d = n ∧ (dirOf t d).calAt + rget D2D_X_CAL.CAL_MS 0 0 d * 1000000 ≤ d.mono := by
  intro n h t k
  refine ⟨linked {} (fun d => rset D2D_STAT.SPARE_FT 0 0 n (rset D2D_STAT.SPARE_TF 0 0 n { d with mono := 10 ^ 12 })), _, runs (by revert n; decide +kernel), ?_⟩
  revert t; revert n; decide +kernel
theorem wit_Register_records : (∀ t ∈ [20, 1000], ∃ (s : State) (d : Dev) (img : Nat), islOn 101 s.dev = true ∧ s.dev.sys.isl1us.contains 101 = false ∧
      Commits .pcie .D2D_CFG 0 0 (t * 2 ^ 16 + 1) s d img ∧ D2D_CFG.REPLAY_TMO.of img = t ∧ D2D_CFG.REPLAY_LIMIT.of img ≠ 0) ∧
    (∃ (s : State) (d : Dev) (img : Nat), islOn 101 s.dev = true ∧ s.dev.sys.isl1us.contains 101 = false ∧ Commits .pcie .D2D_CFG 0 0 (19 * 2 ^ 16 + 1) s d img ∧
      D2D_CFG.REPLAY_TMO.of img = 19) ∧
    (∃ (addr : BitVec 28) (s : State) (d : Dev), Runs 101 s d ∧ onTmDie (addr.toNat / 65536) = false) ∧
    (∃ (s : State) (d : Dev), Runs 101 s d ∧ s.dev.sys.isl1us.contains 101 = false ∧ alive s.dev = true) ∧
    (∃ (s : State) (d : Dev), Runs 101 s d ∧ d.d2d.rsp = [(255, 1)]) ∧ ∀ p ∈ [0x00, 0x90], pageExists p = true ∧ onTmDie p = (p == 0x90) := by
  refine ⟨fun t h => ⟨linked {}, _, _, by decide +kernel, by decide +kernel, commits (by decide +kernel) (by decide +kernel), by revert t; decide +kernel⟩,
    ⟨linked {}, _, _, by decide +kernel, by decide +kernel, commits (by decide +kernel) (by decide +kernel), by decide +kernel⟩,
    ⟨0, linked {}, _, runs (by decide +kernel), by decide +kernel⟩, ⟨linked {}, _, runs (by decide +kernel), by decide +kernel⟩,
    ⟨linked {} (onD2d fun l => { l with rsp := [(255, 1)] }), _, runs (by decide +kernel), by decide +kernel⟩, by decide +kernel⟩
/-- The frame of cell 5, sent to port 0 once. -/
def sentOne (last : Bool) : State := chk 0 (one 64) {} [(5, used 0x801 1), (6, used 0x801 1)] fun d => { d with
  cross := { d.cross with dones := [(0, 1)] }, chk := { d.chk with sent := [(0, if last then [(5, 0x801)] else [(5, 0x801), (6, 0x801)])] } }
theorem wit_Records : (∀ l ∈ [true, false], ∃ (s : State) (d : Dev) (port n : Nat) (t : List (Nat × Nat)), Runs 101 s d ∧ d.cross.dones = (port, n) :: t ∧
      (l = true → ∃ c, look d.chk.sent port [] = [c] ∧ n = 1 ∧ metaSeen c.1 d = .clean ∧ cell c.1 d = used c.2 1 ∧ c.2 ≠ 0 ∧ d.chk.badGran = [])) ∧
    (∀ r ∈ [none, some 1], ∃ s : State, s.dev.sys.resetRec = r) ∧
    (∃ (s : State) (d : Dev), Runs 101 s d ∧ markerLabel d < 2 ^ 64) ∧
    (∃ (st : BitVec 8) (s : State) (d : Dev), Runs 101 s d ∧ streamCell st.toNat d = none ∧ d.cross.egress.find? (fun r => r.port == st.toNat) = none) ∧
    (∃ (st : BitVec 8) (s : State) (d : Dev) (b : Build), Runs 101 s d ∧ streamCell st.toNat d = some 5 ∧ find? d.chk.builds 5 = some b ∧
      (cell 5 d).alloc = true ∧ (cell 5 d).owner = b.tag) ∧
    (∀ o ∈ [0, 4], ∃ (st : BitVec 8) (s : State) (d : Dev), Runs 101 s d ∧ d.cross.egress.find? (fun r => r.port == st.toNat) = some (crossing o)) ∧
    ∃ (s : State) (d : Dev) (r : EgrRec), Runs 101 s d ∧ d.cross.egress = [r] := by
  refine ⟨fun l h => ⟨sentOne l, _, 0, 1, [], runs (by revert l; decide +kernel), rfl, fun e => by subst e; exact ⟨(5, 0x801), by decide +kernel⟩⟩,
    fun r _ => ⟨linked {} (fun d => { d with sys := { d.sys with resetRec := r } }), rfl⟩, ⟨linked {}, _, runs (by decide +kernel), by decide +kernel⟩,
    ⟨0, linked {}, _, runs (by decide +kernel), by decide +kernel⟩,
    ⟨0, framed { tag := 0x801, last := 5, open_ := true } [] [], _, { tag := 0x801, last := 5, open_ := true }, runs (by decide +kernel), by decide +kernel⟩,
    fun o h => ⟨3, linked {} (fun d => { d with cross := { d.cross with egress := [crossing o] } }), _, runs (by revert o; decide +kernel), by revert o; decide +kernel⟩,
    linked {} (fun d => { d with cross := { d.cross with egress := [crossing 0] } }), _, crossing 0, runs (by decide +kernel), by decide +kernel⟩

/-! Premises of the statements on memory stacks and packet memory. -/

/-- Stack 3 in state st with step sp and pseudo-channel 31 in state pc; x is done. -/
def stk (st sp pc : Nat) (x : Dev → Dev := id) : State := up [0xA3] [102, 106] fun d =>
  x (rset HBM_ID.STATE 3 0 st (rset HBM_TRAIN_STAT.STEP 3 0 sp (rset HBM_PCk_STAT.STATE 3 31 pc d)))
/-- A frequency request r is latched. -/
def latched (r : Nat) (d : Dev) : Dev := rset HBM_FREQ.PEND 3 0 1 (rset HBM_FREQ.REQ 3 0 r d)
theorem wit_Training : (∃ (s : State) (d : Dev), Runs (103 + 3) s d ∧ rget HBM_ID.STATE 3 0 d = 1 ∧ flag HBM_FREQ.PEND 3 0 d = false ∧ rget HBM_TRAIN_STAT.STEP 3 0 d = 1 ∧
      ∀ k < 32, pcState (32 * 3 + k) d ≠ 3) ∧
    (∀ n ∈ [2, 6], ∃ (s : State) (d : Dev), Runs (103 + 3) s d ∧ rget HBM_ID.STATE 3 0 d = 1 ∧ flag HBM_FREQ.PEND 3 0 d = false ∧ rget HBM_TRAIN_STAT.STEP 3 0 d = n) ∧
    (∀ x ∈ [(48, 16384, 3145728), (96, 16384, 6291456)], 4 * x.1 * x.2.1 = x.2.2) ∧
    ∀ st ∈ [1, 5], ∃ (s : State) (d : Dev), Runs (103 + 3) s d ∧ rget HBM_ID.STATE 3 0 d = st ∧ flag HBM_FREQ.PEND 3 0 d = true ∧
      rget HBM_FREQ.REQ 3 0 d ≠ rget HBM_FREQ.CUR 3 0 d ∧ rget HBM_FREQ.REQ 3 0 d ≤ 2 ∧ 1 ≤ rget HBM_TRAIN_STAT.STEP 3 0 d := by
  refine ⟨⟨stk 1 1 0, _, runs (by decide +kernel), by decide +kernel⟩, fun n h => ⟨stk 1 n 0, _, runs (by revert n; decide +kernel), by revert n; decide +kernel⟩, by decide,
    fun st h => ⟨stk st 3 0 (latched 1), _, runs (by revert st; decide +kernel), ?_⟩⟩
  revert st; decide +kernel
theorem wit_Frequency : (∃ (s : State) (d : Dev) (img : Nat), Commits .pcie .HBM_FREQ 3 0 3 s d img ∧ HBM_FREQ.REQ.of img = 3) ∧
    (∀ x ∈ [(1, 2), (0, 5)], ∃ (s : State) (d : Dev) (img : Nat), Commits .pcie .HBM_FREQ 3 0 2 s d img ∧ HBM_FREQ.REQ.of img ≤ 2 ∧ rget HBM_TRAIN_STAT.STEP 3 0 d = x.1 ∧
      rget HBM_ID.STATE 3 0 d = x.2) ∧
    (∃ (s : State) (d : Dev) (img : Nat), Commits .pcie .HBM_FREQ 3 0 2 s d img ∧ HBM_FREQ.REQ.of img = 2 ∧ rget HBM_TRAIN_STAT.STEP 3 0 d = 0 ∧ rget HBM_ID.STATE 3 0 d = 2 ∧
      pcState 127 d = 3) ∧
    (∃ (s : State) (d : Dev), Runs (103 + 3) s d ∧ flag HBM_FREQ.PEND 3 0 d = true ∧ rget HBM_ID.STATE 3 0 d = 2 ∧ rget HBM_TRAIN_STAT.STEP 3 0 d = 0 ∧
      (∀ k < 32, rget HBM_PCk_STAT.OUTST 3 k d = 0 ∧ writeQueue (32 * 3 + k) d = []) ∧ (∀ w ∈ d.hbm.wwait, stackOf w.handle ≠ 3) ∧
      rget HBM_FREQ.REQ 3 0 d ≤ 2) ∧
    (∃ (s : State) (d : Dev), Runs (103 + 3) s d ∧ rget HBM_PCk_STAT.OUTST 3 31 d = 1) ∧ (∃ (s : State) (d : Dev), Runs (103 + 3) s d ∧ flag HBM_FREQ.PEND 3 0 d = false) ∧
    ∃ (s : State) (d : Dev), Runs (103 + 3) s d ∧ rget HBM_ID.STATE 3 0 d = 5 ∧ flag HBM_FREQ.PEND 3 0 d = false ∧ rget HBM_TRAIN_STAT.STEP 3 0 d = 3 ∧ ∀ k < 128, pcState k d ≠ 3 := by
  refine ⟨⟨stk 2 0 0, _, _, commits (by decide +kernel) (by decide +kernel), by decide +kernel⟩, fun x h => ?_,
    ⟨stk 2 0 3, _, _, commits (by decide +kernel) (by decide +kernel), by decide +kernel⟩, ⟨stk 2 0 0 (latched 2), _, runs (by decide +kernel), by decide +kernel⟩,
    ⟨stk 2 0 0 (rset HBM_PCk_STAT.OUTST 3 31 1), _, runs (by decide +kernel), by decide +kernel⟩, ⟨stk 2 0 0, _, runs (by decide +kernel), by decide +kernel⟩,
    stk 5 3 0, _, runs (by decide +kernel), by decide +kernel⟩
  refine ⟨stk x.2 x.1 0, _, _, commits (by revert x; decide +kernel) (by revert x; decide +kernel), ?_⟩
  revert x; decide +kernel
/-- Stack 3 at 40 degrees, where its pseudo-channel 31 was retrained. -/
def cooled (d : Dev) : Dev := { rset HBM_TEMP.TEMP 3 0 40 d with hbm := { d.hbm with trTemp := [(127, 40)] } }
/-- Stack 3 ten degrees hotter. -/
def hotter (d : Dev) : Dev := rset HBM_TEMP.TEMP 3 0 50 (cooled d)
theorem wit_Retrain : (∃ (s : State) (d : Dev), Runs (103 + 3) s d ∧ retrainDue 3 31 d = false) ∧ (∀ p ∈ [0, 1], ∃ (s : State) (d : Dev), Runs (103 + 3) s d ∧ rget HBM_ID.STATE 3 0 d = 2 ∧ rget HBM_TRAIN_STAT.STEP 3 0 d = 0 ∧ pcState (32 * 3 + 31) d = p ∧ retrainDue 3 31 d = true) ∧
    (∃ (s : State) (d : Dev), Runs (103 + 3) s d ∧ rget HBM_TRAIN_STAT.STEP 3 0 d = 5) ∧ (∃ (s : State) (d : Dev), Runs (103 + 3) s d ∧ pcState (32 * 3 + 31) d = 2) ∧
    ∃ (s : State) (d : Dev), Runs (103 + 3) s d ∧ find? d.hbm.retrain 3 = some (32 * 3 + 31, 1) ∧ flag HBM_FREQ.PEND 3 0 d = false := by
  refine ⟨⟨stk 2 0 0 cooled, _, runs (by decide +kernel), by decide +kernel⟩, fun p h => ⟨stk 2 0 p hotter, _, runs (by revert p; decide +kernel), ?_⟩, ⟨stk 2 5 0, _, runs (by decide +kernel), by decide +kernel⟩,
    ⟨stk 2 0 2, _, runs (by decide +kernel), by decide +kernel⟩, stk 2 5 2 (onHbm fun h => { h with retrain := [(3, (127, 1))] }), _, runs (by decide +kernel), by decide +kernel⟩
  revert p; decide +kernel
theorem wit_Temperature : (∃ (s : State) (d : Dev), Runs (103 + 3) s d ∧ rget HBM_TEMP.MAX 3 0 d < 256 ∧ flag HBM_TEMP.HOT2X 3 0 d = false) ∧
    ∃ (s : State) (d : Dev) (img : Nat), Commits .pcie .HBM_TEMP 3 0 0 s d img :=
  ⟨⟨stk 2 0 0, _, runs (by decide +kernel), by decide +kernel⟩, stk 2 0 0, _, _, commits (by decide +kernel) (by decide +kernel)⟩
theorem wit_Slow : ∀ p ∈ [0, 1, 2, 3], ∃ (s : State) (d : Dev), Runs (103 + 3) s d ∧ pcState (32 * 3 + 31) d = p ∧ 0 < rget HBM_X_SLOW.HOLD_MS 3 0 d ∧
    rget HBM_X_SLOW.SLOW_NS 3 0 d < 2 ^ 32 - 1 ∧ rget HBM_X_SLOW.REREADS 3 0 d < 2 ^ 16 - 1 := by
  intro p h
  refine ⟨stk 2 0 p, _, runs (by revert p; decide +kernel), ?_⟩
  revert p; decide +kernel
/-- The record of a packet of 60 bytes alone in a block, as it is written. -/
def oneImg : BlkImg := blockImg 1 noHandle 91 0 0 (beBytes 32 (recordImg { tag := 0x801, len := 60 }) ++ List.replicate 60 0)
/-- The same block with c for its CRC. -/
def otherImg (c : Nat) : BlkImg := { oneImg with trailer := trailerHead 1 noHandle 91 0 0 * 2 ^ 32 + c }
theorem oneImg_good : imgGood oneImg = true := Laws.imgGood_blockImg _ _ _ _ _ _ (by decide)
theorem flip_none {x : BlkImg} {b : Bool} (h : imgGood x = b) : imgGood (imgFlip [] x) = b := h
/-- One of two CRCs is bad. -/
theorem otherImg_bad : ∃ c ∈ [0, 1], imgGood (otherImg c) = false := by
  by_cases h : blockCrc oneImg.data (trailerHead 1 noHandle 91 0 0) = 0
  · exact ⟨1, by decide, Laws.imgGood_other _ _ 1 (Laws.trailerHead_lt _ _ _ _ _ (by decide)) (by decide) (by rw [h]; decide)⟩
  · exact ⟨0, by decide, Laws.imgGood_other _ _ 0 (Laws.trailerHead_lt _ _ _ _ _ (by decide)) (by decide) (Ne.symm h)⟩
/-- Block 0 of pseudo-channel 0, which is SLOW, holds x. -/
def scrubbing (x : BlkImg) : State := up [0xA0] [103] (fun d => rset HBM_SCRUB.EN 0 0 1 (rset HBM_PCk_STAT.STATE 0 0 1 { d with
  hbm := { d.hbm with pcs := [(0, { hwm := 1 })], mem := [(0, x)] } }))
theorem scrubbing_held (x : BlkImg) : blockHeld (0 : BitVec 30).toNat (ungate (103 + stackOf (0 : BitVec 30).toNat) (scrubbing x).dev) = some x := rfl
theorem wit_Hbm_scrub : (∃ (h : BitVec 30) (s : State) (d : Dev), Runs (103 + stackOf h.toNat) s d ∧ flag HBM_SCRUB.EN (stackOf h.toNat) 0 d = false) ∧
    ∀ good : Bool, ∃ (h : BitVec 30) (s : State) (d : Dev) (x : BlkImg), Runs (103 + stackOf h.toNat) s d ∧ blockHeld h.toNat d = some x ∧
      (if good then imgGood (imgFlip [] x) = true else ∀ i < 3, imgGood (imgFlip (([] : List (List (Fin 2176))).getD i []) x) = false) ∧
      flag HBM_SCRUB.EN (stackOf h.toNat) 0 d = true ∧ pcState (pcOf h.toNat) d = 1 ∧
      blkOf h.toNat < (pcFree (pcOf h.toNat) d).hwm ∧ flag HBM_ERR_ADDR.VALID (stackOf h.toNat) 0 d = false := by
  refine ⟨⟨0, up [0xA0] [103] (rset HBM_SCRUB.EN 0 0 0), _, runs (by decide +kernel), by decide +kernel⟩, fun good => ?_⟩
  cases good
  · obtain ⟨c, m, b⟩ := otherImg_bad
    refine ⟨0, scrubbing (otherImg c), _, otherImg c, runs (by clear b; revert c; decide +kernel), scrubbing_held _, fun i _ => by simpa [imgFlip] using b, ?_⟩
    clear b; revert c; decide +kernel
  · exact ⟨0, scrubbing oneImg, _, oneImg, runs (by decide +kernel), scrubbing_held _, flip_none oneImg_good, by decide +kernel⟩
theorem wit_Hbm_inject : ∀ x ∈ [(true, true, 0), (false, false, 0), (false, true, 2175), (false, true, 2176)], ∃ (s : State) (d : Dev) (img : Nat),
    Commits .pcie .HBM_X_INJECT 3 0 (force 0 [(31, 31, 1)]) s d img ∧ flag HBM_X_INJECT.GO 3 0 d = x.1 ∧ expertOf 0xA3 d = x.2.1 ∧
    HBM_X_INJECT.BIT.of img = x.2.2 := by
  intro x h
  refine ⟨stk 2 0 0 (fun d => staging .HBM_X_INJECT 3 0 x.2.2 (setFace 0xA3 { face 0xA3 d with expert := x.2.1 } (rset HBM_X_INJECT.GO 3 0 (b2n x.1) d))), _, _,
    commits (by revert x; decide +kernel) (by revert x; decide +kernel), ?_⟩
  revert x; decide +kernel

/-- Pseudo-channel 127 alone has two free blocks in its cache. -/
def twoBlocks (d : Dev) : Dev := setFace 0xA3 { face 0xA3 d with en := true } { d with hbm := { d.hbm with pcs := [(127, { cache := [127 * 2 ^ 23, 127 * 2 ^ 23 + 1] })] } }
theorem wit_Spill_write : ∀ on ∈ [true, false], ∃ (s : State) (d : Dev) (x : Desc), Runs 102 s d ∧ d.tm.spillIn = [(5, x)] ∧ metaSeen x.head d = .clean ∧
    (cell x.head d).last = true ∧ dataSeen x.head (poolStep (cell x.head d).pool d) d = .clean ∧ (stream 5 d).blocks = [] ∧ (stream 5 d).pre = [] ∧ x.rebuilt = none ∧
    x.len ≤ (cell x.head d).data.length ∧
    (if on then (∀ pc < 128, pcUsable pc d = true → (32 + x.len + 255) / 256 + 1 ≤ (pcFree pc d).cache.length) ∧ pcUsable 127 d = true else ∀ pc < 128, pcUsable pc d = false) := by
  intro on h
  refine ⟨up [0x90, 0xA3] [101, 102] (fun d => twoBlocks (rset HBM_ID.STATE 3 0 2 (rset HBM_PCk_STAT.STATE 3 31 (b2n !on) { d with
    chk := { d.chk with cells := [(5, { used 0x801 1 with data := List.replicate 60 0 })] }, tm := { d.tm with spillIn := [(5, { head := 5, tag := 0x801, len := 60 })] } }))), _,
    { head := 5, tag := 0x801, len := 60 }, runs (by revert on; decide +kernel), ?_⟩
  revert on; decide +kernel
/-- Queue 5 has one packet of 60 bytes in block 0 of pseudo-channel 0, which holds img and stands at a; n blocks outstanding, state p. -/
def spilt (img : BlkImg) (a : BlkAt) (tries n p : Nat) (stall : Bool) (x : Dev → Dev := id) : State := up [0x90, 0xA0] [101, 102, 103] fun d =>
  x (loadImg .CHK_POOLn_CFG 0 0 (one 64) (rset CHK_SRCs_CFG.BODY_POOL 0 131 0 (rset TMS_CFG.PREFETCH 0 0 1 (rset HBM_PCk_STAT.STATE 0 0 p (rset HBM_PCk_STAT.OUTST 0 0 n { d with
    chk := { d.chk with pools := [(0, { cache := [9] })] },
    tm := { d.tm with queues := [(5, { bytes := 60, spilled := true, spillPkts := 1, spillBytes := 60 })] },
    hbm := { d.hbm with streams := [(5, { recs := [⟨{ tag := 0x801, len := 60 }, 0⟩], blocks := [{ handle := 0, seq := 0, ofs := 0, used := 92, data := (if a = .returned then img.data else []), at_ := a, tries := tries }], stalled := stall })], mem := [(0, img)] } })))))
theorem wit_Read_issue : (∃ (s : State) (d : Dev), Runs 102 s d ∧ (queue 5 d).spilled = false) ∧ (∃ (s : State) (d : Dev), Runs 102 s d ∧ (stream 5 d).stalled = true) ∧
    (∃ (s : State) (d : Dev), Runs 102 s d ∧ rget TMS_CFG.PREFETCH 0 0 d * 1024 = (queue 5 d).bytes - (queue 5 d).spillBytes + (queue 5 d).asked) ∧
    ∀ x ∈ [(0, 31), (1, 0), (2, 0), (3, 0)], ∃ (s : State) (d : Dev) (b : Blk), Runs 102 s d ∧ (queue 5 d).spilled = true ∧ (stream 5 d).stalled = false ∧
      (queue 5 d).bytes - (queue 5 d).spillBytes + (queue 5 d).asked < rget TMS_CFG.PREFETCH 0 0 d * 1024 ∧ (stream 5 d).blocks = [b] ∧ b.at_ = .written ∧
      pcState (pcOf b.handle) d = x.1 ∧ rget HBM_PCk_STAT.OUTST (stackOf b.handle) (pcOf b.handle % 32) d = x.2 ∧ bufferUsed (stackOf b.handle) d < 1024 := by
  refine ⟨⟨up [] [102], _, runs (by decide +kernel), by decide +kernel⟩, ⟨spilt oneImg .written 0 0 0 true, _, runs (by decide +kernel), by decide +kernel⟩,
    ⟨spilt oneImg .written 0 0 0 false (fun d => { d with tm := { d.tm with queues := [(5, { bytes := 1024, spilled := true })] } }), _, runs (by decide +kernel), by decide +kernel⟩, fun x h => ?_⟩
  refine ⟨spilt oneImg .written 0 x.2 x.1 false, _, { handle := 0, seq := 0, ofs := 0, used := 92, at_ := .written }, runs (by revert x; decide +kernel), ?_⟩
  revert x; decide +kernel
/-- The record of the block of `spilt` comes back whole. -/
def Fitting (r : SpillRec) (b : Blk) (data : Bytes) (d : Dev) : Prop := b.ofs < r.start + 32 + r.desc.len ∧ r.start < b.ofs + b.used ∧
  bits (beAt ((data.take b.used).drop (r.start - b.ofs)) 0 32) 54 48 = 0x5A ∧ poolEn (rget CHK_SRCs_CFG.BODY_POOL 0 131 d) d = true ∧
  (pool (rget CHK_SRCs_CFG.BODY_POOL 0 131 d) d).cache = [9] ∧
  ((((data.take b.used).drop (r.start - b.ofs)).drop 32).take (recordDesc 5 (beAt ((data.take b.used).drop (r.start - b.ofs)) 0 32) d).len).length ≤
    64 * poolStep (rget CHK_SRCs_CFG.BODY_POOL 0 131 d) d ∧ d.hbm.wq = [] ∧ d.hbm.wwait = [] ∧ (queue 5 d).spillPkts = 1
theorem spilt_held (img : BlkImg) (a : BlkAt) (tries n p : Nat) (stall : Bool) : blockHeld 0 (ungate (103 + stackOf 0) (spilt img a tries n p stall).dev) = some img := by
  have e : (ungate (103 + stackOf 0) (spilt img a tries n p stall).dev).hbm = (spilt img a tries n p stall).dev.hbm := by
    unfold ungate; split <;> rfl
  unfold blockHeld writeQueue
  rw [e]
  rfl
theorem wit_Block_return : (∃ (s : State) (d : Dev), Runs (103 + stackOf 0) s d ∧ readerOf 0 d = none ∧ ∀ x ∈ d.hbm.strays, x.1 ≠ 0) ∧
    (∀ n ∈ [0, 1], ∃ (s : State) (d : Dev) (b : Blk) (r : SpillRec) (img : BlkImg), Runs (103 + stackOf 0) s d ∧ readerOf 0 d = some (5, b) ∧ blockHeld 0 d = some img ∧
      imgGood (imgFlip [] img) = true ∧ (if n = 0 then imgSeq (imgFlip [] img) = b.seq else imgSeq (imgFlip [] img) ≠ b.seq) ∧ (stream 5 d).blocks = [b] ∧
      (stream 5 d).recs = [r] ∧ (stream 5 d).stalled = false ∧ (∀ y ∈ d.tm.spillIn, y.1 ≠ 5) ∧ Fitting r b (imgFlip [] img).data d) ∧
    ∀ n ∈ [0, 1, 2], ∃ (s : State) (d : Dev) (b : Blk) (r : SpillRec) (img : BlkImg) (k : Nat), Runs (103 + stackOf 0) s d ∧ readerOf 0 d = some (5, b) ∧
      blockHeld 0 d = some img ∧ imgGood (imgFlip [] img) = false ∧ b.tries = n ∧ pcState (pcOf b.handle) d ≠ 3 ∧ imgLink (imgFlip [] img) = some k ∧
      (nextOf (stream 5 d) b).all (· == k) = true ∧ (stream 5 d).blocks = [b] ∧ (stream 5 d).recs = [r] ∧ (stream 5 d).stalled = false ∧
      b.ofs < r.start + 32 + r.desc.len ∧ r.start < b.ofs + b.used := by
  have o : imgSeq oneImg = 0 := Laws.imgSeq_blockImg ..
  refine ⟨⟨up [] [103], _, runs (by decide +kernel), by decide +kernel⟩, fun n h => ?_, fun n h => ?_⟩
  · rcases List.mem_pair.1 h with rfl | rfl
    · exact ⟨spilt oneImg .reading 0 1 0 false, _, { handle := 0, seq := 0, ofs := 0, used := 92, at_ := .reading }, ⟨{ tag := 0x801, len := 60 }, 0⟩, oneImg,
        runs (by decide +kernel), by decide +kernel, spilt_held .., flip_none oneImg_good, o, by unfold Fitting; decide +kernel⟩
    · exact ⟨spilt oneImg .reading 0 1 0 false (fun d => setStream 5 { stream 5 d with blocks := [{ handle := 0, seq := 1, ofs := 0, used := 92, at_ := .reading }] } d), _,
        { handle := 0, seq := 1, ofs := 0, used := 92, at_ := .reading }, ⟨{ tag := 0x801, len := 60 }, 0⟩, oneImg,
        runs (by decide +kernel), by decide +kernel, rfl, flip_none oneImg_good, by show imgSeq oneImg ≠ 1; rw [o]; decide, by unfold Fitting; decide +kernel⟩
  · obtain ⟨c, m, b⟩ := otherImg_bad
    refine ⟨spilt (otherImg c) .reading n 1 0 false, _, { handle := 0, seq := 0, ofs := 0, used := 92, at_ := .reading, tries := n }, ⟨{ tag := 0x801, len := 60 }, 0⟩, otherImg c,
      noHandle, runs (by clear b; revert n c; decide +kernel), by clear b; revert n c; decide +kernel, spilt_held .., flip_none b, ?_⟩
    clear b; revert n c; decide +kernel
theorem wit_Read_timeout : (∃ (s : State) (d : Dev), Runs (103 + stackOf 0) s d ∧ d.mono < look d.hbm.readAt 0 0 + rget HBM_X_READ_TMO.US (stackOf 0) 0 d * 1000) ∧
    (∃ (s : State) (d : Dev), Runs (103 + stackOf 0) s d ∧ readerOf 0 d = none ∧ ∀ x ∈ d.hbm.strays, x.1 ≠ 0) ∧
    ∃ (s : State) (d : Dev) (b : Blk), Runs (103 + stackOf 0) s d ∧ readerOf 0 d = some (5, b) ∧ pcState (pcOf b.handle) d ≠ 3 ∧ b.tries = 1 ∧
      look d.hbm.readAt 0 0 + rget HBM_X_READ_TMO.US (stackOf 0) 0 d * 1000 ≤ d.mono :=
  ⟨⟨up [] [103], _, runs (by decide +kernel), by decide +kernel⟩, ⟨up [] [103], _, runs (by decide +kernel), by decide +kernel⟩,
    spilt oneImg .reading 1 1 0 false (fun d => { d with mono := 10 ^ 9 }), _, { handle := 0, seq := 0, ofs := 0, used := 92, at_ := .reading, tries := 1 },
    runs (by decide +kernel), by decide +kernel⟩
theorem wit_Return_retry : (∃ (s : State) (d : Dev), Runs 102 s d ∧ (stream 5 d).stalled = false) ∧
    (∃ (s : State) (d : Dev), Runs 102 s d ∧ poolAvail d 5 (rget CHK_SRCs_CFG.BODY_POOL 0 131 d) = false) ∧
    ∃ (s : State) (d : Dev) (b : Blk) (r : SpillRec), Runs 102 s d ∧ (stream 5 d).stalled = true ∧ (stream 5 d).blocks = [b] ∧ b.at_ = .returned ∧ (stream 5 d).recs = [r] ∧
      poolAvail d 5 (rget CHK_SRCs_CFG.BODY_POOL 0 131 d) = true ∧ Fitting r b b.data d :=
  ⟨⟨up [] [102], _, runs (by decide +kernel), by decide +kernel⟩, ⟨up [] [102], _, runs (by decide +kernel), by decide +kernel⟩,
    spilt oneImg .returned 0 0 0 true, _, { handle := 0, seq := 0, ofs := 0, used := 92, at_ := .returned, data := oneImg.data }, ⟨{ tag := 0x801, len := 60 }, 0⟩,
    runs (by decide +kernel), by unfold Fitting; decide +kernel⟩

/-! Premises of the statements on queues and schedulers. -/

/-- Queue q as y, enabled with profile 511 of which MAX is 2 units and GUAR is g; the arrival of 64 bytes goes to it; x is done. -/
def admitting (q g : Nat) (y : Queue) (dest : Dest) (x : Dev → Dev := id) : State := up [0xB0, 0xB1, 0xB2, 0xB8] [102] fun d =>
  x (rset TMS_QPROFp.VALID 0 511 1 (rset TMS_QPROFp.MAX 0 511 2 (rset TMS_QPROFp.GUAR 0 511 g (rset TMS_CFG.SPILL_EN 0 0 0 { d with
    tm := { d.tm with input := [{ desc := { len := 64, qid := q }, dest := dest }], queues := [(q, y)] } }))))
/-- An enabled queue of profile 511 with n bytes. -/
def holds (n : Nat) : Queue := { en := true, qprof := 511, bytes := n }
theorem wit_Admission_refused : (∃ (s : State) (d : Dev) (a : Arrival), Runs 102 s d ∧ d.tm.input = [a] ∧ a.meter = none ∧ blkEn Pg.TMS d = false) ∧
    (∃ (s : State) (d : Dev) (a : Arrival), Runs 102 s d ∧ d.tm.input = [a] ∧ a.meter = none ∧ blkEn Pg.TMS d = true ∧ arrivalQueue a d = none) ∧
    (∃ (s : State) (d : Dev) (a : Arrival), Runs 102 s d ∧ d.tm.input = [a] ∧ a.meter = none ∧ blkEn Pg.TMS d = true ∧ arrivalQueue a d = some 5 ∧ (queue 5 d).en = false) ∧
    ∃ (s : State) (d : Dev) (a : Arrival), Runs 102 s d ∧ d.tm.input = [a] ∧ a.meter = none ∧ blkEn Pg.TMS d = true ∧ arrivalQueue a d = some 5 ∧ (queue 5 d).en = true ∧
      rget TMS_QPROFp.MAX 0 (queue 5 d).qprof d * 64 + 1 = (queue 5 d).bytes + a.desc.len :=
  ⟨⟨admitting 5 0 {} .voq (fun d => setFace 0xB0 { face 0xB0 d with en := false } d), _, _, runs (by decide +kernel), rfl, by decide +kernel⟩,
    ⟨admitting 5 0 {} (.egress 0), _, _, runs (by decide +kernel), rfl, by decide +kernel⟩, ⟨admitting 5 0 {} .voq, _, _, runs (by decide +kernel), rfl, by decide +kernel⟩,
    admitting 5 0 (holds 65) .voq, _, _, runs (by decide +kernel), rfl, by decide +kernel⟩
/-- What a queue of profile 511 meets with n bytes queued and 64 arriving. -/
def Meets (s : State) (d : Dev) (a : Arrival) (n : Nat) : Prop := Runs 102 s d ∧ d.tm.input = [a] ∧ a.meter = none ∧ blkEn Pg.TMS d = true ∧ arrivalQueue a d = some 5 ∧
  queue 5 d = holds n ∧ flag TMS_CFG.SPILL_EN 0 0 d = false ∧ n + a.desc.len ≤ rget TMS_QPROFp.MAX 0 511 d * 64
theorem wit_Admission_limits : (∃ s d a, Meets s d a 64 ∧ 64 + a.desc.len = rget TMS_QPROFp.GUAR 0 511 d * 64) ∧
    (∃ s d a, Meets s d a 64 ∧ rget TMS_QPROFp.GUAR 0 511 d * 64 < 64 + a.desc.len ∧ poolState (descPool a.desc d) d = 0 ∧ flag TMS_QPROFp.DT_EN 0 511 d = false ∧
      flag TMS_QPROFp.WRED_EN 0 511 d = false) ∧
    (∃ s d a, Meets s d a 64 ∧ rget TMS_QPROFp.GUAR 0 511 d * 64 < 64 + a.desc.len ∧ 2 ≤ poolState (descPool a.desc d) d) ∧
    ∃ s d a, Meets s d a 64 ∧ rget TMS_QPROFp.GUAR 0 511 d * 64 < 64 + a.desc.len ∧ poolState (descPool a.desc d) d = 0 ∧ flag TMS_QPROFp.DT_EN 0 511 d = true ∧
      poolFree (descPool a.desc d) d * 64 * poolStep (descPool a.desc d) d * 2 ^ rget TMS_QPROFp.ALPHA 0 511 d < (64 + a.desc.len) * 256 := by
  refine ⟨⟨admitting 5 2 (holds 64) .voq, _, _, ⟨runs (by decide +kernel), rfl, by decide +kernel⟩, by decide +kernel⟩,
    ⟨admitting 5 1 (holds 64) .voq (fun d => loadImg .CHK_POOLn_CFG 0 0 (one 64) d), _, _, ⟨runs (by decide +kernel), rfl, by decide +kernel⟩, by decide +kernel⟩,
    ⟨admitting 5 1 (holds 64) .voq, _, _, ⟨runs (by decide +kernel), rfl, by decide +kernel⟩, by decide +kernel⟩,
    admitting 5 1 (holds 64) .voq (fun d => rset TMS_QPROFp.DT_EN 0 511 1 (loadImg .CHK_POOLn_CFG 0 0 (one 64) d)), _, _, ⟨runs (by decide +kernel), rfl, by decide +kernel⟩, by decide +kernel⟩
theorem wit_Meters : ∃ (s : State) (d : Dev) (a : Arrival), Runs 102 s d ∧ d.tm.input = [a] ∧ a.meter = some 524287 ∧ (meter 524287 d).en = true ∧
    flag MTR_PROFp.VALID 0 1023 d = true ∧ (meter 524287 d).prof = 1023 ∧ blkEn Pg.MTR d = true ∧ rget MTR_PROFp.MODE 0 1023 d = 0 ∧
    flag MTR_PROFp.AWARE 0 1023 d = false ∧ rget MTR_PROFp.LEN_ADJ 0 1023 d = 0 ∧ (meter 524287 d).tp = a.desc.len * bktByte :=
  ⟨admitting 5 0 (holds 0) .voq (fun d => rset MTR_PROFp.VALID 0 1023 1 (rset MTR_PROFp.PBS 0 1023 64 { d with tm := { d.tm with
      input := [{ desc := { len := 64, qid := 5 }, dest := .voq, meter := some 524287 }], meters := [(524287, { en := true, prof := 1023, tp := 512000000 })] } })), _,
    { desc := { len := 64, qid := 5 }, dest := .voq, meter := some 524287 }, runs (by decide +kernel), rfl, by decide +kernel⟩
/-- TMS_Q_CMD words below the highest: QID q, QPROF p, PARENT par, WEIGHT w. -/
def qWord (q p par w : Nat) : Nat := q * 2 ^ 104 + p * 2 ^ 94 + par * 2 ^ 78 + w * 2 ^ 57
/-- A queue command of QID q that commits in state admitting, its words staged. -/
def qCmd (q p par w : Nat) (y : Queue) (x : Dev → Dev := id) : State := admitting q 0 y .voq fun d => staging .TMS_Q_CMD 0 0 (qWord q p par w % 2 ^ 96) (x d)
/-- The highest word of a queue command. -/
def qTop (q p par w : Nat) (en : Nat) : BitVec 32 := BitVec.ofNat 32 (qWord q p par w / 2 ^ 96 + en * 2 ^ 7)
theorem wit_Queue_commands : (∀ x ∈ [(5, 1), (5, 0), (131071, 1)], ∃ s d img, Commits .pcie .TMS_Q_CMD 0 0 (go (qTop x.1 511 0 0 x.2) 30 28 0) s d img ∧ TMS_Q_CMD.QID.of img = x.1 ∧
      isVoq x.1 = true ∧ TMS_Q_CMD.EN.on img = (x.2 == 1) ∧ flag TMS_QPROFp.VALID 0 (TMS_Q_CMD.QPROF.of img) d = true) ∧
    (∃ s d img, Commits .pcie .TMS_Q_CMD 0 0 (go (qTop 131072 511 9 1 1) 30 28 0) s d img ∧ isVoq (TMS_Q_CMD.QID.of img) = false ∧ TMS_Q_CMD.EN.on img = true ∧
      flag TMS_QPROFp.VALID 0 (TMS_Q_CMD.QPROF.of img) d = true ∧ (node 3 (TMS_Q_CMD.PARENT.of img) d).en = true ∧ TMS_Q_CMD.WEIGHT.of img ≠ 0 ∧
      (queue (TMS_Q_CMD.QID.of img) d).pkts = [] ∧ (queue (TMS_Q_CMD.QID.of img) d).spillPkts = 0) ∧
    (∃ s d img, Commits .pcie .TMS_Q_CMD 0 0 (go (qTop 5 510 0 0 1) 30 28 0) s d img ∧ TMS_Q_CMD.EN.on img = true ∧ flag TMS_QPROFp.VALID 0 (TMS_Q_CMD.QPROF.of img) d = false) ∧
    (∃ s d img, Commits .pcie .TMS_Q_CMD 0 0 (go (qTop 131072 511 9 1 0) 30 28 0) s d img ∧ isVoq (TMS_Q_CMD.QID.of img) = false ∧ TMS_Q_CMD.EN.on img = false ∧
      TMS_Q_CMD.PARENT.of img ≠ (queue (TMS_Q_CMD.QID.of img) d).parent ∧ (queue (TMS_Q_CMD.QID.of img) d).pkts ≠ []) ∧
    ∀ op ∈ [1, 2, 3], ∀ en ∈ [true, false], ∃ s d img, Commits .pcie .TMS_Q_CMD 0 0 (go (qTop 5 0 0 0 0) 30 28 op) s d img ∧ (queue (TMS_Q_CMD.QID.of img) d).en = en ∧
      (queue (TMS_Q_CMD.QID.of img) d).bytes = 2 ^ 32 - 1 ∧ (queue (TMS_Q_CMD.QID.of img) d).hwm < 2 ^ 32 := by
  refine ⟨fun x h => ⟨qCmd x.1 511 0 0 {}, _, _, commits (by revert x; decide +kernel) (by revert x; decide +kernel), by revert x; decide +kernel⟩,
    ⟨qCmd 131072 511 9 1 {} (fun d => { d with tm := { d.tm with nodes := [(3 * 65536 + 9, { en := true })] } }), _, _, commits (by decide +kernel) (by decide +kernel), by decide +kernel⟩,
    ⟨qCmd 5 510 0 0 {}, _, _, commits (by decide +kernel) (by decide +kernel), by decide +kernel⟩,
    ⟨qCmd 131072 511 9 1 { pkts := [{}] }, _, _, commits (by decide +kernel) (by decide +kernel), by decide +kernel⟩, fun op h en k => ?_⟩
  refine ⟨qCmd 5 0 0 0 { en := en, bytes := 2 ^ 32 - 1 }, _, _, commits (by revert op en; decide +kernel) (by revert op en; decide +kernel), ?_⟩
  revert op en; decide +kernel
/-- The words below the highest of a node command of level l, index i, EN en, CIR c and PIR p, and its highest word. -/
def nodeImg (l i en c p : Nat) : Nat := l * 2 ^ 250 + en * 2 ^ 249 + i * 2 ^ 233 + c * 2 ^ 160 + p * 2 ^ 128
/-- A node command that commits. -/
def nodeCmd (l i en c p : Nat) (x : Dev → Dev := id) : State := up [0xB2] [] fun d => staging .TMS_NODE_CMD 0 0 (nodeImg l i en c p % 2 ^ 224) (x d)
theorem wit_Node_commands : (∀ p ∈ [0, 7], ∃ s d img, Commits .pcie .TMS_NODE_CMD 0 0 (go (BitVec.ofNat 32 (nodeImg 0 129 1 7 p / 2 ^ 224)) 30 28 0) s d img ∧ TMS_NODE_CMD.LEVEL.of img = 0 ∧
      TMS_NODE_CMD.INDEX.of img < levelCount 0 ∧ TMS_NODE_CMD.EN.on img = true ∧ TMS_NODE_CMD.PIR.of img = p ∧ (p ≠ 0 → TMS_NODE_CMD.CIR.of img ≤ p)) ∧
    (∃ s d img, Commits .pcie .TMS_NODE_CMD 0 0 (go (BitVec.ofNat 32 (nodeImg 3 65535 1 7 6 / 2 ^ 224)) 30 28 0) s d img ∧ TMS_NODE_CMD.LEVEL.of img = 3 ∧
      TMS_NODE_CMD.INDEX.of img < levelCount 3 ∧ TMS_NODE_CMD.PIR.of img ≠ 0 ∧ TMS_NODE_CMD.PIR.of img < TMS_NODE_CMD.CIR.of img) ∧
    ∀ op ∈ [1, 2], ∃ s d img, Commits .pcie .TMS_NODE_CMD 0 0 (go (BitVec.ofNat 32 (nodeImg 1 1023 0 0 0 / 2 ^ 224)) 30 28 op) s d img ∧ TMS_NODE_CMD.LEVEL.of img = 1 ∧
      TMS_NODE_CMD.INDEX.of img < levelCount 1 ∧ (node 1 (TMS_NODE_CMD.INDEX.of img) d).hwm = 2 ^ 32 - 1 := by
  refine ⟨fun p h => ⟨nodeCmd 0 129 1 7 p, _, _, commits (by revert p; decide +kernel) (by revert p; decide +kernel), by revert p; decide +kernel⟩,
    ⟨nodeCmd 3 65535 1 7 6, _, _, commits (by decide +kernel) (by decide +kernel), by decide +kernel⟩, fun op h => ?_⟩
  refine ⟨nodeCmd 1 1023 0 0 0 (fun d => { d with tm := { d.tm with nodes := [(65536 + 1023, { hwm := 2 ^ 32 - 1 })] } }), _, _,
    commits (by revert op; decide +kernel) (by revert op; decide +kernel), ?_⟩
  revert op; decide +kernel
theorem wit_Meter_commands : ∀ op ∈ [0, 1], ∃ s d img, Commits .pcie .MTR_CMD 0 0 (go 0xFFFFFFFF 30 28 op) s d img ∧ MTR_CMD.PROFILE.of img = 1023 := by
  intro op h
  refine ⟨up [0xB8] [], _, _, commits (by revert op; decide +kernel) (by revert op; decide +kernel), ?_⟩
  revert op; decide +kernel

/-- VOQ q is listed with head packet of 64 bytes in cell 5 and balance b, beside queue k. -/
def voqOne (q b : Nat) (k : List (Nat × Queue)) (x : Dev → Dev := id) : State := up [0x82, 0xB0, 0xB1, 0xD8] [101, 102] fun d =>
  x { d with chk := { d.chk with cells := [(5, used 0x801 1)] }, tm := { d.tm with queues := (q, { en := true, pkts := [{ head := 5, tag := 0x801, len := 64 }], bytes := 64, bal := b }) :: k } }
theorem wit_Voq : (∃ s d, Runs 102 s d ∧ blkEn Pg.TMS d = false) ∧ (∃ s d, Runs 102 s d ∧ blkEn Pg.TMS d = true ∧ ∀ z ∈ d.tm.queues, voqReady z.1 z.2 d = false) ∧
    (∃ s d y x, Runs 102 s d ∧ blkEn Pg.TMS d = true ∧ d.tm.queues = [(63 * 2048 + 127 * 16 + 15, y)] ∧ voqReady (63 * 2048 + 127 * 16 + 15) y d = true ∧
      (voqDev (63 * 2048 + 127 * 16 + 15) + voqPort (63 * 2048 + 127 * 16 + 15)) % 16 = 14 ∧ y.pkts = [x] ∧ voqDev (63 * 2048 + 127 * 16 + 15) ≠ devId d ∧
      x.rebuilt = none ∧ metaSeen x.head d = .clean ∧ (cell x.head d).last = true ∧ dataSeen x.head (poolStep (cell x.head d).pool d) d = .clean) ∧
    ∃ s d y x z, Runs 102 s d ∧ blkEn Pg.TMS d = true ∧ d.tm.queues = [(16, y), (0x20000, z)] ∧ isVoq 0x20000 = false ∧ voqReady 16 y d = true ∧
      (voqDev 16 + voqPort 16) % 16 = 1 ∧ y.pkts = [x] ∧ voqDev 16 = devId d ∧ egressQueue (voqPort 16) 16 x.carry d = some 0x20000 ∧ z.en = true ∧ z.spilled = false ∧
      z.bytes + x.len = rget TMS_QPROFp.MAX 0 z.qprof d * 64 ∧ z.bytes + x.len = rget TMS_QPROFp.GUAR 0 z.qprof d * 64 :=
  ⟨⟨up [] [102], _, runs (by decide +kernel), by decide +kernel⟩, ⟨voqOne 16 0 [], _, runs (by decide +kernel), by decide +kernel⟩,
    ⟨voqOne (63 * 2048 + 127 * 16 + 15) 1 [], _, _, _, runs (by decide +kernel), by decide +kernel, rfl, by decide +kernel, by decide +kernel, rfl, by decide +kernel⟩,
    voqOne 16 1 [(0x20000, holds 0)] (fun d => rset TMS_PORTn_EQ.EQ_BASE 0 1 0x20000 (rset TMS_QPROFp.MAX 0 511 1 (rset TMS_QPROFp.GUAR 0 511 1
      { d with tm := { d.tm with nodes := [(65536, { parent := 1 })] } }))), _, _, _, _, runs (by decide +kernel), by decide +kernel, rfl, by decide +kernel, by decide +kernel,
      by decide +kernel, rfl, by decide +kernel⟩
/-- Egress queue 0x20000 below port n with a packet of 64 bytes in cell 5, every node enabled; x is done. -/
def egrOne (n : Nat) (x : Dev → Dev := id) : State := up [0x82, 0x10, 0xB0, 0xB1, 0xB2] [101, 102] fun d =>
  x (rset LPG_PORTn_STAT.LINK_STATE 0 0 4 { d with chk := { d.chk with cells := [(5, used 0x801 1)] }, tm := { d.tm with
    queues := [(0x20000, { en := true, weight := 1, pkts := [{ head := 5, tag := 0x801, len := 64 }], bytes := 64 })],
    nodes := [(n, { en := true }), (65536, { en := true, parent := n, weight := 1 }), (131072, { en := true, weight := 1 }), (196608, { en := true, weight := 1 })] } })
/-- Port n is the one ready, and its hierarchy selects the queue. -/
def Selects (n pipe : Nat) (s : State) (d : Dev) : Prop := Runs 102 s d ∧ blkEn Pg.TMS d = true ∧ rootOf 0x20000 d = n ∧ (queue 0x20000 d).pkts = [{ head := 5, tag := 0x801, len := 64 }] ∧
  puntDrop 0x20000 { head := 5, tag := 0x801, len := 64 } d = 0 ∧ (n < 128 → gateDrop n (queue 0x20000 d) { head := 5, tag := 0x801, len := 64 } d = 0) ∧
  readyPorts pipe (eligRefresh d) = [n] ∧ ((selectDown n (onTm (fun t => { t with portRot := put t.portRot pipe 0 ((n + 1) % 130) }) (eligRefresh d))).1.map (·.2)) = some 0x20000
theorem wit_Egress : (∃ s d, Selects 0 0 s d ∧ linkState 0 d = 4 ∧ metaSeen 5 d = .clean ∧ (cell 5 d).last = true ∧ dataSeen 5 (poolStep (cell 5 d).pool d) d = .clean) ∧
    (∃ s d, Selects 128 14 s d) ∧ (∃ s d, Selects 129 15 s d) ∧ (∃ s d, Runs 102 s d ∧ blkEn Pg.TMS d = true ∧ egQueues d = [] ∧ d.tm.nodes = []) ∧
    ∃ tie rot l c p ft, pickChild tie rot l = some (c, p, ft) ∧ l = [(1, 0, 0, false), (2, 1, 0, true), (3, 1, 5, true)] :=
  ⟨⟨egrOne 0, _, ⟨runs (by decide +kernel), by decide +kernel⟩, by decide +kernel⟩,
    ⟨egrOne 128 (fun d => rset HIF_LINK.BME 0 0 1 (rset HIF_LINK.SPEED 0 0 3 (rset TMS_PORTn_EQ.EQ_BASE 0 128 0x20000 (rset HIF_RINGn_STAT.STATE 0 0 1
      (rset HIF_RINGn_TAIL.TAIL 0 0 1 d))))), _, runs (by decide +kernel), by decide +kernel⟩,
    ⟨egrOne 129, _, runs (by decide +kernel), by decide +kernel⟩, ⟨up [0xB0] [102], _, runs (by decide +kernel), by decide +kernel⟩,
    false, 0, [(1, 0, 0, false), (2, 1, 0, true), (3, 1, 5, true)], 2, 1, 0, by decide +kernel, rfl⟩
theorem wit_Credits : (∀ x ∈ [(3, true), (4, false)], ∃ s d, Runs 102 s d ∧ linkState 0 d = x.1 ∧ blkEn Pg.TMS d = x.2) ∧
    (∃ s d, Runs 102 s d ∧ linkState 0 d = 4 ∧ blkEn Pg.TMS d = true ∧ rget TMS_CR_PORTn.HOLD 0 0 d * 64 = portBacklog 0 d) ∧
    (∀ v ∈ [0, 63], ∃ s d, Runs 102 s d ∧ linkState 0 d = 4 ∧ blkEn Pg.TMS d = true ∧ portBacklog 0 d < rget TMS_CR_PORTn.HOLD 0 0 d * 64 ∧ askers 0 15 d = [v] ∧
      (∀ k < 16, k ≠ 15 → askers 0 k d = []) ∧ rget TMS_CR_CLASSc.PRIO 0 15 d = 3 ∧ blkEn Pg.FCT d = true ∧ devId d = 0 ∧ (look d.tm.gens 0 {}).nextPs ≤ d.mono * 1000) ∧
    (∃ s d, Runs 102 s d ∧ d.mono * 1000 < (look d.tm.gens 127 {}).nextPs) ∧
    ∀ on ∈ [true, false], ∃ s d, Runs 102 s d ∧ (queue 131071 d).reqOn = on ∧ voqDev 131071 ≠ devId d ∧ blkEn Pg.FCT d = true ∧
      (if on then (queue 131071 d).reqAt + rget TMS_CR_CFG.REQ_TMO 0 0 d * 1000 = d.mono else d.mono + 1 = (queue 131071 d).reqAt + rget TMS_CR_CFG.REQ_TMO 0 0 d * 1000) := by
  refine ⟨fun x h => ?_, ⟨egrOne 0 (rset TMS_CR_PORTn.HOLD 0 0 1), _, runs (by decide +kernel), by decide +kernel⟩, fun v h => ?_,
    ⟨up [] [102] (fun d => { d with tm := { d.tm with gens := [(127, { nextPs := 1 })] } }), _, runs (by decide +kernel), by decide +kernel⟩, fun on h => ?_⟩
  · refine ⟨up (if x.2 then [0xB0] else []) [102] (fun d => rset LPG_PORTn_STAT.LINK_STATE 0 0 x.1 d), _, runs (by revert x; decide +kernel), ?_⟩
    revert x; decide +kernel
  · refine ⟨up [0xB0, 0xD8] [102] (fun d => rset TMS_CR_CLASSc.PRIO 0 15 3 (rset LPG_PORTn_STAT.LINK_STATE 0 0 4 { d with tm := { d.tm with reqs := [(15 * 64 + v, { on := true })] } })), _,
      runs (by revert v; decide +kernel), ?_⟩
    revert v; decide +kernel
  · refine ⟨up [0xD8] [102] (fun d => { rset TMS_CR_CFG.REQ_TMO 0 0 100 d with mono := 100000 + b2n on - 1, tm := { d.tm with queues := [(131071, { reqOn := on })] } }), _,
      runs (by revert on; decide +kernel), ?_⟩
    revert on; decide +kernel

/-! Premises of the statements on time. -/

/-- The Spindle with its registers; x is done. -/
def spn (x : Dev → Dev := id) : State := up [4] [99] x
/-- The Spindle's own state as f. -/
def inSpn (f : Spn → Spn) (d : Dev) : Dev := { d with spn := f d.spn }
/-- A pending time command. -/
def adjusting (c : AdjCmd) (a : Tbl Act := []) : State := spn (inSpn fun s => { s with adj := some c, acts := a })
theorem wit_Marker : (∃ s d, Runs 99 s d ∧ 0 < baseRate d ∧ baseRate d = 1000 * unitNs ∧ d.spn.slew = none ∧ d.spn.servoStep = none ∧ d.spn.labelSet = none ∧ d.spn.adj = none) ∧
    (∀ c ∈ [AdjCmd.set 5, .step true 5, .step false 5, .slew true 5, .slew false 5], ∃ s d, Runs 99 s d ∧ 0 < baseRate d ∧ baseRate d ≤ 1000 * unitNs ∧ d.spn.slew = none ∧
      d.spn.servoStep = none ∧ d.spn.labelSet = none ∧ d.spn.adj = some c ∧ d.spn.acts = []) ∧
    ∃ s d a t, Runs 99 s d ∧ 0 < baseRate d ∧ baseRate d ≤ 1000 * unitNs ∧ d.spn.slew = none ∧ d.spn.servoStep = none ∧ d.spn.labelSet = none ∧ d.spn.adj = some (.set t) ∧ d.spn.acts = [(4095, a)] ∧
      a.due = false ∧ a.period = 0 ∧ t < 2 ^ 48 * 1000000000 * 2 ^ 32 ∧ nowNs d + 3000 < a.t ∧ a.t = timeNsOf t :=
  ⟨⟨spn (inSpn fun s => { s with rate := 999 * 2 ^ 32 }), _, runs (by decide +kernel), by decide +kernel⟩,
    fun c h => ⟨adjusting c, _, runs (by revert c; decide +kernel), by revert c; decide +kernel⟩,
    adjusting (.set (3001 * 2 ^ 32)) [(4095, { owner := 7, kind := 2, t := 3001 })], _, { owner := 7, kind := 2, t := 3001 }, 3001 * 2 ^ 32, runs (by decide +kernel), by decide +kernel⟩
theorem wit_Adjust : (∃ s d img, Commits .pcie .SPN_ADJ 0 0 (go 0 30 28 0) s d img ∧ SPN_ADJ.NS.of img = 1000000000) ∧
    (∀ op ∈ [0, 1, 2], ∃ s d img, Commits .pcie .SPN_ADJ 0 0 (go 0 30 28 op) s d img ∧ SPN_ADJ.NS.of img = 999999999 ∧ rget SPN_CFG.SRC 0 0 d = 1) ∧
    (∃ s d img, Commits .pcie .SPN_ADJ 0 0 (go 1 30 28 2) s d img ∧ SPN_ADJ.SEC.of img ≠ 0) ∧
    (∀ op ∈ [0, 1, 2], ∃ s d img, Commits .pcie .SPN_ADJ 0 0 (go 0 30 28 op) s d img ∧ flag SPN_ADJ.GO 0 0 d = true) ∧
    ∀ op ∈ [0, 1, 2], ∃ s d img, Commits .pcie .SPN_ADJ 0 0 (go 0 30 28 op) s d img ∧ SPN_ADJ.NS.of img = 999999999 ∧ rget SPN_CFG.SRC 0 0 d = 0 ∧ SPN_ADJ.SEC.of img = 0 ∧
      flag SPN_ADJ.GO 0 0 d = false := by
  refine ⟨⟨spn (staging .SPN_ADJ 0 0 (1000000000 * 2 ^ 32)), _, _, commits (by decide +kernel) (by decide +kernel), by decide +kernel⟩, fun op h => ?_,
    ⟨spn, _, _, commits (by decide +kernel) (by decide +kernel), by decide +kernel⟩, fun op h => ?_, fun op h => ?_⟩
  · refine ⟨spn (fun d => staging .SPN_ADJ 0 0 (999999999 * 2 ^ 32) (rset SPN_CFG.SRC 0 0 1 d)), _, _, commits (by revert op; decide +kernel) (by revert op; decide +kernel), ?_⟩
    revert op; decide +kernel
  · refine ⟨spn (rset SPN_ADJ.GO 0 0 1), _, _, commits (by revert op; decide +kernel) (by revert op; decide +kernel), ?_⟩
    revert op; decide +kernel
  · refine ⟨spn (staging .SPN_ADJ 0 0 (999999999 * 2 ^ 32)), _, _, commits (by revert op; decide +kernel) (by revert op; decide +kernel), ?_⟩
    revert op; decide +kernel
theorem wit_Slew_end : (∃ s d, Runs 99 s d ∧ d.spn.adj = none ∧ d.spn.servoStep = none ∧ d.spn.labelSet = none ∧ d.spn.slew = none) ∧
    ∃ s d x, Runs 99 s d ∧ d.spn.slew = some x ∧ 0 < x.rate ∧ x.rate = baseRate d ∧ d.spn.adj = none ∧ d.spn.servoStep = none ∧ d.spn.labelSet = none ∧
      signed 32 (rget SPN_RATE.RATE_ADJ 0 0 d) = d.spn.rate :=
  ⟨⟨spn, _, runs (by decide +kernel), by decide +kernel⟩, spn (inSpn fun s => { s with slew := some ⟨true, 5, 2 ^ 32⟩ }), _, ⟨true, 5, 2 ^ 32⟩, runs (by decide +kernel), by decide +kernel⟩
theorem wit_Rate : (∀ x ∈ [4294968, 2 ^ 32 - 4294968], ∃ s d img, Commits .pcie .SPN_RATE 0 0 x s d img ∧ (signed 32 (SPN_RATE.RATE_ADJ.of img)).natAbs = 4294968) ∧
    (∃ s d img, Commits .pcie .SPN_RATE 0 0 0 s d img ∧ rget SPN_CFG.SRC 0 0 d = 1) ∧
    ∀ x ∈ [4294967, 2 ^ 32 - 4294967], ∃ s d img, Commits .pcie .SPN_RATE 0 0 x s d img ∧ rget SPN_CFG.SRC 0 0 d = 0 ∧ (signed 32 (SPN_RATE.RATE_ADJ.of img)).natAbs = 4294967 :=
  ⟨fun x h => ⟨spn, _, _, commits (by revert x; decide +kernel) (by revert x; decide +kernel), by revert x; decide +kernel⟩,
    ⟨spn (rset SPN_CFG.SRC 0 0 1), _, _, commits (by decide +kernel) (by decide +kernel), by decide +kernel⟩,
    fun x h => ⟨spn, _, _, commits (by revert x; decide +kernel) (by revert x; decide +kernel), by revert x; decide +kernel⟩⟩
theorem wit_Source : (∀ x ∈ [3 + 2 ^ 16, 1, 1 + 1001 * 2 ^ 16, 1 + 2 ^ 16 + 2 * 4], ∃ s d img, Commits .pcie .SPN_CFG 0 0 x s d img ∧
      (SPN_CFG.SRC.of img = 3 ∨ SPN_CFG.SLEW_PPM.of img = 0 ∨ 1000 < SPN_CFG.SLEW_PPM.of img ∨ 1 < SPN_CFG.MGR_SRC.of img)) ∧
    (∃ s d img, Commits .pcie .SPN_CFG 0 0 (2 + 2 ^ 16) s d img ∧ SPN_CFG.SRC.of img = 2 ∧ isMgr d = true) ∧
    ∀ x ∈ [1000 * 2 ^ 16, 1 + 2 ^ 16, 2 + 2 ^ 16], ∃ s d img, Commits .pcie .SPN_CFG 0 0 x s d img ∧ SPN_CFG.SRC.of img ≠ 3 ∧ isMgr d = false ∧ SPN_CFG.SLEW_PPM.of img ≠ 0 ∧
      SPN_CFG.SLEW_PPM.of img ≤ 1000 ∧ SPN_CFG.MGR_SRC.of img ≤ 1 ∧ rget SPN_CFG.SRC 0 0 d = 0 :=
  ⟨fun x h => ⟨spn, _, _, commits (by revert x; decide +kernel) (by revert x; decide +kernel), by revert x; decide +kernel⟩,
    ⟨spn (rset FCT_MGR_STAT.ROLE 0 0 2), _, _, commits (by decide +kernel) (by decide +kernel), by decide +kernel⟩,
    fun x h => ⟨spn, _, _, commits (by revert x; decide +kernel) (by revert x; decide +kernel), by revert x; decide +kernel⟩⟩
theorem wit_Pps : (∃ s d m, Runs 99 s d ∧ rget SPN_PPS_IN_CORR.CORR 0 0 d = 0 ∧ d.spn.lastPps = some m ∧ d.mono + 1 = m + 500000000) ∧
    (∃ s d m, Runs 99 s d ∧ rget SPN_PPS_IN_CORR.CORR 0 0 d = 0 ∧ d.spn.lastPps = some m ∧ d.mono = m + 500000000 ∧ rget SPN_CFG.SRC 0 0 d ≠ 1) ∧
    ∀ x ∈ [(4, 1), (1000, 2), (1001, 1), (499999999, 2)], ∃ s d, Runs 99 s d ∧ rget SPN_PPS_IN_CORR.CORR 0 0 d = 0 ∧ d.spn.lastPps = none ∧ rget SPN_CFG.SRC 0 0 d = 1 ∧
      d.spn.time % (1000000000 * 2 ^ 32) / 2 ^ 32 = x.1 ∧ rget SPN_STAT.STATE 0 0 d = x.2 ∧ d.spn.good = 7 ∧ rget SPN_SERVO.STEP_NS 0 0 d = 1000 ∧
      rget SPN_SERVO.LOCK_NS 0 0 d = 4 := by
  refine ⟨⟨spn (fun d => { d with mono := 500000000, spn := { d.spn with lastPps := some 1 } }), _, 1, runs (by decide +kernel), by decide +kernel⟩,
    ⟨spn (fun d => { d with mono := 500000001, spn := { d.spn with lastPps := some 1 } }), _, 1, runs (by decide +kernel), by decide +kernel⟩, fun x h => ?_⟩
  refine ⟨spn (fun d => rset SPN_CFG.SRC 0 0 1 (rset SPN_STAT.STATE 0 0 x.2 (inSpn (fun s => { s with time := x.1 * 2 ^ 32, good := 7 }) d))), _, runs (by revert x; decide +kernel), ?_⟩
  revert x; decide +kernel
/-- A Spindle of reference src in state st, which it chose 1 ns after the monotonic count began, at monotonic time n. -/
def held (src st n : Nat) : State := spn fun d => { rset SPN_CFG.SRC 0 0 src (rset SPN_STAT.STATE 0 0 st (inSpn (fun s => { s with srcAt := 1 }) d)) with mono := n }
theorem wit_Holdover : (∀ x ∈ [(0, 0), (1, 0), (1, 3)], ∃ s d, Runs 99 s d ∧ rget SPN_CFG.SRC 0 0 d = x.1 ∧ rget SPN_STAT.STATE 0 0 d = x.2) ∧
    ∀ x ∈ [(1, 1, 1100000001), (1, 2, 1100000000), (2, 1, 10000001), (2, 2, 10000000)], ∃ s d, Runs 99 s d ∧ rget SPN_CFG.SRC 0 0 d = x.1 ∧ rget SPN_STAT.STATE 0 0 d = x.2.1 ∧
      (if x.2.1 = 1 then max d.spn.srcAt ((if rget SPN_CFG.SRC 0 0 d = 1 then d.spn.lastPps.getD 0 else (d.spn.lastSync.map fun x => x.2 / 2 ^ 32).getD 0)) +
        (if rget SPN_CFG.SRC 0 0 d = 1 then 1100000000 else 10000000) = d.mono
      else d.mono + 1 = max d.spn.srcAt ((if rget SPN_CFG.SRC 0 0 d = 1 then d.spn.lastPps.getD 0 else (d.spn.lastSync.map fun x => x.2 / 2 ^ 32).getD 0)) +
        (if rget SPN_CFG.SRC 0 0 d = 1 then 1100000000 else 10000000)) := by
  refine ⟨fun x h => ⟨held x.1 x.2 0, _, runs (by revert x; decide +kernel), by revert x; decide +kernel⟩, fun x h => ⟨held x.1 x.2.1 x.2.2, _, runs (by revert x; decide +kernel), ?_⟩⟩
  revert x; decide +kernel
/-- A worker of a chassis whose term is 65535, with a SYNC capture at the second of 1 ms. -/
def worker (src v : Nat) (l : Option (Nat × Nat)) : State := spn fun d => rset SPN_CFG.SRC 0 0 src (rset FCT_MGR_STAT.MGR_VALID 0 0 v (rset FCT_MGR_STAT.TERM 0 0 65535
  (inSpn (fun s => { s with lastSync := l }) d)))
theorem wit_Sync : (∀ src ∈ [1, 2], ∃ s d, Runs 99 s d ∧ rget SPN_CFG.SRC 0 0 d = src ∧ rget SPN_SYNC_IN_CORR.CORR 0 0 d = 0) ∧
    (∀ x ∈ [(2, 0, true), (1, 1, true), (2, 1, false)], ∃ s d, Runs 99 s d ∧ rget FCT_MGR_STAT.TERM 0 0 d = 65535 ∧
      (flag FCT_MGR_STAT.MGR_VALID 0 0 d = false ∨ rget SPN_CFG.SRC 0 0 d ≠ 2 ∨ d.spn.lastSync = none)) ∧
    ∀ t ∈ [1499999 * 2 ^ 32, 500000 * 2 ^ 32, 499999 * 2 ^ 32, 1500000 * 2 ^ 32], ∃ s d m, Runs 99 s d ∧ flag FCT_MGR_STAT.MGR_VALID 0 0 d = true ∧
      rget FCT_MGR_STAT.TERM 0 0 d = 65535 ∧ rget SPN_CFG.SRC 0 0 d = 2 ∧ d.spn.lastSync = some (t, m) := by
  refine ⟨fun src h => ⟨worker src 1 none, _, runs (by revert src; decide +kernel), by revert src; decide +kernel⟩, fun x h => ?_,
    fun t h => ⟨worker 2 1 (some (t, 0)), _, 0, runs (by revert t; decide +kernel), by revert t; decide +kernel⟩⟩
  refine ⟨worker x.1 x.2.1 (if x.2.2 then some (0, 0) else none), _, runs (by revert x; decide +kernel), ?_⟩
  revert x; decide +kernel
theorem wit_Pulses : (∃ s d, Runs 99 s d ∧ d.spn.slew = none ∧ isMgr d = false ∧ flag SPN_PPS_OUT.EN 0 0 d = false) ∧
    ∃ s d, Runs 99 s d ∧ d.spn.slew = none ∧ isMgr d = true ∧ rget SPN_SYNC_OUT_OWNER.OWNER 0 0 d = 0xF300 ∧ d.spn.syncFrom = nowNs d ∧ blkEn Pg.FCT d = true ∧
      flag SPN_PPS_OUT.EN 0 0 d = true ∧ (face Pg.SPN d).owner ≠ 0 ∧ (∀ n ∈ [1000000, 1000000000], ∀ c ∈ [rget SPN_SYNC_OUT_CORR.CORR 0 0 d, rget SPN_PPS_OUT_CORR.CORR 0 0 d],
        0 ≤ (d.spn.time : Int) + signed 32 c * 65536 ∧ ((d.spn.time : Int) + signed 32 c * 65536).toNat % (n * unitNs) < baseRate d) ∧
      d.spn.lastMs = none ∧ d.spn.lastSec = none :=
  ⟨⟨spn, _, runs (by decide +kernel), by decide +kernel⟩,
    up [4, 0xD8] [99] (fun d => rset FCT_MGR_STAT.ROLE 0 0 2 (rset SPN_SYNC_OUT_OWNER.OWNER 0 0 0xF300 (rset SPN_PPS_OUT.EN 0 0 1 (setFace 4 { face 4 d with owner := 7 } d)))), _,
    runs (by decide +kernel), by decide +kernel⟩
/-- Image of an action command on entry 4095 by owner o: kind k, time t ns and period p. -/
def actWord (o k t p : Nat) : Nat := 4095 * 2 ^ 240 + o * 2 ^ 224 + k * 2 ^ 221 + t % 1000000000 * 2 ^ 128 + t / 1000000000 * 2 ^ 160 + p * 2 ^ 96 + Reg.addr .SPN_PPS_IN_CORR 0 0 * 2 ^ 68
/-- The Spindle at time n ns with entries l and STRICT st, and the words of an action command staged. -/
def acting (o k t p n st : Nat) (l : Tbl Act) : State := spn fun d => rset SPN_X_CFG.STRICT 0 0 st (staging .SPN_ACT_CMD 0 0 (actWord o k t p)
  (inSpn (fun s => { s with time := n * 2 ^ 32, acts := l }) d))
theorem wit_Act_arm : (∀ x ∈ [(0, 0), (1, 1000), (2, 1000000000)], ∃ s d img, Commits .pcie .SPN_ACT_CMD 0 0 (go (BitVec.ofNat 32 (actWord 7 0 0 0 / 2 ^ 224)) 30 28 0) s d img ∧
      s.dev.spn.deferred = [] ∧ s.dev.spn.acts = [] ∧ SPN_ACT_CMD.OWNER_ID.of img ≠ 0 ∧ idRefused .pcie (SPN_ACT_CMD.OWNER_ID.of img) = false ∧ SPN_ACT_CMD.KIND.of img = x.1 ∧
      SPN_ACT_CMD.NS.of img = 999999999 ∧ SPN_ACT_CMD.PERIOD.of img = x.2 ∧ timedAddrOk (SPN_ACT_CMD.ADDR.of img) = true ∧ nowNs d + 1 = 999999999) ∧
    (∀ st ∈ [0, 1], ∀ p ∈ [0, 1000], ∃ s d img, Commits .pcie .SPN_ACT_CMD 0 0 (go (BitVec.ofNat 32 (actWord 7 0 0 0 / 2 ^ 224)) 30 28 0) s d img ∧ s.dev.spn.deferred = [] ∧
      s.dev.spn.acts = [] ∧ SPN_ACT_CMD.OWNER_ID.of img = 7 ∧ idRefused .pcie 7 = false ∧ SPN_ACT_CMD.KIND.of img = 2 ∧ SPN_ACT_CMD.PERIOD.of img = p ∧
      SPN_ACT_CMD.NS.of img = nowNs d ∧ flag SPN_X_CFG.STRICT 0 0 d = (st == 1)) ∧
    (∀ x ∈ [(3, 0, 0), (2, 1000000000, 0), (2, 0, 999), (2, 0, 1000000001)], ∃ s d img, Commits .pcie .SPN_ACT_CMD 0 0 (go (BitVec.ofNat 32 (actWord 7 0 0 0 / 2 ^ 224)) 30 28 0) s d img ∧
      s.dev.spn.deferred = [] ∧ s.dev.spn.acts = [] ∧ SPN_ACT_CMD.OWNER_ID.of img = 7 ∧ SPN_ACT_CMD.KIND.of img = x.1 ∧ SPN_ACT_CMD.NS.of img = x.2.1 ∧
      SPN_ACT_CMD.PERIOD.of img = x.2.2) ∧
    ∃ s d img x, Commits .pcie .SPN_ACT_CMD 0 0 (go (BitVec.ofNat 32 (actWord 7 0 0 0 / 2 ^ 224)) 30 28 0) s d img ∧ s.dev.spn.deferred = [] ∧ s.dev.spn.acts = [(4095, x)] ∧
      x.due = false ∧ nowNs s.dev + 1 = x.t ∧ SPN_ACT_CMD.OWNER_ID.of img = 7 ∧ SPN_ACT_CMD.KIND.of img = 2 ∧ SPN_ACT_CMD.INDEX.of img = 4095 ∧
      find? d.spn.acts 4095 = some x ∧ x.owner ≠ 7 ∧ nowNs d < SPN_ACT_CMD.SEC.of img * 1000000000 + SPN_ACT_CMD.NS.of img := by
  refine ⟨fun x h => ?_, fun st h p k => ?_, fun x h => ?_,
    ⟨acting 7 2 5 0 0 0 [(4095, { owner := 8, kind := 2, t := 1 })], _, _, { owner := 8, kind := 2, t := 1 }, commits (by decide +kernel) (by decide +kernel), by decide +kernel⟩⟩
  · refine ⟨acting 7 x.1 999999999 x.2 999999998 0 [], _, _, commits (by revert x; decide +kernel) (by revert x; decide +kernel), ?_⟩
    revert x; decide +kernel
  · refine ⟨acting 7 2 5 p 5 st [], _, _, commits (by revert st p; decide +kernel) (by revert st p; decide +kernel), ?_⟩
    revert st p; decide +kernel
  · refine ⟨acting 7 x.1 0 x.2.2 0 0 [] |> fun s => { s with dev := staging .SPN_ACT_CMD 0 0 (actWord 7 x.1 0 x.2.2 + x.2.1 * 2 ^ 128) s.dev }, _, _,
      commits (by revert x; decide +kernel) (by revert x; decide +kernel), ?_⟩
    revert x; decide +kernel
theorem wit_Act_due : ∀ op ∈ [0, 1], ∀ due ∈ [true, false], ∃ s d img x, Commits .pcie .SPN_ACT_CMD 0 0 (go (BitVec.ofNat 32 (actWord 7 0 0 0 / 2 ^ 224)) 30 28 op) s d img ∧
    find? d.spn.acts (SPN_ACT_CMD.INDEX.of img) = some x ∧ x.kind ≠ 3 ∧ (if due then x.due = true else x.due = false ∧ x.t = nowNs d) ∧ x.period = 0 ∧
    SPN_ACT_CMD.OWNER_ID.of img = 7 ∧ idRefused .pcie 7 = false ∧ SPN_ACT_CMD.KIND.of img = 2 ∧ SPN_ACT_CMD.PERIOD.of img = 0 ∧
    SPN_ACT_CMD.SEC.of img * 1000000000 + SPN_ACT_CMD.NS.of img = nowNs d + 1 := by
  intro op h due k
  refine ⟨acting 7 2 6 0 5 0 [(4095, { owner := 7, kind := 2, t := 5, due := due })], _, _, { owner := 7, kind := 2, t := 5, due := due },
    commits (by revert op due; decide +kernel) (by revert op due; decide +kernel), ?_⟩
  revert op due; decide +kernel
theorem wit_Act_owner : (∀ op ∈ [0, 1], ∀ o ∈ [0, 0xFFFF], ∃ s d img, Commits .pcie .SPN_ACT_CMD 0 0 (go (BitVec.ofNat 32 (actWord o 0 0 0 / 2 ^ 224)) 30 28 op) s d img ∧
      SPN_ACT_CMD.OWNER_ID.of img = o ∧ s.dev.spn.deferred = [] ∧ s.dev.spn.acts = [] ∧ (o = 0 ∨ idRefused .pcie o = true)) ∧
    (∀ l ∈ [[], [(4095, ({ owner := 8, kind := 2, t := 1 } : Act))], [(4095, { owner := 7, kind := 3, t := 1 })]], ∃ s d img, Commits .pcie .SPN_ACT_CMD 0 0 (go (BitVec.ofNat 32 (actWord 7 0 0 0 / 2 ^ 224)) 30 28 1) s d img ∧
      SPN_ACT_CMD.OWNER_ID.of img = 7 ∧ SPN_ACT_CMD.INDEX.of img = 4095 ∧ idRefused .pcie 7 = false ∧ d.spn.acts = l ∧ s.dev.spn.deferred = [] ∧
      ∀ x ∈ s.dev.spn.acts, x.2.due = false ∧ nowNs s.dev < x.2.t) ∧
    ∀ op ∈ [1, 2], ∃ s d img x, Commits .pcie .SPN_ACT_CMD 0 0 (go (BitVec.ofNat 32 (actWord 7 0 0 0 / 2 ^ 224)) 30 28 op) s d img ∧ find? d.spn.acts (SPN_ACT_CMD.INDEX.of img) = some x ∧
      x.kind ≠ 3 ∧ x.owner = SPN_ACT_CMD.OWNER_ID.of img ∧ idRefused .pcie x.owner = false ∧ x.due = false ∧ nowNs d + 1 = x.t ∧ s.dev.spn.deferred = [] ∧
      (∀ z ∈ s.dev.spn.acts, z.2.due = false ∧ nowNs s.dev < z.2.t) ∧ actImg 4095 (some x) < 2 ^ 256 := by
  refine ⟨fun op h o k => ?_, fun l h => ?_, fun op h => ?_⟩
  · refine ⟨acting o 2 5 0 0 0 [], _, _, commits (by revert op o; decide +kernel) (by revert op o; decide +kernel), ?_⟩
    revert op o; decide +kernel
  · refine ⟨acting 7 2 5 0 0 0 l, _, _, commits (by revert l; decide +kernel) (by revert l; decide +kernel), ?_⟩
    revert l; decide +kernel
  · refine ⟨acting 7 2 5 0 0 0 [(4095, { owner := 7, kind := 2, t := 1 })], _, _, { owner := 7, kind := 2, t := 1 },
      commits (by revert op; decide +kernel) (by revert op; decide +kernel), ?_⟩
    revert op; decide +kernel
theorem wit_Action_due : (∀ p ∈ [0, 1000], ∃ s d a, Runs 99 s d ∧ d.spn.deferred = [] ∧ d.spn.loose = [] ∧ d.spn.acts = [(4095, a)] ∧ a.t = nowNs d ∧ a.kind = 2 ∧ a.period = p ∧
      d.spn.timerFifo.length = 63) ∧
    (∃ s d a, Runs 99 s d ∧ d.spn.deferred = [] ∧ d.spn.loose = [(4095, a)] ∧ d.spn.acts = [] ∧ a.kind = 2 ∧ d.spn.timerFifo.length = 63) ∧
    (∃ s d a, Runs 99 s d ∧ d.spn.deferred = [] ∧ d.spn.loose = [] ∧ d.spn.acts = [(0, a)] ∧ a.due = true ∧ a.kind = 0 ∧ a.addr = Reg.addr .SPN_PPS_IN_CORR 0 0 ∧ (face Pg.SPN d).ready = true ∧
      alive d = true ∧ d.sys.ctlRun = none ∧ a.period = 0) ∧
    (∃ s d, Runs 99 s d ∧ d.spn.deferred = [] ∧ d.spn.loose = [] ∧ ∀ x ∈ d.spn.acts, x.2.due = false ∧ nowNs d < x.2.t) ∧
    ∀ l ∈ [[], [4095]], ∃ s : State, Taken .pcie s ∧ (reached Pg.SPN s).spn.timerFifo = l := by
  refine ⟨fun p h => ?_, ⟨spn (inSpn fun s => { s with loose := [(4095, { owner := 7, kind := 2, t := 9 })], timerFifo := List.replicate 63 0 }), _, { owner := 7, kind := 2, t := 9 },
      runs (by decide +kernel), by decide +kernel⟩, ⟨spn (inSpn fun s => { s with acts := [(0, { owner := 7, kind := 0, t := 9, addr := Reg.addr .SPN_PPS_IN_CORR 0 0, due := true })] }), _,
      { owner := 7, kind := 0, t := 9, addr := Reg.addr .SPN_PPS_IN_CORR 0 0, due := true }, runs (by decide +kernel), by decide +kernel⟩,
    ⟨spn, _, runs (by decide +kernel), by decide +kernel⟩, fun l h => ⟨spn (inSpn fun s => { s with timerFifo := l }), taken (by revert l; decide +kernel), by revert l; decide +kernel⟩⟩
  refine ⟨spn (inSpn fun s => { s with time := 9 * 2 ^ 32, acts := [(4095, { owner := 7, kind := 2, t := 9, period := p })], timerFifo := List.replicate 63 0 }), _,
    { owner := 7, kind := 2, t := 9, period := p }, runs (by revert p; decide +kernel), ?_⟩
  revert p; decide +kernel
/-- Port 127's gates as g, with the words of a commit of a one-entry list at time base (ns) staged; STRICT is st and the time 1 second. -/
def gating (len cycle base st : Nat) (g : GatePort) (x : Dev → Dev := id) : State := spn fun d => x (rset SPN_X_CFG.STRICT 0 0 st (staging .SPN_GATEn_ADMIN 0 127
  (len * 2 ^ 114 + cycle * 2 ^ 78 + base / 1000000000 * 2 ^ 30 + base % 1000000000) (inSpn (fun s => { s with time := 1000000000 * 2 ^ 32, gates := [(127, g)] }) d)))
/-- The highest word of a gate command. -/
def gateTop (len cycle : Nat) : BitVec 32 := BitVec.ofNat 32 ((len * 2 ^ 114 + cycle * 2 ^ 78) / 2 ^ 96)
/-- A bank whose entry 0 opens every gate for 1 µs. -/
def openOne : GatePort := { bank0 := [(0, 0xFF * 2 ^ 32 + 1000)] }
theorem wit_Gate_entries : ∀ b ∈ [true, false], ∃ s d img, Commits .pcie .SPN_GCL_DATA 0 0 1 s d img ∧
    gateBankBusy (gate (rget SPN_GCL_ADDR.PORT 0 0 d) d) (rget SPN_GCL_ADDR.BANK 0 0 d) = b ∧ rget SPN_GCL_ADDR.PORT 0 0 d = 127 ∧ rget SPN_GCL_ADDR.ENTRY 0 0 d = 1023 := by
  intro b h
  refine ⟨gating 1 1000 0 0 { openOne with running := some { base := 0, bank := if b then 0 else 1 } } (fun d => rset SPN_GCL_ADDR.PORT 0 0 127 (rset SPN_GCL_ADDR.ENTRY 0 0 1023 d)), _, _,
    commits (by revert b; decide +kernel) (by revert b; decide +kernel), ?_⟩
  revert b; decide +kernel
/-- The list that a commit would put in force is valid. -/
abbrev ListOk (d : Dev) (img : Nat) : Prop := SPN_GATEn_ADMIN.LENGTH.of img = 1 ∧ SPN_GATEn_ADMIN.CYCLE.of img = 1000 ∧
  (gateEnt (look (if idleBank (gate 127 d) = 0 then (gate 127 d).bank0 else (gate 127 d).bank1) 0 0) 1000).bad = false
theorem wit_Gate_commit : (∃ s d img, Commits .pcie .SPN_GATEn_ADMIN 0 127 (go (gateTop 1 1000) 30 29 0) s d img ∧ (gate 127 d).pend = none ∧ ListOk d img ∧
      nowNs d + 2000 = SPN_GATEn_ADMIN.BASE_SEC.of img * 1000000000 + SPN_GATEn_ADMIN.BASE_NS.of img) ∧
    (∀ op ∈ [0, 1], ∀ st ∈ [0, 1], ∃ s d img, Commits .pcie .SPN_GATEn_ADMIN 0 127 (go (gateTop 1 1000) 30 29 op) s d img ∧ (gate 127 d).pend = none ∧ ListOk d img ∧
      SPN_GATEn_ADMIN.BASE_SEC.of img * 1000000000 + SPN_GATEn_ADMIN.BASE_NS.of img < nowNs d + 2000 ∧ flag SPN_X_CFG.STRICT 0 0 d = (st == 1)) ∧
    (∀ x ∈ [(0, 1000), (1025, 1000), (1, 999), (1, 1000000001)], ∃ s d img, Commits .pcie .SPN_GATEn_ADMIN 0 127 (go (gateTop x.1 x.2) 30 29 0) s d img ∧ (gate 127 d).pend = none ∧
      SPN_GATEn_ADMIN.LENGTH.of img = x.1 ∧ SPN_GATEn_ADMIN.CYCLE.of img = x.2) ∧
    (∀ op ∈ [0, 1, 2], ∃ s d img l, Commits .pcie .SPN_GATEn_ADMIN 0 127 (go (gateTop 1 1000) 30 29 op) s d img ∧ (gate 127 d).pend = some l ∧ nowNs d + 1 = l.base) ∧
    (∃ s d img, Commits .pcie .SPN_GATEn_ADMIN 0 127 (go (gateTop 1 1000) 30 29 1) s d img ∧ (gate 127 d).pend = none ∧
      nowNs d + 2000 = SPN_GATEn_ADMIN.BASE_SEC.of img * 1000000000 + SPN_GATEn_ADMIN.BASE_NS.of img) ∧
    ∃ s d img, Commits .pcie .SPN_GATEn_ADMIN 0 127 (go (gateTop 1 1000) 30 29 2) s d img ∧ (gate 127 d).pend = none := by
  refine ⟨⟨gating 1 1000 1000002000 0 openOne, _, _, commits (by decide +kernel) (by decide +kernel), by decide +kernel⟩, fun op h st k => ?_, fun x h => ?_, fun op h => ?_,
    ⟨gating 1 1000 1000002000 0 openOne, _, _, commits (by decide +kernel) (by decide +kernel), by decide +kernel⟩,
    gating 1 1000 0 0 openOne, _, _, commits (by decide +kernel) (by decide +kernel), by decide +kernel⟩
  · refine ⟨gating 1 1000 1000001999 st openOne, _, _, commits (by revert op st; decide +kernel) (by revert op st; decide +kernel), ?_⟩
    revert op st; decide +kernel
  · refine ⟨gating x.1 x.2 1000002000 0 openOne, _, _, commits (by revert x; decide +kernel) (by revert x; decide +kernel), ?_⟩
    revert x; decide +kernel
  · refine ⟨gating 1 1000 0 0 { openOne with pend := some { base := 1000000001 } }, _, _, { base := 1000000001 }, commits (by revert op; decide +kernel) (by revert op; decide +kernel), ?_⟩
    revert op; decide +kernel
/-- Port 127 sends a frame of n bytes and class 7. -/
def gateSending (pre : Bool) (n : Nat) (g : GatePort) : State := gating 1 1000 0 0 g fun d => rset LPG_PORTn_STAT.PREEMPT_ACTIVE 31 3 (b2n pre) (rset LPG_PORTn_PREEMPT.PMASK 31 3 0x80
  { d with ports := [(127, { txNow := some { bytes := List.replicate n 0, cls := 7 } })] })
theorem wit_Gate_events : (∃ s d l, Runs 99 s d ∧ (Machine.port 127 d).txNow = none ∧ (gate 127 d).pend = some l ∧ l.base = nowNs d) ∧
    (∃ s d, Runs 99 s d ∧ (Machine.port 127 d).txNow = none ∧ (gate 127 d).pend = none ∧ (gate 127 d).running = none) ∧
    (∃ s d l, Runs 99 s d ∧ (Machine.port 127 d).txNow = none ∧ (gate 127 d).pend = some l ∧ nowNs d + 1 = l.base) ∧
    ∀ p ∈ [true, false], ∀ n ∈ [60, 1000], ∃ s d f l, Runs 99 s d ∧ (Machine.port 127 d).txNow = some f ∧ (gate 127 d).running = some l ∧ preemptable 127 f.cls d = p ∧
      bit (gateAt l (nowNs d)).1.gates f.cls = false ∧ l.list ≠ [] ∧ canCut 127 f d = (n == 1000) := by
  refine ⟨⟨gating 1 1000 0 0 { openOne with pend := some { base := 1000000000 } }, _, { base := 1000000000 }, runs (by decide +kernel), by decide +kernel⟩,
    ⟨gating 1 1000 0 0 openOne, _, runs (by decide +kernel), by decide +kernel⟩,
    ⟨gating 1 1000 0 0 { openOne with pend := some { base := 1000000001 } }, _, { base := 1000000001 }, runs (by decide +kernel), by decide +kernel⟩, fun p h n k => ?_⟩
  refine ⟨gateSending p n { openOne with running := some { base := 0, cycle := 1000, list := [{ gates := 0x7F, iv := 1000, bad := false }] } }, _, { bytes := List.replicate n 0, cls := 7 },
    { base := 0, cycle := 1000, list := [{ gates := 0x7F, iv := 1000, bad := false }] }, runs (by revert p n; decide +kernel), ?_⟩
  revert p n; decide +kernel

/-! Premises of the statements on the fabric and the chassis. -/

/-- Link l in state st with weight 64 and its own state x; the pages of FAB 0, FAB 20, the FCT and the Chuck are on; f is done. -/
def lnk (l st : Nat) (x : FabLink := {}) (f : Dev → Dev := id) : State := up [0xC0, 0xD4, 0xD8, 0x90] [101, 102, 107, 127] fun d =>
  f (lset FAB_LINKk_STAT.STATE l st (lset FAB_LINKk_STAT.WEIGHT l 64 { d with fab := { d.fab with links := put d.fab.links l {} x } }))
/-- A cell held with LSEQ n and t retransmissions. -/
def heldCell (n : BitVec 12) (t : Nat) : Held := ⟨⟨1, n, false, false, 0, 1, 0, 0, 0, 0, 0, 0, [0], 0, false, false, 0, true⟩, t, 0, 0⟩
theorem wit_Fab_enable : (∃ s d img, Commits .pcie .FAB_LANE_EN 20 0 (force 0 [(7, 7, 1)]) s d img ∧ bit (rget FAB_LANE_EN.EN 20 0 d) 7 = false ∧ fabState 167 d = 0 ∧
      blkEn (fabPage 167) d = true ∧ bit d.sys.badFab 167 = false) ∧
    (∃ s d img, Commits .pcie .FAB_LANE_EN 20 0 (force 0 [(7, 7, 1)]) s d img ∧ bit (rget FAB_LANE_EN.EN 20 0 d) 7 = true) ∧
    ∃ s d img, Commits .pcie .FAB_LANE_EN 20 0 (force 0 [(7, 7, 0)]) s d img ∧ bit (rget FAB_LANE_EN.EN 20 0 d) 7 = true ∧ (link 167 d).held.length = 1 :=
  ⟨⟨lnk 167 0, _, _, commits (by decide +kernel) (by decide +kernel), by decide +kernel⟩,
    ⟨lnk 167 0 {} (rset FAB_LANE_EN.EN 20 0 0x80), _, _, commits (by decide +kernel) (by decide +kernel), by decide +kernel⟩,
    lnk 167 3 { held := [heldCell 0 0] } (rset FAB_LANE_EN.EN 20 0 0x80), _, _, commits (by decide +kernel) (by decide +kernel), by decide +kernel⟩
theorem wit_Fab_states : (∀ st ∈ [0, 1, 2, 3, 4, 5], (∃ s d, FabLine 167 s d ∧ fabState 167 d = st) ∧ ∃ s d, FabLine 0 s d ∧ fabState 0 d = st) ∧
    (∃ s d, Runs 107 s d ∧ fabState 0 d = 3 ∧ flag FCT_CFG.AUTO_SPARE 0 0 d = true ∧ fabState (160 + 7) d = 4 ∧ ∀ j < 7, fabState (160 + j) d ≠ 4) ∧
    (∃ s d, Runs (107 + 167 / 8) s d ∧ lget FAB_LINKk_STAT.SUB_LINK 167 d = 0 ∧ fabState 167 d = 3 ∧ lget FAB_LINKk_STAT.SUB 167 d = 1 ∧ fabState 0 d = 3 ∧ (link 167 d).held = []) ∧
    (∃ s d, Runs (107 + 167 / 8) s d ∧ (link 167 d).held ≠ []) ∧
    (∀ x ∈ [(1, 100000000), (2, 10000000), (5, 100000000)], ∀ late ∈ [0, 1], ∃ s d, Runs (107 + 167 / 8) s d ∧ fabState 167 d = x.1 ∧ (link 167 d).since + x.2 = d.mono + late) ∧
    ∀ st ∈ [3, 4], ∀ late ∈ [0, 1], ∃ s d, FabLine 167 s d ∧ fabState 167 d = st ∧ (link 167 d).helloAt = some 5 ∧ 5 + 1000 = d.mono + late := by
  refine ⟨fun st h => ⟨⟨lnk 167 st, _, fabLine (by revert st; decide +kernel) (by revert st; decide +kernel), ?_⟩, lnk 0 st, _,
      fabLine (by revert st; decide +kernel) (by revert st; decide +kernel), ?_⟩,
    ⟨lnk 0 3 {} (lset FAB_LINKk_STAT.STATE 167 4), _, runs (by decide +kernel), by decide +kernel⟩,
    ⟨lnk 167 3 {} (fun d => lset FAB_LINKk_STAT.SUB 167 1 (lset FAB_LINKk_STAT.STATE 0 3 d)), _, runs (by decide +kernel), by decide +kernel⟩,
    ⟨lnk 167 3 { held := [heldCell 0 0] }, _, runs (by decide +kernel), by decide +kernel⟩,
    fun x h late k => ⟨lnk 167 x.1 {} (fun d => { d with mono := x.2 - late }), _, runs (by revert x late; decide +kernel), ?_⟩,
    fun st h late k => ⟨lnk 167 st { helloAt := some 5 } (fun d => { d with mono := 1005 - late }), _, fabLine (by revert st late; decide +kernel) (by revert st late; decide +kernel), ?_⟩⟩
  · revert st; decide +kernel
  · revert st; decide +kernel
  · revert x late; decide +kernel
  · revert st late; decide +kernel
theorem wit_Hello : ∃ h : Hello, h.magic = 0x58464C4B ∧ h.version = 1 ∧ h.seen = true := ⟨⟨0x58464C4B, 1, 0, 0, 0, true⟩, by decide⟩

theorem wit_Cell_receive : (∀ st ∈ [3, 4], ∃ s d h, FabLine 167 s d ∧ fabState 167 d = st ∧ (link 167 d).locked = true ∧ (link 167 d).next = 4095 ∧ (link 167 d).map = [] ∧
      (link 167 d).held = [h] ∧ h.cell.lseq = 4095) ∧ (∃ n : BitVec 12, 512 = (n.toNat + 4096 - 4095) % 4096) ∧
    ∀ n ∈ [6, 7], ∃ s d, FabLine 167 s d ∧ fabState 167 d = 1 ∧ (link 167 d).locked = false ∧ (link 167 d).goods = n := by
  refine ⟨fun st h => ⟨lnk 167 st { next := 4095, locked := true, held := [heldCell 4095 0] }, _, heldCell 4095 0,
      fabLine (by revert st; decide +kernel) (by revert st; decide +kernel), ?_⟩, ⟨511, by decide⟩,
    fun n h => ⟨lnk 167 1 { goods := n }, _, fabLine (by revert n; decide +kernel) (by revert n; decide +kernel), ?_⟩⟩
  · revert st; decide +kernel
  · revert n; decide +kernel
/-- A cell of type t and LSEQ n with what its trailer says, as it leaves. -/
def onWire (t : BitVec 4) (n : BitVec 12) (ackv nakv : Bool) : Bytes := cellBytes ⟨t, n, false, false, 0, 0, 0, 0, 0, 0, 0, 0, [], 4095, ackv, nakv, 4095, true⟩
theorem wit_Cell_forms : (wireCell []).crcOk = false ∧ (wireCell (onWire 2 4095 false false)).crcOk = true ∧ (wireCell (onWire 2 4095 false false)).ctype = 2 ∧
    (wireCell (onWire 2 4095 false false)).count = 0 ∧ (wireCell (onWire 2 4095 false false)).lseq.toNat = 4095 ∧ (wireCell (onWire 2 4095 false false)).ackv = false ∧
    (wireCell (onWire 2 4095 false false)).nakv = false ∧
    (∀ t ∈ [1, 2], (wireCell (onWire t 511 false false)).crcOk = true ∧ (wireCell (onWire t 511 false false)).ctype = t ∧ (wireCell (onWire t 511 false false)).lseq = 511) ∧
    (∀ a ∈ [true, false], (wireCell (onWire 0 0 a (!a))).crcOk = true ∧ (wireCell (onWire 0 0 a (!a))).ctype = 0 ∧ (wireCell (onWire 0 0 a (!a))).ackv = a ∧
      (wireCell (onWire 0 0 a (!a))).nakv = !a ∧ (wireCell (onWire 0 0 a (!a))).ack = 4095 ∧ (wireCell (onWire 0 0 a (!a))).nak = 4095) := by
  refine ⟨by decide +kernel, Laws.crcOk_cellBytes _, by decide +kernel, by decide +kernel, by decide +kernel, by decide +kernel, by decide +kernel,
    fun t h => ⟨Laws.crcOk_cellBytes _, by revert t; decide +kernel⟩, fun a h => ⟨Laws.crcOk_cellBytes _, by revert a; decide +kernel⟩⟩
theorem wit_Cell_replay : ∀ t ∈ [2, 3], ∃ s d h, Runs (107 + 167 / 8) s d ∧ (link 167 d).held = [h] ∧ h.cell.lseq = 4095 ∧ h.tries = t ∧ rget FCT_X_LINK.REPLAY_LIMIT 0 0 d = 3 ∧
    fabState 167 d = 3 ∧ flag FCT_CFG.AUTO_SPARE 0 0 d = false ∧ (if t = 2 then True else h.at_ + rget FCT_X_LINK.REPLAY_TMO 0 0 d ≤ d.mono) ∧
      ∃ s d h, Runs (107 + 167 / 8) s d ∧ (link 167 d).held = [h] ∧ d.mono < h.at_ + rget FCT_X_LINK.REPLAY_TMO 0 0 d := by
  intro t h
  refine ⟨lnk 167 3 { held := [heldCell 4095 t] } (fun d => { rset FCT_CFG.AUTO_SPARE 0 0 0 d with mono := 10 ^ 9 }), _, heldCell 4095 t, runs (by revert t; decide +kernel), ?_⟩
  rw [← and_assoc, ← and_assoc, ← and_assoc, ← and_assoc, ← and_assoc, ← and_assoc]
  refine ⟨by revert t; decide +kernel, lnk 167 3 { held := [heldCell 4095 0] }, _, heldCell 4095 0, runs (by decide +kernel), by decide +kernel⟩
/-- Device 63 can be reached on link 167 alone. -/
def sprayed (f : Dev → Dev) : State := lnk 167 3 { tok := 1 } fun d => f (lset FAB_LINKk_REACH.REACH 167 (2 ^ 63) (rset FCT_REACH.SET 0 0 (2 ^ 63) d))
theorem wit_Spray : (∃ s d, Runs 102 s d ∧ blkEn Pg.FCT d = false) ∧
    (∃ s d r, Runs 102 s d ∧ blkEn Pg.FCT d = true ∧ d.fab.again = [] ∧ d.ctlQ = [] ∧ d.fab.tx = [(63, { sseq := 0, recs := [r] })] ∧ r.bytes.length = 256 ∧ r.bytes ≠ [] ∧
      r.started = false ∧ reaches 63 d = true ∧ sprayRound (2 ^ 63) d = some 167) ∧
    (∀ k ∈ [0, 1], ∃ s d m, Runs 102 s d ∧ blkEn Pg.FCT d = true ∧ d.fab.again = [] ∧ d.ctlQ = [m] ∧ m.dst = some 63 ∧ m.kind = k ∧ reaches 63 d = true ∧
      sprayRound (2 ^ 63) d = some 167) ∧
    (∀ rs ∈ [[], [({ bytes := [1] } : TxRec)]], ∃ s d, Runs 102 s d ∧ (look d.fab.tx 63 {}).recs = rs ∧ reaches 63 d = false ∧ look d.fab.cutOff 63 d.fab.upAt + 1000000 = d.mono) ∧
    (∃ s d, Runs 102 s d ∧ d.mono < look d.fab.cutOff 63 d.fab.upAt + 1000000) ∧
    ∃ s d, Runs 102 s d ∧ (look d.fab.tx 63 {}).recs ≠ [] ∧ reaches 63 d = true := by
  refine ⟨⟨up [] [102], _, runs (by decide +kernel), by decide +kernel⟩,
    ⟨sprayed (fun d => { d with fab := { d.fab with tx := [(63, { recs := [{ bytes := List.replicate 256 0 }] })] } }), _, { bytes := List.replicate 256 0 }, runs (by decide +kernel), by decide +kernel⟩,
    fun k h => ⟨sprayed (fun d => { d with ctlQ := [⟨some 63, k, 0⟩] }), _, ⟨some 63, k, 0⟩, runs (by revert k; decide +kernel), ?_⟩,
    fun rs h => ⟨up [] [102] (fun d => { d with mono := 1000000, fab := { d.fab with tx := [(63, { recs := rs })] } }), _, runs (by revert rs; decide +kernel), ?_⟩,
    ⟨up [] [102], _, runs (by decide +kernel), by decide +kernel⟩,
    sprayed (fun d => { d with fab := { d.fab with tx := [(63, { recs := [{ bytes := [1] }] })] } }), _, runs (by decide +kernel), by decide +kernel⟩
  · revert k; decide +kernel
  · revert rs; decide +kernel
theorem wit_Lag : (∃ s d, Runs 102 s d ∧ (∀ l < 168, fabState l d ≠ 3) ∧ d.fab.lagAt + rget FCT_X_LAG1.INT_US 0 0 d * 1000 ≤ d.mono) ∧
    (∃ s d, Runs 102 s d ∧ d.mono < d.fab.lagAt + rget FCT_X_LAG1.INT_US 0 0 d * 1000) ∧
    ∀ n ∈ [1000, 1001], ∃ s d, Runs 102 s d ∧ fabState 167 d = 3 ∧ (∀ k < 168, k ≠ 167 → fabState k d ≠ 3) ∧ (link 167 d).sent = 1000000 ∧ (link 167 d).latN = 0 ∧
      lget FAB_LINKk_STAT.WEIGHT 167 d = 64 ∧ rget FCT_X_LAG1.SUB_INT 0 0 d = 0 ∧ (link 167 d).resent * 1000000 / (link 167 d).sent = n ∧ rget FCT_X_LAG.RETX_PPM 0 0 d = 1000 ∧
      lget FAB_LINKk_STAT.LAGGING 167 d = 0 ∧ d.fab.lagAt + rget FCT_X_LAG1.INT_US 0 0 d * 1000 ≤ d.mono := by
  refine ⟨⟨up [] [102] (fun d => { d with mono := 10 ^ 9 }), _, runs (by decide +kernel), by decide +kernel⟩, ⟨up [] [102], _, runs (by decide +kernel), by decide +kernel⟩, fun n h =>
    ⟨lnk 167 3 { sent := 1000000, resent := n } (fun d => { rset FCT_X_LAG1.SUB_INT 0 0 0 d with mono := 10 ^ 9 }), _, runs (by revert n; decide +kernel), ?_⟩⟩
  revert n; decide +kernel
/-- The stream of device 63 as x. -/
def rxOf (x : RxStream) : State := chk 0 (one 64) { cache := [5] } [] fun d => { ungate 102 d with fab := { d.fab with rx := [(63, x)] }, flds := put d.flds (CLK_ISLn.STATE.key 0 102) 0 2 }
theorem wit_Data_cell : (∃ s d, Runs 102 s d ∧ (63 : Nat) ≠ devId d) ∧ (∃ s d, Runs 102 s d ∧ devId d = 0 ∧ (rxStream 63 d).started = true ∧ (rxStream 63 d).sgen = 15 ∧
      has (rxStream 63 d).cells 1048575 = true) ∧
    ∃ s d, Runs 102 s d ∧ devId d = 0 ∧ (rxStream 63 d).started = true ∧ (rxStream 63 d).sgen = 15 ∧ (rxStream 63 d).cells = [] ∧ (rxStream 63 d).resync = false ∧
      trackerUsed d < 131072 ∧ poolEn (fabPool d) d = true ∧ (pool (fabPool d) d).cache = [5] ∧ 64 ≤ 64 * poolStep (fabPool d) d ∧ (rxStream 63 d).exp = 1048575 ∧
      (rxStream 63 d).part.length = 0 ∧ (rxStream 63 d).holeAt = none :=
  ⟨⟨rxOf {}, _, runs (by decide +kernel), by decide +kernel⟩,
    ⟨rxOf { started := true, sgen := 15, cells := [(1048575, { first := 0, payload := [] })] }, _, runs (by decide +kernel), by decide +kernel⟩,
    rxOf { started := true, sgen := 15, exp := 1048575 }, _, runs (by decide +kernel), by decide +kernel⟩
theorem wit_Hole : ∀ l ∈ [[], [(1048575, ({ first := 0, payload := [] } : RxCell))]], ∀ late ∈ [0, 1], ∃ s d, Runs 102 s d ∧ (rxStream 63 d).cells = l ∧
    (rxStream 63 d).holeAt = some late ∧ rget FCT_X_LINK.REORDER_NS 0 0 d = d.mono := by
  intro l h late k
  refine ⟨rxOf { cells := l, holeAt := some late } |> fun s => { s with dev := { s.dev with mono := rget FCT_X_LINK.REORDER_NS 0 0 s.dev } }, _, runs (by revert l late; decide +kernel), ?_⟩
  revert l late; decide +kernel

/-- This device with role r (2: the manager) and the learning chassis-wide where ch is 1; x is done. -/
def role (r ch : Nat) (x : Dev → Dev := id) : State := up [0xD8, 0x80, 0x38] [99, 102] fun d => x (rset FCT_MGR_STAT.ROLE 0 0 r (rset LRN_CFG.CHASSIS 0 0 ch d))
theorem wit_Credit_records : ∀ x ∈ [(false, 0), (true, 65534), (true, 32767), (true, 0)], ∃ s d, Runs 102 s d ∧ (look d.tm.reqs ((127 * 16 + 15) * 64 + 63) {}).seen = x.1 ∧
    (look d.tm.reqs ((127 * 16 + 15) * 64 + 63) {}).seq = x.2 := by
  intro x h
  refine ⟨role 0 0 (fun d => { d with tm := { d.tm with reqs := [((127 * 16 + 15) * 64 + 63, { seen := x.1, seq := x.2 })] } }), _, runs (by revert x; decide +kernel), ?_⟩
  revert x; decide +kernel
/-- The record of an event at device 63, port 255 with key 0 of table 7. -/
def rec7 : LearnRec := ⟨7, 63, 255, 0, 0⟩
/-- Table 7 has one entry, at slot 0. -/
def xmOne (st le : Bool) (d : Dev) : Dev := rset XM_TBLn_CFG.SIZE_LOG2 0 7 0 { d with tab := { d.tab with xm := [(0, { tbl := 7, wide := false, static := st, learned := le, result := 0x3FFF, key := 0 })] } }
theorem wit_Learn_records : (∀ r ∈ [0, 1, 2], ∀ ch ∈ [0, 1], ∃ s d, Runs 102 s d ∧ rget FCT_MGR_STAT.ROLE 0 0 d = r ∧ isMgr d = (r == 2) ∧ flag LRN_CFG.CHASSIS 0 0 d = (ch == 1)) ∧
    (∃ s d, Runs 102 s d ∧ isMgr d = true ∧ flag LRN_CFG.CHASSIS 0 0 d = true ∧ lockHolder .XM_LOCKn rec7.table.val d = 0xFFFF) ∧
    (∃ s d slot x, Runs 102 s d ∧ flag LRN_CFG.CHASSIS 0 0 d = true ∧ isMgr d = true ∧ lockHolder .XM_LOCKn 7 d = 0 ∧ blkEn Pg.FCT d = true ∧ d.tab.lrnCache = [] ∧
      xmFind 7 (recEv (learnNum 0 rec7)).key d = some (slot, x) ∧ xmFind 7 (xmKey 7 (recEv (learnNum 0 rec7)).key d) d = some (slot, x) ∧
      entPair x = rec7.dev.toNat * 256 + rec7.port.toNat ∧ x.static = true) ∧
    ∀ r ∈ [0, 2], ∃ s d x, Runs 102 s d ∧ flag LRN_CFG.CHASSIS 0 0 d = true ∧ isMgr d = (r == 2) ∧ lockHolder .XM_LOCKn 7 d = 0 ∧ blkEn Pg.FCT d = true ∧ find? d.tab.xm 0 = some x ∧
      xmFind 7 (xmKey 7 (recEv (learnNum 0 rec7)).key d) d = some (0, x) ∧ x.static = false ∧ x.learned = true ∧ d.fab.heldLrn = [] := by
  refine ⟨fun r h ch k => ⟨role r ch, _, runs (by revert r ch; decide +kernel), ?_⟩, ⟨role 2 1 (rset ⟨.XM_LOCKn, 0, 16⟩ 0 7 0xFFFF), _, runs (by decide +kernel), by decide +kernel⟩,
    ⟨role 2 1 (xmOne true false), _, 0, { tbl := 7, wide := false, static := true, result := 0x3FFF, key := 0 }, runs (by decide +kernel), by decide +kernel⟩, fun r h => ?_⟩
  · revert r ch; decide +kernel
  · refine ⟨role r 1 (xmOne false true), _, { tbl := 7, wide := false, static := false, learned := true, result := 0x3FFF, key := 0 }, runs (by revert r; decide +kernel), ?_⟩
    revert r; decide +kernel
/-- Device 63 is the manager that this one follows; the epoch controller is in state st for SEQ n at time t. -/
def follows (st n t strict : Nat) (x : Dev → Dev := id) : State := role 0 0 fun d => x (rset FCT_MGR_STAT.MGR_VALID 0 0 1 (rset FCT_MGR_STAT.MGR_DEV 0 0 63 (rset EPC_STAT.STATE 0 0 st
  (rset EPC_X_CFG.STRICT 0 0 strict { d with epc := { d.epc with prepSeq := n }, spn := { d.spn with time := t * 2 ^ 32 } }))))
theorem wit_Epoch_records : (∀ r ∈ [0, 2], ∃ s d, Runs 102 s d ∧ flag FCT_MGR_STAT.MGR_VALID 0 0 d = false ∧ isMgr d = (r == 2)) ∧
    (∀ b ∈ [true, false], ∃ s d, Runs 102 s d ∧ flag FCT_MGR_STAT.MGR_VALID 0 0 d = true ∧ rget FCT_MGR_STAT.MGR_DEV 0 0 d = 63 ∧ isMgr d = false ∧ blkEn Pg.FCT d = true ∧
      epcState d = 0 ∧ 65535 ≠ curSeq d ∧ decide (notReady d = 0) = b) ∧
    (∀ st ∈ [0, 1], ∃ s d, Runs 102 s d ∧ flag FCT_MGR_STAT.MGR_VALID 0 0 d = true ∧ rget FCT_MGR_STAT.MGR_DEV 0 0 d = 63 ∧ isMgr d = false ∧ epcState d = 3 ∧
      d.epc.prepSeq = 65535 ∧ nowNs d = 5 ∧ lowestFree d.spn.acts 0 4096 = some 0 ∧ flag EPC_X_CFG.STRICT 0 0 d = (st == 1)) ∧
    (∃ s d, Runs 102 s d ∧ d.epc.mgrSeq = none) ∧
    ∀ w ∈ [[1, 63], [1]], ∃ s d, Runs 102 s d ∧ d.epc.mgrSeq = some 65535 ∧ 1 ∉ d.epc.ready ∧ lowestFree d.spn.acts 0 4096 = some 0 ∧
      (if w = [1] then ∀ m ∈ d.epc.workers, m = 1 ∨ m ∈ d.epc.ready else ∃ m ∈ d.epc.workers, m ≠ 1 ∧ m ∉ d.epc.ready) := by
  refine ⟨fun r h => ⟨role r 0, _, runs (by revert r; decide +kernel), ?_⟩, fun b h => ⟨follows 0 0 0 0 (fun d => if b then d else rset (HDS_PROF.VALID 1) 0 0 1 (rset (HDS_PROF.KIND 1 0) 0 0 4 d)), _,
      runs (by revert b; decide +kernel), ?_⟩, fun st h => ⟨follows 3 65535 5 st, _, runs (by revert st; decide +kernel), ?_⟩, ⟨role 0 0, _, runs (by decide +kernel), by decide +kernel⟩,
    fun w h => ⟨role 2 0 (fun d => { d with epc := { d.epc with mgrSeq := some 65535, workers := w } }), _, runs (by revert w; decide +kernel), ?_⟩⟩
  · revert r; decide +kernel
  · revert b; decide +kernel
  · revert st; decide +kernel
  · revert w; decide +kernel

theorem wit_Roles : (∀ on ∈ [true, false], ∃ s d, Runs 102 s d ∧ blkEn Pg.FCT d = on) ∧
    (∀ x ∈ [(0, 0, 65535), (0, 1, 5), (2, 0, 6), (2, 0, 4)], ∃ s d, Runs 102 s d ∧ isMgr d = (x.1 == 2) ∧ flag FCT_MGR_STAT.MGR_VALID 0 0 d = (x.2.1 == 1) ∧
      rget FCT_MGR_STAT.TERM 0 0 d = x.2.2) ∧
    (∃ s d, Runs 102 s d ∧ bit (rget FCT_MEMBERS.SET 0 0 d) 63 = true ∧ bit (rget FCT_MEMBERS.SET 0 0 d) 0 = true) ∧
    (∃ s d, Runs 102 s d ∧ rget FCT_MGR_STAT.ROLE 0 0 d = 0 ∧ isCand d = false ∧ d.mono < d.fab.upAt + 2 * (rget FCT_MGR_CFG.MGR_TMO 0 0 d * 1000)) ∧
    (∀ late ∈ [0, 1], ∃ s d x, Runs 102 s d ∧ d.fab.heldLrn = [x] ∧ x.2.2 + 2 * rget FCT_MGR_CFG.MGR_TMO 0 0 d * 1000 = d.mono + late) ∧
    (∀ late ∈ [0, 1], ∃ s d h, Runs 102 s d ∧ find? d.fab.heard 63 = some h ∧ h.at_ + rget FCT_MGR_CFG.MGR_TMO 0 0 d * 1000 = d.mono + late ∧
      flag FCT_MGR_STAT.MGR_VALID 0 0 d = true ∧ rget FCT_MGR_STAT.MGR_DEV 0 0 d = 63 ∧ rget FCT_MGR_STAT.ROLE 0 0 d = 1 ∧ blkEn Pg.FCT d = true ∧ devId d < 64) ∧
    ∃ s d, Runs 102 s d ∧ isCand d = true ∧ rget FCT_MGR_STAT.ROLE 0 0 d = 0 ∧ devId d < 64 ∧ 63 ∈ otherMembers d ∧
      d.fab.upAt + 2 * (rget FCT_MGR_CFG.MGR_TMO 0 0 d * 1000) = d.mono ∧
      ∀ v ∈ otherMembers d, (look d.fab.heard v {}).role = 0 ∧ ((look d.fab.heard v {}).cand = true → devId d ≤ v) := by
  refine ⟨fun on h => ⟨up (if on then [0xD8] else []) [102], _, runs (by revert on; decide +kernel), ?_⟩,
    fun x h => ⟨role x.1 0 (fun d => rset FCT_MGR_STAT.MGR_VALID 0 0 x.2.1 (rset FCT_MGR_STAT.TERM 0 0 x.2.2 d)), _, runs (by revert x; decide +kernel), ?_⟩,
    ⟨role 0 0 (rset FCT_MEMBERS.SET 0 0 (2 ^ 63 + 1)), _, runs (by decide +kernel), by decide +kernel⟩, ⟨role 0 0, _, runs (by decide +kernel), by decide +kernel⟩,
    fun late h => ⟨role 1 0 (fun d => { d with mono := 2 * rget FCT_MGR_CFG.MGR_TMO 0 0 d * 1000, fab := { d.fab with heldLrn := [(0, 0, late)] } }), _, (0, 0, late),
      runs (by revert late; decide +kernel), ?_⟩,
    fun late h => ⟨role 1 0 (fun d => rset FCT_MGR_STAT.MGR_VALID 0 0 1 (rset FCT_MGR_STAT.MGR_DEV 0 0 63
      { d with mono := rget FCT_MGR_CFG.MGR_TMO 0 0 d * 1000, fab := { d.fab with heard := [(63, { at_ := late })] } })), _, { at_ := late }, runs (by revert late; decide +kernel), ?_⟩,
    role 0 0 (fun d => rset GLB_STRAP.MGR_SEL 0 0 1 (rset FCT_MEMBERS.SET 0 0 (2 ^ 63 + 1)
      { d with mono := 2 * (rget FCT_MGR_CFG.MGR_TMO 0 0 d * 1000), fab := { d.fab with heard := [(63, { cand := true })] } })), _,
    runs (by decide +kernel), by decide +kernel⟩
  · revert on; decide +kernel
  · revert x; decide +kernel
  · revert late; decide +kernel
  · revert late; decide +kernel
theorem wit_Handover : ∀ x ∈ [(0, 0), (2, 0), (2, 1)], ∃ s d img, Commits .pcie .FCT_MGR_CMD 0 0 (force 0 [(31, 31, 1)]) s d img ∧ isMgr d = (x.1 == 2) ∧
    flag FCT_MGR_STAT.STBY_VALID 0 0 d = (x.2 == 1) := by
  intro x h
  refine ⟨role x.1 0 (rset FCT_MGR_STAT.STBY_VALID 0 0 x.2), _, _, commits (by revert x; decide +kernel) (by revert x; decide +kernel), ?_⟩
  revert x; decide +kernel

/-! Premises of the statements on the services. -/

/-- The services with firmware in slot A where run is 1; x is done. -/
def svc (run : Nat) (x : Dev → Dev := id) : State := up [8] [98, 101, 102] fun d => x (rset SVC_FW_STAT.RUN 0 0 run d)
/-- The services' own state as f. -/
def inSvc (f : Svc → Svc) (d : Dev) : Dev := { d with svc := f d.svc }
/-- A mailbox command of which the words below the highest hold ARG a is staged. -/
def mbox (run a : Nat) (x : Dev → Dev := id) : State := svc run fun d => staging .SVC_MBOX_CMD 0 0 a (x d)
/-- The mailbox serves the command. -/
def Serves (op w : Nat) (s : State) (d : Dev) (img : Nat) : Prop := Commits .pcie .SVC_MBOX_CMD 0 0 (go (BitVec.ofNat 32 w) 30 24 op) s d img ∧
  fwRun d ≠ 0 ∧ flag SVC_FW_STAT.SWITCHING 0 0 d = false ∧ flag SVC_MBOX_CMD.GO 0 0 d = false
/-- ARG from its fields, widths first, packed from bit 503 down. -/
def argOf (ws vs : List Nat) : Nat := packData (vs.zip ws)
/-- Highest word and lower words of the mailbox command with ARG a. -/
def hiWord (a : Nat) : Nat := a / 2 ^ 480
theorem wit_Mailbox : ∀ x ∈ [(true, false, 1), (false, true, 1), (false, false, 0)], ∀ op ∈ [0x01, 0x02, 0x03, 0x04, 0x10, 0x11, 0x20, 0x21],
    ∃ s d img, Commits .pcie .SVC_MBOX_CMD 0 0 (go 0 30 24 op) s d img ∧ flag SVC_MBOX_CMD.GO 0 0 d = x.1 ∧ flag SVC_FW_STAT.SWITCHING 0 0 d = x.2.1 ∧ fwRun d = x.2.2 := by
  intro x h op k
  refine ⟨mbox x.2.2 0 (fun d => rset SVC_MBOX_CMD.GO 0 0 (b2n x.1) (rset SVC_FW_STAT.SWITCHING 0 0 (b2n x.2.1) d)), _, _,
    commits (by revert x op; decide +kernel) (by revert x op; decide +kernel), ?_⟩
  revert x op; decide +kernel
/-- ARG of a BFD_ADD of session 32767: MULT m, TX and RX t, AUTH u. -/
def addArg (m t u : Nat) : Nat := argOf bfdAddW [32767, 1, 1, u, 0, 5, m, t, t, 9, 7, 1, 2]
/-- A table that lists the keys 0 to n - 1. -/
@[irreducible] def full {α : Type} (n : Nat) (v : α) : Tbl α := (List.range n).map fun k => (k, v)
theorem full_none {α : Type} (v : α) : ∀ n a m, a + m ≤ n → lowestFree (full n v) a m = none := by
  intro n a m p
  have m' : ∀ (l : List Nat) k, k ∈ l → has (l.map fun k => (k, v)) k = true := by
    intro l k p
    induction l with
    | nil => cases p
    | cons b l ih =>
      by_cases e : k = b
      · simp [has, find?, e]
      · have q := ih ((List.mem_cons.1 p).resolve_left e)
        simpa [has, find?, e] using q
  induction m generalizing a with
  | zero => rfl
  | succ m ih =>
    have h : has (full n v) a = true := by unfold full; exact m' _ _ (List.mem_range.2 (by omega))
    simp only [lowestFree, h, ↓reduceIte]
    exact ih (a + 1) (by omega)
/-- A wheel of which every slot is held. -/
def fullWheel : Tbl (Nat × Nat) := full 65536 (7, 1)
theorem wit_Bfd_add : (∀ x ∈ [(0, 3300, 0), (1, 3299, 0), (1, 3300, 3), (1, 3300, 1)], ∃ s d img, Serves 0x01 (hiWord (addArg x.1 x.2.1 x.2.2)) s d img ∧
      (let a := argField (SVC_MBOX_CMD.ARG.of img) bfdAddW
       a 0 = 32767 ∧ a 6 = x.1 ∧ a 7 = x.2.1 ∧ a 3 = x.2.2 ∧ bfdKey (a 5) d = none)) ∧
    (∃ s d img, Serves 0x01 (hiWord (addArg 1 3300 0)) s d img ∧ has d.svc.sess (argField (SVC_MBOX_CMD.ARG.of img) bfdAddW 0) = true) ∧
    (lowestFree fullWheel 0 65536 = none ∧ ∃ s d img, Serves 0x01 (hiWord (addArg 1 3300 0)) s d img ∧ d.svc.wheel = fullWheel) ∧
    ∃ s d img, Serves 0x01 (hiWord (addArg 1 3300 0)) s d img ∧ (let a := argField (SVC_MBOX_CMD.ARG.of img) bfdAddW
      has d.svc.sess (a 0) = false ∧ a 7 = 3300 ∧ a 8 = 3300 ∧ a 6 = 1 ∧ a 3 = 0) ∧ lowestFree d.svc.wheel 0 65536 = some 1 := by
  refine ⟨fun x h => ⟨mbox 1 (addArg x.1 x.2.1 x.2.2 % 2 ^ 480), _, _, ⟨commits (by revert x; decide +kernel) (by revert x; decide +kernel), ?_⟩, ?_⟩,
    ⟨mbox 1 (addArg 1 3300 0 % 2 ^ 480) (inSvc fun s => { s with sess := [(32767, {})] }), _, _, ⟨commits (by decide +kernel) (by decide +kernel), by decide +kernel⟩, by decide +kernel⟩,
    ⟨full_none _ _ _ _ (by omega), mbox 1 (addArg 1 3300 0 % 2 ^ 480) (inSvc fun s => { s with wheel := fullWheel }), _, _, ⟨commits (by decide +kernel) (by decide +kernel), by decide +kernel⟩, rfl⟩,
    mbox 1 (addArg 1 3300 0 % 2 ^ 480) (inSvc fun s => { s with wheel := [(0, (7, 1))] }), _, _, ⟨commits (by decide +kernel) (by decide +kernel), by decide +kernel⟩, by decide +kernel⟩
  · revert x; decide +kernel
  · revert x; decide +kernel
/-- ARG of a BFD_MOD of session 32767. -/
def modArg (m t : Nat) : Nat := argOf bfdModW [32767, 0, 0, 0, m, t, t]
theorem wit_Bfd_mod : (∃ s d img, Serves 0x02 (hiWord (modArg 1 3300)) s d img ∧ sess (argField (SVC_MBOX_CMD.ARG.of img) bfdModW 0) d = none) ∧
    (∀ y ∈ [(0, 3300, false), (1, 3299, false), (1, 3300, true)], ∃ s d img x, Serves 0x02 (hiWord (modArg y.1 y.2.1)) s d img ∧ (let a := argField (SVC_MBOX_CMD.ARG.of img) bfdModW
      sess (a 0) d = some x ∧ (x.deleting = true ∨ bfdArgBad (a 1) (a 3) (a 4) (a 5) (a 6) d = true))) ∧
    ∀ st ∈ [1, 3], ∃ s d img x, Serves 0x02 (hiWord (modArg 1 3300)) s d img ∧ (let a := argField (SVC_MBOX_CMD.ARG.of img) bfdModW
      sess (a 0) d = some x ∧ x.st = st ∧ x.deleting = false ∧ bfdArgBad (a 1) (a 3) (a 4) (a 5) (a 6) d = false) := by
  refine ⟨⟨mbox 1 (modArg 1 3300 % 2 ^ 480), _, _, ⟨commits (by decide +kernel) (by decide +kernel), by decide +kernel⟩, by decide +kernel⟩, fun y h => ?_, fun st h => ?_⟩
  · refine ⟨mbox 1 (modArg y.1 y.2.1 % 2 ^ 480) (inSvc fun s => { s with sess := [(32767, { deleting := y.2.2 })] }), _, _, { deleting := y.2.2 },
      ⟨commits (by revert y; decide +kernel) (by revert y; decide +kernel), ?_⟩, ?_⟩ <;> revert y <;> decide +kernel
  · refine ⟨mbox 1 (modArg 1 3300 % 2 ^ 480) (inSvc fun s => { s with sess := [(32767, { st := st })] }), _, _, { st := st },
      ⟨commits (by revert st; decide +kernel) (by revert st; decide +kernel), ?_⟩, ?_⟩ <;> revert st <;> decide +kernel
theorem wit_Bfd_session : ∀ op ∈ [0x03, 0x04], ∀ l ∈ [[], [(32767, ({} : BfdSess))], [(32767, { deleting := true })]], ∃ s d img, Serves op (hiWord (argOf [15] [32767])) s d img ∧
    sess (argField (SVC_MBOX_CMD.ARG.of img) [15] 0) d = find? l 32767 := by
  intro op h l k
  refine ⟨mbox 1 (argOf [15] [32767] % 2 ^ 480) (inSvc fun s => { s with sess := l }), _, _, ⟨commits (by revert op l; decide +kernel) (by revert op l; decide +kernel), ?_⟩, ?_⟩ <;>
    revert op l <;> decide +kernel
theorem wit_Bfd_finish : (∃ s d, Runs 98 s d ∧ sess 32767 d = none) ∧ ∀ b ∈ [true, false], ∀ st ∈ [1, 3], ∀ late ∈ [0, 1], ∃ s d x, Runs 98 s d ∧ sess 32767 d = some x ∧
    x.deleting = b ∧ x.delAt + x.mult * (max (if x.st = 3 then x.curTx else max x.curTx 1000000) x.rRx * 750) = d.mono + late := by
  refine ⟨⟨svc 1, _, runs (by decide +kernel), by decide +kernel⟩, fun b h st k late l => ?_⟩
  refine ⟨svc 1 (fun d => { d with mono := 3 * (if st = 3 then 3300 else 1000000) * 750 + 1, svc := { d.svc with
    sess := [(32767, { st := st, mult := 3, curTx := 3300, deleting := b, delAt := 1 + late })] } }), _, { st := st, mult := 3, curTx := 3300, deleting := b, delAt := 1 + late },
    runs (by revert b st late; decide +kernel), ?_⟩
  revert b st late; decide +kernel
/-- A responder entry for IPv4 10.0.0.2. -/
def nd4 : NdEnt := ⟨false, false, 255, 1, 0x0A000002⟩
theorem wit_Neighbour_commands : (∀ v ∈ [0, 1], ∀ l ∈ [[], [(16383, nd4)]], ∃ s d img, Serves 0x10 (hiWord (argOf ndAddW [16383, v, 0, 255, 1, 2 ^ 127])) s d img ∧
      (let a := argField (SVC_MBOX_CMD.ARG.of img) ndAddW
       has d.svc.nd (a 0) = has l 16383 ∧ a 1 = v)) ∧
    ∀ l ∈ [[], [(16383, nd4)]], ∃ s d img, Serves 0x11 (hiWord (argOf [14] [16383])) s d img ∧ has d.svc.nd (argField (SVC_MBOX_CMD.ARG.of img) [14] 0) = has l 16383 := by
  refine ⟨fun v h l k => ?_, fun l k => ?_⟩
  · refine ⟨mbox 1 (argOf ndAddW [16383, v, 0, 255, 1, 2 ^ 127] % 2 ^ 480) (inSvc fun s => { s with nd := l }), _, _,
      ⟨commits (by revert v l; decide +kernel) (by revert v l; decide +kernel), ?_⟩, ?_⟩ <;> revert v l <;> decide +kernel
  · refine ⟨mbox 1 (argOf [14] [16383] % 2 ^ 480) (inSvc fun s => { s with nd := l }), _, _,
      ⟨commits (by revert l; decide +kernel) (by revert l; decide +kernel), ?_⟩, ?_⟩ <;> revert l <;> decide +kernel
/-- ARG of an IPFIX_CFG. -/
def fxArg (en mtu : Nat) : Nat := argOf ipfixW [en, 0, 1, 2, 3, 4, 5, mtu, 6, 7, 8, 9, 10]
theorem wit_Export_commands : (∀ m ∈ [511, 512, 1500, 1501], ∀ en ∈ [0, 1], ∃ s d img, Serves 0x20 (hiWord (fxArg en m)) s d img ∧ (let a := argField (SVC_MBOX_CMD.ARG.of img) ipfixW
      a 7 = m ∧ a 0 = en)) ∧ ∃ s d img, Serves 0x21 0 s d img := by
  refine ⟨fun m h en k => ?_, mbox 1 0, _, _, ⟨commits (by decide +kernel) (by decide +kernel), by decide +kernel⟩⟩
  refine ⟨mbox 1 (fxArg en m % 2 ^ 480), _, _, ⟨commits (by revert m en; decide +kernel) (by revert m en; decide +kernel), ?_⟩, ?_⟩ <;> revert m en <;> decide +kernel

/-- The oldest packet of service queue k, in cell 5 with bytes bs. -/
def served (run k : Nat) (bs : Bytes) (x : Dev → Dev := id) : State := svc run fun d => x (rset TMS_PORTn_EQ.EQ_BASE 0 129 0x20000
  (loadImg .CHK_POOLn_CFG 0 0 (2 ^ 63 + 2 ^ 61 + 64) (onTm (fun t => { t with svcOut := [(0x20000 + k, { head := 5, tag := 0x801, len := bs.length })] })
    (onChk (fun c => { c with cells := [(5, { used 0x801 1 with data := bs })] }) d))))
/-- Its queue entry. -/
def servedX (k n : Nat) : Nat × Desc := (0x20000 + k, { head := 5, tag := 0x801, len := n })
/-- The device once the packet has left its queue. -/
def takenOff (k n : Nat) (d : Dev) : Dev := { d with tm := { d.tm with svcOut := d.tm.svcOut.erase (servedX k n) } }
/-- The packet is read whole, and what is left of the device. -/
def Reads (k : Nat) (bs : Bytes) (s : State) (d d' : Dev) : Prop := Runs 98 s d ∧
  (d.tm.svcOut.find? fun e => e.1 == rget TMS_PORTn_EQ.EQ_BASE 0 129 d + k) = some (servedX k bs.length) ∧ fwRun d ≠ 0 ∧
  readChain .tm (servedX k bs.length).2 (takenOff k bs.length d) = (0, bs, d')
theorem wit_Service_queues : ∀ k ∈ [0, 1, 2], (∃ s d, Runs 98 s d ∧ (d.tm.svcOut.find? fun e => e.1 == rget TMS_PORTn_EQ.EQ_BASE 0 129 d + k) = none) ∧
    (∃ s d x, Runs 98 s d ∧ (d.tm.svcOut.find? fun e => e.1 == rget TMS_PORTn_EQ.EQ_BASE 0 129 d + k) = some x ∧ fwRun d = 0) ∧
    ∃ s d x, Runs 98 s d ∧ (d.tm.svcOut.find? fun e => e.1 == rget TMS_PORTn_EQ.EQ_BASE 0 129 d + k) = some x ∧ fwRun d ≠ 0 ∧
      (readChain .tm x.2 (takenOff k 60 d)).1 ≠ 0 := by
  intro k h
  refine ⟨⟨svc 1, _, runs (by decide +kernel), by revert k; decide +kernel⟩,
    ⟨served 0 k (List.replicate 60 0), _, servedX k 60, runs (by revert k; decide +kernel), by revert k; decide +kernel⟩,
    served 1 k (List.replicate 60 0) (onChk fun c => { c with badData := [5] }), _, servedX k 60, runs (by revert k; decide +kernel), by revert k; decide +kernel⟩
/-- A BFD packet over IPv4 with time to live ttl and version ver. -/
def bfdPkt (ttl ver : Nat) : Bytes := List.replicate 12 0 ++ beBytes 2 0x0800 ++ beBytes 4 0x45000034 ++ beBytes 4 0 ++ beBytes 4 (ttl * 2 ^ 24 + 0x110000 + (if ttl = 255 then 0xA7B6 else 0xA8B6)) ++
  beBytes 4 0x0A000001 ++ beBytes 4 0x0A000002 ++ beBytes 4 0xC0000EC8 ++ beBytes 4 0x00200000 ++ beBytes 4 (ver * 2 ^ 29 + 0x400318) ++ beBytes 4 7 ++ beBytes 4 9 ++
  beBytes 4 1000000 ++ beBytes 4 1000000 ++ beBytes 4 0
/-- A session that the packet is for. -/
def bfdSess (mhop : Bool) (auth st : Nat) : BfdSess := { mhop := mhop, auth := auth, st := st, disc := 9 }
theorem wit_Bfd_receive : ∀ x ∈ [(255, 0, ([] : Tbl BfdSess)), (255, 1, []), (254, 1, [(3, bfdSess false 0 1)]), (255, 1, [(3, bfdSess false 1 1)]), (254, 1, [(3, bfdSess true 0 1)])],
    ∃ s d d' ip, Reads 0 (bfdPkt x.1 x.2.1) s d d' ∧ (svcParse (servedX 0 66).2 (bfdPkt x.1 x.2.1) d').l3out = some ip ∧ ip.v6 = false ∧ ip.ofs = 14 ∧
      find? (svcParse (servedX 0 66).2 (bfdPkt x.1 x.2.1) d').anchors 2 = some 34 ∧ (34, 0x21) ∈ (svcParse (servedX 0 66).2 (bfdPkt x.1 x.2.1) d').slots ∧ d'.svc.sess = x.2.2 ∧
      (let b := ((bfdPkt x.1 x.2.1).take (34 + beAt (bfdPkt x.1 x.2.1) 38 2)).drop 42
       byteAt b 0 / 32 = x.2.1 ∧ byteAt b 3 = 24 ∧ b.length = 24 ∧ byteAt b 2 = 3 ∧ byteAt b 1 = 0x40 ∧ beAt b 4 4 = 7 ∧ beAt b 8 4 = 9 ∧
       byteAt (bfdPkt x.1 x.2.1) 22 = x.1 ∧ bfdMatch false 0 0 9 d' = x.2.2.head?) := by
  intro x h
  refine ⟨served 1 0 (bfdPkt x.1 x.2.1) (inSvc fun s => { s with sess := x.2.2 }), _,
    (readChain .tm (servedX 0 66).2 (takenOff 0 66 (ungate 98 (served 1 0 (bfdPkt x.1 x.2.1) (inSvc fun s => { s with sess := x.2.2 })).dev))).2.2, ⟨14, false, 17, false⟩,
    ⟨runs (by revert x; decide +kernel), ?_⟩, ?_⟩ <;> revert x <;> decide +kernel
theorem wit_Bfd_interval : ∀ st ∈ [1, 3], ∀ late ∈ [0, 1], ∃ s d y, Runs 98 s d ∧ sess 32767 d = some y ∧ fwRun d = 1 ∧ y.rRx = 5000 ∧ y.rDemand = false ∧ y.auth = 0 ∧
    fifoBytes 33 d + 86 ≤ 32768 ∧ y.lastTx = some late ∧ late + max (if y.st = 3 then y.curTx else max y.curTx 1000000) y.rRx * 750 = d.mono + late := by
  intro st h late k
  refine ⟨svc 1 (fun d => { d with mono := (if st = 3 then 5000 else 1000000) * 750, svc := { d.svc with
    sess := [(32767, { st := st, curTx := 3300, rRx := 5000, lastTx := some late })] } }), _, { st := st, curTx := 3300, rRx := 5000, lastTx := some late },
    runs (by revert st late; decide +kernel), ?_⟩
  revert st late; decide +kernel
theorem wit_Bfd_transmit : ∀ x ∈ [(0, 1, false), (1, 0, false), (1, 1, false), (1, 1, true)], ∃ s d y, Runs 98 s d ∧ sess 32767 d = some y ∧ fwRun d = x.1 ∧ y.rRx = x.2.1 ∧ y.v6 = x.2.2 ∧
    y.rDemand = false ∧ y.auth = 0 ∧ fifoBytes 33 d + 86 ≤ 32768 := by
  intro x h
  refine ⟨svc x.1 (inSvc fun s => { s with sess := [(32767, { rRx := x.2.1, v6 := x.2.2 })] }), _, { rRx := x.2.1, v6 := x.2.2 }, runs (by revert x; decide +kernel), ?_⟩
  revert x; decide +kernel
theorem wit_Bfd_detect : (∃ s d, Runs 98 s d ∧ sess 32767 d = none) ∧ ∀ x ∈ [(none, 3, 0), (some 0, 1, 0), (some 0, 2, 2999), (some 0, 3, 3000)], ∃ s d y, Runs 98 s d ∧
    sess 32767 d = some y ∧ y.lastRx = x.1 ∧ y.st = x.2.1 ∧ d.mono = x.2.2 ∧ y.detect = 3000 ∧ y.deleting = false ∧ rget SVC_RING_BASE.BASE 0 0 d = 0 ∧
    d.svc.ringBuf.length = 1023 := by
  refine ⟨⟨svc 1, _, runs (by decide +kernel), by decide +kernel⟩, fun x h => ?_⟩
  refine ⟨svc 1 (fun d => { d with mono := x.2.2, svc := { d.svc with ringBuf := List.replicate 1023 (0, 0, 0), sess := [(32767, { lastRx := x.1, st := x.2.1, rMult := 3, rTx := 1 })] } }), _,
    { lastRx := x.1, st := x.2.1, rMult := 3, rTx := 1 }, runs (by revert x; decide +kernel), ?_⟩
  revert x; decide +kernel
/-- An ARP packet with operation op that asks for 10.0.0.2. -/
def arpPkt (op : Nat) : Bytes := List.replicate 12 0 ++ beBytes 2 0x0806 ++ beBytes 6 0x000108000604 ++ beBytes 2 op ++ beBytes 6 9 ++ beBytes 4 0x0A000001 ++ beBytes 6 0 ++ beBytes 4 0x0A000002
theorem wit_Arp : ∀ x ∈ [(2, ([] : Tbl NdEnt)), (1, []), (1, [(16383, nd4)])], ∃ s d d', Reads 1 (arpPkt x.1) s d d' ∧
    (svcParse (servedX 1 42).2 (arpPkt x.1) d').slots.find? (fun s => s.2 == 0x03) = some (14, 0x03) ∧ beAt (arpPkt x.1) 14 6 = 0x000108000604 ∧ beAt (arpPkt x.1) 20 2 = x.1 ∧
    (arpPkt x.1).length = 14 + 28 ∧ ndFind false (beAt (arpPkt x.1) 38 4) 0 d' = x.2.head?.map (·.2) ∧ fifoBytes 33 d' = 0 := by
  intro x h
  refine ⟨served 1 1 (arpPkt x.1) (inSvc fun s => { s with nd := x.2 }), _,
    (readChain .tm (servedX 1 42).2 (takenOff 1 42 (ungate 98 (served 1 1 (arpPkt x.1) (inSvc fun s => { s with nd := x.2 })).dev))).2.2,
    ⟨runs (by revert x; decide +kernel), ?_⟩, ?_⟩ <;> revert x <;> decide +kernel
/-- An ICMP packet over IPv4. -/
def icmpPkt : Bytes := List.replicate 12 0 ++ beBytes 2 0x0800 ++ beBytes 4 0x45000014 ++ beBytes 4 0 ++ beBytes 4 0x400166E7 ++ beBytes 4 0x0A000001 ++ beBytes 4 0x0A000002
theorem wit_Sample : ∀ x ∈ [(50000000, true), (49999999, true), (49999999, false)], ∃ s d d' ip, Reads 2 icmpPkt s d d' ∧ d'.svc.rateSec = d'.mono / 1000000000 ∧ d'.svc.rateN = x.1 ∧
    d'.svc.ipfix.en = x.2 ∧ (svcParse (servedX 2 34).2 icmpPkt d').l3out = some ip ∧ ip.v6 = false ∧ isTcpUdp (svcParse (servedX 2 34).2 icmpPkt d') 2 = false ∧
    d'.svc.flows.length < 1048576 := by
  intro x h
  refine ⟨served 1 2 icmpPkt (inSvc fun s => { s with rateN := x.1, ipfix := { en := x.2 } }), _,
    (readChain .tm (servedX 2 34).2 (takenOff 2 34 (ungate 98 (served 1 2 icmpPkt (inSvc fun s => { s with rateN := x.1, ipfix := { en := x.2 } })).dev))).2.2, ⟨14, false, 1, false⟩,
    ⟨runs (by revert x; decide +kernel), ?_⟩, ?_⟩ <;> revert x <;> decide +kernel
/-- A flow. -/
def flow1 : FlowKey := ⟨255, true, 1, 2, 17, 65535, 65535⟩
theorem wit_Export : ∀ x ∈ [(0, true, true), (1, false, true), (1, true, false), (1, true, true)], ∃ s d, Runs 98 s d ∧ fwRun d = x.1 ∧ d.svc.ipfix.en = x.2.1 ∧
    (find? d.svc.flows (flowNum flow1)).isSome = x.2.2 := by
  intro x h
  refine ⟨svc x.1 (inSvc fun s => { s with ipfix := { en := x.2.1 }, flows := if x.2.2 then [(flowNum flow1, {})] else [] }), _, runs (by revert x; decide +kernel), ?_⟩
  revert x; decide +kernel

/-- Export is on with intervals of 2 s; a flow and the templates were last sent at time late, in ns, and it is 2 s. -/
def exporting (late : Nat) : State := svc 1 fun d => { d with mono := 2000000000, svc := { d.svc with lastTpl := late, ipfix := { en := true, idleS := 2, activeS := 2, templateS := 2 }, flows := [(flowNum flow1, { pkts := 1, seen := late, since := late })] } }
theorem wit_Export_times : ∀ late ∈ [0, 1], (∃ s d f, Runs 98 s d ∧ fwRun d = 1 ∧ d.svc.ipfix.en = true ∧ find? d.svc.flows (flowNum flow1) = some f ∧
      f.seen + d.svc.ipfix.idleS * 1000000000 = d.mono + late) ∧
    (∃ s d f, Runs 98 s d ∧ fwRun d = 1 ∧ d.svc.ipfix.en = true ∧ find? d.svc.flows (flowNum flow1) = some f ∧ f.pkts ≠ 0 ∧ f.since + d.svc.ipfix.activeS * 1000000000 = d.mono + late) ∧
    ∃ s d, Runs 98 s d ∧ fwRun d = 1 ∧ d.svc.ipfix.en = true ∧ d.svc.lastTpl + d.svc.ipfix.templateS * 1000000000 = d.mono + late := by
  intro late h
  refine ⟨⟨exporting late, _, { pkts := 1, seen := late, since := late }, runs (by revert late; decide +kernel), ?_⟩,
    ⟨exporting late, _, { pkts := 1, seen := late, since := late }, runs (by revert late; decide +kernel), ?_⟩, exporting late, _, runs (by revert late; decide +kernel), ?_⟩ <;>
    revert late <;> decide +kernel

/-- A wheel command of slot 65535 by o for period p with the wheel w. -/
def wheelCmd (o p : Nat) (w : Tbl (Nat × Nat)) : State := svc 1 fun d => staging .SVC_WHEEL_CMD 0 0 (o * 2 ^ 16 + p) (inSvc (fun s => { s with wheel := w }) d)
theorem wit_Wheel : (∀ x ∈ [(0, 1, []), (0xFFFF, 1, []), (7, 0, []), (7, 60001, []), (7, 60000, [(65535, (8, 1))]), (7, 1, [(65535, (7, 5))]), (7, 60000, [])],
      ∃ s d img, Commits .pcie .SVC_WHEEL_CMD 0 0 (go 0xFFFF 30 30 0) s d img ∧ SVC_WHEEL_CMD.SLOT.of img = 65535 ∧ SVC_WHEEL_CMD.OWNER_ID.of img = x.1 ∧
      idRefused .pcie x.1 = (x.1 == 0xFFFF) ∧ SVC_WHEEL_CMD.PERIOD.of img = x.2.1 ∧ d.svc.wheel = x.2.2) ∧
    ∀ x ∈ [(0, 1, []), (0xFFFF, 1, []), (7, 0, []), (7, 0, [(65535, (8, 1))]), (7, 0, [(65535, (7, 5))])],
      ∃ s d img, Commits .pcie .SVC_WHEEL_CMD 0 0 (go 0xFFFF 30 30 1) s d img ∧ SVC_WHEEL_CMD.SLOT.of img = 65535 ∧ SVC_WHEEL_CMD.OWNER_ID.of img = x.1 ∧
      idRefused .pcie x.1 = (x.1 == 0xFFFF) ∧ d.svc.wheel = x.2.2 := by
  refine ⟨fun x h => ⟨wheelCmd x.1 x.2.1 x.2.2, _, _, commits (by revert x; decide +kernel) (by revert x; decide +kernel), ?_⟩,
    fun x h => ⟨wheelCmd x.1 x.2.1 x.2.2, _, _, commits (by revert x; decide +kernel) (by revert x; decide +kernel), ?_⟩⟩ <;> revert x <;> decide +kernel
theorem wit_Wheel_tick : ∀ x ∈ [([], 0), ([(65535, (0xF400, 0))], 0), ([(65535, (7, 1))], 1023), ([(65535, (7, 1))], 1024)], ∀ late ∈ [0, 1], ∃ s d, Runs 98 s d ∧
    d.svc.wheel = x.1 ∧ d.svc.ringBuf.length = x.2 ∧ rget SVC_RING_BASE.BASE 0 0 d = 0 ∧ look d.svc.wheelDue 65535 0 = d.mono + late := by
  intro x h late k
  refine ⟨svc 1 (fun d => { d with mono := 1000000, svc := { d.svc with wheel := x.1, ringBuf := List.replicate x.2 (0, 0, 0), wheelDue := [(65535, 1000000 + late)] } }), _,
    runs (by revert x late; decide +kernel), ?_⟩
  revert x late; decide +kernel
theorem wit_Ring : ∀ x ∈ [(0, 1, [(0, 0, 0)]), (1, 0, [(0, 0, 0)]), (1, 1, []), (1, 1, [(1, 2, 3)])], ∃ s d, Runs 98 s d ∧ rget SVC_RING_BASE.BASE 0 0 d = x.1 ∧ dmaOn d = (x.2.1 == 1) ∧
    d.svc.ringBuf = x.2.2 ∧ svcRingFree d ≠ 0 ∧ 2 ^ rget SVC_RING_CFG.SIZE_LOG2 0 0 d ≤ 2 ^ 16 := by
  intro x h
  refine ⟨svc 1 (fun d => rset SVC_RING_BASE.BASE 0 0 x.1 (rset HIF_LINK.BME 0 0 x.2.1 (rset HIF_LINK.SPEED 0 0 3 (inSvc (fun s => { s with ringBuf := x.2.2 }) d)))), _,
    runs (by revert x; decide +kernel), ?_⟩
  revert x; decide +kernel
/-- Slot B in state st with firmware r running; the owner of region 68 is o. -/
def slotB (r st sw o : Nat) (x : Dev → Dev := id) : State := svc r fun d => x (rset SVC_FW_STAT.STATE_B 0 0 st (rset SVC_FW_STAT.SWITCHING 0 0 sw (rset MEM_GRANTr.OWNER 0 68 o d)))
theorem wit_Fw_verify : ∀ x ∈ [(2, 1), (0, 0), (1, 1)], ∃ s d img, Commits .pcie .SVC_FW_CMD 0 0 (go 0x20000000 30 30 0) s d img ∧ SVC_FW_CMD.SLOT.of img = 1 ∧ fwRun d = x.1 ∧
    rget (slotField 1) 0 0 d = x.2 := by
  intro x h
  refine ⟨slotB x.1 x.2 0 0, _, _, commits (by revert x; decide +kernel) (by revert x; decide +kernel), ?_⟩
  revert x; decide +kernel
theorem wit_Fw_start : ∀ x ∈ [(2, 2, 0, 0), (1, 2, 1, 0), (1, 1, 0, 0), (1, 2, 0, 1), (1, 2, 0, 2), (1, 2, 0, 0), (0, 2, 0, 3)], ∃ s d img,
    Commits .pcie .SVC_FW_CMD 0 0 (go 0x20000000 30 30 1) s d img ∧ SVC_FW_CMD.SLOT.of img = 1 ∧ fwRun d = x.1 ∧ rget (slotField 1) 0 0 d = x.2.1 ∧
    flag SVC_FW_STAT.SWITCHING 0 0 d = (x.2.2.1 == 1) ∧ rget MEM_GRANTr.OWNER 0 (64 + 4 * 1 + 0) d = x.2.2.2 ∧ ∀ j < 4, j ≠ 0 → rget MEM_GRANTr.OWNER 0 (64 + 4 * 1 + j) d = 0 := by
  intro x h
  refine ⟨slotB x.1 x.2.1 x.2.2.1 x.2.2.2, _, _, commits (by revert x; decide +kernel) (by revert x; decide +kernel), ?_⟩
  revert x; decide +kernel
theorem wit_Fw_switch : ∀ x ∈ [(none, 1, 0, false), (none, 1, 0, true), (some 0, 1, 1, true), (some 1, 2, 1, true), (some 0, 2, 1, false), (some 0, 1, 0, true)], ∃ s d, Runs 98 s d ∧
    d.svc.old = x.1 ∧ fwRun d = x.2.1 ∧ flag SVC_FW_STAT.SWITCHING 0 0 d = (x.2.2.1 == 1) ∧ d.svc.starting = x.2.2.2 ∧ d.svc.held = none ∧
    d.svc.switchAt + 100000000 = d.mono + b2n x.2.2.2 := by
  intro x h
  refine ⟨slotB x.2.1 2 x.2.2.1 0 (fun d => { d with mono := 100000000, svc := { d.svc with old := x.1, starting := x.2.2.2, switchAt := b2n x.2.2.2 } }), _, runs (by revert x; decide +kernel), ?_⟩
  revert x; decide +kernel

/-! Premises of the statements on the host interface. -/

/-- Ring n with CFG image rc, its CQ with CFG image qc; the host can be written and read where on is true; x is done. -/
def hif (n rc qc : Nat) (on : Bool) (x : Dev → Dev := id) : State := up [1, 2, 0x30] [32, 99, 101, 102] fun d =>
  x (rset HIF_LINK.BME 0 0 (b2n on) (rset HIF_LINK.SPEED 0 0 3 (loadImg .HIF_RINGn_CFG 0 n rc (loadImg .HIF_CQn_CFG 0 n qc d))))
/-- A CFG image: EN, SIZE_LOG2, BUF_LOG2, WDOG_MS. -/
def ringCfg (en size buf wd : Nat) : Nat := en * 2 ^ 31 + size * 2 ^ 24 + buf * 2 ^ 20 + wd
theorem wit_Ring_enable : (∀ on ∈ [true, false], ∀ x ∈ [(5, 11, 1), (17, 11, 1), (10, 11, 0)], ∃ s d img, Commits .pcie .HIF_RINGn_CFG 0 143 (force (BitVec.ofNat 32 (ringCfg 0 x.1 x.2.1 x.2.2)) [(31, 31, b2n on)]) s d img ∧
      HIF_RINGn_CFG.SIZE_LOG2.of img = x.1 ∧ HIF_RINGn_CFG.WDOG_MS.of img = x.2.2) ∧
    (∀ b ∈ [7, 15], ∃ s d img, Commits .pcie .HIF_RINGn_CFG 0 63 (force (BitVec.ofNat 32 (ringCfg 0 10 b 1)) [(31, 31, 1)]) s d img ∧ HIF_RINGn_CFG.BUF_LOG2.of img = b) ∧
    (∃ s d img, Commits .pcie .HIF_RINGn_CFG 0 143 (force (BitVec.ofNat 32 (ringCfg 0 10 11 1)) [(31, 31, 1)]) s d img ∧ flag HIF_RINGn_CFG.EN 0 143 d = false ∧
      flag HIF_CQn_CFG.EN 0 143 d = false) ∧
    (∃ s d img, Commits .pcie .HIF_RINGn_CFG 0 143 (force (BitVec.ofNat 32 (ringCfg 0 10 11 1)) [(31, 31, 1)]) s d img ∧ flag HIF_RINGn_CFG.EN 0 143 d = true ∧
      rget HIF_RINGn_CFG.SIZE_LOG2 0 143 d = 9) ∧
    ∀ on ∈ [true, false], ∀ en ∈ [0, 1], ∀ z ∈ [6, 16], ∃ s d img, Commits .pcie .HIF_RINGn_CFG 0 143 (force (BitVec.ofNat 32 (ringCfg 0 z 11 1)) [(31, 31, b2n on)]) s d img ∧
      flag HIF_RINGn_CFG.EN 0 143 d = (en == 1) ∧ HIF_RINGn_CFG.SIZE_LOG2.of img = z ∧ rget HIF_RINGn_CFG.SIZE_LOG2 0 143 d = z ∧ HIF_RINGn_CFG.BUF_LOG2.of img = rget HIF_RINGn_CFG.BUF_LOG2 0 143 d ∧
      flag HIF_CQn_CFG.EN 0 143 d = true := by
  refine ⟨fun on h x k => ⟨hif 143 (ringCfg 0 10 11 1) 0 true, _, _, commits (by decide +kernel) (by decide +kernel), ?_⟩,
    fun b h => ⟨hif 63 (ringCfg 0 10 11 1) 0 true, _, _, commits (by decide +kernel) (by decide +kernel), ?_⟩,
    ⟨hif 143 (ringCfg 0 10 11 1) (ringCfg 0 10 0 0) true, _, _, commits (by decide +kernel) (by decide +kernel), by decide +kernel⟩,
    ⟨hif 143 (ringCfg 1 9 11 1) (ringCfg 1 10 0 0) true, _, _, commits (by decide +kernel) (by decide +kernel), by decide +kernel⟩,
    fun on h en k z l => ⟨hif 143 (ringCfg en z 11 1) (ringCfg 1 10 0 0) true, _, _, commits (by revert en z; decide +kernel) (by revert en z; decide +kernel), ?_⟩⟩
  · revert on x; decide +kernel
  · revert b; decide +kernel
  · revert on en z; decide +kernel
theorem wit_Doorbell : (∃ s d img, Commits .pcie .HIF_RINGn_TAIL 0 143 64 s d img ∧ HIF_RINGn_TAIL.TAIL.of img = ringSize 143 d) ∧
    ∀ x ∈ [(0, 63), (1, 63), (1, 0), (2, 0), (2, 63), (3, 63)], ∃ s d img, Commits .pcie .HIF_RINGn_TAIL 0 143 x.2 s d img ∧ HIF_RINGn_TAIL.TAIL.of img = x.2 ∧ x.2 < ringSize 143 d ∧
      ringState 143 d = x.1 ∧ ringHead 143 d = 0 := by
  refine ⟨⟨hif 143 (ringCfg 1 6 11 1) 0 true, _, _, commits (by decide +kernel) (by decide +kernel), by decide +kernel⟩,
    fun x h => ⟨hif 143 (ringCfg 1 6 11 1) 0 true (rset HIF_RINGn_STAT.STATE 0 143 x.1), _, _, commits (by revert x; decide +kernel) (by revert x; decide +kernel), ?_⟩⟩
  revert x; decide +kernel
theorem wit_Cq_enable : (∀ on ∈ [true, false], ∀ z ∈ [5, 17], ∃ s d img, Commits .pcie .HIF_CQn_CFG 0 143 (force (BitVec.ofNat 32 (ringCfg 0 z 0 511)) [(31, 31, b2n on)]) s d img ∧
      HIF_CQn_CFG.SIZE_LOG2.of img = z) ∧
    (∃ s d img, Commits .pcie .HIF_CQn_CFG 0 143 (force (BitVec.ofNat 32 (ringCfg 0 6 0 511)) [(31, 31, 0)]) s d img ∧ flag HIF_CQn_CFG.EN 0 143 d = true ∧
      rget HIF_CQn_CFG.SIZE_LOG2 0 143 d = 6 ∧ flag HIF_RINGn_CFG.EN 0 143 d = true) ∧
    (∃ s d img, Commits .pcie .HIF_CQn_CFG 0 143 (force (BitVec.ofNat 32 (ringCfg 0 7 0 511)) [(31, 31, 1)]) s d img ∧ flag HIF_CQn_CFG.EN 0 143 d = true ∧
      rget HIF_CQn_CFG.SIZE_LOG2 0 143 d = 6) ∧
    ∀ on ∈ [true, false], ∀ en ∈ [0, 1], ∀ z ∈ [6, 16], ∃ s d img, Commits .pcie .HIF_CQn_CFG 0 143 (force (BitVec.ofNat 32 (ringCfg 0 z 0 511)) [(31, 31, b2n on)]) s d img ∧
      flag HIF_CQn_CFG.EN 0 143 d = (en == 1) ∧ HIF_CQn_CFG.SIZE_LOG2.of img = z ∧ rget HIF_CQn_CFG.SIZE_LOG2 0 143 d = z ∧ flag HIF_RINGn_CFG.EN 0 143 d = false := by
  refine ⟨fun on h z k => ⟨hif 143 0 0 true, _, _, commits (by decide +kernel) (by decide +kernel), ?_⟩,
    ⟨hif 143 (ringCfg 1 6 11 1) (ringCfg 1 6 0 0) true, _, _, commits (by decide +kernel) (by decide +kernel), by decide +kernel⟩,
    ⟨hif 143 0 (ringCfg 1 6 0 0) true, _, _, commits (by decide +kernel) (by decide +kernel), by decide +kernel⟩,
    fun on h en k z l => ⟨hif 143 0 (ringCfg en z 0 0) true, _, _, commits (by revert en z; decide +kernel) (by revert en z; decide +kernel), ?_⟩⟩
  · revert on z; decide +kernel
  · revert on en z; decide +kernel
theorem wit_Cq_head : ∀ x ∈ [(64, 63), (6, 5), (5, 5), (2 ^ 31 + 5, 5)], ∃ s d img, Commits .pcie .HIF_CQn_HEAD 0 143 x.1 s d img ∧ HIF_CQn_HEAD.HEAD.of img = x.1 % 2 ^ 16 ∧
    HIF_CQn_HEAD.ARM.on img = (x.1 / 2 ^ 31 == 1) ∧ 2 ^ rget HIF_CQn_CFG.SIZE_LOG2 0 143 d = 64 ∧ rget HIF_CQn_TAIL.TAIL 0 143 d = x.2 ∧ rget HIF_CQn_HEAD.HEAD 0 143 d = 0 := by
  intro x h
  refine ⟨hif 143 0 (ringCfg 1 6 0 0) true (rset HIF_CQn_TAIL.TAIL 0 143 x.2), _, _, commits (by revert x; decide +kernel) (by revert x; decide +kernel), ?_⟩
  revert x; decide +kernel
theorem wit_Cq_notify : ∀ x ∈ [(0, 0), (15, 7999), (16, 0), (1, 8000)], ∃ s d, Runs 99 s d ∧ flag HIF_CQn_CFG.EN 0 143 d = true ∧ flag HIF_CQn_STAT.ARMED 0 143 d = true ∧
    rget HIF_CQn_STAT.UNANN 0 143 d = x.1 ∧ d.mono = x.2 ∧ rget HIF_CQn_MOD.CNT 0 143 d = 16 ∧ rget HIF_CQn_MOD.TIME_US 0 143 d = 8 ∧ rget HIF_CQn_MOD.MAX_US 0 143 d = 100 := by
  intro x h
  refine ⟨hif 143 0 (ringCfg 1 6 0 511) true (fun d => rset HIF_CQn_STAT.ARMED 0 143 1 (rset HIF_CQn_STAT.UNANN 0 143 x.1 { d with mono := x.2 })), _, runs (by revert x; decide +kernel), ?_⟩
  revert x; decide +kernel

/-- Ring 63 in state st with one buffer, and a packet of 60 bytes on its way to it, in cell 5. -/
def punting (st : Nat) (on : Bool) (x : Dev → Dev := id) : State := hif 63 (ringCfg 1 6 8 1) (ringCfg 1 6 0 0) on fun d => x (rset HIF_RINGn_STAT.STATE 0 63 st (rset HIF_RINGn_TAIL.TAIL 0 63 1
  (rset TMS_PORTn_EQ.EQ_BASE 0 128 0x20000 (loadImg .CHK_POOLn_CFG 0 0 (one 64) (onTm (fun t => { t with hostOut := [(0x2003F, { head := 5, tag := 0x801, len := 60 })] })
    (onChk (fun c => { c with cells := [(5, { used 0x801 1 with data := List.replicate 60 0 })] }) d))))))
/-- The packet. -/
def punted : Nat × Desc := (0x2003F, { head := 5, tag := 0x801, len := 60 })
theorem wit_Punt : (∃ s d, Runs 99 s d ∧ (d.tm.hostOut.find? fun e => puntRing e.1 d == some 63) = none) ∧
    (∀ x ∈ [(0, true), (1, true), (2, false)], ∃ s d, Runs 99 s d ∧ (d.tm.hostOut.find? fun e => puntRing e.1 d == some 63) = some punted ∧ ringState 63 d = x.1 ∧ dmaOn d = x.2) ∧
    ∀ b ∈ [[], [5]], ∃ s d, Runs 99 s d ∧ (d.tm.hostOut.find? fun e => puntRing e.1 d == some 63) = some punted ∧ dmaOn d = true ∧ ringState 63 d = 2 ∧ cqRoom 63 d = true ∧
      puntBufs 63 60 d = 1 ∧ ringHeld 63 d = 1 ∧ rget HIF_RINGn_CFG.SIZE_LOG2 0 63 d = 6 ∧
      decide ((readChain .host punted.2 { d with tm := { d.tm with hostOut := d.tm.hostOut.erase punted } }).1 = 0) = b.isEmpty := by
  refine ⟨⟨hif 63 0 0 true, _, runs (by decide +kernel), by decide +kernel⟩, fun x h => ⟨punting x.1 x.2, _, runs (by revert x; decide +kernel), ?_⟩,
    fun b h => ⟨punting 2 true (onChk fun c => { c with badData := b }), _, runs (by revert b; decide +kernel), ?_⟩⟩
  · revert x; decide +kernel
  · revert b; decide +kernel
/-- An inject descriptor of n bytes that ends its packet. -/
def injDesc (n : Nat) : Nat := 2 ^ 95 + n * 2 ^ 64
theorem wit_Inject : (∃ s d, Runs 99 s d ∧ dmaOn d = false) ∧
    (∀ n ∈ [0, 13, 14, 16383], ∃ s d, Runs 99 s d ∧ dmaOn d = true ∧ ringState 127 d = 2 ∧ cqRoom 127 d = true ∧ injWhole [injDesc n] = true ∧ injLen (injDesc n) = n ∧ ringHeld 127 d = 1 ∧
      rget HIF_RINGn_CFG.SIZE_LOG2 0 127 d = 6 ∧ fifoBytes 32 d = 16385 ∧ look d.srcCache 128 [] ≠ []) := by
  refine ⟨⟨hif 127 (ringCfg 1 6 8 1) (ringCfg 1 6 0 0) false, _, runs (by decide +kernel), by decide +kernel⟩, fun n h => ⟨hif 127 (ringCfg 1 6 8 1) (ringCfg 1 6 0 0) true (fun d =>
      rset HIF_RINGn_STAT.STATE 0 127 2 (rset HIF_RINGn_TAIL.TAIL 0 127 1 (setFifo 32 [{ port := 240, bytes := List.replicate 16385 0 }] { d with srcCache := [(128, [9])] }))), _, runs (by revert n; decide +kernel), ?_⟩⟩
  revert n; decide +kernel
theorem wit_Host_error : ∀ n ∈ [(127 : Fin 144), 128, 143], ∀ st ∈ [0, 2], ∀ x ∈ [(0, true), (14, true), (6, false)], ∃ s d, Runs 99 s d ∧ alive d = true ∧ dmaOn d = true ∧
    ringState n.val d = st ∧ cqRoom n.val d = true ∧ readFails (.timeout 17000000000) d = (x.1 == 14) ∧ readFails .unsupported d = true := by
  intro n h st k x l
  refine ⟨hif n.val (ringCfg 1 6 8 1) (ringCfg 1 6 0 0) true (fun d => rset HIF_RINGn_STAT.STATE 0 n.val st { d with hif := { d.hif with cto := x.1 } }), _,
    runs (by revert n st x; decide +kernel), ?_⟩
  revert n st x; decide +kernel

/-- A DMA descriptor: OP op, LOCK_SEL sel with CHECK, MEM m, index i, COUNT c, device address a, R words w. -/
def dmaDesc (op sel m i c a w : Nat) : BitVec 256 := BitVec.ofNat 256 (op * 2 ^ 28 + sel * 2 ^ 24 + 2 ^ 23 + m * 2 ^ 18 + i * 2 ^ 8 + c * 2 ^ 32 + 64 * 2 ^ 64 + a * 2 ^ 192 + w * 2 ^ 248)
/-- Channel 15 works where on is true. -/
def channel (on : Bool) (x : Dev → Dev := id) : State := up [1, 4] [99] fun d => x (rset HIF_LINK.BME 0 0 (b2n on) (rset HIF_LINK.SPEED 0 0 3 (loadImg .HIF_RINGn_CFG 0 143 (ringCfg 1 16 8 1)
  (loadImg .HIF_CQn_CFG 0 143 (ringCfg 1 6 0 0) (rset HIF_RINGn_STAT.STATE 0 143 2 d)))))
/-- The channel works, and its registers keep within their widths. -/
abbrev Works (s : State) (d : Dev) : Prop := Runs 99 s d ∧ dmaReady 15 d = true ∧ ringHead (128 + 15) d < 2 ^ 16 ∧ rget HIF_RINGn_CFG.SIZE_LOG2 0 (128 + 15) d = 16 ∧
  find? d.hif.prog 15 = none ∧ ∀ r < 95, flag MEM_GRANTr.PENDING 0 r d = false
/-- SPN_PPS_IN_CORR. -/
def corr : Nat := Reg.addr .SPN_PPS_IN_CORR 0 0
/-- The word of SPN_ADJ that holds its GO. -/
def adjGo : Nat := Reg.addr .SPN_ADJ 0 0 + 4 * (Reg.lay .SPN_ADJ).words - 4
theorem wit_Dma_record : ∀ x ∈ [(corr, 5, false), (adjGo, 2 ^ 31, true)], ∃ s d, Works s d ∧ dmaOp (dmaDesc 0 0 0 0 1 x.1 1).toNat = 0 ∧ dmaBad (dmaDesc 0 0 0 0 1 x.1 1).toNat = false ∧
    dmaPending (dmaDesc 0 0 0 0 1 x.1 1).toNat d = false ∧ dmaResAddr (dmaDesc 0 0 0 0 1 x.1 1).toNat = 0 ∧ dmaDev (dmaDesc 0 0 0 0 1 x.1 1).toNat = x.1 ∧
    recBusy (dmaDesc 0 0 0 0 1 x.1 1).toNat (writeCode (.dma 15) x.1 x.2.1 d).2 = x.2.2 ∧ ringHead (128 + 15) (writeCode (.dma 15) x.1 x.2.1 d).2 < 2 ^ 16 := by
  intro x h
  have w : Works (channel true) (ungate 99 (channel true).dev) := ⟨runs (by decide +kernel), by decide +kernel⟩
  refine ⟨channel true, _, w, ?_⟩
  clear w
  revert x; decide +kernel
theorem wit_Dma_pending : ∃ s d, Runs 99 s d ∧ dmaReady 15 d = true ∧ dmaPending (dmaDesc 3 0 1 63 8 262136 0).toNat d = true :=
  ⟨channel true (rset MEM_GRANTr.PENDING 0 63 1), _, runs (by decide +kernel), by decide +kernel⟩
theorem wit_Dma_forms : (∃ s d, Runs 99 s d ∧ dmaReady 15 d = false) ∧ (∃ s d, Works s d) ∧
    (∀ op ∈ [0, 1, 2, 3, 4], ∃ x : BitVec 256, dmaOp x.toNat = op ∧ dmaBad x.toNat = true) ∧ (∃ x : BitVec 256, dmaOp x.toNat = 15 ∧ dmaBad x.toNat = true) ∧
    (∀ op ∈ [0, 1, 2], dmaOp (dmaDesc op 0 0 0 1 corr 1).toNat = op ∧ dmaBad (dmaDesc op 0 0 0 1 corr 1).toNat = false ∧ dmaSel (dmaDesc op 0 0 0 1 corr 1).toNat = 0 ∧
      dmaCount (dmaDesc op 0 0 0 1 corr 1).toNat = 1 ∧ dmaRwords (dmaDesc op 0 0 0 1 corr 1).toNat = 1 ∧ dmaResAddr (dmaDesc op 0 0 0 1 corr 1).toNat = 0) ∧
    (∀ op ∈ [3, 4], dmaOp (dmaDesc op 0 1 63 8 262136 0).toNat = op ∧ dmaBad (dmaDesc op 0 1 63 8 262136 0).toNat = false ∧ dmaMem (dmaDesc op 0 1 63 8 262136 0).toNat = 1 ∧
      dmaCount (dmaDesc op 0 1 63 8 262136 0).toNat = 8 ∧ dmaIdx (dmaDesc op 0 1 63 8 262136 0).toNat = 63) := by
  refine ⟨⟨channel false, _, runs (by decide +kernel), by decide +kernel⟩, ⟨channel true, _, runs (by decide +kernel), by decide +kernel⟩, fun op h => ⟨dmaDesc op 12 0 0 1 0 1, ?_⟩,
    ⟨dmaDesc 15 0 0 0 1 0 1, by decide +kernel⟩, by decide +kernel, by decide +kernel⟩
  revert op; decide +kernel
theorem wit_Dma_lock : ∃ s d r i, Works s d ∧ dmaLockOf (dmaSel (dmaDesc 1 11 0 0 1 corr 1).toNat) = some (r, i) ∧ dmaOp (dmaDesc 1 11 0 0 1 corr 1).toNat = 1 ∧
    dmaBad (dmaDesc 1 11 0 0 1 corr 1).toNat = false ∧ bit (dmaDesc 1 11 0 0 1 corr 1).toNat 23 = true ∧ (dmaNeed (dmaDesc 1 11 0 0 1 corr 1).toNat 1).2 = 0 ∧
    lockHolder r i d ≠ 0 ∧ lockHolder r i d ≠ 0xF100 + 15 :=
  ⟨channel true (rset ⟨.NHT_LOCK, 0, 16⟩ 0 0 7), _, .NHT_LOCK, 0, ⟨runs (by decide +kernel), by decide +kernel⟩, by decide +kernel⟩
theorem wit_Dma_words : (∃ s d, Works s d ∧ (writeCode (.dma 15) corr 5 d).1 = 0 ∧ ringHead (128 + 15) (writeCode (.dma 15) corr 5 d).2 < 2 ^ 16 ∧
      rget HIF_RINGn_CFG.SIZE_LOG2 0 (128 + 15) (writeCode (.dma 15) corr 5 d).2 ≤ 16 ∧ ringHead (128 + 15) (doRead (.dma 15) corr d).2 < 2 ^ 16) ∧
    (∃ s d, Works s d ∧ (writeCode (.dma 15) (corr + 0x8000) 5 d).1 ≠ 0) ∧
    ∀ o ∈ [1, 2], ∃ s d, Works s d ∧ hostMay 63 d = (o == 1) ∧ retainedAt 63 d = 0 ∧ (cluster 63 d).badScratch = [] := by
  refine ⟨⟨channel true, _, ⟨runs (by decide +kernel), by decide +kernel⟩, by decide +kernel⟩, ⟨channel true, _, ⟨runs (by decide +kernel), by decide +kernel⟩, by decide +kernel⟩,
    fun o h => ⟨channel true (rset MEM_GRANTr.OWNER 0 63 o), _, ⟨runs (by revert o; decide +kernel), ?_⟩, ?_⟩⟩ <;> revert o <;> decide +kernel
theorem wit_Dma_watchdog : dmaBad (dmaDesc 2 0 0 0 2 corr 1).toNat = false ∧ dmaCount (dmaDesc 2 0 0 0 2 corr 1).toNat = (1 : BitVec 32).toNat + 1 ∧
    (dmaNeed (dmaDesc 2 0 0 0 2 corr 1).toNat 1).2 = 1 ∧
    ∀ late ∈ [0, 1], look (channel true fun d => { d with hif := { d.hif with chAt := [(15, late)], dmaNs := 1000000 } }).dev.hif.chAt 15 0 +
      rget HIF_RINGn_CFG.WDOG_MS 0 (128 + 15) (channel true).dev * 1000000 = 1000000 + late := by decide +kernel

theorem wit_Pcie : (∃ s : State, alive s.dev = false) ∧ (∀ v ∈ [0, 3], ∃ s : State, alive s.dev = true ∧ rget HIF_LINK.SPEED 0 0 s.dev = v ∧ s.dev.sys.ctlRun = none) ∧
    (∀ p ∈ [2, 3], ∃ s d, Runs 99 s d ∧ phase d = p ∧ d.sys.jtagStop = false ∧ bit d.sys.refs 8 = true ∧ rget HIF_LINK.SPEED 0 0 d = 0) ∧
    ∀ v ∈ [0, 3], ∃ s d, Runs 99 s d ∧ rget HIF_LINK.DSTATE 0 0 d = v := by
  refine ⟨⟨State.reset, by decide +kernel⟩, fun v h => ⟨up [] [] (rset HIF_LINK.SPEED 0 0 v), ?_⟩, fun p h => ⟨up [] [99] (rset GLB_BOOT.PHASE 0 0 p), _, runs (by revert p; decide +kernel), ?_⟩,
    fun v h => ⟨up [] [99] (rset HIF_LINK.DSTATE 0 0 v), _, runs (by revert v; decide +kernel), ?_⟩⟩
  · revert v; decide +kernel
  · revert p; decide +kernel
  · revert v; decide +kernel

/-! Premises of the statements on management and events. -/

/-- The I3C target with a dynamic address where da is 1 and ENINT ei; x is done. -/
def i3c (da ei : Nat) (x : Dev → Dev := id) : State := up [2, 3, 5] [99, 100] fun d => x (rset MGT_STAT.DA_VALID 0 0 da (rset MGT_STAT.ENINT 0 0 ei d))
theorem wit_I3c : (∃ s d, Runs 99 s d ∧ hasDa d = false) ∧ (∃ s d, Runs 99 s d ∧ alive d = true ∧ hasDa d = true ∧ d.sys.ctlRun = none ∧ 9 ≤ d.i3c.mwl ∧ 5 ≤ d.i3c.mrl) ∧
    (∀ a ∈ [Reg.addr .MGT_CFG 0 0, 0], i3cWrites a = (a != 0)) ∧
    ∀ p ∈ [0, 0x10], ∃ s d, Runs 99 s d ∧ alive d = true ∧ hasDa d = true ∧ d.sys.ctlRun = none ∧ d.i3c.readAddr = p * 65536 ∧ i3cReads (d.i3c.readAddr / 65536) = (p == 0) := by
  refine ⟨⟨i3c 0 0, _, runs (by decide +kernel), by decide +kernel⟩, ⟨i3c 1 0, _, runs (by decide +kernel), by decide +kernel⟩, by decide +kernel,
    fun p h => ⟨i3c 1 0 (fun d => { d with i3c := { d.i3c with readAddr := p * 65536 } }), _, runs (by revert p; decide +kernel), ?_⟩⟩
  revert p; decide +kernel
theorem wit_Ibi : ∀ x ∈ [(1, []), (0, [[0, 1]]), (1, [[0, 1]])], ∀ late ∈ [0, 1], ∃ s d, Runs 99 s d ∧ hasDa d = (x.1 == 1) ∧ flag MGT_STAT.ENINT 0 0 d = true ∧
    d.i3c.ibi = x.2 ∧ d.i3c.ibiAt + 100000 = d.mono + late := by
  intro x h late k
  refine ⟨i3c x.1 1 (fun d => { d with mono := 100000, i3c := { d.i3c with ibi := x.2, ibiAt := late } }), _, runs (by revert x late; decide +kernel), ?_⟩
  revert x late; decide +kernel
theorem wit_Ccc : ∀ da ∈ [0, 1], ∃ s d, Runs 99 s d ∧ hasDa d = (da == 1) ∧ rget MGT_STAT.DA 0 0 d = 0 := by
  intro da h
  refine ⟨i3c da 0, _, runs (by revert da; decide +kernel), ?_⟩
  revert da; decide +kernel
theorem wit_Rstact : ∀ x ∈ [(0, 1), (1, 1), (2, 0), (2, 1)], ∃ s d, Runs 99 s d ∧ rget MGT_STAT.RSTACT 0 0 d = x.1 ∧ flag MGT_CFG.RST_EN 0 0 d = (x.2 == 1) ∧ alive d = true ∧
    d.sys.ctlRun = none := by
  intro x h
  refine ⟨i3c 0 0 (fun d => rset MGT_STAT.RSTACT 0 0 x.1 (rset MGT_CFG.RST_EN 0 0 x.2 d)), _, runs (by revert x; decide +kernel), ?_⟩
  revert x; decide +kernel
theorem wit_Rst_req : ∀ req ∈ [Requester.pcie, .i3c], ∀ e ∈ [0, 1], ∃ s d img, Commits req .MGT_RST_REQ 0 0 0xC7 s d img ∧ flag MGT_CFG.RST_EN 0 0 d = (e == 1) ∧ d.sys.ctlRun = none := by
  intro req h e k
  refine ⟨i3c 1 0 (rset MGT_CFG.RST_EN 0 0 e), _, _, commits (by revert req e; decide +kernel) (by revert req e; decide +kernel), ?_⟩
  revert req e; decide +kernel
/-- Group 63 asks for vector 511: requested where rq is true, ACTIVE where ac is, its gap running where gp is; page 0 of it is pending where pe is. -/
def group (rq ac gp pe : Bool) (x : Dev → Dev := id) : State := up [2, 0] [99] fun d => x (loadImg .EVT_GRPg_CFG 0 63 (2 ^ 31 + 2 ^ 30 + 5 * 2 ^ 16 + 511)
  (setFace 0 { face 0 d with vgroup := 63, mask := 0, pend := b2n pe } { d with evt := { d.evt with
    req := b2n rq * 2 ^ 63, active := b2n ac * 2 ^ 63, gap := b2n gp * 2 ^ 63, msixEn := true, vmask := 0, raised := b2n pe * 2 ^ 63 } }))
theorem wit_Msix : (∃ s d, Runs 99 s d ∧ d.evt.decided = none ∧ bitsOf 512 (requested d) = []) ∧ (∃ s d, Runs 99 s d ∧ d.evt.decided = some d.hwd.aonNs) ∧
    (∃ s d, Runs 99 s d ∧ d.evt.decided = none ∧ bitsOf 512 (requested d) = [511] ∧ sendable 511 d = true ∧ flag HIF_LINK.LP 0 0 d = false ∧ rget HIF_LINK.SPEED 0 0 d ≠ 0 ∧ bit d.evt.req 63 = true ∧
      grpVector 63 d = 511) ∧
    ∀ bme ∈ [0, 1], ∃ s d, Runs 99 s d ∧ d.evt.decided = none ∧ bitsOf 512 (requested d) = [511] ∧ sendable 511 d = false ∧ heldByMask 511 d = (bme == 1) ∧
      ∀ g < 64, bit d.evt.req g = true → bit (raisedGroups d) g = true := by
  refine ⟨⟨group false false false true, _, runs (by decide +kernel), by decide +kernel⟩,
    ⟨group false false false true (onEvt fun e => { e with decided := some 0 }), _, runs (by decide +kernel), by decide +kernel⟩,
    ⟨group true false false true (fun d => rset HIF_LINK.BME 0 0 1 (rset HIF_LINK.SPEED 0 0 3 d)), _, runs (by decide +kernel), by decide +kernel⟩,
    fun bme h => ⟨group true false false true (fun d => rset HIF_LINK.BME 0 0 bme { d with evt := { d.evt with fmask := true } }), _, runs (by revert bme; decide +kernel), ?_⟩⟩
  revert bme; decide +kernel
theorem wit_Gap : ∀ late ∈ [0, 1], ∃ s d, Runs 99 s d ∧ rget EVT_GRPg_CFG.GAP_US 0 63 d = 5 ∧ look d.evt.gapAt 63 0 + rget EVT_GRPg_CFG.GAP_US 0 63 d * 1000 = d.mono + late := by
  intro late h
  refine ⟨group false true true true (fun d => { d with mono := 5000, evt := { d.evt with gapAt := [(63, late)] } }), _, runs (by revert late; decide +kernel), ?_⟩
  revert late; decide +kernel
theorem wit_Groups : ∀ ac ∈ [true, false], ∀ pe ∈ [true, false], (∃ s d, Runs 99 s d ∧ bit d.evt.active 63 = ac ∧ bit d.evt.gap 63 = true ∧ bit (raisedGroups d) 63 = pe ∧
      flag EVT_GRPg_CFG.MSIX 0 63 d = true ∧ look d.evt.gapAt 63 0 + rget EVT_GRPg_CFG.GAP_US 0 63 d * 1000 ≤ d.mono) ∧
    ∃ s d img, Commits .pcie .EVT_EOI 0 0 63 s d img ∧ EVT_EOI.GROUP.of img = 63 ∧ bit d.evt.active 63 = ac ∧ bit d.evt.gap 63 = false ∧ bit (raisedGroups d) 63 = pe ∧
      flag EVT_GRPg_CFG.MSIX 0 63 d = true := by
  intro ac h pe k
  refine ⟨⟨group false ac true pe (fun d => { d with mono := 5000 }), _, runs (by revert ac pe; decide +kernel), ?_⟩, group false ac false pe, _, _, commits (by revert ac pe; decide +kernel) (by revert ac pe; decide +kernel), ?_⟩ <;>
    revert ac pe <;> decide +kernel
theorem wit_Queries : (∃ s d img, Commits .pcie .EVT_QUERY 0 0 63 s d img) ∧ ∀ pe ∈ [true, false], ∃ s : State, Taken .pcie s ∧
    (let d := reached Pg.EVT s
     (allPages.find? fun p => decide (0 ≤ p) && (face p d).vgroup == 63 && pageRaised p d) = (if pe then some 0 else none) ∧ look d.evt.cursors (reqIndex .pcie) (0, 0) = (63, 0)) := by
  refine ⟨⟨group false false false true, _, _, commits (by decide +kernel) (by decide +kernel)⟩,
    fun pe h => ⟨group false false false pe (fun d => { d with evt := { d.evt with cursors := [(2, (63, 0))] } }), taken (by revert pe; decide +kernel), ?_⟩⟩
  revert pe; decide +kernel
theorem wit_Group_repeat : ∀ pe ∈ [true, false], ∃ s d, Runs 99 s d ∧ bit (raisedGroups d) 63 = pe ∧ flag EVT_GRPg_CFG.I3C 0 63 d = true ∧ hasDa d = true ∧
    flag MGT_STAT.ENINT 0 0 d = true ∧ look d.evt.i3cAt 63 0 + 1000000 = d.mono ∧
    ∃ s d, Runs 99 s d ∧ bit (raisedGroups d) 63 = true ∧ d.mono < look d.evt.i3cAt 63 0 + 1000000 := by
  intro pe h
  refine ⟨group false false false pe (fun d => rset MGT_STAT.DA_VALID 0 0 1 (rset MGT_STAT.ENINT 0 0 1 { d with mono := 1000000 })), _, runs (by revert pe; decide +kernel), ?_⟩
  rw [← and_assoc, ← and_assoc, ← and_assoc, ← and_assoc]
  refine ⟨by revert pe; decide +kernel, group false false false true, _, runs (by decide +kernel), by decide +kernel⟩
/-- Entry 63 has deadline t, the AON time is 40 ns; the host is in D-state ds with BME bm, LP lp and SPEED sp. -/
def watch (t : Option Nat) (ds bm lp sp : Nat) (pme : Bool) (x : Dev → Dev := id) : State := up [3] [99, 100] fun d => x (rset HIF_LINK.DSTATE 0 0 ds (rset HIF_LINK.BME 0 0 bm (rset HIF_LINK.LP 0 0 lp
  (rset HIF_LINK.SPEED 0 0 sp (onEvt (fun e => { e with msixEn := true }) (onAon (fun a => { a with pmeEn := pme, deadline := t.toList.map fun t => (63, t) })
    { d with hwd := { d.hwd with aonNs := 40 } }))))))
theorem wit_Watch : (∃ s d, Runs 100 s d ∧ find? d.aon.deadline 63 = none) ∧ (∃ s d t, Runs 100 s d ∧ find? d.aon.deadline 63 = some t ∧ aonRound d.hwd.aonNs + 1 = t) ∧
    (∀ x ∈ [(0, 0, 0), (0, 1, 1), (0, 1, 0), (3, 0, 0), (3, 0, 1)], ∀ pme ∈ [true, false], ∃ s d t, Runs 100 s d ∧ find? d.aon.deadline 63 = some t ∧ t = aonRound d.hwd.aonNs ∧
      rget HIF_LINK.DSTATE 0 0 d = x.1 ∧ flag HIF_LINK.BME 0 0 d = (x.2.1 == 1) ∧ d.evt.msixEn = true ∧ flag HIF_LINK.LP 0 0 d = (x.2.2 == 1) ∧ d.aon.pmeEn = pme ∧
      (∀ g < 64, bit (raisedGroups d) g = false)) ∧
    ∃ s d t, Runs 100 s d ∧ find? d.aon.deadline 63 = some t ∧ t ≤ aonRound d.hwd.aonNs ∧ rget HIF_LINK.DSTATE 0 0 d = 0 ∧ flag HIF_LINK.BME 0 0 d = true ∧ d.evt.msixEn = true ∧
      rget CLK_ISLn.STATE 0 99 d = 3 := by
  refine ⟨⟨watch none 0 0 0 3 false, _, runs (by decide +kernel), by decide +kernel⟩, ⟨watch (some 41) 0 0 0 3 false, _, 41, runs (by decide +kernel), by decide +kernel⟩,
    fun x h pme k => ⟨watch (some 40) x.1 x.2.1 x.2.2 3 pme, _, 40, runs (by revert x pme; decide +kernel), ?_⟩,
    watch (some 40) 0 1 0 3 false (rset CLK_ISLn.STATE 0 99 3), _, 40, runs (by decide +kernel), by decide +kernel⟩
  revert x pme; decide +kernel

/-! Premises of the statements on counters, the ledger, regions and the vault. -/

/-- The counters of page 0xE0 with words ws, bad words b and captures c. -/
def cnt (ws : Tbl Nat) (b : List Nat) (c : List Capture) (x : Dev → Dev := id) : State := up [0xE0] [102] fun d => x { d with cnt := { words := ws, bad := b, caps := c } }
theorem wit_Pairs : ∀ op ∈ [0, 1, 2], ∃ s d img, Commits .pcie .CNT_ACC 0 0 (go 0x1FFFFF 30 29 op) s d img ∧ d.cnt.caps = [] ∧ CNT_ACC.INDEX.of img = 2097151 ∧
    2 * CNT_ACC.INDEX.of img ∉ d.cnt.bad ∧ 2 * CNT_ACC.INDEX.of img + 1 ∉ d.cnt.bad ∧ cntWord (2 * CNT_ACC.INDEX.of img) d = 2 ^ 64 - 1 ∧
    cntWord (2 * CNT_ACC.INDEX.of img + 1) d = 5 := by
  intro op h
  refine ⟨cnt [(4194302, 2 ^ 64 - 1), (4194303, 5)] [] [], _, _, commits (by revert op; decide +kernel) (by revert op; decide +kernel), ?_⟩
  revert op; decide +kernel
theorem wit_Snap_cmd : (∃ s d img, Commits .pcie .CNT_SNAP_CMD 0 0 (force 3 [(31, 31, 1)]) s d img ∧ ∃ k ∈ d.cnt.caps, k.set &&& CNT_SNAP_CMD.SET.of img ≠ 0) ∧
    (∃ s d img, Commits .pcie .CNT_SNAP_CMD 0 0 (force 1 [(31, 31, 1)]) s d img ∧ flag CNT_SNAP_CMD.GO 0 0 d = true ∧ d.cnt.caps ≠ [] ∧
      ∀ k ∈ d.cnt.caps, k.set &&& CNT_SNAP_CMD.SET.of img = 0) ∧
    ∀ en ∈ [0, 1], ∃ s d img, Commits .pcie .CNT_SNAP_CMD 0 0 (force 3 [(31, 31, 1)]) s d img ∧ d.cnt.caps = [] ∧ flag CNT_SNAP_CMD.GO 0 0 d = false ∧ CNT_SNAP_CMD.SET.of img = 3 ∧
      flag CNT_SNAP_CFG.EN 0 0 d = (en == 1) ∧ flag CNT_SNAP_CFG.PORT_EN 0 0 d = (en == 1) := by
  refine ⟨⟨cnt [] [] [{ set := 2, t := 0 }], _, _, commits (by decide +kernel) (by decide +kernel), by decide +kernel⟩,
    ⟨cnt [] [] [{ set := 2, t := 0, byCmd := true }] (rset CNT_SNAP_CMD.GO 0 0 1), _, _, commits (by decide +kernel) (by decide +kernel), by decide +kernel⟩,
    fun en h => ⟨cnt [] [] [] (fun d => rset CNT_SNAP_CFG.EN 0 0 en (rset CNT_SNAP_CFG.PORT_EN 0 0 en d)), _, _, commits (by revert en; decide +kernel) (by revert en; decide +kernel), ?_⟩⟩
  revert en; decide +kernel
theorem wit_Snap_done : (∃ s d, Runs 102 s d ∧ d.cnt.caps = []) ∧ ∀ b ∈ [true, false], ∃ s d c, Runs 102 s d ∧ d.cnt.caps = [c] ∧ c.frozen = b ∧ c.byCmd = b ∧ d.cnt.bad = [] ∧ c.set = 1 ∧ c.copied = [] ∧
    (snapSrc d).1 + (snapSrc d).2 = snapDest d ∧ (snapSrc d).2 = 4 := by
  refine ⟨⟨cnt [] [] [], _, runs (by decide +kernel), by decide +kernel⟩, fun b h => ⟨cnt [] [] [{ set := 1, t := 5, frozen := b, byCmd := b }] (fun d => rset CNT_SNAP_CFG.COUNT 0 0 4
      (rset CNT_SNAP_CFG.DEST 0 0 4 d)), _, { set := 1, t := 5, frozen := b, byCmd := b }, runs (by revert b; decide +kernel), ?_⟩⟩
  revert b; decide +kernel
theorem wit_Perf : ∀ p ∈ [Page.evt, .cnt], ∃ s : State, Taken .pcie s ∧ (face (pageNum p) (reached (pageNum p) s)).ready = true ∧
    s.dev.evt.raised = raisedGroups s.dev ∧ s.dev.evt.alertN = false ∧ flag EVT_ALERT.EN 0 0 s.dev = false ∧ s.dev.evt.req = 0 ∧
    (perfOf (pageNum p) (reached (pageNum p) s)).ctrs.length = 8 := by
  intro p h
  refine ⟨up [2, 0xE0] [99, 102], taken (by decide +kernel), ?_⟩
  revert p; decide +kernel

/-- The Heartwood with its own state as f and firmware where run is 1. -/
def hwd (run : Nat) (f : Hwd → Hwd) (x : Dev → Dev := id) : State := up [6] [98, 100] fun d => x (rset SVC_FW_STAT.RUN 0 0 run { d with hwd := f d.hwd })
theorem wit_Totals : (∀ v ∈ [true, false], ∀ late ∈ [0, 1], ∃ s d, Runs 100 s d ∧ d.sys.vddAon = v ∧ d.hwd.lastSec + 1000000000 = d.hwd.aonNs + late ∧
      d.hwd.tempAt + 1000000000 = d.hwd.aonNs + late) ∧ ∃ s d img, Commits .pcie .HWD_FLUSH 0 0 (force 0 [(31, 31, 1)]) s d img :=
  ⟨fun v h late k => ⟨hwd 0 (fun w => { w with aonNs := 1000000000, lastSec := late, tempAt := late }) (fun d => { d with sys := { d.sys with vddAon := v } }), _,
      runs (by revert v late; decide +kernel), by revert v late; decide +kernel⟩,
    hwd 0 id, _, _, commits (by decide +kernel) (by decide +kernel)⟩
theorem wit_Records_close : (∀ b ∈ [true, false], ∃ s d, Runs 100 s d ∧ d.hwd.remap = [] ∧ d.hwd.hourDue = b ∧ d.hwd.dayDue = b ∧ rget HWD_PTR.HOURLY_NEXT 0 0 d = 719 ∧ rget HWD_PTR.DAILY_NEXT 0 0 d = 7304) ∧
    ∃ s d img, Commits .pcie .HWD_UTC 0 0 0 s d img ∧ d.hwd.logInSec < 1000 :=
  ⟨fun b h => ⟨hwd 0 (fun w => { w with hourDue := b, dayDue := b }) (fun d => rset HWD_PTR.HOURLY_NEXT 0 0 719 (rset HWD_PTR.DAILY_NEXT 0 0 7304 d)), _,
      runs (by revert b; decide +kernel), by revert b; decide +kernel⟩,
    hwd 0 id, _, _, commits (by decide +kernel) (by decide +kernel), by decide +kernel⟩
theorem wit_Island_aging : ∀ x ∈ [(0, ([] : Tbl Nat)), (1, []), (1, [(127, 1000000)])], ∃ s d, Runs 98 s d ∧ fwRun d = x.1 ∧ d.hwd.baseline = x.2 ∧ rget HWD_AGE_ALARM.PPM 0 0 d = 30000 := by
  intro x h
  refine ⟨hwd x.1 (fun w => { w with baseline := x.2 }), _, runs (by revert x; decide +kernel), ?_⟩
  revert x; decide +kernel
theorem wit_Scan : ∀ x ∈ [(0, 447), (1, 1023), (1, 1024)], ∃ s d, Runs 98 s d ∧ fwRun d = x.1 ∧ d.hwd.nextSpare = x.2 ∧ look d.hwd.corrected 1023 0 = 15 := by
  intro x h
  refine ⟨hwd x.1 (fun w => { w with nextSpare := x.2, corrected := [(1023, 15)] }), _, runs (by revert x; decide +kernel), ?_⟩
  revert x; decide +kernel
theorem wit_Window : (∃ s : State, Taken .pcie s ∧ rget HWD_WIN_ADDR.BYTE 0 0 (reached Pg.HWD s) = 2 ^ 22 - 8) ∧ ∀ b ∈ [0xF8, 0x100, 0x138, 0x140], ∃ s d img,
    Commits .pcie .HWD_WIN_DATA 0 0 1 s d img ∧ rget HWD_WIN_ADDR.BYTE 0 0 d = b := by
  refine ⟨⟨hwd 0 id (rset HWD_WIN_ADDR.BYTE 0 0 (2 ^ 22 - 8)), taken (by decide +kernel), by decide +kernel⟩,
    fun b h => ⟨hwd 0 id (rset HWD_WIN_ADDR.BYTE 0 0 b), _, _, commits (by revert b; decide +kernel) (by revert b; decide +kernel), ?_⟩⟩
  revert b; decide +kernel

/-- Region r belongs to o and is tested where t is 1, with firmware where run is 1; page 0x7F is enabled where en is true. -/
def regions (r o t run : Nat) (en : Bool) : State := up [0xF0] [99] fun d => rset MEM_GRANTr.OWNER 0 r o (rset MEM_GRANTr.TESTING 0 r t (rset SVC_FW_STAT.RUN 0 0 run
  (setFace 0x7F { face 0x7F d with en := en } d)))
theorem wit_Grant : ∀ x ∈ [(63, 4, 1, 0, 0, 1, true), (63, 2, 1, 0, 0, 1, true), (64, 1, 0, 0, 0, 0, true), (64, 2, 0, 0, 1, 0, true), (63, 3, 1, 1, 0, 1, true), (63, 3, 1, 0, 0, 2, true), (63, 3, 1, 0, 0, 1, true),
      (63, 3, 1, 0, 0, 1, false), (87, 3, 0, 0, 0, 0, true)],
    ∃ (r : Fin 88) (s : State) (d : Dev) (img : Nat), r.val = x.1 ∧ Commits .pcie .MEM_GRANTr 0 r.val (x.2.1 + x.2.2.2.2.2.1 * 2 ^ 16) s d img ∧ MEM_GRANTr.OWNER.of img = x.2.1 ∧
      MEM_GRANTr.EXPECT.of img = x.2.2.2.2.2.1 ∧ regionOwner r.val d = x.2.2.1 ∧ flag MEM_GRANTr.TESTING 0 r.val d = (x.2.2.2.1 == 1) ∧ fwRun d = x.2.2.2.2.1 ∧
      blkEn (Pg.ENG + 63) d = x.2.2.2.2.2.2 ∧ busyOf (Pg.ENG + 63) d = false := by
  intro x h
  refine ⟨⟨x.1 % 88, Nat.mod_lt _ (by decide)⟩, regions x.1 x.2.2.1 x.2.2.2.1 x.2.2.2.2.1 x.2.2.2.2.2.2, _, _, ?_,
    commits (by revert x; decide +kernel) (by revert x; decide +kernel), ?_⟩ <;> revert x <;> decide +kernel
theorem wit_Region_test : (∀ x ∈ [(87, 1, 0), (63, 1, 0), (87, 0, 0), (60, 3, 0), (0, 0, 1)], ∃ s d img, Commits .pcie .MEM_TEST_CTRL 0 0 (force (BitVec.ofNat 32 (x.1 + x.2.1 * 2 ^ 8)) [(31, 31, 1)]) s d img ∧
      MEM_TEST_CTRL.FIRST.of img = x.1 ∧ MEM_TEST_CTRL.COUNT_M1.of img = x.2.1 ∧ rget MEM_TEST_STAT.STATE 0 0 d = x.2.2) ∧
    ∀ st ∈ [0, 1], ∃ s d, Runs 99 s d ∧ rget MEM_TEST_STAT.STATE 0 0 d = st ∧ d.banks.testCount = 4 := by
  refine ⟨fun x h => ⟨up [0xF0] [99] (rset MEM_TEST_STAT.STATE 0 0 x.2.2), _, _, commits (by revert x; decide +kernel) (by revert x; decide +kernel), ?_⟩,
    fun st h => ⟨up [0xF0] [99] (fun d => rset MEM_TEST_STAT.STATE 0 0 st { d with banks := { d.banks with testCount := 4 } }), _, runs (by revert st; decide +kernel), ?_⟩⟩
  · revert x; decide +kernel
  · revert st; decide +kernel
/-- The vault with slots l, an import i under way and lifecycle lc; the tamper flag is t; the host can be read where on is 1. -/
def vault (l : Tbl Bytes) (i : Option Bool) (lc t on : Nat) (x : Dev → Dev := id) : State := up [7] [98] fun d => x (rset VLT_STAT.LC 0 0 lc (rset VLT_STAT.TAMPER 0 0 t (rset HIF_LINK.BME 0 0 on
  (rset HIF_LINK.SPEED 0 0 3 { d with vlt := { slots := l, importing := i } }))))
theorem wit_Vault_commands : (∀ op ∈ [0, 1, 2], ∃ s d img, Commits .pcie .VLT_CMD 0 0 (go 0 30 29 op) s d img ∧ flag VLT_CMD.GO 0 0 d = true) ∧
    (∀ x ∈ [(0, 1, 0), (3, 0, 0x10000000), (2, 0, 0), (2, 0, 0x10000000), (1, 0, 0)], ∃ s d img, Commits .pcie .VLT_CMD 0 0 (go (BitVec.ofNat 32 x.2.2) 30 29 0) s d img ∧ flag VLT_CMD.GO 0 0 d = false ∧
      rget VLT_STAT.LC 0 0 d = x.1 ∧ flag VLT_STAT.TAMPER 0 0 d = (x.2.1 == 1) ∧ VLT_CMD.FORMAT.on img = (x.2.2 != 0)) ∧
    ∀ op ∈ [1, 2], ∀ h ∈ [0, 1, 32767], ∃ s d img, Commits .pcie .VLT_CMD 0 0 (go (BitVec.ofNat 32 h) 30 29 op) s d img ∧ flag VLT_CMD.GO 0 0 d = false ∧ VLT_CMD.HANDLE.of img = h ∧
      has d.vlt.slots h = (h == 32767) := by
  refine ⟨fun op h => ⟨vault [] none 0 0 1 (rset VLT_CMD.GO 0 0 1), _, _, commits (by revert op; decide +kernel) (by revert op; decide +kernel), ?_⟩,
    fun x h => ⟨vault [] none x.1 x.2.1 1, _, _, commits (by revert x; decide +kernel) (by revert x; decide +kernel), ?_⟩,
    fun op h k l => ⟨vault [(32767, [1])] none 0 0 1, _, _, commits (by revert op k; decide +kernel) (by revert op k; decide +kernel), ?_⟩⟩
  · revert op; decide +kernel
  · revert x; decide +kernel
  · revert op k; decide +kernel
/-- An AES key object of 32 bytes. -/
def keyObject : Bytes := [1, 32, 0, 0] ++ List.replicate 32 7 ++ List.replicate 28 0
/-- Every handle is used. -/
def fullVault : Tbl Bytes := full 32768 []
/-- A wrapped import ends by what the opaque Config.unwrap answers: its premises on the state are met. -/
theorem wit_Vault_import : (∃ s d, Runs 98 s d ∧ d.vlt.importing = none) ∧ (∃ s d, Runs 98 s d ∧ dmaOn d = false) ∧
    (∀ x ∈ [(some false, 2), (some true, 3), (some false, 0), (some true, 2)], ∃ s d, Runs 98 s d ∧ d.vlt.importing = x.1 ∧ dmaOn d = true ∧ rget VLT_STAT.LC 0 0 d = x.2 ∧
      lowestFree d.vlt.slots 1 32767 = some 2) ∧
    (objectOk (keyObject.take 64) = true ∧ objectOk ((0 :: keyObject).take 64) = false) ∧
    (lowestFree fullVault 1 32767 = none ∧ ∃ s d, Runs 98 s d ∧ d.vlt.importing = some false ∧ dmaOn d = true ∧ importBar false d = 0 ∧ d.vlt.slots = fullVault) := by
  refine ⟨⟨vault [] none 0 0 1, _, runs (by decide +kernel), by decide +kernel⟩, ⟨vault [] none 0 0 0, _, runs (by decide +kernel), by decide +kernel⟩,
    fun x h => ⟨vault [(1, [])] x.1 x.2 0 1, _, runs (by revert x; decide +kernel), ?_⟩, by decide +kernel,
    full_none _ _ _ _ (by omega), vault fullVault (some false) 0 0 1, _, runs (by decide +kernel), by decide +kernel, by decide +kernel, by decide +kernel, rfl⟩
  revert x; decide +kernel
theorem wit_Lifecycle : ∀ x ∈ [(false, 0x4C43, 1), (true, 0x4C44, 1), (true, 0x4C43, 0), (true, 0x4C43, 3)], ∃ s d img,
    Commits .pcie .VLT_LC 0 0 (force (BitVec.ofNat 32 (x.2.1 + x.2.2 * 2 ^ 16)) [(31, 31, 1)]) s d img ∧ expertOf Pg.VLT d = x.1 ∧ VLT_LC.KEY.of img = x.2.1 ∧
    lcLegal (rget VLT_STAT.LC 0 0 d) (VLT_LC.TARGET.of img) = (x.2.2 != 0) := by
  intro x h
  refine ⟨vault [] none 0 0 1 (fun d => setFace 7 { face 7 d with expert := x.1 } d), _, _, commits (by revert x; decide +kernel) (by revert x; decide +kernel), ?_⟩
  revert x; decide +kernel
theorem wit_Tamper : (∃ s : State, porHeld s.dev = true) ∧ ∀ t ∈ [true, false], ∀ done ∈ [true, false], ∀ late ∈ [0, 1], ∃ s : State, porHeld s.dev = false ∧
    s.dev.sys.tamperPin = t ∧ s.dev.sys.tamperDone = done ∧ s.dev.sys.tamperAt + 1000 = s.dev.hwd.aonNs + late :=
  ⟨⟨State.reset, by decide +kernel⟩, fun t h done k late l => ⟨vault [] none 0 0 1 (fun d => { d with
      sys := { d.sys with tamperPin := t, tamperDone := done, tamperAt := late }, hwd := { d.hwd with aonNs := 1000 } }), by revert t done late; decide +kernel⟩⟩

/-! Premises of the statements on bring-up. -/

/-- CLK and LPG 0 are enabled, en of the latter as given; island n is in state st, with STOP where stop is 1. -/
def isles (n st stop : Nat) (en : Bool) (x : Dev → Dev := id) : State := up [9] [99] fun d =>
  x (rset CLK_ISLn.STATE 0 n st (rset CLK_ISLn.STOP 0 n stop (setFace 0x10 { face 0x10 d with en := en } d)))
theorem wit_Islands : (∀ x ∈ [(99, 2, 0, false), (100, 2, 0, false), (101, 2, 0, false), (0, 2, 0, true), (0, 4, 1, false), (0, 2, 0, false), (127, 0, 0, false)],
      ∃ (n : Fin 128) (s : State) (d : Dev) (img : Nat), n.val = x.1 ∧ Commits .pcie .CLK_ISLn 0 n.val (force 0 [(31, 31, 1)]) s d img ∧
        ((∃ p ∈ islPages n.val, blkEn p d = true ∨ busyOf p d = true) ∨ x ≠ (0, 2, 0, true)) ∧
        ((∀ p ∈ islPages n.val, blkEn p d = false ∧ busyOf p d = false) ∨ x.2.2.2 = true ∨ 99 ≤ x.1 ∧ x.1 ≤ 101) ∧
        flag CLK_ISLn.STOP 0 n.val d = (x.2.2.1 == 1) ∧ islState n.val d = x.2.1) ∧
    (∀ st ∈ [2, 4], ∃ s d img, Commits .pcie .CLK_ISLn 0 0 (force 0 [(31, 31, 0)]) s d img ∧ islState 0 d = st) ∧
    (∀ late ∈ [0, 1], ∃ s : State, 0 ∈ s.dev.sys.isl1us ∧ flag CLK_ISLn.STOP 0 0 s.dev = true ∧ look s.dev.sys.islAt 0 0 + 1000 = s.dev.hwd.aonNs + late) ∧
    (∃ s : State, ¬(0 ∈ s.dev.sys.isl1us ∧ flag CLK_ISLn.STOP 0 0 s.dev = true)) ∧
    (∃ s : State, islOn 127 s.dev = true ∧ islOn 0 s.dev = false) ∧
    (∀ x ∈ [(5, 1, true), (5, 0, true), (5, 0, false), (4, 0, true)], ∃ s : State, islState 0 s.dev = x.1 ∧ flag CLK_ISLn.STOP 0 0 s.dev = (x.2.1 == 1) ∧ bit s.dev.sys.refs 9 = x.2.2) ∧
    ∀ x ∈ [(0, false), (0, true), (2, true)], ∀ c ∈ [RefClk.sys, .pcie, .line 3, .fab 3], ∃ s : State, bit s.dev.sys.refs (refBit c) = x.2 ∧ islState 99 s.dev = x.1 := by
  refine ⟨fun x h => ⟨⟨x.1 % 128, Nat.mod_lt _ (by decide)⟩, isles x.1 x.2.1 x.2.2.1 x.2.2.2, _, _, ?_, commits (by revert x; decide +kernel) (by revert x; decide +kernel), ?_⟩,
    fun st h => ⟨isles 0 st 0 false, _, _, commits (by revert st; decide +kernel) (by revert st; decide +kernel), ?_⟩,
    fun late h => ⟨isles 0 4 1 false (fun d => { d with sys := { d.sys with isl1us := [0], islAt := [(0, late)] }, hwd := { d.hwd with aonNs := 1000 } }), ?_⟩, ⟨isles 0 4 1 false, by decide +kernel⟩,
    ⟨isles 127 2 0 false, by decide +kernel⟩,
    fun x h => ⟨isles 0 x.1 x.2.1 false (fun d => { d with sys := { d.sys with refs := if x.2.2 then 0x3FF else 0x1FF } }), ?_⟩,
    fun x h c k => ⟨isles 99 x.1 0 false (fun d => { d with sys := { d.sys with refs := if x.2 then 0x3FF else 0 } }), ?_⟩⟩
  · revert x; decide +kernel
  · revert x; decide +kernel
  · revert st; decide +kernel
  · revert late; decide +kernel
  · revert x; decide +kernel
  · revert x c; decide +kernel
/-- The device of system state y. -/
def sysIs (y : Sys) : State := up [] [] fun d => { d with sys := y }
theorem wit_Reset_triggers : (∃ s : State, s.dev.sys.porPin = true ∧ s.dev.sys.vddAon = false ∧ s.dev.sys.vddIo = false ∧ s.dev.sys.chipPin = true ∧ s.dev.sys.trip = true) ∧
    (∀ a ∈ [true, false], ∀ c ∈ [0, 3], ∃ s : State, s.dev.sys.porPin = false ∧ s.dev.sys.vddAon = true ∧ s.dev.sys.vddIo = true ∧ s.dev.sys.chipPin = false ∧
      s.dev.sys.trip = false ∧ alive s.dev = a ∧ s.dev.sys.chipCause = c) ∧
    (∀ a ∈ [true, false], ∃ s : State, alive s.dev = a ∧ porHeld s.dev = false ∧ s.dev.sys.trip = false ∧ s.dev.sys.chipPin = true ∧
      resetHeld { s.dev with sys := { s.dev.sys with chipPin := false } } = false) ∧
    (∃ s : State, s.dev.sys.porPin = true ∧ resetHeld { s.dev with sys := { s.dev.sys with porPin := false, rails := true } } = true) ∧
    (∀ x ∈ [(false, true), (true, true), (false, false)], ∀ late ∈ [0, 1], ∃ s : State, s.dev.sys.trip = true ∧ s.dev.sys.tripAt + 10000000 = s.dev.hwd.aonNs + late ∧ alive s.dev = x.1 ∧ resetHeld { s.dev with sys := { s.dev.sys with trip := false } } = x.2) ∧
    ((114 : BitVec 8).toInt < 115 ∧ 115 ≤ (115 : BitVec 8).toInt ∧ (0xFF : BitVec 8).toInt < 115) ∧ ∀ p ∈ [true, false], ∃ s : State, porHeld s.dev = p :=
  ⟨⟨sysIs { porPin := true, vddAon := false, vddIo := false, chipPin := true, trip := true }, by decide +kernel⟩,
    fun a h c k => ⟨sysIs { porPin := false, chipHold := !a, chipCause := c }, by revert a c; decide +kernel⟩,
    fun a h => ⟨sysIs { porPin := false, chipHold := !a, chipPin := true }, by revert a; decide +kernel⟩,
    ⟨sysIs { chipPin := true }, by decide +kernel⟩,
    fun x h late k => ⟨up [] [] fun d => { d with sys := { porPin := x.2, chipHold := !x.1, trip := true, tripAt := late }, hwd := { d.hwd with aonNs := 10000000 } },
      by revert x late; decide +kernel⟩, by decide +kernel,
    fun p h => ⟨sysIs { porPin := p }, by revert p; decide +kernel⟩⟩
theorem wit_Control_reset : (∃ s : State, s.dev.sys.ctlPin = true) ∧
    (∀ a ∈ [true, false], ∃ s : State, s.dev.sys.ctlPin = false ∧ alive s.dev = a ∧ s.dev.sys.ctlRun = none ∧ 0x10 ∈ keys s.dev.faces) ∧
    (∃ s d img, Commits .pcie .GLB_RST 0 0 0x52530001 s d img ∧ d.sys.ctlRun = none) ∧
    (∃ s d img, Commits .pcie .GLB_RST 0 0 0x52530002 s d img ∧ resetHeld d = false) ∧
    ∀ x ∈ [(none, false), (some 0, true), (some 0, false), (some 2, false)], ∃ s : State, s.dev.sys.ctlRun = x.1 ∧ s.dev.sys.ctlPin = x.2 ∧ s.dev.hif.ctlHeld = [] :=
  ⟨⟨sysIs { ctlPin := true }, by decide +kernel⟩, fun a h => ⟨up [0x10] [] fun d => { d with sys := { d.sys with chipHold := !a } }, by revert a; decide +kernel⟩,
    ⟨up [0] [99], _, _, commits (by decide +kernel) (by decide +kernel), by decide +kernel⟩, ⟨up [0] [99], _, _, commits (by decide +kernel) (by decide +kernel), by decide +kernel⟩,
    fun x h => ⟨up [] [] fun d => { d with sys := { d.sys with ctlRun := x.1, ctlPin := x.2 } }, by revert x; decide +kernel⟩⟩
/-- Start-up in phase p with the steps of mask k ended; the reference clocks are r, and the lifecycle fuses lc. -/
def boot (p k : Nat) (r : Nat := 0x3FF) (lc : Nat := 0) : State := up [] [] fun d => rset GLB_BOOT.PHASE 0 0 p { d with sys := { d.sys with steps := k, refs := r, lc := lc } }
theorem wit_Start_up : (∀ lc ∈ [3, 4], ∃ s : State, phase s.dev = 1 ∧ stepDone 2 s.dev = false ∧ s.dev.sys.lc = lc ∧ s.dev.sys.badPages = []) ∧
    (∃ s : State, phase s.dev = 1 ∧ stepDone 2 s.dev = true) ∧
    (∃ s : State, phase s.dev = 2 ∧ bit s.dev.sys.refs 9 = true) ∧ (∃ s : State, phase s.dev = 2 ∧ bit s.dev.sys.refs 9 = false) ∧
    (∀ k ∈ [4, 5, 8], (∃ s : State, phase s.dev = 3 ∧ stepDone k s.dev = false) ∧ ∃ s : State, phase s.dev = 3 ∧ stepDone k s.dev = true) ∧
    (∀ r ∈ [0x3FF, 0x3FE], ∃ s : State, phase s.dev = 3 ∧ (∀ k ∈ [4, 5, 6, 7, 8], stepDone k s.dev = true) ∧ bit s.dev.sys.refs 0 = (r == 0x3FF)) ∧
    ∃ s : State, phase s.dev = 3 ∧ stepDone 7 s.dev = false :=
  ⟨fun lc h => ⟨boot 1 0 0x3FF lc, by revert lc; decide +kernel⟩, ⟨boot 1 4, by decide +kernel⟩, ⟨boot 2 4, by decide +kernel⟩, ⟨boot 2 4 0x1FF, by decide +kernel⟩,
    fun k h => ⟨⟨boot 3 0, by revert k; decide +kernel⟩, ⟨boot 3 0x1F0, by revert k; decide +kernel⟩⟩,
    fun r h => ⟨boot 3 0x1F0 r, by revert r; decide +kernel⟩, ⟨boot 3 0x170, by decide +kernel⟩⟩
theorem wit_Pins : (∀ p ∈ [true, false], ∃ s : State, porHeld s.dev = p) ∧
    (∀ x ∈ [(3, true), (3, false), (0, false)], ∃ s d, Runs 99 s d ∧ rget HIF_LINK.SPEED 0 0 d = x.1 ∧ d.aon.pmeWait = x.2) ∧
    (∀ f ∈ [none, some { bytes := [1] }, some { bytes := [1], bad := true }], ∃ (n : Fin 128) (s : State) (d : Dev), Line n.val s d ∧ (Machine.port n.val d).txNow = f ∧ d.sys.rails = true) ∧
    ∀ x ∈ [(1, 3), (1, 4), (0, 0)], ∃ (st : Fin 4) (k : Fin 32) (bank : BitVec 7) (s : State) (d : Dev), Runs (103 + st.val) s d ∧ rget HBM_TRAIN_STAT.STEP st.val 0 d = x.1 ∧
      look d.hbm.postponed ((32 * st.val + k.val) * 128 + bank.toNat) 0 = x.2 := by
  refine ⟨fun p h => ⟨sysIs { porPin := p }, by revert p; decide +kernel⟩,
    fun x h => ⟨up [] [99] (fun d => rset HIF_LINK.SPEED 0 0 x.1 { d with aon := { d.aon with pmeWait := x.2 } }), _, runs (by revert x; decide +kernel), ?_⟩,
    fun f h => ⟨127, up [] [31] (fun d => setPort 127 { Machine.port 127 d with txNow := f } d), _, line (by revert f; decide +kernel) (by revert f; decide +kernel), ?_⟩,
    fun x h => ⟨3, 31, 127, up [] [106] (fun d => rset HBM_TRAIN_STAT.STEP 3 0 x.1 { d with hbm := { d.hbm with postponed := put d.hbm.postponed 16383 0 x.2 } }), _,
      runs (by revert x; decide +kernel), ?_⟩⟩
  · revert x; decide +kernel
  · revert f; decide +kernel
  · revert x; decide +kernel

/-! Premises of the statements on the whole machine. -/

theorem wit_Evt : EvtTrue State.reset.dev ∧ (∃ t, step State.reset = .next t) ∧ ∃ s t : State, EvtTrue s.dev ∧ s.pending ≠ [] ∧ step s = .next t :=
  ⟨⟨by decide +kernel, by decide +kernel⟩, ⟨_, rfl⟩, { State.reset with pending := [.porNRelease] }, _, ⟨by decide +kernel, by decide +kernel⟩, by decide, rfl⟩
theorem wit_Idle : (∃ s : State, s.pending = [] ∧ porHeld s.dev = true) ∧ ∀ on ∈ [true, false], ∃ s : State, s.pending = [] ∧ porHeld s.dev = false ∧ islOn 99 s.dev = on :=
  ⟨⟨State.reset, by decide +kernel⟩, fun on h => ⟨up [] (if on then [99] else []), by revert on; decide +kernel⟩⟩

/-! Small tests of the behaviour. Expected values come from the spec: most from its worked examples, the rest by hand from its rules. -/

/-- Whether command c in state s leaves a device that passes t. -/
def gives (c : Instr) (s : State) (t : Dev → Bool) : Bool := match exec c s with | .next x => t x.dev | _ => false

-- chapter 2, example under R42: the expert unlock of the CHK page
theorem test_key_first : gives (.fpKeyWrite .pcie .chk 0xB0A1) (up [0x90] []) (fun e => (face 0x90 e).key == .armed && (face 0x90 e).window == 64) = true := by decide +kernel
theorem test_key_second : gives (.fpKeyWrite .pcie .chk 0x1A0B) (up [0x90] [] fun d => setFace 0x90 { face 0x90 d with key := .armed, window := 24 } d)
    (fun e => (face 0x90 e).key == .unlocked && (face 0x90 e).window == 64) = true := by decide +kernel
theorem test_expert_set : gives (.fpCtrlWrite .pcie .chk 0x13) (up [0x90] [] fun d => setFace 0x90 { face 0x90 d with key := .unlocked, window := 64 } d)
    (fun e => (face 0x90 e).key == .idle && (face 0x90 e).expert && (face 0x90 e).en && (face 0x90 e).lowpwr) = true := by decide +kernel
theorem test_expert_locked : gives (.fpCtrlWrite .pcie .chk 0x13) (up [0x90] []) (fun e => !(face 0x90 e).expert && (face 0x90 e).errCode == 1 && (face 0x90 e).errOfs == 2) = true := by decide +kernel
-- R30 and R33: a bad access is counted
theorem test_unmapped : gives (.unmappedAccess .pcie 0xFFF0000 none) (up [0] []) (fun e => rget GLB_BAD_ACCESS.COUNT 0 0 e == 1) = true := by decide +kernel
-- chapter 18, example: MEM_GRANT5 stands at 0x00F0_0118
theorem test_grant_address : Reg.addr .MEM_GRANTr 0 5 = 0x00F00118 := by decide

-- R103: both hash vectors, and the steps of the first
theorem test_hash_tcp : hashWords 0 [0xC000020A, 0xC6336414, 0xC00001BB, 0x06010000] = 0x5441095B := by decide +kernel
theorem test_hash_icmp : hashWords 0 [0x0A000001, 0x0A000002, 0, 0x01010000] = 0x4D14FA6C := by decide +kernel
/-- Bytes of numerals. -/
def octets (l : List Nat) : Bytes := l.map (BitVec.ofNat 8)
/-- The VXLAN frame of the example after R103. -/
def vxlanFrame : Bytes := octets ([2, 0, 0, 0, 0, 1, 2, 0, 0, 0, 0, 2, 0x81, 0, 0, 5, 8, 0] ++
  [0x45, 0, 1, 26, 0, 0, 0, 0, 64, 17, 0x65, 0xD1, 10, 0, 0, 1, 10, 0, 0, 2] ++ [0xC0, 0, 18, 181, 1, 6, 0, 0] ++ [8, 0, 0, 0, 0, 0, 9, 0] ++
  [2, 0, 0, 0, 0, 3, 2, 0, 0, 0, 0, 4, 8, 0] ++ [0x45, 0, 0, 232, 0, 0, 0, 0, 64, 6, 0x8D, 0xBE, 192, 0, 2, 10, 198, 51, 100, 20] ++
  [0xC0, 0, 1, 0xBB, 0, 0, 0, 0, 0, 0, 0, 0, 0x50, 0, 0, 0, 0, 0, 0, 0]) ++ List.replicate 192 0
/-- Its parse. -/
def vxlanParse : Parse := parsePacket { vxlan := 4789 } vxlanFrame 1
theorem test_parse_slots : vxlanParse.final = [(0, 0x01), (14, 0x08), (18, 0x18), (38, 0x21), (46, 0x29), (54, 0x01), (68, 0x18), (88, 0x20)] := by decide +kernel
theorem test_parse_start : vxlanParse.pstart = 108 ∧ packetHash vxlanFrame vxlanParse true 0 = 0x5441095B := by decide +kernel

-- chapter 5, example: ECMP member 2 of 8 is member entry 1,002
theorem test_ecmp : nhtResolve 9 0x5441095B 0 { State.reset.dev with tab := { nht := [(7, 2 ^ 30 + 5), (9, 2 * 2 ^ 30), (2 ^ 21, 2 ^ 63 + 7 * 2 ^ 57 + 1000 * 2 ^ 36), (2 * 2 ^ 21 + 1002, 7)] } } = .ok 7 5 := by decide +kernel
-- chapter 5, example: learning arbitration on device 5, table 1
/-- Its events: port and time. -/
def learn (p t : Nat) : LrnEv := ⟨1, 0x000C001B44113AB7, 5, p, t⟩
/-- The device in which they arrive. -/
def learner : Dev := (up [0x50, 0x58] [] (rset LRN_FLAP.MOVES 0 0 4)).dev
/-- The devices after the events. -/
def learner1 : Dev := (arbitrate false (learn 17 1000250) learner).2
theorem test_learn_install : (arbitrate false (learn 17 1000250) learner).1 = .changed ∧ (arbitrate false (learn 42 1000180) learner1).1 = .loser ∧
    (arbitrate false (learn 42 1000250) learner1).1 = .loser ∧ (arbitrate false (learn 42 1002000) learner1).1 = .changed := by decide +kernel

-- chapter 6, example: group 3 of bank A with BASE 4, DEPTH 2, REPL 4
/-- The group. -/
def group3 : Group := ⟨true, false, 1, 4, 2, 4⟩
theorem test_tcam_place : tcamCell group3 2 9000 = 9 * 8192 + 808 ∧ tcamIdx group3 9000 = 41768 := by decide
/-- Its two entries in every replica. -/
def prefixes : Dev := tcamStore group3 12500 { valid := true, key := 0xC6330000 * 2 ^ 288, mask := 0xFFFF0000 * 2 ^ 288 }
  (tcamStore group3 9000 { valid := true, key := 0xC6336400 * 2 ^ 288, mask := 0xFFFFFF00 * 2 ^ 288 } (up [] []).dev)
theorem test_tcam_search : let r := (tcamSearch 0 3 (0xC6336414 * 2 ^ 288) group3 prefixes).1
    r.1.map (·.1) = some 9000 ∧ r.2 = true := by decide +kernel
-- chapter 6, example: pick of the symbol 0x1234 by the selector 0x0F0F
theorem test_pick : pickBits 0x1234 0x0F0F = 0x24 := by decide +kernel

-- chapter 7, example: IPv4 forwarding
theorem test_csum : csum16 0x4006B1E6 0x0100 = 0xB2E6 ∧ csum16 0xFF20 0x0100 = 0x0021 := by decide +kernel
theorem test_slot_ldh : (mSlot 0x0C408008 false (fun r => if r = 1 then 14 else 0)).map (·.1) = some (.ldh 4 22 4) := by decide +kernel
theorem test_slot_bbs : (cSlot 0x10638005 0x102 (fun r => if r = 3 then 0x80 else 0) {}).map (·.1) = some (.jump 0x107) := by decide +kernel
theorem test_slot_sth : (mSlot 0x14808008 false (fun r => if r = 1 then 14 else 0)).map (·.1) = some (.sth 8 22 4) := by decide +kernel
-- chapter 7, example: a VXLAN encapsulation of a 300 B packet
theorem test_new_length : Pass.newLen { egress := true, bytes := List.replicate 300 0, l0 := 160, hstart := 46, hend := 256, bodyOfs := 160 } = 350 := by decide +kernel

-- chapter 9, example: pool 2 has one free cell and falls back to pool 3; the pointer stands at 12
/-- The Chuck of the example. -/
def twoPools : State := chk 2 (one 1) { fresh := 1, cache := [0x100] } [] fun d =>
  rset CHK_POOLn_CFG.FB_EN 0 2 1 (rset CHK_POOLn_CFG.FALLBACK 0 2 3 (loadImg .CHK_POOLn_CFG 0 3 (one 1)
    { d with chk := { d.chk with ptr := 12, pools := put d.chk.pools 3 {} { fresh := 1, cache := [0x200] } } }))
theorem test_fallback : gives (.allocCycle [] [] [⟨5, 2, 0x911⟩, ⟨20, 2, 0x400⟩]) twoPools (fun e => (cell 0x100 e).owner == 0x400 && (cell 0x200 e).owner == 0x911 &&
    (cell 0x200 e).pool == 3 && e.chk.ptr == 13 && ctr Pg.CHK 0x1010 e == 1) = true := by decide +kernel
-- chapter 10, example: the allocator's pointer stands at pseudo-channel 40, whose block index is 107,052, with BANKS 48
/-- The controllers of the example. -/
def spiller : Dev := (up [0xA0, 0xA1, 0xA2, 0xA3] [] fun d => rset HBM_PCk_STAT.STATE 1 8 0 (rset HBM_ID.BANKS 1 0 48 (rset HBM_ID.ROWS 1 0 32768
  { d with hbm := { d.hbm with ptr := 40, pcs := [(40, { hwm := 107052 })] } }))).dev
theorem test_spill_block : (allocBlock [] spiller).1 = some 0x1401A22C ∧ blockPlace 0x1401A22C spiller = (40 * 128 + 27, 557, 0) := by decide +kernel
-- chapter 11, example: WFQ at subscriber 300, decisions 1, 4, 7 and 8, the charges and the wake
theorem test_wfq_choice : (pickChild true 0 [(0, 0, 0, false), (1, 0, 0, false)]).map (·.1) = some 0 ∧ (pickChild true 0 [(0, 0, 32000, false), (1, 0, 32000, false)]).map (·.1) = some 0 ∧
    (pickChild true 0 [(0, 0, 64000, false), (1, 0, 64000, false), (2, 0, 48000, false)]).map (·.1) = some 2 ∧
    (pickChild true 0 [(0, 0, 64000, false), (1, 0, 64000, false), (2, 0, 80000, false)]).map (·.1) = some 0 := by decide +kernel
theorem test_wfq_charge : chargeFt 0 1000 4096 = 16000 ∧ chargeFt 32000 1000 2048 = 64000 ∧ wakeFt [48000, 0, 0, 0] 0 0 = 48000 := by decide +kernel
-- chapter 12, examples: the adjusted base time of a gate list, and MAXOPEN
theorem test_gate_base : rollForward (1700000200 * 10 ^ 9) 250000 (1700000200 * 10 ^ 9 + 500000000) = 1700000200 * 10 ^ 9 + 500250000 := by decide +kernel
/-- The list of the example. -/
def twoGates : GateList := { base := 0, cycle := 10000, list := [⟨0x80, 0, 500, false⟩, ⟨0x7F, 0, 9500, false⟩] }
theorem test_max_open : maxOpen twoGates 7 = some 500 ∧ maxOpen twoGates 0 = some 9500 := by decide +kernel
-- chapter 13, example: the first two cells of a stream of records of 92, 92 and 1,528 bytes
theorem test_cut : (let r := [92, 92, 1528].map fun n => ({ bytes := List.replicate n 0 } : TxRec)
    let a := cutStream 256 0 r
    let b := cutStream 256 0 a.2.2.1
    a.1.length == 256 && a.2.1 == some 0 && a.2.2.1.map (·.bytes.length) == [1456] && b.1.length == 256 && b.2.1 == none) = true := by decide +kernel
-- chapter 20, example: GLB_STRAP reads 0x0000_0C50 and the I3C static address is 0x65
theorem test_straps : gives (.fuseLoadDone true 0 0 [] (0x0C50, 0x0C50, 0)) (boot 1 0) (fun e => regImg .GLB_STRAP 0 0 e == 0x0C50 && rget MGT_STAT.STATIC 0 0 e == 0x65) = true := by decide +kernel
-- R26, R45, R67 and R436: one register effect each
theorem test_power : gives (.powerSample 400000 []) (up [0] [99] fun d => { d with hwd := { d.hwd with aonNs := 1000000 } }) (fun e => rget GLB_PWR_TOTAL.MW 0 0 e == 400000) = true := by decide +kernel
theorem test_mask_set : gives (.evtMaskSet .pcie .chk 4) (up [0x90] [] fun d => setFace 0x90 { face 0x90 d with mask := 1 } d) (fun e => (face 0x90 e).mask == 5) = true := by decide +kernel
theorem test_packet_time : pktTime 1700000000 5000048 = (1700000000 * 10 ^ 9 + 5000048) % 2 ^ 48 := by decide +kernel

/-! Well-formedness: for each check an ill-formed command that it refuses, and a well-formed one that it takes. -/

theorem test_wf_unaligned : Instr.wf (.registerWrite .pcie 0x0900102 0) = false ∧ Instr.wf (.lowestWordRead .pcie 0x0900101) = false ∧
    Instr.wf (.partialWrite .pcie 0x0900103) = false ∧ Instr.wf (.registerWrite .pcie 0x0900100 0) = true := by decide +kernel
theorem test_wf_staged : Instr.wf (.stagedWordWrite .pcie 0x000000C 0) = false ∧ Instr.wf (.stagedWordWrite .pcie (BitVec.ofNat 28 (Reg.addr .CHK_POOLn_CFG 0 0)) 0) = true ∧
    Instr.wf (.stagedWordWrite .pcie (BitVec.ofNat 28 (Reg.addr .CHK_POOLn_CFG 0 0 + 4)) 0) = false := by decide +kernel
theorem test_wf_unmapped : Instr.wf (.unmappedAccess .pcie 0x0900000 none) = false ∧ Instr.wf (.unmappedAccess .pcie 0xFFF0000 none) = true := by decide +kernel
theorem test_wf_oversize : Instr.wf (.oversizeRequest 0x0900000 true 16) = false ∧ Instr.wf (.oversizeRequest 0x0900000 true 17) = true ∧
    Instr.wf (.oversizeRequest 0x090FFFC false 2) = true := by decide +kernel
theorem test_wf_owner : Instr.wf (.ownerClaim .pcie (.face .glb) 0x31) = false ∧ Instr.wf (.ownerClaim .pcie (.face .spn) 0) = false ∧
    Instr.wf (.ownerRelease .pcie (.face .chk) 0x31) = false ∧ Instr.wf (.ownerRelease .pcie .syncOut 0) = false ∧ Instr.wf (.ownerClaim .pcie .syncOut 0x31) = true := by decide +kernel
theorem test_wf_frame : Instr.wf (.frameReceive 0 [] true none ⟨0, 0, 0⟩ 1 0 0 0) = false ∧ Instr.wf (.frameReceive 0 [1] true none ⟨0, 1000000000, 0⟩ 1 0 0 0) = false ∧
    Instr.wf (.frameTxStart 0 ⟨0, 1000000000, 0⟩ ⟨0, 0, 0⟩) = false ∧ Instr.wf (.frameTxStart 0 ⟨0, 0, 0⟩ ⟨0, 1000000000, 0⟩) = false ∧
    Instr.wf (.frameReceive 0 [1] true none ⟨0, 999999999, 0⟩ 1 0 0 0) = true := by decide +kernel
theorem test_wf_table_word : Instr.wf (.eccWriteback (.lpm 0 196608)) = false ∧ Instr.wf (.eccWriteback (.xmSlot 1 524288 0)) = false ∧
    Instr.wf (.eccWriteback (.nht 3 2097152)) = false ∧
    Instr.wf (.tableScrub .lpm 0 196608 0 .clean) = false ∧ Instr.wf (.tableScrub .lpm 15 196607 0 .clean) = true ∧
    Instr.wf (.tableScrub .xm 2 0 0 .clean) = false ∧ Instr.wf (.tableScrub .nht 3 2097151 0 .clean) = true := by decide +kernel
theorem test_wf_lock : Instr.wf (.lockClaim .pcie .nht 0) = false ∧ Instr.wf (.lockRelease .pcie .nht 0) = false ∧ Instr.wf (.lockClaim .pcie .nht 1) = true := by decide +kernel
theorem test_wf_cycle : Instr.wf (.allocCycle [] [] [⟨5, 0, 1⟩, ⟨5, 1, 2⟩]) = false ∧ Instr.wf (.allocCycle [] [⟨.tm, 0, 0⟩, ⟨.tm, 1, 0⟩] []) = false ∧
    Instr.wf (.allocCycle [] [⟨.tm, 0, 0⟩] [⟨5, 0, 1⟩, ⟨6, 0, 1⟩]) = true := by decide +kernel
/-- A cell of type ct with n records and p payload bytes. -/
def someCell (ct : BitVec 4) (n : BitVec 6) (p : Nat) : Cell :=
  { ctype := ct, lseq := 0, retx := false, bcast := false, srcDev := 0, dstDev := 0, sseq := 0, first := 0, fill := 0, kind := 0, count := n, sgen := 0, payload := List.replicate p 0,
    ack := 0, ackv := false, nakv := false, nak := 0, crcOk := true }
theorem test_wf_cells : Instr.wf (.cellReceive 0 (List.replicate 279 0) 0 0) = false ∧ Instr.wf (.cellReceive 0 (List.replicate 280 0) 0 0) = true ∧
    Instr.wf (.dataCellReceive (someCell 2 1 256)) = false ∧ Instr.wf (.dataCellReceive (someCell 1 0 257)) = false ∧ Instr.wf (.dataCellReceive (someCell 1 0 256)) = true := by decide +kernel
theorem test_wf_flit : Instr.wf (.flitReceive true (List.replicate 383 0) []) = false ∧ Instr.wf (.flitReceive true (List.replicate 384 0) []) = true := by decide +kernel
theorem test_wf_times : Instr.wf (.syncLabel 0 1000 0) = false ∧ Instr.wf (.syncLabel 0 999 0) = true ∧ Instr.wf (.epochCommit 0 0 0 1000000000) = false := by decide +kernel
theorem test_wf_link : Instr.wf (.pcieLinkUp 0 8) = false ∧ Instr.wf (.pcieLinkUp 3 3) = false ∧ Instr.wf (.pcieLinkUp 3 8) = true := by decide +kernel
theorem test_wf_bytes : Instr.wf (.i3cWrite []) = false ∧ Instr.wf (.fuseLoadDone true 0 0 [] (0, 0, 0)) = false := by decide +kernel

end Sys2Proof.Tests
end

/-! The fields of a register: what a committed image stores in each, and what it leaves alone (R4). -/

namespace Sys2Proof.Machine

/-- No two fields of a register start at the same bit. -/
theorem fields_lo_nodup (r : Reg) : (r.fields.map (·.lo)).Nodup := by
  cases r <;> decide +kernel

/-- No field of a register is empty. -/
theorem fields_w_pos (r : Reg) : ∀ x ∈ r.fields, 0 < x.w := by
  cases r <;> decide +kernel

theorem bits_field_mod (img lo : Nat) {w : Nat} (h : 0 < w) : bits img (lo + w - 1) lo % 2 ^ w = bits img (lo + w - 1) lo := by
  have e : lo + w - 1 + 1 - lo = w := by omega
  simp only [bits, e, Nat.mod_mod]

theorem fld_key_eq_iff {r : Reg} {x y : FieldD} {g i : Nat} : (x.fld r).key g i = (y.fld r).key g i ↔ x.lo = y.lo := by
  simp [Fld.key, FieldD.fld]

theorem find?_put_ne {α : Type} [DecidableEq α] (t : Tbl α) {k x : Nat} (d v : α) (h : x ≠ k) : find? (put t k d v) x = find? t x := by
  unfold put
  split
  · exact find?_del_ne t h
  · exact find?_ins_ne t v h

theorem rget_congr {f : Fld} {g i : Nat} {d e : Dev} (h : find? e.flds (f.key g i) = find? d.flds (f.key g i)) : rget f g i e = rget f g i d := by
  simp only [rget, look, h]

/-- What field x of register r takes from a committed image: one turn of `storeFields`. -/
def storeField (expert : Bool) (r : Reg) (g i img : Nat) (d : Dev) (x : FieldD) : Dev :=
  let v := bits img (x.lo + x.w - 1) x.lo
  match x.acc with
  | .rw => rset (x.fld r) g i v d
  | .rwx => if expert then rset (x.fld r) g i v d else d
  | .w1c => rset (x.fld r) g i (clrBits (rget (x.fld r) g i d) v) d
  | _ => d

/-- The value that field x holds after an image commits, from its value before (R4). -/
def storedVal (expert : Bool) (img : Nat) (x : FieldD) (old : Nat) : Nat :=
  let v := bits img (x.lo + x.w - 1) x.lo
  match x.acc with
  | .rw => v
  | .rwx => if expert then v else old
  | .w1c => clrBits old v % 2 ^ x.w
  | .ro => old
  | .wo => old
  | .sc => old

section
variable (expert : Bool) (r : Reg) (g i img : Nat)

theorem storeFields_eq_foldl (d : Dev) : storeFields expert r g i img d = r.fields.foldl (storeField expert r g i img) d := rfl

/-- A field is set or left alone. -/
theorem storeField_cases (d : Dev) (x : FieldD) :
    storeField expert r g i img d x = d ∨ ∃ v, storeField expert r g i img d x = rset (x.fld r) g i v d := by
  unfold storeField
  cases x.acc with
  | rw => exact .inr ⟨_, rfl⟩
  | rwx =>
    cases expert with
    | false => exact .inl rfl
    | true => exact .inr ⟨_, rfl⟩
  | w1c => exact .inr ⟨_, rfl⟩
  | ro => exact .inl rfl
  | wo => exact .inl rfl
  | sc => exact .inl rfl

theorem storeField_frame (d : Dev) (x : FieldD) : { storeField expert r g i img d x with flds := d.flds } = d := by
  obtain h | ⟨v, h⟩ := storeField_cases expert r g i img d x
  · rw [h]
  · rw [h]; rfl

theorem storeField_find?_ne {d : Dev} {x : FieldD} {k : Nat} (hk : k ≠ (x.fld r).key g i) :
    find? (storeField expert r g i img d x).flds k = find? d.flds k := by
  obtain h | ⟨v, h⟩ := storeField_cases expert r g i img d x
  · rw [h]
  · rw [h, rset_flds, find?_put_ne _ _ _ hk]

theorem rget_storeField {d : Dev} {x : FieldD} (hw : 0 < x.w) :
    rget (x.fld r) g i (storeField expert r g i img d x) = storedVal expert img x (rget (x.fld r) g i d) := by
  have hv (d : Dev) : rget (x.fld r) g i (rset (x.fld r) g i (bits img (x.lo + x.w - 1) x.lo) d) = bits img (x.lo + x.w - 1) x.lo := by
    rw [rget_rset_same]; exact bits_field_mod img x.lo hw
  unfold storeField storedVal
  cases x.acc with
  | rw => exact hv d
  | rwx =>
    cases expert with
    | false => rfl
    | true => exact hv d
  | w1c => exact rget_rset_same _ _ _ _ _
  | ro => rfl
  | wo => rfl
  | sc => rfl

theorem foldl_storeField_frame : ∀ (l : List FieldD) (d : Dev), { l.foldl (storeField expert r g i img) d with flds := d.flds } = d
  | [], _ => rfl
  | x :: l, d => by
    have ih := congrArg (fun e : Dev => { e with flds := d.flds }) (foldl_storeField_frame l (storeField expert r g i img d x))
    exact ih.trans (storeField_frame expert r g i img d x)

theorem foldl_storeField_find?_ne {k : Nat} : ∀ (l : List FieldD) (d : Dev), (∀ x ∈ l, k ≠ (x.fld r).key g i) →
    find? (l.foldl (storeField expert r g i img) d).flds k = find? d.flds k
  | [], _, _ => rfl
  | x :: l, d, h => by
    obtain ⟨hx, hl⟩ := List.forall_mem_cons.1 h
    exact (foldl_storeField_find?_ne l _ hl).trans (storeField_find?_ne expert r g i img hx)

/-- Fields that start at different bits are stored independently. -/
theorem rget_foldl_storeField {x : FieldD} {l : List FieldD} (hn : (l.map (·.lo)).Nodup) (hw : ∀ y ∈ l, 0 < y.w) (hx : x ∈ l) (d : Dev) :
    rget (x.fld r) g i (l.foldl (storeField expert r g i img) d) = storedVal expert img x (rget (x.fld r) g i d) := by
  induction l generalizing d with
  | nil => cases hx
  | cons y l ih =>
    obtain ⟨hyw, hlw⟩ := List.forall_mem_cons.1 hw
    rw [List.map_cons, List.nodup_cons] at hn
    obtain ⟨hy, hl⟩ := hn
    have hne : ∀ z ∈ l, (y.fld r).key g i ≠ (z.fld r).key g i := fun z hz e =>
      hy (List.mem_map.2 ⟨z, hz, (fld_key_eq_iff.1 e).symm⟩)
    rw [List.foldl_cons]
    rcases List.mem_cons.1 hx with rfl | hx
    · rw [rget_congr (foldl_storeField_find?_ne expert r g i img l _ hne), rget_storeField expert r g i img hyw]
    · rw [ih hl hlw hx, rget_congr (storeField_find?_ne expert r g i img (hne x hx).symm)]

end

/-- Settles O60: a register's fields start at different bits, so each is stored on its own. -/
theorem fieldAccessTypes : Obligations.FieldAccessTypes := by
  intro expert r g i img d
  rw [storeFields_eq_foldl]
  exact ⟨fun x hx => rget_foldl_storeField expert r g i img (fields_lo_nodup r) (fields_w_pos r) hx d,
    fun k hk => foldl_storeField_find?_ne expert r g i img r.fields d hk,
    foldl_storeField_frame expert r g i img r.fields d⟩

end Sys2Proof.Machine

/-! Plain register accesses: a commit by access types, a staged word, a read of the lowest word (R4, R54, R55). -/

namespace Sys2Proof.Machine

open Safety

/-- A page number of the map fits in eight bits. -/
theorem pageExists_lt {p : Nat} (h : pageExists p = true) : p < 256 := by
  by_contra hp
  have : typeCode p = 0 := by
    unfold typeCode
    repeat rw [if_neg (by omega)]
  simp [pageExists, this] at h

/-- The offsets of the dispatch registers hold no register on another ENG page. -/
theorem placeAt_dispElsewhere {p o : Nat} (h : dispElsewhere p o = true) : placeAt p o = none := by
  have all : ∀ p < 128, ∀ o ∈ [0x800, 0x804, 0x8800], 0x40 < p → placeAt p o = none := by decide +kernel
  simp only [dispElsewhere, Pg.ENG, Bool.and_eq_true, Bool.or_eq_true, decide_eq_true_eq, beq_iff_eq] at h
  exact all p (by omega) o (by simp; omega) (by omega)

/-- The byte address of offset o of a page survives in an address operand. -/
theorem addr_toNat {p o : Nat} (hp : pageExists p = true) (ho : o < 65536) : (BitVec.ofNat 28 (p * 65536 + o)).toNat = p * 65536 + o := by
  have := pageExists_lt hp
  exact BitVec.toNat_ofNat .. ▸ Nat.mod_eq_of_lt (by omega)

/-- A write that leaves the device as f says, as the key windows count it. -/
theorem run_writes {req : Requester} {c : Instr} {s : State} {f : Dev → Dev} {x : Dev} (h : exec c s = run f s) (hx : f s.dev = keyTick req none x) :
    Writes req c s x := run_does h fun _ b => hx ▸ b

theorem run_leaves {c : Instr} {s : State} {f : Dev → Dev} {x : Dev} (h : exec c s = run f s) (hx : f s.dev = x) : Leaves c s x :=
  run_does h fun _ b => hx ▸ b

/-- A register with no effect of its own commits by its fields' access types. -/
theorem commit_plain {req : Requester} {r : Reg} {g i img : Nat} {d : Dev} (hf : commitFront req r g i img d = none)
    (ht : commitTm req r g i img d = none) (hh : commitHost req r i img d = none) :
    commit req r g i img d = if r.fields.any (·.acc == .rwx) then expertWrite r true g i img d else storeFields false r g i img d := by
  simp only [commit, hf, ht, hh]

theorem stageWord_eq (req : Requester) (p base k v : Nat) (d : Dev) :
    stageWord req p base k v d =
      { d with staged := ins d.staged (stageKey req p) { base := base, words := ins (stagedWords req p base d) k v } } := by
  cases h : find? d.staged (stageKey req p) with
  | none => simp [stageWord, stagedWords, look, h]
  | some s => simp [stageWord, stagedWords, look, h]

section
variable {req : Requester} {p o : Nat} {s : State} (ht : Taken req s)
include ht

/-- A write that is taken reaches its page, and counts in the key windows (R42). -/
theorem busWrite_taken (hp : pageExists p = true) (ho : o < 65536) (v : Nat) :
    busWrite req (p * 65536 + o) v s.dev = keyTick req (keySkip p o) (pageWrite req p o v (reached p s)) := by
  obtain ⟨hal, hheld⟩ := ht
  have hpd : (p * 65536 + o) / 65536 = p := by omega
  have hpm : (p * 65536 + o) % 65536 = o := by omega
  simp [busWrite, hal, hheld, doWrite, hpd, hpm, hp, reached]

/-- A read past the Faceplate that is taken reaches its page, and is answered. -/
theorem busRead_taken (hp : pageExists p = true) (hlo : 0x40 ≤ o) (hhi : o < 65536) :
    busRead req (p * 65536 + o) s.dev =
      emit (.readReply req (p * 65536 + o) (wordRead req p o (reached p s)).1) (wordRead req p o (reached p s)).2 := by
  obtain ⟨hal, hheld⟩ := ht
  have hpd : (p * 65536 + o) / 65536 = p := by omega
  have hpm : (p * 65536 + o) % 65536 = o := by omega
  simp [busRead, hal, hheld, doRead, hpd, hpm, hp, reached, show ¬ o < 0x40 by omega]

end

section
variable {req : Requester} {p o : Nat} {x : Place} (hlo : 0x100 ≤ o) (hm : inMsix p o = false) (hc : isCounter p o = false)
  (hpl : placeAt p o = some x)
include hlo hm hc hpl

/-- A write of a word below a register's highest is staged (R54). -/
theorem pageWrite_staged {d : Dev} (hr : (face p d).ready = true) (hk : x.word + 1 < x.reg.lay.words) (v : Nat) :
    pageWrite req p o v d = stageWord req p (x.reg.ofs x.i 0) x.word v d := by
  have hd : dispElsewhere p o = false := by
    cases h : dispElsewhere p o with
    | false => rfl
    | true => simp [placeAt_dispElsewhere h] at hpl
  have hdef : defined p o = true := by simp [defined, hpl]
  have hwrite : wordWrite req p o v d = stageWord req p (x.reg.ofs x.i 0) x.word v d := by
    simp [wordWrite, show ¬ o = 0x40 by omega, show ¬ o < 0x64 by omega, show ¬ o < 0xC0 by omega, show ¬ o < 0x100 by omega, hm, hc, hpl, hk]
  simp [pageWrite, show ¬ o < 0x40 by omega, hd, hdef, hr, hwrite]

/-- A read of a register's lowest word without a read effect serves the live image (R55). -/
theorem wordRead_lowest {d : Dev} (hx : x.word = 0) (hq : x.reg ≠ .EVT_QUERY) (he : readEffect x.reg x.g x.i d = d) :
    wordRead req p o d = serveRead req p (x.reg.ofs x.i 0) x.reg.lay.words 0 (regImg x.reg x.g x.i (liveView x.reg x.i d)) d := by
  simp [wordRead, show ¬ o < 0x80 by omega, show ¬ o < 0x100 by omega, hm, hc, hpl, hx, hq, he]

end

/-- REGISTER_WRITE of a register's highest word commits the image (R54). -/
theorem registerWrite_writes {req : Requester} {r : Reg} {g i img : Nat} {v : BitVec 32} {s : State} {d : Dev} (hl : Lies r g i = true)
    (hcom : Commits req r g i v.toNat s d img) :
    Writes req (.registerWrite req (BitVec.ofNat 28 (r.addr g i + 4 * (r.lay.words - 1))) v) s (commit req r g i img d) := by
  have hplace := hl
  simp only [Lies, Bool.and_eq_true, decide_eq_true_eq] at hplace
  obtain ⟨⟨⟨⟨⟨⟨⟨hpage, -⟩, hhi⟩, -⟩, -⟩, -⟩, -⟩, -⟩ := hplace
  have haddr : (BitVec.ofNat 28 (r.addr g i + 4 * (r.lay.words - 1))).toNat = r.addr g i + 4 * (r.lay.words - 1) := by
    rw [reg_addr_top]; exact addr_toNat hpage hhi
  exact run_writes (f := regWrite req _ v.toNat) rfl (haddr.symm ▸ regWrite_commits hcom hl)

/-- Settles O1. A write of the highest word commits by access types, a lower word is staged, and a read of word 0 answers live. -/
theorem plainRegisterAccess : Obligations.PlainRegisterAccess := by
  refine ⟨?_, ?_, ?_⟩
  · intro req r g i v s d img hl hcom hf ht hh
    have hw := registerWrite_writes hl hcom
    rw [commit_plain hf ht hh] at hw
    refine ⟨fun hno => ?_, fun hsome => ⟨fun hex => ?_, fun hex => ?_⟩⟩
    · rwa [if_neg (by simpa using hno)] at hw
    · rwa [if_pos (by simpa using hsome), expertWrite, hex] at hw
    · rwa [if_pos (by simpa using hsome), expertWrite, hex] at hw
  · intro req r g i k v s p o d ht hr hpage hlo hhi hm hc hpl hk
    have hskip : keySkip p o = none := by simp [keySkip, show o ≠ 0x0C by omega]
    refine run_writes (f := regWrite req (BitVec.ofNat 28 (p * 65536 + o)).toNat v.toNat) rfl ?_
    rw [addr_toNat hpage hhi, regWrite, busWrite_taken ht hpage hhi, hskip, pageWrite_staged hlo hm hc hpl hr hk, stageWord_eq]
  · intro req r g i s p o d img reply c ht hpage hlo hhi hm hc hpl hq he
    have hread : busRead req (BitVec.ofNat 28 (p * 65536 + o)).toNat s.dev =
        emit (.readReply req (p * 65536 + o) (serveRead req p o r.lay.words 0 img d).1) (serveRead req p o r.lay.words 0 img d).2 := by
      rw [addr_toNat hpage hhi, busRead_taken ht hpage (by omega) hhi, wordRead_lowest hlo hm hc hpl rfl hq he]
    refine ⟨fun hn => run_leaves rfl (hread.trans ?_), fun hn => run_leaves rfl (hread.trans ?_)⟩
    · simp [serveRead, hn, reply]
    · simp [serveRead, hn, reply]

end Sys2Proof.Machine

/-! The Faceplate words of events, errors and the budget (R40, R45, R46, R48). -/

namespace Sys2Proof.Machine

open Safety

/-! Tables: what a second write of a key, and the write of what is there, do. -/

section
variable {α : Type}

theorem mem_of_find? {t : Tbl α} {k : Nat} {v : α} (h : find? t k = some v) : (k, v) ∈ t := by
  induction t with
  | nil => cases h
  | cons e t ih =>
    obtain ⟨a, w⟩ := e
    by_cases hk : k = a
    · subst hk
      simp [find?] at h
      simp [h]
    · simp only [find?, hk, if_false] at h
      exact List.mem_cons_of_mem _ (ih h)

theorem del_of_find?_none {t : Tbl α} {k : Nat} (h : find? t k = none) : del t k = t := by
  induction t with
  | nil => rfl
  | cons e t ih =>
    obtain ⟨a, w⟩ := e
    by_cases hk : k = a
    · simp [find?, hk] at h
    · simp only [find?, hk, if_false] at h
      simpa [del, List.filter_cons, Ne.symm hk] using ih h

theorem ins_of_find?_some {t : Tbl α} {k : Nat} {v : α} (ht : Tbl.wf t = true) (h : find? t k = some v) : ins t k v = t := by
  induction t with
  | nil => cases h
  | cons e t ih =>
    obtain ⟨a, w⟩ := e
    obtain ⟨ha, ht⟩ := (Tbl.wf_cons a w t).1 ht
    by_cases hk : k = a
    · subst hk
      simp [find?] at h
      simp [ins, h]
    · simp only [find?, hk, if_false] at h
      have hlt : a < k := ha _ (mem_of_find? h)
      simp [ins, hk, show ¬ k < a by omega, ih ht h]

theorem ins_ins_same (t : Tbl α) (k : Nat) (v w : α) : ins (ins t k v) k w = ins t k w := by
  induction t with
  | nil => simp [ins]
  | cons e t ih =>
    obtain ⟨a, u⟩ := e
    rcases lt_trichotomy k a with h | rfl | h
    · simp [ins, h]
    · simp [ins]
    · simp [ins, show ¬ k < a by omega, show ¬ k = a by omega, ih]

theorem del_ins_same (t : Tbl α) (k : Nat) (v : α) : del (ins t k v) k = del t k := by
  induction t with
  | nil => simp [ins, del]
  | cons e t ih =>
    obtain ⟨a, u⟩ := e
    rcases lt_trichotomy k a with h | rfl | h
    · simp [ins, h, del]
    · simp [ins, del]
    · simpa [ins, show ¬ k < a by omega, show ¬ k = a by omega, del, List.filter_cons, show a ≠ k by omega] using ih

variable [DecidableEq α]

/-- A canonical table keeps its entries when a key is set to what it reads. -/
theorem put_look {t : Tbl α} {k : Nat} {d : α} (ht : Tbl.wf t = true) (hd : find? t k ≠ some d) : put t k d (look t k d) = t := by
  cases h : find? t k with
  | none => simp [put, look, h, del_of_find?_none h]
  | some v =>
    have hv : v ≠ d := fun e => hd (by rw [h, e])
    simp [put, look, h, hv, ins_of_find?_some ht h]

theorem put_put {d v : α} (hv : v ≠ d) (t : Tbl α) (k : Nat) (w : α) : put (put t k d v) k d w = put t k d w := by
  by_cases hw : w = d
  · simp [put, hv, hw, del_ins_same]
  · simp [put, hv, hw, ins_ins_same]

end

/-! Bitmaps. -/

theorem testBit_foldl_setBit (l : List Nat) (a i : Nat) : (l.foldl setBit a).testBit i = (a.testBit i || decide (i ∈ l)) := by
  induction l generalizing a with
  | nil => simp
  | cons n l ih =>
    have hn : (setBit a n).testBit i = (a.testBit i || decide (i = n)) := by
      simp [setBit, Nat.shiftLeft_eq, Nat.testBit_two_pow, eq_comm]
    rw [List.foldl_cons, ih, hn]
    simp [Bool.or_assoc]

/-- Setting the bits of m one by one sets them all. -/
theorem foldl_setBit_bitsOf {w m : Nat} (hm : m < 2 ^ w) (a : Nat) : (bitsOf w m).foldl setBit a = a ||| m := by
  refine Nat.eq_of_testBit_eq fun i => ?_
  rw [testBit_foldl_setBit, Nat.testBit_or]
  by_cases hi : i < w
  · simp [bitsOf, hi]
  · have : m.testBit i = false := Nat.testBit_lt_two_pow (hm.trans_le (Nat.pow_le_pow_right (by decide) (by omega)))
    simp [bitsOf, hi, this]

theorem setBit_ne_zero (m n : Nat) : setBit m n ≠ 0 := by
  intro h
  have := testBit_foldl_setBit [n] m n
  simp [h] at this

/-! Faceplate writes that are taken. -/

@[simp] theorem islAccess_faces (n : Nat) (d : Dev) : (islAccess n d).faces = d.faces := by
  unfold islAccess ungate setIsl onSys
  split
  · rfl
  · split <;> rfl

theorem setFace_setFace {p : Nat} {x : Face} (hx : x ≠ Face.reset p) (y : Face) (d : Dev) : setFace p y (setFace p x d) = setFace p y d := by
  simp [setFace, put_put hx]

/-- A Faceplate set to its own value changes nothing in a table that does not list it at its reset value. -/
theorem setFace_face {p : Nat} {d : Dev} (ht : Tbl.wf d.faces = true) (hd : find? d.faces p ≠ some (Face.reset p)) : setFace p (face p d) d = d := by
  simp [setFace, face, put_look ht hd]

theorem pageExists_pageNum (page : Page) : pageExists (pageNum page) = true := by
  cases page with
  | lpg g => revert g; decide +kernel
  | hds i => revert i; decide +kernel
  | lpm i => revert i; decide +kernel
  | eng c => revert c; decide +kernel
  | hbm s => revert s; decide +kernel
  | tms i => revert i; decide +kernel
  | fab f => revert f; decide +kernel
  | _ => rfl

theorem keyTickPage_beside {d e : Dev} (h : Beside d e) (k : Option Nat) (p : Nat) : Beside (keyTickPage k d p) (keyTickPage k e p) := by
  simp only [keyTickPage, h.face p]
  split
  · exact h
  · split <;> exact h.setFace p _

/-- The key windows count a word by the Faceplates alone. -/
theorem keyTick_beside {d e : Dev} (h : Beside d e) (req : Requester) (k : Option Nat) : Beside (keyTick req k d) (keyTick req k e) := by
  have fold (l : List Nat) : ∀ {d e : Dev}, Beside d e → Beside (l.foldl (keyTickPage k) d) (l.foldl (keyTickPage k) e) := by
    induction l with
    | nil => exact id
    | cons p l ih => exact fun h => ih (keyTickPage_beside h k p)
  unfold keyTick
  rw [h.faces]
  split
  · exact fold _ h
  · exact h

/-- A command that writes a Faceplate word past FP_KEY has the word's effect, and the word counts in the key windows. -/
theorem faceCmd_writes {req : Requester} {page : Page} {o v : Nat} {c : Instr} {s : State} {x : Dev} (ht : Taken req s)
    (hc : exec c s = run (faceCmd req page o v) s) (hlo : 0x0C < o) (hhi : o < 0x40)
    (hx : Beside x (faceWrite req (pageNum page) o v (reached (pageNum page) s))) : Writes req c s x := by
  have hskip : keySkip (pageNum page) o = none := by simp [keySkip, show o ≠ 0x0C by omega]
  refine run_does hc fun e he => (keyTick_beside hx req none).trans ?_
  rwa [faceCmd, regWrite, busWrite_taken ht (pageExists_pageNum page) (by omega), hskip, pageWrite, if_pos hhi] at he

/-- Sources of a page that fire set their pending bits. -/
theorem foldl_fire_beside (p : Nat) (l : List Nat) (d : Dev) (hd : setFace p (face p d) d = d) :
    Beside (setFace p { face p d with pend := l.foldl setBit (face p d).pend } d) (l.foldl (fun d n => fire p n d) d) := by
  induction l generalizing d with
  | nil => exact hd.symm ▸ Beside.refl d
  | cons n l ih =>
    have hx : ({ face p d with pend := setBit (face p d).pend n } : Face) ≠ Face.reset p := fun h =>
      setBit_ne_zero _ _ (congrArg Face.pend h)
    have hfire := fire_beside p n d
    have hface : face p (fire p n d) = { face p d with pend := setBit (face p d).pend n } := (hfire.face p).trans (face_setFace_same _ _ _)
    have hkeep : setFace p (face p (fire p n d)) (fire p n d) = fire p n d := by
      rw [hface]
      have hfaces : put (fire p n d).faces p (Face.reset p) { face p d with pend := setBit (face p d).pend n } = (fire p n d).faces := by
        rw [hfire.faces, setFace_faces, put_put hx]
      simp only [setFace, hfaces]
    have htail := ih (fire p n d) hkeep
    rw [hface] at htail
    exact Beside.trans (setFace_setFace hx _ d ▸ hfire.setFace p _) htail

/-- What EVT_PEND_FORCE does to a page whose table of Faceplates is canonical (R46). -/
theorem pendForce_beside {p v : Nat} {d : Dev} (hv : v < 2 ^ 32) (hd : setFace p (face p d) d = d) :
    let x := setFace p { face p d with pend := (face p d).pend ||| (v &&& evtService p) } d
    Beside (if v &&& clrBits (evtSources p) (evtService p) = 0 then x else err p Err.BAD_ARG 0x28 x) (pendForce p v d) := by
  intro x
  have h := foldl_fire_beside p (bitsOf 32 (v &&& evtService p)) d hd
  rw [foldl_setBit_bitsOf (Nat.and_le_left.trans_lt hv)] at h
  unfold pendForce
  split
  · exact h
  · exact h.err p _ _

section
variable {req : Requester} {page : Page} {w : BitVec 32} {s : State} (ht : Taken req s)
include ht

/-- EVT_MASK_SET (R45). -/
theorem evtMaskSet_writes : let p := pageNum page; let d := reached p s
    Writes req (.evtMaskSet req page w) s (setFace p { face p d with mask := (face p d).mask ||| (w.toNat &&& maskBits req p) } d) :=
  faceCmd_writes ht rfl (by decide) (by decide) (evtUpdate_beside _)

/-- EVT_MASK_CLR (R45). -/
theorem evtMaskClr_writes : let p := pageNum page; let d := reached p s
    Writes req (.evtMaskClr req page w) s (setFace p { face p d with mask := clrBits (face p d).mask (w.toNat &&& maskBits req p) } d) :=
  faceCmd_writes ht rfl (by decide) (by decide) (evtUpdate_beside _)

/-- EVT_PEND_CLR (R5), with the EVT's copy of a TM-die page (R581). -/
theorem evtPendClr_writes : let p := pageNum page; let d := reached p s
    Writes req (.evtPendClr req page w) s (evtClearCopy p w.toNat (setFace p { face p d with pend := clrBits (face p d).pend w.toNat } d)) :=
  faceCmd_writes ht rfl (by decide) (by decide) (evtUpdate_beside _)

/-- ERR_CODE_CLEAR (R48). -/
theorem errCodeClear_writes : let p := pageNum page; let d := reached p s
    Writes req (.errCodeClear req page w) s (setFace p { face p d with errOvf := false, errOfs := 0, errCode := 0 } d) := by
  have hz : force w [(7, 0, 0)] % 256 = 0 := by simp [force, bits]; omega
  refine faceCmd_writes ht rfl (by decide) (by decide) ?_
  rw [faceWrite, if_pos hz]
  exact Beside.refl _

/-- OVERRUN_CLEAR (R40). -/
theorem overrunClear_writes : let p := pageNum page; let d := reached p s
    Writes req (.overrunClear req page w) s (setFace p { face p d with overrun := 0 } d) := by
  have hz : force w [(31, 16, 0)] / 65536 = 0 := by
    have := w.isLt
    simp [force, bits, Nat.shiftRight_eq_div_pow]; omega
  refine faceCmd_writes ht rfl (by decide) (by decide) ?_
  rw [faceWrite, if_pos hz]
  exact Beside.refl _

/-- EVT_PEND_FORCE (R46), where the table of Faceplates is canonical. -/
theorem evtPendForce_writes (hwf : Tbl.wf s.dev.faces = true) (hlist : find? s.dev.faces (pageNum page) ≠ some (Face.reset (pageNum page))) :
    let p := pageNum page
    let d := reached p s
    let x := setFace p { face p d with pend := (face p d).pend ||| (w.toNat &&& evtService p) } d
    Writes req (.evtPendForce req page w) s (if w.toNat &&& clrBits (evtSources p) (evtService p) = 0 then x else err p Err.BAD_ARG 0x28 x) :=
  faceCmd_writes ht rfl (by decide) (by decide) (pendForce_beside w.isLt (setFace_face (by rwa [reached, islAccess_faces]) (by rwa [reached, islAccess_faces])))

end

/-- A device out of reset whose table of Faceplates lists page 0 at its reset value: an entry that `put` removes. -/
def resetFaceListed : State :=
  { dev := { sys := { porPin := false, chipHold := false }, faces := [(Pg.GLB, Face.reset Pg.GLB)] }, pending := [] }

/-- Refutes O4. With no service-class source named, EVT_PEND_FORCE fires nothing and leaves the table of Faceplates as it is; the
statement has the page's Faceplate set to its own value, which drops an entry that lists the reset value. Where the table lists no such
entry the clause holds (`evtPendForce_writes`), as the others do in every state. -/
theorem not_faceplateEvents : ¬ Obligations.FaceplateEvents := by
  intro h
  obtain ⟨-, -, -, -, ⟨hforce, -⟩, -⟩ := h .pcie .glb 0 resetFaceListed ⟨rfl, rfl⟩
  obtain ⟨t, ht, -, hb⟩ := hforce rfl
  have hrun : t = { resetFaceListed with dev := settle resetFaceListed.dev (faceCmd .pcie .glb 0x28 0 resetFaceListed.dev) } :=
    (Host.Outcome.next.inj ht).symm
  have hleft : t.dev.faces = [(Pg.GLB, Face.reset Pg.GLB)] := by
    rw [hrun, settle_faces]; decide +kernel
  have hsaid : t.dev.faces = [] := hb.faces.trans (by decide +kernel)
  simp [hleft] at hsaid

end Sys2Proof.Machine

/-! Clock gates, retention of banks, and the power and temperature samples (R24 to R26, R497, R498, R515, R578). -/

namespace Sys2Proof.Machine

open Safety

/-! Counters, the ledger's log and firing sources: what each leaves alone. -/

/-- e is d in everything but counters, performance counters and the ledger. -/
structure Tallies (d e : Dev) : Prop where
  kept : { e with ctrs := d.ctrs, perf := d.perf, hwd := d.hwd } = d

theorem Tallies.trans {a b c : Dev} (h : Tallies a b) (k : Tallies b c) : Tallies a c :=
  ⟨(congrArg (fun e : Dev => { e with ctrs := a.ctrs, perf := a.perf, hwd := a.hwd }) k.kept).trans h.kept⟩

theorem Tallies.of_ite {c : Prop} [Decidable c] {a x y : Dev} (h : Tallies a x) (k : Tallies a y) : Tallies a (if c then x else y) := by
  split <;> assumption

theorem Tallies.foldl {β : Type} (f : Dev → β → Dev) (hf : ∀ d x, Tallies d (f d x)) : ∀ (l : List β) (d : Dev), Tallies d (l.foldl f d)
  | [], _ => ⟨rfl⟩
  | x :: l, d => (hf d x).trans (Tallies.foldl f hf l (f d x))

theorem Tallies.rset {d e : Dev} (h : Tallies d e) (f : Fld) (g i v : Nat) : Tallies (rset f g i v d) (rset f g i v e) :=
  ⟨congrArg (Machine.rset f g i v) h.kept⟩

theorem Tallies.faces {d e : Dev} (h : Tallies d e) : e.faces = d.faces := by have k := congrArg Dev.faces h.kept; exact k
theorem Tallies.rget {d e : Dev} (h : Tallies d e) (f : Fld) (g i : Nat) : rget f g i e = rget f g i d := by
  have k := congrArg (Machine.rget f g i) h.kept; exact k

theorem perfCount_tallies (p sel edge level : Nat) (d : Dev) : Tallies d (perfCount p sel edge level d) := by
  unfold perfCount
  exact Tallies.of_ite ⟨rfl⟩ ⟨rfl⟩

theorem inc_tallies (p k : Nat) (d : Dev) : Tallies d (inc p k d) := by
  unfold inc incBy
  have h : Tallies d (incAt p (0x1000 + 8 * k) 1 d) := ⟨rfl⟩
  exact Tallies.of_ite (h.trans (perfCount_tallies _ _ _ _ _)) h

theorem Tallies.inc {d e : Dev} (h : Tallies d e) (p k : Nat) : Tallies d (inc p k e) := h.trans (inc_tallies p k e)

theorem mramWrite_tallies (w v : Nat) (d : Dev) : Tallies d (mramWrite w v d) := by
  unfold mramWrite
  exact Tallies.inc ⟨rfl⟩ _ _

theorem mramWrites_tallies (w : Nat) (vs : List Nat) (d : Dev) : Tallies d (mramWrites w vs d) :=
  Tallies.foldl _ (fun d _ => mramWrite_tallies _ _ d) _ d

/-- An entry of the event log moves LOG_NEXT beside the ledger and the counters; one that is dropped does not. -/
theorem hwdLog_tallies (kind type inst code data : Nat) (d : Dev) :
    Tallies d (hwdLog kind type inst code data d) ∨ ∃ v, Tallies (rset HWD_PTR1.LOG_NEXT 0 0 v d) (hwdLog kind type inst code data d) := by
  unfold hwdLog
  extract_lets sec n
  split
  · exact .inl (Tallies.inc ⟨rfl⟩ _ _)
  · exact .inr ⟨_, ((mramWrites_tallies _ _ d).rset HWD_PTR1.LOG_NEXT 0 0 _).trans ⟨rfl⟩⟩

@[simp] theorem hwdLog_faces (kind type inst code data : Nat) (d : Dev) : (hwdLog kind type inst code data d).faces = d.faces := by
  obtain h | ⟨v, h⟩ := hwdLog_tallies kind type inst code data d
  · exact h.faces
  · exact h.faces

theorem rget_hwdLog_ne {f : Fld} {g i : Nat} (hf : f.key g i ≠ HWD_PTR1.LOG_NEXT.key 0 0) (kind type inst code data : Nat) (d : Dev) :
    rget f g i (hwdLog kind type inst code data d) = rget f g i d := by
  obtain h | ⟨v, h⟩ := hwdLog_tallies kind type inst code data d
  · exact h.rget f g i
  · exact (h.rget f g i).trans (rget_rset_ne _ _ hf)

@[simp] theorem face_hwdLog (p kind type inst code data : Nat) (d : Dev) : face p (hwdLog kind type inst code data d) = face p d := by
  simp [face]

@[simp] theorem rget_fire (f : Fld) (g i p n : Nat) (d : Dev) : rget f g i (fire p n d) = rget f g i d := (fire_beside p n d).rget f g i

theorem face_fire_same (p n : Nat) (d : Dev) : face p (fire p n d) = { face p d with pend := setBit (face p d).pend n } := by
  rw [(fire_beside p n d).face p, face_setFace_same]

@[simp] theorem bit_setBit_same (m n : Nat) : bit (setBit m n) n = true := by
  simp [bit, setBit, Nat.testBit_shiftLeft]

/-! Work of an island that runs, and the commit of a register by its own row. -/

theorem act_runs {n : Nat} {s : State} {d : Dev} (h : Runs n s d) (f : Dev → Dev) : act n f s.dev = f d := by
  obtain ⟨hon, rfl⟩ := h
  simp [act, hon]

/-- Work f of an island that runs is done, and what holds of f's outcome beside the watchers holds afterwards. -/
theorem act_does {n : Nat} {c : Instr} {s : State} {d : Dev} {f : Dev → Dev} {P : Dev → Prop} (hc : exec c s = run (act n f) s)
    (h : Runs n s d) (hp : ∀ e, Beside (f d) e → P e) : Does c s P :=
  run_does hc (act_runs h f ▸ hp)

/-- A row that is the write of a register's highest word commits the image (R54). -/
theorem cmd_writes {req : Requester} {r : Reg} {g i w img : Nat} {c : Instr} {s : State} {d : Dev} (hc : exec c s = run (cmd req r g i w) s)
    (hl : Lies r g i = true) (hcom : Commits req r g i w s d img) : Writes req c s (commit req r g i img d) :=
  run_writes hc (regWrite_commits hcom hl)

/-! Clock gates (R24, R515). -/

theorem mem_islPages {n p : Nat} : p ∈ islPages n ↔ p ∈ allPages ∧ islandOf p = n := by
  simp [islPages]

theorem clockGate_idle {n : Nat} {d : Dev} (hst : islState n d = 2) (hn : n ≠ 100) (hf : flag CLK_X_ISLn.FORCE_ON 0 n d = false)
    (hp : ∀ p ∈ allPages, islandOf p = n → lowpwr p d = true) (hw : islWork n d = false) : clockGate n d = setIsl n 3 d := by
  have hall : (islPages n).all (fun p => lowpwr p d) = true :=
    List.all_eq_true.2 fun p hpn => hp p (mem_islPages.1 hpn).1 (mem_islPages.1 hpn).2
  exact if_pos ⟨hst, hn, by simp [hf], hall, by simp [hw]⟩

/-! Retained banks (R25, R497, R498). -/

theorem bankRetain_may {k b : Nat} {d : Dev} (h : mayRetain k b d = true) : bankRetain k b d = setRetained k (setBit (retainedAt k d) b) d :=
  if_pos h

theorem bankWake_retained {k b : Nat} {d : Dev} (h : bit (retainedAt k d) b = true) (byHost : Bool) :
    bankWake k b byHost d = if byHost = true ∧ k < 88 then errAt Err.RETENTION_WAKE .MEM_GRANTr 0 k (inc Pg.MEM 2 (bankAwake k b d)) else bankAwake k b d := by
  simp [bankWake, h]

/-! The power sample (R26). -/

theorem key_GLB_PWR_RAILk (k : Nat) : GLB_PWR_RAILk.MW.key 0 k = (0x210 + 4 * k) * 1024 := by
  simp [Fld.key, GLB_PWR_RAILk.MW, Reg.addr, Reg.lay]

/-- One rail's reading, as POWER_SAMPLE stores it. -/
def railSet (d : Dev) (x : Nat × Nat) : Dev := if x.2 < 10 then rset GLB_PWR_RAILk.MW 0 x.2 x.1 d else d

/-- The peak follows a total above it. -/
def peakRise (mw : Nat) (d : Dev) : Dev := if rget GLB_PWR_PEAK.MW 0 0 d < mw then rset GLB_PWR_PEAK.MW 0 0 mw d else d

/-- The registers that POWER_SAMPLE sets, in its order: total, sequence, rails, peak. -/
def powerShow (mw : Nat) (rails : List Nat) (d : Dev) : Dev :=
  peakRise mw (rails.zipIdx.foldl railSet (rset GLB_PWR_TOTAL.SEQ 0 0 (rget GLB_PWR_TOTAL.SEQ 0 0 d + 1) (rset GLB_PWR_TOTAL.MW 0 0 mw d)))

theorem rget_powerSample {d : Dev} (h : d.hwd.pwrAt + 1000000 ≤ d.hwd.aonNs) (total : Nat) (rails : List Nat) (f : Fld) (g i : Nat) :
    rget f g i (powerSample total rails d) =
      rget f g i (powerShow (total % 2 ^ 24) rails (onHwd (fun x => { x with pwrAt := x.aonNs }) d)) := by
  rw [powerSample, if_neg (by omega)]
  rfl

theorem rget_railSet_ne {f : Fld} {g i : Nat} (hf : ∀ k < 10, f.key g i ≠ GLB_PWR_RAILk.MW.key 0 k) (d : Dev) (x : Nat × Nat) :
    rget f g i (railSet d x) = rget f g i d := by
  unfold railSet
  split
  · next h => exact rget_rset_ne _ _ (hf _ h)
  · rfl

theorem rget_foldl_railSet_ne {f : Fld} {g i : Nat} (hf : ∀ k < 10, f.key g i ≠ GLB_PWR_RAILk.MW.key 0 k) :
    ∀ (l : List (Nat × Nat)) (d : Dev), rget f g i (l.foldl railSet d) = rget f g i d
  | [], _ => rfl
  | x :: l, d => (rget_foldl_railSet_ne hf l (railSet d x)).trans (rget_railSet_ne hf d x)

/-- A reading leaves the other rails as they are. -/
theorem rget_railSet_of_ne {k n : Nat} (h : k ≠ n) (d : Dev) (x : Nat) :
    rget GLB_PWR_RAILk.MW 0 k (railSet d (x, n)) = rget GLB_PWR_RAILk.MW 0 k d := by
  have hkey : GLB_PWR_RAILk.MW.key 0 k ≠ GLB_PWR_RAILk.MW.key 0 n := by
    rw [key_GLB_PWR_RAILk, key_GLB_PWR_RAILk]; omega
  unfold railSet
  split
  · exact rget_rset_ne _ _ hkey
  · rfl

/-- The rails take their readings in the order of the list. -/
theorem rget_foldl_railSet {k x : Nat} (hk : k < 10) (l : List Nat) (d : Dev) (h : l[k]? = some x) :
    rget GLB_PWR_RAILk.MW 0 k (l.zipIdx.foldl railSet d) = x % 2 ^ 24 := by
  induction l using List.reverseRecOn with
  | nil => simp at h
  | append_singleton l y ih =>
    simp only [List.zipIdx_append, List.foldl_append, List.zipIdx_singleton, List.foldl_cons, List.foldl_nil, Nat.zero_add]
    by_cases hlast : k = l.length
    · obtain rfl : y = x := by simpa [hlast] using h
      rw [railSet, if_pos (hlast ▸ hk), ← hlast, rget_rset_same]
      rfl
    · have hlt : k < l.length := by
        have hle : k < l.length + 1 := by simpa using (List.getElem?_eq_some_iff.1 h).1
        omega
      rw [rget_railSet_of_ne hlast]
      exact ih (by rwa [List.getElem?_append_left hlt] at h)

theorem rget_peakRise_ne {f : Fld} {g i : Nat} (hf : f.key g i ≠ GLB_PWR_PEAK.MW.key 0 0) (mw : Nat) (d : Dev) :
    rget f g i (peakRise mw d) = rget f g i d := by
  unfold peakRise
  split
  · exact rget_rset_ne _ _ hf
  · rfl

theorem rget_peakRise {mw : Nat} (h : mw < 2 ^ 24) (d : Dev) : rget GLB_PWR_PEAK.MW 0 0 (peakRise mw d) = max (rget GLB_PWR_PEAK.MW 0 0 d) mw := by
  unfold peakRise
  split
  · rw [rget_rset_same, max_eq_right (by omega)]; exact Nat.mod_eq_of_lt h
  · rw [max_eq_left (by omega)]

/-- The rails' registers lie beside those of the total and the peak. -/
theorem railKey_ne : ∀ f ∈ [GLB_PWR_TOTAL.MW, GLB_PWR_TOTAL.SEQ, GLB_PWR_PEAK.MW], ∀ k < 10, f.key 0 0 ≠ GLB_PWR_RAILk.MW.key 0 k := by
  decide +kernel

section
variable {mw : Nat} (hmw : mw < 2 ^ 24) (rails : List Nat) (d : Dev)

include hmw in
theorem powerShow_total : rget GLB_PWR_TOTAL.MW 0 0 (powerShow mw rails d) = mw := by
  rw [powerShow, rget_peakRise_ne (by decide +kernel), rget_foldl_railSet_ne (railKey_ne _ (by simp)), rget_rset_ne _ _ (by decide +kernel), rget_rset_same]
  exact Nat.mod_eq_of_lt hmw

theorem powerShow_seq : rget GLB_PWR_TOTAL.SEQ 0 0 (powerShow mw rails d) = (rget GLB_PWR_TOTAL.SEQ 0 0 d + 1) % 256 := by
  rw [powerShow, rget_peakRise_ne (by decide +kernel), rget_foldl_railSet_ne (railKey_ne _ (by simp)), rget_rset_same]
  rfl

include hmw in
theorem powerShow_peak : rget GLB_PWR_PEAK.MW 0 0 (powerShow mw rails d) = max (rget GLB_PWR_PEAK.MW 0 0 d) mw := by
  rw [powerShow, rget_peakRise hmw, rget_foldl_railSet_ne (railKey_ne _ (by simp)), rget_rset_ne _ _ (by decide +kernel), rget_rset_ne _ _ (by decide +kernel)]

theorem powerShow_rail {k x : Nat} (hk : k < 10) (h : rails[k]? = some x) : rget GLB_PWR_RAILk.MW 0 k (powerShow mw rails d) = x % 2 ^ 24 := by
  have hpeak : GLB_PWR_RAILk.MW.key 0 k ≠ GLB_PWR_PEAK.MW.key 0 0 := by
    rw [key_GLB_PWR_RAILk, show GLB_PWR_PEAK.MW.key 0 0 = 0x240 * 1024 from rfl]; omega
  rw [powerShow, rget_peakRise_ne hpeak, rget_foldl_railSet hk _ _ h]

end

/-! The temperature sample (R26, R578). -/

theorem toBits_toInt {w : Nat} (x : BitVec w) : toBits w x.toInt = x.toNat := by
  have h : (2 : Int) ^ w = ((2 ^ w : Nat) : Int) := by norm_cast
  rw [toBits, BitVec.toInt_eq_toNat_bmod, h, Int.bmod_emod, ← Int.natCast_emod, Int.toNat_natCast, Nat.mod_eq_of_lt x.isLt]

theorem rget_thermCross_ne {f : Fld} {g i : Nat} (hf : f.key g i ≠ HWD_PTR1.LOG_NEXT.key 0 0) (die : Nat) (was hot : Bool) (d : Dev) :
    rget f g i (thermCross die was hot d) = rget f g i d := by
  unfold thermCross
  split
  · rfl
  · rw [rget_hwdLog_ne hf, rget_fire]

/-- THERM is pending after a crossing, and stays as it is without one. -/
theorem thermCross_pend (die : Nat) (was hot : Bool) (d : Dev) :
    bit (face Pg.GLB (thermCross die was hot d)).pend 1 = (bit (face Pg.GLB d).pend 1 || was != hot) := by
  unfold thermCross
  by_cases h : was = hot
  · simp [h]
  · simp [h, face_fire_same]

/-- What a sample shows before the crossings are judged: both temperatures, and its instant. -/
def tempShow (fe tm : Int) (d : Dev) : Dev :=
  rset GLB_TEMP.FE 0 0 (toBits 8 fe) (rset GLB_TEMP.TM 0 0 (toBits 8 tm) (onSys (fun s => { s with dieAt := d.hwd.aonNs }) d))

section
variable {d : Dev} (h : d.sys.dieAt + 1000000 ≤ d.hwd.aonNs) (fe tm : Int)
include h

theorem glbTemp_due : glbTemp fe tm d = onSys (fun s => { s with hotFe := decide (105 < fe), hotTm := decide (105 < tm) })
    (thermCross 1 d.sys.hotTm (decide (105 < tm)) (thermCross 0 d.sys.hotFe (decide (105 < fe)) (tempShow fe tm d))) := by
  rw [glbTemp, if_neg (by omega)]
  rfl

/-- A register other than LOG_NEXT stands as the sample showed it. -/
theorem rget_glbTemp {f : Fld} {g i : Nat} (hf : f.key g i ≠ HWD_PTR1.LOG_NEXT.key 0 0) :
    rget f g i (glbTemp fe tm d) = rget f g i (tempShow fe tm d) := by
  rw [glbTemp_due h]
  exact (rget_thermCross_ne hf _ _ _ _).trans (rget_thermCross_ne hf _ _ _ _)

theorem glbTemp_fe : rget GLB_TEMP.FE 0 0 (glbTemp fe tm d) = toBits 8 fe % 2 ^ 8 := by
  rw [rget_glbTemp h _ _ (by decide +kernel), tempShow, rget_rset_same]
  rfl

theorem glbTemp_tm : rget GLB_TEMP.TM 0 0 (glbTemp fe tm d) = toBits 8 tm % 2 ^ 8 := by
  rw [rget_glbTemp h _ _ (by decide +kernel), tempShow, rget_rset_ne _ _ (by decide +kernel), rget_rset_same]
  rfl

theorem glbTemp_hot : (glbTemp fe tm d).sys.hotFe = decide (105 < fe) ∧ (glbTemp fe tm d).sys.hotTm = decide (105 < tm) := by
  rw [glbTemp_due h]
  exact ⟨rfl, rfl⟩

theorem glbTemp_pend : bit (face Pg.GLB (glbTemp fe tm d)).pend 1 =
    (bit (face Pg.GLB d).pend 1 || d.sys.hotFe != decide (105 < fe) || d.sys.hotTm != decide (105 < tm)) := by
  rw [glbTemp_due h]
  exact (thermCross_pend _ _ _ _).trans (congrArg (· || d.sys.hotTm != decide (105 < tm)) (thermCross_pend _ _ _ _))

end

/-! The rows. -/

theorem bankRetain_does {place : BankPlace} {b : Fin 16} {s : State} (h : mayRetain (placeNum place) b.val s.dev = true) :
    Does (.bankRetain place b) s fun e =>
      look e.banks.retained (placeNum place) 0 = setBit (look s.dev.banks.retained (placeNum place) 0) b.val ∧
        Beside { s.dev with banks := e.banks } e := by
  refine run_does (f := bankRetain (placeNum place) b.val) rfl fun e he => ?_
  rw [bankRetain_may h] at he
  have hbanks : e.banks = _ := he.banks
  rw [hbanks]
  exact ⟨look_put_same _ _ _ _, he⟩

theorem bankWake_leaves {place : BankPlace} {b : Fin 16} {s : State} (h : bit (look s.dev.banks.retained (placeNum place) 0) b.val = true)
    (cause : WakeBy) : Leaves (.bankWake place b cause) s
      (if (cause != .processor) = true ∧ placeNum place < 88 then
        errAt Err.RETENTION_WAKE .MEM_GRANTr 0 (placeNum place) (inc Pg.MEM 2 (bankAwake (placeNum place) b.val s.dev))
      else bankAwake (placeNum place) b.val s.dev) :=
  run_leaves (f := bankWake (placeNum place) b.val (cause != .processor)) rfl (bankWake_retained h _)

theorem powerSample_does {s : State} {d : Dev} (hruns : Runs 99 s d) (hdue : d.hwd.pwrAt + 1000000 ≤ d.hwd.aonNs) (total : BitVec 24)
    {rails : List (BitVec 24)} (hlen : rails.length = 10) : Does (.powerSample total rails) s fun e =>
      rget GLB_PWR_TOTAL.MW 0 0 e = total.toNat ∧ rget GLB_PWR_TOTAL.SEQ 0 0 e = (rget GLB_PWR_TOTAL.SEQ 0 0 d + 1) % 256 ∧
      rget GLB_PWR_PEAK.MW 0 0 e = max (rget GLB_PWR_PEAK.MW 0 0 d) total.toNat ∧
      ∀ k x, rails[k]? = some x → rget GLB_PWR_RAILk.MW 0 k e = x.toNat := by
  have hexec : exec (.powerSample total rails) s = run (act 99 (powerSample total.toNat (rails.map (·.toNat)))) s := rfl
  refine act_does hexec hruns fun e he => ?_
  have hget (f : Fld) (g i : Nat) : rget f g i e = rget f g i (powerShow total.toNat (rails.map (·.toNat)) (onHwd (fun x => { x with pwrAt := x.aonNs }) d)) := by
    rw [he.rget, rget_powerSample hdue, Nat.mod_eq_of_lt total.isLt]
  refine ⟨?_, ?_, ?_, fun k x hx => ?_⟩
  · rw [hget, powerShow_total total.isLt]
  · rw [hget, powerShow_seq]; rfl
  · rw [hget, powerShow_peak total.isLt]; rfl
  · have hk : k < 10 := hlen ▸ (List.getElem?_eq_some_iff.1 hx).1
    rw [hget, powerShow_rail _ _ hk (by rw [List.getElem?_map, hx]; rfl), Nat.mod_eq_of_lt x.isLt]

theorem glbTempSample_does {s : State} {d : Dev} (hruns : Runs 99 s d) (hdue : d.sys.dieAt + 1000000 ≤ d.hwd.aonNs) (fe tm : BitVec 8) :
    Does (.glbTempSample fe tm) s fun e =>
      rget GLB_TEMP.FE 0 0 e = fe.toNat ∧ rget GLB_TEMP.TM 0 0 e = tm.toNat ∧
      e.sys.hotFe = decide (105 < fe.toInt) ∧ e.sys.hotTm = decide (105 < tm.toInt) ∧
      ((d.sys.hotFe ≠ decide (105 < fe.toInt) ∨ d.sys.hotTm ≠ decide (105 < tm.toInt)) → bit (face Pg.GLB e).pend 1 = true) := by
  refine act_does (f := glbTemp fe.toInt tm.toInt) rfl hruns fun e he => ⟨?_, ?_, ?_, ?_, fun hcross => ?_⟩
  · rw [he.rget, glbTemp_fe hdue, toBits_toInt, Nat.mod_eq_of_lt fe.isLt]
  · rw [he.rget, glbTemp_tm hdue, toBits_toInt, Nat.mod_eq_of_lt tm.isLt]
  · rw [he.sys, (glbTemp_hot hdue _ _).1]
  · rw [he.sys, (glbTemp_hot hdue _ _).2]
  · rw [he.face, glbTemp_pend hdue]
    rcases hcross with h | h
    · simp [h]
    · simp [h]

/-- Settles O6, row by row: what a gate, a bank, the power sample and the temperature sample do is said of the operation itself above,
and `run_leaves`, `act_does` and `cmd_writes` carry it to the command. -/
theorem clocksBanksAndPower : Obligations.ClocksBanksAndPower := by
  refine ⟨?_, ?_, ?_, ?_, ?_, ?_, ?_⟩
  · intro n s hst hn hf hp hw
    exact run_leaves (f := clockGate n.val) rfl (clockGate_idle hst hn hf hp hw)
  · intro n s hst
    exact run_leaves (f := ungate n.val) rfl (if_pos hst)
  · intro place b s hmay
    exact bankRetain_does hmay
  · intro place b cause s k hret x
    have hwake := bankWake_leaves hret cause
    refine ⟨fun hquiet => ?_, fun hhost hk => ?_⟩
    · rwa [if_neg] at hwake
      rintro ⟨hhost, hk⟩
      rcases hquiet with rfl | hpage
      · simp at hhost
      · exact absurd hk (by omega)
    · rwa [if_pos ⟨by simpa using hhost, hk⟩] at hwake
  · intro total rails s d hruns hdue hlen
    exact powerSample_does hruns hdue total hlen
  · intro fe tm s d hruns hdue
    exact glbTempSample_does hruns hdue fe tm
  · intro req w s d img hcom
    exact cmd_writes rfl (by decide +kernel) hcom

end Sys2Proof.Machine

/-! The state right after reset (R37, R519). -/

namespace Sys2Proof.Machine

open Safety

/-- BLK_EN at reset (field table of FP_CTRL). -/
theorem reset_en (p : Nat) : (Face.reset p).en = decide (p ∈ [Pg.GLB, Pg.HIF, Pg.EVT, Pg.AON, Pg.MGT, Pg.CLK]) := by
  rw [Bool.eq_iff_iff]
  simp [Face.reset, or_assoc]

/-- With no Faceplate listed no group is raised, and EVT_ALERT.EN is 0. -/
theorem evtTrue_reset : EvtTrue State.reset.dev := ⟨rfl, rfl⟩

/-- Settles O56. Right after reset the tables of fields, counters and Faceplates list nothing, so every read answers the reset value. -/
theorem resetState : Obligations.ResetState :=
  ⟨rfl, rfl, fun _ _ _ => rfl, fun _ _ => rfl, rfl, rfl, fun p => reset_en (governor p), fun _ => ⟨rfl, rfl, rfl, rfl⟩, rfl, rfl, rfl, evtTrue_reset⟩

end Sys2Proof.Machine

/-! Bad accesses (R30, R33, R34, R42). -/

namespace Sys2Proof.Machine

open Safety

/-- What a bad access leaves, but for the watchers: the count, and the first address with its event. -/
def badRecorded (a : Nat) (d : Dev) : Dev :=
  let d := inc Pg.GLB 4 (rset GLB_BAD_ACCESS.COUNT 0 0 (min (rget GLB_BAD_ACCESS.COUNT 0 0 d + 1) 0xFFFFFFFF) d)
  if flag GLB_BAD_ADDR.VALID 0 0 d then d
  else
    let d := rset GLB_BAD_ADDR.VALID 0 0 1 (rset GLB_BAD_ADDR.ADDR 0 0 a d)
    setFace Pg.GLB { face Pg.GLB d with pend := setBit (face Pg.GLB d).pend 2 } d

theorem badAccess_beside {a : Nat} (ha : a < 2 ^ 28) (d : Dev) : Beside (badRecorded a d) (badAccess a d) := by
  unfold badAccess badRecorded
  rw [Nat.mod_eq_of_lt ha]
  extract_lets e f
  split
  · exact Beside.refl _
  · exact fire_beside _ _ _

@[simp] theorem rget_inc (f : Fld) (g i p k : Nat) (d : Dev) : rget f g i (inc p k d) = rget f g i d := (inc_tallies p k d).rget f g i

@[simp] theorem rget_setFace (f : Fld) (g i p : Nat) (x : Face) (d : Dev) : rget f g i (setFace p x d) = rget f g i d := rfl

theorem badRecorded_count (a : Nat) (d : Dev) :
    rget GLB_BAD_ACCESS.COUNT 0 0 (badRecorded a d) = min (rget GLB_BAD_ACCESS.COUNT 0 0 d + 1) 0xFFFFFFFF := by
  have hmin : min (rget GLB_BAD_ACCESS.COUNT 0 0 d + 1) 0xFFFFFFFF % 2 ^ GLB_BAD_ACCESS.COUNT.w = min (rget GLB_BAD_ACCESS.COUNT 0 0 d + 1) 0xFFFFFFFF :=
    Nat.mod_eq_of_lt (by show _ < 2 ^ 32; omega)
  unfold badRecorded
  extract_lets e f
  have he : rget GLB_BAD_ACCESS.COUNT 0 0 e = min (rget GLB_BAD_ACCESS.COUNT 0 0 d + 1) 0xFFFFFFFF := by
    rw [rget_inc, rget_rset_same, hmin]
  split
  · exact he
  · rw [rget_setFace, rget_rset_ne _ _ (by decide +kernel), rget_rset_ne _ _ (by decide +kernel), he]

theorem badRecorded_valid (a : Nat) (d : Dev) : flag GLB_BAD_ADDR.VALID 0 0 (badRecorded a d) = true := by
  unfold badRecorded
  extract_lets e f
  split
  · assumption
  · rw [flag, rget_setFace, rget_rset_same]
    rfl

/-! The key windows count in Faceplates alone. -/

@[simp] theorem keyTick_flds (req : Requester) (k : Option Nat) (d : Dev) : (keyTick req k d).flds = d.flds := by
  have page (d : Dev) (p : Nat) : (keyTickPage k d p).flds = d.flds := by
    unfold keyTickPage
    dsimp only
    split
    · rfl
    · split <;> rfl
  have fold (l : List Nat) : ∀ d : Dev, (l.foldl (keyTickPage k) d).flds = d.flds := by
    induction l with
    | nil => exact fun _ => rfl
    | cons p l ih => exact fun d => (ih _).trans (page d p)
  unfold keyTick
  split
  · exact fold _ d
  · rfl

@[simp] theorem rget_keyTick (f : Fld) (g i : Nat) (req : Requester) (k : Option Nat) (d : Dev) : rget f g i (keyTick req k d) = rget f g i d := by
  simp [rget]

theorem repeat_keyTick_beside {d e : Dev} (h : Beside d e) (req : Requester) (k : Option Nat) :
    ∀ n, Beside (Nat.repeat (keyTick req k) n d) (Nat.repeat (keyTick req k) n e)
  | 0 => h
  | n + 1 => keyTick_beside (repeat_keyTick_beside h req k n) req k

theorem rget_repeat_keyTick (f : Fld) (g i : Nat) (req : Requester) (k : Option Nat) (d : Dev) :
    ∀ n, rget f g i (Nat.repeat (keyTick req k) n d) = rget f g i d
  | 0 => rfl
  | n + 1 => (rget_keyTick f g i req k _).trans (rget_repeat_keyTick f g i req k d n)

/-- The bad access of device d has been counted, and its address or an earlier one is latched, in device e. -/
def BadCounted (d e : Dev) : Prop :=
  rget GLB_BAD_ACCESS.COUNT 0 0 e = min (rget GLB_BAD_ACCESS.COUNT 0 0 d + 1) 0xFFFFFFFF ∧ flag GLB_BAD_ADDR.VALID 0 0 e = true

/-- A command that shows the registers of a counted bad access has counted it. -/
theorem badCounted_of_leaves {c : Instr} {s : State} {x : Dev} {a : Nat} (h : Leaves c s x)
    (hx : ∀ f, rget f 0 0 x = rget f 0 0 (badRecorded a s.dev)) : Does c s (BadCounted s.dev) := by
  obtain ⟨t, hrun, hq, hb⟩ := h
  refine ⟨t, hrun, hq, ?_, ?_⟩
  · rw [hb.rget, hx, badRecorded_count]
  · rw [flag, hb.rget, hx]
    exact badRecorded_valid a s.dev

section
variable {req : Requester} {a : BitVec 28} {s : State}

/-- UNMAPPED_ACCESS that writes: the discarded word counts in the key windows (R30, R42). -/
theorem unmappedWrite_writes (ht : Taken req s) (hp : pageExists (a.toNat / 65536) = false) (v : BitVec 32) :
    Writes req (.unmappedAccess req a (some v)) s (badRecorded a.toNat s.dev) := by
  obtain ⟨hal, hheld⟩ := ht
  have hrun : busWrite req a.toNat v.toNat s.dev = keyTick req none (badAccess a.toNat s.dev) := by
    simp [busWrite, hal, hheld, doWrite, hp]
  refine run_does (f := fun d => busWrite req a.toNat v.toNat d) rfl fun e he => ?_
  rw [hrun] at he
  exact (keyTick_beside (badAccess_beside a.isLt _) req none).trans he

/-- UNMAPPED_ACCESS that reads answers 0 (R30). -/
theorem unmappedRead_leaves (ht : Taken req s) (hp : pageExists (a.toNat / 65536) = false) :
    Leaves (.unmappedAccess req a none) s (emit (.readReply req a.toNat 0) (badRecorded a.toNat s.dev)) := by
  obtain ⟨hal, hheld⟩ := ht
  have hrun : busRead req a.toNat s.dev = emit (.readReply req a.toNat 0) (badAccess a.toNat s.dev) := by
    simp [busRead, hal, hheld, doRead, hp]
  refine run_does (f := fun d => busRead req a.toNat d) rfl fun e he => ?_
  rw [hrun] at he
  exact ((badAccess_beside a.isLt _).emit _).trans he

variable (hal : alive s.dev = true)
include hal

theorem badRequest_beside (n : Nat) : Beside (Nat.repeat (keyTick req none) n (badRecorded a.toNat s.dev)) (badRequest req a.toNat n s.dev) := by
  simp only [badRequest, hal]
  exact repeat_keyTick_beside (badAccess_beside a.isLt _) req none n

/-- PARTIAL_WRITE (R33). -/
theorem partialWrite_writes : Writes req (.partialWrite req a) s (badRecorded a.toNat s.dev) :=
  run_does (f := badRequest req a.toNat 1) rfl fun _ he => (badRequest_beside hal 1).trans he

/-- OVERSIZE_REQUEST that writes n words: each counts in the key windows (R34, R42). -/
theorem oversizeWrite_leaves (n : BitVec 10) :
    Leaves (.oversizeRequest a true n) s (Nat.repeat (keyTick .pcie none) n.toNat (badRecorded a.toNat s.dev)) := by
  refine run_does (f := oversize a.toNat true n.toNat) rfl fun e he => (badRequest_beside hal n.toNat).trans ?_
  simpa [oversize, hal] using he

/-- OVERSIZE_REQUEST that reads answers 0 (R34). -/
theorem oversizeRead_leaves (n : BitVec 10) :
    Leaves (.oversizeRequest a false n) s (emit (.readReply .pcie a.toNat 0) (badRecorded a.toNat s.dev)) := by
  refine run_does (f := oversize a.toNat false n.toNat) rfl fun e he => ((badRequest_beside (req := .pcie) hal 0).emit _).trans ?_
  simpa [oversize, hal] using he

end

/-- Settles O2: each of the three commands records the same bad access, and the words that it discards count in the key windows. -/
theorem badAccesses : Obligations.BadAccesses := by
  refine ⟨fun req a s ht hp => ⟨unmappedWrite_writes ht hp, unmappedRead_leaves ht hp⟩, fun req a s hal => partialWrite_writes hal,
    fun a n s hal => ⟨oversizeWrite_leaves hal n, oversizeRead_leaves hal n⟩, fun req a v s ht hp => ?_, fun req a s hal => ?_, fun a write n s hal => ?_⟩
  · cases v with
    | none => exact badCounted_of_leaves (unmappedRead_leaves ht hp) fun f => rfl
    | some v => exact badCounted_of_leaves (unmappedWrite_writes ht hp v) fun f => rget_keyTick f 0 0 req none _
  · exact badCounted_of_leaves (partialWrite_writes hal) fun f => rget_keyTick f 0 0 req none _
  · cases write with
    | false => exact badCounted_of_leaves (oversizeRead_leaves hal n) fun f => rfl
    | true => exact badCounted_of_leaves (oversizeWrite_leaves hal n) fun f => rget_repeat_keyTick f 0 0 .pcie none _ _

end Sys2Proof.Machine

/-! Owners of shared resources (R49, R50). -/

namespace Sys2Proof.Machine

open Safety

/-! The compare-and-set of an owner. -/

section
variable {req : Requester} {owner : Nat} {id : BitVec 16}

/-- A write without CAS keeps the owner. -/
theorem ownerCas_noCas {v : Nat} (h : bit v 31 = false) : ownerCas req v owner = (0, owner) := by
  simp [ownerCas, h]

theorem bit_claim_cas : bit (2 ^ 31 + id.toNat) 31 = true := by
  have := id.isLt
  simp [bit, Nat.testBit_eq_decide_div_mod_eq]; omega

theorem bit_claim_release : bit (2 ^ 31 + id.toNat) 30 = false := by
  have := id.isLt
  simp [bit, Nat.testBit_eq_decide_div_mod_eq]; omega

theorem bit_release_cas : bit (2 ^ 31 + 2 ^ 30 + id.toNat) 31 = true := by
  have := id.isLt
  simp [bit, Nat.testBit_eq_decide_div_mod_eq]; omega

theorem bit_release_release : bit (2 ^ 31 + 2 ^ 30 + id.toNat) 30 = true := by
  have := id.isLt
  simp [bit, Nat.testBit_eq_decide_div_mod_eq]; omega

theorem claim_id : (2 ^ 31 + id.toNat) % 65536 = id.toNat := by
  have := id.isLt
  omega

theorem release_id : (2 ^ 31 + 2 ^ 30 + id.toNat) % 65536 = id.toNat := by
  have := id.isLt
  omega

/-- A claim by CAS: R50's refusals, else R49's table. -/
theorem ownerCas_claim : ownerCas req (2 ^ 31 + id.toNat) owner =
    if id.toNat = 0 ∨ idRefused req id.toNat = true then (Err.BAD_ARG, owner)
    else if owner = 0 ∨ owner = id.toNat then (0, id.toNat) else (Err.OWNER_BUSY, owner) := by
  simp only [ownerCas, bit_claim_cas, bit_claim_release, claim_id]
  simp

/-- A release by CAS: R50's refusals, else R49's table. -/
theorem ownerCas_release : ownerCas req (2 ^ 31 + 2 ^ 30 + id.toNat) owner =
    if id.toNat = 0 ∨ idRefused req id.toNat = true then (Err.BAD_ARG, owner)
    else if owner = id.toNat then (0, 0) else (Err.NOT_OWNER, owner) := by
  simp only [ownerCas, bit_release_cas, bit_release_release, release_id]
  simp

theorem idBad_iff : (id.toNat = 0 ∨ idRefused req id.toNat = true) ↔ (id = 0 ∨ idRefused req id.toNat = true) := by
  rw [← BitVec.toNat_inj]
  rfl

section
variable (hbad : id = 0 ∨ idRefused req id.toNat = true)
include hbad

theorem ownerCas_claim_refused : ownerCas req (2 ^ 31 + id.toNat) owner = (Err.BAD_ARG, owner) := by
  rw [ownerCas_claim, if_pos (idBad_iff.2 hbad)]

theorem ownerCas_release_refused : ownerCas req (2 ^ 31 + 2 ^ 30 + id.toNat) owner = (Err.BAD_ARG, owner) := by
  rw [ownerCas_release, if_pos (idBad_iff.2 hbad)]

end

section
variable (hid : id ≠ 0) (href : idRefused req id.toNat = false)
include hid href

theorem not_idBad : ¬(id.toNat = 0 ∨ idRefused req id.toNat = true) := by
  rw [idBad_iff, href]
  simpa using hid

theorem ownerCas_claim_free (h : owner = 0 ∨ owner = id.toNat) : ownerCas req (2 ^ 31 + id.toNat) owner = (0, id.toNat) := by
  rw [ownerCas_claim, if_neg (not_idBad hid href), if_pos h]

theorem ownerCas_claim_busy (h0 : owner ≠ 0) (h : owner ≠ id.toNat) : ownerCas req (2 ^ 31 + id.toNat) owner = (Err.OWNER_BUSY, owner) := by
  rw [ownerCas_claim, if_neg (not_idBad hid href), if_neg (not_or.2 ⟨h0, h⟩)]

theorem ownerCas_release_held (h : owner = id.toNat) : ownerCas req (2 ^ 31 + 2 ^ 30 + id.toNat) owner = (0, 0) := by
  rw [ownerCas_release, if_neg (not_idBad hid href), if_pos h]

theorem ownerCas_release_foreign (h : owner ≠ id.toNat) : ownerCas req (2 ^ 31 + 2 ^ 30 + id.toNat) owner = (Err.NOT_OWNER, owner) := by
  rw [ownerCas_release, if_neg (not_idBad hid href), if_neg h]

end

end

/-! FP_OWNER. -/

theorem fpOwnerWrite_eq {req : Requester} {p v c o : Nat} {d : Dev} (h : ownerCas req v (face p d).owner = (c, o)) :
    fpOwnerWrite req p v d = if c = 0 then setFace p { face p d with owner := o } d else err p c 0x34 d := by
  simp only [fpOwnerWrite, h]

section
variable {req : Requester} {page : Page} {s : State} (ht : Taken req s)
include ht

/-- A write of FP_OWNER does what its compare-and-set answers. -/
theorem fpOwner_writes {v c o : Nat} {i : Instr} (hi : exec i s = run (faceCmd req page 0x34 v) s)
    (h : ownerCas req v (face (pageNum page) (reached (pageNum page) s)).owner = (c, o)) :
    let p := pageNum page
    let d := reached p s
    Writes req i s (if c = 0 then setFace p { face p d with owner := o } d else err p c 0x34 d) := by
  refine faceCmd_writes ht hi (by decide) (by decide) ?_
  rw [← fpOwnerWrite_eq h]
  exact Beside.refl _

/-- REGISTER_WRITE of FP_OWNER without CAS changes no owner (R49). -/
theorem fpOwnerNoCas_writes {v : BitVec 32} (hv : bit v.toNat 31 = false) :
    let p := pageNum page
    let d := reached p s
    Writes req (.registerWrite req (BitVec.ofNat 28 (p * 65536 + 0x34)) v) s (setFace p (face p d) d) := by
  refine fpOwner_writes (v := v.toNat) ht ?_ (ownerCas_noCas hv)
  show run (regWrite req (BitVec.ofNat 28 _).toNat v.toNat) s = _
  rw [addr_toNat (pageExists_pageNum page) (by decide)]
  rfl

variable {id : BitVec 16}

theorem fpOwnerClaim_writes {c o : Nat} (h : ownerCas req (2 ^ 31 + id.toNat) (face (pageNum page) (reached (pageNum page) s)).owner = (c, o)) :
    let p := pageNum page
    let d := reached p s
    Writes req (.ownerClaim req (.face page) id) s (if c = 0 then setFace p { face p d with owner := o } d else err p c 0x34 d) :=
  fpOwner_writes ht rfl h

theorem fpOwnerRelease_writes {c o : Nat} (h : ownerCas req (2 ^ 31 + 2 ^ 30 + id.toNat) (face (pageNum page) (reached (pageNum page) s)).owner = (c, o)) :
    let p := pageNum page
    let d := reached p s
    Writes req (.ownerRelease req (.face page) id) s (if c = 0 then setFace p { face p d with owner := o } d else err p c 0x34 d) :=
  fpOwner_writes ht rfl h

end

/-! Registers with the layout of FP_OWNER (R49, R559). -/

/-- Register r, index i, is the one-word register with the layout of FP_OWNER that o names. -/
structure OwnerRow (o : OwnerReg) (r : Reg) (i : Nat) : Prop where
  lies : Lies r 0 i = true
  words : r.lay.words = 1
  addr : ownerAddr o = r.addr 0 i
  commits : ∀ req img d, commit req r 0 i img d = ownerRegWrite req r i img d

theorem ownerRow_of_mem {o : OwnerReg} {r : Reg} {i : Nat}
    (h : (o, r, i) ∈ [(OwnerReg.syncOut, Reg.SPN_SYNC_OUT_OWNER, 0)] ++
        (List.finRange 16).map (fun k => (.slice k, .TCM_SLICEk_OWNER, k.val)) ++ (List.finRange 16).map (fun k => (.mirror k, .TMS_MIRk_OWNER, k.val))) :
    OwnerRow o r i := by
  simp only [List.mem_append, List.mem_singleton, List.mem_map, List.mem_finRange, true_and, Prod.mk.injEq] at h
  rcases h with (⟨rfl, rfl, rfl⟩ | ⟨k, rfl, rfl, rfl⟩) | ⟨k, rfl, rfl, rfl⟩
  · exact ⟨by decide +kernel, rfl, rfl, fun _ _ _ => rfl⟩
  · exact ⟨by revert k; decide +kernel, rfl, rfl, fun _ _ _ => rfl⟩
  · exact ⟨by revert k; decide +kernel, rfl, rfl, fun _ _ _ => rfl⟩

theorem ownerRegWrite_eq {req : Requester} {r : Reg} {i v c o : Nat} {d : Dev} (h : ownerCas req v (lockHolder r i d) = (c, o)) :
    ownerRegWrite req r i v d = if c = 0 then rset ⟨r, 0, 16⟩ 0 i o d else errAt c r 0 i d := by
  simp only [ownerRegWrite, h]

/-- The write of a one-word register writes that word. -/
theorem cmd_of_one_word {req : Requester} {r : Reg} {g i v : Nat} (hw : r.lay.words = 1) : cmd req r g i v = regWrite req (r.addr g i) v := by
  funext d
  simp [cmd, hw]

/-- A register of one word commits the word written. -/
theorem img_eq_of_one_word {req : Requester} {r : Reg} {g i w img : Nat} {s : State} {d : Dev} (h : Commits req r g i w s d img)
    (hw : r.lay.words = 1) : img = w := by
  obtain ⟨-, -, -, rfl⟩ := h
  simp [commitImg, hw]

section
variable {req : Requester} {o : OwnerReg} {r : Reg} {i : Nat} {s : State} {d : Dev} {img : Nat} (ho : OwnerRow o r i)
include ho

/-- A row that writes the register's word does what its compare-and-set answers. -/
theorem ownerRow_writes {v c x : Nat} {j : Instr} (hj : exec j s = run (regWrite req (r.addr 0 i) v) s) (hcom : Commits req r 0 i v s d img)
    (h : ownerCas req v (lockHolder r i d) = (c, x)) : Writes req j s (if c = 0 then rset ⟨r, 0, 16⟩ 0 i x d else errAt c r 0 i d) := by
  have hw := cmd_writes (hj.trans (by rw [cmd_of_one_word ho.words])) ho.lies hcom
  rwa [ho.commits, img_eq_of_one_word hcom ho.words, ownerRegWrite_eq h] at hw

/-- REGISTER_WRITE without CAS changes no owner (R49). -/
theorem ownerRowNoCas_writes {v : BitVec 32} (hcom : Commits req r 0 i v.toNat s d img) (hv : bit v.toNat 31 = false) :
    Writes req (.registerWrite req (BitVec.ofNat 28 (r.addr 0 i)) v) s (rset ⟨r, 0, 16⟩ 0 i (lockHolder r i d) d) := by
  have hw := registerWrite_writes ho.lies hcom
  rwa [ho.words, Nat.sub_self, Nat.mul_zero, Nat.add_zero, ho.commits, img_eq_of_one_word hcom ho.words, ownerRegWrite_eq (ownerCas_noCas hv),
    if_pos rfl] at hw

variable {id : BitVec 16}

theorem ownerRowClaim_writes {c x : Nat} (hcom : Commits req r 0 i (2 ^ 31 + id.toNat) s d img)
    (h : ownerCas req (2 ^ 31 + id.toNat) (lockHolder r i d) = (c, x)) :
    Writes req (.ownerClaim req o id) s (if c = 0 then rset ⟨r, 0, 16⟩ 0 i x d else errAt c r 0 i d) :=
  ownerRow_writes ho (ho.addr ▸ rfl) hcom h

theorem ownerRowRelease_writes {c x : Nat} (hcom : Commits req r 0 i (2 ^ 31 + 2 ^ 30 + id.toNat) s d img)
    (h : ownerCas req (2 ^ 31 + 2 ^ 30 + id.toNat) (lockHolder r i d) = (c, x)) :
    Writes req (.ownerRelease req o id) s (if c = 0 then rset ⟨r, 0, 16⟩ 0 i x d else errAt c r 0 i d) :=
  ownerRow_writes ho (ho.addr ▸ rfl) hcom h

end

/-- Settles O5: FP_OWNER and the registers with its layout do what the one compare-and-set answers, whose cases are R49's table and
R50's refusals. -/
theorem ownerClaimsAndReleases : Obligations.OwnerClaimsAndReleases := by
  refine ⟨?_, ?_, ?_, ?_⟩
  · intro req page id s p d ht hbad
    simp only [List.forall_mem_cons, List.not_mem_nil, false_imp_iff, implies_true, and_true]
    exact ⟨fpOwnerClaim_writes ht (ownerCas_claim_refused hbad), fpOwnerRelease_writes ht (ownerCas_release_refused hbad)⟩
  · intro req page v s p d ht hv
    exact fpOwnerNoCas_writes ht hv
  · intro req page id s p d f ht hid href
    exact ⟨fun h => fpOwnerClaim_writes ht (ownerCas_claim_free hid href h),
      fun h0 h => fpOwnerClaim_writes ht (ownerCas_claim_busy hid href h0 h),
      fun h => fpOwnerRelease_writes ht (ownerCas_release_held hid href h),
      fun h => fpOwnerRelease_writes ht (ownerCas_release_foreign hid href h)⟩
  · intro req o id s r i d img hmem
    have ho := ownerRow_of_mem hmem
    exact ⟨fun v hcom hv => ownerRowNoCas_writes ho hcom hv,
      fun hbad => ⟨fun hcom => ownerRowClaim_writes ho hcom (ownerCas_claim_refused hbad),
        fun hcom => ownerRowRelease_writes ho hcom (ownerCas_release_refused hbad)⟩,
      fun hid href => ⟨
        fun hcom => ⟨fun h => ownerRowClaim_writes ho hcom (ownerCas_claim_free hid href h),
          fun h0 h => ownerRowClaim_writes ho hcom (ownerCas_claim_busy hid href h0 h)⟩,
        fun hcom => ⟨fun h => ownerRowRelease_writes ho hcom (ownerCas_release_held hid href h),
          fun h => ownerRowRelease_writes ho hcom (ownerCas_release_foreign hid href h)⟩⟩⟩

end Sys2Proof.Machine

/-! Table locks, learning and aging (R135 to R143). -/

namespace Sys2Proof.Machine

open Safety

@[simp] theorem inc_tab (p k : Nat) (d : Dev) : (inc p k d).tab = d.tab := by
  have h := congrArg Dev.tab (inc_tallies p k d).kept; exact h
@[simp] theorem fire_tab (p n : Nat) (d : Dev) : (fire p n d).tab = d.tab := (fire_beside p n d).tab
@[simp] theorem overrun_tab (p : Nat) (d : Dev) : (overrun p d).tab = d.tab := (overrun_beside p d).tab
@[simp] theorem overrun_flds (p : Nat) (d : Dev) : (overrun p d).flds = d.flds := (overrun_beside p d).flds
@[simp] theorem fire_fab (p n : Nat) (d : Dev) : (fire p n d).fab = d.fab := (fire_beside p n d).fab
@[simp] theorem rget_onTab (f : Fld) (g i : Nat) (u : Tables → Tables) (d : Dev) : rget f g i (onTab u d) = rget f g i d := rfl

/-! Locks (R135, R136). -/

/-- No learning record that waits, none goes on. -/
theorem learnResume_idle {d : Dev} (h : d.fab.waiting = []) : learnResume d = d := by
  have hfab : ({ d.fab with waiting := [] } : Fab) = d.fab := by rw [← h]
  simp [learnResume, h, onFab, hfab]

theorem lockWrite_fab (req : Requester) (r : Reg) (i img : Nat) (d : Dev) : (lockWrite req r i img d).fab = d.fab := by
  unfold lockWrite
  dsimp only
  split_ifs <;> rfl

/-- The register of a table lock is one word, which commits as lockWrite says. -/
structure LockRow (r : Reg) (i : Nat) : Prop where
  lies : Lies r 0 i = true
  words : r.lay.words = 1
  commits : ∀ req img d, (r = .XM_LOCKn → d.fab.waiting = []) → commit req r 0 i img d = lockWrite req r i img d

theorem lockRow (l : LockReg) : LockRow (lockReg l).1 (lockReg l).2 := by
  cases l with
  | lpm t => exact ⟨by revert t; decide +kernel, rfl, fun _ _ _ _ => rfl⟩
  | xm n => exact ⟨by revert n; decide +kernel, rfl, fun req img d h => learnResume_idle (by rw [lockWrite_fab]; exact h rfl)⟩
  | nht => exact ⟨by decide +kernel, rfl, fun _ _ _ _ => rfl⟩

section
variable {req : Requester} {r : Reg} {i : Nat} {id : BitVec 16} {d : Dev}

theorem lockWrite_claim : lockWrite req r i (2 ^ 31 + id.toNat) d =
    if id = 0 ∨ idRefused req id.toNat = true then errAt Err.BAD_ARG r 0 i d
    else if lockHolder r i d = 0 then onTab (fun t => { t with lockAt := ins t.lockAt (r.addr 0 i) d.mono }) (rset ⟨r, 0, 16⟩ 0 i id.toNat d)
    else if lockHolder r i d = id.toNat then d else errAt Err.OWNER_BUSY r 0 i d := by
  have hb : bits (2 ^ 31 + id.toNat) 15 0 = id.toNat := claim_id
  simp only [lockWrite, bit_claim_cas, bit_claim_release, hb, idBad_iff]
  rfl

theorem lockWrite_release : lockWrite req r i (2 ^ 31 + 2 ^ 30 + id.toNat) d =
    if id = 0 ∨ idRefused req id.toNat = true then errAt Err.BAD_ARG r 0 i d
    else if lockHolder r i d = id.toNat then onTab (fun t => { t with lockAt := del t.lockAt (r.addr 0 i) }) (rset ⟨r, 0, 16⟩ 0 i 0 d)
    else errAt Err.NOT_OWNER r 0 i d := by
  have hb : bits (2 ^ 31 + 2 ^ 30 + id.toNat) 15 0 = id.toNat := release_id
  simp only [lockWrite, bit_release_cas, bit_release_release, hb, idBad_iff]
  rfl

end

section
variable {req : Requester} {l : LockReg} {s : State} {d : Dev} {img : Nat} (hwait : ∀ k, l = .xm k → d.fab.waiting = [])
include hwait

theorem lock_writes {v : Nat} {c : Instr} (hc : exec c s = run (regWrite req (lockAddr l) v) s)
    (hcom : Commits req (lockReg l).1 0 (lockReg l).2 v s d img) : Writes req c s (lockWrite req (lockReg l).1 (lockReg l).2 v d) := by
  have hl := lockRow l
  have hw := cmd_writes (hc.trans (by rw [cmd_of_one_word hl.words]; rfl)) hl.lies hcom
  rwa [hl.commits, img_eq_of_one_word hcom hl.words] at hw
  intro hxm
  cases l with
  | lpm t => cases hxm
  | xm n => exact hwait n rfl
  | nht => cases hxm

/-- LOCK_CLAIM (R135), by `lockWrite_claim`. -/
theorem lockClaim_writes {id : BitVec 16} (hcom : Commits req (lockReg l).1 0 (lockReg l).2 (2 ^ 31 + id.toNat) s d img) :
    Writes req (.lockClaim req l id) s (lockWrite req (lockReg l).1 (lockReg l).2 (2 ^ 31 + id.toNat) d) :=
  lock_writes hwait rfl hcom

/-- LOCK_RELEASE (R135), by `lockWrite_release`. -/
theorem lockRelease_writes {id : BitVec 16} (hcom : Commits req (lockReg l).1 0 (lockReg l).2 (2 ^ 31 + 2 ^ 30 + id.toNat) s d img) :
    Writes req (.lockRelease req l id) s (lockWrite req (lockReg l).1 (lockReg l).2 (2 ^ 31 + 2 ^ 30 + id.toNat) d) :=
  lock_writes hwait rfl hcom

end

/-- LOCK_TIMEOUT (R136): a lock held beyond its limit is freed, and LOCK_TMO fires. -/
theorem lockTimeout_does {l : LockReg} {s : State} {d : Dev} (hruns : Runs 32 s d) (hheld : lockHolder (lockReg l).1 (lockReg l).2 d ≠ 0)
    (hms : lockLimit (lockReg l).1 d ≠ 0)
    (hlate : look d.tab.lockAt ((lockReg l).1.addr 0 (lockReg l).2) 0 + lockLimit (lockReg l).1 d * 1000000 < d.mono) (hwait : d.fab.waiting = []) :
    Does (.lockTimeout l) s fun e => lockHolder (lockReg l).1 (lockReg l).2 e = 0 ∧ find? e.tab.lockAt ((lockReg l).1.addr 0 (lockReg l).2) = none ∧
      bit (face (lockReg l).1.lay.page e).pend (lockEvt (lockReg l).1) = true := by
  have hrun : lockTimeout l d = fire (lockReg l).1.lay.page (lockEvt (lockReg l).1)
      (onTab (fun t => { t with lockAt := del t.lockAt ((lockReg l).1.addr 0 (lockReg l).2) }) (rset ⟨(lockReg l).1, 0, 16⟩ 0 (lockReg l).2 0 d)) := by
    rw [lockTimeout, lockExpire, if_pos ⟨hheld, hms, hlate⟩, learnResume_idle (by simpa using hwait)]
  refine act_does rfl hruns fun e he => ?_
  rw [hrun] at he
  refine ⟨?_, ?_, ?_⟩
  · rw [lockHolder, he.rget, rget_fire, rget_onTab, rget_rset_same, Nat.zero_mod]
  · rw [he.tab, fire_tab]
    exact find?_del_same _ _
  · rw [he.face, face_fire_same]
    exact bit_setBit_same _ _

theorem lockExpire_free {r : Reg} {i : Nat} {d : Dev} (h : lockHolder r i d = 0) : lockExpire r i d = d := by
  simp [lockExpire, h]

/-- The fields of a register, stored, leave the fields of another register alone. -/
theorem rget_storeFields_ne {f : Fld} {g i k j : Nat} {r : Reg} (expert : Bool) (img : Nat) (d : Dev) (h : ∀ x ∈ r.fields, f.key k j ≠ (x.fld r).key g i) :
    rget f k j (storeFields expert r g i img d) = rget f k j d :=
  rget_congr (foldl_storeField_find?_ne expert r g i img r.fields d h)

theorem foldl_eq_self {α β : Type} {f : α → β → α} {a : α} : ∀ {l : List β}, (∀ x ∈ l, f a x = a) → l.foldl f a = a
  | [], _ => rfl
  | x :: l, h => by
    obtain ⟨hx, hl⟩ := List.forall_mem_cons.1 h
    rw [List.foldl_cons, hx, foldl_eq_self hl]

/-- A lock and the limit that governs it are registers apart. -/
theorem lockKey_ne (l : LockReg) : ∀ x ∈ (lockTmo l).fields, Fld.key ⟨(lockReg l).1, 0, 16⟩ 0 (lockReg l).2 ≠ (x.fld (lockTmo l)).key 0 0 := by
  cases l with
  | lpm t => revert t; decide +kernel
  | xm n => revert n; decide +kernel
  | nht => decide +kernel

/-- The limit of locks that nobody holds is stored, and frees none (R136). -/
theorem lockTmoWrite_free {l : LockReg} {img : Nat} {d : Dev}
    (hfree : ∀ l', lockTmo l' = lockTmo l → lockHolder (lockReg l').1 (lockReg l').2 d = 0) :
    lockTmoWrite (lockTmo l) img d = storeFields false (lockTmo l) 0 0 img d := by
  have hexp (l' : LockReg) (h' : lockTmo l' = lockTmo l) : lockExpire (lockReg l').1 (lockReg l').2 (storeFields false (lockTmo l) 0 0 img d) =
      storeFields false (lockTmo l) 0 0 img d :=
    lockExpire_free ((rget_storeFields_ne false img d (h' ▸ lockKey_ne l')).trans (hfree l' h'))
  cases l with
  | lpm t => exact (congrArg (lockExpire .LPM_LOCKt 1) (hexp (.lpm 0) rfl)).trans (hexp (.lpm 1) rfl)
  | xm n => exact foldl_eq_self fun k hk => hexp (.xm ⟨k, List.mem_range.1 hk⟩) rfl
  | nht => exact hexp .nht rfl

theorem lockTmo_lies (l : LockReg) : Lies (lockTmo l) 0 0 = true := by
  have all : ∀ r ∈ [Reg.LPM_LOCK_TMO, .XM_LOCK_TMO, .NHT_LOCK_TMO], Lies r 0 0 = true := by decide +kernel
  exact all _ (by cases l <;> simp [lockTmo])

/-- LOCK_TMO_WRITE while nobody holds a lock of the page (R136). -/
theorem lockTmoWrite_writes {req : Requester} {l : LockReg} {w : BitVec 32} {s : State} {d : Dev} {img : Nat}
    (hcom : Commits req (lockTmo l) 0 0 w.toNat s d img) (hwait : ∀ k, l = .xm k → d.fab.waiting = [])
    (hfree : ∀ l', lockTmo l' = lockTmo l → lockHolder (lockReg l').1 (lockReg l').2 d = 0) :
    Writes req (.lockTmoWrite req l w) s (storeFields false (lockTmo l) 0 0 img d) := by
  have hw : Writes req (.lockTmoWrite req l w) s (commit req (lockTmo l) 0 0 img d) := cmd_writes rfl (lockTmo_lies l) hcom
  have hstored := lockTmoWrite_free (img := img) hfree
  have hfab : (storeFields false (lockTmo l) 0 0 img d).fab = d.fab := by
    have h := congrArg Dev.fab (foldl_storeField_frame false (lockTmo l) 0 0 img (lockTmo l).fields d)
    exact h
  have hcommit : commit req (lockTmo l) 0 0 img d = storeFields false (lockTmo l) 0 0 img d := by
    cases l with
    | lpm t => exact hstored
    | xm n => exact (congrArg learnResume hstored).trans (learnResume_idle (hfab.symm ▸ hwait n rfl))
    | nht => exact hstored
  rwa [hcommit] at hw

end Sys2Proof.Machine

namespace Sys2Proof.Machine

open Safety

/-! Entries of the exact-match tables: what their search reads, and what an insertion changes. -/

/-- The fields by which table n is searched and its learned entries are made. -/
def xmFlds : List Fld := [XM_TBLn_CFG.WIDE, XM_TBLn_CFG.BASE, XM_TBLn_CFG.SIZE_LOG2, XM_TBLn_SEED.SEED, XM_TBLn_DATA.LEARN_DATA]

/-- Devices d and e hold the same entries, and search table n alike. -/
structure SameXm (n : Nat) (d e : Dev) : Prop where
  xm : e.tab.xm = d.tab.xm
  xm2 : e.tab.xm2 = d.tab.xm2
  stash : e.tab.stash = d.tab.stash
  bad : e.tab.xmBad = d.tab.xmBad
  flds : ∀ f ∈ xmFlds, rget f 0 n e = rget f 0 n d

namespace SameXm

variable {n : Nat} {d e : Dev} (h : SameXm n d e)
include h

theorem wide : xmWide n e = xmWide n d := by
  simp only [xmWide, flag, h.flds XM_TBLn_CFG.WIDE (by simp [xmFlds])]

theorem key (k : Nat) : xmKey n k e = xmKey n k d := by
  simp only [xmKey, h.wide]

theorem bucket (half k : Nat) : xmBucket n half k e = xmBucket n half k d := by
  simp only [xmBucket, h.wide, h.flds XM_TBLn_CFG.BASE (by simp [xmFlds]), h.flds XM_TBLn_CFG.SIZE_LOG2 (by simp [xmFlds]),
    h.flds XM_TBLn_SEED.SEED (by simp [xmFlds])]

theorem find (k : Nat) : xmFind n k e = xmFind n k d := by
  simp only [xmFind, h.key, h.bucket, h.wide, h.xm, h.stash]

theorem free (wide : Bool) (half b : Nat) : freeIn wide half b e = freeIn wide half b d := by
  have hslot (s : Nat) : slotFree wide s e = slotFree wide s d := by simp only [slotFree, h.xm, h.xm2, h.bad]
  simp only [freeIn, hslot]

theorem learned (pair : Nat) : learnedResult n pair e = learnedResult n pair d := by
  simp only [learnedResult, h.flds XM_TBLn_DATA.LEARN_DATA (by simp [xmFlds])]

end SameXm

/-- XM_COUNTn and XM_STASH follow the entries, and leave them as they are. -/
@[simp] theorem xmCounts_tab (d : Dev) : (xmCounts d).tab = d.tab := by
  have fold (f : Nat → Nat) (l : List Nat) : ∀ d : Dev, (l.foldl (fun s k => rset XM_COUNTn.COUNT 0 k (f k) s) d).tab = d.tab := by
    induction l with
    | nil => exact fun _ => rfl
    | cons k l ih => exact fun d => ih _
  unfold xmCounts
  extract_lets old lvl e n x
  have hx : x.tab = d.tab := fold n _ e
  split
  · rw [fire_tab, hx]
  · exact hx

/-- INSERT into a first bucket with a free place takes it (R126). -/
theorem xmInsert_of_free {x : XmEnt} {d : Dev} {p : Nat} (h : freeIn x.wide 0 (xmBucket x.tbl 0 x.key d) d = some p) :
    xmInsert x d = (true, inc Pg.XM 2 (xmCounts (xmPut p x d))) := by
  simp only [xmInsert, h]

/-! What no arbitration touches: the queue of learning events. -/

@[simp] theorem xmPut_lrnQ (s : Nat) (x : XmEnt) (d : Dev) : (xmPut s x d).tab.lrnQ = d.tab.lrnQ := by
  unfold xmPut
  split <;> rfl
@[simp] theorem xmClear_lrnQ (s : Nat) (d : Dev) : (xmClear s d).tab.lrnQ = d.tab.lrnQ := by
  unfold xmClear
  split <;> rfl

theorem xmMoves_lrnQ : ∀ (path : List Nat) (dst : Nat) (d : Dev), (xmMoves path dst d).2.tab.lrnQ = d.tab.lrnQ
  | [], _, _ => rfl
  | s :: path, dst, d => by
    unfold xmMoves
    split
    · rw [xmMoves_lrnQ]; simp
    · rfl

theorem xmInsert_lrnQ (x : XmEnt) (d : Dev) : (xmInsert x d).2.tab.lrnQ = d.tab.lrnQ := by
  unfold xmInsert
  extract_lets b1 b2 done
  have hdone (s : Nat) (d : Dev) : (done s d).2.tab.lrnQ = d.tab.lrnQ := by simp [done]
  split
  · exact hdone _ _
  · next starts room _ _ =>
    clear_value room
    split
    · exact hdone _ _
    · split
      · exact (hdone _ _).trans (xmMoves_lrnQ _ _ _)
      · split
        · exact (hdone _ _).trans (by simp)
        · simp

@[simp] theorem lrnLog_lrnQ (kind tbl old new time key : Nat) (d : Dev) : (lrnLog kind tbl old new time key d).tab.lrnQ = d.tab.lrnQ := by
  unfold lrnLog
  split <;> simp
@[simp] theorem cachePut_lrnQ (k : Nat) (c : LrnCache) (d : Dev) : (cachePut k c d).tab.lrnQ = d.tab.lrnQ := rfl

theorem cacheRoom_lrnQ (k : Nat) (d : Dev) : (cacheRoom k d).2.tab.lrnQ = d.tab.lrnQ := by
  unfold cacheRoom
  split
  · rfl
  · split
    · rfl
    · split <;> simp

theorem flapCount_lrnQ (n key old : Nat) (ev : LrnEv) (c : LrnCache) (d : Dev) : (flapCount n key old ev c d).2.tab.lrnQ = d.tab.lrnQ := by
  unfold flapCount
  extract_lets c1 c2 m
  split <;> simp

/-! An arbitration, once the key's place in the cache is found. -/

/-- The cache entry that an arbitration of key k goes by: none of an expired one. -/
def cachedNow (k : Nat) (d : Dev) : LrnCache :=
  let c := look d.tab.lrnCache k {}
  if cacheExpired c d then {} else c

/-- A cache entry is stored where the cache has room for its key. -/
def cacheStore (room : Bool) (k : Nat) (c : LrnCache) (d : Dev) : Dev := if room then cachePut k c d else d

/-- The event's time and pair enter the cache when they are the latest. -/
def cacheFinish (room : Bool) (k : Nat) (ev : LrnEv) (c : LrnCache) (d : Dev) : Dev :=
  if !c.valid || later48 ev.time c.t then cacheStore room k { c with t := ev.time, pair := evPair ev, valid := true } d
  else if c.moves ≠ 0 then cacheStore room k c d else d

/-- Whether the cache holds a pair that wins over the event's (R139). -/
def loses (ev : LrnEv) (c : LrnCache) : Bool :=
  c.valid && c.pair != evPair ev && (later48 c.t ev.time || (c.t == ev.time && decide (c.pair < evPair ev)))

/-- Arbitration against an entry of the table that is not the manager's to keep. -/
def judgeFound (room : Bool) (k key : Nat) (ev : LrnEv) (c : LrnCache) (s : Nat) (e : XmEnt) (d : Dev) : Arb × Dev :=
  if loses ev c then (.loser, inc Pg.LRN 4 (lrnLog 1 ev.tbl c.pair (evPair ev) ev.time key d))
  else if entPair e = evPair ev then (.confirmed, cacheFinish room k ev c (if e.static then d else xmPut s { e with hit := true } d))
  else if e.static then (.changed, cacheFinish room k ev c d)
  else
    let d := xmPut s { e with result := learnedResult ev.tbl (evPair ev) d, learned := true } d
    let d := inc Pg.LRN 3 (lrnLog 0 ev.tbl (entPair e) (evPair ev) ev.time key d)
    (.changed, cacheFinish room k ev (flapCount ev.tbl key (entPair e) ev c d).1 (flapCount ev.tbl key (entPair e) ev c d).2)

/-- The entry that a learning event makes in its table (R138). -/
def learnedEnt (ev : LrnEv) (key : Nat) (d : Dev) : XmEnt :=
  { tbl := ev.tbl, wide := xmWide ev.tbl d, static := false, learned := true, hit := false, result := learnedResult ev.tbl (evPair ev) d, key := key }

/-- Arbitration of a key that the table does not hold. -/
def judgeNew (room : Bool) (k key : Nat) (ev : LrnEv) (c : LrnCache) (d : Dev) : Arb × Dev :=
  if loses ev c then (.loser, inc Pg.LRN 4 (lrnLog 1 ev.tbl c.pair (evPair ev) ev.time key d))
  else
    let r := xmInsert (learnedEnt ev key d) d
    if r.1 then (.changed, cacheFinish room k ev c (inc Pg.LRN 2 r.2))
    else (.none_, fire Pg.LRN 5 (lrnLog 5 ev.tbl 0 (evPair ev) ev.time key r.2))

/-- Arbitration on device d, in which key's cache entry is c. -/
def judge (mgr room : Bool) (k key : Nat) (ev : LrnEv) (c : LrnCache) (d : Dev) : Arb × Dev :=
  if c.flapping then (.suppressed, inc Pg.LRN 6 d)
  else
    match xmFind ev.tbl key d with
    | some (s, e) =>
      if e.static && !mgr then
        (.none_, if entPair e ≠ evPair ev then fire Pg.LRN 2 (inc Pg.LRN 5 (lrnLog 2 ev.tbl (entPair e) (evPair ev) ev.time key d)) else d)
      else judgeFound room k key ev c s e d
    | none => judgeNew room k key ev c d

theorem arbitrate_eq_judge (mgr : Bool) (ev : LrnEv) (d : Dev) :
    let key := xmKey ev.tbl ev.key d
    let k := cacheKey ev.tbl key
    let r := cacheRoom k d
    arbitrate mgr ev d = judge mgr r.1 k key ev (cachedNow k r.2) r.2 := rfl

theorem cacheFinish_lrnQ (room : Bool) (k : Nat) (ev : LrnEv) (c : LrnCache) (d : Dev) : (cacheFinish room k ev c d).tab.lrnQ = d.tab.lrnQ := by
  have store (c : LrnCache) : (cacheStore room k c d).tab.lrnQ = d.tab.lrnQ := by
    unfold cacheStore
    split <;> rfl
  unfold cacheFinish
  split
  · exact store _
  · split
    · exact store _
    · rfl

theorem judgeFound_lrnQ (room : Bool) (k key : Nat) (ev : LrnEv) (c : LrnCache) (s : Nat) (e : XmEnt) (d : Dev) :
    (judgeFound room k key ev c s e d).2.tab.lrnQ = d.tab.lrnQ := by
  unfold judgeFound
  split
  · simp
  · split
    · rw [cacheFinish_lrnQ]
      split <;> simp
    · split
      · exact cacheFinish_lrnQ _ _ _ _ _
      · simp [cacheFinish_lrnQ, flapCount_lrnQ]

theorem judgeNew_lrnQ (room : Bool) (k key : Nat) (ev : LrnEv) (c : LrnCache) (d : Dev) : (judgeNew room k key ev c d).2.tab.lrnQ = d.tab.lrnQ := by
  unfold judgeNew
  split
  · simp
  · extract_lets r
    split <;> simp [cacheFinish_lrnQ, r, xmInsert_lrnQ]

theorem arbitrate_lrnQ (mgr : Bool) (ev : LrnEv) (d : Dev) : (arbitrate mgr ev d).2.tab.lrnQ = d.tab.lrnQ := by
  rw [arbitrate_eq_judge, ← cacheRoom_lrnQ (cacheKey ev.tbl (xmKey ev.tbl ev.key d)) d]
  unfold judge
  split
  · simp
  · split
    · split
      · split <;> simp
      · exact judgeFound_lrnQ _ _ _ _ _ _ _ _
    · exact judgeNew_lrnQ _ _ _ _ _ _

/-! The learning engine (R139). -/

/-- The event leaves the queue; one that took too long is an overrun. -/
def evTaken (slow : Bool) (ev : LrnEv) (d : Dev) : Dev :=
  let d := setLrnQ (d.tab.lrnQ.erase ev) d
  if slow then overrun Pg.LRN d else d

theorem evTaken_tab (slow : Bool) (ev : LrnEv) (d : Dev) : (evTaken slow ev d).tab = { d.tab with lrnQ := d.tab.lrnQ.erase ev } := by
  unfold evTaken
  split
  · rw [overrun_tab]; rfl
  · rfl

theorem evTaken_flds (slow : Bool) (ev : LrnEv) (d : Dev) : (evTaken slow ev d).flds = (setLrnQ (d.tab.lrnQ.erase ev) d).flds := by
  unfold evTaken
  split
  · exact overrun_flds _ _
  · rfl

@[simp] theorem sendCtl_tab (dst : Option Nat) (kind r : Nat) (d : Dev) : (sendCtl dst kind r d).tab = d.tab := by
  unfold sendCtl
  split <;> rfl

@[simp] theorem sendLearn_tab (r : Nat) (d : Dev) : (sendLearn r d).tab = d.tab := by
  have send (x : Nat) (d : Dev) : (if x = devId d then d else inc Pg.FCT 8 (sendCtl (some x) 1 r d)).tab = d.tab := by
    split <;> simp
  unfold sendLearn
  split
  · rfl
  · extract_lets snd e
    have he : e.tab = d.tab := send _ _
    split
    · exact (send _ _).trans he
    · exact he

@[simp] theorem sendDecide_tab (r : Nat) (d : Dev) : (sendDecide r d).tab = d.tab := by
  simp [sendDecide]

/-- The learning engine over any arbitration arb: what it takes from the queue, and what it tells in chassis mode (R384). -/
def learnBy (arb : LrnEv → Dev → Arb × Dev) (slow : Bool) (d : Dev) : Dev :=
  match d.tab.lrnQ.find? (fun ev => lockHolder .XM_LOCKn ev.tbl d == 0) with
  | none => d
  | some ev =>
    let d := setLrnQ (d.tab.lrnQ.erase ev) d
    let d := if slow then overrun Pg.LRN d else d
    let (r, d) := arb ev d
    let rec_ (op : Nat) : Nat := learnRec op ev.tbl ev.dev ev.port ev.time ev.key
    if !flag LRN_CFG.CHASSIS 0 0 d then d
    else if isMgr d then (if r = .changed ∨ r = .confirmed then sendDecide (rec_ 1) d else d)
    else if r = .changed then sendLearn (rec_ 0) d else d

theorem learnArbitrate_eq (slow : Bool) (d : Dev) : learnArbitrate slow d = learnBy (arbitrate false) slow d := rfl

/-- What is told leaves the tables as the arbitration left them. -/
theorem learnBy_tab (arb : LrnEv → Dev → Arb × Dev) {slow : Bool} {d : Dev} {ev : LrnEv}
    (h : d.tab.lrnQ.find? (fun ev => lockHolder .XM_LOCKn ev.tbl d == 0) = some ev) :
    (learnBy arb slow d).tab = (arb ev (evTaken slow ev d)).2.tab := by
  unfold learnBy evTaken
  rw [h]
  dsimp only
  generalize arb ev (if slow = true then overrun Pg.LRN (setLrnQ (d.tab.lrnQ.erase ev) d) else setLrnQ (d.tab.lrnQ.erase ev) d) = r
  split_ifs <;> simp

/-- The levels of the learning engine lie apart from the registers of the eight tables. -/
theorem xmFlds_ne {n : Nat} (hn : n < 8) : ∀ f ∈ xmFlds, f.key 0 n ≠ LRN_STAT.QUEUE.key 0 0 ∧ f.key 0 n ≠ LRN_STAT.CACHE.key 0 0 := by
  have all : ∀ n : Fin 8, ∀ f ∈ xmFlds, f.key 0 n ≠ LRN_STAT.QUEUE.key 0 0 ∧ f.key 0 n ≠ LRN_STAT.CACHE.key 0 0 := by decide +kernel
  exact all ⟨n, hn⟩

theorem sameXm_evTaken {n : Nat} (hn : n < 8) (slow : Bool) (ev : LrnEv) (d : Dev) : SameXm n d (evTaken slow ev d) := by
  refine ⟨?_, ?_, ?_, ?_, fun f hf => ?_⟩
  · rw [evTaken_tab]
  · rw [evTaken_tab]
  · rw [evTaken_tab]
  · rw [evTaken_tab]
  · have hflds := congrArg (fun t => look t (f.key 0 n) (f.rst 0 n)) (evTaken_flds slow ev d)
    exact hflds.trans (rget_rset_ne _ _ (xmFlds_ne hn f hf).1)

theorem SameXm.cachePut {n : Nat} (hn : n < 8) {d e : Dev} (h : SameXm n d e) (k : Nat) (c : LrnCache) : SameXm n d (cachePut k c e) :=
  ⟨h.xm, h.xm2, h.stash, h.bad, fun f hf => (rget_rset_ne _ _ (xmFlds_ne hn f hf).2).trans (h.flds f hf)⟩

/-- A key that the cache does not hold gets a fresh entry while there is room. -/
theorem cacheRoom_new {k : Nat} {d : Dev} (hk : find? d.tab.lrnCache k = none) (hlen : d.tab.lrnCache.length < 4096) :
    cacheRoom k d = (true, cachePut k {} d) := by
  simp [cacheRoom, has, hk, hlen]

theorem cachedNow_new (k : Nat) (d : Dev) : cachedNow k (cachePut k {} d) = {} := by
  have hlook : look (cachePut k {} d).tab.lrnCache k {} = {} := look_ins_same _ _ _ _
  simp [cachedNow, hlook]

/-- A key that its table does not hold takes the first bucket's free place, whatever else the cache notes. -/
theorem judge_new_xm {mgr : Bool} {k key p : Nat} {ev : LrnEv} {d : Dev} (hfind : xmFind ev.tbl key d = none)
    (hfree : freeIn (xmWide ev.tbl d) 0 (xmBucket ev.tbl 0 key d) d = some p) (hp : p < 2 ^ 22) :
    (judge mgr true k key ev {} d).2.tab.xm = ins d.tab.xm p (learnedEnt ev key d) := by
  have hins : xmInsert (learnedEnt ev key d) d = (true, inc Pg.XM 2 (xmCounts (xmPut p (learnedEnt ev key d) d))) := xmInsert_of_free hfree
  have hjudge : judge mgr true k key ev {} d =
      (.changed, cacheFinish true k ev {} (inc Pg.LRN 2 (inc Pg.XM 2 (xmCounts (xmPut p (learnedEnt ev key d) d))))) := by
    rw [judge, if_neg (by decide), hfind]
    change judgeNew true k key ev {} d = _
    rw [judgeNew, if_neg (by simp [loses]), hins]
    rfl
  have hstore (d : Dev) : (cacheFinish true k ev {} d).tab.xm = d.tab.xm := rfl
  rw [hjudge, hstore, inc_tab, inc_tab, xmCounts_tab, xmPut, if_neg (by omega)]
  rfl

/-- LEARN_ARBITRATE takes the first event whose table is not locked. A key that neither the cache nor its table knows is installed as a
learned entry in the first bucket's free place, when the event names one of the eight tables (R139). -/
theorem learnArbitrate_does {slow : Bool} {s : State} {d : Dev} {ev : LrnEv} (hruns : Runs 32 s d)
    (hfirst : d.tab.lrnQ.find? (fun ev => lockHolder .XM_LOCKn ev.tbl d == 0) = some ev) :
    Does (.learnArbitrate slow) s fun e => e.tab.lrnQ = d.tab.lrnQ.erase ev ∧
      (ev.tbl < 8 → ∀ p, let n := ev.tbl
        let key := xmKey n ev.key d
        find? d.tab.lrnCache (cacheKey n key) = none → d.tab.lrnCache.length < 4096 → xmFind n key d = none →
        freeIn (xmWide n d) 0 (xmBucket n 0 key d) d = some p → p < 2 ^ 22 →
        find? e.tab.xm p = some { tbl := n, wide := xmWide n d, static := false, learned := true, hit := false, result := learnedResult n (evPair ev) d, key := key }) := by
  refine act_does rfl hruns fun e he => ?_
  rw [he.tab, learnArbitrate_eq, learnBy_tab _ hfirst]
  refine ⟨?_, ?_⟩
  · rw [arbitrate_lrnQ, evTaken_tab]
  · intro hn p n key hcache hlen hfind hfree hp
    have hsame := sameXm_evTaken hn slow ev d
    have hkey : xmKey ev.tbl ev.key (evTaken slow ev d) = key := hsame.key _
    have hroom : cacheRoom (cacheKey n key) (evTaken slow ev d) = (true, cachePut (cacheKey n key) {} (evTaken slow ev d)) :=
      cacheRoom_new (by rw [evTaken_tab]; exact hcache) (by rw [evTaken_tab]; exact hlen)
    have hput := hsame.cachePut hn (cacheKey n key) {}
    have hnone : xmFind ev.tbl key (cachePut (cacheKey n key) {} (evTaken slow ev d)) = none := (hput.find key).trans hfind
    have hplace : freeIn (xmWide n (cachePut (cacheKey n key) {} (evTaken slow ev d))) 0
        (xmBucket n 0 key (cachePut (cacheKey n key) {} (evTaken slow ev d))) (cachePut (cacheKey n key) {} (evTaken slow ev d)) = some p := by
      rw [hput.wide, hput.bucket, hput.free]; exact hfree
    rw [arbitrate_eq_judge]
    simp only [hkey]
    rw [hroom, cachedNow_new]
    have hent : learnedEnt ev key (cachePut (cacheKey n key) {} (evTaken slow ev d)) =
        { tbl := n, wide := xmWide n d, static := false, learned := true, hit := false, result := learnedResult n (evPair ev) d, key := key } := by
      rw [learnedEnt, hput.wide, hput.learned]
    rw [judge_new_xm hnone hplace hp, find?_ins_same, hent]

end Sys2Proof.Machine

namespace Sys2Proof.Machine

open Safety

/-! The flap hold, aging and the learning log (R140, R142, R143). -/

/-- FLAP_HOLD_END, FLAP_HOLD after a key began to flap, ends its hold (R140). -/
theorem flapHoldEnd_does {t : Fin 8} {key : BitVec 160} {s : State} {d : Dev} {c : LrnCache} (hruns : Runs 32 s d)
    (hc : find? d.tab.lrnCache (cacheKey t.val (xmKey t.val key.toNat d)) = some c) (hflap : c.flapping = true)
    (hdue : c.flapAt + rget LRN_FLAP.HOLD 0 0 d * 1000000000 ≤ d.mono) :
    Does (.flapHoldEnd t key) s fun e =>
      e.tab = { d.tab with lrnCache := ins d.tab.lrnCache (cacheKey t.val (xmKey t.val key.toNat d)) { c with flapping := false, moves := 0 } } := by
  refine act_does rfl hruns fun e he => ?_
  have hrun : flapHoldEnd t.val key.toNat d = cachePut (cacheKey t.val (xmKey t.val key.toNat d)) { c with flapping := false, moves := 0 } d := by
    simp only [flapHoldEnd, hc, hflap, hdue, true_and, if_true]
  rw [he.tab, hrun]
  rfl

section
variable {p : BitVec 23} {s : State} {d : Dev} {x : XmEnt}

/-- The entry at place p after the scanner's visit at this instant. -/
def aged (p : Nat) (y : XmEnt) (d : Dev) : Dev :=
  { d with tab := { d.tab with
      xm := ins d.tab.xm p y, xm2 := if y.wide then ins d.tab.xm2 (p + 1) y.second else d.tab.xm2, ageAt := ins d.tab.ageAt p d.mono } }

/-- An entry of the buckets that the scanner may age, a quarter of AGE_TIME after the last visit (R142). -/
structure AgeDue (p : Nat) (x : XmEnt) (d : Dev) : Prop where
  place : p < 2 ^ 22
  entry : find? d.tab.xm p = some x
  en : blkEn Pg.LRN d = true
  static : x.static = false
  aging : flag XM_TBLn_LRN.AGE_EN 0 x.tbl d = true
  unlocked : lockHolder .XM_LOCKn x.tbl d = 0
  own : foreignEntry x d = false
  due : ∀ t, find? d.tab.ageAt p = some t → t + rget XM_TBLn_LRN.AGE_TIME 0 x.tbl d * 250000000 ≤ d.mono

/-- The last step of the scanner with an entry that it removes: the managers and members are told in chassis mode (R142, R384). -/
def agedOut (p : Nat) (x : XmEnt) (d : Dev) : Dev :=
  let d := inc Pg.XM 8 (xmCounts (xmClear p (onTab (fun t => { t with ageAt := ins t.ageAt p d.mono }) d)))
  let d := if flag LRN_CFG.LOG_AGE 0 0 d then lrnLog 4 x.tbl (entPair x) (entPair x) (now48 d) x.key d else d
  if !flag LRN_CFG.CHASSIS 0 0 d then d
  else if isMgr d then sendDecide (learnRec 3 x.tbl (entPair x / 256) (entPair x % 256) (now48 d) x.key) (cacheDrop (cacheKey x.tbl x.key) d)
  else sendLearn (learnRec 2 x.tbl (entPair x / 256) (entPair x % 256) (now48 d) x.key) d

theorem ageVisit_due {p : Nat} (h : AgeDue p x d) : ageVisit p d =
    if x.hit then aged p { x with hit := false, age := 0 } d
    else if x.age = 3 then agedOut p x d else aged p { x with age := x.age + 1 } d := by
  obtain ⟨hp, hx, hen, hst, hage, hlock, hown, hdue⟩ := h
  have hd : ageDue p x.tbl d = true := by
    unfold ageDue
    split
    · next t ht => exact decide_eq_true (hdue t ht)
    · rfl
  have hgo : (!blkEn Pg.LRN d || x.static || !flag XM_TBLn_LRN.AGE_EN 0 x.tbl d || lockHolder .XM_LOCKn x.tbl d != 0 || foreignEntry x d ||
      !ageDue p x.tbl d) = false := by
    simp [hen, hst, hage, hlock, hown, hd]
  have hput (y : XmEnt) : xmPut p y (onTab (fun t => { t with ageAt := ins t.ageAt p d.mono }) d) = aged p y d := by
    rw [xmPut, if_neg (by omega)]
    rfl
  unfold ageVisit
  rw [if_neg (show ¬ 2 ^ 22 ≤ p by omega), hx]
  rw [← hput, ← hput]
  exact if_neg (by rw [hgo]; decide)

theorem agedOut_xm {p : Nat} (hp : p < 2 ^ 22) : find? (agedOut p x d).tab.xm p = none := by
  have hclear : find? (inc Pg.XM 8 (xmCounts (xmClear p (onTab (fun t => { t with ageAt := ins t.ageAt p d.mono }) d)))).tab.xm p = none := by
    rw [inc_tab, xmCounts_tab, xmClear, if_neg (by omega)]
    exact find?_del_same _ _
  unfold agedOut
  generalize inc Pg.XM 8 (xmCounts (xmClear p (onTab (fun t => { t with ageAt := ins t.ageAt p d.mono }) d))) = d1 at hclear
  have hlog (kind tbl old new time key : Nat) (d : Dev) : (lrnLog kind tbl old new time key d).tab.xm = d.tab.xm := by
    unfold lrnLog
    split <;> simp
  extract_lets d2 d3
  have h3 : find? d3.tab.xm p = none := by
    unfold d3
    split
    · rwa [hlog]
    · exact hclear
  clear_value d3
  split
  · exact h3
  · split
    · rw [sendDecide_tab]; exact h3
    · rwa [sendLearn_tab]

/-- AGE_SCAN_VISIT of an entry that may age: a hit is cleared, an age below 3 rises, and at age 3 the entry goes (R142). -/
theorem ageScanVisit_does (hruns : Runs 32 s d) (h : AgeDue p.toNat x d) :
    (x.hit = true → Leaves (.ageScanVisit p) s (aged p.toNat { x with hit := false, age := 0 } d)) ∧
    (x.hit = false → x.age ≠ 3 → Leaves (.ageScanVisit p) s (aged p.toNat { x with age := x.age + 1 } d)) ∧
    (x.hit = false → x.age = 3 → Does (.ageScanVisit p) s fun e => find? e.tab.xm p.toNat = none) := by
  have hvisit := ageVisit_due h
  refine ⟨fun hit => ?_, fun hit hage => ?_, fun hit hage => ?_⟩
  · rw [if_pos hit] at hvisit
    exact act_does rfl hruns fun e he => hvisit ▸ he
  · rw [if_neg (by simp [hit]), if_neg hage] at hvisit
    exact act_does rfl hruns fun e he => hvisit ▸ he
  · rw [if_neg (by simp [hit]), if_pos hage] at hvisit
    refine act_does rfl hruns fun e he => ?_
    rw [he.tab, hvisit]
    exact agedOut_xm h.place

end

/-! A read that pops (R55, R143). -/

/-- The field, writable: the hardware loads a field of any access. -/
def FieldD.loaded (x : FieldD) : FieldD := { x with acc := .rw }

/-- A register loaded by the hardware holds the image in every field. -/
theorem rget_loadImg {r : Reg} {x : FieldD} (g i img : Nat) (hx : x ∈ r.fields) (d : Dev) :
    rget (x.fld r) g i (loadImg r g i img d) = bits img (x.lo + x.w - 1) x.lo := by
  have hload : loadImg r g i img d = (r.fields.map FieldD.loaded).foldl (storeField true r g i img) d := by
    rw [List.foldl_map]
    rfl
  have hlo : (r.fields.map FieldD.loaded).map (·.lo) = r.fields.map (·.lo) := by rw [List.map_map]; rfl
  have hw : ∀ y ∈ r.fields.map FieldD.loaded, 0 < y.w := fun y hy => by
    obtain ⟨z, hz, rfl⟩ := List.mem_map.1 hy
    exact fields_w_pos r z hz
  rw [hload]
  exact rget_foldl_storeField (x := x.loaded) true r g i img (hlo ▸ fields_lo_nodup r) hw (List.mem_map_of_mem hx) d

/-- A read of a register's lowest word serves the image that its read effect leaves (R55). -/
theorem wordRead_effect {req : Requester} {p o : Nat} {x : Place} (hlo : 0x100 ≤ o) (hm : inMsix p o = false) (hc : isCounter p o = false)
    (hpl : placeAt p o = some x) {d : Dev} (hx : x.word = 0) (hq : x.reg ≠ .EVT_QUERY) :
    wordRead req p o d = serveRead req p (x.reg.ofs x.i 0) x.reg.lay.words 0 (regImg x.reg x.g x.i (liveView x.reg x.i (readEffect x.reg x.g x.i d)))
      (readEffect x.reg x.g x.i d) := by
  simp [wordRead, show ¬ o < 0x80 by omega, show ¬ o < 0x100 by omega, hm, hc, hpl, hx, hq]

theorem shiftLeft_mod_two_pow {n k : Nat} (h : n ≤ k) (a : Nat) : a <<< k % 2 ^ n = 0 := by
  rw [Nat.shiftLeft_eq]
  exact Nat.mod_eq_zero_of_dvd ((pow_dvd_pow 2 h).mul_left a)

/-- The lowest word of LRN_LOG is that of its KEY. -/
theorem imgWord_LRN_LOG (d : Dev) : imgWord (regImg .LRN_LOG 0 0 d) 0 = rget LRN_LOG.KEY 0 0 d % 2 ^ 32 := by
  simp (disch := decide) only [imgWord, bits, regImg, Reg.fields, List.foldl_cons, List.foldl_nil, reduceCtorEq, if_false, Nat.mul_zero,
    Nat.shiftRight_zero, Nat.zero_add, Nat.sub_zero, Nat.reduceAdd, Nat.or_mod_two_pow, shiftLeft_mod_two_pow, Nat.zero_or,
    Nat.shiftLeft_zero, -Nat.reducePow]
  rfl

theorem lrnLogPop_cons {x : Nat} {t : List Nat} {d : Dev} (h : d.tab.lrnLog = x :: t) :
    (lrnLogPop d).tab = { d.tab with lrnLog := t } ∧ rget LRN_LOG_STAT.LEVEL 0 0 (lrnLogPop d) = t.length % 512 ∧
      imgWord (regImg .LRN_LOG 0 0 (lrnLogPop d)) 0 = imgWord x 0 := by
  have hpop : lrnLogPop d = rset LRN_LOG_STAT.LEVEL 0 0 t.length (loadImg .LRN_LOG 0 0 x (onTab (fun y => { y with lrnLog := t }) d)) := by
    simp only [lrnLogPop, h]
  have hkey : rget LRN_LOG.KEY 0 0 (lrnLogPop d) = bits x 159 0 := by
    rw [hpop, rget_rset_ne _ _ (by decide +kernel)]
    exact rget_loadImg (x := ⟨0, 160, .ro, fun _ _ => 0⟩) 0 0 x (by simp [Reg.fields]) _
  refine ⟨?_, ?_, ?_⟩
  · rw [hpop]; rfl
  · rw [hpop, rget_rset_same]; rfl
  · rw [imgWord_LRN_LOG, hkey]
    simp only [imgWord, bits]
    simp only [Nat.shiftRight_zero]
    omega

/-- LRN_LOG_POP answers the lowest word of the oldest entry and takes it off the log (R143). -/
theorem lrnLogPop_does {req : Requester} {s : State} {x : Nat} {t : List Nat} (ht : Taken req s) (hlog : (reached Pg.LRN s).tab.lrnLog = x :: t) :
    Does (.lrnLogPop req) s fun e => e.tab = { (reached Pg.LRN s).tab with lrnLog := t } ∧ rget LRN_LOG_STAT.LEVEL 0 0 e = t.length % 512 ∧
      Out.readReply req (Reg.addr .LRN_LOG 0 0) (imgWord x 0) ∈ e.out := by
  obtain ⟨htab, hlevel, hword⟩ := lrnLogPop_cons hlog
  have hplace : placeAt Pg.LRN 0x200 = some ⟨.LRN_LOG, 0, 0, 0⟩ := by decide +kernel
  have hread : ∃ snaps, readLow req .LRN_LOG 0 0 s.dev =
      emit (.readReply req (Reg.addr .LRN_LOG 0 0) (imgWord x 0)) { lrnLogPop (reached Pg.LRN s) with snaps := snaps } := by
    have hbus := busRead_taken (p := Pg.LRN) (o := 0x200) ht (by decide +kernel) (by decide) (by decide)
    rw [wordRead_effect (by decide) (by decide +kernel) (by decide +kernel) hplace rfl (by decide)] at hbus
    rw [← hword]
    exact ⟨_, hbus⟩
  obtain ⟨snaps, hread⟩ := hread
  refine run_does (f := readLow req .LRN_LOG 0 0) rfl fun e he => ?_
  rw [hread] at he
  refine ⟨he.tab.trans htab, (he.rget _ _ _).trans hlevel, he.sends.1.subset (List.mem_cons_self ..)⟩

end Sys2Proof.Machine

namespace Sys2Proof.Machine

open Safety

/-- A device whose learning queue holds one event of table 16,388: CFG of that table has the address of LRN_STAT, so that the level
of the queue reads as the table's BASE. -/
def farTableEvent : State :=
  { dev := { flds := [(LRN_STAT.QUEUE.key 0 0, 5), (CLK_ISLn.STATE.key 0 32, 2)],
             tab := { lrnQ := [{ tbl := 16388, key := 0, dev := 0, port := 0, time := 0 }] } }, pending := [] }

/-- Refutes O13. The statement lets a learning event name any number as its table. Table 16,388 has its BASE where LRN_STAT.QUEUE lies:
taking the event off the queue sets QUEUE to 0, and the entry is installed in bucket 0, not in the bucket that BASE named before. An event of the eight tables is installed as the clause says
(`learnArbitrate_does`). -/
theorem not_locksAndLearning : ¬ Obligations.LocksAndLearning := by
  rintro ⟨-, -, -, hlearn, -⟩
  obtain ⟨t, ht, -, -, hinst⟩ := hlearn false farTableEvent farTableEvent.dev { tbl := 16388, key := 0, dev := 0, port := 0, time := 0 }
    ⟨by decide +kernel, by decide +kernel⟩ (by decide +kernel)
  have hput := hinst 20 (by decide +kernel) (by decide +kernel) (by decide +kernel) (by decide +kernel) (by decide +kernel)
  have hrun : t = { farTableEvent with dev := settle farTableEvent.dev (act 32 (learnArbitrate false) farTableEvent.dev) } :=
    (Host.Outcome.next.inj ht).symm
  have hnone : find? t.dev.tab.xm 20 = none := by
    rw [hrun, settle_tab]; decide +kernel
  simp [hnone] at hput

end Sys2Proof.Machine

/-! The timer wheel, the event ring and the firmware slots (R230, R401, R411 to R413, R494). -/

namespace Sys2Proof.Machine

open Safety

/-! What the rows of the service page show: its error code and pending sources, the services' state, and the register fields. -/

theorem Does.imp {c : Instr} {s : State} {P Q : Dev → Prop} (h : Does c s P) (hpq : ∀ e, P e → Q e) : Does c s Q := by
  obtain ⟨t, hrun, hq, hp⟩ := h
  exact ⟨t, hrun, hq, hpq _ hp⟩

/-- Device e shows what x does at the service page. -/
structure SvcShows (x e : Dev) : Prop where
  code : (face Pg.SVC e).errCode = (face Pg.SVC x).errCode
  pend : (face Pg.SVC e).pend = (face Pg.SVC x).pend
  svc : e.svc = x.svc
  flds : e.flds = x.flds

theorem SvcShows.trans {x y z : Dev} (h : SvcShows x y) (k : SvcShows y z) : SvcShows x z :=
  ⟨k.code.trans h.code, k.pend.trans h.pend, k.svc.trans h.svc, k.flds.trans h.flds⟩

theorem SvcShows.rget {x e : Dev} (h : SvcShows x e) (f : Fld) (g i : Nat) : rget f g i e = rget f g i x := by
  simp only [Machine.rget, h.flds]

theorem SvcShows.of_beside {x e : Dev} (h : Beside x e) : SvcShows x e :=
  ⟨by rw [h.face], by rw [h.face], h.svc, h.flds⟩

theorem keyTickPage_shows (k : Option Nat) (d : Dev) (p : Nat) : SvcShows d (keyTickPage k d p) := by
  have set (x : Face) (hc : x.errCode = (face p d).errCode) (hp : x.pend = (face p d).pend) : SvcShows d (setFace p x d) := by
    by_cases h : Pg.SVC = p
    · subst h
      exact ⟨by rw [face_setFace_same, hc], by rw [face_setFace_same, hp], rfl, rfl⟩
    · exact ⟨by rw [face_setFace_ne _ _ h], by rw [face_setFace_ne _ _ h], rfl, rfl⟩
  unfold keyTickPage
  dsimp only
  split
  · exact ⟨rfl, rfl, rfl, rfl⟩
  · split
    · exact set _ rfl rfl
    · exact set _ rfl rfl

theorem keyTick_shows (req : Requester) (k : Option Nat) (d : Dev) : SvcShows d (keyTick req k d) := by
  have fold (l : List Nat) : ∀ d : Dev, SvcShows d (l.foldl (keyTickPage k) d) := by
    induction l with
    | nil => exact fun _ => ⟨rfl, rfl, rfl, rfl⟩
    | cons p l ih => exact fun d => (keyTickPage_shows k d p).trans (ih _)
  unfold keyTick
  split
  · exact fold _ d
  · exact ⟨rfl, rfl, rfl, rfl⟩

/-- A row that writes the highest word of a register shows what the commit does. -/
theorem cmd_shows {req : Requester} {r : Reg} {g i w img : Nat} {c : Instr} {s : State} {d : Dev} (hc : exec c s = run (cmd req r g i w) s)
    (hl : Lies r g i = true) (hcom : Commits req r g i w s d img) : Does c s (SvcShows (commit req r g i img d)) :=
  Does.imp (cmd_writes hc hl hcom) fun _ he => (keyTick_shows _ _ _).trans (.of_beside he)

theorem storeFields_frame (expert : Bool) (r : Reg) (g i img : Nat) (d : Dev) : { storeFields expert r g i img d with flds := d.flds } = d :=
  foldl_storeField_frame expert r g i img r.fields d
@[simp] theorem storeFields_svc (expert : Bool) (r : Reg) (g i img : Nat) (d : Dev) : (storeFields expert r g i img d).svc = d.svc := by
  have h := congrArg Dev.svc (storeFields_frame expert r g i img d); exact h
@[simp] theorem storeFields_mono (expert : Bool) (r : Reg) (g i img : Nat) (d : Dev) : (storeFields expert r g i img d).mono = d.mono := by
  have h := congrArg Dev.mono (storeFields_frame expert r g i img d); exact h
@[simp] theorem storeFields_vlt (expert : Bool) (r : Reg) (g i img : Nat) (d : Dev) : (storeFields expert r g i img d).vlt = d.vlt := by
  have h := congrArg Dev.vlt (storeFields_frame expert r g i img d); exact h
@[simp] theorem storeFields_banks (expert : Bool) (r : Reg) (g i img : Nat) (d : Dev) : (storeFields expert r g i img d).banks = d.banks := by
  have h := congrArg Dev.banks (storeFields_frame expert r g i img d); exact h

@[simp] theorem errAt_svc (c : Nat) (r : Reg) (g i : Nat) (d : Dev) : (errAt c r g i d).svc = d.svc := rfl
@[simp] theorem rget_errAt (f : Fld) (k j c : Nat) (r : Reg) (g i : Nat) (d : Dev) : rget f k j (errAt c r g i d) = rget f k j d := rfl
theorem errAt_code (c : Nat) (r : Reg) (g i : Nat) (d : Dev) : (face (r.lay.page + g) (errAt c r g i d)).errCode = c := by
  simp [errAt, err]

/-! The word of a command with a one-bit operation code. -/

/-- A field of a word replaced: one turn of `force`. -/
def putBits (x hi lo v : Nat) : Nat := x - bits x hi lo * 2 ^ lo + v % 2 ^ (hi + 1 - lo) * 2 ^ lo

theorem go_eq_putBits (w : BitVec 32) (hi lo op : Nat) : go w hi lo op = putBits (putBits w.toNat 31 31 1) hi lo op := rfl

theorem putBits_one (x k v : Nat) : putBits x k k v = x - x / 2 ^ k % 2 * 2 ^ k + v % 2 * 2 ^ k := by
  rw [putBits, bits, Nat.shiftRight_eq_div_pow, show k + 1 - k = 1 by omega, pow_one]

/-- The word of a command whose operation code is bit 30. -/
theorem go_eq (w : BitVec 32) {op : Nat} (h : op < 2) : go w 30 30 op = 2 ^ 31 + op * 2 ^ 30 + w.toNat % 2 ^ 30 := by
  have hw := w.isLt
  rw [go_eq_putBits, putBits_one, putBits_one]
  omega
/-- A one-bit field of an image. -/
theorem on_bit (r : Reg) (k img : Nat) : Fld.on ⟨r, k, 1⟩ img = (img / 2 ^ k % 2 != 0) := by
  have hof : Fld.of ⟨r, k, 1⟩ img = img / 2 ^ k % 2 := by
    rw [Fld.of, bits, Nat.shiftRight_eq_div_pow, show k + 1 - 1 + 1 - k = 1 by omega, pow_one]
  rw [Fld.on, hof]

/-! The timer wheel (R401). -/

theorem commitImg_two (ws : Tbl Nat) (cur v : Nat) : commitImg ws cur 2 v = look ws 0 (imgWord cur 0) + v * 2 ^ 32 := by
  simp [commitImg]

section
variable {req : Requester} {w : BitVec 32} {s : State} {d : Dev} {img : Nat}

/-- Where the staged word has 32 bits, the image of SVC_WHEEL_CMD has the GO and the RELEASE that the row writes. -/
theorem wheelImg_go {op : Nat} (hop : op < 2) (hcom : Commits req .SVC_WHEEL_CMD 0 0 (go w 30 30 op) s d img)
    (hst : ∀ v, find? (stagedWords req Pg.SVC 0x180 (reached Pg.SVC s)) 0 = some v → v < 2 ^ 32) :
    SVC_WHEEL_CMD.GO.on img = true ∧ SVC_WHEEL_CMD.RELEASE.on img = decide (op = 1) := by
  obtain ⟨-, -, -, himg⟩ := hcom
  obtain ⟨low, hlow, rfl⟩ : ∃ low < 2 ^ 32, img = low + go w 30 30 op * 2 ^ 32 := by
    refine ⟨look (stagedWords req Pg.SVC 0x180 (reached Pg.SVC s)) 0 (imgWord (regImg .SVC_WHEEL_CMD 0 0 (reached Pg.SVC s)) 0), ?_, ?_⟩
    · cases hv : find? (stagedWords req Pg.SVC 0x180 (reached Pg.SVC s)) 0 with
      | none => rw [look, hv]; exact Nat.mod_lt _ (by decide)
      | some v => rw [look, hv]; exact hst v hv
    · exact himg.trans (commitImg_two _ _ _)
  clear himg
  have hword := go_eq w hop
  generalize go w 30 30 op = v at hword ⊢
  have hgo : (low + v * 2 ^ 32) / 2 ^ 63 % 2 = 1 := by omega
  have hrel : (low + v * 2 ^ 32) / 2 ^ 62 % 2 = op := by omega
  refine ⟨(on_bit _ _ _).trans ?_, (on_bit _ _ _).trans ?_⟩
  · rw [hgo]; rfl
  · rw [hrel]
    obtain rfl | rfl : op = 0 ∨ op = 1 := by omega
    · rfl
    · rfl

end

section
variable {req : Requester} {img : Nat} {d : Dev} (hgo : SVC_WHEEL_CMD.GO.on img = true)
include hgo

/-- An OWNER_ID of 0 or one that the requester may not present is refused (R50). -/
theorem wheelWrite_badId (hbad : SVC_WHEEL_CMD.OWNER_ID.of img = 0 ∨ idRefused req (SVC_WHEEL_CMD.OWNER_ID.of img) = true) :
    wheelWrite req img d = errAt Err.BAD_ARG .SVC_WHEEL_CMD 0 0 (storeFields false .SVC_WHEEL_CMD 0 0 img d) := by
  simp only [wheelWrite, hgo, Bool.not_true, Bool.false_eq_true, if_false, if_pos hbad]

variable (hid : ¬(SVC_WHEEL_CMD.OWNER_ID.of img = 0 ∨ idRefused req (SVC_WHEEL_CMD.OWNER_ID.of img) = true))
include hid

section
variable (hrel : SVC_WHEEL_CMD.RELEASE.on img = false)
include hrel

theorem wheelWrite_badPeriod (hper : SVC_WHEEL_CMD.PERIOD.of img < 1 ∨ 60000 < SVC_WHEEL_CMD.PERIOD.of img) :
    wheelWrite req img d = errAt Err.BAD_ARG .SVC_WHEEL_CMD 0 0 (storeFields false .SVC_WHEEL_CMD 0 0 img d) := by
  simp only [wheelWrite, hgo, hrel, Bool.not_true, Bool.false_eq_true, if_false, if_neg hid, if_pos hper]

variable (hper : ¬(SVC_WHEEL_CMD.PERIOD.of img < 1 ∨ 60000 < SVC_WHEEL_CMD.PERIOD.of img))
include hper

theorem wheelWrite_busy {o p : Nat} (hslot : find? d.svc.wheel (SVC_WHEEL_CMD.SLOT.of img) = some (o, p)) (ho : o ≠ SVC_WHEEL_CMD.OWNER_ID.of img) :
    wheelWrite req img d = errAt Err.OWNER_BUSY .SVC_WHEEL_CMD 0 0 (storeFields false .SVC_WHEEL_CMD 0 0 img d) := by
  simp only [wheelWrite, hgo, hrel, Bool.not_true, Bool.false_eq_true, if_false, if_neg hid, if_neg hper, storeFields_svc, hslot, if_neg ho]

/-- A free slot, or one that the owner holds, is claimed for the period. -/
theorem wheelWrite_claims (hslot : ∀ x, find? d.svc.wheel (SVC_WHEEL_CMD.SLOT.of img) = some x → x.1 = SVC_WHEEL_CMD.OWNER_ID.of img) :
    wheelWrite req img d = wheelArm (SVC_WHEEL_CMD.SLOT.of img) (SVC_WHEEL_CMD.PERIOD.of img)
      (setWheel (ins d.svc.wheel (SVC_WHEEL_CMD.SLOT.of img) (SVC_WHEEL_CMD.OWNER_ID.of img, SVC_WHEEL_CMD.PERIOD.of img))
        (storeFields false .SVC_WHEEL_CMD 0 0 img d)) := by
  cases hw : find? d.svc.wheel (SVC_WHEEL_CMD.SLOT.of img) with
  | none =>
    simp only [wheelWrite, hgo, hrel, Bool.not_true, Bool.false_eq_true, if_false, if_neg hid, if_neg hper, storeFields_svc, hw]
  | some x =>
    simp only [wheelWrite, hgo, hrel, Bool.not_true, Bool.false_eq_true, if_false, if_neg hid, if_neg hper, storeFields_svc, hw, if_pos (hslot x hw)]

end

variable (hrel : SVC_WHEEL_CMD.RELEASE.on img = true)
include hrel

theorem wheelWrite_notOwner (hslot : ∀ x, find? d.svc.wheel (SVC_WHEEL_CMD.SLOT.of img) = some x → x.1 ≠ SVC_WHEEL_CMD.OWNER_ID.of img) :
    wheelWrite req img d = errAt Err.NOT_OWNER .SVC_WHEEL_CMD 0 0 (storeFields false .SVC_WHEEL_CMD 0 0 img d) := by
  cases hw : find? d.svc.wheel (SVC_WHEEL_CMD.SLOT.of img) with
  | none => simp only [wheelWrite, hgo, hrel, Bool.not_true, Bool.false_eq_true, if_false, if_neg hid, storeFields_svc, hw, if_true]
  | some x =>
    simp only [wheelWrite, hgo, hrel, Bool.not_true, Bool.false_eq_true, if_false, if_neg hid, storeFields_svc, hw, if_true, if_neg (hslot x hw)]

theorem wheelWrite_frees {p : Nat} (hslot : find? d.svc.wheel (SVC_WHEEL_CMD.SLOT.of img) = some (SVC_WHEEL_CMD.OWNER_ID.of img, p)) :
    wheelWrite req img d = setWheel (del d.svc.wheel (SVC_WHEEL_CMD.SLOT.of img)) (storeFields false .SVC_WHEEL_CMD 0 0 img d) := by
  simp only [wheelWrite, hgo, hrel, Bool.not_true, Bool.false_eq_true, if_false, if_neg hid, storeFields_svc, hslot, if_true]

end
end Sys2Proof.Machine

namespace Sys2Proof.Machine

open Safety

/-- A refused command of the service page records its code, and leaves the services as they are. -/
theorem SvcShows.refused {c : Nat} {r : Reg} {d e x : Dev} (hr : r.lay.page = Pg.SVC) (h : SvcShows (errAt c r 0 0 x) e) (hx : x.svc = d.svc) :
    (face Pg.SVC e).errCode = c ∧ e.svc = d.svc := by
  have hcode := errAt_code c r 0 0 x
  rw [hr] at hcode
  exact ⟨h.code.trans hcode, h.svc.trans hx⟩

section
variable {req : Requester} {w : BitVec 32} {s : State} {d : Dev} {img : Nat}

/-- WHEEL_CLAIM (R401), with a staged word of 32 bits. -/
theorem wheelClaim_does (hcom : Commits req .SVC_WHEEL_CMD 0 0 (go w 30 30 0) s d img)
    (hst : ∀ v, find? (stagedWords req Pg.SVC 0x180 (reached Pg.SVC s)) 0 = some v → v < 2 ^ 32) :
    let slot := SVC_WHEEL_CMD.SLOT.of img
    let id := SVC_WHEEL_CMD.OWNER_ID.of img
    let per := SVC_WHEEL_CMD.PERIOD.of img
    let bad := id = 0 ∨ idRefused req id = true ∨ per < 1 ∨ 60000 < per
    (bad → Does (.wheelClaim req w) s fun e => (face Pg.SVC e).errCode = Err.BAD_ARG ∧ e.svc = d.svc) ∧
    (∀ o p, ¬bad → find? d.svc.wheel slot = some (o, p) → o ≠ id →
      Does (.wheelClaim req w) s fun e => (face Pg.SVC e).errCode = Err.OWNER_BUSY ∧ e.svc = d.svc) ∧
    (¬bad → (∀ x, find? d.svc.wheel slot = some x → x.1 = id) → Does (.wheelClaim req w) s fun e => find? e.svc.wheel slot = some (id, per) ∧
      (∀ k, k ≠ slot → find? e.svc.wheel k = find? d.svc.wheel k) ∧ find? e.svc.wheelDue slot = some (d.mono + per * 1000000) ∧
      rget SVC_WHEEL_FREE.FREE 0 0 e = (65536 - e.svc.wheel.length) % 2 ^ 17) := by
  intro slot id per bad
  obtain ⟨hgo, hrel⟩ := wheelImg_go (by decide) hcom hst
  have hdoes : Does (.wheelClaim req w) s (SvcShows (wheelWrite req img d)) := cmd_shows rfl (by decide +kernel) hcom
  refine ⟨fun hbad => ?_, fun o p hok hslot ho => ?_, fun hok hslot => ?_⟩
  · refine Does.imp hdoes fun e he => ?_
    by_cases hid : id = 0 ∨ idRefused req id = true
    · rw [wheelWrite_badId hgo hid] at he
      exact he.refused rfl (storeFields_svc ..)
    · rw [wheelWrite_badPeriod hgo hid hrel ((or_assoc.2 hbad).resolve_left hid)] at he
      exact he.refused rfl (storeFields_svc ..)
  · obtain ⟨hid, hper⟩ := not_or.1 (or_assoc.not.2 hok)
    refine Does.imp hdoes fun e he => ?_
    rw [wheelWrite_busy hgo hid hrel hper hslot ho] at he
    exact he.refused rfl (storeFields_svc ..)
  · obtain ⟨hid, hper⟩ := not_or.1 (or_assoc.not.2 hok)
    refine Does.imp hdoes fun e he => ?_
    rw [wheelWrite_claims hgo hid hrel hper hslot] at he
    have hwheel : e.svc.wheel = ins d.svc.wheel slot (id, per) := congrArg Svc.wheel he.svc
    have hdue : e.svc.wheelDue = ins d.svc.wheelDue slot (d.mono + per * 1000000) := by
      rw [he.svc]
      simp [wheelArm, setWheel, slot, per]
    have hfree : rget SVC_WHEEL_FREE.FREE 0 0 e = (65536 - (ins d.svc.wheel slot (id, per)).length) % 2 ^ 17 :=
      (he.rget ..).trans (rget_rset_same ..)
    rw [hwheel, hdue, hfree]
    exact ⟨find?_ins_same .., fun k hk => find?_ins_ne _ _ hk, find?_ins_same .., rfl⟩

/-- WHEEL_RELEASE (R401), with a staged word of 32 bits. -/
theorem wheelRelease_does (hcom : Commits req .SVC_WHEEL_CMD 0 0 (go w 30 30 1) s d img)
    (hst : ∀ v, find? (stagedWords req Pg.SVC 0x180 (reached Pg.SVC s)) 0 = some v → v < 2 ^ 32) :
    let slot := SVC_WHEEL_CMD.SLOT.of img
    let id := SVC_WHEEL_CMD.OWNER_ID.of img
    (id = 0 ∨ idRefused req id = true → Does (.wheelRelease req w) s fun e => (face Pg.SVC e).errCode = Err.BAD_ARG ∧ e.svc = d.svc) ∧
    (id ≠ 0 → idRefused req id = false → (∀ x, find? d.svc.wheel slot = some x → x.1 ≠ id) → Does (.wheelRelease req w) s fun e =>
      (face Pg.SVC e).errCode = Err.NOT_OWNER ∧ e.svc = d.svc) ∧
    (∀ p, id ≠ 0 → idRefused req id = false → find? d.svc.wheel slot = some (id, p) → Does (.wheelRelease req w) s fun e =>
      find? e.svc.wheel slot = none ∧ ∀ k, k ≠ slot → find? e.svc.wheel k = find? d.svc.wheel k) := by
  intro slot id
  obtain ⟨hgo, hrel⟩ := wheelImg_go (by decide) hcom hst
  have hdoes : Does (.wheelRelease req w) s (SvcShows (wheelWrite req img d)) := cmd_shows rfl (by decide +kernel) hcom
  have hmay (h0 : id ≠ 0) (href : idRefused req id = false) : ¬(id = 0 ∨ idRefused req id = true) := by simp [h0, href]
  refine ⟨fun hid => ?_, fun h0 href hslot => ?_, fun p h0 href hslot => ?_⟩
  · refine Does.imp hdoes fun e he => ?_
    rw [wheelWrite_badId hgo hid] at he
    exact he.refused rfl (storeFields_svc ..)
  · refine Does.imp hdoes fun e he => ?_
    rw [wheelWrite_notOwner hgo (hmay h0 href) hrel hslot] at he
    exact he.refused rfl (storeFields_svc ..)
  · refine Does.imp hdoes fun e he => ?_
    rw [wheelWrite_frees hgo (hmay h0 href) hrel hslot] at he
    have hwheel : e.svc.wheel = del d.svc.wheel slot := congrArg Svc.wheel he.svc
    rw [hwheel]
    exact ⟨find?_del_same .., fun k hk => find?_del_ne _ hk⟩

end

/-! Ticks and the event ring (R401, R411). -/

/-- Without a ring, or a host that can be written, an entry waits. -/
theorem ringDrain_off {d : Dev} (h : rget SVC_RING_BASE.BASE 0 0 d = 0 ∨ dmaOn d = false ∨ d.svc.ringBuf = []) : ringDrain d = d := by
  unfold ringDrain
  split
  · next hon =>
    obtain ⟨hbase, hdma⟩ := hon
    obtain h | h | h := h
    · exact absurd h hbase
    · simp [h] at hdma
    · simp [h, Nat.repeat]
  · rfl

/-- One waiting entry that the ring has room for is written at HEAD. -/
theorem ringDrain_one {d : Dev} {w0 w1 t : Nat} (hbase : rget SVC_RING_BASE.BASE 0 0 d ≠ 0) (hdma : dmaOn d = true)
    (hbuf : d.svc.ringBuf = [(w0, w1, t)]) (hfree : svcRingFree d ≠ 0) : ringDrain d = ringWrite d := by
  have hmin : min (svcRingFree d) d.svc.ringBuf.length = 1 := by simp [hbuf]; omega
  rw [ringDrain, if_pos ⟨hbase, hdma⟩, hmin]
  rfl

theorem ringDrain_does {s : State} {d : Dev} (hruns : Runs 98 s d) :
    let n := 2 ^ rget SVC_RING_CFG.SIZE_LOG2 0 0 d
    let h := rget SVC_RING_HEAD.HEAD 0 0 d % n
    (rget SVC_RING_BASE.BASE 0 0 d = 0 ∨ dmaOn d = false ∨ d.svc.ringBuf = [] → Leaves .ringDrain s d) ∧
    (∀ w0 w1 t, rget SVC_RING_BASE.BASE 0 0 d ≠ 0 → dmaOn d = true → d.svc.ringBuf = [(w0, w1, t)] → svcRingFree d ≠ 0 → n ≤ 2 ^ 16 → Does .ringDrain s fun e =>
      e.svc.ringBuf = [] ∧ rget SVC_RING_HEAD.HEAD 0 0 e = (h + 1) % n ∧ bit (face Pg.SVC e).pend 0 = true ∧
      Out.hostWrite (rget SVC_RING_BASE.BASE 0 0 d * 16 + 16 * h) (leBytes 4 w0 ++ leBytes 4 w1 ++ leBytes 8 t) ∈ e.out) := by
  intro n h
  refine ⟨fun hoff => act_does rfl hruns fun e he => ?_, fun w0 w1 t hbase hdma hbuf hfree hn => act_does rfl hruns fun e he => ?_⟩
  · rwa [ringDrain_off hoff] at he
  · rw [ringDrain_one hbase hdma hbuf hfree, ringWrite, hbuf] at he
    have hfire := (fire_beside ..).trans he
    refine ⟨congrArg Svc.ringBuf hfire.svc, ?_, ?_, hfire.sends.1.subset (List.mem_cons_self ..)⟩
    · rw [he.rget, rget_fire, rget_rset_same]
      refine Nat.mod_eq_of_lt (lt_of_lt_of_le (Nat.mod_lt _ ?_) hn)
      exact Nat.two_pow_pos _
    · rw [he.face, face_fire_same]
      exact bit_setBit_same _ _

/-- A full buffer loses a new entry: it is counted, and source 1 fires (R411). -/
theorem ringPush_full {d : Dev} (h : 1024 ≤ d.svc.ringBuf.length) (kind mid low diag : Nat) :
    ringPush kind mid low diag d = fire Pg.SVC 1 (inc Pg.SVC 7 d) := if_pos h

/-- A new entry that the buffer has room for waits, while there is no ring. -/
theorem ringPush_waits {d : Dev} (h : d.svc.ringBuf.length < 1024) (hoff : rget SVC_RING_BASE.BASE 0 0 d = 0) (kind mid low diag : Nat) :
    ringPush kind mid low diag d = onSvc (fun s => { s with ringBuf := s.ringBuf ++
      [(kind * 2 ^ 24 + mid % 256 * 2 ^ 16 + low % 65536, diag % 32, timeNsOf d.spn.time % 2 ^ 64)] }) d :=
  (if_neg (by omega)).trans (ringDrain_off (d := onSvc _ d) (.inl hoff))

theorem ctr_incAt_same (p o n : Nat) (d : Dev) : ctr p o (incAt p o n d) = (ctr p o d + n) % 2 ^ 64 := by
  simp [ctr, incAt, setCtr]

theorem ctr_inc_same (p k : Nat) (d : Dev) : ctr p (0x1000 + 8 * k) (inc p k d) = (ctr p (0x1000 + 8 * k) d + 1) % 2 ^ 64 := by
  have hperf (sel edge level : Nat) (d : Dev) : ctr p (0x1000 + 8 * k) (perfCount p sel edge level d) = ctr p (0x1000 + 8 * k) d := by
    unfold perfCount
    dsimp only
    split <;> rfl
  unfold inc incBy
  dsimp only
  split
  · rw [hperf, ctr_incAt_same]
  · exact ctr_incAt_same _ _ _ _

@[simp] theorem inc_svc (p k : Nat) (d : Dev) : (inc p k d).svc = d.svc := by
  have h := congrArg Dev.svc (inc_tallies p k d).kept; exact h
@[simp] theorem fire_svc (p n : Nat) (d : Dev) : (fire p n d).svc = d.svc := (fire_beside p n d).svc

/-- WHEEL_TICK (R401). -/
theorem wheelTick_does {slot : BitVec 16} {s : State} {d : Dev} (hruns : Runs 98 s d) :
    ((∀ x, find? d.svc.wheel slot.toNat = some x → x.1 = 0xF400) → Leaves (.wheelTick slot) s d) ∧
    (∀ o p, find? d.svc.wheel slot.toNat = some (o, p) → o ≠ 0xF400 → let due := look d.svc.wheelDue slot.toNat 0
      let later := ins d.svc.wheelDue slot.toNat (due + p * 1000000)
      (d.mono < due → Leaves (.wheelTick slot) s d) ∧
      (due ≤ d.mono → d.svc.ringBuf.length < 1024 → rget SVC_RING_BASE.BASE 0 0 d = 0 → Leaves (.wheelTick slot) s { d with svc := { d.svc with
        wheelDue := later, ringBuf := d.svc.ringBuf ++ [(2 * 2 ^ 24 + slot.toNat, 0, timeNsOf d.spn.time % 2 ^ 64)] } }) ∧
      (due ≤ d.mono → 1024 ≤ d.svc.ringBuf.length → Does (.wheelTick slot) s fun e => e.svc = { d.svc with wheelDue := later } ∧
        bit (face Pg.SVC e).pend 1 = true ∧ ctr Pg.SVC 0x1038 e = (ctr Pg.SVC 0x1038 d + 1) % 2 ^ 64)) := by
  refine ⟨fun hfw => act_does rfl hruns fun e he => ?_, fun o p hslot ho => ?_⟩
  · have hidle : wheelTick slot.toNat d = d := by
      unfold wheelTick
      split
      · next o p hslot => exact if_pos (.inl (hfw _ hslot))
      · rfl
    rwa [hidle] at he
  · intro due later
    have htick : wheelTick slot.toNat d = if o = 0xF400 ∨ d.mono < due then d
        else ringPush 2 0 slot.toNat 0 (onSvc (fun s => { s with wheelDue := ins s.wheelDue slot.toNat (due + p * 1000000) }) d) := by
      simp only [wheelTick, hslot]
      rfl
    have hnow (hdue : due ≤ d.mono) : wheelTick slot.toNat d =
        ringPush 2 0 slot.toNat 0 (onSvc (fun s => { s with wheelDue := ins s.wheelDue slot.toNat (due + p * 1000000) }) d) := by
      rw [htick, if_neg (not_or.2 ⟨ho, by omega⟩)]
    refine ⟨fun hearly => ?_, fun hdue hroom hoff => ?_, fun hdue hfull => ?_⟩
    · refine act_does rfl hruns fun e he => ?_
      rwa [htick, if_pos (.inr hearly)] at he
    · refine act_does rfl hruns fun e he => ?_
      have hwaits := ringPush_waits (d := onSvc (fun s => { s with wheelDue := later }) d) hroom hoff 2 0 slot.toNat 0
      rw [hnow hdue] at he
      have he := hwaits ▸ he
      have hlow : slot.toNat % 65536 = slot.toNat := Nat.mod_eq_of_lt slot.isLt
      rw [hlow] at he
      exact he
    · refine act_does rfl hruns fun e he => ?_
      rw [hnow hdue, ringPush_full (by simpa using hfull)] at he
      have hfire := (fire_beside ..).trans he
      refine ⟨he.svc.trans (by rw [fire_svc, inc_svc]; rfl), ?_, ?_⟩
      · rw [he.face, face_fire_same]
        exact bit_setBit_same _ _
      · rw [hfire.counts _ _ (by decide) (by decide) (by decide)]
        exact ctr_inc_same Pg.SVC 7 _

end Sys2Proof.Machine

/-! The firmware slots (R230, R412, R494). -/

namespace Sys2Proof.Machine

open Safety

@[simp] theorem rget_onSvc (f : Fld) (g i : Nat) (u : Svc → Svc) (d : Dev) : rget f g i (onSvc u d) = rget f g i d := rfl
@[simp] theorem hwdLog_svc (kind type inst code data : Nat) (d : Dev) : (hwdLog kind type inst code data d).svc = d.svc := by
  obtain h | ⟨v, h⟩ := hwdLog_tallies kind type inst code data d
  · have hk := congrArg Dev.svc h.kept; exact hk
  · have hk := congrArg Dev.svc h.kept; exact hk
@[simp] theorem hwdLog_mono (kind type inst code data : Nat) (d : Dev) : (hwdLog kind type inst code data d).mono = d.mono := by
  obtain h | ⟨v, h⟩ := hwdLog_tallies kind type inst code data d
  · have hk := congrArg Dev.mono h.kept; exact hk
  · have hk := congrArg Dev.mono h.kept; exact hk

/-! The event ring moves its buffer and its HEAD, beside events and counters. -/

structure RingMoves (d e : Dev) : Prop where
  svc : { e.svc with ringBuf := d.svc.ringBuf } = d.svc
  rget : ∀ f g i, f.key g i ≠ SVC_RING_HEAD.HEAD.key 0 0 → rget f g i e = rget f g i d

theorem RingMoves.refl (d : Dev) : RingMoves d d := ⟨rfl, fun _ _ _ _ => rfl⟩

theorem RingMoves.trans {x y z : Dev} (h : RingMoves x y) (k : RingMoves y z) : RingMoves x z :=
  ⟨(congrArg (fun s : Svc => { s with ringBuf := x.svc.ringBuf }) k.svc).trans h.svc, fun f g i hf => (k.rget f g i hf).trans (h.rget f g i hf)⟩

theorem ringWrite_moves (d : Dev) : RingMoves d (ringWrite d) := by
  unfold ringWrite
  split
  · exact .refl d
  · refine ⟨?_, fun f g i hf => ?_⟩
    · rw [fire_svc]; rfl
    · rw [rget_fire, rget_rset_ne _ _ hf]; rfl

theorem ringDrain_moves (d : Dev) : RingMoves d (ringDrain d) := by
  have repeated (n : Nat) : RingMoves d (Nat.repeat ringWrite n d) := by
    induction n with
    | zero => exact .refl d
    | succ n ih => exact ih.trans (ringWrite_moves _)
  unfold ringDrain
  split
  · exact repeated _
  · exact .refl d

theorem ringPush_moves (kind mid low diag : Nat) (d : Dev) : RingMoves d (ringPush kind mid low diag d) := by
  unfold ringPush
  split
  · exact ⟨by rw [fire_svc, inc_svc], fun f g i _ => by rw [rget_fire, rget_inc]⟩
  · refine RingMoves.trans ?_ (ringDrain_moves _)
    exact ⟨rfl, fun _ _ _ _ => rfl⟩

/-! The grants of a slot's regions. -/

theorem ownerKey_inj {j k : Nat} (h : MEM_GRANTr.OWNER.key 0 j = MEM_GRANTr.OWNER.key 0 k) : j = k := by
  simp only [Fld.key, MEM_GRANTr.OWNER, Reg.addr, Reg.lay] at h
  omega

/-- No field below the MEM page is a grant. -/
theorem key_ne_owner {f : Fld} {g i : Nat} (h : f.key g i < 0xF00000 * 1024) (j : Nat) : f.key g i ≠ MEM_GRANTr.OWNER.key 0 j := by
  simp only [Fld.key, MEM_GRANTr.OWNER, Reg.addr, Reg.lay] at h ⊢
  omega

@[simp] theorem slotGrant_svc (k owner : Nat) (d : Dev) : (slotGrant k owner d).svc = d.svc := rfl
@[simp] theorem slotGrant_mono (k owner : Nat) (d : Dev) : (slotGrant k owner d).mono = d.mono := rfl
@[simp] theorem face_slotGrant (p k owner : Nat) (d : Dev) : face p (slotGrant k owner d) = face p d := rfl

theorem rget_slotGrant_ne {f : Fld} {g i : Nat} (h : f.key g i < 0xF00000 * 1024) (k owner : Nat) (d : Dev) :
    rget f g i (slotGrant k owner d) = rget f g i d := by
  simp only [slotGrant, List.foldl_cons, List.foldl_nil, rget_rset_ne _ _ (key_ne_owner h _)]

theorem rget_slotGrant {j : Nat} (hj : j < 4) (k owner : Nat) (d : Dev) :
    rget MEM_GRANTr.OWNER 0 (64 + 4 * k + j) (slotGrant k owner d) = owner % 8 := by
  have ne {a b : Nat} (h : a ≠ b) : MEM_GRANTr.OWNER.key 0 (64 + 4 * k + a) ≠ MEM_GRANTr.OWNER.key 0 (64 + 4 * k + b) :=
    fun hk => h (by have := ownerKey_inj hk; omega)
  simp only [slotGrant, List.foldl_cons, List.foldl_nil]
  obtain rfl | hj3 := eq_or_ne j 3
  · exact rget_rset_same ..
  rw [rget_rset_ne _ _ (ne hj3)]
  obtain rfl | hj2 := eq_or_ne j 2
  · exact rget_rset_same ..
  rw [rget_rset_ne _ _ (ne hj2)]
  obtain rfl | hj1 := eq_or_ne j 1
  · exact rget_rset_same ..
  rw [rget_rset_ne _ _ (ne hj1)]
  obtain rfl : j = 0 := by omega
  exact rget_rset_same ..

/-! FW_VERIFY and FW_START (R412, R494). -/

theorem slotField_key_ne (k : Nat) {r : Reg} {g i : Nat} (hA : ∀ x ∈ r.fields, SVC_FW_STAT.STATE_A.key 0 0 ≠ (x.fld r).key g i)
    (hB : ∀ x ∈ r.fields, SVC_FW_STAT.STATE_B.key 0 0 ≠ (x.fld r).key g i) : ∀ x ∈ r.fields, (slotField k).key 0 0 ≠ (x.fld r).key g i := by
  unfold slotField
  split <;> assumption

section
variable {img : Nat} {d : Dev}

@[simp] theorem rget_slot_stored (k : Nat) : rget (slotField k) 0 0 (storeFields false .SVC_FW_CMD 0 0 img d) = rget (slotField k) 0 0 d :=
  rget_storeFields_ne _ _ _ (slotField_key_ne k (by decide +kernel) (by decide +kernel))
@[simp] theorem fwRun_stored : fwRun (storeFields false .SVC_FW_CMD 0 0 img d) = fwRun d := rget_storeFields_ne _ _ _ (by decide +kernel)
@[simp] theorem switching_stored : flag SVC_FW_STAT.SWITCHING 0 0 (storeFields false .SVC_FW_CMD 0 0 img d) = flag SVC_FW_STAT.SWITCHING 0 0 d :=
  congrArg (· != 0) (rget_storeFields_ne _ _ _ (by decide +kernel))
@[simp] theorem owner_stored (j : Nat) : rget MEM_GRANTr.OWNER 0 j (storeFields false .SVC_FW_CMD 0 0 img d) = rget MEM_GRANTr.OWNER 0 j d := by
  have low : ∀ x ∈ Reg.SVC_FW_CMD.fields, (x.fld .SVC_FW_CMD).key 0 0 < 0xF00000 * 1024 := by decide +kernel
  exact rget_storeFields_ne _ _ _ fun x hx => (key_ne_owner (low x hx) j).symm
@[simp] theorem slotImage_stored (k : Nat) : slotImage k (storeFields false .SVC_FW_CMD 0 0 img d) = slotImage k d := by
  simp only [slotImage, storeFields_banks]

end

section
variable {req : Requester} {w : BitVec 32} {s : State} {d : Dev} {img : Nat}

theorem fwImg_go {op : Nat} (hop : op < 2) (hcom : Commits req .SVC_FW_CMD 0 0 (go w 30 30 op) s d img) :
    SVC_FW_CMD.GO.on img = true ∧ SVC_FW_CMD.OP.on img = decide (op = 1) := by
  have himg := (img_eq_of_one_word hcom rfl).trans (go_eq w hop)
  have hgo : img / 2 ^ 31 % 2 = 1 := by omega
  have hrel : img / 2 ^ 30 % 2 = op := by omega
  refine ⟨(on_bit _ _ _).trans ?_, (on_bit _ _ _).trans ?_⟩
  · rw [hgo]; rfl
  · rw [hrel]
    obtain rfl | rfl : op = 0 ∨ op = 1 := by omega
    · rfl
    · rfl

/-- FW_VERIFY (R412, R494). -/
theorem fwVerify_does (hcom : Commits req .SVC_FW_CMD 0 0 (go w 30 30 0) s d img) :
    let k := SVC_FW_CMD.SLOT.of img
    let st (e : Dev) : Nat := rget (slotField k) 0 0 e
    let signed := rget (slotField k) 0 0 d ≠ 0 ∧ Config.fwSigned (slotImage k d) (look d.vlt.slots 0 []) = true
    (fwRun d = k + 1 → Does (.fwVerify req w) s fun e => (face Pg.SVC e).errCode = 0x21 ∧ st e = st d) ∧
    (fwRun d ≠ k + 1 → signed → Does (.fwVerify req w) s fun e => st e = 2) ∧
    (fwRun d ≠ k + 1 → ¬signed → Does (.fwVerify req w) s fun e => st e = 3 ∧ (face Pg.SVC e).errCode = 0x20) := by
  intro k st signed
  obtain ⟨hgo, hop⟩ := fwImg_go (by decide) hcom
  have hdoes : Does (.fwVerify req w) s (SvcShows (fwCmdWrite img d)) := cmd_shows rfl (by decide +kernel) hcom
  have hver : fwCmdWrite img d = fwVerify k (storeFields false .SVC_FW_CMD 0 0 img d) := by
    simp [fwCmdWrite, hgo, hop, k]
  have hset (v : Nat) (x : Dev) : rget (slotField k) 0 0 (rset (slotField k) 0 0 v x) = v % 4 := by
    rw [rget_rset_same]
    unfold slotField
    split <;> rfl
  rw [hver, fwVerify, fwRun_stored, rget_slot_stored, slotImage_stored, storeFields_vlt] at hdoes
  refine ⟨fun hrun => ?_, fun hrun hsig => ?_, fun hrun hsig => ?_⟩
  · rw [if_pos hrun] at hdoes
    exact Does.imp hdoes fun e he => ⟨he.code.trans (errAt_code ..), (he.rget ..).trans (rget_slot_stored k)⟩
  · rw [if_neg hrun, if_pos hsig] at hdoes
    exact Does.imp hdoes fun e he => (he.rget ..).trans (hset 2 _)
  · rw [if_neg hrun, if_neg hsig] at hdoes
    exact Does.imp hdoes fun e he => ⟨(he.rget ..).trans (hset 3 _), he.code.trans (errAt_code ..)⟩

end

/-- A slot's image is started: its regions go to SVC, and RUN names it at once, or a switch-over begins. -/
def fwBegin (k : Nat) (d : Dev) : Dev :=
  let d := onSvc (fun x => { x with switchAt := d.mono }) (hwdLog 10 0 0 0 k (slotGrant k 2 d))
  if fwRun d = 0 then
    let (v, d) := draw d
    onSvc (fun x => { x with starting := true }) (rset SVC_FW_STAT.VERSION 0 0 v (rset SVC_FW_STAT.RUN 0 0 (k + 1) d))
  else rset SVC_FW_STAT.SWITCHING 0 0 1 (onSvc (fun x => { x with starting := true, old := some (fwRun d - 1) }) d)

section
variable (k : Nat) (d : Dev)

theorem fwRun_granted : fwRun (onSvc (fun x => { x with switchAt := d.mono }) (hwdLog 10 0 0 0 k (slotGrant k 2 d))) = fwRun d := by
  rw [fwRun, rget_onSvc, rget_hwdLog_ne (by decide +kernel), rget_slotGrant_ne (by decide +kernel)]
  rfl

theorem fwBegin_svc : (fwBegin k d).svc = if fwRun d = 0 then { d.svc with switchAt := d.mono, starting := true }
    else { d.svc with switchAt := d.mono, starting := true, old := some (fwRun d - 1) } := by
  unfold fwBegin
  extract_lets d1
  have h1 : fwRun d1 = fwRun d := fwRun_granted k d
  have hsvc : d1.svc = { d.svc with switchAt := d.mono } := by simp [d1, onSvc]
  clear_value d1
  rw [h1, apply_ite Dev.svc]
  simp only [draw, onSvc, rset_svc, hsvc] <;> rfl

theorem fwBegin_owner {j : Nat} (hj : j < 4) : rget MEM_GRANTr.OWNER 0 (64 + 4 * k + j) (fwBegin k d) = 2 := by
  unfold fwBegin
  extract_lets d1
  have hne : MEM_GRANTr.OWNER.key 0 (64 + 4 * k + j) ≠ HWD_PTR1.LOG_NEXT.key 0 0 := by
    simp only [Fld.key, MEM_GRANTr.OWNER, HWD_PTR1.LOG_NEXT, Reg.addr, Reg.lay]
    omega
  have h1 : rget MEM_GRANTr.OWNER 0 (64 + 4 * k + j) d1 = 2 := by
    rw [rget_onSvc, rget_hwdLog_ne hne, rget_slotGrant hj]
  clear_value d1
  have hset {f : Fld} (h : f.key 0 0 < 0xF00000 * 1024) (v : Nat) (x : Dev) :
      rget MEM_GRANTr.OWNER 0 (64 + 4 * k + j) (rset f 0 0 v x) = rget MEM_GRANTr.OWNER 0 (64 + 4 * k + j) x :=
    rget_rset_ne _ _ (key_ne_owner h _).symm
  split
  · simp only [draw, rget_onSvc]
    rw [hset (by decide +kernel), hset (by decide +kernel)]
    exact h1
  · rw [hset (by decide +kernel)]
    exact h1

theorem fwBegin_fwRun : (fwRun d = 0 → fwRun (fwBegin k d) = (k + 1) % 4) ∧
    (fwRun d ≠ 0 → fwRun (fwBegin k d) = fwRun d ∧ flag SVC_FW_STAT.SWITCHING 0 0 (fwBegin k d) = true) := by
  unfold fwBegin
  extract_lets d1
  have h1 : fwRun d1 = fwRun d := fwRun_granted k d
  clear_value d1
  rw [h1]
  refine ⟨fun h => ?_, fun h => ?_⟩
  · rw [if_pos h]
    simp only [draw, fwRun, rget_onSvc]
    rw [rget_rset_ne _ _ (by decide +kernel), rget_rset_same]
    rfl
  · rw [if_neg h]
    exact ⟨(rget_rset_ne _ _ (by decide +kernel)).trans h1, by simp only [flag, rget_rset_same]; rfl⟩

end

section
variable {req : Requester} {w : BitVec 32} {s : State} {d : Dev} {img : Nat}

/-- FW_START (R412, R494). -/
theorem fwStart_does (hcom : Commits req .SVC_FW_CMD 0 0 (go w 30 30 1) s d img) :
    let k := SVC_FW_CMD.SLOT.of img
    let own (j : Nat) (e : Dev) : Nat := rget MEM_GRANTr.OWNER 0 (64 + 4 * k + j) e
    let refused (c : Nat) : Prop := Does (.fwStart req w) s fun e => (face Pg.SVC e).errCode = c ∧ fwRun e = fwRun d ∧ e.svc = d.svc
    let runs := fwRun d = k + 1 ∨ flag SVC_FW_STAT.SWITCHING 0 0 d = true
    let held := ∃ j < 4, own j d = 1 ∨ own j d = 2
    (runs → refused 0x21) ∧ (¬runs → rget (slotField k) 0 0 d ≠ 2 → refused Err.NOT_READY) ∧
    (¬runs → rget (slotField k) 0 0 d = 2 → held → refused 0x22) ∧
    (¬runs → rget (slotField k) 0 0 d = 2 → ¬held → Does (.fwStart req w) s fun e => e.svc.starting = true ∧ e.svc.switchAt = d.mono ∧ (∀ j < 4, own j e = 2) ∧
      (fwRun d = 0 → fwRun e = k + 1) ∧ (fwRun d ≠ 0 → fwRun e = fwRun d ∧ flag SVC_FW_STAT.SWITCHING 0 0 e = true ∧ e.svc.old = some (fwRun d - 1))) := by
  intro k own refused runs held
  obtain ⟨hgo, hop⟩ := fwImg_go (by decide) hcom
  have hdoes : Does (.fwStart req w) s (SvcShows (fwCmdWrite img d)) := cmd_shows rfl (by decide +kernel) hcom
  let d1 := storeFields false .SVC_FW_CMD 0 0 img d
  have hstart : fwCmdWrite img d = if runs then errAt 0x21 .SVC_FW_CMD 0 0 d1
      else if rget (slotField k) 0 0 d ≠ 2 then errAt Err.NOT_READY .SVC_FW_CMD 0 0 d1
      else if held then errAt 0x22 .SVC_FW_CMD 0 0 d1 else fwBegin k d1 := by
    have hheld : ([0, 1, 2, 3].any fun j => own j d == 1 || own j d == 2) = true ↔ held := by
      simp only [List.any_eq_true, Bool.or_eq_true, beq_iff_eq, held]
      exact exists_congr fun j => and_congr_left' (by simp; omega)
    have hcmd : fwCmdWrite img d = fwStart k d1 := by simp [fwCmdWrite, hgo, hop, k, d1]
    rw [hcmd, fwStart, fwRun_stored, switching_stored, rget_slot_stored]
    simp only [d1, owner_stored]
    exact if_congr Iff.rfl rfl (if_congr Iff.rfl rfl (if_congr hheld rfl rfl))
  have hrefused (c : Nat) (e : Dev) (he : SvcShows (errAt c .SVC_FW_CMD 0 0 d1) e) :
      (face Pg.SVC e).errCode = c ∧ fwRun e = fwRun d ∧ e.svc = d.svc :=
    ⟨he.code.trans (errAt_code ..), (he.rget ..).trans fwRun_stored, he.svc.trans (storeFields_svc ..)⟩
  rw [hstart] at hdoes
  refine ⟨fun hr => ?_, fun hr hst => ?_, fun hr hst hh => ?_, fun hr hst hh => ?_⟩
  · rw [if_pos hr] at hdoes
    exact Does.imp hdoes (hrefused _)
  · rw [if_neg hr, if_pos hst] at hdoes
    exact Does.imp hdoes (hrefused _)
  · rw [if_neg hr, if_neg (not_not.2 hst), if_pos hh] at hdoes
    exact Does.imp hdoes (hrefused _)
  · rw [if_neg hr, if_neg (not_not.2 hst), if_neg hh] at hdoes
    refine Does.imp hdoes fun e he => ?_
    obtain ⟨hfirst, hswitch⟩ := fwBegin_fwRun k d1
    have hsvc := he.svc.trans (fwBegin_svc k d1)
    have hrun : fwRun d1 = fwRun d := fwRun_stored
    have hk : k < 2 := Nat.mod_lt _ (by decide)
    rw [hrun] at hfirst hswitch hsvc
    have he_run : fwRun e = fwRun (fwBegin k d1) := he.rget ..
    refine ⟨?_, ?_, fun j hj => (he.rget ..).trans (fwBegin_owner k d1 hj), fun h => ?_, fun h => ?_⟩
    · rw [hsvc]; split <;> rfl
    · rw [hsvc]; split <;> exact storeFields_mono ..
    · rw [he_run, hfirst h]; omega
    · obtain ⟨hr', hsw⟩ := hswitch h
      refine ⟨he_run.trans hr', (congrArg (· != 0) (he.rget ..)).trans hsw, ?_⟩
      rw [hsvc, if_neg h]

end

/-! The end of a switch-over (R230, R494). -/

/-- A switch-over ends with an image running: the other slot's regions are given to HOST, and the event is written and fires. -/
def switchEnds (running version slot code ev : Nat) (d : Dev) : Dev :=
  fire Pg.SVC ev (ringFw code (slotGrant slot 3 (rset SVC_FW_STAT.SWITCHING 0 0 0 (onSvc (fun x => { x with starting := false, old := none })
    (rset SVC_FW_STAT.VERSION 0 0 version (rset SVC_FW_STAT.RUN 0 0 running d))))))

theorem switchEnds_svc (running version slot code ev : Nat) (d : Dev) :
    { (switchEnds running version slot code ev d).svc with ringBuf := d.svc.ringBuf } = { d.svc with starting := false, old := none } := by
  rw [switchEnds, fire_svc]
  exact (ringPush_moves ..).svc

theorem rget_switchEnds {f : Fld} {g i : Nat} (hf : f.key g i ≠ SVC_RING_HEAD.HEAD.key 0 0) (running version slot code ev : Nat) (d : Dev) :
    rget f g i (switchEnds running version slot code ev d) = rget f g i (slotGrant slot 3 (rset SVC_FW_STAT.SWITCHING 0 0 0
      (onSvc (fun x => { x with starting := false, old := none }) (rset SVC_FW_STAT.VERSION 0 0 version (rset SVC_FW_STAT.RUN 0 0 running d))))) := by
  rw [switchEnds, rget_fire]
  exact (ringPush_moves ..).rget f g i hf

/-- What a device shows once a switch-over has ended. -/
structure Switched (running slot ev : Nat) (e : Dev) : Prop where
  run : fwRun e = running % 4
  switching : flag SVC_FW_STAT.SWITCHING 0 0 e = false
  old : e.svc.old = none
  starting : e.svc.starting = false
  gives : ∀ j < 4, rget MEM_GRANTr.OWNER 0 (64 + 4 * slot + j) e = 3
  fires : bit (face Pg.SVC e).pend ev = true

theorem switchEnds_switched (running version slot code ev : Nat) (d : Dev) : Switched running slot ev (switchEnds running version slot code ev d) := by
  have hsvc := switchEnds_svc running version slot code ev d
  refine ⟨?_, ?_, ?_, ?_, fun j hj => ?_, ?_⟩
  · rw [fwRun, rget_switchEnds (by decide +kernel), rget_slotGrant_ne (by decide +kernel), rget_rset_ne _ _ (by decide +kernel), rget_onSvc,
      rget_rset_ne _ _ (by decide +kernel), rget_rset_same]
    rfl
  · rw [flag, rget_switchEnds (by decide +kernel), rget_slotGrant_ne (by decide +kernel), rget_rset_same]
    rfl
  · exact (congrArg Svc.old hsvc :)
  · exact (congrArg Svc.starting hsvc :)
  · have hne := key_ne_owner (f := SVC_RING_HEAD.HEAD) (g := 0) (i := 0) (by decide +kernel) (64 + 4 * slot + j)
    rw [rget_switchEnds hne.symm, rget_slotGrant hj]
  · rw [switchEnds, face_fire_same]
    exact bit_setBit_same _ _

theorem Switched.beside {running slot ev : Nat} {d e : Dev} (h : Switched running slot ev d) (he : Beside d e) : Switched running slot ev e := by
  obtain ⟨hrun, hsw, hold, hst, hgive, hfire⟩ := h
  have hflag : flag SVC_FW_STAT.SWITCHING 0 0 e = flag SVC_FW_STAT.SWITCHING 0 0 d := congrArg (· != 0) (he.rget ..)
  exact ⟨(he.rget ..).trans hrun, hflag.trans hsw, he.svc ▸ hold, he.svc ▸ hst, fun j hj => (he.rget ..).trans (hgive j hj), by rw [he.face]; exact hfire⟩

theorem mboxResume_none {d : Dev} (h : d.svc.held = none) : mboxResume d = d := by simp only [mboxResume, h]

theorem mboxResume_switchEnds {d : Dev} (h : d.svc.held = none) (running version slot code ev : Nat) :
    mboxResume (switchEnds running version slot code ev d) = switchEnds running version slot code ev d := by
  have hsvc := congrArg Svc.held (switchEnds_svc running version slot code ev d)
  exact mboxResume_none (Eq.trans hsvc h)

section
variable {d : Dev} {o : Nat} (hold : d.svc.old = some o)
include hold

theorem fwTakeover_eq : fwTakeover d = if flag SVC_FW_STAT.SWITCHING 0 0 d = true ∧ fwRun d = o + 1 then
    rset SVC_FW_STAT.VERSION 0 0 (draw d).1 (rset SVC_FW_STAT.RUN 0 0 (2 - o) (draw d).2) else d := by
  simp only [fwTakeover, hold, Bool.and_eq_true, beq_iff_eq]

theorem fwReady_switches (hsw : flag SVC_FW_STAT.SWITCHING 0 0 d = true) (hrun : fwRun d = o + 1) (hst : d.svc.starting = true)
    (hheld : d.svc.held = none) : fwReady d = switchEnds (2 - o) (draw d).1 o 1 3 (draw d).2 := by
  rw [← mboxResume_switchEnds (d := (draw d).2) hheld, fwReady, hst, hold, if_neg (by simp)]
  simp only [fwTakeover_eq hold, if_pos (And.intro hsw hrun)]
  rfl

theorem fwTimeout_early (h : d.mono < d.svc.switchAt + 100000000) : fwTimeout d = d := by
  simp only [fwTimeout, hold, if_pos h]

theorem fwTimeout_switches (h : d.svc.switchAt + 100000000 ≤ d.mono) (hheld : d.svc.held = none) :
    ∃ v x, fwTimeout d = switchEnds (o + 1) v (1 - o) 2 2 x := by
  by_cases hrun : fwRun d = o + 1
  · refine ⟨rget SVC_FW_STAT.VERSION 0 0 d, d, ?_⟩
    rw [← mboxResume_switchEnds hheld]
    simp only [fwTimeout, hold, if_neg (Nat.not_lt.2 h), if_pos hrun]
    rfl
  · refine ⟨(draw d).1, (draw d).2, ?_⟩
    rw [← mboxResume_switchEnds (d := (draw d).2) hheld]
    simp only [fwTimeout, hold, if_neg (Nat.not_lt.2 h), if_neg hrun]
    rfl

end

/-- FW_TAKEOVER, FW_READY and FW_SWITCH_TIMEOUT (R230, R494). -/
theorem fwSwitch_does {s : State} {d : Dev} (hruns : Runs 98 s d) : let sw (e : Dev) : Bool := flag SVC_FW_STAT.SWITCHING 0 0 e
    (d.svc.old = none → Leaves .fwTakeover s d ∧ Leaves .fwSwitchTimeout s d) ∧
    (d.svc.starting = false → Leaves .fwReady s d) ∧
    (d.svc.starting = true → d.svc.old = none → Does .fwReady s fun e => e.svc.starting = false ∧ bit (face Pg.SVC e).pend 3 = true ∧ fwRun e = fwRun d) ∧
    (∀ o, d.svc.old = some o → o ≤ 1 → let gives (k : Nat) (e : Dev) : Prop := ∀ j < 4, rget MEM_GRANTr.OWNER 0 (64 + 4 * k + j) e = 3
      (sw d = true → fwRun d = o + 1 → Does .fwTakeover s fun e => fwRun e = 2 - o ∧ e.svc = d.svc) ∧
      (sw d = false ∨ fwRun d ≠ o + 1 → Leaves .fwTakeover s d) ∧
      (sw d = true → fwRun d = o + 1 → d.svc.starting = true → d.svc.held = none → Does .fwReady s fun e => fwRun e = 2 - o ∧ sw e = false ∧
        e.svc.old = none ∧ e.svc.starting = false ∧ gives o e ∧ bit (face Pg.SVC e).pend 3 = true) ∧
      (d.mono < d.svc.switchAt + 100000000 → Leaves .fwSwitchTimeout s d) ∧
      (d.svc.switchAt + 100000000 ≤ d.mono → d.svc.held = none → Does .fwSwitchTimeout s fun e => fwRun e = o + 1 ∧ sw e = false ∧ e.svc.old = none ∧ e.svc.starting = false ∧
        gives (1 - o) e ∧ bit (face Pg.SVC e).pend 2 = true)) := by
  intro sw
  refine ⟨fun hold => ⟨?_, ?_⟩, fun hst => ?_, fun hst hold => ?_, fun o hold ho => ?_⟩
  · have hrun : fwTakeover d = d := by simp only [fwTakeover, hold]
    exact act_does rfl hruns fun e he => hrun ▸ he
  · have hrun : fwTimeout d = d := by simp only [fwTimeout, hold]
    exact act_does rfl hruns fun e he => hrun ▸ he
  · have hrun : fwReady d = d := by simp [fwReady, hst]
    exact act_does rfl hruns fun e he => hrun ▸ he
  · have hrun : fwReady d = fire Pg.SVC 3 (ringFw 1 (onSvc (fun x => { x with starting := false }) d)) := by
      simp only [fwReady, hst, hold, Bool.not_true, Bool.false_eq_true, if_false]
    refine act_does rfl hruns fun e he => ?_
    rw [hrun] at he
    have hring : RingMoves _ (ringFw 1 (onSvc (fun x => { x with starting := false }) d)) := ringPush_moves ..
    refine ⟨?_, ?_, ?_⟩
    · rw [he.svc, fire_svc]
      exact (congrArg Svc.starting hring.svc :)
    · rw [he.face, face_fire_same]
      exact bit_setBit_same _ _
    · rw [fwRun, he.rget, rget_fire, hring.rget _ _ _ (by decide +kernel)]
      rfl
  · intro gives
    refine ⟨fun hsw hrun => ?_, fun hno => ?_, fun hsw hrun hst hheld => ?_, fun hearly => ?_, fun hlate hheld => ?_⟩
    · refine act_does rfl hruns fun e he => ?_
      rw [fwTakeover_eq hold, if_pos (And.intro hsw hrun)] at he
      refine ⟨?_, he.svc⟩
      rw [fwRun, he.rget, rget_rset_ne _ _ (by decide +kernel), rget_rset_same]
      exact Nat.mod_eq_of_lt (lt_of_le_of_lt (Nat.sub_le ..) (by decide))
    · refine act_does rfl hruns fun e he => ?_
      have hnot : ¬(flag SVC_FW_STAT.SWITCHING 0 0 d = true ∧ fwRun d = o + 1) :=
        fun ⟨hs, hr⟩ => hno.elim (fun h => Bool.false_ne_true (h.symm.trans hs)) (fun h => h hr)
      rwa [fwTakeover_eq hold, if_neg hnot] at he
    · refine act_does rfl hruns fun e he => ?_
      rw [fwReady_switches hold hsw hrun hst hheld] at he
      obtain ⟨hr, hs, ho', hst', hgive, hfire⟩ := (switchEnds_switched ..).beside he
      exact ⟨hr.trans (Nat.mod_eq_of_lt (by omega)), hs, ho', hst', hgive, hfire⟩
    · refine act_does rfl hruns fun e he => ?_
      rwa [fwTimeout_early hold hearly] at he
    · refine act_does rfl hruns fun e he => ?_
      obtain ⟨v, x, hx⟩ := fwTimeout_switches hold hlate hheld
      rw [hx] at he
      obtain ⟨hr, hs, ho', hst', hgive, hfire⟩ := (switchEnds_switched ..).beside he
      exact ⟨hr.trans (Nat.mod_eq_of_lt (by omega)), hs, ho', hst', hgive, hfire⟩

end Sys2Proof.Machine

namespace Sys2Proof.Machine

open Safety

/-- A device whose staging copy of SVC_WHEEL_CMD holds 2^63 as its lowest word. -/
def wideWordStaged : State :=
  { dev := { sys := { porPin := false, chipHold := false }, faces := [(Pg.SVC, { Face.reset Pg.SVC with ready := true })],
             staged := [(stageKey .pcie Pg.SVC, { base := Reg.ofs .SVC_WHEEL_CMD 0 0, words := [(0, 2 ^ 63)] })] }, pending := [] }

/-- Refutes O39. The statement lets a staged word be any number. A lowest word of 2^63 carries out of the image's GO bit, so that the
claim, of OWNER_ID 0, is not judged at all and records no BAD_ARG. Over staged words of 32 bits the clauses on the wheel hold (`wheelClaim_does`,
`wheelRelease_does`). -/
theorem not_wheelRingAndFirmware : ¬ Obligations.WheelRingAndFirmware := by
  rintro ⟨hclaim, -⟩
  obtain ⟨hbad, -⟩ := hclaim .pcie 0 wideWordStaged _ _ ⟨⟨rfl, rfl⟩, by decide +kernel, rfl, rfl⟩
  obtain ⟨t, ht, -, hcode, -⟩ := hbad (.inl (by decide +kernel))
  have hrun : t = { wideWordStaged with dev := settle wideWordStaged.dev (cmd .pcie .SVC_WHEEL_CMD 0 0 (go 0 30 30 0) wideWordStaged.dev) } :=
    (Host.Outcome.next.inj ht).symm
  have hnone : (face Pg.SVC t.dev).errCode = 0 := by
    rw [hrun, face_settle]; decide +kernel
  simp [hnone] at hcode

end Sys2Proof.Machine

/-! Line ports: what each operation of the link machine changes of a port and of its registers (R56 to R61, R75). -/

namespace Sys2Proof.Safety

open Machine

theorem Beside.pget {x e : Dev} (h : Beside x e) (f : Fld) (n : Nat) : pget f n e = pget f n x := h.rget ..
theorem Beside.port {x e : Dev} (h : Beside x e) (n : Nat) : port n e = port n x := by simp only [Machine.port, h.ports]
theorem Beside.mem_out {x e : Dev} (h : Beside x e) {o : Out} (ho : o ∈ x.out) : o ∈ e.out := h.sends.1.subset ho

end Sys2Proof.Safety

namespace Sys2Proof.Machine

open Safety

/-! The fields of a port's registers, and its state. -/

/-- Fields of registers laid out alike, at different places. -/
def apart (f h : Fld) : Bool :=
  f.reg.lay.page == h.reg.lay.page && f.reg.lay.stride == h.reg.lay.stride && f.reg.lay.ofs * 1024 + f.lo != h.reg.lay.ofs * 1024 + h.lo

theorem key_ne_of_apart {f h : Fld} (ha : apart f h = true) (g i : Nat) : f.key g i ≠ h.key g i := by
  simp only [apart, Bool.and_eq_true, beq_iff_eq, bne_iff_ne] at ha
  obtain ⟨⟨hpage, hstride⟩, hplace⟩ := ha
  simp only [Fld.key, Reg.addr, hpage, hstride]
  exact fun hkey => hplace (by linarith)

section
variable (f : Fld) (n v : Nat) (d : Dev)

@[simp] theorem pget_pset_same : pget f n (pset f n v d) = v % 2 ^ f.w := rget_rset_same ..
@[simp] theorem pget_setPort (k : Nat) (x : PortSt) : pget f n (setPort k x d) = pget f n d := rfl
@[simp] theorem pget_fire (p k : Nat) : pget f n (fire p k d) = pget f n d := rget_fire ..
@[simp] theorem port_pset (k : Nat) : port k (pset f n v d) = port k d := rfl
@[simp] theorem port_setPort_same (x : PortSt) : port n (setPort n x d) = x := look_put_same ..
@[simp] theorem port_fire (k p b : Nat) : port k (fire p b d) = port k d := by simp only [port, (fire_beside p b d).ports, setFace_ports]
@[simp] theorem out_pset : (pset f n v d).out = d.out := rfl

end

theorem pget_pset_ne {f h : Fld} (ha : apart f h = true) (n v : Nat) (d : Dev) : pget f n (pset h n v d) = pget f n d :=
  rget_rset_ne _ _ (key_ne_of_apart ha _ _)

theorem port_setPort_ne {k n : Nat} (h : k ≠ n) (x : PortSt) (d : Dev) : port k (setPort n x d) = port k d := look_put_ne _ _ _ _ h

theorem pget_storeFields_ne {f : Fld} {r : Reg} (h : ∀ x ∈ r.fields, apart f (x.fld r) = true) (expert : Bool) (n img : Nat) (d : Dev) :
    pget f n (storeFields expert r (n / 4) (n % 4) img d) = pget f n d :=
  rget_storeFields_ne _ _ _ fun x hx => key_ne_of_apart (h x hx) _ _

@[simp] theorem storeFields_ports (expert : Bool) (r : Reg) (g i img : Nat) (d : Dev) : (storeFields expert r g i img d).ports = d.ports := by
  have h := congrArg Dev.ports (storeFields_frame expert r g i img d); exact h
@[simp] theorem storeFields_sys (expert : Bool) (r : Reg) (g i img : Nat) (d : Dev) : (storeFields expert r g i img d).sys = d.sys := by
  have h := congrArg Dev.sys (storeFields_frame expert r g i img d); exact h
@[simp] theorem storeFields_faces (expert : Bool) (r : Reg) (g i img : Nat) (d : Dev) : (storeFields expert r g i img d).faces = d.faces := by
  have h := congrArg Dev.faces (storeFields_frame expert r g i img d); exact h
@[simp] theorem storeFields_out (expert : Bool) (r : Reg) (g i img : Nat) (d : Dev) : (storeFields expert r g i img d).out = d.out := by
  have h := congrArg Dev.out (storeFields_frame expert r g i img d); exact h
@[simp] theorem port_storeFields (k : Nat) (expert : Bool) (r : Reg) (g i img : Nat) (d : Dev) :
    port k (storeFields expert r g i img d) = port k d := by simp [port]

theorem b2n_mod_two (b : Bool) : b2n b % 2 = b2n b := by cases b <;> rfl
theorem b2n_ne_zero (b : Bool) : (b2n b != 0) = b := by cases b <;> rfl

/-! What a watcher and the key windows leave of a port. -/

theorem mem_fire_out {d : Dev} {o : Out} (h : o ∈ d.out) (p n : Nat) : o ∈ (fire p n d).out := (fire_beside p n d).mem_out h

theorem keyTickPage_frame (k : Option Nat) (d : Dev) (p : Nat) : { keyTickPage k d p with faces := d.faces } = d := by
  unfold keyTickPage
  dsimp only
  split
  · rfl
  · split <;> rfl

/-- The key windows count in Faceplates alone (R42). -/
theorem keyTick_frame (req : Requester) (k : Option Nat) (d : Dev) : { keyTick req k d with faces := d.faces } = d := by
  have fold (l : List Nat) : ∀ d : Dev, { l.foldl (keyTickPage k) d with faces := d.faces } = d := by
    induction l with
    | nil => exact fun _ => rfl
    | cons p l ih => exact fun d => (congrArg (fun e : Dev => { e with faces := d.faces }) (ih _)).trans (keyTickPage_frame k d p)
  unfold keyTick
  split
  · exact fold _ d
  · rfl

@[simp] theorem keyTick_ports (req : Requester) (k : Option Nat) (d : Dev) : (keyTick req k d).ports = d.ports := by
  have h := congrArg Dev.ports (keyTick_frame req k d); exact h
@[simp] theorem keyTick_out (req : Requester) (k : Option Nat) (d : Dev) : (keyTick req k d).out = d.out := by
  have h := congrArg Dev.out (keyTick_frame req k d); exact h

/-- Device e shows the ports, the register fields and what has left the device as x does. -/
structure PortShows (x e : Dev) : Prop where
  ports : e.ports = x.ports
  flds : e.flds = x.flds
  out : ∀ o ∈ x.out, o ∈ e.out

theorem PortShows.port {x e : Dev} (h : PortShows x e) (n : Nat) : port n e = port n x := by simp only [Machine.port, h.ports]
theorem PortShows.rget {x e : Dev} (h : PortShows x e) (f : Fld) (g i : Nat) : rget f g i e = rget f g i x := by simp only [Machine.rget, h.flds]
theorem PortShows.pget {x e : Dev} (h : PortShows x e) (f : Fld) (n : Nat) : pget f n e = pget f n x := h.rget ..

/-- A register write shows at the ports what the commit does. -/
theorem shows_of_writes {req : Requester} {c : Instr} {s : State} {x : Dev} (h : Writes req c s x) : Does c s (PortShows x) :=
  Does.imp h fun _ he => ⟨he.ports.trans (keyTick_ports ..), he.flds.trans (keyTick_flds ..),
    fun _ ho => he.mem_out ((keyTick_out req none x).symm ▸ ho)⟩

/-! Events of the lines. -/

/-- What reaches a line port from outside is done, and what holds of its outcome beside the watchers holds afterwards. -/
theorem line_does {n : Nat} {c : Instr} {s : State} {d : Dev} {f : Dev → Dev} {P : Dev → Prop} (hc : exec c s = run (lineEvt n f) s)
    (h : Line n s d) (hp : ∀ e, Beside (f d) e → P e) : Does c s P := by
  obtain ⟨href, hruns⟩ := h
  have hact : lineEvt n f s.dev = f d := by rw [lineEvt, href, if_pos rfl, act_runs hruns]
  exact run_does hc (hact ▸ hp)

theorem line_leaves {n : Nat} {c : Instr} {s : State} {d x : Dev} {f : Dev → Dev} (hc : exec c s = run (lineEvt n f) s)
    (h : Line n s d) (hx : f d = x) : Leaves c s x := line_does hc h fun _ he => hx ▸ he

theorem act_leaves {n : Nat} {c : Instr} {s : State} {d x : Dev} {f : Dev → Dev} (hc : exec c s = run (act n f) s)
    (h : Runs n s d) (hx : f d = x) : Leaves c s x := act_does hc h fun _ he => hx ▸ he

/-! The steps of the link machine (R60). -/

section
variable (n st : Nat) (d : Dev)

theorem linkState_linkTo (h : st < 8) : linkState n (linkTo n st d) = st := (pget_pset_same ..).trans (Nat.mod_eq_of_lt h)
theorem pget_linkTo {f : Fld} (h : apart f LPG_PORTn_STAT.LINK_STATE = true) : pget f n (linkTo n st d) = pget f n d := pget_pset_ne h ..
@[simp] theorem port_linkTo : port n (linkTo n st d) = { port n d with clean := false, expired := false, anWait := false } := port_setPort_same ..
@[simp] theorem out_linkTo : (linkTo n st d).out = d.out := rfl

variable (up : Bool)

/-- LINK_UP stands, or changes and fires LINK_CHG. -/
theorem setLinkUp_eq : setLinkUp n up d =
    if pflag LPG_PORTn_STAT.LINK_UP n d = up then d else portFire n 0 (pset LPG_PORTn_STAT.LINK_UP n (b2n up) d) := by
  simp only [setLinkUp, beq_iff_eq]

@[simp] theorem pflag_setLinkUp : pflag LPG_PORTn_STAT.LINK_UP n (setLinkUp n up d) = up := by
  rw [setLinkUp_eq]
  split
  · assumption
  · rw [pflag, portFire, pget_fire, pget_pset_same]
    exact (congrArg (· != 0) (b2n_mod_two up)).trans (b2n_ne_zero up)

theorem pget_setLinkUp {f : Fld} (h : apart f LPG_PORTn_STAT.LINK_UP = true) : pget f n (setLinkUp n up d) = pget f n d := by
  rw [setLinkUp_eq]
  split
  · rfl
  · rw [portFire, pget_fire, pget_pset_ne h]

@[simp] theorem port_setLinkUp : port n (setLinkUp n up d) = port n d := by
  rw [setLinkUp_eq]
  split
  · rfl
  · exact port_fire ..

theorem mem_setLinkUp_out {o : Out} (h : o ∈ d.out) : o ∈ (setLinkUp n up d).out := by
  rw [setLinkUp_eq]
  split
  · exact h
  · exact mem_fire_out (d := pset LPG_PORTn_STAT.LINK_UP n (b2n up) d) h _ _

/-- A change of LINK_UP shows in the port's LINK_CHG bit. -/
theorem setLinkUp_pend (h : pflag LPG_PORTn_STAT.LINK_UP n d ≠ up) : bit (face (Pg.LPG + n / 4) (setLinkUp n up d)).pend (n % 4) = true := by
  rw [setLinkUp_eq, if_neg h, portFire, face_fire_same, Nat.zero_add]
  exact bit_setBit_same _ _

end

/-! Frames that are discarded while the port is not UP (R61). -/

theorem drop_lost : ∀ (l : List TxFrame) (d : Dev), ∃ x, l.foldl (fun s _ => drop 0x09 s) d = { d with drops := x }
  | [], d => ⟨d.drops, rfl⟩
  | _ :: l, d => by
    obtain ⟨x, hx⟩ := drop_lost l (drop 0x09 d)
    exact ⟨x, hx⟩

/-- DOWN_DISCARD takes the waiting frames, and counts them. -/
theorem downDiscard_eq (n : Nat) (d : Dev) : downDiscard n d = d ∨ ∃ x, downDiscard n d = { setPort n { port n d with txWait := [] } d with drops := x } := by
  unfold downDiscard
  dsimp only
  split
  · exact .inr (drop_lost _ _)
  · exact .inl rfl

section
variable (n : Nat) (d : Dev)

@[simp] theorem pget_downDiscard (f : Fld) (k : Nat) : pget f k (downDiscard n d) = pget f k d := by
  obtain h | ⟨x, h⟩ := downDiscard_eq n d
  · rw [h]
  · rw [h]; rfl

@[simp] theorem face_downDiscard (p : Nat) : face p (downDiscard n d) = face p d := by
  obtain h | ⟨x, h⟩ := downDiscard_eq n d
  · rw [h]
  · rw [h]; rfl

@[simp] theorem out_downDiscard : (downDiscard n d).out = d.out := by
  obtain h | ⟨x, h⟩ := downDiscard_eq n d
  · rw [h]
  · rw [h]; rfl

/-- Only the waiting frames of the port go. -/
theorem port_downDiscard : { port n (downDiscard n d) with txWait := (port n d).txWait } = port n d := by
  obtain h | ⟨x, h⟩ := downDiscard_eq n d
  · rw [h]
  · rw [h]
    exact congrArg (fun y : PortSt => { y with txWait := (port n d).txWait }) (port_setPort_same n d _)

end

end Sys2Proof.Machine

namespace Sys2Proof.Machine

open Safety

/-! An SA command that has waited, at its frame boundary (R70, R71). -/

theorem addr_eq_of_key_eq {f h : Fld} {g i k j : Nat} (hf : f.lo < 1024) (hh : h.lo < 1024) (hkey : f.key g i = h.key k j) :
    f.reg.addr g i = h.reg.addr k j := by
  simp only [Fld.key] at hkey
  omega

/-- The fields that SA commands set. -/
def saFlds : List Fld :=
  [LPG_SA_CMD.GO, LPG_SA_DATA.VALID, LPG_SA_DATA.KEY_HANDLE, LPG_SA_DATA.SSCI, LPG_SA_DATA.AN, LPG_SA_DATA.NEXT_PN, LPG_SA_DATA.SCI]

/-- Port x with the associations and the waiting command of y. -/
def withSas (x y : PortSt) : PortSt := { x with rx := y.rx, tx := y.tx, cur := y.cur, exh := y.exh, cmd := y.cmd }

/-- An SA command moves the associations of a port, the command's result registers, and what an error records. -/
structure SaMoves (d e : Dev) : Prop where
  kept : { e with flds := d.flds, ports := d.ports, faces := d.faces, lastErr := d.lastErr, hif := d.hif } = d
  rget : ∀ f g i, (∀ k ∈ saFlds, ∀ j, f.key g i ≠ k.key j 0) → rget f g i e = rget f g i d
  port : ∀ k, withSas (port k e) (port k d) = port k d

namespace SaMoves

theorem refl (d : Dev) : SaMoves d d := ⟨rfl, fun _ _ _ _ => rfl, fun _ => rfl⟩

theorem trans {a b c : Dev} (h : SaMoves a b) (k : SaMoves b c) : SaMoves a c where
  kept := (congrArg (fun e : Dev => { e with flds := a.flds, ports := a.ports, faces := a.faces, lastErr := a.lastErr, hif := a.hif }) k.kept).trans h.kept
  rget f g i hf := (k.rget f g i hf).trans (h.rget f g i hf)
  port n := (congrArg (withSas · (Machine.port n a)) (k.port n)).trans (h.port n)

theorem of_errAt (c : Nat) (r : Reg) (g i : Nat) (d : Dev) : SaMoves d (errAt c r g i d) := ⟨rfl, fun _ _ _ _ => rfl, fun _ => rfl⟩

theorem of_rset {k : Fld} (hk : k ∈ saFlds) (g v : Nat) (d : Dev) : SaMoves d (rset k g 0 v d) :=
  ⟨rfl, fun _ _ _ hf => rget_rset_ne _ _ (hf k hk g), fun _ => rfl⟩

theorem of_setPort {n : Nat} {x : PortSt} {d : Dev} (hx : withSas x (Machine.port n d) = Machine.port n d) : SaMoves d (setPort n x d) := by
  refine ⟨rfl, fun _ _ _ _ => rfl, fun k => ?_⟩
  by_cases h : k = n
  · subst h; rw [port_setPort_same, hx]
  · rw [port_setPort_ne h]; rfl

theorem of_setSa (n : Nat) (tx : Bool) (i : Nat) (s : Sa) (d : Dev) : SaMoves d (setSa n tx i s d) := by
  cases tx with
  | true => exact of_setPort rfl
  | false => exact of_setPort rfl

theorem out {d e : Dev} (h : SaMoves d e) : e.out = d.out := by have k := congrArg Dev.out h.kept; exact k
theorem ctrs {d e : Dev} (h : SaMoves d e) : e.ctrs = d.ctrs := by have k := congrArg Dev.ctrs h.kept; exact k
theorem sys {d e : Dev} (h : SaMoves d e) : e.sys = d.sys := by have k := congrArg Dev.sys h.kept; exact k
theorem fab {d e : Dev} (h : SaMoves d e) : e.fab = d.fab := by have k := congrArg Dev.fab h.kept; exact k
theorem txNow {d e : Dev} (h : SaMoves d e) (n : Nat) : (Machine.port n e).txNow = (Machine.port n d).txNow := by
  have k := congrArg PortSt.txNow (h.port n); exact k
theorem txWait {d e : Dev} (h : SaMoves d e) (n : Nat) : (Machine.port n e).txWait = (Machine.port n d).txWait := by
  have k := congrArg PortSt.txWait (h.port n); exact k

end SaMoves

section
variable (n : Nat) (tx : Bool) (i dat : Nat) (d : Dev)

theorem saInstall_moves : SaMoves d (saInstall n tx i dat d) := by
  unfold saInstall
  dsimp only
  split
  · exact .of_errAt ..
  · split
    · exact .of_errAt ..
    · exact .of_setSa ..

theorem saRemove_moves : SaMoves d (saRemove n tx i d) := by
  unfold saRemove
  split
  · exact .of_errAt ..
  · exact .of_setSa ..

theorem saRead_moves : SaMoves d (saRead n tx i d) :=
  .trans (.trans (.trans (.trans (.trans (.of_rset (k := LPG_SA_DATA.SCI) (by simp [saFlds]) ..) (.of_rset (k := LPG_SA_DATA.NEXT_PN) (by simp [saFlds]) ..))
    (.of_rset (k := LPG_SA_DATA.AN) (by simp [saFlds]) ..)) (.of_rset (k := LPG_SA_DATA.SSCI) (by simp [saFlds]) ..))
    (.of_rset (k := LPG_SA_DATA.KEY_HANDLE) (by simp [saFlds]) ..)) (.of_rset (k := LPG_SA_DATA.VALID) (by simp [saFlds]) ..)

theorem saSetCurrent_moves : SaMoves d (saSetCurrent n tx i d) := by
  unfold saSetCurrent
  split
  · exact .of_errAt ..
  · split
    · exact .of_errAt ..
    · exact .of_setPort rfl

theorem saRun_moves (g img : Nat) : SaMoves d (saRun g img dat d) := by
  unfold saRun
  dsimp only
  split
  · exact saInstall_moves ..
  · exact saRemove_moves ..
  · exact saRead_moves ..
  · exact saSetCurrent_moves ..

theorem saResume_moves : SaMoves d (saResume n d) := by
  unfold saResume
  split
  · exact .refl d
  · have hcmd : SaMoves d (setPort n { port n d with cmd := none } d) := .of_setPort rfl
    exact (hcmd.trans (.of_rset (k := LPG_SA_CMD.GO) (by simp [saFlds]) ..)).trans (saRun_moves ..)

end

/-- A field of a port's own registers. -/
def portFld (f : Fld) : Bool :=
  f.reg.lay.page == Pg.LPG && f.reg.lay.stride == 0x40 && decide (0x200 ≤ f.reg.lay.ofs) && decide (f.reg.lay.ofs < 0x240) && decide (f.lo < 1024)

/-- A field of a line port group's SA registers. -/
def saFld (f : Fld) : Bool :=
  f.reg.lay.page == Pg.LPG && f.reg.lay.stride == 0 && decide (0x400 ≤ f.reg.lay.ofs) && decide (f.reg.lay.ofs < 0x500) && decide (f.lo < 1024)

/-- The SA registers lie past the ports' own. -/
theorem portKey_ne_sa {f k : Fld} (hf : portFld f = true) (hk : saFld k = true) (n g : Nat) : f.key (n / 4) (n % 4) ≠ k.key g 0 := by
  simp only [portFld, Bool.and_eq_true, beq_iff_eq, decide_eq_true_eq] at hf
  simp only [saFld, Bool.and_eq_true, beq_iff_eq, decide_eq_true_eq] at hk
  obtain ⟨⟨⟨⟨hpage, hstride⟩, hlo⟩, hhi⟩, hbit⟩ := hf
  obtain ⟨⟨⟨⟨hkpage, hkstride⟩, hklo⟩, hkhi⟩, hkbit⟩ := hk
  intro hkey
  have haddr := addr_eq_of_key_eq hbit hkbit hkey
  simp only [Reg.addr, hpage, hstride, hkpage, hkstride] at haddr
  omega

theorem SaMoves.pget {d e : Dev} (h : SaMoves d e) {f : Fld} (hf : portFld f = true) (n : Nat) : pget f n e = pget f n d :=
  h.rget _ _ _ fun k hk j => portKey_ne_sa hf ((by decide : ∀ k ∈ saFlds, saFld k = true) k hk) n j

/-! Frames that are truncated (R60, R61). -/

/-- The port drops what it sends, and aborts it on the wire. -/
def txCut (n : Nat) (d : Dev) : Dev :=
  let x := port n d
  let cut (f : Option TxFrame) (d : Dev) : Dev := if f.isSome then emit (.frameAbort n) d else d
  cut x.txPre (cut x.txNow (setPort n { x with txNow := none, txPre := none } d))

theorem truncateTx_eq (n : Nat) (d : Dev) : truncateTx n d = saResume n (txCut n d) := rfl

section
variable (n : Nat) (d : Dev)

/-- What is dropped leaves as aborts. -/
theorem txCut_eq : ∃ l, txCut n d = { setPort n { port n d with txNow := none, txPre := none } d with out := l } ∧ (∀ o ∈ d.out, o ∈ l) ∧
    ((port n d).txNow.isSome = true → Out.frameAbort n ∈ l) := by
  unfold txCut
  dsimp only
  split
  · split
    · exact ⟨_, rfl, fun o ho => by simp [ho], fun _ => by simp⟩
    · exact ⟨_, rfl, fun o ho => by simp [ho], fun _ => by simp⟩
  · split
    · exact ⟨_, rfl, fun o ho => by simp [ho], fun _ => by simp⟩
    · next hnow => exact ⟨_, rfl, fun o ho => ho, fun h => absurd h hnow⟩

theorem pget_truncateTx {f : Fld} (hf : portFld f = true) : pget f n (truncateTx n d) = pget f n d := by
  obtain ⟨l, hcut, -, -⟩ := txCut_eq n d
  rw [truncateTx_eq, (saResume_moves ..).pget hf, hcut]
  rfl

theorem txNow_truncateTx : (port n (truncateTx n d)).txNow = none := by
  obtain ⟨l, hcut, -, -⟩ := txCut_eq n d
  rw [truncateTx_eq, (saResume_moves ..).txNow, hcut]
  exact congrArg PortSt.txNow (port_setPort_same ..)

theorem abort_mem_truncateTx {f : TxFrame} (h : (port n d).txNow = some f) : Out.frameAbort n ∈ (truncateTx n d).out := by
  obtain ⟨l, hcut, -, habort⟩ := txCut_eq n d
  rw [truncateTx_eq, (saResume_moves ..).out, hcut]
  exact habort (by rw [h]; rfl)

end

/-! The port goes to DISABLED (R60). -/

section
variable (n : Nat) (d : Dev)

/-- LINK_STATE 0 and LINK_UP 0, once the frames in progress are truncated. -/
def linkIdle : Dev := setLinkUp n false (linkTo n 0 (pset LPG_PORTn_STAT.AN_DONE n 0 (truncateTx n d)))

theorem linkStop_eq : linkStop n d =
    downDiscard n (preemptUpdate n (setPort n { port n (linkIdle n d) with idle := true, verified := false, attempts := 0 } (linkIdle n d))) := rfl

theorem pget_preemptUpdate {f : Fld} (h : apart f LPG_PORTn_STAT.PREEMPT_ACTIVE = true) : pget f n (preemptUpdate n d) = pget f n d := pget_pset_ne h ..
@[simp] theorem port_preemptUpdate (k : Nat) : port k (preemptUpdate n d) = port k d := rfl
@[simp] theorem out_preemptUpdate : (preemptUpdate n d).out = d.out := rfl

theorem pget_linkStop {f : Fld} (h : apart f LPG_PORTn_STAT.PREEMPT_ACTIVE = true) : pget f n (linkStop n d) = pget f n (linkIdle n d) := by
  rw [linkStop_eq, pget_downDiscard, pget_preemptUpdate n _ h, pget_setPort]

theorem port_linkStop : { port n (linkStop n d) with txWait := (port n (linkIdle n d)).txWait } =
    { port n (linkIdle n d) with idle := true, verified := false, attempts := 0 } := by
  have h := port_downDiscard n (preemptUpdate n (setPort n { port n (linkIdle n d) with idle := true, verified := false, attempts := 0 } (linkIdle n d)))
  rw [port_preemptUpdate, port_setPort_same] at h
  rw [linkStop_eq]
  exact h

theorem linkState_linkStop : linkState n (linkStop n d) = 0 := by
  rw [linkState, pget_linkStop n d (by decide), linkIdle, pget_setLinkUp _ _ _ (by decide)]
  exact linkState_linkTo _ _ _ (by decide)

theorem linkUp_linkStop : pflag LPG_PORTn_STAT.LINK_UP n (linkStop n d) = false := by
  rw [pflag, pget_linkStop n d (by decide)]
  exact pflag_setLinkUp ..

/-- A field of the port that is none of its status stays. -/
theorem pget_linkStop_of_apart {f : Fld} (hf : portFld f = true) (h : ∀ x ∈ [LPG_PORTn_STAT.PREEMPT_ACTIVE, LPG_PORTn_STAT.LINK_UP, LPG_PORTn_STAT.LINK_STATE,
    LPG_PORTn_STAT.AN_DONE], apart f x = true) : pget f n (linkStop n d) = pget f n d := by
  rw [pget_linkStop n d (h _ (by simp)), linkIdle, pget_setLinkUp _ _ _ (h _ (by simp)), pget_linkTo _ _ _ (h _ (by simp)), pget_pset_ne (h _ (by simp)),
    pget_truncateTx n d hf]

theorem txNow_linkStop : (port n (linkStop n d)).txNow = none := by
  have h := congrArg PortSt.txNow (port_linkStop n d)
  have hidle : (port n (linkIdle n d)).txNow = none := by
    rw [linkIdle, port_setLinkUp, port_linkTo, port_pset]
    exact txNow_truncateTx n d
  exact Eq.trans h hidle

theorem idle_linkStop : (port n (linkStop n d)).idle = true := by
  have h := congrArg PortSt.idle (port_linkStop n d); exact h

theorem abort_mem_linkStop {f : TxFrame} (h : (port n d).txNow = some f) : Out.frameAbort n ∈ (linkStop n d).out := by
  rw [linkStop_eq, out_downDiscard, out_preemptUpdate]
  exact mem_setLinkUp_out n (linkTo n 0 (pset LPG_PORTn_STAT.AN_DONE n 0 (truncateTx n d))) false (abort_mem_truncateTx n d h)

end

/-! Group modes (R56, R57). -/

section
variable {g m : Nat} {d : Dev}

theorem lpgModeWrite_accepts {img : Nat} (h : lpgModeOk g (LPG_MODE.MODE.of img) d = true) :
    lpgModeWrite g img d = rset LPG_MODE.MODE g 0 (LPG_MODE.MODE.of img) d := if_pos h

theorem lpgModeWrite_refuses {img : Nat} (h : lpgModeOk g (LPG_MODE.MODE.of img) d = false) :
    lpgModeWrite g img d = errAt Err.BAD_ARG .LPG_MODE g 0 d := if_neg (by simp [h])

/-- The group that group g pairs with. -/
def partnerOf (g : Nat) : Nat := if g % 2 = 0 then g + 1 else g - 1

/-- Where neither mode is wide, only the group's own ports count. -/
theorem lpgModeOk_narrow (hen : groupEn g d = false) (hcur : lpgMode g d ≤ 4) (hpm : lpgMode (partnerOf g) d ≤ 4) (hm : m ≤ 4) :
    lpgModeOk g m d = true := by
  have hne {x k : Nat} (hx : x ≤ 4) (hk : 4 < k) : x ≠ k := by omega
  have hp : (if (g % 2 == 0) = true then g + 1 else g - 1) = partnerOf g := by simp [partnerOf]
  simp only [lpgModeOk, hp, hen]
  simp [hne hcur, hne hpm, hne hm, hm]

/-- With no port of either group enabled, the pairing of modes 5 and 6 decides. -/
theorem lpgModeOk_idle (hen : groupEn g d = false) (hpart : groupEn (partnerOf g) d = false)
    (hm : (m ≤ 4 ∧ (g % 2 = 0 ∨ lpgMode (partnerOf g) d ≠ 5)) ∨ (m = 6 ∧ g % 2 = 1 ∧ (lpgMode (partnerOf g) d = 0 ∨ lpgMode (partnerOf g) d = 5)) ∨
      (m = 5 ∧ g % 2 = 0 ∧ lpgMode (partnerOf g) d = 6)) : lpgModeOk g m d = true := by
  have hp : (if (g % 2 == 0) = true then g + 1 else g - 1) = partnerOf g := by simp [partnerOf]
  simp only [lpgModeOk, hp, hen, hpart]
  obtain ⟨hle, hpair⟩ | ⟨rfl, hodd, hpair⟩ | ⟨rfl, heven, hpair⟩ := hm
  · have h6 : m ≠ 6 := by omega
    have h5 : m ≠ 5 := by omega
    simp only [h6, h5, hle, if_false]
    obtain h | h := hpair
    · simp [h]
    · simp [h]
  · simp [hodd, hpair]
  · simp [heven, hpair]

/-- A mode that is refused whatever the partner does. -/
theorem lpgModeOk_never (h : groupEn g d = true ∨ 6 < m ∨ (m = 5 ∧ g % 2 = 1) ∨ (m = 6 ∧ g % 2 = 0)) : lpgModeOk g m d = false := by
  unfold lpgModeOk
  obtain hen | hbig | ⟨rfl, hodd⟩ | ⟨rfl, heven⟩ := h
  · simp [hen]
  · have h6 : m ≠ 6 := by omega
    have h5 : m ≠ 5 := by omega
    have h4 : ¬m ≤ 4 := by omega
    simp [h6, h5, h4]
  · simp [hodd]
  · simp [heven]

end

/-! PORT_ENABLE and PORT_DISABLE (R60). -/

/-- The word of a write with bit 0 forced. -/
theorem force_bit_zero (w : BitVec 32) {b : Nat} (hb : b < 2) : LPG_PORTn_CFG.EN.on (force w [(0, 0, b)]) = (b != 0) := by
  have hword : force w [(0, 0, b)] = putBits w.toNat 0 0 b := rfl
  have hbit : force w [(0, 0, b)] / 2 ^ 0 % 2 = b := by
    rw [hword, putBits_one]
    omega
  exact (on_bit _ _ _).trans (by rw [hbit])

theorem lies_LPG_PORTn_CFG (n : Fin 128) : Lies .LPG_PORTn_CFG (n.val / 4) (n.val % 4) = true := by
  revert n; decide +kernel

theorem lies_LPG_MODE (g : Fin 32) : Lies .LPG_MODE g.val 0 = true := by
  revert g; decide +kernel

section
variable {n img : Nat} {d : Dev}

/-- The write's own field. -/
theorem pget_stored {r : Reg} {x : FieldD} (hx : x ∈ r.fields) (hacc : x.acc = .rw) :
    pget (x.fld r) n (storeFields false r (n / 4) (n % 4) img d) = (x.fld r).of img := by
  rw [pget, storeFields_eq_foldl, rget_foldl_storeField false r _ _ img (fields_lo_nodup r) (fields_w_pos r) hx, storedVal, hacc]
  rfl

theorem pget_stored_EN : pget LPG_PORTn_CFG.EN n (storeFields false .LPG_PORTn_CFG (n / 4) (n % 4) img d) = LPG_PORTn_CFG.EN.of img :=
  pget_stored (x := ⟨0, 1, .rw, fun _ _ => 0⟩) (by simp [Reg.fields]) rfl

theorem pget_stored_MAX_FRAME : pget LPG_PORTn_CFG.MAX_FRAME n (storeFields false .LPG_PORTn_CFG (n / 4) (n % 4) img d) = LPG_PORTn_CFG.MAX_FRAME.of img :=
  pget_stored (x := ⟨16, 14, .rw, fun _ _ => 9216⟩) (by simp [Reg.fields]) rfl

/-- A well-formed write of LPG_PORTn_CFG is stored, and EN starts or stops the link. -/
theorem portCfgWrite_eq (hlo : 64 ≤ LPG_PORTn_CFG.MAX_FRAME.of img) (hhi : LPG_PORTn_CFG.MAX_FRAME.of img ≤ 9216) (hmedia : LPG_PORTn_CFG.MEDIA.of img ≠ 3)
    (hexists : LPG_PORTn_CFG.EN.on img = true → portExists n d = true) :
    portCfgWrite (n / 4) (n % 4) img d =
      let e := storeFields false .LPG_PORTn_CFG (n / 4) (n % 4) img d
      if LPG_PORTn_CFG.EN.on img && !pflag LPG_PORTn_CFG.EN n d then linkStart n e
      else if !LPG_PORTn_CFG.EN.on img && pflag LPG_PORTn_CFG.EN n d then linkStop n e else downDiscard n e := by
  have hok : ¬(LPG_PORTn_CFG.MAX_FRAME.of img < 64 ∨ 9216 < LPG_PORTn_CFG.MAX_FRAME.of img ∨ LPG_PORTn_CFG.MEDIA.of img = 3 ∨
      (LPG_PORTn_CFG.EN.on img = true ∧ (!portExists n d) = true)) := by
    rintro (h | h | h | ⟨hon, hno⟩)
    · omega
    · omega
    · exact hmedia h
    · simp [hexists hon] at hno
  simp only [portCfgWrite, Nat.div_add_mod, if_neg hok]
  rfl

end

/-- The lanes of a port lie where its group's mode and lane map put them; its own registers do not move them. -/
theorem lanes_stored (n img : Nat) (d : Dev) (l : Nat) :
    portLanes n (storeFields false .LPG_PORTn_CFG (n / 4) (n % 4) img d) = portLanes n d ∧
      physLane l (storeFields false .LPG_PORTn_CFG (n / 4) (n % 4) img d) = physLane l d := by
  have hgroup {f : Fld} (hpage : f.reg.lay.page = Pg.LPG) (hstride : f.reg.lay.stride = 0) (hofs : f.reg.lay.ofs < 0x200) (hlo : f.lo < 1024) (g : Nat) :
      rget f g 0 (storeFields false .LPG_PORTn_CFG (n / 4) (n % 4) img d) = rget f g 0 d := by
    refine rget_storeFields_ne _ _ _ fun x hx hkey => ?_
    have hbits : ∀ x ∈ Reg.LPG_PORTn_CFG.fields, x.lo < 1024 := by decide
    have hlay : Reg.LPG_PORTn_CFG.lay = ⟨0x10, 32, 0x200, 0x40, 4, 1⟩ := rfl
    have haddr := addr_eq_of_key_eq (h := x.fld .LPG_PORTn_CFG) hlo (hbits x hx) hkey
    simp only [Reg.addr, FieldD.fld, hpage, hstride, hlay] at haddr
    omega
  have hmode : lpgMode (n / 4) (storeFields false .LPG_PORTn_CFG (n / 4) (n % 4) img d) = lpgMode (n / 4) d := hgroup rfl rfl (by decide) (by decide) _
  have hmap : rget LPG_LANE_MAP.LANE_SEL (l / 4) 0 (storeFields false .LPG_PORTn_CFG (n / 4) (n % 4) img d) = rget LPG_LANE_MAP.LANE_SEL (l / 4) 0 d :=
    hgroup rfl rfl (by decide) (by decide) _
  exact ⟨by simp only [portLanes, hmode], by simp only [physLane, hmap]⟩

end Sys2Proof.Machine

namespace Sys2Proof.Machine

open Safety

/-! PORT_ENABLE and PORT_DISABLE, and the link machine up to ALIGN (R57, R59, R60). -/

section
variable {req : Requester} {n : Fin 128} {w : BitVec 32} {s : State} {d : Dev} {img : Nat}

/-- A write that sets or clears EN shows at the ports what LPG_PORTn_CFG's write does, with that EN. -/
theorem portCfg_does {b : Nat} {c : Instr} (hb : b < 2) (hc : exec c s = run (cmd req .LPG_PORTn_CFG (n.val / 4) (n.val % 4) (force w [(0, 0, b)])) s)
    (hcom : Commits req .LPG_PORTn_CFG (n.val / 4) (n.val % 4) (force w [(0, 0, b)]) s d img) :
    LPG_PORTn_CFG.EN.on img = (b != 0) ∧ Does c s (PortShows (portCfgWrite (n.val / 4) (n.val % 4) img d)) := by
  refine ⟨?_, shows_of_writes (cmd_writes hc (lies_LPG_PORTn_CFG n) hcom)⟩
  rw [img_eq_of_one_word hcom rfl]
  exact force_bit_zero w hb

variable (hlo : 64 ≤ LPG_PORTn_CFG.MAX_FRAME.of img) (hhi : LPG_PORTn_CFG.MAX_FRAME.of img ≤ 9216) (hmedia : LPG_PORTn_CFG.MEDIA.of img ≠ 3)
include hlo hhi hmedia

/-- The link starts with the settings as stored, where the block works and no lane failed. -/
theorem portCfgWrite_enables (hon : LPG_PORTn_CFG.EN.on img = true) (hexists : portExists n d = true) (hoff : pflag LPG_PORTn_CFG.EN n d = false)
    (hst : linkState n d = 0) (hblk : blkEn (Pg.LPG + n / 4) d = true) (hlanes : ∀ l ∈ portLanes n.val d, bit d.sys.badLine (physLane l d) = false) :
    portCfgWrite (n.val / 4) (n.val % 4) img d =
      let e := storeFields false .LPG_PORTn_CFG (n.val / 4) (n.val % 4) img d
      linkTo n (linkFirst n e) (setPort n { port n d with idle := false } e) := by
  let e := storeFields false .LPG_PORTn_CFG (n.val / 4) (n.val % 4) img d
  have hstart : blkEn (Pg.LPG + n / 4) e = true ∧ pflag LPG_PORTn_CFG.EN n e = true ∧ linkState n e = 0 ∧
      (portLanes n e).any (fun l => bit e.sys.badLine (physLane l e)) = false := by
    refine ⟨?_, ?_, ?_, ?_⟩
    · simpa [blkEn, face, e] using hblk
    · rw [pflag, pget_stored_EN]; exact hon
    · rw [linkState, pget_storeFields_ne (by decide)]; exact hst
    · refine Bool.eq_false_iff.2 fun hany => ?_
      obtain ⟨l, hl, hbad⟩ := List.any_eq_true.1 hany
      obtain ⟨hports, hphys⟩ := lanes_stored n img d l
      rw [hports] at hl
      rw [hphys, storeFields_sys] at hbad
      exact Bool.false_ne_true ((hlanes l hl).symm.trans hbad)
  obtain ⟨hblk', hen, hst', hlanes'⟩ := hstart
  rw [portCfgWrite_eq hlo hhi hmedia fun _ => hexists, hon, hoff]
  simp only [Bool.not_false, Bool.and_self, if_true]
  change linkStart n e = _
  rw [linkStart, hblk', hen, hst', hlanes', if_pos (by decide), port_storeFields]

/-- PORT_ENABLE of a disabled port (R60). -/
theorem portEnable_does (hcom : Commits req .LPG_PORTn_CFG (n.val / 4) (n.val % 4) (force w [(0, 0, 1)]) s d img)
    (hexists : portExists n d = true) (hoff : pflag LPG_PORTn_CFG.EN n d = false)
    (hst : linkState n d = 0) (hblk : blkEn (Pg.LPG + n / 4) d = true) (hlanes : ∀ l ∈ portLanes n.val d, bit d.sys.badLine (physLane l d) = false) :
    Does (.portEnable req n w) s fun e => pflag LPG_PORTn_CFG.EN n e = true ∧ pget LPG_PORTn_CFG.MAX_FRAME n e = LPG_PORTn_CFG.MAX_FRAME.of img ∧
      linkState n e = linkFirst n e ∧ (port n e).idle = false := by
  obtain ⟨hon, hdoes⟩ := portCfg_does (c := .portEnable req n w) (by decide) rfl hcom
  rw [portCfgWrite_enables hlo hhi hmedia hon hexists hoff hst hblk hlanes] at hdoes
  refine Does.imp hdoes fun e he => ?_
  have hget {f : Fld} (hf : apart f LPG_PORTn_STAT.LINK_STATE = true) :
      pget f n e = pget f n (storeFields false .LPG_PORTn_CFG (n.val / 4) (n.val % 4) img d) :=
    (he.pget ..).trans (pget_linkTo _ _ _ hf)
  have hfirst : linkFirst n e = linkFirst n (storeFields false .LPG_PORTn_CFG (n.val / 4) (n.val % 4) img d) := by
    have han : anEn n e = anEn n (storeFields false .LPG_PORTn_CFG (n.val / 4) (n.val % 4) img d) := by
      simp only [anEn, pflag, hget (f := LPG_PORTn_CFG.AN_EN) (by decide), hget (f := LPG_PORTn_CFG.MEDIA) (by decide)]
    have hlt : ltEn n e = ltEn n (storeFields false .LPG_PORTn_CFG (n.val / 4) (n.val % 4) img d) := by
      simp only [ltEn, pflag, hget (f := LPG_PORTn_CFG.LT_EN) (by decide), hget (f := LPG_PORTn_CFG.MEDIA) (by decide)]
    rw [linkFirst, linkFirst, han, hlt]
  have hlt (x : Dev) : linkFirst n x < 8 := by
    unfold linkFirst
    split_ifs <;> decide
  refine ⟨?_, ?_, ?_, ?_⟩
  · rw [pflag, hget (by decide), pget_stored_EN]; exact hon
  · rw [hget (by decide), pget_stored_MAX_FRAME]
  · rw [hfirst, linkState, he.pget]
    exact linkState_linkTo _ _ _ (hlt _)
  · rw [he.port, port_linkTo, port_setPort_same]

/-- PORT_DISABLE of an enabled port (R60). -/
theorem portDisable_does (hcom : Commits req .LPG_PORTn_CFG (n.val / 4) (n.val % 4) (force w [(0, 0, 0)]) s d img)
    (hwas : pflag LPG_PORTn_CFG.EN n d = true) :
    Does (.portDisable req n w) s fun e => pflag LPG_PORTn_CFG.EN n e = false ∧ linkState n e = 0 ∧ pflag LPG_PORTn_STAT.LINK_UP n e = false ∧
      (port n e).idle = true ∧ (port n e).txNow = none ∧ (∀ f, (port n d).txNow = some f → Out.frameAbort n ∈ e.out) := by
  obtain ⟨hon, hdoes⟩ := portCfg_does (c := .portDisable req n w) (by decide) rfl hcom
  have hoff : LPG_PORTn_CFG.EN.on img = false := hon
  rw [portCfgWrite_eq hlo hhi hmedia (by simp [hoff]), hoff, hwas] at hdoes
  simp only [Bool.false_and, Bool.not_false, Bool.and_self, Bool.false_eq_true, if_false, if_true] at hdoes
  refine Does.imp hdoes fun e he => ⟨?_, ?_, ?_, ?_, ?_, fun f hf => he.out _ ?_⟩
  · rw [pflag, he.pget, pget_linkStop_of_apart _ _ (by decide) (by decide), pget_stored_EN]
    exact hoff
  · rw [linkState, he.pget]; exact linkState_linkStop _ _
  · rw [pflag, he.pget]; exact linkUp_linkStop _ _
  · rw [he.port, idle_linkStop]
  · rw [he.port, txNow_linkStop]
  · exact abort_mem_linkStop _ _ (by rw [port_storeFields]; exact hf)

end

/-- Settles O7. A mode write does what `lpgModeOk` decides; a write of EN starts or stops the link (`portEnable_does`, `portDisable_does`);
an event that meets its own state is one `linkTo`. -/
theorem linkBringUp : Obligations.LinkBringUp := by
  refine ⟨?_, ?_, ?_, ?_, ?_, ?_, ?_⟩
  · intro req g w s d img hcom m partner
    have hw : Writes req (.lpgModeWrite req g w) s (lpgModeWrite g.val img d) := cmd_writes rfl (lies_LPG_MODE g) hcom
    refine ⟨fun hok => ?_, fun hbad => ?_⟩
    · rwa [lpgModeWrite_accepts] at hw
      obtain ⟨hen, hcur, hpm, hm⟩ | ⟨hen, hpart, hm⟩ := hok
      · exact lpgModeOk_narrow hen hcur hpm hm
      · exact lpgModeOk_idle hen hpart hm
    · rwa [lpgModeWrite_refuses (lpgModeOk_never hbad)] at hw
  · intro req n w s d img hcom mf hlo hhi hmedia hexists hoff hst hblk hlanes
    exact portEnable_does hlo hhi hmedia hcom hexists hoff hst hblk hlanes
  · intro req n w s d img hcom hlo hhi hmedia hwas
    exact portDisable_does hlo hhi hmedia hcom hwas
  · intro n s d hline hst
    exact line_leaves (f := linkAnResolved n.val) rfl hline (if_pos (beq_iff_eq.2 hst))
  · intro n s d hruns hst
    exact ⟨act_leaves (f := linkAnTimeout n.val) rfl hruns (if_pos hst), act_leaves (f := linkAnRestart n.val) rfl hruns (if_pos hst)⟩
  · intro n s d hline hst
    exact line_leaves (f := linkLtDone n.val) rfl hline (if_pos hst)
  · intro n s d hruns hst
    exact act_leaves (f := linkLtTimeout n.val) rfl hruns (if_pos hst)

end Sys2Proof.Machine

/-! From ALIGN on: UP, FAULT, and the verification of preemption (R60, R61, R75, R77). -/

namespace Sys2Proof.Machine

open Safety

/-- The fault bits of a port as they are seen (R60). -/
def faultBits (n : Nat) (loc rem ser : Bool) (d : Dev) : Dev :=
  pset LPG_PORTn_STAT.LOCAL_FAULT n (b2n loc) (pset LPG_PORTn_STAT.REMOTE_FAULT n (b2n rem) (pset LPG_PORTn_STAT.HI_SER n (b2n ser) d))

section
variable (n : Nat) (loc rem ser : Bool) (d : Dev)

@[simp] theorem port_faultBits (k : Nat) : port k (faultBits n loc rem ser d) = port k d := rfl

theorem localFault_faultBits : pget LPG_PORTn_STAT.LOCAL_FAULT n (faultBits n loc rem ser d) = b2n loc :=
  (pget_pset_same ..).trans (b2n_mod_two loc)
theorem remoteFault_faultBits : pget LPG_PORTn_STAT.REMOTE_FAULT n (faultBits n loc rem ser d) = b2n rem :=
  (pget_pset_ne (by decide) ..).trans ((pget_pset_same ..).trans (b2n_mod_two rem))
theorem hiSer_faultBits : pget LPG_PORTn_STAT.HI_SER n (faultBits n loc rem ser d) = b2n ser :=
  (pget_pset_ne (by decide) ..).trans ((pget_pset_ne (by decide) ..).trans ((pget_pset_same ..).trans (b2n_mod_two ser)))

theorem pget_faultBits {f : Fld} (h : ∀ x ∈ [LPG_PORTn_STAT.LOCAL_FAULT, LPG_PORTn_STAT.REMOTE_FAULT, LPG_PORTn_STAT.HI_SER], apart f x = true) :
    pget f n (faultBits n loc rem ser d) = pget f n d := by
  rw [faultBits, pget_pset_ne (h _ (by simp)), pget_pset_ne (h _ (by simp)), pget_pset_ne (h _ (by simp))]

theorem linkState_faultBits : linkState n (faultBits n loc rem ser d) = linkState n d := pget_faultBits _ _ _ _ _ (by decide)
theorem linkUp_faultBits : pflag LPG_PORTn_STAT.LINK_UP n (faultBits n loc rem ser d) = pflag LPG_PORTn_STAT.LINK_UP n d :=
  congrArg (· != 0) (pget_faultBits _ _ _ _ _ (by decide))

end

/-- Device e shows port n in state st with LINK_UP and the fault bits given; where LINK_UP differs from d's, LINK_CHG is pending. -/
structure LinkShows (n st : Nat) (up loc rem ser : Bool) (d e : Dev) : Prop where
  state : linkState n e = st
  linkUp : pflag LPG_PORTn_STAT.LINK_UP n e = up
  localFault : pget LPG_PORTn_STAT.LOCAL_FAULT n e = b2n loc
  remoteFault : pget LPG_PORTn_STAT.REMOTE_FAULT n e = b2n rem
  hiSer : pget LPG_PORTn_STAT.HI_SER n e = b2n ser
  changed : pflag LPG_PORTn_STAT.LINK_UP n d ≠ up → bit (face (Pg.LPG + n / 4) e).pend (n % 4) = true

theorem LinkShows.beside {n st : Nat} {up loc rem ser : Bool} {d x e : Dev} (h : LinkShows n st up loc rem ser d x) (he : Beside x e) :
    LinkShows n st up loc rem ser d e :=
  ⟨(he.pget ..).trans h.state, (congrArg (· != 0) (he.pget ..)).trans h.linkUp, (he.pget ..).trans h.localFault, (he.pget ..).trans h.remoteFault,
    (he.pget ..).trans h.hiSer, fun hne => by rw [he.face]; exact h.changed hne⟩

/-- A state entered, then LINK_UP set: what the port shows, from the fault bits that it had. -/
theorem setLinkUp_linkTo_shows {n st : Nat} {up loc rem ser : Bool} {d x : Dev} (hst : st < 8) (hloc : pget LPG_PORTn_STAT.LOCAL_FAULT n x = b2n loc)
    (hrem : pget LPG_PORTn_STAT.REMOTE_FAULT n x = b2n rem) (hser : pget LPG_PORTn_STAT.HI_SER n x = b2n ser)
    (hup : pflag LPG_PORTn_STAT.LINK_UP n x = pflag LPG_PORTn_STAT.LINK_UP n d) :
    LinkShows n st up loc rem ser d (setLinkUp n up (linkTo n st x)) := by
  have hget {f : Fld} (h1 : apart f LPG_PORTn_STAT.LINK_UP = true) (h2 : apart f LPG_PORTn_STAT.LINK_STATE = true) :
      pget f n (setLinkUp n up (linkTo n st x)) = pget f n x := (pget_setLinkUp _ _ _ h1).trans (pget_linkTo _ _ _ h2)
  have hup' : pflag LPG_PORTn_STAT.LINK_UP n (linkTo n st x) = pflag LPG_PORTn_STAT.LINK_UP n d :=
    (congrArg (· != 0) (pget_linkTo _ _ _ (by decide))).trans hup
  exact ⟨(pget_setLinkUp _ _ _ (by decide)).trans (linkState_linkTo _ _ _ hst), pflag_setLinkUp .., (hget (by decide) (by decide)).trans hloc,
    (hget (by decide) (by decide)).trans hrem, (hget (by decide) (by decide)).trans hser, fun hne => setLinkUp_pend _ _ _ (hup'.symm ▸ hne)⟩

section
variable {n : Nat} {d : Dev}

/-- A port that goes UP shows no fault. -/
theorem linkGoUp_shows : LinkShows n 4 true false false false d (linkGoUp n d) :=
  setLinkUp_linkTo_shows (x := faultBits n false false false d) (by decide) (localFault_faultBits ..) (remoteFault_faultBits ..) (hiSer_faultBits ..)
    (linkUp_faultBits ..)

/-- A clean lock in ALIGN, or one that has held in FAULT, takes the port UP. -/
theorem linkClean_align (h : linkState n d = 3) : linkClean n d = linkGoUp n d := if_pos h
theorem linkRecover_clean (h : linkState n d = 5) (hc : (port n d).clean = true) : linkRecover n d = linkGoUp n d := if_pos ⟨h, hc⟩

/-- A clean lock in FAULT starts its count. -/
theorem linkClean_fault (h : linkState n d = 5) :
    linkClean n d = setPort n { port n d with clean := true } (faultBits n false false false d) := by
  rw [linkClean, if_neg (by omega), if_pos h]
  rfl

/-- A port that is UP goes to FAULT. -/
theorem linkFault_up (h : linkState n d = 4) (loc rem ser : Bool) :
    linkFault n loc rem ser d = downDiscard n (setLinkUp n false (linkTo n 5 (truncateTx n (faultBits n loc rem ser d)))) := by
  have hst : (linkState n (faultBits n loc rem ser d) == 4) = true := by rw [linkState_faultBits, h]; rfl
  exact if_pos hst

theorem linkFault_shows (h : linkState n d = 4) (loc rem ser : Bool) : LinkShows n 5 false loc rem ser d (linkFault n loc rem ser d) := by
  have hshows := setLinkUp_linkTo_shows (n := n) (st := 5) (up := false) (d := d) (x := truncateTx n (faultBits n loc rem ser d)) (by decide)
    ((pget_truncateTx _ _ (by decide)).trans (localFault_faultBits ..)) ((pget_truncateTx _ _ (by decide)).trans (remoteFault_faultBits ..))
    ((pget_truncateTx _ _ (by decide)).trans (hiSer_faultBits ..)) ((congrArg (· != 0) (pget_truncateTx _ _ (by decide))).trans (linkUp_faultBits ..))
  rw [linkFault_up h]
  exact ⟨(pget_downDiscard ..).trans hshows.state, (congrArg (· != 0) (pget_downDiscard ..)).trans hshows.linkUp, (pget_downDiscard ..).trans hshows.localFault,
    (pget_downDiscard ..).trans hshows.remoteFault, (pget_downDiscard ..).trans hshows.hiSer, fun hne => by rw [face_downDiscard]; exact hshows.changed hne⟩

theorem txNow_linkFault (h : linkState n d = 4) (loc rem ser : Bool) : (port n (linkFault n loc rem ser d)).txNow = none := by
  have hport := congrArg PortSt.txNow (port_downDiscard n (setLinkUp n false (linkTo n 5 (truncateTx n (faultBits n loc rem ser d)))))
  rw [linkFault_up h]
  refine Eq.trans hport ?_
  rw [port_setLinkUp, port_linkTo]
  exact txNow_truncateTx ..

theorem abort_mem_linkFault (h : linkState n d = 4) (loc rem ser : Bool) {f : TxFrame} (hf : (port n d).txNow = some f) :
    Out.frameAbort n ∈ (linkFault n loc rem ser d).out := by
  rw [linkFault_up h, out_downDiscard]
  exact mem_setLinkUp_out n (linkTo n 5 _) false (abort_mem_truncateTx n (faultBits n loc rem ser d) hf)

/-- The 500 ms pass in FAULT. -/
theorem linkFaultTimeout_fault (h : linkState n d = 5) : linkFaultTimeout n d =
    if (port n d).clean then setPort n { port n d with expired := true } d else linkTo n (if anEn n d then 1 else 3) d := if_pos h

/-- The lock that runs in FAULT breaks. -/
theorem linkLockBreak_fault (h : linkState n d = 5) : linkLockBreak n d =
    if (port n d).clean && (port n d).expired then linkTo n (if anEn n d then 1 else 3) d else setPort n { port n d with clean := false } d := if_pos h

/-! Verification of preemption (R75). -/

section
variable (hen : pflag LPG_PORTn_PREEMPT.EN n d = true) (hver : pflag LPG_PORTn_PREEMPT.VERIFY_EN n d = true)
include hen hver

theorem verifySend_due (hst : linkState n d = 4) (hno : (port n d).verified = false) (hatt : (port n d).attempts < 3)
    (hdue : (port n d).attempts = 0 ∨ (port n d).verAt + pget LPG_PORTn_PREEMPT.VERIFY_TIME n d * 1000000 ≤ d.mono) :
    verifySend n d = emit (.verifyFrame n) (setPort n { port n d with attempts := (port n d).attempts + 1, verAt := d.mono } d) := by
  have hnow : verifyDue n d = true := by simpa [verifyDue] using hdue
  simp [verifySend, hnow, hst, hen, hver, hno, hatt]

theorem verifyResponse_out (h1 : 1 ≤ (port n d).attempts) (h3 : (port n d).attempts ≤ 3) :
    verifyResponse n d = pset LPG_PORTn_STAT.PREEMPT_ACTIVE n 1 (setPort n { port n d with verified := true } d) := by
  have hgo : (pflag LPG_PORTn_PREEMPT.EN n d && pflag LPG_PORTn_PREEMPT.VERIFY_EN n d && decide (1 ≤ (port n d).attempts ∧ (port n d).attempts ≤ 3)) = true := by
    simp [hen, hver, h1, h3]
  have hactive (x : Dev) (hx : pflag LPG_PORTn_PREEMPT.EN n x = true) (hv : (port n x).verified = true) :
      preemptUpdate n x = pset LPG_PORTn_STAT.PREEMPT_ACTIVE n 1 x := by simp [preemptUpdate, hx, hv, b2n]
  rw [verifyResponse]
  exact (if_pos hgo).trans (hactive _ hen (by rw [port_setPort_same]))

theorem verifyGiveUp_due (hno : (port n d).verified = false) (hatt : (port n d).attempts = 3)
    (hdue : (port n d).verAt + pget LPG_PORTn_PREEMPT.VERIFY_TIME n d * 1000000 ≤ d.mono) :
    verifyGiveUp n d = portFire n 24 (setPort n { port n d with attempts := 4 } d) := by
  have hnow : verifyDue n d = true := by simp [verifyDue, hdue]
  simp [verifyGiveUp, hnow, hen, hver, hno, hatt]

end

end

/-- Settles O8: each event finds its own state and is the one operation that the lemmas above describe. -/
theorem linkUpAndFaults : Obligations.LinkUpAndFaults := by
  unfold Obligations.LinkUpAndFaults
  intro into upWith changed
  have hup {n : Nat} {d x e : Dev} (h : LinkShows n 4 true false false false d x) (he : Beside x e) : upWith n e ∧ changed n d e := by
    obtain ⟨hst, hlink, hloc, hrem, hser, hpend⟩ := h.beside he
    exact ⟨⟨hst, hlink, hloc, hrem, hser⟩, fun hne => hpend (hlink ▸ hne)⟩
  refine ⟨?_, ?_, ?_, ?_, ?_⟩
  · intro n s d hline
    refine ⟨fun hst => ?_, fun hst => ?_, fun hst hc => ?_⟩
    · exact line_does (f := linkClean n.val) rfl hline fun e he => hup (linkClean_align hst ▸ linkGoUp_shows) he
    · refine line_does (f := linkClean n.val) rfl hline fun e he => ?_
      rw [linkClean_fault hst] at he
      refine ⟨?_, ?_⟩
      · rw [linkState, he.pget, pget_setPort]
        exact (linkState_faultBits ..).trans hst
      · rw [he.port, port_setPort_same]
    · exact line_does (f := linkRecover n.val) rfl hline fun e he => hup (linkRecover_clean hst hc ▸ linkGoUp_shows) he
  · intro n s d hruns
    refine ⟨fun hst => ?_, fun hst hc => ?_, fun hst hc => ?_, fun hst hc hexp => ?_, fun hst hno => ?_, fun loc rem ser hst => ?_⟩
    · exact act_leaves (f := linkAlignTimeout n.val) rfl hruns (if_pos hst)
    · exact act_leaves (f := linkFaultTimeout n.val) rfl hruns ((linkFaultTimeout_fault hst).trans (if_pos hc))
    · exact act_leaves (f := linkFaultTimeout n.val) rfl hruns ((linkFaultTimeout_fault hst).trans (if_neg (by simp [hc])))
    · exact act_leaves (f := linkLockBreak n.val) rfl hruns ((linkLockBreak_fault hst).trans (if_pos (by simp [hc, hexp])))
    · refine act_leaves (f := linkLockBreak n.val) rfl hruns ((linkLockBreak_fault hst).trans (if_neg ?_))
      obtain h | h := hno
      · simp [h]
      · simp [h]
    · refine act_does (f := linkFault n.val loc rem ser) rfl hruns fun e he => ?_
      obtain ⟨hst', hlink, hloc, hrem, hser, hpend⟩ := (linkFault_shows hst loc rem ser).beside he
      exact ⟨hst', hlink, hloc, hrem, hser, by rw [he.port, txNow_linkFault hst], fun hne => hpend (hlink ▸ hne),
        fun f hf => he.mem_out (abort_mem_linkFault hst loc rem ser hf)⟩
  · intro n s d hruns hst hen hver hno hatt hdue
    exact act_leaves (f := verifySend n.val) rfl hruns (verifySend_due hen hver hst hno hatt hdue)
  · intro n s d hline hen hver h1 h3
    exact line_leaves (f := verifyResponse n.val) rfl hline (verifyResponse_out hen hver h1 h3)
  · intro n s d hruns hen hver hno hatt hdue x p
    refine act_does (f := verifyGiveUp n.val) rfl hruns fun e he => ?_
    rw [verifyGiveUp_due hen hver hno hatt hdue] at he
    exact (fire_beside ..).trans he

end Sys2Proof.Machine

/-! Frames received and sent at a line port, and two-step stamps (R62 to R68, R72, R73). -/

namespace Sys2Proof.Machine

open Safety

/-! Received frames (R63, R73, R76). -/

/-- What counts of every frame that arrives: words that its lanes corrected, fragments, and their reassembly. -/
def rxCounted (n : Nat) (good : Bool) (frags smd corr unc : Nat) (d : Dev) : Dev :=
  let d := portInc n 0x058 smd (portInc n 0x068 frags (portInc n 0x048 unc (portInc n 0x040 corr d)))
  if frags = 0 then d else portInc n (if good then 0x060 else 0x050) 1 d

/-- The end of a good frame: MACsec's verdict, and the FIFO. -/
def rxPass (n : Nat) (bs : Bytes) (sec : Option SecTag) (ts : TimeVal) (d : Dev) : Dev :=
  let r := msecReceive n bs sec d
  if r.1.1 ≠ 0 then drop r.1.1 (portInc n r.1.2 1 r.2.2)
  else
    let x := groupCount n 0x010 bs (portInc n 0x008 (macOctets bs.length) (portInc n 0x000 1 r.2.2))
    fifoPush { port := n, bytes := r.2.1, pktTime := rxTime n ts x } x

@[simp] theorem pget_rxCounted (f : Fld) (k n : Nat) (good : Bool) (frags smd corr unc : Nat) (d : Dev) :
    pget f k (rxCounted n good frags smd corr unc d) = pget f k d := by
  unfold rxCounted
  dsimp only
  split <;> rfl

@[simp] theorem head_rxCounted (n : Nat) (good : Bool) (frags smd corr unc : Nat) (d : Dev) : (rxCounted n good frags smd corr unc d).head = d.head := by
  unfold rxCounted
  dsimp only
  split <;> rfl

@[simp] theorem head_groupCount (n o : Nat) (bs : Bytes) (d : Dev) : (groupCount n o bs d).head = d.head := by
  unfold groupCount
  split_ifs <;> rfl

section
variable {n : Nat} {d : Dev} (hst : linkState n d = 4) (hblk : blkEn (Pg.LPG + n / 4) d = true)
include hst hblk

/-- A port that is UP judges a frame by R63's order. -/
theorem frameReceive_up (bs : Bytes) (ok : Bool) (sec : Option SecTag) (ts : TimeVal) (frags smd corr unc : Nat) :
    frameReceive n bs ok sec ts frags smd corr unc d =
      let b := rxCounted n (ok && unc == 0) frags smd corr unc d
      if pget LPG_PORTn_CFG.MAX_FRAME n d < bs.length + 4 then drop 0x02 (portInc n 0x028 1 b)
      else if bs.length + 4 < 64 then drop 0x03 (portInc n 0x030 1 b)
      else if (!(ok && unc == 0)) = true then drop 0x01 (portInc n 0x020 1 b)
      else if beAt bs 12 2 = 0x8808 then drop 0x07 (portInc n 0x038 1 b)
      else rxPass n bs sec ts b := by
  have hup : ¬(linkState n d ≠ 4 ∨ (!blkEn (Pg.LPG + n / 4) d) = true) := by simp [hst, hblk]
  have hmax := pget_rxCounted LPG_PORTn_CFG.MAX_FRAME n n (ok && unc == 0) frags smd corr unc d
  rw [← hmax]
  exact if_neg hup

end

/-- A port without MACsec passes a frame as it is (R73). -/
theorem msecReceive_off {n : Nat} {d : Dev} (h : pflag LPG_PORTn_MSEC.EN n d = false) (bs : Bytes) (sec : Option SecTag) :
    msecReceive n bs sec d = ((0, 0), bs, d) := by
  simp [msecReceive, h]

section
variable {n : Nat} {bs : Bytes} {sec : Option SecTag} {ts : TimeVal} {d : Dev}

theorem rxPass_drops (h : (msecReceive n bs sec d).1.1 ≠ 0) :
    rxPass n bs sec ts d = drop (msecReceive n bs sec d).1.1 (portInc n (msecReceive n bs sec d).1.2 1 (msecReceive n bs sec d).2.2) := if_pos h

/-- A frame that MACsec passes counts, and enters its FIFO while there is room (R81). -/
theorem rxPass_enters (h : (msecReceive n bs sec d).1.1 = 0) :
    let r := msecReceive n bs sec d
    let x := groupCount n 0x010 bs (portInc n 0x008 (macOctets bs.length) (portInc n 0x000 1 r.2.2))
    fifoBytes (fifoOf n) x + r.2.1.length ≤ 32768 →
      rxPass n bs sec ts d = setFifo (fifoOf n) (fifo (fifoOf n) x ++ [{ port := n, bytes := r.2.1, pktTime := rxTime n ts x }]) x := by
  intro r x hroom
  rw [rxPass, if_neg (not_not.2 h)]
  exact if_neg (not_lt.2 hroom)

end

/-! Transmitted frames (R62, R64, R66 to R68, R72). -/

/-- The next frame leaves the rest of the port as it is. -/
theorem txPick_frame {n : Nat} {d : Dev} {f : TxFrame} {x : PortSt} (h : txPick n d = some (f, x)) :
    { x with txNow := (port n d).txNow, txWait := (port n d).txWait, txPre := (port n d).txPre } = port n d := by
  have hrest {r : Option (TxFrame × PortSt)} (hr : r = match (port n d).txNow, (port n d).txPre with
      | some _, _ => none
      | none, some f => if gateLets n f d then some (f, { port n d with txPre := none }) else none
      | none, none => ((takeWait (fun _ => true) (port n d).txWait).filter fun y => gateLets n y.1 d).map fun y => (y.1, { port n d with txWait := y.2 }))
      (hx : r = some (f, x)) : { x with txNow := (port n d).txNow, txWait := (port n d).txWait, txPre := (port n d).txPre } = port n d := by
    rw [hx] at hr
    split at hr
    · cases hr
    · split at hr
      · cases hr; rfl
      · cases hr
    · obtain ⟨y, -, hy⟩ := Option.map_eq_some_iff.1 hr.symm
      cases hy; rfl
  unfold txPick at h
  dsimp only at h
  split at h
  · exact hrest rfl h
  · split at h
    · cases h; rfl
    · split at h
      · cases h
      · cases h; rfl
    · exact hrest rfl h

/-- With nothing in progress, and no preemption, the oldest waiting frame is next. -/
theorem txPick_waiting {n : Nat} {d : Dev} {f : TxFrame} {l : List TxFrame} (hnow : (port n d).txNow = none) (hpre : (port n d).txPre = none)
    (hwait : (port n d).txWait = f :: l) (hgate : gateLets n f d = true) (hoff : pflag LPG_PORTn_STAT.PREEMPT_ACTIVE n d = false) :
    txPick n d = some (f, { port n d with txWait := l }) := by
  simp [txPick, hoff, hnow, hpre, hwait, takeWait, hgate]

/-- A departure time with TS_EGR_CORR added (R64). -/
def egressTime (n : Nat) (t : TimeVal) (d : Dev) : TimeVal :=
  let corr := signed 32 (pget LPG_PORTn_TS_EGR_CORR.CORR n d)
  let v := (((t.sec.toNat * 1000000000 + t.ns.toNat) * 65536 + t.frac.toNat : Int) + corr).toNat
  ⟨BitVec.ofNat 48 (v / 65536 / 1000000000), BitVec.ofNat 30 (v / 65536 % 1000000000), BitVec.ofNat 16 v⟩

/-- The frame as it is on the wire: stamped, with what MACsec adds. -/
def wireFrame (n : Nat) (f : TxFrame) (tag : Option (Nat × Nat × Nat)) (pred : TimeVal) (d : Dev) : TxFrame :=
  { f with bytes := oneStep f (egressTime n pred d), msec := if tag.isSome then msecBytes n d else 0 }

/-- The MAC starts a frame that has its SecTAG. -/
def txSend (n : Nat) (f : TxFrame) (tag : Option (Nat × Nat × Nat)) (ts pred : TimeVal) (d : Dev) : Dev :=
  let t := egressTime n ts d
  let g := wireFrame n f tag pred d
  let e := emit (.frame n g.bytes tag (t.sec.toNat * 1000000000 + t.ns.toNat)) (setPort n { port n d with txNow := some g } d)
  match f.tst with
  | some k => tsPush n k t.sec.toNat t.ns.toNat t.frac.toNat e
  | none => e

/-- What a port that is UP starts (R62). -/
theorem frameTxStart_picks {n : Nat} {d : Dev} {f : TxFrame} {x : PortSt} (hst : linkState n d = 4) (hblk : blkEn (Pg.LPG + n / 4) d = true)
    (hpick : txPick n d = some (f, x)) (ts pred : TimeVal) : frameTxStart n ts pred d =
      if f.fragment then portInc n 0x0A0 1 (setPort n { x with txNow := some f } d)
      else match txProtect n f.sc f.bytes.length (setPort n x d) with
        | (none, d) => drop 0x08 (portInc n 0x0C0 1 d)
        | (some tag, d) => txSend n f tag ts pred d := by
  have hup : ¬(linkState n d ≠ 4 ∨ (!blkEn (Pg.LPG + n / 4) d) = true) := by simp [hst, hblk]
  rw [frameTxStart, if_neg hup, hpick]
  rfl

section
variable (n tag sec ns frac : Nat) (d : Dev)

/-- A two-step entry enters the FIFO or is lost; the rest of the port stays (R67). -/
theorem port_tsPush : { port n (tsPush n tag sec ns frac d) with fifo := (port n d).fifo } = port n d := by
  unfold tsPush
  dsimp only
  split
  · rw [portFire, port_fire]; rfl
  · rw [portFire, port_fire, port_pset, port_setPort_same]

theorem mem_tsPush_out {o : Out} (h : o ∈ d.out) : o ∈ (tsPush n tag sec ns frac d).out := by
  unfold tsPush
  dsimp only
  split
  · exact mem_fire_out (d := pset LPG_PORTn_TS_CNT.OVF n _ d) h _ _
  · exact mem_fire_out (d := pset LPG_PORTn_TS_CNT.LEVEL n _ (setPort n _ d)) h _ _

end

section
variable (n : Nat) (f : TxFrame) (tag : Option (Nat × Nat × Nat)) (ts pred : TimeVal) (d : Dev)

theorem port_txSend : { port n (txSend n f tag ts pred d) with fifo := (port n d).fifo } = { port n d with txNow := some (wireFrame n f tag pred d) } := by
  unfold txSend
  dsimp only
  split
  · have h := port_tsPush n ‹_› (egressTime n ts d).sec.toNat (egressTime n ts d).ns.toNat (egressTime n ts d).frac.toNat
      (emit (.frame n (wireFrame n f tag pred d).bytes tag ((egressTime n ts d).sec.toNat * 1000000000 + (egressTime n ts d).ns.toNat))
        (setPort n { port n d with txNow := some (wireFrame n f tag pred d) } d))
    have hport : port n (emit (.frame n (wireFrame n f tag pred d).bytes tag ((egressTime n ts d).sec.toNat * 1000000000 + (egressTime n ts d).ns.toNat))
        (setPort n { port n d with txNow := some (wireFrame n f tag pred d) } d)) = { port n d with txNow := some (wireFrame n f tag pred d) } :=
      port_setPort_same ..
    rw [hport] at h
    exact h
  · exact congrArg (fun y : PortSt => { y with fifo := (port n d).fifo }) (port_setPort_same n d _)

theorem frame_mem_txSend : ∃ t, Out.frame n (wireFrame n f tag pred d).bytes tag t ∈ (txSend n f tag ts pred d).out := by
  refine ⟨(egressTime n ts d).sec.toNat * 1000000000 + (egressTime n ts d).ns.toNat, ?_⟩
  unfold txSend
  dsimp only
  split
  · exact mem_tsPush_out _ _ _ _ _ _ (List.mem_cons_self ..)
  · exact List.mem_cons_self ..

/-- A frame without a one-step stamp leaves as it is. -/
theorem bytes_wireFrame (h : f.tso = none) : (wireFrame n f tag pred d).bytes = f.bytes := by
  simp [wireFrame, oneStep, h]

end

/-! The SecTAG of a transmitted frame (R68, R72). -/

section
variable {n sc len : Nat} {d : Dev}

theorem txProtect_off (h : pflag LPG_PORTn_MSEC.EN n d = false) : txProtect n sc len d = (some none, d) := by
  simp [txProtect, h]

theorem txProtect_none (h : pflag LPG_PORTn_MSEC.EN n d = true) (hsa : saUsable n sc d = none) : txProtect n sc len d = (none, d) := by
  simp [txProtect, h, hsa]

@[simp] theorem saOf_setSa_same (k : Nat) (tx : Bool) (i : Nat) (s : Sa) (x : Dev) : saOf k tx i (setSa k tx i s x) = s := by
  cases tx with
  | true => simp [saOf, setSa]
  | false => simp [saOf, setSa]

@[simp] theorem saOf_portFire (k b m : Nat) (tx : Bool) (i : Nat) (x : Dev) : saOf k tx i (portFire m b x) = saOf k tx i x := by
  simp only [saOf, portFire, port_fire]

theorem nextPn_saTakePn (i : Nat) : (saOf n true i (saTakePn n i d)).nextPn = (saOf n true i d).nextPn + 1 := by
  unfold saTakePn
  dsimp only
  split
  · rw [saOf_portFire, saOf_setSa_same]
  · rw [saOf_setSa_same]

/-- The usable SA gives the frame its SCI, AN and packet number, and moves on to the next. -/
theorem txProtect_usable (h : pflag LPG_PORTn_MSEC.EN n d = true) {i : Nat} (hsa : saUsable n sc d = some i) :
    ∃ e, txProtect n sc len d = (some (some ((saOf n true i d).sci, i % 4, (saOf n true i d).nextPn)), e) ∧
      (saOf n true i e).nextPn = (saOf n true i d).nextPn + 1 := by
  refine ⟨saTakePn n i (if confOctets n len d = 0 then portInc n 0x0B0 1 d else portInc n 0x0B8 1 (portInc n 0x0F8 (confOctets n len d) d)), ?_, ?_⟩
  · simp [txProtect, h, hsa]
  · rw [nextPn_saTakePn]
    split <;> rfl

end

end Sys2Proof.Machine

/-! Two-step stamps that are read, and the SA commands (R67, R70 to R72). -/

namespace Sys2Proof.Machine

open Safety

/-! The two-step FIFO (R55, R67). -/

section
variable {n tag sec ns frac : Nat} {t : List (Nat × Nat × Nat × Nat)} {d : Dev}

/-- The head entry, in the register from which the snapshot is taken. -/
def tsLoad (n tag sec ns frac : Nat) (d : Dev) : Dev :=
  pset LPG_PORTn_TS_FIFO.VALID n 1 <| pset LPG_PORTn_TS_FIFO.TAG n tag <| pset LPG_PORTn_TS_FIFO.SEC n sec <|
    pset LPG_PORTn_TS_FIFO.NS n ns <| pset LPG_PORTn_TS_FIFO.FRAC n frac d

theorem tsPop_cons (h : (port n d).fifo = (tag, sec, ns, frac) :: t) :
    tsPop n d = tsLoad n tag sec ns frac (pset LPG_PORTn_TS_CNT.LEVEL n t.length (setPort n { port n d with fifo := t } d)) := by
  unfold tsPop
  dsimp only
  rw [h]
  rfl

theorem pget_tsLoad_of_apart {f : Fld} (h : ∀ k ∈ [LPG_PORTn_TS_FIFO.VALID, LPG_PORTn_TS_FIFO.TAG, LPG_PORTn_TS_FIFO.SEC, LPG_PORTn_TS_FIFO.NS,
    LPG_PORTn_TS_FIFO.FRAC], apart f k = true) : pget f n (tsLoad n tag sec ns frac d) = pget f n d := by
  simp only [List.forall_mem_cons] at h
  obtain ⟨hvalid, htag, hsec, hns, hfrac, -⟩ := h
  rw [tsLoad, pget_pset_ne hvalid, pget_pset_ne htag, pget_pset_ne hsec, pget_pset_ne hns, pget_pset_ne hfrac]

theorem pget_tsLoad_VALID : pget LPG_PORTn_TS_FIFO.VALID n (tsLoad n tag sec ns frac d) = 1 := pget_pset_same ..
theorem pget_tsLoad_TAG : pget LPG_PORTn_TS_FIFO.TAG n (tsLoad n tag sec ns frac d) = tag % 2 ^ 16 := by
  rw [tsLoad, pget_pset_ne (by decide)]
  exact pget_pset_same ..
theorem pget_tsLoad_SEC : pget LPG_PORTn_TS_FIFO.SEC n (tsLoad n tag sec ns frac d) = sec % 2 ^ 48 := by
  rw [tsLoad, pget_pset_ne (by decide), pget_pset_ne (by decide)]
  exact pget_pset_same ..
theorem pget_tsLoad_NS : pget LPG_PORTn_TS_FIFO.NS n (tsLoad n tag sec ns frac d) = ns % 2 ^ 30 := by
  rw [tsLoad, pget_pset_ne (by decide), pget_pset_ne (by decide), pget_pset_ne (by decide)]
  exact pget_pset_same ..

end

/-- The lowest word of LPG_PORTn_TS_FIFO is that of its NS. -/
theorem imgWord_TS_FIFO (g i : Nat) (d : Dev) :
    imgWord (regImg .LPG_PORTn_TS_FIFO g i d) 0 = rget LPG_PORTn_TS_FIFO.NS g i d % 2 ^ 32 := by
  simp (disch := decide) only [imgWord, bits, regImg, Reg.fields, List.foldl_cons, List.foldl_nil, reduceCtorEq, if_false, Nat.mul_zero,
    Nat.shiftRight_zero, Nat.zero_add, Nat.sub_zero, Nat.reduceAdd, Nat.or_mod_two_pow, shiftLeft_mod_two_pow, Nat.zero_or,
    Nat.shiftLeft_zero, -Nat.reducePow]
  rfl

/-- Where a port's two-step FIFO is read. -/
theorem place_TS_FIFO (n : Fin 128) : pageExists (Pg.LPG + n.val / 4) = true ∧ inMsix (Pg.LPG + n.val / 4) (0x224 + 0x40 * (n.val % 4)) = false ∧
    isCounter (Pg.LPG + n.val / 4) (0x224 + 0x40 * (n.val % 4)) = false ∧
    placeAt (Pg.LPG + n.val / 4) (0x224 + 0x40 * (n.val % 4)) = some ⟨.LPG_PORTn_TS_FIFO, n.val / 4, n.val % 4, 0⟩ := by
  revert n; decide +kernel

@[simp] theorem islAccess_ports (n : Nat) (d : Dev) : (islAccess n d).ports = d.ports := by
  unfold islAccess
  split
  · rfl
  · unfold ungate
    split <;> rfl

theorem addr_TS_FIFO (g i : Nat) : Reg.addr .LPG_PORTn_TS_FIFO g i = (Pg.LPG + g) * 65536 + (0x224 + 0x40 * i) := by
  have hlay : Reg.LPG_PORTn_TS_FIFO.lay = ⟨Pg.LPG, 32, 0x224, 0x40, 4, 4⟩ := rfl
  rw [Reg.addr, hlay, Nat.add_assoc]

/-- A read of the lowest of several words takes the snapshot. -/
theorem serveRead_lowest {req : Requester} {p base k img : Nat} {d : Dev} (h : k ≠ 1) :
    ∃ snaps, serveRead req p base k 0 img d = (imgWord img 0, { d with snaps := snaps }) :=
  ⟨_, (if_neg h).trans (if_pos rfl)⟩

section
variable {req : Requester} {n : Fin 128} {s : State} {tag sec ns frac : Nat} {t : List (Nat × Nat × Nat × Nat)} {d : Dev}

/-- A read of the lowest word pops the FIFO, and answers NS of the entry. -/
theorem wordRead_TS_FIFO (hfifo : (port n.val d).fifo = (tag, sec, ns, frac) :: t) :
    ∃ snaps, wordRead req (Pg.LPG + n.val / 4) (0x224 + 0x40 * (n.val % 4)) d = (ns % 2 ^ 30, { tsPop n.val d with snaps := snaps }) := by
  obtain ⟨-, hmsix, hctr, hplace⟩ := place_TS_FIFO n
  have heffect : readEffect .LPG_PORTn_TS_FIFO (n.val / 4) (n.val % 4) d = tsPop n.val d := congrArg (tsPop · d) (Nat.div_add_mod n.val 4)
  have hword : imgWord (regImg .LPG_PORTn_TS_FIFO (n.val / 4) (n.val % 4) (tsPop n.val d)) 0 = ns % 2 ^ 30 := by
    have hns : rget LPG_PORTn_TS_FIFO.NS (n.val / 4) (n.val % 4) (tsPop n.val d) = ns % 2 ^ 30 := by
      rw [tsPop_cons hfifo]
      exact pget_tsLoad_NS
    rw [imgWord_TS_FIFO, hns]
    exact Nat.mod_eq_of_lt (lt_of_lt_of_le (Nat.mod_lt _ (by decide)) (by decide))
  rw [wordRead_effect (by omega) hmsix hctr hplace rfl (by simp), heffect]
  obtain ⟨snaps, hserve⟩ := serveRead_lowest (req := req) (p := Pg.LPG + n.val / 4) (base := Reg.ofs .LPG_PORTn_TS_FIFO (n.val % 4) 0)
    (img := regImg .LPG_PORTn_TS_FIFO (n.val / 4) (n.val % 4) (tsPop n.val d)) (d := tsPop n.val d) (show Reg.LPG_PORTn_TS_FIFO.lay.words ≠ 1 by decide)
  rw [hword] at hserve
  exact ⟨snaps, hserve⟩

/-- TS_FIFO_POP answers NS of the oldest entry, and takes it off the FIFO. -/
theorem tsFifoPop_does (ht : Taken req s)
    (hfifo : (port n.val s.dev).fifo = (tag, sec, ns, frac) :: t) :
    Does (.tsFifoPop req n) s fun e => (port n.val e).fifo = t ∧ pget LPG_PORTn_TS_CNT.LEVEL n.val e = t.length % 128 ∧
      pget LPG_PORTn_TS_FIFO.VALID n.val e = 1 ∧ pget LPG_PORTn_TS_FIFO.TAG n.val e = tag % 2 ^ 16 ∧
      pget LPG_PORTn_TS_FIFO.SEC n.val e = sec % 2 ^ 48 ∧ pget LPG_PORTn_TS_FIFO.NS n.val e = ns % 2 ^ 30 ∧
      Out.readReply req (Reg.addr .LPG_PORTn_TS_FIFO (n.val / 4) (n.val % 4)) (ns % 2 ^ 30) ∈ e.out := by
  let r := reached (Pg.LPG + n.val / 4) s
  let x := pset LPG_PORTn_TS_CNT.LEVEL n.val t.length (setPort n.val { port n.val r with fifo := t } r)
  have hfifo' : (port n.val r).fifo = (tag, sec, ns, frac) :: t := by
    rw [← hfifo]
    simp only [port, r, reached, islAccess_ports]
  have hread : ∃ snaps, readLow req .LPG_PORTn_TS_FIFO (n.val / 4) (n.val % 4) s.dev =
      emit (.readReply req (Reg.addr .LPG_PORTn_TS_FIFO (n.val / 4) (n.val % 4)) (ns % 2 ^ 30)) { tsLoad n.val tag sec ns frac x with snaps := snaps } := by
    obtain ⟨snaps, hword⟩ := wordRead_TS_FIFO (req := req) hfifo'
    obtain ⟨hpage, -⟩ := place_TS_FIFO n
    refine ⟨snaps, ?_⟩
    rw [readLow, addr_TS_FIFO, busRead_taken ht hpage (by omega) (by omega), hword, tsPop_cons hfifo']
  obtain ⟨snaps, hread⟩ := hread
  refine run_does (f := readLow req .LPG_PORTn_TS_FIFO (n.val / 4) (n.val % 4)) rfl fun e he => ?_
  rw [hread] at he
  have hget (f : Fld) : pget f n.val e = pget f n.val (tsLoad n.val tag sec ns frac x) := he.pget ..
  refine ⟨?_, ?_, (hget _).trans pget_tsLoad_VALID, (hget _).trans pget_tsLoad_TAG, (hget _).trans pget_tsLoad_SEC, (hget _).trans pget_tsLoad_NS,
    he.mem_out (List.mem_cons_self ..)⟩
  · rw [he.port]
    exact congrArg PortSt.fifo (port_setPort_same n.val r _)
  · exact (hget _).trans ((pget_tsLoad_of_apart (by decide)).trans (pget_pset_same ..))

end

/-! The SA commands (R70, R71). -/

theorem lies_LPG_SA_CMD (g : Fin 32) : Lies .LPG_SA_CMD g.val 0 = true := by
  revert g; decide +kernel

theorem of_SA_CMD_OP (x : Nat) : LPG_SA_CMD.OP.of x = x / 2 ^ 28 % 2 ^ 2 := by
  rw [← Nat.shiftRight_eq_div_pow]
  rfl

/-- The word of an SA command. -/
theorem saImg (w : BitVec 32) (k : Nat) : LPG_SA_CMD.GO.on (force w [(31, 31, 1), (29, 28, k)]) = true ∧
    LPG_SA_CMD.OP.of (force w [(31, 31, 1), (29, 28, k)]) = k % 4 := by
  have hw := w.isLt
  have hforce : force w [(31, 31, 1), (29, 28, k)] = putBits (putBits w.toNat 31 31 1) 29 28 k := go_eq_putBits w 29 28 k
  have hput (x : Nat) : putBits x 29 28 k = x - x / 2 ^ 28 % 2 ^ 2 * 2 ^ 28 + k % 2 ^ 2 * 2 ^ 28 := by
    rw [putBits, bits, Nat.shiftRight_eq_div_pow]
  have hbit : force w [(31, 31, 1), (29, 28, k)] / 2 ^ 31 % 2 = 1 := by
    rw [hforce, hput, putBits_one]
    omega
  refine ⟨(on_bit _ _ _).trans (by rw [hbit]; rfl), ?_⟩
  rw [of_SA_CMD_OP, hforce, hput, putBits_one]
  omega

section
variable {g img : Nat} (d : Dev)

theorem port_of_saCmd (g img : Nat) : (4 * g + LPG_SA_CMD.PORT.of img) / 4 = g := by
  have hport : LPG_SA_CMD.PORT.of img < 4 := Nat.mod_lt _ (by decide)
  omega

/-- LPG_SA_CMD as stored leaves a port's own registers. -/
theorem pget_storeFields_SA_CMD {f : Fld} (hf : portFld f = true) (n g img : Nat) : pget f n (storeFields false .LPG_SA_CMD g 0 img d) = pget f n d :=
  rget_storeFields_ne _ _ _ fun x hx => portKey_ne_sa hf ((by decide : ∀ x ∈ Reg.LPG_SA_CMD.fields, saFld (x.fld .LPG_SA_CMD) = true) x hx) n g

theorem saKey_storeFields (n h : Nat) : saKey n h (storeFields false .LPG_SA_CMD g 0 img d) = saKey n h d := by
  have hxpn : pflag LPG_PORTn_MSEC.XPN n (storeFields false .LPG_SA_CMD g 0 img d) = pflag LPG_PORTn_MSEC.XPN n d :=
    congrArg (· != 0) (pget_storeFields_SA_CMD d (by decide) ..)
  simp only [saKey, hxpn, storeFields_vlt]

@[simp] theorem saIsCurrent_storeFields (n i : Nat) (expert : Bool) (r : Reg) (k j : Nat) :
    saIsCurrent n i (storeFields expert r k j img d) = saIsCurrent n i d := by simp only [saIsCurrent, port_storeFields]
@[simp] theorem saOf_storeFields (n i : Nat) (tx expert : Bool) (r : Reg) (k j : Nat) :
    saOf n tx i (storeFields expert r k j img d) = saOf n tx i d := by simp only [saOf, port_storeFields]

end

section
variable {g img dat : Nat} {d : Dev}

/-- With GO 0 before it, a command runs, or waits for the frame boundary. -/
theorem saCmdWrite_go (hon : LPG_SA_CMD.GO.on img = true) (hgo : flag LPG_SA_CMD.GO g 0 d = false) :
    saCmdWrite g img d =
      let n := 4 * g + LPG_SA_CMD.PORT.of img
      let x := storeFields false .LPG_SA_CMD g 0 img d
      if LPG_SA_CMD.DIR.on img && (port n d).txNow.isSome then
        rset LPG_SA_CMD.GO g 0 1 (setPort n { port n d with cmd := some (img, regImg .LPG_SA_DATA g 0 d) } x)
      else saRun g img (regImg .LPG_SA_DATA g 0 d) x := by
  simp only [saCmdWrite, hon, hgo, port_storeFields, Bool.false_and, Bool.not_true, Bool.false_eq_true, if_false]

theorem saRun_install (h : LPG_SA_CMD.OP.of img = 0) :
    saRun g img dat d = saInstall (4 * g + LPG_SA_CMD.PORT.of img) (LPG_SA_CMD.DIR.on img) (LPG_SA_CMD.SA.of img) dat d := by simp only [saRun, h]
theorem saRun_remove (h : LPG_SA_CMD.OP.of img = 1) :
    saRun g img dat d = saRemove (4 * g + LPG_SA_CMD.PORT.of img) (LPG_SA_CMD.DIR.on img) (LPG_SA_CMD.SA.of img) d := by simp only [saRun, h]
theorem saRun_read (h : LPG_SA_CMD.OP.of img = 2) :
    saRun g img dat d = saRead (4 * g + LPG_SA_CMD.PORT.of img) (LPG_SA_CMD.DIR.on img) (LPG_SA_CMD.SA.of img) d := by simp only [saRun, h]
theorem saRun_setCurrent (h : LPG_SA_CMD.OP.of img = 3) :
    saRun g img dat d = saSetCurrent (4 * g + LPG_SA_CMD.PORT.of img) (LPG_SA_CMD.DIR.on img) (LPG_SA_CMD.SA.of img) d := by simp only [saRun, h]

variable {n i : Nat} {tx : Bool}

theorem and_eq_false_of_imp {a b : Bool} (h : a = true → b = false) : (a && b) = false := by
  cases a with
  | true => exact h rfl
  | false => rfl

/-- A key of the size that the port needs is installed. -/
theorem saInstall_key (hcur : tx = true → saIsCurrent n i d = false) {key : Bytes} (hkey : saKey n (LPG_SA_DATA.KEY_HANDLE.of dat) d = some key) :
    saInstall n tx i dat d = setSa n tx i {
      valid := true, handle := LPG_SA_DATA.KEY_HANDLE.of dat, ssci := LPG_SA_DATA.SSCI.of dat,
      nextPn := LPG_SA_DATA.NEXT_PN.of dat, sci := LPG_SA_DATA.SCI.of dat, key := key, nearFired := false } d := by
  simp only [saInstall, and_eq_false_of_imp hcur, hkey, Bool.false_eq_true, if_false]

theorem saInstall_noKey (hcur : tx = true → saIsCurrent n i d = false) (hkey : saKey n (LPG_SA_DATA.KEY_HANDLE.of dat) d = none) :
    saInstall n tx i dat d = errAt 0x20 .LPG_SA_CMD (n / 4) 0 d := by
  simp only [saInstall, and_eq_false_of_imp hcur, hkey, Bool.false_eq_true, if_false]

theorem saRemove_idle (hcur : tx = true → saIsCurrent n i d = false) :
    saRemove n tx i d = setSa n tx i { saOf n tx i d with valid := false, key := [] } d := by
  simp only [saRemove, and_eq_false_of_imp hcur, Bool.false_eq_true, if_false]

/-- The current SA of its SC is neither replaced nor erased. -/
theorem saInstall_current (htx : tx = true) (hcur : saIsCurrent n i d = true) : saInstall n tx i dat d = errAt 0x21 .LPG_SA_CMD (n / 4) 0 d := by
  simp only [saInstall, htx, hcur, Bool.and_self, if_true]
theorem saRemove_current (htx : tx = true) (hcur : saIsCurrent n i d = true) : saRemove n tx i d = errAt 0x21 .LPG_SA_CMD (n / 4) 0 d := by
  simp only [saRemove, htx, hcur, Bool.and_self, if_true]

theorem saSetCurrent_valid (htx : tx = true) (hvalid : (saOf n tx i d).valid = true) : saSetCurrent n tx i d =
    setPort n { port n d with cur := ins (port n d).cur (i / 4) i, exh := (port n d).exh.filter (· != i / 4) } d := by
  subst htx
  simp [saSetCurrent, hvalid]

theorem saSetCurrent_invalid (htx : tx = true) (hvalid : (saOf n tx i d).valid = false) :
    saSetCurrent n tx i d = errAt Err.NOT_READY .LPG_SA_CMD (n / 4) 0 d := by
  subst htx
  simp [saSetCurrent, hvalid]

end

/-- What READ puts into LPG_SA_DATA. -/
theorem saRead_shows (n : Nat) (tx : Bool) (i : Nat) (d : Dev) :
    let e := saRead n tx i d
    rget LPG_SA_DATA.VALID (n / 4) 0 e = b2n (saOf n tx i d).valid ∧ rget LPG_SA_DATA.KEY_HANDLE (n / 4) 0 e = (saOf n tx i d).handle % 2 ^ 16 ∧
      rget LPG_SA_DATA.SSCI (n / 4) 0 e = (saOf n tx i d).ssci % 2 ^ 32 ∧ rget LPG_SA_DATA.AN (n / 4) 0 e = i % 4 ∧
      rget LPG_SA_DATA.NEXT_PN (n / 4) 0 e = (saOf n tx i d).nextPn % 2 ^ 64 ∧ rget LPG_SA_DATA.SCI (n / 4) 0 e = (saOf n tx i d).sci % 2 ^ 64 ∧
      e.ports = d.ports := by
  have hne {f h : Fld} (ha : apart f h = true) (v : Nat) (x : Dev) : rget f (n / 4) 0 (rset h (n / 4) 0 v x) = rget f (n / 4) 0 x :=
    rget_rset_ne _ _ (key_ne_of_apart ha _ _)
  dsimp only [saRead]
  refine ⟨?_, ?_, ?_, ?_, ?_, ?_, rfl⟩
  · rw [rget_rset_same]; exact b2n_mod_two _
  · rw [hne (by decide), rget_rset_same]; rfl
  · rw [hne (by decide), hne (by decide), rget_rset_same]; rfl
  · rw [hne (by decide), hne (by decide), hne (by decide), rget_rset_same]; exact Nat.mod_mod _ _
  · rw [hne (by decide), hne (by decide), hne (by decide), hne (by decide), rget_rset_same]; rfl
  · rw [hne (by decide), hne (by decide), hne (by decide), hne (by decide), hne (by decide), rget_rset_same]; rfl

section
variable {req : Requester} {g : Fin 32} {w : BitVec 32} {s : State} {d : Dev} {img k : Nat} {c : Instr}
  (hc : exec c s = run (cmd req .LPG_SA_CMD g.val 0 (force w [(31, 31, 1), (29, 28, k)])) s)
  (hcom : Commits req .LPG_SA_CMD g.val 0 (force w [(31, 31, 1), (29, 28, k)]) s d img)
include hcom

theorem saCmd_img : LPG_SA_CMD.GO.on img = true ∧ LPG_SA_CMD.OP.of img = k % 4 := by
  rw [img_eq_of_one_word hcom rfl]
  exact saImg w k

include hc

theorem saCmd_writes : Writes req c s (saCmdWrite g.val img d) := cmd_writes hc (lies_LPG_SA_CMD g) hcom

variable (hgo : flag LPG_SA_CMD.GO g.val 0 d = false)
include hgo

/-- A command for an SA that does not transmit runs at once. -/
theorem saCmd_runs (hidle : LPG_SA_CMD.DIR.on img = true → (port (4 * g.val + LPG_SA_CMD.PORT.of img) d).txNow = none) :
    Writes req c s (saRun g.val img (regImg .LPG_SA_DATA g.val 0 d) (storeFields false .LPG_SA_CMD g.val 0 img d)) := by
  obtain ⟨hon, -⟩ := saCmd_img hcom
  have hrun : ¬(LPG_SA_CMD.DIR.on img && (port (4 * g.val + LPG_SA_CMD.PORT.of img) d).txNow.isSome) = true := by
    intro h
    obtain ⟨hdir, htx⟩ := Bool.and_eq_true_iff.1 h
    simp [hidle hdir] at htx
  have h := saCmd_writes hc hcom
  rw [saCmdWrite_go hon hgo] at h
  dsimp only at h
  rwa [if_neg hrun] at h

/-- A command for a transmit SA waits while the port sends a frame (R71). -/
theorem saCmd_waits (hdir : LPG_SA_CMD.DIR.on img = true) (htx : (port (4 * g.val + LPG_SA_CMD.PORT.of img) d).txNow.isSome = true) :
    Writes req c s (rset LPG_SA_CMD.GO g.val 0 1 (setPort (4 * g.val + LPG_SA_CMD.PORT.of img)
      { port (4 * g.val + LPG_SA_CMD.PORT.of img) d with cmd := some (img, regImg .LPG_SA_DATA g.val 0 d) }
        (storeFields false .LPG_SA_CMD g.val 0 img d))) := by
  obtain ⟨hon, -⟩ := saCmd_img hcom
  have h := saCmd_writes hc hcom
  rw [saCmdWrite_go hon hgo] at h
  dsimp only at h
  rwa [if_pos (Bool.and_eq_true_iff.2 ⟨hdir, htx⟩)] at h

end

/-! SA_SWITCH (R72). -/

section
variable {n sc i : Nat} {d : Dev} (hnow : (port n d).txNow = none) (hcur : find? (port n d).cur sc = some i) (hvalid : (saOf n true i d).valid = true)
  (hlast : lastPn n d ≤ (saOf n true i d).nextPn) (hexh : (port n d).exh.contains sc = false)
include hnow hcur hvalid hlast hexh

/-- At its last PN, an SC moves on or is exhausted. -/
theorem saBoundary_last : saBoundary n sc d =
    if (saOf n true (4 * sc + (i + 1) % 4) d).valid && pflag LPG_PORTn_MSEC.TX_NEXT_ARM n d then
      portFire n 16 (setPort n { port n d with cur := ins (port n d).cur sc (4 * sc + (i + 1) % 4) } d)
    else portFire n 20 (setPort n { port n d with exh := sc :: (port n d).exh } d) := by
  have hidle : ¬(port n d).txNow.isSome = true := by simp [hnow]
  have hmoves : (saOf n true i d).valid = true ∧ lastPn n d ≤ (saOf n true i d).nextPn ∧ (!(port n d).exh.contains sc) = true :=
    ⟨hvalid, hlast, by rw [hexh]; rfl⟩
  rw [saBoundary, if_neg hidle, saSwitch, hcur]
  exact if_pos hmoves

end

/-- A port's event, as a device with its pending bit set. -/
theorem act_portFire_leaves {n b : Nat} {c : Instr} {s : State} {d x : Dev} {f : Dev → Dev} (hc : exec c s = run (act (n / 4) f) s)
    (h : Runs (n / 4) s d) (hx : f d = portFire n b x) :
    Leaves c s (setFace (Pg.LPG + n / 4) { face (Pg.LPG + n / 4) x with pend := setBit (face (Pg.LPG + n / 4) x).pend (b + n % 4) } x) :=
  act_does hc h fun e he => (fire_beside (Pg.LPG + n / 4) (b + n % 4) x).trans (by rw [hx] at he; exact he)

end Sys2Proof.Machine

/-! The frames and the keys of a line port (R62 to R73). -/

namespace Sys2Proof.Machine

open Safety

/-! What a received frame's FIFO holds (R81). -/

@[simp] theorem fifo_setFifo_same (k : Nat) (l : List InFrame) (d : Dev) : fifo k (setFifo k l d) = l := look_put_same ..

theorem fifo_of_head {d e : Dev} (h : e.head = d.head) (k : Nat) : fifo k e = fifo k d := by simp only [fifo, h]

section
variable {n : Fin 128} {bs : Bytes} {ok : Bool} {sec : Option SecTag} {ts : TimeVal} {fr smd corr unc : Nat} {s : State} {d : Dev}

/-- The device once the arrival is counted. -/
abbrev rxSeen (n : Nat) (ok : Bool) (unc fr smd corr : Nat) (d : Dev) : Dev := rxCounted n (ok && unc == 0) fr smd corr unc d

variable (hline : Line n.val s d) (hst : linkState n.val d = 4) (hblk : blkEn (Pg.LPG + n.val / 4) d = true)
include hline hst hblk

/-- FRAME_RECEIVE at a port that is UP leaves what R63's order decides. -/
theorem frameReceive_leaves {x : Dev} (h : (let b := rxSeen n.val ok unc fr smd corr d
      if pget LPG_PORTn_CFG.MAX_FRAME n.val d < bs.length + 4 then drop 0x02 (portInc n.val 0x028 1 b)
      else if bs.length + 4 < 64 then drop 0x03 (portInc n.val 0x030 1 b)
      else if (!(ok && unc == 0)) = true then drop 0x01 (portInc n.val 0x020 1 b)
      else if beAt bs 12 2 = 0x8808 then drop 0x07 (portInc n.val 0x038 1 b)
      else rxPass n.val bs sec ts b) = x) : Leaves (.frameReceive n bs ok sec ts fr corr unc smd) s x :=
  line_leaves rfl hline ((frameReceive_up hst hblk ..).trans h)

theorem frameReceive_oversize (hmax : pget LPG_PORTn_CFG.MAX_FRAME n.val d < bs.length + 4) :
    Leaves (.frameReceive n bs ok sec ts fr corr unc smd) s (drop 0x02 (portInc n.val 0x028 1 (rxSeen n.val ok unc fr smd corr d))) :=
  frameReceive_leaves hline hst hblk (if_pos hmax)

variable (hmax : bs.length + 4 ≤ pget LPG_PORTn_CFG.MAX_FRAME n.val d)
include hmax

theorem frameReceive_short (hmin : bs.length + 4 < 64) :
    Leaves (.frameReceive n bs ok sec ts fr corr unc smd) s (drop 0x03 (portInc n.val 0x030 1 (rxSeen n.val ok unc fr smd corr d))) :=
  frameReceive_leaves hline hst hblk ((if_neg (not_lt.2 hmax)).trans (if_pos hmin))

variable (hmin : 64 ≤ bs.length + 4)
include hmin

theorem frameReceive_damaged (hbad : ¬(ok = true ∧ unc = 0)) :
    Leaves (.frameReceive n bs ok sec ts fr corr unc smd) s (drop 0x01 (portInc n.val 0x020 1 (rxSeen n.val ok unc fr smd corr d))) := by
  have hnot : (!(ok && unc == 0)) = true := by
    rw [Bool.not_eq_true', Bool.eq_false_iff]
    simpa using hbad
  exact frameReceive_leaves hline hst hblk ((if_neg (not_lt.2 hmax)).trans ((if_neg (not_lt.2 hmin)).trans (if_pos hnot)))

variable (hgood : ok = true ∧ unc = 0)
include hgood

theorem frameReceive_control (htype : beAt bs 12 2 = 0x8808) :
    Leaves (.frameReceive n bs ok sec ts fr corr unc smd) s (drop 0x07 (portInc n.val 0x038 1 (rxSeen n.val ok unc fr smd corr d))) := by
  have hgood' : ¬(!(ok && unc == 0)) = true := by simpa using hgood
  exact frameReceive_leaves hline hst hblk
    ((if_neg (not_lt.2 hmax)).trans ((if_neg (not_lt.2 hmin)).trans ((if_neg hgood').trans (if_pos htype))))

variable (htype : beAt bs 12 2 ≠ 0x8808)
include htype

theorem frameReceive_passes {x : Dev} (h : rxPass n.val bs sec ts (rxSeen n.val ok unc fr smd corr d) = x) :
    Leaves (.frameReceive n bs ok sec ts fr corr unc smd) s x := by
  have hgood' : ¬(!(ok && unc == 0)) = true := by simpa using hgood
  exact frameReceive_leaves hline hst hblk
    ((if_neg (not_lt.2 hmax)).trans ((if_neg (not_lt.2 hmin)).trans ((if_neg hgood').trans ((if_neg htype).trans h))))

/-- Without MACsec, a good frame enters the FIFO as it is. -/
theorem frameReceive_plain (hoff : pflag LPG_PORTn_MSEC.EN n.val d = false) (hroom : fifoBytes (fifoOf n.val) d + bs.length ≤ 32768) :
    Does (.frameReceive n bs ok sec ts fr corr unc smd) s fun e => ∃ t,
      fifo (fifoOf n.val) e = fifo (fifoOf n.val) d ++ [{ port := n.val, bytes := bs, pktTime := t }] := by
  let b := rxSeen n.val ok unc fr smd corr d
  let x := groupCount n.val 0x010 bs (portInc n.val 0x008 (macOctets bs.length) (portInc n.val 0x000 1 b))
  have hoff' : pflag LPG_PORTn_MSEC.EN n.val b = false := (congrArg (· != 0) (pget_rxCounted ..)).trans hoff
  have hmsec : msecReceive n.val bs sec b = ((0, 0), bs, b) := msecReceive_off hoff' bs sec
  have hhead : x.head = d.head := (head_groupCount ..).trans (head_rxCounted ..)
  have hpass := rxPass_enters (n := n.val) (bs := bs) (sec := sec) (ts := ts) (d := b) (by rw [hmsec])
  rw [hmsec] at hpass
  have hroom' : fifoBytes (fifoOf n.val) x + bs.length ≤ 32768 := by
    rw [fifoBytes, fifo_of_head hhead]
    exact hroom
  refine Does.imp (frameReceive_passes hline hst hblk hmax hmin hgood htype (hpass hroom')) fun e he => ⟨rxTime n.val ts x, ?_⟩
  rw [fifo_of_head he.head, fifo_setFifo_same]
  exact congrArg (· ++ _) (fifo_of_head hhead _)

end

/-! Frames that start (R62). -/

theorem saOf_beside {x e : Dev} (h : Beside x e) (n : Nat) (tx : Bool) (i : Nat) : saOf n tx i e = saOf n tx i x := by simp only [saOf, h.port]

section
variable (n : Nat) (f : TxFrame) (tag : Option (Nat × Nat × Nat)) (ts pred : TimeVal) (d : Dev)

theorem txNow_txSend : (port n (txSend n f tag ts pred d)).txNow = some (wireFrame n f tag pred d) := by
  have h := congrArg PortSt.txNow (port_txSend n f tag ts pred d); exact h
theorem txWait_txSend : (port n (txSend n f tag ts pred d)).txWait = (port n d).txWait := by
  have h := congrArg PortSt.txWait (port_txSend n f tag ts pred d); exact h
theorem saOf_txSend (i : Nat) : saOf n true i (txSend n f tag ts pred d) = saOf n true i d := by
  have h := congrArg (fun x : PortSt => look x.tx i {}) (port_txSend n f tag ts pred d); exact h

end

section
variable {n : Fin 128} {ts pred : TimeVal} {s : State} {d : Dev} {f : TxFrame} {x : PortSt}
  (hline : Line n.val s d) (hst : linkState n.val d = 4) (hblk : blkEn (Pg.LPG + n.val / 4) d = true) (hpick : txPick n.val d = some (f, x))
include hline hst hblk hpick

/-- A fragment of a frame that goes on has its SecTAG and stamps. -/
theorem frameTxStart_resumes (hfrag : f.fragment = true) :
    Leaves (.frameTxStart n ts pred) s (portInc n.val 0x0A0 1 (setPort n.val { x with txNow := some f } d)) :=
  line_leaves rfl hline ((frameTxStart_picks hst hblk hpick ts pred).trans (if_pos hfrag))

variable (hwhole : f.fragment = false)
include hwhole

/-- A frame that gets its SecTAG, or needs none, is sent. -/
theorem frameTxStart_sends {tag : Option (Nat × Nat × Nat)} {y : Dev} (hprot : txProtect n.val f.sc f.bytes.length (setPort n.val x d) = (some tag, y)) :
    Leaves (.frameTxStart n ts pred) s (txSend n.val f tag ts pred y) := by
  refine line_leaves rfl hline ((frameTxStart_picks hst hblk hpick ts pred).trans ((if_neg (by simp [hwhole])).trans ?_))
  rw [hprot]

/-- A frame without MACsec goes out as it is. -/
theorem frameTxStart_plain (hoff : pflag LPG_PORTn_MSEC.EN n.val d = false) :
    Leaves (.frameTxStart n ts pred) s (txSend n.val f none ts pred (setPort n.val x d)) :=
  frameTxStart_sends hline hst hblk hpick hwhole (txProtect_off hoff)

theorem frameTxStart_secures (hon : pflag LPG_PORTn_MSEC.EN n.val d = true) {i : Nat} (hsa : saUsable n.val f.sc (setPort n.val x d) = some i) :
    Does (.frameTxStart n ts pred) s fun e =>
      (saOf n.val true i e).nextPn = (saOf n.val true i d).nextPn + 1 ∧
      ∃ bs t, Out.frame n.val bs (some ((saOf n.val true i d).sci, i % 4, (saOf n.val true i d).nextPn)) t ∈ e.out := by
  have hold : saOf n.val true i (setPort n.val x d) = saOf n.val true i d := by
    have htx := congrArg (fun y : PortSt => look y.tx i {}) (txPick_frame hpick)
    rw [saOf, port_setPort_same]
    exact htx
  obtain ⟨y, hprot, hnext⟩ := txProtect_usable (d := setPort n.val x d) (len := f.bytes.length) hon hsa
  rw [hold] at hprot hnext
  refine Does.imp (frameTxStart_sends hline hst hblk hpick hwhole hprot) fun e he => ⟨?_, ?_⟩
  · rw [saOf_beside he, saOf_txSend, hnext]
  · obtain ⟨t, ht⟩ := frame_mem_txSend n.val f _ ts pred y
    exact ⟨_, t, he.mem_out ht⟩

/-- A frame whose SC has no usable SA is discarded. -/
theorem frameTxStart_unsecured (hon : pflag LPG_PORTn_MSEC.EN n.val d = true) (hsa : saUsable n.val f.sc (setPort n.val x d) = none) :
    Leaves (.frameTxStart n ts pred) s (drop 0x08 (portInc n.val 0x0C0 1 (setPort n.val x d))) := by
  refine line_leaves rfl hline ((frameTxStart_picks hst hblk hpick ts pred).trans ((if_neg (by simp [hwhole])).trans ?_))
  rw [txProtect_none (d := setPort n.val x d) hon hsa]

end

section
variable {req : Requester} {g : Fin 32} {w : BitVec 32} {s : State} {d : Dev} {img : Nat}

/-- The device with LPG_SA_CMD stored. -/
abbrev saStored (g img : Nat) (d : Dev) : Dev := storeFields false .LPG_SA_CMD g 0 img d

variable (hgo : flag LPG_SA_CMD.GO g.val 0 d = false)
  (hidle : LPG_SA_CMD.DIR.on img = true → (port (4 * g.val + LPG_SA_CMD.PORT.of img) d).txNow = none)
include hgo hidle

theorem saInstall_writes (hcom : Commits req .LPG_SA_CMD g.val 0 (force w [(31, 31, 1), (29, 28, 0)]) s d img) :
    Writes req (.saInstall req g w) s (saInstall (4 * g.val + LPG_SA_CMD.PORT.of img) (LPG_SA_CMD.DIR.on img)
    (LPG_SA_CMD.SA.of img) (regImg .LPG_SA_DATA g.val 0 d) (saStored g.val img d)) := by
  rw [← saRun_install (saCmd_img hcom).2]
  exact saCmd_runs rfl hcom hgo hidle

theorem saRemove_writes (hcom : Commits req .LPG_SA_CMD g.val 0 (force w [(31, 31, 1), (29, 28, 1)]) s d img) :
    Writes req (.saRemove req g w) s (saRemove (4 * g.val + LPG_SA_CMD.PORT.of img) (LPG_SA_CMD.DIR.on img)
    (LPG_SA_CMD.SA.of img) (saStored g.val img d)) := by
  rw [← saRun_remove (dat := regImg .LPG_SA_DATA g.val 0 d) (saCmd_img hcom).2]
  exact saCmd_runs rfl hcom hgo hidle

theorem saRead_writes (hcom : Commits req .LPG_SA_CMD g.val 0 (force w [(31, 31, 1), (29, 28, 2)]) s d img) :
    Writes req (.saRead req g w) s (saRead (4 * g.val + LPG_SA_CMD.PORT.of img) (LPG_SA_CMD.DIR.on img)
    (LPG_SA_CMD.SA.of img) (saStored g.val img d)) := by
  rw [← saRun_read (dat := regImg .LPG_SA_DATA g.val 0 d) (saCmd_img hcom).2]
  exact saCmd_runs rfl hcom hgo hidle

theorem saSetCurrent_writes (hcom : Commits req .LPG_SA_CMD g.val 0 (force w [(31, 31, 1), (29, 28, 3)]) s d img) :
    Writes req (.saSetCurrent req g w) s (saSetCurrent (4 * g.val + LPG_SA_CMD.PORT.of img) (LPG_SA_CMD.DIR.on img)
    (LPG_SA_CMD.SA.of img) (saStored g.val img d)) := by
  rw [← saRun_setCurrent (dat := regImg .LPG_SA_DATA g.val 0 d) (saCmd_img hcom).2]
  exact saCmd_runs rfl hcom hgo hidle

/-- READ shows the SA's fields, and moves no port. -/
theorem saRead_does (hcom : Commits req .LPG_SA_CMD g.val 0 (force w [(31, 31, 1), (29, 28, 2)]) s d img) :
    let i := LPG_SA_CMD.SA.of img
    let old := saOf (4 * g.val + LPG_SA_CMD.PORT.of img) (LPG_SA_CMD.DIR.on img) i d
    Does (.saRead req g w) s fun e => rget LPG_SA_DATA.VALID g.val 0 e = b2n old.valid ∧
      rget LPG_SA_DATA.KEY_HANDLE g.val 0 e = old.handle % 2 ^ 16 ∧ rget LPG_SA_DATA.SSCI g.val 0 e = old.ssci % 2 ^ 32 ∧
      rget LPG_SA_DATA.AN g.val 0 e = i % 4 ∧ rget LPG_SA_DATA.NEXT_PN g.val 0 e = old.nextPn % 2 ^ 64 ∧
      rget LPG_SA_DATA.SCI g.val 0 e = old.sci % 2 ^ 64 ∧ e.ports = d.ports := by
  have hshows := saRead_shows (4 * g.val + LPG_SA_CMD.PORT.of img) (LPG_SA_CMD.DIR.on img) (LPG_SA_CMD.SA.of img) (saStored g.val img d)
  dsimp only at hshows
  rw [port_of_saCmd, saOf_storeFields] at hshows
  obtain ⟨hvalid, hhandle, hssci, han, hpn, hsci, hports⟩ := hshows
  refine Does.imp (shows_of_writes (saRead_writes hgo hidle hcom)) fun e he => ?_
  exact ⟨(he.rget ..).trans hvalid, (he.rget ..).trans hhandle, (he.rget ..).trans hssci, (he.rget ..).trans han, (he.rget ..).trans hpn,
    (he.rget ..).trans hsci, he.ports.trans (hports.trans (storeFields_ports ..))⟩

end

/-- Settles O9: FRAME_RECEIVE follows R63's order and MACsec's verdict, FRAME_TX_START sends what `txPick` finds, an SA command runs or
waits for the frame boundary, and SA_SWITCH moves an SC on or exhausts it. -/
theorem lineFramesAndKeys : Obligations.LineFramesAndKeys := by
  unfold Obligations.LineFramesAndKeys
  refine ⟨?receive, ?oldest, ?start, ?pop, ?sa, ?waits, ?switch⟩
  case receive =>
    intro n bs ok sec ts fr smd corr unc s d hline hst hblk c len good max a b r
    refine ⟨frameReceive_oversize hline hst hblk, frameReceive_short hline hst hblk, frameReceive_damaged hline hst hblk,
      frameReceive_control hline hst hblk, fun hmax hmin hgood htype => ⟨fun hbad => ?_, fun hok => ?_, fun hoff => ⟨?_, fun hroom => ?_⟩⟩⟩
    · exact frameReceive_passes hline hst hblk hmax hmin hgood htype (rxPass_drops hbad)
    · intro x hroom
      exact frameReceive_passes hline hst hblk hmax hmin hgood htype (rxPass_enters hok hroom)
    · exact msecReceive_off ((congrArg (· != 0) (pget_rxCounted LPG_PORTn_MSEC.EN n.val n.val (ok && unc == 0) fr smd corr unc d)).trans hoff) bs sec
    · exact frameReceive_plain hline hst hblk hmax hmin hgood htype hoff hroom
  case oldest =>
    intro n ts pred s d f l hline hst hblk hnow hpre hwait hgate hwhole hpreempt hoff
    have hpick := txPick_waiting hnow hpre hwait hgate hpreempt
    refine Does.imp (frameTxStart_plain hline hst hblk hpick hwhole hoff) fun e he => ⟨?_, ?_, ?_⟩
    · rw [he.port, txWait_txSend, port_setPort_same]
    · rw [he.port, txNow_txSend]; rfl
    · obtain ⟨t, ht⟩ := frame_mem_txSend n.val f none ts pred (setPort n.val { port n.val d with txWait := l } d)
      exact ⟨_, t, he.mem_out ht, bytes_wireFrame _ _ _ _ _⟩
  case start =>
    intro n ts pred s d f x hline hst hblk hpick
    refine ⟨frameTxStart_resumes hline hst hblk hpick, fun hwhole hoff => ?_, fun hwhole hon i => frameTxStart_secures hline hst hblk hpick hwhole hon,
      frameTxStart_unsecured hline hst hblk hpick⟩
    refine Does.imp (frameTxStart_plain hline hst hblk hpick hwhole hoff) fun e he => ?_
    obtain ⟨t, ht⟩ := frame_mem_txSend n.val f none ts pred (setPort n.val x d)
    exact ⟨wireFrame n.val f none pred (setPort n.val x d), by rw [he.port, txNow_txSend], rfl, rfl, rfl, bytes_wireFrame _ _ _ _ _, t, he.mem_out ht⟩
  case pop => exact fun req n s tag sec ns frac t ht hfifo => tsFifoPop_does ht hfifo
  case sa =>
    intro req g w s d img k hcom n tx i x old dat hgo hidle
    have hn : n / 4 = g.val := port_of_saCmd g.val img
    have hcur : saIsCurrent n i x = saIsCurrent n i d := saIsCurrent_storeFields ..
    have hold : saOf n tx i x = old := saOf_storeFields ..
    have hkey (h : Nat) : saKey n h x = saKey n h d := saKey_storeFields d n h
    refine ⟨?_, ?_, ?_, fun htx hcurr => ⟨?_, ?_⟩, ?_, ?_, ?_⟩
    · rintro rfl hfree key hk
      have h := saInstall_writes hgo hidle hcom
      rwa [saInstall_key (by rwa [hcur]) ((hkey _).trans hk)] at h
    · rintro rfl hfree hk
      have h := saInstall_writes hgo hidle hcom
      rwa [saInstall_noKey (by rwa [hcur]) ((hkey _).trans hk), hn] at h
    · rintro rfl hfree
      have h := saRemove_writes hgo hidle hcom
      rwa [saRemove_idle (by rwa [hcur]), hold] at h
    · rintro rfl
      have h := saInstall_writes hgo hidle hcom
      rwa [saInstall_current htx (hcur.trans hcurr), hn] at h
    · rintro rfl
      have h := saRemove_writes hgo hidle hcom
      rwa [saRemove_current htx (hcur.trans hcurr), hn] at h
    · rintro rfl
      exact saRead_does hgo hidle hcom
    · rintro rfl htx hvalid
      have h := saSetCurrent_writes hgo hidle hcom
      rwa [saSetCurrent_valid htx (by rw [hold]; exact hvalid), port_storeFields] at h
    · rintro rfl htx hinvalid
      have h := saSetCurrent_writes hgo hidle hcom
      rwa [saSetCurrent_invalid htx (by rw [hold]; exact hinvalid), hn] at h
  case waits =>
    intro req g w s d img k hcom hk n hdir htx hgo
    obtain rfl | rfl | rfl | rfl : k = 0 ∨ k = 1 ∨ k = 2 ∨ k = 3 := by omega
    · exact saCmd_waits rfl hcom hgo hdir htx
    · exact saCmd_waits rfl hcom hgo hdir htx
    · exact saCmd_waits rfl hcom hgo hdir htx
    · exact saCmd_waits rfl hcom hgo hdir htx
  case switch =>
    intro n sc s d i hruns hnow hcur hvalid hlast hexh j fired
    have hlastPn := saBoundary_last hnow hcur hvalid hlast hexh
    refine ⟨fun hnext harm => ?_, fun hstop => ?_⟩
    · refine act_portFire_leaves rfl hruns (hlastPn.trans (if_pos ?_))
      exact Bool.and_eq_true_iff.2 ⟨hnext, harm⟩
    · refine act_portFire_leaves rfl hruns (hlastPn.trans (if_neg ?_))
      intro hboth
      obtain ⟨hnext, harm⟩ := Bool.and_eq_true_iff.1 hboth
      obtain hno | hno := hstop
      · exact Bool.false_ne_true (hno.symm.trans hnext)
      · exact Bool.false_ne_true (hno.symm.trans harm)

end Sys2Proof.Machine

/-! What the pins and the links show, and all that leaves it as it is (R371, R415, R549 to R551). -/

namespace Sys2Proof.Machine

open Safety

/-- The JTAG instruction, whether the pins are taken, the fabric links, and the PCIe link's SPEED. -/
def pinView (d : Dev) : Nat × Bool × Tbl FabLink × Nat := (d.sys.jtag, d.sys.jtagStop, d.fab.links, rget HIF_LINK.SPEED 0 0 d)

/-- A field of a page past the HIF's. -/
def pastHif (f : Fld) : Bool := decide (2 ≤ f.reg.lay.page) && decide (f.lo < 1024)

theorem speedKey_ne {f : Fld} (h : pastHif f = true) (g i : Nat) : HIF_LINK.SPEED.key 0 0 ≠ f.key g i := by
  simp only [pastHif, Bool.and_eq_true, decide_eq_true_eq] at h
  obtain ⟨hpage, hlo⟩ := h
  intro hkey
  have haddr := addr_eq_of_key_eq (by decide) hlo hkey
  have hspeed : HIF_LINK.SPEED.reg.addr 0 0 = 0x10100 := rfl
  rw [hspeed, Reg.addr] at haddr
  omega

theorem pinView_of_beside {d e : Dev} (h : Beside d e) : pinView e = pinView d := by have k := congrArg pinView h.kept; exact k
theorem pinView_of_tallies {d e : Dev} (h : Tallies d e) : pinView e = pinView d := by have k := congrArg pinView h.kept; exact k

theorem pinView_rset_ne {f : Fld} {g i : Nat} (h : HIF_LINK.SPEED.key 0 0 ≠ f.key g i) (v : Nat) (d : Dev) : pinView (rset f g i v d) = pinView d :=
  congrArg (fun speed => (d.sys.jtag, d.sys.jtagStop, d.fab.links, speed)) (rget_rset_ne v d h)
@[simp] theorem pinView_rset {f : Fld} (h : pastHif f = true) (g i v : Nat) (d : Dev) : pinView (rset f g i v d) = pinView d :=
  pinView_rset_ne (speedKey_ne h g i) v d
@[simp] theorem pinView_pset {f : Fld} (h : pastHif f = true) (n v : Nat) (d : Dev) : pinView (pset f n v d) = pinView d := pinView_rset h ..

@[simp] theorem pinView_setPort (n : Nat) (x : PortSt) (d : Dev) : pinView (setPort n x d) = pinView d := rfl
@[simp] theorem pinView_setFace (p : Nat) (x : Face) (d : Dev) : pinView (setFace p x d) = pinView d := rfl
@[simp] theorem pinView_onTab (f : Tables → Tables) (d : Dev) : pinView (onTab f d) = pinView d := rfl
@[simp] theorem pinView_fire (p k : Nat) (d : Dev) : pinView (fire p k d) = pinView d := (pinView_of_beside (fire_beside p k d)).trans (pinView_setFace ..)
@[simp] theorem pinView_portFire (n b : Nat) (d : Dev) : pinView (portFire n b d) = pinView d := pinView_fire ..
@[simp] theorem pinView_inc (p k : Nat) (d : Dev) : pinView (inc p k d) = pinView d := pinView_of_tallies (inc_tallies p k d)
@[simp] theorem pinView_hwdLog (kind type inst code data : Nat) (d : Dev) : pinView (hwdLog kind type inst code data d) = pinView d := by
  obtain h | ⟨v, h⟩ := hwdLog_tallies kind type inst code data d
  · exact pinView_of_tallies h
  · exact (pinView_of_tallies h).trans (pinView_rset (by decide) ..)

theorem pinView_ite {c : Prop} [Decidable c] {x y d : Dev} (hx : pinView x = pinView d) (hy : pinView y = pinView d) :
    pinView (if c then x else y) = pinView d := by
  split
  · exact hx
  · exact hy

theorem pinView_foldl {β : Type} {f : Dev → β → Dev} (h : ∀ d x, pinView (f d x) = pinView d) : ∀ (l : List β) (d : Dev), pinView (l.foldl f d) = pinView d
  | [], _ => rfl
  | x :: l, d => (pinView_foldl h l (f d x)).trans (h d x)

/-! A port that loses lock. -/

theorem pinView_of_saMoves {d e : Dev} (h : SaMoves d e) : pinView e = pinView d := by
  have hspeed : rget HIF_LINK.SPEED 0 0 e = rget HIF_LINK.SPEED 0 0 d :=
    h.rget _ _ _ fun k hk j => speedKey_ne ((by decide : ∀ k ∈ saFlds, pastHif k = true) k hk) j 0
  simp only [pinView, h.sys, h.fab, hspeed]

section
variable (n : Nat) (d : Dev)

@[simp] theorem pinView_truncateTx : pinView (truncateTx n d) = pinView d := by
  obtain ⟨l, hcut, -, -⟩ := txCut_eq n d
  rw [truncateTx_eq, pinView_of_saMoves (saResume_moves ..), hcut]
  rfl

@[simp] theorem pinView_linkTo (st : Nat) : pinView (linkTo n st d) = pinView d := pinView_pset (by decide) ..

@[simp] theorem pinView_setLinkUp (up : Bool) : pinView (setLinkUp n up d) = pinView d := by
  rw [setLinkUp_eq]
  exact pinView_ite rfl ((pinView_portFire ..).trans (pinView_pset (by decide) ..))

@[simp] theorem pinView_downDiscard : pinView (downDiscard n d) = pinView d := by
  obtain h | ⟨x, h⟩ := downDiscard_eq n d
  · rw [h]
  · rw [h]; rfl

theorem pinView_lockGone : pinView (lockGone n d) = pinView d := pinView_ite (pinView_linkTo ..) rfl

theorem pinView_linkFault (loc rem ser : Bool) : pinView (linkFault n loc rem ser d) = pinView d := by
  have hbits : pinView (faultBits n loc rem ser d) = pinView d := by
    simp (disch := decide) only [faultBits, pinView_pset]
  refine pinView_ite ?_ (pinView_ite ((pinView_lockGone ..).trans hbits) hbits)
  rw [pinView_downDiscard, pinView_setLinkUp, pinView_linkTo, pinView_truncateTx]
  exact hbits

end

/-! Learning records that go on once the table locks are free (R141, R384). -/

section
variable (d : Dev)

@[simp] theorem pinView_xmPut (s : Nat) (x : XmEnt) : pinView (xmPut s x d) = pinView d := pinView_ite rfl rfl
@[simp] theorem pinView_xmClear (s : Nat) : pinView (xmClear s d) = pinView d := pinView_ite rfl rfl

@[simp] theorem pinView_xmCounts : pinView (xmCounts d) = pinView d := by
  unfold xmCounts
  extract_lets old lvl e n x
  have he : pinView e = pinView d := pinView_rset (by decide) ..
  have hx : pinView x = pinView d := (pinView_foldl (fun _ _ => pinView_rset (by decide) ..) _ e).trans he
  exact pinView_ite ((pinView_fire ..).trans hx) hx

theorem pinView_xmMoves : ∀ (path : List Nat) (dst : Nat) (d : Dev), pinView (xmMoves path dst d).2 = pinView d
  | [], _, _ => rfl
  | s :: path, dst, d => by
    unfold xmMoves
    split
    · rw [pinView_xmMoves]; simp
    · rfl

@[simp] theorem pinView_xmInsert (x : XmEnt) : pinView (xmInsert x d).2 = pinView d := by
  unfold xmInsert
  extract_lets b1 b2 done
  have hdone (s : Nat) (d : Dev) : pinView (done s d).2 = pinView d := by simp [done]
  split
  · exact hdone _ _
  · next starts room _ _ =>
    clear_value room
    split
    · exact hdone _ _
    · split
      · exact (hdone _ _).trans (pinView_xmMoves _ _ _)
      · split
        · exact (hdone _ _).trans (pinView_inc ..)
        · simp

@[simp] theorem pinView_lrnLog (kind tbl old new time key : Nat) : pinView (lrnLog kind tbl old new time key d) = pinView d := by
  refine pinView_ite ((pinView_fire ..).trans (pinView_inc ..)) ((pinView_fire ..).trans ?_)
  exact (pinView_rset (by decide) ..).trans rfl

@[simp] theorem pinView_cachePut (k : Nat) (c : LrnCache) : pinView (cachePut k c d) = pinView d := (pinView_rset (by decide) ..).trans rfl
@[simp] theorem pinView_cacheDrop (k : Nat) : pinView (cacheDrop k d) = pinView d := (pinView_rset (by decide) ..).trans rfl

@[simp] theorem pinView_cacheRoom (k : Nat) : pinView (cacheRoom k d).2 = pinView d := by
  unfold cacheRoom
  split
  · rfl
  · split
    · exact pinView_cachePut ..
    · split <;> simp

@[simp] theorem pinView_flapCount (n key old : Nat) (ev : LrnEv) (c : LrnCache) : pinView (flapCount n key old ev c d).2 = pinView d := by
  unfold flapCount
  extract_lets c1 c2 m
  split <;> simp

@[simp] theorem pinView_cacheFinish (room : Bool) (k : Nat) (ev : LrnEv) (c : LrnCache) : pinView (cacheFinish room k ev c d) = pinView d := by
  have store (c : LrnCache) : pinView (cacheStore room k c d) = pinView d := pinView_ite (pinView_cachePut ..) rfl
  exact pinView_ite (store _) (pinView_ite (store _) rfl)

theorem pinView_judgeFound (room : Bool) (k key : Nat) (ev : LrnEv) (c : LrnCache) (s : Nat) (x : XmEnt) :
    pinView (judgeFound room k key ev c s x d).2 = pinView d := by
  unfold judgeFound
  split
  · simp
  · split
    · exact (pinView_cacheFinish ..).trans (pinView_ite rfl (pinView_xmPut ..))
    · split <;> simp

theorem pinView_judgeNew (room : Bool) (k key : Nat) (ev : LrnEv) (c : LrnCache) : pinView (judgeNew room k key ev c d).2 = pinView d := by
  unfold judgeNew
  split
  · simp
  · extract_lets r
    split <;> simp [r]

theorem pinView_judge (mgr room : Bool) (k key : Nat) (ev : LrnEv) (c : LrnCache) : pinView (judge mgr room k key ev c d).2 = pinView d := by
  unfold judge
  split
  · exact pinView_inc ..
  · split
    · split
      · split <;> simp
      · exact pinView_judgeFound ..
    · exact pinView_judgeNew ..

theorem pinView_arbitrate (mgr : Bool) (ev : LrnEv) : pinView (arbitrate mgr ev d).2 = pinView d := by
  rw [arbitrate_eq_judge]
  exact (pinView_judge ..).trans (pinView_cacheRoom ..)

@[simp] theorem pinView_sendCtl (dst : Option Nat) (kind r : Nat) : pinView (sendCtl dst kind r d) = pinView d := pinView_ite rfl rfl
@[simp] theorem pinView_sendDecide (r : Nat) : pinView (sendDecide r d) = pinView d := (pinView_inc ..).trans (pinView_sendCtl ..)

/-- The answer of the manager. Its definition is taken as a function of the record, so that no step evaluates the arbitration. -/
theorem pinView_learnAtManager (src r : Nat) : pinView (learnAtManager src r d) = pinView d := by
  have hdef : learnAtManager = learnAtManager := rfl
  conv at hdef => rhs; delta learnAtManager
  rw [hdef]
  beta_reduce
  extract_lets ev
  clear_value ev
  have harb := pinView_arbitrate d true ev
  generalize arbitrate true ev d = a at harb
  split
  next a e =>
  dsimp only
  split
  · exact (pinView_sendDecide ..).trans harb
  · exact (pinView_sendDecide ..).trans harb
  · exact (pinView_inc ..).trans ((pinView_sendCtl ..).trans harb)
  · exact (pinView_inc ..).trans ((pinView_sendCtl ..).trans harb)
  · exact harb

theorem pinView_decideApply (r : Nat) : pinView (decideApply r d) = pinView d := by
  have hinc : pinView (inc Pg.LRN 1 d) = pinView d := pinView_inc ..
  unfold decideApply
  generalize recEv r = ev
  generalize inc Pg.LRN 1 d = x at hinc
  extract_lets y ev key ent z k
  have hz : pinView z = pinView d := by
    dsimp only [z]
    split
    · exact pinView_ite hinc ((pinView_xmPut ..).trans hinc)
    · have hins : pinView (xmInsert ent y).2 = pinView d := (pinView_xmInsert ..).trans hinc
      generalize xmInsert ent y = p at hins
      obtain ⟨ok, e⟩ := p
      exact pinView_ite hins ((pinView_fire ..).trans ((pinView_lrnLog ..).trans hins))
  have hroom : pinView (cacheRoom k z).2 = pinView d := (pinView_cacheRoom ..).trans hz
  generalize cacheRoom k z = p at hroom
  obtain ⟨room, e⟩ := p
  exact pinView_ite ((pinView_cachePut ..).trans hroom) hroom

theorem pinView_removeApply (r : Nat) : pinView (removeApply r d) = pinView d := by
  unfold removeApply
  generalize recEv r = ev
  dsimp only
  rw [pinView_cacheDrop]
  split
  · exact pinView_ite ((pinView_xmCounts ..).trans (pinView_xmClear ..)) rfl
  · rfl

theorem pinView_learnAct (src r : Nat) : pinView (learnAct src r d) = pinView d := by
  unfold learnAct
  split
  · exact pinView_learnAtManager ..
  · exact pinView_decideApply ..
  · exact (pinView_sendDecide ..).trans (pinView_removeApply ..)
  · exact pinView_removeApply ..
  · rfl

theorem pinView_learnOrWait (src r : Nat) : pinView (learnOrWait src r d) = pinView d := pinView_ite (pinView_learnAct ..) rfl

theorem pinView_learnResume : pinView (learnResume d) = pinView d := (pinView_foldl (fun _ _ => pinView_learnOrWait ..) _ _).trans rfl

/-! A control reset (R462, R523). -/

theorem pinView_dmaLocksFree : pinView (dmaLocksFree d) = pinView d := by
  unfold dmaLocksFree
  extract_lets one
  have hone {r : Reg} (hr : pastHif ⟨r, 0, 16⟩ = true) (i : Nat) (d : Dev) : pinView (one r i d) = pinView d :=
    pinView_ite (Eq.trans (b := pinView (rset ⟨r, 0, 16⟩ 0 i 0 d)) rfl (pinView_rset hr ..)) rfl
  refine (pinView_learnResume ..).trans ((pinView_foldl (fun _ _ => hone (by decide) ..) _ _).trans ?_)
  exact (hone (by decide) ..).trans ((hone (by decide) ..).trans (hone (by decide) ..))

/-- Entries that a filter keeps stay. -/
theorem find?_filter_of_keep {α : Type} {p : Nat × α → Bool} {k : Nat} (h : ∀ v, p (k, v) = true) : ∀ t : Tbl α, find? (t.filter p) k = find? t k
  | [] => rfl
  | (a, v) :: t => by
    by_cases ha : k = a
    · subst ha
      simp [h, find?]
    · by_cases hp : p (a, v) = true
      · simp [hp, find?, ha, find?_filter_of_keep h t]
      · simp [hp, find?, ha, find?_filter_of_keep h t]

/-- Registers that return to reset values, SPEED aside. -/
theorem pinView_filter {p : Nat × Nat → Bool} (h : ∀ v, p (HIF_LINK.SPEED.key 0 0, v) = true) :
    pinView { d with flds := d.flds.filter p } = pinView d := by
  have hfind := find?_filter_of_keep h d.flds
  simp only [pinView, rget, look, hfind]

theorem speedKey_div : HIF_LINK.SPEED.key 0 0 / 1024 = 0x10100 := by decide

theorem pinView_fldsReset {p a b : Nat} {keep : Nat → Bool} (h : p ≠ 1 ∨ keep 0x100 = true) : pinView (fldsReset p a b keep d) = pinView d := by
  refine pinView_filter d fun v => ?_
  simp only [speedKey_div]
  obtain h | h := h
  · simp [Ne.symm h]
  · simp [h]

theorem pinView_evtAonCtl : pinView (evtAonCtl d) = pinView d := by
  have hfields (v w : Nat) : pinView (rset EVT_ALERT.EN 0 0 v (rset EVT_ALERT.OWNER_ID 0 0 w
      (fldsReset Pg.AON 0x40 0x1000 (fun o => o == 0x104) (fldsReset Pg.EVT 0x40 0x1000 (fun _ => false) d)))) = pinView d := by
    rw [pinView_rset (by decide), pinView_rset (by decide), pinView_fldsReset _ (.inl (by decide)), pinView_fldsReset _ (.inl (by decide))]
  exact hfields _ _

theorem pinView_ctlStep4 : pinView (ctlStep4 d) = pinView d := by
  have hfaces : pinView ((keys d.faces).foldl (fun d p => if onTmDie p then d else faceCtl p d) d) = pinView d :=
    pinView_foldl (fun x p => pinView_ite (c := onTmDie p = true) (x := x) (y := faceCtl p x) rfl rfl) _ d
  unfold ctlStep4
  extract_lets x1 x2 i3c x3 x4 x5 x6 low
  have h2 : pinView x2 = pinView d := (pinView_fldsReset _ (.inr rfl)).trans hfaces
  have h3 : pinView x3 = pinView d := (pinView_evtAonCtl _).trans h2
  have h4 : pinView x4 = pinView d := by
    dsimp only [x4]
    rw [pinView_rset (by decide), pinView_rset (by decide), pinView_rset (by decide)]
    exact h3
  have h6 : pinView x6 = pinView d := by
    refine (pinView_filter x5 fun v => ?_).trans h4
    simp only [speedKey_div]
    decide
  exact h6

theorem pinView_ctlStart (src : Nat) : pinView (ctlStart src d) = pinView d := by
  unfold ctlStart
  extract_lets ctl count x
  have hcount (d : Dev) : pinView (count d) = pinView d := by
    refine (pinView_hwdLog ..).trans (Eq.trans (b := pinView (inc Pg.GLB src (if src = 3 then inc Pg.HIF 10 d else d))) rfl ?_)
    exact (pinView_inc ..).trans (pinView_ite (pinView_inc ..) rfl)
  have hx : pinView x = pinView d := (pinView_ctlStep4 _).trans ((pinView_dmaLocksFree _).trans rfl)
  refine pinView_ite rfl (pinView_ite (hcount d) ?_)
  rw [pinView_rset_ne (by decide), pinView_rset_ne (by decide), hcount, hx]

theorem pinView_pcieReset : pinView (pcieReset d) = pinView d := by
  refine (pinView_ctlStart _ _).trans (Eq.trans (b := pinView (rset HIF_LINK.BME 0 0 0 (rset HIF_LINK.DSTATE 0 0 0 d))) rfl ?_)
  rw [pinView_rset_ne (by decide), pinView_rset_ne (by decide)]

/-- The link that goes down has SPEED 0, and the rest stays. -/
theorem pinView_pcieDown : pinView (pcieDown d) = ((pinView d).1, (pinView d).2.1, (pinView d).2.2.1, 0) := by
  unfold pcieDown
  split
  · next h => simp only [pinView, h]
  · next h =>
    rw [pinView_pcieReset, linkLost, if_neg h, pinView_fire, pinView, rget_rset_same]
    rfl

end

end Sys2Proof.Machine

/-! JTAG, L1, the end of a frame, and refresh (R62, R285, R459, R549 to R551, R572). -/

namespace Sys2Proof.Machine

open Safety

/-! An instruction that takes the pins (R551). -/

@[simp] theorem link_setLink_same (l : Nat) (x : FabLink) (d : Dev) : link l (setLink l x d) = x := look_put_same ..
theorem link_setLink_ne {k l : Nat} (h : k ≠ l) (x : FabLink) (d : Dev) : link k (setLink l x d) = link k d := look_put_ne _ _ _ _ h

/-- A fabric link loses lock. -/
def linkCut (d : Dev) (l : Nat) : Dev := if (link l d).locked then setLink l { link l d with locked := false } d else d

theorem linkCut_sys (d : Dev) (l : Nat) : (linkCut d l).sys = d.sys := by
  unfold linkCut
  split <;> rfl

theorem locked_linkCut (d : Dev) (l k : Nat) : (link k (linkCut d l)).locked = ((link k d).locked && k != l) := by
  unfold linkCut
  by_cases hk : k = l
  · subst hk
    split
    · simp
    · next h => simp [h]
  · split
    · rw [link_setLink_ne hk]; simp [hk]
    · simp [hk]

theorem foldl_linkCut (l : List Nat) : ∀ d : Dev, (l.foldl linkCut d).sys = d.sys ∧ ∀ k, (link k (l.foldl linkCut d)).locked = ((link k d).locked && !l.contains k) := by
  induction l with
  | nil => exact fun d => ⟨rfl, fun k => by simp⟩
  | cons x l ih =>
    intro d
    obtain ⟨hsys, hlocked⟩ := ih (linkCut d x)
    refine ⟨hsys.trans (linkCut_sys d x), fun k => ?_⟩
    rw [List.foldl_cons, hlocked, locked_linkCut, List.contains_cons, Bool.not_or, Bool.and_assoc]
    rfl

theorem pcieDown_shows (d : Dev) : (pcieDown d).sys.jtag = d.sys.jtag ∧ (pcieDown d).sys.jtagStop = d.sys.jtagStop ∧
    (pcieDown d).fab.links = d.fab.links ∧ rget HIF_LINK.SPEED 0 0 (pcieDown d) = 0 := by
  have h := pinView_pcieDown d
  simpa only [pinView, Prod.mk.injEq] using h

/-- The instruction stands, no fabric link has lock, and the PCIe link is down. -/
theorem jtagTake_does {i : Nat} {c : Instr} {s : State} (hc : exec c s = run (jtagTake i) s) :
    Does c s fun e => e.sys.jtag = i ∧ e.sys.jtagStop = true ∧ rget HIF_LINK.SPEED 0 0 e % 4 = 0 ∧ ∀ l < 168, (link l e).locked = false := by
  let x := onSys (fun s => { s with jtag := i, jtagStop := true }) s.dev
  let y := (List.range 128).foldl (fun d n => linkFault n true false false d) x
  let z := (List.range 168).foldl linkCut y
  have hy : pinView y = pinView x := pinView_foldl (fun _ _ => pinView_linkFault ..) _ x
  have htake : jtagTake i s.dev = pcieDown z := rfl
  obtain ⟨hsys, hlocked⟩ := foldl_linkCut (List.range 168) y
  obtain ⟨hjtag, hstop, hlinks, hspeed⟩ := pcieDown_shows z
  simp only [pinView, Prod.mk.injEq] at hy
  obtain ⟨hyjtag, hystop, -, -⟩ := hy
  refine run_does hc fun e he => ?_
  rw [htake] at he
  refine ⟨?_, ?_, ?_, fun l hl => ?_⟩
  · rw [he.sys, hjtag, hsys, hyjtag]; rfl
  · rw [he.sys, hstop, hsys, hystop]; rfl
  · rw [he.rget, hspeed]
  · have hlink : link l e = link l z := by simp only [link, he.fab, hlinks]
    rw [hlink, hlocked]
    simp [hl]

/-! L1 (R459). -/

theorem pmeWait_beside {x e : Dev} (h : Beside x e) : e.aon.pmeWait = x.aon.pmeWait := by
  have k := congrArg (fun d : Dev => d.aon.pmeWait) h.kept; exact k

section
variable {d : Dev}

theorem l1Exit_idle (h : d.aon.pmeWait = false) : l1Exit d = rset HIF_LINK.LP 0 0 0 d := if_neg (by simp [h])

/-- A PM_PME that waits leaves as the link reaches L0. -/
theorem l1Exit_pme (h : d.aon.pmeWait = true) (hup : rget HIF_LINK.SPEED 0 0 d ≠ 0) :
    l1Exit d = inc Pg.AON 1 (emit .pmPme (onAon (fun a => { a with pmeWait := false }) (rset HIF_LINK.LP 0 0 0 d))) := by
  have hlp : ¬(flag HIF_LINK.LP 0 0 (rset HIF_LINK.LP 0 0 0 d) = true ∨ rget HIF_LINK.SPEED 0 0 (rset HIF_LINK.LP 0 0 0 d) = 0) := by
    rw [flag, rget_rset_same, rget_rset_ne _ _ (by decide)]
    simp [hup]
  exact (if_pos h).trans (if_neg hlp)

end

/-! The end of a frame (R62, R572). -/

theorem ctr_incAt_ne {p o k : Nat} (h : o ≠ k) (n : Nat) (d : Dev) : ctr p o (incAt p k n d) = ctr p o d :=
  look_put_ne _ _ _ _ (by omega)

theorem ctr_portInc_ne {n o k : Nat} (h : o ≠ k) (v : Nat) (d : Dev) :
    ctr (Pg.LPG + n / 4) (0x1000 + 0x400 * (n % 4) + o) (portInc n k v d) = ctr (Pg.LPG + n / 4) (0x1000 + 0x400 * (n % 4) + o) d :=
  ctr_incAt_ne (by omega) v d

theorem ctr_groupCount_ne {n o k : Nat} (h : o ≠ k) (h8 : o ≠ k + 8) (bs : Bytes) (d : Dev) :
    ctr (Pg.LPG + n / 4) (0x1000 + 0x400 * (n % 4) + o) (groupCount n k bs d) = ctr (Pg.LPG + n / 4) (0x1000 + 0x400 * (n % 4) + o) d := by
  unfold groupCount
  split
  · exact ctr_portInc_ne h8 ..
  · split
    · exact ctr_portInc_ne h ..
    · rfl

/-- A frame that ends is cut short, or counts; v is what a rail out of its range makes of it. -/
def txDone (n : Nat) (f : TxFrame) (v : Nat) (d : Dev) : Dev :=
  if f.bad ∨ v % 2 = 1 then emit (.frameAbort n) d
  else groupCount n 0x090 f.bytes (portInc n 0x088 (macOctets (f.bytes.length + f.msec)) (portInc n 0x080 1 d))

section
variable {n : Nat} {f : TxFrame} {d : Dev}

@[simp] theorem port_groupCount (k o : Nat) (bs : Bytes) : port k (groupCount n o bs d) = port k d := by
  unfold groupCount
  split_ifs <;> rfl

@[simp] theorem port_txDone (k v : Nat) : port k (txDone n f v d) = port k d := by
  unfold txDone
  split
  · rfl
  · exact port_groupCount ..

theorem abort_mem_txDone (h : f.bad = true) (v : Nat) : Out.frameAbort n ∈ (txDone n f v d).out := by
  rw [txDone, if_pos (.inl h)]
  exact List.mem_cons_self ..

theorem ctr_txDone (h : f.bad = false) : ctr (Pg.LPG + n / 4) (0x1000 + 0x400 * (n % 4) + 0x080) (txDone n f 0 d) =
    (ctr (Pg.LPG + n / 4) (0x1000 + 0x400 * (n % 4) + 0x080) d + 1) % 2 ^ 64 := by
  rw [txDone, if_neg (by simp [h]), ctr_groupCount_ne (by decide) (by decide), ctr_portInc_ne (by decide)]
  exact ctr_incAt_same ..

/-- What SA_SWITCH moves, and the event it may fire. -/
theorem saSwitch_moves (sc : Nat) (d : Dev) : ∃ z, SaMoves d z ∧ (saSwitch n sc d = z ∨ ∃ b, saSwitch n sc d = portFire n b z) := by
  unfold saSwitch
  dsimp only
  split
  · split
    · split
      · refine ⟨setPort n _ d, ?_, .inr ⟨16, rfl⟩⟩
        exact .of_setPort rfl
      · refine ⟨setPort n _ d, ?_, .inr ⟨20, rfl⟩⟩
        exact .of_setPort rfl
    · exact ⟨d, .refl d, .inl rfl⟩
  · exact ⟨d, .refl d, .inl rfl⟩

/-- The frame in transmission ends, and then SA commands and SC changes that waited for the boundary follow. -/
theorem frameTxEnd_sent (h : (port n d).txNow = some f) : ∃ v y z, (∀ k, port k y = port k (setPort n { port n d with txNow := none } d)) ∧
    (d.sys.rails = true → v = 0 ∧ y = setPort n { port n d with txNow := none } d) ∧ SaMoves (txDone n f v y) z ∧
    (frameTxEnd n d = z ∨ ∃ b, frameTxEnd n d = portFire n b z) := by
  let x := setPort n { port n d with txNow := none } d
  have hdraw : ∃ v y, (if x.sys.rails then (0, x) else draw x) = (v, y) ∧ (∀ k, port k y = port k x) ∧ (x.sys.rails = true → v = 0 ∧ y = x) := by
    split
    · exact ⟨0, x, rfl, fun _ => rfl, fun _ => ⟨rfl, rfl⟩⟩
    · next hoff => exact ⟨_, _, rfl, fun _ => rfl, fun hon => absurd hon hoff⟩
  obtain ⟨v, y, hvy, hport, hrails⟩ := hdraw
  have hend : frameTxEnd n d = saSwitch n f.sc (saResume n (txDone n f v y)) := by
    have heq : frameTxEnd n d = saSwitch n f.sc (saResume n (txDone n f (if x.sys.rails then (0, x) else draw x).1 (if x.sys.rails then (0, x) else draw x).2)) := by
      unfold frameTxEnd
      dsimp only
      rw [h]
      rfl
    rw [heq, hvy]
  obtain ⟨z, hmoves, hz⟩ := saSwitch_moves (n := n) f.sc (saResume n (txDone n f v y))
  refine ⟨v, y, z, hport, hrails, (saResume_moves ..).trans hmoves, ?_⟩
  rw [hend]
  exact hz

end

theorem lpgPage_ne {n : Nat} : Pg.LPG + n / 4 ≠ Pg.EVT ∧ Pg.LPG + n / 4 ≠ Pg.MGT := by
  refine ⟨?_, ?_⟩
  · show 0x10 + n / 4 ≠ 0x02
    omega
  · show 0x10 + n / 4 ≠ 0x05
    omega

/-- What a port's event shows: the ports, what has left, and the counters of the line port groups. -/
theorem shows_portFire {n b : Nat} {z : Dev} : (∀ k, port k (portFire n b z) = port k z) ∧ (∀ o ∈ z.out, o ∈ (portFire n b z).out) ∧
    ∀ o < 65536, ctr (Pg.LPG + n / 4) o (portFire n b z) = ctr (Pg.LPG + n / 4) o z := by
  refine ⟨fun k => port_fire .., fun o ho => mem_fire_out ho _ _, fun o ho => ?_⟩
  exact (fire_beside (Pg.LPG + n / 4) (b + n % 4) z).counts _ o ho lpgPage_ne.1 lpgPage_ne.2

section
variable {n : Fin 128} {s : State} {d : Dev} {f : TxFrame}

/-- The end of a frame in transmission. -/
theorem frameTxEnd_does (hline : Line n.val s d) (h : (port n.val d).txNow = some f) : Does (.frameTxEnd n) s fun e =>
    ((port n.val e).txNow = none ∧ (port n.val e).txWait = (port n.val d).txWait) ∧ (d.sys.rails = true →
      (f.bad = true → Out.frameAbort n.val ∈ e.out) ∧
      (f.bad = false → ctr (Pg.LPG + n.val / 4) (0x1000 + 0x400 * (n.val % 4) + 0x080) e =
        (ctr (Pg.LPG + n.val / 4) (0x1000 + 0x400 * (n.val % 4) + 0x080) d + 1) % 2 ^ 64)) := by
  obtain ⟨v, y, z, hport, hrails, hmoves, hend⟩ := frameTxEnd_sent h
  have hshows : (∀ k, port k (frameTxEnd n.val d) = port k z) ∧ (∀ o ∈ z.out, o ∈ (frameTxEnd n.val d).out) ∧
      ∀ o < 65536, ctr (Pg.LPG + n.val / 4) o (frameTxEnd n.val d) = ctr (Pg.LPG + n.val / 4) o z := by
    obtain hend | ⟨b, hend⟩ := hend
    · rw [hend]
      exact ⟨fun _ => rfl, fun _ ho => ho, fun _ _ => rfl⟩
    · rw [hend]
      exact shows_portFire
  obtain ⟨hports, hout, hctr⟩ := hshows
  refine line_does (f := frameTxEnd n.val) rfl hline fun e he => ⟨⟨?_, ?_⟩, fun hon => ⟨fun hbad => ?_, fun hgood => ?_⟩⟩
  · rw [he.port, hports, hmoves.txNow, port_txDone, hport, port_setPort_same]
  · rw [he.port, hports, hmoves.txWait, port_txDone, hport, port_setPort_same]
  · refine he.mem_out (hout _ ?_)
    rw [hmoves.out]
    exact abort_mem_txDone hbad v
  · obtain ⟨rfl, rfl⟩ := hrails hon
    have hlt : 0x1000 + 0x400 * (n.val % 4) + 0x080 < 65536 := by omega
    have hz (p o : Nat) : ctr p o z = ctr p o (txDone n.val f 0 (setPort n.val { port n.val d with txNow := none } d)) := by simp only [ctr, hmoves.ctrs]
    rw [he.counts _ _ hlt lpgPage_ne.1 lpgPage_ne.2, hctr _ hlt, hz, ctr_txDone hgood]
    rfl

end

/-- Settles O53: an instruction that takes the pins is `jtagTake`, which leaves no fabric link with lock and the PCIe link down; the rest
are the branches of their operations. -/
theorem pinsAndLinkStates : Obligations.PinsAndLinkStates := by
  unfold Obligations.PinsAndLinkStates
  intro jtag takes
  refine ⟨fun s => ⟨run_leaves rfl rfl, run_leaves rfl rfl, run_leaves rfl rfl, run_leaves rfl rfl⟩, ?takes, ?tamper, ?l1, ?frame, ?refresh⟩
  case takes =>
    intro s t ht
    simp only [takes, List.mem_cons, List.not_mem_nil, or_false] at ht
    obtain rfl | rfl | rfl | rfl | rfl := ht
    · exact jtagTake_does rfl
    · exact jtagTake_does rfl
    · exact jtagTake_does rfl
    · exact jtagTake_does rfl
    · exact jtagTake_does rfl
  case tamper =>
    intro s d
    have hrow : exec .tamperRelease s = run (fun d => if porHeld d then d else tamperRelease d) s := rfl
    refine ⟨fun hheld => run_leaves hrow (if_pos hheld), fun hfree => run_leaves hrow (if_neg ?_)⟩
    rw [hfree]
    exact Bool.false_ne_true
  case l1 =>
    intro s d hruns up
    refine ⟨fun hup => act_leaves rfl hruns (if_neg hup), fun hdown => act_leaves rfl hruns (if_pos (not_not.1 hdown)),
      fun hidle => act_leaves rfl hruns (l1Exit_idle hidle), fun hwait hup => ?_⟩
    refine act_does (f := l1Exit) rfl hruns fun e he => ?_
    rw [l1Exit_pme hwait hup] at he
    have hinc := inc_tallies Pg.AON 1 (emit .pmPme (onAon (fun a => { a with pmeWait := false }) (rset HIF_LINK.LP 0 0 0 d)))
    refine ⟨?_, ?_, ?_⟩
    · rw [flag, he.rget, rget_inc]
      exact congrArg (· != 0) (rget_rset_same HIF_LINK.LP 0 0 0 d)
    · rw [pmeWait_beside he]
      have haon := congrArg (fun x : Dev => x.aon.pmeWait) hinc.kept
      exact haon
    · have hout := congrArg Dev.out hinc.kept
      refine he.mem_out (Eq.mpr (congrArg (Out.pmPme ∈ ·) hout) (List.mem_cons_self ..))
  case frame =>
    intro n s d hline x c
    refine ⟨fun hnone => line_leaves (f := frameTxEnd n.val) rfl hline ?_, fun f hf => ⟨?_, fun hon hbad => ?_, fun hon hgood => ?_⟩⟩
    · unfold frameTxEnd
      dsimp only
      rw [show (port n.val d).txNow = none from hnone]
    · exact Does.imp (frameTxEnd_does hline hf) fun e he => he.1
    · exact Does.imp (frameTxEnd_does hline hf) fun e he => (he.2 hon).1 hbad
    · exact Does.imp (frameTxEnd_does hline hf) fun e he => (he.2 hon).2 hgood
  case refresh =>
    intro st k bank s d hruns b n waits
    exact ⟨fun hwaits => act_leaves rfl hruns (if_pos hwaits), fun hnow => act_leaves rfl hruns (if_neg hnow)⟩

end Sys2Proof.Machine

/-! The exact-match table (R122 to R127, R131 to R133). -/

namespace Sys2Proof.Machine

open Safety

/-- A device whose staging copy of XM_CMD holds 2^255 as its lowest word. -/
def wideKeyStaged : State :=
  { dev := { sys := { porPin := false, chipHold := false }, faces := [(Pg.XM, { Face.reset Pg.XM with ready := true })],
             staged := [(stageKey .pcie Pg.XM, { base := Reg.ofs .XM_CMD 0 0, words := [(0, 2 ^ 255)] })] }, pending := [] }

/-- Refutes O12. The statement lets a staged word be any number. A lowest word of 2^255 carries out of the image's GO bit, so that an
INSERT into the disabled table 0 does not run at all and records no BAD_ARG. -/
theorem not_exactMatchCommands : ¬ Obligations.ExactMatchCommands := by
  rintro ⟨-, hdisabled, -⟩
  obtain ⟨t, ht, -, -, -, hcode⟩ := hdisabled .pcie 0 wideKeyStaged _ _ 0 (by decide) ⟨⟨rfl, rfl⟩, by decide +kernel, rfl, rfl⟩ (by decide +kernel)
  have hrun : t = { wideKeyStaged with dev := settle wideKeyStaged.dev (cmd .pcie .XM_CMD 0 0 (go 0 30 28 0) wideKeyStaged.dev) } :=
    (Host.Outcome.next.inj ht).symm
  have hnone : (face Pg.XM t.dev).errCode = 0 := by
    rw [hrun, face_settle]; decide +kernel
  simp [hnone] at hcode

end Sys2Proof.Machine

/-! What the Headstock and the engines move beside a pass: counters, events, latches and a few fields (R81 to R113, R177, R198). -/

namespace Sys2Proof.Machine

open Safety

/-! The frame: passes, crossings, dispatcher, ports, BLK_EN, and every field but those named. -/

/-- Device e holds the passes, the crossings, the dispatcher, the ports and every BLK_EN as d does, and every field whose key is not in K. -/
structure Still (K : Nat → Prop) (d e : Dev) : Prop where
  head : e.head = d.head
  verdicts : e.cross.verdicts = d.cross.verdicts
  dones : e.cross.dones = d.cross.dones
  arrived : e.cross.arrived = d.cross.arrived
  disp : e.disp = d.disp
  srcCache : e.srcCache = d.srcCache
  ports : e.ports = d.ports
  en : ∀ p, (face p e).en = (face p d).en
  flds : ∀ k, ¬K k → find? e.flds k = find? d.flds k

namespace Still

variable {K : Nat → Prop} {a b c d e : Dev}

theorem refl (d : Dev) : Still K d d := ⟨rfl, rfl, rfl, rfl, rfl, rfl, rfl, fun _ => rfl, fun _ _ => rfl⟩

theorem trans (h : Still K a b) (k : Still K b c) : Still K a c where
  head := k.head.trans h.head
  verdicts := k.verdicts.trans h.verdicts
  dones := k.dones.trans h.dones
  arrived := k.arrived.trans h.arrived
  disp := k.disp.trans h.disp
  srcCache := k.srcCache.trans h.srcCache
  ports := k.ports.trans h.ports
  en p := (k.en p).trans (h.en p)
  flds x hx := (k.flds x hx).trans (h.flds x hx)

theorem of_ite {p : Prop} [Decidable p] (h : Still K a b) (k : Still K a c) : Still K a (if p then b else c) := by
  split <;> assumption

theorem mono {L : Nat → Prop} (h : Still K d e) (hKL : ∀ k, K k → L k) : Still L d e :=
  { h with flds := fun k hk => h.flds k fun hK => hk (hKL k hK) }

theorem foldl {β : Type} (f : Dev → β → Dev) : ∀ (l : List β) (d : Dev), (∀ d, ∀ x ∈ l, Still K d (f d x)) → Still K d (l.foldl f d)
  | [], d, _ => refl d
  | x :: l, d, hf => (hf d x (List.mem_cons_self ..)).trans (foldl f l _ fun d y hy => hf d y (List.mem_cons_of_mem _ hy))

theorem of_beside (h : Beside d e) : Still K d e :=
  ⟨h.head, by rw [h.cross], by rw [h.cross], by rw [h.cross], h.disp, h.srcCache, h.ports, fun p => by rw [h.face], fun _ _ => by rw [h.flds]⟩

theorem of_tallies (h : Tallies d e) : Still K d e := by
  have kept {α : Type} (f : Dev → α) (hf : ∀ x y z w, f { x with ctrs := y, perf := z, hwd := w } = f x) : f e = f d := by
    rw [← hf e d.ctrs d.perf d.hwd, h.kept]
  exact ⟨kept Dev.head fun _ _ _ _ => rfl, kept (·.cross.verdicts) fun _ _ _ _ => rfl, kept (·.cross.dones) fun _ _ _ _ => rfl,
    kept (·.cross.arrived) fun _ _ _ _ => rfl, kept Dev.disp fun _ _ _ _ => rfl, kept Dev.srcCache fun _ _ _ _ => rfl,
    kept Dev.ports fun _ _ _ _ => rfl, fun p => kept (fun d => (face p d).en) fun _ _ _ _ => rfl, fun k _ => kept (fun d => find? d.flds k) fun _ _ _ _ => rfl⟩

section
variable (h : Still K d e)
include h

theorem rget {f : Fld} {g i : Nat} (hk : ¬K (f.key g i)) : rget f g i e = rget f g i d := rget_congr (h.flds _ hk)
theorem flag {f : Fld} {g i : Nat} (hk : ¬K (f.key g i)) : flag f g i e = flag f g i d := congrArg (· != 0) (h.rget hk)
theorem blkEn (p : Nat) : blkEn p e = blkEn p d := h.en _
theorem getPass (n : Nat) : getPass n e = getPass n d := by simp only [Machine.getPass, h.head]
theorem cluster (c : Nat) : cluster c e = cluster c d := by simp only [Machine.cluster, h.disp]
theorem port (n : Nat) : port n e = port n d := by simp only [Machine.port, h.ports]

theorem bundleAt (c half k : Nat) : bundleAt c half k e = bundleAt c half k d := by simp only [Machine.bundleAt, h.cluster]
theorem badBundle (c half k : Nat) : badBundle c half k e = badBundle c half k d := by simp only [Machine.badBundle, h.cluster]

end

theorem of_rset {f : Fld} {g i : Nat} (hk : K (f.key g i)) (v : Nat) (d : Dev) : Still K d (rset f g i v d) :=
  { refl (K := K) d with flds := fun _ hnot => find?_put_ne _ _ _ fun heq => hnot (heq ▸ hk) }

theorem of_loadImg {r : Reg} {g i : Nat} (hk : ∀ x ∈ r.fields, K ((x.fld r).key g i)) (img : Nat) (d : Dev) : Still K d (loadImg r g i img d) :=
  foldl _ r.fields d fun d x hx => of_rset (hk x hx) _ d

theorem of_setFace {p : Nat} {x : Face} (hen : x.en = (face p d).en) : Still K d (setFace p x d) := by
  refine { refl (K := K) d with en := fun q => ?_ }
  by_cases hq : q = p
  · rw [hq, face_setFace_same, hen]
  · rw [face_setFace_ne _ _ hq]

theorem of_fire (p n : Nat) (d : Dev) : Still K d (fire p n d) :=
  (of_setFace (x := { face p d with pend := setBit (face p d).pend n }) rfl).trans (of_beside (fire_beside p n d))

theorem of_overrun (p : Nat) (d : Dev) : Still K d (overrun p d) :=
  (of_setFace (x := { face p d with overrun := min ((face p d).overrun + 1) 0xFFFF }) rfl).trans (of_beside (overrun_beside p d))

end Still

theorem incBy_tallies (p k n : Nat) (d : Dev) : Tallies d (incBy p k n d) := by
  unfold incBy
  have h : Tallies d (incAt p (0x1000 + 8 * k) n d) := ⟨rfl⟩
  exact Tallies.of_ite (h.trans (perfCount_tallies _ _ _ _ _)) h

namespace Still

variable {K : Nat → Prop}

theorem of_inc (p k : Nat) (d : Dev) : Still K d (inc p k d) := of_tallies (inc_tallies p k d)
theorem of_incBy (p k n : Nat) (d : Dev) : Still K d (incBy p k n d) := of_tallies (incBy_tallies p k n d)
theorem of_incAt (p o n : Nat) (d : Dev) : Still K d (incAt p o n d) := of_tallies ⟨rfl⟩
theorem of_onTab (u : Tables → Tables) (d : Dev) : Still K d (onTab u d) := { refl (K := K) d with }
theorem of_onSrch (u : Search → Search) (d : Dev) : Still K d (onSrch u d) := { refl (K := K) d with }
theorem of_onCnt (u : Cnt → Cnt) (d : Dev) : Still K d (onCnt u d) := { refl (K := K) d with }
theorem of_draw (d : Dev) : Still K d (draw d).2 := { refl (K := K) d with }

theorem of_drop (code : Nat) (d : Dev) : Still K d (drop code d) := by
  have h : Still K d { d with drops := put d.drops code 0 (look d.drops code 0 + 1) } := { refl (K := K) d with }
  unfold drop
  exact of_ite (refl d) (of_ite (h.trans (of_inc ..)) h)

/-! Latches and the event log. -/

theorem of_eccLog (hlog : K (HWD_PTR1.LOG_NEXT.key 0 0)) (p a : Nat) (d : Dev) : Still K d (eccLog p a d) := by
  have h : Still K d (hwdLog 5 (typeCode p) (instanceOf p) 0 a d) := by
    obtain h | ⟨v, h⟩ := hwdLog_tallies 5 (typeCode p) (instanceOf p) 0 a d
    · exact of_tallies h
    · exact (of_rset hlog v d).trans (of_tallies h)
  exact h.trans { refl (K := K) _ with }

theorem of_eccLatch {r : Reg} {g : Nat} (hlog : K (HWD_PTR1.LOG_NEXT.key 0 0)) (hk : ∀ x ∈ r.fields, K ((x.fld r).key g 0)) (n img : Nat) (d : Dev) :
    Still K d (eccLatch r g n img d) := by
  unfold eccLatch
  exact of_ite (refl d) (((of_loadImg hk _ d).trans (of_eccLog hlog ..)).trans (of_fire ..))

end Still
end Sys2Proof.Machine

/-! Fields of the PCX and of the egress context (R181). -/

namespace Sys2Proof.Machine

open Safety

theorem testBit_bits (x hi lo j : Nat) : (bits x hi lo).testBit j = (decide (j < hi + 1 - lo) && x.testBit (lo + j)) := by
  rw [bits, Nat.testBit_mod_two_pow, Nat.testBit_shiftRight]

theorem testBit_clrBits (m x j : Nat) : (clrBits m x).testBit j = (m.testBit j && !x.testBit j) := by
  rw [clrBits, Nat.testBit_xor, Nat.testBit_and]
  cases m.testBit j <;> cases x.testBit j <;> rfl

/-- A span takes the bits between its ends from the value, and keeps the others. -/
theorem Span.testBit_set (f : Span) (v x j : Nat) :
    (f.set v x).testBit j = if f.2 ≤ j ∧ j < f.2 + (f.1 + 1 - f.2) then v.testBit (j - f.2) else x.testBit j := by
  simp only [Span.set, Nat.testBit_or, testBit_clrBits, Nat.testBit_shiftLeft, Nat.testBit_two_pow_sub_one, Nat.testBit_mod_two_pow]
  split
  case isTrue h =>
    obtain ⟨hlo, hhi⟩ := h
    simp [hlo, show j - f.2 < f.1 + 1 - f.2 by omega]
  case isFalse h =>
    by_cases hlo : f.2 ≤ j
    · simp [show ¬j - f.2 < f.1 + 1 - f.2 by omega]
    · simp [hlo]

theorem Span.get_set_same (f : Span) (v x : Nat) : f.get (f.set v x) = v % 2 ^ (f.1 + 1 - f.2) := by
  refine Nat.eq_of_testBit_eq fun j => ?_
  rw [Span.get, testBit_bits, Span.testBit_set, Nat.testBit_mod_two_pow]
  by_cases hj : j < f.1 + 1 - f.2
  · rw [if_pos ⟨Nat.le_add_right .., by omega⟩, Nat.add_sub_cancel_left]
  · simp [hj]

/-- Spans that do not meet are set independently. -/
theorem Span.get_set_ne {f g : Span} (h : f.1 < g.2 ∨ g.1 < f.2) (v x : Nat) : f.get (g.set v x) = f.get x := by
  refine Nat.eq_of_testBit_eq fun j => ?_
  rw [Span.get, Span.get, testBit_bits, testBit_bits, Span.testBit_set]
  by_cases hj : j < f.1 + 1 - f.2
  · rw [if_neg (by omega)]
  · simp [hj]

end Sys2Proof.Machine

/-! The parse of a pass (R83 to R99, R107, R111). -/

namespace Sys2Proof.Machine

open Safety

/-! Fields that the front end moves beside a pass, and what reads none of them. -/

/-- The fields that a parse trace writes (R111). -/
def traceFlds : List Fld := [HDS_TRACE_CTRL.ARM, HDS_TRACE_DATA.OFS, HDS_TRACE_DATA.TYPE, HDS_TRACE_DATA.PSTART, HDS_TRACE_DATA.HASH,
  HDS_TRACE_DATA.PKT_LEN, HDS_TRACE_DATA.CLASS]

/-- Fields that the passes of the front end write beside their own state: traces, counts, queue levels and error latches. -/
def sideFlds : List Fld := traceFlds ++ [EPC_INFLIGHTA.COUNT, EPC_INFLIGHTB.COUNT, MDL_STAT.LEVEL, LRN_STAT.QUEUE, HWD_PTR1.LOG_NEXT] ++
  [Reg.LPM_ECC_ADDR, .XM_ECC_ADDR, .NHT_ECC_ADDR, .BRL_ECC_ADDR].flatMap fun r => r.fields.map (·.fld r)

/-- The key of a field of l, at index 0 of its register. -/
def KeyIn (l : List Fld) (k : Nat) : Prop := ∃ f ∈ l, f.key 0 0 = k

/-- The pages that hold the fields of `sideFlds`. -/
def sidePages : List Nat := [0x06, 0x33, 0x34, 0x38, 0x39, 0x3B, 0x3C, 0x80, 0x81]

theorem not_side_of_page {k : Nat} (h : k / 2 ^ 26 ∉ sidePages) : ¬KeyIn sideFlds k := by
  have all : ∀ f ∈ sideFlds, f.key 0 0 / 2 ^ 26 ∈ sidePages := by decide +kernel
  rintro ⟨f, hf, rfl⟩
  exact h (all f hf)

/-- What a profile says of its validity, its slots' kinds and their templates starts at bits of its image where no field of `sideFlds` starts. -/
theorem not_side_of_prof {k : Nat} (h : k % 1024 = 255 ∨ k % 32 = 29 ∨ k % 32 = 23) : ¬KeyIn sideFlds k := by
  have all : ∀ f ∈ sideFlds, f.key 0 0 % 1024 ≠ 255 ∧ f.key 0 0 % 32 ≠ 29 ∧ f.key 0 0 % 32 ≠ 23 := by decide +kernel
  rintro ⟨f, hf, rfl⟩
  obtain ⟨hvalid, hkind, htmpl⟩ := all f hf
  obtain h | h | h := h
  · exact hvalid h
  · exact hkind h
  · exact htmpl h

/-- A field whose register stays on its page at each of 256 indices. -/
def Fld.fits (f : Fld) : Bool := decide (f.reg.lay.ofs + f.reg.lay.stride * 255 < 65536) && decide (f.lo < 1024)

theorem key_page {f : Fld} (hf : f.fits = true) (g : Nat) {i : Nat} (hi : i < 256) : f.key g i / 2 ^ 26 = f.reg.lay.page + g := by
  simp only [Fld.fits, Bool.and_eq_true, decide_eq_true_eq] at hf
  obtain ⟨hofs, hlo⟩ := hf
  have hle : f.reg.lay.stride * i ≤ f.reg.lay.stride * 255 := Nat.mul_le_mul_left _ (by omega)
  simp only [Fld.key, Reg.addr]
  omega

/-- A field that fits a page which holds none of `sideFlds`. -/
def Fld.offSide (f : Fld) : Bool := f.fits && !sidePages.contains f.reg.lay.page

theorem not_side_of_offSide {f : Fld} (hf : f.offSide = true) {i : Nat} (hi : i < 256) : ¬KeyIn sideFlds (f.key 0 i) := by
  simp only [Fld.offSide, Bool.and_eq_true, Bool.not_eq_true', List.contains_eq_mem, decide_eq_false_iff_not] at hf
  exact not_side_of_page (key_page hf.1 0 hi ▸ hf.2)

namespace Still

variable {d e : Dev}

section
variable (h : Still (KeyIn sideFlds) d e)
include h

theorem kind (b k prof : Nat) : Machine.rget (HDS_PROF.KIND b k) 0 prof e = Machine.rget (HDS_PROF.KIND b k) 0 prof d :=
  h.rget (not_side_of_prof (.inr (.inl (by simp only [Fld.key, HDS_PROF.KIND]; omega))))

theorem template (b k prof : Nat) : Machine.rget (HDS_PROF.TEMPLATE b k) 0 prof e = Machine.rget (HDS_PROF.TEMPLATE b k) 0 prof d :=
  h.rget (not_side_of_prof (.inr (.inr (by simp only [Fld.key, HDS_PROF.TEMPLATE]; omega))))

theorem profValid (b prof : Nat) : Machine.flag (HDS_PROF.VALID b) 0 prof e = Machine.flag (HDS_PROF.VALID b) 0 prof d :=
  h.flag (not_side_of_prof (.inl (by simp only [Fld.key, HDS_PROF.VALID]; omega)))

theorem profEcc (b prof : Nat) : profEcc b prof e = profEcc b prof d := by
  simp only [Machine.profEcc, h.head, h.kind, h.template]

theorem rgetOff {f : Fld} (hf : f.offSide = true) {i : Nat} (hi : i < 256) : Machine.rget f 0 i e = Machine.rget f 0 i d := h.rget (not_side_of_offSide hf hi)

theorem flagOff {f : Fld} (hf : f.offSide = true) {i : Nat} (hi : i < 256) : Machine.flag f 0 i e = Machine.flag f 0 i d := h.flag (not_side_of_offSide hf hi)

theorem dpOf (port : Nat) : dpOf port e = dpOf port d :=
  List.find?_congr fun k hk => by
    have hi : k < 256 := by have := List.mem_range.1 hk; omega
    simp only [h.flagOff (f := HDS_DPk_CFG.VALID) (by decide) hi, h.rgetOff (f := HDS_DPk_CFG.PORT) (by decide) hi]

theorem parseCfg {port : Nat} (hport : port < 256) : parseCfg port e = parseCfg port d := by
  have h0 : 0 < 256 := by decide
  unfold Machine.parseCfg
  rw [h.dpOf, h.flagOff (f := HDS_CFG.TPID3_EN) (by decide) h0, h.rgetOff (f := HDS_CFG.TPID3) (by decide) h0, h.flagOff (f := HDS_CFG.MPLS_CW_ETH) (by decide) h0,
    h.rgetOff (f := HDS_UDP_PORTS.VXLAN) (by decide) h0, h.rgetOff (f := HDS_UDP_PORTS.GENEVE) (by decide) h0, h.rgetOff (f := HDS_UDP_PORTS1.GTPU) (by decide) h0,
    h.flagOff (f := HDS_PORTn_CFG.CHK_HDR) (by decide) hport, h.flagOff (f := HDS_PORTn_CFG.CHK_CSUM) (by decide) hport]
  cases hk : Machine.dpOf port d with
  | none => rfl
  | some k =>
    have hi : k < 256 := by have := List.mem_range.1 (List.mem_of_find?_eq_some hk); omega
    dsimp only
    rw [h.rgetOff (f := HDS_DPk_CFG.DEPTH) (by decide) hi, h.rgetOff (f := HDS_DPk_CFG.TAGS) (by decide) hi, h.rgetOff (f := HDS_DPk_CFG.LABELS) (by decide) hi,
      h.rgetOff (f := HDS_DPk_CFG.TUNNELS) (by decide) hi]

theorem parseDrop (p : Parse) {port : Nat} (hport : port < 256) : parseDrop p port e = parseDrop p port d := by
  unfold Machine.parseDrop
  rw [h.flagOff (f := HDS_PORTn_CFG.LIMIT_DROP) (by decide) hport, h.flagOff (f := HDS_PORTn_CFG.TRUNC_DROP) (by decide) hport]

end

end Still

/-! The parse (R83 to R111). -/

theorem slotCounts_still {K : Nat → Prop} (p : Parse) (extra : Nat) (d : Dev) : Still K d (slotCounts p extra d) := by
  unfold slotCounts
  extract_lets n d1 d2 d3
  have h1 : Still K d d1 := (Still.of_inc ..).trans (Still.of_incBy ..)
  have h2 : Still K d d2 := ((h1.trans (Still.of_incBy ..)).trans (Still.of_incBy ..)).trans (Still.of_incBy ..)
  have h3 : Still K d d3 := (h2.trans (Still.of_incBy ..)).trans (Still.of_incBy ..)
  exact Still.of_ite h3 (h3.trans (Still.of_fire ..))

theorem hdsTrace_still (slots : List (Nat × Nat)) (pstart pcx port : Nat) (d : Dev) : Still (KeyIn traceFlds) d (hdsTrace slots pstart pcx port d) := by
  have set {f : Fld} (hf : f ∈ traceFlds) (v : Nat) (d : Dev) : Still (KeyIn traceFlds) d (rset f 0 0 v d) := Still.of_rset ⟨f, hf, rfl⟩ v d
  unfold hdsTrace
  extract_lets idx ofs typ d1 d2 d3
  have h1 : Still (KeyIn traceFlds) d d1 := ((set (by simp [traceFlds]) ..).trans (set (by simp [traceFlds]) ..)).trans (set (by simp [traceFlds]) ..)
  have h2 : Still (KeyIn traceFlds) d d2 := (h1.trans (set (by simp [traceFlds]) ..)).trans (set (by simp [traceFlds]) ..)
  have h3 : Still (KeyIn traceFlds) d d3 := (h2.trans (set (by simp [traceFlds]) ..)).trans (set (by simp [traceFlds]) ..)
  exact Still.of_ite (h3.trans (Still.of_fire ..)) (Still.refl d)

end Sys2Proof.Machine

namespace Sys2Proof.Machine

open Safety

/-! The end of a pass before its verdict, and the banks' counts (R92, R219). -/

theorem unbind_still {K : Nat → Prop} (hA : K (EPC_INFLIGHTA.COUNT.key 0 0)) (hB : K (EPC_INFLIGHTB.COUNT.key 0 0)) (b : Nat) (d : Dev) : Still K d (unbind b d) := by
  unfold unbind setInflight
  exact Still.of_ite (Still.of_rset hA ..) (Still.of_rset hB ..)

theorem bindBank_still {K : Nat → Prop} (hA : K (EPC_INFLIGHTA.COUNT.key 0 0)) (hB : K (EPC_INFLIGHTB.COUNT.key 0 0)) (d : Dev) : Still K d (bindBank d) := by
  unfold bindBank setInflight
  exact Still.of_ite (Still.of_rset hA ..) (Still.of_rset hB ..)

/-- A device with other passes, and the rest of the Headstock's state, the source caches and the egress arrivals as they are. -/
structure PassesOnly (d e : Dev) : Prop where
  head : { e.head with passes := d.head.passes } = d.head
  srcCache : e.srcCache = d.srcCache
  arrived : e.cross.arrived = d.cross.arrived

theorem PassesOnly.trans {a b c : Dev} (h : PassesOnly a b) (k : PassesOnly b c) : PassesOnly a c :=
  ⟨(congrArg (fun x : Head => { x with passes := a.head.passes }) k.head).trans h.head, k.srcCache.trans h.srcCache, k.arrived.trans h.arrived⟩

theorem Still.passesOnly {K : Nat → Prop} {d e : Dev} (h : Still K d e) : PassesOnly d e := ⟨by rw [h.head], h.srcCache, h.arrived⟩

theorem passDrop_passesOnly (n : Nat) (p : Pass) (code : Nat) (d : Dev) : PassesOnly d (passDrop n p code d) :=
  ((Still.of_drop code d).trans (unbind_still (K := fun _ => True) trivial trivial p.bank _)).passesOnly.trans ⟨rfl, rfl, rfl⟩

/-! The parse of a pass is judged by what it read (R92, R107). -/

theorem parsePass_cases (n : Nat) (x : Pass) (st : Nat) (first : Bool) (d : Dev) :
    let p := parsePacket (parseCfg (passPort x first) d) x.bytes st
    let bank := PX.BANK.get x.pcx
    ∃ y t e, (y.stage = .parsed ∧ y.bytes = x.bytes ∧ y.prof = x.prof ∧ y.egress = x.egress ∧ y.pstart = p.pstart) ∧
      Still (KeyIn traceFlds) d t ∧ Still (KeyIn traceFlds) d e ∧
      parsePass n x st first d = if profEcc bank x.prof e then passDrop n y 0x16 (fire Pg.HDS 2 e)
        else if !flag (HDS_PROF.VALID bank) 0 x.prof e then passDrop n y 0x16 e
        else if parseDrop p (passPort x first) t ≠ 0 then passDrop n y (parseDrop p (passPort x first) t) e else setPass n y e := by
  intro p bank
  unfold parsePass
  extract_lets port c deep q slots d1 pcx0 inner pcx win keys d2 code y d3 h y' cross d4
  have h1 : Still (KeyIn traceFlds) d d1 := slotCounts_still ..
  have h2 : Still (KeyIn traceFlds) d d2 := h1.trans (Still.of_ite (hdsTrace_still ..) (Still.refl _))
  have h4 : Still (KeyIn traceFlds) d d4 := h2.trans (Still.of_ite { Still.refl _ with } { Still.refl _ with })
  have hy : y'.stage = .parsed ∧ y'.bytes = x.bytes ∧ y'.prof = x.prof ∧ y'.egress = x.egress ∧ y'.pstart = p.pstart := by
    cases first <;> exact ⟨rfl, rfl, rfl, rfl, rfl⟩
  exact ⟨y', d2, d4, hy, h2, h4, rfl⟩

theorem parsePass_passesOnly (n : Nat) (x : Pass) (st : Nat) (first : Bool) (d : Dev) : PassesOnly d (parsePass n x st first d) := by
  obtain ⟨y, t, e, -, -, he, hrun⟩ := parsePass_cases n x st first d
  rw [hrun]
  refine he.passesOnly.trans ?_
  split_ifs
  · exact (Still.of_fire (K := fun _ => True) Pg.HDS 2 e).passesOnly.trans (passDrop_passesOnly ..)
  · exact passDrop_passesOnly ..
  · exact passDrop_passesOnly ..
  · exact ⟨rfl, rfl, rfl⟩

theorem traceFlds_side : ∀ k, KeyIn traceFlds k → KeyIn sideFlds k := by
  rintro k ⟨f, hf, rfl⟩
  exact ⟨f, by simp [sideFlds, hf], rfl⟩

theorem passPort_lt (x : Pass) (first : Bool) : passPort x first < 256 := by
  unfold passPort
  split
  · exact Nat.mod_lt _ (by decide)
  · decide

/-- A pass with a usable profile and no fault found is kept, parsed. -/
theorem parsePass_keeps {n : Nat} {x : Pass} {st : Nat} {first : Bool} {d : Dev}
    (hecc : profEcc (PX.BANK.get x.pcx) x.prof d = false) (hvalid : flag (HDS_PROF.VALID (PX.BANK.get x.pcx)) 0 x.prof d = true)
    (hdrop : parseDrop (parsePacket (parseCfg (passPort x first) d) x.bytes st) (passPort x first) d = 0) :
    ∃ y e, (y.stage = .parsed ∧ y.bytes = x.bytes ∧ y.prof = x.prof ∧ y.egress = x.egress ∧
      y.pstart = (parsePacket (parseCfg (passPort x first) d) x.bytes st).pstart) ∧
      Still (KeyIn traceFlds) d e ∧ parsePass n x st first d = setPass n y e := by
  obtain ⟨y, t, e, hy, ht, he, hrun⟩ := parsePass_cases n x st first d
  have hside := he.mono traceFlds_side
  refine ⟨y, e, hy, he, ?_⟩
  rw [hrun, hside.profEcc, hecc, hside.profValid, hvalid, (ht.mono traceFlds_side).parseDrop _ (passPort_lt x first), hdrop]
  rfl

end Sys2Proof.Machine

namespace Sys2Proof.Machine

open Safety

/-! PARSE_START (R83, R93, R217, R248). -/

theorem inflight_bindBank (d : Dev) : inflight (curBank d) (bindBank d) = (inflight (curBank d) d + 1) % 2 ^ 24 := by
  unfold bindBank setInflight inflight
  by_cases hb : curBank d = 0
  · simp only [hb, if_true]; exact rget_rset_same ..
  · simp only [hb, if_false]; exact rget_rset_same ..

theorem Still.inflight {d e : Dev} (h : Still (KeyIn traceFlds) d e) (b : Nat) : inflight b e = inflight b d := by
  have hA : ¬KeyIn traceFlds (EPC_INFLIGHTA.COUNT.key 0 0) := by unfold KeyIn; decide +kernel
  have hB : ¬KeyIn traceFlds (EPC_INFLIGHTB.COUNT.key 0 0) := by unfold KeyIn; decide +kernel
  simp only [Machine.inflight, h.rget hA, h.rget hB]

theorem sideKey {f : Fld} (hf : f ∈ sideFlds) : KeyIn sideFlds (f.key 0 0) := ⟨f, hf, rfl⟩

theorem bindBank_side (d : Dev) : Still (KeyIn sideFlds) d (bindBank d) :=
  bindBank_still (sideKey (by decide)) (sideKey (by decide)) d

section
variable {k : Nat} {d : Dev} {f : InFrame} {rest : List InFrame} {h : Nat} {hs : List Nat}

/-- The device once FIFO k and the source's cache have given up the frame and its first cell. -/
def frameTaken (k : Nat) (f : InFrame) (rest : List InFrame) (hs : List Nat) (used : Tbl Nat) (d : Dev) : Dev :=
  { d with head := { d.head with fifos := put d.head.fifos k [] rest, slotUsed := used }, srcCache := put d.srcCache (srcOf f.port) [] hs }

/-- The first pass of frame f, with the PCX that it starts with. -/
def firstPass (f : InFrame) (pcx src : Nat) (d : Dev) : Pass :=
  { bytes := f.bytes, pcx := pcx, prof := rget HDS_PORTn_CFG.PROFILE 0 f.port d, src := src }

theorem parseStart_takes (hen : blkEn Pg.HDS d = true) (hopen : ingressOpen d = true) (hslot : slotMay k d = true) (hfifo : fifo k d = f :: rest)
    (hport : f.port < 256) (hbank : curBank d < 2) (hsrc : look d.srcCache (srcOf f.port) [] = h :: hs) :
    ∃ used pcx src, PX.ING_PORT.get pcx = f.port ∧ PX.BANK.get pcx = curBank d ∧
      parseStart k d = parsePass d.head.nextPass (firstPass f pcx src d) (rget HDS_PORTn_CFG.START_TYPE 0 f.port d) true
        (newPass (firstPass f pcx src d) (bindBank (frameTaken k f rest hs used d))) := by
  unfold parseStart
  have hcache (n : Nat) : (slotTake k n (setFifo k rest d)).srcCache = d.srcCache := rfl
  simp only [hen, hopen, hslot, hfifo, hcache, hsrc, Bool.not_true, Bool.or_self, Bool.false_eq_true, if_false]
  refine ⟨_, _, _, ?port, ?bank, rfl⟩
  case port =>
    rw [Span.get_set_ne (by decide), Span.get_set_ne (by decide), Span.get_set_same]
    exact Nat.mod_eq_of_lt hport
  case bank =>
    rw [Span.get_set_ne (by decide), Span.get_set_same]
    exact Nat.mod_eq_of_lt hbank

end

/-- The first parse of a new pass keeps it, where its profile can be used and the parse finds no fault. -/
theorem firstParse_keeps {n st : Nat} {x : Pass} {d : Dev} (hecc : profEcc (PX.BANK.get x.pcx) x.prof d = false)
    (hvalid : flag (HDS_PROF.VALID (PX.BANK.get x.pcx)) 0 x.prof d = true)
    (hdrop : parseDrop (parsePacket (parseCfg (passPort x true) d) x.bytes st) (passPort x true) d = 0) :
    ∃ y e, (y.stage = .parsed ∧ y.bytes = x.bytes ∧ y.prof = x.prof ∧ y.egress = x.egress ∧
      y.pstart = (parsePacket (parseCfg (passPort x true) d) x.bytes st).pstart) ∧
      Still (KeyIn traceFlds) (newPass x (bindBank d)) e ∧ parsePass n x st true (newPass x (bindBank d)) = setPass n y e := by
  have hbind : Still (KeyIn sideFlds) d (bindBank d) := bindBank_side d
  have hcfg : parseCfg (passPort x true) (newPass x (bindBank d)) = parseCfg (passPort x true) d := hbind.parseCfg (passPort_lt ..)
  have hecc' : profEcc (PX.BANK.get x.pcx) x.prof (newPass x (bindBank d)) = false := (hbind.profEcc ..).trans hecc
  have hvalid' : flag (HDS_PROF.VALID (PX.BANK.get x.pcx)) 0 x.prof (newPass x (bindBank d)) = true := (hbind.profValid ..).trans hvalid
  rw [← hcfg] at hdrop ⊢
  exact parsePass_keeps hecc' hvalid' ((hbind.parseDrop _ (passPort_lt ..)).trans hdrop)

theorem parseStart_does {k : Fin 34} {s : State} {d : Dev} {f : InFrame} {rest : List InFrame} {h : Nat} {hs : List Nat} (hruns : Runs 32 s d)
    (hen : blkEn Pg.HDS d = true) (hopen : ingressOpen d = true) (hslot : slotMay k.val d = true) (hfifo : fifo k.val d = f :: rest)
    (hport : f.port < 256) (hbank : curBank d < 2) (hsrc : look d.srcCache (srcOf f.port) [] = h :: hs) :
    Does (.parseStart k) s fun e =>
      fifo k.val e = rest ∧ look e.srcCache (srcOf f.port) [] = hs ∧ e.head.nextPass = d.head.nextPass + 1 ∧
      (let prof := rget HDS_PORTn_CFG.PROFILE 0 f.port d
       let p := parsePacket (parseCfg f.port d) f.bytes (rget HDS_PORTn_CFG.START_TYPE 0 f.port d)
       profEcc (curBank d) prof d = false → flag (HDS_PROF.VALID (curBank d)) 0 prof d = true → parseDrop p f.port d = 0 →
        ∃ x, getPass d.head.nextPass e = some x ∧ x.stage = .parsed ∧ x.bytes = f.bytes ∧ x.prof = prof ∧ x.egress = false ∧
          x.pstart = p.pstart ∧ inflight (curBank d) e = (inflight (curBank d) d + 1) % 2 ^ 24) := by
  obtain ⟨used, pcx, src, hing, hbnk, hrun⟩ := parseStart_takes hen hopen hslot hfifo hport hbank hsrc
  refine act_does (f := parseStart k.val) rfl hruns fun e he => ?_
  rw [hrun] at he
  let x := firstPass f pcx src d
  let d1 := frameTaken k.val f rest hs used d
  have hbind : Still (KeyIn sideFlds) d1 (bindBank d1) := bindBank_side d1
  obtain ⟨hhead, hcache, -⟩ := parsePass_passesOnly d.head.nextPass x (rget HDS_PORTn_CFG.START_TYPE 0 f.port d) true (newPass x (bindBank d1))
  rw [← he.head] at hhead
  rw [← he.srcCache] at hcache
  have hfifos : e.head.fifos = put d.head.fifos k.val [] rest := (congrArg Head.fifos hhead).trans (congrArg Head.fifos hbind.head)
  have hnext : e.head.nextPass = d.head.nextPass + 1 := by
    have hbound : (newPass x (bindBank d1)).head.nextPass = d1.head.nextPass + 1 := congrArg (fun z : Head => z.nextPass + 1) hbind.head
    exact (congrArg Head.nextPass hhead).trans hbound
  refine ⟨by rw [fifo, hfifos, look_put_same], ?_, hnext, fun hecc hvalid hdrop => ?_⟩
  · exact (congrArg (fun t => look t (srcOf f.port) []) (hcache.trans hbind.srcCache)).trans (look_put_same ..)
  · have hp : passPort x true = f.port := hing
    have hb : PX.BANK.get x.pcx = curBank d := hbnk
    obtain ⟨y, e2, ⟨hstage, hbytes, hprof, hegr, hpstart⟩, hkept, hset⟩ := firstParse_keeps (n := d.head.nextPass)
      (st := rget HDS_PORTn_CFG.START_TYPE 0 f.port d) (x := x) (d := d1) (by rw [hb]; exact hecc) (by rw [hb]; exact hvalid) (by rw [hp]; exact hdrop)
    rw [hset] at he
    have hcount : inflight (curBank d) e = inflight (curBank d) e2 := by simp only [inflight, he.rget]; rfl
    refine ⟨y, ?_, hstage, hbytes, hprof, hegr, ?_, ?_⟩
    · rw [getPass, he.head]; exact find?_ins_same ..
    · rw [hpstart, hp]; rfl
    · rw [hcount, hkept.inflight]
      exact inflight_bindBank d1

end Sys2Proof.Machine

namespace Sys2Proof.Machine

open Safety

/-! MANDREL_REENTER (R83, R231, R232). -/

/-- The Headstock once the oldest Mandrel pass has left the queue and taken its slot: a borrowed slot does not count in the share. -/
def mandrelTaken (bor : Bool) (rest : List Nat) (d : Dev) : Dev :=
  let m := mdlShare d
  { d with head := { d.head with mandrel := rest, mdl := if bor then m else { m with used := m.used + 1 } } }

theorem mandrelReenter_parses {bor : Bool} {d : Dev} {n : Nat} {rest : List Nat} {p : Pass} (hmay : mandrelMay bor d = true) (hen : blkEn Pg.HDS d = true)
    (hq : d.head.mandrel = n :: rest) (hp : getPass n d = some p) :
    ∃ x, Still (KeyIn sideFlds) (mandrelTaken bor rest d) x ∧
      mandrelReenter bor d = parsePass n { p with prof := PX.RECIRC_PROF.get p.pcx } ((PX.HDR_TYPE 0).get p.pcx) false x := by
  let x0 := rset MDL_STAT.LEVEL 0 0 rest.length (mandrelTaken bor rest d)
  have hx0 : Still (KeyIn sideFlds) (mandrelTaken bor rest d) x0 := Still.of_rset (sideKey (by decide)) ..
  let x := if bor then inc Pg.MDL 7 x0 else x0
  have hx : Still (KeyIn sideFlds) (mandrelTaken bor rest d) x := hx0.trans (Still.of_ite (Still.of_inc ..) (Still.refl _))
  have hpass : getPass n x = some p := (hx.getPass n).trans hp
  refine ⟨x, hx, ?_⟩
  simp only [mandrelReenter, hmay, hen, hq, Bool.not_true, Bool.or_self, Bool.false_eq_true, if_false]
  change (match getPass n x with | some p => _ | none => _) = _
  rw [hpass]
  rfl

theorem mandrelReenter_does {bor : Bool} {s : State} {d : Dev} {n : Nat} {rest : List Nat} {p : Pass} (hruns : Runs 32 s d)
    (hmay : mandrelMay bor d = true) (hen : blkEn Pg.HDS d = true) (hq : d.head.mandrel = n :: rest) (hp : getPass n d = some p) :
    Does (.mandrelReenter bor) s fun e => e.head.mandrel = rest ∧
      (bor = false → e.head.mdl.used = (mdlShare d).used + 1) ∧
      (let bank := PX.BANK.get p.pcx
       let prof := PX.RECIRC_PROF.get p.pcx
       let x := parsePacket (parseCfg 248 d) p.bytes ((PX.HDR_TYPE 0).get p.pcx)
       profEcc bank prof d = false → flag (HDS_PROF.VALID bank) 0 prof d = true → parseDrop x 248 d = 0 →
        ∃ y, getPass n e = some y ∧ y.stage = .parsed ∧ y.prof = prof ∧ y.bytes = p.bytes ∧ y.pstart = x.pstart) := by
  obtain ⟨d2, hkept, hrun⟩ := mandrelReenter_parses hmay hen hq hp
  refine act_does (f := mandrelReenter bor) rfl hruns fun e he => ?_
  rw [hrun] at he
  obtain ⟨hhead, -⟩ := parsePass_passesOnly n { p with prof := PX.RECIRC_PROF.get p.pcx } ((PX.HDR_TYPE 0).get p.pcx) false d2
  rw [← he.head, hkept.head] at hhead
  refine ⟨congrArg Head.mandrel hhead, fun hbor => ?_, fun hecc hvalid hdrop => ?_⟩
  · subst hbor
    exact congrArg (fun x : Head => x.mdl.used) hhead
  · have hcfg : parseCfg 248 d2 = parseCfg 248 d := hkept.parseCfg (by decide)
    obtain ⟨y, e2, ⟨hstage, hbytes, hprof, -, hpstart⟩, -, hset⟩ := parsePass_keeps (n := n) (x := { p with prof := PX.RECIRC_PROF.get p.pcx })
      (st := (PX.HDR_TYPE 0).get p.pcx) (first := false) (d := d2) ((hkept.profEcc ..).trans hecc) ((hkept.profValid ..).trans hvalid)
      (by rw [show passPort _ false = 248 from rfl, hcfg]; exact (hkept.parseDrop _ (by decide)).trans hdrop)
    rw [hset] at he
    refine ⟨y, ?_, hstage, hprof, hbytes, ?_⟩
    · rw [getPass, he.head]; exact find?_ins_same ..
    · rw [hpstart, show passPort _ false = 248 from rfl, hcfg]

end Sys2Proof.Machine

namespace Sys2Proof.Machine

open Safety

/-! Descriptors, counters and frames that a verdict sends on (R250, R251, R253, R257, R466). -/

theorem chkEcc_still (kind g : Nat) (d : Dev) : Still (fun _ => True) d (chkEcc kind g d) := by
  have h : Still (fun _ => True) d (fire Pg.CHK 3 (inc Pg.CHK 9 d)) := (Still.of_inc ..).trans (Still.of_fire ..)
  unfold chkEcc
  exact Still.of_ite h ((h.trans (Still.of_loadImg (fun _ _ => trivial) ..)).trans (Still.of_eccLog trivial ..))

theorem badLogPush_still (kind : Nat) (p : FreeParty) (owner tag h : Nat) (d : Dev) : Still (fun _ => True) d (badLogPush kind p owner tag h d) := by
  unfold badLogPush
  exact Still.of_ite ((Still.of_inc ..).trans (Still.of_fire ..)) { Still.refl d with }

theorem badFree_still (kind : Nat) (p : FreeParty) (owner tag h : Nat) (d : Dev) : Still (fun _ => True) d (badFree kind p owner tag h d) :=
  ((Still.of_fire ..).trans (Still.of_inc ..)).trans (badLogPush_still ..)

theorem metaCheck_still (p : FreeParty) (h tag : Nat) (d : Dev) : Still (fun _ => True) d (metaCheck p h tag d).2 := by
  unfold metaCheck
  split
  · exact Still.refl d
  · exact (Still.of_inc ..).trans { Still.refl _ with }
  · exact ((Still.of_draw d).trans (chkEcc_still ..)).trans (badLogPush_still ..)

theorem setCell_still (h : Nat) (m : CellMeta) (d : Dev) : Still (fun _ => True) d (setCell h m d) := { Still.refl d with }

theorem addRef_still (h tag : Nat) (d : Dev) : Still (fun _ => True) d (addRef h tag d).2 := by
  have hm := metaCheck_still .verdictPath h tag d
  unfold addRef
  generalize metaCheck .verdictPath h tag d = r at hm ⊢
  obtain ⟨bad, e⟩ := r
  dsimp only at hm ⊢
  split_ifs <;> dsimp only
  · exact hm.trans (Still.of_drop ..)
  · exact (hm.trans (Still.of_drop ..)).trans (badFree_still ..)
  · exact (hm.trans (Still.of_drop ..)).trans (badFree_still ..)
  · exact hm.trans (Still.of_drop ..)
  · exact (hm.trans (setCell_still ..)).trans (Still.of_inc ..)

theorem copyTo_still (x : Desc) (dest : Dest) (d : Dev) : Still (fun _ => True) d (copyTo x dest d) := by
  have h := addRef_still x.head x.tag d
  unfold copyTo
  exact Still.of_ite (h.trans { Still.refl _ with }) h

theorem copies_still (x : Desc) (host mir : Option Nat) (d : Dev) : Still (fun _ => True) d (copies x host mir d) := by
  have mirror (k : Nat) (d : Dev) : Still (fun _ => True) d (mirrorTo x k d) := by
    unfold mirrorTo
    exact Still.of_ite (copyTo_still ..) (Still.of_inc ..)
  obtain _ | hq := host <;> obtain _ | k := mir
  · exact Still.refl d
  · exact mirror k d
  · exact copyTo_still x (.host hq) d
  · exact (copyTo_still x (.host hq) d).trans (mirror k _)

theorem cntRead_still (w : Nat) (seen : EccSeen) (d : Dev) : Still (fun _ => True) d (cntRead w seen d).2 := by
  have bad (d : Dev) : Still (fun _ => True) d (cntBad w d) := by
    have h : Still (fun _ => True) d (fire Pg.CNT 1 (inc Pg.CNT 6 d)) := (Still.of_inc ..).trans (Still.of_fire ..)
    unfold cntBad
    exact Still.of_ite h ((h.trans (Still.of_loadImg (fun _ _ => trivial) ..)).trans (Still.of_eccLog trivial ..))
  have read (d : Dev) : Still (fun _ => True) d (if d.cnt.bad.contains w then (0, cntBad w d) else (cntWord w d, d)).2 := by
    split
    · exact bad d
    · exact Still.refl d
  cases seen
  · exact read d
  · exact (Still.of_inc ..).trans (read _)
  · exact (Still.of_onCnt ..).trans (read _)

theorem setCntWord_still (w v : Nat) (d : Dev) : Still (fun _ => True) d (setCntWord w v d) := Still.of_onCnt ..

theorem snapCopy_still (i : Nat) (d : Dev) : Still (fun _ => True) d (snapCopy i d) := by
  have read := (cntRead_still (2 * i) .clean d).trans (cntRead_still (2 * i + 1) .clean _)
  have pair : Still (fun _ => True) d (copyPair i d) := (read.trans (setCntWord_still ..)).trans (setCntWord_still ..)
  unfold snapCopy
  exact Still.of_ite (pair.trans (Still.of_onCnt ..)) (Still.refl d)

theorem cntUpdate_still (i : Nat) (len : Int) (d : Dev) : Still (fun _ => True) d (cntUpdate i len d) := by
  have counted := ((snapCopy_still i d).trans (cntRead_still (2 * i) .clean _)).trans (cntRead_still (2 * i + 1) .clean _)
  unfold cntUpdate
  exact Still.of_ite (Still.refl d) (Still.of_ite ((Still.of_inc ..).trans (Still.of_fire ..))
    (((counted.trans (setCntWord_still ..)).trans (setCntWord_still ..)).trans (Still.of_inc ..)))

theorem cntOpt_still (i : Option Nat) (len : Int) (d : Dev) : Still (fun _ => True) d (cntOpt i len d) := by
  cases i
  · exact Still.refl d
  · exact cntUpdate_still ..

/-- A frame handed to the MAC is reported done; a discard at a port that is down counts drops. -/
theorem handFrame_reports (n : Nat) (f : TxFrame) (d : Dev) :
    (handFrame n f d).head = d.head ∧ (handFrame n f d).disp = d.disp ∧ (handFrame n f d).cross.dones = d.cross.dones ++ [(n, 1)] ∧
      (handFrame n f d).cross.arrived = d.cross.arrived := by
  have discard (e : Dev) : ∃ x, Still (fun _ => True) (setPort n x e) (downDiscard n e) ∨ downDiscard n e = e := by
    unfold downDiscard
    split_ifs
    · exact ⟨_, .inl (Still.foldl _ _ _ fun d x _ => Still.of_drop ..)⟩
    · exact ⟨{}, .inr rfl⟩
  unfold handFrame
  extract_lets f' d1 x
  obtain ⟨y, h | h⟩ := discard (setPort n { x with txWait := x.txWait ++ [f'] } d1)
  · exact ⟨h.head, h.disp, h.dones, h.arrived⟩
  · rw [h]; exact ⟨rfl, rfl, rfl, rfl⟩

/-! VERDICT_RELEASE (R178, R198, R199, R231). -/

section
variable {n : Nat} {p : Pass} {d : Dev}

theorem egressFinish_reports : ∃ x, Still (fun _ => True) (delPass n d) (egressCopies p (delPass n d)) ∧ Still (fun _ => True) (egressCopies p (delPass n d)) x ∧
    ∃ f, egressFinish n p d = handFrame p.egPort f x := by
  refine ⟨_, copies_still .., ?_, _, rfl⟩
  have hcnt (len : Int) := ((unbind_still (K := fun _ => True) trivial trivial p.bank (egressCopies p (delPass n d))).trans
    (cntOpt_still p.acts.cnt0 len _)).trans (cntOpt_still p.acts.cnt1 len _)
  exact Still.of_ite (((hcnt _).trans (Still.of_inc ..)).trans (Still.of_inc ..)) (hcnt _)

theorem egressFinish_ends : (egressFinish n p d).head = (delPass n d).head ∧ (egressFinish n p d).disp = d.disp ∧
    (egressFinish n p d).cross.dones = d.cross.dones ++ [(p.egPort, 1)] := by
  obtain ⟨x, hcopies, hx, f, hrun⟩ := egressFinish_reports (n := n) (p := p) (d := d)
  obtain ⟨hhead, hdisp, hdones, -⟩ := handFrame_reports p.egPort f x
  have h := hcopies.trans hx
  rw [hrun]
  exact ⟨hhead.trans h.head, hdisp.trans h.disp, hdones.trans (by rw [h.dones]; rfl)⟩

theorem mandrelEnter_disp : (mandrelEnter n p d).disp = d.disp := by
  have dropped (q : Pass) (code : Nat) (e : Dev) (he : e.disp = d.disp) : (passDrop n q code e).disp = d.disp :=
    (((Still.of_drop (K := fun _ => True) code e).trans (unbind_still trivial trivial q.bank _)).disp).trans he
  have hinc (k : Nat) (e : Dev) : (inc Pg.MDL k e).disp = e.disp := (Still.of_inc (K := fun _ => True) ..).disp
  unfold mandrelEnter
  extract_lets packet k q q' l d1
  split_ifs
  · exact dropped _ _ _ (hinc ..)
  · exact dropped _ _ _ (((Still.of_fire (K := fun _ => True) ..).disp).trans (hinc ..))
  · show (inc Pg.MDL 0 _).disp = _
    rw [hinc, hinc]
    split <;> [exact hinc ..; rfl]

theorem mandrelEnter_waits (hen : blkEn Pg.MDL d = true) (hroom : d.head.mandrel.length < 4096) :
    (mandrelEnter n p d).head.mandrel = d.head.mandrel ++ [n] ∧
      ∃ x, getPass n (mandrelEnter n p d) = some x ∧ x.stage = .mandrel ∧ x.bytes = p.rebuilt ∧ x.verdict = none := by
  unfold mandrelEnter
  rw [hen, if_neg (by decide), if_neg (by omega)]
  exact ⟨rfl, _, find?_ins_same .., rfl, rfl, rfl⟩

theorem verdictEffect_disp : (verdictEffect n p d).disp = d.disp := by
  unfold verdictEffect
  split
  · rfl
  · split
    · exact mandrelEnter_disp
    · split
      · rfl
      · exact egressFinish_ends.2.1
    · split
      · exact (copies_still ..).disp
      · rfl
    · rfl
    · rfl

theorem egressCopies_none (hhost : PX.COPY_HOST.get p.pcx = 0) (hmir : PX.MIRROR_EN.get p.pcx = 0) : egressCopies p d = d := by
  simp [egressCopies, hhost, hmir, copies]

end

/-- The device once the released pass n has left reorder queue q and the count of held packets. -/
def verdictTaken (q n : Nat) (d : Dev) : Dev :=
  let e := { d with disp := { d.disp with queues := put d.disp.queues q [] ((look d.disp.queues q []).erase n) } }
  setHeld (q / 4096) (heldCount (q / 4096) e - 1) e

theorem verdictTaken_keeps (q n : Nat) (d : Dev) : (verdictTaken q n d).head = d.head ∧ (verdictTaken q n d).cross = d.cross ∧
    (verdictTaken q n d).disp.queues = put d.disp.queues q [] ((look d.disp.queues q []).erase n) ∧
    (verdictTaken q n d).faces = d.faces := by
  unfold verdictTaken setHeld
  split <;> exact ⟨rfl, rfl, rfl, rfl⟩

theorem verdictRelease_releasable {q n : Nat} {p : Pass} {d : Dev} (h : releasable q d = some (n, p)) :
    verdictRelease q d = verdictEffect n p (verdictTaken q n d) := by
  rw [verdictRelease, h]; rfl

theorem verdictRelease_does {q : Nat} {c : Instr} {s : State} {d : Dev} {n : Nat} {p : Pass} {v : Verdict} {isl : Nat}
    (hc : exec c s = run (act isl (verdictRelease q)) s) (hruns : Runs isl s d)
    (hrel : releasable q d = some (n, p)) (hv : p.verdict = some v) :
    Does c s fun e => look e.disp.queues q [] = (look d.disp.queues q []).erase n ∧
      (p.egress = false → (∀ c, v = .drop c → getPass n e = none ∧ e.cross.verdicts = d.cross.verdicts ++ [{ p.verd 1 p.rebuilt with code := c }]) ∧
        (∀ k nh, v = .fwd k nh → getPass n e = none ∧ e.cross.verdicts = d.cross.verdicts ++
          [{ p.verd 0 p.rebuilt with qid := k, nh := nh, cnt0 := p.acts.cnt0, cnt1 := p.acts.cnt1, meter := p.acts.mtr }]) ∧
        (∀ h, v = .punt h → getPass n e = none ∧ e.cross.verdicts = d.cross.verdicts ++
          [{ p.verd 2 p.rebuilt with hostq := h, cnt0 := p.acts.cnt0, cnt1 := p.acts.cnt1, meter := p.acts.mtr }])) ∧
      (∀ f, v = .recirc f → blkEn Pg.MDL d = true → d.head.mandrel.length < 4096 → e.head.mandrel = d.head.mandrel ++ [n] ∧
        ∃ x, getPass n e = some x ∧ x.stage = .mandrel ∧ x.bytes = p.rebuilt ∧ x.verdict = none) ∧
      (p.egress = true → ∀ c, v = .drop c → PX.COPY_HOST.get p.pcx = 0 → PX.MIRROR_EN.get p.pcx = 0 →
        getPass n e = none ∧ e.cross.dones = d.cross.dones ++ [(p.egPort, 1)]) ∧
      (∀ a, v = .send a → p.acts.etc.isSome = true → getPass n e = some { p with stage := .egressTcam }) ∧
      (∀ a, v = .send a → p.acts.etc = none → PX.COPY_HOST.get p.pcx = 0 → PX.MIRROR_EN.get p.pcx = 0 →
        getPass n e = none ∧ e.cross.dones = d.cross.dones ++ [(p.egPort, 1)]) := by
  obtain ⟨hhead, hcross, hqueues, hfaces⟩ := verdictTaken_keeps q n d
  refine act_does hc hruns fun e he => ?_
  rw [verdictRelease_releasable hrel] at he
  rw [← hcross]
  generalize verdictTaken q n d = t at *
  refine ⟨?_, fun hegr => ⟨?_, ?_, ?_⟩, ?_, ?_, ?_, ?_⟩
  · rw [he.disp, verdictEffect_disp, hqueues, look_put_same]
  · rintro c rfl
    simp only [verdictEffect, hv, hegr] at he
    exact ⟨by rw [getPass, he.head]; exact find?_del_same .., by rw [he.cross]; rfl⟩
  · rintro k nh rfl
    simp only [verdictEffect, hv] at he
    exact ⟨by rw [getPass, he.head]; exact find?_del_same .., by rw [he.cross]; rfl⟩
  · rintro h rfl
    simp only [verdictEffect, hv] at he
    exact ⟨by rw [getPass, he.head]; exact find?_del_same .., by rw [he.cross]; rfl⟩
  · rintro f rfl hen hroom
    simp only [verdictEffect, hv] at he
    have hen' : blkEn Pg.MDL t = true := by rw [← hen, blkEn, blkEn, face, face, hfaces]
    rw [getPass, he.head, ← hhead]
    exact mandrelEnter_waits hen' (hhead ▸ hroom)
  · rintro hegr c rfl hhost hmir
    simp only [verdictEffect, hv, hegr, egressCopies_none hhost hmir] at he
    exact ⟨by rw [getPass, he.head]; exact find?_del_same .., by rw [he.cross]; rfl⟩
  · rintro a rfl hetc
    simp only [verdictEffect, hv, hetc, if_true] at he
    rw [getPass, he.head, ← hv]; exact find?_ins_same ..
  · rintro a rfl hetc hhost hmir
    simp only [verdictEffect, hv, hetc] at he
    obtain ⟨hend, -, hdone⟩ := egressFinish_ends (n := n) (p := p) (d := t)
    exact ⟨by rw [getPass, he.head]; exact (congrArg (fun x : Head => find? x.passes n) hend).trans (find?_del_same ..), by rw [he.cross]; exact hdone⟩

end Sys2Proof.Machine

namespace Sys2Proof.Machine

open Safety

/-! Dispatch (R177, R178, R180, R182, R205). -/

/-! What a side field leaves of the dispatcher's choice. -/

theorem filter_ins_of_not {f : Nat × Pass → Bool} {n : Nat} {q : Pass} (hq : f (n, q) = false) :
    ∀ t : Tbl Pass, (∀ p, find? t n = some p → f (n, p) = false) → (ins t n q).filter f = t.filter f
  | [], _ => by simp [ins, hq]
  | (k, p) :: t, hold => by
    unfold ins
    split_ifs with hlt heq
    · simp [hq]
    · subst heq
      simp [hq, hold p (by simp [find?])]
    · have ih := filter_ins_of_not hq t fun x hx => hold x (by simpa [find?, heq] using hx)
      simp only [List.filter_cons, ih]

theorem length_filter_ins_le {f : Nat × Pass → Bool} {n : Nat} {q : Pass} (hq : f (n, q) = false) :
    ∀ t : Tbl Pass, ((ins t n q).filter f).length ≤ (t.filter f).length
  | [] => by simp [ins, hq]
  | (k, p) :: t => by
    unfold ins
    split_ifs
    · simp [hq]
    · simp only [List.filter_cons, hq, Bool.false_eq_true, if_false]
      split <;> simp
    · have ih := length_filter_ins_le hq t
      simp only [List.filter_cons]
      split <;> simp [ih]

theorem ctxUsed_setPass {n c : Nat} {p q : Pass} {d : Dev} (hp : getPass n d = some p) (hready : p.stage = .ready) (hq : q.stage = .ready) :
    ctxUsed c (setPass n q d) = ctxUsed c d := by
  refine congrArg List.length (filter_ins_of_not (by simp [hq]) d.head.passes fun x hx => ?_)
  obtain rfl : p = x := Option.some.inj (hp.symm.trans hx)
  simp [hready]

theorem ctxUsed_newPass_le {c : Nat} {q : Pass} {d : Dev} (hq : q.stage = .ready) : ctxUsed c (newPass q d) ≤ ctxUsed c d :=
  length_filter_ins_le (by simp [hq]) d.head.passes

namespace Still

variable {d e : Dev} (h : Still (KeyIn sideFlds) d e)
include h

theorem heldCount (dir : Nat) : heldCount dir e = heldCount dir d := by
  simp only [Machine.heldCount, h.rgetOff (f := ENG_DISP_STAT.ING_HELD) (by decide) (show 0 < 256 by decide),
    h.rgetOff (f := ENG_DISP_STAT.EG_HELD) (by decide) (show 0 < 256 by decide)]

theorem dispatchFull (p : Pass) : dispatchFull p e = dispatchFull p d := by
  simp only [Machine.dispatchFull, h.heldCount, h.disp, h.rgetOff (f := ENG_DISP_CFG.RQ_DEPTH) (by decide) (show 0 < 256 by decide)]

theorem engDir {c : Nat} (hc : c < 64) : Machine.rget ENG_CFG.DIR c 0 e = Machine.rget ENG_CFG.DIR c 0 d := by
  refine h.rget (not_side_of_page ?_)
  rw [key_page (f := ENG_CFG.DIR) (by decide) c (by decide), show ENG_CFG.DIR.reg.lay.page = 0x40 from rfl]
  simp only [sidePages, List.mem_cons, List.not_mem_nil, or_false]
  omega

theorem curBank : curBank e = curBank d := h.rget (by unfold KeyIn; decide +kernel)

theorem curSeq : curSeq e = curSeq d := h.rget (by unfold KeyIn; decide +kernel)

end Still

/-- A cluster of a direction that is enabled and has a free context. -/
def ableIn (dir : Nat) (d : Dev) : List Nat :=
  (List.range 64).filter fun c => blkEn (engPage c) d && rget ENG_CFG.DIR c 0 d == dir && decide (0 < 32 - ctxUsed c d)

theorem pickCluster_congr {dir : Nat} {d e : Dev} (hctx : ∀ c, ctxUsed c e = ctxUsed c d) (hable : ableIn dir e = ableIn dir d)
    (htie : flag ENG_DISP_X.TIE 0 0 e = flag ENG_DISP_X.TIE 0 0 d) (hlast : e.disp.last = d.disp.last) : pickCluster dir e = pickCluster dir d := by
  unfold ableIn at hable
  unfold pickCluster
  simp only [hctx] at hable ⊢
  simp only [hable, htie, hlast]

theorem foldl_max_attained (f : Nat → Nat) : ∀ (l : List Nat) (a : Nat),
    (l.foldl (fun a c => max a (f c)) a = a ∧ ∀ c ∈ l, f c ≤ a) ∨ ∃ c ∈ l, f c = l.foldl (fun a c => max a (f c)) a
  | [], a => .inl ⟨rfl, fun _ h => absurd h (List.not_mem_nil)⟩
  | x :: l, a => by
    obtain ⟨hfold, hle⟩ | ⟨c, hc, hfold⟩ := foldl_max_attained f l (max a (f x))
    · obtain hx | hx := Nat.le_total (f x) a
      · refine .inl ⟨hfold.trans (max_eq_left hx), ?_⟩
        simpa [hx] using fun c hc => hle c hc
      · exact .inr ⟨x, List.mem_cons_self .., (hfold.trans (max_eq_right hx)).symm⟩
    · exact .inr ⟨c, List.mem_cons_of_mem _ hc, hfold⟩

theorem pickCluster_isSome (dir : Nat) (d : Dev) : (pickCluster dir d).isSome = true ↔ ableIn dir d ≠ [] := by
  have htop : ((ableIn dir d).filter fun c => 32 - ctxUsed c d == (ableIn dir d).foldl (fun a c => max a (32 - ctxUsed c d)) 0) = [] ↔ ableIn dir d = [] := by
    refine ⟨fun htop => ?_, fun h => by rw [h]; rfl⟩
    rw [List.filter_eq_nil_iff] at htop
    obtain ⟨-, hle⟩ | ⟨c, hc, hbest⟩ := foldl_max_attained (fun c => 32 - ctxUsed c d) (ableIn dir d) 0
    · refine List.eq_nil_iff_forall_not_mem.2 fun c hc => ?_
      have hfree := (List.mem_filter.1 hc).2
      have hzero := hle c hc
      simp only [Bool.and_eq_true, decide_eq_true_eq] at hfree
      omega
    · exact absurd (beq_iff_eq.2 hbest) (htop c hc)
  rw [Ne, ← htop]
  unfold pickCluster
  extract_lets free able best top next
  change _ ↔ ¬top = []
  cases top with
  | nil => simp
  | cons x l => split <;> [simp; (split <;> simp)]

end Sys2Proof.Machine

namespace Sys2Proof.Machine

open Safety

/-! The machine's own drop of a pass (R142, R197, R207). -/

theorem learnRaise_still (ev : LrnEv) (d : Dev) : Still (KeyIn sideFlds) d (learnRaise ev d) := by
  have level (q : List LrnEv) (d : Dev) : Still (KeyIn sideFlds) d (setLrnQ q d) := (Still.of_onTab _ d).trans (Still.of_rset (sideKey (by decide)) ..)
  have h0 : Still (KeyIn sideFlds) d (inc Pg.LRN 0 d) := Still.of_inc ..
  have noted (u : Tables → Tables) := h0.trans (Still.of_onTab u _)
  unfold learnRaise
  exact Still.of_ite (h0.trans (Still.of_inc ..)) (Still.of_ite (h0.trans (Still.of_inc ..))
    (Still.of_ite (((noted _).trans (Still.of_inc ..)).trans (Still.of_fire ..)) ((noted _).trans (level ..))))

theorem engStat_still (c : Nat) (d : Dev) : Still (fun _ => True) d (engStat c d) := (Still.of_rset trivial ..).trans (Still.of_rset trivial ..)

theorem setHeld_still (dir n : Nat) (d : Dev) : Still (fun _ => True) d (setHeld dir n d) := by
  unfold setHeld
  exact Still.of_ite (Still.of_rset trivial ..) (Still.of_rset trivial ..)

theorem engTrace_still (p : Pass) (kind code : Nat) (d : Dev) : Still (fun _ => True) d (engTrace p kind code d) := by
  unfold engTrace
  exact Still.of_ite (Still.refl d) (((Still.of_loadImg (fun _ _ => trivial) ..).trans (Still.of_rset trivial ..)).trans (Still.of_fire ..))

theorem engEcc_still (c : Nat) (scratch : Bool) (half w : Nat) (d : Dev) : Still (fun _ => True) d (engEcc c scratch half w d) := by
  have h : Still (fun _ => True) d (fire (engPage c) 2 d) := Still.of_fire ..
  unfold engEcc
  exact Still.of_ite h ((h.trans (Still.of_loadImg (fun _ _ => trivial) ..)).trans (Still.of_eccLog trivial ..))

/-- A running pass that the machine drops: held with its DROP verdict, and with what is left of its actions. -/
def Pass.dropped (code : Nat) (acts : Acts) (p : Pass) : Pass := { p with stage := .held, verdict := some (.drop code), acts := acts, traced := false }

theorem faultPass_drops (n : Nat) (p : Pass) (code : Nat) (d : Dev) :
    ∃ acts e, Still (fun _ => True) d e ∧ faultPass n p code d = engStat p.cluster (setPass n (p.dropped code acts) e) := by
  have ended : Still (fun _ => True) d (unbind p.bank (drop code (engTrace p 1 code d))) :=
    ((engTrace_still ..).trans (Still.of_drop ..)).trans (unbind_still trivial trivial ..)
  unfold faultPass endPass
  refine ⟨_, _, ?_, rfl⟩
  dsimp only
  split
  · split
    · exact Still.of_ite (ended.trans ((learnRaise_still ..).mono fun _ _ => trivial)) ended
    · exact ended
  · exact ended

/-! A pass is given to a cluster. -/

/-- The number of a pass's entry point: an egress profile's stand behind the 64 of ingress (R205). -/
def Pass.entryIx (p : Pass) : Nat := if p.egress then 64 + p.prof else p.prof

/-- The entry word of a pass in the program memory of cluster c (R205). -/
def Pass.entWord (p : Pass) (c : Nat) (d : Dev) : Nat :=
  bits (bundleAt c p.bank (p.entryIx / 8) d) (16 * (p.entryIx % 8) + 15) (16 * (p.entryIx % 8))

/-- Pass p as it starts on cluster c: its window loaded, its program counter at its entry (R177, R182, R205). -/
def Pass.started (c : Nat) (d : Dev) (p : Pass) : Pass :=
  let hs := if p.egress then 96 else 0
  let he := if p.egress then 96 + min 160 p.bytes.length else min 256 (p.bytes.length - p.winBase)
  { p with stage := .running, cluster := c, engine := pickEngine c d, win := loadWindow p.egress p.bytes p.winBase, hstart := hs, hend := he, l0 := he - hs,
           bodyOfs := if p.egress then he - 96 else p.winBase + he, entry := p.entWord c d % 2048, pc := p.entWord c d % 2048,
           ordered := if p.egress then flag ENG_DISP_CFG.EG_ORDER 0 0 d else flag ENG_DISP_CFG.ING_ORDER 0 0 d, load := d.disp.loads }

/-- The device once pass n stands in its reorder queue and runs on cluster c. -/
def dispatched (n c : Nat) (p : Pass) (d : Dev) : Dev :=
  setPass n (p.started c d)
    { d with disp := { d.disp with queues := put d.disp.queues p.rq [] (look d.disp.queues p.rq [] ++ [n]), last := put d.disp.last p.dir 0 (c + 1), loads := d.disp.loads + 1 } }

section
variable {n c : Nat} {p : Pass} {d : Dev}

theorem dispatchPass_eq (hp : getPass n d = some p) (hready : p.stage = .ready) (hroom : dispatchFull p d = false) (hpick : pickCluster p.dir d = some c) :
    let e := engStat c (setHeld p.dir (heldCount p.dir d + 1) (dispatched n c p d))
    dispatchPass n d = match badBundle c p.bank (p.entryIx / 8) e with
      | some w => faultPass n (p.started c d) 0x44 (engEcc c false p.bank w e)
      | none => if !bit (p.entWord c d) 15 || decide (p.entWord c d % 2048 < 17) then faultPass n (p.started c d) 0x43 e else e := by
  unfold dispatchPass
  rw [hp]
  change (if p.stage != .ready then _ else if dispatchFull p d then _ else match pickCluster p.dir d with | none => _ | some c => _) = _
  rw [hready, hroom, hpick]
  rfl

/-- Pass p is where dispatch has put it. -/
structure Started (p : Pass) (c : Nat) (d : Dev) (y : Pass) : Prop where
  cluster : y.cluster = c
  engine : y.engine = pickEngine c d
  win : y.win = loadWindow p.egress p.bytes p.winBase
  pc : y.pc = p.entWord c d % 2048
  egress : y.egress = p.egress
  bytes : y.bytes = p.bytes
  tag : y.tag = p.tag
  tc : y.tc = p.tc
  prof : y.prof = p.prof
  ctx : y.ctx = p.ctx
  pcx : y.pcx = p.pcx

theorem started_started (p : Pass) (c : Nat) (d : Dev) : Started p c d (p.started c d) := ⟨rfl, rfl, rfl, rfl, rfl, rfl, rfl, rfl, rfl, rfl, rfl⟩

/-- Pass n is y in e; beside its passes and the dispatcher, e is as d, with n behind its reorder queue. -/
structure Given (n : Nat) (p : Pass) (d : Dev) (y : Pass) (e : Dev) : Prop where
  pass : getPass n e = some y
  rest : PassesOnly d e
  queue : look e.disp.queues p.rq [] = look d.disp.queues p.rq [] ++ [n]

theorem given_of_still {x e : Dev} {y : Pass} (hx : Still (fun _ => True) (dispatched n c p d) x) (he : Still (fun _ => True) (setPass n y x) e) : Given n p d y e where
  pass := (he.getPass n).trans (find?_ins_same ..)
  rest := ((PassesOnly.mk rfl rfl rfl : PassesOnly d (dispatched n c p d)).trans hx.passesOnly).trans
    ((PassesOnly.mk rfl rfl rfl : PassesOnly x (setPass n y x)).trans he.passesOnly)
  queue := (congrArg (fun z : Disp => look z.queues p.rq []) (he.disp.trans hx.disp)).trans (look_put_same ..)

theorem given_of_fault {x : Dev} (hx : Still (fun _ => True) (dispatched n c p d) x) (code : Nat) :
    ∃ y, Given n p d y (faultPass n (p.started c d) code x) ∧ Started p c d y ∧ y.stage = .held ∧ y.verdict = some (.drop code) := by
  obtain ⟨acts, z, hz, hrun⟩ := faultPass_drops n (p.started c d) code x
  rw [hrun]
  exact ⟨_, given_of_still (hx.trans hz) (engStat_still ..), { started_started p c d with }, rfl, rfl⟩

/-- A ready pass with room and a cluster is given to that cluster; at an absent or damaged entry the machine drops it (R205, R208). -/
theorem dispatchPass_starts (hp : getPass n d = some p) (hready : p.stage = .ready) (hroom : dispatchFull p d = false) (hpick : pickCluster p.dir d = some c) :
    ∃ y, Given n p d y (dispatchPass n d) ∧ Started p c d y ∧
      (badBundle c p.bank (p.entryIx / 8) d = none →
        (bit (p.entWord c d) 15 = true → 17 ≤ p.entWord c d % 2048 → y.stage = .running) ∧
        (bit (p.entWord c d) 15 = false ∨ p.entWord c d % 2048 < 17 → y.stage = .held ∧ y.verdict = some (.drop 0x43))) ∧
      (badBundle c p.bank (p.entryIx / 8) d ≠ none → y.stage = .held ∧ y.verdict = some (.drop 0x44)) ∧ y.stage ≠ .ready := by
  have hrun := dispatchPass_eq hp hready hroom hpick
  have he : Still (fun _ => True) (dispatched n c p d) (engStat c (setHeld p.dir (heldCount p.dir d + 1) (dispatched n c p d))) :=
    (setHeld_still ..).trans (engStat_still ..)
  generalize engStat c (setHeld p.dir (heldCount p.dir d + 1) (dispatched n c p d)) = e at hrun he
  have hbad : badBundle c p.bank (p.entryIx / 8) e = badBundle c p.bank (p.entryIx / 8) d := he.badBundle ..
  rw [hrun, ← hbad]
  cases badBundle c p.bank (p.entryIx / 8) e with
  | some w =>
    obtain ⟨y, hy, hst, hstage, hverdict⟩ := given_of_fault (he.trans (engEcc_still c false p.bank w e)) 0x44
    exact ⟨y, hy, hst, fun h => absurd h (by simp), fun _ => ⟨hstage, hverdict⟩, by simp [hstage]⟩
  | none =>
    by_cases hgood : bit (p.entWord c d) 15 = true ∧ 17 ≤ p.entWord c d % 2048
    · obtain ⟨hent, hpc⟩ := hgood
      refine ⟨p.started c d, ?_, started_started p c d, fun _ => ⟨fun _ _ => rfl, fun h => ?_⟩, fun h => absurd rfl h, Stage.noConfusion⟩
      · have hgo : (!bit (p.entWord c d) 15 || decide (p.entWord c d % 2048 < 17)) = false := by simp [hent, hpc]
        simp only [hgo]
        exact ⟨(he.getPass n).trans (find?_ins_same ..), (PassesOnly.mk rfl rfl rfl : PassesOnly d (dispatched n c p d)).trans he.passesOnly,
          (congrArg (fun z : Disp => look z.queues p.rq []) he.disp).trans (look_put_same ..)⟩
      · obtain h | h := h
        · exact absurd hent (by simp [h])
        · omega
    · have hstop : (!bit (p.entWord c d) 15 || decide (p.entWord c d % 2048 < 17)) = true := by
        simp only [Bool.or_eq_true, Bool.not_eq_true', decide_eq_true_eq]
        by_cases hent : bit (p.entWord c d) 15 = true
        · exact .inr (Nat.not_le.1 fun hpc => hgood ⟨hent, hpc⟩)
        · exact .inl (by simpa using hent)
      obtain ⟨y, hy, hst, hstage, hverdict⟩ := given_of_fault he 0x43
      simp only [hstop, if_true]
      exact ⟨y, hy, hst, fun _ => ⟨fun h1 h2 => absurd ⟨h1, h2⟩ hgood, fun _ => ⟨hstage, hverdict⟩⟩, fun h => absurd rfl h, by simp [hstage]⟩

end

end Sys2Proof.Machine

namespace Sys2Proof.Machine

open Safety

/-! EGRESS_DISPATCH: an egress packet binds to the current bank as it is dispatched (R214, R218, R219). -/

theorem freeWords_still {K : Nat → Prop} : ∀ (k : Nat) (d : Dev), Still K d (freeWords k d).2
  | 0, d => Still.refl d
  | k + 1, d => (freeWords_still k d).trans (Still.of_draw _)

theorem eccLatch_side {r : Reg} (hr : r ∈ [Reg.LPM_ECC_ADDR, .XM_ECC_ADDR, .NHT_ECC_ADDR, .BRL_ECC_ADDR]) (n img : Nat) (d : Dev) :
    Still (KeyIn sideFlds) d (eccLatch r 0 n img d) :=
  Still.of_eccLatch (sideKey (by decide)) (fun x hx => sideKey (List.mem_append_right _ (List.mem_flatMap.2 ⟨r, hr, List.mem_map_of_mem hx⟩))) n img d

theorem nhtEcc_side (k : Nat) (d : Dev) : Still (KeyIn sideFlds) d (nhtEcc k d) := (Still.of_inc ..).trans (eccLatch_side (by decide) ..)

/-- Only the fault marks of the PCX move at a fault (R112). -/
theorem fault_get {f : Span} (hmark : f.1 < PX.DROP.2 ∨ PX.DROP.1 < f.2) (hcode : f.1 < PX.DROP_CODE.2 ∨ PX.DROP_CODE.1 < f.2) (code : Nat) (p : Pass) :
    f.get (p.fault code).pcx = f.get p.pcx :=
  (Span.get_set_ne hcode ..).trans (Span.get_set_ne hmark ..)

/-- The egress context of pass p once it is bound (R218). -/
def boundCtx (p : Pass) (d : Dev) : Nat := Span.set (177, 177) (curBank d) (Span.set (175, 160) (curSeq d) p.ctx)

theorem boundCtx_bank (p : Pass) (d : Dev) : bits (boundCtx p d) 177 177 = curBank d % 2 := Span.get_set_same (177, 177) ..

theorem boundCtx_seq (p : Pass) (d : Dev) : bits (boundCtx p d) 175 160 = curSeq d % 2 ^ 16 :=
  (Span.get_set_ne (f := (175, 160)) (g := (177, 177)) (by decide) ..).trans (Span.get_set_same (175, 160) ..)

theorem boundCtx_queue (p : Pass) (d : Dev) : bits (boundCtx p d) 139 128 = bits p.ctx 139 128 :=
  (Span.get_set_ne (f := (139, 128)) (g := (177, 177)) (by decide) ..).trans (Span.get_set_ne (f := (139, 128)) (g := (175, 160)) (by decide) ..)

theorem egressPcx_still {K : Nat → Prop} (ctx cell : Nat) (d : Dev) : Still K d (egressPcx ctx cell d).2 := by
  have h := freeWords_still (K := K) 8 d
  unfold egressPcx
  generalize freeWords 8 d = r at h ⊢
  exact h

theorem egressPcx_bank (ctx cell : Nat) (d : Dev) : PX.BANK.get (egressPcx ctx cell d).1 = bits ctx 177 177 % 2 := Span.get_set_same PX.BANK ..

theorem egressPcx_seq (ctx cell : Nat) (d : Dev) : PX.SEQ.get (egressPcx ctx cell d).1 = bits ctx 175 160 % 2 ^ 16 :=
  (Span.get_set_ne (f := PX.SEQ) (g := PX.BANK) (by decide) ..).trans (Span.get_set_same PX.SEQ ..)

/-- Pass q is egress pass p bound to the current bank of d, on its port's profile. -/
structure Bound (p : Pass) (d : Dev) (q : Pass) : Prop where
  egress : q.egress = p.egress
  stage : q.stage = p.stage
  bytes : q.bytes = p.bytes
  winBase : q.winBase = p.winBase
  tag : q.tag = p.tag
  tc : q.tc = p.tc
  ctx : q.ctx = boundCtx p d
  prof : q.prof = rget TLS_PORTn_CFG.EPROF 0 p.egPort d
  bank : PX.BANK.get q.pcx = curBank d % 2
  seq : PX.SEQ.get q.pcx = curSeq d % 2 ^ 16

theorem egPort_lt (p : Pass) : p.egPort < 256 := Nat.mod_lt _ (by decide)

theorem egressBind_binds (n : Nat) (p : Pass) (d : Dev) :
    ∃ q x, egressBind n p d = dispatchPass n (setPass n q x) ∧ Still (KeyIn sideFlds) d x ∧ Bound p d q := by
  unfold egressBind
  extract_lets port nh bad adj d1 ctx d2
  have h1 : Still (KeyIn sideFlds) d d1 := Still.of_ite (nhtEcc_side ..) (Still.refl d)
  have h2 : Still (KeyIn sideFlds) d d2 := (h1.trans (bindBank_side _)).trans (Still.of_inc ..)
  have hctx : ctx = boundCtx p d := by rw [boundCtx, ← h1.curBank, ← h1.curSeq]
  have h3 := h2.trans (egressPcx_still ctx (PX.CELL_HEAD.get p.pcx) d2)
  have hbank := egressPcx_bank ctx (PX.CELL_HEAD.get p.pcx) d2
  have hseq := egressPcx_seq ctx (PX.CELL_HEAD.get p.pcx) d2
  generalize egressPcx ctx (PX.CELL_HEAD.get p.pcx) d2 = r at h3 hbank hseq ⊢
  obtain ⟨pcx, d3⟩ := r
  let q : Pass := { p with pcx := pcx, ctx := ctx, prof := rget TLS_PORTn_CFG.EPROF 0 port d3, regs := if adj = 0 then [] else [(1, adj)], adjOk := bit adj 63 }
  have hq : Bound p d q :=
    { egress := rfl, stage := rfl, bytes := rfl, winBase := rfl, tag := rfl, tc := rfl, ctx := hctx
      prof := h3.rgetOff (by decide) (egPort_lt p)
      bank := hbank.trans (by rw [hctx, boundCtx_bank, Nat.mod_mod])
      seq := hseq.trans (by rw [hctx, boundCtx_seq, Nat.mod_mod]) }
  refine ⟨if bad then q.fault 0x20 else q, _, rfl, h3, ?_⟩
  split
  · exact { hq with
      bank := (fault_get (by decide) (by decide) ..).trans hq.bank
      seq := (fault_get (by decide) (by decide) ..).trans hq.seq }
  · exact hq

theorem Bound.rq {p q : Pass} {d : Dev} (h : Bound p d q) (hegr : p.egress = true) : q.rq = p.rq := by
  simp only [Pass.rq, Pass.dir, h.egress, hegr, h.ctx, boundCtx_queue, if_true]

theorem dispatchFull_congr {p q : Pass} (hrq : q.rq = p.rq) (hdir : q.dir = p.dir) (d : Dev) : dispatchFull q d = dispatchFull p d := by
  simp only [dispatchFull, hrq, hdir]

theorem Still.pickCluster {d e : Dev} (h : Still (KeyIn sideFlds) d e) (dir : Nat) : pickCluster dir e = pickCluster dir d := by
  have hctx (c : Nat) : ctxUsed c e = ctxUsed c d := by simp only [ctxUsed, h.head]
  refine pickCluster_congr hctx (List.filter_congr fun c hc => ?_) (h.flagOff (by decide) (by decide)) (by rw [h.disp])
  rw [h.blkEn, h.engDir (List.mem_range.1 hc), hctx]

theorem pickCluster_setPass {n : Nat} {p q : Pass} {d : Dev} (hp : getPass n d = some p) (hready : p.stage = .ready) (hq : q.stage = .ready) (dir : Nat) :
    pickCluster dir (setPass n q d) = pickCluster dir d := by
  have hctx (c : Nat) : ctxUsed c (setPass n q d) = ctxUsed c d := ctxUsed_setPass hp hready hq
  exact pickCluster_congr hctx (List.filter_congr fun c _ => by rw [hctx]; rfl) rfl rfl

/-- An egress pass that is bound starts on the cluster that was chosen for it. -/
theorem egressBind_starts {n c : Nat} {p : Pass} {d : Dev} (hp : getPass n d = some p) (hegr : p.egress = true) (hready : p.stage = .ready)
    (hroom : dispatchFull p d = false) (hpick : pickCluster p.dir d = some c) :
    ∃ q t y, Bound p d q ∧ Started q c t y ∧ Given n p d y (egressBind n p d) ∧ y.stage ≠ .ready := by
  obtain ⟨q, x, hrun, hx, hq⟩ := egressBind_binds n p d
  have hqready : q.stage = .ready := hq.stage.trans hready
  have hdir : q.dir = p.dir := by rw [Pass.dir, Pass.dir, hq.egress]
  have hroom' : dispatchFull q (setPass n q x) = false := by
    rw [← hroom, ← hx.dispatchFull, ← dispatchFull_congr (hq.rq hegr) hdir]
    rfl
  have hpick' : pickCluster q.dir (setPass n q x) = some c := by
    rw [pickCluster_setPass ((hx.getPass n).trans hp) hready hqready, hx.pickCluster, hdir, hpick]
  obtain ⟨y, ⟨hpass, hrest, hqueue⟩, hst, -, -, hstage⟩ := dispatchPass_starts (d := setPass n q x) (find?_ins_same ..) hqready hroom' hpick'
  rw [hrun]
  refine ⟨q, _, y, hq, hst, ⟨hpass, (hx.passesOnly.trans (PassesOnly.mk rfl rfl rfl : PassesOnly x (setPass n q x))).trans hrest, ?_⟩, hstage⟩
  rw [← hq.rq hegr, hqueue, show (setPass n q x).disp = x.disp from rfl, hx.disp]

/-! A packet arrives at the Tailstock. -/

/-- The egress pass of a packet that has arrived. -/
def arrivedPass (r : EgrRec) : Pass :=
  { egress := true, stage := .ready, bytes := r.bytes, pcx := PX.CELL_HEAD.set r.cell 0, ctx := r.ctx, tag := r.tag, tc := r.tc, bad := r.bad }

/-- The device once the oldest arrived packet is a pass. -/
def arrivalTaken (r : EgrRec) (t : List EgrRec) (d : Dev) : Dev := newPass (arrivedPass r) { d with cross := { d.cross with arrived := t } }

theorem pickCluster_arrivalTaken (r : EgrRec) (t : List EgrRec) {dir : Nat} {d : Dev} (h : (pickCluster dir d).isSome = true) :
    (pickCluster dir (arrivalTaken r t d)).isSome = true := by
  rw [pickCluster_isSome] at h ⊢
  obtain ⟨c, hc⟩ := List.exists_mem_of_ne_nil _ h
  refine List.ne_nil_of_mem (a := c) ?_
  simp only [ableIn, List.mem_filter, Bool.and_eq_true, decide_eq_true_eq] at hc ⊢
  obtain ⟨hlt, hon, hfree⟩ := hc
  have hle : ctxUsed c (arrivalTaken r t d) ≤ ctxUsed c d := ctxUsed_newPass_le (d := { d with cross := { d.cross with arrived := t } }) rfl
  exact ⟨hlt, hon, by omega⟩

end Sys2Proof.Machine

namespace Sys2Proof.Machine

open Safety

theorem linkState_congr {n : Nat} {d e : Dev} (h : e.flds = d.flds) : linkState n e = linkState n d := by
  unfold linkState pget rget
  rw [h]

/-- With its link up, a port takes the frame behind those that wait. -/
theorem handFrame_queues {n : Nat} {f : TxFrame} {d : Dev} (hup : linkState n d = 4) :
    (port n (handFrame n f d)).txWait = (port n d).txWait ++ [{ f with bytes := f.bytes ++ List.replicate (60 - f.bytes.length) 0 }] := by
  have keep {e : Dev} (he : linkState n e = 4) : downDiscard n e = e := by simp [downDiscard, he]
  unfold handFrame
  extract_lets f' d1 x
  rw [keep (e := setPort n _ d1) ((linkState_congr (d := d) rfl).trans hup), port_setPort_same]
  rfl

/-- Dispatch leaves a pass waiting while its queue is full or no cluster can take it. -/
theorem dispatchPass_waits {n : Nat} {p : Pass} {d : Dev} (hp : getPass n d = some p) (hwaits : dispatchFull p d = true ∨ pickCluster p.dir d = none) :
    dispatchPass n d = d ∨ dispatchPass n d = setPass n { p with waited := true } (inc Pg.ENG (12 + p.dir) d) := by
  have hrun : dispatchPass n d = if p.stage != .ready then d else if dispatchFull p d then (if p.waited then d else setPass n { p with waited := true } (inc Pg.ENG (12 + p.dir) d))
      else d := by
    unfold dispatchPass
    rw [hp]
    refine if_congr Iff.rfl rfl ?_
    by_cases hfull : dispatchFull p d = true
    · exact (if_pos hfull).trans (if_pos hfull).symm
    · simp only [hfull, hwaits.resolve_left hfull]
  rw [hrun]
  split_ifs <;> simp

/-! EGRESS_DISPATCH. -/

section
variable {r : EgrRec} {t : List EgrRec} {d : Dev}

theorem getPass_arrivalTaken : getPass d.head.nextPass (arrivalTaken r t d) = some (arrivedPass r) := find?_ins_same ..

theorem egressDispatch_takes (harr : d.cross.arrived = r :: t) (hen : blkEn Pg.TLS d = true) :
    egressDispatch d = egressTry d.head.nextPass (arrivalTaken r t d) := by
  simp only [egressDispatch, harr, hen]
  rfl

/-- A bypass port's packet goes to the MAC as it is. -/
theorem egressTry_bypass {out : Nat} (hout : out = bits r.ctx 76 69) (hby : flag TLS_PORTn_CFG.BYPASS 0 out d = true) :
    ∃ f x, egressTry d.head.nextPass (arrivalTaken r t d) = handFrame out f x ∧ f.bytes = r.bytes ∧ f.cls = r.tc ∧
      Still (fun _ => False) (delPass d.head.nextPass (arrivalTaken r t d)) x := by
  subst hout
  refine ⟨{ bytes := r.bytes, cls := r.tc, pktTime := bits r.ctx 255 208, bad := r.bad }, _, ?_, rfl, rfl, Still.of_inc Pg.TLS 1 _⟩
  unfold egressTry
  rw [getPass_arrivalTaken]
  exact if_pos hby

theorem egressTry_waits (hby : flag TLS_PORTn_CFG.BYPASS 0 (bits r.ctx 76 69) d = false)
    (hwaits : dispatchFull (arrivedPass r) (arrivalTaken r t d) = true ∨ pickCluster 1 (arrivalTaken r t d) = none) :
    egressTry d.head.nextPass (arrivalTaken r t d) = dispatchPass d.head.nextPass (arrivalTaken r t d) := by
  have hstop : (dispatchFull (arrivedPass r) (arrivalTaken r t d) || (pickCluster 1 (arrivalTaken r t d)).isNone) = true := by
    obtain h | h := hwaits <;> simp [h]
  unfold egressTry
  rw [getPass_arrivalTaken]
  exact (if_neg (Bool.eq_false_iff.1 hby)).trans (if_pos hstop)

theorem egressTry_binds {c : Nat} (hby : flag TLS_PORTn_CFG.BYPASS 0 (bits r.ctx 76 69) d = false)
    (hroom : dispatchFull (arrivedPass r) (arrivalTaken r t d) = false) (hpick : pickCluster 1 (arrivalTaken r t d) = some c) :
    egressTry d.head.nextPass (arrivalTaken r t d) = egressBind d.head.nextPass (arrivedPass r) (arrivalTaken r t d) := by
  have hgo : ¬(dispatchFull (arrivedPass r) (arrivalTaken r t d) || (pickCluster 1 (arrivalTaken r t d)).isNone) = true := by simp [hroom, hpick]
  unfold egressTry
  rw [getPass_arrivalTaken]
  exact (if_neg (Bool.eq_false_iff.1 hby)).trans (if_neg hgo)

/-- What becomes of an arrived packet that is no bypass port's: a pass that waits while there is no room, or one bound to the current bank. -/
theorem egressTry_passes (hby : flag TLS_PORTn_CFG.BYPASS 0 (bits r.ctx 76 69) d = false) :
    ∃ y, PassesOnly (arrivalTaken r t d) (egressTry d.head.nextPass (arrivalTaken r t d)) ∧
      getPass d.head.nextPass (egressTry d.head.nextPass (arrivalTaken r t d)) = some y ∧
      y.egress = true ∧ y.bytes = r.bytes ∧ y.tag = r.tag ∧ y.tc = r.tc ∧
      (dispatchFull { egress := true, ctx := r.ctx } d = false → (pickCluster 1 d).isSome = true →
        y.stage ≠ .ready ∧ PX.BANK.get y.pcx = curBank d % 2 ∧ PX.SEQ.get y.pcx = curSeq d % 2 ^ 16) ∧
      (dispatchFull { egress := true, ctx := r.ctx } d = true → y.stage = .ready) := by
  have hsame : dispatchFull (arrivedPass r) (arrivalTaken r t d) = dispatchFull (arrivedPass r) d := rfl
  have hrq : (arrivedPass r).rq = ({ egress := true, ctx := r.ctx } : Pass).rq := by simp only [Pass.rq, Pass.dir, arrivedPass, if_true]
  have hfull := hsame.trans (dispatchFull_congr hrq rfl d)
  by_cases hwaits : dispatchFull (arrivedPass r) (arrivalTaken r t d) = true ∨ pickCluster 1 (arrivalTaken r t d) = none
  · rw [egressTry_waits hby hwaits]
    have hno : dispatchFull { egress := true, ctx := r.ctx } d = false → (pickCluster 1 d).isSome = true → False := fun hroom hpick => by
      have hsome := pickCluster_arrivalTaken r t hpick
      obtain h | h := hwaits
      · rw [hfull, hroom] at h; cases h
      · rw [h] at hsome; cases hsome
    obtain h | h := dispatchPass_waits getPass_arrivalTaken hwaits
    · rw [h]
      exact ⟨arrivedPass r, ⟨rfl, rfl, rfl⟩, getPass_arrivalTaken, rfl, rfl, rfl, rfl, fun hroom hpick => (hno hroom hpick).elim, fun _ => rfl⟩
    · have hinc : PassesOnly (arrivalTaken r t d) (inc Pg.ENG (12 + (arrivedPass r).dir) (arrivalTaken r t d)) := (Still.of_inc (K := fun _ => True) ..).passesOnly
      rw [h]
      exact ⟨_, hinc.trans (PassesOnly.mk rfl rfl rfl), find?_ins_same .., rfl, rfl, rfl, rfl, fun hroom hpick => (hno hroom hpick).elim, fun _ => rfl⟩
  · obtain ⟨hroom, hpick⟩ := not_or.1 hwaits
    obtain ⟨c, hc⟩ := Option.ne_none_iff_exists'.1 hpick
    rw [egressTry_binds hby (Bool.eq_false_iff.2 hroom) hc]
    obtain ⟨q, x, y, hq, hst, ⟨hpass, hrest, -⟩, hstage⟩ := egressBind_starts getPass_arrivalTaken rfl rfl (Bool.eq_false_iff.2 hroom) hc
    refine ⟨y, hrest, hpass, hst.egress.trans hq.egress, hst.bytes.trans hq.bytes, hst.tag.trans hq.tag, hst.tc.trans hq.tc, fun _ _ => ⟨hstage, ?_, ?_⟩, fun h => ?_⟩
    · rw [hst.pcx]; exact hq.bank
    · rw [hst.pcx]; exact hq.seq
    · exact absurd (hfull.trans h) hroom

theorem egressDispatch_does {s : State} (hruns : Runs 97 s d) (harr : d.cross.arrived = r :: t) (hen : blkEn Pg.TLS d = true) :
    Does .egressDispatch s fun e => e.cross.arrived = t ∧ e.head.nextPass = d.head.nextPass + 1 ∧
    let out := bits r.ctx 76 69
    (flag TLS_PORTn_CFG.BYPASS 0 out d = true → e.cross.dones = d.cross.dones ++ [(out, 1)] ∧ getPass d.head.nextPass e = none ∧
      (linkState out d = 4 → ∃ f, (port out e).txWait = (port out d).txWait ++ [f] ∧
        f.bytes = r.bytes ++ List.replicate (60 - r.bytes.length) 0 ∧ f.cls = r.tc)) ∧
    (flag TLS_PORTn_CFG.BYPASS 0 out d = false →
      ∃ p, getPass d.head.nextPass e = some p ∧ p.egress = true ∧ p.bytes = r.bytes ∧ p.tag = r.tag ∧ p.tc = r.tc ∧
        (dispatchFull { egress := true, ctx := r.ctx } d = false → (pickCluster 1 d).isSome = true →
          p.stage ≠ .ready ∧ PX.BANK.get p.pcx = curBank d % 2 ∧ PX.SEQ.get p.pcx = curSeq d % 2 ^ 16) ∧
        (dispatchFull { egress := true, ctx := r.ctx } d = true → p.stage = .ready)) := by
  refine act_does (f := egressDispatch) rfl hruns fun e he => ?_
  rw [egressDispatch_takes harr hen] at he
  simp only [getPass, he.head, he.cross, he.port]
  cases hby : flag TLS_PORTn_CFG.BYPASS 0 (bits r.ctx 76 69) d with
  | true =>
    obtain ⟨f, x, hrun, hbytes, hcls, hx⟩ := egressTry_bypass (t := t) rfl hby
    obtain ⟨hhead, -, hdones, harrived⟩ := handFrame_reports (bits r.ctx 76 69) f x
    rw [hrun, hhead, hdones, harrived, hx.head, hx.dones, hx.arrived]
    refine ⟨rfl, rfl, fun _ => ⟨rfl, find?_del_same .., fun hup => ?_⟩, Bool.noConfusion⟩
    have hup' : linkState (bits r.ctx 76 69) x = 4 := by
      rw [← hup]
      unfold linkState pget
      exact hx.rget not_false
    rw [handFrame_queues hup', hx.port, hbytes]
    exact ⟨_, rfl, rfl, hcls⟩
  | false =>
    obtain ⟨y, hrest, hy, hkept⟩ := egressTry_passes (t := t) hby
    exact ⟨hrest.arrived, congrArg Head.nextPass hrest.head, Bool.noConfusion, fun _ => ⟨y, hy, hkept⟩⟩

end

/-- Settles O18: a released verdict takes effect, an arrived packet goes to the MAC or becomes a bound pass, and the Mandrel's oldest pass is parsed again. -/
theorem releaseAndRecirculation : Obligations.ReleaseAndRecirculation :=
  ⟨fun _ _ _ _ _ _ hruns hrel hv => verdictRelease_does rfl hruns hrel hv,
    fun _ _ _ _ hruns harr hen => egressDispatch_does hruns harr hen,
    fun _ _ _ _ _ _ hruns hmay hen hq hp => mandrelReenter_does hruns hmay hen hq hp⟩

end Sys2Proof.Machine

namespace Sys2Proof.Machine

open Safety

/-! ENGINE_DISPATCH (R177, R182, R205, R218). -/

section
variable {n c : Nat} {p : Pass} {s : State} {d : Dev}

theorem engineDispatch_ingress (hp : getPass n d = some p) (hegr : p.egress = false) : engineDispatch n d = dispatchPass n d := by
  simp only [engineDispatch, hp, hegr, Bool.false_eq_true, if_false]

theorem engineDispatch_egress (hp : getPass n d = some p) (hegr : p.egress = true) (hready : p.stage = .ready)
    (hby : flag TLS_PORTn_CFG.BYPASS 0 p.egPort d = false) (hroom : dispatchFull p d = false) (hpick : pickCluster p.dir d = some c) :
    engineDispatch n d = egressBind n p d := by
  have hdir : p.dir = 1 := by rw [Pass.dir, hegr]; rfl
  rw [hdir] at hpick
  simp only [engineDispatch, egressTry, hp, hegr, hready, hroom, hpick, show flag TLS_PORTn_CFG.BYPASS 0 (bits p.ctx 76 69) d = false from hby]
  rfl

theorem dispatchFull_eq_false (hqueue : (look d.disp.queues p.rq []).length < rget ENG_DISP_CFG.RQ_DEPTH 0 0 d) (hheld : heldCount p.dir d < 8192) :
    dispatchFull p d = false := by
  rw [dispatchFull, decide_eq_false_iff_not]; omega

theorem engineDispatch_does {P : Dev → Prop} (hruns : Runs (passIsland n s.dev) s d) (hp : ∀ e, Beside (engineDispatch n d) e → P e) :
    Does (.engineDispatch n) s P := by
  refine run_does (f := fun d => act (passIsland n d) (engineDispatch n) d) rfl fun e he => hp e ?_
  rw [← act_runs hruns (engineDispatch n)]
  exact he

variable (hruns : Runs (passIsland n s.dev) s d) (hp : getPass n d = some p) (hready : p.stage = .ready)
  (hroom : dispatchFull p d = false) (hpick : pickCluster p.dir d = some c)
include hruns hp hready hroom hpick

theorem engineDispatch_starts (hegr : p.egress = false) :
    Does (.engineDispatch n) s fun e => look e.disp.queues p.rq [] = look d.disp.queues p.rq [] ++ [n] ∧
      ∃ q, getPass n e = some q ∧ q.cluster = c ∧ q.engine = pickEngine c d ∧ q.win = loadWindow false p.bytes p.winBase ∧
        (let ent := bits (bundleAt c p.bank (p.prof / 8) d) (16 * (p.prof % 8) + 15) (16 * (p.prof % 8))
         q.pc = ent % 2048 ∧
         (badBundle c p.bank (p.prof / 8) d = none →
           (bit ent 15 = true → 17 ≤ ent % 2048 → q.stage = .running) ∧
           (bit ent 15 = false ∨ ent % 2048 < 17 → q.stage = .held ∧ q.verdict = some (.drop 0x43))) ∧
         (badBundle c p.bank (p.prof / 8) d ≠ none → q.stage = .held ∧ q.verdict = some (.drop 0x44))) := by
  refine engineDispatch_does hruns fun e he => ?_
  rw [engineDispatch_ingress hp hegr] at he
  obtain ⟨y, ⟨hpass, -, hqueue⟩, hst, hgood, hbad, -⟩ := dispatchPass_starts hp hready hroom hpick
  have hix : p.entryIx = p.prof := by simp [Pass.entryIx, hegr]
  have hpc := hst.pc
  simp only [Pass.entWord, hix] at hgood hbad hpc
  rw [getPass, he.disp, he.head]
  exact ⟨hqueue, y, hpass, hst.cluster, hst.engine, hegr ▸ hst.win, hpc, hgood, hbad⟩

theorem engineDispatch_binds (hegr : p.egress = true) (hby : flag TLS_PORTn_CFG.BYPASS 0 p.egPort d = false) :
    Does (.engineDispatch n) s fun e => look e.disp.queues p.rq [] = look d.disp.queues p.rq [] ++ [n] ∧
      ∃ q, getPass n e = some q ∧ q.cluster = c ∧ q.win = loadWindow true p.bytes p.winBase ∧ q.prof = rget TLS_PORTn_CFG.EPROF 0 p.egPort d ∧
        bits q.ctx 177 177 = curBank d % 2 ∧ bits q.ctx 175 160 = curSeq d % 2 ^ 16 := by
  refine engineDispatch_does hruns fun e he => ?_
  rw [engineDispatch_egress hp hegr hready hby hroom hpick] at he
  obtain ⟨q, x, y, hq, hst, ⟨hpass, -, hqueue⟩, -⟩ := egressBind_starts hp hegr hready hroom hpick
  rw [getPass, he.disp, he.head]
  refine ⟨hqueue, y, hpass, hst.cluster, ?_, hst.prof.trans hq.prof, ?_, ?_⟩
  · rw [hst.win, hq.egress, hegr, hq.bytes, hq.winBase]
  · rw [hst.ctx, hq.ctx, boundCtx_bank]
  · rw [hst.ctx, hq.ctx, boundCtx_seq]

end

end Sys2Proof.Machine

namespace Sys2Proof.Machine

open Safety

/-! BURL_REREAD, PROFILE_COMMIT, TEMPLATE_COMMIT, DEEP_PARSE_WRITE, HDS_TRACE_ARM (R93, R95, R106, R109, R111, R168). -/

theorem burlReread_repairs {r w q : Nat} {d : Dev}
    (hq : (verified (replBank r d) d).find? (fun q => q != r && !(repl q d).bad.contains w) = some q) :
    (burlReread r w d).2 = inc Pg.BRL 3 (setRepl r
      { repl r d with mem := put (repl r d).mem w 0 (look (repl q d).mem w 0), bad := (repl r d).bad.filter (· != w) } d) := by
  simp only [burlReread, hq]

theorem lies_profile (b : Fin 2) (i : Fin 64) : Lies (if b.val = 0 then .HDS_PROFA else .HDS_PROFB) 0 i.val = true := by
  revert b i; decide +kernel

theorem lies_template (b : Fin 2) (t : Fin 64) : Lies (if b.val = 0 then .HDS_TMPLA else .HDS_TMPLB) 0 t.val = true := by
  revert b t; decide +kernel

theorem lies_HDS_DPk_CFG (k : Fin 16) : Lies .HDS_DPk_CFG 0 k.val = true := by
  revert k; decide +kernel

theorem commit_profile (req : Requester) (b : Fin 2) (i img : Nat) (d : Dev) :
    commit req (if b.val = 0 then .HDS_PROFA else .HDS_PROFB) 0 i img d = profileWrite b.val i img d := by
  fin_cases b <;> rfl

theorem commit_template (req : Requester) (b : Fin 2) (t img : Nat) (d : Dev) :
    commit req (if b.val = 0 then .HDS_TMPLA else .HDS_TMPLB) 0 t img d = templateWrite b.val t img d := by
  fin_cases b <;> rfl

section
variable {req : Requester} {w : BitVec 32} {s : State} {d : Dev} {img : Nat}

theorem profileCommit_writes {b : Fin 2} {i : Fin 64} (hcom : Commits req (if b.val = 0 then .HDS_PROFA else .HDS_PROFB) 0 i.val w.toNat s d img) :
    Writes req (.profileCommit req b i w) s (profileWrite b.val i.val img d) := by
  rw [← commit_profile (req := req)]
  exact cmd_writes rfl (lies_profile b i) hcom

theorem templateCommit_writes {b : Fin 2} {t : Fin 64} (hcom : Commits req (if b.val = 0 then .HDS_TMPLA else .HDS_TMPLB) 0 t.val w.toNat s d img) :
    Writes req (.templateCommit req b t w) s (templateWrite b.val t.val img d) := by
  rw [← commit_template (req := req)]
  exact cmd_writes rfl (lies_template b t) hcom

theorem deepParseWrite_writes {k : Fin 16} (hcom : Commits req .HDS_DPk_CFG 0 k.val w.toNat s d img) :
    Writes req (.deepParseWrite req k w) s (dpWrite k.val img d) := cmd_writes rfl (lies_HDS_DPk_CFG k) hcom

theorem hdsTraceArm_writes (hcom : Commits req .HDS_TRACE_CTRL 0 0 (force w [(31, 31, 1)]) s d img) :
    Writes req (.hdsTraceArm req w) s (hdsTraceWrite img d) := cmd_writes rfl (by decide +kernel) hcom

theorem profileWrite_eq {b i : Nat} (hcount : bits (wordOf img 7) 29 27 ≠ 7) :
    profileWrite b i img d =
      if bankBusy b d then errAt Err.EPOCH_BUSY (profReg b) 0 i d
      else if profBad img then errAt Err.BAD_ARG (profReg b) 0 i d
      else if (List.range 6).any fun k => slotTooWide (fun t => regImg (tmplReg b) 0 t d) (wordOf img k) then errAt 0x20 (profReg b) 0 i d
      else
        let x := storeFields false (profReg b) 0 i img d
        { x with head := { x.head with badWords := x.head.badWords.filter (· != 256 * b + i) } } := by
  rw [profileWrite, if_neg hcount]

/-- While no profile of its bank is valid, no width of a template is refused for one (R109). -/
theorem templateWrite_eq {b t : Nat} (hnone : ∀ i < 64, flag (HDS_PROF.VALID b) 0 i d = false) :
    templateWrite b t img d =
      if bankBusy b d then errAt Err.EPOCH_BUSY (tmplReg b) 0 t d
      else if ((List.range 16).map fun k => wordOf img k).any fun w => decide (11 ≤ bits w 31 28) || decide (128 < bits w 15 8) then errAt Err.BAD_ARG (tmplReg b) 0 t d
      else
        let x := storeFields false (tmplReg b) 0 t img d
        { x with head := { x.head with badWords := x.head.badWords.filter (· != 256 * b + 128 + t) } } := by
  have hwide (tm : Nat → Nat) : ((List.range 64).any fun i => flag (HDS_PROF.VALID b) 0 i d &&
      (List.range 6).any fun k => slotTooWide tm (wordOf (regImg (profReg b) 0 i d) k)) = false :=
    List.any_eq_false.2 fun i hi => by simp [hnone i (List.mem_range.1 hi)]
  rw [templateWrite]
  simp only [hwide, Bool.false_eq_true, if_false]

/-- A trace control word with ARM set stores its port and arms the trace (R111). -/
theorem traceCtrl_stores (harm : HDS_TRACE_CTRL.ARM.of img = 1) :
    storeFields true .HDS_TRACE_CTRL 0 0 img d = rset HDS_TRACE_CTRL.PORT 0 0 (HDS_TRACE_CTRL.PORT.of img) (rset HDS_TRACE_CTRL.ARM 0 0 1 d) := by
  simp only [storeFields, Reg.fields, List.foldl_cons, List.foldl_nil, if_true]
  rw [show bits img (31 + 1 - 1) 31 = 1 from harm]
  rfl

theorem force_one (w : BitVec 32) (hi lo v : Nat) : force w [(hi, lo, v)] = putBits w.toNat hi lo v := rfl

theorem arm_of_force (w : BitVec 32) : HDS_TRACE_CTRL.ARM.of (force w [(31, 31, 1)]) = 1 := by
  have hof (img : Nat) : HDS_TRACE_CTRL.ARM.of img = img / 2 ^ 31 % 2 := by
    rw [Fld.of, bits, Nat.shiftRight_eq_div_pow, show HDS_TRACE_CTRL.ARM.lo = 31 from rfl, show HDS_TRACE_CTRL.ARM.w = 1 from rfl,
      show 31 + 1 - 1 + 1 - 31 = 1 by omega, pow_one]
  rw [hof, force_one, putBits_one]
  omega

end

end Sys2Proof.Machine

namespace Sys2Proof.Machine

open Safety

/-! NHT_LOOKUP (R112, R129). -/

theorem nhtEcc_valid {k : Nat} (hk : k < 2 ^ 31) (d : Dev) : flag NHT_ECC_ADDR.VALID 0 0 (nhtEcc k d) = true := by
  unfold nhtEcc eccLatch
  generalize inc Pg.NHT 5 d = x
  change flag NHT_ECC_ADDR.VALID 0 0 (if rget NHT_ECC_ADDR.VALID 0 0 x ≠ 0 then x else _) = true
  split
  case isTrue h => exact bne_iff_ne.2 h
  case isFalse =>
    let v : FieldD := ⟨31, 1, .w1c, fun _ _ => 0⟩
    have hload : rget (v.fld .NHT_ECC_ADDR) 0 0 (loadImg .NHT_ECC_ADDR 0 0 (2 ^ 31 + k) x) = bits (2 ^ 31 + k) 31 31 :=
      rget_loadImg 0 0 (2 ^ 31 + k) List.mem_cons_self x
    have hone : bits (2 ^ 31 + k) 31 31 = 1 := by
      rw [bits, Nat.shiftRight_eq_div_pow]; omega
    rw [flag, rget_fire]
    change rget (v.fld .NHT_ECC_ADDR) 0 0 (hwdLog _ _ _ _ _ _) != 0
    rw [rget_hwdLog_ne (by decide +kernel), hload, hone]
    rfl

theorem bits_lt (x hi lo : Nat) : bits x hi lo < 2 ^ (hi + 1 - lo) := Nat.mod_lt _ (Nat.two_pow_pos _)

theorem nhtFinish_ecc {x cls k : Nat} {ecmp : Bool} {d : Dev} (h : nhtFinish x cls ecmp d = .ecc k) : k = x := by
  unfold nhtFinish at h
  split_ifs at h
  · exact (NhtOut.ecc.inj h).symm
  all_goals (dsimp only at h; split_ifs at h)

/-- The word that an NHT lookup finds damaged lies below 2^31: an entry, a group or a member. -/
theorem nhtResolve_ecc_lt {x hash cls k : Nat} {d : Dev} (hx : x < 2 ^ 21) (h : nhtResolve x hash cls d = .ecc k) : k < 2 ^ 31 := by
  unfold nhtResolve at h
  extract_lets e gi g rot y m mi at h
  have hgi : gi < 2 ^ 18 := bits_lt e 17 0
  have hy : y < 2 ^ 32 := Nat.mod_lt _ (by decide)
  have hcount : bits g 62 57 < 2 ^ 6 := bits_lt g 62 57
  have hbase : bits g 56 36 < 2 ^ 21 := bits_lt g 56 36
  have hm : y / 65536 * (bits g 62 57 + 1) < 2 ^ 16 * 2 ^ 6 + 1 := by
    have := Nat.mul_le_mul (show y / 65536 ≤ 2 ^ 16 by omega) (show bits g 62 57 + 1 ≤ 2 ^ 6 by omega)
    omega
  have hmi : mi < 2 ^ 22 := by show bits g 56 36 + y / 65536 * (bits g 62 57 + 1) / 65536 < 2 ^ 22; omega
  have hnext : bits (nhtAt 2 mi d) 20 0 < 2 ^ 21 := bits_lt _ 20 0
  split_ifs at h
  · cases h; omega
  · rw [nhtFinish_ecc h]; omega
  · cases h; omega
  · cases h; omega
  · rw [nhtFinish_ecc h]; omega

theorem nhtResolve_congr {d e : Dev} (h : e.tab = d.tab) (x hash cls : Nat) : nhtResolve x hash cls e = nhtResolve x hash cls d := by
  have hat (t i : Nat) : nhtAt t i e = nhtAt t i d := by rw [nhtAt, nhtAt, h]
  have hbad (t i : Nat) : nhtDamaged t i e = nhtDamaged t i d := by rw [nhtDamaged, nhtDamaged, h]
  have hend (x : Nat) (ecmp : Bool) : nhtFinish x cls ecmp e = nhtFinish x cls ecmp d := by simp only [nhtFinish, hat, hbad]
  simp only [nhtResolve, hat, hbad, hend]

/-- Pass n is ready in e, with the bytes of p. -/
def Readied (n : Nat) (p : Pass) (e : Dev) : Prop := ∃ q, getPass n e = some q ∧ q.stage = .ready ∧ q.bytes = p.bytes

theorem readied_setPass {n : Nat} {p q : Pass} (x : Dev) (hready : q.stage = .ready) (hbytes : q.bytes = p.bytes) : Readied n p (setPass n q x) :=
  ⟨q, find?_ins_same .., hready, hbytes⟩

section
variable {n : Nat} {p : Pass} {d : Dev} (hp : getPass n d = some p) (hegr : p.egress = false) (hstage : p.stage = .nht)
include hp hegr hstage

omit hp in
theorem nhtWaits : (p.egress || p.stage != .nht) = false := by rw [hegr, hstage]; rfl

/-- An NHT lookup leaves its pass ready whatever it finds. -/
theorem nhtLookup_readied : Readied n p (nhtLookup n d) := by
  unfold nhtLookup
  simp only [hp, nhtWaits hegr hstage, Bool.false_eq_true, if_false]
  split
  · exact readied_setPass d rfl rfl
  · split
    · exact readied_setPass d rfl rfl
    · split
      · exact readied_setPass d rfl rfl
      · split
        · split_ifs <;> exact readied_setPass _ rfl rfl
        · exact readied_setPass _ rfl rfl
        · exact readied_setPass _ rfl rfl

/-- The NHT lookup of a pass whose source is its LPM result. -/
theorem nhtLookup_lpm (hslot : nhtSlot p.bank p.prof d = some 0) (hen : blkEn Pg.NHT d = true)
    (hlpm : ∃ k < 6, rget (HDS_PROF.KIND p.bank k) 0 p.prof d = 1) :
    ∃ x, x.tab = d.tab ∧ nhtLookup n d = match nhtResolve (PX.LPM_NH.get p.pcx) (PX.HASH.get p.pcx) (PX.CLASS.get p.pcx) d with
      | .ok y qid => setPass n { (p.px PX.QID qid).px PX.LPM_NH y with stage := .ready } x
      | .mark code => setPass n { p.fault code with stage := .ready } (if code = 0x21 then inc Pg.NHT 2 x else inc Pg.NHT 3 x)
      | .ecc k => setPass n { p.fault 0x20 with stage := .ready } (nhtEcc k x) := by
  have hnamed : 0 < ((List.range 6).filter fun k => rget (HDS_PROF.KIND p.bank k) 0 p.prof d == 1).length := by
    obtain ⟨k, hk, hkind⟩ := hlpm
    exact List.length_pos_of_mem (List.mem_filter.2 ⟨List.mem_range.2 hk, beq_iff_eq.2 hkind⟩)
  let x0 := inc Pg.NHT 0 d
  let x := if bits (nhtAt 0 (PX.LPM_NH.get p.pcx) x0) 31 30 = 2 then inc Pg.NHT 1 x0 else x0
  have hx : Tallies d x := Tallies.of_ite ((inc_tallies ..).trans (inc_tallies ..)) (inc_tallies ..)
  have htab : x.tab = d.tab := by have h := congrArg Dev.tab hx.kept; exact h
  refine ⟨x, htab, ?_⟩
  unfold nhtLookup
  simp only [hp, nhtWaits hegr hstage, hslot, hnamed, hen, Bool.false_eq_true, if_false, if_true, decide_true, Bool.not_true]
  rw [← nhtResolve_congr htab] <;> rfl

end

theorem nhtLookup_does {n : Nat} {s : State} {d : Dev} {p : Pass} (hruns : Runs 32 s d) (hp : getPass n d = some p) (hegr : p.egress = false)
    (hstage : p.stage = .nht) : Does (.nhtLookup n) s fun e =>
      ∃ q, getPass n e = some q ∧ q.stage = .ready ∧ q.bytes = p.bytes ∧
        (nhtSlot p.bank p.prof d = some 0 → blkEn Pg.NHT d = true → (∃ k < 6, rget (HDS_PROF.KIND p.bank k) 0 p.prof d = 1) →
          let r := nhtResolve (PX.LPM_NH.get p.pcx) (PX.HASH.get p.pcx) (PX.CLASS.get p.pcx) d
          (∀ y qid, r = .ok y qid → PX.QID.get q.pcx = qid % 2 ^ 19 ∧ PX.LPM_NH.get q.pcx = y % 2 ^ 21) ∧
          (∀ code, r = .mark code → PX.DROP.get q.pcx = 1) ∧
          (∀ w, r = .ecc w → PX.DROP.get q.pcx = 1 ∧ flag NHT_ECC_ADDR.VALID 0 0 e = true)) := by
  refine act_does (f := nhtLookup n) rfl hruns fun e he => ?_
  simp only [getPass, he.head, flag, he.rget]
  obtain ⟨q, hq, hready, hbytes⟩ := nhtLookup_readied hp hegr hstage
  refine ⟨q, hq, hready, hbytes, fun hslot hen hlpm => ?_⟩
  obtain ⟨x, -, hrun⟩ := nhtLookup_lpm hp hegr hstage hslot hen hlpm
  have hdrop (code : Nat) : PX.DROP.get (p.fault code).pcx = 1 := (Span.get_set_ne (by decide) ..).trans (Span.get_set_same ..)
  rw [hrun] at hq
  refine ⟨fun y qid hr => ?_, fun code hr => ?_, fun w hr => ?_⟩
  · rw [hr] at hq
    obtain rfl : _ = q := Option.some.inj ((find?_ins_same ..).symm.trans hq)
    exact ⟨(Span.get_set_ne (by decide) ..).trans (Span.get_set_same ..), Span.get_set_same ..⟩
  · rw [hr] at hq
    obtain rfl : _ = q := Option.some.inj ((find?_ins_same ..).symm.trans hq)
    exact hdrop code
  · rw [hrun, hr]
    rw [hr] at hq
    obtain rfl : _ = q := Option.some.inj ((find?_ins_same ..).symm.trans hq)
    exact ⟨hdrop 0x20, nhtEcc_valid (nhtResolve_ecc_lt (bits_lt ..) hr) x⟩

end Sys2Proof.Machine

namespace Sys2Proof.Machine

open Safety

/-! LOOKUP_ISSUE: what the lookups of a pass move (R96, R112, R150). -/

/-- Pass q is p with its PCX moved, outside its BANK; beside that only side fields and counts have moved. -/
structure Looked (p : Pass) (d : Dev) (q : Pass) (e : Dev) : Prop where
  pass : { q with pcx := p.pcx } = p
  bank : PX.BANK.get q.pcx = PX.BANK.get p.pcx
  dev : Still (KeyIn sideFlds) d e

namespace Looked

variable {p q r : Pass} {d e f : Dev}

theorem of_still (h : Still (KeyIn sideFlds) d e) : Looked p d p e := ⟨rfl, rfl, h⟩

theorem trans (h : Looked p d q e) (k : Looked q e r f) : Looked p d r f :=
  ⟨(congrArg (fun x : Pass => { x with pcx := p.pcx }) k.pass).trans h.pass, k.bank.trans h.bank, h.dev.trans k.dev⟩

theorem still (h : Looked p d q e) (k : Still (KeyIn sideFlds) e f) : Looked p d q f := h.trans (of_still k)

theorem px (h : Looked p d q e) {g : Span} (hg : g.1 < 501) (v : Nat) : Looked p d (q.px g v) e :=
  h.trans ⟨rfl, Span.get_set_ne (.inr hg) .., Still.refl e⟩

theorem fault (h : Looked p d q e) (code : Nat) : Looked p d (q.fault code) e := (h.px (by decide) _).px (by decide) _

theorem bytes (h : Looked p d q e) : q.bytes = p.bytes := by have k := congrArg Pass.bytes h.pass; exact k
theorem prof (h : Looked p d q e) : q.prof = p.prof := by have k := congrArg Pass.prof h.pass; exact k
theorem egress (h : Looked p d q e) : q.egress = p.egress := by have k := congrArg Pass.egress h.pass; exact k
theorem ctx (h : Looked p d q e) : q.ctx = p.ctx := by have k := congrArg Pass.ctx h.pass; exact k
theorem keys (h : Looked p d q e) : q.keys = p.keys := by have k := congrArg Pass.keys h.pass; exact k
theorem passBank (h : Looked p d q e) : q.bank = p.bank := by rw [Pass.bank, Pass.bank, h.egress, h.ctx, h.bank]

end Looked

theorem lpmEcc_side (a : Nat) (d : Dev) : Still (KeyIn sideFlds) d (lpmEcc a d) := (Still.of_inc ..).trans (eccLatch_side (by decide) ..)

theorem xmEcc_side (s : Nat) (d : Dev) : Still (KeyIn sideFlds) d (xmEcc s d) := (Still.of_inc ..).trans (eccLatch_side (by decide) ..)

theorem xmPut_still {K : Nat → Prop} (s : Nat) (e : XmEnt) (d : Dev) : Still K d (xmPut s e d) := by
  unfold xmPut
  exact Still.of_ite (Still.of_onTab ..) (Still.of_onTab ..)

theorem tcamSearch_still {K : Nat → Prop} (b n key : Nat) (g : Group) (d : Dev) : Still K d (tcamSearch b n key g d).2 := by
  unfold tcamSearch
  extract_lets k r m multi d1 d2
  have h1 : Still K d d1 := Still.of_onSrch ..
  have h2 : Still K d d2 := Still.of_ite ((h1.trans (Still.of_incAt ..)).trans (Still.of_inc ..)) h1
  exact Still.of_ite h2 (h2.trans (Still.of_inc ..))

theorem setRepl_still {K : Nat → Prop} (r : Nat) (x : Replica) (d : Dev) : Still K d (setRepl r x d) := Still.of_onSrch ..

theorem burlReread_side (r w : Nat) (d : Dev) : Still (KeyIn sideFlds) d (burlReread r w d).2 := by
  unfold burlReread
  dsimp only
  split
  · dsimp only; exact (setRepl_still ..).trans (Still.of_inc ..)
  · exact ((Still.of_inc ..).trans (setRepl_still ..)).trans (eccLatch_side (by decide) ..)

theorem burlScan_side (h : Bytes) (r len : Nat) : ∀ (syms : List (List Nat)) (t set : Nat) (d : Dev), Still (KeyIn sideFlds) d (burlScan h r len syms t set d).2.2
  | [], _, _, d => Still.refl d
  | sym :: rest, t, set, d => by
    unfold burlScan
    extract_lets x sel w
    have hread : Still (KeyIn sideFlds) d (if (repl r d).bad.contains (w / 2) then burlReread r (w / 2) d else (true, d)).2 := by
      split
      · exact burlReread_side ..
      · exact Still.refl d
    split
    · exact Still.refl d
    · generalize (if (repl r d).bad.contains (w / 2) then burlReread r (w / 2) d else (true, d)) = y at hread ⊢
      obtain ⟨ok, e⟩ := y
      dsimp only at hread ⊢
      split
      · exact hread
      · exact hread.trans (burlScan_side h r len rest ..)

section
variable (p : Pass) (d : Dev)

theorem passLpm_looked (t : Nat) (key : Option Nat) : Looked p d (passLpm t key p d).1 (passLpm t key p d).2 := by
  have h := Looked.of_still (p := p) (Still.refl (K := KeyIn sideFlds) d)
  unfold passLpm
  cases key with
  | none => exact h.px (by decide) _
  | some k =>
    dsimp only
    have hinc := (h.px (g := PX.LPM_NH) (by decide) (lpmLookup t k d).2.1).still (Still.of_inc Pg.LPM t d)
    split
    · exact h.px (by decide) _
    · split
      · exact (hinc.still ((Still.of_draw _).trans (lpmEcc_side ..))).fault _
      · exact hinc.still (Still.of_ite (Still.of_inc ..) (Still.refl _))

theorem passTcam_looked (n : Nat) (key : Option Nat) : Looked p d (passTcam n key p d).1 (passTcam n key p d).2 := by
  have h := ((Looked.of_still (p := p) (Still.refl (K := KeyIn sideFlds) d)).px (g := PX.TCAM_VALID) (by decide) 0).px (g := PX.TCAM_IDX) (by decide) 0
  unfold passTcam
  generalize (p.px PX.TCAM_VALID 0).px PX.TCAM_IDX 0 = q at h ⊢
  cases key with
  | none => exact h
  | some k =>
    dsimp only
    split_ifs
    · exact h
    · dsimp only
      exact (h.still ((Still.of_inc ..).trans (Still.of_fire ..))).fault _
    · have hsearch := h.still ((Still.of_inc Pg.TCM 0 d).trans (tcamSearch_still q.bank n k (groupOf p.bank n d) _))
      split
      · dsimp only
        exact (hsearch.px (g := PX.TCAM_VALID) (by decide) _).px (g := PX.TCAM_IDX) (by decide) _
      · exact hsearch

theorem passXm_looked (i : Nat) (x : XmLook) : Looked p d (passXm i x p d).1 (passXm i x p d).2 := by
  have hres : (PX.XM_RES i).1 < 501 := by show 255 - 32 * i < 501; omega
  have h := Looked.of_still (p := p) (Still.refl (K := KeyIn sideFlds) d)
  unfold passXm
  extract_lets d1 port damaged found q d2 mask auto ev
  have h1 : Looked p d p d1 := h.still (Still.of_inc ..)
  have h2 : Looked p d q d2 := by
    have hq : Looked p d q d1 := by
      show Looked p d (if damaged.isSome then p.fault 0x20 else p) d1
      split
      · exact h1.fault _
      · exact h1
    refine hq.still ?_
    show Still _ d1 (match damaged with | some s => xmEcc s d1 | none => d1)
    cases damaged with
    | none => exact Still.refl d1
    | some s => exact xmEcc_side s d1
  split
  · exact h.px hres _
  · cases found with
    | none => exact (h2.still (Still.of_ite (learnRaise_still ..) (Still.refl d2))).px hres _
    | some se =>
      have hit (e : XmEnt) := (Still.of_inc (K := KeyIn sideFlds) Pg.XM 1 d2).trans
        (Still.of_ite (p := i = 0 ∨ (!flag XM_TBLn_LRN.HIT_FIRST 0 x.tbl (inc Pg.XM 1 d2)) = true) (xmPut_still se.1 { e with hit := true } _) (Still.refl _))
      exact (h2.still ((hit se.2).trans (Still.of_ite (learnRaise_still ..) (Still.refl _)))).px hres _

theorem passBurl_looked (corr : Nat) : Looked p d (passBurl corr p d).1 (passBurl corr p d).2 := by
  have h := (Looked.of_still (p := p) (Still.refl (K := KeyIn sideFlds) d)).px (g := PX.BURL_SET) (by decide) 0
  unfold passBurl
  extract_lets b q next win
  split
  · exact h
  · split
    case h_1 hd r0 rs _ _ =>
      extract_lets r d1 len d2
      have h2 : Looked p d q d2 := ((h.still (Still.of_onSrch _ d)).still (Still.of_inc ..)).still (Still.of_incBy ..)
      have hscan := burlScan_side hd r len (burlSyms hd 16 win) (beAt hd 0x0C 4) 0 d2
      generalize burlScan hd r len (burlSyms hd 16 win) (beAt hd 0x0C 4) 0 d2 = y at hscan ⊢
      obtain ⟨set, stop, x⟩ := y
      have hset := (h2.px (g := PX.BURL_SET) (by decide) set).still (hscan.trans (Still.of_ite (p := set = 0) (Still.refl x) (Still.of_inc Pg.BRL 1 x)))
      cases stop with
      | whole => exact hset
      | image => dsimp only; exact (hset.still ((Still.of_inc ..).trans (Still.of_fire ..))).fault _
      | ecc => dsimp only; exact hset.fault _
    case h_2 => exact h

end

theorem passSlot_looked (corr k : Nat) (st : Nat × Pass × Dev) : Looked st.2.1 st.2.2 (passSlot corr k st).2.1 (passSlot corr k st).2.2 := by
  obtain ⟨i, p, d⟩ := st
  unfold passSlot
  dsimp only
  split
  · exact passLpm_looked p d ..
  · split
    · exact passXm_looked p d ..
    · exact Looked.of_still (Still.refl d)
  · exact passTcam_looked p d ..
  · exact passBurl_looked p d ..
  · exact Looked.of_still (Still.refl d)

theorem slots_looked (corr : Nat) : ∀ (l : List Nat) (st : Nat × Pass × Dev),
    Looked st.2.1 st.2.2 (l.foldl (fun st k => passSlot corr k st) st).2.1 (l.foldl (fun st k => passSlot corr k st) st).2.2
  | [], _ => Looked.of_still (Still.refl _)
  | k :: l, st => (passSlot_looked corr k st).trans (slots_looked corr l (passSlot corr k st))

theorem Still.nhtSlot {d e : Dev} (h : Still (KeyIn sideFlds) d e) (b prof : Nat) : (nhtSlot b prof e).isSome = (nhtSlot b prof d).isSome := by
  simp only [Machine.nhtSlot, Option.isSome_map, h.kind]

end Sys2Proof.Machine

namespace Sys2Proof.Machine

open Safety

/-! LOOKUP_ISSUE (R96, R112, R115, R150). -/

/-- Only counts, overruns and events have moved: every field and every table read as before. -/
structure Waited (d e : Dev) : Prop where
  still : Still (fun _ => False) d e
  tab : e.tab = d.tab
  freeCtr : e.freeCtr = d.freeCtr

theorem Waited.trans {a b c : Dev} (h : Waited a b) (k : Waited b c) : Waited a c :=
  ⟨h.still.trans k.still, k.tab.trans h.tab, k.freeCtr.trans h.freeCtr⟩

theorem inc_waited (p k : Nat) (d : Dev) : Waited d (inc p k d) where
  still := Still.of_inc ..
  tab := by have h := congrArg Dev.tab (inc_tallies p k d).kept; exact h
  freeCtr := by have h := congrArg Dev.freeCtr (inc_tallies p k d).kept; exact h

theorem overrun_waited (p : Nat) (d : Dev) : Waited d (overrun p d) where
  still := Still.of_overrun ..
  tab := (overrun_beside p d).tab
  freeCtr := (overrun_beside p d).freeCtr

/-- The device once the waits for a TCAM replica and for the Burl are counted (R150). -/
def waitsCounted (tw bw : Bool) (d : Dev) : Dev :=
  let d := if tw then overrun Pg.TCM (inc Pg.TCM 4 d) else d
  if bw then overrun Pg.BRL (inc Pg.BRL 6 d) else d

theorem waitsCounted_waited (tw bw : Bool) (d : Dev) : Waited d (waitsCounted tw bw d) := by
  have one (p k : Nat) (b : Bool) (d : Dev) : Waited d (if b then overrun p (inc p k d) else d) := by
    cases b
    · exact ⟨Still.refl d, rfl, rfl⟩
    · exact (inc_waited ..).trans (overrun_waited ..)
  exact (one Pg.TCM 4 tw d).trans (one Pg.BRL 6 bw _)

/-- A pass with the result fields of its lookups cleared. -/
def Pass.cleared (p : Pass) : Pass :=
  let p := (p.px PX.LPM_NH 0).px (PX.XM_RES 0) 0
  let p := ((p.px (PX.XM_RES 1) 0).px PX.TCAM_VALID 0).px PX.TCAM_IDX 0
  p.px PX.BURL_SET 0

/-- The lookups of pass p, slot by slot; irreducible, for no proof should evaluate the six slots. -/
@[irreducible] def slotsRun (corr : Nat) (p : Pass) (d : Dev) : Nat × Pass × Dev := (List.range 6).foldl (fun st k => passSlot corr k st) (0, p, d)

theorem slotsRun_looked (corr : Nat) (p : Pass) (d : Dev) : Looked p d (slotsRun corr p d).2.1 (slotsRun corr p d).2.2 := by
  rw [slotsRun]
  exact slots_looked corr (List.range 6) (0, p, d)

theorem cleared_looked {p : Pass} {d e : Dev} (h : Still (KeyIn sideFlds) d e) : Looked p d p.cleared e :=
  ((((((Looked.of_still h).px (g := PX.LPM_NH) (by decide) 0).px (g := PX.XM_RES 0) (by decide) 0).px (g := PX.XM_RES 1) (by decide) 0).px
    (g := PX.TCAM_VALID) (by decide) 0).px (g := PX.TCAM_IDX) (by decide) 0).px (g := PX.BURL_SET) (by decide) 0

theorem longest_congr {d e : Dev} (h : e.tab = d.tab) (t key : Nat) : ∀ n, longest t key e n = longest t key d n
  | 0 => by rw [longest, longest, h]
  | n + 1 => by rw [longest, longest, h, longest_congr h t key n]

theorem lpmLookup_congr {d e : Dev} (h : Waited d e) (t key : Nat) : lpmLookup t key e = lpmLookup t key d := by
  have hmiss : rget LPM_MISS_NHt.NH 0 t e = rget LPM_MISS_NHt.NH 0 t d := h.still.rget not_false
  have hlong := longest_congr h.tab t
  have hwalk : lpmWalk t key e = lpmWalk t key d := by simp only [lpmWalk, h.tab, h.freeCtr]
  simp only [lpmLookup, hmiss, hlong, hwalk]

/-- A walk that meets no damaged word answers without a fault mark. -/
theorem lpmLookup_clean {t key : Nat} {d : Dev} (h : lpmDamaged t key d = false) : (lpmLookup t key d).2.2 = none := by
  unfold lpmLookup
  dsimp only
  split
  case h_1 a hwalk => simp [lpmDamaged, hwalk] at h
  case h_2 => split <;> rfl

theorem passLpm_stores {t key : Nat} {p : Pass} {d : Dev} (hen : blkEn Pg.LPM d = true) (hclean : (lpmLookup t key d).2.2 = none) :
    (passLpm t (some key) p d).1 = p.px PX.LPM_NH (lpmLookup t key d).2.1 := by
  simp only [passLpm, hen, hclean, Bool.not_true, Bool.false_eq_true, if_false]

theorem passSlot_empty {corr k i : Nat} {p : Pass} {d : Dev} (h : rget (HDS_PROF.KIND p.bank k) 0 p.prof d = 0) : passSlot corr k (i, p, d) = (i, p, d) := by
  simp only [passSlot, h]

theorem passSlot_lpm {corr k i : Nat} {p : Pass} {d : Dev} (h : rget (HDS_PROF.KIND p.bank k) 0 p.prof d = 1) :
    passSlot corr k (i, p, d) = (i, passLpm (rget (HDS_PROF.ARG p.bank k) 0 p.prof d % 2) (p.keys.getD k none) p d) := by
  simp only [passSlot, h]

/-- A profile whose only slot is an LPM lookup runs that lookup alone. -/
theorem slotsRun_lpm {corr : Nat} {p : Pass} {d : Dev} (hone : rget (HDS_PROF.KIND p.bank 0) 0 p.prof d = 1)
    (hrest : ∀ j < 6, j ≠ 0 → rget (HDS_PROF.KIND p.bank j) 0 p.prof d = 0) :
    (slotsRun corr p d).2 = passLpm (rget (HDS_PROF.ARG p.bank 0) 0 p.prof d % 2) (p.keys.getD 0 none) p d := by
  have hrange : List.range 6 = 0 :: [1, 2, 3, 4, 5] := rfl
  rw [slotsRun, hrange, List.foldl_cons, passSlot_lpm hone]
  have hlook := passLpm_looked p d (rget (HDS_PROF.ARG p.bank 0) 0 p.prof d % 2) (p.keys.getD 0 none)
  generalize passLpm (rget (HDS_PROF.ARG p.bank 0) 0 p.prof d % 2) (p.keys.getD 0 none) p d = y at hlook ⊢
  obtain ⟨q, e⟩ := y
  have hself : [1, 2, 3, 4, 5].foldl (fun st k => passSlot corr k st) (0, q, e) = (0, q, e) := foldl_eq_self fun k hk => passSlot_empty (by
    have hk6 : k < 6 ∧ k ≠ 0 := by simp only [List.mem_cons, List.not_mem_nil, or_false] at hk; omega
    rw [hlook.passBank, hlook.prof, hlook.dev.kind]
    exact hrest k hk6.1 hk6.2)
  rw [hself]

section
variable {n : Nat} {p : Pass} {d : Dev} {tw bw : Bool} {corr : Nat}

theorem lookupIssue_runs (hp : getPass n d = some p) (hegr : p.egress = false) (hstage : p.stage = .parsed) :
    lookupIssue n tw bw corr d =
      (let st := slotsRun corr p.cleared (waitsCounted tw bw d)
       setPass n { st.2.1 with stage := if (nhtSlot st.2.1.bank st.2.1.prof st.2.2).isSome then .nht else .ready } st.2.2) := by
  have hgo : (p.egress || p.stage != .parsed) = false := by rw [hegr, hstage]; rfl
  simp only [lookupIssue, slotsRun, waitsCounted, Pass.cleared, hp, hgo, Bool.false_eq_true, if_false]

theorem lookupIssue_does {s : State} (hruns : Runs 32 s d) (hp : getPass n d = some p) (hegr : p.egress = false) (hstage : p.stage = .parsed)
    (corr : Fin 17) : Does (.lookupIssue n tw bw corr) s fun e =>
      ∃ q, getPass n e = some q ∧ q.bytes = p.bytes ∧ q.prof = p.prof ∧
        q.stage = (if (nhtSlot p.bank p.prof d).isSome then .nht else .ready) ∧
        (∀ key, p.keys = [some key] → rget (HDS_PROF.KIND p.bank 0) 0 p.prof d = 1 →
          (∀ j < 6, j ≠ 0 → rget (HDS_PROF.KIND p.bank j) 0 p.prof d = 0) → blkEn Pg.LPM d = true →
          let t := rget (HDS_PROF.ARG p.bank 0) 0 p.prof d % 2
          lpmDamaged t key d = false → PX.LPM_NH.get q.pcx = (lpmLookup t key d).2.1 % 2 ^ 21) := by
  have hwait := waitsCounted_waited tw bw d
  have hclear := cleared_looked (p := p) (hwait.still.mono fun _ h => h.elim)
  have hlook : Looked p d (slotsRun corr p.cleared (waitsCounted tw bw d)).2.1 (slotsRun corr p.cleared (waitsCounted tw bw d)).2.2 :=
    hclear.trans (slotsRun_looked ..)
  refine act_does (f := lookupIssue n tw bw corr) rfl hruns fun e he => ?_
  rw [getPass, he.head, lookupIssue_runs hp hegr hstage]
  refine ⟨_, find?_ins_same .., hlook.bytes, hlook.prof, ?_, ?_⟩
  · show (if (nhtSlot _ _ _).isSome then Stage.nht else Stage.ready) = _
    rw [hlook.passBank, hlook.prof, hlook.dev.nhtSlot]
  · intro key hkeys hone hrest hen t hclean
    have hkind (k : Nat) : rget (HDS_PROF.KIND p.cleared.bank k) 0 p.cleared.prof (waitsCounted tw bw d) = rget (HDS_PROF.KIND p.bank k) 0 p.prof d := by
      rw [hclear.passBank, hclear.prof, hwait.still.rget not_false]
    have harg : rget (HDS_PROF.ARG p.cleared.bank 0) 0 p.cleared.prof (waitsCounted tw bw d) % 2 = t := by
      rw [hclear.passBank, hclear.prof, hwait.still.rget not_false]
    show PX.LPM_NH.get (slotsRun corr p.cleared (waitsCounted tw bw d)).2.1.pcx = _
    rw [slotsRun_lpm ((hkind 0).trans hone) fun j hj hne => (hkind j).trans (hrest j hj hne), harg, hclear.keys, hkeys]
    have hgo := passLpm_stores (t := t) (key := key) (p := p.cleared) (d := waitsCounted tw bw d) ((hwait.still.blkEn _).trans hen)
      (by rw [lpmLookup_congr hwait, lpmLookup_clean hclean])
    rw [show [some key].getD 0 none = some key from rfl, hgo, lpmLookup_congr hwait]
    exact Span.get_set_same ..

end

end Sys2Proof.Machine

namespace Sys2Proof.Machine

open Safety

/-! The clauses of the profiles' and templates' commits (R95, R106, R109, R111). -/

section
variable {req : Requester} {w : BitVec 32} {s : State} {d : Dev} {img : Nat}

theorem profileCommit_stores {b : Fin 2} {i : Fin 64} (hcom : Commits req (if b.val = 0 then .HDS_PROFA else .HDS_PROFB) 0 i.val w.toNat s d img)
    (hcount : bits (wordOf img 7) 29 27 ≠ 7) :
    let r : Reg := if b.val = 0 then .HDS_PROFA else .HDS_PROFB
    let c : Instr := .profileCommit req b i w
    let wide := (List.range 6).any fun k => slotTooWide (fun t => regImg (tmplReg b.val) 0 t d) (wordOf img k)
    (bankBusy b.val d = true → Writes req c s (errAt Err.EPOCH_BUSY r 0 i.val d)) ∧
    (bankBusy b.val d = false → profBad img = true → Writes req c s (errAt Err.BAD_ARG r 0 i.val d)) ∧
    (bankBusy b.val d = false → profBad img = false → wide = true → Writes req c s (errAt 0x20 r 0 i.val d)) ∧
    (bankBusy b.val d = false → profBad img = false → wide = false →
      let x := storeFields false r 0 i.val img d
      Writes req c s { x with head := { x.head with badWords := x.head.badWords.filter (· != 256 * b.val + i.val) } }) := by
  intro r c wide
  have h := profileCommit_writes hcom
  rw [profileWrite_eq hcount] at h
  refine ⟨fun hbusy => ?_, fun hbusy hbad => ?_, fun hbusy hbad hwide => ?_, fun hbusy hbad hwide => ?_⟩
  · rwa [if_pos hbusy] at h
  · rwa [if_neg (Bool.eq_false_iff.1 hbusy), if_pos hbad] at h
  · rwa [if_neg (Bool.eq_false_iff.1 hbusy), if_neg (Bool.eq_false_iff.1 hbad), if_pos hwide] at h
  · rwa [if_neg (Bool.eq_false_iff.1 hbusy), if_neg (Bool.eq_false_iff.1 hbad), if_neg (Bool.eq_false_iff.1 hwide)] at h

theorem templateCommit_stores {b : Fin 2} {t : Fin 64} (hcom : Commits req (if b.val = 0 then .HDS_TMPLA else .HDS_TMPLB) 0 t.val w.toNat s d img) :
    let r : Reg := if b.val = 0 then .HDS_TMPLA else .HDS_TMPLB
    let c : Instr := .templateCommit req b t w
    let bad := ((List.range 16).map fun k => wordOf img k).any fun w => decide (11 ≤ bits w 31 28) || decide (128 < bits w 15 8)
    (bankBusy b.val d = true → Writes req c s (errAt Err.EPOCH_BUSY r 0 t.val d)) ∧
    (bankBusy b.val d = false → bad = true → Writes req c s (errAt Err.BAD_ARG r 0 t.val d)) ∧
    (bankBusy b.val d = false → bad = false → (∀ i < 64, flag (HDS_PROF.VALID b.val) 0 i d = false) →
      let x := storeFields false r 0 t.val img d
      Writes req c s { x with head := { x.head with badWords := x.head.badWords.filter (· != 256 * b.val + 128 + t.val) } }) := by
  intro r c bad
  have h := templateCommit_writes hcom
  refine ⟨fun hbusy => ?_, fun hbusy hbad => ?_, fun hbusy hbad hnone => ?_⟩
  · rwa [templateWrite, if_pos hbusy] at h
  · rwa [templateWrite, if_neg (Bool.eq_false_iff.1 hbusy), if_pos hbad] at h
  · rwa [templateWrite_eq hnone, if_neg (Bool.eq_false_iff.1 hbusy), if_neg (Bool.eq_false_iff.1 hbad)] at h

theorem deepParseWrite_stores {k : Fin 16} (hcom : Commits req .HDS_DPk_CFG 0 k.val w.toNat s d img) :
    let port := HDS_DPk_CFG.PORT.of img
    let en (n : Nat) : Prop := n < 128 ∧ flag LPG_PORTn_CFG.EN (n / 4) (n % 4) d = true
    (¬en port → ¬en (rget HDS_DPk_CFG.PORT 0 k.val d) →
      (HDS_DPk_CFG.VALID.on img = true → port < 128 ∧
        ∀ j < 16, j ≠ k.val → flag HDS_DPk_CFG.VALID 0 j d = true → rget HDS_DPk_CFG.PORT 0 j d ≠ port) →
      Writes req (.deepParseWrite req k w) s (storeFields false .HDS_DPk_CFG 0 k.val img d)) ∧
    (en port ∨ en (rget HDS_DPk_CFG.PORT 0 k.val d) →
      Writes req (.deepParseWrite req k w) s (errAt Err.BAD_ARG .HDS_DPk_CFG 0 k.val d)) := by
  intro port en
  have h := deepParseWrite_writes hcom
  have hen (n : Nat) : (decide (n < 128) && flag LPG_PORTn_CFG.EN (n / 4) (n % 4) d) = true ↔ en n := by simp [en]
  refine ⟨fun hport hold hvalid => ?_, fun hon => ?_⟩
  · rwa [dpWrite, if_neg] at h
    simp only [Bool.or_eq_true, hen, Bool.and_eq_true, decide_eq_true_eq, List.any_eq_true, List.mem_range, bne_iff_ne, beq_iff_eq]
    rintro ((hn | hn) | ⟨hv, hfar | ⟨j, hj, ⟨hne, hjv⟩, hsame⟩⟩)
    · exact hport hn
    · exact hold hn
    · exact Nat.not_le.2 (hvalid hv).1 hfar
    · exact (hvalid hv).2 j hj hne hjv hsame
  · rwa [dpWrite, if_pos] at h
    simp only [Bool.or_eq_true, hen]
    exact .inl hon

theorem hdsTraceArm_stores (hcom : Commits req .HDS_TRACE_CTRL 0 0 (force w [(31, 31, 1)]) s d img) :
    (expertOf Pg.HDS d = true → Writes req (.hdsTraceArm req w) s
      (rset HDS_TRACE_CTRL.PORT 0 0 (HDS_TRACE_CTRL.PORT.of img) (rset HDS_TRACE_CTRL.ARM 0 0 1 d))) ∧
    (expertOf Pg.HDS d = false → Writes req (.hdsTraceArm req w) s (errAt Err.EXPERT_LOCKED .HDS_TRACE_CTRL 0 0 d)) := by
  have h := hdsTraceArm_writes hcom
  have harm : HDS_TRACE_CTRL.ARM.of img = 1 := by rw [img_eq_of_one_word hcom rfl, arm_of_force]
  refine ⟨fun hexp => ?_, fun hexp => ?_⟩
  · rwa [hdsTraceWrite, if_pos hexp, traceCtrl_stores harm] at h
  · rwa [hdsTraceWrite, if_neg (Bool.eq_false_iff.1 hexp)] at h

end

theorem burlReread_leaves {r : Fin 24} {w : BitVec 16} {s : State} {d : Dev} {q : Nat} (hruns : Runs 32 s d)
    (hstate : replState r.val d = 2 ∨ replState r.val d = 3)
    (hq : (verified (replBank r.val d) d).find? (fun q => q != r.val && !(repl q d).bad.contains w.toNat) = some q) :
    let x := repl r.val d
    Leaves (.burlReread r w) s (inc Pg.BRL 3 (setRepl r.val
      { x with mem := put x.mem w.toNat 0 (look (repl q d).mem w.toNat 0), bad := x.bad.filter (· != w.toNat) } d)) :=
  act_leaves (f := burlFault r.val w.toNat) rfl hruns ((if_pos hstate).trans (burlReread_repairs hq))

/-- Settles O10: each clause is the lemma of its instruction. -/
theorem passesAndProfiles : Obligations.PassesAndProfiles :=
  ⟨fun _ _ _ _ _ _ _ hruns hen hopen hslot hfifo hport hbank hsrc => parseStart_does hruns hen hopen hslot hfifo hport hbank hsrc,
    fun _ _ _ corr _ _ _ hruns hp hegr hstage => lookupIssue_does hruns hp hegr hstage corr,
    fun _ _ _ _ hruns hp hegr hstage => nhtLookup_does hruns hp hegr hstage,
    fun _ _ _ _ _ hruns hp hready hqueue hheld hpick =>
      ⟨fun hegr => engineDispatch_starts hruns hp hready (dispatchFull_eq_false hqueue hheld) hpick hegr,
        fun hegr hby => engineDispatch_binds hruns hp hready (dispatchFull_eq_false hqueue hheld) hpick hegr hby⟩,
    fun _ _ _ _ _ hruns hstate hq => burlReread_leaves hruns hstate hq,
    fun _ _ _ _ _ _ _ hcom hcount => profileCommit_stores hcom hcount,
    fun _ _ _ _ _ _ _ hcom => templateCommit_stores hcom,
    fun _ _ _ _ _ _ hcom => deepParseWrite_stores hcom,
    fun _ _ _ _ _ hcom => hdsTraceArm_stores hcom⟩

end Sys2Proof.Machine

/-! The prefix tables and the next-hop table (R115 to R121, R128, R133, R135, R144). -/

namespace Sys2Proof.Machine

open Safety

/-- A device with empty tables whose staging copy of LPM_CMD holds 2^252 as its lowest word. -/
def insertStaged : State :=
  { dev := { sys := { porPin := false, chipHold := false }, faces := [(Pg.LPM, { Face.reset Pg.LPM with ready := true })],
             staged := [(stageKey .pcie Pg.LPM, { base := Reg.ofs .LPM_CMD 0 0, words := [(0, 2 ^ 252)] })] }, pending := [] }

/-- Refutes O11. The statement lets a staged word be any number. A lowest word of 2^252 carries into the image's OP, so that the INSERT
of the empty prefix of trie 0, which nothing refuses, runs as an UPDATE of an absent prefix and stores nothing. -/
theorem not_prefixTableCommands : ¬ Obligations.PrefixTableCommands := by
  rintro ⟨hlpm, -⟩
  obtain ⟨hinsert, -⟩ := hlpm .pcie 0 insertStaged _ _ 0 (by decide) ⟨⟨rfl, rfl⟩, by decide +kernel, rfl, rfl⟩
  obtain ⟨t, ht, -, hstored, -⟩ := hinsert rfl (by decide +kernel) (by decide +kernel) (by decide +kernel) (by decide +kernel)
  have hrun : t = { insertStaged with dev := settle insertStaged.dev (cmd .pcie .LPM_CMD 0 0 (go 0 30 28 0) insertStaged.dev) } :=
    (Host.Outcome.next.inj ht).symm
  have hempty : t.dev.tab.lpm = [] := by
    rw [hrun, settle_tab]; decide +kernel
  simp [hempty] at hstored

end Sys2Proof.Machine

/-! The records of the fabric: credits (R312, R381, R382). -/

namespace Sys2Proof.Machine

open Safety

/-! What counters, events and errors leave alone: the messages that wait, BLK_EN and the controllers' own state. -/

@[simp] theorem inc_ctlQ (p k : Nat) (d : Dev) : (inc p k d).ctlQ = d.ctlQ := by
  have h := congrArg Dev.ctlQ (inc_tallies p k d).kept; exact h
@[simp] theorem fire_ctlQ (p n : Nat) (d : Dev) : (fire p n d).ctlQ = d.ctlQ := (fire_beside p n d).ctlQ
@[simp] theorem inc_epc (p k : Nat) (d : Dev) : (inc p k d).epc = d.epc := by
  have h := congrArg Dev.epc (inc_tallies p k d).kept; exact h
@[simp] theorem fire_epc (p n : Nat) (d : Dev) : (fire p n d).epc = d.epc := (fire_beside p n d).epc
@[simp] theorem blkEn_fire (q p n : Nat) (d : Dev) : blkEn q (fire p n d) = blkEn q d := (Still.of_fire (K := fun _ => True) p n d).blkEn q

/-- A message waits for its cell while the FCT block is enabled. -/
theorem sendCtl_ctlQ {d : Dev} (h : blkEn Pg.FCT d = true) (dst : Option Nat) (kind r : Nat) :
    (sendCtl dst kind r d).ctlQ = d.ctlQ ++ [{ dst := dst, kind := kind, rec_ := r }] :=
  congrArg Dev.ctlQ (if_pos h)

@[simp] theorem rget_sendCtl (f : Fld) (g i : Nat) (dst : Option Nat) (kind r : Nat) (d : Dev) :
    rget f g i (sendCtl dst kind r d) = rget f g i d := by
  unfold sendCtl
  split <;> rfl
@[simp] theorem sendCtl_epc (dst : Option Nat) (kind r : Nat) (d : Dev) : (sendCtl dst kind r d).epc = d.epc := by
  unfold sendCtl
  split <;> rfl
@[simp] theorem sendCtl_spn (dst : Option Nat) (kind r : Nat) (d : Dev) : (sendCtl dst kind r d).spn = d.spn := by
  unfold sendCtl
  split <;> rfl

/-! Credit requests and grants. -/

section
variable {port cls dev seq : Nat} {d : Dev}

theorem creditReq_kept (h : (look d.tm.reqs ((port * 16 + cls) * 64 + dev) {}).seen = false ∨
      later16 seq (look d.tm.reqs ((port * 16 + cls) * 64 + dev) {}).seq = true) (on : Bool) :
    creditReq port cls dev on seq d =
      { d with tm := { d.tm with reqs := put d.tm.reqs ((port * 16 + cls) * 64 + dev) {} { on := on, seq := seq, seen := true } } } := by
  refine if_neg ?_
  rcases h with h | h <;> simp [h]

theorem creditReq_stays (hseen : (look d.tm.reqs ((port * 16 + cls) * 64 + dev) {}).seen = true)
    (hlater : later16 seq (look d.tm.reqs ((port * 16 + cls) * 64 + dev) {}).seq = false) (on : Bool) : creditReq port cls dev on seq d = d :=
  if_pos (by simp [hseen, hlater])

/-- CREDIT_REQ_ON and CREDIT_REQ_OFF: a request that is the first or a later one takes the place of the kept one (R312, R382). -/
theorem creditReq_leaves {on : Bool} {c : Instr} {s : State} (hc : exec c s = run (act 102 (creditReq port cls dev on seq)) s) (hruns : Runs 102 s d) :
    let r := look d.tm.reqs ((port * 16 + cls) * 64 + dev) {}
    (r.seen = false ∨ later16 seq r.seq = true → Leaves c s
      { d with tm := { d.tm with reqs := put d.tm.reqs ((port * 16 + cls) * 64 + dev) {} { on := on, seq := seq, seen := true } } }) ∧
    (r.seen = true → later16 seq r.seq = false → Leaves c s d) :=
  ⟨fun h => act_leaves hc hruns (creditReq_kept h on), fun hseen hlater => act_leaves hc hruns (creditReq_stays hseen hlater on)⟩

end

/-- Device e holds queue q's balance and packets and every counter as d does. -/
structure SameCredit (q : Nat) (d e : Dev) : Prop where
  bal : (queue q e).bal = (queue q d).bal
  pkts : (queue q e).pkts = (queue q d).pkts
  ctrs : e.ctrs = d.ctrs

theorem queue_setQueue_same (q : Nat) (x : Queue) (d : Dev) : queue q (setQueue q x d) = x := look_put_same ..

theorem creditReq_same (q port cls dev : Nat) (on : Bool) (seq : Nat) (d : Dev) : SameCredit q d (creditReq port cls dev on seq d) := by
  unfold creditReq
  dsimp only
  split <;> exact ⟨rfl, rfl, rfl⟩

theorem sendCtl_same (q : Nat) (dst : Option Nat) (kind r : Nat) (d : Dev) : SameCredit q d (sendCtl dst kind r d) := by
  unfold sendCtl
  split <;> exact ⟨rfl, rfl, rfl⟩

theorem SameCredit.trans {q : Nat} {a b c : Dev} (h : SameCredit q a b) (k : SameCredit q b c) : SameCredit q a c :=
  ⟨k.bal.trans h.bal, k.pkts.trans h.pkts, k.ctrs.trans h.ctrs⟩

/-- A request that a VOQ sends moves neither its balance nor its packets. -/
theorem sendReq_same (q : Nat) (on : Bool) (d : Dev) : SameCredit q d (sendReq q on d) := by
  have hset (x : Queue) (hbal : x.bal = (queue q d).bal) (hpkts : x.pkts = (queue q d).pkts) : SameCredit q d (setQueue q x d) :=
    ⟨by rw [queue_setQueue_same, hbal], by rw [queue_setQueue_same, hpkts], rfl⟩
  unfold sendReq
  extract_lets x seq e
  have he : SameCredit q d e := hset _ rfl rfl
  split
  · exact he.trans (creditReq_same ..)
  · exact he.trans (sendCtl_same ..)

theorem reqCheck_same (q : Nat) (d : Dev) : SameCredit q d (reqCheck q d) := by
  unfold reqCheck
  extract_lets x
  split
  · exact sendReq_same ..
  · exact ⟨rfl, rfl, rfl⟩

theorem ctr_incBy_same (p k n : Nat) (d : Dev) : ctr p (0x1000 + 8 * k) (incBy p k n d) = (ctr p (0x1000 + 8 * k) d + n) % 2 ^ 64 := by
  have hperf (sel edge level : Nat) (d : Dev) : (perfCount p sel edge level d).ctrs = d.ctrs := by
    unfold perfCount
    dsimp only
    split <;> rfl
  unfold incBy
  extract_lets e
  have he : ctr p (0x1000 + 8 * k) e = (ctr p (0x1000 + 8 * k) d + n) % 2 ^ 64 := ctr_incAt_same ..
  split
  · rw [ctr, hperf]; exact he
  · exact he

@[simp] theorem incBy_tm (p k n : Nat) (d : Dev) : (incBy p k n d).tm = d.tm := by
  have h := congrArg Dev.tm (incBy_tallies p k n d).kept; exact h

/-- CREDIT_GRANT adds n credits to the VOQ's balance, and counts them (R312, R381). -/
theorem creditGrant_does {q : BitVec 17} {n : BitVec 4} {s : State} {d : Dev} (hruns : Runs 102 s d) :
    Does (.creditGrant q n) s fun e =>
      (queue q.toNat e).bal = (queue q.toNat d).bal + n.toNat * creditBytes d ∧ (queue q.toNat e).pkts = (queue q.toNat d).pkts ∧
      ctr Pg.TMS 0x1050 e = (ctr Pg.TMS 0x1050 d + n.toNat) % 2 ^ 64 := by
  refine act_does (f := creditGrant q.toNat n.toNat) rfl hruns fun e he => ?_
  have hsame := reqCheck_same q.toNat
    (incBy Pg.TMS 10 n.toNat (modQueue q.toNat (fun x => { x with bal := x.bal + n.toNat * creditBytes d, reqAt := d.mono }) d))
  have hqueue (x : Dev) : queue q.toNat (incBy Pg.TMS 10 n.toNat x) = queue q.toNat x := by rw [queue, incBy_tm]; rfl
  refine ⟨?_, ?_, ?_⟩
  · rw [queue, he.tm]
    exact hsame.bal.trans (by rw [hqueue, modQueue, queue_setQueue_same])
  · rw [queue, he.tm]
    exact hsame.pkts.trans (by rw [hqueue, modQueue, queue_setQueue_same])
  · rw [he.counts _ _ (by decide) (by decide) (by decide), ctr, creditGrant, hsame.ctrs]
    exact ctr_incBy_same Pg.TMS 10 n.toNat _

end Sys2Proof.Machine

/-! The records of the fabric: learning and aging (R141, R383 to R385). -/

namespace Sys2Proof.Machine

open Safety

/-! A learning record and its fields (R383). -/

theorem learnNum_op {op : Nat} (h : op < 16) (r : LearnRec) : bits (learnNum op r) 255 252 = op := by
  simp only [bits, learnNum, learnRec, Nat.shiftRight_eq_div_pow]
  omega

theorem recEv_learnNum (op : Nat) (r : LearnRec) : recEv (learnNum op r) =
    { tbl := r.table.val, key := r.key.toNat, dev := r.dev.toNat, port := r.port.toNat, time := r.time.toNat } := by
  simp only [recEv, bits, learnNum, learnRec, Nat.shiftRight_eq_div_pow, LrnEv.mk.injEq]
  omega

/-- The fields that a record shares with its event. -/
theorem learnNum_tbl (op : Nat) (r : LearnRec) : bits (learnNum op r) 251 249 = r.table.val := congrArg LrnEv.tbl (recEv_learnNum op r)
theorem learnNum_key (op : Nat) (r : LearnRec) : bits (learnNum op r) 159 0 = r.key.toNat := congrArg LrnEv.key (recEv_learnNum op r)
theorem learnNum_dev (op : Nat) (r : LearnRec) : bits (learnNum op r) 248 243 = r.dev.toNat := congrArg LrnEv.dev (recEv_learnNum op r)
theorem learnNum_port (op : Nat) (r : LearnRec) : bits (learnNum op r) 242 235 = r.port.toNat := congrArg LrnEv.port (recEv_learnNum op r)
theorem learnNum_time (op : Nat) (r : LearnRec) : bits (learnNum op r) 207 160 = r.time.toNat := congrArg LrnEv.time (recEv_learnNum op r)

/-! Where a learning record goes by the role of the device (R384, R385). -/

section
variable {src op : Nat} {r : LearnRec} {d : Dev}

theorem learnMsg_off (h : ¬flag LRN_CFG.CHASSIS 0 0 d = true) (x : Nat) : learnMsg src x d = d :=
  if_pos (by simpa using h)

/-- A LEARN or AGE in chassis mode. -/
theorem learnMsg_asks (hon : flag LRN_CFG.CHASSIS 0 0 d = true) (hop : op = 0 ∨ op = 2) : learnMsg src (learnNum op r) d =
    if isMgr d then learnOrWait src (learnNum op r) d
    else if rget FCT_MGR_STAT.ROLE 0 0 d = 1 then onFab (fun f => { f with heldLrn := f.heldLrn ++ [(learnNum op r, src, d.mono)] }) d
    else d := by
  rw [learnMsg, if_neg (by simp [hon])]
  dsimp only
  rw [learnNum_op (by omega), if_pos hop]

/-- A DECIDE or REMOVE in chassis mode. -/
theorem learnMsg_tells (hon : flag LRN_CFG.CHASSIS 0 0 d = true) (hop : op = 1 ∨ op = 3) : learnMsg src (learnNum op r) d =
    if isMgr d then d else learnOrWait src (learnNum op r) (heldDrop (learnNum op r) d) := by
  rw [learnMsg, if_neg (by simp [hon])]
  dsimp only
  rw [learnNum_op (by omega), if_neg (by omega)]

theorem learnOrWait_locked (h : lockHolder .XM_LOCKn r.table.val d ≠ 0) : learnOrWait src (learnNum op r) d =
    onFab (fun f => { f with waiting := f.waiting ++ [(src, learnNum op r)] }) d := by
  rw [learnOrWait, learnNum_tbl, if_neg h]

theorem learnOrWait_free (h : lockHolder .XM_LOCKn r.table.val d = 0) : learnOrWait src (learnNum op r) d = learnAct src (learnNum op r) d := by
  rw [learnOrWait, learnNum_tbl, if_pos h]

/-! What acts on each of the four records. -/

theorem learnAct_learn : learnAct src (learnNum 0 r) d = learnAtManager src (learnNum 0 r) d := by
  simp only [learnAct, learnNum_op (show 0 < 16 by decide)]

theorem learnAct_decide : learnAct src (learnNum 1 r) d = decideApply (learnNum 1 r) d := by
  simp only [learnAct, learnNum_op (show 1 < 16 by decide)]

theorem learnAct_age : learnAct src (learnNum 2 r) d =
    sendDecide (learnRec 3 r.table.val r.dev.toNat r.port.toNat r.time.toNat r.key.toNat) (removeApply (learnNum 2 r) d) := by
  simp only [learnAct, learnNum_op (show 2 < 16 by decide), learnNum_tbl, learnNum_dev, learnNum_port, learnNum_time, learnNum_key]

theorem learnAct_remove : learnAct src (learnNum 3 r) d = removeApply (learnNum 3 r) d := by
  simp only [learnAct, learnNum_op (show 3 < 16 by decide)]

theorem not_isMgr {n : Nat} (h : rget FCT_MGR_STAT.ROLE 0 0 d = n) (hn : n ≠ 2) : ¬isMgr d = true := by
  simpa [isMgr, h] using hn

end

section
variable {src : Fin 64} {r : LearnRec} {s : State} {d : Dev} {c : Instr} {op : Nat}

theorem learnRow_off (hc : exec c s = run (act 102 (learnMsg src.val (learnNum op r))) s) (hruns : Runs 102 s d)
    (hoff : ¬flag LRN_CFG.CHASSIS 0 0 d = true) : Leaves c s d :=
  act_leaves hc hruns (learnMsg_off hoff _)

/-- A worker ignores LEARN and AGE, the standby holds them, and they wait at the manager while their table is locked. -/
theorem learnRow_asks (hc : exec c s = run (act 102 (learnMsg src.val (learnNum op r))) s) (hop : op = 0 ∨ op = 2) (hruns : Runs 102 s d)
    (hon : flag LRN_CFG.CHASSIS 0 0 d = true) :
    (rget FCT_MGR_STAT.ROLE 0 0 d = 0 → Leaves c s d) ∧
    (rget FCT_MGR_STAT.ROLE 0 0 d = 1 → Leaves c s { d with fab := { d.fab with heldLrn := d.fab.heldLrn ++ [(learnNum op r, src.val, d.mono)] } }) ∧
    (isMgr d = true → lockHolder .XM_LOCKn r.table.val d ≠ 0 →
      Leaves c s { d with fab := { d.fab with waiting := d.fab.waiting ++ [(src.val, learnNum op r)] } }) := by
  have hmsg := learnMsg_asks (src := src.val) (r := r) hon hop
  refine ⟨fun hrole => ?_, fun hrole => ?_, fun hmgr hlocked => ?_⟩
  · rw [if_neg (not_isMgr hrole (by decide)), if_neg (by omega)] at hmsg
    exact act_leaves hc hruns hmsg
  · rw [if_neg (not_isMgr hrole (by decide)), if_pos hrole] at hmsg
    exact act_leaves hc hruns hmsg
  · rw [if_pos hmgr, learnOrWait_locked hlocked] at hmsg
    exact act_leaves hc hruns hmsg

/-- The manager ignores DECIDE and REMOVE. -/
theorem learnRow_tells (hc : exec c s = run (act 102 (learnMsg src.val (learnNum op r))) s) (hop : op = 1 ∨ op = 3) (hruns : Runs 102 s d)
    (hon : flag LRN_CFG.CHASSIS 0 0 d = true) (hmgr : isMgr d = true) : Leaves c s d :=
  act_leaves hc hruns ((learnMsg_tells hon hop).trans (if_pos hmgr))

end

/-! The manager arbitrates a LEARN (R384). -/

theorem SameXm.inc (n p k : Nat) (d : Dev) : SameXm n d (inc p k d) := by
  refine ⟨?_, ?_, ?_, ?_, fun f _ => rget_inc ..⟩ <;> rw [inc_tab]

theorem SameXm.refl (n : Nat) (d : Dev) : SameXm n d d := ⟨rfl, rfl, rfl, rfl, fun _ _ => rfl⟩

/-- An event of which the cache knows nothing confirms a static entry that holds its pair. -/
theorem judge_confirms_static {k key slot : Nat} {x : XmEnt} {ev : LrnEv} {d : Dev} (hfind : xmFind ev.tbl key d = some (slot, x))
    (hstatic : x.static = true) (hpair : entPair x = evPair ev) :
    judge true true k key ev {} d = (.confirmed, cachePut k { t := ev.time, pair := evPair ev, valid := true } d) := by
  rw [judge, if_neg (by decide), hfind]
  dsimp only
  rw [if_neg (by simp), judgeFound, if_neg (by simp [loses]), if_pos hpair, if_pos hstatic]
  rfl

/-- The answer of the manager. Its definition is taken as a function of the record, so that no step evaluates the arbitration. -/
theorem learnAtManager_confirmed {src r : Nat} {d e : Dev} (h : arbitrate true (recEv r) d = (.confirmed, e)) : learnAtManager src r d =
    sendDecide (learnRec 1 (recEv r).tbl (recEv r).dev (recEv r).port (recEv r).time (xmKey (recEv r).tbl (recEv r).key e)) e := by
  have hdef : learnAtManager = learnAtManager := rfl
  conv at hdef => rhs; delta learnAtManager
  rw [hdef]
  beta_reduce
  generalize recEv r = ev at h
  extract_lets ev'
  rw [show arbitrate true ev' d = _ from h]

theorem sendDecide_ctlQ {d : Dev} (h : blkEn Pg.FCT d = true) (r : Nat) : (sendDecide r d).ctlQ = d.ctlQ ++ [{ dst := none, kind := 1, rec_ := r }] := by
  rw [sendDecide, inc_ctlQ, sendCtl_ctlQ h]

/-- An event of which the cache knows nothing, and whose pair a static entry holds, is confirmed by the manager. -/
theorem arbitrate_confirms_static {ev : LrnEv} {slot : Nat} {x : XmEnt} {d : Dev} (htbl : ev.tbl < 8) (hcache : d.tab.lrnCache = [])
    (hfind : xmFind ev.tbl (xmKey ev.tbl ev.key d) d = some (slot, x)) (hstatic : x.static = true) (hpair : entPair x = evPair ev) :
    ∃ k c, arbitrate true ev d = (.confirmed, cachePut k c (cachePut k {} d)) := by
  have hnew : SameXm ev.tbl d (cachePut (cacheKey ev.tbl (xmKey ev.tbl ev.key d)) {} d) := (SameXm.refl _ d).cachePut htbl ..
  refine ⟨cacheKey ev.tbl (xmKey ev.tbl ev.key d), { t := ev.time, pair := evPair ev, valid := true }, ?_⟩
  rw [arbitrate_eq_judge]
  rw [cacheRoom_new (by rw [hcache]; rfl) (by rw [hcache]; decide), cachedNow_new]
  exact judge_confirms_static ((hnew.find _).trans hfind) hstatic hpair

/-- LEARN_MSG at the manager: an event that names what a static entry holds is confirmed, and DECIDE is broadcast (R384). -/
theorem learnMsg_confirms {src : Fin 64} {r : LearnRec} {s : State} {d : Dev} {slot : Nat} {x : XmEnt} (hruns : Runs 102 s d)
    (hon : flag LRN_CFG.CHASSIS 0 0 d = true) (hmgr : isMgr d = true) (hfree : lockHolder .XM_LOCKn r.table.val d = 0)
    (hen : blkEn Pg.FCT d = true) (hcache : d.tab.lrnCache = [])
    (hfind : xmFind r.table.val (xmKey r.table.val r.key.toNat d) d = some (slot, x))
    (hpair : entPair x = r.dev.toNat * 256 + r.port.toNat) (hstatic : x.static = true) :
    let rec1 := learnRec 1 r.table.val r.dev.toNat r.port.toNat r.time.toNat (xmKey r.table.val r.key.toNat d)
    Does (.learnMsg src r) s fun e => e.tab.xm = d.tab.xm ∧ e.tab.stash = d.tab.stash ∧ e.ctlQ = d.ctlQ ++ [{ dst := none, kind := 1, rec_ := rec1 }] := by
  intro rec1
  have hev := recEv_learnNum 0 r
  obtain ⟨k, c, harb⟩ : ∃ k c, arbitrate true (recEv (learnNum 0 r)) d = (.confirmed, cachePut k c (cachePut k {} d)) := by
    rw [hev]
    exact arbitrate_confirms_static r.table.isLt hcache hfind hstatic hpair
  have hsame : SameXm r.table.val d (cachePut k c (cachePut k {} d)) := ((SameXm.refl _ d).cachePut r.table.isLt ..).cachePut r.table.isLt ..
  have hmsg : learnMsg src.val (learnNum 0 r) d = sendDecide rec1 (cachePut k c (cachePut k {} d)) := by
    rw [learnMsg_asks hon (.inl rfl), if_pos hmgr, learnOrWait_free hfree, learnAct_learn,
      learnAtManager_confirmed harb, hev, hsame.key]
  refine act_does (f := learnMsg src.val (learnNum 0 r)) rfl hruns fun e he => ?_
  rw [hmsg] at he
  rw [he.tab, he.ctlQ, sendDecide_tab]
  exact ⟨rfl, rfl, sendDecide_ctlQ (d := cachePut k c (cachePut k {} d)) hen rec1⟩

/-! A worker applies DECIDE and REMOVE, and the manager acts on AGE (R141, R384). -/

@[simp] theorem cacheRoom_xm (k : Nat) (d : Dev) : (cacheRoom k d).2.tab.xm = d.tab.xm := by
  unfold cacheRoom
  split
  · rfl
  · split
    · rfl
    · split <;> simp [cachePut]

theorem decideApply_moves {r slot : Nat} {x : XmEnt} {d : Dev} (hslot : slot < 2 ^ 22) (hstatic : x.static = false)
    (hfind : xmFind (recEv r).tbl (xmKey (recEv r).tbl (recEv r).key d) d = some (slot, x)) :
    find? (decideApply r d).tab.xm slot = some { x with result := learnedResult (recEv r).tbl (evPair (recEv r)) d, learned := true } := by
  unfold decideApply
  generalize recEv r = ev at hfind
  have hsame := SameXm.inc ev.tbl Pg.LRN 1 d
  generalize inc Pg.LRN 1 d = y at hsame
  extract_lets y ev' key ent z k
  have hz : find? z.tab.xm slot = some { x with result := learnedResult ev.tbl (evPair ev) d, learned := true } := by
    dsimp only [z, key, y, ev']
    rw [hsame.key, hsame.find, hfind, hsame.learned]
    dsimp only
    rw [if_neg (by simp [hstatic]), xmPut, if_neg (by omega)]
    exact find?_ins_same ..
  rw [← cacheRoom_xm k] at hz
  generalize cacheRoom k z = p at hz
  obtain ⟨room, e⟩ := p
  dsimp only
  split <;> exact hz

/-- The learned entry of the key goes, and the key leaves the cache. -/
theorem removeApply_eq {r slot : Nat} {x : XmEnt} {d : Dev} (hlearned : x.learned = true) (hstatic : x.static = false)
    (hfind : xmFind (recEv r).tbl (xmKey (recEv r).tbl (recEv r).key d) d = some (slot, x)) :
    removeApply r d = cacheDrop (cacheKey (recEv r).tbl (xmKey (recEv r).tbl (recEv r).key d)) (xmCounts (xmClear slot d)) := by
  unfold removeApply
  generalize recEv r = ev at hfind
  dsimp only
  rw [hfind]
  dsimp only
  rw [if_pos (by simp [hlearned, hstatic])]

/-- XM_COUNTn and XM_STASH follow the entries, and STASH_HIGH may fire. -/
theorem xmCounts_eq (d : Dev) : ∃ v, xmCounts d = { d with flds := v } ∨ xmCounts d = fire Pg.XM 3 { d with flds := v } := by
  have fold (f : Nat → Nat) (l : List Nat) : ∀ d : Dev, ∃ v, l.foldl (fun s k => rset XM_COUNTn.COUNT 0 k (f k) s) d = { d with flds := v } := by
    induction l with
    | nil => exact fun d => ⟨d.flds, rfl⟩
    | cons k l ih => exact fun d => ih (rset XM_COUNTn.COUNT 0 k (f k) d)
  unfold xmCounts
  extract_lets old lvl e n x
  obtain ⟨v, hx⟩ : ∃ v, x = { e with flds := v } := fold n _ e
  refine ⟨v, ?_⟩
  rw [hx]
  split
  · exact .inr rfl
  · exact .inl rfl

@[simp] theorem xmCounts_ctlQ (d : Dev) : (xmCounts d).ctlQ = d.ctlQ := by
  obtain ⟨v, h | h⟩ := xmCounts_eq d <;> simp [h]

@[simp] theorem blkEn_xmCounts (p : Nat) (d : Dev) : blkEn p (xmCounts d) = blkEn p d := by
  obtain ⟨v, h | h⟩ := xmCounts_eq d
  · rw [h]; rfl
  · rw [h, blkEn_fire]; rfl

/-- What the removal of a learned entry from the buckets leaves: its slot empty, the messages that wait, and BLK_EN. -/
theorem removeApply_does {r slot : Nat} {x : XmEnt} {d : Dev} (hslot : slot < 2 ^ 22) (hlearned : x.learned = true) (hstatic : x.static = false)
    (hfind : xmFind (recEv r).tbl (xmKey (recEv r).tbl (recEv r).key d) d = some (slot, x)) :
    find? (removeApply r d).tab.xm slot = none ∧ (removeApply r d).ctlQ = d.ctlQ ∧ blkEn Pg.FCT (removeApply r d) = blkEn Pg.FCT d := by
  have hclear : xmClear slot d = onTab (fun t => { t with xm := del t.xm slot, xm2 := del t.xm2 (slot + 1) }) d := if_neg (by omega)
  rw [removeApply_eq hlearned hstatic hfind, hclear]
  refine ⟨?_, ?_, ?_⟩
  · exact (congrArg (fun t : Tables => find? t.xm slot) (xmCounts_tab _)).trans (find?_del_same ..)
  · exact xmCounts_ctlQ _
  · exact blkEn_xmCounts ..

section
variable {src : Fin 64} {r : LearnRec} {s : State} {d : Dev} {slot : Nat} {x : XmEnt} (hruns : Runs 102 s d) (hon : flag LRN_CFG.CHASSIS 0 0 d = true)
  (hfree : lockHolder .XM_LOCKn r.table.val d = 0) (hslot : slot < 2 ^ 22)
  (hfind : xmFind r.table.val (xmKey r.table.val r.key.toNat d) d = some (slot, x)) (hstatic : x.static = false)
include hruns hon hfree hslot hfind hstatic

/-- DECIDE_MSG at a worker: an entry that is not static takes the pair of the record. -/
theorem decideMsg_moves (hmgr : ¬isMgr d = true) : Does (.decideMsg src r) s fun e => find? e.tab.xm slot =
    some { x with result := learnedResult r.table.val (r.dev.toNat * 256 + r.port.toNat) d, learned := true } := by
  refine act_does (f := learnMsg src.val (learnNum 1 r)) rfl hruns fun e he => ?_
  have hact := learnOrWait_free (src := src.val) (op := 1) (d := heldDrop (learnNum 1 r) d) hfree
  have hev := recEv_learnNum 1 r
  have hmoves := decideApply_moves (r := learnNum 1 r) (d := heldDrop (learnNum 1 r) d) hslot hstatic (by rw [hev]; exact hfind)
  rw [he.tab, learnMsg_tells hon (.inl rfl), if_neg hmgr, hact, learnAct_decide, hmoves, hev]
  rfl

/-- REMOVE_MSG at a worker: a learned entry goes. -/
theorem removeMsg_removes (hmgr : ¬isMgr d = true) (hlearned : x.learned = true) : Does (.removeMsg src r) s fun e => find? e.tab.xm slot = none := by
  refine act_does (f := learnMsg src.val (learnNum 3 r)) rfl hruns fun e he => ?_
  have hact := learnOrWait_free (src := src.val) (op := 3) (d := heldDrop (learnNum 3 r) d) hfree
  obtain ⟨hgone, -, -⟩ := removeApply_does (r := learnNum 3 r) (d := heldDrop (learnNum 3 r) d) hslot hlearned hstatic
    (by rw [recEv_learnNum]; exact hfind)
  rw [he.tab, learnMsg_tells hon (.inr rfl), if_neg hmgr, hact, learnAct_remove, hgone]

/-- AGE_MSG at the manager: the learned entry goes, and REMOVE is broadcast. -/
theorem ageMsg_removes (hmgr : isMgr d = true) (hen : blkEn Pg.FCT d = true) (hlearned : x.learned = true) :
    let rec3 := learnRec 3 r.table.val r.dev.toNat r.port.toNat r.time.toNat r.key.toNat
    Does (.ageMsg src r) s fun e => find? e.tab.xm slot = none ∧ e.ctlQ = d.ctlQ ++ [{ dst := none, kind := 1, rec_ := rec3 }] := by
  intro rec3
  refine act_does (f := learnMsg src.val (learnNum 2 r)) rfl hruns fun e he => ?_
  obtain ⟨hgone, hctl, hblk⟩ := removeApply_does (r := learnNum 2 r) hslot hlearned hstatic (by rw [recEv_learnNum]; exact hfind)
  rw [he.tab, he.ctlQ, learnMsg_asks hon (.inr rfl), if_pos hmgr, learnOrWait_free hfree, learnAct_age, sendDecide_tab,
    sendDecide_ctlQ (hblk.trans hen), hctl]
  exact ⟨hgone, rfl⟩

end

end Sys2Proof.Machine

/-! The records of the fabric: the chassis epoch (R220, R228, R386). -/

namespace Sys2Proof.Machine

open Safety

/-! An epoch record and its fields (R386). -/

theorem epochRec_op {op : Nat} (h : op < 16) (seq nr t : Nat) : bits (epochRec op seq nr t) 255 252 = op := by
  simp only [bits, epochRec, Nat.shiftRight_eq_div_pow]
  omega

theorem epochRec_seq {seq : Nat} (h : seq < 2 ^ 16) (op nr t : Nat) : bits (epochRec op seq nr t) 251 236 = seq := by
  simp only [bits, epochRec, Nat.shiftRight_eq_div_pow]
  omega

/-- The instant of a record, in ns. -/
theorem epochRec_time {sec ns : Nat} (hsec : sec < 2 ^ 48) (hns : ns < 1000000000) (op seq nr : Nat) :
    bits (epochRec op seq nr (sec * 1000000000 + ns)) 77 30 * 1000000000 + bits (epochRec op seq nr (sec * 1000000000 + ns)) 29 0 =
      sec * 1000000000 + ns := by
  simp only [bits, epochRec, Nat.shiftRight_eq_div_pow]
  omega

/-! What each record starts. -/

/-- Whether src is the manager that this device follows. -/
def isFollowed (src : Nat) (d : Dev) : Bool := flag FCT_MGR_STAT.MGR_VALID 0 0 d && rget FCT_MGR_STAT.MGR_DEV 0 0 d == src && !isMgr d

section
variable (src : Nat) {seq : Nat} (hseq : seq < 2 ^ 16) (d : Dev)
include hseq

theorem epochRecord_prepare : epochRecord src (epochRec 0 seq 0 0) d = if isFollowed src d then epochPrepare seq d else d := by
  simp only [epochRecord, epochRec_op (show 0 < 16 by decide), epochRec_seq hseq]
  rfl

theorem epochRecord_ready : epochRecord src (epochRec 1 seq 0 0) d = epochReady src seq d := by
  simp only [epochRecord, epochRec_op (show 1 < 16 by decide), epochRec_seq hseq]

theorem epochRecord_notReady (cause : Nat) : epochRecord src (epochRec 2 seq cause 0) d = epochNotReady seq d := by
  simp only [epochRecord, epochRec_op (show 2 < 16 by decide), epochRec_seq hseq]

theorem epochRecord_commit {sec ns : Nat} (hsec : sec < 2 ^ 48) (hns : ns < 1000000000) :
    epochRecord src (epochRec 3 seq 0 (sec * 1000000000 + ns)) d =
      if isFollowed src d then epochCommit seq (sec * 1000000000 + ns) (epochSeen seq d) else d := by
  simp only [epochRecord, epochRec_op (show 3 < 16 by decide), epochRec_seq hseq, epochRec_time hsec hns]
  rfl

theorem epochRecord_abort : epochRecord src (epochRec 4 seq 0 0) d =
    if (epochSeen seq d).epc.prepSeq = seq then epochAbort (epochSeen seq d) else epochSeen seq d := by
  simp only [epochRecord, epochRec_op (show 4 < 16 by decide), epochRec_seq hseq]

end

/-- A COMMIT of another manager changes nothing, whatever its instant. -/
theorem epochRecord_commit_foreign {src : Nat} {d : Dev} (h : ¬isFollowed src d = true) (seq t : Nat) : epochRecord src (epochRec 3 seq 0 t) d = d := by
  simp only [epochRecord, epochRec_op (show 3 < 16 by decide)]
  exact if_neg h

/-- The end of a chassis switch is seen: the controller's own note of it goes, and nothing else. -/
theorem epochSeen_eq (seq : Nat) (d : Dev) :
    epochSeen seq d = { d with epc := { d.epc with seen := if d.epc.seen = some seq then none else d.epc.seen } } := by
  unfold epochSeen
  split_ifs <;> rfl

section
variable (seq : Nat) (d : Dev)

@[simp] theorem epochSeen_epcState : epcState (epochSeen seq d) = epcState d := by
  rw [epochSeen_eq]
  rfl

@[simp] theorem epochSeen_curBank : curBank (epochSeen seq d) = curBank d := by
  rw [epochSeen_eq]
  rfl

@[simp] theorem epochSeen_strict : flag EPC_X_CFG.STRICT 0 0 (epochSeen seq d) = flag EPC_X_CFG.STRICT 0 0 d := by
  rw [epochSeen_eq]
  rfl

@[simp] theorem epochSeen_nowNs : nowNs (epochSeen seq d) = nowNs d := by
  rw [epochSeen_eq]
  rfl

@[simp] theorem epochSeen_prepSeq : (epochSeen seq d).epc.prepSeq = d.epc.prepSeq := by rw [epochSeen_eq]
@[simp] theorem epochSeen_acts : (epochSeen seq d).spn.acts = d.spn.acts := by rw [epochSeen_eq]

end

/-! A worker (R220, R223, R228). -/

/-- The device once PREPARE of seq has been seen (R229). -/
def prepareSeen (seq : Nat) (d : Dev) : Dev := onEpc (fun e => { e with seen := some seq }) d

/-- The device prepared for a switch to seq. -/
def prepared (seq : Nat) (d : Dev) : Dev := setEpc 3 (onEpc (fun e => { e with seen := some seq, prepSeq := seq, prepAt := d.mono }) d)

section
variable {seq : Nat} {d : Dev}

theorem drainComplete_settled (h : epcState d ≠ 2) : drainComplete d = d := if_neg fun hd => h hd.1

/-- The checks of R222 in the STABLE state, on a switch to another SEQ. They read nothing that the sight of PREPARE moves. -/
theorem switchCheck_seen (hst : epcState d = 0) (hnew : seq ≠ curSeq d) : switchCheck seq (prepareSeen seq d) =
    if notReady d ≠ 0 then (Err.NOT_READY, rset EPC_STAT.NR_CAUSE 0 0 (notReady d) (prepareSeen seq d)) else (0, prepareSeen seq d) := by
  have hsame : notReady (prepareSeen seq d) = notReady d := rfl
  rw [switchCheck, if_neg (show ¬epcState (prepareSeen seq d) ≠ 0 from not_not.2 hst), if_neg (show ¬seq = curSeq (prepareSeen seq d) from hnew), hsame]

theorem epochPrepare_stable (hst : epcState d = 0) : epochPrepare seq d =
    let r := switchCheck seq (prepareSeen seq d)
    let mgr := rget FCT_MGR_STAT.MGR_DEV 0 0 d
    if r.1 = 0 then sendCtl (some mgr) 2 (epochRec 1 seq 0 0) (setEpc 3 (onEpc (fun e => { e with prepSeq := seq, prepAt := r.2.mono }) r.2))
    else sendCtl (some mgr) 2 (epochRec 2 seq (rget EPC_STAT.NR_CAUSE 0 0 r.2) 0) r.2 := by
  have hseen : epcState (prepareSeen seq d) = 0 := hst
  unfold epochPrepare
  extract_lets mgr e
  change epcState e = 0 at hseen
  rw [if_neg (by rw [hseen]; simp), drainComplete_settled (by rw [hseen]; decide)]
  rfl

theorem epochPrepare_readies (hst : epcState d = 0) (hnew : seq ≠ curSeq d) (hready : notReady d = 0) :
    epochPrepare seq d = sendCtl (some (rget FCT_MGR_STAT.MGR_DEV 0 0 d)) 2 (epochRec 1 seq 0 0) (prepared seq d) := by
  rw [epochPrepare_stable hst, switchCheck_seen hst hnew, if_neg (not_not.2 hready)]
  rfl

theorem epochPrepare_refuses (hst : epcState d = 0) (hnew : seq ≠ curSeq d) (hnot : notReady d ≠ 0) : epochPrepare seq d =
    sendCtl (some (rget FCT_MGR_STAT.MGR_DEV 0 0 d)) 2 (epochRec 2 seq (notReady d) 0)
      (rset EPC_STAT.NR_CAUSE 0 0 (notReady d) (prepareSeen seq d)) := by
  have hcause : epochRec 2 seq (notReady d % 2 ^ EPC_STAT.NR_CAUSE.w) 0 = epochRec 2 seq (notReady d) 0 := by simp [epochRec, EPC_STAT.NR_CAUSE]
  rw [epochPrepare_stable hst, switchCheck_seen hst hnew, if_pos hnot]
  dsimp only
  rw [if_neg (by decide), rget_rset_same, hcause]

/-- COMMIT before its instant arms the switch at the first free entry of the timed actions. -/
theorem epochCommit_arms {t i : Nat} (hst : epcState d = 3) (hseq : d.epc.prepSeq = seq) (ht : nowNs d < t)
    (hfree : lowestFree d.spn.acts 0 4096 = some i) : epochCommit seq t d =
      setEpc 1 (onSpn (fun p => { p with acts := ins p.acts i { owner := 0xF200, kind := 3, t := t, switchSeq := seq } }) d) := by
  rw [epochCommit, if_neg (by simp [hst, hseq]), if_neg (by omega), epcArm, hfree]
  rfl

/-- Under STRICT a COMMIT whose instant has passed is refused. -/
theorem epochCommit_past {t : Nat} (hst : epcState d = 3) (hseq : d.epc.prepSeq = seq) (ht : t ≤ nowNs d) (hstrict : flag EPC_X_CFG.STRICT 0 0 d = true) :
    epochCommit seq t d = errAt Err.TIME_PAST .EPC_SWITCH 0 0 (setEpc 0 d) := by
  rw [epochCommit, if_neg (by simp [hst, hseq]), if_pos ht, if_pos hstrict]

theorem epochAbort_prepared (hst : epcState d = 3) : epochAbort d = fire Pg.EPC 4 (inc Pg.EPC 3 (setEpc 0 d)) := if_pos hst
theorem epochAbort_other (hst : epcState d ≠ 3) : epochAbort d = d := if_neg hst

@[simp] theorem curBank_setEpc (st : Nat) (d : Dev) : curBank (setEpc st d) = curBank d := rget_rset_ne _ _ (by decide +kernel)

end

/-! The manager (R228). -/

/-- The device once READY of src is counted. -/
def readyFrom (src : Nat) (d : Dev) : Dev := onEpc (fun e => { e with ready := if e.ready.contains src then e.ready else src :: e.ready }) d

section
variable {src seq : Nat} {d : Dev}

theorem epochReady_counts (h : d.epc.mgrSeq = some seq) : epochReady src seq d = chassisCheck (readyFrom src d) := if_pos h

theorem allReady_readyFrom : allReady (readyFrom src d) = true ↔ ∀ m ∈ d.epc.workers, m = src ∨ m ∈ d.epc.ready := by
  have hready (m : Nat) : m ∈ (readyFrom src d).epc.ready ↔ m = src ∨ m ∈ d.epc.ready := by
    show m ∈ (if d.epc.ready.contains src then d.epc.ready else src :: d.epc.ready) ↔ _
    split
    · next hsrc =>
      have hmem : src ∈ d.epc.ready := by simpa using hsrc
      exact ⟨.inr, fun h => h.elim (fun heq => heq ▸ hmem) id⟩
    · exact List.mem_cons
  simp only [allReady, List.all_eq_true, List.contains_iff_mem, hready]
  rfl

/-- Without READY of every worker the manager goes on waiting. -/
theorem chassisCheck_waits {m : Nat} (hm : m ∈ d.epc.workers) (hsrc : m ≠ src) (hnot : m ∉ d.epc.ready) :
    chassisCheck (readyFrom src d) = readyFrom src d := by
  refine if_neg fun h => ?_
  obtain h | h := allReady_readyFrom.1 (Bool.and_eq_true _ _ ▸ h).2 m hm
  · exact hsrc h
  · exact hnot h

/-- READY of the last worker: COMMIT goes out and the manager arms its own switch. -/
theorem chassisCheck_commits {i : Nat} (hseq : d.epc.mgrSeq = some seq) (hall : ∀ m ∈ d.epc.workers, m = src ∨ m ∈ d.epc.ready)
    (hfree : lowestFree d.spn.acts 0 4096 = some i) :
    let t := nowNs d + rget EPC_X_CFG.LEAD 0 0 d * 1000
    chassisCheck (readyFrom src d) = sendCtl none 2 (epochRec 3 seq 0 t) (setEpc 1 (onEpc (fun e => { e with mgrSeq := none, ready := [], workers := [] })
      (onSpn (fun p => { p with acts := ins p.acts i { owner := 0xF200, kind := 3, t := t, switchSeq := seq } }) (readyFrom src d)))) := by
  intro t
  have hsome : (readyFrom src d).epc.mgrSeq = some seq := hseq
  have harm : epcArm t seq (readyFrom src d) =
      some (onSpn (fun p => { p with acts := ins p.acts i { owner := 0xF200, kind := 3, t := t, switchSeq := seq } }) (readyFrom src d)) := by
    rw [epcArm, show lowestFree (readyFrom src d).spn.acts 0 4096 = some i from hfree]
    rfl
  rw [chassisCheck, if_pos (by simp [hsome, allReady_readyFrom.2 hall]), chassisCommit, hsome, Option.getD_some,
    show epcArm (nowNs (readyFrom src d) + rget EPC_X_CFG.LEAD 0 0 (readyFrom src d) * 1000) seq (readyFrom src d) = _ from harm]
  rfl

theorem epochNotReady_aborts (h : d.epc.mgrSeq = some seq) : epochNotReady seq d = chassisAbort d := if_pos h

theorem chassisAbort_mgrSeq (d : Dev) : (chassisAbort d).epc.mgrSeq = none := by
  rw [chassisAbort, fire_epc, inc_epc]
  rfl

theorem chassisAbort_curBank (d : Dev) : curBank (chassisAbort d) = curBank d := by
  rw [chassisAbort, curBank, rget_fire, rget_inc, rget_errAt]
  exact rget_sendCtl ..

end

end Sys2Proof.Machine

/-! The rows of the chassis epoch, and the statement on the fabric's records (R141, R220, R228, R312, R381 to R386). -/

namespace Sys2Proof.Machine

open Safety

/-! The rows of the chassis epoch (R220, R223, R228). -/

section
variable {src : Fin 64} {seq : BitVec 16} {s : State} {d : Dev} (hruns : Runs 102 s d)
include hruns

/-- PREPARE and COMMIT of a device that is not followed change nothing. -/
theorem epochRecord_foreign (hnot : ¬isFollowed src.val d = true) (sec : BitVec 48) (ns : BitVec 30) :
    Leaves (.epochPrepare src seq) s d ∧ Leaves (.epochCommit src seq sec ns) s d :=
  ⟨act_leaves (f := epochRecord src.val (epochRec 0 seq.toNat 0 0)) rfl hruns ((epochRecord_prepare _ seq.isLt d).trans (if_neg hnot)),
    act_leaves (f := epochRecord src.val (epochRec 3 seq.toNat 0 (sec.toNat * 1000000000 + ns.toNat))) rfl hruns (epochRecord_commit_foreign hnot _ _)⟩

/-- EPOCH_PREPARE of the followed manager in the STABLE state: READY, or NOT_READY with its causes. -/
theorem epochPrepare_answers (hfol : isFollowed src.val d = true) (hen : blkEn Pg.FCT d = true) (hst : epcState d = 0) (hnew : seq.toNat ≠ curSeq d) :
    let answer (op nr : Nat) : List Ctl := [{ dst := some (rget FCT_MGR_STAT.MGR_DEV 0 0 d), kind := 2, rec_ := epochRec op seq.toNat nr 0 }]
    (notReady d = 0 → Does (.epochPrepare src seq) s fun e => epcState e = 3 ∧ e.epc.prepSeq = seq.toNat ∧ e.ctlQ = d.ctlQ ++ answer 1 0) ∧
    (notReady d ≠ 0 → Does (.epochPrepare src seq) s fun e => epcState e = 0 ∧ e.ctlQ = d.ctlQ ++ answer 2 (notReady d)) := by
  intro answer
  have hrec := (epochRecord_prepare src.val seq.isLt d).trans (if_pos hfol)
  refine ⟨fun hready => ?_, fun hnot => ?_⟩
  · refine act_does (f := epochRecord src.val (epochRec 0 seq.toNat 0 0)) rfl hruns fun e he => ?_
    rw [hrec, epochPrepare_readies hst hnew hready] at he
    refine ⟨?_, ?_, ?_⟩
    · rw [epcState, he.rget, rget_sendCtl]
      exact rget_rset_same ..
    · rw [he.epc, sendCtl_epc]
      rfl
    · rw [he.ctlQ]
      exact sendCtl_ctlQ (d := prepared seq.toNat d) hen ..
  · refine act_does (f := epochRecord src.val (epochRec 0 seq.toNat 0 0)) rfl hruns fun e he => ?_
    rw [hrec, epochPrepare_refuses hst hnew hnot] at he
    refine ⟨?_, ?_⟩
    · rw [epcState, he.rget, rget_sendCtl, rget_rset_ne _ _ (by decide +kernel)]
      exact hst
    · rw [he.ctlQ]
      exact sendCtl_ctlQ (d := rset EPC_STAT.NR_CAUSE 0 0 (notReady d) (prepareSeen seq.toNat d)) hen ..

/-- EPOCH_COMMIT of the followed manager to a prepared worker: the switch is armed, or under STRICT refused when its instant has passed. -/
theorem epochCommit_switches (hfol : isFollowed src.val d = true) (hst : epcState d = 3) (hseq : d.epc.prepSeq = seq.toNat) (sec : BitVec 48)
    {ns : BitVec 30} (hns : ns.toNat < 1000000000) :
    let t := sec.toNat * 1000000000 + ns.toNat
    (∀ i, nowNs d < t → lowestFree d.spn.acts 0 4096 = some i → Does (.epochCommit src seq sec ns) s fun e => epcState e = 1 ∧
      find? e.spn.acts i = some { owner := 0xF200, kind := 3, t := t, switchSeq := seq.toNat }) ∧
    (t ≤ nowNs d → flag EPC_X_CFG.STRICT 0 0 d = true → Does (.epochCommit src seq sec ns) s fun e => epcState e = 0 ∧
      (face Pg.EPC e).errCode = Err.TIME_PAST ∧ curBank e = curBank d) := by
  intro t
  have hrec := (epochRecord_commit src.val seq.isLt d sec.isLt hns).trans (if_pos hfol)
  have hst' : epcState (epochSeen seq.toNat d) = 3 := by rwa [epochSeen_epcState]
  have hseq' : (epochSeen seq.toNat d).epc.prepSeq = seq.toNat := by rwa [epochSeen_prepSeq]
  refine ⟨fun i ht hfree => ?_, fun ht hstrict => ?_⟩
  · refine act_does (f := epochRecord src.val (epochRec 3 seq.toNat 0 t)) rfl hruns fun e he => ?_
    rw [hrec, epochCommit_arms hst' hseq' (by rwa [epochSeen_nowNs]) (by rwa [epochSeen_acts])] at he
    refine ⟨?_, ?_⟩
    · rw [epcState, he.rget]
      exact rget_rset_same ..
    · rw [he.spn]
      exact find?_ins_same ..
  · refine act_does (f := epochRecord src.val (epochRec 3 seq.toNat 0 t)) rfl hruns fun e he => ?_
    rw [hrec, epochCommit_past hst' hseq' (by rwa [epochSeen_nowNs]) (by rwa [epochSeen_strict])] at he
    refine ⟨?_, ?_, ?_⟩
    · rw [epcState, he.rget, rget_errAt]
      exact rget_rset_same ..
    · rw [he.face]
      exact errAt_code _ .EPC_SWITCH 0 0 _
    · rw [curBank, he.rget, rget_errAt]
      exact (curBank_setEpc ..).trans (epochSeen_curBank ..)

/-- EPOCH_ABORT of the prepared SEQ returns to STABLE; any other changes only what has been seen. -/
theorem epochAbort_returns :
    (epcState d = 3 → d.epc.prepSeq = seq.toNat → Does (.epochAbort src seq) s fun e => epcState e = 0 ∧ bit (face Pg.EPC e).pend 4 = true ∧
      curBank e = curBank d) ∧
    (epcState d ≠ 3 ∨ d.epc.prepSeq ≠ seq.toNat → Leaves (.epochAbort src seq) s
      { d with epc := { d.epc with seen := if d.epc.seen = some seq.toNat then none else d.epc.seen } }) := by
  have hrec := epochRecord_abort src.val seq.isLt d
  rw [epochSeen_prepSeq] at hrec
  refine ⟨fun hst hseq => ?_, fun hother => ?_⟩
  · refine act_does (f := epochRecord src.val (epochRec 4 seq.toNat 0 0)) rfl hruns fun e he => ?_
    rw [hrec, if_pos hseq, epochAbort_prepared (by rwa [epochSeen_epcState])] at he
    refine ⟨?_, ?_, ?_⟩
    · rw [epcState, he.rget, rget_fire, rget_inc]
      exact rget_rset_same ..
    · rw [he.face, face_fire_same]
      exact bit_setBit_same ..
    · rw [curBank, he.rget, rget_fire, rget_inc]
      exact (curBank_setEpc ..).trans (epochSeen_curBank ..)
  · refine act_leaves (f := epochRecord src.val (epochRec 4 seq.toNat 0 0)) rfl hruns ((hrec.trans ?_).trans (epochSeen_eq ..))
    by_cases hseq : d.epc.prepSeq = seq.toNat
    · rw [if_pos hseq]
      exact epochAbort_other (by rw [epochSeen_epcState]; exact hother.resolve_right (not_not.2 hseq))
    · exact if_neg hseq

/-- EPOCH_READY at the manager that waits for it: counted, and the answer of the last worker arms the switch. -/
theorem epochReady_arms (hmgr : d.epc.mgrSeq = some seq.toNat) :
    ((∃ m ∈ d.epc.workers, m ≠ src.val ∧ m ∉ d.epc.ready) → src.val ∉ d.epc.ready →
      Leaves (.epochReady src seq) s { d with epc := { d.epc with ready := src.val :: d.epc.ready } }) ∧
    (∀ i, (∀ m ∈ d.epc.workers, m = src.val ∨ m ∈ d.epc.ready) → lowestFree d.spn.acts 0 4096 = some i →
      Does (.epochReady src seq) s fun e => epcState e = 1 ∧ e.epc.mgrSeq = none ∧
        find? e.spn.acts i = some { owner := 0xF200, kind := 3, t := nowNs d + rget EPC_X_CFG.LEAD 0 0 d * 1000, switchSeq := seq.toNat }) := by
  have hrec := (epochRecord_ready src.val seq.isLt d).trans (epochReady_counts hmgr)
  refine ⟨fun ⟨m, hm, hsrc, hnot⟩ hfirst => ?_, fun i hall hfree => ?_⟩
  · refine act_leaves (f := epochRecord src.val (epochRec 1 seq.toNat 0 0)) rfl hruns (hrec.trans ((chassisCheck_waits hm hsrc hnot).trans ?_))
    have hcons : (if d.epc.ready.contains src.val then d.epc.ready else src.val :: d.epc.ready) = src.val :: d.epc.ready :=
      if_neg (by simpa using hfirst)
    rw [readyFrom, onEpc, hcons]
  · refine act_does (f := epochRecord src.val (epochRec 1 seq.toNat 0 0)) rfl hruns fun e he => ?_
    rw [hrec, chassisCheck_commits hmgr hall hfree] at he
    refine ⟨?_, ?_, ?_⟩
    · rw [epcState, he.rget, rget_sendCtl]
      exact rget_rset_same ..
    · rw [he.epc, sendCtl_epc]
      rfl
    · rw [he.spn, sendCtl_spn]
      exact find?_ins_same ..

/-- READY and NOT_READY for a SEQ that the manager does not wait for change nothing. -/
theorem epochReady_other (hmgr : d.epc.mgrSeq ≠ some seq.toNat) (cause : BitVec 2) :
    Leaves (.epochReady src seq) s d ∧ Leaves (.epochNotReady src seq cause) s d :=
  ⟨act_leaves (f := epochRecord src.val (epochRec 1 seq.toNat 0 0)) rfl hruns ((epochRecord_ready _ seq.isLt d).trans (if_neg hmgr)),
    act_leaves (f := epochRecord src.val (epochRec 2 seq.toNat cause.toNat 0)) rfl hruns
      ((epochRecord_notReady _ seq.isLt d _).trans (if_neg hmgr))⟩

/-- EPOCH_NOT_READY at the manager that waits for it: the switch is aborted. -/
theorem epochNotReady_ends (hmgr : d.epc.mgrSeq = some seq.toNat) (cause : BitVec 2) :
    Does (.epochNotReady src seq cause) s fun e => e.epc.mgrSeq = none ∧ curBank e = curBank d := by
  refine act_does (f := epochRecord src.val (epochRec 2 seq.toNat cause.toNat 0)) rfl hruns fun e he => ?_
  rw [epochRecord_notReady _ seq.isLt, epochNotReady_aborts hmgr] at he
  refine ⟨?_, ?_⟩
  · rw [he.epc, chassisAbort_mgrSeq]
  · rw [curBank, he.rget]
    exact chassisAbort_curBank d

end

theorem isFollowed_iff {src : Nat} {d : Dev} : isFollowed src d = true ↔
    flag FCT_MGR_STAT.MGR_VALID 0 0 d = true ∧ rget FCT_MGR_STAT.MGR_DEV 0 0 d = src ∧ isMgr d = false := by
  simp [isFollowed, and_assoc]

/-- Settles O34: each clause is the lemma of its record. -/
theorem fabricRecords : Obligations.FabricRecords := by
  unfold Obligations.FabricRecords
  refine ⟨?credit, fun q n s d hruns => creditGrant_does hruns, ?learn, ?epoch⟩
  case credit =>
    intro port cls dev seq s d hruns k r kept
    obtain ⟨hon, honStays⟩ := creditReq_leaves (on := true) (c := .creditReqOn port cls dev seq) rfl hruns
    obtain ⟨hoff, hoffStays⟩ := creditReq_leaves (on := false) (c := .creditReqOff port cls dev seq) rfl hruns
    exact ⟨fun h => ⟨hon h, hoff h⟩, fun hseen hlater => ⟨honStays hseen hlater, hoffStays hseen hlater⟩⟩
  case learn =>
    intro src r s d hruns mgr on locked ev key held waits
    have hev : ev = _ := recEv_learnNum 0 r
    have hlearn := learnRow_asks (c := .learnMsg src r) rfl (.inl rfl) hruns
    have hage := learnRow_asks (c := .ageMsg src r) rfl (.inr rfl) hruns
    have hkey : key = xmKey r.table.val r.key.toNat d := by rw [show key = xmKey r.table.val ev.key d from rfl, hev]
    refine ⟨fun hoff => ⟨?_, ?_, ?_, ?_⟩, fun hon hrole => ?_, fun hon hrole => ?_, fun hon hmgr hlocked => ?_, fun hon hmgr => ?_, ?_, ?_, ?_⟩
    · exact learnRow_off (op := 0) rfl hruns hoff
    · exact learnRow_off (op := 1) rfl hruns hoff
    · exact learnRow_off (op := 2) rfl hruns hoff
    · exact learnRow_off (op := 3) rfl hruns hoff
    · exact ⟨(hlearn hon).1 hrole, (hage hon).1 hrole⟩
    · exact ⟨(hlearn hon).2.1 hrole, (hage hon).2.1 hrole⟩
    · exact ⟨(hlearn hon).2.2 hmgr hlocked, (hage hon).2.2 hmgr hlocked⟩
    · exact ⟨learnRow_tells rfl (.inl rfl) hruns hon hmgr, learnRow_tells rfl (.inr rfl) hruns hon hmgr⟩
    · intro slot x hon hmgr hfree hen hcache hfind hfindKey hpair hstatic
      rw [hkey] at hfindKey ⊢
      exact learnMsg_confirms hruns hon hmgr (not_not.1 hfree) hen hcache hfindKey hpair hstatic
    · intro slot x hon hmgr hfree hslot hx hfind hstatic hheld
      rw [hkey] at hfind
      exact ⟨decideMsg_moves hruns hon (not_not.1 hfree) hslot hfind hstatic hmgr,
        removeMsg_removes hruns hon (not_not.1 hfree) hslot hfind hstatic hmgr⟩
    · intro slot x hon hmgr hfree hen hslot hx hfind hstatic hlearned
      rw [hkey] at hfind
      exact ageMsg_removes hruns hon (not_not.1 hfree) hslot hfind hstatic hmgr hen hlearned
  case epoch =>
    intro src seq cause sec ns s d hruns followed answer t
    have hfol : isFollowed src.val d = true ↔ followed := isFollowed_iff
    obtain ⟨habort, hother⟩ := epochAbort_returns (src := src) (seq := seq) hruns
    refine ⟨fun hnot => epochRecord_foreign hruns (hfol.not.2 hnot) sec ns, fun hyes hen hst hnew => ?_,
      fun hyes hst hseq => ⟨fun i ht hns hfree => ?_, fun ht hns hstrict => ?_⟩,
      habort, hother, fun hmgr => epochReady_other hruns hmgr cause, fun hmgr => (epochReady_arms hruns hmgr).1,
      fun i hmgr hall hfree => (epochReady_arms hruns hmgr).2 i hall hfree, fun hmgr => epochNotReady_ends hruns hmgr cause⟩
    · have hdev : rget FCT_MGR_STAT.MGR_DEV 0 0 d = src.val := hyes.2.1
      have hans := epochPrepare_answers hruns (hfol.2 hyes) hen hst hnew
      rwa [hdev] at hans
    · exact (epochCommit_switches hruns (hfol.2 hyes) hst hseq sec hns).1 i ht hfree
    · exact (epochCommit_switches hruns (hfol.2 hyes) hst hseq sec hns).2 ht hstrict

end Sys2Proof.Machine

/-! The TCAM and the Burl (R155, R156, R165): a staged word wider than 32 bits carries into the command's OP. -/

namespace Sys2Proof.Machine

open Safety

/-- A device whose slice 0 is held by owner 7 and bound to group 0 of bank A, and whose staging copy of TCM_CMD names owner 7 and holds
2^764 as its lowest word. -/
def wideEntryStaged : State :=
  { dev := { loadImg .TCM_GRPAn 0 0 (2 ^ 31 + 7 * 2 ^ 12) (rset TCM_SLICEk_OWNER.OWNER 0 0 7 {}) with
             sys := { porPin := false, chipHold := false }, faces := [(Pg.TCM, { Face.reset Pg.TCM with ready := true })],
             staged := [(stageKey .pcie Pg.TCM, { base := Reg.ofs .TCM_CMD 0 0, words := [(0, 2 ^ 764), (22, 7 * 2 ^ 16)] })] }, pending := [] }

/-- Refutes O14. The statement lets a staged word be any number. A lowest word of 2^764 carries into the image's OP, so that a WRITE of
entry 0 by the slice's owner, which nothing refuses, runs as an INVALIDATE and leaves the cell empty. -/
theorem not_tcamCommands : ¬ Obligations.TcamCommands := by
  rintro ⟨-, hcommand, -⟩
  obtain ⟨hwrite, -⟩ := hcommand .pcie 0 wideEntryStaged _ _ 0 (by decide) ⟨⟨rfl, rfl⟩, by decide +kernel, rfl, rfl⟩
    (by decide +kernel) (by decide +kernel) (by decide +kernel)
  obtain ⟨t, ht, -, -, hstored, -⟩ := hwrite rfl (by decide +kernel) (by decide +kernel)
  obtain ⟨hentry, -⟩ := hstored 0 (by decide +kernel)
  have hrun : t = { wideEntryStaged with dev := settle wideEntryStaged.dev (cmd .pcie .TCM_CMD 0 0 (go 0 30 28 0) wideEntryStaged.dev) } :=
    (Host.Outcome.next.inj ht).symm
  have hempty : t.dev.srch.tcam = [] := by
    rw [hrun, settle_srch]; decide +kernel
  have hvalid : (look t.dev.srch.tcam _ {}).valid = true := congrArg TcamEnt.valid hentry
  rw [hempty] at hvalid
  exact Bool.noConfusion hvalid

/-- A device with 24 EMPTY replicas of bank A whose staging copy of BRL_CMD holds 2^60 + 1 as its lowest word: replica 0 in MASK. -/
def wideMaskStaged : State :=
  { dev := { sys := { porPin := false, chipHold := false }, faces := [(Pg.BRL, { Face.reset Pg.BRL with ready := true })],
             staged := [(stageKey .pcie Pg.BRL, { base := Reg.ofs .BRL_CMD 0 0, words := [(0, 2 ^ 60 + 1)] })] }, pending := [] }

/-- Refutes O15. The statement lets a staged word be any number. A lowest word of 2^60 + 1 carries into the image's OP, so that an ASSIGN
of the EMPTY replica 0 to bank B, which nothing refuses, runs as a VERIFY, and the replica stays in bank A. -/
theorem not_burlReplicas : ¬ Obligations.BurlReplicas := by
  rintro ⟨hcommand, -⟩
  obtain ⟨-, hassign, -⟩ := hcommand .pcie (2 ^ 27) wideMaskStaged _ _ 0 (by decide) ⟨⟨rfl, rfl⟩, by decide +kernel, rfl, rfl⟩
  obtain ⟨t, ht, -, -, hset⟩ := hassign rfl (by decide +kernel) (by decide +kernel) (by decide +kernel)
  obtain ⟨-, hbank⟩ := (hset 0 (by decide +kernel)).1 (by decide +kernel)
  have hrun : t = { wideMaskStaged with dev := settle wideMaskStaged.dev (cmd .pcie .BRL_CMD 0 0 (go (2 ^ 27) 30 28 0) wideMaskStaged.dev) } :=
    (Host.Outcome.next.inj ht).symm
  have hstays : replBank 0 t.dev = 0 := by
    rw [hrun, replBank, rget_settle]; decide +kernel
  rw [hstays] at hbank
  exact absurd hbank (by decide +kernel)

end Sys2Proof.Machine

/-! The action engines' arithmetic (R192, R193). -/

namespace Sys2Proof.Machine

/-! The A slot's arithmetic (R192, R193): each operation on numbers is that of 64-bit words. -/

theorem w64_sub (a b : BitVec 64) : w64 (a.toNat + 2 ^ 64 - b.toNat) = (a - b).toNat := by
  have hb := b.isLt
  rw [w64, BitVec.toNat_sub, show a.toNat + 2 ^ 64 - b.toNat = 2 ^ 64 - b.toNat + a.toNat by omega]

theorem clrBits_toNat (a b : BitVec 64) : clrBits a.toNat b.toNat = (a &&& ~~~b).toNat := by
  refine Nat.eq_of_testBit_eq fun i => ?_
  rw [testBit_clrBits, BitVec.testBit_toNat, BitVec.testBit_toNat, BitVec.testBit_toNat, BitVec.getLsbD_and, BitVec.getLsbD_not]
  by_cases hi : i < 64
  · simp [hi]
  · simp [BitVec.getLsbD_of_ge a i (Nat.not_lt.1 hi)]

theorem w64_shl (a : BitVec 64) (n : Nat) : w64 (a.toNat * 2 ^ n) = (a <<< n).toNat := by
  rw [w64, BitVec.toNat_shiftLeft, Nat.shiftLeft_eq]

theorem div_shr (a : BitVec 64) (n : Nat) : a.toNat / 2 ^ n = (a >>> n).toNat := by
  rw [BitVec.toNat_ushiftRight, Nat.shiftRight_eq_div_pow]

/-- The bits that an arithmetic shift of a negative word brings in are those of the complement's logical shift, complemented. -/
theorem sar64_toNat (a : BitVec 64) (n : Nat) : sar64 a.toNat n = (a.sshiftRight n).toNat := by
  have ha := a.isLt
  cases hm : a.msb with
  | false =>
    have hlt : ¬2 ^ 63 ≤ a.toNat := by have := BitVec.msb_eq_false_iff_two_mul_lt.1 hm; omega
    rw [sar64, if_neg hlt, BitVec.sshiftRight_eq_of_msb_false hm, ← div_shr, Nat.add_zero,
      Nat.mod_eq_of_lt (lt_of_le_of_lt (Nat.div_le_self ..) ha)]
  | true =>
    have hle : 2 ^ 63 ≤ a.toNat := by have := BitVec.msb_eq_true_iff_two_mul_ge.1 hm; omega
    have hlt : (~~~a).toNat < 2 ^ n * 2 ^ 64 := lt_of_lt_of_le (BitVec.isLt _) (Nat.le_mul_of_pos_left _ (Nat.two_pow_pos n))
    have hfill : a.toNat + (2 ^ n - 1) * 2 ^ 64 = 2 ^ n * 2 ^ 64 - ((~~~a).toNat + 1) := by
      have hone : 1 * 2 ^ 64 ≤ 2 ^ n * 2 ^ 64 := Nat.mul_le_mul_right _ (Nat.two_pow_pos n)
      rw [BitVec.toNat_not, Nat.sub_mul]
      omega
    rw [sar64, if_pos hle, hfill, Nat.mul_sub_div _ _ _ hlt, BitVec.sshiftRight_eq_of_msb_true hm, div_shr, BitVec.toNat_not]
    omega

/-- The two halves of a rotation do not meet, so that their sum is their union. -/
theorem rotr64_toNat (a : BitVec 64) {n : Nat} (hn : n < 64) : rotr64 a.toNat n = (a.rotateRight n).toNat := by
  have hsplit : (2 : Nat) ^ 64 = 2 ^ n * 2 ^ (64 - n) := by rw [← Nat.pow_add, Nat.add_sub_cancel' hn.le]
  have hlow : a.toNat / 2 ^ n < 2 ^ (64 - n) := Nat.div_lt_of_lt_mul (hsplit ▸ a.isLt)
  have hhigh : a.toNat * 2 ^ (64 - n) % 2 ^ 64 = (a.toNat % 2 ^ n) <<< (64 - n) := by
    rw [hsplit, Nat.mul_mod_mul_right, Nat.shiftLeft_eq]
  have hsum : (a.rotateRight n).toNat = a.toNat * 2 ^ (64 - n) % 2 ^ 64 + a.toNat / 2 ^ n := by
    rw [BitVec.rotateRight_def, Nat.mod_eq_of_lt hn, BitVec.toNat_or, ← div_shr, ← w64_shl, w64, hhigh, Nat.or_comm,
      ← Nat.shiftLeft_add_eq_or_of_lt hlow]
  rw [← Nat.mod_eq_of_lt (a.rotateRight n).isLt, hsum, Nat.mod_add_mod, Nat.add_comm, rotr64, w64]

theorem min_toNat (a b : BitVec 64) : min a.toNat b.toNat = (if a.ult b then a else b).toNat := by
  simp only [BitVec.ult, decide_eq_true_eq]
  split
  · exact min_eq_left (by omega)
  · exact min_eq_right (by omega)

theorem max_toNat (a b : BitVec 64) : max a.toNat b.toNat = (if a.ult b then b else a).toNat := by
  simp only [BitVec.ult, decide_eq_true_eq]
  split
  · exact max_eq_right (by omega)
  · exact max_eq_left (by omega)

theorem mulLow_toNat (a b : BitVec 64) :
    a.toNat % 65536 * (b.toNat % 65536) = ((a.setWidth 16).setWidth 64 * (b.setWidth 16).setWidth 64).toNat := by
  have ha : a.toNat % 65536 < 65536 := Nat.mod_lt _ (by decide)
  have hb : b.toNat % 65536 < 65536 := Nat.mod_lt _ (by decide)
  have hprod : a.toNat % 65536 * (b.toNat % 65536) < 65536 * 65536 := Nat.mul_lt_mul'' ha hb
  simp only [BitVec.toNat_mul, BitVec.toNat_setWidth]
  rw [Nat.mod_eq_of_lt (a := a.toNat % 2 ^ 16) (by omega), Nat.mod_eq_of_lt (a := b.toNat % 2 ^ 16) (by omega)]
  exact (Nat.mod_eq_of_lt (by omega)).symm

theorem sext16_toNat (imm : BitVec 16) : sext16 imm.toNat = (imm.signExtend 64).toNat := by
  have hi := imm.isLt
  rw [BitVec.toNat_signExtend, BitVec.toNat_setWidth, sext16]
  cases hm : imm.msb with
  | false =>
    have := BitVec.msb_eq_false_iff_two_mul_lt.1 hm
    rw [if_pos (by omega)]; simp; omega
  | true =>
    have := BitVec.msb_eq_true_iff_two_mul_ge.1 hm
    rw [if_neg (by omega)]; simp; omega

theorem beq_toNat (a b : BitVec 64) : (a.toNat == b.toNat) = (a == b) := by
  rw [Bool.eq_iff_iff, beq_iff_eq, beq_iff_eq, BitVec.toNat_inj]

theorem b2n_eq_toNat (c : Bool) : b2n c = c.toNat := by cases c <;> rfl

/-! The fields of an A slot word (R192). -/

/-- The A slot word of an opcode, a destination, a first source and its low 16 bits. -/
def aWord (op rd ra low : Nat) : Nat := op * 2 ^ 26 + rd * 2 ^ 21 + ra * 2 ^ 16 + low

/-- Word w has these fields: an opcode, a destination, a first source and its low 16 bits, which are RB, RC and SH or the immediate. -/
structure AFields (w op rd ra low : Nat) : Prop where
  op : bits w 31 26 = op
  rd : bits w 25 21 = rd
  ra : bits w 20 16 = ra
  rb : bits w 15 11 = low / 2 ^ 11
  rc : bits w 10 6 = low / 2 ^ 6 % 32
  sh : bits w 5 0 = low % 64
  imm : bits w 15 0 = low

theorem aWord_fields {op rd ra low : Nat} (hop : op < 64) (hrd : rd < 32) (hra : ra < 32) (hlow : low < 2 ^ 16) :
    AFields (aWord op rd ra low) op rd ra low := by
  constructor <;> simp only [bits, aWord, Nat.shiftRight_eq_div_pow] <;> omega

theorem selLow_fields {rb rc : Nat} (hrb : rb < 32) (hrc : rc < 32) : rb * 2 ^ 11 + rc * 2 ^ 6 < 2 ^ 16 ∧ (rb * 2 ^ 11 + rc * 2 ^ 6) / 2 ^ 11 = rb ∧
    (rb * 2 ^ 11 + rc * 2 ^ 6) / 2 ^ 6 % 32 = rc ∧ (rb * 2 ^ 11 + rc * 2 ^ 6) % 64 = 0 := by
  refine ⟨?_, ?_, ?_, ?_⟩ <;> omega

/-! What a slot of each form writes (R193). -/

/-- The register that an A slot writes, with its value; none where the slot is illegal. -/
def aWrites (w : Nat) (g : Nat → Nat) : Option (Option (Nat × Nat)) := (aSlot w g).map (·.wr)

namespace AFields

variable {w op rd ra low v : Nat} {g : Nat → Nat} (h : AFields w op rd ra low)
include h

theorem ne_zero (hop : op ≠ 0) : w ≠ 0 := by
  rintro rfl
  exact hop h.op.symm

theorem aluRR (hv : aluRR op (g ra) (g (low / 2 ^ 11)) = some v) (hlow : low % 2 ^ 11 = 0) : aWrites w g = some (some (rd, v)) := by
  have hw : w ≠ 0 := h.ne_zero (by rintro rfl; cases hv)
  have hsel : op ≠ 0x14 := by rintro rfl; cases hv
  have hrc : bits w 10 6 = 0 := h.rc.trans (by omega)
  have hsh : bits w 5 0 = 0 := h.sh.trans (by omega)
  simp only [aWrites, aSlot, if_neg hw, h.op, h.rd, h.ra, h.rb, hrc, hsh, if_neg hsel, hv, and_self, if_true, Option.map_some]

theorem sel (hop : op = 0x14) (hlow : low % 64 = 0) :
    aWrites w g = some (some (rd, if g (low / 2 ^ 6 % 32) ≠ 0 then g ra else g (low / 2 ^ 11))) := by
  have hw : w ≠ 0 := h.ne_zero (by omega)
  simp only [aWrites, aSlot, if_neg hw, h.op, h.rd, h.ra, h.rb, h.rc, h.sh.trans hlow, if_pos hop, if_true, Option.map_some]

theorem aluSh (hop : 0x17 ≤ op ∧ op ≤ 0x1A) (hv : aluSh op (g ra) low = some v) (hlow : low < 64) : aWrites w g = some (some (rd, v)) := by
  have hw : w ≠ 0 := h.ne_zero (by omega)
  have hrb : bits w 15 11 = 0 := h.rb.trans (by omega)
  have hrc : bits w 10 6 = 0 := h.rc.trans (by omega)
  have hrr (x y : Nat) : Machine.aluRR op x y = none := by
    obtain ⟨hlo, hhi⟩ := hop
    interval_cases op <;> rfl
  have hr1 (x : Nat) : aluR1 op x = none := by
    obtain ⟨hlo, hhi⟩ := hop
    interval_cases op <;> rfl
  simp only [aWrites, aSlot, if_neg hw, h.op, h.rd, h.ra, hrb, hrc, h.sh, Nat.mod_eq_of_lt hlow,
    show op ≠ 0x14 by omega, if_false, hrr, hr1, hv, and_self, if_true,
    Option.map_some]

theorem addi (hop : op = 0x20) : aWrites w g = some (some (rd, w64 (g ra + sext16 low))) := by
  subst hop
  simp only [aWrites, aSlot, if_neg (h.ne_zero (by decide)), h.op, h.rd, h.ra, h.imm]
  rfl

end AFields

/-- Settles O17: each word has the fields that R192 lays out (`aWord_fields`), so that the slot writes what the model's operation on numbers
gives, and each such operation is that of 64-bit words. -/
theorem engineArithmetic : Obligations.EngineArithmetic := by
  intro rd ra rb g word res a b ret flg
  have hrb : rb.val * 2 ^ 11 < 2 ^ 16 := by omega
  have rr {op v : Nat} (hop : op < 64) (hv : aluRR op a.toNat b.toNat = some v) : res (word op) = some (some (rd.val, v)) :=
    (aWord_fields hop rd.isLt ra.isLt hrb).aluRR (by rw [Nat.mul_div_cancel _ (by decide)]; exact hv) (Nat.mul_mod_left ..)
  have word64 {op x : Nat} {v : BitVec 64} (hop : op < 64) (hv : aluRR op a.toNat b.toNat = some x) (hx : x = v.toNat) : res (word op) = ret v :=
    (rr hop hv).trans (by rw [hx])
  have test {op : Nat} {c : Bool} (hop : op < 64) (hv : aluRR op a.toNat b.toNat = some (b2n c)) : res (word op) = flg c :=
    (rr hop hv).trans (by rw [b2n_eq_toNat])
  have shift {op x : Nat} (sh : BitVec 6) {v : BitVec 64} (hop : 0x17 ≤ op ∧ op ≤ 0x1A) (hv : aluSh op a.toNat sh.toNat = some x) (hx : x = v.toNat) :
      res (op * 2 ^ 26 + rd.val * 2 ^ 21 + ra.val * 2 ^ 16 + sh.toNat) = ret v :=
    have hsh := sh.isLt
    ((aWord_fields (by omega) rd.isLt ra.isLt (by omega)).aluSh hop hv hsh).trans (by rw [hx])
  have hcount : b.toNat % 64 < 64 := Nat.mod_lt _ (by decide)
  refine ⟨word64 (by decide) rfl rfl, word64 (by decide) rfl (w64_sub a b), word64 (by decide) rfl rfl, word64 (by decide) rfl rfl,
    word64 (by decide) rfl rfl, word64 (by decide) rfl (clrBits_toNat a b), word64 (by decide) rfl (w64_shl ..), word64 (by decide) rfl (div_shr ..),
    word64 (by decide) rfl (sar64_toNat ..), word64 (by decide) rfl (rotr64_toNat a hcount), word64 (by decide) rfl (min_toNat a b),
    word64 (by decide) rfl (max_toNat a b), word64 (by decide) rfl (mulLow_toNat a b), test (c := a == b) (by decide) (by rw [← beq_toNat]; rfl),
    test (c := a != b) (by decide) (congrArg (fun c => some (b2n !c)) (beq_toNat a b)),
    test (by decide) rfl, test (by decide) rfl, fun rc => ?sel, fun imm => ?addi, fun sh => ?shifts⟩
  case sel =>
    obtain ⟨hlow, hb, hc, hz⟩ := selLow_fields rb.isLt rc.isLt
    have hsel := (aWord_fields (op := 0x14) (by decide) rd.isLt ra.isLt hlow).sel (g := fun r => (g r).toNat) rfl hz
    rw [hb, hc] at hsel
    rw [show word 0x14 + rc.val * 2 ^ 6 = aWord 0x14 rd.val ra.val (rb.val * 2 ^ 11 + rc.val * 2 ^ 6) from Nat.add_assoc ..]
    refine hsel.trans (congrArg (fun v => some (some (rd.val, v))) ?_)
    rw [ite_not, apply_ite BitVec.toNat]
    exact if_congr (BitVec.toNat_eq (y := 0)).symm rfl rfl
  case addi =>
    refine ((aWord_fields (by decide) rd.isLt ra.isLt imm.isLt).addi (g := fun r => (g r).toNat) rfl).trans ?_
    rw [sext16_toNat]
    rfl
  case shifts =>
    exact ⟨shift sh (by decide) rfl (w64_shl ..), shift sh (by decide) rfl (div_shr ..), shift sh (by decide) rfl (sar64_toNat ..),
      shift sh (by decide) rfl (rotr64_toNat a sh.isLt)⟩

end Sys2Proof.Machine

/-! The action engines' bundles, program memory and scrubber (R175, R189 to R212). -/

namespace Sys2Proof.Machine

open Safety

/-! The frame of a pass's end: the fields that it writes are those that move beside a pass and its cluster's trace, and no pending bit falls. -/

/-- The fields of its cluster's page that the end of a pass writes: ENG_STAT and the trace (R212). -/
def engEndFlds : List Fld := [ENG_STAT.CTX_USED, ENG_STAT.RUNNING, ENG_TRACE_CTRL.ARM] ++ (Reg.fields .ENG_TRACE_DATA).map (·.fld .ENG_TRACE_DATA)

/-- The key of a field that the end of a pass on cluster c writes. -/
def EndKey (c k : Nat) : Prop := KeyIn sideFlds k ∨ ∃ f ∈ engEndFlds, f.key c 0 = k

/-- VALID of a cluster's latches. -/
def latchFlds : List Fld := [ENG_ECC_ADDR.VALID, ENG_ILL_ADDR.VALID]

theorem key_of_page (f : Fld) (c i : Nat) : f.key c i = c * 2 ^ 26 + f.key 0 i := by
  simp only [Fld.key, Reg.addr]; omega

theorem latch_not_endKey {f : Fld} (hf : f ∈ latchFlds) {c : Nat} (hc : c < 64) : ¬EndKey c (f.key c 0) := by
  have hfit : ∀ f ∈ latchFlds, f.fits = true ∧ f.reg.lay.page = 0x40 := by decide
  have hapart : ∀ f ∈ latchFlds, ∀ h ∈ engEndFlds, f.key 0 0 ≠ h.key 0 0 := by decide
  rintro (hside | ⟨h, hh, heq⟩)
  · obtain ⟨hfits, hpage⟩ := hfit f hf
    refine not_side_of_page ?_ hside
    rw [key_page hfits c (by decide), hpage]
    simp only [sidePages, List.mem_cons, List.not_mem_nil, or_false]
    omega
  · rw [key_of_page f, key_of_page h] at heq
    exact hapart f hf h hh (Nat.add_left_cancel heq).symm

/-- Every pending bit of d is set in e. -/
def Pends (d e : Dev) : Prop := ∀ p n, bit (face p d).pend n = true → bit (face p e).pend n = true

/-- Device e is d but for fields whose key is in K and for what `Still` does not name, and no pending bit has fallen. -/
structure Gains (K : Nat → Prop) (d e : Dev) : Prop where
  still : Still K d e
  pends : Pends d e

namespace Gains

variable {K : Nat → Prop} {a b c d e : Dev}

theorem of_faces (h : Still K d e) (hf : e.faces = d.faces) : Gains K d e := ⟨h, fun p n hp => by rwa [face, hf]⟩

theorem refl (d : Dev) : Gains K d d := of_faces (Still.refl d) rfl

theorem trans (h : Gains K a b) (k : Gains K b c) : Gains K a c := ⟨h.still.trans k.still, fun p n hp => k.pends p n (h.pends p n hp)⟩

theorem of_ite {p : Prop} [Decidable p] (h : Gains K a b) (k : Gains K a c) : Gains K a (if p then b else c) := by
  split <;> assumption

theorem mono {L : Nat → Prop} (h : Gains K d e) (hKL : ∀ k, K k → L k) : Gains L d e := ⟨h.still.mono hKL, h.pends⟩

theorem of_inc (p k : Nat) (d : Dev) : Gains K d (inc p k d) := of_faces (Still.of_inc ..) (inc_tallies p k d).faces

theorem of_fire (p n : Nat) (d : Dev) : Gains K d (fire p n d) := by
  refine ⟨Still.of_fire .., fun q m hq => ?_⟩
  by_cases h : q = p
  · subst h
    rw [face_fire_same]
    simp only [bit, setBit, Nat.testBit_or] at hq ⊢
    rw [hq, Bool.true_or]
  · rw [(fire_beside p n d).face q, face_setFace_ne _ _ h]
    exact hq

theorem of_overrun (p : Nat) (d : Dev) : Gains K d (overrun p d) := by
  refine ⟨Still.of_overrun .., fun q m hq => ?_⟩
  rw [(overrun_beside p d).face q]
  by_cases h : q = p
  · subst h; rwa [face_setFace_same]
  · rwa [face_setFace_ne _ _ h]

theorem of_drop (code : Nat) (d : Dev) : Gains K d (drop code d) := by
  refine of_faces (Still.of_drop ..) ?_
  unfold drop
  split_ifs
  · rfl
  · exact (inc_tallies ..).faces
  · rfl

end Gains

theorem loadImg_faces (r : Reg) (g i img : Nat) (d : Dev) : (loadImg r g i img d).faces = d.faces := by
  unfold loadImg
  generalize r.fields = l
  induction l generalizing d with
  | nil => rfl
  | cons x l ih => exact ih _

theorem learnRaise_gains (ev : LrnEv) (d : Dev) : Gains (KeyIn sideFlds) d (learnRaise ev d) := by
  have level (q : List LrnEv) (d : Dev) : Gains (KeyIn sideFlds) d (setLrnQ q d) :=
    Gains.of_faces ((Still.of_onTab _ d).trans (Still.of_rset (sideKey (by decide)) ..)) rfl
  have h0 : Gains (KeyIn sideFlds) d (inc Pg.LRN 0 d) := Gains.of_inc ..
  have noted (u : Tables → Tables) := h0.trans (Gains.of_faces (Still.of_onTab u _) rfl)
  unfold learnRaise
  exact Gains.of_ite (h0.trans (Gains.of_inc ..)) (Gains.of_ite (h0.trans (Gains.of_inc ..))
    (Gains.of_ite (((noted _).trans (Gains.of_inc ..)).trans (Gains.of_fire ..)) ((noted _).trans (level ..))))

theorem unbind_faces (b : Nat) (d : Dev) : (unbind b d).faces = d.faces := by
  unfold unbind setInflight
  split <;> rfl

theorem unbind_side (b : Nat) (d : Dev) : Still (KeyIn sideFlds) d (unbind b d) := unbind_still (sideKey (by decide)) (sideKey (by decide)) b d

theorem unbind_gains {c : Nat} (b : Nat) (d : Dev) : Gains (EndKey c) d (unbind b d) :=
  Gains.of_faces ((unbind_side b d).mono fun _ => .inl) (unbind_faces b d)

section
variable {c : Nat} {f : Fld} (hf : f ∈ engEndFlds)
include hf

theorem endKey_of_mem : EndKey c (f.key c 0) := .inr ⟨f, hf, rfl⟩

theorem rset_gains (v : Nat) (d : Dev) : Gains (EndKey c) d (rset f c 0 v d) := Gains.of_faces (Still.of_rset (endKey_of_mem hf) v d) rfl

end

theorem engStat_gains (c : Nat) (d : Dev) : Gains (EndKey c) d (engStat c d) := (rset_gains (by decide) ..).trans (rset_gains (by decide) ..)

theorem engTrace_gains (p : Pass) (kind code : Nat) (d : Dev) : Gains (EndKey p.cluster) d (engTrace p kind code d) := by
  have data (img : Nat) (d : Dev) : Gains (EndKey p.cluster) d (loadImg .ENG_TRACE_DATA p.cluster 0 img d) :=
    Gains.of_faces (Still.of_loadImg (fun x hx => endKey_of_mem (List.mem_append_right _ (List.mem_map_of_mem hx))) img d) (loadImg_faces ..)
  unfold engTrace
  exact Gains.of_ite (Gains.refl d) (((data ..).trans (rset_gains (by decide) ..)).trans (Gains.of_fire ..))

/-- A pass that has ended: held with verdict v, its trace over, and with what the verdict leaves of its actions and its PCX. -/
def Pass.ended (v : Verdict) (acts : Acts) (pcx : Nat) (p : Pass) : Pass := { p with stage := .held, verdict := some v, acts := acts, pcx := pcx, traced := false }

/-- A pass that ends is held with the verdict that the machine gave, or with the program's as it is judged (R184, R197 to R200). -/
theorem endPass_ends (n : Nat) (p : Pass) (v : Verdict) (stop fault : Bool) (d : Dev) : ∃ acts pcx e, Gains (EndKey p.cluster) d e ∧
    endPass n p v stop fault d = engStat p.cluster (setPass n (p.ended (if fault then v else p.judge v d) acts pcx) e) := by
  unfold endPass
  extract_lets c v' d1 final left acts pcx
  generalize verdictKind v' = kc
  obtain ⟨k, code⟩ := kc
  dsimp -zeta only
  extract_lets d2 d3 d4 d5
  refine ⟨acts, pcx, d5, ?_, rfl⟩
  clear_value v'
  have h1 : Gains (EndKey p.cluster) d d1 := by
    unfold d1
    split
    · exact Gains.of_ite (((Gains.of_inc ..).trans (Gains.of_overrun ..)).trans (Gains.of_fire ..)) (Gains.refl d)
    · exact Gains.of_ite (Gains.of_inc ..) (Gains.of_ite (Gains.of_inc ..) (Gains.refl d))
    · exact Gains.refl d
  have h2 : Gains (EndKey p.cluster) d d2 := h1.trans (engTrace_gains ..)
  have h3 : Gains (EndKey p.cluster) d d3 := by
    unfold d3
    split
    · exact h2.trans (Gains.of_drop ..)
    · exact h2
  have h4 : Gains (EndKey p.cluster) d d4 := Gains.of_ite (h3.trans (unbind_gains ..)) h3
  have learn (ev : LrnEv) : Gains (EndKey p.cluster) d4 (learnRaise ev d4) := (learnRaise_gains ev d4).mono fun _ => .inl
  unfold d5
  split
  · split
    · exact Gains.of_ite (h4.trans (learn _)) h4
    · exact h4
  · exact h4

/-- Pass n, which was p, is held in e with verdict v; since d, no latch of its cluster has changed and no pending bit has fallen. -/
structure EndedAs (n : Nat) (p : Pass) (v : Verdict) (d e : Dev) : Prop where
  pass : ∃ q, getPass n e = some q ∧ q.stage = .held ∧ q.verdict = some v ∧ q.issued = p.issued ∧ q.forced = p.forced
  pends : Pends d e
  latches : p.cluster < 64 → ∀ f ∈ latchFlds, flag f p.cluster 0 e = flag f p.cluster 0 d

theorem endPass_held {n : Nat} {p : Pass} {v : Verdict} {stop fault : Bool} {d e : Dev} (he : Beside (endPass n p v stop fault d) e) :
    EndedAs n p (if fault then v else p.judge v d) d e := by
  obtain ⟨acts, pcx, x, hx, hrun⟩ := endPass_ends n p v stop fault d
  have hend : Gains (EndKey p.cluster) (setPass n (p.ended (if fault then v else p.judge v d) acts pcx) x) e :=
    (engStat_gains ..).trans (Gains.of_faces (Still.of_beside (hrun ▸ he)) (hrun ▸ he).faces)
  exact {
    pass := ⟨_, (hend.still.getPass n).trans (find?_ins_same ..), rfl, rfl, rfl, rfl⟩
    pends := fun q m h => hend.pends q m (hx.pends q m h)
    latches := fun hc f hf => (hend.still.flag (latch_not_endKey hf hc)).trans (hx.still.flag (latch_not_endKey hf hc)) }

/-! The latches of a cluster (R207, R208). -/

theorem bits_31_of_lt {x : Nat} (hx : x < 2 ^ 31) : bits (2 ^ 31 + x) 31 31 = 1 := by
  rw [bits, Nat.shiftRight_eq_div_pow]; omega

theorem flag_engEcc {c half w : Nat} {scratch : Bool} (himg : b2n scratch * 2 ^ 30 + half * 2 ^ 29 + w < 2 ^ 31) (hc : c < 64) (d : Dev) :
    flag ENG_ECC_ADDR.VALID c 0 (engEcc c scratch half w d) = true := by
  unfold engEcc
  extract_lets d1 img
  split
  case isTrue h => exact h
  case isFalse =>
    let v : FieldD := ⟨31, 1, .w1c, fun _ _ => 0⟩
    have hload : rget (v.fld .ENG_ECC_ADDR) c 0 (loadImg .ENG_ECC_ADDR c 0 (2 ^ 31 + img) d1) = bits (2 ^ 31 + img) 31 31 :=
      rget_loadImg c 0 (2 ^ 31 + img) List.mem_cons_self d1
    have hne : ENG_ECC_ADDR.VALID.key c 0 ≠ HWD_PTR1.LOG_NEXT.key 0 0 := by
      rw [key_of_page]
      have hapart : HWD_PTR1.LOG_NEXT.key 0 0 < ENG_ECC_ADDR.VALID.key 0 0 := by decide
      omega
    change rget ENG_ECC_ADDR.VALID c 0 (hwdLog _ _ _ _ _ _) != 0
    rw [rget_hwdLog_ne hne]
    exact bne_iff_ne.2 (by rw [show rget ENG_ECC_ADDR.VALID c 0 _ = _ from hload, bits_31_of_lt himg]; decide)

theorem face_engEcc (q c half w : Nat) (scratch : Bool) (d : Dev) : face q (engEcc c scratch half w d) = face q (fire (engPage c) 2 d) := by
  unfold engEcc
  extract_lets d1 img
  split
  · rfl
  · show face q (hwdLog _ _ _ _ _ _) = _
    rw [face_hwdLog, face, loadImg_faces]
    rfl

theorem pend_engEcc (c half w : Nat) (scratch : Bool) (d : Dev) : bit (face (engPage c) (engEcc c scratch half w d)).pend 2 = true := by
  rw [face_engEcc, face_fire_same]
  exact bit_setBit_same ..

theorem engEcc_gains (c half w : Nat) (scratch : Bool) (d : Dev) : Gains (fun _ => True) d (engEcc c scratch half w d) where
  still := engEcc_still ..
  pends q m h := by
    rw [face_engEcc]
    exact (Gains.of_fire (K := fun _ => True) ..).pends q m h

theorem flag_illLatch {c half e pc : Nat} (hhalf : half < 2) (he : e < 16) (hpc : pc < 2048) (d : Dev) :
    flag ENG_ILL_ADDR.VALID c 0 (illLatch c half e pc d) = true := by
  unfold illLatch
  extract_lets d1
  split
  case isTrue h => exact h
  case isFalse =>
    let v : FieldD := ⟨31, 1, .w1c, fun _ _ => 0⟩
    have hload : rget (v.fld .ENG_ILL_ADDR) c 0 (loadImg .ENG_ILL_ADDR c 0 (2 ^ 31 + half * 2 ^ 16 + e * 2 ^ 12 + pc) d1) = _ :=
      rget_loadImg c 0 _ List.mem_cons_self d1
    have himg : 2 ^ 31 + half * 2 ^ 16 + e * 2 ^ 12 + pc = 2 ^ 31 + (half * 2 ^ 16 + e * 2 ^ 12 + pc) := by omega
    exact bne_iff_ne.2 (by rw [show rget ENG_ILL_ADDR.VALID c 0 _ = _ from hload, himg]; exact ne_of_eq_of_ne (bits_31_of_lt (by omega)) (by decide))

/-! The pass that an engine runs (R176). -/

/-- A fold that at each element keeps what it has or takes the element ends with what it had or with an element. -/
theorem foldl_keeps_or_takes {α : Type} {f : Option α → α → Option α} (hf : ∀ a x, f a x = a ∨ f a x = some x) :
    ∀ (l : List α) (a : Option α), l.foldl f a = a ∨ ∃ x ∈ l, l.foldl f a = some x
  | [], _ => .inl rfl
  | x :: l, a => by
    obtain h | ⟨y, hy, h⟩ := foldl_keeps_or_takes hf l (f a x)
    · obtain hkeep | htake := hf a x
      · exact .inl (h.trans hkeep)
      · exact .inr ⟨x, List.mem_cons_self .., h.trans htake⟩
    · exact .inr ⟨y, List.mem_cons_of_mem _ hy, h⟩

theorem mem_of_foldl_eq_some {α : Type} {f : Option α → α → Option α} {l : List α} {x : α} (h : l.foldl f none = some x)
    (hf : ∀ a x, f a x = a ∨ f a x = some x) : x ∈ l := by
  obtain hnone | ⟨y, hy, hsome⟩ := foldl_keeps_or_takes hf l none
  · exact absurd (hnone.symm.trans h) (by simp)
  · exact Option.some.inj (h.symm.trans hsome) ▸ hy

theorem runningPass_on {c e n : Nat} {p : Pass} {d : Dev} (h : runningPass c e d = some (n, p)) : p.stage = .running ∧ p.cluster = c ∧ p.engine = e := by
  unfold runningPass at h
  have hmem := mem_of_foldl_eq_some h fun a x => by
    cases a with
    | none => exact .inr rfl
    | some y => dsimp only; split <;> simp
  simpa [and_assoc] using (List.mem_filter.1 hmem).2

/-! BUNDLE_ISSUE (R189, R190, R195 to R197, R207, R208). -/

/-- The registers after a slot's result is written; register 0 takes none (R187). -/
def slotWrite (x : Option (Nat × Nat)) (r : Tbl Nat) : Tbl Nat := match x with | some (k, v) => if k = 0 then r else put r k 0 v | none => r

/-- Register r of a pass, as a slot reads it. -/
def regOf (p : Pass) (r : Nat) : Nat := if r = 0 then 0 else look p.regs r 0

/-- The pass after a bundle whose M slot is empty: the results of its A slots written, the later slot's last. -/
def Pass.stepped (a0 a1 : SlotOut) (p : Pass) : Pass :=
  { p with regs := slotWrite a1.wr (slotWrite a0.wr p.regs), pend := p.pend ++ [], issued := p.issued + 1, last := p.pc }

theorem slotWrite_same {r v : Nat} (hr : r ≠ 0) (t : Tbl Nat) : look (slotWrite (some (r, v)) t) r 0 = v := by
  simp [slotWrite, hr]

theorem slotWrite_ne {x : Option (Nat × Nat)} {r : Nat} (hx : ∀ v, x ≠ some (r, v)) (t : Tbl Nat) : look (slotWrite x t) r 0 = look t r 0 := by
  cases x with
  | none => rfl
  | some y =>
    obtain ⟨k, v⟩ := y
    have hk : r ≠ k := fun h => hx v (h ▸ rfl)
    show look (if k = 0 then t else put t k 0 v) r 0 = look t r 0
    split
    · rfl
    · exact look_put_ne _ _ _ _ hk

/-- What a C slot asks for is told by the direction, the PCX and the actions of the pass alone. -/
theorem cSlot_congr {p q : Pass} (hegr : q.egress = p.egress) (hpcx : q.pcx = p.pcx) (hacts : q.acts = p.acts) (w pc : Nat) (g : Nat → Nat) :
    cSlot w pc g q = cSlot w pc g p := by
  simp only [cSlot, hegr, hpcx, hacts]

theorem decodeBundle_congr {p q : Pass} (hegr : q.egress = p.egress) (hpc : q.pc = p.pc) (hpcx : q.pcx = p.pcx) (hacts : q.acts = p.acts)
    (b : Nat) (g : Nat → Nat) :
    decodeBundle b g q = decodeBundle b g p := by
  simp only [decodeBundle, hegr, hpc, cSlot_congr hegr hpcx hacts]

/-- The pass as its engine issues: traced, where the trace was armed for its engine (R212). -/
def Pass.asTraced (tr : Bool) (p : Pass) : Pass := { p with traced := tr }

/-- What becomes of the bundle that pass n, which is p, issues on engine e of cluster c of device d, with only counters moved to d1 before: a damaged
program word, a stall, an illegal bundle, or the C slot's turn once the A slots have written and the M slot is empty. -/
structure BundleCases (c e n : Nat) (p : Pass) (d : Dev) (tr : Bool) (d1 x : Dev) : Prop where
  damaged : ∀ w, badBundle c p.bank p.pc d = some w → x = faultPass n (p.asTraced tr) 0x44 (engEcc c false p.bank w d1)
  stalled : badBundle c p.bank p.pc d = none → bundleStalls (bundleAt c p.bank p.pc d) p = true →
    x = inc (engPage c) 2 (setPass n { p.asTraced tr with stalls := p.stalls + 1 } d1)
  illegal : badBundle c p.bank p.pc d = none → bundleStalls (bundleAt c p.bank p.pc d) p = false →
    decodeBundle (bundleAt c p.bank p.pc d) (regOf p) p = none → x = faultPass n (p.asTraced tr) 0x41 (illLatch c p.bank e p.pc d1)
  runs : badBundle c p.bank p.pc d = none → bundleStalls (bundleAt c p.bank p.pc d) p = false → ∀ a0 a1 ru co,
    decodeBundle (bundleAt c p.bank p.pc d) (regOf p) p = some (a0, a1, (.nop, ru), co) → ∃ d2, Tallies d d2 ∧
      (∀ v, co.1 = .verdict v → x = endPass n ((p.asTraced tr).stepped a0 a1) v false false d2) ∧
      (∀ k, co.1 = .jump k → x = setPass n { (p.asTraced tr).stepped a0 a1 with pc := k } d2) ∧
      (co.1 = .nop → p.pc < 2047 → x = setPass n { (p.asTraced tr).stepped a0 a1 with pc := p.pc + 1 } d2)

theorem decodeBundle_cSlot {b : Nat} {g : Nat → Nat} {p : Pass} {a0 a1 : SlotOut} {m : MOp × List Nat} {co : COp × List Nat}
    (h : decodeBundle b g p = some (a0, a1, m, co)) : cSlot (bits b 31 0) p.pc g p = some co := by
  unfold decodeBundle at h
  split at h
  · simp_all
  · cases h

section
variable {c e corr n : Nat} {p : Pass} {d : Dev}

theorem bundleIssue_cases (hrun : runningPass c e d = some (n, p)) (hissued : p.issued < 24) :
    ∃ tr d1, Tallies d d1 ∧ BundleCases c e n p d tr d1 (bundleIssue c e corr d) := by
  obtain ⟨x, hx⟩ : ∃ x, x = bundleIssue c e corr d := ⟨_, rfl⟩
  rw [← hx]
  unfold bundleIssue at hx
  rw [hrun] at hx
  dsimp -zeta only at hx
  extract_lets half d1 other q b g wr next at hx
  rw [if_neg (Nat.not_le.2 hissued)] at hx
  have h1 : Tallies d d1 := Tallies.of_ite (inc_tallies ..) ⟨rfl⟩
  have hstill : Still (fun _ => False) d d1 := Still.of_tallies h1
  obtain ⟨tr, hq⟩ : ∃ tr, q = p.asTraced tr := by
    unfold q
    split
    · exact ⟨true, rfl⟩
    · exact ⟨p.traced, rfl⟩
  have hb : b = bundleAt c p.bank p.pc d := (congrArg (fun q : Pass => bundleAt c p.bank q.pc d1) hq).trans (hstill.bundleAt ..)
  have hbad : badBundle c half q.pc d1 = badBundle c p.bank p.pc d := (congrArg (fun q : Pass => badBundle c p.bank q.pc d1) hq).trans (hstill.badBundle ..)
  have hstalls : bundleStalls b q = bundleStalls b p := by rw [hq]; rfl
  have hg : g = regOf p := funext fun r => by unfold g; rw [hq]; rfl
  have hdecode : decodeBundle b g q = decodeBundle b (regOf p) p := by
    rw [hg, hq]; exact decodeBundle_congr rfl rfl rfl rfl ..
  have hpc : q.pc = p.pc := by rw [hq]; rfl
  rw [hbad, hstalls, hdecode, hb] at hx
  refine ⟨tr, d1, h1, fun w hw => ?_, fun hw hs => ?_, fun hw hs hd => ?_, fun hw hs a0 a1 ru co hd => ?_⟩
  · rw [hw] at hx
    rw [hx, hq]
  · rw [hw] at hx
    dsimp only at hx
    rw [if_pos hs] at hx
    rw [hx, hq]
    rfl
  · rw [hw] at hx
    dsimp only at hx
    rw [if_neg (by rw [hs]; decide), hd] at hx
    rw [hx, hpc, hq]
  · rw [hw] at hx
    dsimp -zeta only at hx
    rw [if_neg (by rw [hs]; decide), hd] at hx
    dsimp -zeta only at hx
    extract_lets d3 d4 src q2 at hx
    have h4 : Tallies d d4 := (h1.trans (incBy_tallies ..)).trans (inc_tallies ..)
    have hq2 : q2 = (p.asTraced tr).stepped a0 a1 := hq ▸ (rfl : q2 = q.stepped a0 a1)
    have hco : cSlot (bits (bundleAt c p.bank p.pc d) 31 0) q.pc g q2 = some co := by
      rw [hq2, hpc, hg]
      exact (cSlot_congr rfl rfl rfl ..).trans (decodeBundle_cSlot hd)
    rw [show (mExec .nop g c q d3).1.ecc = none from rfl, hco] at hx
    clear_value d4 q2
    obtain ⟨op, uses⟩ := co
    cases op with
    | nop =>
      refine ⟨d4, h4, by simp, by simp, fun _ hlt => ?_⟩
      have hne : q.pc ≠ 2047 := by omega
      dsimp only [Option.map_some, Option.getD_some] at hx
      rw [hx, hq2]
      unfold next
      rw [if_neg hne, hpc]
    | jump k =>
      refine ⟨d4, h4, by simp, fun j hj => ?_, by simp⟩
      rw [hx, hq2, ← COp.jump.inj hj]
      rfl
    | verdict v =>
      refine ⟨inc (engPage c) (3 + (verdictKind v).1) d4, h4.trans (inc_tallies ..), fun u hu => ?_, by simp, by simp⟩
      rw [hx, hq2, ← COp.verdict.inj hu]
      cases v <;> rfl
    | act f => exact ⟨d4, h4, by simp, by simp, by simp⟩
    | pcx y => exact ⟨d4, h4, by simp, by simp, by simp⟩

end

theorem decodeBundle_eq_some {b : Nat} {g : Nat → Nat} {p : Pass} {a0 a1 : SlotOut} {m : MOp × List Nat} {co : COp × List Nat}
    (h0 : aSlot (bits b 127 96) g = some a0) (h1 : aSlot (bits b 95 64) g = some a1) (hm : mSlot (bits b 63 32) p.egress g = some m)
    (hc : cSlot (bits b 31 0) p.pc g p = some co) : decodeBundle b g p = some (a0, a1, m, co) := by
  unfold decodeBundle
  rw [h0, h1, hm, hc]

theorem decodeBundle_eq_none {b : Nat} {g : Nat → Nat} {p : Pass}
    (h : aSlot (bits b 127 96) g = none ∨ aSlot (bits b 95 64) g = none ∨ mSlot (bits b 63 32) p.egress g = none ∨ cSlot (bits b 31 0) p.pc g p = none) :
    decodeBundle b g p = none := by
  unfold decodeBundle
  split
  case h_1 h0 h1 hm hc => simp [h0, h1, hm, hc] at h
  case h_2 => rfl

/-- A verdict that a pass's window and target allow stands as it is (R184, R198 to R200, R233). -/
theorem judge_stands {p : Pass} {v : Verdict} {d : Dev} (hwin : p.hstart ≤ p.hend) (hend : p.hend ≤ 256) (hmin : 14 ≤ p.newLen) (hmax : p.newLen ≤ 16383) :
    (∀ k nh, v = .fwd k nh → k ≤ 0x1FFFF → p.judge v d = .fwd k nh) ∧ (∀ h, v = .punt h → p.judge v d = .punt h) ∧
      (∀ x, v = .drop x → x ≠ 0 → p.judge v d = .drop x) ∧ (∀ f, v = .recirc f → PX.PASS.get p.pcx ≠ 3 → p.judge v d = .recirc f) ∧
      (∀ a, v = .send a → (a = true → p.adjOk = true) → p.newLen ≤ pget LPG_PORTn_CFG.MAX_FRAME (bits p.ctx 76 69) d → p.judge v d = .send a) := by
  have hwhole : ¬(p.hend < p.hstart ∨ 256 < p.hend ∨ 16383 < p.newLen ∨ p.newLen < 14) := by omega
  refine ⟨?_, ?_, ?_, ?_, ?_⟩
  · rintro k nh rfl hk
    simp only [Pass.judge, if_neg hwhole, if_neg (Nat.not_lt.2 hk)]
  · rintro h rfl
    simp only [Pass.judge, if_neg hwhole]
  · rintro x rfl hx
    simp only [Pass.judge, if_neg hwhole, if_neg hx]
  · rintro f rfl hf
    simp only [Pass.judge, if_neg hwhole, if_neg hf]
  · rintro a rfl ha hlen
    have hadj : ¬(a && !p.adjOk) = true := by cases a <;> simp_all
    simp only [Pass.judge, if_neg hwhole, if_neg hadj, if_neg (Nat.not_lt.2 hlen)]

theorem pget_tallies {d e : Dev} (h : Tallies d e) (f : Fld) (n : Nat) : pget f n e = pget f n d := h.rget ..

theorem bank_lt (p : Pass) : p.bank < 2 := by
  unfold Pass.bank
  split
  · exact bits_lt p.ctx 177 177
  · exact bits_lt p.pcx _ _

section
variable {c : Fin 64} {e : Fin 16} {corr : Fin 5} {n : Nat} {s : State} {d : Dev} {p : Pass} (hruns : Runs (33 + c.val) s d)
  (hpass : runningPass c.val e.val d = some (n, p))
include hruns hpass

section
variable (hissued : p.issued < 24)
include hissued

/-- BUNDLE_ISSUE of a bundle of the half with a damaged word latches it and ends the pass with 0x44 (R208). -/
theorem bundleIssue_damaged {x : Nat} (hpc : p.pc < 2048) (hbad : badBundle c.val p.bank p.pc d = some x) :
    Does (.bundleIssue c e corr) s fun t => flag ENG_ECC_ADDR.VALID c.val 0 t = true ∧
      bit (face (engPage c.val) t).pend 2 = true ∧ ∃ q, getPass n t = some q ∧ q.stage = .held ∧ q.verdict = some (.drop 0x44) := by
  refine act_does (f := bundleIssue c.val e.val corr.val) rfl hruns fun t ht => ?_
  obtain ⟨tr, d1, -, hcases⟩ := bundleIssue_cases (corr := corr.val) hpass hissued
  rw [hcases.damaged x hbad] at ht
  have hhalf := bank_lt p
  have himg : b2n false * 2 ^ 30 + p.bank * 2 ^ 29 + x < 2 ^ 31 := by
    have hx := List.find?_some hbad
    simp only [Bool.or_eq_true, beq_iff_eq] at hx
    simp only [b2n, Bool.false_eq_true, if_false]
    omega
  have hcl : (p.asTraced tr).cluster = c.val := (runningPass_on hpass).2.1
  have hheld := endPass_held ht
  have hlatch := hheld.latches (hcl ▸ c.isLt) ENG_ECC_ADDR.VALID (by decide)
  rw [hcl, flag_engEcc himg c.isLt] at hlatch
  obtain ⟨q, hq, hstage, hverdict, -⟩ := hheld.pass
  exact ⟨hlatch, hheld.pends _ _ (pend_engEcc ..), q, hq, hstage, hverdict⟩

/-- BUNDLE_ISSUE of a bundle that names a register with a pending scratch result stalls (R190). -/
theorem bundleIssue_stalls (hbad : badBundle c.val p.bank p.pc d = none) (hstalls : bundleStalls (bundleAt c.val p.bank p.pc d) p = true) :
    Does (.bundleIssue c e corr) s fun t => ∃ q, getPass n t = some q ∧
      q.stalls = p.stalls + 1 ∧ q.pc = p.pc ∧ q.issued = p.issued ∧ q.regs = p.regs ∧ q.pend = p.pend := by
  refine act_does (f := bundleIssue c.val e.val corr.val) rfl hruns fun t ht => ?_
  obtain ⟨tr, d1, -, hcases⟩ := bundleIssue_cases (corr := corr.val) hpass hissued
  rw [hcases.stalled hbad hstalls] at ht
  have hkept : Still (fun _ => True) (setPass n { p.asTraced tr with stalls := p.stalls + 1 } d1) t := (Still.of_inc ..).trans (Still.of_beside ht)
  exact ⟨_, (hkept.getPass n).trans (find?_ins_same ..), rfl, rfl, rfl, rfl, rfl⟩

/-- BUNDLE_ISSUE of an illegal bundle of the half latches its place and ends the pass with 0x41 (R207). -/
theorem bundleIssue_illegal (hpc : p.pc < 2048) (hbad : badBundle c.val p.bank p.pc d = none)
    (hgo : bundleStalls (bundleAt c.val p.bank p.pc d) p = false) (hslot : let b := bundleAt c.val p.bank p.pc d
      aSlot (bits b 127 96) (regOf p) = none ∨ aSlot (bits b 95 64) (regOf p) = none ∨ mSlot (bits b 63 32) p.egress (regOf p) = none ∨
        cSlot (bits b 31 0) p.pc (regOf p) p = none) :
    Does (.bundleIssue c e corr) s fun t => flag ENG_ILL_ADDR.VALID c.val 0 t = true ∧
      ∃ q, getPass n t = some q ∧ q.stage = .held ∧ q.verdict = some (.drop 0x41) := by
  refine act_does (f := bundleIssue c.val e.val corr.val) rfl hruns fun t ht => ?_
  obtain ⟨tr, d1, -, hcases⟩ := bundleIssue_cases (corr := corr.val) hpass hissued
  rw [hcases.illegal hbad hgo (decodeBundle_eq_none hslot)] at ht
  have hcl : (p.asTraced tr).cluster = c.val := (runningPass_on hpass).2.1
  have hheld := endPass_held ht
  have hlatch := hheld.latches (hcl ▸ c.isLt) ENG_ILL_ADDR.VALID (by decide)
  rw [hcl, flag_illLatch (bank_lt p) e.isLt hpc] at hlatch
  obtain ⟨q, hq, hstage, hverdict, -⟩ := hheld.pass
  exact ⟨hlatch, q, hq, hstage, hverdict⟩

section
variable (hbad : badBundle c.val p.bank p.pc d = none) (hgo : bundleStalls (bundleAt c.val p.bank p.pc d) p = false) {a0 a1 : SlotOut}
  {m : MOp × List Nat} {co : COp × List Nat} (h0 : aSlot (bits (bundleAt c.val p.bank p.pc d) 127 96) (regOf p) = some a0)
  (h1 : aSlot (bits (bundleAt c.val p.bank p.pc d) 95 64) (regOf p) = some a1)
  (hm : mSlot (bits (bundleAt c.val p.bank p.pc d) 63 32) p.egress (regOf p) = some m) (hnop : m.1 = .nop)
  (hc : cSlot (bits (bundleAt c.val p.bank p.pc d) 31 0) p.pc (regOf p) p = some co)
include hbad hgo h0 h1 hm hnop hc

/-- BUNDLE_ISSUE of a bundle without an M slot's work and without a verdict writes the A slots' results and goes to the next bundle or to the branch's
target (R189, R195). -/
theorem bundleIssue_steps (hgoes : co.1 = .nop ∨ ∃ k, co.1 = .jump k) (hpc : p.pc < 2047) :
    Does (.bundleIssue c e corr) s fun t => ∃ q, getPass n t = some q ∧
      q.issued = p.issued + 1 ∧ (co.1 = .nop → q.pc = p.pc + 1) ∧ (∀ k, co.1 = .jump k → q.pc = k) ∧ q.win = p.win ∧ q.pcx = p.pcx ∧
      (∀ r v, a1.wr = some (r, v) → r ≠ 0 → look q.regs r 0 = v) ∧
      (∀ r v, a0.wr = some (r, v) → r ≠ 0 → (∀ v', a1.wr ≠ some (r, v')) → look q.regs r 0 = v) ∧
      (∀ r, (∀ v, a0.wr ≠ some (r, v)) → (∀ v, a1.wr ≠ some (r, v)) → look q.regs r 0 = look p.regs r 0) := by
  refine act_does (f := bundleIssue c.val e.val corr.val) rfl hruns fun t ht => ?_
  obtain ⟨tr, d1, -, hcases⟩ := bundleIssue_cases (corr := corr.val) hpass hissued
  obtain ⟨op, ru⟩ := m
  obtain rfl : op = .nop := hnop
  obtain ⟨d2, -, -, hjump, hnext⟩ := hcases.runs hbad hgo a0 a1 ru co (decodeBundle_eq_some h0 h1 hm hc)
  have hregs : ∀ q : Pass, q.regs = slotWrite a1.wr (slotWrite a0.wr p.regs) → (∀ r v, a1.wr = some (r, v) → r ≠ 0 → look q.regs r 0 = v) ∧
      (∀ r v, a0.wr = some (r, v) → r ≠ 0 → (∀ v', a1.wr ≠ some (r, v')) → look q.regs r 0 = v) ∧
      (∀ r, (∀ v, a0.wr ≠ some (r, v)) → (∀ v, a1.wr ≠ some (r, v)) → look q.regs r 0 = look p.regs r 0) := by
    intro q hq
    rw [hq]
    refine ⟨fun r v h1 hr => ?_, fun r v h0 hr h1 => ?_, fun r h0 h1 => ?_⟩
    · rw [h1, slotWrite_same hr]
    · rw [slotWrite_ne h1, h0, slotWrite_same hr]
    · rw [slotWrite_ne h1, slotWrite_ne h0]
  obtain hco | ⟨k, hco⟩ := hgoes
  · rw [hnext hco hpc] at ht
    exact ⟨_, (congrArg (fun h : Head => find? h.passes n) ht.head).trans (find?_ins_same ..), rfl, fun _ => rfl, fun k hk => absurd (hco.symm.trans hk) (by simp),
      rfl, rfl, hregs _ rfl⟩
  · rw [hjump k hco] at ht
    exact ⟨_, (congrArg (fun h : Head => find? h.passes n) ht.head).trans (find?_ins_same ..), rfl, fun h => absurd (hco.symm.trans h) (by simp),
      fun j hj => COp.jump.inj (hco.symm.trans hj), rfl, rfl, hregs _ rfl⟩

/-- BUNDLE_ISSUE of a bundle with a verdict ends the pass; a verdict that its window and target allow is the one held (R184, R197). -/
theorem bundleIssue_ends {v : Verdict} (hco : co.1 = .verdict v) :
    Does (.bundleIssue c e corr) s fun t => ∃ q, getPass n t = some q ∧
      q.stage = .held ∧ q.issued = p.issued + 1 ∧ ∃ v', q.verdict = some v' ∧ (p.hstart ≤ p.hend → p.hend ≤ 256 → 14 ≤ p.newLen →
        p.newLen ≤ 16383 → (∀ k nh, v = .fwd k nh → k ≤ 0x1FFFF → v' = .fwd k nh) ∧ (∀ h, v = .punt h → v' = .punt h) ∧
        (∀ x, v = .drop x → x ≠ 0 → v' = .drop x) ∧ (∀ f, v = .recirc f → PX.PASS.get p.pcx ≠ 3 → v' = .recirc f) ∧
        (∀ a, v = .send a → (a = true → p.adjOk = true) → p.newLen ≤ pget LPG_PORTn_CFG.MAX_FRAME (bits p.ctx 76 69) d → v' = .send a)) := by
  refine act_does (f := bundleIssue c.val e.val corr.val) rfl hruns fun t ht => ?_
  obtain ⟨tr, d1, -, hcases⟩ := bundleIssue_cases (corr := corr.val) hpass hissued
  obtain ⟨op, ru⟩ := m
  obtain rfl : op = .nop := hnop
  obtain ⟨d2, h2, hverdict, -⟩ := hcases.runs hbad hgo a0 a1 ru co (decodeBundle_eq_some h0 h1 hm hc)
  rw [hverdict v hco] at ht
  obtain ⟨q, hq, hstage, hv, hcount, -⟩ := (endPass_held ht).pass
  refine ⟨q, hq, hstage, hcount, _, hv, fun hwin hend hmin hmax => ?_⟩
  have hmtu := pget_tallies h2 LPG_PORTn_CFG.MAX_FRAME (bits p.ctx 76 69)
  rw [← hmtu]
  exact judge_stands (p := (p.asTraced tr).stepped a0 a1) hwin hend hmin hmax

end
end

/-- SCRATCH_LOAD_LAND writes the oldest pending scratch result (R189). -/
theorem scratchLoadLand_leaves {r v : Nat} {rest : List (Nat × Nat)} (hpend : p.pend = (r, v) :: rest) :
    Leaves (.scratchLoadLand c e) s (setPass n { p with pend := rest, regs := if r = 0 then p.regs else put p.regs r 0 v } d) := by
  refine act_does (f := scratchLand c.val e.val) rfl hruns fun t ht => ?_
  simpa only [scratchLand, hpass, hpend] using ht

/-- BUDGET_STOP ends a pass after 24 bundles: an egress pass is dropped with 0x40, an ingress pass follows the configuration bundle (R203, R204). -/
theorem budgetStop_does (hissued : 24 ≤ p.issued) :
    Does (.budgetStop c e) s fun t => bit (face (engPage c.val) t).pend 0 = true ∧ ∃ q, getPass n t = some q ∧ q.stage = .held ∧
      (p.egress = false → (badBundle c.val p.bank 16 d).isSome = true → q.verdict = some (.drop 0x44)) ∧
      (p.egress = true ∨ badBundle c.val p.bank 16 d = none → p.egress = true ∨ bit (bundleAt c.val p.bank 16 d) 0 = false →
        q.verdict = some (.drop 0x40)) ∧
      (p.egress = false → badBundle c.val p.bank 16 d = none → bit (bundleAt c.val p.bank 16 d) 0 = true → q.forced = true ∧ ∃ v, q.verdict = some v) := by
  refine act_does (f := budgetStop c.val e.val) rfl hruns fun t ht => ?_
  unfold budgetStop at ht
  rw [hpass] at ht
  dsimp -zeta only at ht
  rw [if_neg (Nat.not_lt.2 hissued)] at ht
  extract_lets d1 cfg at ht
  have hstill : Still (fun _ => False) d d1 := (Still.of_overrun ..).trans (Still.of_fire ..)
  have hpend : bit (face (engPage c.val) d1).pend 0 = true := by
    unfold d1
    rw [face_fire_same]
    exact bit_setBit_same ..
  have hcfg : cfg = bundleAt c.val p.bank 16 d := hstill.bundleAt ..
  rw [hstill.badBundle, hcfg] at ht
  clear_value d1
  split at ht
  case isTrue h =>
    obtain ⟨hegr, hbad⟩ : p.egress = false ∧ (badBundle c.val p.bank 16 d).isSome = true := by simpa using h
    have hend := endPass_held ht
    obtain ⟨q, hq, hstage, hverdict, -⟩ := hend.pass
    refine ⟨hend.pends _ _ ((engEcc_gains ..).pends _ _ hpend), q, hq, hstage, fun _ _ => hverdict, fun h => ?_, fun _ h => ?_⟩
    · simp [hegr, Option.isSome_iff_ne_none.1 hbad] at h
    · simp [h] at hbad
  case isFalse h =>
    have hgood : p.egress = false → badBundle c.val p.bank 16 d = none := by simpa using h
    split at ht
    case isTrue h =>
      obtain ⟨hegr, hrecirc⟩ : p.egress = false ∧ bit (bundleAt c.val p.bank 16 d) 0 = true := by simpa using h
      have hend := endPass_held ht
      obtain ⟨q, hq, hstage, hverdict, -, hforced⟩ := hend.pass
      refine ⟨hend.pends _ _ ((Gains.of_inc (K := fun _ => True) ..).pends _ _ hpend), q, hq, hstage,
        fun _ h => ?_, fun _ h => ?_, fun _ _ _ => ⟨hforced, _, hverdict⟩⟩
      · simp [hgood hegr] at h
      · simp [hegr, hrecirc] at h
    case isFalse h =>
      have hdrop : p.egress = false → bit (bundleAt c.val p.bank 16 d) 0 = false := by simpa using h
      have hend := endPass_held ht
      obtain ⟨q, hq, hstage, hverdict, -⟩ := hend.pass
      refine ⟨hend.pends _ _ ((Gains.of_inc (K := fun _ => True) ..).pends _ _ hpend), q, hq, hstage, fun hegr h => ?_, fun _ _ => hverdict, fun hegr _ h => ?_⟩
      · simp [hgood hegr] at h
      · simp [hdrop hegr] at h

end

/-- CLUSTER_DRAINED ends the BUSY of a disabled cluster that holds no pass (R175). -/
theorem clusterDrained_leaves {c : Fin 64} {s : State} {d : Dev} (hruns : Runs (33 + c.val) s d) (hbusy : (face (Pg.ENG + c.val) d).busy = true)
    (hen : (face (Pg.ENG + c.val) d).en = false) (hfree : ctxUsed c.val d = 0) :
    Leaves (.clusterDrained c) s (setFace (Pg.ENG + c.val) { face (Pg.ENG + c.val) d with busy := false } d) := by
  refine act_does (f := clusterDrained c.val) rfl hruns fun t ht => ?_
  simpa [clusterDrained, hbusy, hen, hfree] using ht

/-! Program memory and the scrubber (R206, R208, R212). -/

@[simp] theorem cluster_setCluster_same (c : Nat) (x : Cluster) (d : Dev) : cluster c (setCluster c x d) = x := look_put_same ..

theorem cluster_setCluster_ne {c t : Nat} (h : t ≠ c) (x : Cluster) (d : Dev) : cluster t (setCluster c x d) = cluster t d := look_put_ne _ _ _ _ h

/-- The device once bundle b of a half is img in cluster t, its damage gone. -/
def storeBundle (half b img : Nat) (d : Dev) (t : Nat) : Dev :=
  let x := cluster t d
  setCluster t { x with imem := put x.imem (half * 2048 + b) 0 img, badImem := x.badImem.filter (fun w => w / 2 != half * 2048 + b) } d

section
variable {half b img : Nat}

theorem bundleAt_storeBundle_same (d : Dev) (t : Nat) : bundleAt t half b (storeBundle half b img d t) = img := by
  simp [bundleAt, storeBundle]

theorem bundleAt_storeBundle_ne {t u h k : Nat} (hne : u ≠ t ∨ h * 2048 + k ≠ half * 2048 + b) (d : Dev) :
    bundleAt u h k (storeBundle half b img d t) = bundleAt u h k d := by
  unfold bundleAt storeBundle
  by_cases hu : u = t
  · subst hu
    rw [cluster_setCluster_same]
    exact look_put_ne _ _ _ _ (hne.resolve_left fun h => h rfl)
  · rw [cluster_setCluster_ne hu]

theorem bundleAt_foldl_other {h k : Nat} (hne : h * 2048 + k ≠ half * 2048 + b) (u : Nat) :
    ∀ (l : List Nat) (d : Dev), bundleAt u h k (l.foldl (storeBundle half b img) d) = bundleAt u h k d
  | [], _ => rfl
  | _ :: l, d => (bundleAt_foldl_other hne u l _).trans (bundleAt_storeBundle_ne (.inr hne) d)

theorem bundleAt_foldl_mem {u : Nat} : ∀ (l : List Nat) (d : Dev), u ∈ l ∨ bundleAt u half b d = img →
    bundleAt u half b (l.foldl (storeBundle half b img) d) = img
  | [], _, h => h.resolve_left List.not_mem_nil
  | t :: l, d, h => bundleAt_foldl_mem l _ <| by
    by_cases hu : u = t
    · exact .inr (hu ▸ bundleAt_storeBundle_same d u)
    · exact h.imp (fun hm => (List.mem_cons.1 hm).resolve_left hu) fun hd => (bundleAt_storeBundle_ne (.inl hu) d).trans hd

end

/-- The clusters that a write of ENG_IMEM_DATA of cluster c reaches (R206). -/
def imemTargets (c : Nat) (d : Dev) : List Nat := if flag ENG_IMEM_ADDR.BCAST c 0 d then sameDir c d else [c]

theorem imemWrite_stores {c img : Nat} {d : Dev} (h : bankBusy (rget ENG_IMEM_ADDR.HALF c 0 d) d = false) :
    imemWrite c img d = rset ENG_IMEM_ADDR.BUNDLE c 0 ((rget ENG_IMEM_ADDR.BUNDLE c 0 d + 1) % 2048) (rset ENG_IMEM_DATA.BUNDLE c 0 img
      ((imemTargets c d).foldl (storeBundle (rget ENG_IMEM_ADDR.HALF c 0 d) (rget ENG_IMEM_ADDR.BUNDLE c 0 d) img) d)) := by
  unfold imemWrite
  dsimp only
  rw [h]
  rfl

theorem self_mem_imemTargets {c : Nat} (hc : c < 64) (d : Dev) : c ∈ imemTargets c d := by
  unfold imemTargets
  split
  · exact List.mem_filter.2 ⟨List.mem_range.2 hc, beq_self_eq_true _⟩
  · exact List.mem_singleton_self c

@[simp] theorem keyTick_disp (req : Requester) (k : Option Nat) (d : Dev) : (keyTick req k d).disp = d.disp := by
  have h := congrArg Dev.disp (keyTick_frame req k d)
  exact h

/-- A trace control word with ARM set stores its engine and arms the trace (R212). -/
theorem engTraceCtrl_stores {c img : Nat} (harm : ENG_TRACE_CTRL.ARM.of img = 1) (d : Dev) :
    storeFields true .ENG_TRACE_CTRL c 0 img d = rset ENG_TRACE_CTRL.ENGINE c 0 (ENG_TRACE_CTRL.ENGINE.of img) (rset ENG_TRACE_CTRL.ARM c 0 1 d) := by
  simp only [storeFields, Reg.fields, List.foldl_cons, List.foldl_nil, if_true]
  rw [show bits img (31 + 1 - 1) 31 = 1 from harm]
  rfl

theorem lies_ENG_IMEM_DATA (c : Fin 64) : Lies .ENG_IMEM_DATA c.val 0 = true := by
  revert c; decide +kernel

theorem lies_ENG_TRACE_CTRL (c : Fin 64) : Lies .ENG_TRACE_CTRL c.val 0 = true := by
  revert c; decide +kernel

section
variable {req : Requester} {c : Fin 64} {w : BitVec 32} {s : State} {d : Dev} {img : Nat}

theorem imemWrite_writes (hcom : Commits req .ENG_IMEM_DATA c.val 0 w.toNat s d img) : Writes req (.imemWrite req c w) s (imemWrite c.val img d) :=
  cmd_writes rfl (lies_ENG_IMEM_DATA c) hcom

/-- IMEM_WRITE to a half of a bank that is current or in a switch is refused (R206, R226). -/
theorem imemWrite_refused (hcom : Commits req .ENG_IMEM_DATA c.val 0 w.toNat s d img) (hbusy : bankBusy (rget ENG_IMEM_ADDR.HALF c.val 0 d) d = true) :
    Writes req (.imemWrite req c w) s (errAt Err.EPOCH_BUSY .ENG_IMEM_DATA c.val 0 d) := by
  have h := imemWrite_writes hcom
  unfold imemWrite at h
  dsimp only at h
  rwa [hbusy] at h

/-- IMEM_WRITE stores the bundle, in every cluster of the direction where BCAST is 1, and advances BUNDLE (R206). -/
theorem imemWrite_does (hcom : Commits req .ENG_IMEM_DATA c.val 0 w.toNat s d img) (hfree : bankBusy (rget ENG_IMEM_ADDR.HALF c.val 0 d) d = false) :
    let half := rget ENG_IMEM_ADDR.HALF c.val 0 d
    let b := rget ENG_IMEM_ADDR.BUNDLE c.val 0 d
    Does (.imemWrite req c w) s fun e =>
      bundleAt c.val half b e = img ∧ rget ENG_IMEM_ADDR.BUNDLE c.val 0 e = (b + 1) % 2048 ∧
      (flag ENG_IMEM_ADDR.BCAST c.val 0 d = true → ∀ t ∈ sameDir c.val d, bundleAt t half b e = img) ∧
      (flag ENG_IMEM_ADDR.BCAST c.val 0 d = false → ∀ t, t ≠ c.val → cluster t e = cluster t d) ∧
      ∀ t h k, h * 2048 + k ≠ half * 2048 + b → bundleAt t h k e = bundleAt t h k d := by
  intro half b
  obtain ⟨t, hrun, hpend, ht⟩ := imemWrite_writes hcom
  rw [imemWrite_stores hfree] at ht
  generalize hx : (imemTargets c.val d).foldl (storeBundle half b img) d = x at ht
  have hdisp : t.dev.disp = x.disp := ht.disp.trans (keyTick_disp ..)
  have hcl (u : Nat) : cluster u t.dev = cluster u x := by simp only [cluster, hdisp]
  have hat (u h k : Nat) : bundleAt u h k t.dev = bundleAt u h k x := by simp only [bundleAt, hcl]
  have hstored {u : Nat} (hu : u ∈ imemTargets c.val d) : bundleAt u half b t.dev = img := by
    rw [hat, ← hx]; exact bundleAt_foldl_mem _ _ (.inl hu)
  refine ⟨t, hrun, hpend, hstored (self_mem_imemTargets c.isLt d), ?_, fun hb u hu => hstored ?_, fun hb u hu => ?_, fun u h k hne => ?_⟩
  · rw [ht.rget, rget_keyTick, rget_rset_same]
    exact Nat.mod_mod ..
  · rwa [imemTargets, if_pos hb]
  · rw [hcl, ← hx, imemTargets, hb]
    exact cluster_setCluster_ne hu ..
  · rw [hat, ← hx, bundleAt_foldl_other hne]

/-- ENG_TRACE_ARM arms the trace for the named engine under EXPERT (R212). -/
theorem engTraceArm_does (hcom : Commits req .ENG_TRACE_CTRL c.val 0 (force w [(31, 31, 1)]) s d img) :
    (expertOf (engPage c.val) d = true → Writes req (.engTraceArm req c w) s
      (rset ENG_TRACE_CTRL.ENGINE c.val 0 (ENG_TRACE_CTRL.ENGINE.of img) (rset ENG_TRACE_CTRL.ARM c.val 0 1 d))) ∧
    (expertOf (engPage c.val) d = false → Writes req (.engTraceArm req c w) s (errAt Err.EXPERT_LOCKED .ENG_TRACE_CTRL c.val 0 d)) := by
  have h : Writes req (.engTraceArm req c w) s (commit req .ENG_TRACE_CTRL c.val 0 img d) := cmd_writes rfl (lies_ENG_TRACE_CTRL c) hcom
  have harm : ENG_TRACE_CTRL.ARM.of img = 1 := (congrArg _ (img_eq_of_one_word hcom rfl)).trans (arm_of_force w)
  rw [commit_plain rfl rfl rfl, if_pos (by decide), expertWrite, engTraceCtrl_stores harm] at h
  rw [show Reg.ENG_TRACE_CTRL.lay.page + c.val = engPage c.val from rfl] at h
  exact ⟨fun hex => by rwa [hex] at h, fun hex => by rwa [hex] at h⟩

theorem placeAt_ENG_IMEM_DATA (c : Fin 64) : placeAt (engPage c.val) 0x120 = some ⟨.ENG_IMEM_DATA, c.val, 0, 0⟩ ∧ pageExists (engPage c.val) = true ∧
    inMsix (engPage c.val) 0x120 = false ∧ isCounter (engPage c.val) 0x120 = false := by
  revert c; decide +kernel

/-- IMEM_READ fetches the addressed bundle and answers its lowest word (R206). -/
theorem imemRead_does (ht : Taken req s) :
    let d := reached (engPage c.val) s
    let v := bundleAt c.val (rget ENG_IMEM_ADDR.HALF c.val 0 d) (rget ENG_IMEM_ADDR.BUNDLE c.val 0 d) d
    Does (.imemRead req c) s fun e => rget ENG_IMEM_DATA.BUNDLE c.val 0 e = v % 2 ^ 128 ∧ e.disp = d.disp ∧
      Out.readReply req (Reg.addr .ENG_IMEM_DATA c.val 0) (v % 2 ^ 32) ∈ e.out := by
  intro d v
  obtain ⟨hplace, hpage, hmsix, hctr⟩ := placeAt_ENG_IMEM_DATA c
  have hbundle : rget ENG_IMEM_DATA.BUNDLE c.val 0 (Machine.imemRead c.val d) = v % 2 ^ 128 := rget_rset_same ..
  have hword : imgWord (regImg .ENG_IMEM_DATA c.val 0 (Machine.imemRead c.val d)) 0 = v % 2 ^ 32 := by
    have himg : regImg .ENG_IMEM_DATA c.val 0 (Machine.imemRead c.val d) = v % 2 ^ 128 := by
      rw [← hbundle, regImg]
      exact Nat.zero_or _
    rw [himg, imgWord, bits, Nat.shiftRight_zero]
    exact Nat.mod_mod_of_dvd v (by decide)
  have haddr : Reg.addr .ENG_IMEM_DATA c.val 0 = engPage c.val * 65536 + 0x120 := by
    simp [Reg.addr, Reg.lay, engPage]
  have hread : ∃ snaps, readLow req .ENG_IMEM_DATA c.val 0 s.dev =
      emit (.readReply req (Reg.addr .ENG_IMEM_DATA c.val 0) (v % 2 ^ 32)) { Machine.imemRead c.val d with snaps := snaps } := by
    have hbus := busRead_taken (p := engPage c.val) (o := 0x120) ht hpage (by decide) (by decide)
    rw [wordRead_effect (by decide) hmsix hctr hplace rfl Reg.noConfusion] at hbus
    rw [readLow, haddr, ← hword, hbus]
    exact ⟨_, rfl⟩
  obtain ⟨snaps, hread⟩ := hread
  refine run_does (f := readLow req .ENG_IMEM_DATA c.val 0) rfl fun e he => ?_
  rw [hread] at he
  exact ⟨(he.rget ..).trans hbundle, he.disp, he.sends.1.subset (List.mem_cons_self ..)⟩

end

/-- ENG_SCRUB counts a corrected word and latches one that cannot be corrected (R208). -/
theorem engScrub_does {c : Fin 64} {scr : Bool} {half : Fin 2} {w : BitVec 15} {s : State} {d : Dev} (hruns : Runs (33 + c.val) s d) :
    Leaves (.engScrub c scr half w .clean) s d ∧ Leaves (.engScrub c scr half w .corrected) s (inc (engPage c.val) 11 d) ∧
    Does (.engScrub c scr half w .uncorrectable) s fun e => flag ENG_ECC_ADDR.VALID c.val 0 e = true ∧
      bit (face (engPage c.val) e).pend 2 = true ∧ (scr = true → w.toNat ∈ (cluster c.val e).badScratch) ∧
      (scr = false → half.val * 4096 + w.toNat % 4096 ∈ (cluster c.val e).badImem) := by
  refine ⟨act_does (f := id) rfl hruns fun _ h => h, act_does (f := inc (engPage c.val) 11) rfl hruns fun _ h => h, ?_⟩
  let n := if scr then w.toNat else half.val * 4096 + w.toNat % 4096
  let x := cluster c.val d
  let y : Cluster := if scr then { x with badScratch := n :: x.badScratch } else { x with badImem := n :: x.badImem }
  refine act_does (f := engScrub c.val scr half.val w.toNat .uncorrectable) rfl hruns fun e he => ?_
  have hrun : engScrub c.val scr half.val w.toNat .uncorrectable d = engEcc c.val scr half.val n (setCluster c.val y d) := rfl
  rw [hrun] at he
  have himg : b2n scr * 2 ^ 30 + half.val * 2 ^ 29 + n < 2 ^ 31 := by
    have hw := w.isLt
    cases scr <;> simp only [b2n, n, Bool.false_eq_true, if_true, if_false] <;> omega
  have hcl : cluster c.val e = y := ((Still.of_beside (K := fun _ => True) he).cluster _).trans (((engEcc_still ..).cluster _).trans (cluster_setCluster_same ..))
  refine ⟨(congrArg (· != 0) (he.rget ..)).trans (flag_engEcc himg c.isLt _), ?_, ?_, ?_⟩
  · rw [he.face]
    exact pend_engEcc ..
  · rintro rfl
    rw [hcl]
    exact List.mem_cons_self ..
  · rintro rfl
    rw [hcl]
    exact List.mem_cons_self ..

end Sys2Proof.Machine

namespace Sys2Proof.Machine

open Safety

/-- A pass that runs on cluster 0 at bundle 2^30, a bundle that no half has, whose first word, number 2^31, is marked as damaged. -/
def farBundlePass : State :=
  { dev := { flds := [(CLK_ISLn.STATE.key 0 33, 2)], head := { passes := [(0, { stage := .running, pc := 2 ^ 30 })] },
             disp := { clusters := [(0, { badImem := [2 ^ 31] })] } }, pending := [] }

/-- Refutes O16. The statement lets a pass stand at any bundle. The word number of bundle 2^30 carries out of the image that
ENG_ECC_ADDR latches, so that VALID stays 0. For a pass that stands at one of its half's 2,048 bundles BUNDLE_ISSUE does what the statement
says (`bundleIssue_damaged`, `bundleIssue_stalls`, `bundleIssue_steps`, `bundleIssue_ends`, `bundleIssue_illegal`), and the other clauses
hold as they stand (`scratchLoadLand_leaves`, `budgetStop_does`, `clusterDrained_leaves`, `imemWrite_refused`, `imemWrite_does`,
`imemRead_does`, `engTraceArm_does`, `engScrub_does`). -/
theorem not_engineExecution : ¬ Obligations.EngineExecution := by
  rintro ⟨hissue, -⟩
  obtain ⟨hbad, -⟩ := hissue 0 0 0 farBundlePass farBundlePass.dev 0 { stage := .running, pc := 2 ^ 30 }
    ⟨by decide +kernel, by decide +kernel⟩ (by decide +kernel) (by decide)
  obtain ⟨t, ht, -, hvalid, -⟩ := hbad (2 ^ 31) (by decide +kernel)
  have hrun : t = { farBundlePass with dev := settle farBundlePass.dev (act 33 (bundleIssue 0 0 0) farBundlePass.dev) } :=
    (Host.Outcome.next.inj ht).symm
  have hclear : flag ENG_ECC_ADDR.VALID 0 0 t.dev = false := by
    rw [hrun, flag_settle]; decide +kernel
  exact Bool.noConfusion (hvalid.symm.trans hclear)

end Sys2Proof.Machine

/-! What a write of EPC_SWITCH stores, and what the epoch machine reads (R220, R222). -/

namespace Sys2Proof.Machine

open Safety

/-! The idle bank's readiness is read off the epoch controller's page (R222). -/

/-- The key lies on page p. -/
def OnPage (p k : Nat) : Prop := k / 2 ^ 26 = p

/-- The slots of bank b's valid profiles whose kind is k, each as its profile and its place there. -/
def slotsOf (b k : Nat) (d : Dev) : List (Nat × Nat) :=
  ((List.range 64).filter fun i => flag (HDS_PROF.VALID b) 0 i d).flatMap fun i =>
    ((List.range 6).filter fun s => rget (HDS_PROF.KIND b s) 0 i d == k).map fun s => (i, s)

theorem notReady_eq (d : Dev) : let b := 1 - curBank d
    notReady d = b2n (!(slotsOf b 4 d).isEmpty && (verified b d).isEmpty) +
      2 * b2n ((slotsOf b 3 d).any fun x => let g := groupOf b (rget (HDS_PROF.ARG b x.2) 0 x.1 d % 16) d; !g.valid || g.egress) := rfl

theorem notReady_lt (d : Dev) : notReady d < 2 ^ EPC_STAT.NR_CAUSE.w := by
  have hbit (b : Bool) : b2n b < 2 := by cases b <;> decide
  rw [notReady_eq]
  have := hbit (!(slotsOf (1 - curBank d) 4 d).isEmpty && (verified (1 - curBank d) d).isEmpty)
  have := hbit ((slotsOf (1 - curBank d) 3 d).any fun x =>
    let g := groupOf (1 - curBank d) (rget (HDS_PROF.ARG (1 - curBank d) x.2) 0 x.1 d % 16) d; !g.valid || g.egress)
  show _ < 4
  omega

theorem mem_slotsOf_lt {b k : Nat} {d : Dev} {x : Nat × Nat} (hx : x ∈ slotsOf b k d) : x.1 < 64 ∧ x.2 < 6 := by
  obtain ⟨i, hi, hslot⟩ := List.mem_flatMap.1 hx
  obtain ⟨s, hs, rfl⟩ := List.mem_map.1 hslot
  exact ⟨List.mem_range.1 (List.mem_of_mem_filter hi), List.mem_range.1 (List.mem_of_mem_filter hs)⟩

theorem profReg_fits (b : Nat) : (profReg b).lay.page ≠ Pg.EPC ∧ (profReg b).lay.ofs + (profReg b).lay.stride * 255 < 65536 := by
  unfold profReg
  split <;> decide

section
variable {d e : Dev} (h : Still (OnPage Pg.EPC) d e)
include h

theorem rget_offEpc {f : Fld} (hf : f.fits = true) (hp : f.reg.lay.page ≠ Pg.EPC) {i : Nat} (hi : i < 256) : rget f 0 i e = rget f 0 i d :=
  h.rget fun hk => hp ((key_page hf 0 hi).symm.trans hk)

theorem rget_prof_offEpc {f : Fld} {b : Nat} (hr : f.reg = profReg b) (hlo : f.lo < 1024) {i : Nat} (hi : i < 64) : rget f 0 i e = rget f 0 i d :=
  rget_offEpc h (by simp [Fld.fits, hr, (profReg_fits b).2, hlo]) (hr ▸ (profReg_fits b).1) (by omega)

theorem slotsOf_offEpc (b k : Nat) : slotsOf b k e = slotsOf b k d := by
  have hvalid : (List.range 64).filter (fun i => flag (HDS_PROF.VALID b) 0 i e) = (List.range 64).filter fun i => flag (HDS_PROF.VALID b) 0 i d :=
    List.filter_congr fun i hi => congrArg (· != 0) (rget_prof_offEpc h (f := HDS_PROF.VALID b) rfl (by show 255 < 1024; decide) (List.mem_range.1 hi))
  unfold slotsOf
  rw [hvalid]
  refine List.flatMap_congr fun i hi => congrArg _ (List.filter_congr fun s hs => ?_)
  have hlo : 32 * s + 29 < 1024 := by have := List.mem_range.1 hs; omega
  rw [rget_prof_offEpc h rfl hlo (List.mem_range.1 (List.mem_of_mem_filter hi))]

theorem verified_offEpc (b : Nat) : verified b e = verified b d :=
  List.filter_congr fun r hr => by
    have hi : r < 256 := by have := List.mem_range.1 hr; omega
    simp only [replState, replBank, rget_offEpc h (f := BRL_REPLr.STATE) (by decide) (by decide) hi,
      rget_offEpc h (f := BRL_REPLr.BANK) (by decide) (by decide) hi]

theorem groupOf_offEpc (b : Nat) {n : Nat} (hn : n < 256) : groupOf b n e = groupOf b n d := by
  have hreg : ∀ x ∈ (grpReg b).fields, (x.fld (grpReg b)).fits = true ∧ (x.fld (grpReg b)).reg.lay.page ≠ Pg.EPC := by
    unfold grpReg
    split <;> decide
  refine congrArg Group.ofImg (List.foldl_ext _ _ _ fun a x hx => ?_)
  rw [rget_offEpc h (hreg x hx).1 (hreg x hx).2 hn]

theorem notReady_offEpc (hbank : curBank e = curBank d) : notReady e = notReady d := by
  have hany (b : Nat) : ((slotsOf b 3 d).any fun x => let g := groupOf b (rget (HDS_PROF.ARG b x.2) 0 x.1 e % 16) e; !g.valid || g.egress) =
      (slotsOf b 3 d).any fun x => let g := groupOf b (rget (HDS_PROF.ARG b x.2) 0 x.1 d % 16) d; !g.valid || g.egress := by
    refine Bool.eq_iff_iff.2 ?_
    simp only [List.any_eq_true]
    refine exists_congr fun x => and_congr_right fun hx => ?_
    obtain ⟨hi, hs⟩ := mem_slotsOf_lt hx
    have harg : rget (HDS_PROF.ARG b x.2) 0 x.1 e = rget (HDS_PROF.ARG b x.2) 0 x.1 d :=
      rget_prof_offEpc h rfl (by show 32 * x.2 < 1024; omega) hi
    rw [harg, groupOf_offEpc h b (by omega)]
  rw [notReady_eq, notReady_eq, hbank, slotsOf_offEpc h, slotsOf_offEpc h, verified_offEpc h, hany]

end

theorem storeFields_still {K : Nat → Prop} {r : Reg} {g i : Nat} (hk : ∀ x ∈ r.fields, K ((x.fld r).key g i)) (expert : Bool) (img : Nat) (d : Dev) :
    Still K d (storeFields expert r g i img d) := by
  rw [storeFields_eq_foldl]
  refine Still.foldl _ r.fields d fun d x hx => ?_
  obtain h | ⟨v, h⟩ := storeField_cases expert r g i img d x
  · rw [h]
    exact Still.refl d
  · rw [h]
    exact Still.of_rset (hk x hx) v d

/-! The device once EPC_SWITCH is stored: what the epoch machine reads is as it was. -/

/-- The device once the fields of an image of EPC_SWITCH are stored. -/
def switchStored (img : Nat) (d : Dev) : Dev := storeFields false .EPC_SWITCH 0 0 img d

section
variable (img : Nat) (d : Dev)

theorem switchStored_still : Still (OnPage Pg.EPC) d (switchStored img d) :=
  storeFields_still (by unfold OnPage; decide +kernel) ..

@[simp] theorem epcState_switchStored : epcState (switchStored img d) = epcState d := rget_storeFields_ne _ _ _ (by decide +kernel)
@[simp] theorem curBank_switchStored : curBank (switchStored img d) = curBank d := rget_storeFields_ne _ _ _ (by decide +kernel)
@[simp] theorem curSeq_switchStored : curSeq (switchStored img d) = curSeq d := rget_storeFields_ne _ _ _ (by decide +kernel)
@[simp] theorem chassis_switchStored : flag EPC_CFG.CHASSIS 0 0 (switchStored img d) = flag EPC_CFG.CHASSIS 0 0 d :=
  congrArg (· != 0) (rget_storeFields_ne _ _ _ (by decide +kernel))
@[simp] theorem strict_switchStored : flag EPC_X_CFG.STRICT 0 0 (switchStored img d) = flag EPC_X_CFG.STRICT 0 0 d :=
  congrArg (· != 0) (rget_storeFields_ne _ _ _ (by decide +kernel))

@[simp] theorem inflight_switchStored (b : Nat) : inflight b (switchStored img d) = inflight b d := by
  have hA : rget EPC_INFLIGHTA.COUNT 0 0 (switchStored img d) = rget EPC_INFLIGHTA.COUNT 0 0 d := rget_storeFields_ne _ _ _ (by decide +kernel)
  have hB : rget EPC_INFLIGHTB.COUNT 0 0 (switchStored img d) = rget EPC_INFLIGHTB.COUNT 0 0 d := rget_storeFields_ne _ _ _ (by decide +kernel)
  rw [inflight, inflight, hA, hB]

@[simp] theorem notReady_switchStored : notReady (switchStored img d) = notReady d := notReady_offEpc (switchStored_still ..) (curBank_switchStored ..)

@[simp] theorem isMgr_switchStored : isMgr (switchStored img d) = isMgr d :=
  congrArg (· == 2) (rget_offEpc (switchStored_still ..) (by decide) (by decide) (by decide))

@[simp] theorem otherMembers_switchStored : otherMembers (switchStored img d) = otherMembers d := by
  have hset : rget FCT_MEMBERS.SET 0 0 (switchStored img d) = rget FCT_MEMBERS.SET 0 0 d := rget_offEpc (switchStored_still ..) (by decide) (by decide) (by decide)
  have hid : devId (switchStored img d) = devId d := rget_offEpc (switchStored_still ..) (by decide) (by decide) (by decide)
  rw [otherMembers, otherMembers, hset, hid]

@[simp] theorem switchStored_faces : (switchStored img d).faces = d.faces := storeFields_faces ..
@[simp] theorem blkEn_switchStored (p : Nat) : blkEn p (switchStored img d) = blkEn p d := (switchStored_still ..).blkEn p
@[simp] theorem switchStored_spn : (switchStored img d).spn = d.spn := by
  have h := congrArg Dev.spn (storeFields_frame false .EPC_SWITCH 0 0 img d); exact h
@[simp] theorem switchStored_epc : (switchStored img d).epc = d.epc := by
  have h := congrArg Dev.epc (storeFields_frame false .EPC_SWITCH 0 0 img d); exact h
@[simp] theorem switchStored_ctlQ : (switchStored img d).ctlQ = d.ctlQ := by
  have h := congrArg Dev.ctlQ (storeFields_frame false .EPC_SWITCH 0 0 img d); exact h
@[simp] theorem nowNs_switchStored : nowNs (switchStored img d) = nowNs d := by rw [nowNs, switchStored_spn, nowNs]
@[simp] theorem epcEntry_switchStored : epcEntry (switchStored img d) = epcEntry d := by rw [epcEntry, switchStored_spn, epcEntry]

end

end Sys2Proof.Machine

/-! The epoch machine's operations (R220 to R225). -/

namespace Sys2Proof.Machine

open Safety

/-! What counters and events leave alone. -/

@[simp] theorem inc_spn (p k : Nat) (d : Dev) : (inc p k d).spn = d.spn := by
  have h := congrArg Dev.spn (inc_tallies p k d).kept; exact h
@[simp] theorem fire_spn (p n : Nat) (d : Dev) : (fire p n d).spn = d.spn := (fire_beside p n d).spn
@[simp] theorem face_inc (q p k : Nat) (d : Dev) : face q (inc p k d) = face q d := by simp only [face, (inc_tallies p k d).faces]

theorem errCode_fire (q p n : Nat) (d : Dev) : (face q (fire p n d)).errCode = (face q d).errCode := by
  rw [(fire_beside p n d).face]
  by_cases h : q = p
  · rw [h, face_setFace_same]
  · rw [face_setFace_ne _ _ h]

theorem bit_pend_fire_same (p n : Nat) (d : Dev) : bit (face p (fire p n d)).pend n = true := by
  rw [face_fire_same]
  exact bit_setBit_same ..

theorem fire_pends (p n : Nat) (d : Dev) : Pends d (fire p n d) := (Gains.of_fire (K := fun _ => True) p n d).pends

theorem inflight_congr {d e : Dev} (hA : rget EPC_INFLIGHTA.COUNT 0 0 e = rget EPC_INFLIGHTA.COUNT 0 0 d)
    (hB : rget EPC_INFLIGHTB.COUNT 0 0 e = rget EPC_INFLIGHTB.COUNT 0 0 d) (b : Nat) : inflight b e = inflight b d := by
  rw [inflight, inflight, hA, hB]

/-! The end of a drain. -/

/-- The device once a drain has ended. -/
def drained (d : Dev) : Dev := fire Pg.EPC 1 (rset EPC_DRAIN_TIME.TIME 0 0 (min ((d.mono - d.epc.drainAt) / 10) 0xFFFF) (setEpc 0 d))

section
variable (d : Dev)

theorem drainComplete_cases : drainComplete d = d ∨ drainComplete d = drained d := by
  unfold drainComplete
  split
  · exact .inr rfl
  · exact .inl rfl

theorem rget_drainComplete {f : Fld} {g i : Nat} (hst : f.key g i ≠ EPC_STAT.STATE.key 0 0) (ht : f.key g i ≠ EPC_DRAIN_TIME.TIME.key 0 0) :
    rget f g i (drainComplete d) = rget f g i d := by
  obtain h | h := drainComplete_cases d
  · rw [h]
  · rw [h, drained, rget_fire, rget_rset_ne _ _ ht]
    exact rget_rset_ne _ _ hst

theorem curBank_drainComplete : curBank (drainComplete d) = curBank d := rget_drainComplete d (by decide +kernel) (by decide +kernel)

theorem epcState_drained : epcState (drained d) = 0 := by
  rw [epcState, drained, rget_fire, rget_rset_ne _ _ (by decide +kernel)]
  exact rget_rset_same ..

theorem epcState_drainComplete (h : epcState d = 2) : epcState (drainComplete d) = if inflight (1 - curBank d) d = 0 then 0 else 2 := by
  unfold drainComplete
  by_cases hin : inflight (1 - curBank d) d = 0
  · rw [if_pos ⟨h, hin⟩, if_pos hin]
    exact epcState_drained d
  · rw [if_neg fun hd => hin hd.2, if_neg hin, h]

theorem drainComplete_pends : Pends d (drainComplete d) := by
  obtain h | h := drainComplete_cases d
  · rw [h]
    exact fun _ _ => id
  · rw [h]
    exact fun p n hp => fire_pends _ _ _ p n hp

theorem errCode_drainComplete (p : Nat) : (face p (drainComplete d)).errCode = (face p d).errCode := by
  obtain h | h := drainComplete_cases d
  · rw [h]
  · rw [h, drained, errCode_fire]
    rfl

theorem drainComplete_spn : (drainComplete d).spn = d.spn := by
  obtain h | h := drainComplete_cases d
  · rw [h]
  · rw [h, drained, fire_spn]
    rfl

theorem drainComplete_head : (drainComplete d).head = d.head := by
  obtain h | h := drainComplete_cases d
  · rw [h]
  · rw [h, drained, (fire_beside _ _ _).head]
    rfl

end

/-! A switch. -/

/-- In e the idle bank of d has become current with SEQ, and EPC_LAST says so (R221, R223, R225). -/
structure BankSwitched (seq : Nat) (late : Bool) (d e : Dev) : Prop where
  current : curBank e = 1 - curBank d
  numbered : curSeq e = seq
  drains : epcState e = if inflight (curBank d) d = 0 then 0 else 2
  fired : bit (face Pg.EPC e).pend 0 = true
  valid : rget EPC_LAST.VALID 0 0 e = 1
  noted : rget EPC_LAST.LATE 0 0 e = b2n late
  lastSeq : rget EPC_LAST.SEQ 0 0 e = seq
  lastBank : rget EPC_LAST.BANK 0 0 e = 1 - curBank d

section
variable (seq : Nat) (late : Bool) (d : Dev)

/-- STATE, the instant of a switch and the time of its drain: what a switch writes after its bank and its SEQ. -/
def drainFlds : List Fld := [EPC_STAT.STATE, EPC_DRAIN_TIME.TIME, EPC_LAST.SEC, EPC_LAST.NS]

/-- The fields of EPC_STAT and EPC_LAST that a switch writes first: its bank and its SEQ. -/
def switchFields : Dev :=
  let b := 1 - curBank d
  rset EPC_LAST.VALID 0 0 1 (rset EPC_LAST.LATE 0 0 (b2n late) (rset EPC_LAST.BANK 0 0 b (rset EPC_LAST.SEQ 0 0 seq
    (rset EPC_STAT.BANK 0 0 b (rset EPC_STAT.SEQ 0 0 seq d)))))

/-- The device as a switch leaves it before the end of the drain is looked at. -/
def switchDrains : Dev :=
  let x := switchFields seq late d
  let y := rset EPC_LAST.SEC 0 0 (nowNs x / 1000000000) (rset EPC_LAST.NS 0 0 (nowNs x % 1000000000) x)
  let z := fire Pg.EPC 0 (inc Pg.EPC 0 (onEpc (fun e => { e with drainAt := y.mono }) (setEpc 2 y)))
  if late then fire Pg.EPC 2 (inc Pg.EPC 1 z) else z

theorem doSwitch_eq : doSwitch seq late d = drainComplete (switchDrains seq late d) := rfl

theorem rget_switchDrains {f : Fld} (hf : ∀ h ∈ drainFlds, f.key 0 0 ≠ h.key 0 0) :
    rget f 0 0 (switchDrains seq late d) = rget f 0 0 (switchFields seq late d) := by
  have hkeep (x : Dev) (t : Nat) : rget f 0 0 (fire Pg.EPC 0 (inc Pg.EPC 0 (onEpc (fun e => { e with drainAt := t }) (setEpc 2 x)))) = rget f 0 0 x := by
    rw [rget_fire, rget_inc]
    exact (rget_rset_ne 2 x (hf EPC_STAT.STATE (by decide)) :)
  unfold switchDrains
  extract_lets x y z
  have hz : rget f 0 0 z = rget f 0 0 x := by
    rw [hkeep, rget_rset_ne _ _ (hf EPC_LAST.SEC (by decide)), rget_rset_ne _ _ (hf EPC_LAST.NS (by decide))]
  split
  · rw [rget_fire, rget_inc, hz]
  · exact hz

theorem epcState_switchDrains : epcState (switchDrains seq late d) = 2 := by
  have hset (x : Dev) (t : Nat) : epcState (fire Pg.EPC 0 (inc Pg.EPC 0 (onEpc (fun e => { e with drainAt := t }) (setEpc 2 x)))) = 2 := by
    rw [epcState, rget_fire, rget_inc]
    exact (rget_rset_same EPC_STAT.STATE 0 0 2 x :)
  unfold switchDrains
  extract_lets x y z
  split
  · rw [epcState, rget_fire, rget_inc]
    exact hset ..
  · exact hset ..

theorem switchDrains_pend : bit (face Pg.EPC (switchDrains seq late d)).pend 0 = true := by
  unfold switchDrains
  extract_lets x y z
  have hz : bit (face Pg.EPC z).pend 0 = true := bit_pend_fire_same ..
  split
  · exact fire_pends _ _ _ _ _ (by rwa [face_inc])
  · exact hz

theorem errCode_switchDrains (p : Nat) : (face p (switchDrains seq late d)).errCode = (face p d).errCode := by
  unfold switchDrains
  extract_lets x y z
  have hz : (face p z).errCode = (face p d).errCode := by
    rw [errCode_fire, face_inc]
    rfl
  split
  · rw [errCode_fire, face_inc, hz]
  · exact hz

theorem switchDrains_spn : (switchDrains seq late d).spn = d.spn := by
  unfold switchDrains
  extract_lets x y z
  have hz : z.spn = d.spn := by
    rw [fire_spn, inc_spn]
    rfl
  split
  · rw [fire_spn, inc_spn, hz]
  · exact hz

theorem errCode_doSwitch (p : Nat) : (face p (doSwitch seq late d)).errCode = (face p d).errCode := by
  rw [doSwitch_eq, errCode_drainComplete, errCode_switchDrains]

theorem doSwitch_spn : (doSwitch seq late d).spn = d.spn := by rw [doSwitch_eq, drainComplete_spn, switchDrains_spn]

variable {seq d}

theorem rget_doSwitch {f : Fld} (hf : ∀ h ∈ drainFlds, f.key 0 0 ≠ h.key 0 0) : rget f 0 0 (doSwitch seq late d) = rget f 0 0 (switchFields seq late d) :=
  (rget_drainComplete _ (hf _ (by decide)) (hf _ (by decide))).trans (rget_switchDrains _ _ _ hf)

theorem inflight_switchDrains (b : Nat) : inflight b (switchDrains seq late d) = inflight b d := by
  have hkept {f : Fld} (hf : f = EPC_INFLIGHTA.COUNT ∨ f = EPC_INFLIGHTB.COUNT) : rget f 0 0 (switchDrains seq late d) = rget f 0 0 d := by
    obtain rfl | rfl := hf <;>
    · rw [rget_switchDrains _ _ _ (by decide +kernel)]
      simp (disch := decide +kernel) only [switchFields, rget_rset_ne]
  exact inflight_congr (hkept (.inl rfl)) (hkept (.inr rfl)) b

theorem doSwitch_switches (hseq : seq < 2 ^ 16) (hbank : curBank d < 2) : BankSwitched seq late d (doSwitch seq late d) := by
  have hidle : (1 - curBank d) % 2 = 1 - curBank d := Nat.mod_eq_of_lt (by omega)
  have hbank' : curBank (switchFields seq late d) = 1 - curBank d := by
    simp (disch := decide +kernel) only [switchFields, curBank, rget_rset_ne, rget_rset_same]
    exact hidle
  refine ⟨?_, ?_, ?_, ?_, ?_, ?_, ?_, ?_⟩
  · rw [curBank, rget_doSwitch _ (by decide +kernel)]
    exact hbank'
  · rw [curSeq, rget_doSwitch _ (by decide +kernel)]
    simp (disch := decide +kernel) only [switchFields, rget_rset_ne, rget_rset_same]
    exact Nat.mod_eq_of_lt hseq
  · have hold : 1 - curBank (switchDrains seq late d) = curBank d := by
      rw [curBank, rget_switchDrains _ _ _ (by decide +kernel), ← curBank, hbank']
      omega
    rw [doSwitch_eq, epcState_drainComplete _ (epcState_switchDrains ..), hold, inflight_switchDrains]
  · exact drainComplete_pends _ _ _ (switchDrains_pend ..)
  · rw [rget_doSwitch _ (by decide +kernel)]
    simp only [switchFields, rget_rset_same]
    rfl
  · rw [rget_doSwitch _ (by decide +kernel)]
    simp (disch := decide +kernel) only [switchFields, rget_rset_ne, rget_rset_same]
    cases late <;> rfl
  · rw [rget_doSwitch _ (by decide +kernel)]
    simp (disch := decide +kernel) only [switchFields, rget_rset_ne, rget_rset_same]
    exact Nat.mod_eq_of_lt hseq
  · rw [rget_doSwitch _ (by decide +kernel)]
    simp (disch := decide +kernel) only [switchFields, rget_rset_ne, rget_rset_same]
    exact hidle

end

end Sys2Proof.Machine

/-! The commands of EPC_SWITCH (R220, R222 to R225, R228). -/

namespace Sys2Proof.Machine

open Safety

/-! What a row shows of the epoch controller. -/

theorem keyTickPage_face (k : Option Nat) (d : Dev) (p q : Nat) :
    (face q (keyTickPage k d p)).errCode = (face q d).errCode ∧ (face q (keyTickPage k d p)).pend = (face q d).pend := by
  have set (x : Face) (hc : x.errCode = (face p d).errCode) (hp : x.pend = (face p d).pend) :
      (face q (setFace p x d)).errCode = (face q d).errCode ∧ (face q (setFace p x d)).pend = (face q d).pend := by
    by_cases h : q = p
    · subst h
      rw [face_setFace_same]
      exact ⟨hc, hp⟩
    · rw [face_setFace_ne _ _ h]
      exact ⟨rfl, rfl⟩
  unfold keyTickPage
  dsimp only
  split
  · exact ⟨rfl, rfl⟩
  · split
    · exact set _ rfl rfl
    · exact set _ rfl rfl

theorem keyTick_face (req : Requester) (k : Option Nat) (d : Dev) (q : Nat) :
    (face q (keyTick req k d)).errCode = (face q d).errCode ∧ (face q (keyTick req k d)).pend = (face q d).pend := by
  have fold (l : List Nat) : ∀ d : Dev, (face q (l.foldl (keyTickPage k) d)).errCode = (face q d).errCode ∧
      (face q (l.foldl (keyTickPage k) d)).pend = (face q d).pend := by
    induction l with
    | nil => exact fun _ => ⟨rfl, rfl⟩
    | cons p l ih => exact fun d => ⟨(ih _).1.trans (keyTickPage_face k d p q).1, (ih _).2.trans (keyTickPage_face k d p q).2⟩
  unfold keyTick
  split
  · exact fold _ d
  · exact ⟨rfl, rfl⟩

/-- Device e shows the epoch controller, its timed actions and the messages that wait as x does. -/
structure EpcShows (x e : Dev) : Prop where
  code : (face Pg.EPC e).errCode = (face Pg.EPC x).errCode
  pend : (face Pg.EPC e).pend = (face Pg.EPC x).pend
  flds : e.flds = x.flds
  spn : e.spn = x.spn
  epc : e.epc = x.epc
  ctlQ : e.ctlQ = x.ctlQ

namespace EpcShows

variable {x y e : Dev}

theorem of_beside (h : Beside x e) : EpcShows x e := ⟨by rw [h.face], by rw [h.face], h.flds, h.spn, h.epc, h.ctlQ⟩

theorem of_keyTick (req : Requester) (k : Option Nat) (h : EpcShows (keyTick req k x) e) : EpcShows x e := by
  have frame := keyTick_frame req k x
  have kept {α : Type} (f : Dev → α) (hf : ∀ d y, f { d with faces := y } = f d) : f (keyTick req k x) = f x := by
    rw [← hf _ x.faces, frame]
  exact ⟨h.code.trans (keyTick_face ..).1, h.pend.trans (keyTick_face ..).2, h.flds.trans (keyTick_flds ..),
    h.spn.trans (kept Dev.spn fun _ _ => rfl), h.epc.trans (kept Dev.epc fun _ _ => rfl), h.ctlQ.trans (kept Dev.ctlQ fun _ _ => rfl)⟩

theorem rget (h : EpcShows x e) (f : Fld) (g i : Nat) : rget f g i e = rget f g i x := by simp only [Machine.rget, h.flds]

end EpcShows

/-- A write of EPC_SWITCH shows what its commit does. -/
theorem epcSwitch_shows {req : Requester} {v img : Nat} {c : Instr} {s : State} {d : Dev} (hc : exec c s = run (cmd req .EPC_SWITCH 0 0 v) s)
    (hcom : Commits req .EPC_SWITCH 0 0 v s d img) : Does c s (EpcShows (epcSwitchWrite img d)) :=
  Does.imp (cmd_writes hc (by decide +kernel) hcom) fun _ he => .of_keyTick _ _ (.of_beside he)

/-- What a switch from d shows in x, it shows in e, and from any device with the same current bank and the same count of it. -/
theorem BankSwitched.shows {seq : Nat} {late : Bool} {d b x e : Dev} (h : BankSwitched seq late b x) (he : EpcShows x e)
    (hbank : curBank b = curBank d) (hcount : inflight (curBank d) b = inflight (curBank d) d) : BankSwitched seq late d e := by
  obtain ⟨hcur, hnum, hst, hfired, hvalid, hnoted, hseq, hlast⟩ := h
  rw [hbank] at hcur hst hlast
  rw [hcount] at hst
  exact ⟨(he.rget ..).trans hcur, (he.rget ..).trans hnum, (he.rget ..).trans hst, by rw [he.pend]; exact hfired, (he.rget ..).trans hvalid,
    (he.rget ..).trans hnoted, (he.rget ..).trans hseq, (he.rget ..).trans hlast⟩

/-! The image that a command commits. -/

/-- The words that req has staged below a write of EPC_SWITCH are words of 32 bits. -/
def StagesWords (req : Requester) (s : State) : Prop :=
  ∀ k v, find? (stagedWords req Pg.EPC (Reg.ofs .EPC_SWITCH 0 0) (reached Pg.EPC s)) k = some v → v < 2 ^ 32

/-- The word of a command whose operation code is in bits 30 to 28. -/
theorem go_eq_of_op (w : BitVec 32) {op : Nat} (h : op < 8) : go w 30 28 op = 2 ^ 31 + op * 2 ^ 28 + w.toNat % 2 ^ 28 := by
  have hw := w.isLt
  rw [go_eq_putBits, putBits_one]
  simp only [putBits, bits, Nat.shiftRight_eq_div_pow]
  omega

theorem commitImg_four (ws : Tbl Nat) (cur v : Nat) : commitImg ws cur 4 v =
    look ws 0 (imgWord cur 0) + look ws 1 (imgWord cur 1) * 2 ^ 32 + look ws 2 (imgWord cur 2) * 2 ^ 64 + v * 2 ^ 96 := by
  have hrange : List.range (4 - 1) = [0, 1, 2] := rfl
  have hone : 32 * 1 = 32 := rfl
  have htwo : 32 * 2 = 64 := rfl
  have hthree : 32 * (4 - 1) = 96 := rfl
  rw [commitImg, hrange, List.foldl_cons, List.foldl_cons, List.foldl_cons, List.foldl_nil, hone, htwo, hthree, Nat.mul_zero, pow_zero, Nat.mul_one,
    Nat.zero_add]

theorem switchImg_go {req : Requester} {w : BitVec 32} {s : State} {d : Dev} {img op : Nat} (hop : op < 8)
    (hcom : Commits req .EPC_SWITCH 0 0 (go w 30 28 op) s d img) (hst : StagesWords req s) : EPC_SWITCH.GO.on img = true ∧ EPC_SWITCH.OP.of img = op := by
  obtain ⟨-, -, -, himg⟩ := hcom
  have hword (k : Nat) : look (stagedWords req Pg.EPC (Reg.ofs .EPC_SWITCH 0 0) (reached Pg.EPC s)) k
      (imgWord (regImg .EPC_SWITCH 0 0 (reached Pg.EPC s)) k) < 2 ^ 32 := by
    cases hv : find? (stagedWords req Pg.EPC (Reg.ofs .EPC_SWITCH 0 0) (reached Pg.EPC s)) k with
    | none => rw [look, hv]; exact (bits_lt ..).trans_eq (congrArg _ (by omega))
    | some v => rw [look, hv]; exact hst k v hv
  obtain ⟨a, b, c, ha, hb, hc, rfl⟩ : ∃ a b c, a < 2 ^ 32 ∧ b < 2 ^ 32 ∧ c < 2 ^ 32 ∧ img = a + b * 2 ^ 32 + c * 2 ^ 64 + go w 30 28 op * 2 ^ 96 :=
    ⟨_, _, _, hword 0, hword 1, hword 2, himg.trans (commitImg_four _ _ _)⟩
  clear himg hword
  have hgo := go_eq_of_op w hop
  generalize go w 30 28 op = v at hgo ⊢
  refine ⟨(on_bit _ _ _).trans ?_, ?_⟩
  · have : (a + b * 2 ^ 32 + c * 2 ^ 64 + v * 2 ^ 96) / 2 ^ 127 % 2 = 1 := by omega
    rw [this]
    rfl
  · simp only [Fld.of, EPC_SWITCH.OP, bits, Nat.shiftRight_eq_div_pow]
    omega

/-! What each operation answers. -/

/-- The device as a command of EPC_SWITCH finds it: stored, and with a drain that has ended seen as ended (R225). -/
def switchFound (img : Nat) (d : Dev) : Dev := drainComplete (switchStored img d)

/-- The device after an operation that answered a code, recorded where it is not 0. -/
def switchAnswer (r : Nat × Dev) : Dev := if r.1 = 0 then r.2 else errAt r.1 .EPC_SWITCH 0 0 r.2

section
variable {img : Nat} (hgo : EPC_SWITCH.GO.on img = true) (d : Dev)
include hgo

theorem epcSwitchWrite_now (hop : EPC_SWITCH.OP.of img = 0) :
    epcSwitchWrite img d = switchAnswer (switchNow (EPC_SWITCH.SEQ.of img) (switchFound img d)) := by
  unfold epcSwitchWrite
  simp only [hgo, hop]
  rfl

theorem epcSwitchWrite_at (hop : EPC_SWITCH.OP.of img = 1) : let ns := EPC_SWITCH.NS.of img
    epcSwitchWrite img d = switchAnswer (switchAt (EPC_SWITCH.SEQ.of img) (EPC_SWITCH.SEC.of img * 1000000000 + ns) ns (switchFound img d)) := by
  unfold epcSwitchWrite
  simp only [hgo, hop]
  rfl

theorem epcSwitchWrite_cancel (hop : EPC_SWITCH.OP.of img = 2) : epcSwitchWrite img d = switchAnswer (epochCancel (switchFound img d)) := by
  unfold epcSwitchWrite
  simp only [hgo, hop]
  rfl

theorem epcSwitchWrite_chassis (hop : EPC_SWITCH.OP.of img = 3) :
    epcSwitchWrite img d = switchAnswer (chassisSwitch (EPC_SWITCH.SEQ.of img) (switchFound img d)) := by
  unfold epcSwitchWrite
  simp only [hgo, hop]
  rfl

end

theorem switchFound_settled {img : Nat} {d : Dev} (h : epcState d ≠ 2) : switchFound img d = switchStored img d :=
  drainComplete_settled (by rwa [epcState_switchStored])

theorem curBank_switchFound (img : Nat) (d : Dev) : curBank (switchFound img d) = curBank d :=
  (curBank_drainComplete _).trans (curBank_switchStored ..)

theorem chassis_switchFound (img : Nat) (d : Dev) : flag EPC_CFG.CHASSIS 0 0 (switchFound img d) = flag EPC_CFG.CHASSIS 0 0 d :=
  (congrArg (· != 0) (rget_drainComplete (f := EPC_CFG.CHASSIS) _ (by decide +kernel) (by decide +kernel))).trans (chassis_switchStored ..)

theorem switchAnswer_ok (d : Dev) : switchAnswer (0, d) = d := rfl

/-- A refused operation records its code and changes no field. -/
theorem EpcShows.refused {code : Nat} {x e : Dev} (hcode : code ≠ 0) (he : EpcShows (switchAnswer (code, x)) e) :
    (face Pg.EPC e).errCode = code ∧ ∀ f g i, Machine.rget f g i e = Machine.rget f g i x := by
  rw [switchAnswer, if_neg hcode] at he
  exact ⟨he.code.trans (errAt_code ..), fun f g i => he.rget f g i⟩

/-- Nothing stands against a switch of d to SEQ: it is STABLE, the SEQ is new, and the idle bank is ready (R222). -/
def MaySwitch (seq : Nat) (d : Dev) : Prop := epcState d = 0 ∧ seq ≠ curSeq d ∧ notReady d = 0

theorem MaySwitch.stored {seq : Nat} {d : Dev} (h : MaySwitch seq d) (img : Nat) : MaySwitch seq (switchFound img d) := by
  rw [switchFound_settled (by rw [h.1]; decide)]
  simpa [MaySwitch] using h

section
variable {seq : Nat} {d : Dev}

theorem switchCheck_may (h : MaySwitch seq d) : switchCheck seq d = (0, d) := by
  obtain ⟨hst, hnew, hready⟩ := h
  simp [switchCheck, hst, hnew, hready]

theorem switchCheck_notReady (hst : epcState d = 0) (hnew : seq ≠ curSeq d) (hnot : notReady d ≠ 0) :
    switchCheck seq d = (Err.NOT_READY, rset EPC_STAT.NR_CAUSE 0 0 (notReady d) d) := by
  simp [switchCheck, hst, hnew, hnot]

theorem switchCheck_busy (hst : epcState d ≠ 0) : switchCheck seq d = (Err.EPOCH_BUSY, d) := if_pos hst

theorem switchNow_chassis (h : flag EPC_CFG.CHASSIS 0 0 d = true) : switchNow seq d = (Err.BAD_ARG, d) := if_pos h

theorem switchNow_may (hch : flag EPC_CFG.CHASSIS 0 0 d = false) (h : MaySwitch seq d) : switchNow seq d = (0, doSwitch seq false d) := by
  simp [switchNow, hch, switchCheck_may h]

/-- SWITCH_NOW outside a chassis is refused with the code of the check. -/
theorem switchNow_refused {x : Dev} {code : Nat} (hch : flag EPC_CFG.CHASSIS 0 0 d = false) (h : switchCheck seq d = (code, x)) (hcode : code ≠ 0) :
    switchNow seq d = (code, x) := by
  simp [switchNow, hch, h, hcode]

variable {t ns : Nat} (hch : flag EPC_CFG.CHASSIS 0 0 d = false) (hns : ns ≤ 999999999) (h : MaySwitch seq d)
include hch hns h

theorem switchAt_arms {i : Nat} (ht : nowNs d < t) (hfree : lowestFree d.spn.acts 0 4096 = some i) : switchAt seq t ns d =
    (0, setEpc 1 (onSpn (fun p => { p with acts := ins p.acts i { owner := 0xF200, kind := 3, t := t, switchSeq := seq } }) d)) := by
  simp [switchAt, hch, show ¬999999999 < ns by omega, switchCheck_may h, show ¬t ≤ nowNs d by omega, epcArm, hfree]

theorem switchAt_late (ht : t ≤ nowNs d) : switchAt seq t ns d =
    if flag EPC_X_CFG.STRICT 0 0 d then (Err.TIME_PAST, d) else (0, doSwitch seq true d) := by
  simp [switchAt, hch, show ¬999999999 < ns by omega, switchCheck_may h, ht]

end

theorem epochSwitch_waits {d : Dev} (h : epcState d = 1 → ∀ a, epcEntry d = some a → nowNs d < a.t ∧ a.due = false) : epochSwitch d = d := by
  unfold epochSwitch
  split
  · next a ha =>
    refine if_neg fun ⟨hst, hdue⟩ => ?_
    obtain ⟨hlt, hno⟩ := h hst a ha
    rw [hno] at hdue
    exact hdue.elim (Nat.not_le.2 hlt) Bool.false_ne_true
  · rfl

theorem epcEntry_epcDisarm (d : Dev) : epcEntry (epcDisarm d) = none := by
  rw [epcEntry, Option.map_eq_none_iff, List.find?_eq_none]
  intro x hx
  have := (List.mem_filter.1 hx).2
  simpa using this

theorem curBank_onSpn (f : Spn → Spn) (d : Dev) : curBank (onSpn f d) = curBank d := rfl

/-! SWITCH_NOW. -/

section
variable {req : Requester} {w : BitVec 32} {s : State} {d : Dev} {img : Nat}

theorem switchNow_does (hcom : Commits req .EPC_SWITCH 0 0 (go w 30 28 0) s d img) (hst : StagesWords req s) (hbank : curBank d < 2) :
    let seq := EPC_SWITCH.SEQ.of img
    let chassis := flag EPC_CFG.CHASSIS 0 0 d
    (chassis = false → MaySwitch seq d → Does (.switchNow req w) s fun e => BankSwitched seq false d e ∧ (face Pg.EPC e).errCode = (face Pg.EPC d).errCode) ∧
    (chassis = true → Does (.switchNow req w) s fun e => curBank e = curBank d ∧ (face Pg.EPC e).errCode = Err.BAD_ARG) ∧
    (chassis = false → epcState d = 0 → seq ≠ curSeq d → notReady d ≠ 0 → Does (.switchNow req w) s fun e =>
      curBank e = curBank d ∧ (face Pg.EPC e).errCode = Err.NOT_READY ∧ rget EPC_STAT.NR_CAUSE 0 0 e = notReady d) ∧
    (chassis = false → epcState d = 1 ∨ epcState d = 3 → Does (.switchNow req w) s fun e =>
      curBank e = curBank d ∧ (face Pg.EPC e).errCode = Err.EPOCH_BUSY) := by
  intro seq chassis
  obtain ⟨hgo, hop⟩ := switchImg_go (by decide) hcom hst
  have hdoes : Does (.switchNow req w) s (EpcShows (epcSwitchWrite img d)) := epcSwitch_shows rfl hcom
  rw [epcSwitchWrite_now hgo d hop] at hdoes
  have hkept : curBank (switchFound img d) = curBank d := curBank_switchFound ..
  refine ⟨fun hch hmay => ?_, fun hch => ?_, fun hch hstable hnew hnot => ?_, fun hch hstate => ?_⟩
  · refine Does.imp hdoes fun e he => ?_
    have hfound : switchFound img d = switchStored img d := switchFound_settled (by rw [hmay.1]; decide)
    rw [switchNow_may ((chassis_switchFound ..).trans hch) (hmay.stored img), hfound, switchAnswer_ok] at he
    refine ⟨(doSwitch_switches false (bits_lt ..) (by rwa [curBank_switchStored])).shows he (curBank_switchStored ..) (inflight_switchStored ..), ?_⟩
    rw [he.code]
    exact (errCode_doSwitch ..).trans (by rw [face, switchStored_faces, face])
  · refine Does.imp hdoes fun e he => ?_
    rw [switchNow_chassis ((chassis_switchFound ..).trans hch)] at he
    obtain ⟨hcode, hfld⟩ := he.refused (by decide)
    exact ⟨(hfld ..).trans hkept, hcode⟩
  · refine Does.imp hdoes fun e he => ?_
    have hfound : switchFound img d = switchStored img d := switchFound_settled (by rw [hstable]; decide)
    rw [hfound, switchNow_refused ((chassis_switchStored ..).trans hch) (switchCheck_notReady (by simpa using hstable) (by simpa using hnew)
      (by simpa using hnot)) (by decide), notReady_switchStored] at he
    obtain ⟨hcode, hfld⟩ := he.refused (by decide)
    refine ⟨(hfld ..).trans ((rget_rset_ne _ _ (by decide +kernel)).trans (curBank_switchStored ..)), hcode, (hfld ..).trans ?_⟩
    exact (rget_rset_same ..).trans (Nat.mod_eq_of_lt (notReady_lt d))
  · refine Does.imp hdoes fun e he => ?_
    have hfound : switchFound img d = switchStored img d := switchFound_settled (by omega)
    have hbusy : epcState (switchStored img d) ≠ 0 := by
      rw [epcState_switchStored]
      omega
    rw [hfound, switchNow_refused ((chassis_switchStored ..).trans hch) (switchCheck_busy hbusy) (by decide)] at he
    obtain ⟨hcode, hfld⟩ := he.refused (by decide)
    exact ⟨(hfld ..).trans (curBank_switchStored ..), hcode⟩

/-! SWITCH_AT. -/

theorem switchAt_does (hcom : Commits req .EPC_SWITCH 0 0 (go w 30 28 1) s d img) (hst : StagesWords req s) (hbank : curBank d < 2)
    (hch : flag EPC_CFG.CHASSIS 0 0 d = false) (hns : EPC_SWITCH.NS.of img ≤ 999999999) (hmay : MaySwitch (EPC_SWITCH.SEQ.of img) d) :
    let seq := EPC_SWITCH.SEQ.of img
    let t := EPC_SWITCH.SEC.of img * 1000000000 + EPC_SWITCH.NS.of img
    (nowNs d < t → ∀ i, lowestFree d.spn.acts 0 4096 = some i → Does (.switchAt req w) s fun e => epcState e = 1 ∧ curBank e = curBank d ∧
      find? e.spn.acts i = some { owner := 0xF200, kind := 3, t := t, switchSeq := seq }) ∧
    (t ≤ nowNs d → flag EPC_X_CFG.STRICT 0 0 d = false → Does (.switchAt req w) s fun e => BankSwitched seq true d e) ∧
    (t ≤ nowNs d → flag EPC_X_CFG.STRICT 0 0 d = true → Does (.switchAt req w) s fun e =>
      curBank e = curBank d ∧ (face Pg.EPC e).errCode = Err.TIME_PAST) := by
  intro seq t
  obtain ⟨hgo, hop⟩ := switchImg_go (by decide) hcom hst
  have hfound : switchFound img d = switchStored img d := switchFound_settled (by rw [hmay.1]; decide)
  have hdoes : Does (.switchAt req w) s (EpcShows (epcSwitchWrite img d)) := epcSwitch_shows rfl hcom
  rw [epcSwitchWrite_at hgo d hop, hfound] at hdoes
  have hch' : flag EPC_CFG.CHASSIS 0 0 (switchStored img d) = false := (chassis_switchStored ..).trans hch
  have hmay' : MaySwitch seq (switchStored img d) := hfound ▸ hmay.stored img
  have hbank' (f : Spn → Spn) : curBank (setEpc 1 (onSpn f (switchStored img d))) = curBank d := by
    rw [curBank_setEpc, curBank_onSpn, curBank_switchStored]
  refine ⟨fun ht i hfree => ?_, fun ht hstrict => ?_, fun ht hstrict => ?_⟩
  · refine Does.imp hdoes fun e he => ?_
    rw [switchAt_arms hch' hns hmay' (by rwa [nowNs_switchStored]) (by rwa [switchStored_spn]), switchAnswer_ok] at he
    refine ⟨(he.rget ..).trans (rget_rset_same ..), (he.rget ..).trans (hbank' ..), ?_⟩
    rw [he.spn]
    exact find?_ins_same ..
  · refine Does.imp hdoes fun e he => ?_
    rw [switchAt_late hch' hns hmay' (by rwa [nowNs_switchStored]), strict_switchStored, hstrict, if_neg Bool.false_ne_true, switchAnswer_ok] at he
    exact (doSwitch_switches true (bits_lt ..) (by rwa [curBank_switchStored])).shows he (curBank_switchStored ..) (inflight_switchStored ..)
  · refine Does.imp hdoes fun e he => ?_
    rw [switchAt_late hch' hns hmay' (by rwa [nowNs_switchStored]), strict_switchStored, hstrict, if_pos rfl] at he
    obtain ⟨hcode, hfld⟩ := he.refused (by decide)
    exact ⟨(hfld ..).trans (curBank_switchStored ..), hcode⟩

/-! CANCEL and CHASSIS_SWITCH. -/

theorem epochCancel_does (hcom : Commits req .EPC_SWITCH 0 0 (go w 30 28 2) s d img) (hst : StagesWords req s) :
    (epcState d = 1 → (∀ a, epcEntry d = some a → nowNs d < a.t ∧ a.due = false) →
      Does (.epochCancel req w) s fun e => epcState e = 0 ∧ curBank e = curBank d ∧ epcEntry e = none) ∧
    (epcState d = 0 → Does (.epochCancel req w) s fun e => (face Pg.EPC e).errCode = Err.BAD_ARG ∧ curBank e = curBank d) := by
  obtain ⟨hgo, hop⟩ := switchImg_go (by decide) hcom hst
  have hdoes (hst : epcState d ≠ 2) (hwait : epcState d = 1 → ∀ a, epcEntry d = some a → nowNs d < a.t ∧ a.due = false) :
      Does (.epochCancel req w) s (EpcShows (switchAnswer (if epcState d = 1 then (0, setEpc 0 (epcDisarm (switchStored img d)))
        else (Err.BAD_ARG, switchStored img d)))) := by
    have h : Does (.epochCancel req w) s (EpcShows (epcSwitchWrite img d)) := epcSwitch_shows rfl hcom
    rw [epcSwitchWrite_cancel hgo d hop, switchFound_settled hst, Machine.epochCancel, epochSwitch_waits (by simpa using hwait), epcState_switchStored] at h
    exact h
  refine ⟨fun harmed hwait => ?_, fun hstable => ?_⟩
  · refine Does.imp (hdoes (by omega) fun _ => hwait) fun e he => ?_
    rw [if_pos harmed, switchAnswer_ok] at he
    refine ⟨(he.rget ..).trans (rget_rset_same ..), (he.rget ..).trans ((curBank_setEpc ..).trans (curBank_switchStored img d)), ?_⟩
    rw [epcEntry, he.spn]
    exact epcEntry_epcDisarm (switchStored img d)
  · refine Does.imp (hdoes (by omega) (by omega)) fun e he => ?_
    rw [if_neg (by omega)] at he
    obtain ⟨hcode, hfld⟩ := he.refused (by decide)
    exact ⟨hcode, (hfld ..).trans (curBank_switchStored ..)⟩

/-- The manager's own note of a chassis switch to SEQ, as PREPARE goes out (R228). -/
def chassisNoted (seq : Nat) (d : Dev) : Dev :=
  onEpc (fun e => { e with mgrSeq := some seq, mgrAt := d.mono, ready := [], workers := otherMembers d }) d

theorem chassisNoted_ctlQ (seq : Nat) (d : Dev) : (chassisNoted seq d).ctlQ = d.ctlQ := rfl
theorem chassisNoted_mgrSeq (seq : Nat) (d : Dev) : (chassisNoted seq d).epc.mgrSeq = some seq := rfl
theorem chassisNoted_ready (seq : Nat) (d : Dev) : (chassisNoted seq d).epc.ready = [] := rfl
theorem blkEn_chassisNoted (p seq : Nat) (d : Dev) : blkEn p (chassisNoted seq d) = blkEn p d := rfl

/-- CHASSIS_SWITCH on the manager of a chassis with other members sends PREPARE and waits for their answers. -/
theorem chassisSwitch_prepares {seq : Nat} (hmgr : isMgr d = true) (hch : flag EPC_CFG.CHASSIS 0 0 d = true) (hnone : d.epc.mgrSeq = none)
    (hmay : MaySwitch seq d) (hother : ∃ m, m ∈ otherMembers d) : chassisSwitch seq d = (0, sendCtl none 2 (epochRec 0 seq 0 0) (chassisNoted seq d)) := by
  have hwaits : allReady (sendCtl none 2 (epochRec 0 seq 0 0) (chassisNoted seq d)) = false := by
    obtain ⟨m, hm⟩ := hother
    rw [allReady, sendCtl_epc]
    exact List.all_eq_false.2 ⟨m, hm, Bool.false_ne_true⟩
  rw [Machine.chassisSwitch, if_neg (by simp [hmgr, hch]), hnone, if_neg (by decide), switchCheck_may hmay]
  refine congrArg (Prod.mk 0) ?_
  exact if_neg fun h => Bool.false_ne_true (hwaits.symm.trans (Bool.and_eq_true _ _ ▸ h).2)

theorem chassisSwitch_does (hcom : Commits req .EPC_SWITCH 0 0 (go w 30 28 3) s d img) (hst : StagesWords req s) (hmgr : isMgr d = true)
    (hch : flag EPC_CFG.CHASSIS 0 0 d = true) (hnone : d.epc.mgrSeq = none) (hmay : MaySwitch (EPC_SWITCH.SEQ.of img) d) (hother : ∃ m, m ∈ otherMembers d) :
    let seq := EPC_SWITCH.SEQ.of img
    Does (.chassisSwitch req w) s fun e => e.epc.mgrSeq = some seq ∧ e.epc.ready = [] ∧
      (blkEn Pg.FCT d = true → e.ctlQ = d.ctlQ ++ [{ dst := none, kind := 2, rec_ := epochRec 0 seq 0 0 }]) := by
  intro seq
  obtain ⟨hgo, hop⟩ := switchImg_go (by decide) hcom hst
  have hfound : switchFound img d = switchStored img d := switchFound_settled (by rw [hmay.1]; decide)
  have hdoes : Does (.chassisSwitch req w) s (EpcShows (epcSwitchWrite img d)) := epcSwitch_shows rfl hcom
  rw [epcSwitchWrite_chassis hgo d hop, hfound] at hdoes
  refine Does.imp hdoes fun e he => ?_
  rw [chassisSwitch_prepares (by rwa [isMgr_switchStored]) (by rwa [chassis_switchStored]) (by rwa [switchStored_epc]) (hfound ▸ hmay.stored img)
    (by rwa [otherMembers_switchStored]), switchAnswer_ok] at he
  have hepc : e.epc = (chassisNoted seq (switchStored img d)).epc := he.epc.trans (sendCtl_epc ..)
  refine ⟨by rw [hepc, chassisNoted_mgrSeq], by rw [hepc, chassisNoted_ready], fun hen => ?_⟩
  rw [he.ctlQ, sendCtl_ctlQ (by rwa [blkEn_chassisNoted, blkEn_switchStored]), chassisNoted_ctlQ, switchStored_ctlQ]

end

end Sys2Proof.Machine

/-! What the epoch controller does in time (R220, R223, R225, R227, R228). -/

namespace Sys2Proof.Machine

open Safety

/-! Packets of the old bank that wait are dropped (R227). -/

theorem Pends.refl (d : Dev) : Pends d d := fun _ _ => id
theorem Pends.trans {a b c : Dev} (h : Pends a b) (k : Pends b c) : Pends a c := fun p n hp => k p n (h p n hp)

theorem Pends.of_faces {d e : Dev} (h : e.faces = d.faces) : Pends d e := fun p n hp => by rwa [face, h]

/-- The device with q in the Mandrel. -/
def holdMandrel (q : List Nat) (d : Dev) : Dev := rset MDL_STAT.LEVEL 0 0 q.length { d with head := { d.head with mandrel := q } }

theorem dropWaiting_none {n : Nat} {d : Dev} (h : getPass n d = none) (code : Nat) : dropWaiting n code d = d := by
  rw [dropWaiting, h]

theorem dropWaiting_some {n : Nat} {p : Pass} {d : Dev} (h : getPass n d = some p) (code : Nat) :
    dropWaiting n code d = passDrop n p code (holdMandrel (d.head.mandrel.filter (· != n)) d) := by
  rw [dropWaiting, h]
  rfl

theorem passDrop_pends (n : Nat) (p : Pass) (code : Nat) (d : Dev) : Pends d (passDrop n p code d) :=
  Pends.trans (Gains.of_drop (K := fun _ => True) code d).pends (Pends.of_faces (unbind_faces ..))

theorem passDrop_passes (n : Nat) (p : Pass) (code : Nat) (d : Dev) : (passDrop n p code d).head.passes = del d.head.passes n := by
  have hhead : (unbind p.bank (drop code d)).head = d.head :=
    (unbind_still (K := fun _ => True) trivial trivial ..).head.trans (Still.of_drop (K := fun _ => True) ..).head
  show del (unbind p.bank (drop code d)).head.passes n = _
  rw [hhead]

theorem dropWaiting_pends (n code : Nat) (d : Dev) : Pends d (dropWaiting n code d) := by
  cases h : getPass n d with
  | none =>
    rw [dropWaiting_none h]
    exact Pends.refl d
  | some p =>
    rw [dropWaiting_some h]
    exact Pends.trans (b := holdMandrel _ d) (Pends.of_faces rfl) (passDrop_pends _ _ _ _)

/-- A pass that waits, dropped, is gone, and every other pass is as it was. -/
theorem getPass_dropWaiting (n code k : Nat) (d : Dev) : getPass k (dropWaiting n code d) = if k = n then none else getPass k d := by
  cases h : getPass n d with
  | none =>
    rw [dropWaiting_none h]
    split
    · next hk => rw [hk, h]
    · rfl
  | some p =>
    rw [dropWaiting_some h, getPass, passDrop_passes]
    split
    · next hk => rw [hk, find?_del_same]
    · next hk => exact find?_del_ne _ hk

/-- The waiting passes of l dropped, each counted (R227). -/
def dropStale (l : List Nat) (d : Dev) : Dev := l.foldl (fun s n => inc Pg.EPC 2 (dropWaiting n 0x52 s)) d

theorem dropStale_pends (l : List Nat) (d : Dev) : Pends d (dropStale l d) := by
  induction l generalizing d with
  | nil => exact Pends.refl d
  | cons n l ih => exact Pends.trans (Pends.trans (dropWaiting_pends _ _ _) (Pends.of_faces (inc_tallies ..).faces)) (ih _)

theorem getPass_inc (k p c : Nat) (d : Dev) : getPass k (inc p c d) = getPass k d := (Still.of_inc (K := fun _ => True) p c d).getPass k

theorem getPass_dropStale {k : Nat} (l : List Nat) (d : Dev) (h : k ∈ l ∨ getPass k d = none) : getPass k (dropStale l d) = none := by
  induction l generalizing d with
  | nil => exact h.resolve_left List.not_mem_nil
  | cons n l ih =>
    refine ih _ ?_
    rw [getPass_inc, getPass_dropWaiting]
    by_cases hk : k = n
    · exact .inr (if_pos hk)
    · rw [if_neg hk]
      exact h.imp_left fun hm => (List.mem_cons.1 hm).resolve_left hk

/-- The ingress passes of a bank that wait before dispatch or in the Mandrel. -/
def staleOf (old : Nat) (d : Dev) : List Nat :=
  (d.head.passes.filter fun x => !x.2.egress && x.2.bank == old && (x.2.stage == .ready || x.2.stage == .mandrel)).map (·.1)

theorem mem_staleOf {old n : Nat} {p : Pass} {d : Dev} (hp : (n, p) ∈ d.head.passes) (hin : p.egress = false) (hbank : p.bank = old)
    (hstage : p.stage = .ready ∨ p.stage = .mandrel) : n ∈ staleOf old d :=
  List.mem_map.2 ⟨(n, p), List.mem_filter.2 ⟨hp, by obtain h | h := hstage <;> simp [hin, hbank, h]⟩, rfl⟩

theorem drainForce_drops {d : Dev} (hst : epcState d = 2) (hin : inflight (1 - curBank d) d ≠ 0) (hdue : d.epc.drainAt + 49000 ≤ d.mono) :
    drainForce d = drainComplete (dropStale (staleOf (1 - curBank d) d) (fire Pg.EPC 3 d)) := if_pos ⟨hst, hin, hdue⟩

/-! The events. -/

theorem curBank_inc_epcDisarm (p k : Nat) (d : Dev) : curBank (inc p k (epcDisarm d)) = curBank d := rget_inc ..

theorem inflight_inc_epcDisarm (p k b : Nat) (d : Dev) : inflight b (inc p k (epcDisarm d)) = inflight b d := inflight_congr (rget_inc ..) (rget_inc ..) b

theorem epochSwitch_due {d : Dev} {a : Act} (ha : epcEntry d = some a) (hst : epcState d = 1) (hdue : a.t ≤ nowNs d ∨ a.due = true) :
    epochSwitch d = doSwitch a.switchSeq a.due (inc Pg.SPN 0 (epcDisarm d)) := by
  unfold epochSwitch
  rw [ha]
  exact if_pos ⟨hst, hdue⟩

section
variable {s : State} {d : Dev} (hruns : Runs 99 s d)
include hruns

/-- EPOCH_SWITCH at the instant of an armed switch, or past it (R220, R223). -/
theorem epochSwitch_does {a : Act} (hbank : curBank d < 2) (ha : epcEntry d = some a) (hst : epcState d = 1) (hdue : a.t ≤ nowNs d ∨ a.due = true)
    (hseq : a.switchSeq < 2 ^ 16) : Does .epochSwitch s fun e => BankSwitched a.switchSeq a.due d e ∧ epcEntry e = none := by
  refine act_does (f := Machine.epochSwitch) rfl hruns fun e he => ?_
  rw [epochSwitch_due ha hst hdue] at he
  have hsame := curBank_inc_epcDisarm Pg.SPN 0 d
  refine ⟨(doSwitch_switches a.due hseq (by rwa [hsame])).shows (.of_beside he) hsame (inflight_inc_epcDisarm ..), ?_⟩
  rw [epcEntry, he.spn, doSwitch_spn, inc_spn]
  exact epcEntry_epcDisarm d

/-- DRAIN_COMPLETE once the old bank is empty (R225). -/
theorem drainComplete_does (hst : epcState d = 2) (hempty : inflight (1 - curBank d) d = 0) : Does .drainComplete s fun e =>
    epcState e = 0 ∧ bit (face Pg.EPC e).pend 1 = true ∧ rget EPC_DRAIN_TIME.TIME 0 0 e = min ((d.mono - d.epc.drainAt) / 10) 0xFFFF := by
  refine act_does (f := Machine.drainComplete) rfl hruns fun e he => ?_
  rw [show Machine.drainComplete d = drained d from if_pos ⟨hst, hempty⟩] at he
  refine ⟨(he.rget ..).trans (epcState_drained d), ?_, ?_⟩
  · rw [he.face]
    exact bit_pend_fire_same ..
  · rw [he.rget, drained, rget_fire, rget_rset_same]
    exact Nat.mod_eq_of_lt (show _ < 0x10000 by omega)

/-- DRAIN_FORCE drops what waits of the old bank (R227). -/
theorem drainForce_does (hst : epcState d = 2) (hin : inflight (1 - curBank d) d ≠ 0) (hdue : d.epc.drainAt + 49000 ≤ d.mono) :
    Does .drainForce s fun e => bit (face Pg.EPC e).pend 3 = true ∧
      ∀ n p, (n, p) ∈ d.head.passes → p.egress = false → p.bank = 1 - curBank d → (p.stage = .ready ∨ p.stage = .mandrel) → getPass n e = none := by
  refine act_does (f := Machine.drainForce) rfl hruns fun e he => ?_
  rw [drainForce_drops hst hin hdue] at he
  refine ⟨?_, fun n p hp hegr hbank hstage => ?_⟩
  · rw [he.face]
    exact Pends.trans (dropStale_pends _ _) (drainComplete_pends _) _ _ (bit_pend_fire_same ..)
  · rw [getPass, he.head, drainComplete_head]
    exact getPass_dropStale _ _ (.inl (mem_staleOf hp hegr hbank hstage))

/-- PREPARE_TIMEOUT aborts (R220). -/
theorem prepareTimeout_does (hst : epcState d = 3) (hdue : d.epc.prepAt + 10000000 ≤ d.mono) : Does .prepareTimeout s fun e =>
    epcState e = 0 ∧ bit (face Pg.EPC e).pend 4 = true ∧ ctr Pg.EPC 0x1018 e = (ctr Pg.EPC 0x1018 d + 1) % 2 ^ 64 := by
  refine act_does (f := Machine.prepareTimeout) rfl hruns fun e he => ?_
  rw [Machine.prepareTimeout, if_pos hdue, epochAbort_prepared hst] at he
  refine ⟨?_, ?_, ?_⟩
  · rw [epcState, he.rget, rget_fire, rget_inc]
    exact rget_rset_same EPC_STAT.STATE 0 0 0 d
  · rw [he.face]
    exact bit_pend_fire_same ..
  · rw [he.counts _ _ (by decide) (by decide) (by decide), (fire_beside ..).counts _ _ (by decide) (by decide) (by decide)]
    exact ctr_inc_same Pg.EPC 3 (setEpc 0 d)

/-- READY_TIMEOUT aborts while a worker's answer is missing (R228). -/
theorem readyTimeout_does {seq : Nat} (hseq : d.epc.mgrSeq = some seq) (hdue : d.epc.mgrAt + 1000000 ≤ d.mono) (hmissing : ∃ m ∈ d.epc.workers, m ∉ d.epc.ready) :
    Does .readyTimeout s fun e => e.epc.mgrSeq = none ∧ (face Pg.EPC e).errCode = 0x20 ∧ bit (face Pg.EPC e).pend 4 = true ∧
      (blkEn Pg.FCT d = true → e.ctlQ = d.ctlQ ++ [{ dst := none, kind := 2, rec_ := epochRec 4 seq 0 0 }]) := by
  refine act_does (f := Machine.readyTimeout) rfl hruns fun e he => ?_
  have hwaits : allReady d = false := by
    obtain ⟨m, hm, hnot⟩ := hmissing
    exact List.all_eq_false.2 ⟨m, hm, by simpa using hnot⟩
  rw [Machine.readyTimeout, if_pos (by simp [hseq, hdue]), hwaits, if_neg Bool.false_ne_true] at he
  refine ⟨?_, ?_, ?_, fun hen => ?_⟩
  · rw [he.epc, chassisAbort_mgrSeq]
  · rw [he.face, chassisAbort, errCode_fire, face_inc]
    exact errAt_code 0x20 .EPC_SWITCH 0 0 _
  · rw [he.face, chassisAbort]
    exact bit_pend_fire_same ..
  · rw [he.ctlQ, chassisAbort, fire_ctlQ, inc_ctlQ, hseq]
    exact sendCtl_ctlQ hen ..

end

end Sys2Proof.Machine

/-! Rule-set switches (R220 to R228): a staged word wider than 32 bits carries into the command's OP. -/

namespace Sys2Proof.Machine

open Safety

/-- A device with two empty banks whose staging copy of EPC_SWITCH holds 2^125 as its lowest word. -/
def wideSwitchStaged : State :=
  { dev := { sys := { porPin := false, chipHold := false }, faces := [(Pg.EPC, { Face.reset Pg.EPC with ready := true })],
             staged := [(stageKey .pcie Pg.EPC, { base := Reg.ofs .EPC_SWITCH 0 0, words := [(0, 2 ^ 125)] })] }, pending := [] }

/-- Refutes O19. The statement lets a staged word be any number. A lowest word of 2^125 carries into the image's OP, so that the
SWITCH_NOW to SEQ 1, which nothing refuses, runs as a CANCEL, and bank A stays current. Over staged words of 32 bits the clauses on the
commands hold (`switchNow_does`, `switchAt_does`, `epochCancel_does`, `chassisSwitch_does`), and those on the events hold as they stand
(`epochSwitch_does`, `drainComplete_does`, `drainForce_does`, `prepareTimeout_does`, `readyTimeout_does`). -/
theorem not_epochSwitches : ¬ Obligations.EpochSwitches := by
  rintro ⟨hcommand, -⟩
  obtain ⟨hnow, -⟩ := hcommand .pcie 1 wideSwitchStaged _ _ 0 (by decide) ⟨⟨rfl, rfl⟩, by decide +kernel, rfl, rfl⟩ (by decide +kernel)
  obtain ⟨t, ht, -, ⟨hbank, -⟩, -⟩ := hnow rfl (by decide +kernel) (by decide +kernel)
  have hrun : t = { wideSwitchStaged with dev := settle wideSwitchStaged.dev (cmd .pcie .EPC_SWITCH 0 0 (go 1 30 28 0) wideSwitchStaged.dev) } :=
    (Host.Outcome.next.inj ht).symm
  have hstays : curBank t.dev = 0 := by
    rw [hrun, curBank, rget_settle]; decide +kernel
  rw [hstays] at hbank
  exact absurd hbank (by decide +kernel)

end Sys2Proof.Machine

/-! The cell commands (R268): a staged word wider than 32 bits carries into the command's OP. -/

namespace Sys2Proof.Machine

open Safety

/-- A device whose staging copy of CHK_CELL_CMD holds 2^60 as its lowest word. -/
def wideCellStaged : State :=
  { dev := { sys := { porPin := false, chipHold := false }, faces := [(Pg.CHK, { Face.reset Pg.CHK with ready := true })],
             staged := [(stageKey .pcie Pg.CHK, { base := Reg.ofs .CHK_CELL_CMD 0 0, words := [(0, 2 ^ 60)] })] }, pending := [] }

/-- Refutes O21. The statement lets a staged word be any number. A lowest word of 2^60 carries into the image's OP, so that a READ of
cell 0, which nothing refuses, runs as an ALLOC under tag 0 and records BAD_ARG. -/
theorem not_poolAndCellCommands : ¬ Obligations.PoolAndCellCommands := by
  rintro ⟨-, -, hcommand, -⟩
  obtain ⟨hread, -⟩ := hcommand .pcie 0 wideCellStaged _ _ 0 (by decide) ⟨⟨rfl, rfl⟩, by decide +kernel, rfl, rfl⟩
  obtain ⟨t, ht, -, -, hsame, -⟩ := hread rfl (by decide +kernel)
  have hrun : t = { wideCellStaged with dev := settle wideCellStaged.dev (cmd .pcie .CHK_CELL_CMD 0 0 (go 0 30 28 0) wideCellStaged.dev) } :=
    (Host.Outcome.next.inj ht).symm
  have hrefused : (face Pg.CHK t.dev).errCode = Err.BAD_ARG := by
    rw [hrun, face_settle]; decide +kernel
  rw [hrefused] at hsame
  exact absurd hsame (by decide +kernel)

end Sys2Proof.Machine

/-! What the Chuck's own operations move: cells, pools, stored bits, the bad-free log, their counts, latches and events (R240 to R259). -/

namespace Sys2Proof.Machine

open Safety

/-! The frame: all of the device but the cells and pools, the CHK page's events and overruns, counters and the ledger. -/

/-- The status fields of a pool (R256, R259). -/
def poolFlds : List Fld := [CHK_POOLn_STAT.STATE, CHK_POOLn_STAT.FREE, CHK_POOLn_MIN.MIN, CHK_POOLn_RETIRED.COUNT]

/-- The latch of the first uncorrectable error, and the event log's pointer behind it (R257, R556). -/
def eccFlds : List Fld := (Reg.fields .CHK_ECC_ADDR).map (·.fld .CHK_ECC_ADDR) ++ [HWD_PTR1.LOG_NEXT]

/-- The key of a field that the Chuck's own operations write. -/
def ChkKey (k : Nat) : Prop := (∃ f ∈ poolFlds, ∃ n, f.key 0 n = k) ∨ KeyIn eccFlds k

/-- Device e with d's cells and pools, Faceplates, fields, counters, ledger and free values. -/
def chkAs (d e : Dev) : Dev :=
  { e with
    chk := { e.chk with cells := d.chk.cells, pools := d.chk.pools, badLog := d.chk.badLog, flips := d.chk.flips, badData := d.chk.badData,
                        badMeta := d.chk.badMeta }
    faces := d.faces, flds := d.flds, ctrs := d.ctrs, perf := d.perf, hwd := d.hwd, freeCtr := d.freeCtr }

/-- Device e is d but for what the Chuck's own operations move. -/
structure InChuck (d e : Dev) : Prop where
  kept : chkAs d e = d
  faces : ∀ p, p ≠ Pg.CHK → face p e = face p d
  face : { face Pg.CHK e with pend := (face Pg.CHK d).pend, overrun := (face Pg.CHK d).overrun } = face Pg.CHK d
  pends : Pends d e
  flds : ∀ k, ¬ChkKey k → find? e.flds k = find? d.flds k
  ctrs : ∀ p o, o < 65536 → p ≠ Pg.CHK → p ≠ Pg.HWD → ctr p o e = ctr p o d

namespace InChuck

variable {a b c d e : Dev}

theorem refl (d : Dev) : InChuck d d := ⟨rfl, fun _ _ => rfl, rfl, fun _ _ h => h, fun _ _ => rfl, fun _ _ _ _ _ => rfl⟩

theorem trans (h : InChuck a b) (k : InChuck b c) : InChuck a c where
  kept := (congrArg (chkAs a) k.kept).trans h.kept
  faces p hp := (k.faces p hp).trans (h.faces p hp)
  face := (congrArg (fun x : Face => { x with pend := (Machine.face Pg.CHK a).pend, overrun := (Machine.face Pg.CHK a).overrun }) k.face).trans h.face
  pends p n hp := k.pends p n (h.pends p n hp)
  flds x hx := (k.flds x hx).trans (h.flds x hx)
  ctrs p o ho hc hw := (k.ctrs p o ho hc hw).trans (h.ctrs p o ho hc hw)

theorem of_ite {p : Prop} [Decidable p] (h : InChuck a b) (k : InChuck a c) : InChuck a (if p then b else c) := by
  split <;> assumption

theorem foldl {β : Type} (f : Dev → β → Dev) (hf : ∀ d x, InChuck d (f d x)) : ∀ (l : List β) (d : Dev), InChuck d (l.foldl f d)
  | [], d => refl d
  | x :: l, d => (hf d x).trans (foldl f hf l _)

section
variable (h : InChuck d e)
include h

theorem drops : e.drops = d.drops := by have k := congrArg Dev.drops h.kept; exact k
theorem out : e.out = d.out := by have k := congrArg Dev.out h.kept; exact k
theorem mono : e.mono = d.mono := by have k := congrArg Dev.mono h.kept; exact k
theorem sys : e.sys = d.sys := by have k := congrArg Dev.sys h.kept; exact k
theorem cross : e.cross = d.cross := by have k := congrArg Dev.cross h.kept; exact k
theorem d2d : e.d2d = d.d2d := by have k := congrArg Dev.d2d h.kept; exact k
theorem srcCache : e.srcCache = d.srcCache := by have k := congrArg Dev.srcCache h.kept; exact k
theorem tm : e.tm = d.tm := by have k := congrArg Dev.tm h.kept; exact k
theorem ctlQ : e.ctlQ = d.ctlQ := by have k := congrArg Dev.ctlQ h.kept; exact k
theorem hbm : e.hbm = d.hbm := by have k := congrArg Dev.hbm h.kept; exact k
theorem fab : e.fab = d.fab := by have k := congrArg Dev.fab h.kept; exact k
theorem builds : e.chk.builds = d.chk.builds := by have k := congrArg (fun x : Dev => x.chk.builds) h.kept; exact k
theorem held : e.chk.held = d.chk.held := by have k := congrArg (fun x : Dev => x.chk.held) h.kept; exact k
theorem ptr : e.chk.ptr = d.chk.ptr := by have k := congrArg (fun x : Dev => x.chk.ptr) h.kept; exact k
theorem tags : e.chk.tags = d.chk.tags := by have k := congrArg (fun x : Dev => x.chk.tags) h.kept; exact k
theorem waiting : e.chk.waiting = d.chk.waiting := by have k := congrArg (fun x : Dev => x.chk.waiting) h.kept; exact k
theorem starved : e.chk.starved = d.chk.starved := by have k := congrArg (fun x : Dev => x.chk.starved) h.kept; exact k
theorem sent : e.chk.sent = d.chk.sent := by have k := congrArg (fun x : Dev => x.chk.sent) h.kept; exact k
theorem badGran : e.chk.badGran = d.chk.badGran := by have k := congrArg (fun x : Dev => x.chk.badGran) h.kept; exact k

theorem en (p : Nat) : (Machine.face p e).en = (Machine.face p d).en := by
  by_cases hp : p = Pg.CHK
  · subst hp
    have k := congrArg Face.en h.face
    exact k
  · rw [h.faces p hp]
theorem blkEn (p : Nat) : blkEn p e = blkEn p d := h.en _
theorem rget {f : Fld} {g i : Nat} (hk : ¬ChkKey (f.key g i)) : rget f g i e = rget f g i d := rget_congr (h.flds _ hk)
theorem flag {f : Fld} {g i : Nat} (hk : ¬ChkKey (f.key g i)) : flag f g i e = flag f g i d := congrArg (· != 0) (h.rget hk)

end

/-! Single updates. -/

theorem of_perfCount (p sel edge level : Nat) (d : Dev) : InChuck d (perfCount p sel edge level d) := by
  unfold perfCount
  exact of_ite { refl d with kept := rfl } (refl d)

theorem of_incAt {p : Nat} (hp : p = Pg.CHK ∨ p = Pg.HWD) {o : Nat} (ho : o < 65536) (n : Nat) (d : Dev) : InChuck d (incAt p o n d) := by
  refine { refl d with kept := rfl, ctrs := fun q r hr hc hw => look_put_ne _ _ _ _ ?_ }
  rcases hp with rfl | rfl <;> simp only [Pg.CHK, Pg.HWD] at * <;> omega

theorem of_incBy {p k : Nat} (hp : p = Pg.CHK ∨ p = Pg.HWD) (hk : k < 64) (n : Nat) (d : Dev) : InChuck d (incBy p k n d) := by
  have h : InChuck d (incAt p (0x1000 + 8 * k) n d) := of_incAt hp (by omega) n d
  unfold incBy
  exact of_ite (h.trans (of_perfCount ..)) h

theorem of_setFace {x : Face} (h : { x with pend := (Machine.face Pg.CHK d).pend, overrun := (Machine.face Pg.CHK d).overrun } = Machine.face Pg.CHK d)
    (hp : ∀ n, bit (Machine.face Pg.CHK d).pend n = true → bit x.pend n = true) : InChuck d (setFace Pg.CHK x d) := by
  refine { refl d with kept := rfl, faces := fun p hne => face_setFace_ne _ _ hne, face := ?_, pends := fun p n hb => ?_ }
  · rw [face_setFace_same]; exact h
  · by_cases hq : p = Pg.CHK
    · subst hq; rw [face_setFace_same]; exact hp n hb
    · rwa [face_setFace_ne _ _ hq]

theorem of_fire (n : Nat) (d : Dev) : InChuck d (fire Pg.CHK n d) :=
  (of_setFace (x := { Machine.face Pg.CHK d with pend := setBit (Machine.face Pg.CHK d).pend n }) rfl fun m hm => by
    simp only [bit, setBit, Nat.testBit_or] at hm ⊢
    rw [hm, Bool.true_or]).trans (of_perfCount ..)

theorem of_overrun (d : Dev) : InChuck d (overrun Pg.CHK d) :=
  (of_setFace (x := { Machine.face Pg.CHK d with overrun := min ((Machine.face Pg.CHK d).overrun + 1) 0xFFFF }) rfl fun _ hm => hm).trans (of_perfCount ..)

theorem of_rset {f : Fld} {g i : Nat} (hk : ChkKey (f.key g i)) (v : Nat) (d : Dev) : InChuck d (rset f g i v d) :=
  { refl d with kept := rfl, flds := fun _ hnot => find?_put_ne _ _ _ fun heq => hnot (heq ▸ hk) }

theorem of_rset_pool {f : Fld} (hf : f ∈ poolFlds) (n v : Nat) (d : Dev) : InChuck d (rset f 0 n v d) := of_rset (.inl ⟨f, hf, n, rfl⟩) v d

theorem of_setCell (h : Nat) (m : CellMeta) (d : Dev) : InChuck d (setCell h m d) := { refl d with kept := rfl }
theorem of_setPool (n : Nat) (p : Pool) (d : Dev) : InChuck d (setPool n p d) := { refl d with kept := rfl }
theorem of_metaFresh (g : Nat) (d : Dev) : InChuck d (metaFresh g d) := { refl d with kept := rfl }
theorem of_dataFresh (g n : Nat) (d : Dev) : InChuck d (dataFresh g n d) := { refl d with kept := rfl }
theorem of_draw (d : Dev) : InChuck d (draw d).2 := { refl d with kept := rfl }
theorem of_hwd (x : Hwd) (d : Dev) : InChuck d { d with hwd := x } := { refl d with kept := rfl }

theorem of_inc (k : Nat) (d : Dev) (hk : k < 64 := by decide) : InChuck d (inc Pg.CHK k d) := of_incBy (.inl rfl) hk 1 d

end InChuck

/-! The operations. -/

theorem mramWrites_inChuck (w : Nat) (vs : List Nat) (d : Dev) : InChuck d (mramWrites w vs d) := by
  refine InChuck.foldl _ (fun d x => ?_) _ d
  unfold mramWrite
  exact (InChuck.of_hwd _ d).trans (InChuck.of_incBy (.inr rfl) (by decide) ..)

theorem hwdLog_inChuck (kind type inst code data : Nat) (d : Dev) : InChuck d (hwdLog kind type inst code data d) := by
  have hlog : ChkKey (HWD_PTR1.LOG_NEXT.key 0 0) := .inr ⟨_, List.mem_append_right _ (List.mem_singleton_self _), rfl⟩
  unfold hwdLog
  extract_lets
  exact InChuck.of_ite ((InChuck.of_hwd _ d).trans (InChuck.of_incBy (.inr rfl) (by decide) ..))
    (((mramWrites_inChuck ..).trans (InChuck.of_rset hlog ..)).trans (InChuck.of_hwd ..))

theorem eccLog_inChuck (a : Nat) (d : Dev) : InChuck d (eccLog Pg.CHK a d) :=
  (hwdLog_inChuck ..).trans (InChuck.of_hwd ..)

theorem loadEcc_inChuck (img : Nat) (d : Dev) : InChuck d (loadImg .CHK_ECC_ADDR 0 0 img d) := by
  have set (x : FieldD) (hx : x ∈ Reg.fields .CHK_ECC_ADDR) (v : Nat) (d : Dev) : InChuck d (rset (x.fld .CHK_ECC_ADDR) 0 0 v d) :=
    InChuck.of_rset (.inr ⟨_, List.mem_append_left _ (List.mem_map_of_mem hx), rfl⟩) v d
  exact ((set _ (by simp [Reg.fields]) ..).trans (set _ (by simp [Reg.fields]) ..)).trans (set _ (by simp [Reg.fields]) ..)

theorem chkEcc_inChuck (kind g : Nat) (d : Dev) : InChuck d (chkEcc kind g d) := by
  have h : InChuck d (fire Pg.CHK 3 (inc Pg.CHK 9 d)) := (InChuck.of_inc 9 d).trans (InChuck.of_fire ..)
  unfold chkEcc
  exact InChuck.of_ite h ((h.trans (loadEcc_inChuck ..)).trans (eccLog_inChuck ..))

theorem badLogPush_inChuck (kind : Nat) (p : FreeParty) (owner tag h : Nat) (d : Dev) : InChuck d (badLogPush kind p owner tag h d) := by
  unfold badLogPush
  exact InChuck.of_ite ((InChuck.of_inc 7 d).trans (InChuck.of_fire ..)) { InChuck.refl d with kept := rfl }

theorem badFree_inChuck (kind : Nat) (p : FreeParty) (owner tag h : Nat) (d : Dev) : InChuck d (badFree kind p owner tag h d) :=
  ((InChuck.of_fire ..).trans (InChuck.of_inc 6 _)).trans (badLogPush_inChuck ..)

theorem metaCheck_inChuck (p : FreeParty) (h tag : Nat) (d : Dev) : InChuck d (metaCheck p h tag d).2 := by
  unfold metaCheck
  split
  · exact InChuck.refl d
  · exact (InChuck.of_inc 8 d).trans (InChuck.of_metaFresh ..)
  · exact ((InChuck.of_draw d).trans (chkEcc_inChuck ..)).trans (badLogPush_inChuck ..)

theorem poolUpdate_inChuck (n : Nat) (d : Dev) : InChuck d (poolUpdate n d) := by
  have set {f : Fld} (hf : f ∈ poolFlds) (v : Nat) (d : Dev) : InChuck d (rset f 0 n v d) := InChuck.of_rset_pool hf n v d
  unfold poolUpdate
  extract_lets f s old d1 d2
  have h : InChuck d d2 := ((set (by decide) ..).trans (set (by decide) ..)).trans (set (by decide) ..)
  exact InChuck.of_ite h (InChuck.of_ite (h.trans (InChuck.of_fire ..)) (InChuck.of_ite (h.trans (InChuck.of_fire ..)) h))

theorem refillOne_inChuck (n : Nat) (d : Dev) : InChuck d (refillOne n d) := by
  unfold refillOne
  split
  · exact InChuck.refl d
  · exact InChuck.of_ite (InChuck.refl d) ((InChuck.of_setPool ..).trans (InChuck.of_setCell ..))

theorem cacheRefill_inChuck (n : Nat) (d : Dev) : InChuck d (cacheRefill n d) := by
  have rep (k : Nat) (d : Dev) : InChuck d (Nat.repeat (refillOne n) k d) := by
    induction k with
    | zero => exact InChuck.refl d
    | succ k ih => exact ih.trans (refillOne_inChuck ..)
  exact InChuck.of_ite (rep 16 d) (InChuck.refl d)

theorem grantCell_inChuck (n tag : Nat) (fell : Bool) (d : Dev) : InChuck d (grantCell n tag fell d).2 := by
  unfold grantCell
  dsimp only
  split
  · exact InChuck.refl d
  next h t _ =>
    have hg : InChuck d (inc Pg.CHK 0 (metaFresh h (setCell h _ (setPool n _ d)))) :=
      (((InChuck.of_setPool n { pool n d with cache := t } d).trans (InChuck.of_setCell h { alloc := true, owner := tag, pool := n, last := true } _)).trans
        (InChuck.of_metaFresh ..)).trans (InChuck.of_inc 0 _)
    exact (InChuck.of_ite (hg.trans (InChuck.of_inc 2 _)) hg).trans (poolUpdate_inChuck ..)

theorem allocTry_inChuck (tag : Nat) : ∀ (k n : Nat) (fell : Bool) (d : Dev), InChuck d (allocTry tag k n fell d).2
  | 0, _, _, d => InChuck.of_inc 3 d
  | k + 1, n, fell, d => by
    unfold allocTry
    split
    · exact InChuck.of_inc 3 d
    · split
      · exact grantCell_inChuck ..
      · split
        · exact InChuck.of_overrun d
        · split
          · exact allocTry_inChuck tag k _ true d
          · exact InChuck.of_inc 3 d

theorem allocCell_inChuck (n tag : Nat) (d : Dev) : InChuck d (allocCell n tag d).2 := by
  have h := allocTry_inChuck tag 5 n false d
  unfold allocCell
  split
  next heq => rwa [heq] at h
  next heq => rwa [heq] at h
  next p e heq =>
    rw [heq] at h
    have k := (h.trans (cacheRefill_inChuck p e)).trans (allocTry_inChuck tag 5 n false _)
    split
    next heq2 => rwa [heq2] at k
    next heq2 => rwa [heq2] at k

theorem retireCell_inChuck (h n : Nat) (d : Dev) : InChuck d (retireCell h n d) :=
  (((InChuck.of_setCell ..).trans (InChuck.of_rset_pool (by decide) ..)).trans (InChuck.of_inc 10 _)).trans (poolUpdate_inChuck ..)

theorem putCell_inChuck (h : Nat) (d : Dev) : InChuck d (putCell h d) := by
  have h1 (m : CellMeta) : InChuck d (inc Pg.CHK 1 (setCell h m d)) := (InChuck.of_setCell ..).trans (InChuck.of_inc 1 _)
  unfold putCell
  dsimp only
  refine InChuck.of_ite (InChuck.refl d) (InChuck.of_ite ((h1 _).trans (retireCell_inChuck ..)) (InChuck.of_ite ?_ ?_))
  · exact ((h1 _).trans (InChuck.of_setPool ..)).trans (poolUpdate_inChuck ..)
  · exact (((h1 _).trans (InChuck.of_setCell ..)).trans (InChuck.of_setPool ..)).trans (poolUpdate_inChuck ..)

theorem freeWalk_inChuck (p : FreeParty) (tag : Nat) : ∀ (k h : Nat) (d : Dev), InChuck d (freeWalk p tag k h d).2
  | 0, _, d => InChuck.refl d
  | k + 1, h, d => by
    have hm := metaCheck_inChuck p h tag d
    unfold freeWalk
    dsimp only
    split
    · exact hm
    · split
      · exact hm.trans (badFree_inChuck ..)
      · split
        · exact hm.trans (putCell_inChuck ..)
        · exact (hm.trans (putCell_inChuck ..)).trans (freeWalk_inChuck p tag k _ _)

theorem freeChain_inChuck (p : FreeParty) (h tag : Nat) (d : Dev) : InChuck d (freeChain p h tag d).2 := by
  have hm := metaCheck_inChuck p h tag d
  unfold freeChain
  dsimp only
  split
  · exact hm
  · split
    · exact hm.trans (badFree_inChuck ..)
    · split
      · exact hm.trans (badFree_inChuck ..)
      · split
        · exact hm.trans (InChuck.of_setCell ..)
        · exact (hm.trans (InChuck.of_setCell ..)).trans (freeWalk_inChuck ..)

theorem free_inChuck (p : FreeParty) (h tag : Nat) (d : Dev) : InChuck d (free p h tag d) := freeChain_inChuck p h tag d

theorem storeCell_inChuck (h : Nat) (bs : Bytes) (d : Dev) : InChuck d (storeCell h bs d) := (InChuck.of_setCell ..).trans (InChuck.of_dataFresh ..)

theorem linkCell_inChuck (prev h : Nat) (d : Dev) : InChuck d (linkCell prev h d) := (InChuck.of_setCell ..).trans (InChuck.of_setCell ..)

theorem storeCells_inChuck (n tag : Nat) : ∀ (k prev : Nat) (bs : Bytes) (d : Dev), InChuck d (storeCells n tag k prev bs d).2.2.2
  | 0, _, _, d => InChuck.refl d
  | k + 1, prev, bs, d => by
    have hm := metaCheck_inChuck .verdictPath prev tag d
    have ha := hm.trans (allocCell_inChuck n tag _)
    unfold storeCells
    dsimp only
    split
    · exact InChuck.refl d
    · split
      · exact hm
      · split
        next heq => rwa [heq] at ha
        next heq =>
          rw [heq] at ha
          exact ((ha.trans (linkCell_inChuck ..)).trans (storeCell_inChuck ..)).trans (storeCells_inChuck n tag k _ _ _)

theorem newChain_inChuck (n tag : Nat) (p : FreeParty) (bs : Bytes) (d : Dev) : InChuck d (newChain n tag p bs d).2 := by
  have ha := allocCell_inChuck n tag d
  unfold newChain
  split
  next heq => rwa [heq] at ha
  next h e heq =>
    rw [heq] at ha
    have stored := ((ha.trans (InChuck.of_setCell h { cell h e with refs := 1 } e)).trans (storeCell_inChuck h (bs.take (min bs.length (cellSize h e))) _)).trans
      (storeCells_inChuck n tag bs.length h (bs.drop (min bs.length (cellSize h e))) _)
    dsimp only
    split
    · exact stored
    · exact stored.trans (free_inChuck ..)

/-! Drops (R18). -/

theorem drop_drops {code : Nat} (h : code ≠ 0) (d : Dev) : (drop code d).drops = put d.drops code 0 (look d.drops code 0 + 1) := by
  unfold drop
  rw [if_neg h]
  dsimp only
  split
  · have k := congrArg Dev.drops (inc_tallies Pg.HIF 4 { d with drops := put d.drops code 0 (look d.drops code 0 + 1) }).kept
    exact k
  · rfl

theorem look_drop_same {code : Nat} (h : code ≠ 0) (d : Dev) : look (drop code d).drops code 0 = look d.drops code 0 + 1 := by
  rw [drop_drops h, look_put_same]

theorem look_drop_ne {code k : Nat} (h : k ≠ code) (d : Dev) : look (drop code d).drops k 0 = look d.drops k 0 := by
  by_cases h0 : code = 0
  · rw [drop, if_pos h0]
  · rw [drop_drops h0, look_put_ne _ _ _ _ h]

end Sys2Proof.Machine

/-! Flits of the die-to-die link (R260 to R265). -/

namespace Sys2Proof.Machine

open Safety

/-! One direction of the link, and its counters (R270). -/

section
variable (t : Bool) (x : D2dDir) (d : Dev)

@[simp] theorem dirOf_setDir_same : dirOf t (setDir t x d) = x := by cases t <;> rfl
@[simp] theorem dirOf_not_setDir : dirOf (!t) (setDir t x d) = dirOf (!t) d := by cases t <;> rfl
@[simp] theorem dirOf_setDir_not : dirOf t (setDir (!t) x d) = dirOf t d := by cases t <;> rfl
@[simp] theorem setDir_setDir (y : D2dDir) : setDir t x (setDir t y d) = setDir t x d := by cases t <;> rfl
@[simp] theorem setDir_cross : (setDir t x d).cross = d.cross := rfl
@[simp] theorem setDir_chk : (setDir t x d).chk = d.chk := rfl
@[simp] theorem setDir_tm : (setDir t x d).tm = d.tm := rfl
@[simp] theorem setDir_mono : (setDir t x d).mono = d.mono := rfl
@[simp] theorem rget_setDir (f : Fld) (g i : Nat) : rget f g i (setDir t x d) = rget f g i d := rfl
@[simp] theorem ctr_setDir (p o : Nat) : ctr p o (setDir t x d) = ctr p o d := rfl

/-- Counter i of a direction (R270). -/
def d2dCtr (t : Bool) (i : Nat) (d : Dev) : Nat := ctr Pg.D2D (0x1000 + 8 * (if t then i else i + 8)) d

@[simp] theorem d2dCtr_setDir (u : Bool) (i : Nat) : d2dCtr t i (setDir u x d) = d2dCtr t i d := rfl

theorem d2dInc_tallies (i n : Nat) : Tallies d (d2dInc t i n d) := incBy_tallies ..

variable {t d} in
theorem dirOf_congr {e : Dev} (h : e.d2d = d.d2d) : dirOf t e = dirOf t d := by simp only [dirOf, h]

theorem Tallies.d2d {d e : Dev} (h : Tallies d e) : e.d2d = d.d2d := by have k := congrArg Dev.d2d h.kept; exact k
theorem Tallies.cross {d e : Dev} (h : Tallies d e) : e.cross = d.cross := by have k := congrArg Dev.cross h.kept; exact k
theorem Tallies.chk {d e : Dev} (h : Tallies d e) : e.chk = d.chk := by have k := congrArg Dev.chk h.kept; exact k
theorem Tallies.flds {d e : Dev} (h : Tallies d e) : e.flds = d.flds := by have k := congrArg Dev.flds h.kept; exact k
theorem Tallies.drops {d e : Dev} (h : Tallies d e) : e.drops = d.drops := by have k := congrArg Dev.drops h.kept; exact k
theorem Tallies.mono {d e : Dev} (h : Tallies d e) : e.mono = d.mono := by have k := congrArg Dev.mono h.kept; exact k

@[simp] theorem d2dInc_d2d (i n : Nat) : (d2dInc t i n d).d2d = d.d2d := (d2dInc_tallies ..).d2d
@[simp] theorem d2dInc_cross (i n : Nat) : (d2dInc t i n d).cross = d.cross := (d2dInc_tallies ..).cross
@[simp] theorem d2dInc_chk (i n : Nat) : (d2dInc t i n d).chk = d.chk := (d2dInc_tallies ..).chk
@[simp] theorem d2dInc_mono (i n : Nat) : (d2dInc t i n d).mono = d.mono := (d2dInc_tallies ..).mono
@[simp] theorem rget_d2dInc (f : Fld) (g k i n : Nat) : rget f g k (d2dInc t i n d) = rget f g k d := (d2dInc_tallies ..).rget ..
@[simp] theorem dirOf_d2dInc (u : Bool) (i n : Nat) : dirOf u (d2dInc t i n d) = dirOf u d := dirOf_congr (d2dInc_d2d ..)

theorem d2dCtr_d2dInc_same (i n : Nat) : d2dCtr t i (d2dInc t i n d) = (d2dCtr t i d + n) % 2 ^ 64 := ctr_incBy_same ..

theorem ctr_incBy_ne {j k : Nat} (h : j ≠ k) (p n : Nat) (d : Dev) : ctr p (0x1000 + 8 * j) (incBy p k n d) = ctr p (0x1000 + 8 * j) d := by
  have hadd : ctr p (0x1000 + 8 * j) (incAt p (0x1000 + 8 * k) n d) = ctr p (0x1000 + 8 * j) d := ctr_incAt_ne (by omega) n d
  unfold incBy perfCount
  dsimp only
  split_ifs <;> exact hadd

theorem d2dCtr_d2dInc_ne {i j : Nat} (h : i ≠ j) (n : Nat) : d2dCtr t i (d2dInc t j n d) = d2dCtr t i d := by
  refine ctr_incBy_ne ?_ ..
  split <;> omega

variable {t d} in
theorem d2dCtr_beside {e : Dev} (h : Beside d e) {i : Nat} (hi : i < 8) : d2dCtr t i e = d2dCtr t i d :=
  h.counts _ _ (by split <;> omega) (by decide) (by decide)

variable {t d} in
theorem dirOf_beside {e : Dev} (h : Beside d e) : dirOf t e = dirOf t d := dirOf_congr h.d2d

end

/-! Cutting a payload into records (R261, R262). -/

/-- Padding is cut word by word. -/
theorem cutRecs_zeros (d : Dev) (j : Nat) : ∀ k : Nat, cutRecs d (k + j) (List.replicate k 0) = (List.replicate k [0], [])
  | 0 => by cases j <;> simp [cutRecs]
  | k + 1 => by
    have hone : recWords (0 :: List.replicate k 0) d = 1 := by simp [recWords, bits]
    simp [Nat.add_right_comm k 1 j, cutRecs, List.replicate_succ, hone, cutRecs_zeros d j k]

/-- A padding word is no record. -/
theorem runRec_zero (t : Bool) (d : Dev) : runRec t [0] d = d := rfl

theorem foldl_runRec_zeros (t : Bool) : ∀ (k : Nat) (d : Dev), (List.replicate k [0]).foldl (fun d r => runRec t r d) d = d
  | 0, _ => rfl
  | k + 1, d => by rw [List.replicate_succ, List.foldl_cons, runRec_zero, foldl_runRec_zeros t k]

/-- The words of an EPOCH record. -/
def epochWords (b sq : Nat) : List Nat := [recHead 4 0 false 1 0, 0x08 * 2 ^ 56 + b * 2 ^ 16 + sq]

theorem cutRecs_epoch (b sq k : Nat) (d : Dev) :
    cutRecs d (k + 2) (epochWords b sq ++ List.replicate k 0) = (epochWords b sq :: List.replicate k [0], []) := by
  have htwo : recWords (epochWords b sq ++ List.replicate k 0) d = 2 := by simp [recWords, epochWords, recHead, bits, b2n]
  rw [cutRecs, htwo]
  simp [epochWords, cutRecs_zeros d 1 k]

/-- An EPOCH record tells the TM die BANK and EPOCH_SEQ (R263). -/
theorem runRec_epoch {b sq : Nat} (hb : b < 2) (hsq : sq < 2 ^ 16) (d : Dev) : runRec true (epochWords b sq) d = epochTake b sq d := by
  have hop : bits (0x08 * 2 ^ 56 + b * 2 ^ 16 + sq) 63 56 = 8 := by simp only [bits, Nat.shiftRight_eq_div_pow]; omega
  have hbank : bits (0x08 * 2 ^ 56 + b * 2 ^ 16 + sq) 16 16 = b := by simp only [bits, Nat.shiftRight_eq_div_pow]; omega
  have hseq : bits (0x08 * 2 ^ 56 + b * 2 ^ 16 + sq) 15 0 = sq := by simp only [bits, Nat.shiftRight_eq_div_pow]; omega
  have hctl : runRec true (epochWords b sq) d = runControl true (epochWords b sq) d := by simp [runRec, epochWords, recHead, bits, b2n]
  have hword : (epochWords b sq).getD 1 0 = 0x08 * 2 ^ 56 + b * 2 ^ 16 + sq := rfl
  rw [hctl, runControl, hword]
  simp only [hop, hbank, hseq, if_true]

/-! Flits as their sender and their receiver see them (R260, R264). -/

section
variable {t : Bool} {f : Flit} {d : Dev}

theorem length_of_whole (h : flitOf (flitBytes f) = f) : f.words.length = 44 := by
  rw [← h]
  simp [flitOf]

/-- The flit in the replay buffer, with the records that end in it. -/
def flitEntry (x : D2dDir) (f : Flit) (d : Dev) : HeldFlit :=
  { seq := f.seq, words := f.words, first := f.first, resync := f.resync, recs := (cutRecs d (x.tail ++ f.words).length (x.tail ++ f.words)).1, at_ := d.mono }

/-- The sender's side once a new flit has left. -/
def flitSent (x : D2dDir) (f : Flit) (d : Dev) : D2dDir :=
  { x with next := (x.next + 1) % 4096, held := x.held ++ [flitEntry x f d], resync := false,
           tail := (cutRecs d (x.tail ++ f.words).length (x.tail ++ f.words)).2 }

/-- What makes a flit one that the sender sends next (R260, R264). -/
structure FlitNew (t : Bool) (f : Flit) (d : Dev) : Prop where
  whole : flitOf (flitBytes f) = f
  traffic : f.ftype = 1
  seq : f.seq = (dirOf t d).next
  room : (dirOf t d).held.length < 1024
  resync : f.resync = (dirOf t d).resync
  first : f.first = firstOf (dirOf t d).tail f.words d
  unheld : ∀ h ∈ (dirOf t d).held, h.seq ≠ f.seq
  acks : ackTrue t f d = true

/-- A flit that is none of the link's changes nothing. -/
theorem flitReceive_none {sent : Bytes} (flips : List (Fin 3072)) (h : d2dUp t d = false ∨ flitBytes (flitOf sent) ≠ sent ∨ 1 < (flitOf sent).ftype ∨
    ackTrue t (flitOf sent) d = false) : flitReceive t sent flips d = d := by
  unfold flitReceive
  dsimp only
  rw [if_pos]
  simp only [Bool.or_eq_true, Bool.not_eq_true', bne_iff_ne, decide_eq_true_eq]
  tauto

section
variable (hwhole : flitOf (flitBytes f) = f)
include hwhole

/-- A flit of the link reaches its receiver, where its CRC says whether it was spoiled. -/
theorem flitReceive_sent (flips : List (Fin 3072)) (hup : d2dUp t d = true) (htype : f.ftype ≤ 1) (hack : ackTrue t f d = true) :
    flitReceive t (flitBytes f) flips d = match if f.ftype = 1 then sendFlit t f d else some d with
      | none => d
      | some e => if flitGood (flipBits (flitBytes f) flips) then goodFlit t (flitOf (flipBits (flitBytes f) flips)) e
        else d2dInc t 2 1 (setDir t { dirOf t e with bad := true } e) := by
  unfold flitReceive
  simp only [hwhole, hup, hack, bne_self_eq_false, Nat.not_lt.2 htype]
  rfl

/-- One that the wires spare arrives as it left. -/
theorem flitReceive_clean (hup : d2dUp t d = true) (htype : f.ftype ≤ 1) (hack : ackTrue t f d = true) :
    flitReceive t (flitBytes f) [] d = ((if f.ftype = 1 then sendFlit t f d else some d).map (goodFlit t f)).getD d := by
  have hgood : flitGood (flipBits (flitBytes f) []) = true := Laws.flitGood_flitBytes f (length_of_whole hwhole)
  have hsame : flitOf (flipBits (flitBytes f) []) = f := hwhole
  rw [flitReceive_sent hwhole [] hup htype hack, hgood, hsame]
  cases (if f.ftype = 1 then sendFlit t f d else some d) <;> rfl

end

theorem find?_none_of_unheld {l : List HeldFlit} (h : ∀ x ∈ l, x.seq ≠ f.seq) : l.find? (fun x => x.seq == f.seq) = none := by
  simpa [List.find?_eq_none] using h

/-- A new flit enters the replay buffer and is counted. -/
theorem sendFlit_new (h : FlitNew t f d) : sendFlit t f d =
    some (if f.resync then d2dInc t 5 1 (d2dInc t 0 1 (setDir t (flitSent (dirOf t d) f d) d)) else d2dInc t 0 1 (setDir t (flitSent (dirOf t d) f d) d)) := by
  unfold sendFlit
  simp only [find?_none_of_unheld h.unheld]
  rw [if_pos ⟨h.seq, h.room, h.resync, h.first⟩]
  simp only [flitSent, flitEntry, h.seq]

theorem sendFlit_none (hheld : ∀ h ∈ (dirOf t d).held, h.seq ≠ f.seq) (hseq : f.seq ≠ (dirOf t d).next) : sendFlit t f d = none := by
  unfold sendFlit
  simp only [find?_none_of_unheld hheld]
  rw [if_neg fun h => hseq h.1]

end

end Sys2Proof.Machine

/-! The rows of the flits (R260, R264). -/

namespace Sys2Proof.Machine

open Safety

/-! The receiver (R260, R264). -/

section
variable {t : Bool} {f : Flit} {d : Dev}

/-- A flit that acknowledges nothing and asks for nothing is its payload alone. -/
theorem goodFlit_quiet (htype : f.ftype = 1) (hack : f.ackv = false) (hnak : f.nak = false) : goodFlit t f d = takeFlit t f d := by
  unfold goodFlit
  simp [htype, hack, hnak]

/-- The records of a flit in sequence that starts none in its middle run. -/
theorem takeFlit_next {l : List (List Nat)} (hseq : f.seq = (dirOf t d).exp) (hresync : f.resync = false) (hskip : (dirOf t d).skip = false)
    (hpart : (dirOf t d).part = []) (hcut : ∀ e, cutRecs e f.words.length f.words = (l, [])) :
    takeFlit t f d = l.foldl (fun d r => runRec t r d)
      (setDir t { dirOf t d with exp := (f.seq + 1) % 4096, got := true, bad := false } (d2dInc t 1 1 (setDir t { dirOf t d with exp := (f.seq + 1) % 4096, got := true, bad := false } d))) := by
  unfold takeFlit
  dsimp only
  rw [if_neg fun h => h.1 hseq, if_pos (.inl hseq)]
  unfold takePayload
  simp [hresync, hskip, hpart, hcut]

/-- A flit accepted before is none again (R13). -/
theorem takeFlit_again (hseq : f.seq ≠ (dirOf t d).exp) (hup : seqUpTo f.seq (dirOf t d).exp = true) : takeFlit t f d = d := if_pos ⟨hseq, hup⟩

/-- The sender resends what it holds (R264). -/
def heldAgain (x : D2dDir) (d : Dev) : D2dDir := { x with held := x.held.map fun h => { h with tries := h.tries + 1, at_ := d.mono } }

theorem resendFlits_held {h : HeldFlit} {l : List HeldFlit} (hheld : (dirOf t d).held = h :: l) (hlimit : h.tries < rget D2D_CFG.REPLAY_LIMIT 0 0 d) :
    resendFlits t d = d2dInc t 3 (dirOf t d).held.length (setDir t (heldAgain (dirOf t d) d) d) := by
  unfold resendFlits heldAgain
  simp only [hheld]
  rw [if_neg (by omega)]

theorem resendFlits_limit {h : HeldFlit} {l : List HeldFlit} (hheld : (dirOf t d).held = h :: l) (hlimit : rget D2D_CFG.REPLAY_LIMIT 0 0 d ≤ h.tries) :
    resendFlits t d = d := by
  unfold resendFlits
  simp only [hheld]
  exact if_pos hlimit

end

section
variable {t : Bool} {f : Flit} {s : State} {d : Dev} (hruns : Runs 101 s d)
include hruns

theorem flitReceive_leaves {sent : Bytes} {flips : List (Fin 3072)} {x : Dev} (h : flitReceive t sent flips d = x) :
    Leaves (.flitReceive t sent flips) s x := act_leaves (f := flitReceive t sent flips) rfl hruns h

/-- A flit of padding is accepted: the sender holds it, and the receiver expects the next. -/
theorem flitReceive_padding (hup : d2dUp t d = true) (hwords : f.words = List.replicate 44 0) (hnew : FlitNew t f d) (hresync : f.resync = false)
    (hskip : (dirOf t d).skip = false) (hpart : (dirOf t d).part = []) (htail : (dirOf t d).tail = []) (hseq : f.seq = (dirOf t d).exp)
    (hack : f.ackv = false) (hnak : f.nak = false) : Does (.flitReceive t (flitBytes f) []) s fun e => e.cross = d.cross ∧ dirOf (!t) e = dirOf (!t) d ∧
      dirOf t e = { dirOf t d with next := ((dirOf t d).next + 1) % 4096, held := (dirOf t d).held ++ [flitEntry (dirOf t d) f d],
                                   exp := (f.seq + 1) % 4096, got := true, bad := false } ∧
      d2dCtr t 0 e = (d2dCtr t 0 d + 1) % 2 ^ 64 ∧ d2dCtr t 1 e = (d2dCtr t 1 d + 1) % 2 ^ 64 := by
  have hcut (e : Dev) : cutRecs e f.words.length f.words = (List.replicate 44 [0], []) := by rw [hwords]; exact cutRecs_zeros e 0 44
  have hsent : flitSent (dirOf t d) f d = { dirOf t d with next := ((dirOf t d).next + 1) % 4096, held := (dirOf t d).held ++ [flitEntry (dirOf t d) f d] } := by
    have hnone : (dirOf t d).resync = false := hnew.resync ▸ hresync
    simp [flitSent, htail, hcut, hnone]
  refine act_does (f := flitReceive t (flitBytes f) []) rfl hruns fun e he => ?_
  rw [flitReceive_clean hnew.whole hup hnew.traffic.le hnew.acks, if_pos hnew.traffic, sendFlit_new hnew, if_neg (by simp [hresync]), hsent] at he
  simp only [Option.map_some, Option.getD_some] at he
  rw [goodFlit_quiet hnew.traffic hack hnak, takeFlit_next (by simpa using hseq) hresync (by simpa using hskip) (by simpa using hpart) hcut,
    foldl_runRec_zeros] at he
  refine ⟨?_, ?_, ?_, ?_, ?_⟩
  · rw [he.cross]; simp
  · rw [dirOf_beside he]; simp
  · rw [dirOf_beside he]; simp
  · rw [d2dCtr_beside he (by decide)]
    simp [d2dCtr_d2dInc_ne, d2dCtr_d2dInc_same]
  · rw [d2dCtr_beside he (by decide)]
    simp [d2dCtr_d2dInc_ne, d2dCtr_d2dInc_same]

/-- An EPOCH record in a flit runs. -/
theorem flitReceive_epoch {b sq : Nat} {f : Flit} (hb : b < 2) (hsq : sq < 2 ^ 16) (hup : d2dUp true d = true)
    (hwords : f.words = epochWords b sq ++ List.replicate 42 0) (hnew : FlitNew true f d) (hresync : f.resync = false)
    (hskip : (dirOf true d).skip = false) (hpart : (dirOf true d).part = []) (hseq : f.seq = (dirOf true d).exp)
    (hack : f.ackv = false) (hnak : f.nak = false) : Does (.flitReceive true (flitBytes f) []) s fun e =>
      e.d2d.bank = b ∧ e.d2d.seq = sq ∧ (dirOf true e).exp = (f.seq + 1) % 4096 := by
  have hcut (e : Dev) : cutRecs e f.words.length f.words = (epochWords b sq :: List.replicate 42 [0], []) := by rw [hwords]; exact cutRecs_epoch b sq 42 e
  refine act_does (f := flitReceive true (flitBytes f) []) rfl hruns fun e he => ?_
  rw [flitReceive_clean hnew.whole hup hnew.traffic.le hnew.acks, if_pos hnew.traffic, sendFlit_new hnew, if_neg (by simp [hresync])] at he
  simp only [Option.map_some, Option.getD_some] at he
  rw [goodFlit_quiet hnew.traffic hack hnak, takeFlit_next (by simpa [flitSent] using hseq) hresync (by simpa [flitSent] using hskip)
    (by simpa [flitSent] using hpart) hcut, List.foldl_cons, runRec_epoch hb hsq, foldl_runRec_zeros] at he
  refine ⟨?_, ?_, ?_⟩
  · rw [he.d2d]; rfl
  · rw [he.d2d]; rfl
  · rw [dirOf_beside he]; rfl

/-- A new flit that the wires spoil stays in the replay buffer, and the receiver answers NAK. -/
theorem flitReceive_spoiled {flips : List (Fin 3072)} (hup : d2dUp t d = true) (hnew : FlitNew t f d)
    (hbad : flitGood (flipBits (flitBytes f) flips) = false) : Does (.flitReceive t (flitBytes f) flips) s fun e => e.cross = d.cross ∧
      dirOf t e = { flitSent (dirOf t d) f d with bad := true } ∧ d2dCtr t 2 e = (d2dCtr t 2 d + 1) % 2 ^ 64 := by
  refine act_does (f := flitReceive t (flitBytes f) flips) rfl hruns fun e he => ?_
  rw [flitReceive_sent hnew.whole flips hup hnew.traffic.le hnew.acks, if_pos hnew.traffic, sendFlit_new hnew] at he
  simp only [hbad, Bool.false_eq_true, if_false] at he
  refine ⟨?_, ?_, ?_⟩
  · rw [he.cross]
    split_ifs <;> simp
  · rw [dirOf_beside he]
    split_ifs <;> simp
  · rw [d2dCtr_beside he (by decide)]
    split_ifs <;> simp [d2dCtr_d2dInc_ne, d2dCtr_d2dInc_same]

/-- A flit that its sender does not send next, or whose acknowledgement is not the receiver's, is none. -/
theorem flitReceive_unsent (flips : List (Fin 3072)) (hwhole : flitOf (flitBytes f) = f) (htype : f.ftype = 1) (hheld : ∀ h ∈ (dirOf t d).held, h.seq ≠ f.seq)
    (hseq : f.seq ≠ (dirOf t d).next) : Leaves (.flitReceive t (flitBytes f) flips) s d := by
  refine flitReceive_leaves hruns ?_
  by_cases hlink : d2dUp t d = true ∧ ackTrue t f d = true
  · rw [flitReceive_sent hwhole flips hlink.1 htype.le hlink.2, if_pos htype, sendFlit_none hheld hseq]
  · refine flitReceive_none flips ?_
    rw [hwhole]
    simp only [Bool.eq_false_iff]
    tauto

/-- A resent flit that was accepted before changes nothing (R13). -/
theorem flitReceive_resent {h : HeldFlit} (hwhole : flitOf (flitBytes f) = f) (htype : f.ftype = 1)
    (hfind : (dirOf t d).held.find? (fun h => h.seq == f.seq) = some h) (hwords : h.words = f.words) (hfirst : h.first = f.first)
    (hresync : h.resync = f.resync) (hseq : f.seq ≠ (dirOf t d).exp) (hupTo : seqUpTo f.seq (dirOf t d).exp = true) (hack : f.ackv = false)
    (hnak : f.nak = false) : Leaves (.flitReceive t (flitBytes f) []) s d := by
  have hsend : sendFlit t f d = some d := by
    unfold sendFlit
    simp only [hfind]
    exact if_pos ⟨hwords, hfirst, hresync⟩
  refine flitReceive_leaves hruns ?_
  by_cases hlink : d2dUp t d = true ∧ ackTrue t f d = true
  · rw [flitReceive_clean hwhole hlink.1 htype.le hlink.2, if_pos htype, hsend]
    simp only [Option.map_some, Option.getD_some]
    rw [goodFlit_quiet htype hack hnak, takeFlit_again hseq hupTo]
  · refine flitReceive_none [] ?_
    rw [hwhole]
    simp only [Bool.eq_false_iff]
    tauto

/-- An acknowledgement frees the flits up to it (R264). -/
theorem flitReceive_ack (hup : d2dUp t d = true) (hwhole : flitOf (flitBytes f) = f) (htype : f.ftype = 0) (hnak : f.nak = false) (hack : f.ackv = true)
    (htrue : ackTrue t f d = true) : Leaves (.flitReceive t (flitBytes f) []) s
      (setDir (!t) { dirOf (!t) d with held := (dirOf (!t) d).held.dropWhile fun h => seqUpTo h.seq f.ack } d) := by
  refine flitReceive_leaves hruns ?_
  rw [flitReceive_clean hwhole hup (by omega) htrue, if_neg (by omega)]
  simp [goodFlit, htype, hack, hnak, ackFlits]

/-- A NAK resends what is held (R264). -/
theorem flitReceive_nak {h : HeldFlit} {l : List HeldFlit} (hup : d2dUp t d = true) (hwhole : flitOf (flitBytes f) = f) (htype : f.ftype = 0)
    (hnak : f.nak = true) (hack : f.ackv = false) (htrue : ackTrue t f d = true) (hheld : (dirOf (!t) d).held = h :: l)
    (hlimit : h.tries < rget D2D_CFG.REPLAY_LIMIT 0 0 d) : Does (.flitReceive t (flitBytes f) []) s fun e =>
      dirOf (!t) e = heldAgain (dirOf (!t) d) d ∧ dirOf t e = dirOf t d ∧ d2dCtr (!t) 3 e = (d2dCtr (!t) 3 d + (dirOf (!t) d).held.length) % 2 ^ 64 := by
  refine act_does (f := flitReceive t (flitBytes f) []) rfl hruns fun e he => ?_
  have hgood : goodFlit t f d = resendFlits (!t) d := by simp [goodFlit, htype, hack, hnak]
  rw [flitReceive_clean hwhole hup (by omega) htrue, if_neg (by omega)] at he
  simp only [Option.map_some, Option.getD_some, hgood] at he
  rw [resendFlits_held hheld hlimit] at he
  refine ⟨?_, ?_, ?_⟩
  · rw [dirOf_beside he]; simp
  · rw [dirOf_beside he]; simp
  · rw [d2dCtr_beside he (by decide), d2dCtr_d2dInc_same]
    simp

/-- Without an acknowledgement for REPLAY_TMO what is held is resent (R264). -/
theorem replayTimeout_resends {h : HeldFlit} {l : List HeldFlit} (hheld : (dirOf t d).held = h :: l)
    (hdue : h.at_ + rget D2D_CFG.REPLAY_TMO 0 0 d ≤ d.mono) (hlimit : h.tries < rget D2D_CFG.REPLAY_LIMIT 0 0 d) :
    Does (.replayTimeout t) s fun e => dirOf t e = heldAgain (dirOf t d) d ∧
      d2dCtr t 3 e = (d2dCtr t 3 d + (dirOf t d).held.length) % 2 ^ 64 ∧ e.cross = d.cross := by
  refine act_does (f := replayTimeout t) rfl hruns fun e he => ?_
  have hrow : replayTimeout t d = resendFlits t d := by
    unfold replayTimeout
    simp only [hheld]
    exact if_pos hdue
  rw [hrow, resendFlits_held hheld hlimit] at he
  refine ⟨?_, ?_, ?_⟩
  · rw [dirOf_beside he]; simp
  · rw [d2dCtr_beside he (by decide), d2dCtr_d2dInc_same]
    simp
  · rw [he.cross]; simp

theorem replayTimeout_waits {h : HeldFlit} {l : List HeldFlit} (hheld : (dirOf t d).held = h :: l)
    (hwait : d.mono < h.at_ + rget D2D_CFG.REPLAY_TMO 0 0 d ∨ rget D2D_CFG.REPLAY_LIMIT 0 0 d ≤ h.tries) : Leaves (.replayTimeout t) s d := by
  refine act_leaves (f := replayTimeout t) rfl hruns ?_
  unfold replayTimeout
  simp only [hheld]
  split
  next hdue => exact resendFlits_limit hheld (hwait.resolve_left (by omega))
  next => rfl

end

end Sys2Proof.Machine

/-! Lost flits and the test of the wires (R264 to R266). -/

namespace Sys2Proof.Machine

open Safety

/-! A lost flit (R264, R266). -/

/-- A record's first word is no padding. -/
theorem recHead_ne_zero {rtype : Nat} (h : 0 < rtype) (stream : Nat) (last : Bool) (pre n : Nat) : recHead rtype stream last pre n ≠ 0 := by
  unfold recHead
  omega

theorem bodyWords_ne_pad (r : BodyRec) : bodyWords r ≠ [0] := fun h => recHead_ne_zero Nat.one_pos _ _ _ _ (List.cons.inj h).1

theorem verdictWords_ne_pad (v : Verd) : verdictWords v ≠ [0] := by
  intro h
  have hlen := congrArg List.length h
  simp only [verdictWords, List.length_append, List.length_map, List.length_range, List.length_singleton] at hlen
  omega

theorem egressWords_ne_pad (r : EgrRec) : egressWords r ≠ [0] := by
  have h3 (n : Nat) (last : Bool) : recHead 3 r.port last 4 n ≠ 0 := recHead_ne_zero (by decide) _ _ _ _
  have h1 (n : Nat) (last : Bool) : recHead 1 r.port last 0 n ≠ 0 := recHead_ne_zero (by decide) _ _ _ _
  unfold egressWords
  dsimp only
  split <;> simp [h3, h1]

/-- Padding was no record: nothing is lost with it. -/
theorem loseRec_pad (t : Bool) (d : Dev) : loseRec t (fun w => w == [0]) d = d := by
  have hb : d.cross.bodies.find? (fun r => bodyWords r == [0]) = none := by simp [List.find?_eq_none, bodyWords_ne_pad]
  have hv : d.cross.verdicts.find? (fun v => verdictWords v == [0]) = none := by simp [List.find?_eq_none, verdictWords_ne_pad]
  have he : d.cross.egress.find? (fun r => egressWords r == [0]) = none := by simp [List.find?_eq_none, egressWords_ne_pad]
  cases t <;> simp [loseRec, hb, hv, he]

/-- Device e holds the link's state and its counters as d does. -/
structure SameLink (d e : Dev) : Prop where
  d2d : e.d2d = d.d2d
  ctrs : ∀ o, o < 65536 → ctr Pg.D2D o e = ctr Pg.D2D o d

namespace SameLink

theorem refl (d : Dev) : SameLink d d := ⟨rfl, fun _ _ => rfl⟩

theorem trans {a b c : Dev} (h : SameLink a b) (k : SameLink b c) : SameLink a c :=
  ⟨k.d2d.trans h.d2d, fun o ho => (k.ctrs o ho).trans (h.ctrs o ho)⟩

theorem of_inChuck {d e : Dev} (h : InChuck d e) : SameLink d e := ⟨h.d2d, fun o ho => h.ctrs _ o ho (by decide) (by decide)⟩

end SameLink

theorem abortChain_sameLink (h : Nat) (b : Build) (code : Nat) (d : Dev) : SameLink d (abortChain h b code d) := by
  have hmark : SameLink d (if (cell h d).alloc && (cell h d).owner == b.tag then setCell h { cell h d with abort := true } d else d) := by
    split <;> exact ⟨rfl, fun _ _ => rfl⟩
  exact hmark.trans ⟨rfl, fun _ _ => rfl⟩

theorem abortCell_sameLink (h : Nat) (d : Dev) : SameLink d (abortCell h d) := by
  have hcut : SameLink d { d with cross := { d.cross with bodies := d.cross.bodies.filter fun r => r.cell != h } } := ⟨rfl, fun _ _ => rfl⟩
  unfold abortCell
  dsimp only
  split
  · exact hcut.trans (abortChain_sameLink ..)
  · exact hcut

theorem loseVerdict_sameLink (v : Verd) (d : Dev) : SameLink d (loseVerdict v d) := by
  unfold loseVerdict dropInstead
  dsimp only
  split <;> exact ⟨rfl, fun _ _ => rfl⟩

theorem loseEgress_sameLink (r : EgrRec) (d : Dev) : SameLink d (loseEgress r d) := by
  unfold loseEgress
  dsimp only
  refine SameLink.trans ?_ (SameLink.of_inChuck (free_inChuck ..))
  split <;> exact ⟨rfl, fun _ _ => rfl⟩

theorem loseRec_sameLink (t : Bool) (held : List Nat → Bool) (d : Dev) : SameLink d (loseRec t held d) := by
  unfold loseRec
  split
  · split
    · exact abortCell_sameLink ..
    · split
      · exact loseVerdict_sameLink ..
      · exact SameLink.refl d
  · split
    · exact loseEgress_sameLink ..
    · exact SameLink.refl d

theorem loseRecs_sameLink (t : Bool) : ∀ (l : List (List Nat)) (d : Dev), SameLink d (l.foldl (fun d r => loseRec t (fun w => w == r) d) d)
  | [], d => SameLink.refl d
  | _ :: l, _ => (loseRec_sameLink ..).trans (loseRecs_sameLink t l _)

theorem loseRecs_pad (t : Bool) (d : Dev) : ∀ l : List (List Nat), (∀ r ∈ l, r = [0]) → l.foldl (fun d r => loseRec t (fun w => w == r) d) d = d
  | [], _ => rfl
  | r :: l, h => by
    rw [List.foldl_cons, h r (List.mem_cons_self ..), loseRec_pad, loseRecs_pad t d l fun x hx => h x (List.mem_cons_of_mem _ hx)]

/-- The device once the sender has answered for the records it held (R264). -/
def recsLost (t : Bool) (d : Dev) : Dev :=
  let x := dirOf t d
  let e := (x.held.flatMap (·.recs)).foldl (fun d r => loseRec t (fun w => w == r) d) (setDir t { x with held := [], resync := true, tail := [] } d)
  if x.tail.isEmpty then e else loseRec t (fun w => x.tail.isPrefixOf w) e

theorem recsLost_sameLink (t : Bool) (d : Dev) : SameLink (setDir t { dirOf t d with held := [], resync := true, tail := [] } d) (recsLost t d) := by
  unfold recsLost
  dsimp only
  split
  · exact loseRecs_sameLink ..
  · exact (loseRecs_sameLink ..).trans (loseRec_sameLink ..)

/-- The released frame that was lost with its only record leaves the link, and its packet counts as dropped. -/
theorem loseRec_egress {r : EgrRec} {d : Dev} (h : d.cross.egress = [r]) (hbad : r.bad = false) :
    (loseRec false (fun w => w == egressWords r) d).cross.egress = [] ∧
      look (loseRec false (fun w => w == egressWords r) d).drops 0x62 0 = look d.drops 0x62 0 + 1 := by
  have hlose : loseRec false (fun w => w == egressWords r) d = loseEgress r d := by simp [loseRec, h]
  have hfree := free_inChuck .egress r.cell r.tag (onChk (fun c => { c with sent := put c.sent r.port [] ((look d.chk.sent r.port []).erase (r.cell, r.tag)) })
    (drop 0x62 { d with cross := { d.cross with egress := d.cross.egress.erase r } }))
  rw [hlose, loseEgress, if_neg (by simp [hbad])]
  refine ⟨?_, ?_⟩
  · rw [hfree.cross]
    show d.cross.egress.erase r = []
    rw [h, List.erase_cons_head]
  · rw [hfree.drops]
    exact look_drop_same (by decide) _

section
variable {t : Bool} {s : State} {d : Dev} (hruns : Runs 101 s d) {h : HeldFlit} {l : List HeldFlit} (hheld : (dirOf t d).held = h :: l)
include hruns hheld

theorem flitLost_waits (hlimit : h.tries < rget D2D_CFG.REPLAY_LIMIT 0 0 d) : Leaves (.flitLost t) s d := by
  refine act_leaves (f := flitLost t) rfl hruns ?_
  unfold flitLost
  simp only [hheld]
  exact if_pos hlimit

/-- After REPLAY_LIMIT resends the oldest flit is lost with all that is held, and the sender resumes with RESYNC. -/
theorem flitLost_loses (hlimit : rget D2D_CFG.REPLAY_LIMIT 0 0 d ≤ h.tries) : Does (.flitLost t) s fun e =>
    dirOf t e = { dirOf t d with held := [], resync := true, tail := [] } ∧ d2dCtr t 4 e = (d2dCtr t 4 d + (dirOf t d).held.length) % 2 ^ 64 ∧
    bit (face Pg.D2D e).pend 0 = true ∧ ((dirOf t d).tail = [] → (∀ y ∈ (dirOf t d).held, ∀ r ∈ y.recs, r = [0]) → e.cross = d.cross ∧ e.chk = d.chk) ∧
    (∀ r, t = false → (dirOf t d).tail = [] → (dirOf t d).held.flatMap (·.recs) = [egressWords r] → d.cross.egress = [r] → r.bad = false →
      e.cross.egress = [] ∧ look e.drops 0x62 0 = look d.drops 0x62 0 + 1) := by
  have hrow : flitLost t d = fire Pg.D2D 0 (d2dInc t 4 (dirOf t d).held.length (recsLost t d)) := by
    unfold flitLost recsLost
    simp only [hheld]
    rw [if_neg (by omega)]
  have hsame := recsLost_sameLink t d
  refine act_does (f := flitLost t) rfl hruns fun e he => ?_
  rw [hrow] at he
  have hfire := fire_beside Pg.D2D 0 (d2dInc t 4 (dirOf t d).held.length (recsLost t d))
  have hcross : e.cross = (recsLost t d).cross := by rw [he.cross, hfire.cross]; exact d2dInc_cross ..
  refine ⟨?_, ?_, ?_, fun htail hpad => ?_, fun r ht htail hrecs hegress hbad => ?_⟩
  · rw [dirOf_beside he, dirOf_beside hfire]
    exact (dirOf_d2dInc ..).trans ((dirOf_congr hsame.d2d).trans (dirOf_setDir_same ..))
  · rw [d2dCtr_beside he (by decide), d2dCtr_beside hfire (by decide)]
    refine (d2dCtr_d2dInc_same ..).trans ?_
    rw [d2dCtr, hsame.ctrs _ (by split <;> omega)]
    rfl
  · rw [he.face]
    exact bit_pend_fire_same ..
  · have hnone : recsLost t d = setDir t { dirOf t d with held := [], resync := true, tail := [] } d := by
      unfold recsLost
      dsimp only
      rw [loseRecs_pad _ _ _ fun r hr => by
        obtain ⟨y, hy, hry⟩ := List.mem_flatMap.1 hr
        exact hpad y hy r hry]
      simp [htail]
    refine ⟨by rw [hcross, hnone]; rfl, ?_⟩
    rw [he.chk, hfire.chk]
    exact (d2dInc_chk ..).trans (by rw [hnone]; rfl)
  · have hone : recsLost t d = loseRec false (fun w => w == egressWords r) (setDir t { dirOf t d with held := [], resync := true, tail := [] } d) := by
      subst ht
      unfold recsLost
      dsimp only
      rw [hrecs, htail]
      rfl
    have hlost := loseRec_egress (d := setDir t { dirOf t d with held := [], resync := true, tail := [] } d) (r := r) hegress hbad
    rw [← hone] at hlost
    refine ⟨by rw [hcross]; exact hlost.1, ?_⟩
    rw [he.drops, hfire.drops]
    exact (congrArg (look · 0x62 0) (d2dInc_tallies ..).drops).trans hlost.2

end

/-! The test of the wires (R265). -/

theorem bit_setBit (m n k : Nat) : bit (setBit m n) k = (bit m k || decide (n = k)) := by
  simp only [bit, setBit, Nat.testBit_or, Nat.one_shiftLeft, Nat.testBit_two_pow]

theorem d2dCtr_fire (t : Bool) {i : Nat} (hi : i < 8) (p n : Nat) (d : Dev) : d2dCtr t i (fire p n d) = d2dCtr t i d := d2dCtr_beside (fire_beside p n d) hi

theorem dirOf_fire (t : Bool) (p n : Nat) (d : Dev) : dirOf t (fire p n d) = dirOf t d := dirOf_congr (fire_beside p n d).d2d

/-- A direction whose wire under test has failed at the instant `now` (R265). -/
def wireFailed (x : D2dDir) (now : Nat) : D2dDir :=
  { x with wire := nextWire (x.wire :: x.retired) 3072 x.wire, retired := x.wire :: x.retired, calAt := now }

/-- The register field with a direction's spare wires. -/
def spareFld (t : Bool) : Fld := if t then D2D_STAT.SPARE_FT else D2D_STAT.SPARE_TF

section
variable {t : Bool} {s : State} {d : Dev} (hruns : Runs 101 s d)
include hruns

theorem wireCal_waits {pass : Bool} (h : d2dUp t d = false ∨ rget (spareFld t) 0 0 d = 0 ∨
    ¬(dirOf t d).calAt + rget D2D_X_CAL.CAL_MS 0 0 d * 1000000 ≤ d.mono) : Leaves (.wireCal t pass) s d := by
  refine act_leaves (f := wireCal t pass) rfl hruns ?_
  unfold wireCal
  dsimp only
  rw [← spareFld, if_pos]
  rw [not_le] at h
  simpa only [Bool.or_eq_true, Bool.not_eq_true', beq_iff_eq, decide_eq_true_eq, or_assoc] using h

section
variable (hup : d2dUp t d = true) (hspare : 0 < rget (spareFld t) 0 0 d) (hdue : (dirOf t d).calAt + rget D2D_X_CAL.CAL_MS 0 0 d * 1000000 ≤ d.mono)
include hup hspare hdue

theorem wireCal_passes : Leaves (.wireCal t true) s (setDir t { dirOf t d with wire := nextWire (dirOf t d).retired 3072 (dirOf t d).wire, calAt := d.mono } d) := by
  refine act_leaves (f := wireCal t true) rfl hruns ?_
  unfold wireCal
  dsimp only
  rw [← spareFld, if_neg]
  · rfl
  · simp only [hup, Bool.or_eq_true, beq_iff_eq, decide_eq_true_eq]
    simp
    omega

/-- A wire that fails its test is retired, and takes a spare (R265). -/
theorem wireCal_fails (hsmall : rget (spareFld t) 0 0 d < 256) : Does (.wireCal t false) s fun e =>
    rget (spareFld t) 0 0 e = rget (spareFld t) 0 0 d - 1 ∧ d2dCtr t 6 e = (d2dCtr t 6 d + 1) % 2 ^ 64 ∧
    (dirOf t e).retired = (dirOf t d).wire :: (dirOf t d).retired ∧ bit (face Pg.D2D e).pend 1 = true ∧
    bit (face Pg.D2D e).pend 2 = (bit (face Pg.D2D d).pend 2 || decide (rget (spareFld t) 0 0 d - 1 < 8)) := by
  let x := wireFailed (dirOf t d) d.mono
  have hrow : wireCal t false d =
      let e := fire Pg.D2D 1 (d2dInc t 6 1 (rset (spareFld t) 0 0 (rget (spareFld t) 0 0 d - 1) (setDir t x d)))
      if rget (spareFld t) 0 0 d - 1 < 8 then fire Pg.D2D 2 e else e := by
    unfold wireCal
    dsimp only
    rw [← spareFld, if_neg]
    · rfl
    · simp only [hup, Bool.or_eq_true, beq_iff_eq, decide_eq_true_eq]
      simp
      omega
  have hwidth : (spareFld t).w = 8 := by cases t <;> rfl
  have hdir (v : Nat) : dirOf t (rset (spareFld t) 0 0 v (setDir t x d)) = x := dirOf_setDir_same t x d
  have hctr (v : Nat) : d2dCtr t 6 (rset (spareFld t) 0 0 v (setDir t x d)) = d2dCtr t 6 d := rfl
  have hface (v : Nat) : face Pg.D2D (d2dInc t 6 1 (rset (spareFld t) 0 0 v (setDir t x d))) = face Pg.D2D d := by
    rw [face, (d2dInc_tallies ..).faces]; rfl
  refine act_does (f := wireCal t false) rfl hruns fun e he => ?_
  rw [hrow] at he
  refine ⟨?_, ?_, ?_, ?_, ?_⟩
  · rw [he.rget]
    split <;> (simp only [rget_fire, rget_d2dInc, rget_rset_same, hwidth]; omega)
  · rw [d2dCtr_beside he (by decide)]
    split <;> simp only [d2dCtr_fire t (i := 6) (by decide), d2dCtr_d2dInc_same, hctr]
  · rw [dirOf_beside he]
    split <;> (simp only [dirOf_fire, dirOf_d2dInc, hdir]; rfl)
  · rw [he.face]
    split <;> simp [face_fire_same, bit_setBit]
  · rw [he.face]
    split
    next hlow => simp [face_fire_same, hlow]
    next hlow => simp [face_fire_same, bit_setBit, hlow, hface]

end
end

/-- Settles O22: each clause is the lemma of its row. -/
theorem flitsAndReplay : Obligations.FlitsAndReplay := by
  unfold Obligations.FlitsAndReplay
  intro whole recs entry isNew quiet fresh cnt
  have hnew {t : Bool} {f : Flit} {d : Dev} (h : isNew t f d) : FlitNew t f d := by
    obtain ⟨hwhole, htype, hseq, hroom, hresync, hfirst, hheld, hack⟩ := h
    exact ⟨hwhole, htype, hseq, hroom, hresync, hfirst, hheld, hack⟩
  refine ⟨?flits, ?timers, ?wires⟩
  case flits =>
    intro t f flips s d hruns x c clean
    refine ⟨fun hdown sent => flitReceive_leaves hruns (flitReceive_none flips (.inl hdown)),
      fun sent hforeign => flitReceive_leaves hruns (flitReceive_none flips (.inr (.inl (hforeign _)))), ?_, ?_, ?_, ?_, ?_, ?_, ?_, ?_⟩
    · intro hwhole h
      refine flitReceive_leaves hruns (flitReceive_none flips ?_)
      rw [show flitOf (flitBytes f) = f from hwhole]
      exact .inr (.inr h.symm)
    · rintro hup hwords hn ⟨hresync, hskip, hpart, htail, hseq⟩ ⟨hack, hnak⟩
      exact flitReceive_padding hruns hup hwords (hnew hn) hresync hskip hpart htail hseq hack hnak
    · rintro b sq ht hb hsq hup hn ⟨hresync, hskip, hpart, htail, hseq⟩ ⟨hack, hnak⟩ hwords
      subst ht
      exact flitReceive_epoch hruns hb hsq hup hwords (hnew hn) hresync hskip hpart hseq hack hnak
    · exact fun hup hn hbad => flitReceive_spoiled hruns hup (hnew hn) hbad
    · exact fun hwhole htype hheld hseq => flitReceive_unsent hruns flips hwhole htype hheld hseq
    · rintro h hwhole htype hfind hwords hfirst hresync hseq hupTo ⟨hack, hnak⟩
      exact flitReceive_resent hruns hwhole htype hfind hwords hfirst hresync hseq hupTo hack hnak
    · exact fun hup hwhole htype hnak hack htrue => flitReceive_ack hruns hup hwhole htype hnak hack htrue
    · exact fun h l hup hwhole htype hnak hack htrue hheld hlimit => flitReceive_nak hruns hup hwhole htype hnak hack htrue hheld hlimit
  case timers =>
    intro t s d h l hruns hheld x
    exact ⟨replayTimeout_resends hruns hheld, replayTimeout_waits hruns hheld, flitLost_waits hruns hheld, flitLost_loses hruns hheld⟩
  case wires =>
    intro t pass s d hruns spare n x due
    exact ⟨wireCal_waits hruns, wireCal_passes hruns, fun hup hspare hsmall hdue => wireCal_fails hruns hup hspare hdue hsmall⟩

end Sys2Proof.Machine

/-! Cells and pools: what each operation of the Chuck leaves of them (R242 to R253). -/

namespace Sys2Proof.Machine

open Safety

/-! The Chuck's own state under counts and events. -/

section
variable (d : Dev)

@[simp] theorem inc_chk (p k : Nat) : (inc p k d).chk = d.chk := (inc_tallies ..).chk
@[simp] theorem incBy_chk (p k n : Nat) : (incBy p k n d).chk = d.chk := (incBy_tallies ..).chk
@[simp] theorem fire_chk (p n : Nat) : (fire p n d).chk = d.chk := (fire_beside p n d).chk
@[simp] theorem overrun_chk (p : Nat) : (overrun p d).chk = d.chk := (overrun_beside p d).chk
@[simp] theorem drop_chk (code : Nat) : (drop code d).chk = d.chk := by
  unfold drop
  split_ifs
  · rfl
  · exact inc_chk ..
  · rfl
@[simp] theorem poolUpdate_chk (n : Nat) : (poolUpdate n d).chk = d.chk := by
  unfold poolUpdate
  dsimp only
  split_ifs <;> simp

/-! Cells and pools under their updates. -/

variable (h n : Nat) (m : CellMeta) (p : Pool)

@[simp] theorem cell_setCell_same : cell h (setCell h m d) = m := look_put_same ..
theorem cell_setCell_ne {h k : Nat} (hk : k ≠ h) : cell k (setCell h m d) = cell k d := look_put_ne _ _ _ _ hk
@[simp] theorem cell_setPool (k : Nat) : cell k (setPool n p d) = cell k d := rfl
@[simp] theorem cell_metaFresh (k : Nat) : cell k (metaFresh h d) = cell k d := rfl
@[simp] theorem cell_dataFresh (k : Nat) : cell k (dataFresh h n d) = cell k d := rfl
@[simp] theorem pool_setCell : pool n (setCell h m d) = pool n d := rfl
@[simp] theorem pool_setPool_same : pool n (setPool n p d) = p := look_put_same ..
@[simp] theorem pool_metaFresh : pool n (metaFresh h d) = pool n d := rfl
@[simp] theorem pool_dataFresh (k : Nat) : pool n (dataFresh h k d) = pool n d := rfl

@[simp] theorem rget_onChk (f : Fld) (g i : Nat) (u : Chk → Chk) : rget f g i (onChk u d) = rget f g i d := rfl
@[simp] theorem poolEn_onChk (u : Chk → Chk) : poolEn n (onChk u d) = poolEn n d := rfl
@[simp] theorem poolStep_onChk (u : Chk → Chk) : poolStep n (onChk u d) = poolStep n d := rfl
@[simp] theorem poolStep_setCell : poolStep n (setCell h m d) = poolStep n d := rfl
@[simp] theorem poolStep_setPool (k : Nat) : poolStep n (setPool k p d) = poolStep n d := rfl
@[simp] theorem metaSeen_setCell (k : Nat) : metaSeen k (setCell h m d) = metaSeen k d := rfl
@[simp] theorem metaSeen_setPool (k : Nat) : metaSeen k (setPool n p d) = metaSeen k d := rfl

variable {d} {e : Dev}

theorem cell_congr (hc : e.chk.cells = d.chk.cells) : cell h e = cell h d := by rw [cell, cell, hc]
theorem pool_congr (hp : e.chk.pools = d.chk.pools) : pool n e = pool n d := by rw [pool, pool, hp]
theorem metaSeen_congr (hc : e.chk = d.chk) : metaSeen h e = metaSeen h d := by unfold metaSeen flipCount; rw [hc]

end

@[simp] theorem cell_inc (h p k : Nat) (d : Dev) : cell h (inc p k d) = cell h d := cell_congr h (by simp)
@[simp] theorem pool_inc (n p k : Nat) (d : Dev) : pool n (inc p k d) = pool n d := pool_congr n (by simp)
@[simp] theorem cell_poolUpdate (h n : Nat) (d : Dev) : cell h (poolUpdate n d) = cell h d := cell_congr h (by simp)
@[simp] theorem pool_poolUpdate (n k : Nat) (d : Dev) : pool n (poolUpdate k d) = pool n d := pool_congr n (by simp)
@[simp] theorem metaSeen_inc (h p k : Nat) (d : Dev) : metaSeen h (inc p k d) = metaSeen h d := metaSeen_congr h (inc_chk ..)
@[simp] theorem metaSeen_poolUpdate (h n : Nat) (d : Dev) : metaSeen h (poolUpdate n d) = metaSeen h d := metaSeen_congr h (poolUpdate_chk ..)

/-! The settings of pools and sources, which no operation writes (R241, R243). -/

/-- A field that no operation of the Chuck writes: past the ledger's page, and of no bits or no address of a pool's status or a latch. -/
def Fld.offChk (f : Fld) : Bool :=
  decide (6 < f.reg.lay.page) && decide (f.lo < 1024) &&
    (!decide (f.lo ∈ [0, 30, 31]) || (decide (f.reg.lay.stride % 32 = 0) && decide (f.reg.lay.ofs % 32 ∉ [16, 20, 24])))

theorem key_mod (f : Fld) (hlo : f.lo < 1024) (g i : Nat) : f.key g i % 1024 = f.lo := by
  simp only [Fld.key]; omega

theorem key_div (f : Fld) (hlo : f.lo < 1024) (g i : Nat) : f.key g i / 1024 = f.reg.addr g i := by
  simp only [Fld.key]; omega

/-- The keys that the Chuck writes lie where the bits and the addresses of `Fld.offChk` are not. -/
theorem ChkKey.place {k : Nat} (h : ChkKey k) : k / 1024 < 7 * 65536 ∨ (k % 1024 ∈ [0, 30, 31] ∧ k / 1024 % 32 ∈ [16, 20, 24]) := by
  obtain ⟨f, hf, n, rfl⟩ | ⟨f, hf, rfl⟩ := h
  · refine .inr ?_
    simp only [poolFlds, List.mem_cons, List.not_mem_nil, or_false] at hf
    obtain rfl | rfl | rfl | rfl := hf <;>
      (rw [key_mod _ (by decide), key_div _ (by decide)]
       refine ⟨by decide, ?_⟩
       simp only [Reg.addr, Reg.lay, CHK_POOLn_STAT.STATE, CHK_POOLn_STAT.FREE, CHK_POOLn_MIN.MIN, CHK_POOLn_RETIRED.COUNT, List.mem_cons,
         List.not_mem_nil, or_false]
       omega)
  · revert f
    decide +kernel

theorem not_chkKey {f : Fld} (hf : f.offChk = true) (g i : Nat) : ¬ChkKey (f.key g i) := by
  intro h
  simp only [Fld.offChk, Bool.and_eq_true, decide_eq_true_eq, Bool.or_eq_true, Bool.not_eq_true', decide_eq_false_iff_not] at hf
  obtain ⟨⟨hpage, hlo⟩, hplace⟩ := hf
  have hp := h.place
  rw [key_mod _ hlo, key_div _ hlo] at hp
  have haddr : f.reg.addr g i = (f.reg.lay.page + g) * 65536 + f.reg.lay.ofs + f.reg.lay.stride * i := rfl
  obtain hlow | ⟨hbits, hmod⟩ := hp
  · omega
  · obtain ⟨hstride, hofs⟩ := hplace.resolve_left fun hnot => hnot hbits
    obtain ⟨q, hq⟩ : 32 ∣ f.reg.lay.stride * i := Dvd.dvd.mul_right (Nat.dvd_of_mod_eq_zero hstride) i
    have hsame : f.reg.addr g i % 32 = f.reg.lay.ofs % 32 := by omega
    exact hofs (hsame ▸ hmod)

section
variable {d e : Dev} (h : InChuck d e)
include h

theorem InChuck.rgetOff {f : Fld} (hf : f.offChk = true) (g i : Nat) : Machine.rget f g i e = Machine.rget f g i d := h.rget (not_chkKey hf g i)
theorem InChuck.flagOff {f : Fld} (hf : f.offChk = true) (g i : Nat) : Machine.flag f g i e = Machine.flag f g i d := h.flag (not_chkKey hf g i)
theorem InChuck.poolEn (n : Nat) : Machine.poolEn n e = Machine.poolEn n d := h.flagOff (by decide) 0 n
theorem InChuck.poolStep (n : Nat) : Machine.poolStep n e = Machine.poolStep n d := congrArg (2 ^ ·) (h.rgetOff (f := CHK_POOLn_CFG.SIZE) (by decide) 0 n)
theorem InChuck.poolBase (n : Nat) : Machine.poolBase n e = Machine.poolBase n d := h.rgetOff (by decide) 0 n
theorem InChuck.poolCount (n : Nat) : Machine.poolCount n e = Machine.poolCount n d := h.rgetOff (by decide) 0 n

end

end Sys2Proof.Machine

/-! The allocator, the caches and the checked frees (R244 to R255). -/

namespace Sys2Proof.Machine

open Safety

/-! A grant (R244). -/

/-- The device once cell h, the oldest of pool n's cache, is granted under a tag. -/
def granted (n tag h : Nat) (t : List Nat) (fell : Bool) (d : Dev) : Dev :=
  let e := inc Pg.CHK 0 (metaFresh h (setCell h { alloc := true, owner := tag, pool := n, last := true } (setPool n { pool n d with cache := t } d)))
  poolUpdate n (if fell then inc Pg.CHK 2 e else e)

section
variable {n tag h : Nat} {t : List Nat} {fell : Bool} {d : Dev}

theorem grantCell_cons (hc : (pool n d).cache = h :: t) : grantCell n tag fell d = (.grant h, granted n tag h t fell d) := by
  unfold grantCell
  simp only [hc]
  rfl

theorem granted_chk : (granted n tag h t fell d).chk =
    (metaFresh h (setCell h { alloc := true, owner := tag, pool := n, last := true } (setPool n { pool n d with cache := t } d))).chk := by
  unfold granted
  dsimp only
  split <;> simp

@[simp] theorem cell_granted_same : cell h (granted n tag h t fell d) = { alloc := true, owner := tag, pool := n, last := true } := by
  rw [cell_congr h (congrArg Chk.cells granted_chk), cell_metaFresh, cell_setCell_same]
theorem cell_granted_ne {k : Nat} (hk : k ≠ h) : cell k (granted n tag h t fell d) = cell k d := by
  rw [cell_congr k (congrArg Chk.cells granted_chk), cell_metaFresh, cell_setCell_ne _ _ hk, cell_setPool]
@[simp] theorem pool_granted_same : pool n (granted n tag h t fell d) = { pool n d with cache := t } := by
  rw [pool_congr n (congrArg Chk.pools granted_chk), pool_metaFresh, pool_setCell, pool_setPool_same]

/-- A request of an enabled pool with a cached cell is granted it. -/
theorem allocTry_cached {k : Nat} (hen : poolEn n d = true) (hc : (pool n d).cache = h :: t) :
    allocTry tag (k + 1) n fell d = (.grant h, granted n tag h t fell d) := by
  rw [allocTry, if_neg (by simp [hen]), if_pos (by simp [hc]), grantCell_cons hc]

theorem allocCell_cached (hen : poolEn n d = true) (hc : (pool n d).cache = h :: t) : allocCell n tag d = (some h, granted n tag h t false d) := by
  unfold allocCell
  rw [allocTry_cached hen hc]

theorem granted_inChuck (hc : (pool n d).cache = h :: t) : InChuck d (granted n tag h t fell d) := by
  have k := grantCell_inChuck n tag fell d
  rwa [grantCell_cons hc] at k

end

/-! One cycle of the allocator (R244 to R246). -/

theorem portOrder_nil (ptr : Nat) : portOrder ptr [] = [] := by simp [portOrder]

/-- The pointer passes every port once. -/
theorem portOrder_one (ptr : Nat) {x : Nat × Nat × Nat} (hx : x.1 < 32) : portOrder ptr [x] = [x] := by
  have hone : ∀ p < 32, ∀ q < 32, ((List.range 32).filter fun i => p == (q + i) % 32).length = 1 := by decide +kernel
  have hmap (l : List Nat) : (l.flatMap fun i => [x].filter fun y => y.1 == (ptr + i) % 32) = (l.filter fun i => x.1 == (ptr + i) % 32).map fun _ => x := by
    induction l with
    | nil => rfl
    | cons i l ih =>
      rw [List.flatMap_cons, ih, List.filter_cons, List.filter_cons, List.filter_nil]
      split <;> rfl
  have hmod : (fun i => x.1 == (ptr + i) % 32) = fun i => x.1 == (ptr % 32 + i) % 32 := by funext i; rw [Nat.mod_add_mod]
  rw [portOrder, hmap, hmod, List.map_const', hone _ hx _ (Nat.mod_lt _ (by decide))]
  rfl

theorem onChk_eq_self {f : Chk → Chk} {d : Dev} (h : f d.chk = d.chk) : onChk f d = d := by
  unfold onChk; rw [h]

/-- The allocator's pointer moves on (R244). -/
def nextPort (d : Dev) : Dev := onChk (fun c => { c with ptr := (c.ptr + 1) % 32 }) d

@[simp] theorem cell_nextPort (h : Nat) (d : Dev) : cell h (nextPort d) = cell h d := rfl
@[simp] theorem face_nextPort (p : Nat) (d : Dev) : face p (nextPort d) = face p d := rfl
@[simp] theorem pool_nextPort (n : Nat) (d : Dev) : pool n (nextPort d) = pool n d := rfl

section
variable {d : Dev}

theorem frees_nil (d : Dev) : (List.range 7).foldl (fun s k => (([] : List (FreeParty × Nat × Nat)).filter fun x => partyRank x.1 == k).foldl
    (fun s x => free x.1 x.2.1 x.2.2 s) s) d = d := rfl

/-- Without held requests a cycle makes its additions and serves its own requests. -/
theorem allocCycle_unheld (adds : List (Nat × Nat)) (reqs : List (Nat × Nat × Nat)) (hheld : (adds.foldl (fun s x => (addRef x.1 x.2 s).2) d).chk.held = []) :
    let e := adds.foldl (fun s x => (addRef x.1 x.2 s).2) d
    allocCycle adds [] reqs d = nextPort ((portOrder (if flag CHK_ALLOC_X.TIE 0 0 e then 0 else e.chk.ptr) (reqs.filter fun x => tagOk x.2.2)).foldl
      (fun s x => serveReq x s) e) := by
  have hpools (l : List Nat) (e : Dev) : (l.filter fun n => (pool n e).cache.isEmpty && !([] : List (Nat × Nat × Nat)).isEmpty) = [] := by simp
  intro e
  have hid : onChk (fun c => { c with held := [] }) e = e := onChk_eq_self (by rw [← hheld])
  unfold allocCycle
  dsimp only
  rw [frees_nil, hheld, hpools, portOrder_nil]
  simp only [List.foldl_nil]
  rw [show onChk (fun c => { c with held := [] }) (adds.foldl (fun s x => (addRef x.1 x.2 s).2) d) = e from hid]
  rfl

variable (hheld : d.chk.held = []) {x : Nat × Nat × Nat} (hport : x.1 < 32)
include hheld

theorem allocCycle_refusedTag (htag : tagOk x.2.2 = false) : allocCycle [] [] [x] d = nextPort d := by
  rw [allocCycle_unheld [] [x] hheld]
  simp [htag, portOrder_nil]

include hport

theorem allocCycle_request (htag : tagOk x.2.2 = true) : allocCycle [] [] [x] d = nextPort (serveReq x d) := by
  rw [allocCycle_unheld [] [x] hheld]
  simp only [List.filter_cons, List.filter_nil, htag, if_true, List.foldl_nil]
  rw [portOrder_one _ hport]
  rfl

end

/-! Additions (R251). -/

section
variable {h tag : Nat} {d : Dev} (hclean : metaSeen h d = .clean)
include hclean

theorem metaCheck_clean (p : FreeParty) : metaCheck p h tag d = (false, d) := by
  unfold metaCheck
  rw [hclean]

theorem addRef_adds (halloc : (cell h d).alloc = true) (howner : (cell h d).owner = tag) (hrefs : (cell h d).refs < 15) :
    addRef h tag d = (true, inc Pg.CHK 5 (setCell h { cell h d with refs := (cell h d).refs + 1 } d)) := by
  unfold addRef
  rw [metaCheck_clean hclean]
  simp [halloc, howner, Nat.not_le.2 hrefs]

theorem addRef_full (halloc : (cell h d).alloc = true) (howner : (cell h d).owner = tag) (hrefs : 15 ≤ (cell h d).refs) :
    addRef h tag d = (false, drop 0x65 d) := by
  unfold addRef
  rw [metaCheck_clean hclean]
  simp [halloc, howner, hrefs]

theorem addRef_refused (hbad : (cell h d).alloc = false ∨ (cell h d).owner ≠ tag) :
    ∃ kind, addRef h tag d = (false, badFree kind .verdictPath (cell h d).owner tag h (drop 0x65 d)) := by
  unfold addRef
  rw [metaCheck_clean hclean]
  by_cases halloc : (cell h d).alloc = false
  · exact ⟨0, by simp [halloc]⟩
  · exact ⟨1, by simp [halloc, hbad.resolve_left halloc]⟩

end

/-! The log of refused frees (R253). -/

section
variable (kind : Nat) (p : FreeParty) (owner tag h : Nat) {d : Dev}

theorem badFree_cells : (badFree kind p owner tag h d).chk.cells = d.chk.cells := by
  unfold badFree badLogPush
  dsimp only
  split <;> simp

theorem badFree_logs (hroom : d.chk.badLog.length < 16) : (badFree kind p owner tag h d).chk.badLog.length = d.chk.badLog.length + 1 := by
  unfold badFree badLogPush
  rw [if_neg (by simpa using hroom)]
  simp

theorem badFree_fires : bit (face Pg.CHK (badFree kind p owner tag h d)).pend 0 = true := by
  have hpend : bit (face Pg.CHK (inc Pg.CHK 6 (fire Pg.CHK 0 d))).pend 0 = true := by rw [face_inc]; exact bit_pend_fire_same ..
  exact (badLogPush_inChuck ..).pends _ _ hpend

end

/-! The refill of a cache (R246). -/

/-- Moving a handle to the cache keeps every cell allocated or free as it was. -/
theorem alloc_refillOne (n k : Nat) (d : Dev) : (cell k (refillOne n d)).alloc = (cell k d).alloc := by
  unfold refillOne
  split
  · rfl
  · dsimp only
    split
    · rfl
    · next h p _ _ =>
      by_cases hk : k = h
      · subst hk; simp
      · rw [cell_setCell_ne _ _ hk]; rfl

theorem refillOne_full {n : Nat} {d : Dev} (hfull : 64 ≤ (pool n d).cache.length) : refillOne n d = d := by
  have hcache : ∀ x ∈ listHead n d, x.2.cache = (pool n d).cache := by
    unfold listHead
    dsimp only
    split
    · simp
    · simp
  unfold refillOne
  cases hl : listHead n d with
  | none => rfl
  | some x => exact if_pos (by rw [hcache x hl]; exact hfull)

theorem refillOne_moves {n h : Nat} {p : Pool} {d : Dev} (hhead : listHead n d = some (h, p)) (hroom : p.cache.length < 64) :
    pool n (refillOne n d) = { p with cache := p.cache ++ [h] } := by
  unfold refillOne
  rw [hhead]
  dsimp only
  rw [if_neg (by omega)]
  exact pool_setPool_same ..

theorem repeat_succ {α : Type} (f : α → α) (k : Nat) (a : α) : Nat.repeat f (k + 1) a = f (Nat.repeat f k a) := rfl

/-- With handles on the list, k of them move to the cache in order. -/
theorem repeat_refill_list {n : Nat} {d : Dev} : ∀ k : Nat, (pool n d).cache.length + k ≤ 64 → k ≤ (pool n d).list.length →
    pool n (Nat.repeat (refillOne n) k d) = { pool n d with cache := (pool n d).cache ++ (pool n d).list.take k, list := (pool n d).list.drop k }
  | 0, _, _ => by simp [Nat.repeat]
  | k + 1, hroom, hlong => by
    have ih := repeat_refill_list (n := n) (d := d) k (by omega) (by omega)
    rw [repeat_succ]
    generalize Nat.repeat (refillOne n) k d = e at ih ⊢
    have hk : k < (pool n d).list.length := by omega
    have hhead : listHead n e = some ((pool n d).list[k], { pool n e with list := (pool n d).list.drop (k + 1) }) := by
      unfold listHead
      simp only [ih, List.drop_eq_getElem_cons hk]
    rw [refillOne_moves hhead (by rw [ih]; simp; omega), ih]
    rw [List.take_succ_eq_append_getElem hk, List.append_assoc]

/-- With an empty list the next k cells never taken move to the cache, where none of them is retired. -/
theorem repeat_refill_fresh {n : Nat} {d : Dev} (hlist : (pool n d).list = []) : ∀ k : Nat, (pool n d).cache.length + k ≤ 64 →
    (pool n d).fresh + k ≤ poolCount n d →
    (∀ i < k, (cell (poolBase n d + ((pool n d).fresh + i) * poolStep n d) d).alloc = false) →
    (∀ h, (cell h (Nat.repeat (refillOne n) k d)).alloc = (cell h d).alloc) ∧ InChuck d (Nat.repeat (refillOne n) k d) ∧
    pool n (Nat.repeat (refillOne n) k d) = { pool n d with
      cache := (pool n d).cache ++ (List.range k).map fun i => poolBase n d + ((pool n d).fresh + i) * poolStep n d, fresh := (pool n d).fresh + k }
  | 0, _, _, _ => ⟨fun _ => rfl, InChuck.refl d, by simp [Nat.repeat]⟩
  | k + 1, hroom, hcount, hfree => by
    obtain ⟨halloc, hin, ih⟩ := repeat_refill_fresh hlist k (by omega) (by omega) fun i hi => hfree i (by omega)
    rw [repeat_succ]
    generalize Nat.repeat (refillOne n) k d = e at halloc hin ih ⊢
    have hnext : freshNext n e ((pool n d).fresh + k) (poolCount n e - ((pool n d).fresh + k)) = some ((pool n d).fresh + k) := by
      obtain ⟨j, hj⟩ : ∃ j, poolCount n e - ((pool n d).fresh + k) = j + 1 := ⟨_, (Nat.succ_pred_eq_of_pos (by rw [hin.poolCount]; omega)).symm⟩
      rw [hj, freshNext, hin.poolBase, hin.poolStep, if_neg]
      rw [halloc, hfree k (by omega)]
      decide
    have hhead : listHead n e = some (poolBase n d + ((pool n d).fresh + k) * poolStep n d, { pool n e with fresh := (pool n d).fresh + k + 1 }) := by
      have hnone : (pool n e).list = [] := by rw [ih]; exact hlist
      have hfresh : (pool n e).fresh = (pool n d).fresh + k := by rw [ih]
      unfold listHead
      simp only [hnone, hfresh, hnext, hin.poolBase, hin.poolStep, Option.map_some]
    refine ⟨fun h => (alloc_refillOne n h e).trans (halloc h), hin.trans (refillOne_inChuck n e), ?_⟩
    rw [refillOne_moves hhead (by rw [ih]; simp; omega), ih]
    simp [List.range_succ, Nat.add_assoc]

theorem repeat_refill_full {n : Nat} {d : Dev} (hfull : 64 ≤ (pool n d).cache.length) : ∀ k : Nat, Nat.repeat (refillOne n) k d = d
  | 0 => rfl
  | k + 1 => by rw [repeat_succ, repeat_refill_full hfull k, refillOne_full hfull]

/-! The release of a cell and of a chain (R252). -/

section
variable {h : Nat} {d : Dev}

/-- Cell h of d is free in e, and every other cell is as it was. -/
structure Freed (h : Nat) (d e : Dev) : Prop where
  alloc : (cell h e).alloc = false
  owner : (cell h e).owner = 0
  others : ∀ k, k ≠ h → cell k e = cell k d
  seen : ∀ k, metaSeen k e = metaSeen k d
  cached : (pool (cell h d).pool d).cache.length < 64 → (pool (cell h d).pool e).cache = (pool (cell h d).pool d).cache ++ [h]

/-- An allocated cell is free once it is released, where no granule has failed. -/
theorem putCell_frees (halloc : (cell h d).alloc = true) (howner : (cell h d).owner ≠ 0) (hgran : d.chk.badGran = []) : Freed h d (putCell h d) := by
  have hnone (n : Nat) (m : CellMeta) : ((inc Pg.CHK 1 (setCell h m d)).chk.badGran.any fun g => decide (h ≤ g ∧ g < h + poolStep n (inc Pg.CHK 1 (setCell h m d)))) = false := by
    rw [inc_chk]
    show d.chk.badGran.any _ = false
    rw [hgran, List.any_nil]
  unfold putCell
  dsimp only
  rw [if_neg (by simp [halloc, howner]), hnone, if_neg (by decide)]
  split
  next hroom =>
    refine ⟨by simp, by simp, fun k hk => ?_, fun k => by simp, fun _ => by simp⟩
    simp only [cell_poolUpdate, cell_setPool, cell_inc]
    exact cell_setCell_ne _ _ hk
  next hfull =>
    refine ⟨by simp, by simp, fun k hk => ?_, fun k => by simp, fun hroom => absurd hroom (by simpa using hfull)⟩
    simp only [cell_poolUpdate, cell_setPool]
    rw [cell_setCell_ne _ _ hk, cell_inc, cell_setCell_ne _ _ hk]

end

/-! The release of a chain (R252). -/

section
variable {p : FreeParty} {h tag : Nat} {d : Dev} (hclean : metaSeen h d = .clean)
include hclean

theorem freeChain_unowned (kind code : Nat) (hbad : kind = 0 ∧ code = Err.DOUBLE_FREE ∧ (cell h d).alloc = false ∨
    kind = 1 ∧ code = Err.NOT_OWNER ∧ (cell h d).alloc = true ∧ (cell h d).owner ≠ tag) :
    freeChain p h tag d = (code, badFree kind p (cell h d).owner tag h d) := by
  unfold freeChain
  rw [metaCheck_clean hclean]
  obtain ⟨rfl, rfl, halloc⟩ | ⟨rfl, rfl, halloc, howner⟩ := hbad
  · simp [halloc]
  · simp [halloc, howner]

variable (halloc : (cell h d).alloc = true) (howner : (cell h d).owner = tag)
include halloc howner

theorem free_counted (hrefs : 1 < (cell h d).refs) : free p h tag d = setCell h { cell h d with refs := (cell h d).refs - 1 } d := by
  unfold free freeChain
  rw [metaCheck_clean hclean]
  simp [halloc, howner, hrefs]

/-- The device once the last reference to a first cell has fallen. -/
def unrefd (h : Nat) (d : Dev) : Dev := setCell h { cell h d with refs := (cell h d).refs - 1 } d

omit hclean halloc howner in
theorem unrefd_cell : cell h (unrefd h d) = { cell h d with refs := (cell h d).refs - 1 } := cell_setCell_same ..
omit hclean halloc howner in
theorem unrefd_ne {k : Nat} (hk : k ≠ h) : cell k (unrefd h d) = cell k d := cell_setCell_ne _ _ hk

omit halloc in
/-- One step of the walk over a chain. -/
theorem freeWalk_step (k : Nat) : freeWalk p tag (k + 1) h d = if (cell h d).last then (0, putCell h d) else freeWalk p tag k (cell h d).next (putCell h d) := by
  rw [freeWalk, metaCheck_clean hclean]
  simp [howner]

/-- The last reference of a chain walks it. -/
theorem free_walks (hrefs : (cell h d).refs ≤ 1) : free p h tag d = (freeWalk p tag ((unrefd h d).chk.cells.length + 1) h (unrefd h d)).2 := by
  unfold unrefd free freeChain
  rw [metaCheck_clean hclean]
  simp [halloc, howner, Nat.not_lt.2 hrefs]

variable (htag : tag ≠ 0) (hrefs : (cell h d).refs ≤ 1) (hgran : d.chk.badGran = [])
include htag hrefs hgran

omit hclean hrefs in
/-- The first cell is freed. -/
theorem putCell_unrefd : Freed h d (putCell h (unrefd h d)) := by
  have hf : Freed h (unrefd h d) (putCell h (unrefd h d)) := putCell_frees (by rw [unrefd_cell]; exact halloc) (by rw [unrefd_cell]; exact howner ▸ htag) hgran
  refine ⟨hf.alloc, hf.owner, fun k hk => (hf.others k hk).trans (unrefd_ne hk), hf.seen, fun hroom => ?_⟩
  have hcached := hf.cached
  rw [unrefd_cell] at hcached
  exact hcached hroom

/-- The last reference to a chain of one cell frees it. -/
theorem free_last (hlast : (cell h d).last = true) : Freed h d (free p h tag d) := by
  have hstep := freeWalk_step (p := p) (h := h) (d := unrefd h d) (tag := tag) hclean (by rw [unrefd_cell]; exact howner)
    (unrefd h d).chk.cells.length
  rw [free_walks hclean halloc howner hrefs, hstep, unrefd_cell, if_pos hlast]
  exact putCell_unrefd halloc howner htag hgran

/-- The last reference to a chain of two cells frees both. -/
theorem free_two {nxt : Nat} (hlast : (cell h d).last = false) (hnext : (cell h d).next = nxt) (hne : nxt ≠ h) (hclean' : metaSeen nxt d = .clean)
    (halloc' : (cell nxt d).alloc = true) (howner' : (cell nxt d).owner = tag) (hlast' : (cell nxt d).last = true) :
    (cell h (free p h tag d)).alloc = false ∧ (cell nxt (free p h tag d)).alloc = false := by
  have hf := putCell_unrefd halloc howner htag hgran
  have hin : InChuck d (putCell h (unrefd h d)) := (InChuck.of_setCell ..).trans (putCell_inChuck ..)
  obtain ⟨j, hj⟩ : ∃ j, (unrefd h d).chk.cells.length = j + 1 := by
    refine ⟨_, (Nat.succ_pred_eq_of_pos (List.length_pos_iff.2 fun hnil => ?_)).symm⟩
    have hcell : (cell h (unrefd h d)).alloc = true := by rw [unrefd_cell]; exact halloc
    rw [cell, hnil] at hcell
    exact Bool.noConfusion hcell
  have hstep := freeWalk_step (p := p) (h := h) (d := unrefd h d) (tag := tag) hclean (by rw [unrefd_cell]; exact howner)
    (unrefd h d).chk.cells.length
  have hsame : cell nxt (putCell h (unrefd h d)) = cell nxt d := hf.others nxt hne
  have hstep' := freeWalk_step (p := p) (h := nxt) (d := putCell h (unrefd h d)) (tag := tag) ((hf.seen nxt).trans hclean') (by rw [hsame]; exact howner') j
  have hf' : Freed nxt (putCell h (unrefd h d)) (putCell nxt (putCell h (unrefd h d))) :=
    putCell_frees (by rw [hsame]; exact halloc') (by rw [hsame]; exact howner' ▸ htag) (hin.badGran.trans hgran)
  rw [free_walks hclean halloc howner hrefs, hstep, unrefd_cell, if_neg (by simp [hlast]), hnext, hj, hstep', hsame, if_pos hlast']
  exact ⟨by rw [hf'.others h hne.symm]; exact hf.alloc, hf'.alloc⟩

end

end Sys2Proof.Machine

/-! The rows of the allocator and of the caches (R244 to R248, R251). -/

namespace Sys2Proof.Machine

open Safety

section
variable {s : State} {d : Dev} (hruns : Runs 101 s d)
include hruns

/-! ALLOC_CYCLE. -/

section
variable {r : CellReq} (hheld : d.chk.held = [])
include hheld

/-- A request under a tag that no source takes is none (R243). -/
theorem allocCycle_noTag (htag : tagOk r.tag.toNat = false) : Does (.allocCycle [] [] [r]) s fun e => e.chk = { d.chk with ptr := (d.chk.ptr + 1) % 32 } := by
  refine act_does (f := allocCycle [] [] [(r.port.val, r.pool.val, r.tag.toNat)]) rfl hruns fun e he => ?_
  rw [allocCycle_refusedTag hheld htag] at he
  exact he.chk

variable (htag : tagOk r.tag.toNat = true)
include htag

theorem allocCycle_serves {P : Dev → Prop} (h : ∀ e, Beside (nextPort (serveReq (r.port.val, r.pool.val, r.tag.toNat) d)) e → P e) :
    Does (.allocCycle [] [] [r]) s P :=
  act_does (f := allocCycle [] [] [(r.port.val, r.pool.val, r.tag.toNat)]) rfl hruns fun e he =>
    h e (allocCycle_request hheld (x := (r.port.val, r.pool.val, r.tag.toNat)) r.port.isLt htag ▸ he)

variable (hen : poolEn r.pool.val d = true)
include hen

/-- The oldest cell of the pool's cache is granted (R244). -/
theorem allocCycle_grants {h : Nat} {t : List Nat} (hc : (pool r.pool.val d).cache = h :: t) : Does (.allocCycle [] [] [r]) s fun e =>
    e.chk.held = [] ∧ e.chk.ptr = (d.chk.ptr + 1) % 32 ∧ Out.cellGrant r.port.val (some h) ∈ e.out ∧ pool r.pool.val e = { pool r.pool.val d with cache := t } ∧
    cell h e = { alloc := true, owner := r.tag.toNat, pool := r.pool.val, last := true } ∧ ∀ k, k ≠ h → cell k e = cell k d := by
  have hin := granted_inChuck (tag := r.tag.toNat) (fell := false) hc
  have hserve : serveReq (r.port.val, r.pool.val, r.tag.toNat) d = emit (.cellGrant r.port.val (some h)) (granted r.pool.val r.tag.toNat h t false d) := by
    unfold serveReq
    rw [allocTry_cached hen hc]
    rfl
  refine allocCycle_serves hruns hheld htag fun e he => ?_
  rw [hserve] at he
  have hcells : e.chk.cells = (granted r.pool.val r.tag.toNat h t false d).chk.cells := by rw [he.chk]; rfl
  have hpools : e.chk.pools = (granted r.pool.val r.tag.toNat h t false d).chk.pools := by rw [he.chk]; rfl
  refine ⟨?_, ?_, he.mem_out (List.mem_cons_self ..), ?_, ?_, fun k hk => ?_⟩
  · rw [he.chk]; exact hin.held.trans hheld
  · rw [he.chk]; exact congrArg (fun n => (n + 1) % 32) hin.ptr
  · rw [pool_congr _ hpools, pool_granted_same]
  · rw [cell_congr _ hcells, cell_granted_same]
  · rw [cell_congr _ hcells, cell_granted_ne hk]

section
variable (hc : (pool r.pool.val d).cache = [])
include hc

omit hruns hheld htag in
theorem allocTry_uncached : allocTry r.tag.toNat 5 r.pool.val false d = if poolFree r.pool.val d ≠ 0 then (.hold r.pool.val, overrun Pg.CHK d)
    else if flag CHK_POOLn_CFG.FB_EN 0 r.pool.val d then allocTry r.tag.toNat 4 (rget CHK_POOLn_CFG.FALLBACK 0 r.pool.val d) true d
    else (.refuse, inc Pg.CHK 3 d) := by
  rw [allocTry, if_neg (by simp [hen]), if_neg (by simp [hc])]

/-- A request waits for the refill while its pool has free cells (R246). -/
theorem allocCycle_holds (hfree : poolFree r.pool.val d ≠ 0) : Does (.allocCycle [] [] [r]) s fun e =>
    e.chk.cells = d.chk.cells ∧ e.chk.held = [(r.port.val, r.pool.val, r.tag.toNat)] := by
  have hserve : serveReq (r.port.val, r.pool.val, r.tag.toNat) d =
      onChk (fun c => { c with held := c.held ++ [(r.port.val, r.pool.val, r.tag.toNat)] }) (overrun Pg.CHK d) := by
    unfold serveReq
    rw [allocTry_uncached hen hc, if_pos hfree]
  refine allocCycle_serves hruns hheld htag fun e he => ?_
  rw [hserve] at he
  refine ⟨?_, ?_⟩
  · rw [he.chk]
    show (overrun Pg.CHK d).chk.cells = _
    rw [overrun_chk]
  · rw [he.chk]
    show (overrun Pg.CHK d).chk.held ++ _ = _
    rw [overrun_chk, hheld, List.nil_append]

/-- Without a free cell and without a fallback the request is refused (R244). -/
theorem allocCycle_refuses (hfree : poolFree r.pool.val d = 0) (hfb : flag CHK_POOLn_CFG.FB_EN 0 r.pool.val d = false) :
    Does (.allocCycle [] [] [r]) s fun e => e.chk.cells = d.chk.cells ∧ e.chk.held = [] ∧ Out.cellGrant r.port.val none ∈ e.out := by
  have hserve : serveReq (r.port.val, r.pool.val, r.tag.toNat) d = emit (.cellGrant r.port.val none) (inc Pg.CHK 3 d) := by
    unfold serveReq
    rw [allocTry_uncached hen hc, if_neg (by simp [hfree]), if_neg (by simp [hfb])]
    rfl
  refine allocCycle_serves hruns hheld htag fun e he => ?_
  rw [hserve] at he
  refine ⟨?_, ?_, he.mem_out (List.mem_cons_self ..)⟩
  · rw [he.chk]
    show (inc Pg.CHK 3 d).chk.cells = _
    rw [inc_chk]
  · rw [he.chk]
    show (inc Pg.CHK 3 d).chk.held = _
    rw [inc_chk, hheld]

/-- Without a free cell the request falls back to the next pool of its chain (R244). -/
theorem allocCycle_fallsBack (hfree : poolFree r.pool.val d = 0) (hfb : flag CHK_POOLn_CFG.FB_EN 0 r.pool.val d = true) {h : Nat} {t : List Nat}
    (hfen : poolEn (rget CHK_POOLn_CFG.FALLBACK 0 r.pool.val d) d = true) (hfc : (pool (rget CHK_POOLn_CFG.FALLBACK 0 r.pool.val d) d).cache = h :: t) :
    let f := rget CHK_POOLn_CFG.FALLBACK 0 r.pool.val d
    Does (.allocCycle [] [] [r]) s fun e => Out.cellGrant r.port.val (some h) ∈ e.out ∧ (pool f e).cache = t ∧ (cell h e).owner = r.tag.toNat ∧ (cell h e).pool = f := by
  intro f
  have hserve : serveReq (r.port.val, r.pool.val, r.tag.toNat) d = emit (.cellGrant r.port.val (some h)) (granted f r.tag.toNat h t true d) := by
    unfold serveReq
    rw [allocTry_uncached hen hc, if_neg (by simp [hfree]), if_pos hfb, allocTry_cached hfen hfc]
    rfl
  refine allocCycle_serves hruns hheld htag fun e he => ?_
  rw [hserve] at he
  have hcell : cell h e = cell h (granted f r.tag.toNat h t true d) := cell_congr _ (by rw [he.chk]; rfl)
  have hpool : pool f e = pool f (granted f r.tag.toNat h t true d) := pool_congr _ (by rw [he.chk]; rfl)
  rw [hcell, hpool, cell_granted_same, pool_granted_same]
  exact ⟨he.mem_out (List.mem_cons_self ..), rfl, rfl, rfl⟩

end
end

section
variable {h : BitVec 22} {tag : BitVec 12}

theorem allocCycle_adds {P : Dev → Prop} (hk : (addRef h.toNat tag.toNat d).2.chk.held = []) (hp : ∀ e, Beside (nextPort (addRef h.toNat tag.toNat d).2) e → P e) :
    Does (.allocCycle [(h, tag)] [] []) s P := by
  refine act_does (f := allocCycle [(h.toNat, tag.toNat)] [] []) rfl hruns fun e he => hp e ?_
  rw [allocCycle_unheld [(h.toNat, tag.toNat)] [] hk] at he
  simpa [portOrder_nil] using he

variable (hheld : d.chk.held = []) (hclean : metaSeen h.toNat d = .clean)
include hheld hclean

/-- An addition counts one reference more (R251). -/
theorem allocCycle_addsRef (halloc : (cell h.toNat d).alloc = true) (howner : (cell h.toNat d).owner = tag.toNat) (hrefs : (cell h.toNat d).refs < 15) :
    Does (.allocCycle [(h, tag)] [] []) s fun e => cell h.toNat e = { cell h.toNat d with refs := (cell h.toNat d).refs + 1 } ∧
      ∀ k, k ≠ h.toNat → cell k e = cell k d := by
  have hadd := addRef_adds hclean halloc howner hrefs
  refine allocCycle_adds hruns (by rw [hadd, inc_chk]; exact hheld) fun e he => ?_
  rw [hadd] at he
  have hcells : e.chk.cells = (setCell h.toNat { cell h.toNat d with refs := (cell h.toNat d).refs + 1 } d).chk.cells := by
    rw [he.chk]
    show (inc Pg.CHK 5 (setCell h.toNat _ d)).chk.cells = _
    rw [inc_chk]
  refine ⟨?_, fun k hk => ?_⟩
  · rw [cell_congr _ hcells, cell_setCell_same]
  · rw [cell_congr _ hcells, cell_setCell_ne _ _ hk]

/-- A copy beyond 15 references is dropped (R251). -/
theorem allocCycle_dropsCopy (halloc : (cell h.toNat d).alloc = true) (howner : (cell h.toNat d).owner = tag.toNat) (hrefs : 15 ≤ (cell h.toNat d).refs) :
    Does (.allocCycle [(h, tag)] [] []) s fun e => e.chk.cells = d.chk.cells ∧ look e.drops 0x65 0 = look d.drops 0x65 0 + 1 := by
  have hadd := addRef_full hclean halloc howner hrefs
  refine allocCycle_adds hruns (by rw [hadd, drop_chk]; exact hheld) fun e he => ?_
  rw [hadd] at he
  refine ⟨?_, ?_⟩
  · rw [he.chk]
    show (drop 0x65 d).chk.cells = _
    rw [drop_chk]
  · rw [he.drops]; exact look_drop_same (by decide) d

/-- An addition to a cell that is free, or of another owner, is refused and logged (R251, R253). -/
theorem allocCycle_refusesRef (hbad : (cell h.toNat d).alloc = false ∨ (cell h.toNat d).owner ≠ tag.toNat) (hroom : d.chk.badLog.length < 16) :
    Does (.allocCycle [(h, tag)] [] []) s fun e => e.chk.cells = d.chk.cells ∧ e.chk.badLog.length = d.chk.badLog.length + 1 ∧
      bit (face Pg.CHK e).pend 0 = true := by
  obtain ⟨kind, hadd⟩ := addRef_refused hclean hbad
  have hdrop := drop_chk d 0x65
  refine allocCycle_adds hruns (by rw [hadd, (badFree_inChuck ..).held, hdrop]; exact hheld) fun e he => ?_
  rw [hadd] at he
  refine ⟨?_, ?_, ?_⟩
  · rw [he.chk]
    show (badFree kind .verdictPath _ _ _ (drop 0x65 d)).chk.cells = _
    rw [badFree_cells, hdrop]
  · rw [he.chk]
    show (badFree kind .verdictPath _ _ _ (drop 0x65 d)).chk.badLog.length = _
    rw [badFree_logs _ _ _ _ _ (by rwa [hdrop]), hdrop]
  · rw [he.face, face_nextPort]
    exact badFree_fires ..

end

/-! CACHE_REFILL. -/

section
variable {n : Fin 16}

theorem cacheRefill_leaves (h : 64 ≤ (pool n.val d).cache.length ∨ poolEn n.val d = false) : Leaves (.cacheRefill n) s d := by
  refine act_leaves (f := cacheRefill n.val) rfl hruns ?_
  unfold cacheRefill
  split
  next hen => exact repeat_refill_full (h.resolve_right (by simp [hen])) 16
  next => rfl

variable (hen : poolEn n.val d = true) (hroom : (pool n.val d).cache.length ≤ 48)
include hen hroom

theorem cacheRefill_list (hlong : 16 ≤ (pool n.val d).list.length) : Does (.cacheRefill n) s fun e =>
    (pool n.val e).cache = (pool n.val d).cache ++ (pool n.val d).list.take 16 ∧ (pool n.val e).list = (pool n.val d).list.drop 16 := by
  refine act_does (f := cacheRefill n.val) rfl hruns fun e he => ?_
  rw [cacheRefill, if_pos hen] at he
  have hpool := repeat_refill_list (n := n.val) (d := d) 16 (by omega) hlong
  rw [pool_congr n.val (congrArg Chk.pools he.chk), hpool]
  exact ⟨rfl, rfl⟩

theorem cacheRefill_fresh (hlist : (pool n.val d).list = []) (hcount : (pool n.val d).fresh + 16 ≤ poolCount n.val d)
    (hfree : ∀ i < 16, (cell (poolBase n.val d + ((pool n.val d).fresh + i) * poolStep n.val d) d).alloc = false) : Does (.cacheRefill n) s fun e =>
      (pool n.val e).cache = (pool n.val d).cache ++ (List.range 16).map (fun i => poolBase n.val d + ((pool n.val d).fresh + i) * poolStep n.val d) ∧
      (pool n.val e).fresh = (pool n.val d).fresh + 16 := by
  refine act_does (f := cacheRefill n.val) rfl hruns fun e he => ?_
  rw [cacheRefill, if_pos hen] at he
  obtain ⟨-, -, hpool⟩ := repeat_refill_fresh hlist 16 (by omega) hcount hfree
  rw [pool_congr n.val (congrArg Chk.pools he.chk), hpool]
  exact ⟨rfl, rfl⟩

end

/-! HEAD_CACHE_REQUEST and HANDLES_RECORD (R248). -/

omit hruns in
/-- Asked for k first cells, a pool with so many cached ones grants them in order. -/
theorem headCells_cached {src n : Nat} : ∀ (k : Nat) (d : Dev), rget CHK_SRCs_CFG.HEAD_POOL 0 src d = n → poolEn n d = true → k ≤ (pool n d).cache.length →
    (headCells src k d).1 = (pool n d).cache.take k ∧ (pool n (headCells src k d).2).cache = (pool n d).cache.drop k ∧ (headCells src k d).2.cross = d.cross
  | 0, d, _, _, _ => ⟨rfl, rfl, rfl⟩
  | k + 1, d, hpool, hen, hlong => by
    obtain ⟨h, t, hc⟩ : ∃ h t, (pool n d).cache = h :: t := List.exists_cons_of_length_pos (by omega)
    have halloc := allocCell_cached (n := n) (tag := (nextTag src d).1) (d := (nextTag src d).2) hen hc
    have hin : InChuck (nextTag src d).2 (granted n (nextTag src d).1 h t false (nextTag src d).2) := granted_inChuck hc
    generalize hg : granted n (nextTag src d).1 h t false (nextTag src d).2 = g at halloc hin
    have hcache : (pool n g).cache = t := by rw [← hg, pool_granted_same]
    have hstep : headCells src (k + 1) d =
        let e := onChk (fun c => { c with builds := ins c.builds h { tag := (nextTag src d).1, last := h } }) g
        (h :: (headCells src k e).1, (headCells src k e).2) := by
      rw [headCells, hpool]
      simp only [halloc]
    have hlen : k + 1 ≤ t.length + 1 := by rwa [hc, List.length_cons] at hlong
    have hpool' : rget CHK_SRCs_CFG.HEAD_POOL 0 src g = n := (hin.rgetOff (f := CHK_SRCs_CFG.HEAD_POOL) (by decide) 0 src).trans hpool
    have hen' : poolEn n g = true := (hin.poolEn n).trans hen
    obtain ⟨hgiven, hleft, hcross⟩ := headCells_cached k
      (onChk (fun c => { c with builds := ins c.builds h { tag := (nextTag src d).1, last := h } }) g) hpool' hen' (show k ≤ (pool n g).cache.length by rw [hcache]; omega)
    have hpools : (pool n (onChk (fun c => { c with builds := ins c.builds h { tag := (nextTag src d).1, last := h } }) g)).cache = t := hcache
    rw [hstep]
    dsimp only
    rw [hgiven, hleft, hcross, hpools, hc]
    exact ⟨rfl, rfl, hin.cross⟩

omit hruns in
/-- The records of a refill hold its handles in order, at most six in each (R263). -/
theorem bySix_parts : ∀ (k : Nat) (l : List Nat), l.length ≤ 6 * k → (bySix k l).flatten = l ∧ ∀ x ∈ bySix k l, x ≠ [] ∧ x.length ≤ 6
  | 0, l, h => by
    have hnil : l = [] := List.eq_nil_of_length_eq_zero (by omega)
    subst hnil
    exact ⟨rfl, fun _ hx => absurd hx (List.not_mem_nil)⟩
  | k + 1, l, h => by
    unfold bySix
    split
    next hnil =>
      rw [List.isEmpty_iff.1 hnil]
      exact ⟨rfl, fun _ hx => absurd hx (List.not_mem_nil)⟩
    next hsome =>
      obtain ⟨hflat, hparts⟩ := bySix_parts k (l.drop 6) (by rw [List.length_drop]; omega)
      refine ⟨by rw [List.flatten_cons, hflat, List.take_append_drop], List.forall_mem_cons.2 ⟨⟨?_, ?_⟩, hparts⟩⟩
      · simpa using hsome
      · rw [List.length_take]; omega

section
variable {src : Fin 130}

theorem headCacheRequest_leaves (hstarved : src.val ∈ d.chk.starved) (hnone : poolAvail d 5 (rget CHK_SRCs_CFG.HEAD_POOL 0 src.val d) = false) :
    Leaves (.headCacheRequest src) s d := by
  refine act_leaves (f := headCacheRequest src.val) rfl hruns ?_
  unfold headCacheRequest
  exact if_pos (.inr (.inr ⟨hstarved, by simp [hnone]⟩))

omit hruns in
theorem sum_lengths (l : List (Nat × List Nat)) (a : Nat) : l.foldl (fun a x => a + x.2.length) a = a + (l.map (·.2.length)).sum := by
  induction l generalizing a with
  | nil => simp
  | cons x l ih => rw [List.foldl_cons, ih, List.map_cons, List.sum_cons, Nat.add_assoc]

/-- The Chuck sends a source the first cells that it is short of (R248). -/
theorem headCacheRequest_sends (hblk : blkEn Pg.CHK d = true) : let n := rget CHK_SRCs_CFG.HEAD_POOL 0 src.val d
    let want := rget CHK_SRCs_CFG.CACHE 0 src.val d - ((look d.srcCache src.val []).length + ((d.cross.handles.filter fun x => x.1 == src.val).map (·.2.length)).sum)
    want ≤ 16 → poolEn n d = true → want ≤ (pool n d).cache.length → (src.val ∈ d.chk.starved → poolAvail d 5 n = true) → Does (.headCacheRequest src) s fun e =>
      ∃ l, e.cross.handles = d.cross.handles ++ l ∧ l.flatMap (·.2) = (pool n d).cache.take want ∧
        (∀ x ∈ l, x.1 = src.val ∧ x.2 ≠ [] ∧ x.2.length ≤ 6) ∧ (pool n e).cache = (pool n d).cache.drop want := by
  intro n want hwant hen hlong havail
  let d0 := onChk (fun c => { c with starved := c.starved.filter (· != src.val) }) d
  obtain ⟨hgiven, hleft, hcross⟩ := headCells_cached (src := src.val) (n := n) want d0 rfl hen hlong
  have hrow : headCacheRequest src.val d = { (headCells src.val want d0).2 with cross := { (headCells src.val want d0).2.cross with
      handles := (headCells src.val want d0).2.cross.handles ++ (bySix 3 (headCells src.val want d0).1).map fun x => (src.val, x) } } := by
    unfold headCacheRequest
    dsimp only
    rw [sum_lengths, Nat.zero_add, if_neg]
    have hlt : src.val < 130 := src.isLt
    rintro (h | h | ⟨h, hnone⟩)
    · omega
    · simp [hblk] at h
    · simp [n, havail h] at hnone
  obtain ⟨hflat, hparts⟩ := bySix_parts 3 (headCells src.val want d0).1 (by rw [hgiven, List.length_take]; omega)
  refine act_does (f := headCacheRequest src.val) rfl hruns fun e he => ⟨(bySix 3 (headCells src.val want d0).1).map fun x => (src.val, x), ?_, ?_, ?_, ?_⟩
  · rw [he.cross, hrow, hcross]
    rfl
  · rw [List.flatMap_map]
    exact (List.flatMap_id' ..).trans (hflat.trans hgiven)
  · intro x hx
    obtain ⟨y, hy, rfl⟩ := List.mem_map.1 hx
    exact ⟨rfl, hparts y hy⟩
  · rw [pool_congr n (congrArg Chk.pools he.chk), hrow]
    exact hleft

end

theorem handlesRecord_arrives {k : Nat} {l : List Nat} {t : List (Nat × List Nat)} (h : d.cross.handles = (k, l) :: t) : Leaves .handlesRecord s
    { d with cross := { d.cross with handles := t }, srcCache := put d.srcCache k [] (look d.srcCache k [] ++ l) } := by
  refine act_leaves (f := handlesRecord) rfl hruns ?_
  unfold handlesRecord
  rw [h]

end

end Sys2Proof.Machine

/-! Bodies, verdicts and checked frees (R247 to R253). -/

namespace Sys2Proof.Machine

open Safety

/-! A body's bytes in a further cell (R250). -/

section
variable {n tag prev h k : Nat} {t : List Nat} {bs : Bytes} {d : Dev}

/-- The device once cell h of pool n, granted under a tag, is linked behind prev and holds bs. -/
def linkedCell (n tag prev h : Nat) (t : List Nat) (bs : Bytes) (d : Dev) : Dev := storeCell h bs (linkCell prev h (granted n tag h t false d))

theorem linkedCell_inChuck (hc : (pool n d).cache = h :: t) : InChuck d (linkedCell n tag prev h t bs d) :=
  ((granted_inChuck hc).trans (linkCell_inChuck ..)).trans (storeCell_inChuck ..)

variable (hne : h ≠ prev)
include hne

theorem cell_linkedCell_prev : cell prev (linkedCell n tag prev h t bs d) = { cell prev d with next := h, last := false } := by
  unfold linkedCell storeCell linkCell
  rw [cell_dataFresh, cell_setCell_ne _ _ hne.symm, cell_setCell_same, cell_granted_ne hne.symm]

theorem cell_linkedCell_new : cell h (linkedCell n tag prev h t bs d) =
    { alloc := true, owner := tag, pool := n, last := (cell prev d).last, next := (cell prev d).next, data := bs } := by
  unfold linkedCell storeCell linkCell
  rw [cell_dataFresh, cell_setCell_same, cell_setCell_ne _ _ hne, cell_setCell_same, cell_granted_same, cell_granted_ne hne.symm]

omit hne in
/-- Bytes that one cell holds take one cell. -/
theorem storeCells_one (hclean : metaSeen prev d = .clean) (hen : poolEn n d = true) (hc : (pool n d).cache = h :: t) (hbs : bs ≠ [])
    (hfit : bs.length ≤ 64 * poolStep n d) : storeCells n tag bs.length prev bs d = (h, bs.length, 0, linkedCell n tag prev h t bs d) := by
  have hstep : poolStep n (granted n tag h t false d) = poolStep n d := (granted_inChuck hc).poolStep n
  have hsize : cellSize h (granted n tag h t false d) = 64 * poolStep n d := by rw [cellSize, cell_granted_same, hstep]
  have hdone (k : Nat) (e : Dev) : storeCells n tag k h [] e = (h, 0, 0, e) := by cases k <;> rfl
  obtain ⟨k, hk⟩ := Nat.exists_eq_succ_of_ne_zero (mt List.length_eq_zero_iff.1 hbs)
  rw [hk, storeCells, if_neg (by simpa using hbs), metaCheck_clean hclean]
  simp only [allocCell_cached hen hc, hsize, Nat.min_eq_left hfit, List.take_length, List.drop_length, hdone, ← hk, Bool.false_eq_true, if_false]
  rfl

end

/-! The rows of the records. -/

section
variable {s : State} {d : Dev} (hruns : Runs 101 s d)
include hruns

section
variable {r : BodyRec} {t : List BodyRec} {b : Build} (hbodies : d.cross.bodies = r :: t) (hbuild : find? d.chk.builds r.cell = some b)
include hbodies hbuild

/-- The rest of a body whose chain was cut short is passed over (R250). -/
theorem bodyRecord_aborted (habort : b.abort = true) : Does .bodyRecord s fun e => e.chk.cells = d.chk.cells ∧ e.cross = { d.cross with bodies := t } ∧
    find? e.chk.builds r.cell = some { b with open_ := !r.last } := by
  have hrow : bodyRecord d = onChk (fun c => { c with builds := ins c.builds r.cell { b with open_ := !r.last } }) { d with cross := { d.cross with bodies := t } } := by
    unfold bodyRecord bodyStore
    simp only [hbodies, hbuild, habort, if_true]
  refine act_does (f := bodyRecord) rfl hruns fun e he => ?_
  rw [hrow] at he
  refine ⟨?_, ?_, ?_⟩
  · rw [he.chk]; rfl
  · rw [he.cross]; rfl
  · rw [he.chk]; exact find?_ins_same ..

/-- The first bytes of a body fill a cell linked behind the first one (R247, R250). -/
theorem bodyRecord_fills (hopen : b.abort = false) (hlast : b.last = r.cell) (hclean : metaSeen r.cell d = .clean) (hbytes : r.bytes ≠ [])
    (hen : poolEn (bits r.src 27 24) d = true) (hfit : r.bytes.length ≤ 64 * poolStep (bits r.src 27 24) d) {h : Nat} {c : List Nat}
    (hc : (pool (bits r.src 27 24) d).cache = h :: c) (hne : h ≠ r.cell) : Does .bodyRecord s fun e => e.cross = { d.cross with bodies := t } ∧
      find? e.chk.builds r.cell = some { b with open_ := !r.last, last := h, stored := b.stored + r.bytes.length } ∧
      cell r.cell e = { cell r.cell d with next := h, last := false } ∧
      cell h e = { alloc := true, owner := b.tag, pool := bits r.src 27 24, last := (cell r.cell d).last, next := (cell r.cell d).next, data := r.bytes } := by
  let d' : Dev := { d with cross := { d.cross with bodies := t } }
  have hin : InChuck d' (linkedCell (bits r.src 27 24) b.tag r.cell h c r.bytes d') := linkedCell_inChuck hc
  have hstored := storeCells_one (tag := b.tag) (d := d') (prev := r.cell) hclean hen hc hbytes hfit
  have hprev := cell_linkedCell_prev (n := bits r.src 27 24) (tag := b.tag) (t := c) (bs := r.bytes) (d := d') hne
  have hnew := cell_linkedCell_new (n := bits r.src 27 24) (tag := b.tag) (t := c) (bs := r.bytes) (d := d') hne
  generalize linkedCell (bits r.src 27 24) b.tag r.cell h c r.bytes d' = x at hin hstored hprev hnew
  have hrow : bodyRecord d = onChk (fun c => { c with builds := ins c.builds r.cell { b with open_ := !r.last, last := h, stored := b.stored + r.bytes.length } }) x := by
    unfold bodyRecord bodyStore
    simp only [hbodies, hbuild, hopen, hlast, if_true, List.drop_zero, Bool.false_eq_true, if_false]
    rw [hstored]
    simp only [if_true, Nat.add_zero]
  refine act_does (f := bodyRecord) rfl hruns fun e he => ?_
  rw [hrow] at he
  have hcells : e.chk.cells = x.chk.cells := by rw [he.chk]; rfl
  refine ⟨?_, ?_, ?_, ?_⟩
  · rw [he.cross]; exact hin.cross
  · rw [he.chk]; exact find?_ins_same ..
  · rw [cell_congr _ hcells]; exact hprev
  · rw [cell_congr _ hcells]; exact hnew

end

theorem verdictRecord_waits {v : Verd} {t : List Verd} (h : d.cross.verdicts = v :: t) : Leaves .verdictRecord s
    { d with cross := { d.cross with verdicts := t }, chk := { d.chk with waiting := d.chk.waiting ++ [v] } } := by
  refine act_leaves (f := verdictRecord) rfl hruns ?_
  unfold verdictRecord
  rw [h]
  rfl

/-! VERDICT_APPLY (R249 to R251). -/

/-- The device once the verdict has left the list of those that wait, and is counted. -/
def verdictTaking (v : Verd) (d : Dev) : Dev := inc Pg.CHK 4 (onChk (fun c => { c with waiting := c.waiting.erase v }) d)

/-- The frame of a first cell is done with. -/
def buildDone (v : Verd) (d : Dev) : Dev := onChk (fun c => { c with builds := del c.builds v.cell }) d

section
omit hruns
variable (v : Verd)

theorem verdictTaking_chk : (verdictTaking v d).chk = { d.chk with waiting := d.chk.waiting.erase v } := inc_chk ..
theorem verdictTaking_cell (h : Nat) : cell h (verdictTaking v d) = cell h d := cell_congr h (by rw [verdictTaking_chk])
theorem verdictTaking_metaSeen (h : Nat) : metaSeen h (verdictTaking v d) = metaSeen h d := by
  unfold metaSeen flipCount
  rw [verdictTaking_chk]
theorem verdictTaking_tm : (verdictTaking v d).tm = d.tm := by
  have k := congrArg Dev.tm (inc_tallies Pg.CHK 4 (onChk (fun c => { c with waiting := c.waiting.erase v }) d)).kept
  exact k
theorem verdictTaking_drops : (verdictTaking v d).drops = d.drops := (inc_tallies ..).drops
theorem verdictTaking_desc (tag : Nat) : v.desc tag (verdictTaking v d) = v.desc tag d := by
  unfold Verd.desc devId
  rw [verdictTaking, rget_inc]
  rfl

variable {v} {b : Build} (hfind : d.chk.waiting.find? (fun v => bodyEnded v d) = some v) (hbuild : find? d.chk.builds v.cell = some b)
include hfind hbuild

/-- The verdict of a frame that was cut short is none: the packet drops with the code that stopped it (R250). -/
theorem verdictApply_aborted (habort : b.abort = true) :
    verdictApply d = buildDone v (free .verdictPath v.cell b.tag (dropInstead v b.code (verdictTaking v d))) := by
  unfold verdictApply verdictApply1
  simp only [hfind, onChk_chk, hbuild, Option.getD_some, habort, if_true]
  rfl

variable (hopen : b.abort = false) (hhost : v.copyHost = false) (hmirror : v.mirror = none)
include hopen hhost hmirror

/-- A DROP verdict without copies releases the chain. -/
theorem verdictApply_drop (hkind : v.kind = 1) : verdictApply d = buildDone v (free .verdictPath v.cell b.tag (verdictTaking v d)) := by
  unfold verdictApply verdictApply1
  simp only [hfind, onChk_chk, hbuild, Option.getD_some, hopen, hkind, hhost, hmirror, Bool.false_eq_true, if_false, Option.isNone_none, and_self, if_true]
  rfl

/-- Any other verdict writes the head and hands the packet to its queue. -/
theorem verdictApply_queues {e : Dev} (hkind : v.kind ≠ 1) (hcnt0 : v.cnt0 = none) (hcnt1 : v.cnt1 = none) (hhead : writeHead v b (verdictTaking v d) = (0, e)) :
    verdictApply d = buildDone v (toTm { desc := v.desc b.tag d, dest := if v.kind = 2 then .host v.hostq else .voq, meter := v.meter } e) := by
  have hdesc := verdictTaking_desc v (d := d) b.tag
  unfold verdictTaking at hhead hdesc
  unfold verdictApply verdictApply1
  simp only [hfind, onChk_chk, hbuild, Option.getD_some, hopen, hkind, hhost, hmirror, hcnt0, hcnt1, Bool.false_eq_true, if_false, false_and, hhead, ne_eq,
    not_true_eq_false, hdesc, cntOpt, copies]
  rfl

end

section
omit hruns
variable {v : Verd} {b : Build}

/-- A head that fits the first cell is written there (R249). -/
theorem writeHead_fits (hclean : metaSeen v.cell d = .clean) (halloc : (cell v.cell d).alloc = true) (howner : (cell v.cell d).owner = b.tag)
    (hfit : v.head.length ≤ cellSize v.cell d) : writeHead v b d =
      (0, setCell v.cell { cell v.cell (storeCell v.cell v.head d) with refs := 1 } (storeCell v.cell v.head d)) := by
  unfold writeHead
  rw [metaCheck_clean hclean]
  simp only [halloc, howner, Nat.min_eq_left hfit, List.drop_length, List.take_length, List.length_nil, storeCells]
  simp

theorem drop_tm (code : Nat) : (drop code d).tm = d.tm := by
  unfold drop
  split_ifs
  · rfl
  · have k := congrArg Dev.tm (inc_tallies Pg.HIF 4 { d with drops := put d.drops code 0 (look d.drops code 0 + 1) }).kept
    exact k
  · rfl

theorem dropInstead_chk (code : Nat) : (dropInstead v code d).chk = d.chk := by
  unfold dropInstead
  rw [drop_chk]
  split <;> rfl

theorem dropInstead_tm (code : Nat) : (dropInstead v code d).tm = d.tm := by
  unfold dropInstead
  rw [drop_tm]
  split <;> rfl

theorem cell_storeCell (h : Nat) (bs : Bytes) : cell h (storeCell h bs d) = { cell h d with data := bs } := by
  unfold storeCell
  rw [cell_dataFresh, cell_setCell_same]

end

section
variable {v : Verd} {b : Build} (hfind : d.chk.waiting.find? (fun v => bodyEnded v d) = some v) (hbuild : find? d.chk.builds v.cell = some b)
include hfind hbuild

theorem verdictApply_lost (habort : b.abort = true) (hcode : b.code ≠ 0) : Does .verdictApply s fun e => e.chk.waiting = d.chk.waiting.erase v ∧
    find? e.chk.builds v.cell = none ∧ e.tm = d.tm ∧ (v.kind ≠ 1 → look e.drops b.code 0 = look d.drops b.code 0 + 1) ∧
    (v.kind = 1 → v.code ≠ b.code → look e.drops b.code 0 = look d.drops b.code 0 + 1 ∧ look e.drops v.code 0 = look d.drops v.code 0 - 1) := by
  have hin := free_inChuck .verdictPath v.cell b.tag (dropInstead v b.code (verdictTaking v d))
  refine act_does (f := verdictApply) rfl hruns fun e he => ?_
  rw [verdictApply_aborted hfind hbuild habort] at he
  refine ⟨?_, ?_, ?_, fun hkind => ?_, fun hkind hne => ?_⟩
  · rw [he.chk]
    exact hin.waiting.trans (by rw [dropInstead_chk, verdictTaking_chk])
  · rw [he.chk]
    exact find?_del_same ..
  · rw [he.tm]
    exact hin.tm.trans (by rw [dropInstead_tm, verdictTaking_tm])
  · rw [he.drops]
    refine (congrArg (look · b.code 0) hin.drops).trans ?_
    rw [dropInstead, if_neg hkind, look_drop_same hcode, verdictTaking_drops]
  · have hdrops : e.drops = (drop b.code (undrop v.code (verdictTaking v d))).drops := by
      rw [he.drops]
      exact hin.drops.trans (by rw [dropInstead, if_pos hkind])
    have hback : (undrop v.code (verdictTaking v d)).drops = put d.drops v.code 0 (look d.drops v.code 0 - 1) := by
      rw [← verdictTaking_drops (d := d) v]
      rfl
    refine ⟨?_, ?_⟩
    · rw [hdrops, look_drop_same hcode, hback, look_put_ne _ _ _ _ hne.symm]
    · rw [hdrops, look_drop_ne hne, hback, look_put_same]

variable (hopen : b.abort = false) (halloc : (cell v.cell d).alloc = true) (howner : (cell v.cell d).owner = b.tag) (hhost : v.copyHost = false)
  (hmirror : v.mirror = none) (hclean : metaSeen v.cell d = .clean)
include hopen halloc howner hhost hmirror hclean

theorem verdictApply_forwards (hkind : v.kind ≠ 1) (hcnt0 : v.cnt0 = none) (hcnt1 : v.cnt1 = none) (hfit : v.head.length ≤ cellSize v.cell d) :
    Does .verdictApply s fun e => e.chk.waiting = d.chk.waiting.erase v ∧ find? e.chk.builds v.cell = none ∧
      e.tm.input = d.tm.input ++ [{ desc := v.desc b.tag d, dest := if v.kind = 2 then .host v.hostq else .voq, meter := v.meter }] ∧
      cell v.cell e = { cell v.cell d with data := v.head, refs := 1 } := by
  have hcell := verdictTaking_cell v (d := d) v.cell
  have hhead := writeHead_fits (v := v) (b := b) (d := verdictTaking v d) ((verdictTaking_metaSeen v v.cell).trans hclean) (by rw [hcell]; exact halloc)
    (by rw [hcell]; exact howner) (by rw [cellSize, hcell]; exact (congrArg (fun n => 64 * 2 ^ n) (rget_inc ..)).symm ▸ hfit)
  have hstored : cell v.cell (storeCell v.cell v.head (verdictTaking v d)) = { cell v.cell d with data := v.head } := by rw [cell_storeCell, hcell]
  have hin : InChuck (verdictTaking v d) (setCell v.cell { cell v.cell (storeCell v.cell v.head (verdictTaking v d)) with refs := 1 }
    (storeCell v.cell v.head (verdictTaking v d))) := (storeCell_inChuck ..).trans (InChuck.of_setCell ..)
  have hwritten : cell v.cell (setCell v.cell { cell v.cell (storeCell v.cell v.head (verdictTaking v d)) with refs := 1 }
      (storeCell v.cell v.head (verdictTaking v d))) = { cell v.cell d with data := v.head, refs := 1 } := by rw [cell_setCell_same, hstored]
  generalize setCell v.cell { cell v.cell (storeCell v.cell v.head (verdictTaking v d)) with refs := 1 } (storeCell v.cell v.head (verdictTaking v d)) = x
    at hhead hin hwritten
  refine act_does (f := verdictApply) rfl hruns fun e he => ?_
  rw [verdictApply_queues hfind hbuild hopen hhost hmirror hkind hcnt0 hcnt1 hhead] at he
  refine ⟨?_, ?_, ?_, ?_⟩
  · rw [he.chk]
    exact hin.waiting.trans (by rw [verdictTaking_chk])
  · rw [he.chk]
    exact find?_del_same ..
  · rw [he.tm]
    show x.tm.input ++ _ = _
    rw [hin.tm, verdictTaking_tm]
  · rw [cell_congr _ (congrArg Chk.cells he.chk)]
    exact hwritten

theorem verdictApply_releases (hkind : v.kind = 1) (htag : b.tag ≠ 0) (hrefs : (cell v.cell d).refs ≤ 1) (hlast : (cell v.cell d).last = true)
    (hgran : d.chk.badGran = []) : Does .verdictApply s fun e => e.chk.waiting = d.chk.waiting.erase v ∧ find? e.chk.builds v.cell = none ∧
      e.tm = d.tm ∧ (cell v.cell e).alloc = false := by
  have hcell := verdictTaking_cell v (d := d) v.cell
  have hin := free_inChuck .verdictPath v.cell b.tag (verdictTaking v d)
  have hfreed := free_last (p := .verdictPath) (d := verdictTaking v d) ((verdictTaking_metaSeen v v.cell).trans hclean) (by rw [hcell]; exact halloc)
    (by rw [hcell]; exact howner) htag (by rw [hcell]; exact hrefs) (by rw [verdictTaking_chk]; exact hgran) (by rw [hcell]; exact hlast)
  refine act_does (f := verdictApply) rfl hruns fun e he => ?_
  rw [verdictApply_drop hfind hbuild hopen hhost hmirror hkind] at he
  refine ⟨?_, ?_, ?_, ?_⟩
  · rw [he.chk]
    exact hin.waiting.trans (by rw [verdictTaking_chk])
  · rw [he.chk]
    exact find?_del_same ..
  · rw [he.tm]
    exact hin.tm.trans (verdictTaking_tm v)
  · rw [cell_congr _ (congrArg Chk.cells he.chk)]
    exact hfreed.alloc

end

/-! FREE_CHAIN (R252, R253). -/

section
variable {x : ChainFree} (hclean : metaSeen x.handle.toNat d = .clean)
include hclean

theorem freeChain_refuses (hbad : (cell x.handle.toNat d).alloc = false ∨ (cell x.handle.toNat d).alloc = true ∧ (cell x.handle.toNat d).owner ≠ x.tag.toNat)
    (hroom : d.chk.badLog.length < 16) : Does (.freeChain x) s fun e => e.chk.cells = d.chk.cells ∧ e.chk.badLog.length = d.chk.badLog.length + 1 ∧
      bit (face Pg.CHK e).pend 0 = true := by
  obtain ⟨kind, hrow⟩ : ∃ kind, free x.party x.handle.toNat x.tag.toNat d = badFree kind x.party (cell x.handle.toNat d).owner x.tag.toNat x.handle.toNat d := by
    obtain halloc | ⟨halloc, howner⟩ := hbad
    · exact ⟨0, congrArg Prod.snd (freeChain_unowned hclean 0 Err.DOUBLE_FREE (.inl ⟨rfl, rfl, halloc⟩))⟩
    · exact ⟨1, congrArg Prod.snd (freeChain_unowned hclean 1 Err.NOT_OWNER (.inr ⟨rfl, rfl, halloc, howner⟩))⟩
  refine act_does (f := free x.party x.handle.toNat x.tag.toNat) rfl hruns fun e he => ?_
  rw [hrow] at he
  exact ⟨by rw [he.chk, badFree_cells], by rw [he.chk, badFree_logs _ _ _ _ _ hroom], by rw [he.face]; exact badFree_fires ..⟩

variable (halloc : (cell x.handle.toNat d).alloc = true) (howner : (cell x.handle.toNat d).owner = x.tag.toNat)
include halloc howner

theorem freeChain_counts (hrefs : 1 < (cell x.handle.toNat d).refs) : Leaves (.freeChain x) s
    (setCell x.handle.toNat { cell x.handle.toNat d with refs := (cell x.handle.toNat d).refs - 1 } d) :=
  act_leaves (f := free x.party x.handle.toNat x.tag.toNat) rfl hruns (free_counted hclean halloc howner hrefs)

variable (htag : x.tag ≠ 0) (hrefs : (cell x.handle.toNat d).refs ≤ 1) (hgran : d.chk.badGran = [])
include htag hrefs hgran

omit hruns hclean halloc howner hrefs hgran in
theorem tag_toNat_ne : x.tag.toNat ≠ 0 := fun h => htag (BitVec.eq_of_toNat_eq h)

theorem freeChain_frees (hlast : (cell x.handle.toNat d).last = true) (hroom : (pool (cell x.handle.toNat d).pool d).cache.length < 64) :
    Does (.freeChain x) s fun e => (cell x.handle.toNat e).alloc = false ∧ (cell x.handle.toNat e).owner = 0 ∧
      (pool (cell x.handle.toNat d).pool e).cache = (pool (cell x.handle.toNat d).pool d).cache ++ [x.handle.toNat] ∧ ∀ k, k ≠ x.handle.toNat → cell k e = cell k d := by
  have hfreed := free_last (p := x.party) hclean halloc howner (tag_toNat_ne htag) hrefs hgran hlast
  refine act_does (f := free x.party x.handle.toNat x.tag.toNat) rfl hruns fun e he => ?_
  have hcell (k : Nat) : cell k e = cell k (free x.party x.handle.toNat x.tag.toNat d) := cell_congr k (congrArg Chk.cells he.chk)
  rw [pool_congr _ (congrArg Chk.pools he.chk), hcell]
  exact ⟨hfreed.alloc, hfreed.owner, hfreed.cached hroom, fun k hk => (hcell k).trans (hfreed.others k hk)⟩

theorem freeChain_freesTwo {nxt : Nat} (hlast : (cell x.handle.toNat d).last = false) (hnext : (cell x.handle.toNat d).next = nxt) (hne : nxt ≠ x.handle.toNat)
    (hclean' : metaSeen nxt d = .clean) (halloc' : (cell nxt d).alloc = true) (howner' : (cell nxt d).owner = x.tag.toNat) (hlast' : (cell nxt d).last = true) :
    Does (.freeChain x) s fun e => (cell x.handle.toNat e).alloc = false ∧ (cell nxt e).alloc = false := by
  have hfreed := free_two (p := x.party) hclean halloc howner (tag_toNat_ne htag) hrefs hgran hlast hnext hne hclean' halloc' howner' hlast'
  refine act_does (f := free x.party x.handle.toNat x.tag.toNat) rfl hruns fun e he => ?_
  rw [cell_congr _ (congrArg Chk.cells he.chk), cell_congr nxt (congrArg Chk.cells he.chk)]
  exact hfreed

end
end

/-- Settles O20: each clause is the lemma of its row. -/
theorem cellsAndChains : Obligations.CellsAndChains := by
  unfold Obligations.CellsAndChains
  intro plain
  refine ⟨fun r s d hruns hheld htag => allocCycle_noTag hruns hheld htag,
    fun r s d h t hruns hheld htag hen hc => allocCycle_grants hruns hheld htag hen hc,
    fun r s d hruns hheld htag hen hc => ⟨allocCycle_holds hruns hheld htag hen hc, allocCycle_refuses hruns hheld htag hen hc,
      fun hfree hfb hfen h t hfc => allocCycle_fallsBack hruns hheld htag hen hc hfree hfb hfen hfc⟩,
    fun h tag s d hruns hheld hclean => ⟨allocCycle_addsRef hruns hheld hclean, allocCycle_dropsCopy hruns hheld hclean, allocCycle_refusesRef hruns hheld hclean⟩,
    fun n s d hruns => ⟨cacheRefill_leaves hruns, fun hen hroom hlong => cacheRefill_list hruns hen hroom hlong,
      fun hen hroom hlist hcount hfree => cacheRefill_fresh hruns hen hroom hlist hcount hfree⟩,
    fun src s d hruns hblk => headCacheRequest_sends hruns hblk,
    fun src s d hruns hstarved hnone => headCacheRequest_leaves hruns hstarved hnone,
    fun s d k l t hruns h => handlesRecord_arrives hruns h,
    fun s d r t b hruns hbodies hbuild => ⟨bodyRecord_aborted hruns hbodies hbuild,
      fun hopen hlast hclean hbytes hen hfit h c hc hne => bodyRecord_fills hruns hbodies hbuild hopen hlast hclean hbytes hen hfit hc hne⟩,
    fun s d v t hruns h => verdictRecord_waits hruns h, ?verdict, fun s d v b hruns hfind hbuild habort hcode => verdictApply_lost hruns hfind hbuild habort hcode, ?free⟩
  case verdict =>
    intro s d v b hruns hfind hbuild hopen halloc howner hhost hmirror
    exact ⟨fun hkind hplain hcnt0 hcnt1 hfit => verdictApply_forwards hruns hfind hbuild hopen halloc howner hhost hmirror hplain.1 hkind hcnt0 hcnt1 hfit,
      fun hkind hplain htag hrefs hlast hgran => verdictApply_releases hruns hfind hbuild hopen halloc howner hhost hmirror hplain.1 hkind htag hrefs hlast hgran⟩
  case free =>
    intro x s d hruns h m
    exact ⟨fun hplain howner hrefs => freeChain_counts hruns hplain.1 hplain.2 howner hrefs,
      fun hplain howner htag hrefs hlast hgran hroom => freeChain_frees hruns hplain.1 hplain.2 howner htag hrefs hgran hlast hroom,
      fun nxt hplain howner htag hrefs hlast hnext hne hplain' hgran howner' hlast' =>
        freeChain_freesTwo hruns hplain.1 hplain.2 howner htag hrefs hgran hlast hnext hne hplain'.1 hplain'.2 howner' hlast',
      fun hclean halloc hroom => freeChain_refuses hruns hclean (.inl halloc) hroom,
      fun hplain howner hroom => freeChain_refuses hruns hplain.1 (.inr ⟨hplain.2, howner⟩) hroom⟩

end Sys2Proof.Machine

/-! Fabric links: what the operations on a link change of it, of its registers and of the rest of the device (R362 to R374). -/

namespace Sys2Proof.Machine

open Safety

/-- A row of a fabric link's line runs on the device with its island's clock running (R18, R515). -/
theorem fabEvt_does {l : Nat} {c : Instr} {s : State} {d : Dev} {f : Dev → Dev} {P : Dev → Prop} (hc : exec c s = run (fabEvt l f) s)
    (h : FabLine l s d) (hp : ∀ e, Beside (f d) e → P e) : Does c s P :=
  run_does hc (by rw [fabEvt, if_pos h.1, act_runs h.2]; exact hp)

/-! The frame: all of the device but links, fields, counters, Faceplates and what has left. -/

/-- Device e with d's links, spray pointer, Faceplates, fields and counters, and what has left d. -/
def linkAs (d e : Dev) : Dev :=
  { e with fab := { e.fab with links := d.fab.links, ptr := d.fab.ptr }, faces := d.faces, flds := d.flds, ctrs := d.ctrs, perf := d.perf, out := d.out }

/-- Device e is d but for what the operations on a link's cells move. -/
structure InLink (d e : Dev) : Prop where
  kept : linkAs d e = d
  outs : ∀ o ∈ d.out, o ∈ e.out

namespace InLink

variable {a b c d e : Dev}

theorem refl (d : Dev) : InLink d d := ⟨rfl, fun _ h => h⟩
theorem trans (h : InLink a b) (k : InLink b c) : InLink a c := ⟨(congrArg (linkAs a) k.kept).trans h.kept, fun o ho => k.outs o (h.outs o ho)⟩
theorem of_ite {p : Prop} [Decidable p] (h : InLink a b) (k : InLink a c) : InLink a (if p then b else c) := by
  split <;> assumption

section
variable (h : InLink d e)
include h

theorem tm : e.tm = d.tm := by have k := congrArg Dev.tm h.kept; exact k
theorem ctlQ : e.ctlQ = d.ctlQ := by have k := congrArg Dev.ctlQ h.kept; exact k
theorem tx : e.fab.tx = d.fab.tx := by have k := congrArg (fun x : Dev => x.fab.tx) h.kept; exact k

end

theorem of_setLink (l : Nat) (x : FabLink) (d : Dev) : InLink d (setLink l x d) := ⟨rfl, fun _ h => h⟩
theorem of_incAt (p o n : Nat) (d : Dev) : InLink d (incAt p o n d) := ⟨rfl, fun _ h => h⟩
theorem of_perfCount (p sel edge level : Nat) (d : Dev) : InLink d (perfCount p sel edge level d) := by
  unfold perfCount
  exact of_ite ⟨rfl, fun _ h => h⟩ (refl d)
theorem of_inc (p k : Nat) (d : Dev) : InLink d (inc p k d) := by
  unfold inc incBy
  exact of_ite ((of_incAt ..).trans (of_perfCount ..)) (of_incAt ..)
theorem of_emit (o : Out) (d : Dev) : InLink d (emit o d) := ⟨rfl, fun _ h => List.mem_cons_of_mem _ h⟩
theorem of_sprayTake (l : Nat) (d : Dev) : InLink d (sprayTake l d) := ⟨rfl, fun _ h => h⟩

end InLink

theorem laneSend_inLink (l : Nat) (bs : Bytes) (d : Dev) : InLink d (laneSend l bs d) :=
  InLink.of_ite (InLink.of_setLink ..) ((InLink.of_setLink ..).trans (InLink.of_emit ..))

/-- The link's counter of requests to send again (R368). -/
def nakCount (l : Nat) (c : Cell) (d : Dev) : Dev := if c.nakv then incAt (fabPage l) (0x1028 + 0x40 * (l % 8)) 1 d else d

theorem nakCount_inLink (l : Nat) (c : Cell) (d : Dev) : InLink d (nakCount l c d) := InLink.of_ite (InLink.of_incAt ..) (InLink.refl d)

theorem cellOut_eq (l : Nat) (c : Cell) (d : Dev) : cellOut l c d = laneSend l (cellBytes (trailer (link l d) c).1)
    (emit (.cellOut l (cellBytes (trailer (link l d) c).1)) (setLink l (trailer (link l d) c).2 (nakCount l (trailer (link l d) c).1 d))) := rfl

theorem cellOut_inLink (l : Nat) (c : Cell) (d : Dev) : InLink d (cellOut l c d) := by
  rw [cellOut_eq]
  exact (((nakCount_inLink ..).trans (InLink.of_setLink ..)).trans (InLink.of_emit ..)).trans (laneSend_inLink ..)

theorem sendCell_inLink (l : Nat) (c : Cell) (d : Dev) : InLink d (sendCell l c d) :=
  ((InLink.of_setLink ..).trans (InLink.of_incAt ..)).trans (cellOut_inLink ..)

/-! A link under the operations. -/

theorem Tallies.fab {d e : Dev} (h : Tallies d e) : e.fab = d.fab := by have k := congrArg Dev.fab h.kept; exact k

section
variable (l : Nat) (d : Dev)

theorem link_congr {d e : Dev} (h : e.fab.links = d.fab.links) (k : Nat) : link k e = link k d := by rw [link, link, h]

@[simp] theorem link_incAt (k p o n : Nat) : link k (incAt p o n d) = link k d := rfl
@[simp] theorem link_inc (k p n : Nat) : link k (inc p n d) = link k d := link_congr (congrArg Fab.links (inc_tallies p n d).fab) k
@[simp] theorem link_overrun (k p : Nat) : link k (overrun p d) = link k d := link_congr (congrArg Fab.links (overrun_beside p d).fab) k
@[simp] theorem link_fire (k p n : Nat) : link k (fire p n d) = link k d := link_congr (congrArg Fab.links (fire_fab p n d)) k
@[simp] theorem link_emit (k : Nat) (o : Out) : link k (emit o d) = link k d := rfl
@[simp] theorem link_lset (k : Nat) (f : Fld) (v : Nat) : link k (lset f l v d) = link k d := rfl
@[simp] theorem link_rset (k : Nat) (f : Fld) (g i v : Nat) : link k (rset f g i v d) = link k d := rfl

@[simp] theorem link_nakCount (k : Nat) (c : Cell) : link k (nakCount l c d) = link k d := by
  unfold nakCount
  split <;> rfl

theorem link_laneSend (bs : Bytes) : ∃ b, link l (laneSend l bs d) = { link l d with lane := b } := by
  unfold laneSend
  dsimp only
  split
  · exact ⟨_, link_setLink_same ..⟩
  · rw [link_emit]
    exact ⟨_, link_setLink_same ..⟩

/-- The trailer of a cell that leaves: the last LSEQ taken in order, and at most one LSEQ to send again (R366, R368). -/
theorem trailer_cell (x : FabLink) (c : Cell) : ∃ v n, (trailer x c).1 =
    { c with ack := BitVec.ofNat 12 ((x.next + 4095) % 4096), ackv := x.ackv, crcOk := true, nakv := v, nak := n } := by
  unfold trailer
  split <;> exact ⟨_, _, rfl⟩

theorem trailer_link (x : FabLink) (c : Cell) : ∃ q, (trailer x c).2 = { x with nakQ := q } := by
  unfold trailer
  split <;> exact ⟨_, rfl⟩

/-- A link whose cell leaves has sent at most one request, and its lane's codeword has filled on. -/
theorem link_cellOut (c : Cell) : ∃ q b, link l (cellOut l c d) = { link l d with nakQ := q, lane := b } := by
  rw [cellOut_eq]
  generalize cellBytes (trailer (link l d) c).1 = bs
  obtain ⟨b, hb⟩ := link_laneSend l (emit (.cellOut l bs) (setLink l (trailer (link l d) c).2 (nakCount l (trailer (link l d) c).1 d))) bs
  obtain ⟨q, hq⟩ := trailer_link (link l d) c
  exact ⟨q, b, by rw [hb, link_emit, link_setLink_same, hq]⟩

theorem mem_cellOut (c : Cell) : Out.cellOut l (cellBytes (trailer (link l d) c).1) ∈ (cellOut l c d).out := by
  rw [cellOut_eq]
  exact (laneSend_inLink ..).outs _ (List.mem_cons_self ..)

theorem ctr_cellOut {p o : Nat} (hne : p * 65536 + o ≠ fabPage l * 65536 + (0x1028 + 0x40 * (l % 8))) (c : Cell) : ctr p o (cellOut l c d) = ctr p o d := by
  have hlane (bs : Bytes) (e : Dev) : (laneSend l bs e).ctrs = e.ctrs := by
    unfold laneSend
    dsimp only
    split <;> rfl
  have hnak (c : Cell) : ctr p o (nakCount l c d) = ctr p o d := by
    unfold nakCount
    split
    · exact look_put_ne _ _ _ _ hne
    · rfl
  rw [cellOut_eq]
  simp only [ctr, hlane]
  exact hnak _

end

/-! Registers of the links. -/

/-- A field of a per-link register. -/
def Fld.ofLink (f : Fld) : Bool :=
  f.reg.lay.page == Pg.FAB && f.reg.lay.stride == 0x20 && decide (0x200 ≤ f.reg.lay.ofs ∧ f.reg.lay.ofs < 0x220) && decide (f.lo < 1024)

/-- A field whose register lies where no link's register does. -/
def Fld.offLink (f : Fld) : Bool := decide (f.reg.lay.ofs < 0x200 ∨ 0x300 ≤ f.reg.lay.ofs) && decide (f.reg.lay.ofs < 65536) && decide (f.lo < 1024)

theorem Fld.ofLink_key {f : Fld} (hf : f.ofLink = true) (l : Nat) : f.lo < 1024 ∧ 0x200 ≤ f.reg.lay.ofs ∧ f.reg.lay.ofs < 0x220 ∧
    f.key (l / 8) (l % 8) = ((Pg.FAB + l / 8) * 65536 + f.reg.lay.ofs + 0x20 * (l % 8)) * 1024 + f.lo := by
  simp only [Fld.ofLink, Bool.and_eq_true, beq_iff_eq, decide_eq_true_eq] at hf
  obtain ⟨⟨⟨hpage, hstride⟩, hofs⟩, hlo⟩ := hf
  exact ⟨hlo, hofs.1, hofs.2, by rw [Fld.key, Reg.addr, hpage, hstride]⟩

theorem key_link_ne {f h : Fld} (hf : f.ofLink = true) (hh : h.ofLink = true) {k l : Nat} (hne : k ≠ l ∨ apart f h = true) :
    f.key (k / 8) (k % 8) ≠ h.key (l / 8) (l % 8) := by
  obtain ⟨hflo, hf0, hf1, hfkey⟩ := Fld.ofLink_key hf k
  obtain ⟨hhlo, hh0, hh1, hhkey⟩ := Fld.ofLink_key hh l
  by_cases hkl : k = l
  · subst hkl
    exact key_ne_of_apart (hne.resolve_left fun hk => hk rfl) _ _
  · rw [hfkey, hhkey]
    omega

theorem key_offLink_ne {f h : Fld} (hf : f.offLink = true) (hh : h.ofLink = true) (l : Nat) : f.key 0 0 ≠ h.key (l / 8) (l % 8) := by
  simp only [Fld.offLink, Bool.and_eq_true, decide_eq_true_eq] at hf
  obtain ⟨⟨hplace, hofs⟩, hlo⟩ := hf
  obtain ⟨hhlo, hh0, hh1, hhkey⟩ := Fld.ofLink_key hh l
  have hkey : f.key 0 0 = ((f.reg.lay.page + 0) * 65536 + f.reg.lay.ofs + f.reg.lay.stride * 0) * 1024 + f.lo := rfl
  rw [hhkey, hkey]
  omega

section
variable {f h : Fld} (d : Dev)

@[simp] theorem lget_lset_same (f : Fld) (l v : Nat) : lget f l (lset f l v d) = v % 2 ^ f.w := rget_rset_same ..
theorem lget_lset_ne (hf : f.ofLink = true) (hh : h.ofLink = true) {k l : Nat} (hne : k ≠ l ∨ apart f h = true) (v : Nat) :
    lget f k (lset h l v d) = lget f k d := rget_rset_ne _ _ (key_link_ne hf hh hne)
theorem rget_lset_off (hf : f.offLink = true) (hh : h.ofLink = true) (l v : Nat) : rget f 0 0 (lset h l v d) = rget f 0 0 d :=
  rget_rset_ne _ _ (key_offLink_ne hf hh l)
theorem lget_rset_off (hf : f.ofLink = true) (hh : h.offLink = true) (l v : Nat) : lget f l (rset h 0 0 v d) = lget f l d :=
  rget_rset_ne _ _ (key_offLink_ne hh hf l).symm

theorem lget_setLink (hf : f.ofLink = true) {k l : Nat} (hne : k ≠ l ∨ apart f FAB_LINKk_STAT.USED = true) (x : FabLink) :
    lget f k (setLink l x d) = lget f k d := lget_lset_ne _ hf (by decide) hne _
theorem rget_setLink (hf : f.offLink = true) (l : Nat) (x : FabLink) : rget f 0 0 (setLink l x d) = rget f 0 0 d := rget_lset_off _ hf (by decide) l _
@[simp] theorem lget_fire (f : Fld) (l p n : Nat) : lget f l (fire p n d) = lget f l d := rget_fire ..
@[simp] theorem lget_incAt (f : Fld) (l p o n : Nat) : lget f l (incAt p o n d) = lget f l d := rfl
@[simp] theorem fabState_incAt (l p o n : Nat) : fabState l (incAt p o n d) = fabState l d := rfl
@[simp] theorem fabState_setLink (k l : Nat) (x : FabLink) : fabState k (setLink l x d) = fabState k d :=
  lget_setLink d (by decide) (.inr (by decide)) x

end

/-! A link's change of state (R371). -/

section
variable (d : Dev)

theorem fctRefresh_eq : ∃ t free reach, fctRefresh d =
    rset FCT_SPARE.FREE 0 0 free (rset FCT_REACH.SET 0 0 reach { d with fab := { d.fab with cutOff := t } }) := by
  unfold fctRefresh
  dsimp only
  split
  · exact ⟨d.fab.cutOff, _, _, rfl⟩
  · exact ⟨_, _, _, rfl⟩

@[simp] theorem link_fctRefresh (k : Nat) : link k (fctRefresh d) = link k d := by
  obtain ⟨t, free, reach, h⟩ := fctRefresh_eq d
  rw [h]; rfl
theorem again_fctRefresh : (fctRefresh d).fab.again = d.fab.again := by
  obtain ⟨t, free, reach, h⟩ := fctRefresh_eq d
  rw [h]; rfl
theorem lget_fctRefresh {f : Fld} (hf : f.ofLink = true) (k : Nat) : lget f k (fctRefresh d) = lget f k d := by
  obtain ⟨t, free, reach, h⟩ := fctRefresh_eq d
  rw [h, lget_rset_off _ hf (by decide), lget_rset_off _ hf (by decide)]; rfl
theorem flag_fctRefresh : flag FCT_CFG.AUTO_SPARE 0 0 (fctRefresh d) = flag FCT_CFG.AUTO_SPARE 0 0 d := by
  obtain ⟨t, free, reach, h⟩ := fctRefresh_eq d
  rw [h, flag, rget_rset_ne _ _ (by decide), rget_rset_ne _ _ (by decide)]; rfl

variable {d} {l st : Nat}

theorem setFabState_of_ne (h : fabState l d ≠ st) : setFabState l st d = fctRefresh (fire (fabPage l) (l % 8) (lset FAB_LINKk_STAT.STATE l st
    (setLink l { link l d with since := d.mono, goods := 0, bads := 0, locked := (link l d).locked && st != 1 } d))) := if_neg h

theorem link_setFabState (h : fabState l d ≠ st) :
    link l (setFabState l st d) = { link l d with since := d.mono, goods := 0, bads := 0, locked := (link l d).locked && st != 1 } := by
  rw [setFabState_of_ne h]
  simp

theorem fabState_setFabState (h : fabState l d ≠ st) (hst : st < 8) : fabState l (setFabState l st d) = st := by
  rw [setFabState_of_ne h, fabState, lget_fctRefresh _ (by decide), lget_fire, lget_lset_same]
  exact Nat.mod_eq_of_lt hst

theorem again_setFabState : (setFabState l st d).fab.again = d.fab.again := by
  unfold setFabState
  split
  · rfl
  · rw [again_fctRefresh, fire_fab]
    rfl

theorem flag_setFabState : flag FCT_CFG.AUTO_SPARE 0 0 (setFabState l st d) = flag FCT_CFG.AUTO_SPARE 0 0 d := by
  unfold setFabState
  split
  · rfl
  · rw [flag_fctRefresh, flag, rget_fire, rget_lset_off _ (by decide) (by decide), rget_setLink _ (by decide)]
    rfl

end

end Sys2Proof.Machine

/-! Cells that arrive on a fabric link, and the replay of those it holds (R363, R367 to R369). -/

namespace Sys2Proof.Machine

open Safety

/-! The counters of a link (R396). -/

/-- Counter i of link l. -/
def linkCount (l i : Nat) (e : Dev) : Nat := ctr (fabPage l) (0x1000 + 0x40 * (l % 8) + 8 * i) e

section
variable {l i o : Nat} (n : Nat) (d : Dev)

theorem linkCount_same (ho : o = 0x1000 + 0x40 * (l % 8) + 8 * i) : linkCount l i (incAt (fabPage l) o n d) = (linkCount l i d + n) % 2 ^ 64 := by
  subst ho
  exact ctr_incAt_same ..
theorem linkCount_ne (ho : o ≠ 0x1000 + 0x40 * (l % 8) + 8 * i) : linkCount l i (incAt (fabPage l) o n d) = linkCount l i d :=
  ctr_incAt_ne ho.symm n d
@[simp] theorem linkCount_setLink (k : Nat) (x : FabLink) : linkCount l i (setLink k x d) = linkCount l i d := rfl
theorem linkCount_cellOut (hi : i ≠ 5) (c : Cell) : linkCount l i (cellOut l c d) = linkCount l i d := ctr_cellOut l d (by omega) c
@[simp] theorem linkCount_overrun (p : Nat) : linkCount l i (overrun p d) = linkCount l i d := by
  unfold overrun perfCount
  dsimp only
  split <;> rfl

theorem linkCount_beside {d e : Dev} (he : Beside d e) (hl : l < 168) (hi : i < 8) : linkCount l i e = linkCount l i d := by
  refine he.counts _ _ (by omega) ?_ ?_ <;> simp only [fabPage, Pg.FAB, Pg.EVT, Pg.MGT] <;> omega

end

theorem link_beside {d e : Dev} (he : Beside d e) (k : Nat) : link k e = link k d := link_congr (congrArg Fab.links he.fab) k
theorem fabState_beside {d e : Dev} (he : Beside d e) (k : Nat) : fabState k e = fabState k d := he.rget ..

/-! The receipt of a cell (R363, R366 to R369). -/

/-- The device once the codewords of a cell that arrives on link l are counted (R396). -/
def fecCounted (l nc nu : Nat) (d : Dev) : Dev :=
  incAt (fabPage l) (0x1038 + 0x40 * (l % 8)) nu (incAt (fabPage l) (0x1030 + 0x40 * (l % 8)) nc d)

/-- A good cell is at hand on link l, which has cell lock. -/
def goodTaken (l nc nu : Nat) (d : Dev) : Dev := setLink l { link l d with bads := 0 } (fecCounted l nc nu d)

section
variable (l nc nu : Nat) (d : Dev)

@[simp] theorem link_fecCounted (k : Nat) : link k (fecCounted l nc nu d) = link k d := rfl
@[simp] theorem fabState_fecCounted (k : Nat) : fabState k (fecCounted l nc nu d) = fabState k d := rfl
@[simp] theorem link_goodTaken : link l (goodTaken l nc nu d) = { link l d with bads := 0 } := link_setLink_same ..
@[simp] theorem fabState_goodTaken (k : Nat) : fabState k (goodTaken l nc nu d) = fabState k d := fabState_setLink ..
theorem linkCount_goodTaken {i : Nat} (hi : i < 6) : linkCount l i (goodTaken l nc nu d) = linkCount l i d := by
  rw [goodTaken, linkCount_setLink, fecCounted, linkCount_ne _ _ (by omega), linkCount_ne _ _ (by omega)]

variable {l nc nu d} {bs : Bytes}

theorem cellReceive_bad (h : (wireCell bs).crcOk = false) : cellReceive l bs nc nu d =
    setLink l { link l d with bads := min ((link l d).bads + 1) 8, goods := 0, locked := (link l d).locked && decide ((link l d).bads < 7) }
      (incAt (fabPage l) (0x1010 + 0x40 * (l % 8)) 1 (fecCounted l nc nu d)) := by
  unfold cellReceive
  simp only [h]
  rfl

theorem cellReceive_locked (h : (wireCell bs).crcOk = true) (hlock : (link l d).locked = true) :
    cellReceive l bs nc nu d = goodCell l (wireCell bs) (goodTaken l nc nu d) := by
  unfold cellReceive
  simp only [h, Bool.not_true, Bool.false_eq_true, if_false]
  exact if_pos hlock

/-- A good cell counts towards cell lock. -/
def goodSeen (l nc nu : Nat) (d : Dev) : Dev := setLink l { link l d with goods := (link l d).goods + 1, bads := 0 } (fecCounted l nc nu d)

theorem cellReceive_unlocked (h : (wireCell bs).crcOk = true) (hlock : (link l d).locked = false) : cellReceive l bs nc nu d =
    if fabState l (goodSeen l nc nu d) ≠ 0 ∧ (link l d).goods = 7 then cellLock l (goodSeen l nc nu d) else goodSeen l nc nu d := by
  unfold cellReceive
  simp only [h, Bool.not_true, Bool.false_eq_true, if_false]
  exact if_neg (by simp [hlock])

end

/-! A good cell on a link in ACTIVE or SPARE (R366 to R369). -/

section
variable {l : Nat} {c : Cell} {d : Dev} (hst : fabState l d = 3 ∨ fabState l d = 4)

theorem trailerReceive_plain (hack : c.ackv = false) (hnak : c.nakv = false) : trailerReceive l c d = d := by
  unfold trailerReceive
  simp [hack, hnak]

include hst

theorem goodCell_idle (htype : c.ctype = 0) : goodCell l c d = trailerReceive l c d := by
  unfold goodCell
  rw [if_neg (by omega)]
  simp only [htype, if_neg (show ¬fabState l d = 2 by omega)]
  rfl

variable (hack : c.ackv = false) (hnak : c.nakv = false)
include hack hnak

/-- A cell whose LSEQ has been taken, or lies outside the window, is counted and acknowledged again (R368). -/
theorem goodCell_repeated (htype : c.ctype = 1 ∨ c.ctype = 2) (hold : 512 ≤ (c.lseq.toNat + 4096 - (link l d).next) % 4096) :
    goodCell l c d = cellOut l (idleCell d) (incAt (fabPage l) (0x1000 + 0x40 * (l % 8) + 8 * 4) 1 d) := by
  unfold goodCell
  rw [if_neg (by omega)]
  simp only [if_neg (show ¬fabState l d = 2 by omega), trailerReceive_plain hack hnak]
  obtain h | h := htype <;>
  · rw [h]
    exact if_pos (.inl hold)

/-- A CONTROL cell that carries the next LSEQ is accepted and acknowledged, and its records take effect (R368, R380). -/
theorem goodCell_control (htype : c.ctype = 2) (hnext : c.lseq.toNat = (link l d).next) (hmap : (link l d).map = []) :
    goodCell l c d = controlReceive c (inc Pg.FCT 3 (cellOut l (idleCell d)
      (incAt (fabPage l) (0x1000 + 0x40 * (l % 8) + 8 * 1) 1 (setLink l (acceptSeq c.lseq.toNat (link l d)) d)))) := by
  unfold goodCell
  rw [if_neg (by omega)]
  simp only [if_neg (show ¬fabState l d = 2 by omega), trailerReceive_plain hack hnak, htype]
  exact if_neg (by rw [hnext, hmap]; simp)

end

theorem acceptSeq_next {n : Nat} {x : FabLink} (hn : n = x.next) (hmap : x.map = []) :
    acceptSeq n x = { x with next := (n + 1) % 4096, map := [], ackv := true, nakQ := (x.nakQ.erase n).erase n, asked := x.asked.erase n } := by
  subst hn
  unfold acceptSeq
  simp only [hmap]
  rw [nextOn, if_pos (by simp), nextOn, if_neg (by simp)]
  simp

theorem controlReceive_none {c : Cell} (h : c.count = 0) (d : Dev) : controlReceive c d = d := by
  unfold controlReceive
  simp [h]

theorem trailerReceive_acks {l : Nat} {c : Cell} {d : Dev} {h : Held} (hack : c.ackv = true) (hnak : c.nakv = false) (hheld : (link l d).held = [h])
    (hseq : h.cell.lseq = c.ack) : ∃ lat, trailerReceive l c d = setLink l { link l d with held := [], latSum := lat, latN := (link l d).latN + 1 } d := by
  unfold trailerReceive
  simp only [hack, hnak, hheld, hseq, List.any_cons, beq_self_eq_true, List.takeWhile_cons, bne_self_eq_false, Bool.true_or, Bool.and_self, if_true,
    Bool.false_eq_true, if_false]
  exact ⟨_, rfl⟩

/-! A held cell leaves again (R369). -/

section
variable {l : Nat} {d : Dev} {h : Held} (hheld : (link l d).held = [h])
include hheld

/-- The link whose one held cell is sent again, and the device that counts it. -/
theorem resend_held : resend l h.cell.lseq.toNat d = cellOut l { h.cell with retx := true } (overrun (fabPage l)
    (incAt (fabPage l) (0x1000 + 0x40 * (l % 8)) 1 (incAt (fabPage l) (0x1018 + 0x40 * (l % 8)) 1
      (setLink l { link l d with held := [{ h with tries := h.tries + 1, at_ := d.mono }], sent := (link l d).sent + 1, resent := (link l d).resent + 1 } d)))) := by
  unfold resend
  simp only [hheld, List.find?_cons, beq_self_eq_true, List.map_cons, List.map_nil, if_true]

theorem held_resend : (link l (resend l h.cell.lseq.toNat d)).held = [{ h with tries := h.tries + 1, at_ := d.mono }] := by
  rw [resend_held hheld]
  generalize hx : overrun (fabPage l) _ = x
  obtain ⟨q, b, hl⟩ := link_cellOut l x { h.cell with retx := true }
  rw [hl, ← hx]
  simp

theorem linkCount_resend : linkCount l 3 (resend l h.cell.lseq.toNat d) = (linkCount l 3 d + 1) % 2 ^ 64 := by
  rw [resend_held hheld, linkCount_cellOut _ (by decide), linkCount_overrun, linkCount_ne _ _ (by omega), linkCount_same _ _ (by omega), linkCount_setLink]

theorem resend_sends : ∃ r, Out.cellOut l (cellBytes r) ∈ (resend l h.cell.lseq.toNat d).out ∧ r.retx = true ∧ r.payload = h.cell.payload ∧
    r.lseq = h.cell.lseq := by
  rw [resend_held hheld]
  generalize overrun (fabPage l) _ = x
  obtain ⟨v, n, hr⟩ := trailer_cell (link l x) { h.cell with retx := true }
  exact ⟨_, mem_cellOut l x _, by rw [hr], by rw [hr], by rw [hr]⟩

end

/-! The row CELL_RECEIVE. -/

section
variable {l : Fin 168} {bs : Bytes} {nc nu : Nat} {s : State} {d : Dev} (hline : FabLine l.val s d)
include hline

theorem cellReceive_does {P : Dev → Prop} (h : ∀ e, Beside (cellReceive l.val bs nc nu d) e → P e) : Does (.cellReceive l bs nc nu) s P :=
  fabEvt_does (f := cellReceive l.val bs nc nu) rfl hline h

/-- A cell that fails its CRC is counted; the eighth in a row loses cell lock (R363, R367). -/
theorem cellReceive_countsBad (hbad : (wireCell bs).crcOk = false) : Does (.cellReceive l bs nc nu) s fun e =>
    link l.val e = { link l.val d with bads := min ((link l.val d).bads + 1) 8, goods := 0,
                                       locked := (link l.val d).locked && decide ((link l.val d).bads < 7) } ∧
    e.tm = d.tm ∧ linkCount l.val 2 e = (linkCount l.val 2 d + 1) % 2 ^ 64 ∧ linkCount l.val 6 e = (linkCount l.val 6 d + nc) % 2 ^ 64 ∧
    linkCount l.val 7 e = (linkCount l.val 7 d + nu) % 2 ^ 64 := by
  refine cellReceive_does hline fun e he => ?_
  rw [cellReceive_bad hbad] at he
  have hcount {i : Nat} (hi : i < 8) := linkCount_beside he l.isLt hi
  refine ⟨(link_beside he _).trans (link_setLink_same ..), he.tm, ?_, ?_, ?_⟩
  · rw [hcount (by decide), linkCount_setLink, linkCount_same _ _ (by omega), fecCounted, linkCount_ne _ _ (by omega), linkCount_ne _ _ (by omega)]
  · rw [hcount (by decide), linkCount_setLink, linkCount_ne _ _ (by omega), fecCounted, linkCount_ne _ _ (by omega), linkCount_same _ _ (by omega)]
  · rw [hcount (by decide), linkCount_setLink, linkCount_ne _ _ (by omega), fecCounted, linkCount_same _ _ (by omega), linkCount_ne _ _ (by omega)]

variable (hgood : (wireCell bs).crcOk = true)
include hgood

/-- Without cell lock a good cell is counted towards it and taken nowhere (R363). -/
theorem cellReceive_countsGood (hlock : (link l.val d).locked = false) (hfew : (link l.val d).goods ≠ 7) : Does (.cellReceive l bs nc nu) s fun e =>
    link l.val e = { link l.val d with goods := (link l.val d).goods + 1, bads := 0 } ∧ e.tm = d.tm := by
  refine cellReceive_does hline fun e he => ?_
  rw [cellReceive_unlocked hgood hlock, if_neg fun h => hfew h.2] at he
  exact ⟨(link_beside he _).trans (link_setLink_same ..), he.tm⟩

/-- The eighth good cell in a row gains cell lock, and the link in TRAIN enters HELLO (R363, R371). -/
theorem cellReceive_locks (hlock : (link l.val d).locked = false) (hgoods : (link l.val d).goods = 7) (hst : fabState l.val d = 1) :
    Does (.cellReceive l bs nc nu) s fun e => (link l.val e).locked = true ∧ fabState l.val e = 2 := by
  refine cellReceive_does hline fun e he => ?_
  have hseen : fabState l.val (goodSeen l.val nc nu d) = 1 := (fabState_setLink ..).trans hst
  rw [cellReceive_unlocked hgood hlock, if_pos ⟨by omega, hgoods⟩] at he
  unfold cellLock at he
  simp only [fabState_setLink, hseen, if_true, link_setLink_same] at he
  generalize hx : setLink l.val _ _ = x at he
  have hne : fabState l.val x ≠ 2 := by simp [← hx, hseen]
  refine ⟨?_, (fabState_beside he _).trans (fabState_setFabState hne (by decide))⟩
  rw [link_beside he, link_setFabState hne, ← hx]
  simp

variable (hlock : (link l.val d).locked = true) (hst : fabState l.val d = 3 ∨ fabState l.val d = 4)
include hlock hst

omit hst in
theorem cellReceive_takes {P : Dev → Prop} (h : ∀ e, Beside (goodCell l.val (wireCell bs) (goodTaken l.val nc nu d)) e → P e) :
    Does (.cellReceive l bs nc nu) s P :=
  cellReceive_does hline fun e he => h e (by rwa [cellReceive_locked hgood hlock] at he)

/-- The next cell is accepted and acknowledged in an IDLE cell (R366, R368). -/
theorem cellReceive_accepts (hack : (wireCell bs).ackv = false) (hnak : (wireCell bs).nakv = false) (htype : (wireCell bs).ctype = 2)
    (hcount : (wireCell bs).count = 0) (hnext : (wireCell bs).lseq.toNat = (link l.val d).next) (hmap : (link l.val d).map = []) :
    Does (.cellReceive l bs nc nu) s fun e => (link l.val e).next = ((link l.val d).next + 1) % 4096 ∧ (link l.val e).ackv = true ∧
      (link l.val e).map = [] ∧ ∃ r, Out.cellOut l.val (cellBytes r) ∈ e.out ∧ r.ctype = 0 ∧ r.ack = (wireCell bs).lseq ∧ r.ackv = true := by
  refine cellReceive_takes hline hgood hlock fun e he => ?_
  generalize hy : goodTaken l.val nc nu d = y at he
  have hlink : link l.val y = { link l.val d with bads := 0 } := hy ▸ link_goodTaken ..
  rw [goodCell_control (by rwa [← hy, fabState_goodTaken]) hack hnak htype (by rw [hlink]; exact hnext) (by rw [hlink]; exact hmap),
    controlReceive_none hcount, acceptSeq_next (by rw [hlink]; exact hnext) (by rw [hlink]; exact hmap)] at he
  generalize hx : incAt _ _ _ _ = x at he
  have hxl : (link l.val x).next = ((wireCell bs).lseq.toNat + 1) % 4096 ∧ (link l.val x).ackv = true ∧ (link l.val x).map = [] := by
    rw [← hx, link_incAt, link_setLink_same]
    exact ⟨rfl, rfl, rfl⟩
  obtain ⟨hxn, hxa, hxm⟩ := hxl
  obtain ⟨q, b, hout⟩ := link_cellOut l.val x (idleCell y)
  obtain ⟨v, n, hr⟩ := trailer_cell (link l.val x) (idleCell y)
  have hwrap : (((wireCell bs).lseq.toNat + 1) % 4096 + 4095) % 4096 = (wireCell bs).lseq.toNat := by omega
  rw [link_beside he, link_inc, hout]
  refine ⟨by rw [← hnext, hxn], hxa, hxm, _, he.mem_out ((InLink.of_inc ..).outs _ (mem_cellOut l.val x _)), by rw [hr]; rfl, ?_, by rw [hr]; exact hxa⟩
  rw [hr, hxn, hwrap]
  simp

/-- A cell taken before is counted and acknowledged again (R368). -/
theorem cellReceive_repeats (hack : (wireCell bs).ackv = false) (hnak : (wireCell bs).nakv = false)
    (htype : (wireCell bs).ctype = 1 ∨ (wireCell bs).ctype = 2) (hold : 512 ≤ ((wireCell bs).lseq.toNat + 4096 - (link l.val d).next) % 4096) :
    Does (.cellReceive l bs nc nu) s fun e => (link l.val e).next = (link l.val d).next ∧ (link l.val e).map = (link l.val d).map ∧
      linkCount l.val 4 e = (linkCount l.val 4 d + 1) % 2 ^ 64 ∧ e.tm = d.tm := by
  refine cellReceive_takes hline hgood hlock fun e he => ?_
  have hcount : linkCount l.val 4 (goodTaken l.val nc nu d) = linkCount l.val 4 d := linkCount_goodTaken _ _ _ _ (by decide)
  have htm : (goodTaken l.val nc nu d).tm = d.tm := rfl
  generalize hy : goodTaken l.val nc nu d = y at he
  rw [hy] at hcount htm
  have hlink : link l.val y = { link l.val d with bads := 0 } := hy ▸ link_goodTaken ..
  rw [goodCell_repeated (by rwa [← hy, fabState_goodTaken]) hack hnak htype (by rw [hlink]; exact hold)] at he
  obtain ⟨q, b, hout⟩ := link_cellOut l.val (incAt (fabPage l.val) (0x1000 + 0x40 * (l.val % 8) + 8 * 4) 1 y) (idleCell y)
  rw [link_beside he, hout, link_incAt, hlink, linkCount_beside he l.isLt (by decide), linkCount_cellOut _ (by decide), linkCount_same _ _ rfl, hcount,
    he.tm, (cellOut_inLink ..).tm]
  exact ⟨rfl, rfl, rfl, htm⟩

/-- An acknowledgement frees the held cell that it names (R367). -/
theorem cellReceive_frees {h : Held} (htype : (wireCell bs).ctype = 0) (hnak : (wireCell bs).nakv = false) (hack : (wireCell bs).ackv = true)
    (hheld : (link l.val d).held = [h]) (hseq : h.cell.lseq = (wireCell bs).ack) :
    Does (.cellReceive l bs nc nu) s fun e => (link l.val e).held = [] ∧ (link l.val e).latN = (link l.val d).latN + 1 := by
  refine cellReceive_takes hline hgood hlock fun e he => ?_
  generalize hy : goodTaken l.val nc nu d = y at he
  have hlink : link l.val y = { link l.val d with bads := 0 } := hy ▸ link_goodTaken ..
  obtain ⟨lat, hrow⟩ := trailerReceive_acks (l := l.val) (d := y) hack hnak (by rw [hlink]; exact hheld) hseq
  rw [goodCell_idle (by rwa [← hy, fabState_goodTaken]) htype, hrow] at he
  rw [link_beside he, link_setLink_same, hlink]
  exact ⟨rfl, rfl⟩

/-- A held cell that is asked for leaves again (R369). -/
theorem cellReceive_resends {h : Held} (htype : (wireCell bs).ctype = 0) (hnak : (wireCell bs).nakv = true) (hack : (wireCell bs).ackv = false)
    (hheld : (link l.val d).held = [h]) (hseq : h.cell.lseq = (wireCell bs).nak) : Does (.cellReceive l bs nc nu) s fun e =>
      (link l.val e).held = [{ h with tries := h.tries + 1, at_ := d.mono }] ∧ linkCount l.val 3 e = (linkCount l.val 3 d + 1) % 2 ^ 64 ∧
      ∃ r, Out.cellOut l.val (cellBytes r) ∈ e.out ∧ r.retx = true ∧ r.payload = h.cell.payload ∧ r.lseq = h.cell.lseq := by
  refine cellReceive_takes hline hgood hlock fun e he => ?_
  have hcount : linkCount l.val 3 (goodTaken l.val nc nu d) = linkCount l.val 3 d := linkCount_goodTaken _ _ _ _ (by decide)
  have hmono : (goodTaken l.val nc nu d).mono = d.mono := rfl
  generalize hy : goodTaken l.val nc nu d = y at he
  rw [hy] at hcount hmono
  have hlink : link l.val y = { link l.val d with bads := 0 } := hy ▸ link_goodTaken ..
  have hyheld : (link l.val y).held = [h] := by rw [hlink]; exact hheld
  have hrow : trailerReceive l.val (wireCell bs) y = resend l.val h.cell.lseq.toNat y := by
    unfold trailerReceive
    simp only [hack, hnak, Bool.false_and, Bool.false_eq_true, if_false, if_true, hseq]
  rw [goodCell_idle (by rwa [← hy, fabState_goodTaken]) htype, hrow] at he
  obtain ⟨r, hr, hretx, hpay, hlseq⟩ := resend_sends hyheld
  rw [link_beside he, held_resend hyheld, linkCount_beside he l.isLt (by decide), linkCount_resend hyheld, hcount, hmono]
  exact ⟨rfl, rfl, r, he.mem_out hr, hretx, hpay, hlseq⟩

end

end Sys2Proof.Machine

/-! Replay timers, spraying, and the lag of links (R369, R372, R373). -/

namespace Sys2Proof.Machine

open Safety

/-! A link that fails (R369, R371, R374). -/

section
variable (l : Nat) (d : Dev)

/-- Link l holds no cell any more: those it held wait to be sprayed again. -/
def emptied (l : Nat) (d : Dev) : Dev :=
  onFab (fun f => { f with again := f.again ++ (link l d).held.map (·.cell) }) (setLink l { link l d with held := [] } d)

theorem respray_tallies : Tallies (emptied l d) (respray l d) := incBy_tallies ..

theorem rget_emptied (f : Fld) (g i : Nat) : rget f g i (emptied l d) = rget f g i (setLink l { link l d with held := [] } d) := rfl

@[simp] theorem link_respray : link l (respray l d) = { link l d with held := [] } := by
  rw [link_congr (congrArg Fab.links (respray_tallies l d).fab)]
  show link l (setLink l _ d) = _
  exact link_setLink_same ..
@[simp] theorem again_respray : (respray l d).fab.again = d.fab.again ++ (link l d).held.map (·.cell) := by
  rw [(respray_tallies l d).fab]
  rfl
@[simp] theorem fabState_respray (k : Nat) : fabState k (respray l d) = fabState k d := by
  rw [fabState, lget, (respray_tallies l d).rget, rget_emptied]
  exact fabState_setLink ..
theorem flag_respray : flag FCT_CFG.AUTO_SPARE 0 0 (respray l d) = flag FCT_CFG.AUTO_SPARE 0 0 d := by
  rw [flag, (respray_tallies l d).rget, rget_emptied, rget_setLink _ (by decide)]
  rfl

theorem subEnd_fab : (subEnd l d).fab = d.fab := by
  unfold subEnd
  split <;> rfl
theorem fabState_subEnd (k : Nat) : fabState k (subEnd l d) = fabState k d := by
  have hsub (m v : Nat) (e : Dev) : fabState k (lset FAB_LINKk_STAT.SUB m v e) = fabState k e := lget_lset_ne _ (by decide) (by decide) (.inr (by decide)) v
  have hlink (m v : Nat) (e : Dev) : fabState k (lset FAB_LINKk_STAT.SUB_LINK m v e) = fabState k e :=
    lget_lset_ne _ (by decide) (by decide) (.inr (by decide)) v
  unfold subEnd
  split
  · rfl
  · rw [hsub, hlink, hsub, hlink]

variable {l d}

/-- An ACTIVE link that fails, with no spare to take its place, holds no cell any more: they wait to be sprayed again. -/
theorem linkFail_shows (hst : fabState l d = 3) (hauto : flag FCT_CFG.AUTO_SPARE 0 0 d = false) :
    fabState l (linkFail l d) = 5 ∧ (link l (linkFail l d)).held = [] ∧ (linkFail l d).fab.again = d.fab.again ++ (link l d).held.map (·.cell) := by
  have hne : fabState l d ≠ 5 := by omega
  have hlink := link_setFabState hne
  have hfab : (linkFail l d).fab = (respray l (setFabState l 5 d)).fab ∧ fabState l (linkFail l d) = fabState l (respray l (setFabState l 5 d)) := by
    unfold linkFail substitute
    rw [if_neg (by omega)]
    split
    · simp only [flag_respray, flag_setFabState, hauto, Bool.not_false, if_true, and_self]
    · exact ⟨subEnd_fab .., fabState_subEnd ..⟩
  refine ⟨?_, ?_, ?_⟩
  · rw [hfab.2, fabState_respray, fabState_setFabState hne (by decide)]
  · rw [link_congr (congrArg Fab.links hfab.1), link_respray]
  · rw [hfab.1, again_respray, again_setFabState, hlink]

end

/-! The replay timers' rows (R369). -/

section
variable {l : Fin 168} {n : BitVec 12} {s : State} {d : Dev} {h : Held} (hruns : Runs (107 + l.val / 8) s d) (hheld : (link l.val d).held = [h])
include hruns hheld

theorem cellReplayTimeout_leaves (hno : h.cell.lseq ≠ n ∨ ¬h.at_ + rget FCT_X_LINK.REPLAY_TMO 0 0 d ≤ d.mono) : Leaves (.cellReplayTimeout l n) s d := by
  refine act_leaves (f := cellTimeout l.val n.toNat) rfl hruns ?_
  unfold cellTimeout
  rw [hheld]
  by_cases hseq : h.cell.lseq = n
  · simp only [hseq, List.find?_cons, beq_self_eq_true]
    exact if_pos (by have := hno.resolve_left fun hne => hne hseq; omega)
  · have hnat : (h.cell.lseq.toNat == n.toNat) = false := beq_false_of_ne fun heq => hseq (BitVec.eq_of_toNat_eq heq)
    simp only [List.find?_cons, hnat, List.find?_nil]

theorem linkReplayFail_leaves (hno : h.tries < rget FCT_X_LINK.REPLAY_LIMIT 0 0 d ∨ ¬h.at_ + rget FCT_X_LINK.REPLAY_TMO 0 0 d ≤ d.mono) :
    Leaves (.linkReplayFail l) s d := by
  refine act_leaves (f := replayFail l.val) rfl hruns ?_
  unfold replayFail
  rw [hheld]
  exact if_neg (by simp only [List.any_cons, List.any_nil, Bool.or_false, decide_eq_true_eq]; omega)

variable (hdue : h.at_ + rget FCT_X_LINK.REPLAY_TMO 0 0 d ≤ d.mono)
include hdue

omit hruns in
theorem cellTimeout_due (hseq : h.cell.lseq = n) : cellTimeout l.val n.toNat d =
    if rget FCT_X_LINK.REPLAY_LIMIT 0 0 d ≤ h.tries then linkFail l.val d else resend l.val n.toNat d := by
  unfold cellTimeout
  rw [hheld]
  simp only [hseq, List.find?_cons, beq_self_eq_true]
  exact if_neg (by omega)

theorem cellReplayTimeout_resends (hseq : h.cell.lseq = n) (hfew : h.tries < rget FCT_X_LINK.REPLAY_LIMIT 0 0 d) :
    Does (.cellReplayTimeout l n) s fun e => (link l.val e).held = [{ h with tries := h.tries + 1, at_ := d.mono }] ∧
      ∃ r, Out.cellOut l.val (cellBytes r) ∈ e.out ∧ r.retx = true ∧ r.lseq = n := by
  refine act_does (f := cellTimeout l.val n.toNat) rfl hruns fun e he => ?_
  rw [cellTimeout_due hheld hdue hseq, if_neg (by omega), ← hseq] at he
  obtain ⟨r, hr, hretx, -, hlseq⟩ := resend_sends hheld
  rw [link_beside he, held_resend hheld]
  exact ⟨rfl, r, he.mem_out hr, hretx, hlseq.trans hseq⟩

variable (hmany : rget FCT_X_LINK.REPLAY_LIMIT 0 0 d ≤ h.tries) (hst : fabState l.val d = 3) (hauto : flag FCT_CFG.AUTO_SPARE 0 0 d = false)
include hmany hst hauto

theorem linkReplayFail_fails : Does (.linkReplayFail l) s fun e => fabState l.val e = 5 ∧ (link l.val e).held = [] ∧ h.cell ∈ e.fab.again := by
  refine act_does (f := replayFail l.val) rfl hruns fun e he => ?_
  rw [replayFail, hheld, if_pos (by simp [hmany, hdue])] at he
  obtain ⟨hfail, hnone, hagain⟩ := linkFail_shows hst hauto
  rw [fabState_beside he, link_beside he, he.fab, hagain, hheld]
  exact ⟨hfail, hnone, by simp⟩

theorem cellReplayTimeout_fails (hseq : h.cell.lseq = n) : Does (.cellReplayTimeout l n) s fun e => fabState l.val e = 5 ∧ h.cell ∈ e.fab.again := by
  refine act_does (f := cellTimeout l.val n.toNat) rfl hruns fun e he => ?_
  rw [cellTimeout_due hheld hdue hseq, if_pos hmany] at he
  obtain ⟨hfail, -, hagain⟩ := linkFail_shows hst hauto
  rw [fabState_beside he, he.fab, hagain, hheld]
  exact ⟨hfail, by simp⟩

end

/-! Spraying (R372, R375, R380). -/

theorem sprayRound_lt {mask l : Nat} {d : Dev} (h : sprayRound mask d = some l) : l < 168 := by
  have hmem := List.mem_of_find?_eq_some h
  simp only [List.mem_map, List.mem_range] at hmem
  omega

theorem spray_found {mask l : Nat} {d : Dev} (h : sprayRound mask d = some l) : spray mask d = (some l, sprayTake l d) := by
  unfold spray
  rw [h]

@[simp] theorem held_sprayTake (l : Nat) (d : Dev) : (link l (sprayTake l d)).held = (link l d).held := by
  show (link l (setLink l _ d)).held = _
  rw [link_setLink_same]

section
variable (l : Nat) (c : Cell) (d : Dev)

theorem sendCell_sends : ∃ r, Out.cellOut l (cellBytes r) ∈ (sendCell l c d).out ∧
    ∃ lseq ack ackv ok nakv nak, r = { c with lseq := lseq, retx := false, ack := ack, ackv := ackv, crcOk := ok, nakv := nakv, nak := nak } := by
  unfold sendCell
  extract_lets x c' x' d'
  obtain ⟨v, n, hr⟩ := trailer_cell (link l d') c'
  exact ⟨_, mem_cellOut l d' c', _, _, _, _, _, _, hr⟩

theorem held_sendCell : (link l (sendCell l c d)).held.length = (link l d).held.length + 1 := by
  unfold sendCell
  extract_lets x c' x' d'
  obtain ⟨q, b, hl⟩ := link_cellOut l d' c'
  have hx : link l d' = x' := link_setLink_same ..
  rw [hl, hx]
  exact List.length_append

theorem ctr_sendCell_above {p o : Nat} (hp : fabPage l < p) : ctr p o (sendCell l c d) = ctr p o d := by
  unfold sendCell
  extract_lets x c' x' d'
  rw [ctr_cellOut _ _ (by omega)]
  exact look_put_ne _ _ _ _ (by omega)

end

/-- Among the elements that pass p, the only one is found by any test that it passes. -/
theorem find?_filter_only {α : Type} {p q : α → Bool} {a : α} {l : List α} (ha : a ∈ l) (hp : p a = true) (hq : q a = true)
    (honly : ∀ x ∈ l, p x = true → x = a) : (l.filter p).find? q = some a := by
  cases hfind : (l.filter p).find? q with
  | none => exact absurd hq (List.find?_eq_none.mp hfind a (List.mem_filter.mpr ⟨ha, hp⟩))
  | some x =>
    obtain ⟨hx, hpx⟩ := List.mem_filter.mp (List.mem_of_find?_eq_some hfind)
    exact congrArg some (honly x hx hpx)

theorem free_fab (p : FreeParty) (h tag : Nat) (d : Dev) : (free p h tag d).fab = d.fab := (free_inChuck ..).fab
theorem free_out (p : FreeParty) (h tag : Nat) (d : Dev) : (free p h tag d).out = d.out := (free_inChuck ..).out

section
variable {s : State} {d : Dev} (hruns : Runs 102 s d)
include hruns

theorem cellSpray_off (h : blkEn Pg.FCT d = false) : Leaves .cellSpray s d := by
  refine act_leaves (f := cellSpray) rfl hruns ?_
  unfold cellSpray
  simp [h]

variable (hblk : blkEn Pg.FCT d = true) (hagain : d.fab.again = [])
include hblk hagain

omit hruns in
/-- With no cell to send again and no control message that takes the cycle, a stream's cell leaves. -/
theorem cellSpray_data {e : Dev} (hctl : d.ctlQ = []) (hdata : sprayData d = (.left, e)) : cellSpray d = e := by
  unfold cellSpray sprayAgain sprayCtl
  simp [hblk, hagain, hctl, hdata]

omit hruns in
theorem cellSpray_ctl {e : Dev} (hctl : sprayCtl d = (.left, e)) : cellSpray d = e := by
  unfold cellSpray sprayAgain
  simp [hblk, hagain, hctl]

/-- The one record of a stream leaves in a DATA cell (R372, R375). -/
theorem cellSpray_sendsData {v l : Nat} {r : TxRec} (hctl : d.ctlQ = []) (hv : v < 64) (htx : d.fab.tx = [(v, { sseq := 0, recs := [r] })])
    (hfit : r.bytes.length ≤ 256) (hsome : r.bytes ≠ []) (hstart : r.started = false) (hreach : reaches v d = true)
    (hround : sprayRound (2 ^ v) d = some l) : Does .cellSpray s fun e => (look e.fab.tx v {}).recs = [] ∧ (look e.fab.tx v {}).sseq = 1 ∧
      ∃ c, Out.cellOut l (cellBytes c) ∈ e.out ∧ c.ctype = 1 ∧ c.dstDev.val = v ∧ c.sseq = 0 ∧ c.first = 0 ∧ c.payload = r.bytes ∧
        c.fill.toNat = r.bytes.length - 1 ∧ (link l e).held.length = (link l d).held.length + 1 := by
  have hlook (u : Nat) : look d.fab.tx u {} = if u = v then { sseq := 0, recs := [r] } else {} := by
    rw [htx]
    by_cases hu : v = u <;> simp [look, find?, hu, eq_comm]
  have hfind : (((List.range 64).map fun i => (d.fab.dataRot + i) % 64).filter fun u => !(look d.fab.tx u {}).recs.isEmpty).find?
      (fun u => reaches u d) = some v := by
    refine find?_filter_only ?_ (by simp [hlook]) hreach fun u _ hu => ?_
    · exact List.mem_map.mpr ⟨(v + 64 - d.fab.dataRot % 64) % 64, List.mem_range.mpr (by omega), by omega⟩
    · by_contra hne
      simp [hlook, hne] at hu
  have hstream : look (sprayTake l d).fab.tx v {} = { sseq := 0, recs := [r] } := by rw [(InLink.of_sprayTake ..).tx, hlook, if_pos rfl]
  have hcut : cutStream 256 0 [r] = (r.bytes, some 0, [], [(r.head, r.tag)]) := by
    rw [cutStream, if_neg (by decide)]
    simp only [hstart, if_neg (show ¬256 < r.bytes.length by omega), cutStream, List.append_nil]
    rfl
  have hlen : 0 < r.bytes.length := List.length_pos_iff.mpr hsome
  refine act_does (f := cellSpray) rfl hruns fun e he => ?_
  obtain ⟨c, x, hc, hx, hrow⟩ : ∃ c x, (c.ctype = 1 ∧ c.dstDev.val = v ∧ c.sseq = 0 ∧ c.first = 0 ∧ c.payload = r.bytes ∧ c.fill.toNat = r.bytes.length - 1) ∧
      (look x.fab.tx v {} = { sseq := 1, recs := [] } ∧ (link l x).held = (link l d).held) ∧
      cellSpray d = free .fabric r.head r.tag (inc Pg.FCT 0 (sendCell l c x)) := by
    refine ⟨_, _, ?_, ?_, cellSpray_data hblk hagain hctl (by
      unfold sprayData
      simp only [hfind, spray_found hround, hstream, hcut]
      rfl)⟩
    · refine ⟨rfl, Nat.mod_eq_of_lt hv, rfl, rfl, rfl, ?_⟩
      exact (BitVec.toNat_ofNat ..).trans (Nat.mod_eq_of_lt (by omega))
    · refine ⟨?_, held_sprayTake l d⟩
      simp only [onFab, look_put_same]
      rfl
  rw [hrow] at he
  obtain ⟨htype, hdst, hsseq, hfirst, hpay, hfill⟩ := hc
  obtain ⟨htxx, hheldx⟩ := hx
  obtain ⟨o, hout, lseq, ack, ackv, ok, nakv, nak, ho⟩ := sendCell_sends l c x
  have hfab : e.fab.tx = x.fab.tx := by rw [he.fab, free_fab, (InLink.of_inc ..).tx, (sendCell_inLink ..).tx]
  have hheld : (link l e).held.length = (link l d).held.length + 1 := by
    rw [link_beside he, link_congr (congrArg Fab.links (free_fab ..)), link_inc, held_sendCell, hheldx]
  rw [hfab, htxx]
  refine ⟨rfl, rfl, o, he.mem_out ?_, ?_⟩
  · rw [free_out]
    exact (InLink.of_inc ..).outs _ hout
  · subst ho
    exact ⟨htype, hdst, hsseq, hfirst, hpay, hfill, hheld⟩

omit hruns hblk hagain in
theorem ctlMax_succ (kind : Nat) : ∃ k, ctlMax kind = k + 1 := by
  unfold ctlMax
  split <;> exact ⟨_, rfl⟩

omit hruns hblk hagain in
/-- A CONTROL cell with one record for device v. -/
theorem ctlCell_one {v : Nat} (kind r : Nat) (d : Dev) (hv : v < 64) : (ctlCell (some v) kind [r] d).ctype = 2 ∧ (ctlCell (some v) kind [r] d).bcast = false ∧
    (ctlCell (some v) kind [r] d).dstDev.val = v ∧ (ctlCell (some v) kind [r] d).count = 1 ∧
    (ctlCell (some v) kind [r] d).payload = beBytes (if kind = 0 then 8 else 32) r :=
  ⟨rfl, rfl, Nat.mod_eq_of_lt hv, rfl, List.append_nil _⟩

/-- The one control message leaves in a CONTROL cell (R372, R380). -/
theorem cellSpray_sendsControl {m : Ctl} {v l : Nat} (hctl : d.ctlQ = [m]) (hdst : m.dst = some v) (hv : v < 64) (hreach : reaches v d = true)
    (hround : sprayRound (2 ^ v) d = some l) : Does .cellSpray s fun e => e.ctlQ = [] ∧ ctr Pg.FCT 0x1010 e = (ctr Pg.FCT 0x1010 d + 1) % 2 ^ 64 ∧
      ∃ c, Out.cellOut l (cellBytes c) ∈ e.out ∧ c.ctype = 2 ∧ c.bcast = false ∧ c.dstDev.val = v ∧ c.count = 1 ∧
        c.payload = beBytes (if m.kind = 0 then 8 else 32) m.rec_ := by
  obtain ⟨k, hk⟩ := ctlMax_succ m.kind
  have hcontent := ctlCell_one m.kind m.rec_ d hv
  have hmask : cellMask (ctlCell (some v) m.kind [m.rec_] d) d = 2 ^ v := by
    obtain ⟨-, hbcast, hdev, -⟩ := hcontent
    rw [cellMask, hbcast, hdev]
    rfl
  have hcell : sprayCell (ctlCell (some v) m.kind [m.rec_] d) d =
      (true, sendCell l (ctlCell (some v) m.kind [m.rec_] d) (inc Pg.FCT 2 (sprayTake l d))) := by
    unfold sprayCell
    rw [hmask, spray_found hround]
    exact congrArg (fun x => (true, sendCell l _ x)) (if_pos hcontent.1)
  generalize hc : ctlCell (some v) m.kind [m.rec_] d = c at hcell hcontent
  have hq : (sendCell l c (inc Pg.FCT 2 (sprayTake l d))).ctlQ = [m] := by
    rw [(sendCell_inLink ..).ctlQ, (InLink.of_inc ..).ctlQ, (InLink.of_sprayTake ..).ctlQ, hctl]
  have hrow : sprayCtl d = (.left, { sendCell l c (inc Pg.FCT 2 (sprayTake l d)) with ctlQ := [] }) := by
    unfold sprayCtl
    simp only [hctl, List.find?_cons, hdst, hreach, List.filter_cons, beq_self_eq_true, Bool.and_self, if_true, List.filter_nil, hk, List.take_succ_cons,
      List.take_nil, List.map_cons, List.map_nil, hc, hcell, List.foldl_cons, List.foldl_nil, hq, List.erase_cons_head]
  refine act_does (f := cellSpray) rfl hruns fun e he => ?_
  rw [cellSpray_ctl hblk hagain hrow] at he
  obtain ⟨o, hout, lseq, ack, ackv, ok, nakv, nak, ho⟩ := sendCell_sends l c (inc Pg.FCT 2 (sprayTake l d))
  have hl := sprayRound_lt hround
  have hctr : ctr Pg.FCT 0x1010 (sendCell l c (inc Pg.FCT 2 (sprayTake l d))) = (ctr Pg.FCT 0x1010 d + 1) % 2 ^ 64 := by
    rw [ctr_sendCell_above _ _ _ (by simp only [fabPage, Pg.FAB, Pg.FCT]; omega)]
    exact ctr_inc_same Pg.FCT 2 (sprayTake l d)
  generalize sendCell l c (inc Pg.FCT 2 (sprayTake l d)) = x at he hout hctr
  refine ⟨he.ctlQ, ?_, o, he.mem_out hout, ?_⟩
  · rw [he.counts _ _ (by decide) (by decide) (by decide), ← hctr]
    rfl
  · subst ho
    exact hcontent

end

end Sys2Proof.Machine

/-! Devices out of reach, and links that lag (R372, R373). -/

namespace Sys2Proof.Machine

open Safety

/-! The packets held for a device that no link reaches (R372). -/

theorem drop_fab (code : Nat) (d : Dev) : (drop code d).fab = d.fab := by
  unfold drop
  split_ifs
  · rfl
  · exact (inc_tallies ..).fab
  · rfl

/-- One record held for a device is dropped with its chain. -/
def recDropped (d : Dev) (r : TxRec) : Dev := free .fabric r.head r.tag (inc Pg.FCT 12 (drop 0xC4 d))

theorem foldl_recDropped : ∀ (l : List TxRec) (d : Dev), (l.foldl recDropped d).fab = d.fab ∧
    look (l.foldl recDropped d).drops 0xC4 0 = look d.drops 0xC4 0 + l.length
  | [], d => ⟨rfl, rfl⟩
  | r :: l, d => by
    obtain ⟨hfab, hdrops⟩ := foldl_recDropped l (recDropped d r)
    have hf : (recDropped d r).fab = d.fab := by rw [recDropped, free_fab, (inc_tallies ..).fab, drop_fab]
    have hd : look (recDropped d r).drops 0xC4 0 = look d.drops 0xC4 0 + 1 := by
      rw [recDropped, (free_inChuck ..).drops, (inc_tallies ..).drops, look_drop_same (by decide)]
    rw [List.foldl_cons, hfab, hdrops, hf, hd, List.length_cons]
    exact ⟨rfl, by omega⟩

section
variable {v : Fin 64} {s : State} {d : Dev} (hruns : Runs 102 s d)
include hruns

theorem unreachableTimeout_leaves (h : (look d.fab.tx v.val {}).recs = [] ∨ reaches v.val d = true ∨
    ¬look d.fab.cutOff v.val d.fab.upAt + 1000000 ≤ d.mono) : Leaves (.unreachableTimeout v) s d := by
  refine act_leaves (f := unreachable v.val) rfl hruns ?_
  unfold unreachable
  exact if_pos (by rw [List.isEmpty_iff]; exact h.imp_right (Or.imp_right Nat.not_le.mp))

theorem unreachableTimeout_drops (hrecs : (look d.fab.tx v.val {}).recs ≠ []) (hreach : reaches v.val d = false)
    (hgone : look d.fab.cutOff v.val d.fab.upAt + 1000000 ≤ d.mono) : Does (.unreachableTimeout v) s fun e => (look e.fab.tx v.val {}).recs = [] ∧
      look e.drops 0xC4 0 = look d.drops 0xC4 0 + (look d.fab.tx v.val {}).recs.length ∧ bit (face Pg.FCT e).pend 3 = true := by
  let cut := onFab (fun f => { f with tx := put f.tx v.val {} { look d.fab.tx v.val {} with recs := [] } }) d
  have hrow : unreachable v.val d = fire Pg.FCT 3 ((look d.fab.tx v.val {}).recs.foldl recDropped cut) := by
    unfold unreachable
    exact if_neg (by rw [List.isEmpty_iff, hreach]; simp only [hrecs, Bool.false_eq_true, false_or]; omega)
  have hcut : (look cut.fab.tx v.val {}).recs = [] := by
    simp only [cut, onFab, look_put_same]
  obtain ⟨hfab, hdrops⟩ := foldl_recDropped (look d.fab.tx v.val {}).recs cut
  refine act_does (f := unreachable v.val) rfl hruns fun e he => ?_
  rw [hrow] at he
  rw [he.fab, he.drops, he.face, fire_fab, (fire_beside ..).drops, setFace_drops, hfab, hdrops]
  exact ⟨hcut, rfl, bit_pend_fire_same ..⟩

end

/-! The end of an interval (R373). -/

/-- The registers that show a link's lag, written at the end of an interval. -/
def lagShown (l ppm lat : Nat) (d : Dev) : Dev := lset FAB_LINKk_LAG.RETX_PPM l (min ppm 0xFFFF) (lset FAB_LINKk_LAG.LAT_NS l (min lat 0xFFFF) d)

section
variable {l k ppm lat : Nat} {d : Dev}

theorem lget_lagShown {f : Fld} (hf : f.ofLink = true) (hp : apart f FAB_LINKk_LAG.RETX_PPM = true) (hl : apart f FAB_LINKk_LAG.LAT_NS = true) :
    lget f k (lagShown l ppm lat d) = lget f k d := by
  rw [lagShown, lget_lset_ne _ hf (by decide) (.inr hp), lget_lset_ne _ hf (by decide) (.inr hl)]
theorem rget_lagShown {f : Fld} (hf : f.offLink = true) : rget f 0 0 (lagShown l ppm lat d) = rget f 0 0 d := by
  rw [lagShown, rget_lset_off _ hf (by decide), rget_lset_off _ hf (by decide)]

/-- An interval ends for a link whose latency was not measured and that no spare takes the place of: what it counted starts anew, its weight is
halved and it lags where too many cells were sent again, and it keeps its weight where it did not lag. Its state and the other links stay. -/
structure LagEnds (l ppm : Nat) (d e : Dev) : Prop where
  sent : (link l e).sent = 0
  resent : (link l e).resent = 0
  slow : rget FCT_X_LAG.RETX_PPM 0 0 d < ppm → lget FAB_LINKk_STAT.WEIGHT l e = lget FAB_LINKk_STAT.WEIGHT l d / 2 ∧ lget FAB_LINKk_STAT.LAGGING l e = 1 ∧
    (lget FAB_LINKk_STAT.LAGGING l d = 0 → bit (face (fabPage l) e).pend (8 + l % 8) = true)
  steady : ppm ≤ rget FCT_X_LAG.RETX_PPM 0 0 d → lget FAB_LINKk_STAT.LAGGING l d = 0 → lget FAB_LINKk_STAT.WEIGHT l e = lget FAB_LINKk_STAT.WEIGHT l d
  states : ∀ k, fabState k e = fabState k d

theorem lagLink_off (h : fabState l d ≠ 3) : lagLink l d = d := if_pos h

/-- The fields of a link's lag stand apart from its state. -/
theorem fabState_lset {f : Fld} (hf : f.ofLink = true) (ha : apart FAB_LINKk_STAT.STATE f = true) (v : Nat) : fabState k (lset f l v d) = fabState k d :=
  lget_lset_ne _ (by decide) hf (.inr ha) v

/-- A link that lags shows it, and says so once. -/
def lagFlagged (l : Nat) (e : Dev) : Dev :=
  if lget FAB_LINKk_STAT.LAGGING l e = 1 then e else fire (fabPage l) (8 + l % 8) (lset FAB_LINKk_STAT.LAGGING l 1 e)

theorem lget_lagFlagged {f : Fld} (hf : f.ofLink = true) (ha : apart f FAB_LINKk_STAT.LAGGING = true) : lget f k (lagFlagged l d) = lget f k d := by
  unfold lagFlagged
  split
  · rfl
  · rw [lget_fire, lget_lset_ne _ hf (by decide) (.inr ha)]
theorem lagging_lagFlagged : lget FAB_LINKk_STAT.LAGGING l (lagFlagged l d) = 1 := by
  unfold lagFlagged
  split
  · assumption
  · rw [lget_fire, lget_lset_same]
    rfl
theorem rget_lagFlagged {f : Fld} (hf : f.offLink = true) : rget f 0 0 (lagFlagged l d) = rget f 0 0 d := by
  unfold lagFlagged
  split
  · rfl
  · rw [rget_fire, rget_lset_off _ hf (by decide)]

section
variable (hst : fabState l d = 3) (hsent : (link l d).sent ≠ 0) (hlat : (link l d).latN = 0) (hppm : ppm = (link l d).resent * 1000000 / (link l d).sent)
include hst hsent hlat hppm

theorem lagLink_slow (hsub : rget FCT_X_LAG1.SUB_INT 0 0 d = 0) (hslow : rget FCT_X_LAG.RETX_PPM 0 0 d < ppm) : ∃ y, y.sent = 0 ∧ y.resent = 0 ∧
    lagLink l d = setLink l y (lset FAB_LINKk_STAT.WEIGHT l (lget FAB_LINKk_STAT.WEIGHT l d / 2) (lagFlagged l (lagShown l ppm 0 d))) := by
  have hw : lget FAB_LINKk_STAT.WEIGHT l (lagShown l ppm 0 d) = lget FAB_LINKk_STAT.WEIGHT l d := lget_lagShown (by decide) (by decide) (by decide)
  unfold lagLink
  rw [if_neg (by omega)]
  simp only [hsent, hlat, if_true, if_false, ← hppm]
  rw [if_pos (.inl (by rwa [← lagShown, rget_lagShown (by decide)]))]
  rw [if_neg]
  · exact ⟨_, rfl, rfl, by rw [← hw]; rfl⟩
  · intro h
    refine h.1 ?_
    rw [rget_setLink _ (by decide), rget_lset_off _ (by decide) (by decide)]
    exact (rget_lagFlagged (by decide)).trans ((rget_lagShown (by decide)).trans hsub)

variable (hfast : ppm ≤ rget FCT_X_LAG.RETX_PPM 0 0 d)
include hfast

theorem lagLink_steady (hlag : lget FAB_LINKk_STAT.LAGGING l (lagShown l ppm 0 d) ≠ 1) :
    lagLink l d = setLink l { link l d with sent := 0, resent := 0, latSum := 0, latN := 0 } (lagShown l ppm 0 d) := by
  unfold lagLink
  rw [if_neg (by omega)]
  simp only [hsent, hlat, if_true, if_false, ← hppm]
  rw [if_neg (by rw [← lagShown, rget_lagShown (by decide)]; omega)]
  exact if_neg hlag

theorem lagLink_recovers (hlag : lget FAB_LINKk_STAT.LAGGING l (lagShown l ppm 0 d) = 1) : ∃ y w, y.sent = 0 ∧ y.resent = 0 ∧ lagLink l d =
    if 64 ≤ w then lset FAB_LINKk_STAT.WEIGHT l 64 (lset FAB_LINKk_STAT.LAGGING l 0 (setLink l y (lagShown l ppm 0 d)))
    else lset FAB_LINKk_STAT.WEIGHT l w (setLink l y (lagShown l ppm 0 d)) := by
  unfold lagLink
  rw [if_neg (by omega)]
  simp only [hsent, hlat, if_true, if_false, ← hppm]
  rw [if_neg (by rw [← lagShown, rget_lagShown (by decide)]; omega)]
  exact ⟨_, _, rfl, rfl, if_pos hlag⟩

end

/-- What the end of an interval does to an ACTIVE link. -/
theorem lagLink_ends (hst : fabState l d = 3) (hsent : (link l d).sent ≠ 0) (hlat : (link l d).latN = 0)
    (hppm : ppm = (link l d).resent * 1000000 / (link l d).sent) (hsub : rget FCT_X_LAG1.SUB_INT 0 0 d = 0)
    (hw : lget FAB_LINKk_STAT.WEIGHT l d < 128) : LagEnds l ppm d (lagLink l d) := by
  have hshown (k : Nat) : fabState k (lagShown l ppm 0 d) = fabState k d := lget_lagShown (by decide) (by decide) (by decide)
  have hlagging : lget FAB_LINKk_STAT.LAGGING l (lagShown l ppm 0 d) = lget FAB_LINKk_STAT.LAGGING l d := lget_lagShown (by decide) (by decide) (by decide)
  have hweight : lget FAB_LINKk_STAT.WEIGHT l (lagShown l ppm 0 d) = lget FAB_LINKk_STAT.WEIGHT l d := lget_lagShown (by decide) (by decide) (by decide)
  by_cases hslow : rget FCT_X_LAG.RETX_PPM 0 0 d < ppm
  · obtain ⟨y, hys, hyr, hrow⟩ := lagLink_slow hst hsent hlat hppm hsub hslow
    refine ⟨by rw [hrow, link_setLink_same, hys], by rw [hrow, link_setLink_same, hyr], fun _ => ⟨?_, ?_, fun h0 => ?_⟩, fun h => absurd hslow (by omega),
      fun k => ?_⟩
    · rw [hrow, lget_setLink _ (by decide) (.inr (by decide)), lget_lset_same]
      exact Nat.mod_eq_of_lt (show _ < 128 by omega)
    · rw [hrow, lget_setLink _ (by decide) (.inr (by decide)), lget_lset_ne _ (by decide) (by decide) (.inr (by decide)), lagging_lagFlagged]
    · rw [hrow, lagFlagged, if_neg (by omega)]
      exact bit_pend_fire_same ..
    · rw [hrow, fabState_setLink, fabState_lset (by decide) (by decide), fabState, lget_lagFlagged (by decide) (by decide)]
      exact hshown k
  · by_cases hlag : lget FAB_LINKk_STAT.LAGGING l (lagShown l ppm 0 d) = 1
    · obtain ⟨y, w, hys, hyr, hrow⟩ := lagLink_recovers hst hsent hlat hppm (by omega) hlag
      have hlink : link l (lagLink l d) = y := by
        rw [hrow]
        split <;> exact link_setLink_same ..
      refine ⟨by rw [hlink, hys], by rw [hlink, hyr], fun h => absurd h hslow, fun _ h0 => absurd hlag (by omega), fun k => ?_⟩
      rw [hrow]
      split
      · rw [fabState_lset (by decide) (by decide), fabState_lset (by decide) (by decide), fabState_setLink, hshown]
      · rw [fabState_lset (by decide) (by decide), fabState_setLink, hshown]
    · have hrow := lagLink_steady hst hsent hlat hppm (by omega) hlag
      refine ⟨by rw [hrow, link_setLink_same], by rw [hrow, link_setLink_same], fun h => absurd h hslow, fun _ _ => ?_, fun k => ?_⟩
      · rw [hrow, lget_setLink _ (by decide) (.inr (by decide)), hweight]
      · rw [hrow, fabState_setLink, hshown]

/-- The end of an interval passes over links that are not ACTIVE. -/
theorem foldl_lagLink_off (L : List Nat) (h : ∀ k ∈ L, fabState k d ≠ 3) : L.foldl (fun d l => lagLink l d) d = d := by
  induction L with
  | nil => rfl
  | cons k L ih =>
    rw [List.foldl_cons, lagLink_off (h k (List.mem_cons_self ..))]
    exact ih fun j hj => h j (List.mem_cons_of_mem _ hj)

/-- Where link l alone is ACTIVE, the end of an interval is its own. -/
theorem foldl_lagLink_one {L : List Nat} (hnodup : L.Nodup) (hl : l ∈ L) (honly : ∀ k ∈ L, k ≠ l → fabState k d ≠ 3)
    (hkeeps : ∀ k, fabState k (lagLink l d) = fabState k d) : L.foldl (fun d l => lagLink l d) d = lagLink l d := by
  obtain ⟨before, after, hL⟩ := List.append_of_mem hl
  subst hL
  have hne := List.nodup_append.mp hnodup
  obtain ⟨-, hafter, hbefore⟩ := hne
  rw [List.foldl_append, foldl_lagLink_off before, List.foldl_cons, foldl_lagLink_off after]
  · intro k hk
    rw [hkeeps]
    exact honly k (by simp [hk]) fun heq => (List.nodup_cons.mp hafter).1 (heq ▸ hk)
  · intro k hk
    exact honly k (by simp [hk]) (hbefore k hk l (List.mem_cons_self ..))

end

section
variable {s : State} {d : Dev} (hruns : Runs 102 s d)
include hruns

/-- The device as the end of an interval finds it. -/
def lagDue (d : Dev) : Dev := { d with fab := { d.fab with lagAt := d.mono } }

omit hruns in
theorem lagCheck_due (h : d.fab.lagAt + rget FCT_X_LAG1.INT_US 0 0 d * 1000 ≤ d.mono) :
    lagCheck d = (List.range 168).foldl (fun d l => lagLink l d) (lagDue d) := if_neg (by omega)

theorem lagCheck_early (h : ¬d.fab.lagAt + rget FCT_X_LAG1.INT_US 0 0 d * 1000 ≤ d.mono) : Leaves .lagCheck s d :=
  act_leaves (f := lagCheck) rfl hruns (if_pos (by omega))

variable (hdue : d.fab.lagAt + rget FCT_X_LAG1.INT_US 0 0 d * 1000 ≤ d.mono)
include hdue

theorem lagCheck_idle (hoff : ∀ l < 168, fabState l d ≠ 3) : Leaves .lagCheck s (lagDue d) :=
  act_leaves (f := lagCheck) rfl hruns ((lagCheck_due hdue).trans (foldl_lagLink_off _ fun k hk => hoff k (List.mem_range.mp hk)))

theorem lagCheck_ends {l : Fin 168} (hst : fabState l.val d = 3) (honly : ∀ k < 168, k ≠ l.val → fabState k d ≠ 3) (hsent : (link l.val d).sent ≠ 0)
    (hlat : (link l.val d).latN = 0) (hw : lget FAB_LINKk_STAT.WEIGHT l.val d < 128) (hsub : rget FCT_X_LAG1.SUB_INT 0 0 d = 0) :
    Does .lagCheck s fun e => LagEnds l.val ((link l.val d).resent * 1000000 / (link l.val d).sent) d e := by
  have h := lagLink_ends (l := l.val) (d := lagDue d) hst hsent hlat rfl hsub hw
  refine act_does (f := lagCheck) rfl hruns fun e he => ?_
  rw [lagCheck_due hdue, foldl_lagLink_one (d := lagDue d) List.nodup_range (List.mem_range.mpr l.isLt) (fun k hk => honly k (List.mem_range.mp hk)) h.states] at he
  have hget (f : Fld) (k : Nat) : lget f k e = lget f k (lagLink l.val (lagDue d)) := he.rget ..
  exact ⟨by rw [link_beside he, h.sent], by rw [link_beside he, h.resent], fun hs => by rw [hget, hget, he.face]; exact h.slow hs,
    fun hs h0 => by rw [hget]; exact h.steady hs h0, fun k => by rw [fabState_beside he, h.states]; rfl⟩

end

end Sys2Proof.Machine

/-! Reassembly: the cells of a stream, its records and its holes (R377 to R379). -/

namespace Sys2Proof.Machine

open Safety

section
variable {v : Nat} {d e : Dev}

theorem rx_congr (h : e.fab = d.fab) : rxStream v e = rxStream v d := by rw [rxStream, rxStream, h]
@[simp] theorem rxStream_setRx (v : Nat) (x : RxStream) (d : Dev) : rxStream v (setRx v x d) = x := look_put_same ..
@[simp] theorem rget_setRx (f : Fld) (g i : Nat) (x : RxStream) : rget f g i (setRx v x d) = rget f g i d := rfl
@[simp] theorem setRx_drops (x : RxStream) : (setRx v x d).drops = d.drops := rfl

end

/-! The frame of parsing: the stream's place and the cells that it holds, and what was lost of it before. -/

/-- Device e is as far in source v's cells as d, with as many packets lost to gaps, and no pending bit has fallen. -/
structure Parsing (v : Nat) (d e : Dev) : Prop where
  exp : (rxStream v e).exp = (rxStream v d).exp
  cells : (rxStream v e).cells = (rxStream v d).cells
  drops : look e.drops 0xC0 0 = look d.drops 0xC0 0
  pends : Pends d e

namespace Parsing

variable {v : Nat} {a b c d e : Dev}

theorem refl (d : Dev) : Parsing v d d := ⟨rfl, rfl, rfl, fun _ _ h => h⟩
theorem trans (h : Parsing v a b) (k : Parsing v b c) : Parsing v a c :=
  ⟨k.exp.trans h.exp, k.cells.trans h.cells, k.drops.trans h.drops, fun p n hp => k.pends p n (h.pends p n hp)⟩
/-- What leaves the fabric's own state is a step of parsing as far as its drops and events are. -/
theorem of_fab (hfab : e.fab = d.fab) (hdrops : look e.drops 0xC0 0 = look d.drops 0xC0 0) (hp : Pends d e) : Parsing v d e := by
  have h := rx_congr (v := v) hfab
  exact ⟨congrArg RxStream.exp h, congrArg RxStream.cells h, hdrops, hp⟩
theorem of_inChuck (h : InChuck d e) : Parsing v d e := of_fab h.fab (by rw [h.drops]) h.pends
theorem of_inc (p k : Nat) (d : Dev) : Parsing v d (inc p k d) :=
  of_fab (inc_tallies ..).fab (by rw [(inc_tallies ..).drops]) fun q n hq => by rwa [face_inc]
theorem of_drop {code : Nat} (h : 0xC0 ≠ code) (d : Dev) : Parsing v d (drop code d) :=
  of_fab (drop_fab ..) (look_drop_ne h d) (Gains.of_drop (K := fun _ => True) code d).pends
theorem of_setRx {x : RxStream} (he : x.exp = (rxStream v d).exp) (hc : x.cells = (rxStream v d).cells) : Parsing v d (setRx v x d) :=
  ⟨by rw [rxStream_setRx, he], by rw [rxStream_setRx, hc], rfl, fun _ _ h => h⟩
theorem of_nextTag (k : Nat) (d : Dev) : Parsing v d (nextTag k d).2 := of_fab rfl rfl fun _ _ h => h
theorem of_toTm (a : Arrival) (d : Dev) : Parsing v d (toTm a d) := of_fab rfl rfl fun _ _ h => h

end Parsing

theorem deliver_parsing (v h : Nat) (bs : Bytes) (d : Dev) : Parsing v d (deliver v h bs d) := by
  unfold deliver
  dsimp only
  split
  · exact (Parsing.of_drop (by decide) d).trans (Parsing.of_inc ..)
  · have hchain := (Parsing.of_nextTag (v := v) (130 + v) d).trans
      (Parsing.of_inChuck (newChain_inChuck (fabPool (nextTag (130 + v) d).2) (nextTag (130 + v) d).1 .fabric bs (nextTag (130 + v) d).2))
    split
    next heq =>
      rw [heq] at hchain
      exact (hchain.trans (Parsing.of_drop (by decide) _)).trans (Parsing.of_inc ..)
    next heq =>
      rw [heq] at hchain
      exact hchain.trans (Parsing.of_toTm ..)

theorem parseRecs_parsing (v : Nat) : ∀ (k : Nat) (d : Dev), Parsing v d (parseRecs v k d)
  | 0, d => Parsing.refl d
  | k + 1, d => by
    unfold parseRecs
    dsimp only
    split_ifs
    · exact Parsing.refl d
    · have h := (Parsing.of_drop (v := v) (code := 0xC3) (by decide) d).trans (Parsing.of_inc Pg.FCT 14 _)
      refine h.trans (Parsing.of_setRx ?_ ?_)
      · exact h.exp.symm
      · exact h.cells.symm
    · exact Parsing.refl d
    · refine (Parsing.trans ?_ (deliver_parsing ..)).trans (parseRecs_parsing v k _)
      refine Parsing.of_setRx ?_ ?_ <;> rfl

theorem parseRecs_short {v : Nat} {d : Dev} (h : (rxStream v d).part.length < 32) (k : Nat) : parseRecs v k d = d := by
  cases k with
  | zero => rfl
  | succ k => exact if_pos h

theorem stageFree_inChuck (v : Nat) (c : RxCell) (d : Dev) : InChuck d (stageFree v c d) := InChuck.foldl _ (fun d h => free_inChuck .fabric h _ d) _ d

/-! One cell at EXP (R378). -/

/-- The stream once its cell at EXP, its only one, is taken: its bytes join the record in parse, those before a FIRST or without one fall to a
stream that waits for one. -/
def rxTaken (c : RxCell) (s : RxStream) : RxStream :=
  let t : RxStream := { s with cells := [], exp := (s.exp + 1) % 2 ^ 20, holeAt := none }
  if s.resync && c.first == 0x1FF then t else { t with part := s.part ++ (if s.resync then c.payload.drop c.first else c.payload), resync := false }

section
variable {v : Nat} {c : RxCell} {d : Dev} (hcells : (rxStream v d).cells = [((rxStream v d).exp, c)])
include hcells

theorem parseCells_one : parseCells v 1 d =
    parseRecs v (rxTaken c (rxStream v d)).part.length (stageFree v c (setRx v (rxTaken c (rxStream v d)) d)) := by
  have hdel : del (rxStream v d).cells (rxStream v d).exp = [] := by simp [hcells, del]
  unfold parseCells
  dsimp only
  rw [show find? (rxStream v d).cells (rxStream v d).exp = some c by simp [hcells, find?]]
  simp only [hdel]
  rfl

/-- A stream whose only cell stands at EXP holds none once it is parsed. -/
theorem rxAdvance_one : rxAdvance v d = setRx v { rxStream v (parseCells v 1 d) with holeAt := none } (parseCells v 1 d) := by
  have hnone : (rxStream v (parseCells v 1 d)).cells = [] := by
    rw [parseCells_one hcells, (parseRecs_parsing ..).cells, rx_congr (stageFree_inChuck ..).fab, rxStream_setRx]
    unfold rxTaken
    split <;> rfl
  unfold rxAdvance
  rw [show (rxStream v d).cells.length = 1 by rw [hcells]; rfl]
  simp only [hnone, List.isEmpty_nil, if_true]

/-- Its place is the next one, nothing more is lost to gaps, and no pending bit falls. -/
theorem rxAdvance_one_shows : (rxStream v (rxAdvance v d)).exp = ((rxStream v d).exp + 1) % 2 ^ 20 ∧ (rxStream v (rxAdvance v d)).cells = [] ∧
    look (rxAdvance v d).drops 0xC0 0 = look d.drops 0xC0 0 ∧ Pends d (rxAdvance v d) := by
  have hfreed := (Parsing.of_inChuck (v := v) (stageFree_inChuck v c (setRx v (rxTaken c (rxStream v d)) d))).trans
    (parseRecs_parsing v (rxTaken c (rxStream v d)).part.length _)
  rw [← parseCells_one hcells] at hfreed
  have htaken : (rxTaken c (rxStream v d)).exp = ((rxStream v d).exp + 1) % 2 ^ 20 ∧ (rxTaken c (rxStream v d)).cells = [] := by
    unfold rxTaken
    dsimp only
    split <;> exact ⟨rfl, rfl⟩
  rw [rxAdvance_one hcells, rxStream_setRx]
  exact ⟨by rw [hfreed.exp, rxStream_setRx, htaken.1], by rw [hfreed.cells, rxStream_setRx, htaken.2], hfreed.drops, hfreed.pends⟩

/-- A cell that does not complete a record's header joins the record in parse. -/
theorem rxAdvance_one_part (hsync : (rxStream v d).resync = false) (hshort : ((rxStream v d).part ++ c.payload).length < 32) :
    (rxStream v (rxAdvance v d)).part = (rxStream v d).part ++ c.payload := by
  have hpart : (rxTaken c (rxStream v d)).part = (rxStream v d).part ++ c.payload := by
    unfold rxTaken
    simp [hsync]
  have hstream : rxStream v (stageFree v c (setRx v (rxTaken c (rxStream v d)) d)) = rxTaken c (rxStream v d) := by
    rw [rx_congr (stageFree_inChuck ..).fab, rxStream_setRx]
  rw [rxAdvance_one hcells, rxStream_setRx, parseCells_one hcells, parseRecs_short (by rwa [hstream, hpart]), hstream]
  exact hpart

end

/-- A stream whose only cell lies behind EXP notes the hole (R378). -/
theorem rxAdvance_hole {v n : Nat} {c : RxCell} {d : Dev} (hcells : (rxStream v d).cells = [(n, c)]) (hne : (rxStream v d).exp ≠ n)
    (hhole : (rxStream v d).holeAt = none) : rxAdvance v d = setRx v { rxStream v d with holeAt := some d.mono } d := by
  have hparse : parseCells v 1 d = d := by
    unfold parseCells
    dsimp only
    rw [show find? (rxStream v d).cells (rxStream v d).exp = none by simp [hcells, find?, hne]]
  unfold rxAdvance
  rw [show (rxStream v d).cells.length = 1 by rw [hcells]; rfl, hparse]
  simp [hcells, hhole]

/-! A new chain in one cell (R244). -/

theorem storeCells_nil (n tag k prev : Nat) (d : Dev) : storeCells n tag k prev [] d = (prev, 0, 0, d) := by cases k <;> rfl

/-- The device once cell h, the oldest of pool n's cache, holds a packet's bytes as a chain of its own. -/
def chained (n tag h : Nat) (t : List Nat) (bs : Bytes) (d : Dev) : Dev :=
  storeCell h bs (setCell h { cell h (granted n tag h t false d) with refs := 1 } (granted n tag h t false d))

theorem newChain_cached {n tag h : Nat} {p : FreeParty} {t : List Nat} {bs : Bytes} {d : Dev} (hen : poolEn n d = true) (hc : (pool n d).cache = h :: t)
    (hfit : bs.length ≤ 64 * poolStep n d) : newChain n tag p bs d = (some h, chained n tag h t bs d) := by
  have hsize : cellSize h (granted n tag h t false d) = 64 * poolStep n d := by rw [cellSize, cell_granted_same, (granted_inChuck hc).poolStep n]
  unfold newChain
  rw [allocCell_cached hen hc]
  simp only [hsize, Nat.min_eq_left hfit, List.drop_length, List.take_length, storeCells_nil, if_true]
  rfl

theorem cell_chained (n tag h : Nat) (t : List Nat) (bs : Bytes) (d : Dev) : cell h (chained n tag h t bs d) =
    { alloc := true, owner := tag, pool := n, last := true, refs := 1, data := bs } := by
  rw [chained, cell_storeCell, cell_setCell_same, cell_granted_same]

/-! The row DATA_CELL_RECEIVE (R377). -/

theorem sum_put_le (t : Tbl RxStream) (k : Nat) {x : RxStream} (hx : x.cells = []) :
    (put t k {} x).foldl (fun a x => a + x.2.cells.length) 0 ≤ t.foldl (fun a x => a + x.2.cells.length) 0 := by
  have hsum (l : Tbl RxStream) (a : Nat) : l.foldl (fun a x => a + x.2.cells.length) a = a + (l.map (·.2.cells.length)).sum := by
    induction l generalizing a with
    | nil => simp
    | cons x l ih => rw [List.foldl_cons, ih, List.map_cons, List.sum_cons, Nat.add_assoc]
  rw [hsum, hsum, Nat.zero_add, Nat.zero_add]
  unfold put
  split
  · exact List.Sublist.sum_le_sum ((List.filter_sublist).map _) fun _ _ => Nat.zero_le _
  · induction t with
    | nil => simp [ins, hx]
    | cons y t ih =>
      unfold ins
      split_ifs
      · simp [hx]
      · simp [hx]
      · simpa using ih

section
variable {c : Cell} {s : State} {d : Dev} (hruns : Runs 102 s d)
include hruns

theorem dataCellReceive_elsewhere (h : c.dstDev.val ≠ devId d) : Does (.dataCellReceive c) s fun e =>
    e.fab = d.fab ∧ ctr Pg.FCT 0x1038 e = (ctr Pg.FCT 0x1038 d + 1) % 2 ^ 64 := by
  refine act_does (f := dataReceive c) rfl hruns fun e he => ?_
  rw [dataReceive, if_pos h] at he
  rw [he.fab, he.counts _ _ (by decide) (by decide) (by decide)]
  exact ⟨(inc_tallies ..).fab, ctr_inc_same Pg.FCT 7 d⟩

variable (hdst : c.dstDev.val = devId d) (hstart : (rxStream c.srcDev.val d).started = true) (hgen : (rxStream c.srcDev.val d).sgen = c.sgen.toNat)
include hdst hstart hgen

omit hruns hdst hstart hgen in
/-- A DATA cell that has found its staging cell is entered in the tracker; without one it is dropped. -/
def dataEntered (c : Cell) : Option Nat × Dev → Dev
  | (none, d) => inc Pg.FCT 5 d
  | (some h, d) => rxAdvance c.srcDev.val (setRx c.srcDev.val { rxStream c.srcDev.val d with
      cells := ins (rxStream c.srcDev.val d).cells c.sseq.toNat { first := c.first.toNat, payload := c.payload.take (c.fill.toNat + 1), cells := [h] } } d)

omit hruns in
/-- A DATA cell of the stream's generation restarts nothing. -/
theorem dataReceive_current : dataReceive c d =
    let v := c.srcDev.val
    let x := rxStream v d
    let d := setRx v x d
    if 2 ^ 19 ≤ (c.sseq.toNat + 2 ^ 20 - x.exp) % 2 ^ 20 ∨ has x.cells c.sseq.toNat then inc Pg.FCT 7 d
    else if 131072 ≤ trackerUsed d then inc Pg.FCT 5 d
    else dataEntered c (newChain (fabPool d) (stageTag v) .fabric (c.payload.take (c.fill.toNat + 1)) d) := by
  have hsame : (c.sgen.toNat + 16 - (rxStream c.srcDev.val d).sgen) % 16 = 0 := by rw [hgen, Nat.add_sub_cancel_left]
  have hrx : rxStart c (rxStream c.srcDev.val d) = some (rxStream c.srcDev.val d) := by
    unfold rxStart
    simp only [hstart, Bool.not_true, Bool.false_eq_true, if_false, hsame, if_true]
  unfold dataReceive
  rw [if_neg (by simp [hdst])]
  simp only [hrx, ne_eq, not_true_eq_false, decide_false, Bool.and_false, Bool.false_eq_true, if_false]
  rfl

theorem dataCellReceive_repeated (hhas : has (rxStream c.srcDev.val d).cells c.sseq.toNat = true) : Does (.dataCellReceive c) s fun e =>
    rxStream c.srcDev.val e = rxStream c.srcDev.val d ∧ ctr Pg.FCT 0x1038 e = (ctr Pg.FCT 0x1038 d + 1) % 2 ^ 64 := by
  refine act_does (f := dataReceive c) rfl hruns fun e he => ?_
  rw [dataReceive_current hdst hstart hgen] at he
  dsimp only at he
  rw [if_pos (.inr hhas)] at he
  rw [rx_congr he.fab, he.counts _ _ (by decide) (by decide) (by decide), rx_congr (inc_tallies ..).fab, rxStream_setRx]
  exact ⟨rfl, ctr_inc_same Pg.FCT 7 _⟩

section
variable (hcells : (rxStream c.srcDev.val d).cells = []) (hroom : trackerUsed d < 131072) (hen : poolEn (fabPool d) d = true) {h : Nat} {t : List Nat}
  (hc : (pool (fabPool d) d).cache = h :: t) (hfit : (c.payload.take (c.fill.toNat + 1)).length ≤ 64 * poolStep (fabPool d) d)
  (hnear : (c.sseq.toNat + 2 ^ 20 - (rxStream c.srcDev.val d).exp) % 2 ^ 20 < 2 ^ 19)
include hcells hroom hen hc hfit hnear

omit hruns in
/-- An accepted DATA cell stands in the tracker with the staging cell that holds it. -/
theorem dataReceive_enters : ∃ x, dataReceive c d = rxAdvance c.srcDev.val x ∧ x.mono = d.mono ∧ rxStream c.srcDev.val x =
    { rxStream c.srcDev.val d with
      cells := [(c.sseq.toNat, { first := c.first.toNat, payload := c.payload.take (c.fill.toNat + 1), cells := [h] })] } := by
  have hused : ¬131072 ≤ trackerUsed (setRx c.srcDev.val (rxStream c.srcDev.val d) d) := by
    have hle : trackerUsed (setRx c.srcDev.val (rxStream c.srcDev.val d) d) ≤ trackerUsed d := sum_put_le d.fab.rx c.srcDev.val hcells
    omega
  have hchain := congrArg Prod.fst
    (newChain_cached (n := fabPool d) (tag := stageTag c.srcDev.val) (p := .fabric) (d := setRx c.srcDev.val (rxStream c.srcDev.val d) d) hen hc hfit)
  have hin := newChain_inChuck (fabPool d) (stageTag c.srcDev.val) .fabric (c.payload.take (c.fill.toNat + 1))
    (setRx c.srcDev.val (rxStream c.srcDev.val d) d)
  have hrow := dataReceive_current hdst hstart hgen
  dsimp only at hrow
  rw [if_neg (by rw [hcells]; simpa [has] using hnear), if_neg hused] at hrow
  rw [show fabPool (setRx c.srcDev.val (rxStream c.srcDev.val d) d) = fabPool d from rfl] at hrow
  generalize newChain (fabPool d) (stageTag c.srcDev.val) .fabric (c.payload.take (c.fill.toNat + 1)) (setRx c.srcDev.val (rxStream c.srcDev.val d) d) = r
    at hchain hin hrow
  obtain ⟨o, y⟩ := r
  obtain rfl : o = some h := hchain
  have hstream : rxStream c.srcDev.val y = rxStream c.srcDev.val d := (rx_congr hin.fab).trans (rxStream_setRx ..)
  refine ⟨_, hrow, hin.mono, ?_⟩
  rw [rxStream_setRx, hstream, hcells]
  rfl

/-- The next cell of a stream joins the record in parse (R377, R378). -/
theorem dataCellReceive_next (hsync : (rxStream c.srcDev.val d).resync = false) (hnext : c.sseq.toNat = (rxStream c.srcDev.val d).exp)
    (hshort : ((rxStream c.srcDev.val d).part ++ c.payload.take (c.fill.toNat + 1)).length < 32) : Does (.dataCellReceive c) s fun e =>
      (rxStream c.srcDev.val e).exp = ((rxStream c.srcDev.val d).exp + 1) % 2 ^ 20 ∧
      (rxStream c.srcDev.val e).part = (rxStream c.srcDev.val d).part ++ c.payload.take (c.fill.toNat + 1) ∧ (rxStream c.srcDev.val e).cells = [] := by
  obtain ⟨x, hrow, -, hx⟩ := dataReceive_enters hdst hstart hgen hcells hroom hen hc hfit hnear
  have hone : (rxStream c.srcDev.val x).cells =
      [((rxStream c.srcDev.val x).exp, { first := c.first.toNat, payload := c.payload.take (c.fill.toNat + 1), cells := [h] })] := by
    rw [hx, hnext]
  obtain ⟨hexp, hnone, -, -⟩ := rxAdvance_one_shows hone
  have hpart := rxAdvance_one_part hone (by rw [hx]; exact hsync) (by rw [hx]; exact hshort)
  refine act_does (f := dataReceive c) rfl hruns fun e he => ?_
  rw [hrow] at he
  rw [rx_congr he.fab, hexp, hpart, hnone, hx]
  exact ⟨rfl, rfl, rfl⟩

/-- A cell behind a hole waits in the tracker (R377, R378). -/
theorem dataCellReceive_waits (hne : c.sseq.toNat ≠ (rxStream c.srcDev.val d).exp) (hhole : (rxStream c.srcDev.val d).holeAt = none) :
    Does (.dataCellReceive c) s fun e => (rxStream c.srcDev.val e).exp = (rxStream c.srcDev.val d).exp ∧
      (rxStream c.srcDev.val e).cells = [(c.sseq.toNat, { first := c.first.toNat, payload := c.payload.take (c.fill.toNat + 1), cells := [h] })] ∧
      (rxStream c.srcDev.val e).holeAt = some d.mono := by
  obtain ⟨x, hrow, hmono, hx⟩ := dataReceive_enters hdst hstart hgen hcells hroom hen hc hfit hnear
  refine act_does (f := dataReceive c) rfl hruns fun e he => ?_
  rw [hrow, rxAdvance_hole (by rw [hx]) (by rw [hx]; exact hne.symm) (by rw [hx]; exact hhole)] at he
  rw [rx_congr he.fab, rxStream_setRx, hx, hmono]
  exact ⟨rfl, rfl, rfl⟩

end

end

/-! The row HOLE_TIMEOUT (R378). -/

/-- Records that are lost with the hole before cell c, of number n: the one in parse, and one that its bytes belong to. -/
def holeLost (n : Nat) (c : RxCell) (s : RxStream) : Nat :=
  let gap := (n + 2 ^ 20 - s.exp) % 2 ^ 20 * 256
  let inParse := if s.part.isEmpty then 0 else 1
  let same := inParse == 1 && (match partLacks s.part with | some m => decide (gap < m) | none => true)
  max 1 (inParse + b2n (c.first != 0 && !same))

theorem holeLost_pos (n : Nat) (c : RxCell) (s : RxStream) : 1 ≤ holeLost n c s := le_max_left ..

theorem holeLost_one (n : Nat) (c : RxCell) {s : RxStream} (h : s.part = []) : holeLost n c s = 1 := by
  have hb (b : Bool) : max 1 (0 + b2n b) = 1 := by cases b <;> rfl
  unfold holeLost
  rw [h]
  exact hb _

section
variable {v : Fin 64} {s : State} {d : Dev} (hruns : Runs 102 s d)
include hruns

theorem holeTimeout_leaves (h : (rxStream v.val d).cells = [] ∨
    ¬∀ t, (rxStream v.val d).holeAt = some t → t + rget FCT_X_LINK.REORDER_NS 0 0 d ≤ d.mono) : Leaves (.holeTimeout v) s d := by
  refine act_leaves (f := holeTimeout v.val) rfl hruns ?_
  unfold holeTimeout
  dsimp only
  split
  · rfl
  next hleast =>
    refine if_pos ?_
    obtain hnone | hyoung := h
    · rw [hnone] at hleast
      cases hleast
    · push Not at hyoung
      obtain ⟨t, ht, hlt⟩ := hyoung
      rw [ht]
      exact decide_eq_true hlt

omit hruns in
theorem repeat_drop (k : Nat) (d : Dev) : (Nat.repeat (drop 0xC0) k d).fab = d.fab ∧ look (Nat.repeat (drop 0xC0) k d).drops 0xC0 0 = look d.drops 0xC0 0 + k := by
  induction k with
  | zero => exact ⟨rfl, rfl⟩
  | succ k ih =>
    refine ⟨(drop_fab ..).trans ih.1, ?_⟩
    rw [Nat.repeat, look_drop_same (by decide), ih.2]
    rfl

theorem holeTimeout_passes {n : Nat} {c : RxCell} (hcells : (rxStream v.val d).cells = [(n, c)])
    (hdue : ∀ t, (rxStream v.val d).holeAt = some t → t + rget FCT_X_LINK.REORDER_NS 0 0 d ≤ d.mono) : Does (.holeTimeout v) s fun e =>
      (rxStream v.val e).exp = (n + 1) % 2 ^ 20 ∧ (rxStream v.val e).cells = [] ∧ look d.drops 0xC0 0 + 1 ≤ look e.drops 0xC0 0 ∧
      ((rxStream v.val d).part = [] → look e.drops 0xC0 0 = look d.drops 0xC0 0 + 1) ∧ bit (face Pg.FCT e).pend 6 = true := by
  have hold : ((rxStream v.val d).holeAt.any fun t => decide (d.mono < t + rget FCT_X_LINK.REORDER_NS 0 0 d)) = false := by
    cases hat : (rxStream v.val d).holeAt with
    | none => rfl
    | some t => exact decide_eq_false (by have := hdue t hat; omega)
  have hrow : holeTimeout v.val d = rxAdvance v.val (setRx v.val { rxStream v.val d with exp := n, part := [], resync := true, holeAt := none }
      (fire Pg.FCT 6 (inc Pg.FCT 6 (Nat.repeat (drop 0xC0) (holeLost n c (rxStream v.val d)) d)))) := by
    unfold holeTimeout
    simp only [hcells, leastBy, List.foldl_nil, hold, Bool.false_eq_true, if_false]
    rfl
  obtain ⟨hfab, hdrops⟩ := repeat_drop (holeLost n c (rxStream v.val d)) d
  generalize hy : fire Pg.FCT 6 (inc Pg.FCT 6 (Nat.repeat (drop 0xC0) (holeLost n c (rxStream v.val d)) d)) = y at hrow
  have hyd : look y.drops 0xC0 0 = look d.drops 0xC0 0 + holeLost n c (rxStream v.val d) := by
    rw [← hy, (fire_beside ..).drops, setFace_drops, (inc_tallies ..).drops, hdrops]
  have hyp : bit (face Pg.FCT y).pend 6 = true := hy ▸ bit_pend_fire_same ..
  obtain ⟨hexp, hnone, hkept, hpends⟩ := rxAdvance_one_shows (v := v.val) (c := c)
    (d := setRx v.val { rxStream v.val d with exp := n, part := [], resync := true, holeAt := none } y) (by rw [rxStream_setRx]; exact hcells)
  have hlost := holeLost_pos n c (rxStream v.val d)
  refine act_does (f := holeTimeout v.val) rfl hruns fun e he => ?_
  rw [hrow] at he
  rw [rx_congr he.fab, he.drops, he.face, hexp, hnone, hkept, rxStream_setRx, setRx_drops, hyd]
  exact ⟨rfl, rfl, by omega, fun hpart => by rw [holeLost_one n c hpart], hpends _ _ hyp⟩

end

/-- Settles O33: each clause is the lemma of its row. -/
theorem fabricCells : Obligations.FabricCells := by
  unfold Obligations.FabricCells
  refine ⟨fun l bs nc nu s d hline => ?_, fun l n s d h hruns hheld => ?_, fun s d hruns => ?_, fun v s d hruns => ?_, fun s d hruns => ?_,
    fun c s d hruns => ?_, fun v s d hruns => ?_⟩
  · exact ⟨cellReceive_countsBad hline, cellReceive_countsGood hline, cellReceive_locks hline,
      fun hgood hup => cellReceive_accepts hline hgood hup.1 hup.2, fun hgood hup => cellReceive_repeats hline hgood hup.1 hup.2,
      fun h hgood hup => cellReceive_frees hline hgood hup.1 hup.2, fun h hgood hup => cellReceive_resends hline hgood hup.1 hup.2⟩
  · exact ⟨cellReplayTimeout_leaves hruns hheld, linkReplayFail_leaves hruns hheld,
      fun hseq hdue hfew => cellReplayTimeout_resends hruns hheld hdue hseq hfew,
      fun hmany hdue hst hauto => ⟨linkReplayFail_fails hruns hheld hdue hmany hst hauto, cellReplayTimeout_fails hruns hheld hdue hmany hst hauto⟩⟩
  · exact ⟨cellSpray_off hruns, fun v l r hblk hagain => cellSpray_sendsData hruns hblk hagain,
      fun m v l hblk hagain => cellSpray_sendsControl hruns hblk hagain⟩
  · exact ⟨unreachableTimeout_leaves hruns, unreachableTimeout_drops hruns⟩
  · refine ⟨lagCheck_early hruns, lagCheck_idle hruns, fun l hdue hst honly => ?_⟩
    intro x ppm w hsent hlat hw hsub
    obtain ⟨t, hexec, hpend, h⟩ := lagCheck_ends hruns hdue hst honly hsent hlat hw hsub
    exact ⟨t, hexec, hpend, h.sent, h.resent, h.slow, h.steady⟩
  · refine ⟨dataCellReceive_elsewhere hruns, dataCellReceive_repeated hruns, fun h t hdst hstart hgen hcells hsync hroom hen hc hfit => ⟨?_, ?_⟩⟩
    · intro hnext hshort
      have hnear : (c.sseq.toNat + 2 ^ 20 - (rxStream c.srcDev.val d).exp) % 2 ^ 20 < 2 ^ 19 := by rw [hnext, Nat.add_sub_cancel_left]; decide
      exact dataCellReceive_next hruns hdst hstart hgen hcells hroom hen hc hfit hnear hsync hnext hshort
    · intro hne hnear
      exact dataCellReceive_waits hruns hdst hstart hgen hcells hroom hen hc hfit hnear hne
  · exact ⟨holeTimeout_leaves hruns, fun n c => holeTimeout_passes hruns⟩

end Sys2Proof.Machine

/-! The deep buffer's writes, free blocks and streams: what each operation leaves (R275 to R284, R311). -/

namespace Sys2Proof.Machine

open Safety

theorem Tallies.tm {d e : Dev} (h : Tallies d e) : e.tm = d.tm := by have k := congrArg Dev.tm h.kept; exact k
theorem Tallies.hbm {d e : Dev} (h : Tallies d e) : e.hbm = d.hbm := by have k := congrArg Dev.hbm h.kept; exact k

/-! Streams and queues under updates. -/

section
variable (q : Nat) (d : Dev)

theorem stream_congr {d e : Dev} (h : e.hbm.streams = d.hbm.streams) (q : Nat) : stream q e = stream q d := by rw [stream, stream, h]
theorem queue_congr {d e : Dev} (h : e.tm = d.tm) (q : Nat) : queue q e = queue q d := by rw [queue, queue, h]
@[simp] theorem stream_setStream (s : Stream) : stream q (setStream q s d) = s := look_put_same ..
@[simp] theorem queue_setStream (k : Nat) (s : Stream) : queue k (setStream q s d) = queue k d := rfl
@[simp] theorem queue_modQueue (f : Queue → Queue) : queue q (modQueue q f d) = f (queue q d) := queue_setQueue_same ..
@[simp] theorem stream_modQueue (k : Nat) (f : Queue → Queue) : stream k (modQueue q f d) = stream k d := rfl
@[simp] theorem stream_onTm (f : Tm → Tm) : stream q (onTm f d) = stream q d := rfl

end

/-! The frame: the traffic manager, the streams and the counts of lost packets stay, and no pending bit falls. -/

/-- Device e has d's queues, streams and drops, and d's pending bits. -/
structure Stores (d e : Dev) : Prop where
  tm : e.tm = d.tm
  streams : e.hbm.streams = d.hbm.streams
  drops : e.drops = d.drops
  pends : Pends d e

namespace Stores

variable {a b c d e : Dev}

theorem refl (d : Dev) : Stores d d := ⟨rfl, rfl, rfl, fun _ _ h => h⟩
theorem trans (h : Stores a b) (k : Stores b c) : Stores a c :=
  ⟨k.tm.trans h.tm, k.streams.trans h.streams, k.drops.trans h.drops, fun p n hp => k.pends p n (h.pends p n hp)⟩
theorem of_ite {p : Prop} [Decidable p] (h : Stores a b) (k : Stores a c) : Stores a (if p then b else c) := by
  split <;> assumption
theorem foldl {β : Type} (f : Dev → β → Dev) (hf : ∀ d x, Stores d (f d x)) : ∀ (l : List β) (d : Dev), Stores d (l.foldl f d)
  | [], d => refl d
  | x :: l, d => (hf d x).trans (foldl f hf l _)

theorem of_inChuck (h : InChuck d e) : Stores d e := ⟨h.tm, by rw [h.hbm], h.drops, h.pends⟩
theorem of_tallies (h : Tallies d e) : Stores d e := ⟨h.tm, by rw [h.hbm], h.drops, fun p n hp => by rwa [face, h.faces]⟩
theorem of_rset (f : Fld) (g i v : Nat) (d : Dev) : Stores d (rset f g i v d) := ⟨rfl, rfl, rfl, fun _ _ h => h⟩
theorem of_onHbm {f : Hbm → Hbm} (h : (f d.hbm).streams = d.hbm.streams) : Stores d (onHbm f d) := ⟨rfl, h, rfl, fun _ _ h => h⟩
theorem of_fire (p n : Nat) (d : Dev) : Stores d (fire p n d) :=
  have h := fire_beside p n d
  ⟨h.tm, by rw [h.hbm]; rfl, h.drops, (Gains.of_fire (K := fun _ => True) p n d).pends⟩
theorem of_overrun (p : Nat) (d : Dev) : Stores d (overrun p d) :=
  have h := overrun_beside p d
  ⟨h.tm, by rw [h.hbm]; rfl, h.drops, (Gains.of_overrun (K := fun _ => True) p d).pends⟩

theorem queue (h : Stores d e) (q : Nat) : Machine.queue q e = Machine.queue q d := queue_congr h.tm q
theorem stream (h : Stores d e) (q : Nat) : Machine.stream q e = Machine.stream q d := stream_congr h.streams q

end Stores

theorem hwdLog_stores (kind type inst code data : Nat) (d : Dev) : Stores d (hwdLog kind type inst code data d) := by
  obtain h | ⟨v, h⟩ := hwdLog_tallies kind type inst code data d
  · exact Stores.of_tallies h
  · exact (Stores.of_rset ..).trans (Stores.of_tallies h)

theorem loadImg_stores (r : Reg) (g i img : Nat) (d : Dev) : Stores d (loadImg r g i img d) := Stores.foldl _ (fun d _ => Stores.of_rset _ g i _ d) _ d

theorem hbmLatch_stores (kind h : Nat) (d : Dev) : Stores d (hbmLatch kind h d) := by
  unfold hbmLatch
  have hlog (p a : Nat) (d : Dev) : Stores d (eccLog p a d) := (hwdLog_stores ..).trans ⟨rfl, rfl, rfl, fun _ _ h => h⟩
  exact Stores.of_ite (Stores.refl d) ((loadImg_stores ..).trans (hlog ..))

theorem openRow_stores (h : Nat) (d : Dev) : Stores d (openRow h d) := ⟨rfl, rfl, rfl, fun _ _ h => h⟩
theorem setPcFree_stores (pc : Nat) (p : PcFree) (d : Dev) : Stores d (setPcFree pc p d) :=
  ((Stores.of_onHbm rfl).trans (Stores.of_rset ..)).trans (Stores.of_rset ..)
theorem outst_stores (h : Nat) (f : Nat → Nat) (d : Dev) : Stores d (outst h f d) := Stores.of_rset ..
theorem readMark_stores (h : Nat) (d : Dev) : Stores d (readMark h d) := Stores.of_onHbm rfl

theorem writeIssue_stores (w : WrCmd) (d : Dev) : Stores d (writeIssue w d) := by
  unfold writeIssue
  dsimp only
  refine (((openRow_stores w.handle d).trans (b := openRow w.handle d) ?_).trans (Stores.of_tallies (inc_tallies ..))).trans
    (Stores.foldl _ (fun t x => Stores.of_inChuck (free_inChuck ..)) _ _)
  split
  · exact (Stores.of_rset ..).trans (Stores.of_onHbm rfl)
  · exact Stores.of_onHbm rfl

theorem serveWrites_stores (pc : Nat) : ∀ (k : Nat) (d : Dev), Stores d (serveWrites pc k d)
  | 0, d => Stores.refl d
  | k + 1, d => by
    unfold serveWrites
    extract_lets q n rest mine d1 d2
    have h : Stores d d2 := (Stores.foldl _ (fun t w => writeIssue_stores w t) _ d).trans (Stores.of_onHbm rfl)
    exact Stores.of_ite h (h.trans (serveWrites_stores pc k _))

theorem writes_stores (pc : Nat) (d : Dev) : Stores d (writes pc d) := serveWrites_stores ..
theorem blockStore_stores (w : WrCmd) (d : Dev) : Stores d (blockStore w d) := (Stores.of_onHbm rfl).trans (writes_stores ..)

theorem freeBlock_stores (h : Nat) (d : Dev) : Stores d (freeBlock h d) := by
  unfold freeBlock
  exact Stores.of_ite (setPcFree_stores ..) ((setPcFree_stores ..).trans (blockStore_stores ..))

/-! Writes that release no chain leave the cells as they are. -/

/-- No write that waits or is queued releases a chain. -/
def NoRel (d : Dev) : Prop := (∀ pc, ∀ w ∈ writeQueue pc d, w.rel = []) ∧ ∀ w ∈ d.hbm.wwait, w.rel = []

theorem NoRel.of_hbm {d e : Dev} (h : NoRel d) (hq : e.hbm.wq = d.hbm.wq) (hw : e.hbm.wwait = d.hbm.wwait) : NoRel e :=
  ⟨fun pc w hm => h.1 pc w (by rwa [writeQueue, hq] at hm), fun w hm => h.2 w (hw ▸ hm)⟩

theorem mem_foldl_erase {α : Type} [BEq α] [LawfulBEq α] {x : α} : ∀ (m l : List α), x ∈ m.foldl (fun l y => l.erase y) l → x ∈ l
  | [], _, h => h
  | _ :: m, _, h => List.mem_of_mem_erase (mem_foldl_erase m _ h)

theorem setPcFree_noRel {d : Dev} (h : NoRel d) (pc : Nat) (p : PcFree) : NoRel (setPcFree pc p d) := h.of_hbm rfl rfl

theorem writeIssue_quiet {w : WrCmd} (hw : w.rel = []) (d : Dev) :
    (writeIssue w d).chk = d.chk ∧ (writeIssue w d).hbm.wq = d.hbm.wq ∧ (writeIssue w d).hbm.wwait = d.hbm.wwait := by
  unfold writeIssue
  dsimp only
  rw [hw, List.foldl_nil, (inc_tallies ..).chk, (inc_tallies ..).hbm]
  split <;> exact ⟨rfl, rfl, rfl⟩

theorem foldl_writeIssue_quiet : ∀ (l : List WrCmd) (d : Dev), (∀ w ∈ l, w.rel = []) →
    (l.foldl (fun t w => writeIssue w t) d).chk = d.chk ∧ (l.foldl (fun t w => writeIssue w t) d).hbm.wq = d.hbm.wq ∧
      (l.foldl (fun t w => writeIssue w t) d).hbm.wwait = d.hbm.wwait
  | [], d, _ => ⟨rfl, rfl, rfl⟩
  | w :: l, d, h => by
    obtain ⟨hchk, hwq, hwait⟩ := writeIssue_quiet (h w (List.mem_cons_self ..)) d
    obtain ⟨kchk, kwq, kwait⟩ := foldl_writeIssue_quiet l (writeIssue w d) fun y hy => h y (List.mem_cons_of_mem _ hy)
    exact ⟨kchk.trans hchk, kwq.trans hwq, kwait.trans hwait⟩

theorem serveWrites_quiet (pc : Nat) : ∀ (k : Nat) {d : Dev}, NoRel d → (serveWrites pc k d).chk = d.chk ∧ NoRel (serveWrites pc k d)
  | 0, _, h => ⟨rfl, h⟩
  | k + 1, d, h => by
    unfold serveWrites
    extract_lets q n rest mine d1 d2
    obtain ⟨hchk, hwq, hwait⟩ := foldl_writeIssue_quiet (q.take n) d fun w hw => h.1 pc w (List.mem_of_mem_take hw)
    have hmine : ∀ w ∈ mine, w.rel = [] := fun w hw => h.2 w (List.mem_of_mem_filter (List.mem_of_mem_take hw))
    have hd2 : NoRel d2 := by
      refine ⟨fun p w hw => ?_, fun w hw => h.2 w ?_⟩
      · by_cases hp : p = pc
        · subst hp
          have hmem : w ∈ rest ++ mine := by
            simpa only [writeQueue, d2, onHbm, look_put_same] using hw
          exact (List.mem_append.mp hmem).elim (fun hr => h.1 p w (List.mem_of_mem_drop hr)) (hmine w)
        · refine h.1 p w ?_
          rw [writeQueue] at hw ⊢
          simp only [d2, onHbm] at hw
          rwa [look_put_ne _ _ _ _ hp, show d1.hbm.wq = d.hbm.wq from hwq] at hw
      · have hmem := mem_foldl_erase mine d1.hbm.wwait hw
        rwa [show d1.hbm.wwait = d.hbm.wwait from hwait] at hmem
    split
    · exact ⟨hchk, hd2⟩
    · obtain ⟨kchk, krel⟩ := serveWrites_quiet pc k hd2
      exact ⟨kchk.trans hchk, krel⟩

theorem blockStore_quiet {w : WrCmd} {d : Dev} (hw : w.rel = []) (h : NoRel d) : (blockStore w d).chk = d.chk ∧ NoRel (blockStore w d) := by
  have hin : NoRel (onHbm (fun x => { x with wwait := x.wwait ++ [w] }) d) := by
    refine ⟨h.1, fun y hy => ?_⟩
    obtain hy | hy := List.mem_append.mp hy
    · exact h.2 y hy
    · rw [List.mem_singleton.mp hy]; exact hw
  exact serveWrites_quiet _ _ hin

theorem freeBlock_quiet {d : Dev} (k : NoRel d) (h : Nat) : (freeBlock h d).chk = d.chk ∧ NoRel (freeBlock h d) := by
  unfold freeBlock
  dsimp only
  split
  · exact ⟨rfl, setPcFree_noRel k ..⟩
  · exact blockStore_quiet rfl (setPcFree_noRel k ..)

theorem foldl_freeBlock_quiet : ∀ (l : List Nat) {d : Dev}, NoRel d →
    (l.foldl (fun t h => freeBlock h t) d).chk = d.chk ∧ NoRel (l.foldl (fun t h => freeBlock h t) d)
  | [], _, h => ⟨rfl, h⟩
  | x :: l, d, h => by
    obtain ⟨hchk, hrel⟩ := freeBlock_quiet h x
    obtain ⟨kchk, krel⟩ := foldl_freeBlock_quiet l hrel
    exact ⟨kchk.trans hchk, krel⟩

/-- Where no write is at hand none releases a chain. -/
theorem noRel_of_none {d : Dev} (hq : d.hbm.wq = []) (hw : d.hbm.wwait = []) : NoRel d := by
  refine ⟨fun pc w hm => ?_, fun w hm => ?_⟩
  · rw [writeQueue, hq] at hm
    cases hm
  · rw [hw] at hm
    cases hm

end Sys2Proof.Machine

/-! The spill writer: blocks reserved, bytes laid, and what a packet without a block leaves (R275 to R278, R311). -/

namespace Sys2Proof.Machine

open Safety

/-! The allocator of blocks (R277, R278). -/

/-- Device e has d's pseudo-channels but for their free blocks. -/
structure PcKept (d e : Dev) : Prop where
  state : ∀ k < 128, pcState k e = pcState k d
  temp : ∀ k < 128, flag HBM_TEMP.NOALLOC (k / 32) 0 e = flag HBM_TEMP.NOALLOC (k / 32) 0 d
  blocks : ∀ k < 128, pcBlocks k e = pcBlocks k d
  queues : ∀ k, writeQueue k e = writeQueue k d
  en : ∀ p, blkEn p e = blkEn p d

/-- With its free blocks as they were a pseudo-channel is usable as before. -/
theorem PcKept.usable {d e : Dev} (h : PcKept d e) {k : Nat} (hk : k < 128) (hfree : pcFree k e = pcFree k d) : pcUsable k e = pcUsable k d := by
  have hcount : pcFreeCount k e = pcFreeCount k d := by unfold pcFreeCount; rw [hfree, h.blocks k hk]
  unfold pcUsable
  rw [h.state k hk, h.temp k hk, hcount, h.queues, h.en]

theorem PcKept.of_same {d e : Dev} (hflds : e.flds = d.flds) (hfaces : e.faces = d.faces) (hq : e.hbm.wq = d.hbm.wq) : PcKept d e where
  state _ _ := rget_congr (by rw [hflds])
  temp _ _ := congrArg (· != 0) (rget_congr (by rw [hflds]))
  blocks _ _ := by
    have hget (f : Fld) (g i : Nat) : rget f g i e = rget f g i d := rget_congr (by rw [hflds])
    rw [pcBlocks, pcBlocks, hget, hget]
  queues _ := by rw [writeQueue, writeQueue, hq]
  en _ := by rw [blkEn, blkEn, face, face, hfaces]

section
variable {pc : Nat} {p : PcFree} {d : Dev}

theorem rget_setPcFree {f : Fld} {g i : Nat} (hfree : f.key g i ≠ HBM_PCk_STAT.FREE.key (pc / 32) (pc % 32))
    (htotal : f.key g i ≠ HBM_FREE_TOTAL.FREE.key 0 0) : rget f g i (setPcFree pc p d) = rget f g i d := by
  unfold setPcFree
  extract_lets old d1 n d2
  rw [rget_rset_ne _ _ htotal, rget_rset_ne _ _ hfree]
  rfl

theorem setPcFree_kept : PcKept d (setPcFree pc p d) where
  state k hk := rget_setPcFree
    (by simp only [Fld.key, Reg.addr, Reg.lay, HBM_PCk_STAT.STATE, HBM_PCk_STAT.FREE]; omega)
    (by simp only [Fld.key, Reg.addr, Reg.lay, HBM_PCk_STAT.STATE, HBM_FREE_TOTAL.FREE]; omega)
  temp k hk := congrArg (· != 0) (rget_setPcFree
    (by simp only [Fld.key, Reg.addr, Reg.lay, HBM_TEMP.NOALLOC, HBM_PCk_STAT.FREE]; omega)
    (by simp only [Fld.key, Reg.addr, Reg.lay, HBM_TEMP.NOALLOC, HBM_FREE_TOTAL.FREE]; omega))
  blocks k hk := by
    unfold pcBlocks
    rw [rget_setPcFree (f := HBM_ID.BANKS), rget_setPcFree (f := HBM_ID.ROWS)] <;>
      simp only [Fld.key, Reg.addr, Reg.lay, HBM_ID.BANKS, HBM_ID.ROWS, HBM_PCk_STAT.FREE, HBM_FREE_TOTAL.FREE] <;> omega
  queues _ := rfl
  en _ := rfl

@[simp] theorem pcFree_setPcFree_same : pcFree pc (setPcFree pc p d) = p := look_put_same ..
theorem pcFree_setPcFree_ne {k : Nat} (h : k ≠ pc) : pcFree k (setPcFree pc p d) = pcFree k d := look_put_ne _ _ _ _ h

theorem popBlock_cached {h : Nat} {t : List Nat} (rs : List BlockRead) (hc : (pcFree pc d).cache = h :: t) :
    popBlock pc rs d = (h, rs, setPcFree pc { pcFree pc d with cache := t } d) := by
  unfold popBlock
  simp only [hc]

end

/-- Every pseudo-channel that the allocator may use has n blocks in its cache, and there is one. -/
structure Stocked (n : Nat) (d : Dev) : Prop where
  cached : ∀ pc < 128, pcUsable pc d = true → n ≤ (pcFree pc d).cache.length
  usable : ∃ pc < 128, pcUsable pc d = true

theorem pcUsable_of_cached {pc : Nat} {d e : Dev} (h : PcKept d e) (hpc : pc < 128) (hu : pcUsable pc d = true) (hc : (pcFree pc e).cache ≠ []) :
    pcUsable pc e = true := by
  have hlen : 0 < (pcFree pc e).cache.length := List.length_pos_iff.mpr hc
  have hcount : pcFreeCount pc e ≠ 0 := by unfold pcFreeCount; dsimp only; omega
  unfold pcUsable at hu ⊢
  simp only [Bool.and_eq_true] at hu ⊢
  rw [h.state pc hpc, h.temp pc hpc, h.queues, h.en]
  exact ⟨⟨⟨hu.1.1.1, bne_iff_ne.mpr hcount⟩, hu.1.2⟩, hu.2⟩

/-- An allocation from stocked caches is granted and leaves them stocked (R278). -/
theorem allocBlock_stocked {n : Nat} {d : Dev} (h : Stocked (n + 1) d) (rs : List BlockRead) :
    ∃ b e, allocBlock rs d = (some b, rs, e) ∧ (0 < n → Stocked n e) ∧ Stores d e := by
  obtain ⟨hcached, u, hu, huse⟩ := h
  cases hfind : (List.range 128).find? fun i => pcUsable ((d.hbm.ptr + i) % 128) d with
  | none =>
    have hno := List.find?_eq_none.mp hfind ((u + 128 - d.hbm.ptr % 128) % 128) (List.mem_range.mpr (by omega))
    rw [show (d.hbm.ptr + (u + 128 - d.hbm.ptr % 128) % 128) % 128 = u by omega] at hno
    exact absurd huse hno
  | some i =>
    have hpc : (d.hbm.ptr + i) % 128 < 128 := Nat.mod_lt _ (by decide)
    have hpcu : pcUsable ((d.hbm.ptr + i) % 128) d = true := by simpa using List.find?_some hfind
    generalize hp : (d.hbm.ptr + i) % 128 = pc at hpc hpcu
    have hlen := hcached pc hpc hpcu
    obtain ⟨b, t, hc⟩ : ∃ b t, (pcFree pc d).cache = b :: t := List.exists_cons_of_length_pos (by omega)
    let d1 := onHbm (fun x => { x with ptr := (pc + 1) % 128 }) d
    have hpop : popBlock pc rs d1 = (b, rs, setPcFree pc { pcFree pc d with cache := t } d1) := popBlock_cached (d := d1) rs hc
    have hkept : PcKept d (setPcFree pc { pcFree pc d with cache := t } d1) :=
      have h := setPcFree_kept (p := { pcFree pc d with cache := t }) (d := d1)
      ⟨h.state, h.temp, h.blocks, h.queues, h.en⟩
    have hsame (k : Nat) (hk : k ≠ pc) : pcFree k (setPcFree pc { pcFree pc d with cache := t } d1) = pcFree k d := pcFree_setPcFree_ne hk
    have ht : (pcFree pc (setPcFree pc { pcFree pc d with cache := t } d1)).cache = t := by rw [pcFree_setPcFree_same]
    rw [hc, List.length_cons] at hlen
    refine ⟨b, setPcFree pc { pcFree pc d with cache := t } d1, ?_, fun hn => ⟨fun k hk hku => ?_, pc, hpc, ?_⟩, ?_⟩
    · unfold allocBlock
      simp only [hfind, hp]
      rw [show onHbm (fun x => { x with ptr := (pc + 1) % 128 }) d = d1 from rfl, hpop]
    · by_cases hkp : k = pc
      · subst hkp
        rw [ht]
        omega
      · rw [hkept.usable hk (hsame k hkp)] at hku
        rw [hsame k hkp]
        have := hcached k hk hku
        omega
    · refine pcUsable_of_cached hkept hpc hpcu ?_
      rw [ht]
      exact List.length_pos_iff.mp (by omega)
    · exact (Stores.of_onHbm rfl).trans (setPcFree_stores ..)

theorem reserve_stocked {n : Nat} (rs : List BlockRead) : ∀ (k : Nat) {d : Dev}, Stocked (k + (n + 1)) d →
    ∃ l e, reserve k rs d = (some l, rs, e) ∧ l.length = k ∧ Stocked (n + 1) e ∧ Stores d e
  | 0, d, h => ⟨[], d, rfl, rfl, by simpa using h, Stores.refl d⟩
  | k + 1, d, h => by
    obtain ⟨b, e1, halloc, hleft, hs1⟩ := allocBlock_stocked (n := k + (n + 1)) (by rwa [Nat.add_right_comm] at h) rs
    obtain ⟨l, e2, hres, hlen, hst, hs2⟩ := reserve_stocked rs k (hleft (by omega))
    refine ⟨b :: l, e2, ?_, by rw [List.length_cons, hlen], hst, hs1.trans hs2⟩
    unfold reserve
    rw [halloc]
    simp only [hres]

/-- With no pseudo-channel to use the allocator refuses. -/
theorem allocBlock_none {d : Dev} (h : ∀ pc < 128, pcUsable pc d = false) (rs : List BlockRead) : allocBlock rs d = (none, rs, d) := by
  unfold allocBlock
  rw [List.find?_eq_none.mpr fun i _ => by rw [h _ (Nat.mod_lt _ (by decide))]; simp]

theorem reserve_none {d : Dev} {k : Nat} (hk : 0 < k) (h : ∀ pc < 128, pcUsable pc d = false) (rs : List BlockRead) : reserve k rs d = (none, rs, d) := by
  obtain ⟨n, rfl⟩ := Nat.exists_eq_succ_of_ne_zero hk.ne'
  unfold reserve
  rw [allocBlock_none h]

/-! Laying bytes (R275, R276). -/

/-- Device e has d's queues and queue q's records, and n more bytes in its stream. -/
structure Laid (q n : Nat) (d e : Dev) : Prop where
  tm : e.tm = d.tm
  recs : (stream q e).recs = (stream q d).recs
  wpos : (stream q e).wpos = (stream q d).wpos + n

theorem Laid.trans {q m n : Nat} {a b c : Dev} (h : Laid q m a b) (k : Laid q n b c) : Laid q (m + n) a c :=
  ⟨k.tm.trans h.tm, k.recs.trans h.recs, by rw [k.wpos, h.wpos, Nat.add_assoc]⟩

theorem Laid.refl (q : Nat) (d : Dev) : Laid q 0 d d := ⟨rfl, rfl, rfl⟩

/-- No block of the stream is being filled, and those allocated in advance hold n bytes. -/
def Shut (q n : Nat) (d : Dev) : Prop := (∀ y ∈ (stream q d).blocks, y.at_ ≠ .filling) ∧ n ≤ 256 * (stream q d).pre.length

/-- The last block alone is being filled, and it and those allocated in advance hold n bytes more. -/
def Filling (q n : Nat) (d : Dev) : Prop := ∃ w b, (stream q d).blocks = w ++ [b] ∧ (∀ y ∈ w, y.at_ ≠ .filling) ∧ b.at_ = .filling ∧ b.used < 256 ∧
  n ≤ 256 - b.used + 256 * (stream q d).pre.length

section
variable {q : Nat} {d : Dev} {w : List Blk} {b : Blk}

theorem find_filling (hw : ∀ y ∈ w, y.at_ ≠ .filling) (hb : b.at_ = .filling) : (w ++ [b]).find? (·.at_ == .filling) = some b := by
  rw [List.find?_append, List.find?_eq_none.mpr fun y hy => by simpa using hw y hy]
  simp [hb]

/-- A change of the filling block leaves the others. -/
theorem map_filling (hw : ∀ y ∈ w, y.at_ ≠ .filling) {P : Blk → Prop} [DecidablePred P] (hP : ∀ y, P y → y.at_ = .filling) (hPb : P b)
    (f : Blk → Blk) : (w ++ [b]).map (fun x => if P x then f x else x) = w ++ [f b] := by
  rw [List.map_append, List.map_cons, List.map_nil, if_pos hPb]
  congr 1
  conv_rhs => rw [← List.map_id w]
  exact List.map_congr_left fun y hy => if_neg fun h => hw y hy (hP y h)

theorem closeTail_laid (q : Nat) (d : Dev) : Laid q 0 d (closeTail q d) := by
  unfold closeTail
  dsimp only
  split
  · exact Laid.refl q d
  · have h := blockStore_stores
    exact ⟨(h ..).tm, by rw [(h ..).stream, stream_setStream], by rw [(h ..).stream, stream_setStream]; rfl⟩

theorem closeTail_shuts (hblocks : (stream q d).blocks = w ++ [b]) (hw : ∀ y ∈ w, y.at_ ≠ .filling) (hb : b.at_ = .filling) :
    (∀ y ∈ (stream q (closeTail q d)).blocks, y.at_ ≠ .filling) ∧ (stream q (closeTail q d)).pre = (stream q d).pre := by
  unfold closeTail
  simp only [hblocks, find_filling hw hb]
  rw [(blockStore_stores ..).stream, stream_setStream]
  refine ⟨fun y hy => ?_, rfl⟩
  rw [map_filling hw (fun y h => h.2) ⟨rfl, hb⟩] at hy
  obtain hy | hy := List.mem_append.mp hy
  · exact hw y hy
  · rw [List.mem_singleton.mp hy]
    exact BlkAt.noConfusion

end

/-- Bytes that the stream's blocks can hold are laid. -/
theorem layBytes_lays (q : Nat) : ∀ (k : Nat) (start : Bool) (bs : Bytes) (d : Dev),
    (Shut q bs.length d ∧ 2 * bs.length ≤ k ∨ Filling q bs.length d ∧ 2 * bs.length ≤ k + 1) → Laid q bs.length d (layBytes q k start bs d)
  | 0, start, bs, d, h => by
    have hnil : bs.length = 0 := by omega
    rw [hnil]
    exact Laid.refl q d
  | k + 1, start, bs, d, h => by
    unfold layBytes
    by_cases hbs : bs = []
    · subst hbs
      exact Laid.refl q d
    have hpos : 0 < bs.length := List.length_pos_iff.mpr hbs
    rw [if_neg (by simpa using hbs)]
    obtain ⟨⟨hshut, hfit⟩, hfuel⟩ | ⟨⟨w, b, hblocks, hw, hb, hused, hfit⟩, hfuel⟩ := h
    · obtain ⟨x, t, hpre⟩ : ∃ x t, (stream q d).pre = x :: t := List.exists_cons_of_length_pos (by omega)
      have hfind : (stream q d).blocks.find? (·.at_ == .filling) = none := List.find?_eq_none.mpr fun y hy => by simpa using hshut y hy
      simp only [hfind, hpre]
      generalize hd1 : setStream q _ d = d1
      have hs1 : stream q d1 = { stream q d with
          blocks := (stream q d).blocks ++ [{ handle := x, seq := (stream q d).seq, ofs := (stream q d).wpos, used := 0 }], pre := t,
          seq := ((stream q d).seq + 1) % 32768 } := by rw [← hd1, stream_setStream]
      have hlaid : Laid q 0 d d1 := ⟨by rw [← hd1]; rfl, by rw [hs1], by rw [hs1]; rfl⟩
      rw [hpre, List.length_cons] at hfit
      have hnext := layBytes_lays q k start bs d1 (.inr ⟨⟨_, _, by rw [hs1], hshut, rfl, Nat.zero_lt_succ _, by rw [hs1]; show _ ≤ 256 - 0 + 256 * t.length; omega⟩, by omega⟩)
      simpa using hlaid.trans hnext
    · have hfind : (stream q d).blocks.find? (·.at_ == .filling) = some b := by rw [hblocks, find_filling hw hb]
      simp only [hfind]
      generalize hm : min bs.length (256 - b.used) = m
      generalize hb1 : ({ b with used := b.used + m, first := _ } : Blk) = b1
      have hb1f : b1.at_ = .filling := by rw [← hb1]; exact hb
      have hb1u : b1.used = b.used + m := by rw [← hb1]
      generalize hd1 : setStream q _ d = d1
      have hs1 : stream q d1 = { stream q d with blocks := w ++ [b1], wpos := (stream q d).wpos + m, buf := (stream q d).buf ++ bs.take m } := by
        rw [← hd1, stream_setStream, hblocks, map_filling hw (P := fun y => y = b) (fun y h => h ▸ hb) rfl]
      have hlaid : Laid q m d d1 := ⟨by rw [← hd1]; rfl, by rw [hs1], by rw [hs1]⟩
      have hdrop : (bs.drop m).length = bs.length - m := List.length_drop ..
      have htotal : m + (bs.drop m).length = bs.length := by omega
      have hblocks1 : (stream q d1).blocks = w ++ [b1] := by rw [hs1]
      have hpre1 : (stream q d1).pre = (stream q d).pre := by rw [hs1]
      split
      next hfull =>
        obtain ⟨hshut, hpre⟩ := closeTail_shuts hblocks1 hw hb1f
        have hnext := layBytes_lays q k false (bs.drop m) (closeTail q d1) (.inl ⟨⟨hshut, by rw [hpre, hpre1]; omega⟩, by omega⟩)
        have := (hlaid.trans (closeTail_laid q d1)).trans hnext
        rwa [Nat.add_zero, htotal] at this
      next hpart =>
        have hnext := layBytes_lays q k false (bs.drop m) d1 (.inr ⟨⟨w, b1, hblocks1, hw, hb1f, by omega, by rw [hpre1, hb1u]; omega⟩, by omega⟩)
        have := hlaid.trans hnext
        rwa [htotal] at this

/-! The packet's bytes (R257). -/

theorem dataBad_of_clean {g n : Nat} {d : Dev} (h : dataSeen g n d = .clean) : dataBad g n d = none := by
  unfold dataSeen at h
  dsimp only at h
  split at h
  · cases h
  next hno =>
    refine List.find?_eq_none.mpr fun x hx hbad => hno ?_
    rw [granBad] at hbad
    exact List.any_eq_true.mpr ⟨x, hx, hbad⟩

/-- A packet in one clean cell is read whole; what is corrected is counted. -/
theorem readChain_one {p : FreeParty} {x : Desc} {d : Dev} (hmeta : metaSeen x.head d = .clean) (hlast : (cell x.head d).last = true)
    (hdata : dataSeen x.head (poolStep (cell x.head d).pool d) d = .clean) :
    ∃ k, readChain p x d = (0, (x.rebuilt.getD (cell x.head d).data).take x.len, incBy Pg.CHK 8 k d) := by
  unfold readChain readWalk
  rw [metaCheck_clean hmeta]
  simp only [dataBad_of_clean hdata, hlast, Bool.false_eq_true, if_false, true_or, if_true]
  exact ⟨_, rfl⟩

/-! A packet that leaves its queue by a drop (R311, R312). -/

/-- Device e is d but for the requests and the balance of VOQ q. -/
structure Emptied (q : Nat) (d e : Dev) : Prop where
  pkts : (queue q e).pkts = (queue q d).pkts
  bytes : (queue q e).bytes = (queue q d).bytes
  spilled : (queue q e).spilled = (queue q d).spilled
  spillPkts : (queue q e).spillPkts = (queue q d).spillPkts
  spillIn : e.tm.spillIn = d.tm.spillIn
  hbm : e.hbm = d.hbm
  chk : e.chk = d.chk
  drops : e.drops = d.drops
  faces : e.faces = d.faces

theorem Emptied.refl (q : Nat) (d : Dev) : Emptied q d d := ⟨rfl, rfl, rfl, rfl, rfl, rfl, rfl, rfl, rfl⟩
theorem Emptied.trans {q : Nat} {a b c : Dev} (h : Emptied q a b) (k : Emptied q b c) : Emptied q a c :=
  ⟨k.pkts.trans h.pkts, k.bytes.trans h.bytes, k.spilled.trans h.spilled, k.spillPkts.trans h.spillPkts, k.spillIn.trans h.spillIn, k.hbm.trans h.hbm,
    k.chk.trans h.chk, k.drops.trans h.drops, k.faces.trans h.faces⟩

theorem setQueue_emptied {q : Nat} {x : Queue} {d : Dev} (hpkts : x.pkts = (queue q d).pkts) (hbytes : x.bytes = (queue q d).bytes)
    (hspilled : x.spilled = (queue q d).spilled) (hspill : x.spillPkts = (queue q d).spillPkts) : Emptied q d (setQueue q x d) := by
  have h := queue_setQueue_same q x d
  exact ⟨by rw [h, hpkts], by rw [h, hbytes], by rw [h, hspilled], by rw [h, hspill], rfl, rfl, rfl, rfl, rfl⟩

theorem sendReq_emptied (q : Nat) (on : Bool) (d : Dev) : Emptied q d (sendReq q on d) := by
  unfold sendReq creditReq sendCtl
  extract_lets x seq e
  have he : Emptied q d e := setQueue_emptied rfl rfl rfl rfl
  split
  · split
    · exact he
    · exact he.trans ⟨rfl, rfl, rfl, rfl, rfl, rfl, rfl, rfl, rfl⟩
  · split
    · exact he.trans ⟨rfl, rfl, rfl, rfl, rfl, rfl, rfl, rfl, rfl⟩
    · exact he

theorem voqEmptied_emptied (q : Nat) (d : Dev) : Emptied q d (voqEmptied q d) := by
  unfold voqEmptied
  extract_lets x e
  have he : Emptied q d e := setQueue_emptied rfl rfl rfl rfl
  split
  · split
    · exact he.trans (sendReq_emptied ..)
    · exact he
  · exact Emptied.refl q d

/-- What a spilled packet takes with it when it is dropped. -/
theorem spillGone_emptied (q : Nat) (x : Desc) (d : Dev) : Emptied q
    (modQueue q (fun s => { s with bytes := s.bytes - x.len, spillPkts := s.spillPkts - 1, spillBytes := s.spillBytes - x.len }) d) (spillGone q x d) :=
  voqEmptied_emptied ..

/-- A stream without blocks ends, or its queue still has spilled packets: neither moves a free block or a counter. -/
theorem streamEnd_empty {q : Nat} {d : Dev} (hblocks : (stream q d).blocks = []) (hpre : (stream q d).pre = []) :
    (streamEnd q d).tm.spillIn = d.tm.spillIn ∧ (streamEnd q d).hbm.pcs = d.hbm.pcs ∧ (streamEnd q d).hbm.mem = d.hbm.mem ∧
      (streamEnd q d).drops = d.drops ∧ (queue q (streamEnd q d)).spillPkts = (queue q d).spillPkts ∧ (queue q (streamEnd q d)).bytes = (queue q d).bytes ∧
      (streamEnd q d).faces = d.faces := by
  unfold streamEnd
  dsimp only
  split
  · simp only [hblocks, hpre, List.filter_nil, List.map_nil, List.append_nil, List.foldl_nil]
    refine ⟨rfl, rfl, rfl, rfl, ?_, ?_, rfl⟩ <;> rw [queue_modQueue] <;> rfl
  · exact ⟨rfl, rfl, rfl, rfl, rfl, rfl, rfl⟩

/-! The row SPILL_WRITE (R276). -/

section
variable {rs : List BlockRead} {s : State} {d : Dev} {q : Nat} {x : Desc} {rest : List (Nat × Desc)} (hruns : Runs 102 s d)
  (hin : d.tm.spillIn = (q, x) :: rest) (hmeta : metaSeen x.head d = .clean) (hlast : (cell x.head d).last = true)
  (hdata : dataSeen x.head (poolStep (cell x.head d).pool d) d = .clean) (hblocks : (stream q d).blocks = []) (hpre : (stream q d).pre = [])
include hruns hin hmeta hlast hdata hblocks hpre

/-- The device once the packet is taken from the writer's input and read. -/
def spillRead (rest : List (Nat × Desc)) (k : Nat) (d : Dev) : Dev := incBy Pg.CHK 8 k (onTm (fun t => { t with spillIn := rest }) d)

omit hruns hin hmeta hlast hdata hblocks hpre in
theorem spillRead_tallies (k : Nat) : Tallies (onTm (fun t => { t with spillIn := rest }) d) (spillRead rest k d) := incBy_tallies ..

omit hruns hin hmeta hlast hdata hblocks hpre in
theorem stream_spillRead (k : Nat) : stream q (spillRead rest k d) = stream q d := by
  rw [stream_congr (congrArg Hbm.streams (spillRead_tallies (rest := rest) (d := d) k).hbm)]
  rfl

omit hruns hin hmeta hlast hdata hblocks hpre in
theorem spillRead_kept (k : Nat) : PcKept d (spillRead rest k d) :=
  have h := spillRead_tallies (rest := rest) (d := d) k
  PcKept.of_same h.flds h.faces (by rw [h.hbm]; rfl)

/-- Without a block the packet is dropped (R276). -/
theorem spillWrite_drops (hnone : ∀ pc < 128, pcUsable pc d = false) : Does (.spillWrite rs) s fun e => e.tm.spillIn = rest ∧ e.hbm.pcs = d.hbm.pcs ∧
    e.hbm.mem = d.hbm.mem ∧ look e.drops 0xD2 0 = look d.drops 0xD2 0 + 1 ∧ (queue q e).spillPkts = (queue q d).spillPkts - 1 ∧
    (queue q e).bytes = (queue q d).bytes - x.len ∧ bit (face Pg.HBM e).pend 8 = true := by
  obtain ⟨k, hread⟩ := readChain_one (p := .hbm) (d := onTm (fun t => { t with spillIn := rest }) d) hmeta hlast hdata
  have hstream := stream_spillRead (q := q) (rest := rest) (d := d) k
  have hfree := free_inChuck .hbm x.head x.tag (fire Pg.HBM 8 (inc Pg.HBM 8 (drop 0xD2 (spillRead rest k d))))
  have hsize : 0 < newBlocks (stream q d) (32 + x.len) := by
    rw [newBlocks, hblocks]
    show 0 < (32 + x.len + 255) / 256
    omega
  have hres := reserve_none hsize (fun pc hpc => by
    rw [(spillRead_kept (rest := rest) (d := d) k).usable hpc (by rw [pcFree, (spillRead_tallies k).hbm]; rfl)]; exact hnone pc hpc) rs
  have hrow : spillWrite rs d = streamEnd q (spillGone q x (free .hbm x.head x.tag (fire Pg.HBM 8 (inc Pg.HBM 8 (drop 0xD2 (spillRead rest k d)))))) := by
    unfold spillWrite
    simp only [hin, hread]
    rw [show incBy Pg.CHK 8 k (onTm (fun t => { t with spillIn := rest }) d) = spillRead rest k d from rfl]
    simp only [hstream, hpre, List.length_nil, Nat.sub_zero, hres, ne_eq, not_true_eq_false, if_false]
  have hdropped : (drop 0xD2 (spillRead rest k d)).tm = (onTm (fun t => { t with spillIn := rest }) d).tm ∧ (drop 0xD2 (spillRead rest k d)).hbm = d.hbm ∧
      look (drop 0xD2 (spillRead rest k d)).drops 0xD2 0 = look d.drops 0xD2 0 + 1 := by
    have h := spillRead_tallies (rest := rest) (d := d) k
    refine ⟨(drop_tm ..).trans h.tm, h.hbm, ?_⟩
    rw [look_drop_same (by decide), h.drops]
    rfl
  obtain ⟨htm, hhbm, hdrops⟩ := hdropped
  generalize drop 0xD2 (spillRead rest k d) = y at hfree hrow htm hhbm hdrops
  have hfired := Stores.of_fire Pg.HBM 8 (inc Pg.HBM 8 y)
  have hfreed : (free .hbm x.head x.tag (fire Pg.HBM 8 (inc Pg.HBM 8 y))).tm = (onTm (fun t => { t with spillIn := rest }) d).tm ∧
      (free .hbm x.head x.tag (fire Pg.HBM 8 (inc Pg.HBM 8 y))).hbm = d.hbm ∧
      look (free .hbm x.head x.tag (fire Pg.HBM 8 (inc Pg.HBM 8 y))).drops 0xD2 0 = look d.drops 0xD2 0 + 1 ∧
      bit (face Pg.HBM (free .hbm x.head x.tag (fire Pg.HBM 8 (inc Pg.HBM 8 y)))).pend 8 = true := by
    refine ⟨?_, ?_, ?_, hfree.pends _ _ (bit_pend_fire_same ..)⟩
    · rw [hfree.tm, hfired.tm, (inc_tallies ..).tm, htm]
    · rw [hfree.hbm, (fire_beside ..).hbm]
      show (inc Pg.HBM 8 y).hbm = _
      rw [(inc_tallies ..).hbm, hhbm]
    · rw [hfree.drops, hfired.drops, (inc_tallies ..).drops, hdrops]
  obtain ⟨ftm, fhbm, fdrops, fpend⟩ := hfreed
  generalize free .hbm x.head x.tag (fire Pg.HBM 8 (inc Pg.HBM 8 y)) = z at hrow ftm fhbm fdrops fpend
  have hgone := spillGone_emptied q x z
  have hz : queue q z = queue q d := by rw [queue, ftm]; rfl
  have hgs : stream q (spillGone q x z) = stream q d := by
    rw [stream, hgone.hbm]
    show look z.hbm.streams q {} = _
    rw [fhbm]
    rfl
  obtain ⟨einput, epcs, emem, edrops, espill, ebytes, efaces⟩ := streamEnd_empty (q := q) (d := spillGone q x z) (by rw [hgs, hblocks]) (by rw [hgs, hpre])
  refine act_does (f := spillWrite rs) rfl hruns fun e he => ?_
  rw [hrow] at he
  have hq := queue_congr he.tm q
  refine ⟨?_, ?_, ?_, ?_, ?_, ?_, ?_⟩
  · rw [he.tm, einput, hgone.spillIn]
    show z.tm.spillIn = rest
    rw [ftm]
    rfl
  · rw [he.hbm, epcs, hgone.hbm]
    show z.hbm.pcs = _
    rw [fhbm]
  · rw [he.hbm, emem, hgone.hbm]
    show z.hbm.mem = _
    rw [fhbm]
  · rw [he.drops, edrops, hgone.drops]
    exact fdrops
  · rw [hq, espill, hgone.spillPkts, queue_modQueue, hz]
  · rw [hq, ebytes, hgone.bytes, queue_modQueue, hz]
  · rw [he.face, face, efaces, hgone.faces]
    exact fpend

/-- A packet that finds its blocks is laid into its queue's stream (R275, R276). -/
theorem spillWrite_lays (hrest : ∀ y ∈ rest, y.1 ≠ q) (hbuilt : x.rebuilt = none) (hlen : x.len ≤ (cell x.head d).data.length)
    (hstock : ∀ pc < 128, pcUsable pc d = true → (32 + x.len + 255) / 256 + 1 ≤ (pcFree pc d).cache.length) (hsome : ∃ pc < 128, pcUsable pc d = true) :
    Does (.spillWrite rs) s fun e => e.tm.spillIn = rest ∧ (stream q e).recs = (stream q d).recs ++ [{ desc := x, start := (stream q d).wpos }] ∧
      (stream q e).wpos = (stream q d).wpos + 32 + x.len ∧ queue q e = queue q d := by
  obtain ⟨k, hread⟩ := readChain_one (p := .hbm) (d := onTm (fun t => { t with spillIn := rest }) d) hmeta hlast hdata
  have hstream := stream_spillRead (q := q) (rest := rest) (d := d) k
  have hkept := spillRead_kept (rest := rest) (d := d) k
  have hfree (pc : Nat) : pcFree pc (spillRead rest k d) = pcFree pc d := by rw [pcFree, (spillRead_tallies k).hbm]; rfl
  have hsize : newBlocks (stream q d) (32 + x.len) = (32 + x.len + 255) / 256 := by rw [newBlocks, hblocks]; rfl
  have hstocked : Stocked ((32 + x.len + 255) / 256 + (0 + 1)) (spillRead rest k d) := by
    obtain ⟨u, hu, huse⟩ := hsome
    exact ⟨fun pc hpc h => by rw [hfree]; exact hstock pc hpc (by rwa [hkept.usable hpc (hfree pc)] at h), u, hu, by rwa [hkept.usable hu (hfree u)]⟩
  obtain ⟨l, y, hres, hl, hleft, hsy⟩ := reserve_stocked rs _ hstocked
  obtain ⟨b, z, halloc, -, hsz⟩ := allocBlock_stocked hleft rs
  have hs := hsy.trans hsz
  let bytes := beBytes 32 (recordImg x) ++ (x.rebuilt.getD (cell x.head (onTm (fun t => { t with spillIn := rest }) d)).data).take x.len
  let s1 : Stream := { stream q d with recs := (stream q d).recs ++ [{ desc := x, start := (stream q d).wpos }],
                                       unrel := (stream q d).unrel ++ [(x.head, x.tag, (stream q d).wpos + (32 + x.len))], pre := l ++ [b] }
  let d1 := setStream q s1 (inc Pg.TMS 8 z)
  have hsd1 : stream q d1 = s1 := stream_setStream ..
  have hrow : spillWrite rs d = closeTail q (layBytes q (2 * (32 + x.len)) true bytes d1) := by
    have hany : (rest.any fun y => y.1 == q) = false := List.any_eq_false.mpr fun y hy => by simpa using hrest y hy
    unfold spillWrite
    simp only [hin, hread]
    rw [show incBy Pg.CHK 8 k (onTm (fun t => { t with spillIn := rest }) d) = spillRead rest k d from rfl]
    simp only [hstream, hpre, List.length_nil, Nat.sub_zero, hsize, hres, List.nil_append, hl, Nat.lt_irrefl, if_false, halloc, ne_eq, not_true_eq_false,
      hs.stream, hany, Bool.false_eq_true]
    rfl
  have hbytes : bytes.length = 32 + x.len := by
    have h32 : (beBytes 32 (recordImg x)).length = 32 := by simp [beBytes, leBytes]
    simp only [bytes, List.length_append, h32, hbuilt, Option.getD_none, List.length_take]
    rw [show cell x.head (onTm (fun t => { t with spillIn := rest }) d) = cell x.head d from rfl]
    omega
  have hlaid := layBytes_lays q (2 * (32 + x.len)) true bytes d1 (.inl ⟨⟨by rw [hsd1]; simp [s1, hblocks], by rw [hsd1, hbytes]; simp [s1, hl]; omega⟩, by omega⟩)
  have hend := hlaid.trans (closeTail_laid q _)
  have htm : d1.tm = (onTm (fun t => { t with spillIn := rest }) d).tm := by
    show (inc Pg.TMS 8 z).tm = _
    rw [(inc_tallies ..).tm, hs.tm, (spillRead_tallies k).tm]
  refine act_does (f := spillWrite rs) rfl hruns fun e he => ?_
  rw [hrow] at he
  have hes := stream_congr (congrArg Hbm.streams he.hbm) q
  refine ⟨?_, ?_, ?_, ?_⟩
  · rw [he.tm, hend.tm, htm]
    rfl
  · rw [hes, hend.recs, hsd1]
  · rw [hes, hend.wpos, hsd1, hbytes, Nat.add_zero, Nat.add_assoc]
  · rw [queue, he.tm, hend.tm, htm]
    rfl

end

end Sys2Proof.Machine

/-! Reading back: the reads that are issued, streams that are lost, and reads that fail (R279 to R281, R288). -/

namespace Sys2Proof.Machine

open Safety

/-! A lost stream (R281, R288). -/

theorem foldl_spillGone (q : Nat) {code : Nat} (hcode : code ≠ 0) : ∀ (l : List Desc) (d : Dev),
    (l.foldl (fun t x => spillGone q x (drop code t)) d).hbm = d.hbm ∧
      look (l.foldl (fun t x => spillGone q x (drop code t)) d).drops code 0 = look d.drops code 0 + l.length
  | [], d => ⟨rfl, rfl⟩
  | x :: l, d => by
    obtain ⟨khbm, kdrops⟩ := foldl_spillGone q hcode l (spillGone q x (drop code d))
    have h := spillGone_emptied q x (drop code d)
    have hdrop : (drop code d).hbm = d.hbm := by
      unfold drop
      split_ifs
      · rfl
      · exact (inc_tallies ..).hbm
      · rfl
    have hd : (spillGone q x (drop code d)).drops = (drop code d).drops := h.drops
    rw [List.foldl_cons, khbm, kdrops, h.hbm, hd, look_drop_same hcode, List.length_cons]
    exact ⟨hdrop, by omega⟩

/-- What a stream that is lost leaves: nothing of it or of its queue's spilled packets, each of which is counted as dropped. -/
theorem streamLost_shows (q : Nat) {code : Nat} (hcode : code ≠ 0) (kind h : Nat) (d : Dev) :
    stream q (streamLost q code kind h d) = {} ∧ (queue q (streamLost q code kind h d)).spilled = false ∧
      (queue q (streamLost q code kind h d)).spillPkts = 0 ∧
      look (streamLost q code kind h d).drops code 0 =
        look d.drops code 0 + ((stream q d).recs.length + (d.tm.spillIn.filter fun x => x.1 == q).length) ∧
      bit (face (Pg.HBM + stackOf h) (streamLost q code kind h d)).pend 3 = true := by
  unfold streamLost
  extract_lets s page n waiting d1 reads d2 d3 d4 d5 d6
  have h34 : Stores d2 d4 := (Stores.foldl _ (fun t x => Stores.of_inChuck (free_inChuck ..)) s.unrel d2).trans
    (Stores.foldl _ (fun t x => Stores.of_inChuck (free_inChuck ..)) waiting d3)
  obtain ⟨hhbm, hdrops⟩ := foldl_spillGone q hcode (s.recs.map (·.desc) ++ waiting) d4
  have hlen : (s.recs.map (·.desc) ++ waiting).length = (stream q d).recs.length + (d.tm.spillIn.filter fun x => x.1 == q).length := by
    simp [waiting, s]
  have hs2 : stream q d2 = {} := (stream_congr rfl q).trans (stream_setStream q d1 {})
  have hs6 : stream q d6 = {} := (congrArg (fun x : Hbm => look x.streams q {}) hhbm).trans ((h34.stream q).trans hs2)
  have hd6 : look d6.drops code 0 = look d.drops code 0 + ((stream q d).recs.length + (d.tm.spillIn.filter fun x => x.1 == q).length) := by
    rw [show d6.drops = d5.drops from rfl, hdrops, h34.drops, hlen]
    rfl
  have hq6 : queue q d6 = { queue q d5 with spilled := false, asked := 0, spillPkts := 0, spillBytes := 0 } := queue_modQueue ..
  have hcounted : Stores d6 (incBy page 5 n (inc page 4 d6)) := (Stores.of_tallies (inc_tallies ..)).trans (Stores.of_tallies (incBy_tallies ..))
  have hlatch := hbmLatch_stores kind h (fire page 3 (incBy page 5 n (inc page 4 d6)))
  have hall := (hcounted.trans (Stores.of_fire ..)).trans hlatch
  refine ⟨(hall.stream q).trans hs6, ?_, ?_, ?_, hlatch.pends _ _ (bit_pend_fire_same ..)⟩
  · rw [hall.queue, hq6]
  · rw [hall.queue, hq6]
  · rw [hall.drops, hd6]

/-! The row HBM_READ_ISSUE (R279, R311). -/

section
variable {q : Nat} {d : Dev} {b : Blk}

theorem readIssue_holds (h : (queue q d).spilled = false ∨ (stream q d).stalled = true ∨
    rget TMS_CFG.PREFETCH 0 0 d * 1024 ≤ (queue q d).bytes - (queue q d).spillBytes + (queue q d).asked) (k : Nat) : readIssue q k d = d := by
  cases k with
  | zero => rfl
  | succ k =>
    refine if_pos ?_
    simp only [Bool.or_eq_true, Bool.not_eq_true', decide_eq_true_eq]
    exact or_assoc.mpr h

/-- With its one block being read a stream issues nothing more. -/
theorem readIssue_reading (hblocks : (stream q d).blocks = [b]) (hat : b.at_ = .reading) (k : Nat) : readIssue q k d = d := by
  have htail : closeTail q d = d := by
    unfold closeTail
    simp [hblocks, hat]
  cases k with
  | zero => rfl
  | succ k =>
    unfold readIssue
    simp [hblocks, hat, htail]

variable (hspilled : (queue q d).spilled = true) (hstalled : (stream q d).stalled = false)
  (hchip : (queue q d).bytes - (queue q d).spillBytes + (queue q d).asked < rget TMS_CFG.PREFETCH 0 0 d * 1024)
  (hblocks : (stream q d).blocks = [b]) (hat : b.at_ = .written)
include hspilled hstalled hchip hblocks hat

/-- The oldest written block of a stream is the next to be read. -/
theorem readIssue_written (k : Nat) : readIssue q (k + 1) d =
    if pcState (pcOf b.handle) d = 3 then streamLost q 0xD3 3 b.handle d
    else if pcState (pcOf b.handle) d = 2 ∨ 32 ≤ rget HBM_PCk_STAT.OUTST (pcOf b.handle / 32) (pcOf b.handle % 32) d ∨ 1024 ≤ bufferUsed (pcOf b.handle / 32) d
    then d
    else readIssue q k (readMark b.handle (openRow b.handle (inc (Pg.HBM + stackOf b.handle) 1 (outst b.handle (· + 1)
      (modQueue q (fun y => { y with asked := y.asked + b.used }) (setStream q { stream q d with blocks := [{ b with at_ := .reading }] } d)))))) := by
  have hgo : (!(queue q d).spilled || (stream q d).stalled ||
      decide (rget TMS_CFG.PREFETCH 0 0 d * 1024 ≤ (queue q d).bytes - (queue q d).spillBytes + (queue q d).asked)) = false := by
    simp [hspilled, hstalled, hchip]
  conv_lhs => unfold readIssue
  simp only [hgo, Bool.false_eq_true, if_false, hblocks, List.all_cons, hat, bne_self_eq_false, Bool.false_and, List.find?_cons, beq_self_eq_true,
    List.map_cons, List.map_nil, if_true]

end

section
variable {q : BitVec 19} {s : State} {d : Dev} (hruns : Runs 102 s d)
include hruns

theorem hbmReadIssue_holds (h : (queue q.toNat d).spilled = false ∨ (stream q.toNat d).stalled = true ∨
    rget TMS_CFG.PREFETCH 0 0 d * 1024 ≤ (queue q.toNat d).bytes - (queue q.toNat d).spillBytes + (queue q.toNat d).asked) : Leaves (.hbmReadIssue q) s d :=
  act_leaves (f := readStream q.toNat) rfl hruns (readIssue_holds h _)

variable {b : Blk} (hspilled : (queue q.toNat d).spilled = true) (hstalled : (stream q.toNat d).stalled = false)
  (hchip : (queue q.toNat d).bytes - (queue q.toNat d).spillBytes + (queue q.toNat d).asked < rget TMS_CFG.PREFETCH 0 0 d * 1024)
  (hblocks : (stream q.toNat d).blocks = [b]) (hat : b.at_ = .written)
include hspilled hstalled hchip hblocks hat

theorem hbmReadIssue_closed (hclosed : pcState (pcOf b.handle) d = 2) : Leaves (.hbmReadIssue q) s d := by
  refine act_leaves (f := readStream q.toNat) rfl hruns ?_
  rw [readStream, readIssue_written hspilled hstalled hchip hblocks hat, if_neg (by omega), if_pos (.inl hclosed)]

theorem hbmReadIssue_lost (hfailed : pcState (pcOf b.handle) d = 3) : Does (.hbmReadIssue q) s fun e => stream q.toNat e = {} ∧
    (queue q.toNat e).spilled = false ∧ look d.drops 0xD3 0 + (stream q.toNat d).recs.length ≤ look e.drops 0xD3 0 := by
  obtain ⟨hstream, hspill, -, hdrops, -⟩ := streamLost_shows q.toNat (code := 0xD3) (by decide) 3 b.handle d
  refine act_does (f := readStream q.toNat) rfl hruns fun e he => ?_
  rw [readStream, readIssue_written hspilled hstalled hchip hblocks hat, if_pos hfailed] at he
  rw [stream_congr (congrArg Hbm.streams he.hbm), queue_congr he.tm, he.drops, hdrops]
  exact ⟨hstream, hspill, by omega⟩

theorem hbmReadIssue_issues (hopen : pcState (pcOf b.handle) d ≤ 1) (hfew : rget HBM_PCk_STAT.OUTST (stackOf b.handle) (pcOf b.handle % 32) d < 32)
    (hroom : bufferUsed (stackOf b.handle) d < 1024) : Does (.hbmReadIssue q) s fun e =>
      (stream q.toNat e).blocks = [{ b with at_ := .reading }] ∧ (queue q.toNat e).asked = (queue q.toNat d).asked + b.used ∧
      rget HBM_PCk_STAT.OUTST (stackOf b.handle) (pcOf b.handle % 32) e = rget HBM_PCk_STAT.OUTST (stackOf b.handle) (pcOf b.handle % 32) d + 1 := by
  let y := modQueue q.toNat (fun y => { y with asked := y.asked + b.used })
    (setStream q.toNat { stream q.toNat d with blocks := [{ b with at_ := .reading }] } d)
  let z := inc (Pg.HBM + stackOf b.handle) 1 (outst b.handle (· + 1) y)
  have hyz : Stores y z := (outst_stores ..).trans (Stores.of_tallies (inc_tallies ..))
  have hz := (hyz.trans (openRow_stores b.handle z)).trans (readMark_stores b.handle _)
  have hys : stream q.toNat y = { stream q.toNat d with blocks := [{ b with at_ := .reading }] } := (stream_modQueue ..).trans (stream_setStream ..)
  have hyq : (queue q.toNat y).asked = (queue q.toNat d).asked + b.used := by rw [queue_modQueue]; rfl
  have hget : rget HBM_PCk_STAT.OUTST (stackOf b.handle) (pcOf b.handle % 32) z =
      rget HBM_PCk_STAT.OUTST (stackOf b.handle) (pcOf b.handle % 32) d + 1 := by
    rw [show z = inc (Pg.HBM + stackOf b.handle) 1 (outst b.handle (· + 1) y) from rfl, rget_inc, outst, rget_rset_same]
    exact Nat.mod_eq_of_lt (show rget HBM_PCk_STAT.OUTST (stackOf b.handle) (pcOf b.handle % 32) d + 1 < 64 by omega)
  have hrow : readStream q.toNat d = readMark b.handle (openRow b.handle z) := by
    rw [readStream, readIssue_written hspilled hstalled hchip hblocks hat, if_neg (by omega), if_neg (by rw [stackOf] at hfew hroom; omega)]
    exact readIssue_reading (b := { b with at_ := .reading }) (by rw [hz.stream, hys]) rfl _
  refine act_does (f := readStream q.toNat) rfl hruns fun e he => ?_
  rw [hrow] at he
  rw [stream_congr (congrArg Hbm.streams he.hbm), queue_congr he.tm, he.rget, hz.stream, hz.queue, hys, hyq]
  exact ⟨rfl, rfl, hget⟩

end

/-! A read that fails (R280, R281). -/

theorem readerOf_reading {h q : Nat} {b : Blk} {d : Dev} (hr : readerOf h d = some (q, b)) : b.handle = h ∧ b.at_ = .reading := by
  unfold readerOf at hr
  obtain ⟨x, -, hx⟩ := List.exists_of_findSome?_eq_some hr
  obtain ⟨y, hy, heq⟩ := Option.map_eq_some_iff.mp hx
  have hfound := List.find?_some hy
  simp only [Bool.and_eq_true, beq_iff_eq] at hfound
  rw [← (Prod.mk.inj heq).2]
  exact hfound

section
variable {q : Nat} {b : Blk} {img : Option BlkImg} {d : Dev}

/-- A block whose read failed its CRC is read again, at most twice (R280). -/
theorem crcFailed_rereads (hfew : b.tries < 2) (hpc : pcState (pcOf b.handle) d ≠ 3) : crcFailed q b img d =
    setStream q { stream q d with blocks := (stream q d).blocks.map fun y => if y = b then { y with tries := y.tries + 1 } else y }
      (readMark b.handle (inc (Pg.HBM + stackOf b.handle) 2 (overrun (Pg.HBM + stackOf b.handle) d))) := by
  unfold crcFailed
  simp only [hfew, hpc, if_true, if_false]

theorem queue_crcFailed (hfew : b.tries < 2) (hpc : pcState (pcOf b.handle) d ≠ 3) (k : Nat) : queue k (crcFailed q b img d) = queue k d := by
  rw [crcFailed_rereads hfew hpc, queue_setStream]
  exact (((Stores.of_overrun ..).trans (Stores.of_tallies (inc_tallies ..))).trans (readMark_stores ..)).queue k

theorem stream_crcFailed (hfew : b.tries < 2) (hpc : pcState (pcOf b.handle) d ≠ 3) : (stream q (crcFailed q b img d)).blocks =
    (stream q d).blocks.map fun y => if y = b then { y with tries := y.tries + 1 } else y := by
  rw [crcFailed_rereads hfew hpc, stream_setStream]

theorem ctr_overrun (p o k : Nat) : ctr p o (overrun k d) = ctr p o d := by
  unfold overrun perfCount
  dsimp only
  split <;> rfl

theorem crcFailed_counts (hfew : b.tries < 2) (hpc : pcState (pcOf b.handle) d ≠ 3) :
    ctr (Pg.HBM + stackOf b.handle) 0x1010 (crcFailed q b img d) = (ctr (Pg.HBM + stackOf b.handle) 0x1010 d + 1) % 2 ^ 64 ∧
      ctr (Pg.HBM + stackOf b.handle) 0x1050 (crcFailed q b img d) = ctr (Pg.HBM + stackOf b.handle) 0x1050 d := by
  have hkept (o : Nat) (x : Dev) (u : Stream) : ctr (Pg.HBM + stackOf b.handle) o (setStream q u (readMark b.handle x)) =
      ctr (Pg.HBM + stackOf b.handle) o x := rfl
  rw [crcFailed_rereads hfew hpc, hkept, hkept]
  refine ⟨(ctr_inc_same _ 2 _).trans (by rw [ctr_overrun]), ?_⟩
  exact (ctr_incBy_ne (j := 10) (k := 2) (by decide) _ 1 _).trans (ctr_overrun ..)

end

end Sys2Proof.Machine

/-! Streams parsed: packets rebuilt, records dropped, and the rows of blocks that come back (R278 to R281, R288, R311). -/

namespace Sys2Proof.Machine

open Safety

/-! A stream's end (R278, R311). -/

/-- What the end of a stream leaves as it was. -/
structure EndKept (q : Nat) (d e : Dev) : Prop where
  pkts : (queue q e).pkts = (queue q d).pkts
  drops : e.drops = d.drops
  pends : Pends d e

section
variable {q : Nat} {d : Dev}

/-- The blocks of an ended stream return to their pseudo-channels. -/
def blocksFreed (q : Nat) (d : Dev) : Dev :=
  ((stream q d).pre ++ ((stream q d).blocks.filter (·.at_ != .reading)).map (·.handle)).foldl (fun t h => freeBlock h t)
    (onHbm (fun h => { h with strays := h.strays ++ ((stream q d).blocks.filter (·.at_ == .reading)).map fun b => (b.handle, false) }) (setStream q {} d))

theorem streamEnd_eq : streamEnd q d =
    if (queue q d).spillPkts = 0 then modQueue q (fun x => { x with spilled := false, asked := 0 }) (blocksFreed q d) else d := rfl

theorem blocksFreed_stores : Stores (setStream q {} d) (blocksFreed q d) :=
  Stores.trans (b := onHbm (fun h => { h with strays := h.strays ++ ((stream q d).blocks.filter (·.at_ == .reading)).map fun b => (b.handle, false) })
    (setStream q {} d)) (Stores.of_onHbm rfl) (Stores.foldl _ (fun t h => freeBlock_stores h t) _ _)

theorem queue_blocksFreed : queue q (blocksFreed q d) = queue q d := blocksFreed_stores.queue q

theorem streamEnd_kept (q : Nat) (d : Dev) : EndKept q d (streamEnd q d) := by
  have h := blocksFreed_stores (q := q) (d := d)
  rw [streamEnd_eq]
  split
  · exact ⟨by rw [queue_modQueue, queue_blocksFreed], h.drops, h.pends⟩
  · exact ⟨rfl, rfl, fun _ _ h => h⟩

/-- Once its last packet is back a queue spills no more, and no cell has moved. -/
theorem streamEnd_ends (hnone : (queue q d).spillPkts = 0) (hrel : NoRel d) : stream q (streamEnd q d) = {} ∧ (queue q (streamEnd q d)).spilled = false ∧
    (streamEnd q d).chk = d.chk := by
  have hchk := (foldl_freeBlock_quiet ((stream q d).pre ++ ((stream q d).blocks.filter (·.at_ != .reading)).map (·.handle))
    (hrel.of_hbm (e := onHbm (fun h => { h with strays := h.strays ++ ((stream q d).blocks.filter (·.at_ == .reading)).map fun b => (b.handle, false) })
      (setStream q {} d)) rfl rfl)).1
  rw [streamEnd_eq, if_pos hnone, stream_modQueue, blocksFreed_stores.stream, stream_setStream, queue_modQueue]
  exact ⟨rfl, rfl, hchk⟩

end

/-! A stream of one block (R278 to R281). -/

/-- Whether block b holds a byte of record r. -/
def Touches (r : SpillRec) (b : Blk) : Prop := b.ofs < r.start + 32 + r.desc.len ∧ r.start < b.ofs + b.used

/-- The last block of a stream goes back, and the stream ends. -/
def lastBack (q h : Nat) (d : Dev) : Dev := streamEnd q (freeBlock h (setStream q { stream q d with blocks := [] } d))

/-- The bytes of a record that lie in one block. -/
def recBytes (r : SpillRec) (b : Blk) (data : Bytes) : Bytes := (data.take b.used).drop (r.start - b.ofs)

section
variable {q : Nat} {d : Dev} {b : Blk} {r : SpillRec}

theorem freeRead_touched (hblocks : (stream q d).blocks = [b]) (hrecs : (stream q d).recs = [r]) (hfits : Touches r b) :
    freeRead q d = setStream q (stream q d) d := by
  have hdone : decide (b.ofs < r.start + 32 + r.desc.len ∧ r.start < b.ofs + b.used) = true := decide_eq_true hfits
  unfold freeRead
  simp only [hrecs, hblocks, List.any_cons, List.any_nil, hdone, Bool.or_false, Bool.not_true, Bool.and_false, List.filter_cons, List.filter_nil,
    Bool.false_eq_true, if_false, Bool.not_false, if_true, List.map_nil, List.foldl_nil]
  rw [← hblocks, ← hrecs]

theorem freeRead_last (hblocks : (stream q d).blocks = [b]) (hrecs : (stream q d).recs = []) (hback : b.back = true) :
    freeRead q d = freeBlock b.handle (setStream q { stream q d with blocks := [] } d) := by
  unfold freeRead
  simp only [hrecs, hblocks, List.any_nil, hback, Bool.not_false, Bool.and_self, List.filter_cons, List.filter_nil, if_true, Bool.not_true,
    Bool.false_eq_true, if_false, List.map_cons, List.map_nil, List.foldl_cons, List.foldl_nil]

theorem parseStream_none (hrecs : (stream q d).recs = []) (k : Nat) : parseStream q (k + 1) d = streamEnd q d := by
  unfold parseStream
  simp only [hrecs]

theorem blocksOf_one (hblocks : (stream q d).blocks = [b]) (hfits : Touches r b) : blocksOf (stream q d) r = [b] := by
  unfold blocksOf
  rw [hblocks]
  exact List.filter_cons_of_pos (decide_eq_true hfits)

variable (hblocks : (stream q d).blocks = [b]) (hrecs : (stream q d).recs = [r]) (hstalled : (stream q d).stalled = false) (hfits : Touches r b)
include hblocks hrecs hstalled hfits

omit hblocks hrecs hstalled hfits in
/-- The stream's only block, of which nothing is left to deliver, goes back, and the stream ends. -/
theorem parseStream_last (hblocks : (stream q d).blocks = [b]) (hrecs : (stream q d).recs = []) (hback : b.back = true) :
    parseStream q 1 (freeRead q d) = lastBack q b.handle d := by
  rw [freeRead_last hblocks hrecs hback, parseStream_none]
  · rfl
  · rw [(freeBlock_stores ..).stream, stream_setStream]
    exact hrecs

/-- A record whose block is poisoned is dropped, and the stream ends where it was the last one (R281). -/
theorem parseStream_poisoned (hat : b.at_ = .poisoned) : ∃ z, parseStream q 2 d = lastBack q b.handle z ∧ (queue q z).pkts = (queue q d).pkts ∧
    look z.drops 0xD0 0 = look d.drops 0xD0 0 + 1 ∧ Pends d z := by
  have hback : b.back = true := by simp [Blk.back, hat]
  have hrow : parseStream q 2 d = parseStream q 1 (freeRead q (spillGone q r.desc (setStream q { stream q d with recs := [] } (drop 0xD0 d)))) := by
    conv_lhs => unfold parseStream
    simp only [hrecs, blocksOf_one hblocks hfits, List.takeWhile_cons, hback, if_true, List.takeWhile_nil, List.any_cons, hat, beq_self_eq_true, Bool.true_or]
    exact if_neg (by rw [hstalled]; decide)
  have hgone := spillGone_emptied q r.desc (setStream q { stream q d with recs := [] } (drop 0xD0 d))
  have hs : stream q (spillGone q r.desc (setStream q { stream q d with recs := [] } (drop 0xD0 d))) = { stream q d with recs := [] } := by
    rw [stream_congr (congrArg Hbm.streams hgone.hbm), stream_modQueue, stream_setStream]
  refine ⟨_, hrow.trans (parseStream_last (by rw [hs]; exact hblocks) (by rw [hs]) hback), ?_, ?_, fun p n hp => ?_⟩
  · rw [hgone.pkts, queue_modQueue]
    show (queue q (drop 0xD0 d)).pkts = _
    rw [queue_congr (drop_tm ..)]
  · rw [hgone.drops]
    exact look_drop_same (by decide) d
  · rw [face, hgone.faces]
    exact (Gains.of_drop (K := fun _ => True) 0xD0 d).pends p n hp

/-- A record whose block came back good is rebuilt in a new chain, and the stream ends where it was the last one (R279). -/
theorem parseStream_returned {c : Nat} {x : Dev} (hat : b.at_ = .returned) (hmark : bits (beAt (recBytes r b b.data) 0 32) 54 48 = 0x5A)
    (hchain : newChain (rget CHK_SRCs_CFG.BODY_POOL 0 131 d) (recordDesc q (beAt (recBytes r b b.data) 0 32) d).tag .hbm
      (((recBytes r b b.data).drop 32).take (recordDesc q (beAt (recBytes r b b.data) 0 32) d).len) d = (some c, x)) :
    ∃ z, parseStream q 2 d = lastBack q b.handle z ∧
      (queue q z).pkts = (queue q x).pkts ++ [{ recordDesc q (beAt (recBytes r b b.data) 0 32) d with head := c }] ∧
      (queue q z).spillPkts = (queue q x).spillPkts - 1 ∧ z.chk = x.chk ∧ z.hbm.wq = x.hbm.wq ∧ z.hbm.wwait = x.hbm.wwait := by
  have hback : b.back = true := by simp [Blk.back, hat]
  let z := setStream q { stream q d with recs := [] } (modQueue q (fun y => { y with
    pkts := y.pkts ++ [{ recordDesc q (beAt (recBytes r b b.data) 0 32) d with head := c }], spillPkts := y.spillPkts - 1,
    spillBytes := y.spillBytes - (recordDesc q (beAt (recBytes r b b.data) 0 32) d).len }) x)
  have hrow : parseStream q 2 d = parseStream q 1 (freeRead q z) := by
    conv_lhs => unfold parseStream
    simp only [hrecs, blocksOf_one hblocks hfits, List.takeWhile_cons, hback, if_true, List.takeWhile_nil, List.any_cons, List.any_nil, hat,
      List.length_cons, List.length_nil, Nat.lt_irrefl, if_false, List.flatMap_cons, List.flatMap_nil, List.append_nil, List.map_cons, List.map_nil,
      List.headD_cons]
    rw [if_neg (by rw [hstalled]; decide), if_neg (by decide)]
    simp only [recBytes] at hmark hchain
    rw [if_neg (not_not.mpr hmark)]
    simp only [hchain]
    rfl
  have hs : stream q z = { stream q d with recs := [] } := stream_setStream ..
  have hq : queue q z = { queue q x with
      pkts := (queue q x).pkts ++ [{ recordDesc q (beAt (recBytes r b b.data) 0 32) d with head := c }], spillPkts := (queue q x).spillPkts - 1,
      spillBytes := (queue q x).spillBytes - (recordDesc q (beAt (recBytes r b b.data) 0 32) d).len } := (queue_setStream ..).trans (queue_modQueue ..)
  exact ⟨z, hrow.trans (parseStream_last (by rw [hs]; exact hblocks) (by rw [hs]) hback), by rw [hq], by rw [hq], rfl, rfl, rfl⟩

end

/-! The stream's last packet (R278, R279, R311). -/

section
variable {q h : Nat} {d : Dev}

theorem lastBack_stores (q h : Nat) (d : Dev) : Stores (setStream q { stream q d with blocks := [] } d)
    (freeBlock h (setStream q { stream q d with blocks := [] } d)) := freeBlock_stores ..

theorem lastBack_kept (q h : Nat) (d : Dev) : EndKept q d (lastBack q h d) := by
  have hs := lastBack_stores q h d
  have he := streamEnd_kept q (freeBlock h (setStream q { stream q d with blocks := [] } d))
  exact ⟨by rw [lastBack, he.pkts, hs.queue, queue_setStream], he.drops.trans hs.drops, fun p n hp => he.pends p n (hs.pends p n hp)⟩

theorem lastBack_ends (hnone : (queue q d).spillPkts = 0) (hrel : NoRel d) : stream q (lastBack q h d) = {} ∧ (queue q (lastBack q h d)).spilled = false ∧
    (lastBack q h d).chk = d.chk := by
  obtain ⟨hchk, hquiet⟩ := freeBlock_quiet (hrel.of_hbm (e := setStream q { stream q d with blocks := [] } d) rfl rfl) h
  obtain ⟨hstream, hspilled, hkept⟩ := streamEnd_ends (q := q) (by rw [(lastBack_stores q h d).queue]; exact hnone) hquiet
  exact ⟨hstream, hspilled, hkept.trans hchk⟩

end

/-- In device e queue q has gained the packet of record r, rebuilt from the bytes of block b in cell c, and its stream has ended. -/
def Rebuilt (q : Nat) (r : SpillRec) (b : Blk) (data : Bytes) (c : Nat) (d e : Dev) : Prop :=
  (queue q e).pkts = (queue q d).pkts ++ [{ recordDesc q (beAt (recBytes r b data) 0 32) d with head := c }] ∧
    (cell c e).data = ((recBytes r b data).drop 32).take (recordDesc q (beAt (recBytes r b data) 0 32) d).len ∧
    (cell c e).owner = (recordDesc q (beAt (recBytes r b data) 0 32) d).tag ∧ (queue q e).spilled = false ∧ stream q e = {}

theorem Rebuilt.beside {q : Nat} {r : SpillRec} {b : Blk} {data : Bytes} {c : Nat} {d x e : Dev} (h : Rebuilt q r b data c d x) (he : Beside x e) :
    Rebuilt q r b data c d e := by
  unfold Rebuilt
  rw [queue_congr he.tm, cell_congr c (congrArg Chk.cells he.chk), stream_congr (congrArg Hbm.streams he.hbm)]
  exact h

/-- The source's pool has a cell for the packet, and no write is at hand. -/
def RoomFor (l : Bytes) (c : Nat) (t : List Nat) (d : Dev) : Prop :=
  poolEn (rget CHK_SRCs_CFG.BODY_POOL 0 131 d) d = true ∧ (pool (rget CHK_SRCs_CFG.BODY_POOL 0 131 d) d).cache = c :: t ∧
    l.length ≤ 64 * poolStep (rget CHK_SRCs_CFG.BODY_POOL 0 131 d) d

section
variable {q : Nat} {d : Dev} {b : Blk} {r : SpillRec} {c : Nat} {t : List Nat}

theorem parseStream_rebuilds (hblocks : (stream q d).blocks = [b]) (hrecs : (stream q d).recs = [r]) (hstalled : (stream q d).stalled = false)
    (hfits : Touches r b) (hat : b.at_ = .returned) (hmark : bits (beAt (recBytes r b b.data) 0 32) 54 48 = 0x5A)
    (hroom : RoomFor (((recBytes r b b.data).drop 32).take (recordDesc q (beAt (recBytes r b b.data) 0 32) d).len) c t d) (hrel : NoRel d)
    (hone : (queue q d).spillPkts = 1) : Rebuilt q r b b.data c d (parseStream q 2 d) := by
  obtain ⟨hen, hc, hfit⟩ := hroom
  have hchain := newChain_cached (tag := (recordDesc q (beAt (recBytes r b b.data) 0 32) d).tag) (p := .hbm) hen hc hfit
  have hin := newChain_inChuck (rget CHK_SRCs_CFG.BODY_POOL 0 131 d) (recordDesc q (beAt (recBytes r b b.data) 0 32) d).tag .hbm
    (((recBytes r b b.data).drop 32).take (recordDesc q (beAt (recBytes r b b.data) 0 32) d).len) d
  have hcell := cell_chained (rget CHK_SRCs_CFG.BODY_POOL 0 131 d) (recordDesc q (beAt (recBytes r b b.data) 0 32) d).tag c t
    (((recBytes r b b.data).drop 32).take (recordDesc q (beAt (recBytes r b b.data) 0 32) d).len) d
  obtain ⟨z, hrow, hpkts, hspill, hchk, hwq, hwait⟩ := parseStream_returned hblocks hrecs hstalled hfits hat hmark hchain
  rw [hchain] at hin
  have hq := queue_congr hin.tm q
  have hz : NoRel z := hrel.of_hbm (by rw [hwq, hin.hbm]) (by rw [hwait, hin.hbm])
  obtain ⟨hstream, hspilled, hkept⟩ := lastBack_ends (h := b.handle) (by rw [hspill, hq, hone]) hz
  have hcells : cell c (lastBack q b.handle z) = cell c (chained (rget CHK_SRCs_CFG.BODY_POOL 0 131 d) (recordDesc q (beAt (recBytes r b b.data) 0 32) d).tag c t
    (((recBytes r b b.data).drop 32).take (recordDesc q (beAt (recBytes r b b.data) 0 32) d).len) d) := cell_congr c (congrArg Chk.cells (hkept.trans hchk))
  unfold Rebuilt
  rw [hrow, (lastBack_kept ..).pkts, hpkts, hq, hcells, hcell]
  exact ⟨rfl, rfl, rfl, hspilled, hstream⟩

end

/-! The end of a read (R280). -/

theorem writes_none_flds {d : Dev} (hq : d.hbm.wq = []) (hw : d.hbm.wwait = []) (pc : Nat) : (writes pc d).flds = d.flds := by
  unfold writes serveWrites
  simp only [writeQueue, hq, hw, look, find?_nil, Option.getD_none, List.take_nil, List.foldl_nil, List.filter_nil, List.isEmpty_nil, if_true]
  rfl

section
variable (q : Nat) (b : Blk) (at_ : BlkAt) (data : Bytes) (d : Dev)

/-- The device as a read of block b ends, before the writes that waited for it. -/
def readDone : Dev := outst b.handle (· - 1) (modQueue q (fun y => { y with asked := y.asked - b.used })
  (setStream q { stream q d with blocks := (stream q d).blocks.map fun y => if y = b then { y with at_ := at_, data := data } else y } d))

theorem readEnds_eq : readEnds q b at_ data d = writes (pcOf b.handle) (readDone q b at_ data d) := rfl

theorem stream_readEnds : stream q (readEnds q b at_ data d) =
    { stream q d with blocks := (stream q d).blocks.map fun y => if y = b then { y with at_ := at_, data := data } else y } := by
  rw [readEnds_eq, (writes_stores ..).stream, readDone, (outst_stores ..).stream, stream_modQueue, stream_setStream]

theorem queue_readEnds : queue q (readEnds q b at_ data d) = { queue q d with asked := (queue q d).asked - b.used } := by
  rw [readEnds_eq, (writes_stores ..).queue, readDone, (outst_stores ..).queue, queue_modQueue, queue_setStream]

theorem readEnds_drops : (readEnds q b at_ data d).drops = d.drops := by
  rw [readEnds_eq, (writes_stores ..).drops, readDone, (outst_stores ..).drops]
  rfl

theorem readEnds_pends : Pends d (readEnds q b at_ data d) := fun p n hp => (writes_stores ..).pends p n hp

variable {d}

/-- With no write at hand the end of a read moves no cell and no register but the count of outstanding reads. -/
theorem readEnds_quiet (hq : d.hbm.wq = []) (hw : d.hbm.wwait = []) : (readEnds q b at_ data d).chk = d.chk ∧ NoRel (readEnds q b at_ data d) ∧
    ∀ (f : Fld) (g i : Nat), f.lo < 1024 → f.lo ≠ 23 → rget f g i (readEnds q b at_ data d) = rget f g i d := by
  obtain ⟨hchk, hrel⟩ := serveWrites_quiet (pcOf b.handle) ((readDone q b at_ data d).hbm.wwait.length + 1) (noRel_of_none (d := readDone q b at_ data d) hq hw)
  refine ⟨hchk, hrel, fun f g i hlo hne => ?_⟩
  have hwrites : rget f g i (writes (pcOf b.handle) (readDone q b at_ data d)) = rget f g i (readDone q b at_ data d) :=
    rget_congr (by rw [writes_none_flds (d := readDone q b at_ data d) hq hw])
  rw [readEnds_eq, hwrites, readDone, outst, rget_rset_ne]
  · rfl
  · intro hkey
    have hmod := congrArg (· % 1024) hkey
    simp only [key_mod f hlo, key_mod HBM_PCk_STAT.OUTST (by decide)] at hmod
    exact hne hmod

end

end Sys2Proof.Machine

/-! The rows of blocks that come back, and the obligation on spill streams (R279 to R281, R288). -/

namespace Sys2Proof.Machine

open Safety

theorem recordDesc_congr {d e : Dev} (h : devId e = devId d) (q x : Nat) : recordDesc q x e = recordDesc q x d := by rw [recordDesc, recordDesc, h]

theorem roomFor_of_same {l : Bytes} {c : Nat} {t : List Nat} {d e : Dev} (h : RoomFor l c t d) (hchk : e.chk = d.chk)
    (hget : ∀ (f : Fld) (g i : Nat), f.lo < 1024 → f.lo ≠ 23 → rget f g i e = rget f g i d) : RoomFor l c t e := by
  have hpool (n : Nat) : pool n e = pool n d := pool_congr n (congrArg Chk.pools hchk)
  unfold RoomFor poolEn flag poolStep at h ⊢
  have hbody := hget CHK_SRCs_CFG.BODY_POOL 0 131 (by decide) (by decide)
  have hen (n : Nat) := hget CHK_POOLn_CFG.EN 0 n (by decide) (by decide)
  have hsize (n : Nat) := hget CHK_POOLn_CFG.SIZE 0 n (by decide) (by decide)
  rw [hbody, hen, hpool, hsize]
  exact h

/-- A stream of one record is parsed once its block is back. -/
theorem parse_one {q : Nat} {d : Dev} {b : Blk} {r : SpillRec} (hblocks : (stream q d).blocks = [b]) (hrecs : (stream q d).recs = [r])
    (hfits : Touches r b) : parse q d = parseStream q 2 (setStream q (stream q d) d) := by
  unfold parse
  rw [freeRead_touched hblocks hrecs hfits]
  simp only [stream_setStream, hrecs]
  rfl

/-- What runs beside a row leaves the stack's counters. -/
theorem ctr_beside {e x : Dev} (he : Beside x e) (n : Nat) {o : Nat} (ho : o < 65536) : ctr (Pg.HBM + n) o e = ctr (Pg.HBM + n) o x := by
  refine he.counts _ _ ho ?_ ?_ <;> simp only [Pg.HBM, Pg.EVT, Pg.MGT] <;> omega

/-- The one block of a stream stands in it as its read ended. -/
theorem stream_readEnds_one {q : Nat} {d : Dev} {b : Blk} (hblocks : (stream q d).blocks = [b]) (at_ : BlkAt) (data : Bytes) :
    stream q (readEnds q b at_ data d) = { stream q d with blocks := [{ b with at_ := at_, data := data }] } := by
  rw [stream_readEnds, hblocks, List.map_cons, List.map_nil, if_pos rfl]

/-! The row BLOCK_RETURN. -/

section
variable {h : BitVec 30} {flips : List (Fin 2176)} {s : State} {d : Dev} (hruns : Runs (103 + stackOf h.toNat) s d)
include hruns

theorem blockReturn_unread (hnone : readerOf h.toNat d = none) (hstray : ∀ x ∈ d.hbm.strays, x.1 ≠ h.toNat) : Leaves (.blockReturn h flips) s d := by
  have hfind : d.hbm.strays.find? (fun x => x.1 == h.toNat) = none := List.find?_eq_none.mpr fun x hx => by simpa using hstray x hx
  refine act_leaves (f := blockReturn h.toNat flips) rfl hruns ?_
  unfold blockReturn strayBack
  rw [hnone]
  simp only [hfind]

variable {q : Nat} {b : Blk} {img : BlkImg} (hreader : readerOf h.toNat d = some (q, b)) (hheld : blockHeld h.toNat d = some img)
include hreader hheld

omit hruns in
theorem blockReturn_bad (hbad : imgGood (imgFlip flips img) = false) :
    blockReturn h.toNat flips d = crcFailed q b (some (imgFlip flips img)) d := by
  unfold blockReturn
  simp only [hreader, hheld, Option.map_some, hbad, Bool.not_false, if_true]

omit hruns in
theorem blockReturn_good (hgood : imgGood (imgFlip flips img) = true) : blockReturn h.toNat flips d =
    if imgSeq (imgFlip flips img) ≠ b.seq then streamLost q 0xD1 1 h.toNat d else parse q (readEnds q b .returned (imgFlip flips img).data d) := by
  unfold blockReturn
  simp only [hreader, hheld, Option.map_some, hgood, Bool.not_true, Bool.false_eq_true, if_false]

/-- A block whose CRC fails is asked for again (R280). -/
theorem blockReturn_rereads (hbad : imgGood (imgFlip flips img) = false) (hfew : b.tries < 2) (hpc : pcState (pcOf b.handle) d ≠ 3) :
    Does (.blockReturn h flips) s fun e => queue q e = queue q d ∧
      (stream q e).blocks = ((stream q d).blocks.map fun y => if y = b then { y with tries := y.tries + 1 } else y) ∧
      ctr (Pg.HBM + stackOf h.toNat) 0x1010 e = (ctr (Pg.HBM + stackOf h.toNat) 0x1010 d + 1) % 2 ^ 64 := by
  obtain ⟨hhandle, -⟩ := readerOf_reading hreader
  have hcount := (crcFailed_counts (q := q) (img := some (imgFlip flips img)) hfew hpc).1
  rw [hhandle] at hcount
  refine act_does (f := blockReturn h.toNat flips) rfl hruns fun e he => ?_
  rw [blockReturn_bad hreader hheld hbad] at he
  rw [queue_congr he.tm, stream_congr (congrArg Hbm.streams he.hbm), ctr_beside he _ (by decide), queue_crcFailed hfew hpc, stream_crcFailed hfew hpc]
  exact ⟨rfl, rfl, hcount⟩

/-- A block of another SEQ loses its stream (R280, R281). -/
theorem blockReturn_loses (hgood : imgGood (imgFlip flips img) = true) (hseq : imgSeq (imgFlip flips img) ≠ b.seq) (hin : ∀ y ∈ d.tm.spillIn, y.1 ≠ q) :
    Does (.blockReturn h flips) s fun e => stream q e = {} ∧ (queue q e).spilled = false ∧ (queue q e).spillPkts = 0 ∧
      look e.drops 0xD1 0 = look d.drops 0xD1 0 + (stream q d).recs.length ∧ bit (face (Pg.HBM + stackOf h.toNat) e).pend 3 = true := by
  have hnone : d.tm.spillIn.filter (fun x => x.1 == q) = [] := List.filter_eq_nil_iff.mpr fun y hy => by simpa using hin y hy
  obtain ⟨hstream, hspilled, hspill, hdrops, hpend⟩ := streamLost_shows q (code := 0xD1) (by decide) 1 h.toNat d
  rw [hnone] at hdrops
  refine act_does (f := blockReturn h.toNat flips) rfl hruns fun e he => ?_
  rw [blockReturn_good hreader hheld hgood, if_pos hseq] at he
  rw [queue_congr he.tm, stream_congr (congrArg Hbm.streams he.hbm), he.drops, he.face]
  exact ⟨hstream, hspilled, hspill, hdrops, hpend⟩

section
variable {r : SpillRec} (hblocks : (stream q d).blocks = [b]) (hrecs : (stream q d).recs = [r]) (hstalled : (stream q d).stalled = false)
  (hfits : Touches r b)
include hblocks hrecs hstalled hfits

/-- A block that came back good gives its packet back (R279). -/
theorem blockReturn_rebuilds {c : Nat} {t : List Nat} (hgood : imgGood (imgFlip flips img) = true) (hseq : imgSeq (imgFlip flips img) = b.seq)
    (hmark : bits (beAt (recBytes r b (imgFlip flips img).data) 0 32) 54 48 = 0x5A)
    (hroom : RoomFor (((recBytes r b (imgFlip flips img).data).drop 32).take
      (recordDesc q (beAt (recBytes r b (imgFlip flips img).data) 0 32) d).len) c t d) (hwq : d.hbm.wq = []) (hwait : d.hbm.wwait = [])
    (hone : (queue q d).spillPkts = 1) : Does (.blockReturn h flips) s fun e => Rebuilt q r b (imgFlip flips img).data c d e := by
  generalize hx : (imgFlip flips img).data = x at hmark hroom ⊢
  obtain ⟨hchk, hrel, hget⟩ := readEnds_quiet q b .returned x hwq hwait
  have hs := stream_readEnds_one hblocks .returned x
  have hq := queue_readEnds q b .returned x d
  have hrow : blockReturn h.toNat flips d = parse q (readEnds q b .returned x d) := by
    rw [blockReturn_good hreader hheld hgood, if_neg (not_not.mpr hseq), hx]
  generalize readEnds q b .returned x d = y at hchk hrel hget hs hq hrow
  have hdesc (n : Nat) : recordDesc q n y = recordDesc q n d := recordDesc_congr (hget _ _ _ (by decide) (by decide)) q n
  have hbuilt := parseStream_rebuilds (q := q) (d := setStream q (stream q y) y) (b := { b with at_ := .returned, data := x }) (r := r) (c := c) (t := t)
    (by rw [stream_setStream, hs]) (by rw [stream_setStream, hs]; exact hrecs) (by rw [stream_setStream, hs]; exact hstalled) hfits rfl hmark
    (by
      show RoomFor (((recBytes r b x).drop 32).take (recordDesc q (beAt (recBytes r b x) 0 32) y).len) c t y
      rw [hdesc]
      exact roomFor_of_same hroom hchk hget)
    (hrel.of_hbm rfl rfl) (by rw [queue_setStream, hq]; exact hone)
  refine act_does (f := blockReturn h.toNat flips) rfl hruns fun e he => ?_
  rw [hrow, parse_one (by rw [hs]) (by rw [hs]; exact hrecs) (b := { b with at_ := .returned, data := x }) hfits] at he
  obtain ⟨hpkts, hdata, howner, hspilled, hstream⟩ := hbuilt.beside he
  have hqy : (queue q (setStream q (stream q y) y)).pkts = (queue q d).pkts := by rw [queue_setStream, hq]
  have hdesc' (n : Nat) : recordDesc q n (setStream q (stream q y) y) = recordDesc q n d := hdesc n
  rw [hqy, hdesc'] at hpkts
  rw [hdesc'] at hdata howner
  exact ⟨hpkts, hdata, howner, hspilled, hstream⟩

/-- A block that fails for the third time is poisoned; where its link is good only its packets are dropped (R281). -/
theorem blockReturn_poisons {n : Nat} (hbad : imgGood (imgFlip flips img) = false) (hlink : imgLink (imgFlip flips img) = some n)
    (hnext : (nextOf (stream q d) b).all (· == n) = true) (hmany : 2 ≤ b.tries) : Does (.blockReturn h flips) s fun e =>
      look e.drops 0xD0 0 = look d.drops 0xD0 0 + 1 ∧ (queue q e).pkts = (queue q d).pkts ∧ bit (face (Pg.HBM + stackOf h.toNat) e).pend 2 = true := by
  obtain ⟨hhandle, -⟩ := readerOf_reading hreader
  let y := hbmLatch 0 b.handle (fire (Pg.HBM + stackOf b.handle) 2 (inc (Pg.HBM + stackOf b.handle) 3 d))
  have hlatch := hbmLatch_stores 0 b.handle (fire (Pg.HBM + stackOf b.handle) 2 (inc (Pg.HBM + stackOf b.handle) 3 d))
  have hy : Stores d y := ((Stores.of_tallies (inc_tallies ..)).trans (Stores.of_fire ..)).trans hlatch
  have hypend : bit (face (Pg.HBM + stackOf h.toNat) y).pend 2 = true := hhandle ▸ hlatch.pends _ _ (bit_pend_fire_same ..)
  have hrow : blockReturn h.toNat flips d = parse q (readEnds q b .poisoned [] y) := by
    rw [blockReturn_bad hreader hheld hbad]
    unfold crcFailed
    simp only [show ¬b.tries < 2 by omega, if_false, Option.bind_some, hlink, hnext, if_true]
    rfl
  have hs := stream_readEnds_one (d := y) (by rw [hy.stream]; exact hblocks) .poisoned []
  rw [hy.stream] at hs
  have hq := queue_readEnds q b .poisoned [] y
  have hdrops := readEnds_drops q b .poisoned [] y
  have hpend := readEnds_pends q b .poisoned [] y _ _ hypend
  generalize readEnds q b .poisoned [] y = z at hrow hs hq hdrops hpend
  obtain ⟨u, hparse, hpkts, hcount, hpends⟩ := parseStream_poisoned (q := q) (d := setStream q (stream q z) z) (b := { b with at_ := .poisoned, data := [] }) (r := r)
    (by rw [stream_setStream, hs]) (by rw [stream_setStream, hs]; exact hrecs) (by rw [stream_setStream, hs]; exact hstalled) hfits rfl
  have hend := lastBack_kept q b.handle u
  refine act_does (f := blockReturn h.toNat flips) rfl hruns fun e he => ?_
  rw [hrow, parse_one (by rw [hs]) (by rw [hs]; exact hrecs) (b := { b with at_ := .poisoned, data := [] }) hfits, hparse] at he
  rw [he.drops, hend.drops, hcount, queue_congr he.tm, hend.pkts, hpkts, queue_setStream, hq, hy.queue, he.face]
  refine ⟨?_, rfl, hend.pends _ _ (hpends _ _ hpend)⟩
  show look z.drops 0xD0 0 + 1 = _
  rw [hdrops, hy.drops]

end

end

/-! The row HBM_READ_TIMEOUT. -/

section
variable {h : BitVec 30} {s : State} {d : Dev} (hruns : Runs (103 + stackOf h.toNat) s d)
include hruns

theorem hbmReadTimeout_leaves (hno : ¬look d.hbm.readAt h.toNat 0 + rget HBM_X_READ_TMO.US (stackOf h.toNat) 0 d * 1000 ≤ d.mono ∨
    (readerOf h.toNat d = none ∧ ∀ x ∈ d.hbm.strays, x.1 ≠ h.toNat)) : Leaves (.hbmReadTimeout h) s d := by
  refine act_leaves (f := readTimeout h.toNat) rfl hruns ?_
  unfold readTimeout
  split
  · rfl
  next hdue =>
    obtain ⟨hnone, hstray⟩ := hno.resolve_left fun hearly => hdue (by omega)
    rw [hnone]
    refine if_neg fun hany => ?_
    obtain ⟨x, hx, hxh⟩ := List.any_eq_true.mp hany
    exact hstray x hx (by simpa using hxh)

theorem hbmReadTimeout_rereads {q : Nat} {b : Blk} (hdue : look d.hbm.readAt h.toNat 0 + rget HBM_X_READ_TMO.US (stackOf h.toNat) 0 d * 1000 ≤ d.mono)
    (hreader : readerOf h.toNat d = some (q, b)) (hpc : pcState (pcOf b.handle) d ≠ 3) (hfew : b.tries < 2) : Does (.hbmReadTimeout h) s fun e =>
      queue q e = queue q d ∧ ctr (Pg.HBM + stackOf h.toNat) 0x1010 e = (ctr (Pg.HBM + stackOf h.toNat) 0x1010 d + 1) % 2 ^ 64 ∧
      ctr (Pg.HBM + stackOf h.toNat) 0x1050 e = (ctr (Pg.HBM + stackOf h.toNat) 0x1050 d + 1) % 2 ^ 64 := by
  obtain ⟨hhandle, -⟩ := readerOf_reading hreader
  have hpc' : pcState (pcOf b.handle) (inc (Pg.HBM + stackOf h.toNat) 10 d) ≠ 3 := by rw [pcState, rget_inc]; exact hpc
  obtain ⟨hrereads, hlates⟩ := crcFailed_counts (q := q) (img := none) hfew hpc'
  rw [hhandle] at hrereads hlates
  have hrow : readTimeout h.toNat d = crcFailed q b none (inc (Pg.HBM + stackOf h.toNat) 10 d) := by
    unfold readTimeout
    rw [if_neg (by omega), hreader]
  refine act_does (f := readTimeout h.toNat) rfl hruns fun e he => ?_
  rw [hrow] at he
  rw [queue_congr he.tm, ctr_beside he _ (by decide), ctr_beside he _ (by decide), queue_crcFailed hfew hpc', hrereads, hlates]
  refine ⟨(Stores.of_tallies (inc_tallies ..)).queue q, ?_, ctr_inc_same _ 10 d⟩
  rw [show ctr (Pg.HBM + stackOf h.toNat) 0x1010 (inc (Pg.HBM + stackOf h.toNat) 10 d) = ctr (Pg.HBM + stackOf h.toNat) 0x1010 d from
    ctr_incBy_ne (j := 2) (k := 10) (by decide) _ 1 d]

end

/-! The row RETURN_RETRY. -/

section
variable {q : BitVec 19} {s : State} {d : Dev} (hruns : Runs 102 s d)
include hruns

theorem returnRetry_leaves (h : (stream q.toNat d).stalled = false ∨ poolAvail d 5 (rget CHK_SRCs_CFG.BODY_POOL 0 131 d) = false) :
    Leaves (.returnRetry q) s d := by
  refine act_leaves (f := returnRetry q.toNat) rfl hruns (if_neg ?_)
  rw [Bool.and_eq_true]
  rintro ⟨hstalled, hready⟩
  obtain h | h := h
  · rw [h] at hstalled
    cases hstalled
  · rw [h] at hready
    cases hready

theorem returnRetry_rebuilds {b : Blk} {r : SpillRec} {c : Nat} {t : List Nat} (hstalled : (stream q.toNat d).stalled = true)
    (hready : poolAvail d 5 (rget CHK_SRCs_CFG.BODY_POOL 0 131 d) = true) (hblocks : (stream q.toNat d).blocks = [b]) (hat : b.at_ = .returned)
    (hrecs : (stream q.toNat d).recs = [r]) (hfits : Touches r b) (hmark : bits (beAt (recBytes r b b.data) 0 32) 54 48 = 0x5A)
    (hroom : RoomFor (((recBytes r b b.data).drop 32).take (recordDesc q.toNat (beAt (recBytes r b b.data) 0 32) d).len) c t d) (hwq : d.hbm.wq = [])
    (hwait : d.hbm.wwait = []) (hone : (queue q.toNat d).spillPkts = 1) : Does (.returnRetry q) s fun e => Rebuilt q.toNat r b b.data c d e := by
  have hrow : returnRetry q.toNat d = parseStream q.toNat 2 (setStream q.toNat { stream q.toNat d with stalled := false } d) := by
    unfold returnRetry
    simp only [hstalled, hready, Bool.and_self, if_true, hrecs]
    rfl
  have hbuilt := parseStream_rebuilds (q := q.toNat) (d := setStream q.toNat { stream q.toNat d with stalled := false } d)
    (by rw [stream_setStream]; exact hblocks) (by rw [stream_setStream]; exact hrecs) (by rw [stream_setStream]) hfits hat hmark hroom
    (noRel_of_none hwq hwait) (by rw [queue_setStream]; exact hone)
  refine act_does (f := returnRetry q.toNat) rfl hruns fun e he => ?_
  rw [hrow] at he
  exact hbuilt.beside he

end

/-- Settles O25: each clause is the lemma of its row. -/
theorem spillStreams : Obligations.SpillStreams := by
  unfold Obligations.SpillStreams
  refine ⟨?_, ?_, ?_, ?_, ?_, ?_, ?_⟩
  · exact fun rs s d q x rest hruns hin hrest hmeta hlast hdata hblocks hpre hbuilt hlen hstock hsome =>
      spillWrite_lays hruns hin hmeta hlast hdata hblocks hpre hrest hbuilt hlen hstock hsome
  · exact fun rs s d q x rest hruns hin hmeta hlast hdata hblocks hpre hnone => spillWrite_drops hruns hin hmeta hlast hdata hblocks hpre hnone
  · exact fun q s d hruns => ⟨hbmReadIssue_holds hruns, fun b hspilled hstalled hchip hblocks hat =>
      ⟨hbmReadIssue_closed hruns hspilled hstalled hchip hblocks hat, hbmReadIssue_issues hruns hspilled hstalled hchip hblocks hat,
        hbmReadIssue_lost hruns hspilled hstalled hchip hblocks hat⟩⟩
  · exact fun h flips s d hruns => blockReturn_unread hruns
  · intro h flips s d q b img page hruns hreader hheld x
    refine ⟨fun r c t hgood hseq hblocks hrecs hstalled hfits hmark hroom hone => ?_, blockReturn_rereads hruns hreader hheld,
      fun r n hbad hlink hnext hmany hblocks hrecs hstalled hfits => blockReturn_poisons hruns hreader hheld hblocks hrecs hstalled hfits hbad hlink hnext hmany,
      blockReturn_loses hruns hreader hheld⟩
    obtain ⟨hen, hc, hfit, hwq, hwait⟩ := hroom
    exact blockReturn_rebuilds hruns hreader hheld hblocks hrecs hstalled hfits hgood hseq hmark ⟨hen, hc, hfit⟩ hwq hwait hone
  · exact fun h s d hruns => ⟨hbmReadTimeout_leaves hruns, fun q b hdue hreader hpc hfew => hbmReadTimeout_rereads hruns hdue hreader hpc hfew⟩
  · refine fun q s d hruns => ⟨returnRetry_leaves hruns, fun b r c t hstalled hready hblocks hat hrecs hfits hmark hroom hone => ?_⟩
    obtain ⟨hen, hc, hfit, hwq, hwait⟩ := hroom
    exact returnRetry_rebuilds hruns hstalled hready hblocks hat hrecs hfits hmark ⟨hen, hc, hfit⟩ hwq hwait hone

end Sys2Proof.Machine
